-- ==== Sys2Proof/Word.lean ====
section
/-! DEFINITION. The word types, the unit numbers of Table 00-3 and their plainest arithmetic. -/

namespace Sys2Proof

/-- One byte of a memory or of a message. -/
abbrev Byte := BitVec 8

/-- A 32-bit register word of CTLBAR (R457). -/
abbrev W32 := BitVec 32

/-- A 64-bit word: a native word (R141), a scalar register, a template word. -/
abbrev W64 := BitVec 64

/-- Die 0 to 3 (R6, Table 00-3). -/
abbrev DieId := Fin 4
/-- Cluster 0 to 31 (R6). -/
abbrev ClusterId := Fin 32
/-- Core 0 to 255 (R6). -/
abbrev CoreId := Fin 256
/-- Firn stack 0 to 31 (R6). -/
abbrev StackId := Fin 32
/-- Firn channel 0 to 63 of a stack (R6). -/
abbrev FirnChan := Fin 64
/-- Control core CC0 to CC15 (R6). -/
abbrev CcId := Fin 16
/-- Clock region 0 to 36 (R6). -/
abbrev RegionId := Fin 37
/-- Fabric port 0 to 15 (R6). -/
abbrev PortId := Fin 16
/-- Task slot 0 to 3 (R132). -/
abbrev SlotId := Fin 4
/-- Floe definition 0 to 31 of a cluster (R189). -/
abbrev FloeId := Fin 32
/-- Stream descriptor 0 to 63 (R237). -/
abbrev DescId := Fin 64
/-- Inbound channel end 0 to 15 (R225). -/
abbrev EndId := Fin 16
/-- Outbound channel 0 to 63 (R226). -/
abbrev ChanId := Fin 64
/-- Sync counter c0 to c47 (R212). -/
abbrev CtrId := Fin 48
/-- Host mover 0 to 15 (R366). -/
abbrev MoverId := Fin 16
/-- Link 0 to 7 of a cluster node (R195). -/
abbrev LinkId := Fin 8
/-- Port 0 to 15 of a channel controller: core ports 0 to 7, then stack links 0 to 7 (R162). -/
abbrev FirnPort := Fin 16

/-- Bits [lo + w - 1 : lo] of a number (Table 00-5, bit numbering). -/
def bits (x lo w : Nat) : Nat := x >>> lo % 2 ^ w

/-- The number with bits [lo + w - 1 : lo] replaced by v. -/
def setBits (x lo w v : Nat) : Nat :=
  (x >>> (lo + w)) * 2 ^ (lo + w) + (v % 2 ^ w) * 2 ^ lo + x % 2 ^ lo

/-- The two's complement value of a w-bit pattern. -/
def signed (w x : Nat) : Int :=
  if x % 2 ^ w < 2 ^ (w - 1) then ((x % 2 ^ w : Nat) : Int) else ((x % 2 ^ w : Nat) : Int) - ((2 ^ w : Nat) : Int)

/-- The w-bit two's complement pattern of an integer. -/
def unsigned (w : Nat) (x : Int) : Nat := (x % ((2 ^ w : Nat) : Int)).toNat

/-- Quotient rounded up. -/
def ceilDiv (a b : Nat) : Nat := (a + b - 1) / b

/-- A count that stops at its maximum (saturating registers). -/
def satAdd (max a b : Nat) : Nat := min max (a + b)

end Sys2Proof
end

