-- ==== Sys2Proof/Syntax.lean ====
section
/-! DEFINITION. The commands of the block: one constructor of Instr per row of the table of operations and events. -/

namespace Sys2Proof

/-- The source of a register access (R459): the host, the host's ring (REGW, R372), JTAG (R437) or a control core (R387). -/
inductive Src where
  | host
  | ring
  | jtag
  | cc (k : CcId)
  deriving DecidableEq, Repr

/-- A wake source of Table 14-3 (WAKE_SRC) and R313. -/
inductive WakeSrc where
  | command | interrupt | wakeIn | pcie | alarm | fabric | access
  deriving DecidableEq, Repr

/-- A temperature sensor (R453): the junction of a region or the case of a stack. -/
inductive Sensor where
  | junction (r : RegionId)
  | firnCase (s : StackId)
  deriving DecidableEq, Repr

/-- The transport header of a fabric packet (Table 15-2). -/
structure PktHdr where
  typ     : Nat
  status  : Nat
  dstPkg  : Nat
  srcPkg  : Nat
  tag     : Nat
  tgen    : Nat
  addr    : Nat
  len     : Nat
  sctr    : Nat
  score   : Nat
  sgen    : Nat
  scount  : Nat
  sig     : Bool
  seq     : Nat
  regions : Nat
  deriving DecidableEq, Repr

/-- A fabric packet: its header and its payload bytes, with the byte mask of a DELTA (R334, R351). -/
structure Packet where
  hdr     : PktHdr
  payload : List Byte
  mask    : List Bool
  deriving DecidableEq, Repr

/-- An output of a die's switch (R196 to R198): an inbound link of a cluster node, a link of an edge
leaving a die, or a fabric port. -/
inductive SwOut where
  | inbound (c : ClusterId) (l : LinkId)
  | edge (d : DieId) (k : Fin 2) (l : Fin 9)
  | fabric (p : PortId)
  deriving DecidableEq, Repr

/-- A crossing that native alignment measures (R287, R288): between a cluster region and its die's service region, or over edge n of die d (R461). -/
inductive Crossing where
  | cluster (c : ClusterId)
  | edge (d : DieId) (n : Fin 2)
  deriving DecidableEq, Repr

/-- What a die's regulator reports (R318): its output, and whether STATUS_WORD shows a fault. -/
structure RailReport where
  millivolts : BitVec 10
  fault      : Bool
  deriving DecidableEq, Repr

/-- A reading of a die's current (R319). -/
structure DieCurrent where
  die  : DieId
  amps : BitVec 8
  deriving DecidableEq, Repr

/-- What the two sides of a port exchange in training (R326): package ID and port number. -/
structure PeerId where
  pkg  : BitVec 16
  port : BitVec 4
  deriving DecidableEq, Repr

/-- A write of an entry of the MSI-X table (R359): message address and data, and the mask bit of its vector control. -/
structure VecWrite where
  vector : Fin 64
  addr   : W64
  data   : W32
  masked : Bool
  deriving DecidableEq, Repr

/-- A sensor or state request of SMBus (R447). -/
inductive SmbRequest where
  | hottestJunction | hottestFirn | power | powerState
  deriving DecidableEq, Repr

/-- A queue end of a Turmi module (Table 12-2, Table 12-4). -/
inductive QEnd where
  | flow
  | streamConsumer (filled freed : Nat) (producer : Nat) (b : Nat)
  | streamProducer (desc freed b : Nat)
  | recv (ich sd : Nat)
  | send (och handler sx len : Nat)
  | tokenPop (c k : Nat)
  | tokenPush (c k : Nat) (vcore : Nat)
  deriving DecidableEq, Repr

/-- A task record (Table 12-2). `code` is the index of a CODE section in the section table, `entry` an operation of that section. -/
structure TurmiTask where
  vcore : Nat
  slot  : Nat
  rank  : Nat
  lo    : Nat
  hi    : Nat
  vmask : Nat
  code  : Nat
  entry : Nat
  deriving DecidableEq, Repr

/-- A virtual stack record (Table 12-2). -/
structure TurmiStack where
  vstk  : Nat
  bound : Bool
  mode  : Nat
  bytes : Nat
  deriving DecidableEq, Repr

/-- An outbound channel record (Table 12-2, CHAN). -/
structure TurmiOch where
  vcore   : Nat
  och     : Nat
  reply   : Bool
  rres    : Bool
  ich     : Nat
  rplyEnd : Nat
  dcore   : Nat
  drank   : Nat
  allot   : Nat
  deriving DecidableEq, Repr

/-- An inbound end record (Table 12-2, CHAN). -/
structure TurmiIch where
  vcore     : Nat
  ich       : Nat
  reply     : Bool
  rank      : Nat
  owner     : Nat
  autoclose : Bool
  deriving DecidableEq, Repr

/-- Where a template record belongs (Table 12-2, DESC): its virtual core and descriptor. -/
structure TurmiDesc where
  vcore : Nat
  desc  : Nat
  deriving DecidableEq, Repr

/-- The records of a Turmi module whose byte layout the spec does not give (Table 12-2 gives their size and contents; entry 12), in the order of the image: `vcl` a
virtual cluster and its mask of local cores, `descs` the place of each template, `routes` the virtual cluster of each INJ_TAB image, `floes` a virtual cluster, a
definition, its cores, its slot and IDLE_OK, `ccfg` a virtual core, a counter, OWNER and CHECK, `data` a virtual stack, an offset and the bytes. The header, the section
table, operations, templates, INJ_TAB images and relocation entries are read from the image itself. -/
structure TurmiRecs where
  vcl     : List (Nat × Nat)
  vstk    : List TurmiStack
  tasks   : List TurmiTask
  qends   : List QEnd
  och     : List TurmiOch
  ich     : List TurmiIch
  descs   : List TurmiDesc
  routes  : List Nat
  floes   : List (Nat × Nat × Nat × Nat × Bool)
  ccfg    : List (Nat × Nat × Nat × Bool)
  data    : List (Nat × Nat × List Byte)
  deriving DecidableEq, Repr

/-- What the loader finds when it reads a LOAD's module (R376, Table 16-6): the read failed on the host side, or the LEN bytes of the image, the records that its bytes
spell, and the 32 bytes of a map. The bytes of a module in firn are those that firn holds. -/
inductive ModuleRead where
  | hostError
  | content (image : List Byte) (recs : TurmiRecs) (map : Option (List Nat))
  deriving DecidableEq, Repr

/-- A firmware image (R403): the manifest's bytes and the payload's bytes, or a failed flash read. -/
inductive ImageRead where
  | noFirn
  | failed
  | bytes (manifest payload : List Byte)
  deriving DecidableEq, Repr

/-- The commands. Each constructor is one row of the table; its docstring cites the rule that governs it. -/
inductive Instr where
  -- native words (R144): the sequencer of `core` issues the group led by such a word
  | nop (core : CoreId)
  | loop (core : CoreId)
  | endl (core : CoreId)
  | jmp (core : CoreId)
  | aadd (core : CoreId)
  | yieldW (core : CoreId)
  | halt (core : CoreId)
  | sldcfg (core : CoreId)
  | sldgo (core : CoreId)
  | mxcfg (core : CoreId)
  | mxgo (core : CoreId)
  | swrcfg (core : CoreId)
  | swrgo (core : CoreId)
  | vadd (core : CoreId)
  | vsub (core : CoreId)
  | vmul (core : CoreId)
  | vfma (core : CoreId)
  | vmax (core : CoreId)
  | vmin (core : CoreId)
  | vabs (core : CoreId)
  | vneg (core : CoreId)
  | vcmp (core : CoreId)
  | vsel (core : CoreId)
  | vexp (core : CoreId)
  | vlog (core : CoreId)
  | vrcp (core : CoreId)
  | vrsq (core : CoreId)
  | vred (core : CoreId)
  | vcvt (core : CoreId)
  | vstat (core : CoreId)
  | vstfin (core : CoreId)
  | vnorm (core : CoreId)
  | vperm (core : CoreId)
  | vshuf (core : CoreId)
  | vpack (core : CoreId)
  | vunpk (core : CoreId)
  | vget (core : CoreId)
  | vsetvl (core : CoreId)
  | vupdsr (core : CoreId)
  | waitc (core : CoreId)
  | sigc (core : CoreId)
  | lfence (core : CoreId)
  | mircommit (core : CoreId)
  | send (core : CoreId)
  | recv (core : CoreId)
  | strmarm (core : CoreId)
  -- matrix engine, loader and writer events (03, 05)
  | tileRowLoad (core : CoreId)
  | tileReady (core : CoreId)
  | weightColumnEnter (core : CoreId)
  | checkColumnInject (core : CoreId)
  | abftCheck (core : CoreId)
  | drainColumnEmit (core : CoreId)
  | mxeOpComplete (core : CoreId)
  | passThroughItemRead (core : CoreId)
  | vxeQueueStart (core : CoreId)
  | swrWritePerformed (core : CoreId)
  -- floe and task events (05, 08)
  | floeStallBegin (cluster : ClusterId) (floe : FloeId) (reason : BitVec 4)
  | floeStallEnd (cluster : ClusterId) (floe : FloeId)
  | throttleHold (cluster : ClusterId)
  | stallTimeout (cluster : ClusterId) (floe : FloeId)
  | quiescenceComplete (core : CoreId)
  | switchComplete (core : CoreId)
  | idleCoreSelect (core : CoreId)
  -- counters and channels (09)
  | signalApply (core : CoreId)
  | messageArrive (core : CoreId) (srcPkg : BitVec 16) (srcCore : CoreId) (srcOch : ChanId)
  | messageReturn (core : CoreId) (och : ChanId)
  | creditReturn (core : CoreId) (och : ChanId)
  -- descriptors and near-bank commands (10, 07)
  | descWaitComplete (core : CoreId) (desc : DescId)
  | descRequestIssue (core : CoreId) (desc : DescId)
  | descDataWrite (core : CoreId) (desc : DescId)
  | descComplete (core : CoreId) (desc : DescId)
  | fenceRelease (core : CoreId) (desc : DescId)
  | gather (core : CoreId) (desc : DescId)
  | gatherSum (core : CoreId) (desc : DescId)
  | kvFetch (core : CoreId) (desc : DescId)
  | expandSparse (core : CoreId) (desc : DescId)
  | expandCodebook (core : CoreId) (desc : DescId)
  | expandSparseCodebook (core : CoreId) (desc : DescId)
  -- firn (07)
  | firnRequestEnter (stack : StackId) (chan : FirnChan) (port : FirnPort)
  | firnReadReturn (stack : StackId) (chan : FirnChan) (port : FirnPort)
  | firnWritePerformed (stack : StackId) (chan : FirnChan) (port : FirnPort)
  | readModifyWrite (stack : StackId) (chan : FirnChan) (port : FirnPort)
  | refreshSlot (stack : StackId)
  | refreshRegimeChange (stack : StackId) (temp : BitVec 8)
  | selfRefreshExit (stack : StackId)
  | firnInitDone (stack : StackId)
  -- stream network (08, 13)
  | packetInject (cluster : ClusterId) (link : LinkId) (source : BitVec 4) (slot : BitVec 8) (first : SwOut) (rest : List SwOut)
  | packetSwitchEnter (out : SwOut)
  | turnBufferRelease (out : SwOut)
  | turnHoldRelease (out : SwOut)
  | packetDeliver (cluster : ClusterId) (link : LinkId)
  | wheelHold (die : DieId)
  | wheelStart (die : DieId) (neighbour : Option DieId) (transit : BitVec 8)
  -- clocks and time base (13)
  | droopStretch (region : RegionId) (two : Bool)
  | crossingAlign (crossing : Crossing) (margin3 : Bool)
  | pllNChange (region : RegionId)
  | marginWarn (cluster : ClusterId) (code : BitVec 6)
  | autostep (cluster : ClusterId) (code : BitVec 6)
  | refloss
  | refclkReturn
  | tbSyncInEdge
  | timeExchange
  | syncLost
  | tbAlarmFire
  | tbSyncOutPulse
  -- power (14)
  | pwrReqRun (src : Src)
  | pwrReqIdle (src : Src)
  | pwrReqSleep (src : Src)
  | pwrReqDeep (src : Src)
  | pwrReqOff (src : Src)
  | idleClusterGate (cluster : ClusterId)
  | gatedClusterAccess (cluster : ClusterId)
  | sleepEntryComplete
  | deepEntryComplete
  | offEntry
  | wakeDetect (source : WakeSrc)
  | railSettled (die : DieId) (report : RailReport)
  | regionPowerUp (region : RegionId)
  | pllLock (region : RegionId)
  | wakeComplete
  | activityRampStep (cluster : ClusterId)
  | powerLimiterSample (watts : BitVec 13)
  | thermalLevelUpdate (cluster : ClusterId) (tjRegion tjService tFirn : BitVec 8)
  | brownout (die : DieId) (amps : BitVec 5)
  | ivrLpExit (current : DieCurrent)
  | dvfsTargetWrite (src : Src) (value : W64)
  | settleTimeout (die : DieId)
  | padRelease (src : Src)
  | thermtrip (sensor : Sensor) (temp : BitVec 8)
  | thermalWarn (sensor : Sensor) (temp : BitVec 8)
  | mainPowerLoss
  | mainSuppliesPresent
  | vauxPowerUp (railMode bootSrc : Bool)
  | vauxLoss
  -- resets (21)
  | rstFloe (src : Src) (index : BitVec 10)
  | rstCore (src : Src) (index : BitVec 10)
  | rstCluster (src : Src) (index : BitVec 10)
  | rstDie (src : Src) (index : BitVec 10)
  | rstPackage (src : Src) (index : BitVec 10)
  | resetComplete
  | perstN
  | functionLevelReset
  -- host (16)
  | hostLinkTrain (rate : BitVec 3) (width : BitVec 5) (flit : Bool)
  | hostLinkLoss
  | busMasterEnable (on : Bool)
  | ctlbarBadAccess (write : Bool) (offset : BitVec 26) (size : Nat)
  | firnbarRead (offset : BitVec 36) (len : Nat)
  | firnbarWrite (offset : BitVec 36) (data : List Byte)
  | hringPoll (head : Option W32) (entries : Option (List (List W64)))
  | hringEnable (src : Src)
  | hringDisable (src : Src)
  | hostNop
  | move
  | load (read : ModuleRead)
  | regw
  | signalCommand
  | power
  | closeCommand
  | moverComplete (mover : MoverId) (hostData : Option (List Byte))
  | loadComplete
  | hostIrqEnWrite (src : Src) (value : W64)
  | sessReq (src : Src) (kind : Bool)
  | sessSubmit (src : Src)
  | sessClose (src : Src)
  | lockoutExpiry
  | provision (src : Src)
  | provisionDone
  | dbgUnlock (src : Src)
  | dbgLock (src : Src)
  | lifecycleRelease (src : Src)
  | bootRomRun (image : ImageRead)
  | bootPushStart (src : Src)
  | bootPushData (src : Src) (value : W64)
  | bootPushDone (src : Src)
  | attestReq (src : Src)
  | attestSignDone
  -- fabric and mirror (15)
  | fabPortEnable (src : Src) (port : PortId)
  | fabPortDisable (src : Src) (port : PortId)
  | trainingDone (port : PortId) (lane0 lane1 lane2 lane3 : Bool) (peer : PeerId)
  | trainingTimeout (port : PortId)
  | lpExit (port : PortId)
  | fabWakeSend (src : Src) (port : PortId)
  | flitReceive (port : PortId) (flit : List Byte)
  | linkDown (port : PortId) (cause : BitVec 3)
  | ethFrameReceive (port : PortId) (addresses body fcs : List Byte)
  | rtoExpiry (port : PortId)
  | write (port : PortId) (pkt : Packet)
  | read (port : PortId) (pkt : Packet)
  | readData (port : PortId) (pkt : Packet)
  | ack (port : PortId) (pkt : Packet)
  | error (port : PortId) (pkt : Packet)
  | msg (port : PortId) (pkt : Packet)
  | credit (port : PortId) (pkt : Packet)
  | fabricSignal (port : PortId) (pkt : Packet)
  | timeReq (port : PortId) (t1 : W64)
  | timeRsp (port : PortId) (t1 t2 t3 : W64) (retried : Bool)
  | wakePacket (port : PortId)
  | delta (pkt : Packet)
  | commit (pkt : Packet)
  | commitApply
  | commitAck (pkt : Packet)
  | trackerTimeout (tag : BitVec 16)
  | mirCtlWrite (src : Src) (low high : BitVec 16)
  | mirrorLag
  -- service complex (17)
  | ccRun (src : Src) (cc : CcId)
  | ccReset (src : Src) (cc : CcId)
  | ccSig (cc : CcId) (value : W64)
  | ccHostirq (cc : CcId) (value : W64)
  | ccTimerInterrupt (cc : CcId)
  | ccExternalInterrupt (cc : CcId)
  | ccRemoteStore (cc : CcId) (offset : BitVec 40) (data : List Byte)
  | ccRemoteLoad (cc : CcId) (offset : BitVec 40) (len : Nat)
  | ccStoreAccess (cc : CcId) (addr : BitVec 48) (len : Nat) (data : Option (List Byte))
  | ownerProgramException (cc : CcId) (cause : BitVec 8) (pc : BitVec 56)
  | srvRequestPoll
  | servingStep (tokens : List (BitVec 32 × Bool))
  -- training, moraine, ledgers, trace (11, 19, 20, 21)
  | sclRoll (src : Src) (core : CoreId)
  | monClose (src : Src) (core : CoreId)
  | mlogRelease (src : Src) (die : DieId)
  | ledgerSnapshot
  | trcEnableWrite (src : Src) (die : DieId) (value : W32)
  | trcBufWrite (src : Src) (die : DieId) (value : W64)
  | trcMark (src : Src) (die : DieId) (value : W32)
  | tracePacketWrite (die : DieId) (slot : BitVec 8) (slotBusy : Bool)
  -- TAP and SMBus (21, 22)
  | bypass
  | idcode
  | samplePreload (pins : List Bool)
  | extest
  | clamp
  | highz
  | extestPulse
  | extestTrain
  | dbgReg (shift : BitVec 96)
  | trstN
  | smbusMctpRequest (req : SmbRequest)
  | smbusArp (addr : BitVec 7)
  -- register writes with a behaviour of their own, and plain ones (23)
  | taskStart (src : Src) (core : CoreId) (slot : SlotId)
  | taskClear (src : Src) (core : CoreId) (slot : SlotId)
  | floeStart (src : Src) (cluster : ClusterId) (floe : FloeId)
  | floeClear (src : Src) (cluster : ClusterId) (floe : FloeId)
  | floeHold (src : Src) (cluster : ClusterId) (floe : FloeId) (hold : Bool)
  | floeDefWrite (src : Src) (cluster : ClusterId) (floe : FloeId) (value : W32)
  | coreCtlWrite (src : Src) (core : CoreId) (value : W32)
  | ctrAdvance (src : Src) (core : CoreId) (ctr : CtrId)
  | ctrValueWrite (src : Src) (core : CoreId) (ctr : CtrId) (value : BitVec 16)
  | ichClose (src : Src) (core : CoreId) (ich : EndId)
  | ichReopenKeep (src : Src) (core : CoreId) (ich : EndId)
  | ichReopenFlush (src : Src) (core : CoreId) (ich : EndId)
  | descTemplateWrite (src : Src) (core : CoreId) (desc : DescId) (word : Fin 8) (value : W64)
  | firnMapWrite (src : Src) (stack : StackId) (mode : Bool)
  | firnRefreshWrite (src : Src) (stack : StackId) (rate : BitVec 2)
  | tbValueWrite (src : Src) (value : W64)
  | tbLowRead (src : Src)
  | legacyWrite (src : Src) (cluster : ClusterId) (legacy : Bool)
  | pkgIdWrite (src : Src) (value : W32)
  | debugRegisterWrite (src : Src) (core : CoreId) (offset : BitVec 16) (value : W64) (wide : Bool)
  | registerWrite (src : Src) (offset : BitVec 26) (wide : Bool) (value : W64)
  | unlistedOpcode (core : CoreId)
  | testLogicReset
  | peerLp (port : PortId) (inLp : Bool)
  | msixUnmask (entry : VecWrite)
  deriving DecidableEq, Repr

end Sys2Proof
end

