-- ==== Sys2Proof/Decode.lean ====
section
/-! DEFINITION. The command that a word spells by the bits of the table of operations and events. The table gives bits to no row (R144's native words are words of a
core's instruction store, read by the sequencer in Machine/NativeWord.lean), so no word spells a command. -/

namespace Sys2Proof

/-- The command of a word of the table's bits: none, since no row has bits. -/
def decodeTableWord (_nbits _w : Nat) : Option Instr := none

end Sys2Proof
end

