-- ==== Sys2Proof/Machine/Float.lean ====
section
/-! DEFINITION. The number formats and their arithmetic (02_number_formats.md, R26 to R57): decoding every element format to
an exact value, rounding an exact value into a format with its flags, exact sums and products, and correctly rounded
functions (R96). -/

namespace Sys2Proof.Machine

/-- FP_FLAGS bits (Table 02-11). -/
def fInvalid : Nat := 1
def fOverflow : Nat := 2
def fUnderflow : Nat := 4
def fIntSat : Nat := 8
def fNanBlock : Nat := 16
def fClip : Nat := 32

/-- The value of an element: NaN, a signed infinity, or the exact number (-1)^neg · m · 2^e with the sign of zero kept. -/
inductive FV where
  | nan
  | inf (neg : Bool)
  | fin (neg : Bool) (m : Nat) (e : Int)
  deriving DecidableEq, Repr

/-- A code with the FP_FLAGS bits that forming it sets. -/
structure Res where
  code : Nat
  fl   : Nat
  deriving DecidableEq, Repr

/-- A float encoding of Table 02-2. -/
structure FSpec where
  ebits  : Nat
  mbits  : Nat
  hasInf : Bool
  hasNan : Bool
  deriving DecidableEq, Repr

/-- The encoding of a plain float format code 0 to 7 (Table 02-1, Table 02-2). -/
def floatSpec (f : Nat) : FSpec :=
  if f = 0 then ⟨8, 23, true, true⟩
  else if f = 1 then ⟨8, 7, true, true⟩
  else if f = 2 then ⟨5, 10, true, true⟩
  else if f = 3 then ⟨4, 3, false, true⟩
  else if f = 4 then ⟨5, 2, true, true⟩
  else if f = 5 then ⟨3, 2, false, false⟩
  else if f = 6 then ⟨2, 3, false, false⟩
  else ⟨2, 1, false, false⟩

/-- FP32. -/
def sp32 : FSpec := floatSpec 0

/-- The exponent bias: 2^(e-1) - 1. -/
def FSpec.bias (s : FSpec) : Nat := 2 ^ (s.ebits - 1) - 1
/-- The code of the largest finite magnitude (Table 02-2). -/
def FSpec.maxCode (s : FSpec) : Nat :=
  if s.hasInf then (2 ^ s.ebits - 1) * 2 ^ s.mbits - 1
  else if s.hasNan then 2 ^ (s.ebits + s.mbits) - 2
  else 2 ^ (s.ebits + s.mbits) - 1
/-- The code of infinity. -/
def FSpec.infCode (s : FSpec) : Nat := (2 ^ s.ebits - 1) * 2 ^ s.mbits
/-- The sign bit. -/
def FSpec.signBit (s : FSpec) : Nat := 2 ^ (s.ebits + s.mbits)
/-- The canonical NaN (R30). -/
def FSpec.canonNan (s : FSpec) : Nat :=
  if s.hasInf then s.infCode + 2 ^ (s.mbits - 1) else 2 ^ (s.ebits + s.mbits) - 1
/-- The exponent of the least significant bit of a subnormal. -/
def FSpec.tiny (s : FSpec) : Int := 1 - (s.bias : Int) - (s.mbits : Int)

/-- The value of a float code (R28, Table 02-2). -/
def decodeFloat (s : FSpec) (c : Nat) : FV :=
  let neg := decide (c / s.signBit % 2 = 1)
  let mag := c % s.signBit
  let e := mag / 2 ^ s.mbits
  let m := mag % 2 ^ s.mbits
  if s.hasInf && decide (s.infCode ≤ mag) then
    if m = 0 then .inf neg else .nan
  else if s.hasNan && !s.hasInf && decide (s.maxCode < mag) then .nan
  else if e = 0 then .fin neg m s.tiny
  else .fin neg (2 ^ s.mbits + m) (s.tiny + (e : Int) - 1)

/-- The FMT field of a specifier. -/
def fmtCode (f : Nat) : Nat := f % 16
/-- A specifier that Table 02-1 marks illegal, or one beyond 5 bits (R26, R27). -/
def fmtIllegal (f : Nat) : Bool := decide (32 ≤ f) || (decide (16 ≤ f) && !(f % 16 == 12 || f % 16 == 13))
/-- A plain integer format. -/
def fmtIsInt (f : Nat) : Bool := decide (8 ≤ fmtCode f) && decide (fmtCode f < 12)
/-- An MX block format (R34). -/
def fmtIsMx (f : Nat) : Bool := decide (12 ≤ fmtCode f)
/-- The class of Table 02-1: float unless a plain integer. -/
def fmtIsFloat (f : Nat) : Bool := !fmtIsInt f
/-- The element width in bits (Table 02-1). -/
def fmtWidth (f : Nat) : Nat :=
  match fmtCode f with
  | 0 => 32 | 1 => 16 | 2 => 16 | 3 => 8 | 4 => 8 | 5 => 6 | 6 => 6 | 7 => 4
  | 8 => 32 | 9 => 16 | 10 => 8 | 11 => 4 | 12 => 8 | 13 => 6 | 14 => 4 | _ => 8
/-- The plain float code of an MX element (Table 02-4); MXINT8 has none. -/
def mxElem (f : Nat) : Nat :=
  if fmtCode f = 12 then (if f < 16 then 3 else 4)
  else if fmtCode f = 13 then (if f < 16 then 6 else 5)
  else 7
/-- The encoding of a float-class element that is not MXINT8. -/
def elemSpec (f : Nat) : FSpec := floatSpec (if fmtIsMx f then mxElem f else fmtCode f)

/-- The number of an integer, as a value. -/
def intFV (x : Int) (e : Int) : FV := .fin (decide (x < 0)) x.natAbs e

/-- The value of an element before its MX scale (R28, R32, Table 02-3). -/
def decodeElem (f c : Nat) : FV :=
  if fmtIsInt f then intFV (signed (fmtWidth f) c) 0
  else if fmtCode f = 15 then intFV (signed 8 c) (-6)
  else decodeFloat (elemSpec f) c

/-- The value of an element under scale byte x (R29, R34). -/
def scaleFV (x : Nat) (v : FV) : FV :=
  if x = 0xFF then .nan
  else match v with
    | .fin n m e => .fin n m (e + (x : Int) - 127)
    | w => w

/-- m / 2^sh rounded to an integer under mode rm (0 RNE, 1 RTZ, 2 RDN, 3 RUP; Table 02-5), for a magnitude of sign
neg; sticky says that the exact magnitude lies strictly between m and m + 1 (R40). -/
def roundShift (rm : Nat) (neg : Bool) (m : Nat) (sticky : Bool) (sh : Nat) : Nat :=
  let q := m >>> sh
  let r := m % 2 ^ sh
  let inexact := decide (r ≠ 0) || sticky
  let up :=
    if rm = 0 then
      decide (2 ^ sh < 2 * r) || (decide (2 * r = 2 ^ sh) && (sticky || decide (q % 2 = 1)))
    else if rm = 1 then false
    else if rm = 2 then inexact && neg
    else inexact && !neg
  if up then q + 1 else q

/-- The result of an overflow (Table 02-6). -/
def overflowCode (s : FSpec) (rm : Nat) (sat neg : Bool) : Nat :=
  if s.hasInf && !sat && (decide (rm = 0) || (decide (rm = 2) && neg) || (decide (rm = 3) && !neg)) then s.infCode
  else s.maxCode

/-- A code with its sign. -/
def withSign (s : FSpec) (neg : Bool) (mag : Nat) : Nat := if neg then s.signBit + mag else mag

/-- The code of the magnitude m·2^e (plus a part below one unit when sticky) on the grid of s, before the overflow rule: its
order is the order of magnitudes, and it may exceed every code of the format. -/
def roundMag (s : FSpec) (rm : Nat) (neg : Bool) (m : Nat) (e : Int) (sticky : Bool) : Nat :=
  if m = 0 then (if sticky then roundShift rm neg 0 true 8 else 0)
  else
    let top := e + (m.log2 : Int)
    let g := max (top - (s.mbits : Int)) s.tiny
    let q := if g > e then roundShift rm neg m sticky (g - e).toNat else m <<< (e - g).toNat
    (g - s.tiny).toNat * 2 ^ s.mbits + q

/-- A finite exact value rounded into a float format (R40, R42). -/
def roundFin (s : FSpec) (rm : Nat) (sat neg : Bool) (m : Nat) (e : Int) (sticky : Bool) : Res :=
  let c := roundMag s rm neg m e sticky
  if s.maxCode < c then ⟨withSign s neg (overflowCode s rm sat neg), fOverflow⟩
  else if c = 0 ∧ (m ≠ 0 ∨ sticky = true) then ⟨withSign s neg 0, fUnderflow⟩
  else ⟨withSign s neg c, 0⟩

/-- Any value converted to a float format (R42, R43, Table 02-7). -/
def toFloat (s : FSpec) (rm : Nat) (sat : Bool) : FV → Res
  | .nan => if s.hasNan then ⟨s.canonNan, 0⟩ else ⟨0, fInvalid⟩
  | .inf n =>
    if s.hasInf && !sat then ⟨withSign s n s.infCode, 0⟩ else ⟨withSign s n s.maxCode, fOverflow⟩
  | .fin n m e => roundFin s rm sat n m e false

/-- An integer saturated to w bits (R44, R46). -/
def satInt (w : Nat) (x : Int) : Res :=
  let hi : Int := ((2 ^ (w - 1) - 1 : Nat) : Int)
  let lo : Int := -((2 ^ (w - 1) : Nat) : Int)
  if x > hi then ⟨unsigned w hi, fIntSat⟩
  else if x < lo then ⟨unsigned w lo, fIntSat⟩
  else ⟨unsigned w x, 0⟩

/-- A finite value rounded to an integer. -/
def roundToInt (rm : Nat) (neg : Bool) (m : Nat) (e : Int) : Int :=
  let q : Nat := if e < 0 then roundShift rm neg m false (-e).toNat else m <<< e.toNat
  if neg then -(q : Int) else (q : Int)

/-- Any value converted to a w-bit integer (R44, R46). -/
def toInt (w rm : Nat) : FV → Res
  | .nan => ⟨0, fInvalid⟩
  | .inf n => ⟨unsigned w (if n then -((2 ^ (w - 1) : Nat) : Int) else ((2 ^ (w - 1) - 1 : Nat) : Int)), fIntSat⟩
  | .fin n m e => satInt w (roundToInt rm n m e)

/-- A value converted to a plain format (R42 to R46). -/
def toPlain (f rm : Nat) (sat : Bool) (v : FV) : Res :=
  if fmtIsInt f then toInt (fmtWidth f) rm v else toFloat (floatSpec (fmtCode f)) rm sat v

/-- A finite magnitude above the largest finite magnitude of a float encoding. -/
def exceedsMax (s : FSpec) (m : Nat) (e : Int) : Bool :=
  match decodeFloat s s.maxCode with
  | .fin _ M E =>
    let lo := min e E
    decide (M <<< (E - lo).toNat < m <<< (e - lo).toNat)
  | _ => false

/-- One element of an MX format (R48, last step): x already divided by the block scale, RNE, saturating; a float magnitude above the
largest finite value counts as saturated, as element 0 of the worked example does, while an MXINT8 element is rounded first. -/
def mxElement (f : Nat) (neg : Bool) (m : Nat) (e : Int) : Res :=
  if fmtCode f = 15 then
    let q := roundToInt 0 neg m (e + 6)
    let c := (satInt 8 q).code
    ⟨c, (if (satInt 8 q).fl ≠ 0 then fClip else 0) ||| (if c = 0 ∧ m ≠ 0 then fUnderflow else 0)⟩
  else
    let s := elemSpec f
    if exceedsMax s m e then ⟨withSign s neg s.maxCode, fClip⟩
    else
      let r := roundFin s 0 true neg m e false
      ⟨r.code, if r.fl = fUnderflow then fUnderflow else 0⟩

/-- emax of an MX element (R48). -/
def mxEmax (f : Nat) : Int :=
  match fmtCode f with
  | 12 => if f < 16 then 8 else 15
  | 13 => if f < 16 then 2 else 4
  | 14 => 2
  | _ => 0

/-- The magnitude of a value compared with another: m1·2^e1 < m2·2^e2. -/
def magLt (m1 : Nat) (e1 : Int) (m2 : Nat) (e2 : Int) : Bool :=
  let lo := min e1 e2
  decide (m1 <<< (e1 - lo).toNat < m2 <<< (e2 - lo).toNat)

/-- Largest magnitude of a block of finite values; none when a NaN or an infinity stands in it. -/
def blockAmax : List FV → Option (Nat × Int)
  | [] => some (0, 0)
  | .fin _ m e :: vs =>
    match blockAmax vs with
    | some (m2, e2) => if magLt m e m2 e2 || m == 0 then some (m2, e2) else some (m, e)
    | none => none
  | _ :: _ => none

/-- Elements of a block divided by 2^sx. -/
def mxElements (f : Nat) (sx : Int) (vs : List FV) : List Res :=
  vs.map fun v => match v with
    | .fin n m e => mxElement f n m (e - sx)
    | .inf n => mxElement f n 1 4096
    | .nan => ⟨0, 0⟩

/-- A block quantised with a computed scale (R48): its scale byte, element codes and flags. -/
def mxQuantise (f : Nat) (vs : List FV) : Nat × List Nat × Nat :=
  match blockAmax vs with
  | none => (0xFF, vs.map (fun _ => 0), fNanBlock)
  | some (m, e) =>
    if m = 0 then
      let rs := mxElements f 0 vs
      (0, rs.map Res.code, 0)
    else
      let sx := max (-127) (min 127 (e + (m.log2 : Int) - mxEmax f))
      let rs := mxElements f sx vs
      ((sx + 127).toNat, rs.map Res.code, rs.foldl (fun a r => a ||| r.fl) 0)

/-- A block converted under a supplied scale byte (R49). Under a finite scale the block keeps it, and an element that is NaN or infinite converts by itself: a NaN to the
canonical NaN of MXFP8 with no flag, and to +0 with INVALID in an element format without NaN, as R43 has it; an infinity saturates (DEDUCED, entry 9). -/
def mxSupplied (f x : Nat) (vs : List FV) : List Nat × Nat :=
  if x = 0xFF then (vs.map (fun _ => 0), fNanBlock)
  else
    let rs := vs.map fun v => match v with
      | .fin n m e => mxElement f n m (e - ((x : Int) - 127))
      | .inf n => mxElement f n 1 4096
      | .nan => if fmtCode f = 12 then ⟨(elemSpec f).canonNan, 0⟩ else ⟨0, fInvalid⟩
    (rs.map Res.code, rs.foldl (fun a r => a ||| r.fl) 0)

/-- Negation. -/
def FV.neg : FV → FV
  | .nan => .nan
  | .inf n => .inf (!n)
  | .fin n m e => .fin (!n) m e

/-- Magnitude. -/
def FV.abs : FV → FV
  | .nan => .nan
  | .inf _ => .inf false
  | .fin _ m e => .fin false m e

/-- Whether a value is NaN. -/
def FV.isNan : FV → Bool
  | .nan => true
  | _ => false

/-- The signed integer of a finite value in units of 2^lo, lo at most its exponent. -/
def scaledInt (n : Bool) (m : Nat) (e lo : Int) : Int :=
  let a : Nat := m <<< (e - lo).toNat
  if n then -(a : Int) else (a : Int)

/-- The exact sum (IEEE 754 signs of zero under RNE, R31). -/
def FV.add : FV → FV → FV
  | .nan, _ => .nan
  | _, .nan => .nan
  | .inf a, .inf b => if a = b then .inf a else .nan
  | .inf a, .fin _ _ _ => .inf a
  | .fin _ _ _, .inf b => .inf b
  | .fin a m e, .fin b m' e' =>
    if m = 0 ∧ m' = 0 then .fin (a && b) 0 (min e e')
    else
      let lo := min e e'
      let x := scaledInt a m e lo + scaledInt b m' e' lo
      .fin (decide (x < 0)) x.natAbs lo

/-- The exact product. -/
def FV.mul : FV → FV → FV
  | .nan, _ => .nan
  | _, .nan => .nan
  | .inf a, .inf b => .inf (a != b)
  | .inf a, .fin b m _ => if m = 0 then .nan else .inf (a != b)
  | .fin a m _, .inf b => if m = 0 then .nan else .inf (a != b)
  | .fin a m e, .fin b m' e' => .fin (a != b) (m * m') (e + e')

/-- a < b as numbers; a NaN is unordered, and the zeros are equal. -/
def FV.lt : FV → FV → Bool
  | .nan, _ => false
  | _, .nan => false
  | .inf a, .inf b => a && !b
  | .inf a, .fin _ _ _ => a
  | .fin _ _ _, .inf b => !b
  | .fin a m e, .fin b m' e' =>
    let lo := min e e'
    decide (scaledInt a m e lo < scaledInt b m' e' lo)

/-- a = b as numbers (−0 equals +0, R97). -/
def FV.eq (a b : FV) : Bool := !a.isNan && !b.isNan && !a.lt b && !b.lt a

/-- The sign of a value. -/
def FV.isNeg : FV → Bool
  | .nan => false
  | .inf n => n
  | .fin n _ _ => n

/-- Maximum or minimum: the other operand when one is NaN, and −0 below +0 (R41). -/
def FV.pick (isMax : Bool) (a b : FV) : FV :=
  if a.isNan then b
  else if b.isNan then a
  else
    let aLess := a.lt b || (a.eq b && a.isNeg && !b.isNeg)
    if isMax then (if aLess then b else a) else (if b.lt a || (a.eq b && b.isNeg && !a.isNeg) then b else a)

/-- A rounded result whose exact value is r: INVALID when a NaN was formed from operands that are not NaN. -/
def finishOp (s : FSpec) (anyNan : Bool) (r : FV) : Res :=
  let q := toFloat s 0 false r
  if r.isNan && !anyNan then ⟨q.code, q.fl ||| fInvalid⟩ else q

/-- FP32 value of a code. -/
def dec32 (c : Nat) : FV := decodeFloat sp32 (c % 2 ^ 32)

/-- FP32 addition, RNE. -/
def add32 (a b : Nat) : Res := finishOp sp32 ((dec32 a).isNan || (dec32 b).isNan) ((dec32 a).add (dec32 b))
/-- FP32 subtraction, RNE. -/
def sub32 (a b : Nat) : Res := finishOp sp32 ((dec32 a).isNan || (dec32 b).isNan) ((dec32 a).add (dec32 b).neg)
/-- FP32 multiplication, RNE. -/
def mul32 (a b : Nat) : Res := finishOp sp32 ((dec32 a).isNan || (dec32 b).isNan) ((dec32 a).mul (dec32 b))
/-- FP32 maximum or minimum. -/
def pick32 (isMax : Bool) (a b : Nat) : Nat := (toFloat sp32 0 false (FV.pick isMax (dec32 a) (dec32 b))).code

/-- The quotient num / den · 2^e to at least 70 bits, with what is left as sticky. -/
def divBits (num den : Nat) : Nat × Int × Bool :=
  let k := (den.log2 + 72) - num.log2
  let n := num <<< k
  (n / den, -(k : Int), decide (n % den ≠ 0))

/-- num / den · 2^e rounded RNE to a float format; den is not 0. -/
def roundQuot (s : FSpec) (neg : Bool) (num den : Nat) (e : Int) : Res :=
  if num = 0 then ⟨withSign s neg 0, 0⟩
  else
    let (q, k, st) := divBits num den
    roundFin s 0 false neg q (k + e) st

/-- FP32 division, RNE. -/
def div32 (a b : Nat) : Res :=
  match dec32 a, dec32 b with
  | .nan, _ => ⟨sp32.canonNan, 0⟩
  | _, .nan => ⟨sp32.canonNan, 0⟩
  | .inf _, .inf _ => ⟨sp32.canonNan, fInvalid⟩
  | .inf x, .fin y _ _ => ⟨withSign sp32 (x != y) sp32.infCode, 0⟩
  | .fin x _ _, .inf y => ⟨withSign sp32 (x != y) 0, 0⟩
  | .fin x m e, .fin y m' e' =>
    if m' = 0 then
      if m = 0 then ⟨sp32.canonNan, fInvalid⟩ else ⟨withSign sp32 (x != y) sp32.infCode, 0⟩
    else roundQuot sp32 (x != y) m m' (e - e')

/-- Integer square root by bits, highest first. -/
def isqrtGo (n : Nat) : Nat → Nat → Nat
  | 0, r => r
  | k + 1, r => let t := r + 2 ^ k; isqrtGo n k (if t * t ≤ n then t else r)

/-- The integer square root, rounded down. -/
def isqrt (n : Nat) : Nat := isqrtGo n (n.log2 / 2 + 1) 0

/-- The square root of m·2^e to 70 bits and more: mantissa, exponent, sticky. -/
def sqrtBits (m : Nat) (e : Int) : Nat × Int × Bool :=
  let odd := decide (e % 2 = 1)
  let m1 := if odd then 2 * m else m
  let e1 := if odd then e - 1 else e
  let n := m1 <<< 160
  let r := isqrt n
  (r, e1 / 2 - 80, decide (r * r ≠ n))

/-- Square root rounded RNE to FP32 (R264). -/
def sqrt32 (a : Nat) : Res :=
  match dec32 a with
  | .nan => ⟨sp32.canonNan, 0⟩
  | .inf n => if n then ⟨sp32.canonNan, fInvalid⟩ else ⟨sp32.infCode, 0⟩
  | .fin n m e =>
    if m = 0 then ⟨withSign sp32 n 0, 0⟩
    else if n then ⟨sp32.canonNan, fInvalid⟩
    else let (q, k, st) := sqrtBits m e; roundFin sp32 0 false false q k st

/-- 2 · Σ z^(2i+1)/(2i+1) · 2^P for z = num/den, the sum of the inverse hyperbolic tangent's series, in fixed point. -/
def atanhGo (P : Nat) (z2 : Int) : Nat → Nat → Int → Int → Int
  | 0, _, _, s => s
  | k + 1, i, t, s => atanhGo P z2 k (i + 1) (t * z2 / ((2 ^ P : Nat) : Int)) (s + t / ((2 * i + 1 : Nat) : Int))

/-- ln((1+z)/(1-z)) in units of 2^-P, for z given in units of 2^-P, |z| at most 0.34. -/
def ln1p (P : Nat) (z : Int) : Int :=
  2 * atanhGo P (z * z / ((2 ^ P : Nat) : Int)) (P / 3 + 8) 0 z 0

/-- ln 2 in units of 2^-P. -/
def ln2Fix (P : Nat) : Int := ln1p P (((2 ^ P : Nat) : Int) / 3)

/-- Taylor terms of the exponential in fixed point. -/
def expGo (P : Nat) (r : Int) : Nat → Nat → Int → Int → Int
  | 0, _, _, s => s
  | k + 1, i, t, s =>
    let t2 := t * r / (((i + 1) * 2 ^ P : Nat) : Int)
    expGo P r k (i + 1) t2 (s + t2)

/-- A bound in units of 2^-P on the error of the fixed-point functions at every precision used. -/
def fixErr : Int := 2 ^ 24

/-- Brackets e^x at precision P: the exact value lies in [lo, hi]·2^e (x = (-1)^n·m·2^ex, |x| ≤ 256). -/
def expBracket (n : Bool) (m : Nat) (ex : Int) (P : Nat) : Int × Int × Int :=
  let x : Int := if 0 ≤ ex + (P : Int) then scaledInt n m (ex + P) 0
    else (if n then -((m >>> (-(ex + (P : Int))).toNat : Nat) : Int) else ((m >>> (-(ex + (P : Int))).toNat : Nat) : Int))
  let l2 := ln2Fix P
  let k := (2 * x + l2) / (2 * l2)
  let r := x - k * l2
  let one : Int := ((2 ^ P : Nat) : Int)
  let v := expGo P r (P / 4 + 16) 0 one one
  (v - fixErr, v + fixErr, k - (P : Int))

/-- Brackets ln(m·2^ex) at precision P, plus an addend (-1)^n·am·2^ae. -/
def lnBracket (m : Nat) (ex : Int) (addNeg : Bool) (am : Nat) (ae : Int) (P : Nat) : Int × Int × Int :=
  -- m·2^ex = f·2^k with f in [2/3, 4/3)
  let L := m.log2
  let up := decide (2 ^ (L + 2) ≤ 3 * m)
  let k : Int := ex + (L : Int) + (if up then 1 else 0)
  let den := 2 ^ (if up then L + 1 else L)
  let z : Int := ((m : Int) - (den : Int)) * ((2 ^ P : Nat) : Int) / ((m : Int) + (den : Int))
  let v := ln1p P z + k * ln2Fix P
  let a : Int := if 0 ≤ ae + (P : Int) then scaledInt addNeg am (ae + P) 0
    else (if addNeg then -((am >>> (-(ae + (P : Int))).toNat : Nat) : Int) else ((am >>> (-(ae + (P : Int))).toNat : Nat) : Int))
  (a + v - fixErr, a + v + fixErr, -(P : Int))

/-- A signed integer times 2^e rounded RNE to a float format. -/
def roundInt (s : FSpec) (x : Int) (e : Int) : Res := roundFin s 0 false (decide (x < 0)) x.natAbs e false

/-- Rounds a value known by brackets: the precision doubles until both ends round alike (R96: correctly rounded). The values are
irrational here, so both ends agree at some precision; the fuel bounds the search. -/
def zivRound (s : FSpec) (f : Nat → Int × Int × Int) : Nat → Nat → Res
  | 0, P => let (lo, _, e) := f P; roundInt s lo e
  | k + 1, P =>
    let (lo, hi, e) := f P
    let a := roundInt s lo e
    let b := roundInt s hi e
    if a = b then a else zivRound s f k (2 * P)

/-- Precisions 96, 192, 384, 768 and 1536 are tried. -/
def zivFuel : Nat := 4

/-- An infinite result in any float format (Table 02-6, SAT = 0; Table 02-7). -/
def infRes (s : FSpec) (neg : Bool) : Res := toFloat s 0 false (.inf neg)
/-- A NaN formed from an operand that is not NaN. -/
def invalidRes (s : FSpec) : Res := finishOp s false .nan

/-- e^x rounded once (R96). -/
def vexpFn (s : FSpec) : FV → Res
  | .nan => toFloat s 0 false .nan
  | .inf n => if n then ⟨0, 0⟩ else infRes s false
  | .fin n m e =>
    if m = 0 then roundFin s 0 false false 1 0 false
    else if magLt 200 0 m e then
      (if n then roundFin s 0 false false 1 (-400) false else roundFin s 0 false false 1 300 false)
    else zivRound s (expBracket n m e) zivFuel 96

/-- ln x rounded once (R96). -/
def vlogFn (s : FSpec) : FV → Res
  | .nan => toFloat s 0 false .nan
  | .inf n => if n then invalidRes s else infRes s false
  | .fin n m e =>
    if m = 0 then infRes s true
    else if n then invalidRes s
    else if !magLt m e 1 0 && !magLt 1 0 m e then ⟨0, 0⟩
    else zivRound s (lnBracket m e false 0 0) zivFuel 96

/-- 1/x rounded once (R96). -/
def vrcpFn (s : FSpec) : FV → Res
  | .nan => toFloat s 0 false .nan
  | .inf n => ⟨withSign s n 0, 0⟩
  | .fin n m e => if m = 0 then infRes s n else roundQuot s n 1 m (-e)

/-- 1/√x rounded once (R96). -/
def vrsqFn (s : FSpec) : FV → Res
  | .nan => toFloat s 0 false .nan
  | .inf n => if n then invalidRes s else ⟨0, 0⟩
  | .fin n m e =>
    if m = 0 then infRes s n
    else if n then invalidRes s
    else
      let odd := decide (e % 2 = 1)
      let m1 := if odd then 2 * m else m
      let e1 := if odd then e - 1 else e
      let top := 2 ^ (2 * (m1.log2 + 76))
      let r := isqrt (top / m1)
      roundFin s 0 false false r (-(e1 / 2) - ((m1.log2 + 76 : Nat) : Int)) (decide (r * r * m1 ≠ top))

/-- RNE_FP32(m + ln l) with the exact logarithm (R102, XENT). -/
def lnAdd32 (m l : Nat) : Res :=
  let mv := dec32 m
  match dec32 l with
  | .nan => ⟨sp32.canonNan, 0⟩
  | .inf n =>
    if n then ⟨sp32.canonNan, if mv.isNan then 0 else fInvalid⟩
    else finishOp sp32 mv.isNan (mv.add (.inf false))
  | .fin n lm le =>
    if lm = 0 then finishOp sp32 mv.isNan (mv.add (.inf true))
    else if n then ⟨sp32.canonNan, if mv.isNan then 0 else fInvalid⟩
    else if !magLt lm le 1 0 && !magLt 1 0 lm le then finishOp sp32 mv.isNan (mv.add (.fin false 0 0))
    else match mv with
      | .fin an am ae => zivRound sp32 (lnBracket lm le an am ae) zivFuel 96
      | w => finishOp sp32 w.isNan w

end Sys2Proof.Machine
end

