-- ==== Sys2Proof/Machine/NativeWord.lean ====
section
/-! DEFINITION. The 64-bit native word (06_native_encoding.md): its fields, the opcodes of Table 06-2, and the faults that
a word's own bits raise (R142 to R156). A word is held as a number; bit numbers are those of Table 06-1. -/

namespace Sys2Proof.Machine

/-- Cycle delta D (Table 06-1). -/
def wD (w : Nat) : Nat := bits w 56 8
/-- Opcode OP. -/
def wOP (w : Nat) : Nat := bits w 48 8

-- operand fields of Table 06-3
def loopEndidx (w : Nat) : Nat := bits w 32 13
def loopSk (w : Nat) : Nat := bits w 0 5
def jmpTarget (w : Nat) : Nat := bits w 0 13
def aaddAd (w : Nat) : Nat := bits w 44 4
def aaddAs (w : Nat) : Nat := bits w 40 4
def aaddXsrc (w : Nat) : Nat := bits w 39 1
def aaddSx (w : Nat) : Nat := bits w 32 5
def aaddImm (w : Nat) : Nat := bits w 0 16
def cfgReg (w : Nat) : Nat := bits w 40 8
def cfgSrc (w : Nat) : Nat := bits w 38 2
def cfgRidx (w : Nat) : Nat := bits w 33 5
def cfgImm (w : Nat) : Nat := bits w 0 32
def sldKind (w : Nat) : Nat := bits w 47 1
def sldFmt (w : Nat) : Nat := bits w 42 5
def sldSplit (w : Nat) : Nat := bits w 41 1
def sldMt (w : Nat) : Nat := bits w 34 7
def sldP0 (w : Nat) : Nat := bits w 16 16
def sldNtm1 (w : Nat) : Nat := bits w 0 16
def vVD (w : Nat) : Nat := bits w 42 6
def vVA (w : Nat) : Nat := bits w 36 6
def vVB (w : Nat) : Nat := bits w 30 6
def vVC (w : Nat) : Nat := bits w 24 6
def vFMT (w : Nat) : Nat := bits w 19 5
def vSX (w : Nat) : Nat := bits w 14 5
def vSCL (w : Nat) : Nat := bits w 12 2
def vFN (w : Nat) : Nat := bits w 0 12
def synCtr (w : Nat) : Nat := bits w 42 6
def synCount (w : Nat) : Nat := bits w 0 16
def sigLocal (w : Nat) : Nat := bits w 41 1
def sigCore (w : Nat) : Nat := bits w 33 8
def sigGen (w : Nat) : Nat := bits w 28 4
def fenceMask (w : Nat) : Nat := bits w 0 48
def mirRegions (w : Nat) : Nat := bits w 0 16
def sendOch (w : Nat) : Nat := bits w 42 6
def sendHandler (w : Nat) : Nat := bits w 36 6
def sendSx (w : Nat) : Nat := bits w 31 5
def sendLen (w : Nat) : Nat := bits w 28 3
def recvIch (w : Nat) : Nat := bits w 44 4
def recvSd (w : Nat) : Nat := bits w 39 5
def armDesc (w : Nat) : Nat := bits w 0 6

/-- The operation a word names: one for each row of Table 06-2, and `bad` for an OP the table does not list (R144). -/
inductive Op where
  | nop | loop | endl | jmp | aadd | yieldW | halt
  | sldcfg | sldgo | mxcfg | mxgo | swrcfg | swrgo
  | vadd | vsub | vmul | vfma | vmax | vmin | vabs | vneg | vcmp | vsel | vexp | vlog | vrcp | vrsq | vred | vcvt
  | vstat | vstfin | vnorm | vperm | vshuf | vpack | vunpk | vget | vsetvl | vupdsr
  | waitc | sigc | lfence | mircommit | send | recv | strmarm
  | bad
  deriving DecidableEq, Repr

/-- The opcodes (Table 06-2). -/
def opOf (op : Nat) : Op :=
  match op with
  | 0x00 => .nop | 0x01 => .loop | 0x02 => .endl | 0x03 => .jmp | 0x04 => .aadd | 0x05 => .yieldW | 0x06 => .halt
  | 0x10 => .sldcfg | 0x11 => .sldgo | 0x20 => .mxcfg | 0x21 => .mxgo | 0x30 => .swrcfg | 0x31 => .swrgo
  | 0x40 => .vadd | 0x41 => .vsub | 0x42 => .vmul | 0x43 => .vfma | 0x44 => .vmax | 0x45 => .vmin | 0x46 => .vabs
  | 0x47 => .vneg | 0x48 => .vcmp | 0x49 => .vsel | 0x4A => .vexp | 0x4B => .vlog | 0x4C => .vrcp | 0x4D => .vrsq
  | 0x4E => .vred | 0x4F => .vcvt | 0x50 => .vstat | 0x51 => .vstfin | 0x52 => .vnorm | 0x53 => .vperm
  | 0x54 => .vshuf | 0x55 => .vpack | 0x56 => .vunpk | 0x57 => .vget | 0x58 => .vsetvl | 0x59 => .vupdsr
  | 0x60 => .waitc | 0x61 => .sigc | 0x62 => .lfence | 0x63 => .mircommit
  | 0x70 => .send | 0x71 => .recv | 0x72 => .strmarm
  | _ => .bad

/-- The operation of a word. -/
def wOp (w : Nat) : Op := opOf (wOP w)

/-- The issue unit that the high four bits of OP select (R144, Table 05-2): 0 SEQ, 1 SLD, 2 MXE, 3 SWR, 4 VXE, 6 SYN, 7 MSG. -/
def wUnit (w : Nat) : Nat := if wOP w / 16 = 5 then 4 else wOP w / 16

/-- A vector word (format V). -/
def isVec (w : Nat) : Bool := decide (wUnit w = 4)

-- FN subfields of Table 06-6
def fnCond (w : Nat) : Nat := bits w 0 3
def fnRedMode (w : Nat) : Nat := bits w 0 3
def fnAcc (w : Nat) : Nat := bits w 3 1
def fnDfmt (w : Nat) : Nat := bits w 0 5
def fnRm (w : Nat) : Nat := bits w 5 2
def fnSat (w : Nat) : Nat := bits w 7 1
def fnSsrc (w : Nat) : Nat := bits w 8 1
def fnMode2 (w : Nat) : Nat := bits w 0 2
def fnNormMode (w : Nat) : Nat := bits w 0 1
def fnGain (w : Nat) : Nat := bits w 1 1
def fnBias (w : Nat) : Nat := bits w 2 1
def fnOfmt (w : Nat) : Nat := bits w 3 5
def fnPat (w : Nat) : Nat := bits w 0 3
def fnIndex (w : Nat) : Nat := bits w 0 11
def fnLen (w : Nat) : Nat := bits w 0 11
def fnLsrc (w : Nat) : Nat := bits w 11 1
def fnK (w : Nat) : Int := signed 6 (bits w 0 6)
def fnMon (w : Nat) : Nat := bits w 7 1
def fnUfmt (w : Nat) : Nat := bits w 8 2
def fnUpdSat (w : Nat) : Nat := bits w 6 1

/-- The format of UFMT (Table 11-1). -/
def updFmt (u : Nat) : Nat := if u = 0 then 0 else if u = 1 then 1 else if u = 2 then 2 else 4

/-- A field's bits as a mask. -/
def fieldMask (lo w : Nat) : Nat := (2 ^ w - 1) <<< lo

/-- What a source or destination field of format V may hold (Table 06-6): nothing, a vector register, a vector register or the
flowline, or a scalar number in bits [4:0]. -/
inductive VUse where
  | none | vec | flow | scal
  deriving DecidableEq, Repr

/-- Whether FMT must be a VXE format (Table 02-9), a float VXE format, any legal specifier, a whole-byte format (R464), zero, or is
unused. -/
inductive FmtRule where
  | vxe | float | any | whole | zero | unused
  deriving DecidableEq, Repr

/-- The roles of a vector word's fields (Table 06-6, R152): VD, VA, VB, VC, which of VA, VB, VC may be scalar by SCL, whether SX has a role,
the format rule, and the used bits of FN. -/
structure VRole where
  vd : VUse
  va : VUse
  vb : VUse
  vc : VUse
  sclMax : Nat
  sx : Bool
  fmt : FmtRule
  fn : Nat
  deriving DecidableEq, Repr

/-- Table 06-6 with the mode rules of R152. -/
def vRole (w : Nat) : VRole :=
  match wOp w with
  | .vadd | .vsub | .vmul | .vmax | .vmin => ⟨.flow, .flow, .flow, .none, 2, false, .vxe, 0⟩
  | .vfma => ⟨.flow, .flow, .flow, .flow, 3, false, .vxe, 0⟩
  | .vabs | .vneg => ⟨.flow, .flow, .none, .none, 0, false, .vxe, 0⟩
  | .vexp | .vlog | .vrcp | .vrsq => ⟨.flow, .flow, .none, .none, 0, false, .float, 0⟩
  | .vcmp => ⟨.vec, .flow, .flow, .none, 2, false, .vxe, 0x7⟩
  | .vsel => ⟨.flow, .flow, .flow, .vec, 2, false, .vxe, 0⟩
  | .vred => ⟨.none, .flow, .none, .none, 0, true, .vxe, 0xF⟩
  | .vcvt => ⟨.flow, .flow, .none, .none, 0, decide (fnSsrc w = 1), .any, 0x1FF⟩
  | .vstat => ⟨.none, .flow, .none, .none, 0, true, .float, 0x3⟩
  | .vstfin => ⟨.none, .scal, if fnMode2 w = 0 then .none else .scal, .none, 0, true, .zero, 0x3⟩
  | .vnorm => ⟨.flow, .flow, if fnGain w = 1 then .vec else .none, if fnBias w = 1 then .vec else .none, 0, true, .float, 0xFF⟩
  | .vperm => ⟨.vec, .vec, .none, .vec, 0, false, .whole, 0⟩
  | .vshuf => ⟨.vec, .vec, if fnPat w = 0 ∨ fnPat w = 1 ∨ fnPat w = 6 then .none else .vec, .none, 0, decide (fnPat w = 1), .whole, 0x7⟩
  | .vpack => ⟨.vec, .vec, .none, .vec, 0, true, .whole, 0⟩
  | .vunpk => ⟨.vec, .vec, .none, .vec, 0, false, .whole, 0⟩
  | .vget => ⟨.none, .vec, .none, .none, 0, true, .whole, 0x7FF⟩
  | .vsetvl => ⟨.none, .none, .none, .none, 0, decide (fnLsrc w = 1), .unused, if fnLsrc w = 1 then 0x800 else 0xFFF⟩
  | .vupdsr => ⟨.vec, .vec, .vec, .none, 0, true, .float, 0x3FF⟩
  | _ => ⟨.none, .none, .none, .none, 0, false, .unused, 0⟩

/-- Formats with vector arithmetic (Table 02-9). -/
def fmtVxe (f : Nat) : Bool := decide (f < 5) || f == 8 || f == 9 || f == 10
/-- Float formats with vector arithmetic. -/
def fmtVxeFloat (f : Nat) : Bool := decide (f < 5)
/-- Formats whose element fills whole bytes of a register (R464). -/
def fmtWhole (f : Nat) : Bool := decide (f < 7) || f == 8 || f == 9 || f == 10
/-- Formats of an MXE operand (Table 02-9): every legal one but INT32. -/
def fmtMxeIn (f : Nat) : Bool := !fmtIllegal f && f != 8

/-- The bits an element takes in a vector register (R38, R464). -/
def laneBits (f : Nat) : Nat := if fmtWidth f = 6 then 8 else fmtWidth f
/-- Elements per register: 8,192 bits of lanes (Table 04-1, R88). -/
def perReg (f : Nat) : Nat := 8192 / laneBits f

/-- The scalar-selected source's field (R152). -/
def sclField (w : Nat) : Nat := match vSCL w with | 1 => vVA w | 2 => vVB w | 3 => vVC w | _ => 0

/-- One operand field of format V under its use (R151): a bad code gives REASON 2. -/
def operandBad (u : VUse) (scl : Bool) (v : Nat) : Bool :=
  match u with
  | .none => false
  | .vec => decide (31 < v)
  | .flow => if scl then decide (31 < v) else decide (32 < v)
  | .scal => decide (31 < v)

/-- One source that is FLI. -/
def isFli (u : VUse) (scl : Bool) (v : Nat) : Bool := decide (u = .flow) && !scl && v == 32

/-- Number of FLI sources of a word (R151). -/
def fliCount (w : Nat) : Nat :=
  let r := vRole w
  (if isFli r.va (vSCL w == 1) (vVA w) then 1 else 0) + (if isFli r.vb (vSCL w == 2) (vVB w) then 1 else 0) +
    (if isFli r.vc (vSCL w == 3) (vVC w) then 1 else 0)

/-- Whether a word's destination is FLO. -/
def toFlo (w : Nat) : Bool := isVec w && decide ((vRole w).vd = .flow) && vVD w == 32

/-- The bits of [47:0] that a word defines in its mode (R143, R152). -/
def usedMask (w : Nat) : Nat :=
  match wOp w with
  | .nop | .endl | .yieldW | .halt | .mxgo | .swrgo | .bad => 0
  | .loop => fieldMask 32 13 ||| fieldMask 0 5
  | .jmp => fieldMask 0 13
  | .aadd => fieldMask 39 9 ||| (if aaddXsrc w = 1 then fieldMask 32 5 else fieldMask 0 16)
  | .mxcfg | .sldcfg | .swrcfg => fieldMask 38 10 ||| fieldMask 0 32 ||| (if cfgSrc w = 0 then 0 else fieldMask 33 5)
  | .sldgo => if sldKind w = 1 then fieldMask 47 1 else fieldMask 34 14 ||| fieldMask 0 32
  | .waitc => fieldMask 42 6 ||| fieldMask 0 16
  | .sigc => fieldMask 41 7 ||| fieldMask 28 4 ||| fieldMask 0 16 ||| (if sigLocal w = 1 then 0 else fieldMask 33 8)
  | .lfence => fieldMask 0 48
  | .mircommit => fieldMask 0 16
  | .send => fieldMask 28 20
  | .recv => fieldMask 39 9
  | .strmarm => fieldMask 0 6
  | _ =>
    let r := vRole w
    (if r.vd = .none then 0 else fieldMask 42 6) ||| (if r.va = .none then 0 else fieldMask 36 6) |||
      (if r.vb = .none then 0 else fieldMask 30 6) ||| (if r.vc = .none then 0 else fieldMask 24 6) |||
      (if r.fmt = .unused then 0 else fieldMask 19 5) ||| (if r.sx then fieldMask 14 5 else 0) |||
      fieldMask 12 2 ||| r.fn

/-- A reserved bit of a word is 1 (R143): REASON 1. -/
def reservedSet (w : Nat) : Bool := (bits w 0 48) &&& (fieldMask 0 48 - usedMask w) != 0

/-- Configuration register numbers of a unit (Table 06-4). -/
def cfgListed (unit reg : Nat) : Bool :=
  if unit = 2 then decide (reg < 5)
  else if unit = 3 then reg == 0 || reg == 1 || (decide (4 ≤ reg) && decide (reg < 7)) || (decide (8 ≤ reg) && decide (reg < 11))
  else decide (reg < 3) || (decide (0x08 ≤ reg) && decide (reg < 0x0E)) || (decide (0x10 ≤ reg) && decide (reg < 0x16)) ||
    (decide (0x18 ≤ reg) && decide (reg < 0x1E)) || reg == 0x20 || reg == 0x21 || (decide (0x24 ≤ reg) && decide (reg < 0x27)) ||
    (decide (0x28 ≤ reg) && decide (reg < 0x2B)) || reg == 0x30

/-- Range, value and combination faults of a vector word (REASON 2; R151 to R154, R254). -/
def vRange (w : Nat) : Bool :=
  let r := vRole w
  operandBad r.vd false (vVD w) || operandBad r.va (vSCL w == 1) (vVA w) || operandBad r.vb (vSCL w == 2) (vVB w) ||
    operandBad r.vc (vSCL w == 3) (vVC w) || decide (r.sclMax < vSCL w) || decide (1 < fliCount w) ||
    (decide (r.fmt = .zero) && vFMT w != 0) ||
    (match wOp w with
      | .vcmp => decide (5 < fnCond w)
      | .vred => decide (4 < fnRedMode w)
      | .vstat => fnMode2 w == 3
      | .vshuf => fnPat w == 7
      | .vnorm => (fnBias w == 1 && fnGain w == 0) || (fnNormMode w == 1 && fnGain w == 1)
      | .vcvt => (fmtIsMx (vFMT w) && vVA w == 32) || (fmtIsMx (fnDfmt w) && vVD w == 32) || (fnSsrc w == 1 && !fmtIsMx (fnDfmt w))
      | .vget => fmtWhole (vFMT w) && decide (perReg (vFMT w) ≤ fnIndex w)
      | .vupdsr => decide (30 < vSX w)
      | _ => false)

/-- Format faults of a vector word (REASON 3; R27, R94, R99, R103). -/
def vFormat (w : Nat) : Bool :=
  let f := vFMT w
  (match (vRole w).fmt with
    | .vxe => !fmtVxe f
    | .float => !fmtVxeFloat f
    | .any => fmtIllegal f
    | .whole => !fmtWhole f
    | .zero => false
    | .unused => false) ||
    (match wOp w with
      | .vcvt => fmtIllegal (fnDfmt w)
      | .vnorm => !fmtVxeFloat (fnOfmt w)
      | .vred => fnRedMode w == 1 && fmtIsInt f
      | _ => false)

/-- Even-register faults (REASON 8; R38, R104). -/
def vParity (w : Nat) : Bool :=
  match wOp w with
  | .vcvt => (fmtIsMx (vFMT w) && vVA w % 2 == 1) || (fmtIsMx (fnDfmt w) && vVD w % 2 == 1)
  | .vperm => fmtWhole (vFMT w) && laneBits (vFMT w) == 8 && vVC w % 2 == 1
  | _ => false

/-- Range and value faults of the other words (REASON 2; R145, R148, R155, R156). -/
def plainRange (w : Nat) : Bool :=
  match wOp w with
  | .mxcfg | .sldcfg | .swrcfg => cfgSrc w == 3 || (cfgSrc w == 1 && decide (15 < cfgRidx w))
  | .waitc | .sigc => decide (47 < synCtr w) || synCount w == 0
  | .mircommit => mirRegions w == 0
  | .send => decide (32 < sendSx w + sendLen w)
  | .recv => decide (24 < recvSd w)
  | _ => false

/-- The vector registers a word names, the implied ones of R38 and R104 among them (R120). -/
def vRegs (w : Nat) : List Nat :=
  let r := vRole w
  let one (u : VUse) (scl : Bool) (v : Nat) : List Nat := if (u = .vec ∨ u = .flow) ∧ scl = false ∧ v < 32 then [v] else []
  one r.vd false (vVD w) ++ one r.va (vSCL w == 1) (vVA w) ++ one r.vb (vSCL w == 2) (vVB w) ++ one r.vc (vSCL w == 3) (vVC w) ++
    (match wOp w with
      | .vcvt => (if fmtIsMx (vFMT w) then [vVA w + 1] else []) ++ (if fmtIsMx (fnDfmt w) then [vVD w + 1] else [])
      | .vperm => if laneBits (vFMT w) = 8 then [vVC w + 1] else []
      | _ => [])

/-- The vector registers a word reads, the implied ones among them; VUNPK merges into its destination (R106). -/
def vSources (w : Nat) : List Nat :=
  let r := vRole w
  let one (u : VUse) (scl : Bool) (v : Nat) : List Nat := if (u = .vec ∨ u = .flow) ∧ scl = false ∧ v < 32 then [v] else []
  one r.va (vSCL w == 1) (vVA w) ++ one r.vb (vSCL w == 2) (vVB w) ++ one r.vc (vSCL w == 3) (vVC w) ++
    (match wOp w with
      | .vcvt => if fmtIsMx (vFMT w) then [vVA w + 1] else []
      | .vperm => if laneBits (vFMT w) = 8 then [vVC w + 1] else []
      | .vunpk => [vVD w]
      | _ => [])

/-- The vector registers a word writes. -/
def vDests (w : Nat) : List Nat :=
  let r := vRole w
  (if (r.vd = .vec ∨ r.vd = .flow) ∧ vVD w < 32 then [vVD w] else []) ++ (if wOp w = .vcvt ∧ fmtIsMx (fnDfmt w) ∧ vVD w < 32 then [vVD w + 1] else [])

/-- The scalar registers a vector word reads when it starts (R93, R97 to R106, R154). -/
def vScalars (w : Nat) : List Nat :=
  let r := vRole w
  let one (u : VUse) (scl : Bool) (v : Nat) : List Nat := if u = .scal ∨ scl then [v % 32] else []
  one r.va (vSCL w == 1) (vVA w) ++ one r.vb (vSCL w == 2) (vVB w) ++ one r.vc (vSCL w == 3) (vVC w) ++
    (match wOp w with
      | .vred => if fnAcc w = 1 then [vSX w] else []
      | .vstat | .vnorm => [vSX w]
      | .vshuf => if fnPat w = 1 then [vSX w] else []
      | .vsetvl => if fnLsrc w = 1 then [vSX w] else []
      | _ => [])

/-- Elements a word processes in a cycle, by its width class (Tables 02-8, 04-1 and 04-3, R255). -/
def vRate (w : Nat) : Nat :=
  let lanes := fun b => 256 * (32 / max 8 (min 32 b))
  match wOp w with
  | .vexp | .vlog | .vrcp | .vrsq => lanes (laneBits (vFMT w)) / 4
  | .vstat => if fnMode2 w = 2 then 64 else 256
  | .vnorm => if fnNormMode w = 1 then 64 else 256
  | .vcvt => lanes (max (fmtWidth (vFMT w)) (fmtWidth (fnDfmt w)))
  | .vupdsr => 256
  | _ => lanes (laneBits (vFMT w))

/-- Cycles for which a word of effective length n occupies the lanes (R90). -/
def vOccupy (w n : Nat) : Nat :=
  match wOp w with
  | .vperm => if n = 0 then 1 else if laneBits (vFMT w) = 8 then 2 else 1
  | .vshuf | .vpack | .vunpk | .vget | .vstfin | .vsetvl => 1
  | _ => max 1 (ceilDiv n (vRate w))

/-- The latency of a word (Tables 02-8 and 04-3, R255). -/
def vLatency (w : Nat) : Nat :=
  match wOp w with
  | .vadd | .vsub | .vmul | .vshuf => 4
  | .vfma => 5
  | .vmax | .vmin | .vabs | .vneg | .vcmp | .vsel | .vget => 3
  | .vexp | .vlog | .vrcp | .vrsq | .vupdsr => 8
  | .vred => 10
  | .vstat => if fnMode2 w = 2 then 16 else 10
  | .vstfin => 20
  | .vnorm => if fnNormMode w = 1 then 14 else 8
  | .vperm | .vpack | .vunpk => 6
  | .vcvt => if fmtIsMx (fnDfmt w) && fnSsrc w == 0 then 8 else 4
  | _ => 1

/-- A vector register outside TASK_VMASK (R120, REASON 8). -/
def vMaskBad (vmask w : Nat) : Bool := (vRegs w).any fun r => bits vmask r 1 == 0

/-- The lowest REASON among the faults of a word's own bits, with the task's vector mask (R157). -/
def wordReason (vmask w : Nat) : Option Nat :=
  if wOp w = .bad then some 0
  else if (wUnit w = 1 ∨ wUnit w = 2 ∨ wUnit w = 3) ∧ wOP w % 16 = 0 ∧ cfgListed (wUnit w) (cfgReg w) = false then some 0
  else if reservedSet w then some 1
  else if isVec w then
    if vRange w then some 2
    else if vFormat w then some 3
    else if vParity w then some 8
    else if vMaskBad vmask w then some 8
    else none
  else if plainRange w then some 2
  else if wOp w = .sldgo ∧ sldKind w = 0 ∧ fmtMxeIn (sldFmt w) = false then some 3
  else none

end Sys2Proof.Machine
end

