-- ==== Sys2Proof/Config.lean ====
section
/-! DEFINITION. What one part fixes and the spec leaves open: fuse values, and the free values. Every
constant here is opaque, so no proof can rest on what it is. -/

namespace Sys2Proof.Config

/-- Fuse: Azholer's PCI-SIG vendor ID, DEV_ID.VENDOR (Table 23-2). UNVERIFIED: the spec gives no number. -/
opaque vendorId : BitVec 16
/-- Fuse: the silicon stepping (Table 23-2). -/
opaque stepping : BitVec 4
/-- Azholer's JEP106 code in IDCODE (Table 21-4). -/
opaque jep106 : BitVec 11
/-- Fuse: the device serial number (Table 18-4). -/
opaque serial : BitVec 64
/-- Fuse: the MAC address of port p (Table 15-5). -/
opaque ownMac : Nat → BitVec 48
/-- Fuse: byte i of the public identity keys, ATTEST_PUB (R405). -/
opaque attestPub : Nat → BitVec 8
/-- Fuse: the SHA-384 hash of the Ed25519 vendor key (R403). -/
opaque vendorEdHash : BitVec 384
/-- Fuse: the SHA-384 hash of the ML-DSA-65 vendor key (R403). -/
opaque vendorMlHash : BitVec 384
/-- Fuse: the rail voltage V(N) in millivolts (R320). -/
opaque railVolt : Nat → BitVec 10
/-- Ed25519 signature check (RFC 8032, pure): public key, message, signature (R403). The spec names the standard. -/
opaque ed25519Verify : List (BitVec 8) → List (BitVec 8) → List (BitVec 8) → Bool
/-- ML-DSA-65 signature check (FIPS 204, empty context) (R403). -/
opaque mlDsaVerify : List (BitVec 8) → List (BitVec 8) → List (BitVec 8) → Bool
/-- Byte i of the Ed25519 signature the attestation engine makes over a report (R406). -/
opaque attestEdSign : List (BitVec 8) → Nat → BitVec 8
/-- Byte i of the ML-DSA-65 signature the attestation engine makes over a report (R406). -/
opaque attestMlSign : List (BitVec 8) → Nat → BitVec 8
/-- Free value: whether the fuse row takes a blow attempt (R404: a fuse may fail to blow). -/
opaque fuseBlows : Nat → Bool
/-- Free value: the session challenge drawn from the random generator (R381), by draw number. -/
opaque challenge : Nat → BitVec 256
/-- Free value: a number the spec leaves open, by draw number. -/
opaque freeValue : Nat → BitVec 64

/-- Tokens per key-value block of the serving module (R395): the module sets it, and the spec gives a module no place for it. -/
opaque tokensPerBlock : Nat
/-- The entry counter of the serving module (R396): core and counter, which the spec leaves to the module. -/
opaque serveCore : BitVec 8
opaque serveCounter : BitVec 6

end Sys2Proof.Config
end

