-- ==== Sys2Proof/Machine/State.lean ====
section
/-! DEFINITION. The state of the block as plain data, the reasons a step stops, and the state after reset.

Every register with a CTLBAR address is one 32-bit word of `regs`, keyed by its CTLBAR offset (Tables 23-2 to
23-8); a word that is not listed holds its reset value. Everything the spec gives the part without an address
(R462 and the engines) has a field of its own. Stores keyed by a unit number list only the units that differ
from their reset state. -/

namespace Sys2Proof.Machine

/-- An open hardware loop (R125 to R127): the body's first word, the matching ENDL, iterations left. -/
structure LoopSt where
  start  : Nat
  endIdx : Nat
  left   : Nat
  deriving DecidableEq, Repr

/-- What a BLOCKED or stalled slot waits on (R132, R217, R232). -/
inductive Wait where
  | ctr (c k : Nat)
  | ich (e : Nat)
  deriving DecidableEq, Repr

/-- An unresolved LFENCE (R252): its mask and the earlier transfers it orders after. -/
structure Fence where
  mask  : Nat
  after : List Nat
  deriving DecidableEq, Repr

/-- The registers of one task slot that have no CTLBAR address (Table 05-3a, R132, R133). `lo`, `hi` and
`vmask` are TASK_SPWIN and TASK_VMASK as START took them; `unrel` marks a containment not yet released (R417);
`jumped` marks that the word at `pc` follows a LOOP, an ENDL, a JMP or a dispatch (R115). `mres` is the end of which a message is reserved for the slot (R232). `cyc` is the floe cycle from which the next group's D counts, and `fresh` marks a task that has issued
nothing (R113, R131, R137). -/
structure SlotSt where
  sreg   : List (Nat × BitVec 64) := []
  areg   : List (Nat × BitVec 32) := []
  pc     : Nat := 0
  vl     : Nat := 0x400
  loops  : List LoopSt := []
  lo     : Nat := 0
  hi     : Nat := 0x1FF
  vmask  : Nat := 0xFFFF_FFFF
  wait   : Option Wait := none
  resv   : Option (Nat × Nat) := none
  mres   : Option Nat := none
  cyc    : Nat := 0
  fresh  : Bool := true
  unrel  : Bool := false
  jumped : Bool := false
  fences : List Fence := []
  deriving DecidableEq, Repr

/-- One row of an input tile: 128 element codes and the scale bytes of an MX row (R67, R73, R74). -/
structure TileRow where
  codes  : List Nat
  scales : List Nat
  deriving DecidableEq, Repr

/-- An input tile in the shadow or the active buffer (R67, R150), with the slot that loaded it and the floe cycle of its readiness. -/
structure Tile where
  slot  : Nat
  due   : Nat
  fmt   : Nat
  split : Bool
  mt    : Nat
  rows  : List TileRow
  ready : Bool
  deriving DecidableEq, Repr

/-- A tile transfer of the SLD (R149, R150): the latched SLD_IN registers by REG number, the SLDGO fields, and
how far it has come; `due` is the nominal floe cycle of its next row. -/
structure TileXfer where
  due   : Nat
  slot  : Nat
  cfg   : List (Nat × BitVec 32)
  fmt   : Nat
  split : Bool
  mt    : Nat
  p0    : Nat
  ntm1  : Nat
  tile  : Nat
  row   : Nat
  deriving DecidableEq, Repr

/-- A latched three-dimension generator (Table 05-3, R122). -/
structure Gen where
  base    : Int
  counts  : List Nat
  strides : List Int
  fmt     : Nat
  dest    : Bool
  desc    : Nat
  deriving DecidableEq, Repr

/-- A pass-through (R110) or an SWR write (R149): its slot, generator and the next element; for a pass-through `due` is the nominal read cycle of its next item. -/
structure GenOp where
  slot : Nat
  gen  : Gen
  next : Nat
  due  : Nat := 0
  deriving DecidableEq, Repr

/-- One element on the flowline: its format specifier and its code (R86). -/
structure Elem where
  fmt  : Nat
  code : Nat
  deriving DecidableEq, Repr

/-- An entry of the drain output buffer, which FLI takes from (R75, R110, R112): the elements that left in one cycle, their slot, the nominal FLI cycle, and 0 for a
drain emission or 1 for a pass-through item. -/
structure FliEnt where
  slot : Nat
  due  : Nat
  pri  : Nat
  es   : List Elem
  deriving DecidableEq, Repr

/-- An entry of the SWR skid buffer (R112): at most 256 bytes of FLO output of a slot. -/
structure FloEnt where
  slot : Nat
  es   : List Elem
  deriving DecidableEq, Repr

/-- A vector word in the VXE queue (R111): slot, index, word and floe cycle of issue; what it read at issue: s[SX] and s[SX + 1] (R153, R254) and the supplied
scale of a VCVT with SSRC = 1 (R262). `puts` are the scalar writes of RECV that the sequencer issued behind it (R92). -/
structure VxEnt where
  slot  : Nat
  idx   : Nat
  word  : BitVec 64
  due   : Nat
  sx0   : BitVec 64
  sx1   : BitVec 64
  scale : Nat
  puts  : List (Nat × BitVec 64) := []
  deriving DecidableEq, Repr

/-- A checksum comparison that is due (R77, R79): kind (0 row, 1 column, 2 corner), place, observed value,
reference and magnitude bound; a value that is not finite makes the check skipped. -/
structure Check where
  kind : Nat
  row  : Nat
  col  : Nat
  pass : Nat
  obs  : FV
  ref  : FV
  mag  : FV
  due  : Nat := 0
  deriving DecidableEq, Repr

/-- A matrix operation in the queue (R64, R149): the latched staging set and SLD_WT_SRC, the MXGO word for a fault
record (R150), the supplied scale read at MXGO (R262), the nominal floe cycle `start` of its first column (R66), and its progress through passes, columns, checks
and drain; `group` holds the entries of a group of MX columns that has begun to leave and has not left whole (R71), `badCols` the
columns that accumulated on a word with a parity error (R69). -/
structure MxOp where
  slot    : Nat
  index   : Nat
  word    : BitVec 64
  mode    : BitVec 32
  shape   : BitVec 32
  passes  : BitVec 32
  slots   : BitVec 32
  tol     : BitVec 32
  wt      : BitVec 32
  opseq   : BitVec 32
  supplied : Nat
  start   : Nat
  pass    : Nat := 0
  col     : Nat := 0
  emit    : Nat := 0
  passScales : List Byte := []
  checks  : List Check := []
  vsum    : List FV := []
  vsumHi  : List FV := []
  rsum    : List FV := []
  rabs    : List FV := []
  csum    : FV := .fin false 0 0
  cabs    : FV := .fin false 0 0
  entered : Bool := false
  group   : List (List Elem) := []
  poison  : Bool := false
  badCols : List Nat := []
  left    : Nat := 0
  amax    : BitVec 32 := 0
  deriving DecidableEq, Repr

/-- The phase of an active transfer (R242). -/
inductive XPhase where
  | fenced | waiting | moving
  deriving DecidableEq, Repr

/-- The snapshot of a transfer (R241) and its progress, in bytes of its order: `issued` asked for, `arrived` read and not yet sent,
`sent` to the destination, `done` written there; `cmd` is the near-bank command it read (R180), `marks` what the bytes in `arrived` are
marked with (R202). `early` holds pieces that came back ahead of an earlier one: place in the order, marks and bytes; `stopAt` is the place of the byte at which an
error stops the transfer once every byte before it has been delivered (R250). `after` lists the transfers it is
fenced behind (R252). -/
structure Xfer where
  id      : Nat
  slot    : Nat
  words   : List (BitVec 64)
  src     : Nat
  dst     : Nat
  phase   : XPhase
  after   : List Nat
  issued  : Nat
  arrived : List Byte
  sent    : Nat
  done    : Nat
  cmd     : List Nat := []
  marks   : Nat := 0
  early   : List (Nat × Nat × List Byte) := []
  stopAt  : Option Nat := none
  deriving DecidableEq, Repr

/-- One descriptor (R242): its active and shadow transfers, STOPPED with the slot that armed the stopped
transfer, and the bytes SWR has handed over (R247). -/
structure DescSt where
  active  : Option Xfer := none
  shadow  : Option Xfer := none
  stopped : Option Nat := none
  hand    : List Byte := []
  deriving DecidableEq, Repr

/-- A task switch in progress (R135): outgoing slot, chosen slot, whether quiescence is over, and the ACLK cycles until the chosen slot's next group issues. -/
structure Switch where
  out      : Nat
  inn      : Nat
  quiet    : Bool
  left     : Nat := 0
  deriving DecidableEq, Repr

/-- A message in a ring (R225): its eight words, for a request of another package the tracker entry its credit names (R335, R336), and the slot that it is reserved
for (R232). -/
structure RingMsg where
  words : List (BitVec 64)
  tag   : Nat := 0
  tgen  : Nat := 0
  resv  : Option Nat := none
  deriving DecidableEq, Repr

/-- The state of one core that has no CTLBAR address (R462). `rings` holds the messages of each inbound end,
oldest first; `credOut` is the credits each outbound channel has outstanding `reclaim` the count of R422 and `strayed` the
written-off credits that may still come back (R424); `live` lists the
messages to other packages whose credit has not come back, by channel, tracker entry and generation (R338); `owed` the replies that the core still has to send for want of
room on their way, by package, core, end and words (R230, R289, R336); `paced` is the ACLK cycles for which each path of the engines is still occupied (R75, R90), and
`pend` those until a register's pending write completes (R91); `last` is the slot
that ran most recently (R467). `elemMark` and `scaleMark` are the
marks that the bytes of the feed buffers carry, as runs of (length, marks) (R202). `parErr` lists the SRAM words
whose read has a parity error (R69, R131; Table 19-2), by array · 2^20 + index. -/
structure CoreSt where
  slots   : List (Nat × SlotSt) := []
  vreg    : List (Nat × BitVec 8192) := []
  istore  : List (Nat × BitVec 64) := []
  stag    : List (Nat × BitVec 32) := []
  acc     : List (Nat × BitVec 32) := []
  parErr  : List (Nat × Bool) := []
  mxq     : List MxOp := []
  tileq   : List TileXfer := []
  shadow  : Option Tile := none
  tile    : Option Tile := none
  passq   : List GenOp := []
  fli     : List FliEnt := []
  vxq     : List VxEnt := []
  flo     : List FloEnt := []
  swrq    : List GenOp := []
  desc    : List (Nat × DescSt) := []
  elemBuf : List Byte := []
  scaleBuf : List Byte := []
  elemMark : List (Nat × Nat) := []
  scaleMark : List (Nat × Nat) := []
  rings   : List (Nat × List RingMsg) := []
  credOut : List (Nat × Nat) := []
  reclaim : List (Nat × Nat) := []
  strayed : List (Nat × Nat) := []
  live    : List (Nat × Nat × Nat) := []
  owed    : List (Nat × Nat × Nat × List (BitVec 64)) := []
  paced   : List (Nat × Nat) := []
  pend    : List (Nat × Nat) := []
  switch  : Option Switch := none
  last    : Nat := 3
  deriving DecidableEq, Repr

/-- A signal on its way to a counter (R213 to R215). `cls` and `sub` give its place in the order of R215; `own` is
false for a signal from another package, whose token this package did not issue (R420). -/
structure Sig where
  core   : Nat
  ctr    : Nat
  count  : Nat
  gen    : Nat
  cls    : Nat
  sub    : Nat
  pkg    : Nat
  src    : Nat
  kind   : Nat
  own    : Bool
  deriving DecidableEq, Repr

/-- A message on its way to an inbound end (R224, R225): destination, the eight words, the slot that sent it, and
for a message of another package the port and header it came with; `n` numbers the messages of this package in the order they were sent (R234). -/
structure Flight where
  core  : Nat
  ich   : Nat
  pkg   : Nat
  words : List (BitVec 64)
  slot  : Nat
  remote : Option (Nat × PktHdr)
  n     : Nat := 0
  deriving DecidableEq, Repr

/-- A refused request on its way back (R231): sending core, channel and slot, its words, the class raised, and whether a
full ring refused it (R226). -/
structure Refused where
  core  : Nat
  och   : Nat
  slot  : Nat
  words : List (BitVec 64)
  rank  : Bool
  full  : Bool
  deriving DecidableEq, Repr

/-- A firn request of a stream descriptor, of 1 to 8 beats (R161): its stack and port, its first stack offset and length, for a write its
bytes, the descriptor, its arming slot and the transfer with the place `pos` of its first byte in the transfer's order, and, once it holds an entry, the
physical place of its first byte (R164, R165). `marks` is what R202 has marked it with: bit 3 REFRESH, 4 LINK, 5 NETWORK. -/
structure FirnReq where
  stack : Nat
  port  : Nat
  off   : Nat
  len   : Nat
  wr    : Bool
  data  : List Byte
  core  : Nat
  desc  : Nat
  slot  : Nat
  id    : Nat
  pos   : Nat
  phys  : Nat := 0
  marks : Nat := 0
  deriving DecidableEq, Repr

/-- The state of one stack that has no register (R166 to R175): open row of each bank (key 16·channel + bank), scrub
position and the place of a pending write-back of each channel, the time base in nanoseconds from which the next refresh slot may begin, the regime that the
hysteresis has chosen (true is 2×), and whether the stack is ready for requests. -/
structure StackSt where
  rows     : List (Nat × Nat) := []
  scrub    : List (Nat × Nat) := []
  wback    : List (Nat × Option Nat) := []
  slotIdx  : Nat := 0
  want     : Bool := false
  open_    : Bool := false
  deriving DecidableEq, Repr

/-- One NCLK cycle of a service region (R292): its wheel count and those of its lower and higher neighbour then, and whether the wheel held. -/
structure WheelCycle where
  own   : Nat
  lower : Nat
  upper : Nat
  held  : Bool
  deriving DecidableEq, Repr

/-- The state of one clock region (R283 to R292, R314): powered, the root-period phase, the ACLK cycles since its clock started (R323), and the periods owed to stretches,
the N of a change in progress, XLAT of a cluster region's crossing (0 while it is not aligned), the tick of its PLL's lock (R178), the nanosecond of the last automatic step
and the lower N that such a step has left (R302), and the wheel count with its recent holds. -/
structure RegionSt where
  powered  : Bool := false
  phase    : Nat := 0
  cyc      : Nat := 0
  debt     : Nat := 0
  goal     : Option Nat := none
  xlat     : Nat := 0
  lockTick : Nat := 0
  stepNs   : Option Nat := none
  stepped  : Option Nat := none
  wheel    : Nat := 0
  wheelOn  : Bool := false
  hist     : List WheelCycle := []
  deriving DecidableEq, Repr

/-- The power and thermal state of one cluster: gated (R306), ramp step and the ACLK cycles it has lasted (R323), cycles without a RUNNING floe,
and thermal level (R454). -/
structure ClusterSt where
  gated  : Bool := false
  ramp   : Nat := 0
  rampCyc : Nat := 0
  idleCyc : Nat := 4096
  lth    : Nat := 0
  deriving DecidableEq, Repr

/-- A packet of a fabric port's receive side: its virtual lane and class, the flits of receive buffer it holds (R330),
its marks (R202, R333), the time base in nanoseconds
of its arrival (R296), and its number in the order of arrival (R337). -/
structure RxPkt where
  vl    : Nat
  cls   : Nat
  flits : Nat
  marks : Nat
  tb    : Nat
  n     : Nat
  pkt   : Packet
  deriving DecidableEq, Repr

/-- What a packet of the stream network carries (R15, R195, R339): a firn request to another stack, the bytes of its read on their way back with whether a beat was
poisoned, a signal, a message, bytes for the store of another cluster's core, a packet for a fabric port with the class of its link there, or one that came from a port. -/
inductive NetLoad where
  | firnReq (r : FirnReq)
  | firnData (r : FirnReq) (bytes : List Byte) (bad : Bool)
  | sig (g : Sig)
  | msg (f : Flight)
  | store (addr : Nat) (bytes : List Byte) (core desc id : Nat)
  | toFab (p cls : Nat) (k : Packet)
  | fromFab (p : Nat) (k : RxPkt)
  deriving DecidableEq, Repr

/-- An item of a crossing queue (R287, R288): the reader cycles it has waited, the latency it has where the crossing is free, its marks (R202), and what it is. -/
structure NetItem where
  age    : Nat
  lat    : Nat
  marks  : Nat
  load   : NetLoad
  deriving DecidableEq, Repr

/-- A packet in the stream network (R195 to R199): the rank of the switch input it comes from (the order of R197), the wheel count of its next output's die at which it is
due, on an edge link the step of its arrival (R293), the outputs still ahead of it, its marks and its load. -/
structure NetPkt where
  input  : Nat
  due    : Nat
  eta    : Nat := 0
  route  : List SwOut
  marks  : Nat
  load   : NetLoad
  deriving DecidableEq, Repr

/-- One floe: the reason of the elastic stall in force, 0 without one (R76, R203), and the time base at which the continuous stall began (R206, R207). -/
structure FloeSt where
  held  : Nat := 0
  since : Option Nat := none
  deriving DecidableEq, Repr

/-- The sequence of a rail (R320, R321) and whether it is on, the tick at which its present raise began, the regulator's mode, and the time base and current of a brown-out not
yet reported (R319, R415). -/
structure RailSt where
  since   : Nat := 0
  brown   : Option (Nat × Nat) := none
  settled : Bool := false
  lowPow  : Bool := false
  volts   : BitVec 10 := 0
  goal    : BitVec 10 := 0
  on      : Bool := false
  deriving DecidableEq, Repr

/-- An access that waits for its region (R306, R313). -/
structure Held where
  src  : Src
  off  : Nat
  wide : Bool
  val  : BitVec 64
  deriving DecidableEq, Repr

/-- The levels of the pads that DEEP and OFF latch (R315): QSPI_CLK, QSPI_CS_N, QSPI_IO and TDO. -/
structure Pads where
  clk : Bool := false
  csN : Bool := true
  io  : BitVec 4 := 0
  tdo : Bool := false
  deriving DecidableEq, Repr

/-- A PMBus command to the regulator at an address (R318): OPERATION, or VOUT_COMMAND in millivolts. -/
inductive PmbOp where
  | operation (addr : Nat) (on : Bool)
  | voutCommand (addr : Nat) (mv : BitVec 10)
  deriving DecidableEq, Repr

/-- The package's power state beyond its registers (R305 to R316, R324, R450, R453): `entry` is the entry in progress (2 SLEEP, 3 DEEP, 4 OFF), `waking` a wake or
a bring-up, `idleNext` that the wake ends in IDLE; `target` is the DVFS_TARGET in force (R321), `pmb` the commands
that the PMBus master has sent (R318). -/
structure PowerSt where
  vaux     : Bool := true
  supplies : Bool := false
  off      : Bool := false
  entry    : Option Nat := none
  latched  : Option WakeSrc := none
  idleNext : Bool := false
  waking   : Bool := false
  held     : List Held := []
  lpwr     : Nat := 0
  overUs   : Nat := 0
  sinceUs  : Nat := 0
  target   : BitVec 64 := 0x22_2222_2222
  refLost  : Bool := false
  wakeOut  : Bool := false
  railStrap : Bool := false
  bootStrap : Bool := false
  padsLatched : Option Pads := none
  pmb      : List PmbOp := []
  deriving DecidableEq, Repr

/-- The time base servo and its events (R294 to R299). `tb` counts units of 2^-32 ns; `ticks` counts ticks and is never
stepped (R382), `sub` the steps of the present tick; `rate` and `slew` are in units of 2^-32 ns per tick. `t1` is the time stamp and SEQ of the TIME_REQ that waits for its answer, `t1Late`
that a retry resent it, `exch` the interval of the last exchange (R296, R346). -/
structure TimeSt where
  tb     : Nat := 0
  ticks  : Nat := 0
  sub    : Nat := 0
  rate   : Int := 0
  slew   : Int := 0
  errs   : List Int := []
  eventTick : Nat := 0
  latch  : BitVec 32 := 0
  latched : Bool := false
  syncOut : Bool := false
  t1     : Option (Nat × Nat) := none
  t1Late : Bool := false
  exch   : Option Nat := none
  deriving DecidableEq, Repr

/-- What a tracker entry belongs to (R336, Table 15-4); for a descriptor's packet with its place in the transfer's order. -/
inductive TrkWho where
  | descRead (core d id pos : Nat)
  | descWrite (core d id len : Nat) (sig : Bool)
  | message (core och slot : Nat) (words : List (BitVec 64)) (rres : Bool)
  | reply (core : Nat)
  | ccWrite (k : Nat)
  | ccRead (k pos : Nat)
  | ccSignal (k : Nat)
  deriving DecidableEq, Repr

/-- One tracker entry (R336): its generation, and while it is held its owner, first port and the time it was taken. -/
structure TrkEnt where
  gen  : Nat := 0
  busy : Option (TrkWho × Nat × Nat) := none
  deriving DecidableEq, Repr

/-- The fields of a flit's link header, and its content (Table 15-1). -/
structure FlitRec where
  seq     : Nat
  vl      : Nat
  cls     : Nat
  sop     : Bool
  eop     : Bool
  idle    : Bool
  ackSeq  : Nat
  nak     : Bool
  credits : List Nat
  content : List Byte
  deriving DecidableEq, Repr

/-- A packet in a port's transmit queue: the contents of its flits still to send, 240 bytes each, and whether its first flit has gone. -/
structure TxPkt where
  pkt   : Packet
  rest  : List (List Byte)
  begun : Bool := false
  deriving DecidableEq, Repr

/-- The link state of one fabric port (R326 to R333, R345). The transmit side: next SEQ, the unacknowledged flits, oldest first, replays and RTO expiries in a row, the time
of the last progress, the queue of each VL and class and the credits in use of each, both by 2 · VL + class, and the flits or frames that have left. The receive side: the next
SEQ, whether an acknowledgement or a NAK is due, whether flits are discarded until the next in order comes, how many flits from that one on a retry delays, the content of each
VL's and class's packet so far and whether a retry delayed a flit of it, whole packets in the buffers, packets delivered at their target and not performed, and credits to
return. `eth` is the framing in force, `half` that one lane pair carries it. -/
structure PortSt where
  nextSeq : Nat := 0
  replay  : List FlitRec := []
  replays : Nat := 0
  rtos    : Nat := 0
  since   : Nat := 0
  txq     : List (Nat × List TxPkt) := []
  used    : List (Nat × Nat) := []
  out     : List (List Byte) := []
  rxSeq   : Nat := 0
  ackDue  : Bool := false
  nakDue  : Bool := false
  lossy   : Bool := false
  behind  : Nat := 0
  part    : List (Nat × List (List Byte) × Bool) := []
  rx      : List RxPkt := []
  landed  : List RxPkt := []
  ret     : List (Nat × Nat) := []
  eth     : Bool := false
  half    : Bool := false
  deriving DecidableEq, Repr

/-- A mirror delta held in the secondary's log (R351); `no` numbers the deltas in their order of arrival. -/
structure DeltaRec where
  region : Nat
  off    : Nat
  data   : List Byte
  mask   : List Bool
  no     : Nat
  deriving DecidableEq, Repr

/-- What a side of a mirror pair says of its own check (R349, R350): MODE, whether its log passes, the regions that pass, as a mask, and the SIZE of each. -/
structure MirSay where
  mode  : Nat
  logOk : Bool
  pass  : Nat
  sizes : List Nat
  deriving DecidableEq, Repr

/-- The mirror pair beyond its registers (R349 to R355): the active regions, their layout and the log's base and size as ACTIVE took them; the secondary's log, where its next
byte goes and the number of its next delta, and the commits it has not applied, each with its regions and the number of the first delta that came after it; the primary's
unacknowledged commits with their issue times, a MIR_CTL write that waits for APPLYING, the deltas of each region that await a commit, and what the partner last said. -/
structure MirrorSt where
  active  : Nat := 0
  layout  : List (Nat × Nat) := []
  logAt   : Nat × Nat := (0, 0)
  log     : List DeltaRec := []
  logPos  : Nat := 0
  logNo   : Nat := 0
  unacked : List (Nat × Nat) := []
  commits : List (Nat × Nat × Nat) := []
  pendWr  : Option (BitVec 32) := none
  deltas  : List (Nat × Nat) := []
  partner : Option MirSay := none
  deriving DecidableEq, Repr

/-- A command fetched from the host ring (R368): its ring index, its eight words, and how many FIRNBAR accesses had arrived before it was fetched (R375). -/
structure HostCmd where
  hidx  : Nat
  words : List (BitVec 64)
  bars  : Nat := 0
  deriving DecidableEq, Repr

/-- A load in progress (R276, R370): its command, the STATUS and the R277 code it ends with, the floes that step 7 starts, as cluster and definition, and the blocks
that step 6 waits for, as core, first block and number. -/
structure LoadSt where
  cmd    : HostCmd
  status : Nat
  code   : Nat
  floes  : List (Nat × Nat)
  wants  : List (Nat × Nat × Nat)
  deriving DecidableEq, Repr

/-- What the device sends to the host (R360, R363, R364, R371, R377): data and completion records with their host address, MSI-X messages, and completions of reads. -/
inductive HostOut where
  | data (addr : Nat) (bytes : List Byte)
  | record (addr : Nat) (words : List (BitVec 64))
  | msix (vector : Nat) (addr : BitVec 64) (data : BitVec 32)
  | readRsp (bytes : List Byte)
  | completerAbort
  | unsupported
  deriving DecidableEq, Repr

/-- A completion that waits for its record to be written (R364, R371). -/
structure HostRec where
  cmd    : HostCmd
  status : Nat
  info   : Nat
  tb     : Nat
  deriving DecidableEq, Repr

/-- An entry of the MSI-X table in VECBAR (R359): message address and data, and the mask bit of its vector control (PRESUMED set at reset, as PCI Express has it; entry 116). -/
structure VecEnt where
  addr : BitVec 64 := 0
  data : BitVec 32 := 0
  mask : Bool := true
  deriving DecidableEq, Repr

/-- What the function's configuration space holds of the capabilities of Table 16-1 (R358): the power state, Max Payload Size and Max Read Request Size in bytes, and
10-bit tags (PRESUMED values of PCI Express at reset; entry 116). -/
structure PcieCfg where
  d3hot  : Bool := false
  mps    : Nat := 128
  mrrs   : Nat := 512
  tags10 : Bool := false
  aspmL1 : Bool := false
  aer    : BitVec 32 := 0
  deriving DecidableEq, Repr

/-- A FIRNBAR access under way (R313, R362): its firn address, and a read's length or a write's bytes. -/
structure BarAcc where
  addr : Nat
  len  : Nat
  data : Option (List Byte)
  deriving DecidableEq, Repr

/-- The host attachment beyond its registers (R358 to R377): the configuration space, the MSI-X table by vector, FIRNBAR accesses under way, oldest first, and how many have
arrived, the link and Bus Master Enable, commands accepted and not dispatched, the queue of each mover, how many bytes its MOVE in progress has moved, the load in progress,
completions whose record waits, the MSI-X pending bits, and what the device has sent. -/
structure HostSt where
  cfg      : PcieCfg := {}
  vectors  : List (Nat × VecEnt) := []
  bar      : List BarAcc := []
  barCnt   : Nat := 0
  linkUp   : Bool := false
  bme      : Bool := false
  accepted : List HostCmd := []
  movers   : List (Nat × List HostCmd) := []
  moved    : List (Nat × Nat) := []
  loader   : Option LoadSt := none
  recs     : List HostRec := []
  pend     : Nat := 0
  out      : List HostOut := []
  deriving DecidableEq, Repr

/-- The session beyond its registers (R381 to R383): when the challenge was issued, whether JTAG owns the session (R437), when the
lockout began and how long it lasts, and the response bytes written. -/
structure SessSt where
  chalTick : Nat := 0
  jtag     : Bool := false
  lockTick : Nat := 0
  lockLen  : Nat := 0
  resp     : List (Nat × BitVec 32) := []
  deriving DecidableEq, Repr

/-- One owner slot (R407): keys, and whether it is in use or revoked. -/
structure OwnerSlot where
  owner   : List Byte := []
  debug   : List Byte := []
  prog    : List Byte := []
  used    : Bool := false
  revoked : Bool := false
  deriving DecidableEq, Repr

/-- The security store and the boot (R400 to R407). -/
structure SecSt where
  lifeState : Nat := 0
  slots    : List (Nat × OwnerSlot) := []
  cur      : Nat := 0
  provKey  : List (Nat × BitVec 32) := []
  burning  : Bool := false
  svn      : Nat := 0
  pushIdx  : Option Nat := none
  bootCnt  : Nat := 0
  mhash    : BitVec 384 := 0
  bootWait : Bool := true
  warm     : Bool := false
  signing  : Bool := false
  deriving DecidableEq, Repr

/-- The TAP (R436, R437): the instruction in force, the boundary cells as SAMPLE/PRELOAD last loaded them, the read data and status of DBG_REG, and the offset and width
of a read that waits for its region. -/
structure TapSt where
  ir     : BitVec 8 := 0x01
  cells  : List Bool := []
  data   : BitVec 64 := 0
  status : Nat := 0
  dr     : BitVec 32 := 0
  read   : Option (Nat × Bool) := none
  deriving DecidableEq, Repr

/-- What a control core does in program order and has not yet done: an access, to another package (`pkg`) or of its own map, a load where `data` is none (R386, R389);
a write of CC_SIG (R388); a host interrupt that follows
its stores (R397); or, for the loader, an overlay of `len` bytes of firn to byte `dst` of a core's instruction store (R276). -/
inductive CcItem where
  | access (pkg : Option Nat) (addr len : Nat) (data : Option (List Byte))
  | signal (v : BitVec 64)
  | irq (v : Nat)
  | overlay (core slot src dst len : Nat)
  deriving DecidableEq, Repr

/-- A control core (R384, R389, R391): its pc, its interrupt inputs, the entries of its remote writes and loads, what it has still
to do in program order, and the bytes its last load returned. -/
structure CcSt where
  pc    : Nat := 0
  mtip  : Bool := false
  meip  : Bool := false
  tags  : List Nat := []
  loads : List Nat := []
  todo  : List CcItem := []
  data  : List Byte := []
  deriving DecidableEq, Repr

/-- An accepted serving request or an admitted stream (R394 to R397): the fields of its entry, the tokens made, the last of them, the blocks it holds, and a token
whose record a full ring holds back. -/
structure Stream where
  reqid  : Nat
  plen   : Nat
  maxnew : Nat
  rpkg   : Nat
  paddr  : Nat
  temp   : Nat
  topk   : Nat
  seed   : Nat
  taddr  : Nat
  tlog   : Nat
  made   : Nat
  last   : Nat
  blocks : List Nat
  held   : Option (Nat × Bool)
  deriving DecidableEq, Repr

/-- The serving front end (R394 to R397): ring place and lap phase, requests accepted and not admitted, rows, the records written to each token ring (by package
and address), and the step number. -/
structure ServeSt where
  idx    : Nat := 0
  phase  : Bool := true
  queue  : List Stream := []
  rows   : List Stream := []
  wrote  : List (Nat × Nat) := []
  step   : Nat := 0
  deriving DecidableEq, Repr

/-- The state of the stream network of the package (R195 to R199, R287, R293). `outq` holds the crossing queues toward the switch, by 16 · (8 · cluster + link) + source,
and `inq` those toward a cluster, by 8 · cluster + link; keys of the others number the switch outputs: `turn` the turn buffers, oldest first, `links` the packets on
each inbound link, `recv` the receive buffers of the edge links, `hold` the changes of turn hold with the wheel count of each, newest first, `used` the wheel count, plus 1,
at which a link last took a packet; `flying` the packets on their way to an output. -/
structure NetSt where
  outq   : List (Nat × List NetItem) := []
  inq    : List (Nat × List NetItem) := []
  flying : List NetPkt := []
  turn   : List (Nat × List NetPkt) := []
  links  : List (Nat × List NetPkt) := []
  recv   : List (Nat × List NetPkt) := []
  hold   : List (Nat × List (Nat × Bool)) := []
  used   : List (Nat × Nat) := []
  edgeX  : List (Nat × Nat) := []
  deriving DecidableEq, Repr

/-- The pins the block drives (Table 22-4): true is the high level. `pads` holds the levels that the pads' controllers drive (R315). -/
structure PinSt where
  thermtripN : Bool := true
  alertN     : Bool := true
  pads       : Pads := {}
  smbAddr    : BitVec 7 := 0x4E
  smbOut     : Nat := 0
  deriving DecidableEq, Repr

/-- The fuses (R1, R4, R404; Table 23-2). `grade` is GRADE_MAP. -/
structure Fuses where
  grade : BitVec 32 := 0xFFFF_FFFF
  deriving DecidableEq, Repr

/-- The state of the package. -/
structure State where
  /-- CTLBAR register words by offset (Table 23-1 to 23-8). -/
  regs     : List (Nat × BitVec 32) := []
  /-- Bytes of firn and of the stationary stores by device address (Table 01-4). -/
  mem      : List (Nat × Byte) := []
  /-- Error pattern of a firn beat (36 symbols of 8 bits), by device beat number: what the 36 stored symbols differ by
  from the codeword last written (R172). -/
  beatErr  : List (Nat × BitVec 288) := []
  /-- Service SRAM bytes: die · 2^21 + offset (R384). -/
  sram     : List (Nat × Byte) := []
  /-- Core state without a CTLBAR address. -/
  cores    : List (Nat × CoreSt) := []
  firnStacks : List (Nat × StackSt) := []
  regions  : List (Nat × RegionSt) := []
  clusters : List (Nat × ClusterSt) := []
  /-- Floes by 32 · cluster + f. -/
  floes    : List (Nat × FloeSt) := []
  rails    : List (Nat × RailSt) := []
  ccs      : List (Nat × CcSt) := []
  ports    : List (Nat × PortSt) := []
  tracker  : List (Nat × TrkEnt) := []
  /-- Trace records staged on each die (R440). -/
  trace    : List (Nat × List (List (BitVec 64))) := []
  /-- Junction temperature of each region and case temperature of each stack (keys 0 to 36, then 64 + stack). -/
  temps    : List (Nat × Nat) := []
  /-- Signals, messages, returned requests and credits on their way. -/
  signals  : List Sig := []
  flights  : List Flight := []
  refusals : List Refused := []
  credits  : List (Nat × Nat) := []
  /-- Firn requests that wait at their source, and those that hold an entry (R160 to R162). -/
  firnWait : List FirnReq := []
  firnEnt  : List FirnReq := []
  net      : NetSt := {}
  fuses    : Fuses := {}
  time     : TimeSt := {}
  pwr      : PowerSt := {}
  host     : HostSt := {}
  sess     : SessSt := {}
  sec      : SecSt := {}
  tap      : TapSt := {}
  mirror   : MirrorSt := {}
  serve    : ServeSt := {}
  pins     : PinSt := {}
  /-- The next transfer number (the model's own: it tells transfers apart for R252). -/
  xferId   : Nat := 0
  /-- The number of the next message (the model's own: it tells the order of a channel's messages for R234). -/
  sendNo   : Nat := 0
  /-- Cores that a reset holds until RESET_COMPLETE (R221, R433). -/
  resetting : List Nat := []
  /-- The commanded reset that is in progress: kind and index (R432). -/
  rstJob   : Option (Nat × Nat) := none
  /-- Firn that the loader has given to modules: first address and size (R271). -/
  alloc    : List (Nat × Nat) := []
  /-- The number of free values drawn so far (the model's own; DESIGN CHOICE, entry 3). -/
  draws    : Nat := 0
  /-- The commands that wait, first in first out. -/
  pending  : List Instr := []
  deriving DecidableEq, Repr

/-- Why a step faults. -/
inductive Fault where
  /-- Raised by nothing: the spec gives every command an effect, and an access to an unmapped address is reported as R23
  states, not by a stop of the machine. Safe. -/
  | none_
  deriving DecidableEq, Repr

/-- Why a step is refused. -/
inductive Refusal where
  /-- Raised by Dispatch for a command that has no meaning yet. Safe: nothing can be proved of it. -/
  | notModelled (mnemonic : String)
  deriving DecidableEq, Repr

/-- The package as a package cold reset leaves it at step 1 of R434: every register at its reset value, no region powered, an
empty queue. Values the spec does not give are named in the assumption log. -/
def State.reset : State := {}

end Sys2Proof.Machine
end

