-- ==== Sys2Proof/Machine/RegMap.lean ====
section
/-! DEFINITION. The register map (23_register_map.md): where each register lies, its reset value, and which of its bits
a write stores, clears or may write only in a debug session (Table 00-4). -/

namespace Sys2Proof.Machine

/-- The access of one 32-bit word: whether a register lies there, its reset value, the bits a write stores (RW), the bits a write of 1
clears (W1C), and the bits a write stores in a debug session only. Every other bit is RO, WO or reserved (R7, R10). -/
structure RegSpec where
  known : Bool
  reset : BitVec 32
  rw    : BitVec 32
  w1c   : BitVec 32
  dbg   : BitVec 32
  deriving DecidableEq, Repr

/-- A word at which no register lies (R360). -/
def RegSpec.absent : RegSpec := ⟨false, 0, 0, 0, 0⟩

/-- A word with these reset value and write masks. -/
def regWord (reset rw w1c dbg : BitVec 32) : RegSpec := ⟨true, reset, rw, w1c, dbg⟩

/-- A read-only, write-only or behaviour-only word with reset 0. -/
def regRo : RegSpec := ⟨true, 0, 0, 0, 0⟩

/-- All 32 bits. -/
def ones32 : BitVec 32 := 0xFFFF_FFFF#32

/-- Base of a core's block (R456, Table 23-1). -/
def coreBase (c : Nat) : Nat := 0x0200_0000 + c * 0x1_0000
/-- Base of a cluster's block. -/
def clusterBase (c : Nat) : Nat := 0x0100_0000 + c * 0x1_0000
/-- Base of a die's moraine (R408). -/
def mlogBase (d : Nat) : Nat := 0x000C_0000 + d * 0x1000
/-- Base of a die's service complex block (Table 17-5). -/
def svcBase (d : Nat) : Nat := 0x0040_0000 + d * 0x4_0000
/-- Base of a fabric port's registers (Table 15-5). -/
def portBase (p : Nat) : Nat := 0x0010_0000 + p * 0x100
/-- Base of a ledger's registers (Table 20-4). -/
def ledgerBase (q : Nat) : Nat := 0x0020_0000 + q * 0x40

-- identity (Table 23-2)
def rDEV_ID : Nat := 0x0
def rGRADE_MAP : Nat := 0x4
def rSTEPPING : Nat := 0x8
def rFW_VERSION : Nat := 0xC
def rPKG_ID : Nat := 0x10
-- session and security (Tables 16-11, 18-4)
def rSESS_CTL : Nat := 0x2_0000
def rSESS_STATE : Nat := 0x2_0004
def rSESS_LOCK : Nat := 0x2_0008
def rSESS_CHALLENGE : Nat := 0x2_0040
def rSESS_NONCE : Nat := 0x2_0060
def rSESS_RESPONSE : Nat := 0x2_0080
def rLIFECYCLE : Nat := 0x2_0100
def rBOOT_STAT : Nat := 0x2_0108
def rBOOT_CTL : Nat := 0x2_010C
def rBOOT_PUSH_CTL : Nat := 0x2_0110
def rBOOT_PUSH_DATA : Nat := 0x2_0118
def rATTEST_CTL : Nat := 0x2_0200
def rATTEST_NONCE : Nat := 0x2_0220
def rPROV_KEY : Nat := 0x2_0300
def rATTEST_SERIAL : Nat := 0x2_0400
def rATTEST_REPORT : Nat := 0x2_1000
def rATTEST_PUB : Nat := 0x2_2000
-- host (Table 16-12)
def rHRING_BASE : Nat := 0x4_0000
def rHRING_SIZE : Nat := 0x4_0008
def rHRING_POLL : Nat := 0x4_000C
def rCRING_BASE : Nat := 0x4_0010
def rCRING_HEADPTR : Nat := 0x4_0018
def rHRING_STAT : Nat := 0x4_0020
def rCTAIL : Nat := 0x4_0024
def rFIRN_WIN_BASE : Nat := 0x4_0040
def rHOST_IRQ_STAT : Nat := 0x4_0048
def rHOST_IRQ_EN : Nat := 0x4_0050
def rHOST_STAT : Nat := 0x4_0058
def rHMV_STAT (m : Nat) : Nat := 0x4_0100 + 0x10 * m
def rHMV_CNT (m : Nat) : Nat := 0x4_0108 + 0x10 * m
-- power, clocks, reset, thermal (Tables 13-4, 14-3, 21-3, 22-8)
def rPWR_REQ : Nat := 0x8_0000
def rPWR_STATE : Nat := 0x8_0004
def rPWR_STAGGER : Nat := 0x8_0008
def rPAD_RELEASE : Nat := 0x8_000C
def rDVFS_TARGET : Nat := 0x8_0010
def rDVFS_STATUS : Nat := 0x8_0018
def rRAIL_MODE : Nat := 0x8_0020
def rIVR_LIMIT : Nat := 0x8_0028
def rPWR_LIMIT : Nat := 0x8_0030
def rPWR_MEAS : Nat := 0x8_0038
def rRST_REQ : Nat := 0x8_0040
def rRST_STAT : Nat := 0x8_0044
def rTHERM_CFG : Nat := 0x8_0050
def rTHERM_STAT : Nat := 0x8_0058
def rMARGIN_STAT : Nat := 0x8_0800
def rTB_CTL : Nat := 0x8_0900
def rTB_VALUE : Nat := 0x8_0908
def rTB_ALARM : Nat := 0x8_0910
def rCLK_STAT (r : Nat) : Nat := 0x8_1000 + 8 * r
-- moraine (Table 19-4)
def rMLOG_FIRST (d : Nat) : Nat := mlogBase d
def rMLOG_STAT (d : Nat) : Nat := mlogBase d + 0x40
def rMLOG_SEV_CTL (d : Nat) : Nat := mlogBase d + 0x48
def rMLOG_CTL (d : Nat) : Nat := mlogBase d + 0x4C
def rMLOG_STICKY (d : Nat) : Nat := mlogBase d + 0x50
def rMLOG_COUNT (d : Nat) : Nat := mlogBase d + 0x100
-- fabric and mirror (Tables 15-5, 15-6)
def rFAB_CTL (p : Nat) : Nat := portBase p
def rFAB_STAT (p : Nat) : Nat := portBase p + 8
def rFAB_CNT (p : Nat) : Nat := portBase p + 0x10
def rFAB_MAC (p : Nat) : Nat := portBase p + 0x40
def rFAB_SLOTS (p : Nat) : Nat := portBase p + 0x20
def rFAB_ROUTE : Nat := 0x10_1000
def rFAB_DIR (k : Nat) : Nat := 0x10_1008 + 4 * k
def rFAB_AVOID (i : Nat) : Nat := 0x10_1040 + 4 * i
def rFAB_TIME : Nat := 0x10_1100
def rFAB_TRK : Nat := 0x10_1108
def rFAB_TMO : Nat := 0x10_1110
def rFAB_ETH : Nat := 0x10_1114
def rMIR_CTL : Nat := 0x18_0000
def rMIR_SEQ : Nat := 0x18_0008
def rMIR_STAT : Nat := 0x18_0010
def rMIR_LOG : Nat := 0x18_0018
def rMIR_REGION (r : Nat) : Nat := 0x18_0100 + 0x10 * r
-- ledgers (Table 20-4)
def rLEDGER_CHK : Nat := 0x20_1000
def rLEDGER_CHK_TB : Nat := 0x20_1008
def rLEDGER_COLD : Nat := 0x20_1010
-- service complex (Tables 17-5, 17-6, 21-7, 23-6)
def rCC_CTL (k : Nat) : Nat := svcBase (k / 4) + 0x40 * (k % 4)
def rCC_TIMECMP (k : Nat) : Nat := rCC_CTL k + 8
def rCC_IRQ_STAT (k : Nat) : Nat := rCC_CTL k + 0x10
def rCC_IRQ_EN (k : Nat) : Nat := rCC_CTL k + 0x14
def rCC_RWIN (k : Nat) : Nat := rCC_CTL k + 0x18
def rCC_SIG (k : Nat) : Nat := rCC_CTL k + 0x20
def rCC_HOSTIRQ (d : Nat) : Nat := svcBase d + 0x100
def rSRV_CTL : Nat := svcBase 0 + 0x1000
def rSRV_REQ : Nat := svcBase 0 + 0x1008
def rSRV_CFG : Nat := svcBase 0 + 0x1010
def rSRV_KV : Nat := svcBase 0 + 0x1018
def rSRV_STAT : Nat := svcBase 0 + 0x1020
def rPROG_STAT : Nat := svcBase 0 + 0x1028
def rTRC_CTL (d : Nat) : Nat := svcBase d + 0x2000
def rTRC_BUF (d : Nat) : Nat := svcBase d + 0x2008
def rTRC_STAT (d : Nat) : Nat := svcBase d + 0x2010
def rTRC_MARK (d : Nat) : Nat := svcBase d + 0x2018
def rTRC_SLOTS (d : Nat) : Nat := svcBase d + 0x2020
def rEDGE_CNT (d k l : Nat) : Nat := svcBase d + 0x3000 + 0x40 * k + 4 * l
-- cluster block (Table 23-7)
def rSTALL_LIMIT (c : Nat) : Nat := clusterBase c + 0x40
def rCLK_XCTL (c : Nat) : Nat := clusterBase c + 0x80
def rFLOE_DEF (c f : Nat) : Nat := clusterBase c + 0x1000 + 0x20 * f
def rFLOE_CTL (c f : Nat) : Nat := clusterBase c + 0x1004 + 0x20 * f
def rFLOE_STAT (c f : Nat) : Nat := clusterBase c + 0x1008 + 0x20 * f
def rFLOE_CYC (c f : Nat) : Nat := clusterBase c + 0x1010 + 0x20 * f
def rFLOE_STALL (c f r : Nat) : Nat := clusterBase c + 0x2000 + 0x40 * f + 4 * r
def rFIRN_MAP (s : Nat) : Nat := clusterBase s + 0x8000
def rFIRN_REFRESH (s : Nat) : Nat := clusterBase s + 0x8004
def rFIRN_STAT (s : Nat) : Nat := clusterBase s + 0x8008
def rFIRN_SCRUB (s : Nat) : Nat := clusterBase s + 0x800C
def rFIRN_ERR_STAT (s : Nat) : Nat := clusterBase s + 0x8010
def rFIRN_ERR_ADDR (s : Nat) : Nat := clusterBase s + 0x8018
def rFIRN_ERR_CNT (s : Nat) : Nat := clusterBase s + 0x8020
def rFIRN_NB_CNT (s : Nat) : Nat := clusterBase s + 0x8024
def rINJ_TAB (c l : Nat) : Nat := clusterBase c + 0x9000 + 0x100 * l
def rNET_CNT (c : Nat) : Nat := clusterBase c + 0x9800
-- core block (Table 23-8)
def rCORE_CTL (c : Nat) : Nat := coreBase c
def rFP_FLAGS (c : Nat) : Nat := coreBase c + 0x80
def rMX_ABFT_STAT (c : Nat) : Nat := coreBase c + 0x100
def rMX_ABFT_LOC (c : Nat) : Nat := coreBase c + 0x104
def rMX_ABFT_OPSEQ (c : Nat) : Nat := coreBase c + 0x108
def rMX_ABFT_CNT (c : Nat) : Nat := coreBase c + 0x10C
def rMX_OPSEQ (c : Nat) : Nat := coreBase c + 0x110
def rSP_FAULT_ADDR (c : Nat) : Nat := coreBase c + 0x120
def rSP_FAULT_INFO (c : Nat) : Nat := coreBase c + 0x124
def rILL_FAULT_WORD (c : Nat) : Nat := coreBase c + 0x128
def rILL_FAULT_INFO (c : Nat) : Nat := coreBase c + 0x130
def rOVL_VALID (c : Nat) : Nat := coreBase c + 0x140
def rTASK_CTL (c t : Nat) : Nat := coreBase c + 0x200 + 0x40 * t
def rTASK_STAT (c t : Nat) : Nat := coreBase c + 0x204 + 0x40 * t
def rTASK_PC (c t : Nat) : Nat := coreBase c + 0x208 + 0x40 * t
def rTASK_SPWIN (c t : Nat) : Nat := coreBase c + 0x20C + 0x40 * t
def rTASK_VMASK (c t : Nat) : Nat := coreBase c + 0x210 + 0x40 * t
def rTASK_RANK (c t : Nat) : Nat := coreBase c + 0x214 + 0x40 * t
def rCTR_VAL (c n : Nat) : Nat := coreBase c + 0x400 + 0x20 * n
def rCTR_CFG (c n : Nat) : Nat := coreBase c + 0x404 + 0x20 * n
def rCTR_STAT (c n : Nat) : Nat := coreBase c + 0x408 + 0x20 * n
def rCTR_BASE (c n : Nat) : Nat := coreBase c + 0x40C + 0x20 * n
def rCTR_LASTSIG (c n : Nat) : Nat := coreBase c + 0x410 + 0x20 * n
def rICH_CFG (c e : Nat) : Nat := coreBase c + 0xA00 + 0x20 * e
def rICH_CTL (c e : Nat) : Nat := coreBase c + 0xA04 + 0x20 * e
def rICH_STAT (c e : Nat) : Nat := coreBase c + 0xA08 + 0x20 * e
def rICH_CNT (c e : Nat) : Nat := coreBase c + 0xA0C + 0x20 * e
def rICH_CNT2 (c e : Nat) : Nat := coreBase c + 0xA10 + 0x20 * e
def rICH_REPLY (c e : Nat) : Nat := coreBase c + 0xA18 + 0x20 * e
def rOCH_CFG (c o : Nat) : Nat := coreBase c + 0xE00 + 0x10 * o
def rOCH_DEST (c o : Nat) : Nat := coreBase c + 0xE04 + 0x10 * o
def rOCH_CRED (c o : Nat) : Nat := coreBase c + 0xE08 + 0x10 * o
def rOCH_STAT (c o : Nat) : Nat := coreBase c + 0xE0C + 0x10 * o
def rOCH_HELD (c o : Nat) : Nat := coreBase c + 0x1200 + 0x40 * o
def rHTAB (c t h : Nat) : Nat := coreBase c + 0x2200 + 0x100 * t + 4 * h
def rDBG_VSEL (c : Nat) : Nat := coreBase c + 0x2600
def rDESC (c n : Nat) : Nat := coreBase c + 0x4000 + 0x40 * n
def rDESC_STAT (c n : Nat) : Nat := coreBase c + 0x5000 + 8 * n
def rSR_SEED (c : Nat) : Nat := coreBase c + 0x5800
def rSR_CORE (c : Nat) : Nat := coreBase c + 0x5808
def rSCL_CTL (c : Nat) : Nat := coreBase c + 0x5810
def rSCL_STEP (c : Nat) : Nat := coreBase c + 0x5814
def rMON_CTL (c : Nat) : Nat := coreBase c + 0x5818
def rMON_TLO (c : Nat) : Nat := coreBase c + 0x581C
def rMON_THI (c : Nat) : Nat := coreBase c + 0x5820
def rMON_USQ (c l : Nat) : Nat := coreBase c + 0x6000 + 0x20 * l
def rMON_WSQ (c l : Nat) : Nat := coreBase c + 0x6004 + 0x20 * l
def rMON_RATIO (c l : Nat) : Nat := coreBase c + 0x6008 + 0x20 * l
def rMON_STEP (c l : Nat) : Nat := coreBase c + 0x600C + 0x20 * l
def rMON_STAT (c l : Nat) : Nat := coreBase c + 0x6010 + 0x20 * l
def rSCL_CFG (c s : Nat) : Nat := coreBase c + 0x8000 + 0x40 * s
def rSCL_CUR (c s : Nat) : Nat := coreBase c + 0x8004 + 0x40 * s
def rSCL_HIST (c s i : Nat) : Nat := coreBase c + 0x8010 + 0x40 * s + 2 * i

/-- Class codes with a meaning (Table 19-2). -/
def classCodes : List Nat :=
  [0x01, 0x02, 0x03, 0x10, 0x11, 0x12, 0x13, 0x14, 0x15, 0x16, 0x17, 0x18, 0x19, 0x1A, 0x1B, 0x1C,
   0x20, 0x21, 0x22, 0x23, 0x24, 0x30, 0x31, 0x32, 0x40, 0x41]

/-- Offsets of a core block (Table 23-8); `c` is the core, for SR_CORE (R259). -/
def coreRegSpec (c o : Nat) : RegSpec :=
  if o = 0x0 then regWord 0 0x1 0x2 0
  else if o = 0x80 then regWord 0 0 0x3F 0
  else if o = 0x100 then regWord 0 0 1 0
  else if o = 0x104 ∨ o = 0x108 ∨ o = 0x110 then regRo
  else if o = 0x10C then regWord 0 ones32 0 0
  else if o = 0x120 ∨ o = 0x128 ∨ o = 0x12C then regRo
  else if o = 0x124 ∨ o = 0x130 then regWord 0 0 1 0
  else if o = 0x140 ∨ o = 0x144 then regRo
  else if 0x200 ≤ o ∧ o < 0x300 then
    let k := o % 0x40
    if k = 0x0 ∨ k = 0x4 then regRo
    else if k = 0x8 then regWord 0 0x1FFF 0 0
    else if k = 0xC then regWord 0x01FF_0000 0x01FF_01FF 0 0
    else if k = 0x10 then regWord ones32 ones32 0 0
    else if k = 0x14 then regWord 0 0xFFF 0 0
    else RegSpec.absent
  else if 0x400 ≤ o ∧ o < 0xA00 then
    let k := o % 0x20
    if k = 0x0 then regWord 0 0 0 0xFFFF
    else if k = 0x4 then regWord 0 0xF 0 0
    else if k = 0x8 then regWord 0 0xFFFF_0000 0x3 0
    else if k = 0xC ∨ k = 0x10 ∨ k = 0x14 then regRo
    else RegSpec.absent
  else if 0xA00 ≤ o ∧ o < 0xC00 then
    let k := o % 0x20
    if k = 0x0 then regWord 0x8000 0xFFFF 0 0
    else if k = 0x4 ∨ k = 0x8 then regRo
    else if k = 0xC ∨ k = 0x10 then regWord 0 ones32 0 0
    else if k = 0x18 ∨ k = 0x1C then regRo
    else RegSpec.absent
  else if 0xE00 ≤ o ∧ o < 0x1200 then
    let k := o % 0x10
    if k = 0x0 then regWord 0 0x7FFF_FFFF 0 0
    else if k = 0x4 then regWord 0 0xFFFF 0 0
    else if k = 0x8 then regWord 0 0x3F00 0 0
    else regWord 0 0xFFFF_0000 0x7 0
  else if 0x1200 ≤ o ∧ o < 0x2200 then regRo
  else if 0x2200 ≤ o ∧ o < 0x2600 then regWord 0 0x7FFF 0 0
  else if o = 0x2600 then regWord 0 0x1F 0 0
  else if 0x2800 ≤ o ∧ o < 0x2C00 then regRo
  else if 0x3000 ≤ o ∧ o < 0x3800 then
    if o % 0x200 < 0x140 then regRo else RegSpec.absent
  else if 0x4000 ≤ o ∧ o < 0x5000 then regWord 0 ones32 0 0
  else if 0x5000 ≤ o ∧ o < 0x5200 then if o % 8 = 0 then regWord 0 0xFF00 0 0 else regRo
  else if o = 0x5800 ∨ o = 0x5804 then regWord 0 ones32 0 0
  else if o = 0x5808 then regWord (BitVec.ofNat 32 c) 0xFFFF 0 0
  else if o = 0x5810 then regWord 0 0x1 0x4 0
  else if o = 0x5814 then regRo
  else if o = 0x5818 then regWord 0 0 0x2 0
  else if o = 0x581C then regWord 0 ones32 0 0
  else if o = 0x5820 then regWord 0x7F80_0000 ones32 0 0
  else if 0x6000 ≤ o ∧ o < 0x8000 then
    let k := o % 0x20
    if k < 0x10 then regRo else if k = 0x10 then regWord 0 0 0xE 0 else RegSpec.absent
  else if 0x8000 ≤ o ∧ o < 0x1_0000 then
    let k := o % 0x40
    if k = 0 then regWord 0x100 0xFFF 0 0
    else if k = 4 ∨ (0x10 ≤ k ∧ k < 0x30) then regRo
    else RegSpec.absent
  else RegSpec.absent

/-- Offsets of a cluster block (Table 23-7). -/
def clusterRegSpec (o : Nat) : RegSpec :=
  if o = 0x40 then regWord 1000 0xF_FFFF 0 0
  else if o = 0x80 then regWord 0 0x1 0x2 0
  else if 0x1000 ≤ o ∧ o < 0x1400 then
    let k := o % 0x20
    if k = 0 then regWord 0 0x3_03FF 0 0
    else if k = 4 then regWord 0 0 0 0x4
    else if k = 8 then regWord 0 0 0x30 0
    else if k = 0x10 ∨ k = 0x14 then regRo
    else RegSpec.absent
  else if 0x2000 ≤ o ∧ o < 0x2800 then
    if o % 0x40 = 0 then RegSpec.absent else regWord 0 ones32 0 0
  else if o = 0x8000 then regWord 1 1 0 0
  else if o = 0x8004 then regWord 0 3 0 0
  else if o = 0x8008 ∨ o = 0x800C then regRo
  else if o = 0x8010 then regWord 0 0 1 0
  else if o = 0x8018 ∨ o = 0x801C then regRo
  else if o = 0x8020 ∨ o = 0x8024 then regWord 0 ones32 0 0
  else if 0x9000 ≤ o ∧ o < 0x9800 then regWord 0x0F0F_0F0F 0x0F0F_0F0F 0 0
  else if o = 0x9800 then regWord 0 ones32 0 0
  else RegSpec.absent

/-- Offsets of a service complex block (Table 23-6); `d` is the die. -/
def svcRegSpec (d o : Nat) : RegSpec :=
  if o < 0x100 then
    let k := o % 0x40
    if k = 0 then regWord (if d = 0 ∧ o = 0 then 1 else 0) 1 0 0
    else if k = 8 ∨ k = 0xC then regWord ones32 ones32 0 0
    else if k = 0x10 then regWord 0 0 0x1F 0
    else if k = 0x14 then regWord 0 0x1F 0 0
    else if k = 0x18 then regWord 0 0xFFFF_00FF 0 0
    else if k = 0x20 ∨ k = 0x24 then regRo
    else RegSpec.absent
  else if o = 0x100 ∨ o = 0x104 then regRo
  else if 0x1000 ≤ o ∧ o < 0x1030 ∧ d = 0 then
    if o = 0x1000 then regWord 0 1 0 0
    else if o = 0x1008 then regWord 0 ones32 0 0
    else if o = 0x100C then regWord 0x6_0000 0x1F_FFFF 0 0
    else if o = 0x1010 then regWord 0x40_1000 0x7F_1FFF 0 0
    else if o = 0x1014 then regWord 0x2_0000 0xFFFF_003F 0 0
    else if o = 0x1018 then regWord 0 ones32 0 0
    else if o = 0x1020 then regWord 0 ones32 0 0
    else if o = 0x1024 then regWord 0 0xFFFF_0000 0 0
    else if o = 0x1028 ∨ o = 0x102C then regRo
    else RegSpec.absent
  else if o = 0x2000 then regWord 0 0xFF_1F02 0 0x1
  else if o = 0x2008 then regWord 0 0xFFE0_0000 0 0
  else if o = 0x200C then regWord 0 0x0FFF_FFFF 0 0
  else if o = 0x2010 then regRo
  else if o = 0x2014 then regWord 0 0xFFFF_0000 0x3 0
  else if o = 0x2018 then regRo
  else if 0x2020 ≤ o ∧ o < 0x2040 then regWord 0 ones32 0 0
  else if 0x3000 ≤ o ∧ o < 0x3080 ∧ o % 0x40 < 0x24 then regWord 0 ones32 0 0
  else RegSpec.absent

/-- Offsets of a moraine (Table 19-4). -/
def mlogRegSpec (o : Nat) : RegSpec :=
  if o = 0 then regWord 0 0 1 0
  else if o < 0x40 then regRo
  else if o = 0x40 then regWord 0 0xFFFF_0000 0x15F 0
  else if o = 0x44 then regRo
  else if o = 0x48 then regWord 0xCA 0xFF 0 0
  else if o = 0x4C then regRo
  else if 0x50 ≤ o ∧ o < 0x60 then regWord 0 0 ones32 0
  else if 0x100 ≤ o ∧ o < 0x200 then
    let c := (o - 0x100) / 2
    regWord 0 ((if c ∈ classCodes then 0xFFFF#32 else 0#32) ||| (if c + 1 ∈ classCodes then 0xFFFF_0000#32 else 0#32)) 0 0
  else RegSpec.absent

/-- Offsets of the power, clock, reset and thermal block (Table 23-4), from 0x0008_0000. -/
def pwrRegSpec (o : Nat) : RegSpec :=
  if o = 0x0 then regWord 0x100 0x700 0 0
  else if o = 0x4 then regWord 0 0 0xF_0000 0
  else if o = 0x8 then regWord 3 0xF 0 0
  else if o = 0xC then regRo
  else if o = 0x10 then regWord 0x2222_2222 0x3F3F_3F3F 0 0
  else if o = 0x14 then regWord 0x22 0x3F 0 0
  else if o = 0x18 then regRo
  else if o = 0x1C then regWord 0 0 0x30_0000 0
  else if o = 0x20 then regWord 0x4241_4000 0x7F7F_7F00 0 0
  else if o = 0x24 then regWord 0x43 0x7F 0 0
  else if o = 0x28 then regWord 0x0019_1401 0x1F01 0 0
  else if o = 0x30 then regWord 0x0E10_0BB8 0x1FFF_1FFF 0 0
  else if o = 0x34 then regWord 1000 0x3FF 0 0
  else if o = 0x38 ∨ o = 0x40 ∨ o = 0x44 then regRo
  else if o = 0x50 then regWord 100 0xFF 0 0
  else if o = 0x58 then regRo
  else if o = 0x5C then regWord 0 0 0x1 0
  else if o = 0x800 then regWord 0x460C 0x7F3F 0 0
  else if o = 0x900 then regWord 0xC_0000 0x1F_FFFF 0 0
  else if o = 0x904 then regWord 0 0 0x39 0
  else if o = 0x908 ∨ o = 0x90C then regRo
  else if o = 0x910 ∨ o = 0x914 then regWord 0 ones32 0 0
  else if 0x1000 ≤ o ∧ o < 0x1128 then
    if o % 8 = 0 then regWord 0x3F_0000 0x3F_0000 0x600 0 else regWord 0 ones32 0 0
  else RegSpec.absent

/-- Offsets of the fabric block (Table 15-5), from 0x0010_0000. -/
def fabRegSpec (o : Nat) : RegSpec :=
  if o < 0x1000 then
    let k := o % 0x100
    if k = 0 then regWord 0x1480 0xFFF3 0 0
    else if k = 8 then regWord 0 0 0x30 0
    else if k = 0xC then regRo
    else if k = 0x10 ∨ k = 0x14 ∨ (0x20 ≤ k ∧ k < 0x48) then regWord 0 ones32 0 0
    else if k = 0x48 ∨ k = 0x4C then regRo
    else RegSpec.absent
  else if o = 0x1000 then regWord 0 0xFF_FFFF 0x100_0000 0
  else if 0x1008 ≤ o ∧ o < 0x1020 then regWord 0 0xFFFF 0 0
  else if 0x1040 ≤ o ∧ o < 0x1080 then regWord 0 0x1_FFFF 0 0
  else if o = 0x1100 then regRo
  else if o = 0x1104 then regWord 0 0xFFFF 0 0
  else if o = 0x1108 then regRo
  else if o = 0x110C then regWord 0 ones32 0 0
  else if o = 0x1110 then regWord 100 0xFFFF 0 0
  else if o = 0x1114 then regWord 0x88B5 0xFFFF 0 0
  else RegSpec.absent

/-- Offsets of the mirror block (Table 15-6), from 0x0018_0000. -/
def mirRegSpec (o : Nat) : RegSpec :=
  if o = 0 then regWord 0x03E8_0400 0xFFFF_FF03 0 0
  else if o = 8 ∨ o = 0xC then regRo
  else if o = 0x10 then regWord 0 0xFFFF_0000 0xE 0
  else if o = 0x14 then regWord 0 0xFFFF 0 0
  else if o = 0x18 then regWord 0 0xFFE0_0000 0 0
  else if o = 0x1C then regWord 0 ones32 0 0
  else if 0x100 ≤ o ∧ o < 0x200 then
    if o % 0x10 = 0 then regWord 0 0xFFE0_0000 0 0
    else if o % 0x10 = 4 then regWord 0 0x8FFF_FFFF 0 0
    else RegSpec.absent
  else RegSpec.absent

/-- Offsets of the ledger block (Table 20-4), from 0x0020_0000. -/
def ledgerRegSpec (o : Nat) : RegSpec :=
  if o < 0x240 then if o % 0x40 < 0x20 then regRo else RegSpec.absent
  else if o = 0x1000 then regWord 0xA01 0xFF01 0 0
  else if o = 0x1004 then regWord 0 0 0x1FF 0
  else if o = 0x1008 ∨ o = 0x100C ∨ o = 0x1010 then regRo
  else RegSpec.absent

/-- Offsets of the host block (Table 16-12), from 0x0004_0000. -/
def hostRegSpec (o : Nat) : RegSpec :=
  if o = 0 ∨ o = 4 ∨ o = 0x10 ∨ o = 0x14 ∨ o = 0x18 ∨ o = 0x1C then regWord 0 ones32 0 0
  else if o = 8 then regWord 6 0x11F 0x200 0
  else if o = 0xC then regWord 2 0x7F 0 0
  else if o = 0x20 then regWord 0x1_0000 0 0x6_0000 0
  else if o = 0x24 then regRo
  else if o = 0x40 then regWord 0 0xFF 0 0
  else if o = 0x48 ∨ o = 0x4C then regWord 0 0 ones32 0
  else if o = 0x50 ∨ o = 0x54 then regWord 0 ones32 0 0
  else if o = 0x58 then regWord 0 0xFFFF_0000 0 0
  else if o = 0x5C then regWord 0 0xFFFF 0 0
  else if 0x100 ≤ o ∧ o < 0x200 then if o % 0x10 < 8 then regRo else regWord 0 ones32 0 0
  else RegSpec.absent

/-- Offsets of the session and security block (Tables 16-11, 18-4), from 0x0002_0000. -/
def sessRegSpec (o : Nat) : RegSpec :=
  if o = 0 ∨ o = 4 ∨ o = 8 then regRo
  else if 0x40 ≤ o ∧ o < 0x60 then regRo
  else if 0x60 ≤ o ∧ o < 0x80 then regWord 0 ones32 0 0
  else if 0x80 ≤ o ∧ o < 0xB0 then regRo
  else if o = 0x100 then regRo
  else if o = 0x108 then regWord 0 0 0x8008 0
  else if o = 0x10C then regWord 0 1 0 0
  else if o = 0x110 ∨ o = 0x118 ∨ o = 0x11C then regRo
  else if o = 0x200 then regWord 0 0 0x4 0
  else if 0x220 ≤ o ∧ o < 0x240 then regWord 0 ones32 0 0
  else if 0x300 ≤ o ∧ o < 0x360 then regRo
  else if o = 0x400 ∨ o = 0x404 then regRo
  else if 0x1000 ≤ o ∧ o < 0x27C0 then regRo
  else RegSpec.absent

/-- The access of the word at a CTLBAR offset, a multiple of 4 (R455, Table 23-1). -/
def regSpec (off : Nat) : RegSpec :=
  if off < 0x1_0000 then
    if off < 0x10 then regRo else if off = 0x10 then regWord 0 0xFFFF 0x1_0000 0 else RegSpec.absent
  else if off < 0x2_0000 then if off < 0x1_1000 then regRo else RegSpec.absent
  else if off < 0x4_0000 then sessRegSpec (off - 0x2_0000)
  else if off < 0x8_0000 then hostRegSpec (off - 0x4_0000)
  else if off < 0xC_0000 then pwrRegSpec (off - 0x8_0000)
  else if off < 0xC_4000 then mlogRegSpec (off % 0x1000)
  else if off < 0x10_0000 then RegSpec.absent
  else if off < 0x18_0000 then fabRegSpec (off - 0x10_0000)
  else if off < 0x20_0000 then mirRegSpec (off - 0x18_0000)
  else if off < 0x40_0000 then ledgerRegSpec (off - 0x20_0000)
  else if off < 0x50_0000 then svcRegSpec ((off - 0x40_0000) / 0x4_0000) (off % 0x4_0000)
  else if off < 0x100_0000 then RegSpec.absent
  else if off < 0x120_0000 then clusterRegSpec (off % 0x1_0000)
  else if off < 0x200_0000 then RegSpec.absent
  else if off < 0x300_0000 then coreRegSpec ((off - 0x200_0000) / 0x1_0000) (off % 0x1_0000)
  else RegSpec.absent

/-- The reset value of the word at an offset: what a word that is not listed holds (R460). -/
def resetVal (off : Nat) : BitVec 32 := (regSpec off).reset

end Sys2Proof.Machine
end

