-- ==== Sys2Proof/Machine/Sparse.lean ====
section
/-! DEFINITION. Sparse stores: a list of (key, value) pairs in one canonical form, with a default for every
key that is not listed. Register words, memory bytes and the state of numbered units are held so. -/

namespace Sys2Proof.Machine

/-- The value at key `x`: the first listed one, else the default of that key. -/
def mget {α : Type} (d : Nat → α) : List (Nat × α) → Nat → α
  | [], x => d x
  | (k, v) :: m, x => if x = k then v else mget d m x

/-- The store with the pair (x, v) put at its place in rising key order. -/
def minsert {α : Type} : List (Nat × α) → Nat → α → List (Nat × α)
  | [], x, v => [(x, v)]
  | (k, w) :: m, x, v =>
    if x = k then (x, v) :: m
    else if x < k then (x, v) :: (k, w) :: m
    else (k, w) :: minsert m x v

/-- The store with key `x` holding `v`. Writing the default removes the entry, so equal contents are equal data. -/
def mset {α : Type} [DecidableEq α] (d : Nat → α) (m : List (Nat × α)) (x : Nat) (v : α) : List (Nat × α) :=
  if v = d x then m.filter (fun p => decide (p.1 ≠ x)) else minsert m x v

/-- The canonical form: keys strictly rising, and no entry equal to the default of its key. -/
def mwf {α : Type} [DecidableEq α] (d : Nat → α) : List (Nat × α) → Bool
  | [] => true
  | [p] => decide (p.2 ≠ d p.1)
  | p :: q :: m => decide (p.2 ≠ d p.1) && decide (p.1 < q.1) && mwf d (q :: m)

end Sys2Proof.Machine
end

