-- ==== Sys2Proof/Machine/Wire.lean ====
section
/-! DEFINITION. The bytes of the fabric's wire (15_fenroku_fabric.md): the transport header (Table 15-2), flits with their CRC-64 (Table 15-1), and Ethernet frames
(R344). -/

namespace Sys2Proof.Machine

/-- n little-endian bytes of a number, and the number of a run of bytes (R11). -/
def byteRun : Nat → Nat → List Byte
  | 0, _ => []
  | n + 1, x => BitVec.ofNat 8 x :: byteRun n (x / 256)
def runValue : List Byte → Nat
  | [] => 0
  | b :: bs => b.toNat + 256 * runValue bs

-- CRC ------------------------------------------------------------------------------------------------------------------------

/-- One message bit of a CRC of w bits, most significant bit first. -/
def crcBit (w poly r : Nat) (b : Bool) : Nat :=
  let top := r / 2 ^ (w - 1) % 2 == 1
  let x := 2 * r % 2 ^ w
  if top != b then x ^^^ poly else x

/-- The CRC-64 of a run of bytes with the ECMA-182 polynomial, the register 0 at the start, each byte from its most significant bit (Table 15-1; the order and the start
are a DESIGN CHOICE, entry 107). -/
def crc64 (bs : List Byte) : Nat :=
  bs.foldl (fun r b => (List.range 8).foldl (fun r i => crcBit 64 0x42F0E1EBA9EA3693 r (b.getLsbD (7 - i))) r) 0

/-- The frame check sequence of IEEE 802.3, a CRC-32 sent with its bits in the order of the wire. -/
def crc32 (bs : List Byte) : Nat :=
  let step := fun (r : Nat) (b : Bool) => let x := r / 2; if (r % 2 == 1) != b then x ^^^ 0xEDB88320 else x
  (bs.foldl (fun r b => (List.range 8).foldl (fun r i => step r (b.getLsbD i)) r) 0xFFFF_FFFF) ^^^ 0xFFFF_FFFF

-- the transport header (Table 15-2) ------------------------------------------------------------------------------------------

/-- The four words of a header. The header's REGIONS is a mask in COMMIT and an index in DELTA. -/
def hdrWords (h : PktHdr) : List Nat :=
  [h.typ % 16 + 2 ^ 4 * (h.status % 16) + 2 ^ 8 * (h.dstPkg % 65536) + 2 ^ 24 * (h.srcPkg % 65536) + 2 ^ 40 * (h.tag % 65536) + 2 ^ 56 * (h.tgen % 16),
    h.addr % 2 ^ 48 + 2 ^ 48 * (h.len % 8192),
    h.sctr % 64 + 2 ^ 8 * (h.score % 256) + 2 ^ 16 * (h.sgen % 16) + 2 ^ 32 * (h.scount % 65536) + (if h.sig then 2 ^ 48 else 0),
    h.seq % 2 ^ 32 + 2 ^ 32 * (h.regions % 65536)]

/-- The header of its four words. -/
def hdrOf (w0 w1 w2 w3 : Nat) : PktHdr :=
  { typ := bits w0 0 4, status := bits w0 4 4, dstPkg := bits w0 8 16, srcPkg := bits w0 24 16, tag := bits w0 40 16, tgen := bits w0 56 4,
    addr := bits w1 0 48, len := bits w1 48 13, sctr := bits w2 0 6, score := bits w2 8 8, sgen := bits w2 16 4, scount := bits w2 32 16,
    sig := bits w2 48 1 == 1, seq := bits w3 0 32, regions := if bits w0 0 4 = 12 then bits w3 32 4 else bits w3 32 16 }

/-- The bits of a byte mask as bytes, and back. -/
def maskBytes (m : List Bool) : List Byte :=
  (List.range ((m.length + 7) / 8)).map fun i => BitVec.ofNat 8 ((List.range 8).foldl (fun a j => if m.getD (8 * i + j) false then a + 2 ^ j else a) 0)
def maskOf (n : Nat) (bs : List Byte) : List Bool := (List.range n).map fun i => (bs.getD (i / 8) 0).getLsbD (i % 8)

/-- A packet's bytes: its header, its payload, and after it the byte mask of a DELTA (entry 22). -/
def pktBytes (k : Packet) : List Byte := (hdrWords k.hdr).flatMap (byteRun 8) ++ k.payload ++ maskBytes k.mask

/-- The packet of a run of bytes. -/
def pktOf (bs : List Byte) : Packet :=
  let w := fun i => runValue ((bs.drop (8 * i)).take 8)
  let h := hdrOf (w 0) (w 1) (w 2) (w 3)
  let pay := if h.typ = 2 then 0 else h.len
  let body := bs.drop 32
  ⟨h, body.take pay, if h.typ = 12 then maskOf h.len (body.drop pay) else []⟩

/-- The contents of a packet's flits, 240 bytes each (R334). -/
def pktFlits (k : Packet) : List (List Byte) :=
  let bs := pktBytes k
  (List.range ((bs.length + 239) / 240)).map fun i => let c := (bs.drop (240 * i)).take 240; c ++ List.replicate (240 - c.length) 0

-- flits (Table 15-1) -------------------------------------------------------------------------------------------------------------

/-- A flit's 256 bytes. -/
def flitBytes (f : FlitRec) : List Byte :=
  let h := f.seq % 4096 + 2 ^ 12 * (f.vl % 4) + 2 ^ 14 * (f.cls % 2) + (if f.sop then 2 ^ 15 else 0) + (if f.eop then 2 ^ 16 else 0) + (if f.idle then 2 ^ 17 else 0) +
    2 ^ 18 * (f.ackSeq % 4096) + (if f.nak then 2 ^ 30 else 0) +
    (List.range 8).foldl (fun a i => a + 2 ^ (32 + 4 * i) * (f.credits.getD i 0 % 16)) 0
  let bs := byteRun 8 h ++ f.content ++ List.replicate (240 - f.content.length) 0
  bs ++ byteRun 8 (crc64 bs)

/-- What a flit says, unless its CRC fails. -/
def flitOf (bs : List Byte) : Option FlitRec :=
  if bs.length ≠ 256 ∨ runValue (bs.drop 248) ≠ crc64 (bs.take 248) then none
  else
    let h := runValue (bs.take 8)
    some { seq := bits h 0 12, vl := bits h 12 2, cls := bits h 14 1, sop := bits h 15 1 == 1, eop := bits h 16 1 == 1, idle := bits h 17 1 == 1,
           ackSeq := bits h 18 12, nak := bits h 30 1 == 1, credits := (List.range 8).map fun i => bits h (32 + 4 * i) 4, content := (bs.drop 8).take 240 }

-- Ethernet frames (R344) -----------------------------------------------------------------------------------------------------------

/-- Bytes of a number with the most significant first, as Ethernet sends addresses and types. -/
def netBytes (n x : Nat) : List Byte := (byteRun n x).reverse
def netValue (bs : List Byte) : Nat := runValue bs.reverse

/-- A frame: both addresses, the tag if one is given (PCP and VID), the EtherType, the tunnel header, its flits, and the FCS. -/
def frameBytes (dst src : Nat) (tag : Option Nat) (etype : Nat) (flits : List (List Byte)) : List Byte :=
  let bs := netBytes 6 dst ++ netBytes 6 src ++ (match tag with | some t => netBytes 2 0x8100 ++ netBytes 2 t | none => []) ++ netBytes 2 etype ++
    byteRun 8 (1 + 16 * flits.length) ++ flits.flatten
  bs ++ byteRun 4 (crc32 bs)

/-- What a received frame is (R344, R345): one whose FCS fails, a PAUSE or priority flow-control frame, one that is not of the tunnel, or a number of flits. -/
inductive Frame where
  | bad
  | pause
  | other
  | flits (l : List (List Byte))
  deriving DecidableEq, Repr

/-- A received frame against the port's peer, its own address and the EtherType in force. -/
def frameOf (peer own etype : Nat) (bs : List Byte) : Frame :=
  let n := bs.length
  if n < 18 ∨ runValue (bs.drop (n - 4)) ≠ crc32 (bs.take (n - 4)) then .bad
  else
    let off := if netValue ((bs.drop 12).take 2) = 0x8100 then 16 else 12
    let ty := netValue ((bs.drop off).take 2)
    let th := runValue ((bs.drop (off + 2)).take 8)
    let k := bits th 4 4
    if ty = 0x8808 then .pause
    else if netValue (bs.take 6) ≠ own ∨ netValue ((bs.drop 6).take 6) ≠ peer ∨ ty ≠ etype ∨ bits th 0 4 ≠ 1 ∨ k = 0 ∨ 8 < k ∨ n ≠ off + 2 + 8 + 256 * k + 4 then .other
    else .flits ((List.range k).map fun i => (bs.drop (off + 10 + 256 * i)).take 256)

end Sys2Proof.Machine
end

