-- ==== Sys2Proof/Machine/Ops.lean ====
section
/-! DEFINITION. The named operations over registers, memory and unit state that every meaning shares, the moraine with its
containment (19_moraine_errors.md), the ledgers (20), and what leaving a task slot entails (05, 09). -/

namespace Sys2Proof.Machine

-- registers ------------------------------------------------------------------------------------------------

/-- The 32-bit word at a CTLBAR offset. -/
def getR (s : State) (off : Nat) : BitVec 32 := mget resetVal s.regs off

/-- The state with the 32-bit word at a CTLBAR offset replaced. -/
def setR (s : State) (off : Nat) (v : BitVec 32) : State := { s with regs := mset resetVal s.regs off v }

/-- Bits [lo + w - 1 : lo] of the word at an offset. -/
def getF (s : State) (off lo w : Nat) : Nat := bits (getR s off).toNat lo w

/-- The state with bits [lo + w - 1 : lo] of the word at an offset replaced. -/
def setF (s : State) (off lo w v : Nat) : State := setR s off (BitVec.ofNat 32 (setBits (getR s off).toNat lo w v))

/-- The 64-bit register at an offset, low word first (R457). -/
def getR64 (s : State) (off : Nat) : Nat := (getR s off).toNat + 2 ^ 32 * (getR s (off + 4)).toNat

/-- The state with a 64-bit register replaced. -/
def setR64 (s : State) (off v : Nat) : State :=
  setR (setR s off (BitVec.ofNat 32 v)) (off + 4) (BitVec.ofNat 32 (v / 2 ^ 32))

/-- A bit of a register. -/
def getB (s : State) (off b : Nat) : Bool := decide (getF s off b 1 = 1)

/-- A saturating count field raised by n. -/
def satF (s : State) (off lo w n : Nat) : State := setF s off lo w (satAdd (2 ^ w - 1) (getF s off lo w) n)

/-- A 64-bit wrapping count raised by n. -/
def add64 (s : State) (off n : Nat) : State := setR64 s off ((getR64 s off + n) % 2 ^ 64)

-- memory ---------------------------------------------------------------------------------------------------

/-- The byte of a memory that nothing has written: zero (R179 for firn; DESIGN CHOICE for stores, entry 4). -/
def zeroByte : Nat → Byte := fun _ => 0

/-- The byte at a device address. -/
def rdByte (s : State) (a : Nat) : Byte := mget zeroByte s.mem a

/-- The state with the byte at a device address replaced. -/
def wrByte (s : State) (a : Nat) (v : Byte) : State := { s with mem := mset zeroByte s.mem a v }

/-- n bytes from a device address. -/
def rdBytes (s : State) (a n : Nat) : List Byte := (List.range n).map fun i => rdByte s (a + i)

/-- A memory with bytes written from an address upward. -/
def memWrite : List (Nat × Byte) → Nat → List Byte → List (Nat × Byte)
  | m, _, [] => m
  | m, a, b :: bs => memWrite (mset zeroByte m a b) (a + 1) bs

/-- The state with bytes written from a device address upward. -/
def wrBytes (s : State) (a : Nat) (bs : List Byte) : State := { s with mem := memWrite s.mem a bs }

/-- A little-endian number from bytes (R11). -/
def leNat : List Byte → Nat
  | [] => 0
  | b :: bs => b.toNat + 256 * leNat bs

/-- n little-endian bytes of a number. -/
def leBytes (n x : Nat) : List Byte := (List.range n).map fun i => BitVec.ofNat 8 (x / 256 ^ i)

/-- Base of a core's stationary store in the device map (Table 01-4). -/
def storeBase (c : Nat) : Nat := 0x0100_0000_0000 + c * 2 ^ 24

/-- Base of a stack's firn in the device map (Table 01-4). -/
def firnBase (k : Nat) : Nat := k * 2 ^ 33

-- units ----------------------------------------------------------------------------------------------------

/-- A core's unaddressed state. -/
def coreOf (s : State) (c : Nat) : CoreSt := mget (fun _ => {}) s.cores c
def setCore (s : State) (c : Nat) (x : CoreSt) : State := { s with cores := mset (fun _ => {}) s.cores c x }
def modCore (s : State) (c : Nat) (f : CoreSt → CoreSt) : State := setCore s c (f (coreOf s c))
/-- A task slot's unaddressed state. -/
def slotOf (s : State) (c t : Nat) : SlotSt := mget (fun _ => {}) (coreOf s c).slots t
def setSlot (s : State) (c t : Nat) (x : SlotSt) : State :=
  modCore s c fun k => { k with slots := mset (fun _ => {}) k.slots t x }
def modSlot (s : State) (c t : Nat) (f : SlotSt → SlotSt) : State := setSlot s c t (f (slotOf s c t))
def descOf (s : State) (c d : Nat) : DescSt := mget (fun _ => {}) (coreOf s c).desc d
def setDesc (s : State) (c d : Nat) (x : DescSt) : State :=
  modCore s c fun k => { k with desc := mset (fun _ => {}) k.desc d x }
def stackOf (s : State) (k : Nat) : StackSt := mget (fun _ => {}) s.firnStacks k
def setStack (s : State) (k : Nat) (x : StackSt) : State := { s with firnStacks := mset (fun _ => {}) s.firnStacks k x }
def regionOf (s : State) (r : Nat) : RegionSt := mget (fun _ => {}) s.regions r
def setRegion (s : State) (r : Nat) (x : RegionSt) : State := { s with regions := mset (fun _ => {}) s.regions r x }
def clusterOf (s : State) (c : Nat) : ClusterSt := mget (fun _ => {}) s.clusters c
def setCluster (s : State) (c : Nat) (x : ClusterSt) : State := { s with clusters := mset (fun _ => {}) s.clusters c x }
def floeOf (s : State) (cl f : Nat) : FloeSt := mget (fun _ => {}) s.floes (32 * cl + f)
def setFloe (s : State) (cl f : Nat) (x : FloeSt) : State := { s with floes := mset (fun _ => {}) s.floes (32 * cl + f) x }
def railOf (s : State) (d : Nat) : RailSt := mget (fun _ => {}) s.rails d
def setRail (s : State) (d : Nat) (x : RailSt) : State := { s with rails := mset (fun _ => {}) s.rails d x }
def ccOf (s : State) (k : Nat) : CcSt := mget (fun _ => {}) s.ccs k
def setCc (s : State) (k : Nat) (x : CcSt) : State := { s with ccs := mset (fun _ => {}) s.ccs k x }
def portOf (s : State) (p : Nat) : PortSt := mget (fun _ => {}) s.ports p
def setPort (s : State) (p : Nat) (x : PortSt) : State := { s with ports := mset (fun _ => {}) s.ports p x }
def trkOf (s : State) (t : Nat) : TrkEnt := mget (fun _ => {}) s.tracker t
def setTrk (s : State) (t : Nat) (x : TrkEnt) : State := { s with tracker := mset (fun _ => {}) s.tracker t x }

/-- The cluster of a core and its local number (R6, Table 00-3). -/
def clusterOfCore (c : Nat) : Nat := c / 8
def dieOfCore (c : Nat) : Nat := c / 64
/-- Whether GRADE_MAP shows a cluster present (R4). -/
def clusterPresent (s : State) (cl : Nat) : Bool := decide (bits s.fuses.grade.toNat cl 1 = 1)
def corePresent (s : State) (c : Nat) : Bool := decide (c < 256) && clusterPresent s (c / 8)

/-- The package's ID (R435). -/
def ownPkg (s : State) : Nat := getF s rPKG_ID 0 16
/-- The time base in nanoseconds (R294). -/
def tbNow (s : State) : Nat := s.time.tb / 2 ^ 32 % 2 ^ 64

/-- Whether a region's clock runs: it is powered and its PLL has locked; the always-on region has no PLL (R283, R314). -/
def regionUp (s : State) (r : Nat) : Bool := r == 36 || ((regionOf s r).powered && getB s (rCLK_STAT r) 6)

/-- A free value: the next number the spec leaves open (entry 3). -/
def drawFree (s : State) : BitVec 64 × State := (Config.freeValue s.draws, { s with draws := s.draws + 1 })

-- crossings and the stream network (08, 13) ---------------------------------------------------------------

/-- CLK_REGION_STAT.N. -/
def regionN (s : State) (r : Nat) : Nat := getF s (rCLK_STAT r) 0 6
/-- CLK_XCTL.LEGACY of a cluster. -/
def legacyOf (s : State) (cl : Nat) : Bool := getB s (rCLK_XCTL cl) 0
/-- The wheel count of a die, and whether its wheel holds in the present NCLK cycle (R292). -/
def wheelOf (s : State) (d : Nat) : Nat := (regionOf s (32 + d)).wheel
def wheelHeld (s : State) (d : Nat) : Bool := match (regionOf s (32 + d)).hist with | a :: _ => a.held | [] => false

/-- The crossing queue toward the switch of a source on an outbound link of a cluster node: a core's stream port 0 to 7, or the stack interface 8 (R195, R287). -/
def outKey (cl l src : Nat) : Nat := 16 * (8 * cl + l) + src
def outOf (s : State) (k : Nat) : List NetItem := mget (fun _ => []) s.net.outq k
def setOut (s : State) (k : Nat) (q : List NetItem) : State := { s with net := { s.net with outq := mset (fun _ => []) s.net.outq k q } }
/-- The crossing queue of inbound link l of a cluster node, by 8 · cluster + l. -/
def inOf (s : State) (k : Nat) : List NetItem := mget (fun _ => []) s.net.inq k
def setIn (s : State) (k : Nat) (q : List NetItem) : State := { s with net := { s.net with inq := mset (fun _ => []) s.net.inq k q } }

/-- An item as it is written into a crossing queue: where the crossing is free its latency is 3 to 5 reader cycles, item by item (Table 13-2), a free value. -/
def netItem (s : State) (marks : Nat) (load : NetLoad) : NetItem × State :=
  let (v, s1) := drawFree s
  (⟨0, 3 + v.toNat % 3, marks, load⟩, s1)

/-- Room in a crossing queue of 8 entries (R287). -/
def outRoom (s : State) (cl l src : Nat) : Bool := decide ((outOf s (outKey cl l src)).length < 8)
/-- An item enters a crossing queue toward the switch. -/
def outPush (s : State) (cl l src marks : Nat) (load : NetLoad) : State :=
  let (i, s1) := netItem s marks load
  setOut s1 (outKey cl l src) (outOf s1 (outKey cl l src) ++ [i])

/-- A core's stream traffic leaves by the outbound link of its local number (entry 23). -/
def coreRoom (s : State) (c : Nat) : Bool := outRoom s (c / 8) (c % 8) (c % 8)
def coreOut (s : State) (c marks : Nat) (load : NetLoad) : State := outPush s (c / 8) (c % 8) (c % 8) marks load
/-- A stack interface's traffic to a core leaves by the link at which that core's requests arrive (entry 23). -/
def stackRoom (s : State) (k c : Nat) : Bool := outRoom s k (c % 8) 8
def stackOut (s : State) (k c marks : Nat) (load : NetLoad) : State := outPush s k (c % 8) 8 marks load

/-- Whether the head of a crossing queue between a cluster region and its service region may be popped (Table 13-2): in a legacy group 3 cycles of ACLK, of which a
reader's cycle is `aclks`; unequal N make the crossing free; else XLAT reader cycles. Before its alignment a crossing holds its items. -/
def crossReady (s : State) (cl aclks : Nat) (i : NetItem) : Bool :=
  let x := (regionOf s cl).xlat
  if legacyOf s cl then decide (x ≠ 0) && decide (3 ≤ aclks * i.age)
  else if regionN s cl ≠ regionN s (32 + cl / 8) then decide (i.lat ≤ i.age)
  else decide (x ≠ 0) && decide (x ≤ i.age)

/-- XLAT of the crossing between two neighbouring service regions; 0 while it is not aligned. The pair is known by the sum of its dies. -/
def edgeXlat (s : State) (d n : Nat) : Nat := mget (fun _ => 0) s.net.edgeX (d + n)
def setEdgeXlat (s : State) (d n x : Nat) : State := { s with net := { s.net with edgeX := mset (fun _ => 0) s.net.edgeX (d + n) x } }

/-- The items of a queue after one more reader cycle. -/
def ageItems (q : List NetItem) : List NetItem := q.map fun i => { i with age := min 8 (i.age + 1) }

/-- Everything under way in the stream network, with its marks. -/
def netLoads (s : State) : List (Nat × NetLoad) :=
  (s.net.outq ++ s.net.inq).flatMap (fun q => q.2.map fun i => (i.marks, i.load)) ++
    (s.net.flying ++ (s.net.turn ++ s.net.links ++ s.net.recv).flatMap Prod.snd).map fun p => (p.marks, p.load)

/-- Signals and messages of this package under way in the stream network. -/
def netSigs (s : State) : List Sig := (netLoads s).filterMap fun p => match p.2 with | .sig g => some g | _ => none
def netMsgs (s : State) : List Flight := (netLoads s).filterMap fun p => match p.2 with | .msg f => some f | _ => none
/-- Whether a firn access or a store write of a core is under way there. -/
def netHas (s : State) (c : Nat) : Bool := (netLoads s).any fun p => match p.2 with | .firnReq r | .firnData r _ _ => r.core == c | .store _ _ k _ _ => k == c | _ => false

/-- A keyed list of queues without the items that a reset or a loss takes. -/
def keepQueues {α : Type} (keep : α → Bool) (l : List (Nat × List α)) : List (Nat × List α) :=
  (l.map fun q => (q.1, q.2.filter keep)).filter fun q => !q.2.isEmpty
/-- The stream network without the loads that a reset or a loss takes. -/
def netKeep (s : State) (keep : NetLoad → Bool) : State :=
  let n := s.net
  { s with net := { n with
      outq := keepQueues (fun i => keep i.load) n.outq, inq := keepQueues (fun i => keep i.load) n.inq,
      flying := n.flying.filter fun p => keep p.load,
      turn := keepQueues (fun p => keep p.load) n.turn, links := keepQueues (fun p => keep p.load) n.links, recv := keepQueues (fun p => keep p.load) n.recv } }

/-- Whether a switch output of a die asserts turn hold as an injection point of a die sees it: 4 NCLK cycles after a change on its own die, 12 on another (R198). -/
def holdSeen (s : State) (key linkDie die : Nat) : Bool :=
  let delay := if linkDie = die then 4 else 12
  match (mget (fun _ => []) s.net.hold key).find? fun h => decide (h.1 + delay ≤ wheelOf s die) with
  | some h => h.2
  | none => false

-- ledgers (R419 to R424) ---------------------------------------------------------------------------------

def qCHCRED : Nat := 0
def qRING : Nat := 1
def qCTR : Nat := 2
def qLINKCRED : Nat := 3
def qDESC : Nat := 4
def qHMV : Nat := 5
def qMIRSEQ : Nat := 6
def qFIRNREQ : Nat := 7
def qFABTRK : Nat := 8

/-- Tokens held by the ledger's own counts: ISSUED − RETURNED − LOST (R420). -/
def ledHeld (s : State) (q : Nat) : Nat :=
  (getR64 s (ledgerBase q) + 2 ^ 65 - getR64 s (ledgerBase q + 8) - getR64 s (ledgerBase q + 16)) % 2 ^ 64

/-- n tokens of quantity q issued. -/
def ledIssue (s : State) (q n : Nat) : State := add64 s (ledgerBase q) n

/-- One token of quantity q returned; a return of a written-off token counts in STRAY only (R424). -/
def ledReturn1 (s : State) (q : Nat) : State :=
  if ledHeld s q = 0 then satF s (ledgerBase q + 28) 16 16 1 else add64 s (ledgerBase q + 8) 1

/-- n tokens returned. -/
def ledReturn (s : State) (q : Nat) : Nat → State
  | 0 => s
  | n + 1 => ledReturn (ledReturn1 s q) q n

/-- All held tokens of quantity q written off (R424). -/
def ledWriteOff (s : State) (q : Nat) : State := add64 s (ledgerBase q + 16) (ledHeld s q)

-- task slots and floes -----------------------------------------------------------------------------------

/-- TASK_STAT.STATE (Table 05-7): 0 EMPTY, 1 READY, 2 RUNNING, 3 BLOCKED, 4 HALTED, 5 FAULTED. -/
def slotState (s : State) (c t : Nat) : Nat := getF s (rTASK_STAT c t) 0 3
def setSlotState (s : State) (c t v : Nat) : State := setF s (rTASK_STAT c t) 0 3 v
/-- READY, RUNNING or BLOCKED. -/
def slotLive (s : State) (c t : Nat) : Bool := decide (1 ≤ slotState s c t) && decide (slotState s c t ≤ 3)
/-- The slot that runs on a core. -/
def runningSlot (s : State) (c : Nat) : Option Nat := (List.range 4).find? fun t => slotState s c t == 2

/-- Whether floe definition f of cluster cl is valid and names local core r with slot t (R189). -/
def floeNames (s : State) (cl f r t : Nat) : Bool :=
  getB s (rFLOE_DEF cl f) 16 && getB s (rFLOE_DEF cl f) r && decide (getF s (rFLOE_DEF cl f) 8 2 = t)

/-- The floe definition of a core's slot. -/
def floeFor (s : State) (c t : Nat) : Option Nat := (List.range 32).find? fun f => floeNames s (c / 8) f (c % 8) t

/-- The member cores of a floe and its slot index. -/
def floeCores (s : State) (cl f : Nat) : List Nat :=
  ((List.range 8).filter fun r => getB s (rFLOE_DEF cl f) r).map fun r => 8 * cl + r
def floeSlot (s : State) (cl f : Nat) : Nat := getF s (rFLOE_DEF cl f) 8 2
def floeMembers (s : State) (cl f : Nat) : List (Nat × Nat) := (floeCores s cl f).map fun c => (c, floeSlot s cl f)

/-- The other members of the floe of a slot. -/
def mates (s : State) (c t : Nat) : List Nat :=
  match floeFor s c t with
  | some f => (floeCores s (c / 8) f).filter (· ≠ c)
  | none => []

/-- Records staged in a die's trace writer (R440). -/
def traceOf (s : State) (d : Nat) : List (List (BitVec 64)) := mget (fun _ => []) s.trace d
def setTrace (s : State) (d : Nat) (r : List (List (BitVec 64))) : State := { s with trace := mset (fun _ => []) s.trace d r }

/-- Captures a trace record of a type (R439, Table 21-6) when the die's writer selects it and is not ended by a full buffer; a full staging buffer loses it. -/
def traceRec (s : State) (d typ core slot floe fcyc w2 w3 : Nat) : State :=
  if getB s (rTRC_CTL d) 0 && getB s (rTRC_CTL d) (7 + typ) && !(getB s (rTRC_CTL d) 1 && getB s (rTRC_STAT d + 4) 0) then
    if (traceOf s d).length < 256 then
      let w0 := typ + 2 ^ 8 * (core % 256) + 2 ^ 16 * slot + 2 ^ 18 * floe + 2 ^ 32 * (fcyc % 2 ^ 32)
      setTrace s d (traceOf s d ++ [[w0, tbNow s, w2, w3].map (BitVec.ofNat 64)])
    else satF s (rTRC_STAT d + 4) 16 16 1
  else s

/-- Whether the die's writer follows a floe of a cluster (R439). -/
def traceFloe (s : State) (cl f : Nat) : Bool := getF s (rTRC_CTL (cl / 8)) 16 3 == cl % 8 && getF s (rTRC_CTL (cl / 8)) 19 5 == f

/-- A record of a floe that the writer follows. -/
def traceOfFloe (s : State) (cl f typ w2 w3 : Nat) : State :=
  if traceFloe s cl f then
    traceRec s (cl / 8) typ ((floeCores s cl f).headD (8 * cl)) (floeSlot s cl f) f (getR64 s (rFLOE_CYC cl f)) w2 w3
  else s

/-- A stall that counts begins at a time base in nanoseconds, and lasts until the count advances again: waits of a RECV do not count when IDLE_OK = 1 (R207). -/
def stallSince (s : State) (cl f r : Nat) : State :=
  let x := floeOf s cl f
  if r = 0 ∨ (r = 14 ∧ getB s (rFLOE_DEF cl f) 17 = true) ∨ x.since.isSome then s else setFloe s cl f { x with since := some (tbNow s) }

/-- Sets the stall reason in force of a floe (Table 08-1, R206); a change is a trace record. -/
def setFloeReason (s : State) (cl f r : Nat) : State :=
  if getF s (rFLOE_STAT cl f) 0 4 = r then stallSince s cl f r
  else traceOfFloe (stallSince (setF s (rFLOE_STAT cl f) 0 4 r) cl f r) cl f 2 r 0

/-- Sets the stall reason in force of the floe of a slot. -/
def setReason (s : State) (c t r : Nat) : State :=
  match floeFor s c t with
  | some f => setFloeReason s (c / 8) f r
  | none => s

-- counters (09) ------------------------------------------------------------------------------------------

def ctrValue (s : State) (c n : Nat) : Nat := getF s (rCTR_VAL c n) 0 16
def ctrGen (s : State) (c n : Nat) : Nat := getF s (rCTR_VAL c n) 16 4

/-- The units of counter n that slot t holds in reservation. -/
def resvOf (s : State) (c n t : Nat) : Nat :=
  match (slotOf s c t).resv with
  | some (m, k) => if m = n then k else 0
  | none => 0

/-- Sum of the reservations on a counter (CTR_BASE.RSV, R217). -/
def ctrRsv (s : State) (c n : Nat) : Nat := resvOf s c n 0 + resvOf s c n 1 + resvOf s c n 2 + resvOf s c n 3

/-- The available count (R216). -/
def ctrAvail (s : State) (c n : Nat) : Nat := ctrValue s c n - ctrRsv s c n

/-- The members of the floe of a slot that are BLOCKED with it become READY (R138). -/
def readyMates (s : State) (c t : Nat) : State :=
  (mates s c t).foldl (fun s m => if slotState s m t = 3 ∧ (slotOf s m t).wait = none then setSlotState s m t 1 else s) s

/-- A BLOCKED slot whose WAITC the available count covers becomes READY with a reservation (R217). Where the slot stayed RUNNING, the BLOCKED slots of its
floe become READY (R138). -/
def grantSlot (s : State) (c n t : Nat) : State :=
  match (slotOf s c t).wait with
  | some (.ctr m k) =>
    if m = n ∧ slotState s c t = 3 ∧ k ≤ ctrAvail s c n then
      readyMates (modSlot (setSlotState s c t 1) c t fun x => { x with resv := some (n, k) }) c t
    else if m = n ∧ slotState s c t = 2 ∧ k ≤ ctrAvail s c n then readyMates s c t
    else s
  | _ => s

/-- Blocked slots are examined in ascending number (R217). -/
def grantAll (s : State) (c n : Nat) : State := grantSlot (grantSlot (grantSlot (grantSlot s c n 0) c n 1) c n 2) c n 3

/-- A reservation ends without completing its wait, and its units become available (R218). -/
def dropResv (s : State) (c t : Nat) : State :=
  match (slotOf s c t).resv with
  | some (n, _) => grantAll (modSlot s c t fun x => { x with resv := none }) c n
  | none => s

-- messages: rings and replies (09) -------------------------------------------------------------------------

def ringOf (s : State) (c e : Nat) : List RingMsg := mget (fun _ => []) (coreOf s c).rings e
def setRing (s : State) (c e : Nat) (r : List RingMsg) : State :=
  modCore s c fun k => { k with rings := mset (fun _ => []) k.rings e r }
def ichState (s : State) (c e : Nat) : Nat := getF s (rICH_STAT c e) 0 2
def ichRsv (s : State) (c e : Nat) : Nat := getF s (rICH_STAT c e) 8 6

/-- The header of a message (Table 09-3). -/
def msgHeader (handler len : Nat) (req rres flushed noreply : Bool) (core och pkg drank rply : Nat) : BitVec 64 :=
  BitVec.ofNat 64 (handler % 64 + 2 ^ 6 * (len % 8) + (if req then 2 ^ 9 else 0) + (if rres then 2 ^ 10 else 0) +
    (if flushed then 2 ^ 11 else 0) + (if noreply then 2 ^ 12 else 0) + 2 ^ 16 * (core % 256) + 2 ^ 24 * (och % 64) +
    2 ^ 32 * (pkg % 65536) + 2 ^ 48 * (drank % 4096) + 2 ^ 60 * (rply % 16))

def hdrHandler (h : BitVec 64) : Nat := bits h.toNat 0 6
def hdrLen (h : BitVec 64) : Nat := bits h.toNat 6 3
def hdrReq (h : BitVec 64) : Bool := decide (bits h.toNat 9 1 = 1)
def hdrRres (h : BitVec 64) : Bool := decide (bits h.toNat 10 1 = 1)
def hdrCore (h : BitVec 64) : Nat := bits h.toNat 16 8
def hdrOch (h : BitVec 64) : Nat := bits h.toNat 24 6
def hdrPkg (h : BitVec 64) : Nat := bits h.toNat 32 16
def hdrDrank (h : BitVec 64) : Nat := bits h.toNat 48 12
def hdrRply (h : BitVec 64) : Nat := bits h.toNat 60 4

/-- A message with no payload. -/
def emptyMsg (h : BitVec 64) : List (BitVec 64) := h :: List.replicate 7 0

-- fabric packets (15): the tracker, routing and the transmit queue -------------------------------------------

/-- The coordinates of a package (R340). -/
def torusN (s : State) (dim : Nat) : Nat := getF s rFAB_ROUTE (8 * dim) 8 + 1
def coord (s : State) (pkg dim : Nat) : Nat :=
  if dim = 0 then pkg % torusN s 0
  else if dim = 1 then pkg / torusN s 0 % torusN s 1
  else pkg / (torusN s 0 * torusN s 1)
/-- The package at a coordinate of a dimension, with the other coordinates of `pkg` held. -/
def withCoord (s : State) (pkg dim x : Nat) : Nat :=
  if dim = 0 then pkg - coord s pkg 0 + x
  else if dim = 1 then pkg - coord s pkg 1 * torusN s 0 + x * torusN s 0
  else pkg - coord s pkg 2 * (torusN s 0 * torusN s 1) + x * (torusN s 0 * torusN s 1)

/-- Extents beyond 65,536 packages or an ID outside them (R340). -/
def fabBadCfg (s : State) : Bool :=
  decide (65536 < torusN s 0 * torusN s 1 * torusN s 2) || decide (torusN s 0 * torusN s 1 * torusN s 2 ≤ ownPkg s)

/-- A valid FAB_AVOID entry names the package (R342). -/
def avoided (s : State) (pkg : Nat) : Bool :=
  (List.range 16).any fun i => getB s (rFAB_AVOID i) 16 && decide (getF s (rFAB_AVOID i) 0 16 = pkg)

/-- Ports of direction k (0 +X, 1 −X, ... 5 −Z) that are UP or UP_HALF. -/
def dirPorts (s : State) (k : Nat) : List Nat :=
  (List.range 16).filter fun p => getB s (rFAB_DIR k) p && (decide (getF s (rFAB_STAT p) 0 3 = 2) || decide (getF s (rFAB_STAT p) 0 3 = 3))

/-- The packages that the path in one direction passes before the target coordinate (R342). -/
def ringPath (s : State) (pkg dim target : Nat) (plus : Bool) : Nat → List Nat
  | 0 => []
  | k + 1 =>
    let n := torusN s dim
    let x := if plus then (coord s pkg dim + 1) % n else (coord s pkg dim + n - 1) % n
    if x = target then [withCoord s pkg dim x] else withCoord s pkg dim x :: ringPath s (withCoord s pkg dim x) dim target plus k

/-- A direction is blocked: no port of its mask is up, or its path passes an avoided package that is not the destination. -/
def dirBlocked (s : State) (pkg dst dim : Nat) (plus : Bool) : Bool :=
  (dirPorts s (2 * dim + (if plus then 0 else 1))).isEmpty ||
    (ringPath s pkg dim (coord s dst dim) plus 256).any fun q => avoided s q && decide (q ≠ dst)

/-- The dimension a packet travels in at `pkg`: the first whose coordinates differ (R341). -/
def nextDim (s : State) (pkg dst : Nat) : Option Nat := (List.range 3).find? fun d => coord s pkg d != coord s dst d

/-- The direction chosen at the ring entry: the shorter way, + on a tie, reversed when blocked; none when both are (R341, R342). -/
def chooseDir (s : State) (pkg dst dim : Nat) : Option Bool :=
  let n := torusN s dim
  let up := (coord s dst dim + n - coord s pkg dim) % n
  let plus := decide (up ≤ n - up)
  if !dirBlocked s pkg dst dim plus then some plus
  else if !dirBlocked s pkg dst dim (!plus) then some (!plus)
  else none

/-- The outcome of routing a packet one hop: its port and the class of the link, or a status of Table 15-3 with the port that a dropped packet counts at. -/
inductive Hop where
  | port (p cls : Nat)
  | status (st p : Nat)
  deriving DecidableEq, Repr

/-- The port of a direction (R341), with the states of R327 and R342. -/
def dirPort (s : State) (dst k cls : Nat) : Hop :=
  let ps := dirPorts s k
  match ps[dst % (max 1 ps.length)]? with
  | none => .status 6 (((List.range 16).find? fun p => getB s (rFAB_DIR k) p).getD 0)
  | some p => if getB s (rFAB_STAT p) 3 then .status 5 p else .port p cls

/-- The class on the next link (R331): 1 on the ring's wrap link, the class it came with in the dimension it travels in, 0 where it enters a ring. -/
def hopClass (s : State) (via : Option (Nat × Bool)) (cls d : Nat) (plus : Bool) : Nat :=
  let x := coord s (ownPkg s) d
  if (if plus then x + 1 = torusN s d else x = 0) then 1
  else match via with | some (vd, _) => if vd = d then cls else 0 | none => 0

/-- Routing at this package. `via` is the direction a transit packet already travels in and `cls` its class, none where it enters (R341 to R343). -/
def route (s : State) (dst : Nat) (via : Option (Nat × Bool)) (cls : Nat) : Hop :=
  if fabBadCfg s then .status 4 0
  else match nextDim s (ownPkg s) dst with
    | none => .status 4 0
    | some d =>
      match (match via with | some (vd, plus) => if vd = d then some plus else chooseDir s (ownPkg s) dst d
                            | none => chooseDir s (ownPkg s) dst d) with
      | none => .status 4 (((List.range 16).find? fun p => getB s (rFAB_DIR (2 * d)) p).getD 0)
      | some plus => dirPort s dst (2 * d + (if plus then 0 else 1)) (hopClass s via cls d plus)

/-- A header with every field 0 but these. -/
def mkHdr (typ dst src tag tgen addr len : Nat) : PktHdr :=
  ⟨typ, 0, dst, src, tag, tgen, addr, len, 0, 0, 0, 0, false, 0, 0⟩

/-- The flits of a packet (R334): 208 payload bytes in the first, 240 in each later one. A DELTA carries its byte mask too (entry 22). -/
def flitsOf (k : Packet) : Nat :=
  let n := k.payload.length + ceilDiv k.mask.length 8
  if n ≤ 208 then 1 else 1 + ceilDiv (n - 208) 240

/-- The virtual lane of a packet (R329, Table 15-4). -/
def vlOf (k : Packet) : Nat :=
  match k.hdr.typ with
  | 1 | 2 => 0
  | 6 => if bits (((k.payload.getD 1 0).toNat)) 1 1 = 1 then 0 else 1
  | 8 | 9 | 10 | 11 => 2
  | 12 | 13 | 14 => 3
  | _ => 1

/-- Flits of receive buffer per class (R330). -/
def vlAllot (vl : Nat) : Nat := if vl < 2 then 64 else if vl = 2 then 16 else 32

/-- Credits in use of a VL and class (key 2 · VL + class). -/
def portUsed (x : PortSt) (k : Nat) : Nat := mget (fun _ => 0) x.used k
/-- The packets that wait to be sent on a VL and class. -/
def txOf (x : PortSt) (k : Nat) : List TxPkt := mget (fun _ => []) x.txq k
/-- FAB_PORT_STAT.STATE. -/
def portState (s : State) (p : Nat) : Nat := getF s (rFAB_STAT p) 0 3
def portUp (s : State) (p : Nat) : Bool := portState s p == 2 || portState s p == 3

/-- The credits that a link header returns, at most 15 of each VL and class (Table 15-1), and those left. -/
def retCredits (x : PortSt) : List Nat := (List.range 8).map fun i => min 15 (mget (fun _ => 0) x.ret i)
def retLeft (x : PortSt) : List (Nat × Nat) :=
  (List.range 8).foldl (fun r i => let n := mget (fun _ => 0) x.ret i; mset (fun _ => 0) r i (n - min 15 n)) x.ret

/-- A flit leaves a port (R328): as its 256 bytes, or in Ethernet framing as a frame of one flit (R344; entry 109). -/
def emitFlit (s : State) (p : Nat) (f : FlitRec) : State :=
  let x := portOf s p
  let mac := getR64 s (rFAB_MAC p)
  let tag := if bits mac 63 1 = 1 then some (bits mac 48 12 + 2 ^ 13 * bits mac 60 3) else none
  let bs := if x.eth then frameBytes (bits mac 0 48) (Config.ownMac p).toNat tag (getF s rFAB_ETH 0 16) [flitBytes f] else flitBytes f
  setPort s p { x with out := x.out ++ [bs] }

/-- The link header of a port's next flit. -/
def nextFlit (x : PortSt) : FlitRec :=
  { seq := x.nextSeq, vl := 0, cls := 0, sop := false, eop := false, idle := false, ackSeq := (x.rxSeq + 4095) % 4096, nak := x.nakDue, credits := retCredits x, content := [] }

/-- A numbered flit leaves (R332): it stays in the replay buffer until it is acknowledged. What a replay repeats is no NAK. -/
def sendNumbered (s : State) (p : Nat) (f : FlitRec) : State :=
  let x := portOf s p
  let x1 := { x with nextSeq := (x.nextSeq + 1) % 4096, replay := x.replay ++ [{ f with nak := false }], ret := retLeft x, ackDue := false, nakDue := false,
                     since := if x.replay.isEmpty then tbNow s else x.since }
  emitFlit (setPort s p x1) p f

/-- The VL and class whose next flit a port sends: the lowest that has one and holds a credit, while the replay buffer has room (R329, R330, R332). -/
def drainKey (s : State) (p : Nat) : Option Nat :=
  let x := portOf s p
  if portUp s p && decide (x.replay.length < 1024) then
    (List.range 8).find? fun k => !(txOf x k).isEmpty && decide (portUsed x k < vlAllot (k / 2))
  else none

/-- The time stamps that a time message takes as it leaves (R296, R346): t1 of a request, t3 of an answer. -/
def stampTime (s : State) (typ : Nat) (c : List Byte) : List Byte :=
  let t := byteRun 8 (tbNow s)
  if typ = 9 then c.take 32 ++ t ++ c.drop 40 else if typ = 10 then c.take 48 ++ t ++ c.drop 56 else c

/-- The next flit of a VL and class leaves. -/
def drainOne (s : State) (p k : Nat) : State :=
  let x := portOf s p
  match txOf x k with
  | [] => s
  | t :: q =>
    let f := { nextFlit x with vl := k / 2, cls := k % 2, sop := !t.begun, eop := t.rest.length ≤ 1, content := stampTime s t.pkt.hdr.typ (t.rest.headD []) }
    let left := if t.rest.length ≤ 1 then q else { t with rest := t.rest.tail, begun := true } :: q
    let s1 := setPort s p { x with txq := mset (fun _ => []) x.txq k left, used := mset (fun _ => 0) x.used k (portUsed x k + 1) }
    let s2 := if t.pkt.hdr.typ = 9 then { s1 with time := { s1.time with t1 := some (tbNow s, x.nextSeq), t1Late := false } } else s1
    ledIssue (sendNumbered s2 p f) qLINKCRED 1

def portDrain (s : State) (p : Nat) : Nat → State
  | 0 => s
  | n + 1 => match drainKey s p with | none => s | some k => portDrain (drainOne s p k) p n

/-- An IDLE flit carries an acknowledgement, a NAK or credits that no other flit does. One that returns credits is numbered, so that they come back exactly once (DESIGN
CHOICE, entry 108). -/
def portIdle (s : State) (p : Nat) : State :=
  let x := portOf s p
  let f := { nextFlit x with idle := true }
  if portUp s p = false then s
  else if (x.ret.any fun r => decide (0 < r.2)) ∧ x.replay.length < 1024 then sendNumbered s p f
  else if x.ackDue ∨ x.nakDue then emitFlit (setPort s p { x with ackDue := false, nakDue := false }) p { f with credits := List.replicate 8 0 }
  else s

/-- Flits that wait to be sent on a port. -/
def txFlits (x : PortSt) : Nat := x.txq.foldl (fun a q => q.2.foldl (fun a t => a + t.rest.length) a) 0
/-- What can leave a port leaves. -/
def portFlush (s : State) (p : Nat) : State := portIdle (portDrain s p (txFlits (portOf s p))) p

/-- A packet joins a port's transmit queue of its VL and class, and what can leave leaves. -/
def txPush (s : State) (p cls : Nat) (k : Packet) : State :=
  let x := portOf s p
  let key := 2 * vlOf k + cls
  portFlush (setPort s p { x with txq := mset (fun _ => []) x.txq key (txOf x key ++ [{ pkt := k, rest := pktFlits k }]) }) p

/-- The lowest free tracker entry (R336). -/
def trkFree (s : State) : Nat := ((List.range (s.tracker.length + 1)).find? fun t => (trkOf s t).busy.isNone).getD s.tracker.length

/-- Entries in use (FAB_TRK.INUSE). -/
def trkInUse (s : State) : Nat := (s.tracker.filter fun e => e.2.busy.isSome).length

/-- Room in the tracker. -/
def trkRoom (s : State) : Bool := decide (trkInUse s < 65536)

/-- An entry is taken for `who` (R336). -/
def trkTake (s : State) (who : TrkWho) (port : Nat) : Nat × State :=
  let t := trkFree s
  let e := trkOf s t
  (t, ledIssue (setTrk s t { e with busy := some (who, port, tbNow s) }) qFABTRK 1)

/-- An entry completes: it is free and its generation advances (R336). -/
def trkDone (s : State) (t : Nat) : State :=
  ledReturn1 (setTrk s t { gen := ((trkOf s t).gen + 1) % 16, busy := none }) qFABTRK

/-- The core that sends a tracked request, if one does. -/
def whoCore : TrkWho → Option Nat
  | .descRead c _ _ _ | .descWrite c _ _ _ _ | .message c _ _ _ _ | .reply c => some c
  | .ccWrite _ | .ccRead _ _ | .ccSignal _ => none

/-- A packet starts toward its first-hop port: by its core's stream port and the route of R196, or from the service complex to the port itself (entry 113). -/
def sendOut (s : State) (src : Option Nat) (p cls : Nat) (k : Packet) : State :=
  match src with
  | some c => coreOut s c 0 (.toFab p cls k)
  | none => txPush s p cls k

/-- A request to another package: a tracker entry, then the first hop. The second component is the status of an error at the source. -/
def fabRequest (s : State) (who : TrkWho) (k : Packet) : State × Option Nat :=
  let st : Hop := if avoided s k.hdr.dstPkg then .status 4 0 else route s k.hdr.dstPkg none 0
  match st with
  | .port p cls =>
    let (t, s1) := trkTake s who p
    (sendOut s1 (whoCore who) p cls { k with hdr := { k.hdr with tag := t, tgen := (trkOf s t).gen } }, none)
  | .status e _ =>
    let s1 := if fabBadCfg s then setF s rFAB_ROUTE 24 1 1 else s
    (s1, some e)

/-- Whether a core's request to another package finds a tracker entry and room on its way (R289, R336). -/
def fabRoom (s : State) (c : Nat) : Bool := trkRoom s && coreRoom s c

/-- The payload bytes of a message's eight words. -/
def wordBytes (ws : List (BitVec 64)) : List Byte := ws.flatMap fun w => leBytes 8 w.toNat

/-- A MSG packet (Table 15-2). The destination core and end travel in SCORE and ADDR (DESIGN CHOICE: Table 15-2 names no place for them). -/
def msgPacket (s : State) (dst core ich : Nat) (ws : List (BitVec 64)) : Packet :=
  ⟨{ mkHdr 6 dst (ownPkg s) 0 0 ich 64 with score := core }, wordBytes ws, []⟩

/-- Whether a message of core `src` to a core of a package finds room on its way: within the cluster it needs none. -/
def msgRoom (s : State) (src pkg core : Nat) : Bool :=
  if pkg = ownPkg s then decide (core / 8 = src / 8) || coreRoom s src else fabRoom s src

/-- A message leaves core `src`: by the cluster switch, by the stream network, or over the fabric. `slot` sent it. -/
def sendMessage (s : State) (src pkg core ich slot : Nat) (who : TrkWho) (ws : List (BitVec 64)) : State × Option Nat :=
  if pkg = ownPkg s then
    let f : Flight := ⟨core, ich, pkg, ws, slot, none, s.sendNo⟩
    let s1 := { s with sendNo := s.sendNo + 1 }
    (if core / 8 = src / 8 then { s1 with flights := s1.flights ++ [f] } else coreOut s1 src 0 (.msg f), none)
  else fabRequest s who (msgPacket s pkg core ich ws)

/-- A reply that a core sends of itself leaves as soon as its way has room. -/
def oweReply (s : State) (c pkg core ich : Nat) (ws : List (BitVec 64)) : State := modCore s c fun k => { k with owed := k.owed ++ [(pkg, core, ich, ws)] }

/-- A null reply to the reference held at an end (R230): it leaves, the reference is cleared, and NOREPLY counts it. -/
def nullReply (s : State) (c e : Nat) (count : Bool) : State :=
  let r := getR64 s (rICH_REPLY c e)
  if bits r 0 1 = 0 then s
  else
    let h := msgHeader 63 0 false false false true c 0 (ownPkg s) 0 (bits r 4 4)
    let s1 := setR64 s (rICH_REPLY c e) 0
    let s2 := oweReply s1 c (bits r 16 16) (bits r 8 8) (bits r 4 4) (emptyMsg h)
    if count then satF s2 (rICH_CNT2 c e) 16 16 1 else s2

/-- Null replies of the ends that a slot owns, when the slot ends without replying (R230). -/
def nullRepliesOf (s : State) (c t : Nat) : State :=
  (List.range 16).foldl (fun s e => if getF s (rICH_CFG c e) 13 2 = t then nullReply s c e true else s) s

/-- Whether a message of an end is reserved for no slot (R232). -/
def msgFree (s : State) (c e : Nat) : Bool := (ringOf s c e).any fun m => m.resv.isNone

/-- The oldest free message of a ring is reserved for a slot. -/
def markMsg (t : Nat) : List RingMsg → List RingMsg
  | [] => []
  | m :: r => if m.resv.isNone then { m with resv := some t } :: r else m :: markMsg t r

/-- An arriving message is reserved for the lowest-numbered slot BLOCKED on the end, which becomes READY (R232). -/
def grantMsg (s : State) (c e : Nat) : State :=
  (List.range 4).foldl (fun s t =>
    let x := slotOf s c t
    if x.wait = some (.ich e) ∧ slotState s c t = 3 ∧ x.mres = none ∧ msgFree s c e = true then
      readyMates (modSlot (setSlotState (setRing s c e (markMsg t (ringOf s c e))) c t 1) c t fun y => { y with mres := some e }) c t
    else if x.wait = some (.ich e) ∧ slotState s c t = 2 ∧ msgFree s c e = true then readyMates s c t
    else s) s

/-- The messages of a ring that are reserved for a slot become free. -/
def unmarkMsg (t : Nat) (r : List RingMsg) : List RingMsg := r.map fun m => if m.resv = some t then { m with resv := none } else m

/-- A reservation of a message ends unused: the message is free for the next slot. -/
def dropMres (s : State) (c t : Nat) : State :=
  match (slotOf s c t).mres with
  | some e =>
    let s1 := modSlot (setRing s c e (unmarkMsg t (ringOf s c e))) c t fun x => { x with mres := none }
    if ichState s c e = 0 then grantMsg s1 c e else s1
  | none => s

/-- What leaving a slot entails for the two kinds of reservation (R218, R232). -/
def dropAllResv (s : State) (c t : Nat) : State := dropMres (dropResv s c t) c t

-- faults, the moraine and containment ------------------------------------------------------------------------

/-- A slot enters FAULTED from READY, RUNNING or BLOCKED (R140); in other states nothing of the slot changes. Its reservation ends (R218) and
the references of its ends are answered (R230). -/
def faultSlot (s : State) (c t : Nat) : State :=
  if slotLive s c t then
    let s1 := setSlotState s c t 5
    let s2 := modSlot s1 c t fun x => { x with unrel := true, wait := none }
    nullRepliesOf (dropAllResv s2 c t) c t
  else s

/-- A floe stops as a unit (R193, R412): every member slot enters FAULTED. -/
def stopFloe (s : State) (cl f : Nat) : State :=
  (floeMembers s cl f).foldl (fun s m => faultSlot s m.1 m.2) (setFloe (setFloeReason s cl f 0) cl f {})

/-- The floe of a slot stops if the slot is live (R140). -/
def stopFloeOf (s : State) (c t : Nat) : State :=
  if slotLive s c t then
    match floeFor s c t with
    | some f => stopFloe s (c / 8) f
    | none => faultSlot s c t
  else s

/-- Every floe that has a slot on a core stops (Table 19-1, tier 3), whatever that slot's state, and every live slot of the core enters FAULTED. -/
def stopCore (s : State) (c : Nat) : State :=
  (List.range 4).foldl (fun s t => faultSlot s c t) ((List.range 32).foldl (fun s f =>
    if getB s (rFLOE_DEF (c / 8) f) 16 && getB s (rFLOE_DEF (c / 8) f) (c % 8) then stopFloe s (c / 8) f else s) s)
/-- Every floe of a cluster stops (tier 4). -/
def stopCluster (s : State) (cl : Nat) : State := (List.range 8).foldl (fun s r => stopCore s (8 * cl + r)) s

/-- A transfer that ends without completing: the DESC token is returned (R419), and no signal is sent. -/
def stopDesc (s : State) (c d : Nat) : State :=
  let x := descOf s c d
  match x.active with
  | some a =>
    let s1 := setDesc s c d { x with active := none, shadow := none, stopped := some a.slot }
    ledReturn s1 qDESC (if x.shadow.isSome then 2 else 1)
  | none => s

/-- A descriptor of a halted die (R250, R416): its transfer asks for nothing more, and stops once the requests it has issued complete. -/
def haltDesc (s : State) (c d : Nat) : State :=
  match (descOf s c d).active with
  | none => s
  | some a =>
    let p := match a.stopAt with | some q => min q a.issued | none => a.issued
    if p ≤ a.sent then stopDesc s c d else setDesc s c d { descOf s c d with active := some { a with stopAt := some p } }

/-- The die halts (R416): its floes stop, its descriptors stop, HALTED is set. -/
def haltDie (s : State) (d : Nat) : State :=
  let s1 := (List.range 8).foldl (fun s k => stopCluster s (8 * d + k)) s
  let s2 := (List.range 64).foldl (fun s c => (List.range 64).foldl (fun s n => haltDesc s (64 * d + c) n) s) s1
  setF s2 (rMLOG_STAT d) 7 1 1

/-- One event: class, severity, home tier, detecting unit, owner slot, and the record's words (Tables 19-2, 19-4). -/
structure Ev where
  cls    : Nat
  sev    : Nat
  home   : Nat
  ukind  : Nat
  uindex : Nat
  owner  : Option (Nat × Nat) := none
  addr   : Nat := 0
  pkg    : Nat := 0
  detail : Nat := 0
  aux    : Nat := 0
  tb     : Option Nat := none
  deriving DecidableEq, Repr

/-- The tier an event acts at, and whether it escalates (R414). -/
def evTier (s : State) (d : Nat) (e : Ev) : Nat × Bool :=
  let w := (getR s (rMLOG_FIRST d)).toNat
  let sev := bits w 1 2
  let handling := decide (bits w 0 1 = 1) && decide (getF s (rMLOG_SEV_CTL d) 0 2 ≤ sev)
  if handling && decide (sev < e.sev) && decide (e.home ≠ 0) && !(decide (e.home = 1) && e.owner.isNone) then
    (min 5 (e.home + 1), true)
  else (e.home, false)

/-- Fills MLOG_FIRST (R410, Table 19-4). -/
def fillFirst (s : State) (d tier : Nat) (e : Ev) : State :=
  let base := rMLOG_FIRST d
  let fl : Option (Nat × Nat × Nat) := if e.ukind = 0 then
      match e.owner with
      | some (c, t) => (floeFor s c t).map fun f => (c, t, f)
      | none => none
    else none
  let w0 := 1 + 2 * e.sev + 8 * tier + 256 * e.cls + 65536 * e.ukind + 2 ^ 32 * e.uindex +
    (match fl with | some (_, t, f) => 2 ^ 48 * t + 2 ^ 50 * f + 2 ^ 55 | none => 0)
  let fcyc := match fl with | some (c, _, f) => getR64 s (rFLOE_CYC (c / 8) f) | none => 0
  let s1 := setR64 s base w0
  let s2 := setR64 s1 (base + 8) (e.tb.getD (tbNow s))
  let s3 := setR64 s2 (base + 16) fcyc
  let s4 := setR64 s3 (base + 24) (e.addr % 2 ^ 48 + 2 ^ 48 * e.pkg)
  setR64 (setR64 s4 (base + 32) e.detail) (base + 40) e.aux

/-- ALERT_N (R418): low while any die's SEVSEEN has a bit at or above ALERT_MIN, or any die is halted. -/
def alertDue (s : State) : Bool :=
  (List.range 4).any fun d =>
    getB s (rMLOG_STAT d) 7 ||
      (List.range 4).any fun k => getB s (rMLOG_STAT d) k && decide (getF s (rMLOG_SEV_CTL d) 6 2 ≤ k)

def setAlert (s : State) : State := { s with pins := { s.pins with alertN := !alertDue s } }

/-- The MSI-X table entry of a vector. -/
def vecOf (s : State) (v : Nat) : VecEnt := mget (fun _ => {}) s.host.vectors v

/-- Whether a vector's message can leave: its entry is not masked, the link is up, and Bus Master Enable is set (R359, R364). -/
def vecGoes (s : State) (v : Nat) : Bool := s.host.linkUp && s.host.bme && !(vecOf s v).mask

/-- An MSI-X message of a vector: sent, or pending (R359, R377). -/
def msix (s : State) (v : Nat) : State :=
  if vecGoes s v then { s with host := { s.host with out := s.host.out ++ [.msix v (vecOf s v).addr (vecOf s v).data] } }
  else { s with host := { s.host with pend := setBits s.host.pend v 1 1 } }

/-- Sets a bit of HOST_IRQ_STAT; a rising bit with its enable set sends its vector (R377). -/
def hostIrq (s : State) (b : Nat) : State :=
  let was := bits (getR64 s rHOST_IRQ_STAT) b 1
  let s1 := setR64 s rHOST_IRQ_STAT (setBits (getR64 s rHOST_IRQ_STAT) b 1 1)
  if was = 0 ∧ bits (getR64 s rHOST_IRQ_EN) b 1 = 1 then msix s1 b else s1

/-- The log's part of an event (R409, R410), with the tier applied. -/
def logEvent (s : State) (d tier : Nat) (e : Ev) : State :=
  let word := rMLOG_STICKY d + 8 * (e.cls / 64)
  let s1 := setR64 s word (setBits (getR64 s word) (e.cls % 64) 1 1)
  let off := rMLOG_COUNT d + 4 * (e.cls / 2)
  let lo := 16 * (e.cls % 2)
  let s2 := if getF s1 off lo 16 = 0xFFFF then setF s1 (rMLOG_STAT d) 4 1 1 else setF s1 off lo 16 (getF s1 off lo 16 + 1)
  let s3 := setF s2 (rMLOG_STAT d) e.sev 1 1
  if getB s3 (rMLOG_FIRST d) 0 then s3 else fillFirst s3 d tier e

/-- The reports of an event (R418). -/
def reportEvent (s : State) (d : Nat) (e : Ev) : State :=
  let s1 := if getF s (rMLOG_SEV_CTL d) 2 2 ≤ e.sev then hostIrq s (2 + d) else s
  let s2 := if getF s1 (rMLOG_SEV_CTL d) 4 2 ≤ e.sev then
      (List.range 4).foldl (fun s k => setF s (rCC_IRQ_STAT (4 * d + k)) 0 1 1) s1
    else s1
  setAlert s2

/-- The containment of a tier (Table 19-1). -/
def contain (s : State) (d tier : Nat) (e : Ev) : State :=
  if tier = 5 then setAlert (haltDie s d)
  else match e.owner with
    | none => s
    | some (c, t) =>
      -- R140: a fault that finds its slot EMPTY, HALTED or FAULTED stops no floe
      if slotLive s c t = false then s
      else if tier = 2 then stopFloeOf s c t
      else if tier = 3 then stopCore s c
      else if tier = 4 then stopCluster s (c / 8)
      else s

/-- Raises one event in the moraine of a die: logged (R409), contained (R412, R414), reported (R418). -/
def raiseEv (s : State) (d : Nat) (e : Ev) : State :=
  let (tier, esc) := evTier s d e
  let s1 := logEvent s d tier e
  let s2 := if esc then satF (setF s1 (rMLOG_STAT d) 6 1 1) (rMLOG_STAT d) 16 16 1 else s1
  reportEvent (contain (traceRec s2 d 3 0 0 0 0 (e.cls + 256 * e.sev) 0) d tier e) d e

/-- Which of two events of one cycle fills the record first (R410). -/
def evBefore (a b : Ev) : Bool :=
  decide (b.sev < a.sev) || (decide (a.sev = b.sev) &&
    (decide (a.cls < b.cls) || (decide (a.cls = b.cls) &&
      (decide (a.ukind < b.ukind) || (decide (a.ukind = b.ukind) && decide (a.uindex ≤ b.uindex))))))

/-- Puts an event in the order of R410. -/
def evInsert (e : Ev) : List Ev → List Ev
  | [] => [e]
  | x :: xs => if evBefore e x then e :: x :: xs else x :: evInsert e xs

/-- Raises the events of one cycle in a die, in the order of R410. -/
def raiseAll (s : State) (d : Nat) (es : List Ev) : State := (es.foldl (fun l e => evInsert e l) []).foldl (fun s e => raiseEv s d e) s

/-- An event of a core whose owner is a slot of that core. -/
def raiseCore (s : State) (c t cls sev home addr detail aux : Nat) : State :=
  raiseEv s (c / 64) { cls := cls, sev := sev, home := home, ukind := 0, uindex := c, owner := some (c, t), addr := addr,
                       pkg := 0, detail := detail, aux := aux }

/-- Class codes of Table 19-2. -/
def cFIRN_CE : Nat := 0x01
def cFIRN_UE : Nat := 0x02
def cSRAM_PARITY : Nat := 0x03
def cABFT : Nat := 0x10
def cCOLLISION : Nat := 0x11
def cSP_BOUNDS : Nat := 0x12
def cRANK : Nat := 0x13
def cOVERFLOW : Nat := 0x14
def cUNDERFLOW : Nat := 0x15
def cRESIDUE : Nat := 0x16
def cCLOSED : Nat := 0x17
def cSTALE : Nat := 0x18
def cABSENT : Nat := 0x19
def cREARM : Nat := 0x1A
def cILLEGAL : Nat := 0x1B
def cTIMEOUT : Nat := 0x1C
def cMARGIN : Nat := 0x20
def cREFLOSS : Nat := 0x21
def cBROWNOUT : Nat := 0x22
def cTHERMAL : Nat := 0x23
def cTRIP : Nat := 0x24
def cRETRY : Nat := 0x30
def cLINKDOWN : Nat := 0x31
def cMIRLAG : Nat := 0x32
def cAUTH : Nat := 0x40
def cIMAGE : Nat := 0x41

/-- ILLEGAL_INSTR of a word (R157): the core's record when it is free, then the event. `idx` is 8,192 and the word 0 for REASON 7. -/
def illegal (s : State) (c t reason idx : Nat) (w : Nat) : State :=
  let s1 := if getB s (rILL_FAULT_INFO c) 0 then s
    else setR (setR64 s (rILL_FAULT_WORD c) w) (rILL_FAULT_INFO c)
      (BitVec.ofNat 32 (1 + 2 * t + 8 * idx + 2 ^ 17 * reason))
  raiseCore s1 c t cILLEGAL 2 2 0 (reason % 16 + 16 * idx) w

/-- SP_BOUNDS of a task's access (R124): the core's record when it is free, then the event. `addr` is the lowest byte address outside the
window as a 32-bit two's complement value. -/
def spBounds (s : State) (c t source : Nat) (wr : Bool) (addr : Int) : State :=
  let a := unsigned 32 addr
  let s1 := if getB s (rSP_FAULT_INFO c) 0 then s
    else setR (setR s (rSP_FAULT_ADDR c) (BitVec.ofNat 32 a)) (rSP_FAULT_INFO c)
      (BitVec.ofNat 32 (1 + 2 * t + 8 * source + (if wr then 64 else 0)))
  raiseCore s1 c t cSP_BOUNDS 2 2 a (source + (if wr then 8 else 0)) 0

/-- Whether a core's SRAM word has a parity error: array 0 accumulator, 1 instruction store, 2 queue SRAM (the head message of an end),
3 vector registers, 4 scale or monitor slots (Table 19-2). -/
def parBad (s : State) (c arr i : Nat) : Bool := mget (fun _ => false) (coreOf s c).parErr (2 ^ 20 * arr + i)
/-- Writing an SRAM word makes its parity good. -/
def parClear (s : State) (c arr i : Nat) : State :=
  if parBad s c arr i then modCore s c fun k => { k with parErr := mset (fun _ => false) k.parErr (2 ^ 20 * arr + i) false } else s

/-- SRAM_PARITY on a read of a core's array (Table 19-2): tier 1 for the accumulator, tier 2 otherwise. -/
def sramParity (s : State) (c t arr : Nat) : State :=
  raiseCore s c t cSRAM_PARITY 2 (if arr = 0 then 1 else 2) 0 arr 0

/-- The extent [lo, hi] of an access against a window [a, b]: the lowest byte outside, if any (R123, R124). -/
def lowestOutside (lo hi a b : Int) : Option Int :=
  if lo < a then some lo else if hi > b then some (max lo (b + 1)) else none

/-- The window of a slot (R123) as START took it: bytes LO × 4,096 to HI × 4,096 + 4,095. -/
def slotWindow (s : State) (c t : Nat) : Int × Int :=
  let x := slotOf s c t
  (((x.lo * 4096 : Nat) : Int), ((x.hi * 4096 + 4095 : Nat) : Int))

end Sys2Proof.Machine
end

