-- ==== Sys2Proof/Machine/Flags.lean ====
section
/-! DEFINITION. The flags a vector word or a drain sets: FP_FLAGS, six sticky bits of a core (R56). Which operation raises which flag is in Float.lean and Lanes.lean. -/

namespace Sys2Proof.Machine

/-- Sets bits of FP_FLAGS (R56). -/
def setFlags (s : State) (c fl : Nat) : State := setF s (rFP_FLAGS c) 0 6 (getF s (rFP_FLAGS c) 0 6 ||| fl)

end Sys2Proof.Machine
end

