-- ==== Sys2Proof/Machine/Lanes.lean ====
section
/-! DEFINITION. The lane operations of the vector engine (04_vector_engine.md): packing, element-wise arithmetic, comparison,
the reduction tree, statistics, normalisation, permutes and conversion, on lists of element codes. -/

namespace Sys2Proof.Machine

/-- n lanes of w bits from a register's bits, lane 0 lowest (R38, R86). -/
def unpackLanes (w x n : Nat) : List Nat := (List.range n).map fun i => bits x (w * i) w

/-- Lanes packed from lane 0 upward. -/
def packLanes (w : Nat) : List Nat → Nat
  | [] => 0
  | c :: cs => c % 2 ^ w + 2 ^ w * packLanes w cs

/-- A register with its first lanes replaced; higher lanes keep their bits (R88). -/
def putLanes (w old : Nat) (cs : List Nat) : Nat :=
  packLanes w cs + old / 2 ^ (w * cs.length) * 2 ^ (w * cs.length)

/-- The element code a lane holds: a 6-bit element fills the low bits of its byte (R38). -/
def laneCode (f c : Nat) : Nat := c % 2 ^ fmtWidth f

/-- Integer element-wise arithmetic, wrapping (R33, R95). -/
def intLane (op : Op) (w a b c : Nat) : Nat :=
  let x := signed w a
  let y := signed w b
  let z := signed w c
  unsigned w (match op with
    | .vadd => x + y
    | .vsub => x - y
    | .vmul => x * y
    | .vfma => x * y + z
    | .vmax => max x y
    | .vmin => min x y
    | .vabs => if x < 0 then -x else x
    | .vneg => -x
    | _ => x)

/-- A float lane that is NaN becomes the canonical NaN (R30); other codes keep their bits. -/
def canonLane (sp : FSpec) (c : Nat) : Nat := if (decodeFloat sp c).isNan then sp.canonNan else c

/-- Float element-wise arithmetic (R41, R95, R96). -/
def floatLane (op : Op) (sp : FSpec) (a b c : Nat) : Res :=
  let x := decodeFloat sp a
  let y := decodeFloat sp b
  let z := decodeFloat sp c
  match op with
  | .vadd => finishOp sp (x.isNan || y.isNan) (x.add y)
  | .vsub => finishOp sp (x.isNan || y.isNan) (x.add y.neg)
  | .vmul => finishOp sp (x.isNan || y.isNan) (x.mul y)
  | .vfma => finishOp sp (x.isNan || y.isNan || z.isNan) ((x.mul y).add z)
  | .vmax => ⟨(toFloat sp 0 false (FV.pick true x y)).code, 0⟩
  | .vmin => ⟨(toFloat sp 0 false (FV.pick false x y)).code, 0⟩
  | .vabs => ⟨if x.isNan then sp.canonNan else a % sp.signBit, 0⟩
  | .vneg => ⟨if x.isNan then sp.canonNan else (a + sp.signBit) % (2 * sp.signBit), 0⟩
  | .vexp => vexpFn sp x
  | .vlog => vlogFn sp x
  | .vrcp => vrcpFn sp x
  | .vrsq => vrsqFn sp x
  | _ => ⟨a, 0⟩

/-- One lane of an element-wise instruction. -/
def ewLane (op : Op) (f a b c : Nat) : Res :=
  if fmtIsInt f then ⟨intLane op (fmtWidth f) a b c, 0⟩ else floatLane op (floatSpec f) a b c

/-- Lanes of an element-wise instruction with their flags. -/
def ewLanes (op : Op) (f : Nat) : List Nat → List Nat → List Nat → List Nat × Nat
  | a :: as, bs, cs =>
    let r := ewLane op f a (bs.headD 0) (cs.headD 0)
    let q := ewLanes op f as bs.tail cs.tail
    (r.code :: q.1, r.fl ||| q.2)
  | [], _, _ => ([], 0)

/-- VCMP of one lane (R97): 0 EQ, 1 NE, 2 LT, 3 LE, 4 GT, 5 GE. -/
def cmpLane (cond f a b : Nat) : Bool :=
  let x := decodeElem f a
  let y := decodeElem f b
  if x.isNan || y.isNan then decide (cond = 1)
  else match cond with
    | 0 => x.eq y
    | 1 => !x.eq y
    | 2 => x.lt y
    | 3 => x.lt y || x.eq y
    | 4 => y.lt x
    | _ => y.lt x || x.eq y

/-- Bit i of a mask register (R97). -/
def maskBit (m i : Nat) : Bool := decide (bits m i 1 = 1)

/-- VSEL of one lane: the chosen operand; a NaN is returned as the canonical NaN (entry 5). -/
def selLane (f : Nat) (take : Bool) (a b : Nat) : Nat :=
  let x := if take then a else b
  if fmtIsInt f then x else canonLane (floatSpec f) x

-- the reduction tree (R98) ----------------------------------------------------------------------------------

/-- A value with the flags gathered on the way to it. -/
abbrev FlRes := Nat × Nat

/-- Pairs of neighbours combined: one level of the tree. -/
def pairUp (op : Nat → Nat → Res) : List FlRes → List FlRes
  | a :: b :: r =>
    let q := op a.1 b.1
    (q.code, a.2 ||| b.2 ||| q.fl) :: pairUp op r
  | r => r

/-- k levels of the tree. -/
def treeLevels (op : Nat → Nat → Res) : Nat → List FlRes → List FlRes
  | 0, l => l
  | k + 1, l => treeLevels op k (pairUp op l)

/-- The fold stage of lane l (R98, step 2). -/
def foldLane (op : Nat → Nat → Res) (leaf : Nat → FlRes) (l : Nat) : FlRes :=
  let a := leaf l
  let b := leaf (l + 256)
  let c := leaf (l + 512)
  let d := leaf (l + 768)
  let x := op a.1 b.1
  let y := op c.1 d.1
  let z := op x.code y.code
  (z.code, a.2 ||| b.2 ||| c.2 ||| d.2 ||| x.fl ||| y.fl ||| z.fl)

/-- The fixed tree over 1,024 leaves; leaves beyond the list are the identity (R98). -/
def reduceTree (op : Nat → Nat → Res) (ident : Nat) (leaves : List FlRes) : FlRes :=
  let arr := leaves.toArray
  let leaf := fun i => arr.getD i (ident, 0)
  ((treeLevels op 8 ((List.range 256).map (foldLane op leaf))).headD (ident, 0))

/-- FP32 codes of −0, −∞ and +∞. -/
def negZero32 : Nat := 0x8000_0000
def negInf32 : Nat := 0xFF80_0000
def posInf32 : Nat := 0x7F80_0000

/-- The exact conversion of a float element to FP32 (R98). -/
def to32 (f c : Nat) : Nat := (toFloat sp32 0 false (decodeFloat (floatSpec f) c)).code

/-- x² rounded to FP32. -/
def square32 (x : Nat) : FlRes := let r := mul32 x x; (r.code, r.fl)

/-- VRED of float lanes (R99): 0 SUM, 1 SUMSQ, 2 MAX, 3 MIN, 4 AMAX. -/
def redOp (mode : Nat) : Nat → Nat → Res := fun a b =>
  if mode ≤ 1 then add32 a b else if mode = 3 then ⟨pick32 false a b, 0⟩ else ⟨pick32 true a b, 0⟩
def redIdent (mode : Nat) : Nat := if mode ≤ 1 then negZero32 else if mode = 3 then posInf32 else negInf32
def redLeaf (mode f c : Nat) : FlRes :=
  let x := to32 f c
  if mode = 1 then square32 x else if mode = 4 then ((toFloat sp32 0 false (dec32 x).abs).code, 0) else (x, 0)
def redFloat (mode f : Nat) (xs : List Nat) : FlRes := reduceTree (redOp mode) (redIdent mode) (xs.map (redLeaf mode f))

/-- VRED of integer lanes (R99): a sum wraps modulo 2^32; the neutral element of MAX, MIN and AMAX stands for the identity leaves. -/
def redInt (mode w : Nat) (xs : List Nat) : Nat :=
  let vs : List Int := xs.map fun c => let v := signed w c; if mode = 4 then signed 32 (unsigned 32 (if v < 0 then -v else v)) else v
  match vs with
  | [] => 0
  | v :: r =>
    unsigned 32 (if mode = 0 then r.foldl (· + ·) v else if mode = 3 then r.foldl min v else r.foldl max v)

/-- VRED with ACC (R99): the old value is the left operand. -/
def vredLanes (mode f acc old : Nat) (xs : List Nat) : FlRes :=
  if fmtIsInt f then
    let r := redInt mode (fmtWidth f) xs
    if acc = 1 then
      let a := signed 32 old
      let b := signed 32 r
      (unsigned 32 (if mode = 0 then a + b else if mode = 3 then min a b else max a b), 0)
    else (r, 0)
  else
    let r := redFloat mode f xs
    if acc = 1 then
      let q := redOp mode (old % 2 ^ 32) r.1
      (q.code, r.2 ||| q.fl)
    else r

-- statistics and normalisation (R100 to R103) ----------------------------------------------------------------

def lowWord (p : Nat) : Nat := p % 2 ^ 32
def highWord (p : Nat) : Nat := p / 2 ^ 32 % 2 ^ 32
def mkPair (lo hi : Nat) : Nat := lo % 2 ^ 32 + 2 ^ 32 * (hi % 2 ^ 32)

/-- exp(RNE(x − m)) in FP32 (R101, R103). -/
def expDiff (x m : Nat) : FlRes :=
  let d := sub32 x m
  let e := vexpFn sp32 (dec32 d.code)
  (e.code, d.fl ||| e.fl)

/-- Equal values, two infinities of one sign included (R101: m == m2). -/
def sameValue (a b : Nat) : Bool := (dec32 a).eq (dec32 b)

/-- VSTAT (R100, R101): 0 SQ, 1 MOM, 2 SMX. -/
def vstatLanes (mode f pair : Nat) (cs : List Nat) : FlRes :=
  let lo := lowWord pair
  let hi := highWord pair
  let xs := cs.map (to32 f)
  if mode ≤ 1 then
    let sq := reduceTree (redOp 1) negZero32 (xs.map square32)
    let h := add32 hi sq.1
    if mode = 0 then (mkPair lo h.code, sq.2 ||| h.fl)
    else
      let sm := reduceTree (redOp 0) negZero32 (xs.map fun x => (x, 0))
      let l := add32 lo sm.1
      (mkPair l.code h.code, sq.2 ||| h.fl ||| sm.2 ||| l.fl)
  else
    let c := reduceTree (redOp 2) negInf32 (xs.map fun x => (x, 0))
    let m2 := pick32 true lo c.1
    let es := xs.map fun x => if x = negInf32 then (0, 0) else expDiff x m2
    let t := reduceTree (redOp 0) negZero32 es
    let fac : FlRes := if sameValue lo m2 then (0x3F80_0000, 0) else expDiff lo m2
    let p := mul32 hi fac.1
    let l2 := add32 p.code t.1
    (mkPair m2 l2.code, t.2 ||| fac.2 ||| p.fl ||| l2.fl)

/-- Division of an FP32 value by a count N, correctly rounded (R102); N is exact in FP32. -/
def divCount (a n : Nat) : Res := div32 a (roundFin sp32 0 false false n 0 false).code

/-- VSTFIN (R102): 0 SMX, 1 XENT, 2 RMS, 3 LN. -/
def vstfinPair (mode pair aux : Nat) : FlRes :=
  let lo := lowWord pair
  let hi := highWord pair
  if mode = 0 then
    let r := vrcpFn sp32 (dec32 hi)
    (mkPair (canonLane sp32 lo) r.code, r.fl)
  else if mode = 1 then
    let a := lnAdd32 lo hi
    let r := sub32 a.code (lowWord aux)
    (mkPair r.code 0, a.fl ||| r.fl)
  else
    let n := lowWord aux
    if n = 0 ∨ 2 ^ 24 < n then (mkPair sp32.canonNan sp32.canonNan, fInvalid)
    else
      let q := divCount hi n
      if mode = 2 then
        let a := add32 q.code (highWord aux)
        let r := vrsqFn sp32 (dec32 a.code)
        (mkPair 0 r.code, q.fl ||| a.fl ||| r.fl)
      else
        let mu := divCount lo n
        let mm := mul32 mu.code mu.code
        let d := sub32 q.code mm.code
        let v := pick32 true d.code 0
        let a := add32 v (highWord aux)
        let r := vrsqFn sp32 (dec32 a.code)
        (mkPair mu.code r.code, q.fl ||| mu.fl ||| mm.fl ||| d.fl ||| a.fl ||| r.fl)

/-- One lane of VNORM (R103) before its conversion to OFMT. -/
def normLane (mode gain f pair x g b : Nat) : FlRes :=
  let v := to32 f x
  let p0 := lowWord pair
  let p1 := highWord pair
  if mode = 0 then
    let d := sub32 v p0
    let y := mul32 d.code p1
    if gain = 1 then
      let yv := dec32 y.code
      let gv := dec32 (to32 f g)
      let bv := dec32 b
      let r := finishOp sp32 (yv.isNan || gv.isNan || bv.isNan) ((yv.mul gv).add bv)
      (r.code, d.fl ||| y.fl ||| r.fl)
    else (y.code, d.fl ||| y.fl)
  else
    let e := expDiff v p0
    let y := mul32 e.1 p1
    (y.code, e.2 ||| y.fl)

/-- VNORM lanes (R103): `b` is the bias in the format of vs, +0 where BIAS = 0. -/
def normLanes (mode gain bias f of pair : Nat) : List Nat → List Nat → List Nat → List Nat × Nat
  | x :: xs, gs, bs =>
    let y := normLane mode gain f pair x (gs.headD 0) (if bias = 1 then to32 f (bs.headD 0) else 0)
    let o := toFloat (floatSpec of) 0 false (dec32 y.1)
    let q := normLanes mode gain bias f of pair xs gs.tail bs.tail
    (o.code :: q.1, y.2 ||| o.fl ||| q.2)
  | [], _, _ => ([], 0)

-- permutes (R104 to R106) ------------------------------------------------------------------------------------

/-- VPERM (R104). -/
def permLanes (n : Nat) (vs idx : List Nat) : List Nat :=
  let a := vs.toArray
  idx.map fun i => let k := signed 16 i; if 0 ≤ k ∧ k < (n : Int) then a.getD k.toNat 0 else 0

/-- VSHUF (R105). -/
def shufLanes (pat k n : Nat) (a b : List Nat) : List Nat :=
  let x := a.toArray
  let y := b.toArray
  let at_ (i : Nat) : Nat := if i < n then x.getD i 0 else y.getD (i - n) 0
  (List.range n).map fun i =>
    match pat with
    | 0 => x.getD (n - 1 - i) 0
    | 1 => x.getD ((i + k) % n) 0
    | 2 => if i % 2 = 0 then x.getD (i / 2) 0 else y.getD (i / 2) 0
    | 3 => if i % 2 = 0 then x.getD (i / 2 + n / 2) 0 else y.getD (i / 2 + n / 2) 0
    | 4 => at_ (2 * i)
    | 5 => at_ (2 * i + 1)
    | _ => x.getD (i / 256 * 256 + i % 16 * 16 + i / 16 % 16) 0

/-- The lengths at which a shuffle faults (R105, REASON 4). -/
def shufBad (pat n : Nat) : Bool :=
  (decide (2 ≤ pat) && decide (pat ≤ 5) && decide (n % 2 = 1)) || (decide (pat = 6) && decide (n % 256 ≠ 0))

/-- VPACK (R106): the lanes whose mask bit is 1, in order. -/
def packSel (m : Nat) (i : Nat) : List Nat → List Nat
  | [] => []
  | x :: xs => if maskBit m i then x :: packSel m (i + 1) xs else packSel m (i + 1) xs

/-- VUNPK (R106): `src` fills the positions of `old` whose mask bit is 1, in order. -/
def unpkSel (m : Nat) (i : Nat) : List Nat → List Nat → List Nat
  | [], _ => []
  | o :: os, src => if maskBit m i then src.headD 0 :: unpkSel m (i + 1) os src.tail else o :: unpkSel m (i + 1) os src

-- conversion (R42 to R49) -------------------------------------------------------------------------------------

/-- Values of source lanes, under their block scales for an MX format (R34, R47). -/
def srcValues (f : Nat) (scales : List Nat) (i : Nat) : List Nat → List FV
  | [] => []
  | c :: cs =>
    let v := decodeElem f (laneCode f c)
    (if fmtIsMx f then scaleFV (scales.getD (i / 32) 0) v else v) :: srcValues f scales (i + 1) cs

/-- Blocks of 32 values, with fuel for the number of blocks. -/
def blocksOf (vs : List FV) : Nat → List (List FV)
  | 0 => []
  | k + 1 => if vs.isEmpty then [] else vs.take 32 :: blocksOf (vs.drop 32) k

/-- Conversion to an MX format: element codes, block scales and flags (R48; R49 where `supplied` names a scale). -/
def toMxLanes (f : Nat) (supplied : Option Nat) : List (List FV) → List Nat × List Nat × Nat
  | [] => ([], [], 0)
  | b :: bs =>
    let q := toMxLanes f supplied bs
    match supplied with
    | some x => let r := mxSupplied f x b; (r.1 ++ q.1, x :: q.2.1, r.2 ||| q.2.2)
    | none => let r := mxQuantise f b; (r.2.1 ++ q.1, r.1 :: q.2.1, r.2.2 ||| q.2.2)

/-- Conversion of values to a plain format. -/
def toPlainLanes (f rm : Nat) (sat : Bool) : List FV → List Nat × Nat
  | [] => ([], 0)
  | v :: vs =>
    let r := toPlain f rm sat v
    let q := toPlainLanes f rm sat vs
    (r.code :: q.1, r.fl ||| q.2)

-- the update instruction (R254 to R258) -----------------------------------------------------------------------

/-- The mixing function of R258. -/
def mix64 (z : BitVec 64) : BitVec 64 :=
  let a := (z ^^^ (z >>> 30)) * 0xbf58476d1ce4e5b9#64
  let b := (a ^^^ (a >>> 27)) * 0x94d049bb133111eb#64
  b ^^^ (b >>> 31)

/-- The draw of an element (R258). -/
def srDraw (seed : BitVec 64) (ck step idx : Nat) : Nat :=
  let key := mix64 (seed ^^^ (BitVec.ofNat 64 ck <<< 32) ^^^ BitVec.ofNat 64 step)
  ((mix64 (key ^^^ BitVec.ofNat 64 (idx % 2 ^ 40))) >>> 32).toNat

/-- Stochastic rounding of a finite nonzero magnitude (R257): the code of t0, or of its upper neighbour when the draw is below D. -/
def srMag (s : FSpec) (m : Nat) (e : Int) (draw : Nat) : Nat :=
  let top := e + (m.log2 : Int)
  let g := max (top - (s.mbits : Int)) s.tiny
  let sh := (g - e).toNat
  let m1 := if g < e then m <<< (e - g).toNat else m
  let t0 := m1 >>> sh
  let d := (m1 % 2 ^ sh) * 2 ^ 32 / 2 ^ sh
  (g - s.tiny).toNat * 2 ^ s.mbits + t0 + (if draw < d then 1 else 0)

/-- One element of VUPDSR (R256). -/
def updLane (f uf : Nat) (k : Int) (sat : Bool) (draw w u : Nat) : Res :=
  let s := floatSpec f
  let wv := decodeFloat s w
  let uv := match decodeFloat (floatSpec uf) u with
    | .fin n m e => FV.fin n m (e + k)
    | x => x
  match wv.add uv with
  | .nan => ⟨s.canonNan, if wv.isNan || uv.isNan then 0 else fInvalid⟩
  | .inf n => toFloat s 0 sat (.inf n)
  | .fin n m e =>
    if m = 0 then ⟨0, 0⟩
    else
      let c := srMag s m e draw
      if c = 0 then ⟨withSign s n 0, fUnderflow⟩
      else if s.maxCode < c then ⟨withSign s n (overflowCode s 0 sat n), fOverflow⟩
      else ⟨withSign s n c, 0⟩

/-- Lanes of VUPDSR from element index idx on. -/
def updLanes (f uf : Nat) (k : Int) (sat : Bool) (seed : BitVec 64) (ck step idx : Nat) : List Nat → List Nat → List Nat × Nat
  | w :: ws, us =>
    let r := updLane f uf k sat (srDraw seed ck step idx) w (us.headD 0)
    let q := updLanes f uf k sat seed ck step (idx + 1) ws us.tail
    (r.code :: q.1, r.fl ||| q.2)
  | [], _ => ([], 0)

/-- Sum of squares of the applied updates (R263): each leaf is RNE_FP32((u × 2^k)²) of the exact value. -/
def updSquares (uf : Nat) (k : Int) (us : List Nat) : Nat :=
  (reduceTree (redOp 1) negZero32 (us.map fun u =>
    let v := match decodeFloat (floatSpec uf) u with
      | .fin n m e => FV.fin n m (e + k)
      | x => x
    ((toFloat sp32 0 false (v.mul v)).code, 0))).1

/-- Sum of squares of the new weights (R263). -/
def weightSquares (f : Nat) (ws : List Nat) : Nat :=
  (reduceTree (redOp 1) negZero32 (ws.map fun w =>
    let v := decodeFloat (floatSpec f) w
    ((toFloat sp32 0 false (v.mul v)).code, 0))).1

/-- The ratio of a monitor slot (R264): RNE(√(RNE(USQ ÷ WSQ))). -/
def monRatio (usq wsq : Nat) : Nat := (sqrt32 (div32 usq wsq).code).code

/-- A history's scale (R262): `hs` are the BF16 entries of the window, MARGIN m in sixteenths. -/
def histScale (f margin : Nat) (hs : List Nat) : Nat :=
  let xs := hs.map (to32 1)
  if xs.any fun x => (dec32 x).isNan then 0xFF
  else
    let h := xs.foldl (pick32 true) 0
    let m := if margin = 0 then 16 else margin
    let t := match dec32 h with
      | .fin _ hm he => (roundFin sp32 0 false false (hm * m) (he - 4) false).code
      | _ => posInf32
    match dec32 t with
    | .fin _ tm te =>
      if tm = 0 then 0
      else
        -- the smallest sx with t ≤ fmax · 2^sx, fmax = fm · 2^fe
        let (fm, fe) : Nat × Int := if fmtCode f = 15 then (127, -6) else
          match decodeFloat (elemSpec f) (elemSpec f).maxCode with
          | .fin _ a b => (a, b)
          | _ => (1, 0)
        let sx0 : Int := te + (tm.log2 : Int) - (fe + (fm.log2 : Int))
        let fits := fun sx : Int => !magLt fm (fe + sx) tm te
        let sx := if fits (sx0 - 1) then sx0 - 1 else if fits sx0 then sx0 else sx0 + 1
        (max (-127) (min 127 sx) + 127).toNat
    | _ => 0xFF

end Sys2Proof.Machine
end

