-- ==== Sys2Proof/Machine/Operands.lean ====
section
/-! DEFINITION. The operand forms of a native word (04, 05, 06): scalar, address and vector registers, the flowline, and the element counts of R86 to R93. -/

namespace Sys2Proof.Machine

/-- A scalar register of a slot. -/
def sreg (s : State) (c t r : Nat) : BitVec 64 := mget (fun _ => 0) (slotOf s c t).sreg r
def setSreg (s : State) (c t r : Nat) (v : BitVec 64) : State :=
  modSlot s c t fun x => { x with sreg := mset (fun _ => 0) x.sreg r v }
/-- An address register of a slot. -/
def areg (s : State) (c t r : Nat) : BitVec 32 := mget (fun _ => 0) (slotOf s c t).areg r
def setAreg (s : State) (c t r : Nat) (v : BitVec 32) : State :=
  modSlot s c t fun x => { x with areg := mset (fun _ => 0) x.areg r v }
/-- A vector register of a core. -/
def vreg (s : State) (c r : Nat) : BitVec 8192 := mget (fun _ => 0) (coreOf s c).vreg r
def setVreg (s : State) (c r : Nat) (v : BitVec 8192) : State :=
  modCore (parClear s c 3 r) c fun k => { k with vreg := mset (fun _ => 0) k.vreg r v }

/-- The formats of a word's element operands (R88). -/
def elemFmts (w : Nat) : List Nat :=
  match wOp w with
  | .vcvt => [vFMT w, fnDfmt w]
  | .vnorm => [vFMT w, fnOfmt w]
  | .vupdsr => [vFMT w, updFmt (fnUfmt w)]
  | .vstfin | .vsetvl | .vget => []
  | _ => [vFMT w]

/-- The effective length of a word under a vector length (R88). -/
def effLen (vl w : Nat) : Nat := (elemFmts w).foldl (fun n f => min n (perReg f)) vl

/-- Codes of n lanes of a register in a format. -/
def regLanes (s : State) (c r f n : Nat) : List Nat := unpackLanes (laneBits f) (vreg s c r).toNat n

/-- A source's n lanes: a scalar's low bits in every lane (R93), the next FLI elements (R86), or a register. An FLI element of another width than the word's format
fills one lane with the low bits of its code (DESIGN CHOICE, entry 101). -/
def srcLanes (s : State) (c t : Nat) (scalar : Bool) (v f n : Nat) : List Nat :=
  if scalar then List.replicate n (bits (sreg s c t v).toNat 0 (fmtWidth f))
  else if v = 32 then (((coreOf s c).fli.flatMap FliEnt.es).take n).map fun e => e.code % 2 ^ fmtWidth f
  else regLanes s c v f n

/-- Number of FLI elements a word takes. -/
def fliNeed (vl w : Nat) : Nat := if fliCount w = 0 then 0 else effLen vl w

/-- The bytes of n elements of a format. -/
def elemBytes (f n : Nat) : Nat := ceilDiv (fmtWidth f * n) 8

/-- Result lanes go to a register, or down the flowline in chunks of at most 256 bytes (R86, R112). -/
def chunkElems (per : Nat) (es : List Elem) : Nat → List (List Elem)
  | 0 => []
  | k + 1 => if es.isEmpty then [] else es.take per :: chunkElems per (es.drop per) k

/-- Elements that fill one 256-byte entry of the SWR skid buffer. -/
def perEntry (f : Nat) : Nat := 2048 / fmtWidth f

end Sys2Proof.Machine
end

