-- ==== Sys2Proof/Machine/Pace.lean ====
section
/-! DEFINITION. The pace of a floe's engine work: the latched fields of a matrix operation, the nominal floe cycles of R66, R71, R75, R110 and R111, and when an
item may be processed (R465). -/

namespace Sys2Proof.Machine

-- the latched configuration of an operation (Tables 03-4, 03-5) -------------------------------------------------

def opIn (o : MxOp) : Nat := bits o.mode.toNat 0 5
def opWt (o : MxOp) : Nat := bits o.mode.toNat 8 5
def opOut (o : MxOp) : Nat := bits o.mode.toNat 16 5
def opSat (o : MxOp) : Bool := decide (bits o.mode.toNat 21 1 = 1)
def opSplit (o : MxOp) : Bool := decide (bits o.mode.toNat 22 1 = 1)
def opAct (o : MxOp) : Nat := bits o.mode.toNat 24 2
def opCont (o : MxOp) : Bool := decide (bits o.mode.toNat 26 1 = 1)
def opDrain (o : MxOp) : Bool := decide (bits o.mode.toNat 27 1 = 1)
def opScaleSrc (o : MxOp) : Bool := decide (bits o.mode.toNat 28 1 = 1)
def opAmaxEn (o : MxOp) : Bool := decide (bits o.mode.toNat 29 1 = 1)
def opMt (o : MxOp) : Nat := bits o.shape.toNat 0 7
def opKtLast (o : MxOp) : Nat := bits o.shape.toNat 8 7
def opNt (o : MxOp) : Nat :=
  let n := bits o.shape.toNat 16 10
  if n = 0 then (if opSplit o then 1024 else 512) else n
def opKp (o : MxOp) : Nat := bits o.passes.toNat 0 16
/-- Float-class operands (R52). -/
def opFloat (o : MxOp) : Bool := fmtIsFloat (opIn o)

/-- The column rate c of Table 02-10 in sixteenths of a column per cycle; split feed doubles it (R53, R61). -/
def opRate16 (o : MxOp) : Nat :=
  let w := fmtWidth (opWt o)
  let wi := fmtWidth (opIn o)
  let int16 := fun f => fmtIsInt f && fmtWidth f == 16
  (if w = 32 ∨ wi = 32 then 1 else if int16 (opWt o) || int16 (opIn o) then 4 else if w = 16 ∨ wi = 16 then 8 else if w = 4 then 32 else 16) *
    (if opSplit o then 2 else 1)

/-- Columns that enter together (R61): c of them where c is at least 1, two in the split feed of 16-bit floats, else one. -/
def opGroup (o : MxOp) : Nat :=
  let c := opRate16 o
  if c < 16 then 1 else if opSplit o ∧ c = 16 then 2 else c / 16

/-- Cycles for which the columns that enter together occupy the cells (R61). -/
def opPeriod (o : MxOp) : Nat :=
  let c := opRate16 o
  if c < 16 then 16 / c else if opSplit o ∧ c = 16 then 2 else 1

/-- The half of the array that takes column j in split feed: false is the upper half. The table of R61 has rows for the pairs of formats with c at least 1; for the
others the same alternation is taken (DESIGN CHOICE, entry 100). -/
def lowerHalf (o : MxOp) (j : Nat) : Bool :=
  opSplit o && decide ((if fmtWidth (opWt o) = 4 then j / 2 else j) % 2 = 1)

/-- The cycles C over which a pass's columns enter, and the pass period P (R66). -/
def opCols (o : MxOp) : Nat :=
  let c := opRate16 o
  if c < 16 then opNt o * (16 / c) else ceilDiv (opNt o * 16) c
def passPeriod (o : MxOp) : Nat := opCols o + (if opAct o = 0 then 0 else 1)

/-- Nominal cycles of an operation (R66): a column's entry, its last cell cycle, its check, the check column's entry, and a column's leaving. -/
def colDue (o : MxOp) (p j : Nat) : Nat := o.start + p * passPeriod o + j / opGroup o * opPeriod o
def colLast (o : MxOp) (p j : Nat) : Nat := colDue o p j + opPeriod o - 1
def checkColDue (o : MxOp) (p : Nat) : Nat := o.start + p * passPeriod o + opCols o
def leaveDue (o : MxOp) (j : Nat) : Nat := colLast o (opKp o) j + 11

/-- The nominal cycle in which column j of an MX output leaves: its group starts 4 cycles after its last column would have left, and goes at the column rate
(R71). -/
def leaveMxDue (o : MxOp) (j : Nat) : Nat :=
  leaveDue o (min (opNt o) (j / 32 * 32 + 32) - 1) + 4 + j % 32 * 16 / opRate16 o

/-- The first column of the next entry of an MX group that is leaving. -/
def groupCol (o : MxOp) : Nat :=
  let j := (o.emit - 1) / 32 * 32
  j + (ceilDiv (o.emit - j) (opGroup o) - o.group.length) * opGroup o

/-- The nominal cycle of the drain's next emission (R66, R71). -/
def drainDue (o : MxOp) : Nat :=
  if fmtIsMx (opOut o) then leaveMxDue o (if o.group = [] then min o.emit (opNt o - 1) else groupCol o) else leaveDue o o.emit

/-- The first cycle after the operation's last column or check column, in which a pending operation's first column enters (R64). -/
def opNext (o : MxOp) : Nat := o.start + (opKp o + 1) * passPeriod o

/-- The nominal cycle in which an operation completes (R66): one after the later of its last emission and its last check. -/
def opEnd (o : MxOp) : Nat :=
  let last := opNt o - 1
  1 + max (if opDrain o then (if fmtIsMx (opOut o) then leaveMxDue o last else leaveDue o last) else 0)
    (if opAct o = 0 then colLast o (opKp o) last else checkColDue o (opKp o) + 9)

-- when an item may be processed (R465) ---------------------------------------------------------------------------

/-- The floe cycle count of the floe of a slot. -/
def floeNow (s : State) (c t : Nat) : Nat :=
  match floeFor s c t with
  | some f => getR64 s (rFLOE_CYC (c / 8) f)
  | none => 0

/-- The floe cycle below which a slot's items are due: while the count is frozen only a path that lags goes on, and once the slot has left the core, or its floe is
being reset, its work proceeds until it completes (R465, R134 to R136). -/
def pace (s : State) (c t : Nat) : Option Nat :=
  match floeFor s c t with
  | none => none
  | some f =>
    if slotState s c t ≠ 2 ∨ s.rstJob = some (0, 32 * (c / 8) + f) then none
    else some (getR64 s (rFLOE_CYC (c / 8) f) + (if getF s (rFLOE_STAT (c / 8) f) 0 4 = 0 then 1 else 0))

/-- Whether an item of a slot with nominal cycle n may be processed. -/
def mayRun (s : State) (c t n : Nat) : Bool :=
  match pace s c t with
  | none => true
  | some k => decide (n < k)

/-- Whether a path of a core takes an item in the present ACLK cycle, since it processes one item a cycle (R75): 0 input-tile rows, 1 weight columns, 2 the drain,
3 pass-throughs, 4 the vector lanes (R90), 5 the readiness of the shadow tile (R67). -/
def pathFree (s : State) (c p : Nat) : Bool := decide (mget (fun _ => 0) (coreOf s c).paced p = 0)

/-- A path is occupied for k ACLK cycles, the present one among them. -/
def occupy (s : State) (c p k : Nat) : State := modCore s c fun x => { x with paced := mset (fun _ => 0) x.paced p k }

/-- Whether a register has a pending write (R91): vector register r, or scalar register r of slot t as 32 · (t + 1) + r. -/
def regPend (s : State) (c r : Nat) : Bool := decide (mget (fun _ => 0) (coreOf s c).pend r ≠ 0)
def sregKey (t r : Nat) : Nat := 32 * (t + 1) + r

/-- A cycle of each count. -/
def tickDown (l : List (Nat × Nat)) : List (Nat × Nat) := (l.filter fun p => decide (1 < p.2)).map fun p => (p.1, p.2 - 1)

/-- A switch whose quiescence is over comes one cycle nearer to its end (R135). -/
def switchDown (w : Option Switch) : Option Switch := w.map fun x => { x with left := x.left - 1 }

/-- An ACLK cycle begins on a core: what occupies its paths, the pending writes of its registers and its switch come one cycle nearer to their end. -/
def paceRun (s : State) (c : Nat) : State :=
  if (coreOf s c).paced.isEmpty && (coreOf s c).pend.isEmpty && (coreOf s c).switch.isNone then s
  else modCore s c fun k => { k with paced := tickDown k.paced, pend := tickDown k.pend, switch := switchDown k.switch }

-- the marks that feed bytes carry (R202) --------------------------------------------------------------------------------

/-- n bytes with the same marks join the runs of a feed buffer. -/
def runPush (n m : Nat) (l : List (Nat × Nat)) : List (Nat × Nat) := if n = 0 then l else l ++ [(n, m)]

/-- The runs after n bytes have been taken. -/
def runDrop : Nat → List (Nat × Nat) → List (Nat × Nat)
  | _, [] => []
  | n, (l, m) :: r => if n < l then (l - n, m) :: r else runDrop (n - l) r

/-- The marks of the first n bytes of a feed buffer. -/
def runMarks : Nat → List (Nat × Nat) → Nat
  | _, [] => 0
  | n, (l, m) :: r => if n = 0 then 0 else m ||| runMarks (n - l) r

-- the order of the flowline input (R110) ----------------------------------------------------------------------------

/-- All elements that wait on FLI, oldest first. -/
def fliElems (s : State) (c : Nat) : List Elem := (coreOf s c).fli.flatMap FliEnt.es

/-- An entry at its place: by nominal FLI cycle, a drain emission before a pass-through item of the same cycle. -/
def fliInsert (e : FliEnt) : List FliEnt → List FliEnt
  | [] => [e]
  | x :: xs => if e.due < x.due ∨ (e.due = x.due ∧ e.pri < x.pri) then e :: x :: xs else x :: fliInsert e xs

/-- The entry that holds element n, counted from 1. -/
def fliEntry (n : Nat) : List FliEnt → Option FliEnt
  | [] => none
  | e :: r => if n ≤ e.es.length then some e else fliEntry (n - e.es.length) r

/-- The entries after n elements have been taken. -/
def fliDrop : Nat → List FliEnt → List FliEnt
  | _, [] => []
  | n, e :: r => if n = 0 then e :: r else if e.es.length ≤ n then fliDrop (n - e.es.length) r else { e with es := e.es.drop n } :: r

/-- The nominal FLI cycle of the next drain emission of a slot that has not left (Table 05-1: one cycle after it leaves). -/
def drainNext (s : State) (c t : Nat) : Option Nat :=
  ((coreOf s c).mxq.find? fun o => o.slot == t && opDrain o && !fmtIsMx (opOut o) && decide (o.emit < opNt o)).map fun o => leaveDue o o.emit + 1

/-- The nominal FLI cycle of the next pass-through item of a slot that has not been read (R110). -/
def passNext (s : State) (c t : Nat) : Option Nat := ((coreOf s c).passq.find? fun x => x.slot == t).map fun x => x.due + 3

/-- Whether the next n elements are present on FLI for a slot: they are there, their cycles have come, and no item that precedes the last of them is still to
arrive. -/
def fliPresent (s : State) (c t n : Nat) : Bool :=
  if n = 0 then true
  else match fliEntry n (coreOf s c).fli with
    | none => false
    | some e =>
      mayRun s c t e.due &&
        (match drainNext s c t with | some d => decide (e.due < d) || (decide (e.due = d) && e.pri == 0) | none => true) &&
        (match passNext s c t with | some d => decide (e.due ≤ d) | none => true)

end Sys2Proof.Machine
end

