-- ==== Sys2Proof/Machine/Vxe.lean ====
section
/-! DEFINITION. The vector engine acting on a core (04, 05, 11): results, the effect of one vector word, the instruction
queue of R111, and the training registers (R260 to R265). -/

namespace Sys2Proof.Machine

/-- Result elements go down the flowline in chunks that fill the skid buffer (R112). -/
def pushFlo (s : State) (c t f : Nat) (cs : List Nat) : State :=
  modCore s c fun k => { k with flo := k.flo ++ (chunkElems (perEntry f) (cs.map fun x => ⟨f, x⟩) cs.length).map (FloEnt.mk t) }

/-- Result lanes go to a register or to the flowline (R86). -/
def putResult (s : State) (c t vd f : Nat) (cs : List Nat) : State :=
  if vd = 32 then pushFlo s c t f cs
  else setVreg s c vd (BitVec.ofNat 8192 (putLanes (laneBits f) (vreg s c vd).toNat cs))

/-- Skid entries a word's FLO output takes. -/
def floNeed (vl w : Nat) : Nat :=
  if toFlo w then
    let f := match wOp w with | .vcvt => fnDfmt w | .vnorm => fnOfmt w | _ => vFMT w
    ceilDiv (effLen vl w) (perEntry f)
  else 0

/-- Room for a word's FLO output in the 8-entry skid buffer (R112); output larger than the whole buffer needs it empty. -/
def floRoom (s : State) (c vl w : Nat) : Bool :=
  let used := (coreOf s c).flo.length
  decide (used + floNeed vl w ≤ 8) || decide (used = 0)

-- scale slots and monitors (R260 to R265) -----------------------------------------------------------------------

/-- The word that holds history entry i of a scale slot, and the entry's low bit. -/
def histWord (c n i : Nat) : Nat × Nat := (rSCL_HIST c n 0 + 4 * (i / 2), 16 * (i % 2))
def histGet (s : State) (c n i : Nat) : Nat := getF s (histWord c n i).1 (histWord c n i).2 16
def histSet (s : State) (c n i v : Nat) : State := setF s (histWord c n i).1 (histWord c n i).2 16 v

/-- The supplied scale of a slot for a consumer's MX format (R262). -/
def slotScale (s : State) (c n f : Nat) : Nat :=
  let win := getF s (rSCL_CFG c n) 0 4
  histScale f (getF s (rSCL_CFG c n) 4 8) ((List.range (if win = 0 then 16 else win)).map (histGet s c n))

/-- FP32 rounded to BF16 toward +∞, a NaN canonical (R261). -/
def toBf16Up (x : Nat) : Nat := (toFloat (floatSpec 1) 3 false (dec32 x)).code

/-- One scale slot rolled (R261). -/
def rollSlot (s : State) (c n : Nat) : State :=
  let s1 := (List.range 15).foldl (fun s j => histSet s c n (15 - j) (histGet s c n (14 - j))) s
  setR (histSet s1 c n 0 (toBf16Up (getR s1 (rSCL_CUR c n)).toNat)) (rSCL_CUR c n) 0

/-- Every scale slot of a core rolled (R261). -/
def rollAll (s : State) (c : Nat) : State := (List.range 512).foldl (fun s n => rollSlot s c n) s

/-- A capture: CUR = max(CUR, value), NaN and ∞ as R260 states. -/
def capture (s : State) (c n v : Nat) : State :=
  let cur := (getR s (rSCL_CUR c n)).toNat
  let new := if (dec32 cur).isNan || (dec32 v).isNan then sp32.canonNan else pick32 true cur v
  setR s (rSCL_CUR c n) (BitVec.ofNat 32 new)

/-- A monitor slot closed: its ratio and warnings (R264). -/
def monClose1 (s : State) (c l : Nat) : State :=
  let r := monRatio (getR s (rMON_USQ c l)).toNat (getR s (rMON_WSQ c l)).toNat
  let s1 := setR s (rMON_RATIO c l) (BitVec.ofNat 32 r)
  match dec32 r with
  | .fin n m e =>
    let s2 := if (FV.fin n m e).lt (dec32 (getR s (rMON_TLO c)).toNat) then setF s1 (rMON_STAT c l) 1 1 1 else s1
    if (dec32 (getR s (rMON_THI c)).toNat).lt (.fin n m e) then setF s2 (rMON_STAT c l) 2 1 1 else s2
  | _ => setF s1 (rMON_STAT c l) 3 1 1

/-- A VUPDSR with MON = 1 acts on its monitor slot (R263). -/
def monAcc (s : State) (c l step su sw : Nat) : State :=
  let valid := getB s (rMON_STAT c l) 0
  let stale := valid && decide ((getR s (rMON_STEP c l)).toNat ≠ step)
  let s1 := if stale then monClose1 s c l else s
  let s2 := if stale || !valid then
      setF (setR (setR (setR s1 (rMON_USQ c l) 0) (rMON_WSQ c l) 0) (rMON_STEP c l) (BitVec.ofNat 32 step)) (rMON_STAT c l) 0 1 1
    else s1
  let s3 := setR s2 (rMON_USQ c l) (BitVec.ofNat 32 (add32 (getR s2 (rMON_USQ c l)).toNat su).code)
  setR s3 (rMON_WSQ c l) (BitVec.ofNat 32 (add32 (getR s3 (rMON_WSQ c l)).toNat sw).code)

-- the effect of one vector word ----------------------------------------------------------------------------------

/-- Drops the FLI elements a word has taken. -/
def dropFli (s : State) (c n : Nat) : State := modCore s c fun k => { k with fli := fliDrop n k.fli }

/-- Element-wise words, VSEL and VCMP. -/
def vxeElementwise (s : State) (c t w n : Nat) : State :=
  let f := vFMT w
  let a := srcLanes s c t (vSCL w == 1) (vVA w) f n
  let b := srcLanes s c t (vSCL w == 2) (vVB w) f n
  let d := srcLanes s c t (vSCL w == 3) (vVC w) f n
  match wOp w with
  | .vcmp =>
    let old := (vreg s c (vVD w)).toNat
    let m := (List.range n).zipWith (fun i ab => if cmpLane (fnCond w) f ab.1 ab.2 then 2 ^ i else 0) (a.zip b)
    setVreg s c (vVD w) (BitVec.ofNat 8192 (m.foldl (· + ·) 0 + old / 2 ^ n * 2 ^ n))
  | .vsel =>
    let m := (vreg s c (vVC w)).toNat
    putResult s c t (vVD w) f ((List.range n).zipWith (fun i ab => selLane f (maskBit m i) ab.1 ab.2) (a.zip b))
  | op =>
    let r := ewLanes op f a b d
    setFlags (putResult s c t (vVD w) f r.1) c r.2

/-- VCVT (R42 to R49, R38). `scale` is the supplied scale that it read at issue (R153, R262). -/
def vxeConvert (s : State) (c t w n scale : Nat) : State :=
  let f := vFMT w
  let d := fnDfmt w
  let src := srcLanes s c t false (vVA w) f n
  let scales := if fmtIsMx f then unpackLanes 8 (vreg s c (vVA w + 1)).toNat (ceilDiv n 32) else []
  let vs := srcValues f scales 0 src
  if fmtIsMx d then
    let sup := if fnSsrc w = 1 then some scale else none
    let (cs, sc, fl) := toMxLanes d sup (blocksOf vs (ceilDiv n 32))
    let s1 := putResult s c t (vVD w) d cs
    setFlags (setVreg s1 c (vVD w + 1) (BitVec.ofNat 8192 (packLanes 8 sc))) c fl
  else
    let (cs, fl) := toPlainLanes d (fnRm w) (fnSat w == 1) vs
    setFlags (putResult s c t (vVD w) d cs) c fl

/-- The automatic roll of a VUPDSR with a new STEP (R261). -/
def autoRoll (s : State) (c step : Nat) : State :=
  if getB s (rSCL_CTL c) 0 && decide ((getR s (rSCL_STEP c)).toNat ≠ step) then
    setR (rollAll s c) (rSCL_STEP c) (BitVec.ofNat 32 step)
  else s

/-- VUPDSR (R254 to R258, R263), with what it read at issue: p0 = s[SX] and the step of s[SX + 1]. -/
def vxeUpdate (s : State) (c t w n p0 step : Nat) : State :=
  let f := vFMT w
  let uf := updFmt (fnUfmt w)
  let ws := srcLanes s c t false (vVA w) f n
  let us := srcLanes s c t false (vVB w) uf n
  let r := updLanes f uf (fnK w) (fnUpdSat w == 1) (BitVec.ofNat 64 (getR64 s (rSR_SEED c))) (getF s (rSR_CORE c) 0 16) step
    (bits p0 0 40) ws us
  let s1 := setFlags (putResult s c t (vVD w) f r.1) c r.2
  if fnMon w = 1 then monAcc s1 c (bits p0 40 8) step (updSquares uf (fnK w) us) (weightSquares f r.1) else s1

/-- Words that write a scalar register: VRED, VSTAT, VSTFIN, VGET, VPACK's count. -/
def vxeScalar (s : State) (c t w n : Nat) : State :=
  let old := (sreg s c t (vSX w)).toNat
  match wOp w with
  | .vred =>
    let r := vredLanes (fnRedMode w) (vFMT w) (fnAcc w) old (srcLanes s c t false (vVA w) (vFMT w) n)
    setFlags (setSreg s c t (vSX w) (BitVec.ofNat 64 r.1)) c r.2
  | .vstat =>
    let r := vstatLanes (fnMode2 w) (vFMT w) old (srcLanes s c t false (vVA w) (vFMT w) n)
    setFlags (setSreg s c t (vSX w) (BitVec.ofNat 64 r.1)) c r.2
  | .vstfin =>
    let r := vstfinPair (fnMode2 w) (sreg s c t (vVA w)).toNat (sreg s c t (vVB w)).toNat
    setFlags (setSreg s c t (vSX w) (BitVec.ofNat 64 r.1)) c r.2
  | .vget =>
    let lw := laneBits (vFMT w)
    setSreg s c t (vSX w) (BitVec.ofNat 64 (bits (vreg s c (vVA w)).toNat (lw * fnIndex w) lw))
  | _ => s

/-- Bit-moving words (R104 to R106). -/
def vxePermute (s : State) (c t w n : Nat) : State :=
  let f := vFMT w
  let lw := laneBits f
  let a := unpackLanes lw (vreg s c (vVA w)).toNat n
  match wOp w with
  | .vperm =>
    let idx := unpackLanes 16 (vreg s c (vVC w)).toNat (min n 512) ++
      (if n ≤ 512 then [] else unpackLanes 16 (vreg s c (vVC w + 1)).toNat (n - 512))
    putResult s c t (vVD w) f (permLanes n a idx)
  | .vshuf =>
    let b := unpackLanes lw (vreg s c (vVB w)).toNat n
    putResult s c t (vVD w) f (shufLanes (fnPat w) (bits (sreg s c t (vSX w)).toNat 0 16) n a b)
  | .vpack =>
    let r := packSel (vreg s c (vVC w)).toNat 0 a
    setSreg (putResult s c t (vVD w) f r) c t (vSX w) (BitVec.ofNat 64 r.length)
  | .vunpk =>
    let old := unpackLanes lw (vreg s c (vVD w)).toNat n
    putResult s c t (vVD w) f (unpkSel (vreg s c (vVC w)).toNat 0 old a)
  | _ => s

/-- VNORM (R103). -/
def vxeNorm (s : State) (c t w n : Nat) : State :=
  let f := vFMT w
  let r := normLanes (fnNormMode w) (fnGain w) (fnBias w) f (fnOfmt w) (sreg s c t (vSX w)).toNat
    (srcLanes s c t false (vVA w) f n) (regLanes s c (vVB w) f n) (regLanes s c (vVC w) f n)
  setFlags (putResult s c t (vVD w) (fnOfmt w) r.1) c r.2

/-- The new VL of a VSETVL (R87, R154). -/
def setvlValue (s : State) (c t w : Nat) : Nat :=
  min (if fnLsrc w = 1 then (sreg s c t (vSX w)).toNat else fnLen w) 1024

/-- A word reads and writes nothing at n = 0 (R89); VSTFIN, VGET and VSETVL have no element operand and do not depend on n. -/
def vxeRun (s : State) (c : Nat) (e : VxEnt) : State :=
  let t := e.slot
  let w := e.word.toNat
  let n := effLen (slotOf s c t).vl w
  match wOp w with
  | .vsetvl => modSlot s c t fun x => { x with vl := setvlValue s c t w }
  | .vstfin | .vget => vxeScalar s c t w n
  | op =>
    if n = 0 then s
    else
      let s1 := match op with
        | .vcvt => vxeConvert s c t w n e.scale
        | .vupdsr => vxeUpdate s c t w n e.sx0.toNat (bits e.sx1.toNat 0 32)
        | .vred | .vstat => vxeScalar s c t w n
        | .vperm | .vshuf | .vpack | .vunpk => vxePermute s c t w n
        | .vnorm => vxeNorm s c t w n
        | _ => vxeElementwise s c t w n
      dropFli s1 c (fliNeed (slotOf s c t).vl w)

/-- Whether a vector word can start: its FLI elements are present and SWR has room (R111). -/
def vxeReady (s : State) (c t w : Nat) : Bool :=
  let vl := (slotOf s c t).vl
  fliPresent s c t (fliNeed vl w) && floRoom s c vl w

/-- The vector registers a word reads that hold a parity error; at n = 0 a word with element operands reads nothing (R89). -/
def vregParity (s : State) (c t w : Nat) : Bool :=
  (elemFmts w = [] || effLen (slotOf s c t).vl w != 0) && (vSources w).any fun r => parBad s c 3 r

/-- Whether a register that a vector word reads when it starts has a pending write; at n = 0 a word with element operands reads nothing (R89, R91). -/
def vecPending (s : State) (c t w : Nat) : Bool :=
  (elemFmts w = [] || effLen (slotOf s c t).vl w != 0) && ((vSources w ++ (vScalars w).map (sregKey t)).any fun r => regPend s c r)

/-- The scalar register that a vector word writes (R91). -/
def scalarWrite (w : Nat) : Option Nat :=
  match wOp w with
  | .vred | .vstat | .vstfin | .vget | .vpack => some (vSX w)
  | _ => none

/-- A word of effective length n has started: it occupies the lanes for k cycles (R90), and what it writes can be read when its last element can, at latency + k − 1
(R91; DEDUCED for vector registers, entry 21). -/
def vxeTimed (s : State) (c t w n : Nat) : State :=
  let k := vOccupy w n
  let rs := if elemFmts w ≠ [] ∧ n = 0 then [] else vDests w ++ (scalarWrite w).toList.map (sregKey t)
  modCore s c fun x => { x with
    paced := mset (fun _ => 0) x.paced 4 k,
    pend := rs.foldl (fun p r => mset (fun _ => 0) p r (max (mget (fun _ => 0) p r) (vLatency w + k - 1))) x.pend }

/-- A vector word starts; a register with a parity error stops it instead (Table 19-2); a shuffle whose length breaks R105 faults instead (REASON 4), at the length
it latches (R88, R111). Then the scalar writes that RECV made behind it take their place (R92). -/
def vxeStart (s : State) (c : Nat) (e : VxEnt) : State :=
  let w := e.word.toNat
  let s1 := if wOp w = .vshuf && shufBad (fnPat w) (effLen (slotOf s c e.slot).vl w) then illegal s c e.slot 4 e.idx w
    else if vregParity s c e.slot w then sramParity s c e.slot 3
    else vxeTimed (vxeRun s c e) c e.slot w (effLen (slotOf s c e.slot).vl w)
  e.puts.foldl (fun s p => setSreg s c e.slot p.1 p.2) s1

/-- The scalar registers that a vector word reads at issue (R153, R254). -/
def issueReads (w : Nat) : List Nat :=
  match wOp w with
  | .vupdsr => [vSX w, vSX w + 1]
  | .vcvt => if fnSsrc w = 1 then [vSX w] else []
  | _ => []

/-- What the queue will leave in a scalar register: `none` where nothing in it writes the register, else whether a vector word still has to write it, and the value
a later RECV has put behind that (R92). -/
def queuedWrite (q : List VxEnt) (t r : Nat) : Option (Option (BitVec 64)) :=
  q.foldl (fun a e =>
    if e.slot ≠ t then a
    else
      let a1 := if scalarWrite e.word.toNat = some r then some none else a
      match e.puts.reverse.find? fun p => p.1 == r with
      | some p => some (some p.2)
      | none => a1) none

/-- A scalar register as a word issued now reads it. -/
def sregNow (s : State) (c t r : Nat) : BitVec 64 :=
  match queuedWrite (coreOf s c).vxq t r with
  | some (some v) => v
  | _ => sreg s c t r

/-- RECV's write of a scalar register: behind the vector words that wait (R92). -/
def putSreg (s : State) (c t r : Nat) (v : BitVec 64) : State :=
  match (coreOf s c).vxq.reverse with
  | [] => setSreg s c t r v
  | e :: es => modCore s c fun k => { k with vxq := (({ e with puts := e.puts ++ [(r, v)] }) :: es).reverse }

/-- The vector length that a word issued now will find: the last VSETVL in the queue sets it (R111). -/
def vlNow (s : State) (c t : Nat) : Nat :=
  (coreOf s c).vxq.foldl (fun v e => if e.slot = t ∧ wOp e.word.toNat = .vsetvl then setvlValue s c t e.word.toNat else v) (slotOf s c t).vl

/-- What a vector word takes with it at issue. -/
def vxEntry (s : State) (c t idx w : Nat) : VxEnt :=
  {
    slot := t, idx := idx, word := BitVec.ofNat 64 w, due := floeNow s c t, sx0 := sregNow s c t (vSX w), sx1 := sregNow s c t (vSX w + 1),
    scale := if wOp w = .vcvt ∧ fnSsrc w = 1 then slotScale s c (bits (sregNow s c t (vSX w)).toNat 0 9) (fnDfmt w) else 0 }

/-- A vector word issues: it starts, or joins the instruction queue behind what waits there (R111). A VUPDSR with a new STEP and n > 0 rolls first (R261). -/
def vxeIssue (s : State) (c t idx w : Nat) : State :=
  let e := vxEntry s c t idx w
  let s1 := if wOp w = .vupdsr ∧ effLen (vlNow s c t) w ≠ 0 then autoRoll s c (bits e.sx1.toNat 0 32) else s
  if (coreOf s1 c).vxq.isEmpty && vxeReady s1 c t w then vxeStart s1 c e
  else modCore s1 c fun k => { k with vxq := k.vxq ++ [e] }

/-- The word at the head of the queue starts once it can (VXE_QUEUE_START, R111): the lanes are free and no register it reads has a pending write (R90, R91). -/
def vxeQueueStart (s : State) (c : Nat) : State :=
  match (coreOf s c).vxq with
  | [] => s
  | e :: q =>
    if mayRun s c e.slot e.due && vxeReady s c e.slot e.word.toNat && pathFree s c 4 && !vecPending s c e.slot e.word.toNat then
      vxeStart (modCore s c fun k => { k with vxq := q }) c e else s

end Sys2Proof.Machine
end

