-- ==== Sys2Proof/Machine/Chan.lean ====
section
/-! DEFINITION. Sync counters and active-message channels (09_sync_and_channels.md): signals, waits, messages, credits, replies and the
states of inbound ends. -/

namespace Sys2Proof.Machine

-- counters (R212 to R223) ---------------------------------------------------------------------------------------

/-- DETAIL of the counter classes: counter, GEN, VALUE (Table 19-2). -/
def ctrDetail (s : State) (c n : Nat) : Nat := n + 64 * ctrGen s c n + 1024 * ctrValue s c n

/-- A signal as CTR_LASTSIG holds it (Table 09-2). -/
def sigRecord (s : State) (g : Sig) : Nat :=
  tbNow s % 2 ^ 32 + 2 ^ 32 * g.pkg + 2 ^ 48 * (g.src % 256) + 2 ^ 56 * g.kind

/-- The token of a signal of this package returns (R419). -/
def sigReturn (s : State) (g : Sig) : State := if g.own then ledReturn1 s qCTR else s

/-- While OVF = 1 a WAITC on the counter faults its slot (R219): the slots BLOCKED on it. -/
def ovfWaiters (s : State) (c n : Nat) : State :=
  (List.range 4).foldl (fun s t =>
    match (slotOf s c t).wait with
    | some (.ctr m _) => if m = n ∧ slotState s c t = 3 then raiseCore s c t cOVERFLOW 2 2 0 (ctrDetail s c n) 0 else s
    | _ => s) s

/-- One signal meets its counter: stale (R220), past 65,535 (R219), or applied (R214, R223). There is no counter above 47 (R212). -/
def applySignal (s : State) (g : Sig) : State :=
  let c := g.core
  let n := g.ctr
  let d := c / 64
  if 47 < n then sigReturn s g
  else if g.gen ≠ ctrGen s c n then
    let s1 := satF s (rCTR_STAT c n) 16 16 1
    let s2 := raiseEv s1 d { cls := cSTALE, sev := 0, home := 0, ukind := 0, uindex := c, detail := n + 64 * ctrGen s c n + 1024 * g.gen, aux := sigRecord s g }
    sigReturn s2 g
  else if 65535 < ctrValue s c n + g.count then
    let s1 := setF s (rCTR_STAT c n) 1 1 1
    let own := if getB s (rCTR_CFG c n) 0 then some (c, getF s (rCTR_CFG c n) 1 2) else none
    let s2 := raiseEv s1 d { cls := cOVERFLOW, sev := 2, home := 2, ukind := 0, uindex := c, owner := own, detail := ctrDetail s c n }
    sigReturn (ovfWaiters s2 c n) g
  else
    let s1 := setF s (rCTR_VAL c n) 0 16 (ctrValue s c n + g.count)
    let s2 := setR64 s1 (rCTR_LASTSIG c n) (sigRecord s g)
    grantAll (sigReturn s2 g) c n

/-- Whether signal a is applied before signal b of the same cycle (R215). -/
def sigBefore (a b : Sig) : Bool := decide (a.cls < b.cls) || (a.cls == b.cls && decide (a.sub < b.sub))

/-- The signal of a core that is next in the order of R215. -/
def nextSig (l : List Sig) (c : Nat) : Option Sig :=
  l.foldl (fun o g => if g.core = c then (match o with | none => some g | some b => if sigBefore g b then some g else some b) else o) none

/-- SIGNAL_APPLY (R214, R215): the next signal of a core is applied. A core in reset holds its signals (R221). -/
def signalApply (s : State) (c : Nat) : State :=
  if c ∈ s.resetting then s
  else match nextSig s.signals c with
    | none => s
    | some g => applySignal { s with signals := s.signals.erase g } g

/-- A signal leaves a source of this package (R419): its token is issued. -/
def sendSignal (s : State) (g : Sig) : State := ledIssue { s with signals := s.signals ++ [g] } qCTR 1

/-- Whether a signal of core c finds room on its way (R213, R289): within the cluster it needs none. -/
def sigRoom (s : State) (c core : Nat) : Bool := decide (core / 8 = c / 8) || coreRoom s c

/-- A signal leaves core c: by the cluster switch, or by its stream port. -/
def coreSend (s : State) (c : Nat) (g : Sig) : State :=
  if g.core / 8 = c / 8 then sendSignal s g else ledIssue (coreOut s c 0 (.sig g)) qCTR 1

/-- A signal that a core sends: of class 1 inside itself, else of class 2, by the cluster switch before the stream network (R215). -/
def coreSignal (s : State) (src dst ctr count gen kind : Nat) (loc : Bool) : Sig :=
  ⟨dst, ctr, count, gen, if loc then 1 else 2, if src / 8 = dst / 8 then 0 else 1, ownPkg s, src, kind, true⟩

/-- SIGC acts (R213). -/
def sigcRun (s : State) (c w : Nat) : State :=
  let loc := sigLocal w == 1
  coreSend s c (coreSignal s c (if loc then c else sigCore w) (synCtr w) (synCount w) (sigGen w) 1 loc)

/-- The units of a counter that a slot's WAITC may take: its own reservation, or the available count (R216, R217). -/
def waitcCan (s : State) (c t w : Nat) : Bool :=
  match (slotOf s c t).resv with
  | some (n, k) => (n == synCtr w && decide (synCount w ≤ k)) || decide (synCount w ≤ ctrAvail s c (synCtr w))
  | none => decide (synCount w ≤ ctrAvail s c (synCtr w))

/-- WAITC completes: k is subtracted and the slot's reservation ends (R216, R137). -/
def waitcRun (s : State) (c t w : Nat) : State :=
  let n := synCtr w
  let s1 := setF s (rCTR_VAL c n) 0 16 (ctrValue s c n - synCount w)
  modSlot s1 c t fun x => { x with resv := none, wait := none }

/-- A generation change (R221): GEN + 1, VALUE and BASE 0, OVF clear. -/
def ctrAdvance (s : State) (c n : Nat) : State :=
  let s1 := setR s (rCTR_VAL c n) (BitVec.ofNat 32 (65536 * ((ctrGen s c n + 1) % 16)))
  setF (setF s1 (rCTR_BASE c n) 0 16 0) (rCTR_STAT c n) 1 1 0

/-- Counters that belong to a slot (R222). -/
def ctrsOf (s : State) (c t : Nat) : List Nat :=
  (List.range 48).filter fun n => getB s (rCTR_CFG c n) 0 && decide (getF s (rCTR_CFG c n) 1 2 = t)

/-- START copies VALUE into BASE (R222). -/
def ctrStart (s : State) (c t : Nat) : State :=
  (ctrsOf s c t).foldl (fun s n => setF s (rCTR_BASE c n) 0 16 (ctrValue s c n)) s

/-- The residue check at HALT (R222). -/
def ctrResidue (s : State) (c t : Nat) : State :=
  (ctrsOf s c t).foldl (fun s n =>
    let base := getF s (rCTR_BASE c n) 0 16
    if ctrValue s c n = base then s
    else raiseCore (setF s (rCTR_STAT c n) 0 1 1) c t cRESIDUE 0 0 0 (ctrDetail s c n + 2 ^ 26 * base) 0) s

/-- Whether any slot waits on a counter or holds a reservation on it (Table 09-1). -/
def ctrBusy (s : State) (c n : Nat) : Bool :=
  (List.range 4).any fun t => decide ((slotOf s c t).wait.map (fun w => match w with | .ctr m _ => m == n | _ => false) = some true) ||
    decide (0 < resvOf s c n t)

-- messages (R224 to R236) ----------------------------------------------------------------------------------------

def credOutOf (s : State) (c o : Nat) : Nat := mget (fun _ => 0) (coreOf s c).credOut o
def setCredOut (s : State) (c o n : Nat) : State := modCore s c fun k => { k with credOut := mset (fun _ => 0) k.credOut o n }
def reclaimOf (s : State) (c o : Nat) : Nat := mget (fun _ => 0) (coreOf s c).reclaim o
def setReclaim (s : State) (c o n : Nat) : State := modCore s c fun k => { k with reclaim := mset (fun _ => 0) k.reclaim o n }

def strayedOf (s : State) (c o : Nat) : Nat := mget (fun _ => 0) (coreOf s c).strayed o
def setStrayed (s : State) (c o n : Nat) : State := modCore s c fun k => { k with strayed := mset (fun _ => 0) k.strayed o n }

/-- A credit reaches its sender: that of a written-off token is stray (R424), else the reclaim count falls first (R422), else CREDITS rises (R226). A credit of
no outstanding message is stray. The second component says that the message is not a reclaimed one. -/
def credBack (s : State) (c o : Nat) : State × Bool :=
  if 0 < strayedOf s c o then (satF (setStrayed s c o (strayedOf s c o - 1)) (ledgerBase qCHCRED + 28) 16 16 1, false)
  else if 0 < reclaimOf s c o then (ledReturn1 (setReclaim s c o (reclaimOf s c o - 1)) qCHCRED, false)
  else if 0 < credOutOf s c o then
    (ledReturn1 (setCredOut (setF s (rOCH_CRED c o) 0 6 (getF s (rOCH_CRED c o) 0 6 + 1)) c o (credOutOf s c o - 1)) qCHCRED, true)
  else (satF s (ledgerBase qCHCRED + 28) 16 16 1, false)

/-- CREDIT_RETURN: a credit on its way to a channel of this package arrives. -/
def creditReturn (s : State) (c o : Nat) : State :=
  if (c, o) ∈ s.credits then (credBack { s with credits := s.credits.erase (c, o) } c o).1 else s

/-- A dropped packet counts in DROP of a port. -/
def portDrop (s : State) (p : Nat) : State := satF s (rFAB_CNT p) 16 16 1

/-- A response packet leaves on its first hop, or is dropped and counted where no port carries it (R327). -/
def fabRespond (s : State) (k : Packet) : State :=
  match route s k.hdr.dstPkg none 0 with
  | .port p cls => txPush s p cls k
  | .status _ p => portDrop s p

/-- The credit of a request leaves for its sender: within the package, or as a CREDIT packet that names the tracker entry (R226, R335). -/
def creditToSender (s : State) (m : RingMsg) : State :=
  let h := m.words.headD 0
  if hdrPkg h = ownPkg s then { s with credits := s.credits ++ [(hdrCore h, hdrOch h)] }
  else fabRespond s ⟨{ mkHdr 7 (hdrPkg h) (ownPkg s) m.tag m.tgen (hdrOch h) 0 with score := hdrCore h }, [], []⟩

/-- RSV of a reply end changed by one reservation that ends without a reply (R231, R338). -/
def dropRsv (s : State) (c e : Nat) : State :=
  if 0 < ichRsv s c e then ledReturn1 (setF s (rICH_STAT c e) 8 6 (ichRsv s c e - 1)) qRING else s

/-- The held-message rule of R231. -/
def holdMsg (s : State) (c o : Nat) (ws : List (BitVec 64)) : State :=
  if getB s (rOCH_STAT c o) 1 then satF s (rOCH_STAT c o) 16 16 1
  else
    let s1 := (List.range 8).foldl (fun s i => setR64 s (rOCH_HELD c o + 8 * i) (ws.getD i 0).toNat) s
    setF s1 (rOCH_STAT c o) 1 1 1

/-- The effects of a returned request at its sender (R231, R422). `cls` is the class raised at home tier 2. -/
def msgReturned (s : State) (c o t cls : Nat) (full rres : Bool) (ws : List (BitVec 64)) : State :=
  let (s1, mine) := credBack s c o
  let s2 := if rres then dropRsv s1 c (hdrRply (ws.headD 0)) else s1
  let s3 := setF (holdMsg s2 c o ws) (rOCH_STAT c o) 0 1 1
  let s4 := if full then setF s3 (rOCH_STAT c o) 2 1 1 else s3
  if mine then raiseCore s4 c t cls 2 2 0 o (ws.headD 0).toNat else s4

/-- MESSAGE_RETURN (R231): the oldest refused request of a channel reaches its sender. -/
def messageReturn (s : State) (c o : Nat) : State :=
  match s.refusals.find? (fun r => r.core == c && r.och == o) with
  | none => s
  | some r =>
    let s1 := { s with refusals := s.refusals.erase r }
    msgReturned s1 c o r.slot (if r.rank then cRANK else cCLOSED) r.full (hdrRres (r.words.headD 0)) r.words

/-- A message enters a ring (R225, R229): a reply fills its reservation, another message takes a ring slot. -/
def enterRing (s : State) (c e : Nat) (m : RingMsg) : State :=
  let h := m.words.headD 0
  let s1 := if !hdrReq h && decide (0 < ichRsv s c e) then setF s (rICH_STAT c e) 8 6 (ichRsv s c e - 1) else ledIssue s qRING 1
  let s2 := setRing s1 c e (ringOf s1 c e ++ [m])
  let s3 := if ichState s2 c e = 2 then satF s2 (rICH_CNT c e) 0 16 1 else s2
  if ichState s3 c e = 0 then grantMsg s3 c e else s3

/-- An error response of the fabric (R338): its status, its tag, and the bytes it carries. ADDR of a REFUSED message tells 1 for a wrong rank and 2 for a full ring
(entry 19). -/
def fabError (s : State) (hdr : PktHdr) (status why : Nat) (payload : List Byte) : State :=
  fabRespond s ⟨{ mkHdr 5 hdr.srcPkg (ownPkg s) hdr.tag hdr.tgen why payload.length with status := status }, payload, []⟩

/-- An ACK (Table 15-4). -/
def fabAck (s : State) (hdr : PktHdr) : State := fabRespond s ⟨mkHdr 4 hdr.srcPkg (ownPkg s) hdr.tag hdr.tgen 0 0, [], []⟩

/-- A request is refused at its destination end (R226, R227, R231): it goes back to its sender. -/
def refuse (s : State) (f : Flight) (rank full : Bool) : State :=
  let h := f.words.headD 0
  let s1 := satF s (rICH_CNT2 f.core f.ich) 0 16 1
  match f.remote with
  | some (_, hdr) => fabError s1 hdr 8 (if rank then 1 else if full then 2 else 0) (wordBytes f.words)
  | none => { s1 with refusals := s1.refusals ++ [⟨hdrCore h, hdrOch h, f.slot, f.words, rank, full⟩] }

/-- A message meets its end: a CLOSED end, a wrong rank or a full ring refuses a request (R231, R227, R226). -/
def arriveAt (s : State) (f : Flight) : State :=
  let h := f.words.headD 0
  let m : RingMsg := match f.remote with | some (_, hdr) => { words := f.words, tag := hdr.tag, tgen := hdr.tgen } | none => { words := f.words }
  let enter := fun (s : State) =>
    let s1 := enterRing s f.core f.ich m
    match f.remote with
    | some (_, hdr) => fabAck s1 hdr
    | none => s1
  if hdrReq h = false then enter s
  else if ichState s f.core f.ich = 1 then refuse s f false false
  else if hdrDrank h ≠ getF s (rICH_CFG f.core f.ich) 0 12 then
    let s1 := raiseEv s (f.core / 64) { cls := cRANK, sev := 2, home := 0, ukind := 0, uindex := f.core, detail := f.ich, aux := h.toNat }
    refuse s1 f true false
  else if 32 ≤ (ringOf s f.core f.ich).length + ichRsv s f.core f.ich then refuse s f false true
  else enter s

/-- Whether a message comes from a channel. -/
def ofChannel (pkg src och : Nat) (f : Flight) : Bool :=
  hdrPkg (f.words.headD 0) == pkg && hdrCore (f.words.headD 0) == src && hdrOch (f.words.headD 0) == och

/-- MESSAGE_ARRIVE (R225, R234): the oldest message under way from a channel to a core arrives; not while an earlier one of the channel is in the stream network. -/
def messageArrive (s : State) (c pkg src och : Nat) : State :=
  match s.flights.find? (fun f => f.core == c && ofChannel pkg src och f) with
  | none => s
  | some f =>
    if (netLoads s).any (fun p => match p.2 with | .msg g => f.remote.isNone && ofChannel pkg src och g && decide (g.n < f.n) | _ => false) then s
    else arriveAt { s with flights := s.flights.erase f } f

-- SEND ---------------------------------------------------------------------------------------------------------------

def ochValid (s : State) (c o : Nat) : Bool := getB s (rOCH_CFG c o) 0
def ochReply (s : State) (c o : Nat) : Bool := getB s (rOCH_CFG c o) 1
def ochRres (s : State) (c o : Nat) : Bool := getB s (rOCH_CFG c o) 2
def ochEnd (s : State) (c o : Nat) : Nat := getF s (rOCH_CFG c o) 3 4
def ochRply (s : State) (c o : Nat) : Nat := getF s (rOCH_CFG c o) 7 4
def ochDrank (s : State) (c o : Nat) : Nat := getF s (rOCH_CFG c o) 11 12
def ochCore (s : State) (c o : Nat) : Nat := getF s (rOCH_CFG c o) 23 8
def ochPkg (s : State) (c o : Nat) : Nat := getF s (rOCH_DEST c o) 0 16

/-- The eight words of the message a SEND forms (R156, R224). -/
def sendWords (s : State) (c t w : Nat) : List (BitVec 64) :=
  let o := sendOch w
  let req := !ochReply s c o
  let h := msgHeader (sendHandler w) (sendLen w) req (req && ochRres s c o) false false c o (ownPkg s) (ochDrank s c o) (ochRply s c o)
  let pay := (List.range (sendLen w)).map fun i => sregNow s c t (sendSx w + i)
  h :: (pay ++ List.replicate (7 - pay.length) 0)

/-- The fault of a SEND at issue, if any (R466): its own state change and event. Checked in this order: the channel is valid, it is not
closed, a reply has its reference, the rank rises, the destination core is present. -/
def sendFault (s : State) (c t idx w : Nat) : Option State :=
  let o := sendOch w
  let ws := sendWords s c t w
  let h := (ws.headD 0).toNat
  if ochValid s c o = false then some (illegal s c t 2 idx w)
  else if getB s (rOCH_STAT c o) 0 then some (raiseCore (holdMsg s c o ws) c t cCLOSED 2 2 0 o h)
  else if ochReply s c o then
    if bits (getR64 s (rICH_REPLY c (ochEnd s c o))) 0 1 = 0 then some (illegal s c t 2 idx w) else none
  else if ochDrank s c o ≤ getF s (rTASK_RANK c t) 0 12 then some (raiseCore s c t cRANK 2 2 0 o h)
  else if ochPkg s c o = ownPkg s ∧ corePresent s (ochCore s c o) = false then
    some (raiseCore s c t cABSENT 2 2 (ochCore s c o) (ochCore s c o) 0)
  else none

/-- Whether a SEND that does not fault may issue (R228, R229, R289, R336). -/
def sendReady (s : State) (c w : Nat) : Bool :=
  let o := sendOch w
  if ochReply s c o then
    let r := getR64 s (rICH_REPLY c (ochEnd s c o))
    (coreOf s c).owed.isEmpty && msgRoom s c (bits r 16 16) (bits r 8 8)
  else
    decide (1 ≤ getF s (rOCH_CRED c o) 0 6) &&
      (!ochRres s c o || decide ((ringOf s c (ochRply s c o)).length + ichRsv s c (ochRply s c o) < 32)) &&
      msgRoom s c (ochPkg s c o) (ochCore s c o)

/-- The class an error status has at its requester (Table 15-3). -/
def statusClass (st : Nat) : Nat := if st = 1 then cSP_BOUNDS else if st = 2 then cABSENT else if st = 3 then cFIRN_UE else if st = 8 then cCLOSED else cLINKDOWN

/-- A message request to another package fails with a status other than REFUSED (R338): it is held, the credit comes back, the reservation is filled with a null
reply, and the slot faults. -/
def msgFailed (s : State) (c o t st : Nat) (rres : Bool) (ws : List (BitVec 64)) : State :=
  let e := hdrRply (ws.headD 0)
  let (s1, mine) := credBack s c o
  let s2 := setF (holdMsg s1 c o ws) (rOCH_STAT c o) 0 1 1
  let s3 := if rres then enterRing s2 c e { words := emptyMsg (msgHeader 63 0 false false false true c 0 (ownPkg s) 0 0) } else s2
  if mine then
    stopFloeOf (raiseCore s3 c t (statusClass st) 2 (if statusClass st = cLINKDOWN then 1 else 2) 0 (o + 16 * st) (ws.headD 0).toNat) c t
  else s3

/-- A reply to another package ends with an error status (R338). -/
def replyFailed (s : State) (c st : Nat) : State :=
  raiseEv s (c / 64) { cls := statusClass st, sev := 2, home := 1, ukind := 0, uindex := c, detail := 16 * st }

/-- A reply leaves its core. -/
def sendReply (s : State) (c pkg core ich slot : Nat) (ws : List (BitVec 64)) : State :=
  match sendMessage s c pkg core ich slot (.reply c) ws with
  | (s1, none) => s1
  | (s1, some st) => replyFailed s1 c st

/-- The oldest reply that a core owes leaves once its way has room (R230, R289, R336). -/
def owedRun (s : State) (c : Nat) : State :=
  match (coreOf s c).owed with
  | (pkg, core, ich, ws) :: r => if msgRoom s c pkg core then sendReply (modCore s c fun k => { k with owed := r }) c pkg core ich 0 ws else s
  | [] => s

/-- SEND acts (R224, R226, R228, R229). -/
def sendRun (s : State) (c t w : Nat) : State :=
  let o := sendOch w
  let ws := sendWords s c t w
  if ochReply s c o then
    let e := ochEnd s c o
    let r := getR64 s (rICH_REPLY c e)
    sendReply (setR64 s (rICH_REPLY c e) 0) c (bits r 16 16) (bits r 8 8) (bits r 4 4) t ws
  else
    let s1 := ledIssue (setCredOut (setF s (rOCH_CRED c o) 0 6 (getF s (rOCH_CRED c o) 0 6 - 1)) c o (credOutOf s c o + 1)) qCHCRED 1
    let rres := ochRres s c o
    let s2 := if rres then ledIssue (setF s1 (rICH_STAT c (ochRply s c o)) 8 6 (ichRsv s1 c (ochRply s c o) + 1)) qRING 1 else s1
    let tag := trkFree s2
    match sendMessage s2 c (ochPkg s c o) (ochCore s c o) (ochEnd s c o) t (.message c o t ws rres) ws with
    | (s3, none) =>
      if ochPkg s c o = ownPkg s then s3
      else modCore s3 c fun k => { k with live := k.live ++ [(o, tag, (trkOf s2 tag).gen)] }
    | (s3, some st) => msgFailed s3 c o t st rres ws

-- RECV ---------------------------------------------------------------------------------------------------------------

/-- The handler entry of a slot for a message (R233). -/
def handlerOf (s : State) (c t : Nat) (h : BitVec 64) : Nat := (getR s (rHTAB c t (hdrHandler h))).toNat

/-- The message a slot's RECV pops: the one reserved for it, else the oldest that no slot has reserved (R232). -/
def recvMsg (s : State) (c t e : Nat) : Option RingMsg :=
  match (ringOf s c e).find? fun m => m.resv == some t with
  | some m => some m
  | none => (ringOf s c e).find? fun m => m.resv.isNone

/-- The fault of a RECV at its completion, if any (R232, R233). -/
def recvFault (s : State) (c t idx w : Nat) : Option State :=
  let e := recvIch w
  if ichState s c e ≠ 0 then some (raiseCore s c t cCLOSED 2 2 0 e 0)
  else match recvMsg s c t e with
    | none => none
    | some m =>
      let en := handlerOf s c t (m.words.headD 0)
      if parBad s c 2 e then some (sramParity (parClear s c 2 e) c t 2)
      else if bits en 14 1 = 0 then some (illegal s c t 2 idx w)
      else if bits en 13 1 = 1 ∧ ((slotOf s c t).loops ≠ [] ∨ mates s c t ≠ []) then some (illegal s c t 6 idx w)
      else none

/-- A message leaves its ring by RECV or flush: its ring slot and a request's credit return (R419, R226). -/
def popped (s : State) (m : RingMsg) : State :=
  let s1 := ledReturn1 s qRING
  if hdrReq (m.words.headD 0) then creditToSender s1 m else s1

/-- RECV completes (R232): its message goes to s[SD] onward, behind the vector words that wait (R92); a request that expects a reply leaves its reference (R229, R230). The answer's second
component is the word a dispatching handler continues at (R233). -/
def recvRun (s : State) (c t w : Nat) : State × Option Nat :=
  let e := recvIch w
  match recvMsg s c t e with
  | none => (s, none)
  | some m =>
    let h := m.words.headD 0
    let en := handlerOf s c t h
    let s1 := popped (setRing s c e ((ringOf s c e).erase m)) m
    let s2 := putSreg s1 c t (recvSd w) h
    let s3 := (List.range 7).foldl (fun s i => putSreg s c t (recvSd w + 1 + i) (if i < hdrLen h then m.words.getD (i + 1) 0 else 0)) s2
    let s4 := modSlot s3 c t fun x => { x with mres := none, wait := none }
    let s5 := if hdrReq h && hdrRres h then
        setR64 (nullReply s4 c e true) (rICH_REPLY c e) (1 + 16 * hdrRply h + 2 ^ 8 * hdrCore h + 2 ^ 16 * hdrPkg h)
      else s4
    (s5, if bits en 13 1 = 1 then some (bits en 0 13) else none)

-- ends (R235, R236) -----------------------------------------------------------------------------------------------------

def setIchState (s : State) (c e v : Nat) : State := setF s (rICH_STAT c e) 0 2 v

/-- An OPEN end closes: its reply reference is answered (R230, R235). -/
def closeEnd (s : State) (c e : Nat) : State :=
  if ichState s c e = 0 then nullReply (setIchState s c e 1) c e true else s

/-- Ends with AUTOCLOSE close at the HALT of their owner (R235). -/
def autoClose (s : State) (c t : Nat) : State :=
  (List.range 16).foldl (fun s e =>
    if getF s (rICH_CFG c e) 13 2 = t ∧ getB s (rICH_CFG c e) 15 then closeEnd s c e else s) s

/-- One discarded message (R236). -/
def flushOne (s : State) (c e : Nat) (m : RingMsg) : State :=
  let h := m.words.headD 0
  let s1 := satF (popped s m) (rICH_CNT c e) 16 16 1
  if hdrReq h && hdrRres h then
    oweReply s1 c (hdrPkg h) (hdrCore h) (hdrRply h) (emptyMsg (msgHeader 63 0 false false true false c 0 (ownPkg s) 0 (e % 16)))
  else s1

/-- REOPEN (R235, R236): a CLOSED or RESET_HOLD end opens; with flush its messages are discarded first, oldest first. -/
def reopenEnd (s : State) (c e : Nat) (flush : Bool) : State :=
  if ichState s c e = 0 then s
  else if flush then
    let ms := ringOf s c e
    let s1 := ms.foldl (fun s m => flushOne s c e m) (setRing s c e [])
    let s2 := (List.range 4).foldl (fun s t => if (slotOf s c t).mres = some e then modSlot s c t fun x => { x with mres := none } else s) s1
    setIchState s2 c e 0
  else grantMsg (setIchState s c e 0) c e

/-- A write of ICH_CTL (R235): CLOSE, REOPEN, FLUSH. -/
def ichCtl (s : State) (c e v : Nat) : State :=
  let close := bits v 0 1 == 1
  let reopen := bits v 1 1 == 1
  if close && reopen then s
  else if close then closeEnd s c e
  else if reopen then reopenEnd s c e (bits v 2 1 == 1)
  else s

end Sys2Proof.Machine
end

