-- ==== Sys2Proof/Machine/Firn.lean ====
section
/-! DEFINITION. Firn as a memory (07_firn.md): the address mapping, the Reed-Solomon code of a beat, reads and writes of beats with their error records,
and the mirror's hold on writes (R351). `mem` holds a stack's bytes by physical place, numbered as the interleaved mapping numbers them; `beatErr` holds
what a stored codeword differs by from the one last written. -/

namespace Sys2Proof.Machine

-- geometry (R158, R164) ------------------------------------------------------------------------------------------

/-- Whether a device address lies in firn (Table 01-4). -/
def isFirn (a : Nat) : Bool := decide (a < 2 ^ 38)
/-- FIRN_MAP.MODE of a stack: true is interleaved. -/
def mapMode (s : State) (k : Nat) : Bool := getB s (rFIRN_MAP k) 0

/-- The interleaved-mode offset of the place that a stack offset reaches (R164). -/
def firnPlace (inter : Bool) (off : Nat) : Nat :=
  if inter then off
  else
    let l := bits off 27 6
    let b := bits off 23 4
    let r := bits off 11 12
    let lo := bits off 0 11
    let loc := 2 ^ 15 * r + 2 ^ 11 * b + lo
    2 ^ 14 * (loc / 256) + 256 * l + loc % 256

/-- The stack offset that reaches a place. -/
def firnOffset (inter : Bool) (p : Nat) : Nat :=
  if inter then p
  else
    let l := bits p 8 6
    let loc := p / 2 ^ 14 * 256 + p % 256
    2 ^ 27 * l + 2 ^ 23 * bits loc 11 4 + 2 ^ 11 * (loc / 2 ^ 15) + loc % 2 ^ 11

/-- Channel, bank and row of a place. -/
def placeChan (p : Nat) : Nat := bits p 8 6
def placeLocal (p : Nat) : Nat := bits p 14 19 * 256 + p % 256
def placeBank (p : Nat) : Nat := bits (placeLocal p) 11 4
def placeRow (p : Nat) : Nat := placeLocal p / 2 ^ 15

/-- The key in `mem` of a device address: firn by physical place, a store by its address. -/
def memKey (s : State) (a : Nat) : Nat :=
  if isFirn a then firnBase (a / 2 ^ 33) + firnPlace (mapMode s (a / 2 ^ 33)) (a % 2 ^ 33) else a

-- the code of a beat (R172) ---------------------------------------------------------------------------------------

/-- Multiplication by α in GF(2^8). -/
def gfDouble (x : Nat) : Nat := if x < 128 then 2 * x else (2 * x) ^^^ 0x11D
/-- Product in GF(2^8), over the bits of the second factor. -/
def gfMul (a b : Nat) : Nat :=
  ((List.range 8).foldl (fun (p : Nat × Nat) i => (if bits b i 1 = 1 then p.1 ^^^ p.2 else p.1, gfDouble p.2)) (0, a)).1
/-- α to a power. -/
def gfPow : Nat → Nat
  | 0 => 1
  | n + 1 => gfDouble (gfPow n)
/-- The exponent of a symbol, and the symbol of an exponent. -/
def symExp (i : Nat) : Nat := if i < 32 then i + 4 else i - 32
def expSym (e : Nat) : Nat := if 4 ≤ e then e - 4 else 32 + e
/-- Symbol i of an error pattern. -/
def errSym (e : BitVec 288) (i : Nat) : Nat := bits e.toNat (8 * i) 8
/-- Syndrome j: a codeword has none, so it depends on the error alone. -/
def syndrome (e : BitVec 288) (j : Nat) : Nat :=
  (List.range 36).foldl (fun a i => if errSym e i = 0 then a else a ^^^ gfMul (errSym e i) (gfPow (j * symExp i % 255))) 0

/-- What the decoder of R172 finds: no syndrome, one symbol to correct with the pattern that then stays, or an uncorrectable beat. -/
inductive Ecc where
  | clean
  | fixed (sym : Nat) (rest : BitVec 288)
  | bad
  deriving DecidableEq, Repr

/-- The decoder of R172. -/
def eccDecode (e : BitVec 288) : Ecc :=
  if e = 0 then .clean
  else
    let s0 := syndrome e 0
    let s1 := syndrome e 1
    let s2 := syndrome e 2
    let s3 := syndrome e 3
    if s0 = 0 ∧ s1 = 0 ∧ s2 = 0 ∧ s3 = 0 then .clean
    else match (if s0 = 0 then none else (List.range 36).find? fun x =>
        s1 == gfMul s0 (gfPow x) && s2 == gfMul s0 (gfPow (2 * x % 255)) && s3 == gfMul s0 (gfPow (3 * x % 255))) with
      | some x => .fixed (expSym x) (e ^^^ BitVec.ofNat 288 (s0 * 2 ^ (8 * expSym x)))
      | none => .bad

/-- The error pattern of a beat, by the key of its first byte over 32. -/
def beatErrOf (s : State) (key : Nat) : BitVec 288 := mget (fun _ => 0) s.beatErr (key / 32)
def setBeatErr (s : State) (key : Nat) (e : BitVec 288) : State := { s with beatErr := mset (fun _ => 0) s.beatErr (key / 32) e }

/-- The 32 data bytes a read delivers: the bytes written, off by what the decoder leaves. -/
def beatBytes (s : State) (key : Nat) (rest : BitVec 288) : List Byte :=
  (List.range 32).map fun i => rdByte s (key + i) ^^^ BitVec.ofNat 8 (errSym rest i)

-- records (R173, R176) -----------------------------------------------------------------------------------------------

/-- Who makes an access: the requester code of Table 19-2, the SOURCE of Table 07-6, the home tier and owner of a FIRN_UE (Table 07-5), and the core whose requests it
shares a port with. -/
structure FirnWho where
  req   : Nat
  src   : Nat
  home  : Nat
  owner : Option (Nat × Nat)
  sev   : Nat := 2
  core  : Option Nat := none
  deriving DecidableEq, Repr

def whoHost : FirnWho := ⟨3, 0, 1, none, 2, none⟩
def whoFabric : FirnWho := ⟨4, 0, 1, none, 2, none⟩
def whoScrub : FirnWho := ⟨5, 2, 1, none, 0, none⟩
def whoDesc (c t : Nat) : FirnWho := ⟨0, 0, 2, some (c, t), 2, some c⟩
def whoNear (c t : Nat) : FirnWho := ⟨1, 0, 2, some (c, t), 2, some c⟩
/-- The same requester in a read-modify-write. -/
def asRmw (w : FirnWho) : FirnWho := { w with req := 2, src := 1 }

/-- FIRN_CE or FIRN_UE of a beat: the stack's record and counts, then the moraine (R176). -/
def firnEvent (s : State) (key sym : Nat) (ue : Bool) (w : FirnWho) : State :=
  let k := key / 2 ^ 33
  let p := key % 2 ^ 33 / 32 * 32
  let off := firnOffset (mapMode s k) p
  let held := getB s (rFIRN_ERR_STAT k) 0
  let heldUe := getB s (rFIRN_ERR_STAT k) 1
  let stat := 1 + (if ue then 2 else 0) + 4 * w.src + 16 * placeChan p + 2 ^ 10 * placeBank p + 2 ^ 14 * sym
  let s1 := if !held || (ue && !heldUe) then setR64 (setR s (rFIRN_ERR_STAT k) (BitVec.ofNat 32 stat)) (rFIRN_ERR_ADDR k) off else s
  let s2 := satF s1 (rFIRN_ERR_CNT k) (if ue then 16 else 0) 16 1
  raiseEv s2 (k / 8) { cls := if ue then cFIRN_UE else cFIRN_CE, sev := if ue then w.sev else 1, home := if ue then w.home else 0, ukind := 1, uindex := k, owner := if ue then w.owner else none, addr := firnBase k + off, detail := placeChan p + 64 * placeBank p + 1024 * sym + 65536 * w.req }

-- reads and writes -----------------------------------------------------------------------------------------------------

/-- A beat is read and checked (R172, R173): its bytes, or none when it is poisoned. -/
def readBeat (s : State) (key : Nat) (w : FirnWho) : State × Option (List Byte) :=
  match eccDecode (beatErrOf s key) with
  | .clean => (s, some (beatBytes s key (beatErrOf s key)))
  | .fixed sym rest => (firnEvent s key sym false w, some (beatBytes s key rest))
  | .bad => (firnEvent s key 63 true w, none)

/-- The piece of a beat that starts at a key: its length at most n. -/
def beatPiece (key n : Nat) : Nat := min n (32 - key % 32)

/-- Bytes read from consecutive keys of one block, up to the first poisoned beat. The last component tells whether one was met. -/
def readKeys (s : State) (w : FirnWho) : Nat → Nat → Nat → State × List Byte × Bool
  | 0, _, _ => (s, [], false)
  | fuel + 1, key, n =>
    if n = 0 then (s, [], false)
    else
      let m := beatPiece key n
      match readBeat s (key / 32 * 32) w with
      | (s1, none) => (s1, [], true)
      | (s1, some bs) =>
        let r := readKeys s1 w fuel (key + m) (n - m)
        (r.1, (bs.drop (key % 32)).take m ++ r.2.1, r.2.2)

/-- One beat written (R163, R174): whole, with new check symbols; or by read-modify-write, which an uncorrectable beat refuses. The second component tells
that the merge met a poisoned beat. -/
def writeBeat (s : State) (key : Nat) (bs : List Byte) (w : FirnWho) : State × Bool :=
  if bs.length = 32 then (setBeatErr (wrBytes s key bs) key 0, false)
  else
    let b := key / 32 * 32
    match readBeat s b (asRmw w) with
    | (s1, none) => (s1, true)
    | (s1, some old) =>
      let o := key % 32
      (setBeatErr (wrBytes s1 b (old.take o ++ bs ++ old.drop (o + bs.length))) b 0, false)

/-- Bytes written at consecutive keys of one block. Every beat but a poisoned one is written (Table 07-5). -/
def writeKeys (s : State) (w : FirnWho) : Nat → Nat → List Byte → State × Bool
  | 0, _, _ => (s, false)
  | fuel + 1, key, bs =>
    if bs.isEmpty then (s, false)
    else
      let m := beatPiece key bs.length
      let (s1, p) := writeBeat s key (bs.take m) w
      let (s2, q) := writeKeys s1 w fuel (key + m) (bs.drop m)
      (s2, p || q)

/-- Whether a write leaves bytes of a beat unmasked (R163). -/
def needsMerge (off n : Nat) : Bool := off % 32 != 0 || (off + n) % 32 != 0

/-- The row a bank has open (R167): an access opens the row it needs. -/
def openRow (s : State) (key : Nat) : State :=
  let k := key / 2 ^ 33
  let p := key % 2 ^ 33
  let x := stackOf s k
  setStack s k { x with rows := minsert x.rows (16 * placeChan p + placeBank p) (placeRow p) }

-- the mirror's hold on writes (R349 to R351) -------------------------------------------------------------------------------

/-- MIR_CTL.MODE and ACTIVE. -/
def mirMode (s : State) : Nat := getF s rMIR_CTL 0 2
def mirActive (s : State) : Bool := getB s rMIR_CTL 2

/-- Base and size in bytes of a region in the layout that ACTIVE took (R350). -/
def mirBase (v : Nat) : Nat := bits v 21 27 * 2 ^ 21
def mirSize (v : Nat) : Nat := bits v 48 12 * 2 ^ 21

/-- The active region that n bytes at a device address reach. -/
def mirRegionAt (s : State) (a n : Nat) : Option (Nat × Nat) :=
  if mirActive s then
    s.mirror.layout.find? fun r => decide (a < mirBase r.2 + mirSize r.2) && decide (mirBase r.2 < a + n)
  else none

/-- A foreign write on the secondary (R351). -/
def mirForeign (s : State) (a n : Nat) : Bool := mirMode s == 2 && (mirRegionAt s a n).isSome

/-- The DELTA of n bytes at a device address on the primary: none when no region is reached. -/
def mirDelta (s : State) (a : Nat) (bs : List Byte) : Option Packet :=
  if mirMode s = 1 then
    (mirRegionAt s a bs.length).map fun r =>
      ⟨{ mkHdr 12 (getF s (rFAB_STAT 0) 16 16) (ownPkg s) 0 0 (a - mirBase r.2) bs.length with regions := r.1 }, bs, List.replicate bs.length true⟩
  else none

/-- Whether a DELTA holds a mirror credit (R351): flits of VL 3 on port 0. -/
def mirRoom (s : State) (k : Packet) : Bool := decide (portUsed (portOf s 0) 6 + flitsOf k ≤ vlAllot 3) && (txOf (portOf s 0) 6).isEmpty

/-- Deltas of a region that no commit covers. -/
def mirDeltas (s : State) (r : Nat) : Nat := mget (fun _ => 0) s.mirror.deltas r
def setMirDeltas (s : State) (r n : Nat) : State := { s with mirror := { s.mirror with deltas := mset (fun _ => 0) s.mirror.deltas r n } }

/-- A DELTA leaves. -/
def mirSend (s : State) (k : Packet) : State := txPush (setMirDeltas s k.hdr.regions (mirDeltas s k.hdr.regions + 1)) 0 0 k

/-- ISSUED − DONE. -/
def mirBehind (s : State) : Nat := ((getR s rMIR_SEQ).toNat + 2 ^ 32 - (getR s (rMIR_SEQ + 4)).toNat) % 2 ^ 32

/-- LAGGING goes from 0 to 1 (R354). -/
def mirLagging (s : State) : State :=
  if getB s rMIR_STAT 2 then s
  else
    let s1 := setF s rMIR_STAT 2 1 1
    hostIrq (raiseEv s1 0 { cls := cMIRLAG, sev := 0, home := 0, ukind := 4, uindex := 0, detail := mirBehind s }) 10

end Sys2Proof.Machine
end

