-- ==== Sys2Proof/Machine/Mxe.lean ====
section
/-! DEFINITION. The matrix engine (03_matrix_engine.md): MXGO and its checks, weight columns, pass sums and accumulation,
checksums and their actions, and the drain. -/

namespace Sys2Proof.Machine

/-- Bytes of one weight column, and its MX scale bytes in the present pass (R63, R188). -/
def colBytes (o : MxOp) : Nat := 16 * fmtWidth (opWt o)
def colScales (o : MxOp) : Nat :=
  if fmtIsMx (opWt o) then (if o.pass < opKp o then 4 else opKtLast o / 32 + 1) else 0
/-- Scale bytes that a whole pass of an operation takes (R63). -/
def passNeed (o : MxOp) (p : Nat) : Nat := if fmtIsMx (opWt o) then (if p < opKp o then 4 else opKtLast o / 32 + 1) * opNt o else 0
/-- The scale bytes of the next passes, two at most of each queued operation, that have not begun. -/
def passNeeds (q : List MxOp) : List Nat :=
  q.flatMap fun o => if o.entered || !fmtIsMx (opWt o) then []
    else ([0, 1].map (o.pass + (if o.passScales.isEmpty then 0 else 1) + ·)).filterMap fun p => if p ≤ opKp o then some (passNeed o p) else none
/-- Positions of the present pass that are not padding (R60). -/
def passPos (o : MxOp) : Nat := if o.pass < opKp o then 128 else opKtLast o + 1

/-- Word of the accumulator buffer (R68). An operation that continues (ACC_CONT = 1) in the other feed finds the same words in this order (DESIGN CHOICE, entry 102). -/
def accWord (split : Bool) (row col : Nat) : Nat := row * (if split then 1024 else 512) + col

-- MXGO ------------------------------------------------------------------------------------------------------------

/-- A staging register by its number within its unit (Table 06-4); keys are 256 · unit + REG. -/
def stagReset (k : Nat) : BitVec 32 :=
  if k = 0x200 then 0x0900_0000 else if k = 0x201 then 0x7F7F else if k = 0x204 then 0x10 else 0
def stag (s : State) (c unit reg : Nat) : BitVec 32 := mget stagReset (coreOf s c).stag (256 * unit + reg)
def setStag (s : State) (c unit reg : Nat) (v : BitVec 32) : State :=
  modCore s c fun k => { k with stag := mset stagReset k.stag (256 * unit + reg) v }

/-- The defined bits of a staging register (Tables 03-3 to 03-5, 05-3, 06-5); the others are discarded (R10, R148). -/
def stagMask (unit reg : Nat) : Nat :=
  if unit = 2 then
    (match reg with | 0 => 0x3F7F_1F1F | 1 => 0x03FF_7F7F | 2 => 0xFFFF | 3 => 0x01FF_01FF | _ => 0xFF3F)
  else if unit = 1 then
    (if reg < 2 then 0x1F_FFFF else if reg = 2 then 0xFFFF_FFFF
     else if reg = 0x18 ∨ reg = 0x19 then 0x7F_FFFF else if reg = 0x1A ∨ reg = 0x1B then 0xFFFF
     else if reg = 0x21 then 0x1F else if 0x24 ≤ reg ∧ reg < 0x27 then 0xFFFF
     else if reg = 0x30 then 0x3F3F else 0xFFFF_FFFF)
  else (if reg = 1 then 0x3F3F else if 4 ≤ reg ∧ reg < 7 then 0xFFFF else 0xFFFF_FFFF)

/-- A configuration value that places an illegal specifier (R27, R148). -/
def stagBadFmt (unit reg v : Nat) : Bool :=
  if unit = 2 ∧ reg = 0 then !fmtMxeIn (bits v 0 5) || !fmtMxeIn (bits v 8 5) || fmtIllegal (bits v 16 5)
  else if unit = 1 ∧ reg = 0x21 then fmtIllegal (bits v 0 5)
  else if unit = 3 ∧ reg = 1 then fmtIllegal (bits v 0 5)
  else false

/-- The operation an MXGO would start from the staging set (R64, R149). Its first column's nominal cycle is 2 cycles on, or follows the operation ahead (R64, R66). -/
def mxLatch (s : State) (c t idx w : Nat) : MxOp :=
  let o : MxOp := {
    slot := t, index := idx, word := BitVec.ofNat 64 w, mode := stag s c 2 0, shape := stag s c 2 1, passes := stag s c 2 2,
    slots := stag s c 2 3, tol := stag s c 2 4, wt := stag s c 1 0x30, opseq := getR s (rMX_OPSEQ c),
    supplied := slotScale s c (bits (stag s c 2 3).toNat 16 9) (bits (stag s c 2 0).toNat 16 5), start := floeNow s c t + 2 }
  match (coreOf s c).mxq.getLast? with
  | some p => { o with start := max o.start (opNext p) }
  | none => o

/-- The REASON with which an MXGO faults: a class mismatch (R52) or a shape beyond its limit (R62). -/
def mxgoBad (o : MxOp) : Option Nat :=
  if fmtIsFloat (opIn o) != fmtIsFloat (opWt o) then some 3
  else if (opSplit o && decide (63 < opMt o)) || (!opSplit o && decide (512 < opNt o)) then some 4
  else none

/-- MXGO: one operation joins the queue (R64), numbered by MX_OPSEQ (R84). -/
def mxgoRun (s : State) (c t idx w : Nat) : State :=
  let o := mxLatch s c t idx w
  let s1 := setR s (rMX_OPSEQ c) (getR s (rMX_OPSEQ c) + 1)
  modCore s1 c fun k => { k with mxq := k.mxq ++ [o] }

-- columns ------------------------------------------------------------------------------------------------------------

/-- Element codes of one column, position 0 first. -/
def colCodes (w : Nat) (bs : List Byte) : List Nat := unpackLanes w (leNat bs) 128

/-- Values of a weight column: positions beyond the pass read +0 (R37, R60). -/
def colValues (o : MxOp) (bs scales : List Byte) : List FV :=
  (List.range 128).zipWith (fun k c =>
    if passPos o ≤ k then .fin false 0 0
    else
      let v := decodeElem (opWt o) c
      if fmtIsMx (opWt o) then scaleFV ((scales.getD (k / 32) 0).toNat) v else v) (colCodes (fmtWidth (opWt o)) bs)

/-- Values of a tile row; rows the tile does not hold read +0 (R150), and so do positions beyond the pass. -/
def rowValues (o : MxOp) (tl : Tile) (i : Nat) : List FV :=
  match tl.rows[i]? with
  | none => List.replicate 128 (.fin false 0 0)
  | some r => (List.range 128).zipWith (fun k c =>
      if passPos o ≤ k then FV.fin false 0 0
      else
        let v := decodeElem (opIn o) c
        if fmtIsMx (opIn o) then scaleFV (r.scales.getD (k / 32) 0) v else v) r.codes

/-- The exact sum of products of two columns of values (R54). -/
def dotFV : List FV → List FV → FV
  | [a], [b] => a.mul b
  | a :: as, b :: bs => (a.mul b).add (dotFV as bs)
  | _, _ => .fin false 0 0

/-- Any NaN among values. -/
def anyNan (l : List FV) : Bool := l.any FV.isNan

/-- An integer value modulo 2^32 as an INT32 value (R55). -/
def wrap32 : FV → FV
  | .fin n m e => intFV (signed 32 (unsigned 32 (scaledInt n m e 0))) 0
  | v => v

/-- A value as a check forms it (R77): rounded once to FP32, or INT32 modulo 2^32. -/
def checkVal (fl : Bool) (v : FV) : FV :=
  if fl then dec32 (toFloat sp32 0 false v).code else wrap32 v

/-- Column sums s_k of the input tile over rows 0 to MT (R77). -/
def colSums (o : MxOp) (tl : Tile) : List FV :=
  let z : List FV := List.replicate 128 (.fin false 0 0)
  ((List.range (opMt o + 1)).foldl (fun acc i => acc.zipWith FV.add (rowValues o tl i)) z).map (checkVal (opFloat o))

/-- The accumulator after one column's pass sum (R54, R55): its code and flags. -/
def accumulate (o : MxOp) (old : Nat) (p : FV) (nanIn : Bool) : Res :=
  if opFloat o then finishOp sp32 (nanIn || (dec32 old).isNan) ((dec32 old).add p)
  else match p with
    | .fin n m e => ⟨unsigned 32 (signed 32 old + scaledInt n m e 0), 0⟩
    | _ => ⟨old, 0⟩

/-- Whether a column's words have a parity error on their read (R69). -/
def colParity (s : State) (c : Nat) (o : MxOp) (j : Nat) : Bool :=
  (List.range (opMt o + 1)).any fun i => parBad s c 0 (accWord (opSplit o) i j)

/-- What a column adds to the terms of the checks (R77): its row sums, its place in the vector of the half that takes it, and the corner. -/
def checkTerms (o : MxOp) (tl : Tile) (col : List FV) (rows : List (List FV)) : MxOp :=
  let j := o.col
  let f := opFloat o
  let none_ : FV := .fin false 0 0
  let ps := rows.map fun r => checkVal f (dotFV r col)
  let cj := checkVal f (dotFV (colSums o tl) col)
  let dj := ps.foldl FV.add none_
  let mj := ps.foldl (fun a p => a.add p.abs) none_
  let pad := fun (l : List FV) => l ++ List.replicate (128 - l.length) none_
  let addTo := fun (l r : List FV) => (pad l).zipWith FV.add (pad r)
  -- rows of the half that takes the column: rows 0 to 63, or 64 to 127 as 64 + i
  let rows2 := if lowerHalf o j then List.replicate 64 none_ ++ ps else ps
  { o with
    checks := o.checks ++ [⟨0, 0, j, o.pass, cj, if f then dj else wrap32 dj, mj, colLast o o.pass j + 9⟩]
    vsum := if lowerHalf o j then o.vsum else addTo o.vsum col
    vsumHi := if lowerHalf o j then addTo o.vsumHi col else o.vsumHi
    rsum := addTo o.rsum rows2
    rabs := addTo o.rabs (rows2.map FV.abs)
    csum := o.csum.add cj
    cabs := o.cabs.add cj.abs }

/-- The accumulator words of a column take its pass sums, row by row; the second component gathers their flags. -/
def accColumn (s : State) (c : Nat) (o : MxOp) (col : List FV) (rows : List (List FV)) : State × Nat :=
  let wNan := anyNan col
  ((List.range (opMt o + 1)).zip rows).foldl (fun (st : State × Nat) (ir : Nat × List FV) =>
    let word := accWord (opSplit o) ir.1 o.col
    let old := if o.pass = 0 ∧ opCont o = false then (if opFloat o then negZero32 else 0)
      else (mget (fun _ => (0 : BitVec 32)) (coreOf st.1 c).acc word).toNat
    let r := accumulate o old (dotFV ir.2 col) (wNan || anyNan ir.2)
    (modCore (parClear st.1 c 0 word) c fun k => { k with acc := mset (fun _ => 0) k.acc word (BitVec.ofNat 32 r.code) }, st.2 ||| r.fl)) (s, 0)

/-- One column enters (R59 to R61): pass sums of rows 0 to MT update the accumulator, and the checks gather their terms (R77). A parity error of a word it
accumulates on raises SRAM_PARITY, and the drain will emit the column poisoned (R69). -/
def enterColumn (s : State) (c : Nat) (o : MxOp) (tl : Tile) (col : List FV) : State × MxOp :=
  let bad := (decide (o.pass ≠ 0) || opCont o) && colParity s c o o.col
  let s1 := if bad then sramParity s c o.slot 0 else s
  let o1 := if bad then { o with badCols := o.badCols ++ [o.col] } else o
  let rows := (List.range (opMt o1 + 1)).map (rowValues o1 tl)
  let x := accColumn s1 c o1 col rows
  (setFlags x.1 c x.2, { (if opAct o1 = 0 then o1 else checkTerms o1 tl col rows) with col := o.col + 1 })

/-- The first operation whose columns have not all entered, with its place in the queue. -/
def entering (q : List MxOp) : Option (Nat × MxOp) :=
  match q with
  | [] => none
  | o :: r => if o.entered then (match r with | p :: _ => if p.entered then none else some (1, p) | [] => none) else some (0, o)

/-- The end of a pass: the next pass, or every column of the operation has entered. -/
def passEnd (o : MxOp) : MxOp :=
  let o1 := { o with col := 0, passScales := [], vsum := [], vsumHi := [], rsum := [], rabs := [],
                     csum := .fin false 0 0, cabs := .fin false 0 0 }
  if o.pass = opKp o then { o1 with entered := true } else { o1 with pass := o.pass + 1 }

/-- The queue with one operation replaced. -/
def setOp (s : State) (c i : Nat) (o : MxOp) : State := modCore s c fun k => { k with mxq := k.mxq.set i o }

/-- Matrix work of a slot that its own fault ends (R82, entry 15): its operations and tiles go, and what has left the drain stays where it went. -/
def abandonMxe (s : State) (c t : Nat) : State :=
  modCore s c fun k => { k with
    mxq := k.mxq.filter (fun o => o.slot ≠ t), tileq := k.tileq.filter (fun x => x.slot ≠ t),
    shadow := k.shadow.filter (fun x => x.slot ≠ t), tile := k.tile.filter (fun x => x.slot ≠ t) }

/-- All engine work of a slot that its stop ends (R136, entry 15): none of its results enters the store, FLO or a descriptor. -/
def abandonEngine (s : State) (c t : Nat) : State :=
  modCore (abandonMxe s c t) c fun k => { k with
    passq := k.passq.filter (fun x => x.slot ≠ t), vxq := k.vxq.filter (fun x => x.slot ≠ t), fli := k.fli.filter (fun x => x.slot ≠ t),
    flo := k.flo.filter (fun x => x.slot ≠ t), swrq := k.swrq.filter (fun x => x.slot ≠ t) }

/-- A new column of a draining operation's words may not be written before that operation has read them (R69). -/
def accFree (q : List MxOp) (i : Nat) (o : MxOp) : Bool :=
  if i = 0 then true
  else match q.head? with
    | some d => !opDrain d || (opSplit d == opSplit o && decide (o.col + opGroup o ≤ d.emit)) || decide (opNt d ≤ d.emit)
    | none => true

/-- Columns that enter from the feed buffer, k at most (R61, R75). -/
def enterCols (s : State) (c i : Nat) (o : MxOp) (tl : Tile) : Nat → State
  | 0 => setOp s c i o
  | k + 1 =>
    let buf := (coreOf s c).elemBuf
    if o.col < opNt o ∧ colBytes o ≤ buf.length then
      let n := colScales o
      let col := colValues o (buf.take (colBytes o)) ((o.passScales.drop (n * o.col)).take n)
      let s1 := modCore s c fun x => { x with elemBuf := x.elemBuf.drop (colBytes o), elemMark := runDrop (colBytes o) x.elemMark }
      let (s2, o2) := enterColumn s1 c o tl col
      enterCols s2 c i o2 tl k
    else setOp s c i o

/-- With checks off, a pass ends when its last column has entered (R66). -/
def passClose (s : State) (c i : Nat) : State :=
  match (coreOf s c).mxq[i]? with
  | some o => if o.col = opNt o ∧ opAct o = 0 then setOp s c i (passEnd o) else s
  | none => s

/-- WEIGHT_COLUMN_ENTER (R61, R75): the columns of one cycle enter the cells, which they occupy for their period. At a pass's first cycle the shadow tile becomes the active
tile (R67) and the pass's scales are complete (R63); a tile of another format or feed faults (R150, REASON 9). -/
def weightColumnEnter (s : State) (c : Nat) : State :=
  let k := coreOf s c
  match entering k.mxq with
  | none => s
  | some (i, o) =>
    if accFree k.mxq i o = false ∨ k.elemBuf.length < colBytes o ∨ o.col = opNt o ∨ mayRun s c o.slot (colDue o o.pass o.col) = false ∨ pathFree s c 1 = false then s
    else if o.col = 0 then
      match k.shadow with
      | none => s
      | some tl =>
        if tl.ready = false then s
        else if tl.fmt ≠ opIn o ∨ tl.split ≠ opSplit o then
          abandonMxe (illegal s c o.slot 9 o.index o.word.toNat) c o.slot
        else
          let need := colScales o * opNt o
          if k.scaleBuf.length < need then s
          else
            let s1 := modCore s c fun x => { x with
              tile := some tl, shadow := none, scaleBuf := x.scaleBuf.drop need, scaleMark := runDrop need x.scaleMark
              tileq := match x.tileq with | y :: r => { y with due := max y.due (floeNow s c o.slot + 1) } :: r | [] => [] }
            let o1 := { o with passScales := k.scaleBuf.take need }
            let s2 := enterCols s1 c i o1 tl (opGroup o)
            occupy (passClose s2 c i) c 1 (opPeriod o)
    else match k.tile with
      | none => s
      | some tl => occupy (passClose (enterCols s c i o tl (opGroup o)) c i) c 1 (opPeriod o)

/-- The column and corner checks of a pass (R77, R78). -/
def columnChecks (o : MxOp) (tl : Tile) : List Check :=
  let f := opFloat o
  let v := (o.vsum.map (checkVal f))
  let vh := (o.vsumHi.map (checkVal f))
  let zero := List.replicate 128 (FV.fin false 0 0)
  let vU := if o.vsum.isEmpty then zero else v
  let vL := if o.vsumHi.isEmpty then zero else vh
  let fin := fun x => if f then x else wrap32 x
  let one := fun (i : Nat) =>
    let lower := opSplit o && decide (64 ≤ i)
    let r := rowValues o tl (if opSplit o then i % 64 else i)
    let pad := decide (opMt o < (if opSplit o then i % 64 else i))
    let q := if pad then FV.fin false 0 0 else checkVal f (dotFV r (if lower then vL else vU))
    Check.mk 1 i 0 o.pass q (fin (o.rsum.getD i (.fin false 0 0))) (o.rabs.getD i (.fin false 0 0)) (checkColDue o o.pass + 9)
  let sk := colSums o tl
  let corner := if opSplit o then
      (checkVal f (dotFV sk vU)).add (checkVal f (dotFV sk vL))
    else checkVal f (dotFV sk vU)
  (List.range 128).map one ++ [Check.mk 2 128 0 o.pass (fin corner) (fin o.csum) o.cabs (checkColDue o o.pass + 9)]

/-- CHECK_COLUMN_INJECT (R78): after a pass's last column the check column enters, and the pass ends. -/
def checkColumnInject (s : State) (c : Nat) : State :=
  match entering (coreOf s c).mxq with
  | none => s
  | some (i, o) =>
    match (coreOf s c).tile with
    | none => s
    | some tl =>
      if opAct o ≠ 0 ∧ o.col = opNt o ∧ mayRun s c o.slot (checkColDue o o.pass) = true ∧ pathFree s c 1 = true then
        occupy (setOp s c i (passEnd { o with checks := o.checks ++ columnChecks o tl })) c 1 1
      else s

-- checks -----------------------------------------------------------------------------------------------------------

/-- Whether a value is finite. -/
def isFin : FV → Bool
  | .fin _ _ _ => true
  | _ => false

/-- The bound 2^−REL_SHIFT · m + F (R79). -/
def checkBound (tol : BitVec 32) (mag : FV) : FV :=
  let rel := bits tol.toNat 0 6
  let ae := bits tol.toNat 8 8
  let m := match mag with
    | .fin n x e => FV.fin n x (e - (rel : Int))
    | v => v
  if ae = 0 then m else m.add (.fin false 1 ((ae : Int) - 127))

/-- The outcome of a check: none when it is skipped (R79). -/
def checkPass (o : MxOp) (k : Check) : Option Bool :=
  if opFloat o then
    if isFin k.obs && isFin k.ref && isFin k.mag then
      some (!(checkBound o.tol k.mag).lt (k.obs.add k.ref.neg).abs)
    else none
  else some (k.obs.eq k.ref)

/-- The record, event and action of a failing check (R80 to R82). -/
def checkFail (s : State) (c i : Nat) (o : MxOp) (k : Check) : State :=
  let act := opAct o
  let o1 := if act = 2 ∧ o.poison = false then { o with poison := true, left := o.emit } else o
  let s1 := setOp (satF s (rMX_ABFT_CNT c) 0 16 1) c i o1
  let stat := 1 + 2 * k.kind + (if act = 2 then 8 else 0) + 256 * k.row + 65536 * k.col
  let loc := k.pass + 65536 * (if act = 2 then min o1.left 0x7FF else 0)
  let s2 := if getB s1 (rMX_ABFT_STAT c) 0 then s1
    else setR (setR (setR s1 (rMX_ABFT_STAT c) (BitVec.ofNat 32 stat)) (rMX_ABFT_LOC c) (BitVec.ofNat 32 loc)) (rMX_ABFT_OPSEQ c) o.opseq
  let sev := if act = 1 then 0 else 2
  let home := act - 1
  let s3 := raiseCore s2 c o.slot cABFT sev home 0 (stat + 2 ^ 32 * loc) o.opseq.toNat
  if act = 3 then abandonMxe s3 c o.slot else s3

/-- ABFT_CHECK (R79): the oldest check that is due completes. -/
def abftCheck (s : State) (c : Nat) : State :=
  let q := (coreOf s c).mxq
  match (List.range q.length).find? (fun i => match q[i]? with | some o => !o.checks.isEmpty | none => false) with
  | none => s
  | some i =>
    match q[i]? with
    | none => s
    | some o =>
      match o.checks with
      | [] => s
      | k :: ks =>
        if mayRun s c o.slot k.due = false then s
        else
        let o1 := { o with checks := ks }
        let s1 := setOp s c i o1
        match checkPass o k with
        | none => satF s1 (rMX_ABFT_CNT c) 16 16 1
        | some true => s1
        | some false => checkFail s1 c i o1 k

-- drain --------------------------------------------------------------------------------------------------------------

/-- The accumulator's value of a row and column. -/
def accVal (s : State) (c : Nat) (o : MxOp) (row col : Nat) : FV :=
  let x := (mget (fun _ => (0 : BitVec 32)) (coreOf s c).acc (accWord (opSplit o) row col)).toNat
  if opFloat o then dec32 x else intFV (signed 32 x) 0

/-- The code of a poisoned element (R81). The elements of a poisoned MX block, whose scale 0xFF makes it a NaN block whatever they hold, are 0 (DESIGN CHOICE,
entry 103). -/
def poisonCode (f : Nat) : Nat :=
  if fmtIsMx f then 0
  else if fmtIsInt f then 2 ^ (fmtWidth f - 1)
  else if (floatSpec f).hasNan then (floatSpec f).canonNan
  else 2 ^ fmtWidth f - 1

/-- The largest absolute output so far (R72, R260): integers round up to FP32. -/
def amaxWith (o : MxOp) (vs : List FV) : BitVec 32 :=
  let ms := vs.map fun v => (toFloat sp32 3 false v.abs).code
  BitVec.ofNat 32 (ms.foldl (fun a x => if (dec32 a).isNan || (dec32 x).isNan then sp32.canonNan else pick32 true a x) o.amax.toNat)

/-- Whether the columns j to j + n - 1 of the last pass have been entered and their row checks are done (R65, R81). -/
def columnDue (o : MxOp) (j n : Nat) : Bool :=
  (o.entered || (decide (o.pass = opKp o) && decide (j + n ≤ o.col))) &&
    !(o.checks.any fun k => k.kind == 0 && k.pass == opKp o && decide (j ≤ k.col) && decide (k.col < j + n))

/-- The columns j to j + n - 1 leave (R70): their elements and flags, and the largest output so far. A parity error raises SRAM_PARITY; it, or one met while the
column accumulated, makes the columns leave poisoned (R69). A poisoned column sets no flag (DESIGN CHOICE, entry 103). -/
def emitPlain (s0 : State) (c : Nat) (o : MxOp) (j n : Nat) : State :=
  let cols := (List.range n).map (j + ·)
  let par := cols.any (colParity s0 c o)
  let s := if par then sramParity s0 c o.slot 0 else s0
  let f := opOut o
  let one := fun q =>
    let vs := (List.range (opMt o + 1)).map fun i => accVal s c o i q
    let r := toPlainLanes f 0 (opSat o) vs
    if o.poison || colParity s0 c o q || o.badCols.contains q then (vs.map (fun _ => poisonCode f), 0) else r
  let rs := cols.map one
  let o1 := { o with emit := j + n, amax := if opAmaxEn o then amaxWith o (cols.flatMap fun q => (List.range (opMt o + 1)).map fun i => accVal s c o i q) else o.amax }
  let e : FliEnt := ⟨o.slot, leaveDue o j + 1, 0, rs.flatMap fun r => r.1.map fun x => ⟨f, x⟩⟩
  setOp (modCore (setFlags s c (rs.foldl (fun a r => a ||| r.2) 0)) c fun k => { k with fli := fliInsert e k.fli }) c 0 o1

/-- A group of MX columns j to j + n - 1 begins to leave (R71, R81): the blocks of each row, completed with +0 padding, are formed and judged as a whole. Its block
scales go with its first column, ahead of it on FLO (DESIGN CHOICE, entry 35); then its columns follow at the column rate. A poisoned group sets no flag (DESIGN CHOICE, entry 103). -/
def formMx (s0 : State) (c : Nat) (o : MxOp) (j n : Nat) : State :=
  let cols := (List.range n).map (j + ·)
  let par := cols.any (colParity s0 c o)
  let s := if par then sramParity s0 c o.slot 0 else s0
  let bad := o.poison || par || cols.any (o.badCols.contains ·)
  let f := opOut o
  let sup := if opScaleSrc o then some o.supplied else none
  let rows := List.range (opMt o + 1)
  let vals := rows.map fun i => cols.map fun q => accVal s c o i q
  let blocks := vals.map fun v => toMxLanes f sup [v ++ List.replicate (32 - n) (.fin false 0 0)]
  let codes := if bad then vals.map (fun v => v.map fun _ => poisonCode f) else blocks.map fun b => b.1.take n
  let scales : List Nat := if bad then rows.map (fun _ => 0xFF) else blocks.map fun b => b.2.1.headD 0
  let fl := if bad then 0 else blocks.foldl (fun a b => a ||| b.2.2) 0
  let col := fun q => codes.map fun r => (⟨f, r.getD q 0⟩ : Elem)
  let g := opGroup o
  let chunks := (List.range (ceilDiv n g)).map fun i => ((List.range (min g (n - i * g))).map fun q => col (i * g + q)).flatten
  let o1 := { o with emit := j + n, group := scales.map (⟨10, ·⟩) :: chunks,
                     amax := if opAmaxEn o then amaxWith o (vals.flatMap id) else o.amax }
  setOp (setFlags s c fl) c 0 o1

/-- The next entry of a group that is leaving joins the SWR skid buffer, which has 8 (R71, R112). -/
def emitMx (s : State) (c : Nat) (o : MxOp) : State :=
  match o.group with
  | [] => s
  | e :: r => if (coreOf s c).flo.length < 8 then setOp (modCore s c fun k => { k with flo := k.flo ++ [⟨o.slot, e⟩] }) c 0 { o with group := r } else s

/-- Entries of the drain output buffer that wait beyond what the vector word at the head of the queue takes (R75, R112): early FLI data. -/
def fliEarly (s : State) (c : Nat) : Nat :=
  let k := coreOf s c
  match k.vxq with
  | e :: _ => (fliDrop (fliNeed (slotOf s c e.slot).vl e.word.toNat) k.fli).length
  | [] => k.fli.length

/-- DRAIN_COLUMN_EMIT (R70, R71): the next output columns leave the MXE, or the next entry of a group of MX columns, at the column rate. The drain output buffer has 8
entries (R75). -/
def drainColumnEmit (s : State) (c : Nat) : State :=
  match (coreOf s c).mxq.head? with
  | none => s
  | some o =>
    let j := o.emit
    if opDrain o = false ∨ pathFree s c 2 = false ∨ mayRun s c o.slot (drainDue o) = false then s
    else if o.group ≠ [] then (if (coreOf s c).flo.length < 8 then occupy (emitMx s c o) c 2 (opPeriod o) else s)
    else if j = opNt o then s
    else if fmtIsMx (opOut o) then
      let n := min 32 (opNt o - j)
      if columnDue o j n && decide ((coreOf s c).flo.length < 8) then
        let s1 := formMx s c o j n
        match (coreOf s1 c).mxq.head? with
        | some o1 => emitMx s1 c o1
        | none => s1
      else s
    else
      let n := min (opGroup o) (opNt o - j)
      if columnDue o j n && decide (fliEarly s c < 8) then occupy (emitPlain s c o j n) c 2 (opPeriod o) else s

/-- MXE_OP_COMPLETE (R66): every column has entered and left and every check is done; the capture of R260 takes place. -/
def mxeOpComplete (s : State) (c : Nat) : State :=
  match (coreOf s c).mxq with
  | [] => s
  | o :: q =>
    if o.entered ∧ o.checks = [] ∧ (opDrain o = false ∨ (o.emit = opNt o ∧ o.group = [])) ∧ mayRun s c o.slot (opEnd o) = true then
      let s1 := modCore s c fun k => { k with mxq := q }
      if opAmaxEn o then capture s1 c (bits o.slots.toNat 0 9) o.amax.toNat else s1
    else s

end Sys2Proof.Machine
end

