-- ==== Sys2Proof/Machine/Flow.lean ====
section
/-! DEFINITION. The stream loader and the stationary-store writer (03, 05): the input generator, pass-throughs, SWR writes and the
hand-off to a descriptor. -/

namespace Sys2Proof.Machine

/-- Group size of packed elements (R36): 2 for 4-bit, 4 for 6-bit, 32 for MX elements, else 1. -/
def groupSize (f : Nat) : Nat :=
  if fmtIsMx f then 32 else if fmtWidth f = 4 then 2 else if fmtWidth f = 6 then 4 else 1
/-- Bytes of one whole group. -/
def groupBytes (f : Nat) : Nat := groupSize f * fmtWidth f / 8

/-- Low w bits of the element that starts `bit` bits above a device address base (R36). -/
def readElem (s : State) (base : Nat) (byteOff : Nat) (bit w : Nat) : Nat :=
  bits (leNat (rdBytes s (base + byteOff) (ceilDiv (bit + w) 8))) bit w

-- the input generator (R73, R74) --------------------------------------------------------------------------------

/-- A latched SLD_IN register of a tile transfer. -/
def inReg (x : TileXfer) (reg : Nat) : Nat :=
  match x.cfg.find? (fun p => p.1 == reg) with
  | some p => p.2.toNat
  | none => 0
def inCount (x : TileXfer) (d : Nat) : Nat := bits (inReg x (0x08 + d)) 0 16 + 1
def inSstride (x : TileXfer) (d : Nat) : Int := signed 16 (bits (inReg x (0x08 + d)) 16 16)
def inStride (x : TileXfer) (d : Nat) : Int := signed 32 (inReg x (0x10 + d))
def winEn (x : TileXfer) (w : Nat) : Bool := decide (bits (inReg x (0x18 + w)) 0 1 = 1)
def winKdim (x : TileXfer) (w : Nat) : Nat := bits (inReg x (0x18 + w)) 1 2
def winMdim (x : TileXfer) (w : Nat) : Nat := bits (inReg x (0x18 + w)) 3 2
def winCstride (x : TileXfer) (w : Nat) : Nat := max 1 (bits (inReg x (0x18 + w)) 5 5)
def winDil (x : TileXfer) (w : Nat) : Nat := max 1 (bits (inReg x (0x18 + w)) 10 5)
def winPadlo (x : TileXfer) (w : Nat) : Nat := bits (inReg x (0x18 + w)) 15 8
def winExt (x : TileXfer) (w : Nat) : Nat := bits (inReg x (0x1A + w)) 0 16
def winPstride (x : TileXfer) (w : Nat) : Int := signed 32 (inReg x (0x1C + w))

/-- The dimension indices of row m and position k (R73). -/
def inIdx (x : TileXfer) (m k d : Nat) : Nat :=
  let n := inCount x
  match d with
  | 0 => k % n 0
  | 1 => k / n 0 % n 1
  | 2 => k / (n 0 * n 1)
  | 3 => m % n 3
  | 4 => m / n 3 % n 4
  | _ => m / (n 3 * n 4)

/-- The position of an enabled window pair along its spatial axis (R73). -/
def winPos (x : TileXfer) (m k w : Nat) : Int :=
  ((inIdx x m k (3 + winMdim x w) * winCstride x w + inIdx x m k (winKdim x w) * winDil x w : Nat) : Int) - (winPadlo x w : Int)

/-- Whether a dimension belongs to an enabled pair. -/
def inPair (x : TileXfer) (d : Nat) : Bool :=
  (winEn x 0 && (winKdim x 0 == d || 3 + winMdim x 0 == d)) || (winEn x 1 && (winKdim x 1 == d || 3 + winMdim x 1 == d))

/-- Whether the element of row m and position k is zero-filled without a read (R73). -/
def zeroFill (x : TileXfer) (m k : Nat) : Bool :=
  decide (inCount x 0 * inCount x 1 * inCount x 2 ≤ k) || decide (inCount x 5 ≤ inIdx x m k 5) ||
    ((List.range 2).any fun w => winEn x w && (decide (winPos x m k w < 0) || decide ((winExt x w : Int) < winPos x m k w)))

/-- The element offset (R73). -/
def inOff (x : TileXfer) (m k : Nat) : Int :=
  (List.range 6).foldl (fun a d => if inPair x d then a else a + (inIdx x m k d : Int) * inStride x d) 0 +
    (List.range 2).foldl (fun a w => if winEn x w then a + winPos x m k w * winPstride x w else a) 0

/-- What loading one element gives: its code, or the store address outside the window (R123). -/
def loadElem (s : State) (c : Nat) (x : TileXfer) (m k : Nat) : Except Int Nat :=
  if zeroFill x m k then .ok 0
  else
    let w := fmtWidth x.fmt
    let bit : Int := inOff x m k * (w : Int)
    let lo : Int := (bits (inReg x 0) 0 21 : Int) + bit / 8
    let hi : Int := (bits (inReg x 0) 0 21 : Int) + (bit + (w : Int) - 1) / 8
    let (a, b) := slotWindow s c x.slot
    match lowestOutside lo hi a b with
    | some z => .error z
    | none => .ok (readElem s (storeBase c) lo.toNat (bit % 8).toNat w)

/-- What loading the scale byte of a block of 32 positions gives (R74). -/
def loadScale (s : State) (c : Nat) (x : TileXfer) (m k : Nat) : Except Int Nat :=
  if zeroFill x m k then .ok 127
  else
    let adr : Int := (bits (inReg x 1) 0 21 : Int) + ((inIdx x m k 0 / 32 : Nat) : Int) +
      [1, 2, 3, 4, 5].foldl (fun a d => a + (inIdx x m k d : Int) * inSstride x d) 0
    let (a, b) := slotWindow s c x.slot
    match lowestOutside adr adr a b with
    | some z => .error z
    | none => .ok (rdByte s (storeBase c + adr.toNat)).toNat

/-- The results of a list of loads, or the first address outside the window. -/
def gatherLoads : List (Except Int Nat) → Except Int (List Nat)
  | [] => .ok []
  | .error z :: _ => .error z
  | .ok v :: r => match gatherLoads r with
    | .ok vs => .ok (v :: vs)
    | .error z => .error z

/-- The generator conditions of a tile transfer (R73, R74): a configuration that breaks them faults with REASON 4. -/
def tileBad (x : TileXfer) : Bool :=
  let pairBad := (List.range 2).any fun w => winEn x w && (winKdim x w == 3 || winMdim x w == 3)
  let f := x.fmt
  let g : Int := (groupSize f : Int)
  let narrow := decide (fmtWidth f < 8) || fmtIsMx f
  let strideBad := [1, 2, 3, 4, 5].any fun d => inStride x d % g != 0
  let pBad := (List.range 2).any fun w => winPstride x w % g != 0
  pairBad || (narrow && (inStride x 0 != 1 || bits (inReg x 0) 0 21 % groupBytes f != 0 || strideBad || pBad)) ||
    (fmtIsMx f && (inCount x 0 % 32 != 0 || inPair x 0))

/-- The tile transfer a SLDGO word would start from the staging set (R149, R150). Its rows are due from the next floe cycle. -/
def tileLatch (s : State) (c t w : Nat) : TileXfer :=
  { due := floeNow s c t + 1, slot := t, cfg := (List.range 0x1E).map fun r => (r, stag s c 1 r), fmt := sldFmt w, split := sldSplit w == 1, mt := sldMt w,
    p0 := sldP0 w, ntm1 := sldNtm1 w, tile := 0, row := 0 }

/-- The shadow tile that the active tile transfer's next row joins, if there is one (R67): an empty buffer takes the first row of a tile. -/
def tileTarget (k : CoreSt) (x : TileXfer) : Option Tile :=
  match k.shadow with
  | none => if x.row = 0 then some ⟨x.slot, 0, x.fmt, x.split, x.mt, [], false⟩ else none
  | some tl => if tl.ready || decide (tl.rows.length > tl.mt) then none else some tl

/-- Whether a slot's floe stands still for a lagging MXE path that waits for its input tile (R67, R76): the rows of that tile, which no frozen count would make due, then
load one a cycle (DEDUCED, entry 131). -/
def tileCatch (s : State) (c t : Nat) : Bool :=
  match floeFor s c t, entering (coreOf s c).mxq with
  | some f, some (_, o) =>
    (floeOf s (c / 8) f).held != 0 && o.slot == t && o.col == 0 && mayRun s c t (colDue o o.pass 0) && !((coreOf s c).shadow.any fun x => x.ready)
  | _, _ => false

/-- Whether a row load is due and possible now: it has the SLD read port before a pass-through (R107, R110). -/
def tileCan (s : State) (c : Nat) : Bool :=
  match (coreOf s c).tileq with
  | [] => false
  | x :: _ => (tileTarget (coreOf s c) x).isSome && (mayRun s c x.slot x.due || tileCatch s c x.slot)

/-- TILE_ROW_LOAD (R67): the active tile transfer loads its next row into the shadow buffer, an FP32 row in 2 cycles. m = mstart + r is taken modulo 2^32 (DESIGN
CHOICE, entry 104). A read outside the window stops the floe before any column that needs it enters (R124). -/
def tileRowLoad (s : State) (c : Nat) : State :=
  match (coreOf s c).tileq with
  | [] => s
  | x :: rest =>
    match (if tileCan s c && pathFree s c 0 && pathFree s c 3 then tileTarget (coreOf s c) x else none) with
    | none => s
    | some tl =>
      let m := (inReg x 2 + x.row) % 2 ^ 32
      let k0 := 128 * (x.p0 + x.tile)
      match gatherLoads ((List.range 128).map fun q => loadElem s c x m (k0 + q)) with
      | .error z => abandonMxe (spBounds s c x.slot 0 false z) c x.slot
      | .ok codes =>
        match (if fmtIsMx x.fmt then gatherLoads ((List.range 4).map fun b => loadScale s c x m (k0 + 32 * b)) else .ok []) with
        | .error z => abandonMxe (spBounds s c x.slot 1 false z) c x.slot
        | .ok scales =>
          let due := if mayRun s c x.slot x.due then x.due else floeNow s c x.slot
          let k := if fmtWidth x.fmt = 32 then 2 else 1
          let tl1 := { tl with rows := tl.rows ++ [⟨codes, scales⟩], due := due + k + 1 }
          let done := decide (x.row = x.mt)
          let due1 := due + k
          let x1 := if done then { x with due := due1, row := 0, tile := x.tile + 1 } else { x with due := due1, row := x.row + 1 }
          let q1 := if done && decide (x.tile = x.ntm1) then (match rest with | y :: r => { y with due := max y.due due1 } :: r | [] => []) else x1 :: rest
          modCore s c fun y => { y with shadow := some tl1, tileq := q1, paced := mset (fun _ => 0) (mset (fun _ => 0) y.paced 0 k) 5 (k + 1) }

/-- TILE_READY (R67): the shadow tile is ready 2 cycles after its last row has arrived. -/
def tileReady (s : State) (c : Nat) : State :=
  modCore s c fun k => { k with shadow := k.shadow.map fun tl =>
    if tl.mt < tl.rows.length && (mayRun s c tl.slot tl.due || tileCatch s c tl.slot) && pathFree s c 5 then { tl with ready := true } else tl }

-- the three-dimension generator (Table 05-3, R122) ------------------------------------------------------------------

/-- A generator latched from the staging registers of SLD_FL (unit 1, from 0x20) or SWR (unit 3). -/
def genLatch (s : State) (c : Nat) (swr : Bool) : Gen :=
  let r := fun (b m d st : Nat) (u : Nat) =>
    let mode := (stag s c u m).toNat
    (⟨signed 32 (stag s c u b).toNat, (List.range 3).map fun i => bits (stag s c u (d + i)).toNat 0 16 + 1,
      (List.range 3).map fun i => signed 32 (stag s c u (st + i)).toNat, bits mode 0 5, swr && bits mode 5 1 == 1, bits mode 8 6⟩ : Gen)
  if swr then r 0 1 4 8 3 else r 0x20 0x21 0x24 0x28 1

def genCount (g : Gen) (d : Nat) : Nat := g.counts.getD d 1
def genStride (g : Gen) (d : Nat) : Int := g.strides.getD d 0
def genTotal (g : Gen) : Nat := genCount g 0 * genCount g 1 * genCount g 2

/-- The element offset of element number e, i0 innermost (R122). -/
def genOff (g : Gen) (e : Nat) : Int :=
  ((e % genCount g 0 : Nat) : Int) * genStride g 0 + ((e / genCount g 0 % genCount g 1 : Nat) : Int) * genStride g 1 +
    ((e / (genCount g 0 * genCount g 1) : Nat) : Int) * genStride g 2

/-- The conditions of R122 on narrow elements: broken, a GO faults with REASON 4. With DEST = 1 BASE is ignored (R247). -/
def genBad (g : Gen) : Bool :=
  decide (fmtWidth g.fmt < 8) &&
    (genStride g 0 != 1 || (!g.dest && g.base % (groupBytes g.fmt : Int) != 0) ||
      genStride g 1 % (groupSize g.fmt : Int) != 0 || genStride g 2 % (groupSize g.fmt : Int) != 0)

/-- The extent of a whole transfer (R123): first and last byte. -/
def genExtent (g : Gen) : Int × Int :=
  let w : Int := (fmtWidth g.fmt : Int)
  let term := fun d => genStride g d * ((genCount g d : Int) - 1)
  let lo := min 0 (term 0) + min 0 (term 1) + min 0 (term 2)
  let hi := max 0 (term 0) + max 0 (term 1) + max 0 (term 2)
  (g.base + lo * w / 8, g.base + hi * w / 8 + (w + 7) / 8 - 1)

/-- The lowest byte of a transfer outside the slot's window, if any. -/
def genOutside (s : State) (c t : Nat) (g : Gen) : Option Int :=
  let (lo, hi) := genExtent g
  let (a, b) := slotWindow s c t
  lowestOutside lo hi a b

/-- The store byte offset and bit of element e. -/
def genPlace (g : Gen) (e : Nat) : Nat × Nat :=
  let bit := genOff g e * (fmtWidth g.fmt : Int)
  ((g.base + bit / 8).toNat, (bit % 8).toNat)

/-- The nominal read cycle of the first item of a pass-through that a SLDGO starts now (R110): the cycle after s, the issue cycle or the last nominal read cycle of
the pass-through ahead, whichever is later. -/
def passDue (s : State) (c t : Nat) : Nat :=
  match (coreOf s c).passq.getLast? with
  | some x => max (floeNow s c t) (x.due + ceilDiv (genTotal x.gen - x.next) (perEntry x.gen.fmt) - 1) + 1
  | none => floeNow s c t + 1

/-- PASS_THROUGH_ITEM_READ (R110): the active pass-through reads its next item, at most 256 bytes, which takes its place on FLI by its nominal cycle; a tile row that is
due has the read port first, and the two never read in one cycle. -/
def passThroughItemRead (s : State) (c : Nat) : State :=
  match (coreOf s c).passq with
  | [] => s
  | x :: rest =>
    let n := min (perEntry x.gen.fmt) (genTotal x.gen - x.next)
    if fliEarly s c < 8 ∧ mayRun s c x.slot x.due = true ∧ tileCan s c = false ∧ pathFree s c 0 = true ∧ pathFree s c 3 = true then
      let es : List Elem := (List.range n).map fun i =>
        let p := genPlace x.gen (x.next + i)
        ⟨x.gen.fmt, readElem s (storeBase c) p.1 p.2 (fmtWidth x.gen.fmt)⟩
      let q := if x.next + n = genTotal x.gen then rest else { x with next := x.next + n, due := x.due + 1 } :: rest
      modCore s c fun y => { y with fli := fliInsert ⟨x.slot, x.due + 3, 1, es⟩ y.fli, passq := q, paced := mset (fun _ => 0) y.paced 3 1 }
    else s

-- SWR (R112, R122, R247) ------------------------------------------------------------------------------------------------

/-- The first n elements taken from the skid buffer, and what stays. -/
def takeFlo : Nat → List FloEnt → List Elem × List FloEnt
  | _, [] => ([], [])
  | n, e :: r =>
    if n = 0 then ([], e :: r)
    else if e.es.length ≤ n then
      let q := takeFlo (n - e.es.length) r
      (e.es ++ q.1, q.2)
    else (e.es.take n, { e with es := e.es.drop n } :: r)

/-- The elements in a core's skid buffer. -/
def floCount (k : CoreSt) : Nat := k.flo.foldl (fun a e => a + e.es.length) 0

/-- One element's bits written in the store. -/
def writeElem (s : State) (c : Nat) (p : Nat × Nat) (w code : Nat) : State :=
  let a := storeBase c + p.1
  let n := ceilDiv (p.2 + w) 8
  wrBytes s a (leBytes n (setBits (leNat (rdBytes s a n)) p.2 w code))

/-- Elements written at consecutive generator places. -/
def writeElems (s : State) (c : Nat) (g : Gen) : Nat → List Elem → State
  | _, [] => s
  | e, x :: xs => writeElems (writeElem s c (genPlace g e) (fmtWidth g.fmt) x.code) c g (e + 1) xs

/-- The bytes a run of elements packs into (R36). Elements handed to a descriptor run on without padding between rows, since R247 gives only their order; the unused
bits of a last byte are 0 (DESIGN CHOICE, entry 105). -/
def packBytes (f : Nat) (es : List Elem) : List Byte :=
  leBytes (ceilDiv (fmtWidth f * es.length) 8) (packLanes (fmtWidth f) (es.map Elem.code))

/-- How many elements SWR takes at once: one skid entry's worth, in whole groups except at the end (R36). -/
def swrTake (x : GenOp) (have_ : Nat) : Nat :=
  let left := genTotal x.gen - x.next
  let n := min (perEntry x.gen.fmt) (min left have_)
  let g := if fmtIsMx x.gen.fmt then (if fmtWidth x.gen.fmt = 6 then 4 else 2) else groupSize x.gen.fmt
  if n = left then n else n / g * g

end Sys2Proof.Machine
end

