-- ==== Sys2Proof/Machine/Desc.lean ====
section
/-! DEFINITION. Stream descriptors (10_streams.md): the template, arming and its checks, waiting, moving, completion and stops, fences, and the
near-bank commands (R180 to R187). -/

namespace Sys2Proof.Machine

-- the template (Table 10-1) ---------------------------------------------------------------------------------------

/-- Bits of a template word. -/
def tw (ws : List (BitVec 64)) (i lo w : Nat) : Nat := bits (ws.getD i 0).toNat lo w
def twS (ws : List (BitVec 64)) (i lo : Nat) : Int := signed 32 (tw ws i lo 32)
/-- The eight words of a descriptor's template. -/
def template (s : State) (c d : Nat) : List (BitVec 64) := (List.range 8).map fun i => BitVec.ofNat 64 (getR64 s (rDESC c d + 8 * i))

def tSRCK (ws : List (BitVec 64)) : Nat := tw ws 0 0 3
def tDSTK (ws : List (BitVec 64)) : Nat := tw ws 0 4 3
def tWAITEN (ws : List (BitVec 64)) : Bool := tw ws 0 11 1 == 1
def tSIGEN (ws : List (BitVec 64)) : Bool := tw ws 0 12 1 == 1
def tPKG (ws : List (BitVec 64)) : Nat := tw ws 1 48 16
def tLEN0 (ws : List (BitVec 64)) : Nat := tw ws 3 0 20
def tROWS (ws : List (BitVec 64)) : Nat := tw ws 3 20 16 + 1
def tPLANES (ws : List (BitVec 64)) : Nat := tw ws 3 36 16 + 1
def tWCTR (ws : List (BitVec 64)) : Nat := tw ws 7 0 6
def tWCOUNT (ws : List (BitVec 64)) : Nat := tw ws 7 8 16
def tSCTR (ws : List (BitVec 64)) : Nat := tw ws 7 24 6
def tSCORE (ws : List (BitVec 64)) : Nat := tw ws 7 32 8
def tSGEN (ws : List (BitVec 64)) : Nat := tw ws 7 40 4
def tSCOUNT (ws : List (BitVec 64)) : Nat := tw ws 7 48 16
/-- The bytes of the whole extent. -/
def tBytes (ws : List (BitVec 64)) : Nat := tLEN0 ws * tROWS ws * tPLANES ws

/-- An effective base of R239: base, step, ring length and arm index. -/
def effBase (base : Nat) (step : Int) (ring a : Nat) : Nat := unsigned 48 ((base : Int) + step * ((if ring = 0 then a else a % ring : Nat) : Int))

/-- The address of byte b of the transfer's order from an effective base (R239). -/
def xAddr (ws : List (BitVec 64)) (base : Nat) (s1 s2 : Int) (b : Nat) : Nat :=
  let row := b / tLEN0 ws
  unsigned 48 ((base : Int) + ((row % tROWS ws : Nat) : Int) * s1 + ((row / tROWS ws : Nat) : Int) * s2 + ((b % tLEN0 ws : Nat) : Int))

def xSrc (x : Xfer) (b : Nat) : Nat := xAddr x.words x.src (twS x.words 4 0) (twS x.words 4 32) b
def xDst (x : Xfer) (b : Nat) : Nat := xAddr x.words x.dst (twS x.words 5 0) (twS x.words 5 32) b

/-- First and last address of an extent, without wrapping (R123). -/
def xExtent (ws : List (BitVec 64)) (base : Nat) (s1 s2 : Int) : Int × Int :=
  let a := s1 * ((tROWS ws : Int) - 1)
  let b := s2 * ((tPLANES ws : Int) - 1)
  ((base : Int) + min 0 a + min 0 b, (base : Int) + max 0 a + max 0 b + (tLEN0 ws : Int) - 1)

-- near-bank commands (Table 07-7) -----------------------------------------------------------------------------------

/-- Bits of a word of a near-bank command. -/
def nb (m : List Nat) (i lo w : Nat) : Nat := bits (m.getD i 0) lo w
def nbOP (m : List Nat) : Nat := nb m 0 0 4
def nbFMT (m : List Nat) : Nat := nb m 0 4 5
def nbOFMT (m : List Nat) : Nat := nb m 0 9 5
def nbX (m : List Nat) : Nat := nb m 0 14 2
def nbCOUNT (m : List Nat) : Nat := nb m 0 32 32
def nbSRC (m : List Nat) : Nat := nb m 1 0 48
def nbRBYTES (m : List Nat) : Nat := nb m 4 0 32
def nbRSTRIDE (m : List Nat) : Nat := nb m 4 32 32
def nbNROWS (m : List Nat) : Nat := nb m 5 0 32
def nbBAG (m : List Nat) : Nat := nb m 5 32 32
def nbIDX (m : List Nat) : Nat := nb m 6 0 21
def nbBlk (m : List Nat) : Nat := 2 ^ nb m 4 32 8
def nbTPB (m : List Nat) : Nat := nb m 4 40 16
def nbFIRST (m : List Nat) : Nat := nb m 5 32 32
def nbCB (m : List Nat) : Nat := nb m 3 0 48
def nbCBS (m : List Nat) : Nat := nb m 3 48 6
def nbStack (m : List Nat) : Nat := nb m 1 33 5

/-- The bits that each operation uses, by word. -/
def nbUsed (m : List Nat) : List Nat :=
  let w := fun (l : List (Nat × Nat)) => l.foldl (fun a p => a ||| fieldMask p.1 p.2) 0
  let lists := w [(0, 21)]
  match nbOP m with
  | 1 => [w [(0, 4), (32, 32)], w [(0, 48)], 0, 0, w [(0, 64)], w [(0, 32)], lists, 0]
  | 2 => [w [(0, 14), (32, 32)], w [(0, 48)], 0, 0, w [(0, 64)], w [(0, 64)], lists, 0]
  | 3 => [w [(0, 4), (32, 32)], w [(0, 48)], 0, 0, w [(0, 56)], w [(0, 64)], lists, 0]
  | _ =>
    let x := nbX m
    [w [(0, 4), (14, 2), (32, 32)] ||| (if x = 1 then w [(4, 5)] else w [(9, 5)]), w [(0, 48)], if x = 2 then 0 else w [(0, 48)],
      if x = 1 then 0 else w [(0, 54)], 0, 0, 0, 0]

/-- Bytes of one output row, and of all the output (R181 to R185). -/
def nbRowOut (m : List Nat) : Nat := if nbOP m = 2 then nbRBYTES m / (fmtWidth (nbFMT m) / 8) * (fmtWidth (nbOFMT m) / 8) else nbRBYTES m
def nbOut (m : List Nat) : Nat :=
  match nbOP m with
  | 1 | 3 => nbCOUNT m * nbRBYTES m
  | 2 => ceilDiv (nbCOUNT m) (nbBAG m) * nbRowOut m
  | _ => ceilDiv (nbCOUNT m * fmtWidth (if nbX m = 1 then nbFMT m else nbOFMT m)) 8

/-- The firn ranges a command may read: first address and length (R180, its static extent). -/
def nbRanges (m : List Nat) : List (Nat × Nat) :=
  match nbOP m with
  | 1 | 2 => if nbNROWS m = 0 then [] else [(nbSRC m, (nbNROWS m - 1) * nbRSTRIDE m + nbRBYTES m)]
  | 3 => if nbNROWS m = 0 then [] else [(nbSRC m, (nbNROWS m - 1) * nbBlk m + nbTPB m * nbRBYTES m)]
  | _ =>
    let n := nbCOUNT m
    let x := nbX m
    let stored := if x = 2 then n else n / 2
    let sw := if x = 1 then fmtWidth (nbFMT m) else 4
    [(nbSRC m, ceilDiv (stored * sw) 8)] ++ (if x = 2 then [] else [(nb m 2 0 48, ceilDiv (n / 4 * 4) 8)]) ++
      (if x = 1 then [] else [(nbCB m, ceilDiv n (2 ^ nbCBS m) * 16 * (fmtWidth (nbOFMT m) / 8))])

/-- The stationary-store ranges a command reads: its own 64 bytes, and its index list or block table (R180). -/
def nbStoreRanges (m : List Nat) (base : Nat) : List (Nat × Nat) :=
  (base, 64) ::
    (match nbOP m with
      | 1 | 2 => [(nbIDX m, 4 * nbCOUNT m)]
      | 3 => [(nbIDX m + 4 * (nbFIRST m / nbTPB m), 4 * ((nbFIRST m + nbCOUNT m - 1) / nbTPB m - nbFIRST m / nbTPB m + 1))]
      | _ => [])

/-- Whether a range lies in the target stack. -/
def nbInside (m : List Nat) (r : Nat × Nat) : Bool :=
  decide (nbStack m * 2 ^ 33 ≤ r.1) && decide (r.1 + r.2 ≤ (nbStack m + 1) * 2 ^ 33)

/-- A field, format or address of a command that R180 to R185 refuse (ILLEGAL_INSTR, REASON 2). -/
def nbBad (s : State) (m : List Nat) : Bool :=
  let op := nbOP m
  let used := (List.range 8).any fun i => m.getD i 0 &&& (2 ^ 64 - 1 - (nbUsed m).getD i 0) != 0
  let rows := decide (nbRBYTES m = 0) || decide (2 ^ 20 < nbRBYTES m)
  op == 0 || decide (4 < op) || used || nbCOUNT m == 0 || decide (2 ^ 38 ≤ nbSRC m) ||
    (match op with
      | 1 => rows
      | 2 => rows || !fmtVxe (nbFMT m) || !fmtVxe (nbOFMT m) || fmtIsFloat (nbFMT m) != fmtIsFloat (nbOFMT m) || nbBAG m == 0 ||
          nbRBYTES m % (fmtWidth (nbFMT m) / 8) != 0 ||
          (if mapMode s (nbStack m) then nbRSTRIDE m % 16384 != 0 || decide (16384 < nbRBYTES m)
           else (nbRanges m).any fun r => r.1 / 2 ^ 27 != (r.1 + r.2 - 1) / 2 ^ 27)
      | 3 => rows || decide (nb m 4 32 8 < 8) || decide (24 < nb m 4 32 8) || nbTPB m == 0 || decide (nbBlk m < nbTPB m * nbRBYTES m)
      | _ =>
        let x := nbX m
        x == 0 || (x != 2 && nbCOUNT m % 4 != 0) || (x == 1 && (fmtIllegal (nbFMT m) || nbFMT m == 0 || nbFMT m == 8)) ||
          (x != 1 && (decide (nbCBS m < 5) || decide (24 < nbCBS m) ||
            !(nbOFMT m == 1 || nbOFMT m == 2 || nbOFMT m == 3 || nbOFMT m == 4 || nbOFMT m == 10)))) ||
    (nbRanges m).any fun r => !nbInside m r

-- arming (R240, R241, R249) --------------------------------------------------------------------------------------------

/-- Legal pairs of kinds (Table 10-2). -/
def pairLegal (sk dk : Nat) : Bool :=
  match sk with
  | 0 => dk == 0 || dk == 1 || dk == 2 || dk == 4 || dk == 5 || dk == 6
  | 1 => decide (1 ≤ dk) && decide (dk ≤ 5)
  | 2 => decide (1 ≤ dk) && decide (dk ≤ 3)
  | 3 => dk == 0 || dk == 2 || dk == 4
  | 4 => decide (dk ≤ 1)
  | _ => false

/-- Bits that Table 10-1 does not define, and fields that the kinds do not use (R238, R239). -/
def templateReserved (ws : List (BitVec 64)) : Bool :=
  let sk := tSRCK ws
  let dk := tDSTK ws
  tw ws 0 3 1 != 0 || tw ws 0 7 1 != 0 || tw ws 0 13 3 != 0 || tw ws 0 24 40 != 0 || tw ws 2 48 16 != 0 || tw ws 3 52 12 != 0 ||
    tw ws 7 6 2 != 0 || tw ws 7 30 2 != 0 || tw ws 7 44 4 != 0 ||
    (sk != 4 && dk != 3 && tPKG ws != 0) ||
    (sk == 2 && (tw ws 1 0 48 != 0 || tw ws 4 0 64 != 0 || tw ws 6 0 32 != 0 || tw ws 0 16 4 != 0)) ||
    (sk == 3 && (tw ws 1 21 27 != 0 || tw ws 4 0 64 != 0)) ||
    ((dk == 4 || dk == 5) && (tw ws 2 0 48 != 0 || tw ws 5 0 64 != 0 || tw ws 6 32 32 != 0 || tw ws 0 20 4 != 0)) ||
    (dk == 6 && tw ws 5 0 64 != 0)

/-- The transfer that an STRMARM would arm now (R239): its effective bases and, for a near-bank command, the command. -/
def armXfer (s : State) (c t d : Nat) : Xfer :=
  let ws := template s c d
  let a := bits (getR64 s (rDESC_STAT c d)) 16 32
  let src := effBase (tw ws 1 0 48) (twS ws 6 0) (tw ws 0 16 4) a
  let dst := effBase (tw ws 2 0 48) (twS ws 6 32) (tw ws 0 20 4) a
  let src1 := if tSRCK ws = 1 ∨ tSRCK ws = 3 then src % 2 ^ 21 else src
  let dst1 := if tDSTK ws = 0 then dst % 2 ^ 21 else dst
  { id := s.xferId, slot := t, words := ws, src := src1, dst := dst1, phase := .moving, after := [], issued := 0, arrived := [], sent := 0,
    done := 0,
    cmd := if tSRCK ws = 3 then (List.range 8).map fun i => leNat (rdBytes s (storeBase c + src1 + 8 * i) 8) else [] }

/-- ILLEGAL_INSTR of an arming (Table 10-3, R180, R248): REASON 2. -/
def armReason2 (s : State) (c : Nat) (x : Xfer) : Bool :=
  let ws := x.words
  let sk := tSRCK ws
  let dk := tDSTK ws
  !pairLegal sk dk || templateReserved ws || tLEN0 ws == 0 || (tWAITEN ws && (tWCOUNT ws == 0 || decide (47 < tWCTR ws))) ||
    (tSIGEN ws && (tSCOUNT ws == 0 || decide (47 < tSCTR ws))) ||
    (dk == 2 && x.dst / 2 ^ 24 == 0x10000 + c) ||
    (sk == 3 && (nbBad s x.cmd || decide (tBytes ws < nbOut x.cmd)))

/-- An overlay that breaks R249: REASON 4. -/
def armReason4 (x : Xfer) : Bool :=
  let ws := x.words
  tDSTK ws == 6 && (tw ws 2 16 32 != 0 || x.dst % 1024 != 0 || decide (65536 < x.dst + tLEN0 ws) || tLEN0 ws % 1024 != 0 ||
    tROWS ws != 1 || tPLANES ws != 1)

/-- The first address of an extent that lies outside [a, b). -/
def firstOutside (e : Int × Int) (a b : Int) : Option Int :=
  if e.1 < a then some e.1 else if b ≤ e.2 then some (max e.1 b) else none

def srcExtent (x : Xfer) : Int × Int := xExtent x.words x.src (twS x.words 4 0) (twS x.words 4 32)
def dstExtent (x : Xfer) : Int × Int := xExtent x.words x.dst (twS x.words 5 0) (twS x.words 5 32)

/-- A bounds failure at arming (R123, R23, R241): whether the window failed (it fills SP_FAULT), whether it is the write side, the address. -/
def armBounds (s : State) (c t : Nat) (x : Xfer) : Option (Bool × Bool × Int) :=
  let (a, b) := slotWindow s c t
  let sk := tSRCK x.words
  let dk := tDSTK x.words
  let win := fun (wr : Bool) (e : Int × Int) => (lowestOutside e.1 e.2 a b).map fun z => (true, wr, z)
  let src := if sk = 1 then win false (srcExtent x)
    else if sk = 3 then
      (nbStoreRanges x.cmd x.src).findSome? fun r => win false ((r.1 : Int), (r.1 : Int) + (r.2 : Int) - 1)
    else if sk = 0 then (firstOutside (srcExtent x) 0 (2 ^ 38)).map fun z => (false, false, z)
    else none
  let dst := if dk = 0 then win true (dstExtent x)
    else if dk = 1 then
      match (firstOutside (dstExtent x) 0 (2 ^ 38)).map fun z => (false, true, z) with
      | some r => some r
      | none => if mirForeign s (dstExtent x).1.toNat ((dstExtent x).2 + 1 - (dstExtent x).1).toNat then some (false, true, (dstExtent x).1) else none
    else if dk = 2 then
      let k := x.dst / 2 ^ 24 - 0x10000
      if x.dst / 2 ^ 32 = 0x100 then
        (firstOutside (dstExtent x) (storeBase k : Nat) (storeBase k + 2 ^ 21 : Nat)).map fun z => (false, true, z)
      else some (false, true, (dstExtent x).1)
    else none
  match src with
  | some r => some r
  | none => dst

/-- An absent unit that an arming names (R241, R180, R278). -/
def armAbsent (s : State) (x : Xfer) : Option Nat :=
  let dk := tDSTK x.words
  if dk = 2 ∧ corePresent s (x.dst / 2 ^ 24 - 0x10000) = false then some (x.dst / 2 ^ 24 - 0x10000)
  else if tSIGEN x.words ∧ dk ≠ 3 ∧ corePresent s (tSCORE x.words) = false then some (tSCORE x.words)
  else if tSRCK x.words = 3 ∧ clusterPresent s (nbStack x.cmd) = false then some (8 * nbStack x.cmd)
  else none

/-- The fault of an STRMARM, if any (R241, R242, R466): one class, ILLEGAL_INSTR before SP_BOUNDS before ABSENT_UNIT; then the refusal of R242. -/
def armFault (s : State) (c t idx w : Nat) : Option State :=
  let d := armDesc w
  let x := armXfer s c t d
  if armReason2 s c x then some (illegal s c t 2 idx w)
  else if armReason4 x then some (illegal s c t 4 idx w)
  else match armBounds s c t x with
    | some (true, wr, z) => some (spBounds s c t 4 wr z)
    | some (false, wr, z) =>
      let s1 := if wr ∧ tDSTK x.words = 1 ∧ 0 ≤ z ∧ z < 2 ^ 38 then satF s (rMIR_STAT + 4) 0 16 1 else s
      some (raiseCore s1 c t cSP_BOUNDS 2 2 (unsigned 48 z) (4 + (if wr then 8 else 0)) 0)
    | none =>
      match armAbsent s x with
      | some k => some (raiseCore s c t cABSENT 2 2 k k 0)
      | none =>
        let st := descOf s c d
        if st.stopped.isSome ∨ st.shadow.isSome then
          some (raiseCore (satF s (rDESC_STAT c d) 8 8 1) c t cREARM 2 2 0 d 0)
        else none

/-- Whether a transfer names a counter of a mask (R252). -/
def namesCtr (c : Nat) (x : Xfer) (mask : Nat) : Bool :=
  (tWAITEN x.words && bits mask (tWCTR x.words) 1 == 1) ||
    (tSIGEN x.words && tSCORE x.words == c && tDSTK x.words != 3 && bits mask (tSCTR x.words) 1 == 1)

/-- The phase in which a transfer becomes active (R242, R243, R252). -/
def enterPhase (x : Xfer) : XPhase := if x.after ≠ [] then .fenced else if tWAITEN x.words then .waiting else .moving

/-- VALID bits of the blocks an overlay covers cleared (R130). -/
def clearBlocks (s : State) (c : Nat) (x : Xfer) : State :=
  let lo := x.dst / 1024
  let v := getR64 s (rOVL_VALID c)
  setR64 s (rOVL_VALID c) ((List.range (tLEN0 x.words / 1024)).foldl (fun a i => setBits a (lo + i) 1 0) v)

/-- STRMARM acts (R241, R242): the transfer becomes active or enters the shadow. -/
def armRun (s : State) (c t w : Nat) : State :=
  let d := armDesc w
  let x0 := armXfer s c t d
  let fs := (slotOf s c t).fences.filter fun f => namesCtr c x0 f.mask
  let x := { x0 with after := (fs.flatMap Fence.after).eraseDups }
  let st := descOf s c d
  let stat := getR64 s (rDESC_STAT c d)
  let s1 := setR64 { s with xferId := s.xferId + 1 } (rDESC_STAT c d) (setBits stat 16 32 (bits stat 16 32 + 1))
  let s2 := if tDSTK x.words = 6 then clearBlocks s1 c x else s1
  let s3 := ledIssue s2 qDESC 1
  if st.active.isNone then setDesc s3 c d { st with active := some { x with phase := enterPhase x } }
  else setDesc s3 c d { st with shadow := some x }

-- fences (R252) -----------------------------------------------------------------------------------------------------------

/-- Transfers of a slot that are active or in a shadow. -/
def slotXfers (s : State) (c t : Nat) : List Xfer :=
  (coreOf s c).desc.flatMap fun p => (p.2.active.toList ++ p.2.shadow.toList).filter fun x => x.slot == t

/-- LFENCE acts (R252): the earlier transfers that name a counter of the mask. A fence behind nothing is resolved at once. -/
def lfenceRun (s : State) (c t w : Nat) : State :=
  let m := fenceMask w
  let ids := ((slotXfers s c t).filter fun x => namesCtr c x m).map Xfer.id
  if m = 0 ∨ ids = [] then s else modSlot s c t fun x => { x with fences := x.fences ++ [⟨m, ids⟩] }

/-- A transfer has completed or been discarded: nothing waits behind it any more. -/
def fenceGone (s : State) (c id : Nat) : State :=
  let drop := fun (x : Xfer) => { x with after := x.after.filter (· ≠ id) }
  let s1 := modCore s c fun k => { k with desc := k.desc.map fun p => (p.1, { p.2 with active := p.2.active.map drop, shadow := p.2.shadow.map drop }) }
  (List.range 4).foldl (fun s t => modSlot s c t fun y =>
    { y with fences := (y.fences.map fun f => { f with after := f.after.filter (· ≠ id) }).filter fun f => f.after ≠ [] }) s1

/-- A descriptor's transfers end without completing (R250, R251, R416): STOPPED with its arming slot, the shadow discarded. -/
def endXfer (s : State) (c d : Nat) : State :=
  match (descOf s c d).active with
  | some a =>
    let sh := (descOf s c d).shadow
    let s1 := fenceGone (stopDesc s c d) c a.id
    match sh with
    | some y => fenceGone s1 c y.id
    | none => s1
  | none => s

/-- The active transfer of a descriptor changed, if it is still the one with this number. -/
def modXfer (s : State) (c d id : Nat) (f : Xfer → Xfer) : State :=
  let st := descOf s c d
  match st.active with
  | some x => if x.id = id then setDesc s c d { st with active := some (f x) } else s
  | none => s

-- DESC_WAIT_COMPLETE (R243) -------------------------------------------------------------------------------------------------

/-- A descriptor of a core that waits on counter n. -/
def waitsOn (s : State) (c n d : Nat) : Option Xfer :=
  match (descOf s c d).active with
  | some x => if x.phase = .waiting ∧ tWCTR x.words = n then some x else none
  | none => none

/-- Whether a WAITC of the running slot on counter n could complete now: it comes before a descriptor (R243). -/
def waitcFirst (s : State) (c n : Nat) : Bool :=
  (List.range 4).any fun t => slotState s c t == 2 &&
    (match (slotOf s c t).wait with | some (.ctr m k) => m == n && decide (k ≤ ctrAvail s c n) | _ => false)

/-- DESC_WAIT_COMPLETE: the wait completes in the order of R243, or in check mode too small a count stops the transfer. -/
def descWait (s : State) (c d : Nat) : State :=
  match (descOf s c d).active with
  | none => s
  | some x =>
    let n := tWCTR x.words
    if x.phase ≠ .waiting then s
    else if waitcFirst s c n ∨ ((List.range d).any fun e => match waitsOn s c n e with | some y => decide (tWCOUNT y.words ≤ ctrAvail s c n) | none => false) then s
    else if tWCOUNT x.words ≤ ctrAvail s c n then
      modXfer (setF s (rCTR_VAL c n) 0 16 (ctrValue s c n - tWCOUNT x.words)) c d x.id fun y => { y with phase := .moving }
    else if getB s (rCTR_CFG c n) 3 then
      raiseCore (endXfer s c d) c x.slot cUNDERFLOW 2 2 0 (ctrDetail s c n) 0
    else s

/-- FENCE_RELEASE (R252): a fenced transfer whose earlier transfers have ended leaves FENCED. -/
def fenceRelease (s : State) (c d : Nat) : State :=
  match (descOf s c d).active with
  | none => s
  | some x => if x.phase = .fenced ∧ x.after = [] then modXfer s c d x.id fun y => { y with phase := enterPhase y } else s

-- moving (R244 to R249) --------------------------------------------------------------------------------------------------------

/-- Total bytes of a transfer: its extent, or a near-bank command's output (R248). -/
def xTotal (x : Xfer) : Nat := if tSRCK x.words = 3 then nbOut x.cmd else tBytes x.words

/-- The descriptor that a feed takes bytes from (R246): the oldest queued operation's, or the staging register's. -/
def feedDesc (s : State) (c : Nat) (scales : Bool) : Nat :=
  let w := match (coreOf s c).mxq with | o :: _ => o.wt | [] => stag s c 1 0x30
  bits w.toNat (if scales then 8 else 0) 6

/-- Whether a feed descriptor holds (R246). -/
def feedHolds (s : State) (c d : Nat) (x : Xfer) : Bool :=
  (tDSTK x.words == 4 && feedDesc s c false != d) || (tDSTK x.words == 5 && feedDesc s c true != d)

/-- Bytes of room in a feed buffer (R246, R63). The scale buffer's two halves of 4 KiB hold one pass each: the pass that enters and the next, or the next two; a pass
of an operation not yet queued may fill its half. -/
def feedRoom (s : State) (c dk : Nat) : Nat :=
  let k := coreOf s c
  if dk = 4 then 16384 - k.elemBuf.length
  else
    let open_ := if k.mxq.any fun o => !o.passScales.isEmpty then 1 else 2
    ((passNeeds k.mxq ++ [4096, 4096]).take open_).foldl (· + ·) 0 - k.scaleBuf.length

/-- Bytes of a core's transfers on their way to one of its feed buffers, whichever descriptor asked for them (R246). -/
def feedFlight (s : State) (c dk : Nat) : Nat :=
  (coreOf s c).desc.foldl (fun a p => match p.2.active with
    | some x => if tDSTK x.words = dk then a + (x.issued - x.done) else a
    | none => a) 0

/-- The length of a piece from address a: within its row, a block of `blk` bytes, and n. -/
def pieceLen (x : Xfer) (b a blk n : Nat) : Nat := min n (min (tLEN0 x.words - b % tLEN0 x.words) (blk - a % blk))

/-- The port of a stack at which a core's requests arrive (R14, R162): its own cluster's core port, or a stack link (entry 23). -/
def firnPortOf (c k : Nat) : Nat := if c / 8 = k then c % 8 else 8 + c % 8
/-- The port at which a requester's requests arrive: a core's, or for the host, a service complex or a fabric port stack link 0 (entry 23). -/
def whoPort (w : FirnWho) (k : Nat) : Nat := match w.core with | some c => firnPortOf c k | none => 8

/-- Bytes that came back in order join `arrived`; the marks join theirs. -/
def takeEarly : Nat → Xfer → Xfer
  | 0, x => x
  | n + 1, x =>
    match x.early.find? fun p => p.1 == x.sent + x.arrived.length with
    | some (p, m, bs) =>
      takeEarly n { x with arrived := x.arrived ++ bs, marks := x.marks ||| m, early := x.early.filter fun q => q.1 != p }
    | none => x

/-- A piece of a transfer has come back: it waits for the pieces before it. A piece behind the byte at which the transfer stops moves nowhere (R250). -/
def landBytes (x : Xfer) (pos m : Nat) (bs : List Byte) : Xfer :=
  if bs.isEmpty || (match x.stopAt with | some p => decide (p ≤ pos) | none => false) then x
  else takeEarly (x.early.length + 1) { x with early := x.early ++ [(pos, m, bs)] }

/-- The requests of a transfer that wait at their source behind a byte are not issued (R250). -/
def dropWaiting (s : State) (id pos : Nat) : State := { s with firnWait := s.firnWait.filter fun r => r.id != id || decide (r.pos < pos) }

/-- A transfer whose bytes before its stop have all been delivered stops (R250). -/
def stopCheck (s : State) (c d : Nat) : State :=
  match (descOf s c d).active with
  | some x => (match x.stopAt with | some p => if p ≤ x.sent then endXfer s c d else s | none => s)
  | none => s

/-- The transfer stops at a byte of its order (R250, Table 07-5): what comes before it is still delivered, nothing after it moves. -/
def stopXfer (s : State) (c d id pos : Nat) : State :=
  let s1 := modXfer (dropWaiting s id pos) c d id fun y =>
    let p := match y.stopAt with | some q => min q pos | none => pos
    { y with stopAt := some p, early := y.early.filter fun q => decide (q.1 < p) }
  match (descOf s1 c d).active with
  | some x => if x.id = id then stopCheck s1 c d else s1
  | none => s1

/-- An error reply from the fabric (R250, R338): the transfer stops at the byte of its order, and its arming slot faults. -/
def descFabError (s : State) (c d id pos st : Nat) : State :=
  match (descOf s c d).active with
  | some x =>
    if x.id = id then
      let cls := statusClass st
      stopFloeOf (raiseCore (stopXfer s c d id pos) c x.slot cls 2 (if cls = cLINKDOWN then 1 else 2) 0 (16 * st) 0) c x.slot
    else s
  | none => s

/-- Whether a core's firn request finds room on its way: its own stack lies beneath its cluster, another is reached by the stream network (R15, R289). -/
def firnRoom (s : State) (c k : Nat) : Bool := decide (c / 8 = k) || coreRoom s c
/-- A core's firn request leaves. -/
def firnSend (s : State) (c : Nat) (r : FirnReq) : State :=
  if c / 8 = r.stack then { s with firnWait := s.firnWait ++ [r] } else coreOut s c 0 (.firnReq r)

/-- DESC_REQUEST_ISSUE (R244): the moving transfer asks for its next source bytes. -/
def descRequestIssue (s : State) (c d : Nat) : State :=
  let st := descOf s c d
  match st.active with
  | none => s
  | some x =>
    let dk := tDSTK x.words
    let room := if dk = 4 ∨ dk = 5 then feedRoom s c dk - feedFlight s c dk else xTotal x
    let left := min room (xTotal x - x.issued)
    if x.phase ≠ .moving ∨ left = 0 ∨ x.stopAt.isSome ∨ feedHolds s c d x then s
    else if room = 0 then s
    else match tSRCK x.words with
      | 0 =>
        let a := xSrc x x.issued
        let n := pieceLen x x.issued a 256 left
        let k := a / 2 ^ 33
        let r : FirnReq := { stack := k, port := firnPortOf c k, off := a % 2 ^ 33, len := n, wr := false, marks := if c / 8 = k then 0 else 64, data := [], core := c, desc := d, slot := x.slot, id := x.id, pos := x.issued }
        if firnRoom s c k then modXfer (firnSend s c r) c d x.id fun y => { y with issued := y.issued + n } else s
      | 1 =>
        let a := xSrc x x.issued
        let n := pieceLen x x.issued a 256 left
        let bs := rdBytes s (storeBase c + a) n
        modXfer s c d x.id fun y => { y with issued := y.issued + n, arrived := y.arrived ++ bs }
      | 2 =>
        let n := min left (min 256 st.hand.length)
        if n = 0 then s
        else
          let bs := st.hand.take n
          modXfer (setDesc s c d { st with hand := st.hand.drop n }) c d x.id fun y => { y with issued := y.issued + n, arrived := y.arrived ++ bs }
      | 4 =>
        if fabRoom s c = false then s
        else
          let a := xSrc x x.issued
          let n := pieceLen x x.issued a 4096 left
          let k : Packet := ⟨mkHdr 2 (tPKG x.words) (ownPkg s) 0 0 a n, [], []⟩
          match fabRequest s (.descRead c d x.id x.issued) k with
          | (s1, none) => modXfer s1 c d x.id fun y => { y with issued := y.issued + n }
          | (s1, some e) => descFabError s1 c d x.id x.issued e
      | _ => s

/-- A word of the instruction store (R129). -/
def iword (s : State) (c i : Nat) : BitVec 64 := mget (fun _ => 0) (coreOf s c).istore i

/-- Words written to the instruction store; a block whose last word is written becomes valid (R130). -/
def writeWords (s : State) (c : Nat) : Nat → List (BitVec 64) → State
  | _, [] => s
  | i, w :: ws =>
    let s1 := modCore (parClear s c 1 i) c fun k => { k with istore := mset (fun _ => 0) k.istore i w }
    let s2 := if i % 128 = 127 then setR64 s1 (rOVL_VALID c) (setBits (getR64 s1 (rOVL_VALID c)) (i / 128) 1 1) else s1
    writeWords s2 c (i + 1) ws

/-- 64-bit words of a run of bytes. -/
def wordsOf (bs : List Byte) : List (BitVec 64) := (List.range (bs.length / 8)).map fun i => BitVec.ofNat 64 (leNat ((bs.drop (8 * i)).take 8))

/-- One piece of the bytes that have arrived goes to the destination (R245 to R249). -/
def descSend (s : State) (c d : Nat) (x : Xfer) : State :=
  let have_ := x.arrived.length
  let a := xDst x x.sent
  let put := fun (s : State) (n : Nat) (landed : Bool) =>
    modXfer s c d x.id fun y => { y with arrived := y.arrived.drop n, sent := y.sent + n, done := if landed then y.done + n else y.done, marks := if y.arrived.length ≤ n then 0 else y.marks }
  match tDSTK x.words with
  | 0 =>
    let n := pieceLen x x.sent a 256 have_
    put (wrBytes s (storeBase c + a % 2 ^ 21) (x.arrived.take n)) n true
  | 1 =>
    let n := pieceLen x x.sent a 256 have_
    let k := a / 2 ^ 33
    let r : FirnReq := { stack := k, port := firnPortOf c k, off := a % 2 ^ 33, len := n, wr := true, data := x.arrived.take n, core := c, desc := d, slot := x.slot, id := x.id, pos := x.sent }
    if firnRoom s c k then put (firnSend s c r) n false else s
  | 2 =>
    let n := pieceLen x x.sent a 256 have_
    if (a / 2 ^ 24 - 0x10000) / 8 = c / 8 then put (wrBytes s a (x.arrived.take n)) n true
    else if coreRoom s c then put (coreOut s c 0 (.store a (x.arrived.take n) c d x.id)) n false
    else s
  | 3 =>
    if fabRoom s c = false then s
    else
      let n := pieceLen x x.sent a 4096 have_
      let last := decide (x.sent + n = xTotal x)
      let sig := last && tSIGEN x.words
      let h := mkHdr 1 (tPKG x.words) (ownPkg s) 0 0 a n
      let h1 := if sig then { h with sig := true, sctr := tSCTR x.words, score := tSCORE x.words, sgen := tSGEN x.words, scount := tSCOUNT x.words } else h
      match fabRequest s (.descWrite c d x.id n sig) ⟨h1, x.arrived.take n, []⟩ with
      | (s1, none) => put (if sig then ledIssue s1 qCTR 1 else s1) n false
      | (s1, some e) => descFabError s1 c d x.id x.sent e
  | 4 =>
    let n := min have_ (min 256 (feedRoom s c 4))
    put (modCore s c fun k => { k with elemBuf := k.elemBuf ++ x.arrived.take n, elemMark := runPush n x.marks k.elemMark }) n true
  | 5 =>
    let n := min have_ (min 256 (feedRoom s c 5))
    put (modCore s c fun k => { k with scaleBuf := k.scaleBuf ++ x.arrived.take n, scaleMark := runPush n x.marks k.scaleMark }) n true
  | _ =>
    let n := min have_ 256 / 8 * 8
    put (writeWords s c ((x.dst + x.sent) / 8) (wordsOf (x.arrived.take n))) n true

/-- DESC_DATA_WRITE: the next piece that has arrived is written, sent or fed; a transfer that an error stops ends with the last byte before it (R250). -/
def descDataWrite (s : State) (c d : Nat) : State :=
  match (descOf s c d).active with
  | none => s
  | some x => if x.phase = .moving ∧ x.arrived ≠ [] ∧ feedHolds s c d x = false then stopCheck (descSend s c d x) c d else s

-- completion (R242, R245) -------------------------------------------------------------------------------------------------

/-- The core whose stationary store, feed or instruction store a transfer wrote last. -/
def xEndCore (c : Nat) (x : Xfer) : Nat := if tDSTK x.words = 2 then x.dst / 2 ^ 24 - 0x10000 else c

/-- The signal that a completing transfer attaches (R245), with its place in the order of R215. -/
def xSignal (s : State) (c : Nat) (x : Xfer) : Sig :=
  let kind := if tSRCK x.words = 3 then 4 else 2
  let sc := tSCORE x.words
  if tDSTK x.words = 1 then
    ⟨sc, tSCTR x.words, tSCOUNT x.words, tSGEN x.words, 3, xDst x (xTotal x - 1) / 2 ^ 33, ownPkg s, c, kind, true⟩
  else
    let rc := xEndCore c x
    ⟨sc, tSCTR x.words, tSCOUNT x.words, tSGEN x.words, 2, if rc / 8 = sc / 8 then 0 else 1, ownPkg s, c, kind, true⟩

/-- Whether a completing transfer's signal finds room on its way, from where the last byte was written (R245, R289). -/
def xSigRoom (s : State) (c : Nat) (x : Xfer) : Bool :=
  let sc := tSCORE x.words
  let k := xDst x (xTotal x - 1) / 2 ^ 33
  if tSIGEN x.words = false ∨ tDSTK x.words = 3 then true
  else if tDSTK x.words = 1 then decide (k = sc / 8) || stackRoom s k sc
  else sigRoom s (xEndCore c x) sc
/-- The signal of a completing transfer leaves. -/
def xSigSend (s : State) (c : Nat) (x : Xfer) : State :=
  let g := xSignal s c x
  let k := xDst x (xTotal x - 1) / 2 ^ 33
  if tSIGEN x.words = false ∨ tDSTK x.words = 3 then s
  else if tDSTK x.words = 1 then (if k = g.core / 8 then sendSignal s g else ledIssue (stackOut s k g.core 0 (.sig g)) qCTR 1)
  else coreSend s (xEndCore c x) g

/-- DESC_COMPLETE (R242): the last byte is written. The signal leaves, the shadow becomes active, or the descriptor is IDLE. -/
def descComplete (s : State) (c d : Nat) : State :=
  let st := descOf s c d
  match st.active with
  | none => s
  | some x =>
    if x.phase ≠ .moving ∨ x.done < xTotal x ∨ xSigRoom s c x = false then s
    else
      let s1 := fenceGone (setDesc s c d { st with active := none, shadow := none }) c x.id
      let arm := bits (getR64 s1 (rDESC_STAT c d)) 16 32
      let s1 := match floeFor s1 c x.slot with | some f => traceOfFloe s1 (c / 8) f 4 (d + 2 ^ 32 * arm) 0 | none => s1
      let s2 := ledReturn1 s1 qDESC
      let s3 := xSigSend s2 c x
      match st.shadow with
      | none => s3
      | some y =>
        let y1 := { y with after := y.after.filter (· ≠ x.id) }
        setDesc s3 c d { descOf s3 c d with active := some { y1 with phase := enterPhase y1 } }

/-- A CLEAR of a slot returns the STOPPED descriptors it armed to IDLE (R250, R243). -/
def clearStopped (s : State) (c t : Nat) : State :=
  (List.range 64).foldl (fun s d => if (descOf s c d).stopped = some t then setDesc s c d { descOf s c d with stopped := none } else s) s

-- firn entries (R160 to R163) ------------------------------------------------------------------------------------------------

/-- Entries of one port of a channel controller (R160). -/
def portEntries (s : State) (k port : Nat) : Nat :=
  if clusterPresent s k then 2 else if port < 8 then 0 else 4

/-- The channel of a request that waits, and of one that holds an entry. -/
def waitChan (s : State) (r : FirnReq) : Nat := placeChan (firnPlace (mapMode s r.stack) r.off)
def entChan (r : FirnReq) : Nat := placeChan r.phys

/-- Entries in use of a port of a channel. -/
def portUsedBy (s : State) (k ch port : Nat) : Nat := (s.firnEnt.filter fun e => e.stack == k && e.port == port && entChan e == ch).length

/-- Whether a request belongs to the transfer that is active on its descriptor. -/
def reqXfer (s : State) (r : FirnReq) : Option Xfer :=
  match (descOf s r.core r.desc).active with
  | some x => if x.id = r.id then some x else none
  | none => none

/-- A firn write of a descriptor reaches an enabled region of an active secondary (R351, R23): nothing moves, and the transfer stops. -/
def foreignStop (s : State) (r : FirnReq) : State :=
  let s1 := satF s (rMIR_STAT + 4) 0 16 1
  match reqXfer s1 r with
  | some x => raiseCore (endXfer s1 r.core r.desc) r.core x.slot cSP_BOUNDS 2 2 (firnBase r.stack + r.off) 12 0
  | none => s1

/-- Whether a request that enters now waits for the maintenance window of the present slot or for the bank under refresh (R169, R170): 20 and 120 cycles from the slot's
start, at the nominal FCLK. -/
def inWindow (s : State) (k place : Nat) : Bool :=
  let l := if getB s (rFIRN_STAT k) 8 then 122 else 244
  let n := tbNow s / l
  let off := tbNow s % l * 17
  (stackOf s k).slotIdx == n * l + 1 && (decide (off < 200) || (decide (off < 1200) && placeBank place == (n + placeChan place) % 16))

/-- FIRN_REQUEST_ENTER (R160 to R162, R351): the oldest request waiting for a port of a channel takes an entry. A descriptor's write has landed once it enters
(R242). -/
def firnRequestEnter (s : State) (k ch port : Nat) : State :=
  match s.firnWait.find? (fun r => r.stack == k && r.port == port && waitChan s r == ch) with
  | none => s
  | some r =>
    let used := portUsedBy s k ch port
    if (stackOf s k).open_ = false ∨ portEntries s k port ≤ used then s
    else
      let s0 := { s with firnWait := s.firnWait.erase r }
      let a := firnBase k + r.off
      if r.wr ∧ mirForeign s a r.len then foreignStop s0 r
      else
        let enter := fun (s : State) =>
          let place := firnPlace (mapMode s k) r.off
          let s1 := ledIssue { s with firnEnt := s.firnEnt ++ [{ r with phys := place, marks := if inWindow s k place then r.marks ||| 8 else r.marks }] } qFIRNREQ 1
          if r.wr then modXfer s1 r.core r.desc r.id fun y => { y with done := y.done + r.len } else s1
        if r.wr then
          match mirDelta s a r.data with
          | none => enter s0
          | some p => if mirRoom s p then enter (mirSend s0 p) else s
        else enter s0

/-- The key of a request's first byte. -/
def entKey (r : FirnReq) : Nat := firnBase r.stack + r.phys

/-- Bytes of a transfer's read have come back; those behind a poisoned beat never do, and it stops there (R173, R250). -/
def readLands (s : State) (r : FirnReq) (marks : Nat) (bs : List Byte) (bad : Bool) : State :=
  let s1 := modXfer s r.core r.desc r.id fun y => landBytes y r.pos (r.marks ||| marks) bs
  if bad then stopXfer s1 r.core r.desc r.id (r.pos + bs.length) else s1

/-- A read entry is served (R167, R173): its bytes go to the transfer, from another stack by the stream network (R15). -/
def serveRead (s : State) (r : FirnReq) : State :=
  let s0 := ledReturn1 (openRow { s with firnEnt := s.firnEnt.erase r } (entKey r)) qFIRNREQ
  let who := match reqXfer s r with | some x => whoDesc r.core x.slot | none => { whoDesc r.core r.slot with owner := none }
  let x := readKeys s0 who 9 (entKey r) r.len
  if r.port < 8 then readLands x.1 r 0 x.2.1 x.2.2 else stackOut x.1 r.stack r.core 0 (.firnData r x.2.1 x.2.2)

/-- A write entry is served (R163): whole beats with new check symbols, the others merged. A merge into a poisoned beat stops the floe of the arming slot and, where it
still moves, the transfer, which issues nothing further (Table 07-5). -/
def serveWrite (s : State) (r : FirnReq) : State :=
  let s0 := ledReturn1 (openRow { s with firnEnt := s.firnEnt.erase r } (entKey r)) qFIRNREQ
  let (s1, bad) := writeKeys s0 (whoDesc r.core r.slot) 9 (entKey r) r.data
  if bad then
    match reqXfer s1 r with
    | some _ => endXfer (dropWaiting s1 r.id r.pos) r.core r.desc
    | none => s1
  else s1

/-- Whether an entry may be served: no earlier entry of its bank, and for a read no earlier read of its port, is outstanding in its channel (R162). -/
def entryReady (s : State) (r : FirnReq) : Bool :=
  let before := s.firnEnt.takeWhile (· ≠ r)
  let ch := fun (e : FirnReq) => e.stack == r.stack && entChan e == entChan r
  !(before.any fun e => ch e && placeBank e.phys == placeBank r.phys) && (r.wr || !(before.any fun e => !e.wr && ch e && e.port == r.port))

/-- The oldest entry of a port of a channel that a step serves: a read, a whole write, or a read-modify-write. -/
def serveOldest (s : State) (k ch port : Nat) (pick : FirnReq → Bool) (serve : State → FirnReq → State) : State :=
  if (stackOf s k).open_ = false then s
  else match s.firnEnt.find? (fun r => r.stack == k && entChan r == ch && r.port == port && pick r) with
    | some r => if entryReady s r && (r.wr || decide (r.port < 8) || stackRoom s k r.core) then serve s r else s
    | none => s

def firnReadReturn (s : State) (k ch port : Nat) : State := serveOldest s k ch port (fun r => !r.wr) serveRead
def firnWritePerformed (s : State) (k ch port : Nat) : State := serveOldest s k ch port (fun r => r.wr && !needsMerge r.off r.len) serveWrite
def readModifyWrite (s : State) (k ch port : Nat) : State := serveOldest s k ch port (fun r => r.wr && needsMerge r.off r.len) serveWrite

/-- Every entry of a channel is served, in the order of arrival: what has entered before another requester's access (R162). -/
def settleChan (s : State) (key : Nat) : Nat → State
  | 0 => s
  | n + 1 =>
    match s.firnEnt.find? (fun r => r.stack == key / 2 ^ 33 && entChan r == placeChan (key % 2 ^ 33)) with
    | none => s
    | some r => settleChan (if r.wr then serveWrite s r else serveRead s r) key n

/-- Whether a requester's request for a block of firn finds its stack accepting requests and an entry of its own port free (R161, R178, R179), every earlier read of a
stack link in its channel answered (R162), and, where it comes by stack link, no turn hold on its link (R198). -/
def pieceOpen (s : State) (w : FirnWho) (a : Nat) : Bool :=
  let k := a / 2 ^ 33
  let ch := placeChan (firnPlace (mapMode s k) (a % 2 ^ 33))
  (stackOf s k).open_ && decide (portUsedBy s k ch (whoPort w k) < portEntries s k (whoPort w k)) &&
    !(s.firnEnt.any fun e => e.stack == k && entChan e == ch && !e.wr && decide (8 ≤ e.port)) &&
    (w.core.isSome || w == whoFabric || !holdSeen s (8 * k) (k / 8) 0)

/-- Whether every block of n bytes of firn finds so: an access whose requests would wait at their source waits as a whole. -/
def firnOpenFor (s : State) (w : FirnWho) (a n : Nat) : Bool :=
  (List.range (if n = 0 then 0 else (a % 256 + n + 255) / 256)).all fun i => decide (2 ^ 38 ≤ a + 256 * i) || pieceOpen s w (a + 256 * i)
def firnOpen (s : State) (a n : Nat) : Bool := firnOpenFor s whoHost a n

/-- Whether n bytes from an address lie in the stationary store of a present core (R22 to R24). -/
def storeHas (s : State) (a n : Nat) : Bool :=
  let c := a / 2 ^ 24 - 0x10000
  decide (0x10000 ≤ a / 2 ^ 24) && corePresent s c && decide (a + n ≤ storeBase c + 2 ^ 21)

/-- n bytes read from a device address by a requester that no descriptor is (R162, R173): the bytes up to the first poisoned beat. Each request takes an entry of its
port, is served behind those that entered its channel before, and frees it. -/
def devRead (s : State) (w : FirnWho) : Nat → Nat → Nat → State × List Byte × Bool
  | 0, _, _ => (s, [], false)
  | fuel + 1, a, n =>
    if n = 0 then (s, [], false)
    else if isFirn a then
      let m := min n (256 - a % 256)
      let s1 := settleChan s (memKey s a) s.firnEnt.length
      let s2 := ledReturn1 (ledIssue s1 qFIRNREQ 1) qFIRNREQ
      let (s3, bs, bad) := readKeys (openRow s2 (memKey s a)) w 9 (memKey s a) m
      if bad then (s3, bs, true)
      else
        let r := devRead s3 w fuel (a + m) (n - m)
        (r.1, bs ++ r.2.1, r.2.2)
    else (s, rdBytes s a n, false)

/-- Bytes written at a device address by such a requester; every beat but a poisoned one is written. On a mirror primary each piece sends its DELTA (R351). An address
that is neither firn nor a present core's store changes nothing (R23, R24). -/
def devWrite (s : State) (w : FirnWho) : Nat → Nat → List Byte → State × Bool
  | 0, _, _ => (s, false)
  | fuel + 1, a, bs =>
    if bs.isEmpty then (s, false)
    else if isFirn a then
      let m := min bs.length (256 - a % 256)
      let s1 := settleChan s (memKey s a) s.firnEnt.length
      let s2 := ledReturn1 (ledIssue s1 qFIRNREQ 1) qFIRNREQ
      let s3 := match mirDelta s2 a (bs.take m) with | some p => mirSend s2 p | none => s2
      let (s4, p) := writeKeys (openRow s3 (memKey s a)) w 9 (memKey s a) (bs.take m)
      let (s5, q) := devWrite s4 w fuel (a + m) (bs.drop m)
      (s5, p || q)
    else (if storeHas s a bs.length then wrBytes s a bs else s, false)

-- near-bank delivery (R181 to R187) -------------------------------------------------------------------------------------------

/-- INT32 entry i of a list in the store. -/
def listEntry (s : State) (c base i : Nat) : Int := signed 32 (leNat (rdBytes s (storeBase c + base + 4 * i) 4))

/-- An out-of-range index or entry (R187) counted. -/
def nbOor (s : State) (m : List Nat) : State := satF s (rFIRN_NB_CNT (nbStack m)) 0 16 1

/-- n bytes of one row of a table from byte `at_` of it, at most as far as a beat goes, or zeros for an index out of range. It counts once in OOR, with the row's first
bytes: for KV_FETCH once for each token of a bad block (DESIGN CHOICE, entry 106). -/
def nbRow (s : State) (c t : Nat) (m : List Nat) (i : Int) (off at_ n : Nat) : State × List Byte × Bool :=
  if i < 0 ∨ (nbNROWS m : Int) ≤ i then (if at_ = 0 then nbOor s m else s, List.replicate n 0, false)
  else devRead s (whoNear c t) 2 (nbSRC m + off + at_) (min n (32 - (nbSRC m + off + at_) % 32))

/-- Elements added in index order (R182). -/
def nbAdd (f : Nat) (acc : List Nat) (bs : List Byte) : List Nat :=
  let cs := unpackLanes (fmtWidth f) (leNat bs) acc.length
  acc.zipWith (fun a x =>
    if fmtIsInt f then unsigned 32 (signed 32 a + signed (fmtWidth f) x)
    else (add32 a (toFloat sp32 0 false (decodeElem f x)).code).code) cs

/-- The output row of a bag: its sums converted to OFMT, RNE, SAT = 0 (R182). -/
def nbSumOut (m : List Nat) (acc : List Nat) : List Byte :=
  let o := nbOFMT m
  let vs := acc.map fun a => if fmtIsInt (nbFMT m) then intFV (signed 32 a) 0 else dec32 a
  leBytes (fmtWidth o / 8 * acc.length) (packLanes (fmtWidth o) (toPlainLanes o 0 false vs).1)

/-- A bag's rows from index i on, added (R182): the elements `acc` that start at byte `at_` of the row. -/
def nbBagSum (s : State) (c t : Nat) (m : List Nat) (at_ : Nat) : Nat → Nat → List Nat → State × List Nat × Bool
  | 0, _, acc => (s, acc, false)
  | n + 1, i, acc =>
    let x := listEntry s c (nbIDX m) i
    let len := fmtWidth (nbFMT m) / 8 * acc.length
    if x < 0 ∨ (nbNROWS m : Int) ≤ x then
      nbBagSum (if at_ = 0 then nbOor s m else s) c t m at_ n (i + 1) (nbAdd (nbFMT m) acc (List.replicate len 0))
    else
      let (s1, bs, bad) := devRead s (whoNear c t) 3 (nbSRC m + x.toNat * nbRSTRIDE m + at_) len
      if bad then (s1, acc, true) else nbBagSum s1 c t m at_ n (i + 1) (nbAdd (nbFMT m) acc bs)

/-- n packed elements of w bits from element i of an array in firn. -/
def nbElems (s : State) (c t base w i n : Nat) : State × List Nat × Bool :=
  let lo := i * w / 8
  let hi := ceilDiv ((i + n) * w) 8
  let (s1, bs, bad) := devRead s (whoNear c t) ((hi - lo) / 256 + 2) (base + lo) (hi - lo)
  (s1, unpackLanes w (leNat bs >>> (i * w % 8)) n, bad)

/-- A dense group of four: stored value 0 at p0, value 1 at p1, `z` elsewhere (R184). The second component tells that p0 = p1. -/
def denseGroup (z nib v0 v1 : Nat) : List Nat × Bool :=
  let p0 := bits nib 0 2
  let p1 := bits nib 2 2
  ((List.range 4).map fun q => if q = p1 then v1 else if q = p0 then v0 else z, p0 == p1)

/-- Groups of four from nibbles and stored values. -/
def denseGroups (z : Nat) : List Nat → List Nat → List Nat × Nat
  | nib :: ns, v0 :: v1 :: vs =>
    let g := denseGroup z nib v0 v1
    let r := denseGroups z ns vs
    (g.1 ++ r.1, (if g.2 then 1 else 0) + r.2)
  | _, _ => ([], 0)

/-- A piece of an EXPAND (R184, R185): n dense elements from element e, as codes; 2:4 positions that hold nothing become +0. METADUP counts the groups that are
delivered. -/
def nbExpand (s : State) (c t : Nat) (m : List Nat) (e n : Nat) : State × List Nat × Bool :=
  let x := nbX m
  let dup := fun (s : State) (bad : Bool) (k : Nat) => if bad then s else satF s (rFIRN_NB_CNT (nbStack m)) 16 16 k
  if x = 1 then
    let (s1, vs, b1) := nbElems s c t (nbSRC m) (fmtWidth (nbFMT m)) (e / 2) (n / 2)
    let (s2, ns, b2) := nbElems s1 c t (nb m 2 0 48) 4 (e / 4) (n / 4)
    let g := denseGroups 0 ns vs
    (dup s2 (b1 || b2) g.2, g.1, b1 || b2)
  else
    let ow := fmtWidth (nbOFMT m)
    let book := nbCB m + e / 2 ^ nbCBS m * 16 * (ow / 8)
    let (s1, cb, b1) := nbElems s c t book ow 0 16
    if x = 2 then
      let (s2, is, b2) := nbElems s1 c t (nbSRC m) 4 e n
      (s2, is.map fun i => cb.getD i 0, b1 || b2)
    else
      let (s2, is, b2) := nbElems s1 c t (nbSRC m) 4 (e / 2) (n / 2)
      let (s3, ns, b3) := nbElems s2 c t (nb m 2 0 48) 4 (e / 4) (n / 4)
      let g := denseGroups 0 ns (is.map fun i => cb.getD i 0)
      (dup s3 (b1 || b2 || b3) g.2, g.1, b1 || b2 || b3)

/-- Elements of a sum that are formed together: those whose bytes lie in one beat of every row, else one. -/
def sumElems (m : List Nat) (at_ : Nat) : Nat :=
  let eb := fmtWidth (nbFMT m) / 8
  let left := (nbRBYTES m - at_) / eb
  if nbRSTRIDE m % 32 = 0 then max 1 (min left ((32 - (nbSRC m + at_) % 32) / eb)) else 1

/-- A piece of the output of a near-bank command from output byte o: what one beat of its data gives (R186). With `small` it is the least piece, so that a poisoned beat
takes away no output that comes before it (Table 07-5). -/
def nbPiece (s : State) (c t : Nat) (m : List Nat) (o : Nat) (small : Bool) : State × List Byte × Bool :=
  let row := nbRowOut m
  let i := o / row
  let at_ := o % row
  match nbOP m with
  | 1 =>
    let x := listEntry s c (nbIDX m) i
    nbRow s c t m x (x.toNat * nbRSTRIDE m) at_ (min 32 (row - at_))
  | 2 =>
    let n := min (nbBAG m) (nbCOUNT m - i * nbBAG m)
    let src := at_ / (fmtWidth (nbOFMT m) / 8) * (fmtWidth (nbFMT m) / 8)
    let elems := if small then 1 else sumElems m src
    let (s1, acc, bad) := nbBagSum s c t m src n (i * nbBAG m) (List.replicate elems (if fmtIsInt (nbFMT m) then 0 else negZero32))
    (s1, if bad then [] else nbSumOut m acc, bad)
  | 3 =>
    let tok := nbFIRST m + i
    let b := listEntry s c (nbIDX m) (tok / nbTPB m)
    nbRow s c t m b (b.toNat * nbBlk m + tok % nbTPB m * nbRBYTES m) at_ (min 32 (row - at_))
  | _ =>
    let w := fmtWidth (if nbX m = 1 then nbFMT m else nbOFMT m)
    let e := o * 8 / w
    let (s1, cs, bad) := nbExpand s c t m e (min (if small then 4 else 32) (nbCOUNT m - e))
    (s1, if bad then [] else leBytes (ceilDiv (w * cs.length) 8) (packLanes w cs), bad)

/-- The next output of a near-bank command: the state after its reads, its bytes, and whether a poisoned beat was met. -/
def nbNext (s : State) (c t : Nat) (m : List Nat) (o : Nat) : State × List Byte × Bool :=
  let r := nbPiece s c t m o false
  if r.2.2 && (nbOP m == 2 || nbOP m == 4) then nbPiece s c t m o true else r

/-- A near-bank unit delivers the next output of a moving command of the kind that `pick` names (R186), through its core's port of the target stack; a feed takes it
as far as its lead goes (R246). From another stack the output comes by the stream network. A poisoned beat ends the output (Table 07-5). -/
def nearDeliver (s : State) (c d : Nat) (pick : List Nat → Bool) : State :=
  match (descOf s c d).active with
  | none => s
  | some x =>
    let room := if tDSTK x.words = 4 then feedRoom s c 4 - feedFlight s c 4 else 256
    if x.phase ≠ .moving ∨ tSRCK x.words ≠ 3 ∨ pick x.cmd = false ∨ xTotal x ≤ x.issued ∨ x.stopAt.isSome ∨ feedHolds s c d x ∨ room < 128 ∨
      pieceOpen s (whoNear c x.slot) (nbSRC x.cmd) = false ∨ (nbStack x.cmd ≠ c / 8 ∧ stackRoom s (nbStack x.cmd) c = false) then s
    else
      let k := nbStack x.cmd
      let (s1, bs, bad) := nbNext s c x.slot x.cmd x.issued
      let r : FirnReq := { stack := k, port := firnPortOf c k, off := 0, len := bs.length, wr := false, data := [], core := c, desc := d, slot := x.slot, id := x.id, pos := x.issued, marks := if k = c / 8 then 0 else 64 }
      let s2 := modXfer s1 c d x.id fun y => { y with issued := if bad then xTotal y else y.issued + bs.length }
      if k = c / 8 then readLands s2 r 0 bs bad else stackOut s2 k c 0 (.firnData r bs bad)

def gatherRun (s : State) (c d : Nat) : State := nearDeliver s c d fun m => nbOP m == 1
def gatherSumRun (s : State) (c d : Nat) : State := nearDeliver s c d fun m => nbOP m == 2
def kvFetchRun (s : State) (c d : Nat) : State := nearDeliver s c d fun m => nbOP m == 3
def expandSparseRun (s : State) (c d : Nat) : State := nearDeliver s c d fun m => nbOP m == 4 && nbX m == 1
def expandCodebookRun (s : State) (c d : Nat) : State := nearDeliver s c d fun m => nbOP m == 4 && nbX m == 2
def expandBothRun (s : State) (c d : Nat) : State := nearDeliver s c d fun m => nbOP m == 4 && nbX m == 3

end Sys2Proof.Machine
end

