-- ==== Sys2Proof/Machine/Lag.lean ====
section
/-! DEFINITION. SWR's writes and its hand-off to a descriptor (R112, R247), quiescence (R135), and lateness: what a slot's engine work waits on, with the marks and the attribution of R202, and the lags that stop a floe (R75, R76, R111, R203). -/

namespace Sys2Proof.Machine

/-- The bytes that a descriptor's active transfer can take from SWR now (R247): it moves, its source is SWR, and no earlier piece waits at its destination. -/
def handRoom (d : DescSt) : Nat :=
  match d.active with
  | some a => if a.phase = .moving ∧ tSRCK a.words = 2 ∧ a.arrived = [] then tBytes a.words - a.issued else 0
  | none => 0

/-- Bytes handed to the active transfer (R247). -/
def handOver (d : DescSt) (bs : List Byte) : DescSt :=
  { d with active := d.active.map fun a => { a with issued := a.issued + bs.length, arrived := a.arrived ++ bs } }

/-- SWR_WRITE_PERFORMED: the active SWR write takes elements from its skid buffer and writes them, or hands their bytes to its descriptor's active transfer. Bytes of an
entry beyond that transfer's extent stay in SWR until the next one takes them (R247), and the write lasts as long. -/
def swrWritePerformed (s : State) (c : Nat) : State :=
  let k := coreOf s c
  match k.swrq with
  | [] => s
  | x :: rest =>
    let d := descOf s c x.gen.desc
    let m := handRoom d
    if x.gen.dest ∧ d.hand ≠ [] then
      if m = 0 then s
      else
        let q := if d.hand.length ≤ m ∧ x.next = genTotal x.gen then rest else k.swrq
        modCore (setDesc s c x.gen.desc (handOver { d with hand := d.hand.drop m } (d.hand.take m))) c fun y => { y with swrq := q }
    else
      let n := swrTake x (floCount k)
      if n = 0 ∨ (x.gen.dest = true ∧ m = 0) then s
      else
        let (es, flo) := takeFlo n k.flo
        let last := decide (x.next + n = genTotal x.gen)
        if x.gen.dest then
          let bs := packBytes x.gen.fmt es
          let q := if last && decide (bs.length ≤ m) then rest else { x with next := x.next + n } :: rest
          modCore (setDesc s c x.gen.desc (handOver { d with hand := bs.drop m } (bs.take m))) c fun y => { y with flo := flo, swrq := q }
        else
          let q := if last then rest else { x with next := x.next + n } :: rest
          modCore (writeElems s c x.gen x.next es) c fun y => { y with flo := flo, swrq := q }

-- quiescence (R135, R136) ----------------------------------------------------------------------------------------------

/-- Whether a slot's engine work has completed: its MXE operations, vector words with their pending writes, pass-throughs and SWR writes, and its FLO output handed over.
Tile transfers that no queued operation will consume are not waited for. -/
def engineQuiet (s : State) (c t : Nat) : Bool :=
  let k := coreOf s c
  !(k.mxq.any fun o => o.slot == t) && !(k.vxq.any fun x => x.slot == t) && !(k.passq.any fun x => x.slot == t) &&
    !(k.swrq.any fun x => x.slot == t) && k.pend.isEmpty && pathFree s c 4

/-- The reasons in a set of marks (R202): bit 3 REFRESH, 4 LINK, 5 NETWORK; bit 6 tells that the bytes came through a crossing queue, whose reason CROSSING holds
where no mark does. -/
def markReasons (m : Nat) : List Nat := [3, 4, 5, 6].filter fun r => bits m r 1 == 1

/-- The marks of a late feed item of n bytes: of its bytes that have arrived, and of the requests of the feed's descriptor that are on their way (R202). -/
def feedMarks (s : State) (c : Nat) (scales : Bool) (n : Nat) : Nat :=
  let k := coreOf s c
  let d := feedDesc s c scales
  let here := runMarks n (if scales then k.scaleMark else k.elemMark)
  let x := match (descOf s c d).active with | some x => x.marks | none => 0
  let on := fun (q : FirnReq) => q.core == c && q.desc == d && !q.wr
  let near := (s.firnWait ++ s.firnEnt).foldl (fun a q => if on q then a ||| q.marks else a) (here ||| x)
  (netLoads s).foldl (fun a p => match p.2 with
    | .firnReq q | .firnData q _ _ => if on q then a ||| p.1 ||| q.marks else a
    | .fromFab _ y => match (trkOf s y.pkt.hdr.tag).busy with
      | some (.descRead k e _ _, _, _) => if k = c ∧ e = d ∧ y.pkt.hdr.typ = 3 then a ||| p.1 ||| y.marks else a
      | _ => a
    | _ => a) near

/-- The reason of a late feed item: its marks, CROSSING for bytes that came through a crossing queue, else FIRN (R202, Table 08-5). -/
def feedReason (s : State) (c : Nat) (scales : Bool) (n : Nat) : Nat := ((markReasons (feedMarks s c scales n)).min?).getD 7

/-- What a slot's entering MXE operation lacks (R61, R63, R67, R69, R202), as reasons: its scales or a weight column, its input tile, the drain of the accumulator
column it would overwrite. -/
def mxeWaits (s : State) (c t : Nat) : List Nat :=
  let k := coreOf s c
  match entering k.mxq with
  | none => []
  | some (i, o) =>
    if o.slot ≠ t ∨ o.col = opNt o then []
    else
      let need := colScales o * opNt o
      (if k.elemBuf.length < colBytes o then [feedReason s c false (colBytes o)] else []) ++
        (if o.col = 0 ∧ k.scaleBuf.length < need then [feedReason s c true need] else []) ++
        (if o.col = 0 ∧ (k.shadow.any (·.ready)) = false then [8] else []) ++ (if accFree k.mxq i o then [] else [11])

/-- What a slot's SWR writes wait on (R247): 9 when elements or bytes are at hand and the descriptor cannot take them. -/
def swrWaits (s : State) (c t : Nat) : List Nat :=
  let k := coreOf s c
  match k.swrq with
  | [] => []
  | x :: _ =>
    let d := descOf s c x.gen.desc
    if x.slot = t ∧ x.gen.dest ∧ (d.hand ≠ [] ∨ swrTake x (floCount k) ≠ 0) ∧ handRoom d = 0 then [9] else []

/-- The reason of the item that a slot's engine work waits on, the lowest of several, or ENGINE_BUSY when it waits on nothing outside the engines
(R136, R206; entry 96). -/
def quiesceCode (s : State) (c t : Nat) : Nat := ((mxeWaits s c t ++ swrWaits s c t).min?).getD 11

/-- The items of a slot's engine paths that come next and have not been processed, each with its nominal cycle and its reason when it is late (R75, R111): a weight
column, a drain emission, a pass-through item, and the vector word at the head of the queue. An item late only because one ahead of it is takes its reason. -/
def nextItems (s : State) (c t : Nat) : List (Nat × Nat) :=
  let k := coreOf s c
  let up := (mxeWaits s c t).min?
  let full := fun (r : Nat) => if 8 ≤ fliEarly s c then 9 else r
  let col := match entering k.mxq with
    | some (_, o) => if o.slot = t ∧ o.col ≠ opNt o then [(colDue o o.pass o.col, up.getD 11)] else []
    | none => []
  let drain := match k.mxq.head? with
    | some o =>
      if o.slot = t ∧ opDrain o ∧ (o.emit < opNt o ∨ o.group ≠ []) then
        [(drainDue o, up.getD (if fmtIsMx (opOut o) then 9 else full 11))]
      else []
    | none => []
  let pass := match k.passq with
    | x :: _ => if x.slot = t then [(x.due, full (if tileCan s c then 8 else 11))] else []
    | [] => []
  let vx := match k.vxq with
    | e :: _ =>
      if e.slot = t then
        [(e.due, if pathFree s c 4 = false then 11 else if vecPending s c t e.word.toNat then 12
          else if floRoom s c (slotOf s c t).vl e.word.toNat then up.getD 7 else 9)]
      else []
    | [] => []
  col ++ drain ++ pass ++ vx

/-- The reasons for which a running slot's paths stop its floe at a count of n: an item not processed by then has a lag that would reach 9 (R76). -/
def lagReasons (s : State) (c t n : Nat) : List Nat := (nextItems s c t).filterMap fun p => if p.1 + 8 ≤ n then some p.2 else none

/-- Whether every lag of a slot's paths is 0 at a count of n (R76). -/
def lagFree (s : State) (c t n : Nat) : Bool := (nextItems s c t).all fun p => decide (n ≤ p.1)

end Sys2Proof.Machine
end

