-- ==== Sys2Proof/Machine/Issue.lean ====
section
/-! DEFINITION. The sequencer (05_core_sequencer.md, 06): fetching a group, its faults, its waits, its checks and its action; task slots, switch points and
floes (08). -/

namespace Sys2Proof.Machine

-- who may issue ------------------------------------------------------------------------------------------------------

/-- Whether a core's sequencer runs: the core is present, its region is powered and not gated, no reset holds it and its die is not halted (R306, R416, R432). -/
def coreRuns (s : State) (c : Nat) : Bool :=
  corePresent s c && regionUp s (c / 8) && !(clusterOf s (c / 8)).gated && !(s.resetting.contains c) && !getB s (rMLOG_STAT (c / 64)) 7

/-- CORE_CTL.TSW (R135). -/
def tsw (s : State) (c : Nat) : Bool := getB s (rCORE_CTL c) 0

/-- The slot that a switch point of slot t chooses: the first READY in the order t + 1, t + 2, t + 3 (R135). -/
def chooseReady (s : State) (c t : Nat) : Option Nat := [(t + 1) % 4, (t + 2) % 4, (t + 3) % 4].find? fun u => slotState s c u == 1

-- fetching a group (R131) ---------------------------------------------------------------------------------------------

/-- What the sequencer finds when it reads a group: its words with their indexes, a block that is not valid, execution past the store, or a parity error. -/
inductive Fetch where
  | words (l : List (Nat × Nat))
  | overlay
  | past
  | parity
  deriving DecidableEq, Repr

/-- Whether a word ends its group (R131). -/
def endsGroup (o : Op) : Bool := o = .loop || o = .endl || o = .jmp || o = .halt

/-- Words are read from an index until one with D ≥ 1 follows, a group-ending word is read, or five words are read. -/
def fetchWords (s : State) (c : Nat) : Nat → Nat → List (Nat × Nat) → Fetch
  | 0, _, acc => .words acc
  | n + 1, i, acc =>
    if 8191 < i then (if acc.isEmpty then .past else .words acc)
    else if bits (getR64 s (rOVL_VALID c)) (i / 128) 1 = 0 then .overlay
    else if parBad s c 1 i then .parity
    else
      let w := (iword s c i).toNat
      if !acc.isEmpty && decide (1 ≤ wD w) then .words acc
      else if endsGroup (wOp w) then .words (acc ++ [(i, w)])
      else fetchWords s c n (i + 1) (acc ++ [(i, w)])

/-- The group at a slot's pc. -/
def fetchGroup (s : State) (c t : Nat) : Fetch := fetchWords s c 5 (slotOf s c t).pc []

/-- The first word at a slot's pc, where it can be read. -/
def leadWord (s : State) (c t : Nat) : Option Nat :=
  let i := (slotOf s c t).pc
  if i ≤ 8191 ∧ bits (getR64 s (rOVL_VALID c)) (i / 128) 1 = 1 then some (iword s c i).toNat else none

-- faults of a word's own bits (R142 to R157) ----------------------------------------------------------------------------

/-- The group rules (R114, R115): the word is the fifth, its unit repeats, or it has D = 0 after a jump. -/
def groupRule (x : SlotSt) (pos : Nat) (before : List (Nat × Nat)) (w : Nat) : Bool :=
  decide (4 ≤ pos) || (before.any fun p => wUnit p.2 == wUnit w && wOp p.2 ≠ .bad && wOp w ≠ .bad) || (pos == 0 && x.jumped && wD w == 0)

/-- The loop and jump rules (R125, R146). -/
def loopRule (x : SlotSt) (i w : Nat) : Bool :=
  match wOp w with
  | .loop => decide (4 ≤ x.loops.length) || decide (loopEndidx w ≤ i)
  | .endl => match x.loops with | [] => true | l :: _ => l.endIdx != i
  | .jmp => !x.loops.isEmpty
  | _ => false

/-- The lowest REASON that a word of a group has (R157). -/
def staticReason (x : SlotSt) (pos : Nat) (before : List (Nat × Nat)) (i w : Nat) : Option Nat :=
  let r := (match wordReason x.vmask w with | some r => [r] | none => []) ++ (if groupRule x pos before w then [5] else []) ++
    (if loopRule x i w then [6] else [])
  r.min?

/-- The first word of a group that faults on its own bits: its index, the word and its REASON. -/
def staticFault (x : SlotSt) : Nat → List (Nat × Nat) → List (Nat × Nat) → Option (Nat × Nat × Nat)
  | _, _, [] => none
  | pos, before, (i, w) :: r =>
    match staticReason x pos before i w with
    | some k => some (i, w, k)
    | none => staticFault x (pos + 1) (before ++ [(i, w)]) r

-- register values a word reads ---------------------------------------------------------------------------------------------

/-- The value a format-C word writes (R148). -/
def cfgValue (s : State) (c t w : Nat) : Nat :=
  match cfgSrc w with
  | 0 => cfgImm w
  | 1 => ((areg s c t (cfgRidx w)).toNat + cfgImm w) % 2 ^ 32
  | _ => ((sregNow s c t (cfgRidx w)).toNat + cfgImm w) % 2 ^ 32

/-- The count a LOOP latches (R126). -/
def loopCount (s : State) (c t w : Nat) : Nat := bits (sregNow s c t (loopSk w)).toNat 0 24

/-- The scalar registers a sequencer word reads. -/
def scalarReads (w : Nat) : List Nat :=
  match wOp w with
  | .loop => [loopSk w]
  | .aadd => if aaddXsrc w = 1 then [aaddSx w] else []
  | .sldcfg | .mxcfg | .swrcfg => if cfgSrc w = 2 then [cfgRidx w] else []
  | .send => (List.range (sendLen w)).map (sendSx w + ·)
  | _ => []

/-- Whether a vector word would start at once (R111), and not join the queue. -/
def startsNow (s : State) (c t w : Nat) : Bool := isVec w && (coreOf s c).vxq.isEmpty && vxeReady s c t w

/-- A register that a word reads has a pending write (R91): a vector word that has started, or waits in the queue, will write a scalar register that this word reads at
issue, or has yet to write one that a word starting now reads. -/
def operandPending (s : State) (c t w : Nat) : Bool :=
  ((scalarReads w ++ issueReads w).any fun r =>
    match queuedWrite (coreOf s c).vxq t r with
    | some v => v.isNone
    | none => regPend s c (sregKey t r)) ||
    (startsNow s c t w && vecPending s c t w)

-- waits (R117, R149, R216, R228, R232) ----------------------------------------------------------------------------------------

/-- A VUPDSR that would roll waits for every queued operation that captures (R261). -/
def rollWaits (s : State) (c t w : Nat) : Bool :=
  getB s (rSCL_CTL c) 0 && decide (bits (sregNow s c t (vSX w + 1)).toNat 0 32 ≠ (getR s (rSCL_STEP c)).toNat) && (coreOf s c).mxq.any opAmaxEn

/-- Whether a WAITC cannot complete and waits: it neither faults on OVF nor in check mode (R216, R219). -/
def waitcWaits (s : State) (c t w : Nat) : Bool :=
  !waitcCan s c t w && !getB s (rCTR_STAT c (synCtr w)) 1 && !getB s (rCTR_CFG c (synCtr w)) 3

/-- The MIRCOMMITs not yet acknowledged (R352). -/
def mirUnacked (s : State) : Nat := s.mirror.unacked.length

/-- The reason for which the vector word at the head of the queue is late (R111): a ninth word stops the floe under it (R76). -/
def vxReason (s : State) (c t : Nat) : Nat :=
  match (coreOf s c).vxq with
  | e :: _ =>
    if pathFree s c 4 = false then 11
    else if vecPending s c t e.word.toNat then 12
    else if floRoom s c (slotOf s c t).vl e.word.toNat then ((mxeWaits s c t).min?).getD 7 else 9
  | [] => 11

/-- The stall reason for which a word cannot issue now, or 0 (Table 08-4). -/
def wordWait (s : State) (c t i w : Nat) : Nat :=
  let k := coreOf s c
  let full := fun (b : Bool) => if b then 11 else 0
  let base := match wOp w with
    | .mxgo => full (decide (2 ≤ k.mxq.length))
    | .sldgo => if sldKind w = 0 then full (decide (2 ≤ k.tileq.length)) else full (decide (2 ≤ k.passq.length))
    | .swrgo => full (decide (2 ≤ k.swrq.length))
    | .lfence => full (decide (4 ≤ (slotOf s c t).fences.length) && fenceMask w != 0)
    | .waitc => if waitcWaits s c t w then 13 else 0
    | .recv => if ichState s c (recvIch w) = 0 ∧ (recvMsg s c t (recvIch w)).isNone then 14 else 0
    | .send => if (sendFault s c t i w).isNone && !sendReady s c w then 9 else 0
    | .sigc => if sigLocal w = 0 ∧ corePresent s (sigCore w) = true ∧ sigRoom s c (sigCore w) = false then 9 else 0
    | .mircommit => if mirMode s = 1 ∧ mirActive s = true ∧ 8 ≤ mirUnacked s then 9 else 0
    | .loop => if loopCount s c t w = 0 ∧ loopEndidx w ≤ 8191 ∧ bits (getR64 s (rOVL_VALID c)) (loopEndidx w / 128) 1 = 0 then 10 else 0
    | _ =>
      if isVec w then
        (if 8 ≤ k.vxq.length then vxReason s c t else full ((startsNow s c t w && !pathFree s c 4) || (wOp w = .vupdsr && rollWaits s c t w)))
      else 0
  if base ≠ 0 then base else if operandPending s c t w then 12 else 0

-- checks at issue (R466) -------------------------------------------------------------------------------------------------------

/-- The unit number of a format-C word's registers: 1 SLD, 2 MXE, 3 SWR. -/
def dynFault (s : State) (c t : Nat) (i w : Nat) : Option State :=
  let ill := fun r => some (illegal s c t r i w)
  match wOp w with
  | .sldcfg | .mxcfg | .swrcfg => if stagBadFmt (wUnit w) (cfgReg w) (cfgValue s c t w) then ill 3 else none
  | .mxgo => match mxgoBad (mxLatch s c t i w) with | some r => ill r | none => none
  | .sldgo =>
    if sldKind w = 0 then (if tileBad (tileLatch s c t w) then ill 4 else none)
    else
      let g := genLatch s c false
      if genBad g then ill 4
      else match genOutside s c t g with | some z => some (spBounds s c t 2 false z) | none => none
  | .swrgo =>
    let g := genLatch s c true
    if genBad g then ill 4
    else if g.dest then none
    else match genOutside s c t g with | some z => some (spBounds s c t 3 true z) | none => none
  | .waitc =>
    if getB s (rCTR_STAT c (synCtr w)) 1 then some (raiseCore s c t cOVERFLOW 2 2 0 (ctrDetail s c (synCtr w)) 0)
    else if waitcCan s c t w then none
    else some (raiseCore s c t cUNDERFLOW 2 2 0 (ctrDetail s c (synCtr w)) 0)
  | .sigc =>
    if sigLocal w = 0 ∧ corePresent s (sigCore w) = false then some (raiseCore s c t cABSENT 2 2 (sigCore w) (sigCore w) 0) else none
  | .send => sendFault s c t i w
  | .recv => recvFault s c t i w
  | .strmarm => armFault s c t i w
  | .loop => if loopCount s c t w = 0 ∧ wOp (iword s c (loopEndidx w)).toNat ≠ .endl then ill 6 else none
  | .vshuf =>
    if (coreOf s c).vxq.isEmpty && vxeReady s c t w && shufBad (fnPat w) (effLen (slotOf s c t).vl w) then ill 4 else none
  | _ => none

/-- The fault of the lowest-indexed word that a check refuses. -/
def groupFault (s : State) (c t : Nat) (l : List (Nat × Nat)) : Option State := l.findSome? fun p => dynFault s c t p.1 p.2

-- the action of a group (R116) -----------------------------------------------------------------------------------------------------

/-- Address arithmetic (R119). -/
def aaddRun (s s0 : State) (c t w : Nat) : State :=
  let x := if aaddXsrc w = 1 then (sregNow s0 c t (aaddSx w)).toNat else unsigned 32 (signed 16 (aaddImm w))
  setAreg s c t (aaddAd w) (BitVec.ofNat 32 ((areg s0 c t (aaddAs w)).toNat + x))

/-- The regions that a MIRCOMMIT commits (R352): those its word names of the active ones. -/
def commitRegions (s : State) (w : Nat) : Nat :=
  (List.range 16).foldl (fun a r => if bits s.mirror.active r 1 = 1 then a ||| (mirRegions w &&& 2 ^ r) else a) 0

/-- Commits (R352): ISSUED rises and a COMMIT follows the DELTAs already sent. MODE off or secondary makes it a NOP (R349). -/
def mircommitRun (s : State) (w : Nat) : State :=
  if mirMode s ≠ 1 ∨ mirActive s = false then s
  else
    let n := (getR64 s rMIR_SEQ + 1) % 2 ^ 32
    let s1 := setR s rMIR_SEQ (BitVec.ofNat 32 n)
    let regs := commitRegions s w
    let s2 := ledIssue { s1 with mirror := { s1.mirror with unacked := s1.mirror.unacked ++ [(n, tbNow s)] } } qMIRSEQ 1
    let s2 := (List.range 16).foldl (fun s r => if bits regs r 1 = 1 then setMirDeltas s r 0 else s) s2
    let s2 := if getF s2 rMIR_CTL 8 8 ≤ mirBehind s2 then mirLagging s2 else s2
    txPush s2 0 0 ⟨{ mkHdr 13 (getF s (rFAB_STAT 0) 16 16) (ownPkg s) 0 0 0 0 with seq := n, regions := regs }, [], []⟩

/-- What a word does, from the registers before its group (R116): the GO words, the arming and the SEND. -/
def actEarly (s s0 : State) (c t : Nat) (p : Nat × Nat) : State :=
  let w := p.2
  match wOp w with
  | .mxgo => mxgoRun s c t p.1 w
  | .sldgo =>
    if sldKind w = 0 then modCore s c fun k => { k with tileq := k.tileq ++ [tileLatch s0 c t w] }
    else modCore s c fun k => { k with passq := k.passq ++ [⟨t, genLatch s0 c false, 0, passDue s c t⟩] }
  | .swrgo => modCore s c fun k => { k with swrq := k.swrq ++ [⟨t, genLatch s0 c true, 0, 0⟩] }
  | .send => sendRun s c t w
  | .strmarm => armRun s c t w
  | _ => s

/-- The configuration words, the address unit and the sync unit. -/
def actMid (s s0 : State) (c t : Nat) (p : Nat × Nat) : State :=
  let w := p.2
  match wOp w with
  | .sldcfg | .mxcfg | .swrcfg =>
    setStag s c (wUnit w) (cfgReg w) (BitVec.ofNat 32 (cfgValue s0 c t w &&& stagMask (wUnit w) (cfgReg w)))
  | .aadd => aaddRun s s0 c t w
  | .waitc => waitcRun s c t w
  | .sigc => sigcRun s c w
  | .lfence => lfenceRun s c t w
  | .mircommit => mircommitRun s w
  | _ => s

/-- The vector words. -/
def actVec (s : State) (c t : Nat) (p : Nat × Nat) : State := if isVec p.2 then vxeIssue s c t p.1 p.2 else s

/-- RECV, with the word its handler dispatches to. -/
def actRecv (s : State) (c t : Nat) (l : List (Nat × Nat)) : State × Option Nat :=
  match l.find? (fun p => wOp p.2 = .recv) with
  | some p => recvRun s c t p.2
  | none => (s, none)

/-- Where the slot continues (R125 to R127, R131), from the loops and counts before the group; the next group's D counts from this floe cycle (R113). -/
def advance (s0 s : State) (c t : Nat) (l : List (Nat × Nat)) (disp : Option Nat) : State :=
  let x0 := slotOf s0 c t
  let next := x0.pc + l.length
  let set := fun (pc : Nat) (loops : List LoopSt) (j : Bool) =>
    modSlot s c t fun x => { x with pc := pc, loops := loops, jumped := j, cyc := floeNow s0 c t, fresh := false }
  match disp with
  | some e => set e x0.loops true
  | none =>
    match l.getLast? with
    | none => s
    | some (i, w) =>
      match wOp w with
      | .loop =>
        let n := loopCount s0 c t w
        if n = 0 then set (loopEndidx w + 1) x0.loops true else set (i + 1) (⟨i + 1, loopEndidx w, n⟩ :: x0.loops) true
      | .endl =>
        match x0.loops with
        | q :: r => if 1 < q.left then set q.start ({ q with left := q.left - 1 } :: r) true else set (i + 1) r true
        | [] => s
      | .jmp => set (jmpTarget w) x0.loops true
      | _ => set next x0.loops false

/-- Engine work of a slot that has left the core counts while it lasts, under the reason of what it waits on (R136). -/
def quiesceReason (s : State) (c t : Nat) : State := if engineQuiet s c t then s else setReason s c t (quiesceCode s c t)

/-- A task switch begins (R135): the outgoing slot takes its new state. -/
def beginSwitch (s : State) (c t u st : Nat) : State :=
  quiesceReason (modCore (setSlotState s c t st) c fun k => { k with switch := some { out := t, inn := u, quiet := false } }) c t

/-- TASK_STAT.CAUSE and INDEX. -/
def setCause (s : State) (c t cause index : Nat) : State := setF (setF s (rTASK_STAT c t) 4 2 cause) (rTASK_STAT c t) 8 6 index

/-- A switch point of slot t on the members of its floe (R135, R138): a member with a READY slot switches, and the floe's slot on it takes state `st`. -/
def switchPoint (s : State) (c t st cause index : Nat) : State :=
  (c :: mates s c t).foldl (fun s m =>
    if tsw s m && slotState s m t == 2 && (coreOf s m).switch.isNone then
      match chooseReady s m t with
      | some u => beginSwitch (setCause s m t cause index) m t u st
      | none => s
    else s) s

/-- HALT (R134, R222, R230, R235): the slot is HALTED, its counters are checked, its references answered and its ends closed. With TSW = 1 a READY slot is
chosen. -/
def haltRun (s : State) (c t : Nat) : State :=
  let s1 := ctrResidue (setCause (setSlotState s c t 4) c t 0 0) c t
  let s2 := autoClose (nullRepliesOf (dropAllResv s1 c t) c t) c t
  let s3 := setReason s2 c t 0
  if tsw s3 c then
    match chooseReady s3 c t with
    | some u => quiesceReason (modCore s3 c fun k => { k with switch := some { out := t, inn := u, quiet := false } }) c t
    | none => s3
  else s3

/-- A group that passed every check acts as a whole. -/
def actGroup (s : State) (c t : Nat) (l : List (Nat × Nat)) : State :=
  let s1 := l.foldl (fun a p => actEarly a s c t p) s
  let s2 := l.foldl (fun a p => actMid a s c t p) s1
  let s3 := l.foldl (fun a p => actVec a c t p) s2
  let (s4, disp) := actRecv s3 c t l
  let s5 := advance s s4 c t l disp
  let s6 := setReason (modSlot s5 c t fun x => { x with wait := none }) c t 0
  let s7 := match floeFor s6 c t with
    | some f => if (floeCores s6 (c / 8) f).head? = some c then traceOfFloe s6 (c / 8) f 1 ((l.headD (0, 0)).1) ((l.headD (0, 0)).2) else s6
    | none => s6
  if slotState s7 c t ≠ 2 then s7
  else if l.any (fun p => wOp p.2 = .halt) then haltRun s7 c t
  else if l.any (fun p => wOp p.2 = .yieldW) then switchPoint s7 c t 1 3 0
  else s7

/-- The WAITC or RECV of a group that cannot complete: its cause, its index and what the slot waits on. -/
def groupBlock (s : State) (c t : Nat) (l : List (Nat × Nat)) : Option (Nat × Nat × Wait) :=
  l.findSome? fun p =>
    match wordWait s c t p.1 p.2, wOp p.2 with
    | 13, .waitc => some (1, synCtr p.2, .ctr (synCtr p.2) (synCount p.2))
    | 14, .recv => some (2, recvIch p.2, .ich (recvIch p.2))
    | _, _ => none

-- the cycle of a group (R113, R131, R193) ---------------------------------------------------------------------------------------

/-- The floe cycle at which a slot's next group is due (R113); where its first word cannot yet be read, the cycle from which the floe stalls (R131). -/
def groupDue (s : State) (c t : Nat) : Nat :=
  let x := slotOf s c t
  match leadWord s c t with
  | some w => x.cyc + wD w
  | none => if x.fresh then 0 else x.cyc + 1

/-- The reasons for which the group at a slot's pc cannot issue now (R117, R131); a group that will fault on its own bits does not wait (R142). -/
def groupCodes (s : State) (c t : Nat) : List Nat :=
  match fetchGroup s c t with
  | .overlay => [10]
  | .words l => if (staticFault (slotOf s c t) 0 [] l).isSome then [] else (l.map fun p => wordWait s c t p.1 p.2).filter (· ≠ 0)
  | _ => []

/-- The reasons of the other members of a slot's floe whose groups are due in the present floe cycle and cannot issue: any of them stalls every member (R193). -/
def mateCodes (s : State) (c t : Nat) : List Nat :=
  (mates s c t).flatMap fun m => if slotState s m t = 2 ∧ groupDue s m t ≤ floeNow s m t then groupCodes s m t else []

/-- A group that cannot issue (R117): the floe stalls with the lowest reason; a blocked WAITC or RECV is a switch point (R134, R135); a ninth vector word begins an
elastic stall (R111). -/
def stallGroup (s : State) (c t : Nat) (l : List (Nat × Nat)) (codes : List Nat) : State :=
  let s0 := match floeFor s c t with
    | some f => if 8 ≤ (coreOf s c).vxq.length ∧ (l.any fun p => isVec p.2) = true ∧ (floeOf s (c / 8) f).held = 0
        then setFloe s (c / 8) f { floeOf s (c / 8) f with held := vxReason s c t } else s
    | none => s
  let s1 := setReason s0 c t (codes.min?.getD 0)
  match groupBlock s c t l with
  | some (cause, index, wt) =>
    let s2 := modSlot (setCause s1 c t cause index) c t fun x => { x with wait := some wt }
    switchPoint s2 c t 3 cause index
  | none => s1

/-- The members of a slot's floe that let it issue (R193): every other member runs the slot, or has halted, and none switches. -/
def matesRun (s : State) (c t : Nat) : Bool :=
  (mates s c t).all fun m => (slotState s m t == 2 || slotState s m t == 4) && (coreOf s m).switch.isNone

/-- Whether the throttle holds a cluster's floes in the present ACLK cycle: the first L cycles of each 8, counted from the clock's start (R323). -/
def rampLevel (k : ClusterSt) : Nat := if 1 ≤ k.ramp ∧ k.ramp ≤ 7 then 8 - k.ramp else 0
def throttleLevel (s : State) (cl : Nat) : Nat :=
  let k := clusterOf s cl
  max (rampLevel k) (max s.pwr.lpwr k.lth)
def throttleHolds (s : State) (cl : Nat) : Bool := decide ((regionOf s cl).cyc % 8 < throttleLevel s cl)

/-- A stall of the whole floe that holds its issue: HOLD, a throttle hold, or an elastic stall (R76, R205). -/
def floeHeld (s : State) (c f : Nat) : Nat :=
  if getB s (rFLOE_CTL (c / 8) f) 2 then 1 else if throttleHolds s (c / 8) then 2 else (floeOf s (c / 8) f).held

/-- The group at a core's running slot reaches its cycle (R142): it faults on its own bits, waits, with what stalls another member (R193), fails a check, or acts. -/
def issueGroup (s : State) (c t : Nat) : State :=
  let others := mateCodes s c t
  match fetchGroup s c t with
  | .past => illegal s c t 7 8192 0
  | .overlay => setReason s c t ((others ++ [10]).min?.getD 0)
  | .parity => sramParity s c t 1
  | .words l =>
    match staticFault (slotOf s c t) 0 [] l with
    | some (i, w, r) => illegal s c t r i w
    | none =>
      let codes := (l.map fun p => wordWait s c t p.1 p.2).filter (· ≠ 0)
      if codes ≠ [] then stallGroup s c t l (codes ++ others)
      else if others ≠ [] then setReason s c t (others.min?.getD 0)
      else match groupFault s c t l with
        | some s1 => s1
        | none => actGroup s c t l

/-- A member that stayed RUNNING while another switched (R138) applies R135 on its own: while its WAITC or RECV still blocks it, a slot that has become READY takes the
core; otherwise it holds for the others. -/
def gatherWait (s : State) (c t : Nat) : State :=
  let code := (groupCodes s c t).min?
  match (if (slotOf s c t).wait.isSome then code else none) with
  | none => setReason s c t 15
  | some r =>
    match (if tsw s c ∧ (r = 13 ∨ r = 14) then chooseReady s c t else none) with
    | some u => beginSwitch s c t u 3
    | none => setReason s c t r

/-- The sequencer of a core comes to its next group, which is due at its floe cycle (R113) and which a word that `lead` accepts must lead where that word can be
read. -/
def sequencer (s : State) (c : Nat) (lead : Op → Bool) : State :=
  if coreRuns s c = false ∨ (coreOf s c).switch.isSome then s
  else match runningSlot s c with
    | none => s
    | some t =>
      let named := match leadWord s c t with | some w => lead (wOp w) | none => true
      if named = false then s
      else match floeFor s c t with
        | none => s
        | some f =>
          if s.rstJob = some (0, 32 * (c / 8) + f) ∨ floeNow s c t < groupDue s c t then s
          else if floeHeld s c f ≠ 0 then setReason s c t (floeHeld s c f)
          else if matesRun s c t = false then gatherWait s c t
          else issueGroup s c t

-- native words: one meaning for each row ----------------------------------------------------------------------------------------------

def execNop (core : CoreId) (s : State) : Host.Outcome State Fault Refusal := .next (sequencer s core (· = .nop))
def execLoop (core : CoreId) (s : State) : Host.Outcome State Fault Refusal := .next (sequencer s core (· = .loop))
def execEndl (core : CoreId) (s : State) : Host.Outcome State Fault Refusal := .next (sequencer s core (· = .endl))
def execJmp (core : CoreId) (s : State) : Host.Outcome State Fault Refusal := .next (sequencer s core (· = .jmp))
def execAadd (core : CoreId) (s : State) : Host.Outcome State Fault Refusal := .next (sequencer s core (· = .aadd))
def execYield (core : CoreId) (s : State) : Host.Outcome State Fault Refusal := .next (sequencer s core (· = .yieldW))
def execHalt (core : CoreId) (s : State) : Host.Outcome State Fault Refusal := .next (sequencer s core (· = .halt))
def execSldcfg (core : CoreId) (s : State) : Host.Outcome State Fault Refusal := .next (sequencer s core (· = .sldcfg))
def execSldgo (core : CoreId) (s : State) : Host.Outcome State Fault Refusal := .next (sequencer s core (· = .sldgo))
def execMxcfg (core : CoreId) (s : State) : Host.Outcome State Fault Refusal := .next (sequencer s core (· = .mxcfg))
def execMxgo (core : CoreId) (s : State) : Host.Outcome State Fault Refusal := .next (sequencer s core (· = .mxgo))
def execSwrcfg (core : CoreId) (s : State) : Host.Outcome State Fault Refusal := .next (sequencer s core (· = .swrcfg))
def execSwrgo (core : CoreId) (s : State) : Host.Outcome State Fault Refusal := .next (sequencer s core (· = .swrgo))
def execVadd (core : CoreId) (s : State) : Host.Outcome State Fault Refusal := .next (sequencer s core (· = .vadd))
def execVsub (core : CoreId) (s : State) : Host.Outcome State Fault Refusal := .next (sequencer s core (· = .vsub))
def execVmul (core : CoreId) (s : State) : Host.Outcome State Fault Refusal := .next (sequencer s core (· = .vmul))
def execVfma (core : CoreId) (s : State) : Host.Outcome State Fault Refusal := .next (sequencer s core (· = .vfma))
def execVmax (core : CoreId) (s : State) : Host.Outcome State Fault Refusal := .next (sequencer s core (· = .vmax))
def execVmin (core : CoreId) (s : State) : Host.Outcome State Fault Refusal := .next (sequencer s core (· = .vmin))
def execVabs (core : CoreId) (s : State) : Host.Outcome State Fault Refusal := .next (sequencer s core (· = .vabs))
def execVneg (core : CoreId) (s : State) : Host.Outcome State Fault Refusal := .next (sequencer s core (· = .vneg))
def execVcmp (core : CoreId) (s : State) : Host.Outcome State Fault Refusal := .next (sequencer s core (· = .vcmp))
def execVsel (core : CoreId) (s : State) : Host.Outcome State Fault Refusal := .next (sequencer s core (· = .vsel))
def execVexp (core : CoreId) (s : State) : Host.Outcome State Fault Refusal := .next (sequencer s core (· = .vexp))
def execVlog (core : CoreId) (s : State) : Host.Outcome State Fault Refusal := .next (sequencer s core (· = .vlog))
def execVrcp (core : CoreId) (s : State) : Host.Outcome State Fault Refusal := .next (sequencer s core (· = .vrcp))
def execVrsq (core : CoreId) (s : State) : Host.Outcome State Fault Refusal := .next (sequencer s core (· = .vrsq))
def execVred (core : CoreId) (s : State) : Host.Outcome State Fault Refusal := .next (sequencer s core (· = .vred))
def execVcvt (core : CoreId) (s : State) : Host.Outcome State Fault Refusal := .next (sequencer s core (· = .vcvt))
def execVstat (core : CoreId) (s : State) : Host.Outcome State Fault Refusal := .next (sequencer s core (· = .vstat))
def execVstfin (core : CoreId) (s : State) : Host.Outcome State Fault Refusal := .next (sequencer s core (· = .vstfin))
def execVnorm (core : CoreId) (s : State) : Host.Outcome State Fault Refusal := .next (sequencer s core (· = .vnorm))
def execVperm (core : CoreId) (s : State) : Host.Outcome State Fault Refusal := .next (sequencer s core (· = .vperm))
def execVshuf (core : CoreId) (s : State) : Host.Outcome State Fault Refusal := .next (sequencer s core (· = .vshuf))
def execVpack (core : CoreId) (s : State) : Host.Outcome State Fault Refusal := .next (sequencer s core (· = .vpack))
def execVunpk (core : CoreId) (s : State) : Host.Outcome State Fault Refusal := .next (sequencer s core (· = .vunpk))
def execVget (core : CoreId) (s : State) : Host.Outcome State Fault Refusal := .next (sequencer s core (· = .vget))
def execVsetvl (core : CoreId) (s : State) : Host.Outcome State Fault Refusal := .next (sequencer s core (· = .vsetvl))
def execVupdsr (core : CoreId) (s : State) : Host.Outcome State Fault Refusal := .next (sequencer s core (· = .vupdsr))
def execWaitc (core : CoreId) (s : State) : Host.Outcome State Fault Refusal := .next (sequencer s core (· = .waitc))
def execSigc (core : CoreId) (s : State) : Host.Outcome State Fault Refusal := .next (sequencer s core (· = .sigc))
def execLfence (core : CoreId) (s : State) : Host.Outcome State Fault Refusal := .next (sequencer s core (· = .lfence))
def execMircommit (core : CoreId) (s : State) : Host.Outcome State Fault Refusal := .next (sequencer s core (· = .mircommit))
def execSend (core : CoreId) (s : State) : Host.Outcome State Fault Refusal := .next (sequencer s core (· = .send))
def execRecv (core : CoreId) (s : State) : Host.Outcome State Fault Refusal := .next (sequencer s core (· = .recv))
def execStrmarm (core : CoreId) (s : State) : Host.Outcome State Fault Refusal := .next (sequencer s core (· = .strmarm))
/-- An OP that Table 06-2 does not list leads the group: ILLEGAL_INSTR, REASON 0 (R144). -/
def execUnlistedOpcode (core : CoreId) (s : State) : Host.Outcome State Fault Refusal := .next (sequencer s core (· = .bad))

end Sys2Proof.Machine
end

