-- ==== Sys2Proof/Machine/Task.lean ====
section
/-! DEFINITION. Task slots and floes outside the sequencer (05_core_sequencer.md, 08_floe_contract.md): START and CLEAR, floe definitions, switches
that complete, stalls, throttle holds and timeouts. -/

namespace Sys2Proof.Machine

-- START and CLEAR (R133, R191) --------------------------------------------------------------------------------------

/-- START of an EMPTY or HALTED slot (R133, R222): it takes TASK_PC, TASK_SPWIN and TASK_VMASK, its loop state and VL are reset. -/
def slotStart (s : State) (c t : Nat) : State :=
  if slotState s c t = 0 ∨ slotState s c t = 4 then
    let s1 := setCause (setSlotState s c t 1) c t 0 0
    let s2 := modSlot s1 c t fun x => { x with pc := getF s (rTASK_PC c t) 0 13, vl := 0x400, loops := [], lo := getF s (rTASK_SPWIN c t) 0 9, hi := getF s (rTASK_SPWIN c t) 16 9, vmask := (getR s (rTASK_VMASK c t)).toNat, wait := none, resv := none, mres := none, unrel := false, jumped := false, fences := [], cyc := 0, fresh := true }
    ctrStart s2 c t
  else s

/-- CLEAR of a HALTED or released FAULTED slot (Table 05-7, R221, R250). Leaving FAULTED advances the counters the slot owns and answers the references of its ends
(R230). -/
def slotClear (s : State) (c t : Nat) : State :=
  if slotState s c t = 4 ∨ (slotState s c t = 5 ∧ (slotOf s c t).unrel = false) then
    let s1 := if slotState s c t = 5 then nullRepliesOf ((ctrsOf s c t).foldl (fun s n => ctrAdvance s c n) s) c t else s
    let s2 := clearStopped (dropAllResv s1 c t) c t
    setSlotState (modSlot s2 c t fun x => { x with fences := [], wait := none }) c t 0
  else s

/-- Whether a TASK_CTL START acts on a slot: a valid definition of one core names it (R133, R191). -/
def startable (s : State) (c t : Nat) : Bool :=
  match floeFor s c t with
  | some f => (floeCores s (c / 8) f).length == 1
  | none => false

/-- FLOE_CYC of a floe set to 0: a count that starts again ends the continuous stall of an earlier run (R207). -/
def zeroCyc (s : State) (cl f : Nat) : State := setFloe (setR64 s (rFLOE_CYC cl f) 0) cl f { floeOf s cl f with since := none }

/-- A write of TASK_CTL (R133): CLEAR first, then START. A floe of one core starts as FLOE_CTL would start it (R191). -/
def taskCtl (s : State) (c t v : Nat) : State :=
  let s1 := if bits v 1 1 = 1 then slotClear s c t else s
  if bits v 0 1 = 1 ∧ startable s1 c t = true then
    match floeFor s1 c t with
    | some f => if slotState s1 c t = 0 ∨ slotState s1 c t = 4 then zeroCyc (slotStart s1 c t) (c / 8) f else s1
    | none => s1
  else s1

/-- FLOE_CTL.START (R191, R139). -/
def floeStartRun (s : State) (cl f : Nat) : State :=
  let ms := floeMembers s cl f
  if getB s (rFLOE_DEF cl f) 16 = false ∨ ms = [] then s
  else if ms.all (fun m => tsw s m.1 == tsw s (ms.headD (0, 0)).1) = false then setF s (rFLOE_STAT cl f) 4 1 1
  else if ms.all (fun m => slotState s m.1 m.2 == 0 || slotState s m.1 m.2 == 4) = false then s
  else zeroCyc (ms.foldl (fun s m => slotStart s m.1 m.2) s) cl f

/-- FLOE_CTL.CLEAR (R191). -/
def floeClearRun (s : State) (cl f : Nat) : State :=
  if getB s (rFLOE_DEF cl f) 16 then (floeMembers s cl f).foldl (fun s m => slotClear s m.1 m.2) s else s

/-- FLOE_CTL.HOLD (R205): it acts from the next floe cycle on; REASON follows in each cycle. -/
def floeHoldRun (s : State) (cl f : Nat) (on : Bool) : State := setF s (rFLOE_CTL cl f) 2 1 (if on then 1 else 0)

/-- A write of FLOE_CTL: HOLD in a debug session, then CLEAR, then START. -/
def floeCtl (s : State) (cl f v : Nat) (debug : Bool) : State :=
  let s1 := if debug then floeHoldRun s cl f (bits v 2 1 == 1) else s
  let s2 := if bits v 1 1 = 1 then floeClearRun s1 cl f else s1
  if bits v 0 1 = 1 then floeStartRun s2 cl f else s2

/-- The core slots that a FLOE_DEF value names. -/
def defSlots (cl v : Nat) : List (Nat × Nat) :=
  ((List.range 8).filter fun r => bits v r 1 == 1).map fun r => (8 * cl + r, bits v 8 2)

/-- Whether another valid definition of the cluster names a core slot. -/
def namedElsewhere (s : State) (cl f c t : Nat) : Bool := (List.range 32).any fun g => g != f && floeNames s cl g (c % 8) t

/-- A write of FLOE_DEF (R190). -/
def floeDef (s : State) (cl f v : Nat) : State :=
  let old := (getR s (rFLOE_DEF cl f)).toNat
  let busy := (defSlots cl v ++ defSlots cl old).any fun m => slotState s m.1 m.2 != 0
  let twice := bits v 16 1 == 1 && ((defSlots cl v).any fun m => namedElsewhere s cl f m.1 m.2)
  if busy || twice then setF s (rFLOE_STAT cl f) 4 1 1 else setR s (rFLOE_DEF cl f) (BitVec.ofNat 32 v &&& 0x3_03FF)

/-- A write of CORE_CTL (R139): TSW changes only with no slot READY, RUNNING or BLOCKED. -/
def coreCtl (s : State) (c v : Nat) : State :=
  let s1 := if bits v 1 1 = 1 then setF s (rCORE_CTL c) 1 1 0 else s
  if bits v 0 1 = getF s (rCORE_CTL c) 0 1 then s1
  else if (List.range 4).any (fun t => slotLive s c t) then setF s1 (rCORE_CTL c) 1 1 1
  else setF s1 (rCORE_CTL c) 0 1 (bits v 0 1)

-- switches (R135 to R138, R467) ---------------------------------------------------------------------------------------

/-- A slot becomes RUNNING. A cluster that had no RUNNING floe for 4,096 cycles begins its activity ramp (R323). -/
def setRunning (s : State) (c t : Nat) : State :=
  let k := clusterOf s (c / 8)
  let k1 := if 4096 ≤ k.idleCyc then { k with ramp := 1, rampCyc := 0, idleCyc := 0 } else { k with idleCyc := 0 }
  modCore (setSlotState (setCluster s (c / 8) k1) c t 2) c fun x => { x with switch := none, last := t }

/-- The word that a slot blocked on completes in its first issue cycle (R137). -/
def resume (s : State) (c t : Nat) : State :=
  if (slotOf s c t).resv.isSome || (slotOf s c t).mres.isSome then sequencer s c (fun _ => true) else s

/-- Whether a member of a valid floe runs its slot. -/
def floeRuns (s : State) (cl f : Nat) : Bool := getB s (rFLOE_DEF cl f) 16 && (floeMembers s cl f).any fun m => slotState s m.1 m.2 == 2

/-- Whether a core quiesces the work of slot t: in a switch (R135), or before a READY slot takes an idle core (R134, R467). -/
def quiesces (s : State) (c t : Nat) : Bool :=
  let k := coreOf s c
  match k.switch with
  | some w => w.out == t && !w.quiet
  | none => k.last == t && coreRuns s c && (runningSlot s c).isNone && ((List.range 4).any fun u => slotState s c u == 1) && !engineQuiet s c t
def floeQuiesces (s : State) (cl f : Nat) : Bool := (floeMembers s cl f).any fun m => quiesces s m.1 m.2

/-- An elastic stall that a late item began in a quiescence ends with it. -/
def freeHeld (s : State) (c t : Nat) : State :=
  match floeFor s c t with
  | some f => if floeRuns s (c / 8) f then s else setFloe s (c / 8) f { floeOf s (c / 8) f with held := 0 }
  | none => s

/-- QUIESCENCE_COMPLETE (R135 steps 3 and 4): the outgoing slot's engine work has completed in cycle t + Q, and the chosen slot issues in cycle t + Q + 6. -/
def quiesceDone (s : State) (c : Nat) : State :=
  match (coreOf s c).switch with
  | none => s
  | some w =>
    if w.quiet || !engineQuiet s c w.out then s
    else
      let r := if slotState s c w.out = 3 then 12 + getF s (rTASK_STAT c w.out) 4 2 else 0
      setReason (freeHeld (modCore s c fun k => { k with switch := some { w with quiet := true, left := 6 } }) c w.out) c w.out r

/-- SWITCH_COMPLETE (R135 step 4), once the five switch cycles are over. -/
def switchDone (s : State) (c : Nat) : State :=
  match (coreOf s c).switch with
  | none => s
  | some w =>
    if w.quiet = false ∨ w.left ≠ 0 then s
    else if slotState s c w.inn = 1 then resume (setRunning s c w.inn) c w.inn
    else modCore s c fun k => { k with switch := none, last := w.out }

/-- IDLE_CORE_SELECT (R467): a core without a RUNNING slot or a switch takes a READY slot, once the engine work of the slot that ran last has completed. -/
def idleSelect (s : State) (c : Nat) : State :=
  let k := coreOf s c
  if coreRuns s c = false ∨ k.switch.isSome ∨ (runningSlot s c).isSome then s
  else match [(k.last + 1) % 4, (k.last + 2) % 4, (k.last + 3) % 4, k.last].find? (fun t => slotState s c t == 1) with
    | none => s
    | some t =>
      if engineQuiet s c k.last then
        let s1 := if getF s (rTASK_STAT c k.last) 0 3 = 4 then setReason (freeHeld s c k.last) c k.last 0 else s
        resume (setRunning s1 c t) c t
      else quiesceReason s c k.last

-- stalls (R205 to R207, R323) --------------------------------------------------------------------------------------------

/-- The reasons for which a lag of a floe's running members would reach 9 at its present count (R76, R203). -/
def floeLags (s : State) (cl f : Nat) : List Nat :=
  (floeMembers s cl f).flatMap fun m => if slotState s m.1 m.2 = 2 then lagReasons s m.1 m.2 (floeNow s m.1 m.2) else []

/-- Whether every lag of a floe is 0 (R76). -/
def floeCaughtUp (s : State) (cl f : Nat) : Bool := (floeMembers s cl f).all fun m => slotState s m.1 m.2 != 2 || lagFree s m.1 m.2 (floeNow s m.1 m.2)

/-- The reasons that may be stated for a late item of a floe (R202, Table 08-5): those of the lags that would reach 9; in a quiescence those of the items that the
work waits on (R136). -/
def stallMay (s : State) (cl f r : Nat) : Bool :=
  if floeQuiesces s cl f then ((floeMembers s cl f).filter fun m => quiesces s m.1 m.2).any fun m => quiesceCode s m.1 m.2 == r
  else floeRuns s cl f && (floeLags s cl f).contains r

/-- FLOE_STALL_BEGIN (R76, R203): a lag that would reach 9 stops the floe until every lag is 0; in a quiescence the row names the late item that the work waits on
(R136). -/
def stallBegin (s : State) (cl f r : Nat) : State :=
  if (floeOf s cl f).held = 0 ∧ stallMay s cl f r = true then setFloeReason (setFloe s cl f { floeOf s cl f with held := r }) cl f r else s

/-- FLOE_STALL_END (R76): every lag is 0 again and the floe resumes. -/
def stallEnd (s : State) (cl f : Nat) : State :=
  if (floeOf s cl f).held ≠ 0 ∧ (floeQuiesces s cl f || floeCaughtUp s cl f) = true then setFloeReason (setFloe s cl f { floeOf s cl f with held := 0 }) cl f 0 else s

/-- Whether every member of a floe runs its slot, and whether one runs or waits. -/
def floeAll (s : State) (cl f : Nat) : Bool := (floeMembers s cl f).all fun m => slotState s m.1 m.2 == 2
def floeSome (s : State) (cl f : Nat) : Bool := (floeMembers s cl f).any fun m => slotState s m.1 m.2 == 2 || slotState s m.1 m.2 == 3

/-- The stall reasons that a member of a floe outside a quiescence has (Table 08-4): its group that cannot issue, its BLOCKED slot, or its wait for the others. -/
def memberCodes (s : State) (cl f : Nat) (m : Nat × Nat) : List Nat :=
  if slotState s m.1 m.2 = 3 then [12 + getF s (rTASK_STAT m.1 m.2) 4 2]
  else if slotState s m.1 m.2 ≠ 2 then []
  else if floeAll s cl f then (if groupDue s m.1 m.2 ≤ floeNow s m.1 m.2 then groupCodes s m.1 m.2 else [])
  else match (if (slotOf s m.1 m.2).wait.isSome then groupCodes s m.1 m.2 else []) with
    | [] => [15]
    | l => l

/-- Every stall reason whose cause holds for a floe in the present cycle; in a quiescence, the reason that R136 names (R206). -/
def floeCodes (s : State) (cl f : Nat) : List Nat :=
  let ms := floeMembers s cl f
  let held := (floeOf s cl f).held
  if floeQuiesces s cl f then
    (if held ≠ 0 then [held] else (ms.filter fun m => quiesces s m.1 m.2).map fun m => quiesceCode s m.1 m.2)
  else if floeSome s cl f = false then []
  else
    (if getB s (rFLOE_CTL cl f) 2 then [1] else []) ++ (if throttleHolds s cl && floeRuns s cl f then [2] else []) ++ (if held ≠ 0 then [held] else []) ++
      ms.flatMap (memberCodes s cl f)

/-- Whether a floe has a stall to speak of: a member in some state but EMPTY, HALTED and FAULTED, or a quiescence (R206, R207). -/
def floeBusy (s : State) (cl f : Nat) : Bool := floeQuiesces s cl f || (floeMembers s cl f).any fun m => slotLive s m.1 m.2

/-- THROTTLE_HOLD (R323): in a held cycle every floe of the cluster with a RUNNING slot stalls, under THROTTLE unless a lower reason holds. -/
def throttleRun (s : State) (cl : Nat) : State :=
  if throttleHolds s cl = false ∨ regionUp s cl = false ∨ (clusterOf s cl).gated then s
  else (List.range 32).foldl (fun s f => if floeRuns s cl f ∧ floeQuiesces s cl f = false then setFloeReason s cl f ((floeCodes s cl f).min?.getD 2) else s) s

/-- STALL_TIMEOUT (R207): a continuous stall longer than LIMIT microseconds stops the floe; unfinished engine work is abandoned (R136, entry 15). -/
def timeoutRun (s : State) (cl f : Nat) : State :=
  let limit := getF s (rSTALL_LIMIT cl) 0 20
  match (floeOf s cl f).since with
  | none => s
  | some t0 =>
    if limit = 0 ∨ tbNow s ≤ t0 + 1000 * limit ∨ getB s (rFLOE_DEF cl f) 16 = false ∨ floeBusy s cl f = false then s
    else
      let r := getF s (rFLOE_STAT cl f) 0 4
      let s1 := if getB s (rFLOE_STAT cl f) 5 then s else setF (setF s (rFLOE_STAT cl f) 5 1 1) (rFLOE_STAT cl f) 8 4 r
      let ms := floeMembers s cl f
      let m := ms.headD (8 * cl, 0)
      let s2 := raiseCore s1 m.1 m.2 cTIMEOUT 2 2 0 r 0
      let s3 := stopFloe s2 cl f
      ms.foldl (fun s m => abandonEngine s m.1 m.2) s3

-- meanings --------------------------------------------------------------------------------------------------------------------

/-- FLOE_STALL_BEGIN (R203). -/
def execFloeStallBegin (cluster : ClusterId) (floe : FloeId) (reason : BitVec 4) (s : State) : Host.Outcome State Fault Refusal :=
  .next (stallBegin s cluster floe reason.toNat)
/-- FLOE_STALL_END (R203). -/
def execFloeStallEnd (cluster : ClusterId) (floe : FloeId) (s : State) : Host.Outcome State Fault Refusal := .next (stallEnd s cluster floe)
/-- THROTTLE_HOLD (R323). -/
def execThrottleHold (cluster : ClusterId) (s : State) : Host.Outcome State Fault Refusal := .next (throttleRun s cluster)
/-- STALL_TIMEOUT (R207). -/
def execStallTimeout (cluster : ClusterId) (floe : FloeId) (s : State) : Host.Outcome State Fault Refusal := .next (timeoutRun s cluster floe)
/-- QUIESCENCE_COMPLETE (R135). -/
def execQuiescenceComplete (core : CoreId) (s : State) : Host.Outcome State Fault Refusal := .next (quiesceDone s core)
/-- SWITCH_COMPLETE (R135). -/
def execSwitchComplete (core : CoreId) (s : State) : Host.Outcome State Fault Refusal := .next (switchDone s core)
/-- IDLE_CORE_SELECT (R467). -/
def execIdleCoreSelect (core : CoreId) (s : State) : Host.Outcome State Fault Refusal := .next (idleSelect s core)

end Sys2Proof.Machine
end

