-- ==== Sys2Proof/Machine/Clock.lean ====
section
/-! DEFINITION. Clock regions, stretching, crossings, slot wheels, the time base and its servo, margin monitors and the reference
(13_clocks_timebase.md), with the frequency sequence of R320 and R321. -/

namespace Sys2Proof.Machine

-- regions (R283 to R290) ---------------------------------------------------------------------------------------------

/-- Die of a clock region. -/
def regionDie (r : Nat) : Nat := if r < 32 then r / 8 else if r < 36 then r - 32 else 0
def setN (s : State) (r n : Nat) : State := setF s (rCLK_STAT r) 0 6 n
/-- The regions of a die's legacy group: its members and their anchor; none without a member (R290). -/
def legacyGroup (s : State) (d : Nat) : List Nat :=
  let ms := (List.range 8).filterMap fun k => if legacyOf s (8 * d + k) then some (8 * d + k) else none
  if ms.isEmpty then [] else ms ++ [32 + d]
/-- Whether a region belongs to a legacy group (CLK_REGION_STAT.LEGACY). -/
def inLegacy (s : State) (r : Nat) : Bool := (legacyGroup s (regionDie r)).contains r

/-- One period of a region grows by root periods, and is counted (R285). -/
def stretchOne (s : State) (n r : Nat) : State :=
  if regionUp s r ∧ r < 36 then
    let x := regionOf s r
    satF (setRegion s r { x with debt := x.debt + n }) (rCLK_STAT r + 4) 0 32 1
  else s

/-- A stretch of a region; a stretch of a legacy member stretches every member at the same edge (R290). -/
def stretch (s : State) (r n : Nat) : State :=
  if inLegacy s r then (legacyGroup s (regionDie r)).foldl (fun s q => stretchOne s n q) s else stretchOne s n r

/-- The two dies that a die neighbours, the lower number first (Table 00-3). -/
def dieNbr (d : Nat) : Nat × Nat := if d = 0 ∨ d = 3 then (1, 2) else (0, 3)

/-- Whether every crossing of a die's service region between running clocks is aligned (XALIGN of Table 13-4). -/
def svcAligned (s : State) (d : Nat) : Bool :=
  ((List.range 8).all fun k => !regionUp s (8 * d + k) || decide ((regionOf s (8 * d + k)).xlat ≠ 0)) &&
    [(dieNbr d).1, (dieNbr d).2].all fun n => !regionUp s (32 + n) || decide (edgeXlat s d n ≠ 0)

/-- XALIGN shows the alignments as they stand, for a region and for the service regions. -/
def xalignSet (s : State) (r : Nat) : State :=
  let s1 := if r < 32 then setF s (rCLK_STAT r) 7 1 (if (regionOf s r).xlat = 0 then 0 else 1) else s
  (List.range 4).foldl (fun s d => setF s (rCLK_STAT (32 + d)) 7 1 (if regionUp s (32 + d) && svcAligned s d then 1 else 0)) s1

/-- A crossing between a cluster region and its service region is aligned, with an XLAT, or 0 where it waits for an alignment again. -/
def setXlat (s : State) (r x : Nat) : State := xalignSet (setRegion s r { regionOf s r with xlat := x }) r

/-- Native alignment (R288): XLAT 3 where it leaves 150 ps of margin, else 4; a legacy member crosses in 3. It runs where both sides' clocks run at one N. -/
def align (s : State) (x : Crossing) (three : Bool) : State :=
  match x with
  | .cluster c =>
    let svc := 32 + regionDie c
    if regionUp s c ∧ regionUp s svc ∧ (regionOf s c).xlat = 0 ∧ regionN s c = regionN s svc then setXlat s c (if three || legacyOf s c then 3 else 4) else s
  | .edge d n =>
    let far := if n = 0 then (dieNbr d).1 else (dieNbr d).2
    if regionUp s (32 + d) ∧ regionUp s (32 + far) ∧ edgeXlat s d far = 0 then xalignSet (setEdgeXlat s d far (if three then 3 else 4)) (32 + d) else s

/-- The crossings of a region wait for an alignment again: a cluster's own, or all of a service region. -/
def unalign (s : State) (r : Nat) : State :=
  if r < 32 then setXlat s r 0
  else
    let d := r - 32
    let s1 := (List.range 8).foldl (fun s k => setXlat s (8 * d + k) 0) s
    xalignSet (setEdgeXlat (setEdgeXlat s1 d (dieNbr d).1 0) d (dieNbr d).2 0) r

/-- A region's multiplier has changed: its crossings align again. -/
def newN (s : State) (r n : Nat) : State := unalign (setN (setRegion s r { regionOf s r with goal := none }) r n) r

-- frequency and voltage (R320, R321) -----------------------------------------------------------------------------------

/-- Fields of the DVFS_TARGET in force. -/
def tgtCl (s : State) (d : Nat) : Nat := bits s.pwr.target.toNat (8 * d) 6
def tgtSvc (s : State) : Nat := bits s.pwr.target.toNat 32 6
/-- The common N of the service regions that run (R284), 0 where none does. -/
def svcN (s : State) : Nat := ((List.range 4).find? fun d => regionUp s (32 + d)).elim 0 fun d => regionN s (32 + d)
/-- The multiplier that a region goes to: a service region N_SVC, a legacy member its anchor's N (R290), another cluster N_CL of its die, or the lower N of an automatic
step (R302, R320). -/
def tgtN (s : State) (r : Nat) : Nat :=
  if 32 ≤ r then tgtSvc s else if legacyOf s r then regionN s (32 + r / 8) else (regionOf s r).stepped.getD (tgtCl s (r / 8))
/-- The voltage of a die's rail, in millivolts, with the service N that is in force (R320). -/
def tgtVolt (s : State) (d : Nat) : BitVec 10 := Config.railVolt (max (max (tgtCl s d) (tgtSvc s)) (svcN s))

/-- DVFS_STATUS.PHASE and VOUT of a die. -/
def phase (s : State) (d : Nat) : Nat := bits (getR64 s rDVFS_STATUS) (3 * d + 40) 3
def setPhase (s : State) (d p : Nat) : State := setR64 s rDVFS_STATUS (setBits (getR64 s rDVFS_STATUS) (3 * d + 40) 3 p)
def setVout (s : State) (d v : Nat) : State := setR64 s rDVFS_STATUS (setBits (getR64 s rDVFS_STATUS) (10 * d) 10 v)

/-- The cluster regions of a die whose clocks run and that follow N_CL. -/
def dieClusters (s : State) (d : Nat) : List Nat := ((List.range 8).map fun k => 8 * d + k).filter fun r => regionUp s r && !legacyOf s r

/-- Changes of N begun. -/
def startN (s : State) (rs : List Nat) : State := rs.foldl (fun s r => setRegion s r { regionOf s r with goal := some (tgtN s r) }) s

/-- Whether a step of a die's sequence is in progress: a change of N, or a rail that has not settled. -/
def dieBusy (s : State) (d : Nat) : Bool :=
  ((32 + d) :: (List.range 8).map fun k => 8 * d + k).any (fun r => (regionOf s r).goal.isSome) ||
    ((phase s d = 2 ∨ phase s d = 3) && !(railOf s d).settled)

/-- The PMBus master sends a command to a die's regulator, at the address that RAIL_MODE gives (R318): in EXT mode only. -/
def pmbSend (s : State) (d : Nat) (f : Nat → PmbOp) : State :=
  if s.pwr.railStrap then s else { s with pwr := { s.pwr with pmb := s.pwr.pmb ++ [f (bits (getR64 s rRAIL_MODE) (8 * d + 8) 7)] } }

/-- A rail is set to a voltage. -/
def railTo (s : State) (d : Nat) (v : BitVec 10) : State :=
  pmbSend (setRail s d { railOf s d with goal := v, settled := false, since := s.time.ticks }) d (.voutCommand · v)

/-- The next step of a die's own sequence: lower N, set the rail, wait for it, raise N (R320). The service N, which is common to the dies, changes in the place of each
of them: a die that waits for it stands in the phase of its change. -/
def dieNext (s : State) (d : Nat) : State :=
  if dieBusy s d then s
  else
    let rs := dieClusters s d
    let low := rs.filter fun r => decide (tgtN s r < regionN s r)
    let rail := railOf s d
    let v := tgtVolt s d
    let high := rs.filter fun r => decide (regionN s r < tgtN s r)
    if low ≠ [] then setPhase (startN s low) d 1
    else if regionUp s (32 + d) ∧ tgtSvc s < svcN s then setPhase s d 1
    else if rail.on ∧ v ≠ rail.goal then
      setPhase (railTo s d v) d (if v < rail.goal then 2 else 3)
    else if high ≠ [] then setPhase (startN s high) d 4
    else setPhase s d (if regionUp s (32 + d) ∧ svcN s < tgtSvc s then 4 else 0)

/-- The change of the common service N begins (R284) once every die whose service region runs has come to it. -/
def svcNext (s : State) : State :=
  let ds := (List.range 4).filter fun d => regionUp s (32 + d)
  if ds ≠ [] ∧ svcN s ≠ tgtSvc s ∧ ds.all (fun d => !dieBusy s d && phase s d == (if tgtSvc s < svcN s then 1 else 4)) then
    startN s (ds.map (32 + ·))
  else s

/-- The sequences of the dies go on. A step in progress finishes first (R321). -/
def dvfsNext (s : State) : State := svcNext ((List.range 4).foldl dieNext s)

/-- Whether the package runs: frequency writes take effect at wake otherwise (R321). -/
def awake (s : State) : Bool := decide (getF s rPWR_STATE 0 3 ≤ 1) && !getB s rPWR_STATE 3 && !s.pwr.off

/-- The target that DVFS_TARGET holds comes into force, and the sequences begin (R320, R321). -/
def dvfsApply (s : State) : State := dvfsNext { s with pwr := { s.pwr with target := BitVec.ofNat 64 (getR64 s rDVFS_TARGET) } }

/-- A write of DVFS_TARGET (R320, R321, R302): an N outside 20 to 34 changes nothing. One in SLEEP, in DEEP or during a wake takes effect at wake. -/
def dvfsWrite (s : State) (v : Nat) : State :=
  let ns := (List.range 4).map (fun d => bits v (8 * d) 6) ++ [bits v 32 6]
  if ns.any fun n => decide (n < 20) || decide (34 < n) then setR64 s rDVFS_STATUS (setBits (getR64 s rDVFS_STATUS) 52 1 1)
  else
    let s1 := setR64 s rDVFS_TARGET (v &&& 0x3F_3F3F_3F3F)
    let s2 := (List.range 32).foldl (fun s r => setRegion s r { regionOf s r with stepped := none }) s1
    if awake s2 then dvfsApply s2 else s2

/-- PLL_N_CHANGE (R284): a change of N in progress completes. The four service regions change together, and the members of their legacy groups with them (R290). -/
def pllChange (s : State) (r : Nat) : State :=
  match (regionOf s r).goal with
  | none => s
  | some n =>
    if regionUp s r = false then s
    else if r < 32 then dvfsNext (newN s r n)
    else
      let svc := (List.range 4).filter fun d => regionUp s (32 + d)
      let all := svc.flatMap fun d => (32 + d) :: ((List.range 8).map fun k => 8 * d + k).filter fun q => legacyOf s q && regionUp s q
      dvfsNext (all.foldl (fun s q => newN s q n) s)

/-- SETTLE_TIMEOUT (R321): a rail has not settled 1 ms after a raise. -/
def settleTimeout (s : State) (d : Nat) : State :=
  if phase s d = 3 ∧ (railOf s d).settled = false ∧ (railOf s d).since + 100_000 ≤ s.time.ticks then
    setR64 s rDVFS_STATUS (setBits (getR64 s rDVFS_STATUS) 53 1 1)
  else s

-- margin monitors (R301, R302) --------------------------------------------------------------------------------------------

/-- A margin code of a cluster region (R301). -/
def marginSeen (s : State) (cl code : Nat) : State :=
  let off := rCLK_STAT cl
  let s1 := setF s off 16 6 (min code (getF s off 16 6))
  if code ≤ getF s1 rMARGIN_STAT 0 6 ∧ getB s1 off 9 = false then
    raiseEv (setF s1 off 9 1 1) (cl / 8) { cls := cMARGIN, sev := 0, home := 0, ukind := 6, uindex := cl, detail := code }
  else s1

/-- Whether a cluster's replica paths report codes: its clock runs. -/
def monitored (s : State) (cl : Nat) : Bool := regionUp s cl && !(clusterOf s cl).gated && clusterPresent s cl

/-- MARGIN_WARN (R301): a code is reported. -/
def marginRun (s : State) (cl code : Nat) : State := if monitored s cl then marginSeen s cl code else s

/-- AUTOSTEP (R302): a code at or below STEP_CODE lowers N by 1, at most once in 100 µs and not below 20. -/
def autostepRun (s : State) (cl code : Nat) : State :=
  let x := regionOf s cl
  let due : Bool := match x.stepNs with | some t => decide (t + 100_000 ≤ tbNow s) || decide (tbNow s < t) | none => true
  if monitored s cl then
    let s1 := marginSeen s cl code
    if getB s1 rMARGIN_STAT 14 ∧ code ≤ getF s1 rMARGIN_STAT 8 6 ∧ due ∧ 20 < regionN s1 cl ∧ inLegacy s1 cl = false ∧ x.goal.isNone then
      setF (setRegion s1 cl { regionOf s1 cl with goal := some (regionN s1 cl - 1), stepNs := some (tbNow s), stepped := some (regionN s1 cl - 1) }) (rCLK_STAT cl) 10 1 1
    else s1
  else s

-- wheels (R291, R292) ---------------------------------------------------------------------------------------------------------

/-- The lead λ over both neighbours in the cycle that follows the recorded ones (R292). -/
def wheelLead (x : RegionSt) : Int × Int :=
  match x.hist with
  | a :: b :: _ =>
    let h : Int := (if a.held then 1 else 0) + (if b.held then 1 else 0)
    ((b.own : Int) - (b.lower : Int) - h, (b.own : Int) - (b.upper : Int) - h)
  | _ => (0, 0)

/-- Whether a die's wheel must hold in the next cycle: only against a neighbour whose wheel runs. -/
def wheelMustHold (s : State) (d : Nat) : Bool :=
  let l := wheelLead (regionOf s (32 + d))
  (decide (2 ≤ l.1) && (regionOf s (32 + (dieNbr d).1)).wheelOn) || (decide (2 ≤ l.2) && (regionOf s (32 + (dieNbr d).2)).wheelOn)

/-- One NCLK cycle of a die's service region, against the counts w0 of the dies as they stood when it began (R292). -/
def nclkCycle (s : State) (w0 : Nat → Nat) (d : Nat) : State :=
  let x := regionOf s (32 + d)
  if x.wheelOn ∧ regionUp s (32 + d) then
    let h := wheelMustHold s d
    let y : WheelCycle := ⟨w0 d, w0 (dieNbr d).1, w0 (dieNbr d).2, h⟩
    setRegion s (32 + d) { x with wheel := if h then x.wheel else x.wheel + 1, hist := (y :: x.hist).take 2 }
  else s

/-- NCLK cycles that begin together on some dies: each compares the counts as they stood before (R292). -/
def nclkCycles (s : State) (ds : List Nat) : State := ds.foldl (fun t d => nclkCycle t (wheelOf s) d) s

/-- WHEEL_HOLD (R292): a cycle in which the wheel holds. -/
def wheelHoldRun (s : State) (d : Nat) : State := if wheelMustHold s d then nclkCycle s (wheelOf s) d else s

/-- WHEEL_START (R291): from 0, or from a running neighbour's count advanced by the measured transit. -/
def wheelStartRun (s : State) (d : Nat) (nbr : Option Nat) (transit : Nat) : State :=
  let x := regionOf s (32 + d)
  if x.wheelOn ∨ regionUp s (32 + d) = false then s
  else match nbr with
    | none => setRegion s (32 + d) { x with wheel := 0, wheelOn := true, hist := [] }
    | some n =>
      let y := regionOf s (32 + n)
      if (n = (dieNbr d).1 ∨ n = (dieNbr d).2) ∧ y.wheelOn then setRegion s (32 + d) { x with wheel := y.wheel + transit, wheelOn := true, hist := [] }
      else s

-- time base (R294 to R300) ------------------------------------------------------------------------------------------------------

/-- TB_CTL fields. -/
def tbSrc (s : State) : Nat := getF s rTB_CTL 0 2
def tbPort (s : State) : Nat := getF s rTB_CTL 2 4
def tbOut (s : State) : Bool := getB s rTB_CTL 6
def tbDelay (s : State) : Nat := getF s rTB_CTL 8 10
/-- The sync interval in nanoseconds (R296). -/
def tbInterval (s : State) : Nat := 2 ^ getF s rTB_CTL 18 3 * 131072

/-- A step is taken only while no stack refreshes by rotation (R297). -/
def stepAllowed (s : State) : Bool := (List.range 32).all fun k => !getB s (rFIRN_STAT k) 10 || getB s (rFIRN_STAT k) 9

/-- The time base steps to a value of 2^-32 ns units, or the step is refused (R297). -/
def tbStep (s : State) (v : Int) : State :=
  if stepAllowed s then { s with time := { s.time with tb := (v % (2 ^ 96 : Int)).toNat } } else setF s (rTB_CTL + 4) 4 1 1

/-- 0.01 ns in the servo's units. -/
def servoMax : Int := 42949672
def clampServo (x : Int) : Int := max (-servoMax) (min servoMax x)

/-- e rounded to whole nanoseconds, saturating (R298). -/
def errNs (e : Int) : Int := max (-32767) (min 32767 ((e + 2147483648) / 4294967296))

/-- A follower's event with error e in units of 2^-32 ns (R297, R298). -/
def syncEvent (s : State) (e : Int) : State :=
  let i : Int := (tbInterval s : Int)
  let s1 := setF s (rTB_CTL + 4) 16 16 (unsigned 16 (errNs e))
  let errs := (e :: s1.time.errs).take 4
  let locked := errs.length == 4 && errs.all fun x => decide (-(20 * 4294967296) ≤ x) && decide (x ≤ 20 * 4294967296)
  let s2 := setF { s1 with time := { s1.time with errs := errs, eventTick := s1.time.ticks } } (rTB_CTL + 4) 2 1 (if locked then 1 else 0)
  if i * 4294967296 < 2 * e ∨ 2 * e < -(i * 4294967296) then tbStep s2 ((s2.time.tb : Int) - e)
  else { s2 with time := { s2.time with rate := clampServo (s2.time.rate - 10 * e / (4 * i)), slew := -(10 * e / i) } }

/-- TB_SYNC_IN_EDGE (R296): the error of a pin event, and the forwarded edge (R380). -/
def syncInEdge (s : State) : State :=
  if tbSrc s ≠ 1 ∨ s.pwr.vaux = false then s
  else
    let i : Int := (tbInterval s : Int) * 4294967296
    let x : Int := (s.time.tb : Int) - (tbDelay s : Int) * 4294967296
    let near := (x + i / 2) / i * i
    let s1 := syncEvent s (x - near)
    if tbOut s then { s1 with time := { s1.time with syncOut := true } } else s1

/-- SYNC_LOST (R298): four intervals without an event. -/
def syncLostRun (s : State) : State :=
  if (tbSrc s = 1 ∨ tbSrc s = 2) ∧ s.time.eventTick * 10 + 4 * tbInterval s ≤ s.time.ticks * 10 then
    let s1 := setF s (rTB_CTL + 4) 3 1 1
    { s1 with time := { s1.time with slew := 0 } }
  else s

/-- TB_ALARM_FIRE (R300). -/
def alarmRun (s : State) : State :=
  if getB s rTB_CTL 7 ∧ getR64 s rTB_ALARM ≤ tbNow s then
    hostIrq (setF (setF s (rTB_CTL + 4) 5 1 1) rTB_CTL 7 1 0) 6
  else s

/-- TB_SYNC_OUT_PULSE (R296): a leader's pin is high for the tick of a multiple of I. -/
def syncOutRun (s : State) : State :=
  if tbSrc s = 0 ∧ tbOut s ∧ tbNow s % tbInterval s < 10 then { s with time := { s.time with syncOut := true } } else s

/-- A write of TB_CTL's low word: SRC 3 stores 0 (R296). A leader keeps rate and slew 0 (R298). -/
def tbCtlLow (s : State) (v : Nat) : State :=
  let src := bits v 0 2
  let v1 := if src = 3 then setBits v 0 2 0 else v
  let s1 := setR s rTB_CTL (BitVec.ofNat 32 (v1 &&& 0x1F_FFFF))
  if src = 0 ∨ src = 3 then { s1 with time := { s1.time with rate := 0, slew := 0 } } else s1

-- the reference (R303, R304) ---------------------------------------------------------------------------------------------------------

/-- REFLOSS (R303): the local oscillator takes over. -/
def refLossRun (s : State) : State :=
  if s.pwr.refLost ∨ s.pwr.off then s
  else
    let s1 := setF (setF s (rTB_CTL + 4) 0 1 1) (rTB_CTL + 4) 1 1 1
    raiseEv { s1 with pwr := { s1.pwr with refLost := true } } 0 { cls := cREFLOSS, sev := 0, home := 0, ukind := 6, uindex := 36 }

/-- REFCLK_RETURN (R304). -/
def refBackRun (s : State) : State :=
  if s.pwr.refLost then setF { s with pwr := { s.pwr with refLost := false } } (rTB_CTL + 4) 1 1 0 else s

-- legacy mode (R290) ---------------------------------------------------------------------------------------------------------------------

/-- Whether a slot of a cluster is READY, RUNNING or BLOCKED. -/
def clusterLive (s : State) (cl : Nat) : Bool := (List.range 8).any fun r => (List.range 4).any fun t => slotLive s (8 * cl + r) t

/-- A write of CLK_XCTL (R290): of LEGACY it is refused while a floe of the cluster is READY, RUNNING or BLOCKED. A member goes to the anchor's N. -/
def clkXctl (s : State) (cl v : Nat) : State :=
  let s1 := if bits v 1 1 = 1 then setF s (rCLK_XCTL cl) 1 1 0 else s
  if clusterLive s cl then setF s1 (rCLK_XCTL cl) 1 1 1
  else if bits v 0 1 = getF s (rCLK_XCTL cl) 0 1 then s1
  else
    let s2 := unalign (setF s1 (rCLK_XCTL cl) 0 1 (bits v 0 1)) cl
    if legacyOf s2 cl then (if regionUp s2 cl ∧ tgtN s2 cl ≠ regionN s2 cl then setRegion s2 cl { regionOf s2 cl with goal := some (tgtN s2 cl) } else s2)
    else if awake s2 then dvfsNext s2 else s2

-- meanings ---------------------------------------------------------------------------------------------------------------------------------

/-- DROOP_STRETCH (R285): a droop holds a region's root for 1 or 2 root periods. -/
def execDroopStretch (region : RegionId) (two : Bool) (s : State) : Host.Outcome State Fault Refusal := .next (stretch s region (if two then 2 else 1))
/-- PLL_N_CHANGE (R284). -/
def execPllNChange (region : RegionId) (s : State) : Host.Outcome State Fault Refusal := .next (pllChange s region)
/-- MARGIN_WARN (R301). -/
def execMarginWarn (cluster : ClusterId) (code : BitVec 6) (s : State) : Host.Outcome State Fault Refusal := .next (marginRun s cluster code.toNat)
/-- AUTOSTEP (R302). -/
def execAutostep (cluster : ClusterId) (code : BitVec 6) (s : State) : Host.Outcome State Fault Refusal := .next (autostepRun s cluster code.toNat)
/-- REFLOSS (R303). -/
def execRefloss (s : State) : Host.Outcome State Fault Refusal := .next (refLossRun s)
/-- REFCLK_RETURN (R304). -/
def execRefclkReturn (s : State) : Host.Outcome State Fault Refusal := .next (refBackRun s)
/-- TB_SYNC_IN_EDGE (R296). -/
def execTbSyncInEdge (s : State) : Host.Outcome State Fault Refusal := .next (syncInEdge s)
/-- SYNC_LOST (R298). -/
def execSyncLost (s : State) : Host.Outcome State Fault Refusal := .next (syncLostRun s)
/-- TB_ALARM_FIRE (R300). -/
def execTbAlarmFire (s : State) : Host.Outcome State Fault Refusal := .next (alarmRun s)
/-- TB_SYNC_OUT_PULSE (R296). -/
def execTbSyncOutPulse (s : State) : Host.Outcome State Fault Refusal := .next (syncOutRun s)
/-- WHEEL_HOLD (R292). -/
def execWheelHold (die : DieId) (s : State) : Host.Outcome State Fault Refusal := .next (wheelHoldRun s die)
/-- WHEEL_START (R291). -/
def execWheelStart (die : DieId) (neighbour : Option DieId) (transit : BitVec 8) (s : State) : Host.Outcome State Fault Refusal :=
  .next (wheelStartRun s die (neighbour.map fun n => n.val) transit.toNat)
/-- SETTLE_TIMEOUT (R321). -/
def execSettleTimeout (die : DieId) (s : State) : Host.Outcome State Fault Refusal := .next (settleTimeout s die)

end Sys2Proof.Machine
end

