-- ==== Sys2Proof/Machine/Stack.lean ====
section
/-! DEFINITION. What a firn stack does on its own (07_firn.md): refresh slots and their windows, patrol scrubbing, refresh regimes, self-refresh and
initialisation. -/

namespace Sys2Proof.Machine

/-- The region a stack's interface powers with (R322): its own cluster, or for a fused cluster the lowest present one above on the die, else the lowest below. -/
def stackRegion (s : State) (k : Nat) : Nat :=
  if clusterPresent s k then k
  else
    let on := ((List.range 8).map fun i => 8 * (k / 8) + i).filter fun c => clusterPresent s c
    match on.find? fun c => decide (k < c) with
    | some c => c
    | none => on.headD k

/-- Slot length in nanoseconds (R168). -/
def slotLen (s : State) (k : Nat) : Nat := if getB s (rFIRN_STAT k) 8 then 122 else 244

/-- The place of the channel-local block of 256 bytes that the mapping in force numbers b (R164, R175). -/
def blockPlace (s : State) (k ch b : Nat) : Nat :=
  if mapMode s k then 2 ^ 14 * b + 256 * ch else firnPlace false (2 ^ 27 * ch + 256 * b)

/-- The bank that a slot refreshes in a channel is precharged (R169). -/
def closeBank (s : State) (k ch bank : Nat) : State :=
  let x := stackOf s k
  setStack s k { x with rows := x.rows.filter fun p => p.1 ≠ 16 * ch + bank }

/-- Whether a demand write of a beat is held in an entry (R175). -/
def writeHeld (s : State) (k place : Nat) : Bool :=
  s.firnEnt.any fun r => r.wr && r.stack == k && decide (r.phys < place + 32) && decide (place < r.phys + r.len)

/-- One beat of a write-back: a beat that the decoder corrects is written with valid check symbols. -/
def writeBackBeat (s : State) (k place : Nat) : State :=
  let key := firnBase k + place
  if writeHeld s k place then s
  else match eccDecode (beatErrOf s key) with
    | .fixed _ rest => setBeatErr (wrBytes s key (beatBytes s key rest)) key 0
    | _ => s

/-- One beat of a scrub read. The second component tells that it was corrected. -/
def scrubBeat (s : State) (k place : Nat) : State × Bool :=
  match eccDecode (beatErrOf s (firnBase k + place)) with
  | .clean => (s, false)
  | .fixed sym _ => (firnEvent s (firnBase k + place) sym false whoScrub, true)
  | .bad => (firnEvent s (firnBase k + place) 63 true whoScrub, false)

def scrubPos (s : State) (k ch : Nat) : Nat := mget (fun _ => 0) (stackOf s k).scrub ch
def wbackOf (s : State) (k ch : Nat) : Option Nat := mget (fun _ => none) (stackOf s k).wback ch

/-- The scrub access of one channel (R175): the write-back that is due, else the next block is read. -/
def scrubChannel (s : State) (k ch : Nat) : State :=
  match wbackOf s k ch with
  | some place =>
    let s1 := (List.range 8).foldl (fun s i => writeBackBeat s k (place + 32 * i)) s
    let x := stackOf s1 k
    setStack s1 k { x with wback := mset (fun _ => none) x.wback ch none }
  | none =>
    let b := scrubPos s k ch
    let place := blockPlace s k ch b
    let r := (List.range 8).foldl (fun (p : State × Bool) i => let q := scrubBeat p.1 k (place + 32 * i); (q.1, p.2 || q.2)) (s, false)
    let x := stackOf r.1 k
    let n := (b + 1) % 2 ^ 19
    let s1 := setStack r.1 k { x with scrub := mset (fun _ => 0) x.scrub ch n, wback := if r.2 then mset (fun _ => none) x.wback ch (some place) else x.wback }
    if ch = 0 then setR s1 (rFIRN_SCRUB k) (BitVec.ofNat 32 n) else s1

/-- A stack's regime becomes 1× or 2×; RATE 0b01 reports each entry to 2× (Table 07-4). -/
def setRegime (s : State) (k : Nat) (two : Bool) : State :=
  let was := getB s (rFIRN_STAT k) 8
  let s1 := setF s (rFIRN_STAT k) 8 1 (if two then 1 else 0)
  if two && !was && getF s (rFIRN_REFRESH k) 0 2 == 1 then
    raiseEv s1 (k / 8) { cls := cTHERMAL, sev := 0, home := 0, ukind := 1, uindex := k, detail := getF s (rFIRN_STAT k) 0 8 + 256 }
  else s1

/-- Requests that hold entries of a stack when a slot begins wait for its maintenance window: they carry REFRESH (R169, R170, R202). -/
def markWindow (s : State) (k : Nat) : State :=
  { s with firnEnt := s.firnEnt.map fun r => if r.stack = k then { r with marks := r.marks ||| 8 } else r }

/-- REFRESH_SLOT (R168, R169): the slot that the time base has reached begins on every channel of a stack that refreshes by rotation. A change of regime takes effect
with the first slot at or behind a multiple of 3,904 ns (R171). -/
def refreshRun (s : State) (k : Nat) : State :=
  let x := stackOf s k
  let n := tbNow s / slotLen s k
  if x.open_ = false ∨ regionUp s (stackRegion s k) = false ∨ n * slotLen s k < x.slotIdx then s
  else
    let s0 := if x.slotIdx ≤ tbNow s / 3904 * 3904 then setRegime s k x.want else s
    let n1 := tbNow s / slotLen s0 k
    let s1 := markWindow (setStack s0 k { x with slotIdx := n1 * slotLen s0 k + 1 }) k
    (List.range 64).foldl (fun s ch => scrubChannel (closeBank s k ch ((n1 + ch) % 16)) k ch) s1

/-- The case temperature of a stack is measured (R171). -/
def firnTemp (s : State) (k t : Nat) : State :=
  setF { s with temps := mset (fun _ => 0) s.temps (64 + k) t } (rFIRN_STAT k) 0 8 t

/-- The regime that the hysteresis chooses; it takes effect at a slot boundary (R171). -/
def wantRegime (s : State) (k : Nat) (two : Bool) : State := setStack s k { stackOf s k with want := two }

/-- The regime where the hysteresis starts (R171). -/
def startRegime (s : State) (k : Nat) : State :=
  wantRegime s k (if getF s (rFIRN_REFRESH k) 0 2 = 2 then true else decide (82 < getF s (rFIRN_STAT k) 0 8))

/-- REFRESH_REGIME_CHANGE (R171, Table 07-4): 2× above 85 °C, 1× again below 82 °C. -/
def regimeRun (s : State) (k t : Nat) : State :=
  let s1 := firnTemp s k t
  let two := if getF s1 (rFIRN_REFRESH k) 0 2 = 2 then true
    else if (stackOf s1 k).want then decide (82 ≤ t) else decide (85 < t)
  if (stackOf s1 k).open_ then wantRegime s1 k two else s1

/-- A write of FIRN_REFRESH (R171): 0b11 stores 0b00, and RATE 0b00 or 0b01 restarts the hysteresis. -/
def firnRefresh (s : State) (k v : Nat) : State :=
  let r := if bits v 0 2 = 3 then 0 else bits v 0 2
  let s1 := setF s (rFIRN_REFRESH k) 0 2 r
  if (stackOf s1 k).open_ then startRegime s1 k else s1

/-- SELF_REFRESH_EXIT (R178): 3 µs after the region's clock is stable the interface accepts requests again, and the rotation resumes at the slot that the time base
gives. -/
def selfRefreshExit (s : State) (k : Nat) : State :=
  let r := stackRegion s k
  if getB s (rFIRN_STAT k) 9 ∧ regionUp s r ∧ (regionOf s r).lockTick + 300 ≤ s.time.ticks then
    let s1 := setF s (rFIRN_STAT k) 9 1 0
    startRegime (setStack s1 k { stackOf s1 k with open_ := getB s1 (rFIRN_STAT k) 10, slotIdx := tbNow s1 }) k
  else s

/-- A stack enters self-refresh (R178): held requests complete, in the order of their arrival, and rows close. -/
def selfRefreshEnter (s : State) (k : Nat) : State :=
  let s1 := s.firnEnt.foldl (fun s r => if r.stack = k then (if r.wr then serveWrite s r else serveRead s r) else s) s
  let s2 := setStack s1 k { stackOf s1 k with rows := [], open_ := false }
  setF s2 (rFIRN_STAT k) 9 1 1

/-- A stack's contents with valid check symbols, all zero (R179). -/
def zeroStack (s : State) (k : Nat) : State :=
  { s with mem := s.mem.filter (fun p => decide (p.1 < firnBase k) || decide (firnBase (k + 1) ≤ p.1)),
           beatErr := s.beatErr.filter fun p => decide (32 * p.1 < firnBase k) || decide (firnBase (k + 1) ≤ 32 * p.1) }

/-- FIRN_INIT_DONE (R179, R175): every beat is zero, each channel's walk begins at block 0. -/
def initDone (s : State) (k : Nat) : State :=
  if getB s (rFIRN_STAT k) 10 = false ∧ regionUp s (stackRegion s k) then
    let s1 := setF (zeroStack s k) (rFIRN_STAT k) 10 1 1
    startRegime (setR (setStack s1 k { stackOf s1 k with scrub := [], wback := [], open_ := true, slotIdx := tbNow s }) (rFIRN_SCRUB k) 0) k
  else s

/-- REFRESH_SLOT (R168). -/
def execRefreshSlot (stack : StackId) (s : State) : Host.Outcome State Fault Refusal := .next (refreshRun s stack)
/-- REFRESH_REGIME_CHANGE (R171). -/
def execRefreshRegimeChange (stack : StackId) (temp : BitVec 8) (s : State) : Host.Outcome State Fault Refusal := .next (regimeRun s stack temp.toNat)
/-- SELF_REFRESH_EXIT (R178). -/
def execSelfRefreshExit (stack : StackId) (s : State) : Host.Outcome State Fault Refusal := .next (selfRefreshExit s stack)
/-- FIRN_INIT_DONE (R179). -/
def execFirnInitDone (stack : StackId) (s : State) : Host.Outcome State Fault Refusal := .next (initDone s stack)

end Sys2Proof.Machine
end

