-- ==== Sys2Proof/Machine/Link.lean ====
section
/-! DEFINITION. Fabric ports, link retry, the request tracker's completions, link loss, and time and wake messages
(15_fenroku_fabric.md, R325 to R348 and R355). -/

namespace Sys2Proof.Machine

-- the tracker's completions (R335, R336, R338) -------------------------------------------------------------------------

/-- A control core receives an error status (R389). -/
def ccError (s : State) (k st : Nat) : State :=
  let s1 := setF (setF s (rCC_IRQ_STAT k) 3 1 1) (rCC_RWIN k) 8 4 st
  raiseEv s1 (k / 4) { cls := statusClass st, sev := 2, home := 1, ukind := 5, uindex := k, detail := 16 * st }

/-- A signal that a control core sends to another package leaves (R388): its token is issued, and a tracker entry is taken. -/
def ccRemoteSignal (s : State) (k v : Nat) : State :=
  let s1 := ledIssue s qCTR 1
  let h := { mkHdr 8 (bits v 36 16) (ownPkg s) 0 0 0 0 with sig := true, sctr := bits v 0 6, score := bits v 8 8, sgen := bits v 16 4, scount := bits v 20 16 }
  match fabRequest s1 (.ccSignal k) ⟨h, [], []⟩ with
  | (s2, none) => s2
  | (s2, some st) => ccError (ledReturn1 s2 qCTR) k st

/-- A remote write of a control core has completed. -/
def ccWriteDone (s : State) (k tag : Nat) : State := setCc s k { ccOf s k with tags := (ccOf s k).tags.filter (· ≠ tag) }

/-- A remote load, or its part from byte `pos`, has completed with `bs` (R389). -/
def ccLoadDone (s : State) (k tag pos : Nat) (bs : List Byte) : State :=
  let x := ccOf s k
  setCc s k { x with loads := x.loads.filter (· ≠ tag), data := x.data.take pos ++ bs ++ x.data.drop (pos + bs.length) }

/-- A message's entry in the list of credits not yet back. -/
def liveDrop (s : State) (c och tag : Nat) : State :=
  modCore s c fun k => { k with live := k.live.filter fun l => !(l.1 == och && l.2.1 == tag) }

/-- An entry completes with an error status (R338). `why` and `words` are those of a refused message. -/
def trkFail (s : State) (t st why : Nat) : State :=
  match (trkOf s t).busy with
  | none => s
  | some (who, _, _) =>
    let s1 := trkDone s t
    match who with
    | .descRead c d id pos => descFabError s1 c d id pos st
    | .descWrite c d id _ sig => descFabError (if sig then ledReturn1 s1 qCTR else s1) c d id 0 st
    | .message c och slot words rres =>
      let s2 := liveDrop s1 c och t
      if st = 8 then msgReturned s2 c och slot (if why = 1 then cRANK else cCLOSED) (why == 2) rres words
      else msgFailed s2 c och slot st rres words
    | .reply c => replyFailed s1 c st
    | .ccWrite k => ccWriteDone (ccError s1 k st) k t
    | .ccRead k pos => ccError (ccLoadDone s1 k t pos []) k st
    | .ccSignal k => ccError (ledReturn1 s1 qCTR) k st

/-- An ACK completes an entry (Table 15-4); that of a message which expects a reply waits for the reply. -/
def trkAck (s : State) (t : Nat) : State :=
  match (trkOf s t).busy with
  | none => s
  | some (who, _, _) =>
    match who with
    | .descWrite c d id len sig =>
      let s1 := trkDone (if sig then ledReturn1 s qCTR else s) t
      modXfer s1 c d id fun y => { y with done := y.done + len }
    | .message _ _ _ _ rres => if rres then s else trkDone s t
    | .reply _ => trkDone s t
    | .ccWrite k => ccWriteDone (trkDone s t) k t
    | .ccSignal _ => trkDone (ledReturn1 s qCTR) t
    | .descRead _ _ _ _ => s
    | .ccRead _ _ => s

/-- READ_DATA completes an entry (Table 15-4); its bytes carry their marks (R202, R333). -/
def trkData (s : State) (t marks : Nat) (bs : List Byte) : State :=
  match (trkOf s t).busy with
  | some (.descRead c d id pos, _, _) => modXfer (trkDone s t) c d id fun y => landBytes y pos (64 ||| marks) bs
  | some (.ccRead k pos, _, _) => ccLoadDone (trkDone s t) k t pos bs
  | _ => s

/-- A response that meets no entry of its generation is dropped and counts in LATE (R336). -/
def trkLate (s : State) : State := satF s (rFAB_TRK + 4) 0 16 1

/-- A response's effect on the entry it names. -/
def trkRespond (s : State) (h : PktHdr) (f : State → State) : State :=
  let e := trkOf s h.tag
  if e.busy.isSome ∧ e.gen = h.tgen then f s else trkLate s

/-- TRACKER_TIMEOUT (R336): an entry older than FAB_TMO completes with TIMEOUT. -/
def trkTimeout (s : State) (t : Nat) : State :=
  match (trkOf s t).busy with
  | none => s
  | some (_, _, t0) =>
    let tmo := max 1 (getF s rFAB_TMO 0 16)
    if t0 + 1000 * tmo < tbNow s then trkFail (satF s (rFAB_TRK + 4) 16 16 1) t 7 0 else s

-- ports (R326, R327) ----------------------------------------------------------------------------------------------------

/-- A port enters a state: the host's and the control cores' causes (Tables 16-7, 17-5). -/
def setPortState (s : State) (p st : Nat) : State :=
  let s1 := hostIrq (setF s (rFAB_STAT p) 0 3 st) 9
  (List.range 16).foldl (fun s k => setF s (rCC_IRQ_STAT k) 4 1 1) s1

/-- Link credits in use. -/
def usedTotal (x : PortSt) : Nat := x.used.foldl (fun a e => a + e.2) 0

/-- Entry to UP or UP_HALF: sequence numbers 0, credits full (R326, R330). A packet whose flits had begun to leave starts again, and what the buffers still hold owes no credit. -/
def portEnter (s : State) (p : Nat) (half : Bool) : State :=
  let x := portOf s p
  let s1 := ledReturn s qLINKCRED (usedTotal x)
  let again := fun (t : TxPkt) => if t.begun then { t with rest := pktFlits t.pkt, begun := false } else t
  let s2 := setPort s1 p { txq := x.txq.map (fun q => (q.1, q.2.map again)), out := x.out, rx := x.rx.map (fun k => { k with flits := 0 }), landed := x.landed, since := tbNow s,
                           eth := getB s (rFAB_CTL p) 1, half := half }
  portFlush (setPortState s2 p (if half then 3 else 2)) p

/-- Whether a packet is a tracked request (Table 15-4). -/
def isTracked (k : Packet) : Bool := k.hdr.typ == 1 || k.hdr.typ == 2 || k.hdr.typ == 6 || k.hdr.typ == 8

/-- A packet whose next hop has gone (R348 step 5). The own requests have ended with their entries. -/
def orphan (s : State) (p : Nat) (k : Packet) : State :=
  if isTracked k then (if k.hdr.srcPkg = ownPkg s then s else fabError s k.hdr 6 0 []) else portDrop s p

-- the mirror pair (R349 to R355) -------------------------------------------------------------------------------------------------

/-- An enabled region's register value. -/
def mirReg (s : State) (r : Nat) : Nat := getR64 s (rMIR_REGION r)
def mirEn (v : Nat) : Bool := bits v 63 1 == 1
def logBase (s : State) : Nat := mirBase (getR64 s rMIR_LOG)
def logSize (s : State) : Nat := bits (getR64 s rMIR_LOG) 48 16 * 2 ^ 21
/-- Two extents overlap. -/
def overlap (a n b m : Nat) : Bool := decide (a < b + m) && decide (b < a + n)

/-- Whether an enabled region passes this side's check (Table 15-7). -/
def mirPasses (s : State) (r : Nat) : Bool :=
  let v := mirReg s r
  decide (mirSize v ≠ 0) && decide (mirBase v + mirSize v ≤ 2 ^ 38) &&
    !((List.range 16).any fun q => q != r && mirEn (mirReg s q) && overlap (mirBase v) (mirSize v) (mirBase (mirReg s q)) (mirSize (mirReg s q))) &&
    !(mirMode s == 2 && overlap (mirBase v) (mirSize v) (logBase s) (logSize s))

/-- Whether the secondary's log passes the check (Table 15-7). -/
def mirLogOk (s : State) : Bool := mirMode s != 2 || (logSize s != 0 && decide (logBase s + logSize s ≤ 2 ^ 38))
/-- The regions that are enabled, and those of them that pass. -/
def mirEnabled (s : State) : List Nat := (List.range 16).filter fun r => mirEn (mirReg s r)
def mirPassing (s : State) : List Nat := (mirEnabled s).filter fun r => mirPasses s r

/-- What this side says of its check; a region that is not enabled has size 0. -/
def mirSay (s : State) : MirSay :=
  { mode := mirMode s, logOk := mirLogOk s, pass := (mirPassing s).foldl (fun a r => a + 2 ^ r) 0,
    sizes := (List.range 16).map fun r => if mirEn (mirReg s r) then mirSize (mirReg s r) / 2 ^ 21 else 0 }
/-- The statement as it travels: the content of an IDLE flit of VL 3 (DESIGN CHOICE, entry 110). -/
def sayBytes (m : MirSay) : List Byte := byteRun 1 (m.mode + (if m.logOk then 4 else 0)) ++ byteRun 2 m.pass ++ m.sizes.flatMap (byteRun 2)
def sayOf (c : List Byte) : MirSay :=
  let b := runValue (c.take 1)
  { mode := b % 4, logOk := bits b 2 1 == 1, pass := runValue ((c.drop 1).take 2), sizes := (List.range 16).map fun r => runValue ((c.drop (3 + 2 * r)).take 2) }
/-- The statement leaves on port 0. -/
def mirTell (s : State) : State :=
  if portUp s 0 then sendNumbered s 0 { nextFlit (portOf s 0) with vl := 3, idle := true, content := sayBytes (mirSay s) } else s

/-- The pair is no longer active on this side. -/
def mirUnpair (s : State) : State :=
  let s1 := setF s rMIR_CTL 2 1 0
  { s1 with mirror := { s1.mirror with active := 0, layout := [] } }

/-- ACTIVE is set once port 0 is up and both sides agree (R349, R350): one is primary and the other secondary, and the secondary's log passes. The active regions pass on
both sides with one SIZE. What ACTIVE has taken stays while it is set. -/
def mirAgree (s : State) : State :=
  let me := mirSay s
  match s.mirror.partner with
  | some y =>
    if portUp s 0 ∧ (me.mode = 1 ∧ y.mode = 2 ∨ me.mode = 2 ∧ y.mode = 1) ∧ me.logOk = true ∧ y.logOk = true then
      if mirActive s then s
      else
        let both := (List.range 16).filter fun r => bits me.pass r 1 == 1 && bits y.pass r 1 == 1
        let act := both.filter fun r => me.sizes.getD r 0 == y.sizes.getD r 0
        let s1 := if act ≠ both then setF s rMIR_STAT 3 1 1 else s
        let s2 := setF s1 rMIR_CTL 2 1 1
        { s2 with mirror := { s2.mirror with
            active := act.foldl (fun a r => a + 2 ^ r) 0, layout := act.map fun r => (r, mirReg s r), logAt := (logBase s, logSize s),
            log := [], logPos := 0, logNo := 0, commits := [] } }
    else mirUnpair s
  | none => mirUnpair s

/-- The check of R350: what fails it sets BADREG; its outcome goes to the partner. -/
def mirCheck (s : State) : State :=
  let bad := mirMode s ≠ 0 ∧ (mirEnabled s ≠ mirPassing s ∨ mirLogOk s = false)
  mirAgree (mirTell (if bad then setF s rMIR_STAT 3 1 1 else s))

/-- The partner's statement arrives. -/
def mirHear (s : State) (m : MirSay) : State := mirAgree { s with mirror := { s.mirror with partner := some m } }

/-- A write of MIR_CTL (R350, R353): it waits while a commit is being applied. A change of MODE ends what was active. -/
def mirCtl (s : State) (v : Nat) : State :=
  if getB s rMIR_STAT 0 then { s with mirror := { s.mirror with pendWr := some (BitVec.ofNat 32 v) } }
  else
    let m := if bits v 0 2 = 3 then 0 else bits v 0 2
    let s0 := if m = mirMode s then s else mirUnpair s
    let w := (v &&& 0xFFFF_FF00) + m + (if mirActive s0 then 4 else 0)
    mirCheck (setR s0 rMIR_CTL (BitVec.ofNat 32 w))

/-- A run of masked bytes at the front of a delta, and what follows it. -/
def maskRun : List Byte → List Bool → List Byte × List Byte × List Bool
  | b :: bs, true :: ms => let r := maskRun bs ms; (b :: r.1, r.2.1, r.2.2)
  | bs, ms => ([], bs, ms)

/-- Masked bytes of a delta written from a device address. -/
def writeMasked (s : State) : Nat → Nat → List Byte → List Bool → State
  | 0, _, _, _ => s
  | fuel + 1, a, bs, ms =>
    match ms with
    | [] => s
    | true :: _ =>
      let r := maskRun bs ms
      writeMasked (devWrite s whoFabric (r.1.length / 256 + 2) a r.1).1 fuel (a + r.1.length) r.2.1 r.2.2
    | false :: rest => writeMasked s fuel (a + 1) bs.tail rest

/-- The deltas of some regions copied, in arrival order. -/
def applyDeltas (s : State) (regions : Nat) (ds : List DeltaRec) : State :=
  ds.foldl (fun s d =>
    if bits regions d.region 1 = 1 then
      match s.mirror.layout.find? fun r => r.1 == d.region with
      | some r => writeMasked s (d.mask.length + 1) (mirBase r.2 + d.off) d.data d.mask
      | none => s
    else s) s

/-- A commit is applied all or nothing (R353): the deltas of its regions that came before it; DONE takes its number. -/
def applyOne (s : State) (n rs upto : Nat) (rest : List (Nat × Nat × Nat)) : State :=
  let covered := fun (d : DeltaRec) => bits rs d.region 1 == 1 && decide (d.no < upto)
  let s1 := applyDeltas s rs (s.mirror.log.filter covered)
  let s2 := { s1 with mirror := { s1.mirror with commits := rest, log := s1.mirror.log.filter fun d => !covered d } }
  setR s2 (rMIR_SEQ + 4) (BitVec.ofNat 32 n)

/-- No commit is left: APPLYING falls, and a MIR_CTL write that waited acts. -/
def applyEnd (s : State) : State :=
  let s1 := setF s rMIR_STAT 0 1 0
  match s1.mirror.pendWr with
  | some v => mirCtl { s1 with mirror := { s1.mirror with pendWr := none } } v.toNat
  | none => s1

/-- Every commit that has arrived is applied. -/
def applyAll : List (Nat × Nat × Nat) → State → State
  | [], s => s
  | (n, rs, upto) :: rest, s => applyAll rest (applyOne s n rs upto rest)

/-- The loss of port 0 in a mirror pair (R355, R423): a primary's commits end and its writes go on unmirrored; a secondary completes the application in
progress, discards the rest of its log and counts it. -/
def partnerLost (s : State) : State :=
  let m := s.mirror
  if mirMode s = 1 then
    let s1 := ledReturn (setF s rMIR_CTL 2 1 0) qMIRSEQ m.unacked.length
    let s2 := { s1 with mirror := { m with active := 0, layout := [], unacked := [], deltas := [], partner := none } }
    if mirActive s then hostIrq (setF s2 rMIR_STAT 1 1 1) 10 else s2
  else
    let s1 := applyAll m.commits s
    let s2 := satF (setF s1 rMIR_CTL 2 1 0) rMIR_STAT 16 16 s1.mirror.log.length
    applyEnd { s2 with mirror := { s2.mirror with active := 0, layout := [], log := [], commits := [], partner := none } }

/-- Whether something under way in the switch is on its way to a fabric port. -/
def toPort (p : Nat) : NetLoad → Option Packet
  | .toFab q _ k => if q = p then some k else none
  | _ => none

/-- A port whose link is gone (R348 steps 2 and 3): packets that have arrived whole stay, and owe no credit. -/
def portDead (x : PortSt) : PortSt := { out := x.out, rx := x.rx.map (fun k => { k with flits := 0 }), landed := x.landed }

/-- A link is lost (R348): its steps in order. -/
def portLost (s : State) (p cause : Nat) : State :=
  if portState s p = 0 then s
  else
    let x := portOf s p
    let s1 := setF (setPortState s p 0) (rFAB_STAT p) 5 1 1
    let s2 := raiseEv s1 (p / 4) { cls := cLINKDOWN, sev := 2, home := 1, ukind := 4, uindex := p, detail := cause }
    let s3 := ledReturn (setPort s2 p (portDead x)) qLINKCRED (usedTotal x)
    let ts := s.tracker.filterMap fun e => match e.2.busy with | some (_, q, _) => if q = p then some e.1 else none | none => none
    let s4 := ts.foldl (fun s t => trkFail s t 6 0) s3
    let way := (netLoads s4).filterMap fun m => toPort p m.2
    let s5 := netKeep s4 fun m => (toPort p m).isNone
    let s6 := (x.txq.flatMap (fun q => q.2.map TxPkt.pkt) ++ way).foldl (fun s k => orphan s p k) s5
    if p = 0 then partnerLost s6 else s6

/-- A port goes to LP with the package (R312, R326); one in Ethernet framing goes to DOWN, and its credits come back (Table 20-7, N7). -/
def portSleep (s : State) (p : Nat) : State :=
  if portUp s p then
    if (portOf s p).eth then setPortState (ledReturn (setPort s p (portDead (portOf s p))) qLINKCRED (usedTotal (portOf s p))) p 0 else setPortState s p 4
  else s

/-- At wake a port that sleep took to DOWN trains again (Table 20-7, N7). -/
def portWake (s : State) (p : Nat) : State :=
  if portState s p = 0 ∧ getB s (rFAB_CTL p) 0 then setPortState s p 1 else s

/-- LP_EXIT (R326): a port in LP retrains once the package is awake. -/
def lpExitRun (s : State) (p : Nat) : State := if portState s p = 4 ∧ awake s then portEnter s p (portOf s p).half else s

/-- TRAINING_TIMEOUT (R326): training restarts; nothing that the state holds changes. -/
def trainingTimeoutRun (s : State) (p : Nat) : State := if portState s p = 1 then setF s (rFAB_STAT p) 0 3 1 else s

/-- A packet of one hop on a port (Table 15-4). -/
def hopPacket (s : State) (p typ len : Nat) : Packet := ⟨mkHdr typ (getF s (rFAB_STAT p) 16 16) (ownPkg s) 0 0 0 len, List.replicate len 0, []⟩

/-- WAKE = 1 sends one WAKE packet in any state but DOWN (R347): in LP on the lane that runs (R327), before that when training is done. -/
def wakeSend (s : State) (p : Nat) : State :=
  let k := hopPacket s p 11 0
  if portState s p = 0 then s
  else if portState s p = 4 then emitFlit s p { nextFlit (portOf s p) with vl := 2, sop := true, eop := true, credits := List.replicate 8 0, content := (pktFlits k).headD [] }
  else txPush s p 0 k

/-- A write of FAB_PORT_CTL (R326, R347, R348). -/
def fabCtl (s : State) (p v : Nat) : State :=
  let s1 := setR s (rFAB_CTL p) (BitVec.ofNat 32 v &&& 0xFFF3)
  let s2 := if bits v 0 1 = 1 then (if portState s1 p = 0 then setPortState s1 p 1 else s1) else portLost s1 p 0
  if bits v 2 1 = 1 then wakeSend s2 p else s2

-- flits (R332, R333, R344, R345) -------------------------------------------------------------------------------------------

/-- RETRY_MAX, where 0 acts as 1. -/
def retryMax (s : State) (p : Nat) : Nat := max 1 (getF s (rFAB_CTL p) 4 4)

/-- The acknowledged flits leave the replay buffer. -/
def ackFlits (s : State) (p seq : Nat) : State :=
  let x := portOf s p
  if x.replay.any fun f => f.seq == seq then
    setPort s p { x with replay := (x.replay.dropWhile fun f => f.seq != seq).drop 1, replays := 0, rtos := 0, since := tbNow s }
  else s

/-- Returned link credits (R330): entry 2 · VL + class of the list. -/
def returnCredits (s : State) (p : Nat) (cs : List Nat) : State :=
  (List.range 8).foldl (fun s i =>
    let x := portOf s p
    let n := min (cs.getD i 0) (portUsed x i)
    ledReturn (setPort s p { x with used := mset (fun _ => 0) x.used i (portUsed x i - n) }) qLINKCRED n) s

/-- Every unacknowledged flit leaves again, in order (R332), with the acknowledgement of now; a time exchange whose request leaves again has suffered a retry (R346). -/
def resend (s : State) (p : Nat) : State :=
  let x := portOf s p
  let s1 := satF (setPort s p { x with replays := x.replays + 1, since := tbNow s }) (rFAB_CNT p) 0 16 1
  let hit := tbPort s == p && (match s.time.t1 with | some (_, q) => x.replay.any fun f => f.seq == q | none => false)
  let s2 := if hit then { s1 with time := { s1.time with t1Late := true } } else s1
  x.replay.foldl (fun s f => emitFlit s p { f with ackSeq := (x.rxSeq + 4095) % 4096 }) s2

/-- A replay starts at the oldest unacknowledged flit (R332); a flit that fails RETRY_MAX consecutive replays loses the link (R333). -/
def replayFrom (s : State) (p : Nat) : State :=
  let x := portOf s p
  match x.replay with
  | [] => s
  | f :: _ =>
    if retryMax s p ≤ x.replays then
      let s1 := raiseEv (setF s (rFAB_STAT p) 4 1 1) (p / 4) { cls := cRETRY, sev := 0, home := 0, ukind := 4, uindex := p, detail := f.seq }
      portLost s1 p 1
    else resend s p

/-- Flits are lost on their way in (R332): from the next in order on, n of them wait for a replay. The first of a run asks for it; one that fails its check asks again. In
Ethernet framing each loss counts in FRAMELOSS once (R345). -/
def flitLost (s : State) (p n : Nat) (again : Bool) : State :=
  let x := portOf s p
  let s1 := setPort s p { x with lossy := true, nakDue := x.nakDue || again || !x.lossy, behind := max x.behind n }
  if x.eth && !x.lossy then satF s1 (rFAB_CNT p + 4) 0 16 1 else s1

/-- The content of an accepted flit joins its packet; with the last flit the packet stands in the receive buffer (R334). -/
def flitContent (s : State) (p : Nat) (f : FlitRec) (late : Bool) : State :=
  let x := portOf s p
  let key := 2 * f.vl + f.cls
  let old := if f.sop then ([], false) else mget (fun _ => ([], false)) x.part key
  let cs := old.1 ++ [f.content]
  let bad := old.2 || late
  if f.eop then
    let k : RxPkt := { vl := f.vl, cls := f.cls, flits := cs.length, marks := if bad then 16 else 0, tb := tbNow s, n := s.sendNo, pkt := pktOf cs.flatten }
    setPort { s with sendNo := s.sendNo + 1 } p { x with part := mset (fun _ => ([], false)) x.part key ([], false), rx := x.rx ++ [k] }
  else setPort s p { x with part := mset (fun _ => ([], false)) x.part key (cs, bad) }

/-- A numbered flit that passes its check (R332): the next in order is taken, once; one that came before is acknowledged again; one that is ahead shows a loss. -/
def flitNumbered (s : State) (p : Nat) (f : FlitRec) : State :=
  let x := portOf s p
  let ahead := (f.seq + 4096 - x.rxSeq) % 4096
  if ahead = 0 then
    let s1 := setPort s p { x with rxSeq := (x.rxSeq + 1) % 4096, lossy := false, nakDue := false, ackDue := true, behind := x.behind - 1 }
    let s2 := returnCredits s1 p f.credits
    if f.idle then (if f.vl = 3 ∧ p = 0 then mirHear s2 (sayOf f.content) else s2)
    else flitContent s2 p f (decide (0 < x.behind))
  else if 2048 ≤ ahead then setPort s p { x with ackDue := true }
  else flitLost s p (ahead + 1) false

/-- Whether a flit is numbered: one with content, with credits, or with a statement of the mirror pair (entry 108). -/
def numbered (f : FlitRec) : Bool := !f.idle || f.vl == 3 || f.credits.any fun n => n != 0

/-- FLIT_RECEIVE (R332). A port in LP takes a WAKE packet alone (R327). -/
def flitIn (s : State) (p : Nat) (bs : List Byte) : State :=
  if portState s p = 4 then
    match flitOf bs with
    | some f => if f.sop ∧ f.eop ∧ (pktOf f.content).hdr.typ = 11 then flitContent s p f false else s
    | none => s
  else if portUp s p = false then s
  else match flitOf bs with
    | none => portFlush (flitLost s p 1 true) p
    | some f =>
      let s1 := ackFlits s p f.ackSeq
      let s2 := if numbered f then flitNumbered s1 p f else s1
      portFlush (if f.nak then replayFrom s2 p else s2) p

/-- ETH_FRAME_RECEIVE (R344, R345). A frame that is not of the tunnel is none of the port's. -/
def frameIn (s : State) (p : Nat) (bs : List Byte) : State :=
  if portUp s p = false ∨ (portOf s p).eth = false then s
  else match frameOf (bits (getR64 s (rFAB_MAC p)) 0 48) (Config.ownMac p).toNat (getF s rFAB_ETH 0 16) bs with
    | .bad => portFlush (flitLost s p 1 true) p
    | .pause => satF s (rFAB_CNT p + 4) 16 16 1
    | .other => s
    | .flits l => l.foldl (fun s f => flitIn s p f) s

/-- RTO_EXPIRY (R345, R348): RTO microseconds without an ACKSEQ start a replay; RETRY_MAX expiries in a row lose the link. -/
def rtoRun (s : State) (p : Nat) : State :=
  let x := portOf s p
  if portUp s p = false ∨ x.eth = false ∨ x.replay = [] ∨ tbNow s < x.since + 1000 * getF s (rFAB_CTL p) 8 8 then s
  else
    let s1 := satF (setPort s p { x with rtos := x.rtos + 1 }) (rFAB_CNT p + 4) 0 16 1
    if retryMax s p ≤ x.rtos + 1 then portLost s1 p 4 else replayFrom s1 p

-- the receive buffers (R330, R339) -----------------------------------------------------------------------------------------------

/-- The oldest packet of a virtual lane in a port's receive buffer. -/
def rxHead (s : State) (p vl : Nat) : Option RxPkt := (portOf s p).rx.find? fun k => k.vl == vl

/-- A packet leaves the receive buffer, and its credits return (R330). -/
def rxTake (s : State) (p : Nat) (k : RxPkt) : State :=
  let x := portOf s p
  let key := 2 * k.vl + k.cls
  portFlush (setPort s p { x with rx := x.rx.erase k, ret := mset (fun _ => 0) x.ret key (mget (fun _ => 0) x.ret key + k.flits) }) p

/-- The oldest packet of a type of one hop that fits is taken (Table 15-4). -/
def hopTake (s : State) (p typ : Nat) (fits : RxPkt → Bool) (f : State → RxPkt → State) : State :=
  match (portOf s p).rx.find? fun k => k.pkt.hdr.typ == typ && fits k with
  | some k => f (rxTake s p k) k
  | none => s

-- time messages (R296, R346) --------------------------------------------------------------------------------------------------

/-- TIME_EXCHANGE (R296, R346): once per interval, at a multiple of it, a follower sends TIME_REQ; t1 is taken as it leaves. -/
def timeExchangeRun (s : State) : State :=
  let p := tbPort s
  let i := tbNow s / tbInterval s
  if tbSrc s = 2 ∧ portUp s p ∧ tbNow s % tbInterval s < 10 ∧ s.time.exch ≠ some i then
    txPush { s with time := { s.time with exch := some i, t1 := none } } p 0 (hopPacket s p 9 8)
  else s

/-- Word i of a payload. -/
def payWord (k : Packet) (i : Nat) : Nat := runValue ((k.payload.drop (8 * i)).take 8)

/-- TIME_REQ (R346): the neighbour answers with t1, the time t2 of its arrival, and t3, which is taken as the answer leaves. -/
def timeReqRun (s : State) (p t1 : Nat) : State :=
  if portUp s p = false then s
  else hopTake s p 9 (fun k => payWord k.pkt 0 == t1) fun s k => txPush s p 0 { hopPacket s p 10 24 with payload := leBytes 8 t1 ++ leBytes 8 k.tb ++ leBytes 8 0 }

/-- TIME_RSP (R346): the exchange gives its error, or suffered a retry and is discarded. t4 is the time of its arrival. -/
def timeRspRun (s : State) (p t1 t2 t3 : Nat) (retried : Bool) : State :=
  hopTake s p 10 (fun k => payWord k.pkt 0 == t1 && payWord k.pkt 1 == t2 && payWord k.pkt 2 == t3 && decide (k.marks ≠ 0) == retried) fun s k =>
    if tbSrc s = 2 ∧ tbPort s = p ∧ s.time.t1.map (·.1) = some t1 then
      let s1 := { s with time := { s.time with t1 := none } }
      if s.time.t1Late ∨ retried then satF s1 (rFAB_TIME + 4) 0 16 1
      else
        let e : Int := 2147483648 * (((t1 : Int) - (t2 : Int)) + ((k.tb : Int) - (t3 : Int)))
        let rtt := ((k.tb : Int) - (t1 : Int)) - ((t3 : Int) - (t2 : Int))
        syncEvent (setR s1 rFAB_TIME (BitVec.ofNat 32 (unsigned 32 rtt))) e
    else s

-- meanings ------------------------------------------------------------------------------------------------------------------------

/-- TRAINING_TIMEOUT (R326). -/
def execTrainingTimeout (port : PortId) (s : State) : Host.Outcome State Fault Refusal := .next (trainingTimeoutRun s port)
/-- LP_EXIT (R326). -/
def execLpExit (port : PortId) (s : State) : Host.Outcome State Fault Refusal := .next (lpExitRun s port)
/-- FLIT_RECEIVE (R332). -/
def execFlitReceive (port : PortId) (flit : List Byte) (s : State) : Host.Outcome State Fault Refusal := .next (flitIn s port flit)
/-- LINK_DOWN (R348): a loss of signal lock (2), of the peer (3) or another cause. -/
def execLinkDown (port : PortId) (cause : BitVec 3) (s : State) : Host.Outcome State Fault Refusal := .next (portLost s port cause.toNat)
/-- ETH_FRAME_RECEIVE (R344). -/
def execEthFrameReceive (port : PortId) (addresses body fcs : List Byte) (s : State) : Host.Outcome State Fault Refusal := .next (frameIn s port (addresses ++ body ++ fcs))
/-- RTO_EXPIRY (R345). -/
def execRtoExpiry (port : PortId) (s : State) : Host.Outcome State Fault Refusal := .next (rtoRun s port)
/-- TIME_EXCHANGE (R296). -/
def execTimeExchange (s : State) : Host.Outcome State Fault Refusal := .next (timeExchangeRun s)
/-- TIME_REQ (R346). -/
def execTimeReq (port : PortId) (t1 : W64) (s : State) : Host.Outcome State Fault Refusal := .next (timeReqRun s port t1.toNat)
/-- TIME_RSP (R346). -/
def execTimeRsp (port : PortId) (t1 t2 t3 : W64) (retried : Bool) (s : State) : Host.Outcome State Fault Refusal := .next (timeRspRun s port t1.toNat t2.toNat t3.toNat retried)
/-- PEER_LP (R327). -/
def execPeerLp (port : PortId) (inLp : Bool) (s : State) : Host.Outcome State Fault Refusal :=
  .next (if portState s port = 0 then s else setF s (rFAB_STAT port) 3 1 (if inLp then 1 else 0))
/-- TRACKER_TIMEOUT (R336). -/
def execTrackerTimeout (tag : BitVec 16) (s : State) : Host.Outcome State Fault Refusal := .next (trkTimeout s tag.toNat)

end Sys2Proof.Machine
end

