-- ==== Sys2Proof/Machine/Session.lean ====
section
/-! DEFINITION. Sessions and the host link (16_host_interface.md, R357, R361, R381 to R383), and the rights that a source has (Table 16-3, R387, R437). -/

namespace Sys2Proof.Machine

-- the session (Table 16-11) ---------------------------------------------------------------------------------------

def sessState (s : State) : Nat := getF s rSESS_STATE 0 2
def sessOpen (s : State) : Bool := sessState s == 2
def sessDebug (s : State) : Bool := sessOpen s && getB s rSESS_STATE 2
def sessErr (s : State) (e : Nat) : State := setF s rSESS_STATE 12 4 e
/-- BOOT_STAT.STAGE = RUNNING (R401). -/
def bruta (s : State) : Bool := getF s rBOOT_STAT 0 2 == 2

/-- An owner slot of the security store (R407). -/
def ownerSlot (s : State) (k : Nat) : OwnerSlot := mget (fun _ => {}) s.sec.slots k
/-- The key of a session kind, if any (R381, R407): KIND 1 only in DEBUG_UNLOCKED with a debug key. -/
def sessKey (s : State) (debug : Bool) : Option (List Byte) :=
  let o := ownerSlot s s.sec.cur
  if s.sec.lifeState = 0 then none
  else if debug then (if s.sec.lifeState = 2 ∧ ((OwnerSlot.debug o).any fun b => b != 0) = true then some (OwnerSlot.debug o) else none)
  else some o.owner

/-- The four bytes of a register word. -/
def wordBytes32 (s : State) (off : Nat) : List Byte := leBytes 4 (getR s off).toNat
/-- n bytes of registers from an offset. -/
def regBytes (s : State) (off n : Nat) : List Byte := (List.range (n / 4)).flatMap fun i => wordBytes32 s (off + 4 * i)
/-- Bytes stored in register words from an offset. -/
def setRegBytes (s : State) (off : Nat) (bs : List Byte) : State :=
  (List.range (bs.length / 4)).foldl (fun s i => setR s (off + 4 * i) (BitVec.ofNat 32 (leNat ((bs.drop (4 * i)).take 4)))) s

/-- SESS_CTL.REQ (Table 16-9, step 1; R401). -/
def sessRequest (s : State) (debug : Bool) : State :=
  if bruta s = false ∨ sessState s = 2 then sessErr s 5
  else if sessState s = 3 then sessErr s 3
  else match sessKey s debug with
    | none => sessErr s 4
    | some _ =>
      let c := Config.challenge s.draws
      let s1 := setRegBytes { s with draws := s.draws + 1, sess := { s.sess with chalTick := s.time.ticks } } rSESS_CHALLENGE (leBytes 32 c.toNat)
      setF (setF s1 rSESS_STATE 0 2 1) rSESS_STATE 2 1 (if debug then 1 else 0)

/-- The label of a session kind (Table 16-9), as ASCII bytes. -/
def sessLabel (debug : Bool) : List Byte := (if debug then "AZH-T4 DEBUG 1" else "AZH-T4 SESSION 1").toList.map fun c => BitVec.ofNat 8 c.toNat

/-- The 48 bytes last written to SESS_RESPONSE. -/
def sessResponse (s : State) : List Byte := (List.range 12).flatMap fun i => leBytes 4 (mget (fun _ => (0 : BitVec 32)) s.sess.resp i).toNat

/-- A BADMAC (R381, R382). -/
def badMac (s : State) : State :=
  let f := getF s rSESS_STATE 4 4 + 1
  let s1 := sessErr (setF (setF s rSESS_STATE 0 2 0) rSESS_STATE 4 4 f) 1
  let s2 := raiseEv s1 0 { cls := cAUTH, sev := 0, home := 0, ukind := 3, uindex := 0, detail := f }
  if 8 ≤ f then
    let l := getF s2 rSESS_STATE 8 4
    let s3 := { s2 with sess := { s2.sess with lockTick := s2.time.ticks, lockLen := 60 * 2 ^ l * 100_000_000 } }
    hostIrq (setF (setF (setF s3 rSESS_STATE 0 2 3) rSESS_STATE 4 4 0) rSESS_STATE 8 4 (min 10 (l + 1))) 8
  else s2

/-- SESS_CTL.SUBMIT (Table 16-9, step 4). A challenge serves one SUBMIT and expires 10 s after it is issued. -/
def sessSubmit (s : State) (jtag : Bool) : State :=
  let debug := getB s rSESS_STATE 2
  if sessState s ≠ 1 then sessErr s 6
  else if s.sess.chalTick + 1_000_000_000 ≤ s.time.ticks then sessErr (setF s rSESS_STATE 0 2 0) 2
  else match sessKey s debug with
    | none => badMac s
    | some k =>
      if sessResponse s = hmac384 k (regBytes s rSESS_CHALLENGE 32 ++ regBytes s rSESS_NONCE 32 ++ sessLabel debug) then
        let s1 := setF (setF (setF s rSESS_STATE 0 2 2) rSESS_STATE 4 8 0) rSESS_STATE 16 16 (getF s rSESS_STATE 16 16 + 1)
        { s1 with sess := { s1.sess with jtag := jtag } }
      else badMac s

/-- LOCKOUT_EXPIRY (R382): the lockout counts elapsed ticks. -/
def lockoutExpiry (s : State) : State :=
  if sessState s = 3 ∧ s.sess.lockTick + s.sess.lockLen ≤ s.time.ticks then setF s rSESS_STATE 0 2 0 else s

/-- Lockout seconds remaining (SESS_LOCK.REMAIN). -/
def lockRemain (s : State) : Nat := if sessState s = 3 then ceilDiv (s.sess.lockTick + s.sess.lockLen - s.time.ticks) 100_000_000 else 0

-- the end of a session (R383) ------------------------------------------------------------------------------------------

/-- Every floe that a debug session holds runs again, and trace ends (R383, R439). -/
def endDebug (s : State) : State :=
  let s1 := (List.range 32).foldl (fun s cl => (List.range 32).foldl (fun s f => if getB s (rFLOE_CTL cl f) 2 then floeHoldRun s cl f false else s) s) s
  (List.range 4).foldl (fun s d => setF s (rTRC_CTL d) 0 1 0) s1

/-- The session itself ends, with EN cleared. -/
def sessEnd (s : State) : State :=
  if sessOpen s then
    let s1 := if sessDebug s then endDebug s else s
    let s2 := setF (setF s1 rSESS_STATE 0 2 0) rHRING_SIZE 8 1 0
    { s2 with sess := { s2.sess with jtag := false } }
  else s

/-- Mover of a MOVE command, and whether a block is a MOVE. -/
def cmdOpc (c : HostCmd) : Nat := bits (c.words.getD 0 0).toNat 0 8
def cmdMv (c : HostCmd) : Nat := bits (c.words.getD 2 0).toNat 48 4
/-- The queue of a mover: its first command is in progress (R370). -/
def moverQ (s : State) (m : Nat) : List HostCmd := mget (fun _ => []) s.host.movers m
def setMoverQ (s : State) (m : Nat) (q : List HostCmd) : State := { s with host := { s.host with movers := mset (fun _ => []) s.host.movers m q } }

/-- MOVEs that end without OK count in HMV_CNT.ERRORS. -/
def moveError (s : State) (m : Nat) : State := satF s (rHMV_CNT m + 4) 16 16 1

/-- Every fetched command ends as ABORTED, with no record written; mover tokens return (Table 16-10). FIRNBAR writes that have arrived are still performed; nobody waits for
a read. -/
def abortAll (s : State) : State :=
  let queued := s.host.movers.flatMap fun p => p.2
  let s1 := ledReturn s qHMV queued.length
  let s2 := (queued ++ s.host.accepted.filter fun c => cmdOpc c == 1).foldl (fun s c => moveError s (cmdMv c)) s1
  { s2 with host := { s2.host with accepted := [], movers := [], moved := [], loader := none, recs := [], bar := s2.host.bar.filter fun x => x.data.isSome } }

/-- The session ends as link loss does, whoever owns it (R431, Table 20-7 N8). -/
def sessLost (s : State) : State :=
  let open_ := sessOpen s
  let s1 := abortAll (setF (sessEnd s) rHRING_SIZE 8 1 0)
  if open_ then hostIrq s1 8 else s1

/-- The host's data link goes down (R383): the ring stops, fetched commands abort, and a session that JTAG does not own ends (R437). -/
def linkLoss (s : State) : State :=
  let s1 := { setF s rHOST_STAT 0 9 0 with host := { s.host with linkUp := false } }
  if s.sess.jtag then abortAll (setF s1 rHRING_SIZE 8 1 0) else sessLost s1

/-- PERST_N low or a Function Level Reset (Table 21-1): as link loss, then the host block returns to reset except FIRN_WIN_BASE. -/
def hostReset (s : State) : State :=
  let ended := sessOpen s && !s.sess.jtag
  let s1 := linkLoss s
  let s2 := { s1 with
    regs := s1.regs.filter fun p => decide (p.1 < 0x4_0000) || decide (0x8_0000 ≤ p.1) || decide (p.1 = rFIRN_WIN_BASE),
    host := { s1.host with bme := false, pend := 0, vectors := [], cfg := {}, bar := [] },
    sec := { s1.sec with pushIdx := none } }
  if ended then hostIrq s2 8 else s2

-- rights (Table 16-3, R387, R437) ------------------------------------------------------------------------------------------

/-- Whether a source may write a register outside the session block, and whether it may write debug fields. -/
def mayWrite (s : State) : Src → Bool
  | .cc _ => true
  | _ => sessOpen s
def mayDebug (s : State) : Src → Bool
  | .cc _ => false
  | _ => sessDebug s

/-- Offsets of the session block (Table 16-3). -/
def inSessBlock (off : Nat) : Bool := decide (0x2_0000 ≤ off) && decide (off < 0x4_0000)

/-- A refused access of the host or its ring counts in NOSESS (R361). -/
def noSession (s : State) : Src → State
  | .host | .ring => satF s rHOST_STAT 16 16 1
  | _ => s

/-- SESS_CTL (R381): CLOSE alone wins, REQ with SUBMIT is BADSEQ. -/
def sessCtl (s : State) (jtag : Bool) (v : Nat) : State :=
  if bits v 2 1 = 1 then sessEnd s
  else if bits v 0 2 = 3 then sessErr s 6
  else if bits v 0 1 = 1 then sessRequest s (bits v 3 1 == 1)
  else if bits v 1 1 = 1 then sessSubmit s jtag
  else s

/-- Pending vectors that are unmasked leave once the link is up with Bus Master Enable (R359, R364). -/
def msixFlush (s : State) : State :=
  (List.range 64).foldl (fun s v =>
    if bits s.host.pend v 1 = 1 ∧ vecGoes s v then msix { s with host := { s.host with pend := setBits s.host.pend v 1 0 } } v else s) s

/-- A word of VECBAR (Table 16-2): the MSI-X table, then the pending bits. -/
def vecbarWord (s : State) (off : Nat) : BitVec 32 :=
  if off < 0x400 then
    let e := vecOf s (off / 16)
    match off % 16 / 4 with
    | 0 => e.addr.extractLsb' 0 32
    | 1 => e.addr.extractLsb' 32 32
    | 2 => e.data
    | _ => if e.mask then 1 else 0
  else if 0x1000 ≤ off ∧ off < 0x1008 then BitVec.ofNat 32 (s.host.pend / 2 ^ (8 * (off % 8)))
  else 0

/-- Class code of the function (R358). -/
def classCode : Nat := 0x12_0000

-- meanings ----------------------------------------------------------------------------------------------------------------------

/-- HOST_LINK_TRAIN (R357): the rate (3 to 5), the width and the mode that both partners reach; 64 GT/s runs in FLIT mode. -/
def linkTrain (s : State) (rate width : Nat) (flit : Bool) : State :=
  if 3 ≤ rate ∧ rate ≤ 5 ∧ (width = 1 ∨ width = 4 ∨ width = 8 ∨ width = 16) ∧ s.pwr.off = false ∧ regionUp s 32 then
    let f := if rate = 5 ∨ flit then 1 else 0
    let s1 := setF (setF (setF s rHOST_STAT 0 3 rate) rHOST_STAT 3 5 width) rHOST_STAT 8 1 f
    msixFlush { s1 with host := { s1.host with linkUp := true }, pwr := { s1.pwr with wakeOut := false } }
  else s

/-- HOST_LINK_TRAIN (R357). -/
def execHostLinkTrain (rate : BitVec 3) (width : BitVec 5) (flit : Bool) (s : State) : Host.Outcome State Fault Refusal :=
  .next (linkTrain s rate.toNat width.toNat flit)
/-- HOST_LINK_LOSS (R383). -/
def execHostLinkLoss (s : State) : Host.Outcome State Fault Refusal := .next (linkLoss s)
/-- LOCKOUT_EXPIRY (R382). -/
def execLockoutExpiry (s : State) : Host.Outcome State Fault Refusal := .next (lockoutExpiry s)
/-- PERST_N (R430). -/
def execPerstN (s : State) : Host.Outcome State Fault Refusal := .next (hostReset s)
/-- FUNCTION_LEVEL_RESET (R358): exactly as PERST_N. -/
def execFunctionLevelReset (s : State) : Host.Outcome State Fault Refusal := .next (hostReset s)

end Sys2Proof.Machine
end

