-- ==== Sys2Proof/Machine/Packet.lean ====
section
/-! DEFINITION. Packets of the fabric (15_fenroku_fabric.md, R334 to R343): transit, remote reads and writes, messages, signals and responses, and the mirror
pair (R349 to R355) with the training that brings a port up. -/

namespace Sys2Proof.Machine

-- places of the device map (R21, R24) --------------------------------------------------------------------------------

/-- What n bytes from a local address reach: firn, one core's store, or nothing. -/
inductive Place where
  | firn
  | store (c : Nat)
  | unmapped
  deriving DecidableEq, Repr

def placeOf (a n : Nat) : Place :=
  let hi := a + max 1 n
  if hi ≤ 2 ^ 38 then .firn
  else
    let c := a / 2 ^ 24 - 0x10000
    if 0x10000 ≤ a / 2 ^ 24 ∧ c < 256 ∧ hi ≤ storeBase c + 2 ^ 21 then .store c else .unmapped

/-- Whether an access to a core's store waits: its cluster is gated or powered down, or a reset holds the core (R306, R312, R432). -/
def storeWaits (s : State) (c : Nat) : Bool := (clusterOf s (c / 8)).gated || !regionUp s (c / 8) || s.resetting.contains c

/-- ABSENT_UNIT at NOTE for an access to an absent core (R279, R280, R387, R388, R468). -/
def absentNote (s : State) (c ukind uindex addr : Nat) : State :=
  raiseEv s (c / 64) { cls := cABSENT, sev := 0, home := 0, ukind := ukind, uindex := uindex, addr := addr, detail := c }

/-- n bytes of 0xDEAD_0FF5 in every 32-bit word (R280). -/
def deadBytes (n : Nat) : List Byte := (List.range n).map fun i => [0xF5#8, 0x0F#8, 0xAD#8, 0xDE#8].getD (i % 4) 0

/-- Whether the DELTA of a write would wait for a mirror credit (R351). -/
def mirWaits (s : State) (a : Nat) (bs : List Byte) : Bool := match mirDelta s a bs with | some k => !mirRoom s k | none => false

-- transit (R327, R339, R341 to R343) -------------------------------------------------------------------------------------

/-- The direction in which a packet that arrives on a port travels: away from the neighbour that the port faces. -/
def arrivalVia (s : State) (p : Nat) : Option (Nat × Bool) :=
  ((List.range 6).find? fun k => getB s (rFAB_DIR k) p).map fun k => (k / 2, k % 2 == 1)

/-- Whether FAB_PORT_SLOTS opens a slot (R339). -/
def fabSlotOpen (s : State) (p slot : Nat) : Bool := getB s (rFAB_SLOTS p + 4 * (slot % 256 / 32)) (slot % 32)

/-- The cluster node that a packet for this package is delivered to (R339): the stack or core its address names, the core of a message, signal or credit, or the core whose
request a response answers. None where the service complex takes it. -/
def packetNode (s : State) (k : Packet) : Option Nat :=
  let h := k.hdr
  let t := h.typ
  if t = 1 ∨ t = 2 then
    match placeOf h.addr (if t = 1 then k.payload.length else h.len) with
    | .firn => some (h.addr / 2 ^ 33)
    | .store c => some (c / 8)
    | .unmapped => none
  else if t = 3 ∨ t = 4 ∨ t = 5 then
    match (trkOf s h.tag).busy with
    | some (who, _, _) => (whoCore who).map (· / 8)
    | none => none
  else if t = 6 ∨ t = 7 ∨ t = 8 then some (h.score % 256 / 8)
  else none

-- remote requests (Table 15-4) ---------------------------------------------------------------------------------------------

/-- The signal of a packet joins those of its core, in the fabric's place of R215. The header names no signalling core, so the record's CORE is a free value. -/
def fabSignal (s : State) (p kind : Nat) (h : PktHdr) : State :=
  let (v, s1) := drawFree s
  { s1 with signals := s1.signals ++ [⟨h.score, h.sctr, h.scount, h.sgen, 4, p, h.srcPkg, v.toNat % 256, kind, false⟩] }

/-- A request to an absent core: an error reply with 0xDEAD_0FF5 in every word (R280). -/
def absentReply (s : State) (p c : Nat) (h : PktHdr) : State := fabError (absentNote s c 4 p h.addr) h 2 0 (deadBytes h.len)

/-- A performed WRITE applies its signal and is acknowledged. -/
def writeDone (s : State) (p : Nat) (h : PktHdr) : State := fabAck (if h.sig then fabSignal s p 2 h else s) h

/-- Whether a WRITE or a READ waits at its target (R161, R306, R351). -/
def writeWaits (s : State) (k : Packet) : Bool :=
  let h := k.hdr
  let n := k.payload.length
  if h.sig ∧ corePresent s h.score = false then false
  else match placeOf h.addr n with
    | .unmapped => false
    | .store c => corePresent s c && storeWaits s c
    | .firn => !mirForeign s h.addr n && (!firnOpenFor s whoFabric h.addr n || mirWaits s h.addr k.payload)
def readWaits (s : State) (k : Packet) : Bool :=
  match placeOf k.hdr.addr k.hdr.len with
  | .unmapped => false
  | .store c => corePresent s c && storeWaits s c
  | .firn => !firnOpenFor s whoFabric k.hdr.addr k.hdr.len

/-- WRITE at its target (R25, R214, R280, R351). -/
def writeIn (s : State) (p : Nat) (k : Packet) : State :=
  let h := k.hdr
  let n := k.payload.length
  if h.sig ∧ corePresent s h.score = false then absentReply s p h.score h
  else match placeOf h.addr n with
    | .unmapped => fabError s h 1 0 []
    | .store c => if corePresent s c = false then absentReply s p c h else writeDone (wrBytes s h.addr k.payload) p h
    | .firn =>
      if mirForeign s h.addr n then fabError (satF s (rMIR_STAT + 4) 0 16 1) h 1 0 []
      else
        let (s1, bad) := devWrite s whoFabric (n / 256 + 2) h.addr k.payload
        if bad then fabError s1 h 3 0 [] else writeDone s1 p h

/-- READ_DATA (Table 15-4). -/
def readReply (s : State) (h : PktHdr) (bs : List Byte) : State :=
  fabRespond s ⟨mkHdr 3 h.srcPkg (ownPkg s) h.tag h.tgen h.addr bs.length, bs, []⟩

/-- READ at its target. -/
def readIn (s : State) (p : Nat) (k : Packet) : State :=
  let h := k.hdr
  match placeOf h.addr h.len with
  | .unmapped => fabError s h 1 0 []
  | .store c => if corePresent s c = false then absentReply s p c h else readReply s h (rdBytes s h.addr h.len)
  | .firn =>
    let (s1, bs, bad) := devRead s whoFabric (h.len / 256 + 2) h.addr h.len
    if bad then fabError s1 h 3 0 [] else readReply s1 h bs

/-- The tracker entry of a request of ours that a reply to an end answers: the oldest that expects it (R335). -/
def replyEntry (s : State) (pkg c e : Nat) : Option Nat :=
  let fits := s.tracker.filterMap fun x =>
    match x.2.busy with
    | some (.message c' o _ ws true, _, t0) =>
      if c' = c ∧ hdrRply (ws.headD 0) = e ∧ ochPkg s c o = pkg then some (x.1, t0) else none
    | _ => none
  (fits.foldl (fun (o : Option (Nat × Nat)) x => match o with | some y => if x.2 < y.2 then some x else some y | none => some x) none).map fun y => y.1

/-- MSG (R335): a request joins the messages on their way to its end; a reply also completes the entry that waits for it, and one that none waits for is dropped. -/
def msgIn (s : State) (p : Nat) (k : Packet) : State :=
  let h := k.hdr
  let ws := wordsOf k.payload
  let c := h.score
  let fl : Flight := ⟨c, h.addr % 16, h.srcPkg, ws, 0, some (p, h), 0⟩
  if corePresent s c = false then absentReply s p c h
  else if hdrReq (ws.headD 0) then { s with flights := s.flights ++ [fl] }
  else match replyEntry s h.srcPkg c (h.addr % 16) with
    | some t => let s1 := trkDone s t; { s1 with flights := s1.flights ++ [fl] }
    | none => trkLate s

/-- CREDIT (R335): a credit of a message that is still outstanding reaches its channel; any other is dropped (R338). -/
def creditIn (s : State) (k : Packet) : State :=
  let h := k.hdr
  let o := h.addr % 64
  if (coreOf s h.score).live.contains (o, h.tag, h.tgen) then (credBack (liveDrop s h.score o h.tag) h.score o).1 else trkLate s

/-- SIGNAL (R335, R388). -/
def signalIn (s : State) (p : Nat) (k : Packet) : State :=
  if corePresent s k.hdr.score then fabAck (fabSignal s p 5 k.hdr) k.hdr else absentReply s p k.hdr.score k.hdr

-- packets at their target (R337, R339) ----------------------------------------------------------------------------------------

/-- Packets of the fabric that have arrived at the package and have not been performed: in a receive buffer, in the switch, or at their target. -/
def arrivedPkts (s : State) : List RxPkt :=
  s.ports.flatMap (fun x => x.2.rx ++ x.2.landed) ++ (netLoads s).filterMap fun m => match m.2 with | .fromFab _ k => some k | _ => none

/-- Whether a packet at its target may be performed: the requests of its source and lane that came before it to the target have been, and where it carries a signal every
earlier WRITE of its source has (R337). -/
def inTurn (s : State) (p : Nat) (k : RxPkt) : Bool :=
  let before := fun (q : RxPkt) => q.pkt.hdr.srcPkg == k.pkt.hdr.srcPkg && decide (q.n < k.n)
  !((portOf s p).landed.any fun q => before q && q.vl == k.vl) &&
    (!k.pkt.hdr.sig || k.pkt.hdr.typ != 1 || !((arrivedPkts s).any fun q => before q && q.pkt.hdr.typ == 1 && q.pkt.hdr.dstPkg == ownPkg s))

/-- A packet of a type that has landed from a port, is in turn and does not wait, is performed: the oldest that is `pkt`. -/
def landedRun (s : State) (p typ : Nat) (pkt : Packet) (waits : State → Packet → Bool) (f : State → RxPkt → State) : State :=
  match (portOf s p).landed.find? fun k => k.pkt == pkt && k.pkt.hdr.typ == typ && inTurn s p k && !waits s k.pkt with
  | some k => f (setPort s p { portOf s p with landed := (portOf s p).landed.erase k }) k
  | none => s

/-- A packet that never waits at its target. -/
def noWait (_ : State) (_ : Packet) : Bool := false

-- the mirror pair (R351 to R354) -------------------------------------------------------------------------------------------------

/-- Bytes of the log that a delta takes: its packet, in whole beats (DESIGN CHOICE, entry 111). -/
def deltaSize (d : DeltaRec) : Nat := (32 + d.data.length + ceilDiv d.mask.length 8 + 31) / 32 * 32
def logUsed (s : State) : Nat := s.mirror.log.foldl (fun a d => a + deltaSize d) 0

/-- The bytes of a delta go to the log in firn, which wraps at its end. -/
def logWrite (s : State) (pos : Nat) (bs : List Byte) : State :=
  let (base, size) := s.mirror.logAt
  let n := min bs.length (size - pos)
  let s1 := (devWrite s whoFabric (n / 256 + 2) (base + pos) (bs.take n)).1
  (devWrite s1 whoFabric (bs.length / 256 + 2) base (bs.drop n)).1

/-- DELTA at the secondary (R351, R339): the oldest packet of its lane, in a slot that is open it goes to the log. A full log takes none, and the credit is withheld. -/
def deltaRun (s : State) (pkt : Packet) : State :=
  match rxHead s 0 3 with
  | none => s
  | some k =>
    let h := k.pkt.hdr
    let m := s.mirror
    let d : DeltaRec := ⟨h.regions % 16, h.addr, k.pkt.payload, k.pkt.mask, m.logNo⟩
    let n := deltaSize d
    if k.pkt ≠ pkt ∨ h.typ ≠ 12 ∨ fabSlotOpen s 0 (wheelOf s 0) = false then s
    else if mirMode s ≠ 2 ∨ mirActive s = false then rxTake s 0 k
    else if m.logAt.2 < logUsed s + n ∨ firnOpenFor s whoFabric (m.logAt.1 + m.logPos) (min n (m.logAt.2 - m.logPos)) = false then s
    else
      let s1 := { s with mirror := { m with log := m.log ++ [d], logNo := m.logNo + 1, logPos := (m.logPos + n) % m.logAt.2 } }
      rxTake (logWrite s1 m.logPos (pktBytes k.pkt)) 0 k

/-- COMMIT at the secondary (R353): the deltas that it covers came before it on the same lane, so its application begins. -/
def commitRun (s : State) (pkt : Packet) : State :=
  match rxHead s 0 3 with
  | none => s
  | some k =>
    if k.pkt ≠ pkt ∨ k.pkt.hdr.typ ≠ 13 then s
    else
      let s1 := rxTake s 0 k
      if mirMode s = 2 ∧ mirActive s then
        setF { s1 with mirror := { s1.mirror with commits := s1.mirror.commits ++ [(k.pkt.hdr.seq, k.pkt.hdr.regions, s.mirror.logNo)] } } rMIR_STAT 0 1 1
      else s1

/-- COMMIT_APPLY (R353): the oldest commit is applied and COMMIT_ACK leaves. -/
def commitApply (s : State) : State :=
  match s.mirror.commits with
  | [] => s
  | (n, rs, upto) :: rest =>
    let s1 := applyOne s n rs upto rest
    let k := hopPacket s1 0 14 0
    let s2 := txPush s1 0 0 { k with hdr := { k.hdr with seq := n } }
    if rest = [] then applyEnd s2 else s2

/-- COMMIT_ACK at the primary (R353, R419). -/
def commitAckRun (s : State) (pkt : Packet) : State :=
  match rxHead s 0 3 with
  | none => s
  | some k =>
    let n := k.pkt.hdr.seq
    if k.pkt ≠ pkt ∨ k.pkt.hdr.typ ≠ 14 then s
    else
      let s1 := rxTake s 0 k
      if s.mirror.unacked.any fun u => u.1 == n then
        ledReturn1 (setR { s1 with mirror := { s1.mirror with unacked := s1.mirror.unacked.filter fun u => u.1 != n } } (rMIR_SEQ + 4) (BitVec.ofNat 32 n)) qMIRSEQ
      else s1

/-- MIRROR_LAG (R354): the oldest unacknowledged commit is older than LAG_US, or ISSUED − DONE has reached LAG_WARN. -/
def mirrorLagRun (s : State) : State :=
  match s.mirror.unacked with
  | [] => s
  | (_, t) :: _ => if t + 1000 * getF s rMIR_CTL 16 16 < tbNow s ∨ getF s rMIR_CTL 8 8 ≤ mirBehind s then mirLagging s else s

/-- TRAINING_DONE (R326): all four lanes, or one pair, have trained; the sides have exchanged package ID and port number. Port 0 runs the mirror check. -/
def trainingDoneRun (s : State) (p : Nat) (lo hi : Bool) (pkg port : Nat) : State :=
  if portState s p ≠ 1 ∨ (!lo && !hi) = true then s
  else
    let s1 := setF (setF (setF s (rFAB_STAT p) 16 16 pkg) (rFAB_STAT p + 4) 0 4 port) (rFAB_STAT p) 3 1 0
    let s2 := portEnter s1 p (!(lo && hi))
    if p = 0 ∧ mirMode s2 ≠ 0 then mirCheck { s2 with mirror := { s2.mirror with partner := none } } else s2

-- meanings ---------------------------------------------------------------------------------------------------------------------------

/-- WRITE (R335). -/
def execWrite (port : PortId) (pkt : Packet) (s : State) : Host.Outcome State Fault Refusal := .next (landedRun s port 1 pkt writeWaits fun s k => writeIn s port k.pkt)
/-- READ (R335). -/
def execRead (port : PortId) (pkt : Packet) (s : State) : Host.Outcome State Fault Refusal := .next (landedRun s port 2 pkt readWaits fun s k => readIn s port k.pkt)
/-- READ_DATA (R335). -/
def execReadData (port : PortId) (pkt : Packet) (s : State) : Host.Outcome State Fault Refusal :=
  .next (landedRun s port 3 pkt noWait fun s k => trkRespond s k.pkt.hdr (trkData · k.pkt.hdr.tag k.marks k.pkt.payload))
/-- ACK (R335). -/
def execAck (port : PortId) (pkt : Packet) (s : State) : Host.Outcome State Fault Refusal :=
  .next (landedRun s port 4 pkt noWait fun s k => trkRespond s k.pkt.hdr (trkAck · k.pkt.hdr.tag))
/-- ERROR (R338). -/
def execError (port : PortId) (pkt : Packet) (s : State) : Host.Outcome State Fault Refusal :=
  .next (landedRun s port 5 pkt noWait fun s k => trkRespond s k.pkt.hdr (trkFail · k.pkt.hdr.tag k.pkt.hdr.status k.pkt.hdr.addr))
/-- MSG (R335). -/
def execMsg (port : PortId) (pkt : Packet) (s : State) : Host.Outcome State Fault Refusal := .next (landedRun s port 6 pkt noWait fun s k => msgIn s port k.pkt)
/-- CREDIT (R335). -/
def execCredit (port : PortId) (pkt : Packet) (s : State) : Host.Outcome State Fault Refusal := .next (landedRun s port 7 pkt noWait fun s k => creditIn s k.pkt)
/-- SIGNAL from the fabric (R335). -/
def execFabricSignal (port : PortId) (pkt : Packet) (s : State) : Host.Outcome State Fault Refusal := .next (landedRun s port 8 pkt noWait fun s k => signalIn s port k.pkt)
/-- DELTA (R351). -/
def execDelta (pkt : Packet) (s : State) : Host.Outcome State Fault Refusal := .next (deltaRun s pkt)
/-- COMMIT (R353). -/
def execCommit (pkt : Packet) (s : State) : Host.Outcome State Fault Refusal := .next (commitRun s pkt)
/-- COMMIT_APPLY (R353). -/
def execCommitApply (s : State) : Host.Outcome State Fault Refusal := .next (commitApply s)
/-- COMMIT_ACK (R353). -/
def execCommitAck (pkt : Packet) (s : State) : Host.Outcome State Fault Refusal := .next (commitAckRun s pkt)
/-- MIRROR_LAG (R354). -/
def execMirrorLag (s : State) : Host.Outcome State Fault Refusal := .next (mirrorLagRun s)
/-- TRAINING_DONE (R326). -/
def execTrainingDone (port : PortId) (lane0 lane1 lane2 lane3 : Bool) (peer : PeerId) (s : State) : Host.Outcome State Fault Refusal :=
  .next (trainingDoneRun s port (lane0 && lane1) (lane2 && lane3) peer.pkg.toNat peer.port.toNat)

end Sys2Proof.Machine
end

