-- ==== Sys2Proof/Machine/Net.lean ====
section
/-! DEFINITION. The stream network (08_floe_contract.md, R195 to R199; R287 to R289, R293; R339): injection by slot, switch outputs with their turn buffers and turn hold,
edge links with their receive buffers, delivery, the crossings between cluster regions and the switch, and the fabric ports' way into it. -/

namespace Sys2Proof.Machine

-- switch outputs -------------------------------------------------------------------------------------------------------

/-- The number of a switch output: inbound link l of cluster c, link l of edge k of die d, or a fabric port. -/
def swKey : SwOut → Nat
  | .inbound c l => 8 * c.val + l.val
  | .edge d k l => 256 + 18 * d.val + 9 * k.val + l.val
  | .fabric p => 328 + p.val

/-- The die of a switch output's number. -/
def keyDie (k : Nat) : Nat := if k < 256 then k / 64 else if k < 328 then (k - 256) / 18 else (k - 328) / 4

/-- The link number within its kind (Table 19-2, DETAIL of SLOT_COLLISION). -/
def keyLink (k : Nat) : Nat := if k < 256 then k % 8 else if k < 328 then (k - 256) % 9 else (k - 328) % 4

/-- The die at the far end of edge k, and that die's number of the edge (R461). -/
def edgeFar (d k : Nat) : Nat × Nat :=
  let far := if k = 0 then (dieNbr d).1 else (dieNbr d).2
  (far, if (dieNbr far).1 = d then 0 else 1)

/-- The counts of an output (Table 08-3, R461): the node's NET_CNT, or EDGE_CNT where the link is received. A fabric port has none. -/
def netCount (key : Nat) : Option Nat :=
  if key < 256 then some (rNET_CNT (key / 8))
  else if key < 328 then
    let f := edgeFar ((key - 256) / 18) ((key - 256) % 18 / 9)
    some (rEDGE_CNT f.1 f.2 (keyLink key))
  else none

/-- The edge link that a packet comes over, if any, by its number as an output of the sending die, and the die it reaches. -/
def cameBy (p : NetPkt) : Option Nat := if 256 ≤ p.input ∧ p.input < 328 then some p.input else none
def edgeTo (e : Nat) : Nat := (edgeFar ((e - 256) / 18) ((e - 256) % 18 / 9)).1

def turnOf (s : State) (key : Nat) : List NetPkt := mget (fun _ => []) s.net.turn key
def setTurn (s : State) (key : Nat) (q : List NetPkt) : State := { s with net := { s.net with turn := mset (fun _ => []) s.net.turn key q } }
def linkOf (s : State) (key : Nat) : List NetPkt := mget (fun _ => []) s.net.links key
def setLink (s : State) (key : Nat) (q : List NetPkt) : State := { s with net := { s.net with links := mset (fun _ => []) s.net.links key q } }
def recvOf (s : State) (e : Nat) : List NetPkt := mget (fun _ => []) s.net.recv e
def setRecv (s : State) (e : Nat) (q : List NetPkt) : State := { s with net := { s.net with recv := mset (fun _ => []) s.net.recv e q } }
def setFlying (s : State) (q : List NetPkt) : State := { s with net := { s.net with flying := q } }
/-- Whether an output asserts turn hold, and a change of it in the present cycle of its die (R198). -/
def turnHeld (s : State) (key : Nat) : Bool := ((mget (fun _ => []) s.net.hold key).head?.map (·.2)).getD false
def setTurnHeld (s : State) (key : Nat) (b : Bool) : State :=
  if turnHeld s key == b then s
  else { s with net := { s.net with hold := mset (fun _ => []) s.net.hold key (((wheelOf s (keyDie key), b) :: mget (fun _ => []) s.net.hold key).take 16) } }
/-- Whether a link has taken a packet in the present NCLK cycle of a die, and that it has (R195). -/
def linkUsed (s : State) (key d : Nat) : Bool := mget (fun _ => 0) s.net.used key == wheelOf s d + 1
def setUsed (s : State) (key d : Nat) : State := { s with net := { s.net with used := mset (fun _ => 0) s.net.used key (wheelOf s d + 1) } }
/-- The number of an outbound link, among the links that take packets. -/
def outLink (c l : Nat) : Nat := 512 + 8 * c + l

/-- Whether a die's switch moves packets in the present NCLK cycle: its wheel runs and does not hold (R292). -/
def swRuns (s : State) (d : Nat) : Bool := regionUp s (32 + d) && (regionOf s (32 + d)).wheelOn && !wheelHeld s d

-- routes (R17, R196) --------------------------------------------------------------------------------------------------------

/-- Whether a route leads from a die, each output on the die that the packet is at, to an inbound link or a fabric port (R17, R196). -/
def routeOk (d : Nat) : List SwOut → Bool
  | [] => false
  | [o] => keyDie (swKey o) == d && (match o with | .edge _ _ _ => false | _ => true)
  | o :: r => keyDie (swKey o) == d && (match o with | .edge _ _ _ => true | _ => false) && routeOk (edgeTo (swKey o)) r

/-- Whether a route ends where its load goes: the node of its stack or core, or its fabric port. -/
def endsAt (o : SwOut) (m : NetLoad) : Bool :=
  let node := fun (k : Nat) => match o with | .inbound c _ => c.val == k | _ => false
  match m with
  | .firnReq r => node r.stack
  | .firnData r _ _ => node (r.core / 8)
  | .sig g => node (g.core / 8)
  | .msg f => node (f.core / 8)
  | .store a _ _ _ _ => node ((a / 2 ^ 24 - 0x10000) / 8)
  | .toFab p _ _ => match o with | .fabric q => q.val == p | _ => false
  | .fromFab _ _ => false

/-- Whether any link of a route holds back an injection point of a die (R198). -/
def routeHeld (s : State) (d : Nat) (route : List SwOut) : Bool := route.any fun o => holdSeen s (swKey o) (keyDie (swKey o)) d

-- turn buffers (R197 to R199) ----------------------------------------------------------------------------------------------------

/-- A packet waits a turn: it keeps its slot index and is marked NETWORK. With 4 or more held the output asserts turn hold; a buffer holds 16 (R198). -/
def turnPush (s : State) (key : Nat) (p : NetPkt) : State :=
  let q := { p with due := p.due + 256, marks := p.marks ||| 32 }
  if 16 ≤ (turnOf s key).length then setFlying s (s.net.flying ++ [q])
  else
    let s1 := setTurn s key (turnOf s key ++ [q])
    if 4 ≤ (turnOf s1 key).length then setTurnHeld s1 key true else s1

/-- A collision: the packet waits a turn; it is counted and raised (R197). -/
def turnCollide (s : State) (key : Nat) (p : NetPkt) : State :=
  let s1 := turnPush s key p
  let s2 := match netCount key with | some off => satF s1 off 0 16 1 | none => s1
  raiseEv s2 (keyDie key) { cls := cCOLLISION, sev := 0, home := 0, ukind := 2, uindex := key, detail := p.due % 256 + 256 * keyLink key }

/-- A packet that reaches an edge link's far side after its slot has begun waits a turn under the turn-buffer rules; LATE counts it (R199, R461). -/
def turnLate (s : State) (key : Nat) (p : NetPkt) : State :=
  let s1 := turnPush s key p
  let s2 := match (cameBy p).bind netCount with | some off => satF s1 off 16 16 1 | none => s1
  if key < 256 then satF s2 (rNET_CNT (key / 8)) 16 16 1 else s2

-- switch outputs at work (R196, R197, R293, R339) -------------------------------------------------------------------------------

/-- The steps since the start of the model's time, and the steps that 10 nominal NCLK periods of a die take (R293, entry 2). -/
def stepNow (s : State) : Nat := s.time.ticks * 34 + s.time.sub
def edgeSteps (s : State) (d : Nat) : Nat := ceilDiv 1360 (max 1 (regionN s (32 + d)))

/-- A packet enters a switch output: an inbound link delivers it 4 slots later, an edge link brings it to the far die's switch 12 slots later (Table 08-2), a fabric port
queues it. -/
def swEnter (s : State) (key : Nat) (p : NetPkt) : State :=
  let d := keyDie key
  let s1 := setUsed s key d
  if key < 256 then setLink s1 key (linkOf s1 key ++ [{ p with due := wheelOf s d + 4, route := [] }])
  else if key < 328 then
    setFlying s1 (s1.net.flying ++ [{ p with input := key, due := wheelOf s d + 12, eta := stepNow s + edgeSteps s d, route := p.route.tail }])
  else match p.load with
    | .toFab q cls k => txPush s1 q cls k
    | _ => s1

/-- Whether a packet is due at an output in the present slot of its die: its slot, or the same slot index of a later turn. -/
def dueAt (s : State) (key : Nat) (p : NetPkt) : Bool :=
  (p.route.head?.map swKey) == some key && decide (p.due ≤ wheelOf s (keyDie key)) && (wheelOf s (keyDie key) - p.due) % 256 == 0

/-- Whether a packet under way comes to an output from an edge link and has not reached the receive buffer. -/
def onEdge (p : NetPkt) : Bool := (cameBy p).isSome

/-- Whether the crossing that a packet came over is aligned: before that its receive buffer, the crossing queue of the edge, holds it (R287, R288). -/
def fromEdge (s : State) (p : NetPkt) : Bool :=
  match cameBy p with | some e => decide (edgeXlat s ((e - 256) / 18) (edgeTo e) ≠ 0) | none => true

/-- Places a packet by the rank of its input. -/
def rankInsert (p : NetPkt) : List NetPkt → List NetPkt
  | [] => [p]
  | q :: r => if p.input < q.input then p :: q :: r else q :: rankInsert p r

/-- The packets due at an output in the present slot, by the rank of their inputs, and the state without them. -/
def swDue (s : State) (key : Nat) : List NetPkt × State :=
  let pick := fun (p : NetPkt) => dueAt s key p && !onEdge p
  let here := s.net.flying.filter pick
  let edge := (s.net.recv.flatMap Prod.snd).filter fun p => dueAt s key p && fromEdge s p
  let s1 := setFlying s (s.net.flying.filter fun p => !pick p)
  let s2 := { s1 with net := { s1.net with recv := keepQueues (fun p => !(dueAt s key p && fromEdge s p)) s1.net.recv } }
  ((here ++ edge).foldl (fun l p => rankInsert p l) [], s2)

/-- The packets due at an output in the present slot meet: a held packet enters first, then the lowest input; the others wait a turn (R197). A link takes one packet in an
NCLK cycle (R195). -/
def swMeet (s : State) (key : Nat) : State :=
  let d := keyDie key
  if swRuns s d = false ∨ linkUsed s key d = true then s
  else
    let (fresh, s1) := swDue s key
    match (turnOf s1 key).find? fun p => dueAt s1 key p with
    | some h => fresh.foldl (fun s p => turnCollide s key p) (swEnter (setTurn s1 key ((turnOf s1 key).erase h)) key h)
    | none =>
      match fresh with
      | [] => s
      | p :: r => r.foldl (fun s q => turnCollide s key q) (swEnter s1 key p)

-- injection (R196, R198) ---------------------------------------------------------------------------------------------------------------

/-- The owner of a slot of an outbound link: 9 to 14 act as 15 (Table 08-3). -/
def injOwner (s : State) (c l slot : Nat) : Nat :=
  let v := getF s (rINJ_TAB c l + slot / 4 * 4) (8 * (slot % 4)) 4
  if 8 < v then 15 else v

/-- PACKET_INJECT (R196, R198): in a slot of its source, the source's oldest packet enters an outbound link with its route. Turn hold of any link of the route keeps it back,
and marks it. -/
def netInject (s : State) (c l src slot : Nat) (route : List SwOut) : State :=
  let d := c / 8
  match outOf s (outKey c l src) with
  | [] => s
  | i :: q =>
    if 8 < src ∨ swRuns s d = false ∨ slot ≠ wheelOf s d % 256 ∨ injOwner s c l slot ≠ src ∨ linkUsed s (outLink c l) d = true ∨ crossReady s c 2 i = false ∨
        routeOk d route = false ∨ (route.getLast?.any fun o => endsAt o i.load) = false then s
    else if routeHeld s d route then setOut s (outKey c l src) ({ i with marks := i.marks ||| 32 } :: q)
    else
      let p : NetPkt := { input := 8 * c + l, due := wheelOf s d + 4, route := route, marks := i.marks, load := i.load }
      let s1 := setUsed (setOut s (outKey c l src) q) (outLink c l) d
      setFlying s1 (s1.net.flying ++ [p])

/-- PACKET_SWITCH_ENTER (R197): the slot of a packet on its way to an output comes. -/
def netEnter (s : State) (key : Nat) : State := swMeet s key

/-- TURN_BUFFER_RELEASE (R197): the slot of a held packet comes again. -/
def netRelease (s : State) (key : Nat) : State := if (turnOf s key).isEmpty then s else swMeet s key

/-- TURN_HOLD_RELEASE (R198): the buffer holds fewer than 4. -/
def netUnhold (s : State) (key : Nat) : State := if (turnOf s key).length < 4 then setTurnHeld s key false else s

/-- PACKET_DELIVER (R196, R287, R289): the oldest packet of an inbound link leaves it 4 slots after it entered, and crosses into the cluster region where the crossing queue has
room. -/
def netDeliver (s : State) (c l : Nat) : State :=
  let key := 8 * c + l
  match linkOf s key with
  | [] => s
  | p :: q =>
    if swRuns s (c / 8) = false ∨ wheelOf s (c / 8) < p.due ∨ 8 ≤ (inOf s key).length then s
    else
      let (i, s1) := netItem (setLink s key q) p.marks p.load
      setIn s1 key (inOf s1 key ++ [i])

-- edge links (R199, R293) -----------------------------------------------------------------------------------------------------------------

/-- A packet that comes over an edge link reaches the far side: its receive buffer of 8, or, where the slot it is due in has begun there, the turn buffer of its output. -/
def edgeArrive (s : State) (p : NetPkt) : State :=
  match cameBy p with
  | none => setFlying s (s.net.flying ++ [p])
  | some e =>
    if stepNow s < p.eta ∨ 8 ≤ (recvOf s e).length then setFlying s (s.net.flying ++ [p])
    else if p.due < wheelOf s (edgeTo e) then turnLate s ((p.route.head?.map swKey).getD 0) p
    else setRecv s e (recvOf s e ++ [p])

/-- Every packet whose transit has ended arrives. -/
def edgesRun (s : State) : State :=
  if s.net.flying.any fun p => onEdge p && decide (p.eta ≤ stepNow s) then s.net.flying.foldl edgeArrive (setFlying s []) else s

-- into a cluster region (R287, R288, R306) ----------------------------------------------------------------------------------------------

/-- Whether an item at the head of a cluster's crossing queue can be taken: a store write waits for its core, and a request of the fabric while 8 that came before it wait at
the node. -/
def takeReady (s : State) (cl : Nat) : NetLoad → Bool
  | .store a _ _ _ _ => !storeWaits s (a / 2 ^ 24 - 0x10000)
  | .fromFab p k => k.vl == 1 || decide (((portOf s p).landed.filter fun q => q.vl != 1 && packetNode s q.pkt == some cl).length < 8)
  | _ => true

/-- What an item does as it leaves the crossing queue of inbound link l of a cluster (R15): a firn request reaches its stack by that stack link, bytes their transfer, a store
its bytes. Signals and messages are on their way to their core, fabric packets at their target. -/
def netTake (s : State) (l : Nat) (i : NetItem) : State :=
  match i.load with
  | .firnReq r => { s with firnWait := s.firnWait ++ [{ r with port := 8 + l, marks := r.marks ||| i.marks }] }
  | .firnData r bs bad => readLands s r i.marks bs bad
  | .sig g => { s with signals := s.signals ++ [g] }
  | .msg f => { s with flights := s.flights ++ [f] }
  | .store a bs c d id => modXfer (wrBytes s a bs) c d id fun y => { y with done := y.done + bs.length }
  | .fromFab p k => setPort s p { portOf s p with landed := (portOf s p).landed ++ [{ k with marks := k.marks ||| i.marks }] }
  | .toFab _ _ _ => s

/-- One reader cycle of the crossing queue of an inbound link: every item ages, and the head is taken once its latency is over. -/
def inStep (s : State) (cl l : Nat) : State :=
  let key := 8 * cl + l
  match ageItems (inOf s key) with
  | [] => s
  | i :: q =>
    if crossReady s cl 1 i && takeReady s cl i.load then netTake (setIn s key q) l i else setIn s key (i :: q)

/-- One cycle of a cluster region's side of its crossings. -/
def crossStep (s : State) (cl : Nat) : State := (List.range 8).foldl (fun s l => inStep s cl l) s

-- from a fabric port into the switch (R339) ---------------------------------------------------------------------------------------------

/-- Links as values of the route. -/
def toInbound (c l : Nat) : SwOut := .inbound ⟨c % 32, Nat.mod_lt _ (by decide)⟩ ⟨l % 8, Nat.mod_lt _ (by decide)⟩
def toFabric (p : Nat) : SwOut := .fabric ⟨p % 16, Nat.mod_lt _ (by decide)⟩
def toEdge (d k l : Nat) : SwOut := .edge ⟨d % 4, Nat.mod_lt _ (by decide)⟩ ⟨k % 2, Nat.mod_lt _ (by decide)⟩ ⟨l % 9, Nat.mod_lt _ (by decide)⟩

/-- The route of a packet that came from port p to an output: over the edge links of number p mod 8, to the diagonal die by way of the lower neighbour (DESIGN CHOICE, entry
112). -/
def fabPath (p : Nat) (o : SwOut) : List SwOut :=
  let d := p / 4
  let e := keyDie (swKey o)
  if d = e then [o]
  else if (dieNbr d).1 = e then [toEdge d 0 (p % 8), o]
  else if (dieNbr d).2 = e then [toEdge d 1 (p % 8), o]
  else
    let m := (dieNbr d).1
    [toEdge d 0 (p % 8), toEdge m (if (dieNbr m).1 = e then 0 else 1) (p % 8), o]

/-- A packet of a receive buffer moves into the switch, or waits there, marked, for turn hold (R198). -/
def fabInject (s : State) (p : Nat) (k : RxPkt) (o : SwOut) (load : NetLoad) : State :=
  let d := p / 4
  let route := fabPath p o
  if routeHeld s d route then
    let x := portOf s p
    setPort s p { x with rx := x.rx.map fun q => if q = k then { q with marks := q.marks ||| 32 } else q }
  else
    let s1 := setUsed (rxTake s p k) (768 + p) d
    setFlying s1 (s1.net.flying ++ [{ input := 328 + p, due := wheelOf s d + 4, route := route, marks := k.marks, load := load }])

/-- A packet of a receive buffer in an open slot (R339): toward its node, to the service complex, in transit to another port, or answered or dropped where it cannot go on. -/
def fabForward (s : State) (p : Nat) (k : RxPkt) : State :=
  let h := k.pkt.hdr
  if h.dstPkg = ownPkg s then
    match packetNode s k.pkt with
    | some c => fabInject s p k (toInbound c p) (.fromFab p k)
    | none => let s1 := rxTake s p k; setPort s1 p { portOf s1 p with landed := (portOf s1 p).landed ++ [k] }
  else match route s h.dstPkg (arrivalVia s p) k.cls with
    | .port q cls => fabInject s p k (toFabric q) (.toFab q cls k.pkt)
    | .status st q =>
      let s1 := rxTake s p k
      if isTracked k.pkt then fabError s1 h st 0 [] else portDrop s1 q

/-- One slot of a fabric port (R339): the oldest packet of the lowest lane moves, where the slot is open. Packets of one hop stay for their own rows. -/
def fabSlot (s : State) (p : Nat) : State :=
  if fabSlotOpen s p (wheelOf s (p / 4)) = false ∨ linkUsed s (768 + p) (p / 4) = true then s
  else match (List.range 4).findSome? fun v => (rxHead s p v).filter fun k => decide (k.pkt.hdr.typ < 9) with
    | some k => fabForward s p k
    | none => s

/-- One NCLK cycle of a die's switch in which its wheel does not hold: the crossing queues toward it age, and its fabric ports move packets. -/
def switchCycle (s : State) (d : Nat) : State :=
  let s1 := { s with net := { s.net with outq := s.net.outq.map fun q => if q.1 / 128 / 8 = d then (q.1, ageItems q.2) else q } }
  if swRuns s1 d then (List.range 4).foldl (fun s i => fabSlot s (4 * d + i)) s1 else s1

-- meanings --------------------------------------------------------------------------------------------------------------------------------

/-- PACKET_INJECT (R196). -/
def execPacketInject (cluster : ClusterId) (link : LinkId) (source : BitVec 4) (slot : BitVec 8) (first : SwOut) (rest : List SwOut) (s : State) :
    Host.Outcome State Fault Refusal :=
  .next (netInject s cluster link source.toNat slot.toNat (first :: rest))
/-- PACKET_SWITCH_ENTER (R197). -/
def execPacketSwitchEnter (out : SwOut) (s : State) : Host.Outcome State Fault Refusal := .next (netEnter s (swKey out))
/-- TURN_BUFFER_RELEASE (R197). -/
def execTurnBufferRelease (out : SwOut) (s : State) : Host.Outcome State Fault Refusal := .next (netRelease s (swKey out))
/-- TURN_HOLD_RELEASE (R198). -/
def execTurnHoldRelease (out : SwOut) (s : State) : Host.Outcome State Fault Refusal := .next (netUnhold s (swKey out))
/-- PACKET_DELIVER (R196). -/
def execPacketDeliver (cluster : ClusterId) (link : LinkId) (s : State) : Host.Outcome State Fault Refusal := .next (netDeliver s cluster link)

end Sys2Proof.Machine
end

