-- ==== Sys2Proof/Machine/Reset.lean ====
section
/-! DEFINITION. The reset kinds (chapter 21, R430 to R435; 20, R422 to R425), and the start of power-up that a cold reset leads to. -/

namespace Sys2Proof.Machine

-- parts ------------------------------------------------------------------------------------------------------------------

/-- The words of a range of offsets return to reset. -/
def dropRegs (s : State) (lo hi : Nat) : State := { s with regs := s.regs.filter fun p => decide (p.1 < lo) || decide (hi ≤ p.1) }

/-- A counter at core reset (Table 09-1). -/
def ctrReset (s : State) (c n : Nat) : State :=
  let s1 := ctrAdvance s c n
  setR (setR s1 (rCTR_CFG c n) 0) (rCTR_STAT c n) 0

/-- An outbound channel at core reset (R422). -/
def ochReset (s : State) (c o : Nat) : State :=
  let out := credOutOf s c o
  let s1 := setF s (rOCH_CRED c o) 0 6 (getF s (rOCH_CRED c o) 8 6)
  if out = 0 then s1 else setReclaim (setCredOut s1 c o 0) c o (reclaimOf s1 c o + out)

/-- An inbound end at core reset (R230, R235): its null reply leaves uncounted, and the end enters RESET_HOLD. -/
def ichReset (s : State) (c e : Nat) : State := setF (setIchState (nullReply s c e false) c e 2) (rICH_CNT2 c e) 16 16 0

/-- What a core's unaddressed state keeps through a core reset (Table 21-1): scalar and address registers, SRAM contents, rings, and the descriptors whose requests
complete first (R251). -/
def coreKeep (k : CoreSt) : CoreSt :=
  { slots := (List.range 4).foldl (fun m t =>
      let x := mget (fun _ => ({} : SlotSt)) k.slots t
      mset (fun _ => ({} : SlotSt)) m t { sreg := x.sreg, areg := x.areg }) [],
    vreg := k.vreg, istore := k.istore, acc := k.acc, parErr := k.parErr, desc := k.desc, rings := k.rings, credOut := k.credOut, reclaim := k.reclaim, strayed := k.strayed, live := k.live, owed := k.owed }

/-- A core reset begins (R430, Table 21-1). -/
def coreResetStart (s : State) (c : Nat) : State :=
  let s1 := (List.range 16).foldl (fun s e => ichReset s c e) s
  let s2 := (List.range 64).foldl (fun s o => ochReset s c o) s1
  let s3 := (List.range 48).foldl (fun s n => ctrReset s c n) s2
  let b := coreBase c
  let s4 := dropRegs (dropRegs (dropRegs (dropRegs s3 (b + 0x80) (b + 0x300)) (b + 0x5810) (b + 0x5824)) (b + 0x6000) (b + 0x8000)) (b + 0x8000) (b + 0x1_0000)
  let s5 := modCore s4 c coreKeep
  let s6 := (List.range 32).foldl (fun s f =>
    if getB s (rFLOE_DEF (c / 8) f) 16 && getB s (rFLOE_DEF (c / 8) f) (c % 8) then setFloeReason (setFloe s (c / 8) f {}) (c / 8) f 0 else s) s5
  if s6.resetting.contains c then s6 else { s6 with resetting := s6.resetting ++ [c] }

/-- A cluster reset begins: its cores, and its block below 0x8000. A member of a legacy group leaves it. -/
def clusterResetStart (s : State) (cl : Nat) : State :=
  let was := legacyOf s cl
  let s1 := (List.range 8).foldl (fun s r => coreResetStart s (8 * cl + r)) s
  let s2 := dropRegs s1 (clusterBase cl) (clusterBase cl + 0x8000)
  let s3 := { s2 with floes := s2.floes.filter fun p => p.1 / 32 ≠ cl }
  if was ∧ regionUp s3 cl then
    let s4 := unalign s3 cl
    if awake s4 then dvfsNext s4 else s4
  else s3

/-- A control core is held with its state lost (R391). -/
def ccHold (s : State) (k : Nat) : State := setCc (setF s (rCC_CTL k) 0 1 0) k {}

/-- CC0 starts at the boot ROM's reset vector (R391). `warm` is a die reset's restart, which verifies the copy in stack 0 first (R431). -/
def ccBoot (s : State) (warm : Bool) : State :=
  let s1 := setCc (setF s (rCC_CTL 0) 0 1 1) 0 {}
  let s2 := setF s1 rBOOT_STAT 0 2 0
  { s2 with sec := { s2.sec with bootWait := true, warm := warm, pushIdx := none } }

/-- The service region's network state of a die returns to reset: turn hold of its outputs and its wheel. What is under way waits until the wheel joins its neighbours
again (R431). -/
def netReset (s : State) (d : Nat) : State :=
  { setRegion s (32 + d) { regionOf s (32 + d) with wheel := 0, wheelOn := false, hist := [] } with
    net := { s.net with hold := s.net.hold.filter fun p => keyDie p.1 != d, used := [] } }

/-- A die reset begins (Table 21-1, R431). -/
def dieResetStart (s : State) (d : Nat) : State :=
  let s1 := (List.range 8).foldl (fun s k => if clusterPresent s (8 * d + k) then clusterResetStart s (8 * d + k) else s) s
  let s2 := (List.range 4).foldl (fun s k => ccHold s (4 * d + k)) s1
  let s3 := setAlert (setF (netReset s2 d) (rMLOG_STAT d) 7 1 0)
  if d = 0 then ccBoot (sessLost s3) true else s3

-- completion (R251, R433) ----------------------------------------------------------------------------------------------------

/-- The requests that a core's descriptors have issued have all completed (R251). -/
def coreDrained (s : State) (c : Nat) : Bool :=
  !(s.firnWait.any fun r => r.core == c) && !(s.firnEnt.any fun r => r.core == c) && !netHas s c &&
    !(s.tracker.any fun e => match e.2.busy with
      | some (.descRead k _ _ _, _, _) => k == c
      | some (.descWrite k _ _ _ _, _, _) => k == c
      | _ => false)

/-- The transfers of a core's descriptors are returned, and every descriptor is IDLE (R251, R419). -/
def descsReset (s : State) (c : Nat) : State :=
  let ds := (coreOf s c).desc
  let n := ds.foldl (fun a p => a + (if p.2.active.isSome then 1 else 0) + (if p.2.shadow.isSome then 1 else 0)) 0
  modCore (ledReturn s qDESC n) c fun k => { k with desc := [] }

/-- A core reset completes. -/
def coreResetEnd (s : State) (c : Nat) : State := { descsReset s c with resetting := s.resetting.filter (· ≠ c) }

/-- A floe reset completes: its slots are EMPTY (Table 21-1, R218, R230, R252). -/
def floeResetEnd (s : State) (cl f : Nat) : State :=
  let s1 := (floeMembers s cl f).foldl (fun s m =>
    let s1 := setCause (setSlotState (nullRepliesOf (dropAllResv s m.1 m.2) m.1 m.2) m.1 m.2 0) m.1 m.2 0 0
    modSlot s1 m.1 m.2 fun x => { x with fences := [], wait := none, unrel := false }) s
  setR (setFloe (setR64 s1 (rFLOE_CYC cl f) 0) cl f {}) (rFLOE_STAT cl f) 0

/-- The reset in progress has ended: BUSY reads 0. -/
def rstDone (s : State) : State := setF { s with rstJob := none } rRST_STAT 0 1 0

/-- The cores that a commanded reset holds. -/
def jobCores (kind index : Nat) : Nat → Bool := fun c =>
  if kind = 1 then c == index else if kind = 2 then c / 8 == index else if kind = 3 then c / 64 == index else false

/-- RESET_COMPLETE (R433): every core that a reset holds and whose requests have completed leaves reset, once its region runs; then the commanded reset ends. -/
def resetComplete (s : State) : State :=
  let s1 := s.resetting.foldl (fun s c => if coreDrained s c && regionUp s (c / 8) then coreResetEnd s c else s) s
  match s1.rstJob with
  | none => s1
  | some (0, i) =>
    if (floeMembers s1 (i / 32) (i % 32)).all fun m => engineQuiet s1 m.1 m.2 then rstDone (floeResetEnd s1 (i / 32) (i % 32)) else s1
  | some (k, i) => if s1.resetting.any (jobCores k i) then s1 else rstDone s1

-- package cold reset (R430, R434) and the start of power-up (R314) ---------------------------------------------------------------

def pwrTrans (s : State) (b : Bool) : State := setF s rPWR_STATE 3 1 (if b then 1 else 0)
/-- THERM_STAT.TRIPPED. -/
def tripped (s : State) : Bool := getB s (rTHERM_STAT + 4) 1

/-- The rails come up: each die's rail is on, at the voltage its multipliers need (R314 step 1, R320). A DVFS_TARGET written before takes effect (R321). In
low-power mode no regulator starts. -/
def railsUp (s0 : State) : State :=
  let s := { s0 with pwr := { s0.pwr with target := BitVec.ofNat 64 (getR64 s0 rDVFS_TARGET) } }
  (List.range 4).foldl (fun s d =>
    pmbSend (railTo (setRail s d { railOf s d with on := true, lowPow := false }) d (tgtVolt s d)) d (.operation · true)) s

/-- Power-up begins once the main supplies are present (R434 step 2, R450); not while the package is off and nothing wakes it, nor after a THERMTRIP (R453). -/
def startup (s : State) : State :=
  if s.pwr.vaux = false ∨ s.pwr.supplies = false ∨ tripped s = true ∨ (s.pwr.off = true ∧ s.pwr.waking = false) then s
  else
    let s1 := pwrTrans (railsUp s) true
    { s1 with pwr := { s1.pwr with off := false, waking := true },
              -- a wake from OFF (Table 20-7, N8)
              sec := if s1.pwr.off ∧ s1.sec.lifeState = 2 then { s1.sec with lifeState := 1 } else s1.sec }

/-- Register words that a package cold reset keeps: the fields kept until VAUX is lost, the sampled rail mode (R317), FAILS, LEVEL and a lockout (R382), and the count of cold resets (R425). -/
def coldRegs (s : State) : List (Nat × BitVec 32) :=
  let z : State := {}
  let a := setF (setF z rPWR_STATE 12 2 (getF s rPWR_STATE 12 2)) rPWR_STATE 16 4 (getF s rPWR_STATE 16 4)
  let b := setF a (rTHERM_STAT + 4) 1 1 (getF s (rTHERM_STAT + 4) 1 1)
  let c := setF b rBOOT_CTL 0 1 (getF s rBOOT_CTL 0 1)
  let d := setF (setF c rSESS_STATE 4 8 (getF s rSESS_STATE 4 8)) rSESS_STATE 0 2 (if sessState s = 3 then 3 else 0)
  let e := setR d rLEDGER_COLD (getR s rLEDGER_COLD + 1)
  -- HOLDOVER shows the oscillator in use (R303)
  let f := setF e (rTB_CTL + 4) 1 1 (if s.pwr.refLost then 1 else 0)
  (setF f rRAIL_MODE 0 1 (if s.pwr.railStrap then 1 else 0)).regs

/-- A package cold reset (Table 21-1): everything returns to reset but the fuses and the fields kept until VAUX is lost; DEBUG_UNLOCKED becomes OWNED; then
the bring-up of R434 begins. Pins driven from outside, sensors and the commands that wait are not state of the package's reset. -/
def coldReset (s : State) : State :=
  startup {
    regs := coldRegs s,
    fuses := s.fuses,
    temps := s.temps,
    time := { ({} : TimeSt) with ticks := s.time.ticks },
    pwr := { ({} : PowerSt) with vaux := s.pwr.vaux, supplies := s.pwr.supplies, refLost := s.pwr.refLost, railStrap := s.pwr.railStrap, bootStrap := s.pwr.bootStrap },
    host := { ({} : HostSt) with out := s.host.out },
    sess := { ({} : SessSt) with lockTick := s.sess.lockTick, lockLen := s.sess.lockLen },
    sec := { ({} : SecSt) with lifeState := (if s.sec.lifeState = 2 then 1 else s.sec.lifeState), slots := s.sec.slots, cur := s.sec.cur, svn := s.sec.svn,
                               bootCnt := s.sec.bootCnt + 1 },
    tap := s.tap,
    pins := { ({} : PinSt) with thermtripN := s.pins.thermtripN },
    xferId := s.xferId,
    draws := s.draws,
    pending := s.pending }

-- requests (R432) -------------------------------------------------------------------------------------------------------------------

/-- RST_STAT.RESULT. -/
def rstResult (s : State) (r : Nat) : State := setF s rRST_STAT 1 3 r

/-- The cluster that a floe, core or cluster target lies in. -/
def rstCluster (kind index : Nat) : Nat := if kind = 0 then index / 32 else if kind = 1 then index / 8 else index

/-- Whether containment or a mate refuses a floe or core reset (R432). -/
def rstRefused (s : State) (kind index : Nat) : Bool :=
  if kind = 0 then (floeMembers s (index / 32) (index % 32)).any fun m => slotState s m.1 m.2 == 5 && (slotOf s m.1 m.2).unrel
  else if kind = 1 then (List.range 4).any fun t => (mates s index t).any fun m => slotLive s m t
  else false

/-- A write of RST_REQ with GO = 1 (R432). -/
def rstReq (s : State) (kind index : Nat) : State :=
  if 4 < kind ∨ (kind = 1 ∧ 256 ≤ index) ∨ (kind = 2 ∧ 32 ≤ index) ∨ (kind = 3 ∧ 4 ≤ index) then rstResult s 4
  else if kind = 4 then coldReset s
  else if s.rstJob.isSome ∨ s.resetting ≠ [] then rstResult s 1
  else if kind < 3 ∧ clusterPresent s (rstCluster kind index) = false then rstResult s 3
  else if regionUp s (if kind = 3 then 32 + index else rstCluster kind index) = false then rstResult s 5
  else if rstRefused s kind index then rstResult s 2
  else
    let s1 := setF (rstResult { s with rstJob := some (kind, index) } 0) rRST_STAT 0 1 1
    if kind = 1 then coreResetStart s1 index
    else if kind = 2 then clusterResetStart s1 index
    else if kind = 3 then dieResetStart s1 index
    else s1

/-- RESET_COMPLETE (R433). -/
def execResetComplete (s : State) : Host.Outcome State Fault Refusal := .next (resetComplete s)

end Sys2Proof.Machine
end

