-- ==== Sys2Proof/Machine/Power.lean ====
section
/-! DEFINITION. Power states, wake, rails, throttling and thermal limits (14_power.md; 22_package_electrical.md, R446 to R454). -/

namespace Sys2Proof.Machine

-- quiescence (R310) --------------------------------------------------------------------------------------------------

def pwrState (s : State) : Nat := getF s rPWR_STATE 0 3
def pwrBusy (s : State) : Bool := getB s rPWR_STATE 3
def setPwrState (s : State) (v : Nat) : State := setF s rPWR_STATE 0 3 v

/-- Whether a core is quiescent (R310). -/
def coreQuiet (s : State) (c : Nat) : Bool :=
  let k := coreOf s c
  ((List.range 4).all fun t => !slotLive s c t) &&
    (k.desc.all fun d => d.2.active.isNone && d.2.shadow.isNone) &&
    k.mxq.isEmpty && k.tileq.isEmpty && k.passq.isEmpty && k.swrq.isEmpty &&
    k.owed.isEmpty && !((s.flights ++ netMsgs s).any fun f => f.pkg == ownPkg s && hdrCore (f.words.headD 0) == c) &&
    ((List.range 16).all fun e => (ringOf s c e).isEmpty && ichRsv s c e == 0) &&
    coreDrained s c &&
    !(s.tracker.any fun e => match e.2.busy with
      | some (.message k _ _ _ _, _, _) => k == c
      | some (.reply k, _, _) => k == c
      | _ => false)

/-- Whether the package is quiescent (R310, Table 20-7 N6). -/
def packageQuiet (s : State) : Bool :=
  ((List.range 256).all fun c => !corePresent s c || coreQuiet s c) && (s.host.movers.all fun m => m.2.isEmpty) && trkInUse s == 0 &&
    s.mirror.deltas.isEmpty && s.mirror.unacked.isEmpty && !(mirMode s == 2 && mirActive s)

/-- A power entry or wake has finished (Tables 16-7, 17-5). -/
def powerDone (s : State) : State :=
  (List.range 16).foldl (fun s k => setF s (rCC_IRQ_STAT k) 2 1 1) (hostIrq s 7)

-- regions -----------------------------------------------------------------------------------------------------------------

/-- A region loses its power: its clock is off (Table 13-4), and its crossings wait for it. The N of an automatic step stays (R302). -/
def regionOff (s : State) (r : Nat) : State :=
  let x := regionOf s r
  unalign (setF (setRegion s r { ({} : RegionSt) with stepNs := x.stepNs, stepped := x.stepped }) (rCLK_STAT r) 0 8 0) r

/-- A rail is off. -/
def railOff (s : State) (d : Nat) : State :=
  let s1 := if (railOf s d).on then pmbSend s d (.operation · false) else s
  setVout (setPhase (setRail s1 d { ({} : RailSt) with brown := (railOf s d).brown }) d 0) d 0

/-- WAKE_SRC codes (Table 14-3). -/
def wakeCode : WakeSrc → Nat
  | .command => 1
  | .interrupt => 2
  | .wakeIn => 3
  | .pcie => 4
  | .alarm => 5
  | .fabric => 6
  | .access => 7

/-- A wake begins (R313, R314 step 1). -/
def wakeBegin (s : State) (w : WakeSrc) : State :=
  let s1 := setF s rPWR_STATE 8 4 (wakeCode w)
  let s2 := { s1 with pwr := { s1.pwr with waking := true, latched := none, wakeOut := s1.pwr.wakeOut || (w != .pcie && !s1.host.linkUp) } }
  if s2.pwr.off then startup s2 else pwrTrans (railsUp s2) true

/-- A cluster's clock starts: its groups of 8 cycles count from here, and its activity ramp begins (R323). -/
def clockStarts (s : State) (cl : Nat) : State :=
  setRegion (setCluster s cl { clusterOf s cl with ramp := 1, rampCyc := 0, idleCyc := 0 }) cl { regionOf s cl with cyc := 0 }

/-- A gated cluster's clock starts again, and its ramp begins (R306, R323). -/
def ungate (s : State) (cl : Nat) : State :=
  if (clusterOf s cl).gated then clockStarts (setCluster s cl { clusterOf s cl with gated := false }) cl else s

/-- WAKE_OUT_N is low from the detection of a wake until the host link is in L0 (R313). IDLE ends: every regulator leaves low-power mode and every gated cluster runs (R306, R319). -/
def idleWake (s : State) (w : WakeSrc) : State :=
  let s1 := (List.range 4).foldl (fun s d => setRail s d { railOf s d with lowPow := false }) s
  let s2 := (List.range 32).foldl (fun s cl => ungate s cl) s1
  let s3 := setPwrState (setF s2 rPWR_STATE 8 4 (wakeCode w)) 0
  let s4 := if w = .pcie ∨ s3.host.linkUp then s3 else { s3 with pwr := { s3.pwr with wakeOut := true } }
  powerDone s4

/-- Whether a source wakes from a state (Table 14-1): 1 IDLE, 2 SLEEP, 3 DEEP, 4 OFF. -/
def wakes (s : State) (st : Nat) : WakeSrc → Bool
  | .command => st == 1
  | .interrupt => st == 1
  | .access => st == 1
  | .wakeIn => decide (2 ≤ st) && !tripped s
  | .pcie => st == 2 || st == 3
  | .alarm => (st == 2 || st == 3) && getB s (rTB_CTL + 4) 5
  | .fabric => st == 2

/-- WAKE_DETECT (R312, R313): a source during its state's entry is latched. -/
def wakeDetectRun (s : State) (w : WakeSrc) : State :=
  match s.pwr.entry with
  | some st => if s.pwr.latched.isNone && wakes s st w then { s with pwr := { s.pwr with latched := some w } } else s
  | none =>
    let st := if s.pwr.off then 4 else pwrState s
    if s.pwr.vaux = false ∨ s.pwr.waking ∨ wakes s st w = false then s
    else if st = 1 then idleWake s w
    else wakeBegin s w

-- requests (R311, R312) ----------------------------------------------------------------------------------------------------------

def pwrResult (s : State) (r : Nat) : State := setF s rPWR_STATE 4 3 r

/-- An entry to SLEEP or DEEP is accepted: the ports go to LP (R312). -/
def enterBegin (s : State) (target : Nat) : State :=
  let s1 := pwrTrans { s with pwr := { s.pwr with entry := some target, latched := none } } true
  (List.range 16).foldl (fun s p => portSleep s p) s1

/-- Whether a control core may not ask for a state (R311). -/
def notAllowed (s : State) (src : Src) (target : Nat) : Bool :=
  match src with
  | .cc _ => target == 4 || (1 ≤ target && target ≤ 3 && !getB s rPWR_REQ (7 + target))
  | _ => false

/-- A write of PWR_REQ with REQ = 1 (R311). -/
def pwrRequest (s : State) (src : Src) (target : Nat) : State :=
  let cur := pwrState s
  if mayWrite s src = false then pwrResult s 2
  else if 4 < target then pwrResult s 5
  else if notAllowed s src target then pwrResult s 3
  else if pwrBusy s then
    match s.pwr.entry, src with
    | some _, .cc _ => pwrResult s 4
    | some e, _ =>
      if target = 0 ∧ e ≠ 4 then pwrResult { s with pwr := { s.pwr with latched := some (s.pwr.latched.getD .pcie) } } 0 else pwrResult s 4
    | none, _ => pwrResult s 4
  else if target = cur then pwrResult s 0
  else if (target = 2 ∨ target = 3) ∧ packageQuiet s = false then pwrResult s 1
  else
    let s1 := pwrResult s 0
    if target = 4 then pwrTrans { s1 with pwr := { s1.pwr with entry := some 4, latched := none } } true
    else if 2 ≤ target then enterBegin s1 target
    else if 2 ≤ cur then
      wakeBegin { s1 with pwr := { s1.pwr with idleNext := target == 1 } } (match src with | .cc _ => .command | _ => .pcie)
    else if target = 1 then powerDone (setPwrState s1 1)
    else idleWake s1 .command

-- entries (R307 to R309, R315) ---------------------------------------------------------------------------------------------------

/-- An entry ends in its state; a wake that was latched begins at once (R312). -/
def entryDone (s : State) (st : Nat) : State :=
  let s1 := powerDone (pwrTrans (setPwrState s st) false)
  let w := s1.pwr.latched
  let s2 := { s1 with pwr := { s1.pwr with entry := none, latched := none } }
  match w with
  | some w => wakeBegin s2 w
  | none => s2

/-- Every stack enters self-refresh (R178). -/
def firnSleep (s : State) : State := (List.range 32).foldl (fun s k => selfRefreshEnter s k) s

/-- A die's regulator runs in low-power mode while LP_EN = 1 and every cluster of the die is gated or off (R319). -/
def lpEval (s : State) (d : Nat) : State :=
  if s.pwr.railStrap ∧ (railOf s d).on then
    setRail s d { railOf s d with lowPow := getB s rIVR_LIMIT 0 && (List.range 8).all fun k => (clusterOf s (8 * d + k)).gated || !regionUp s (8 * d + k) }
  else s

/-- SLEEP_ENTRY_COMPLETE (R307, R318, R391). -/
def sleepEntry (s : State) : State :=
  if s.pwr.entry = some 2 then
    let s1 := ((List.range 32) ++ [33, 34, 35]).foldl (fun s r => regionOff s r) (firnSleep s)
    let s2 := (List.range 15).foldl (fun s k => ccHold s (k + 1)) s1
    let s3 := { (List.range 3).foldl (fun s d => railOff s (d + 1)) s2 with clusters := s2.clusters.map fun p => (p.1, { p.2 with gated := false }) }
    let s4 := if s3.pwr.railStrap then lpEval s3 0 else railTo s3 0 (Config.railVolt 20)
    entryDone s4 2
  else s

/-- The levels of the pads outside the package: as latched, else as their controllers drive them (R315, R316). -/
def padLevels (s : State) : Pads := s.pwr.padsLatched.getD s.pins.pads

/-- Pads are latched at their levels (R315). -/
def latchPads (s : State) : State := setF { s with pwr := { s.pwr with padsLatched := some (padLevels s) } } rPAD_RELEASE 1 1 1

/-- Whether the SerDes transmitters are in electrical idle (R315). -/
def serdesIdle (s : State) : Bool := s.pwr.off || (pwrState s == 3 && !s.pwr.waking)

/-- Every port is DOWN in DEEP and OFF (R327). -/
def portsLost (s : State) : State := (List.range 16).foldl (fun s p => portLost s p 2) s

/-- The host link leaves L0 and L1: the session ends, whoever owns it (Table 20-7, N8). -/
def hostDown (s : State) : State :=
  let s1 := sessLost (setF s rHOST_STAT 0 9 0)
  { s1 with host := { s1.host with linkUp := false } }

/-- DEEP_ENTRY_COMPLETE (R308, R315). -/
def deepEntry (s : State) : State :=
  if s.pwr.entry = some 3 then
    let s1 := (List.range 36).foldl (fun s r => regionOff s r) (firnSleep (hostDown (portsLost s)))
    let s2 := (List.range 4).foldl (fun s d => railOff s d) s1
    entryDone (latchPads { s2 with clusters := s2.clusters.map fun p => (p.1, { p.2 with gated := false }) }) 3
  else s

/-- Whether a register word lies in the always-on region (R294, R306, R315, R382, R405, R408, R421, R435): it keeps its value in OFF. -/
def alwaysOn (off : Nat) : Bool :=
  off == rPKG_ID || off == rSESS_STATE || off == rBOOT_CTL || (decide (rATTEST_CTL ≤ off) && decide (off < 0x2_0240)) ||
    (decide (rATTEST_REPORT ≤ off) && decide (off < rATTEST_PUB)) || (decide (0x8_0000 ≤ off) && decide (off < 0x8_1000)) ||
    (decide (0xC_0000 ≤ off) && decide (off < 0xC_4000)) || (decide (0x20_0000 ≤ off) && decide (off < 0x40_0000)) || off == rCLK_STAT 36 || off == rCLK_STAT 36 + 4

/-- What OFF leaves of the package (R309): the always-on region, the security store and the pins. -/
def offState (x : State) : State :=
  { regs := x.regs.filter fun p => alwaysOn p.1,
    fuses := x.fuses,
    temps := x.temps,
    time := x.time,
    pwr := { ({} : PowerSt) with vaux := x.pwr.vaux, supplies := x.pwr.supplies, off := true, refLost := x.pwr.refLost, railStrap := x.pwr.railStrap,
                                 bootStrap := x.pwr.bootStrap },
    host := { ({} : HostSt) with out := x.host.out },
    sess := { ({} : SessSt) with lockTick := x.sess.lockTick, lockLen := x.sess.lockLen },
    sec := { x.sec with bootWait := true, warm := false, pushIdx := none, mhash := 0 },
    tap := x.tap,
    pins := x.pins,
    xferId := x.xferId,
    draws := x.draws,
    pending := x.pending }

/-- The package is in OFF (R309, R424): every held token is written off, and nothing outside the always-on region keeps its state. -/
def offEnter (s : State) (cause : Nat) : State :=
  let s1 := hostDown (portsLost s)
  let s2 := (List.range 9).foldl (fun s q => ledWriteOff s q) s1
  let s3 := (List.range 4).foldl (fun s d => railOff s d) s2
  let locked := sessState s3 == 3
  let s4 := setF (setF s3 rSESS_STATE 12 20 0) rSESS_STATE 2 2 0
  let s5 := setF (setPwrState (pwrTrans (if locked then s4 else setF s4 rSESS_STATE 0 2 0) false) 0) rPWR_STATE 12 2 cause
  let s6 := offState s5
  let s7 := latchPads s6
  match s.pwr.entry, s.pwr.latched with
  | some 4, some w => wakeBegin s7 w
  | _, _ => s7

/-- OFF_ENTRY (R309): an accepted request for OFF completes. -/
def offEntryRun (s : State) : State := if s.pwr.entry = some 4 then offEnter s 1 else s

/-- MAIN_POWER_LOSS (R450). -/
def powerLossRun (s : State) : State :=
  let s1 := { s with pwr := { s.pwr with supplies := false } }
  if s.pwr.off then s1 else offEnter { s1 with pwr := { s1.pwr with entry := none } } 2

/-- MAIN_SUPPLIES_PRESENT (R450): supplies that were absent have come. -/
def suppliesRun (s : State) : State := if s.pwr.supplies then s else startup { s with pwr := { s.pwr with supplies := true } }

/-- What is fused, and what stands outside the package, with nothing else. -/
def bare (s : State) : State :=
  { fuses := s.fuses,
    temps := s.temps,
    time := { ({} : TimeSt) with ticks := s.time.ticks },
    host := { ({} : HostSt) with out := s.host.out },
    sec := { ({} : SecSt) with lifeState := (if s.sec.lifeState = 2 then 1 else s.sec.lifeState), slots := s.sec.slots, cur := s.sec.cur, svn := s.sec.svn,
                               bootCnt := s.sec.bootCnt },
    xferId := s.xferId,
    draws := s.draws,
    pending := s.pending }

/-- VAUX_LOSS (R451): everything held in the always-on region is lost. -/
def vauxLossRun (s : State) : State :=
  let b := bare s
  { b with pwr := { b.pwr with vaux := false, supplies := false } }

/-- VAUX_POWER_UP (R317, R400, R434 step 1): the straps are sampled, and the package is in its reset state. -/
def vauxUpRun (s : State) (railMode bootSrc : Bool) : State :=
  if s.pwr.vaux then s
  else
    let b := bare s
    setR { b with pwr := { b.pwr with railStrap := railMode, bootStrap := bootSrc }, sec := { b.sec with bootCnt := b.sec.bootCnt + 1 } } rRAIL_MODE
      (BitVec.ofNat 32 ((resetVal rRAIL_MODE).toNat + (if railMode then 1 else 0)))

-- power-up of regions (R314, R322) ----------------------------------------------------------------------------------------------------

/-- RAIL_SETTLED (R318): a reading of a rail. It is settled within 10 mV of its voltage, where STATUS_WORD shows no fault. -/
def railSettledRun (s : State) (d mv : Nat) (fault : Bool) : State :=
  let x := railOf s d
  if x.on = false then s
  else
    let ok := !fault && decide (mv ≤ x.goal.toNat + 10) && decide (x.goal.toNat ≤ mv + 10)
    let s1 := setVout (setRail s d { x with volts := BitVec.ofNat 10 mv, settled := x.settled || ok }) d mv
    if ok && awake s1 then dvfsNext s1 else s1

/-- The order in which regions power up: the service regions, then the clusters (R314). -/
def powerOrder : List Nat := [32, 33, 34, 35] ++ List.range 32

/-- The regions that a power-up brings back: all that are present, or after a brown-out those of its die (R433). -/
def powerSet (s : State) (r : Nat) : List Nat :=
  powerOrder.filter fun q => (decide (32 ≤ q) || clusterPresent s q) && (s.pwr.waking || regionDie q == regionDie r)

/-- Whether the rails are ready for a region. -/
def railsReady (s : State) (r : Nat) : Bool :=
  (List.range 4).all fun d => ((railOf s d).on && (railOf s d).settled) || (!s.pwr.waking && d != regionDie r)

/-- REGION_POWER_UP (R314, R322): the next region in ascending order, once the rails have settled. -/
def regionUpRun (s : State) (r : Nat) : State :=
  if s.pwr.off ∨ tripped s = true ∨ s.pwr.supplies = false ∨ (2 ≤ pwrState s ∧ s.pwr.waking = false) ∨ railsReady s r = false then s
  else if ((powerSet s r).find? fun q => !(regionOf s q).powered) = some r then
    setRegion (setRail s (regionDie r) { railOf s (regionDie r) with lowPow := false }) r { ({} : RegionSt) with powered := true, stepNs := (regionOf s r).stepNs, stepped := (regionOf s r).stepped }
  else s

/-- The SRAMs of a core that SLEEP has lost read zero, and OVL_VALID is 0 (R307). -/
def coreSleepLost (s : State) (c : Nat) : State :=
  let b := coreBase c
  let s1 := dropRegs (dropRegs s (b + 0x140) (b + 0x148)) (b + 0x6000) (b + 0x1_0000)
  let s2 := { s1 with mem := s1.mem.filter fun p => decide (p.1 < storeBase c) || decide (storeBase (c + 1) ≤ p.1) }
  modCore s2 c fun k => { k with vreg := [], istore := [], acc := [], rings := [], parErr := [], scaleBuf := [], scaleMark := [] }

/-- Service SRAM of a die reads zero. -/
def sramZero (s : State) (d : Nat) : State := { s with sram := s.sram.filter fun p => p.1 / 2 ^ 21 ≠ d }

/-- A brown-out is entered in the die's moraine as the die comes back (R319, R415). The die is already reset, so nothing is left to halt. -/
def reportBrown (s : State) (d : Nat) : State :=
  match (railOf s d).brown with
  | none => s
  | some (tb, amps) =>
    let e : Ev := { cls := cBROWNOUT, sev := 3, home := 5, ukind := 6, uindex := 32 + d, detail := amps, tb := some tb }
    let s1 := logEvent (setRail s d { railOf s d with brown := none }) d 5 e
    reportEvent (traceRec s1 d 3 0 0 0 0 (e.cls + 256 * e.sev) 0) d e

/-- The N at which a region's clock starts: a service region's that of the others (R284), else its target; the lower N of an automatic step stays (R302, R308). -/
def startingN (s : State) (r : Nat) : Nat := if 32 ≤ r ∧ svcN s ≠ 0 then svcN s else tgtN s r

/-- PLL_LOCK (R314 step 4, R323): the region's clock starts; a cluster's ramp begins; after a SLEEP its SRAMs are zero. -/
def pllLockRun (s : State) (r : Nat) : State :=
  if 36 ≤ r ∨ (regionOf s r).powered = false ∨ getB s (rCLK_STAT r) 6 then s
  else
    let s0 := setRegion s r { regionOf s r with lockTick := s.time.ticks }
    let s1 := unalign (setN (setF s0 (rCLK_STAT r) 6 1 1) r (startingN s r)) r
    let slept := pwrState s1 == 2 && s1.pwr.waking
    if r < 32 then
      let s2 := clockStarts (setCluster s1 r { clusterOf s1 r with gated := false }) r
      if slept then (List.range 8).foldl (fun s k => coreSleepLost s (8 * r + k)) s2 else s2
    else reportBrown (if slept ∧ r ≠ 32 then sramZero s1 (r - 32) else s1) (r - 32)

/-- Whether a region has finished its power-up (R314): its clock runs and its crossings are aligned or free. -/
def regionReady (s : State) (r : Nat) : Bool :=
  let d := regionDie r
  regionUp s r && (if 32 ≤ r then [(dieNbr d).1, (dieNbr d).2].all fun n => !regionUp s (32 + n) || decide (edgeXlat s d n ≠ 0)
    else decide ((regionOf s r).xlat ≠ 0) || (!legacyOf s r && regionN s r != regionN s (32 + d)))

/-- WAKE_COMPLETE (R314): every present region has finished and every stack accepts requests. A DVFS_TARGET written meanwhile takes effect (R321). -/
def wakeDoneRun (s : State) : State :=
  if s.pwr.waking ∧ (powerSet s 32).all (fun r => regionReady s r) ∧ (List.range 32).all (fun k => !getB s (rFIRN_STAT k) 9) then
    let s1 := pwrTrans (setPwrState s (if s.pwr.idleNext then 1 else 0)) false
    let s2 := { s1 with pwr := { s1.pwr with waking := false, idleNext := false } }
    let s3 := (List.range 16).foldl (fun s p => portWake s p) s2
    let s4 := dvfsApply s3
    if getF s4 rPWR_STATE 8 4 = 0 then s4 else powerDone s4
  else s

-- IDLE, low-power regulators and brown-outs (R306, R319) ----------------------------------------------------------------------------------

/-- IDLE_CLUSTER_GATE (R306): a quiescent cluster gates its clock. -/
def gateRun (s : State) (cl : Nat) : State :=
  if pwrState s = 1 ∧ pwrBusy s = false ∧ regionUp s cl ∧ (clusterOf s cl).gated = false ∧
      (List.range 8).all (fun k => coreQuiet s (8 * cl + k)) then
    lpEval (setCluster s cl { clusterOf s cl with gated := true }) (cl / 8)
  else s

/-- An access to a gated cluster's cores wakes the package to RUN (R306). -/
def gatedRun (s : State) (cl : Nat) : State := if (clusterOf s cl).gated then idleWake s .access else s

/-- IVR_LP_EXIT (R319): a regulator leaves low-power mode where its die's current exceeds EXIT_AMPS. -/
def lpExitIvr (s : State) (d amps : Nat) : State := if getF s rIVR_LIMIT 8 5 < amps then setRail s d { railOf s d with lowPow := false } else s

/-- A number of tokens of a quantity is written off (R424). -/
def ledLose (s : State) (q n : Nat) : State := add64 s (ledgerBase q + 16) n

/-- Sum of a keyed count. -/
def sumPairs (l : List (Nat × Nat)) : Nat := l.foldl (fun a p => a + p.2) 0

/-- The tokens that a core has issued, and what they covered, are gone (R424): credits, ring slots and transfers. -/
def coreLose (s : State) (c : Nat) : State :=
  let k := coreOf s c
  let cred := sumPairs k.credOut + sumPairs k.reclaim
  let ring := (List.range 16).foldl (fun a e => a + (ringOf s c e).length + ichRsv s c e) 0
  let desc := k.desc.foldl (fun a p => a + (if p.2.active.isSome then 1 else 0) + (if p.2.shadow.isSome then 1 else 0)) 0
  let s1 := ledLose (ledLose (ledLose s qCHCRED cred) qRING ring) qDESC desc
  let s2 := (List.range 16).foldl (fun s e => setF s (rICH_STAT c e) 8 6 0) s1
  -- a credit that comes back later is stray, but for the messages and credits that are gone with the die
  let gone := fun (o : Nat) => ((s.flights ++ netMsgs s).filter fun f => f.pkg == ownPkg s && hdrReq (f.words.headD 0) && hdrCore (f.words.headD 0) == c && hdrOch (f.words.headD 0) == o).length +
    (s.credits.filter fun p => p == (c, o)).length + (s.refusals.filter fun r => r.core == c && r.och == o).length
  let s3 := (List.range 64).foldl (fun s o => setStrayed s c o (strayedOf s c o + credOutOf s c o + reclaimOf s c o - gone o)) s2
  modCore s3 c fun k => { k with credOut := [], reclaim := [], rings := [], desc := [], owed := [] }

/-- The die of a signal's source. -/
def sigDie (g : Sig) : Nat := if g.kind = 5 then g.src % 16 / 4 else g.src / 64

/-- A brown-out's write-off (R424): the tokens whose issuing unit lies on the die. -/
def dieLose (s : State) (d : Nat) : State :=
  let s1 := (List.range 64).foldl (fun s k => coreLose s (64 * d + k)) s
  let mine := fun (g : Sig) => g.own && sigDie g == d
  let from_ := fun (ws : List (BitVec 64)) => hdrCore (ws.headD 0) / 64 == d
  let s2 := ledLose s1 qCTR ((s1.signals ++ netSigs s1).filter mine).length
  let stays := fun (m : NetLoad) => match m with
    | .firnReq r | .firnData r _ _ => r.core / 64 != d
    | .sig g => !mine g
    | .msg f => !from_ f.words
    | .store _ _ c _ _ => c / 64 != d
    | .toFab _ _ k => !(k.hdr.srcPkg == ownPkg s && (match (trkOf s k.hdr.tag).busy with | some (w, _, _) => (whoCore w).any fun c => c / 64 == d | none => false))
    | .fromFab _ _ => true
  let s2 := netKeep s2 stays
  { s2 with signals := s2.signals.filter fun g => !mine g,
            flights := s2.flights.filter fun f => !(f.pkg == ownPkg s && from_ f.words),
            refusals := s2.refusals.filter fun r => !(r.core / 64 == d),
            credits := s2.credits.filter fun p => !(p.1 / 64 == d),
            firnWait := s2.firnWait.filter fun r => !(r.core / 64 == d) }

/-- BROWNOUT (R319): more than 25 A in low-power mode. The die resets, superseding a reset in progress, loses its tokens and its power, and its rail starts again. -/
def brownRun (s : State) (d amps : Nat) : State :=
  if s.pwr.railStrap = false ∨ (railOf s d).lowPow = false ∨ amps ≤ 25 then s
  else
    let s0 := (List.range 8).foldl (fun s k => selfRefreshEnter s (8 * d + k)) s
    let s1 := dieLose (sramZero (dieResetStart (rstDone s0) d) d) d
    let s2 := setF s1 rPWR_STATE (16 + d) 1 1
    let s3 := (((List.range 8).map fun k => 8 * d + k) ++ [32 + d]).foldl (fun s r => regionOff s r) s2
    setRail s3 d { ({} : RailSt) with on := true, goal := tgtVolt s3 d, since := s3.time.ticks, brown := some (tbNow s, amps) }

-- throttling (R323, R324, R454) --------------------------------------------------------------------------------------------------------------

/-- ACTIVITY_RAMP_STEP (R323): 256 cycles of a step have passed. -/
def rampRun (s : State) (cl : Nat) : State :=
  let k := clusterOf s cl
  if 1 ≤ k.ramp ∧ k.ramp ≤ 7 ∧ 256 ≤ k.rampCyc ∧ regionUp s cl ∧ k.gated = false then setCluster s cl { k with ramp := k.ramp + 1, rampCyc := 0 } else s

/-- POWER_LIMITER_SAMPLE (R324). -/
def limiterRun (s : State) (p : Nat) : State :=
  let peak := getF s rPWR_LIMIT 16 13
  let sustain := min (getF s rPWR_LIMIT 0 13) peak
  let time := getF s (rPWR_LIMIT + 4) 0 10
  let x := s.pwr
  let above := if sustain < p then x.overUs + 1 else 0
  let since := min 10 (x.sinceUs + 1)
  let s1 := setF s rPWR_MEAS 0 13 p
  if peak < p ∨ time ≤ above then
    let l := min (x.lpwr + 1) 7
    { s1 with pwr := { x with overUs := above, lpwr := l, sinceUs := if l = x.lpwr then since else 0 } }
  else if 100 * p < 95 * sustain ∧ 0 < x.lpwr ∧ 10 ≤ since then { s1 with pwr := { x with overUs := above, lpwr := x.lpwr - 1, sinceUs := 0 } }
  else { s1 with pwr := { x with overUs := above, sinceUs := since } }

def setTemp (s : State) (r t : Nat) : State := { s with temps := mset (fun _ => 0) s.temps r t }
def tempOf (s : State) (r : Nat) : Nat := mget (fun _ => 0) s.temps r

/-- THERMAL_LEVEL_UPDATE (R454). -/
def thermalRun (s : State) (cl tj ts tf : Nat) : State :=
  if clusterPresent s cl = false ∨ regionUp s cl = false then s
  else
    let s1 := firnTemp (setTemp (setTemp s cl tj) (32 + cl / 8) ts) cl tf
    let k := clusterOf s1 cl
    let t := max tj ts
    let l := if 105 < t ∨ 95 < tf then min (k.lth + 1) 7 else if t ≤ 102 ∧ tf ≤ 92 ∧ 0 < k.lth then k.lth - 1 else k.lth
    let s2 := setCluster s1 cl { k with lth := l }
    if k.lth = 0 ∧ l ≠ 0 then hostIrq (setF s2 (rTHERM_STAT + 4) 0 1 1) 11 else s2

/-- The reading of a sensor, with the reading before it and its place: die, unit kind, unit, whether it is firn. -/
def senseTemp (s : State) (k : Sensor) (t : Nat) : State × Nat × Nat × Nat × Nat × Bool :=
  match k with
  | .junction r => (setTemp s r t, tempOf s r, regionDie r, 6, r, false)
  | .firnCase q => (firnTemp s q t, tempOf s (64 + q), q / 8, 1, q, true)

/-- THERMAL_WARN (Table 22-7): a reading reaches its threshold from below. -/
def warnRun (s : State) (k : Sensor) (t : Nat) : State :=
  let (s1, old, d, uk, ui, firn) := senseTemp s k t
  let limit := if firn then 95 else getF s rTHERM_CFG 0 8
  if old < limit ∧ limit ≤ t then
    hostIrq (raiseEv s1 d { cls := cTHERMAL, sev := 0, home := 0, ukind := uk, uindex := ui, detail := t + (if firn then 256 else 0) }) 11
  else s1

/-- THERMTRIP (R453): the pin goes low, the event is logged, every region but the always-on region is held in reset, and the core rails are off. -/
def tripRun (s : State) (k : Sensor) (t : Nat) : State :=
  let (s1, _, d, uk, ui, firn) := senseTemp s k t
  if t < (if firn then 105 else 115) ∨ tripped s then s1
  else
    let s2 := raiseEv s1 d { cls := cTRIP, sev := 3, home := 5, ukind := uk, uindex := ui, detail := t + (if firn then 256 else 0) }
    let s3 := setF { s2 with pins := { s2.pins with thermtripN := false } } (rTHERM_STAT + 4) 1 1 1
    let s4 := (List.range 36).foldl (fun s r => regionOff s r) (hostDown (portsLost s3))
    let s5 := (List.range 16).foldl (fun s k => ccHold s k) s4
    let s6 := (List.range 4).foldl (fun s d => railOff s d) s5
    pwrTrans { s6 with pwr := { s6.pwr with waking := false, entry := none, latched := none } } false

/-- A write of PAD_RELEASE (R316). -/
def padRun (s : State) (v : Nat) : State :=
  if bits v 0 1 = 1 then setF { s with pwr := { s.pwr with padsLatched := none } } rPAD_RELEASE 1 1 0 else s

/-- WAKE_PACKET (R327, R347): a WAKE packet that has arrived wakes a package in SLEEP, or on its way there; another ignores it. -/
def wakePacketRun (s : State) (p : Nat) : State := hopTake s p 11 (fun _ => true) fun s _ => if portState s p = 4 then wakeDetectRun s .fabric else s

-- meanings -------------------------------------------------------------------------------------------------------------------------------------

/-- IDLE_CLUSTER_GATE (R306). -/
def execIdleClusterGate (cluster : ClusterId) (s : State) : Host.Outcome State Fault Refusal := .next (gateRun s cluster)
/-- SLEEP_ENTRY_COMPLETE (R312). -/
def execSleepEntryComplete (s : State) : Host.Outcome State Fault Refusal := .next (sleepEntry s)
/-- DEEP_ENTRY_COMPLETE (R312). -/
def execDeepEntryComplete (s : State) : Host.Outcome State Fault Refusal := .next (deepEntry s)
/-- OFF_ENTRY (R309). -/
def execOffEntry (s : State) : Host.Outcome State Fault Refusal := .next (offEntryRun s)
/-- RAIL_SETTLED (R318). -/
def execRailSettled (die : DieId) (report : RailReport) (s : State) : Host.Outcome State Fault Refusal :=
  .next (railSettledRun s die report.millivolts.toNat report.fault)
/-- REGION_POWER_UP (R322). -/
def execRegionPowerUp (region : RegionId) (s : State) : Host.Outcome State Fault Refusal := .next (regionUpRun s region)
/-- PLL_LOCK (R314). -/
def execPllLock (region : RegionId) (s : State) : Host.Outcome State Fault Refusal := .next (pllLockRun s region)
/-- ACTIVITY_RAMP_STEP (R323). -/
def execActivityRampStep (cluster : ClusterId) (s : State) : Host.Outcome State Fault Refusal := .next (rampRun s cluster)
/-- POWER_LIMITER_SAMPLE (R324). -/
def execPowerLimiterSample (watts : BitVec 13) (s : State) : Host.Outcome State Fault Refusal := .next (limiterRun s watts.toNat)
/-- THERMAL_LEVEL_UPDATE (R454). -/
def execThermalLevelUpdate (cluster : ClusterId) (tjRegion tjService tFirn : BitVec 8) (s : State) : Host.Outcome State Fault Refusal :=
  .next (thermalRun s cluster tjRegion.toNat tjService.toNat tFirn.toNat)
/-- BROWNOUT (R319). -/
def execBrownout (die : DieId) (amps : BitVec 5) (s : State) : Host.Outcome State Fault Refusal := .next (brownRun s die amps.toNat)
/-- IVR_LP_EXIT (R319). -/
def execIvrLpExit (current : DieCurrent) (s : State) : Host.Outcome State Fault Refusal := .next (lpExitIvr s current.die current.amps.toNat)
/-- THERMTRIP (R453). -/
def execThermtrip (sensor : Sensor) (temp : BitVec 8) (s : State) : Host.Outcome State Fault Refusal := .next (tripRun s sensor temp.toNat)
/-- THERMAL_WARN (R453). -/
def execThermalWarn (sensor : Sensor) (temp : BitVec 8) (s : State) : Host.Outcome State Fault Refusal := .next (warnRun s sensor temp.toNat)
/-- MAIN_POWER_LOSS (R450). -/
def execMainPowerLoss (s : State) : Host.Outcome State Fault Refusal := .next (powerLossRun s)
/-- MAIN_SUPPLIES_PRESENT (R450). -/
def execMainSuppliesPresent (s : State) : Host.Outcome State Fault Refusal := .next (suppliesRun s)
/-- VAUX_POWER_UP (R434). -/
def execVauxPowerUp (railMode bootSrc : Bool) (s : State) : Host.Outcome State Fault Refusal := .next (vauxUpRun s railMode bootSrc)
/-- VAUX_LOSS (R451). -/
def execVauxLoss (s : State) : Host.Outcome State Fault Refusal := .next (vauxLossRun s)

end Sys2Proof.Machine
end

