-- ==== Sys2Proof/Machine/Sec.lean ====
section
/-! DEFINITION. Boot, firmware images, attestation and the lifecycle (18_boot_security.md, R400 to R407). -/

namespace Sys2Proof.Machine

-- identity (Table 23-2) ------------------------------------------------------------------------------------------------

/-- DEV_ID: the device ID names the grade. -/
def devId (s : State) : BitVec 32 := BitVec.ofNat 32 (Config.vendorId.toNat + 65536 * (if s.fuses.grade = 0xFFFF_FFFF#32 then 0x7434 else 0x7424))

/-- LIFECYCLE (Table 18-4). -/
def slotsUsed (s : State) : Nat := ((List.range 4).filter fun k => (ownerSlot s k).used).length
def lifecycleWord (s : State) : Nat := s.sec.lifeState + 4 * s.sec.cur + 16 * (4 - slotsUsed s) + (if s.sec.burning then 128 else 0)

-- images (R403, R404) -----------------------------------------------------------------------------------------------------

/-- A little-endian field of a manifest (Table 18-1); bytes that are missing read 0. -/
def manField (m : List Byte) (off n : Nat) : Nat := leNat ((m.drop off).take n)
/-- The bytes of a manifest field. -/
def manBytes (m : List Byte) (off n : Nat) : List Byte := (m.drop off).take n

def manSvn (m : List Byte) : Nat := manField m 6 1
def manPlen (m : List Byte) : Nat := manField m 8 4
def manSlen (m : List Byte) : Nat := manField m 0xC 4

/-- The lowest code of the checks of R403 that fail, 0 when all pass. `p` is the payload. -/
def verifyImage (svn : Nat) (m p : List Byte) : Nat :=
  let signed := manBytes m 0 0x820
  let ed := manBytes m 0x60 32
  let ml := manBytes m 0x80 1952
  if manField m 0 4 ≠ 0x4154_5242 ∨ manField m 4 2 ≠ 1 ∨ min (manPlen m) 0x20_0000 < manSlen m ∨ 0xF0_0000 < manPlen m then 1
  else if sha384 ed ≠ beBytes 48 Config.vendorEdHash.toNat ∨ sha384 ml ≠ beBytes 48 Config.vendorMlHash.toNat then 2
  else if Config.ed25519Verify ed signed (manBytes m 0x820 64) = false then 3
  else if Config.mlDsaVerify ml signed (manBytes m 0x860 3309) = false then 4
  else if manSvn m < svn then 5
  else if sha384 p ≠ manBytes m 0x20 48 then 6
  else 0

/-- Fuses are blown until the count equals SVN; one that fails to blow sets SVNFAIL (R404). -/
def blowFuses (s : State) : Nat → State
  | 0 => s
  | n + 1 =>
    let ok := Config.fuseBlows s.draws
    let s1 := { s with draws := s.draws + 1 }
    if ok then blowFuses { s1 with sec := { s1.sec with svn := s1.sec.svn + 1 } } n else blowFuses (setF s1 rBOOT_STAT 3 1 1) n

/-- Service SRAM bytes of a die, written from an offset. -/
def sramWrite (s : State) (d off : Nat) (bs : List Byte) : State := { s with sram := memWrite s.sram (d * 2 ^ 21 + off) bs }

/-- Where the image copy lies (R393, R401): stack 0, offset 0x1_FC00_0000. -/
def imageBase : Nat := 0x1_FC00_0000

/-- Bytes of the image copy, and whether a beat of it could not be read. -/
def imageRead (s : State) (off n : Nat) : State × List Byte × Bool := devRead s whoHost (n / 256 + 2) (imageBase + off) n
def imageWrite (s : State) (off : Nat) (bs : List Byte) : State := (devWrite s whoHost (bs.length / 256 + 2) (imageBase + off) bs).1

/-- Entry to a verified image (R401 step 4). -/
def bootEnter (s : State) (m p : List Byte) : State :=
  let s1 := blowFuses s (manSvn m - s.sec.svn)
  let s2 := sramWrite s1 0 0 (p.take (manSlen m))
  let s3 := setF (setR s2 rFW_VERSION (BitVec.ofNat 32 (manField m 0x10 4))) rBOOT_STAT 0 2 2
  setCc { s3 with sec := { s3.sec with bootWait := false, warm := false, pushIdx := none, mhash := BitVec.ofNat 384 (beNat (sha384 (manBytes m 0 0x820))) } } 0
    { ccOf s3 0 with pc := 0x0200_0000_0000 }

/-- ERR, and IMAGE_VERIFY_FAIL for a failure of verification (R401). -/
def bootFail (s : State) (err : Nat) : State :=
  raiseEv (setF s rBOOT_STAT 4 4 err) 0 { cls := cIMAGE, sev := 2, home := 1, ukind := 5, uindex := 0, detail := err }

/-- The ROM waits for a push (R401 step 5); beginning one, it clears FORCE_PUSH (R400). -/
def waitPush (s : State) : State :=
  let s1 := setF (setF s rBOOT_STAT 0 2 1) rBOOT_CTL 0 1 0
  { s1 with sec := { s1.sec with bootWait := false, warm := false, pushIdx := none } }

/-- Boot from the flash, or from a push (R400, R401 steps 2 to 5). -/
def bootCold (s : State) (image : ImageRead) : State :=
  if getB s rBOOT_CTL 0 || s.pwr.bootStrap then waitPush s
  else
    let s1 := padRun s 1
    match image with
    | .noFirn => s
    | .failed => waitPush (setF s1 rBOOT_STAT 4 4 7)
    | .bytes m p =>
      let man := (m ++ List.replicate (0x2000 - m.length) 0).take 0x2000
      let pay := p.take (min (manPlen man) 0xF0_0000)
      let s2 := imageWrite s1 0 (man ++ pay)
      let e := verifyImage s2.sec.svn man pay
      if e = 0 then bootEnter (setF s2 rBOOT_STAT 2 1 0) man pay else waitPush (bootFail s2 e)

/-- The image copy in stack 0: its manifest, its payload and the code of R403; a beat that cannot be read fails the payload's hash. -/
def imageCheck (s : State) : State × List Byte × List Byte × Nat :=
  let man := imageRead s 0 0x2000
  let pay := imageRead man.1 0x2000 (min (manPlen man.2.1) 0xF0_0000)
  let e := verifyImage pay.1.sec.svn man.2.1 pay.2.1
  (pay.1, man.2.1, pay.2.1, if man.2.2 then 1 else if pay.2.2 ∧ e = 0 then 6 else e)

/-- Whether the boot ROM finds stack 0 initialised (R401 step 1). -/
def stack0Ready (s : State) : Bool := getB s (rFIRN_STAT 0) 10 && (stackOf s 0).open_

/-- BOOT_ROM_RUN (R401, R431): CC0 runs the boot ROM once stack 0 is initialised; where that fails, it records FIRN and waits for a push. -/
def bootRun (s : State) (image : ImageRead) : State :=
  if s.sec.bootWait = false ∨ getB s (rCC_CTL 0) 0 = false ∨ regionUp s 32 = false then s
  else if stack0Ready s = false then (if image = .noFirn then waitPush (setF s rBOOT_STAT 4 4 8) else s)
  else if s.sec.warm then
    let r := imageCheck s
    if r.2.2.2 = 0 then bootEnter r.1 r.2.1 r.2.2.1 else bootCold (bootFail { r.1 with sec := { r.1.sec with warm := false } } r.2.2.2) image
  else bootCold s image

-- pushes (R402) ----------------------------------------------------------------------------------------------------------------

/-- Whether the ROM accepts a push. -/
def pushing (s : State) : Bool := getF s rBOOT_STAT 0 2 == 1

/-- BOOT_PUSH_CTL.START. -/
def pushStart (s : State) : State := if pushing s then { s with sec := { s.sec with pushIdx := some 0 } } else s

/-- An 8-byte write of BOOT_PUSH_DATA. -/
def pushData (s : State) (v : Nat) : State :=
  match s.sec.pushIdx with
  | some i =>
    if pushing s = false ∨ (stackOf s 0).open_ = false then s
    else if 2 ^ 24 ≤ i then setF s rBOOT_STAT 15 1 1
    else
      let s1 := imageWrite s i (leBytes 8 v)
      { s1 with sec := { s1.sec with pushIdx := some (i + 8) } }
  | none => s

/-- BOOT_PUSH_CTL.DONE: the image is verified in place. -/
def pushDone (s : State) : State :=
  if pushing s = false ∨ s.sec.pushIdx.isNone ∨ (stackOf s 0).open_ = false then s
  else
    let r := imageCheck s
    if r.2.2.2 = 0 then bootEnter (setF r.1 rBOOT_STAT 2 1 1) r.2.1 r.2.2.1
    else
      let s2 := bootFail r.1 r.2.2.2
      { s2 with sec := { s2.sec with pushIdx := none } }

/-- A write of BOOT_PUSH_CTL: START before DONE. -/
def pushCtl (s : State) (v : Nat) : State :=
  let s1 := if bits v 0 1 = 1 then pushStart s else s
  if bits v 1 1 = 1 then pushDone s1 else s1

-- attestation (R405, R406) ---------------------------------------------------------------------------------------------------------

def attestBusy (s : State) : Bool := s.sec.signing

/-- ATTEST_CTL.REQ. -/
def attestReq (s : State) : State :=
  if attestBusy s then setF s rATTEST_CTL 2 1 1 else setF { s with sec := { s.sec with signing := true } } rATTEST_CTL 1 1 1

/-- Bytes 0x00 to 0xFF of a report (Table 18-2). -/
def reportHead (s : State) : List Byte :=
  let ok := sessKey s false
  leBytes 4 0x5052_5A41 ++ leBytes 1 s.sec.lifeState ++ leBytes 1 s.sec.svn ++ leBytes 2 0 ++ leBytes 8 Config.serial.toNat ++
    leBytes 4 (devId s).toNat ++ leBytes 4 Config.stepping.toNat ++ leBytes 4 s.fuses.grade.toNat ++ leBytes 4 (getR s rFW_VERSION).toNat ++
    (if bruta s then beBytes 48 s.sec.mhash.toNat else List.replicate 48 0) ++
    (match ok with | some k => sha384 k | none => List.replicate 48 0) ++
    regBytes s rATTEST_NONCE 32 ++ leBytes 8 (tbNow s) ++ leBytes 2 (ownPkg s) ++ leBytes 2 0 ++ leBytes 4 s.sec.bootCnt ++ List.replicate 80 0

/-- ATTEST_SIGN_DONE (R406): the report and its two signatures. -/
def attestDone (s : State) : State :=
  if attestBusy s then
    let h := reportHead s
    let sigs := (List.range 64).map (Config.attestEdSign h) ++ (List.range 3309).map (Config.attestMlSign h)
    let all := h ++ sigs
    let s1 := setRegBytes s rATTEST_REPORT (all ++ List.replicate (0x1000 - all.length) 0)
    setF { s1 with sec := { s1.sec with signing := false } } rATTEST_CTL 1 1 0
  else s

-- lifecycle (R407) ------------------------------------------------------------------------------------------------------------------

/-- The 96 bytes of PROV_KEY. -/
def provBytes (s : State) : List Byte := (List.range 24).flatMap fun i => leBytes 4 (mget (fun _ => (0 : BitVec 32)) s.sec.provKey i).toNat

/-- LIFECYCLE.PROVISION. -/
def provisionRun (s : State) : State :=
  if s.sec.lifeState = 0 ∧ slotsUsed s < 4 ∧ s.sec.burning = false then { s with sec := { s.sec with burning := true } } else s

/-- PROVISION_DONE: the keys are burnt into the next slot, and PROV_KEY reads 0. -/
def provisionEnd (s : State) : State :=
  if s.sec.burning then
    let n := slotsUsed s
    let b := provBytes s
    let o : OwnerSlot := ⟨b.take 32, (b.drop 32).take 32, b.drop 64, true, false⟩
    { s with sec := { s.sec with slots := mset (fun _ => {}) s.sec.slots n o, cur := n, lifeState := 1, provKey := [], burning := false } }
  else s

/-- LIFECYCLE.DBG_UNLOCK: in a KIND 0 session. -/
def unlockRun (s : State) : State :=
  if s.sec.lifeState = 1 ∧ sessOpen s ∧ sessDebug s = false then { s with sec := { s.sec with lifeState := 2 } } else s

/-- LIFECYCLE.DBG_LOCK: in any session; an open debug session ends as CLOSE does. -/
def lockRun (s : State) : State :=
  if s.sec.lifeState = 2 ∧ sessOpen s then
    let s1 := if sessDebug s then sessEnd s else s
    { s1 with sec := { s1.sec with lifeState := 1 } }
  else s

/-- LIFECYCLE.RELEASE: in a KIND 0 session the slot is revoked, the session ends, and a package cold reset follows. -/
def releaseRun (s : State) : State :=
  if (s.sec.lifeState = 1 ∨ s.sec.lifeState = 2) ∧ sessOpen s ∧ sessDebug s = false then
    let s1 := sessEnd s
    let o := ownerSlot s1 s1.sec.cur
    coldReset { s1 with sec := { s1.sec with lifeState := 0, slots := mset (fun _ => {}) s1.sec.slots s1.sec.cur { o with revoked := true } } }
  else s

/-- A write of LIFECYCLE (R407): RELEASE wins over every other bit, DBG_LOCK over DBG_UNLOCK. -/
def lifecycleCtl (s : State) (v : Nat) : State :=
  if bits v 11 1 = 1 then releaseRun s
  else
    let s1 := if bits v 8 1 = 1 then provisionRun s else s
    if bits v 10 1 = 1 then lockRun s1 else if bits v 9 1 = 1 then unlockRun s1 else s1

-- meanings ---------------------------------------------------------------------------------------------------------------------------

/-- PROVISION_DONE (R407). -/
def execProvisionDone (s : State) : Host.Outcome State Fault Refusal := .next (provisionEnd s)
/-- BOOT_ROM_RUN (R401). -/
def execBootRomRun (image : ImageRead) (s : State) : Host.Outcome State Fault Refusal := .next (bootRun s image)
/-- ATTEST_SIGN_DONE (R406). -/
def execAttestSignDone (s : State) : Host.Outcome State Fault Refusal := .next (attestDone s)

end Sys2Proof.Machine
end

