-- ==== Sys2Proof/Machine/Cc.lean ====
section
/-! DEFINITION. The control cores' effects on the package and on-package serving (17_service_complex.md). The RISC-V programs they run are outside the model; each
access, signal and interrupt of theirs is a command. -/

namespace Sys2Proof.Machine

-- control cores (R384 to R391) --------------------------------------------------------------------------------------------

/-- Whether a control core runs. -/
def ccRuns (s : State) (k : Nat) : Bool := getB s (rCC_CTL k) 0 && regionUp s (32 + k / 4)

/-- A write of CC_CTL (R391): RESET holds the core, whatever RUN holds. -/
def ccCtl (s : State) (k v : Nat) : State := if bits v 1 1 = 1 then ccHold s k else setF s (rCC_CTL k) 0 1 (bits v 0 1)

/-- A write of CC_HOSTIRQ (R390): bits 16 to 63 of `v`. -/
def ccHostirqRun (s : State) (v : Nat) : State := (List.range 48).foldl (fun s i => if bits v (16 + i) 1 = 1 then hostIrq s (16 + i) else s) s

/-- CC_TIMER_INTERRUPT (R384): pending while TB_VALUE has reached CC_TIMECMP. -/
def ccTimerRun (s : State) (k : Nat) : State :=
  if ccRuns s k then setCc s k { ccOf s k with mtip := decide (getR64 s (rCC_TIMECMP k) ≤ tbNow s) } else s

/-- CC_EXTERNAL_INTERRUPT (R390): pending while a bit is 1 in both CC_IRQ_STAT and CC_IRQ_EN. -/
def ccExternalRun (s : State) (k : Nat) : State :=
  if ccRuns s k then setCc s k { ccOf s k with meip := decide (getR s (rCC_IRQ_STAT k) &&& getR s (rCC_IRQ_EN k) ≠ 0) } else s

/-- The target of byte o of the remote window (R389). -/
def rwinPkg (s : State) (k : Nat) : Nat := getF s (rCC_RWIN k) 16 16
def rwinAddr (s : State) (k o : Nat) : Nat := (getF s (rCC_RWIN k) 0 8 * 2 ^ 40 + o) % 2 ^ 48

/-- The parts of an access of n bytes from an address that lie in one 4,096-byte block each (R334): offset in the access and length. -/
def blockParts (a n : Nat) : List (Nat × Nat) :=
  let m := min n (4096 - a % 4096)
  if m < n then [(0, m), (m, n - m)] else [(0, n)]

/-- One WRITE of a control core to another package leaves, posted (R389). -/
def ccPost (s : State) (k pkg addr : Nat) (bs : List Byte) : State :=
  let t := trkFree s
  match fabRequest s (.ccWrite k) ⟨mkHdr 1 pkg (ownPkg s) 0 0 addr bs.length, bs, []⟩ with
  | (s1, none) => setCc s1 k { ccOf s1 k with tags := (ccOf s1 k).tags ++ [t] }
  | (s1, some st) => ccError s1 k st

/-- One READ of a control core, for the bytes of its load from `pos`, leaves (R389). -/
def ccFetch (s : State) (k pkg addr pos n : Nat) : State :=
  let t := trkFree s
  match fabRequest s (.ccRead k pos) ⟨mkHdr 2 pkg (ownPkg s) 0 0 addr n, [], []⟩ with
  | (s1, none) => setCc s1 k { ccOf s1 k with loads := (ccOf s1 k).loads ++ [t] }
  | (s1, some st) => ccError s1 k st

/-- Bytes that nothing states: those of a load whose response is an ERROR (R389). -/
def openBytes (s : State) (n : Nat) : List Byte × State :=
  let (v, s1) := drawFree s
  ((leBytes 8 v.toNat).take n, s1)

/-- An access to another package: each of its requests holds one tracker entry (R336, R389). -/
def ccRemote (s : State) (k pkg addr n : Nat) (data : Option (List Byte)) : State :=
  let parts := blockParts addr n
  match data with
  | some bs => parts.foldl (fun s p => ccPost s k pkg (addr + p.1) ((bs.drop p.1).take p.2)) s
  | none =>
    let (d, s1) := openBytes s n
    parts.foldl (fun s p => ccFetch s k pkg (addr + p.1) p.1 p.2) (setCc s1 k { ccOf s1 k with data := d })

/-- A place in service SRAM that a control core addresses (Table 17-2): die and offset. -/
def sramPlace (k a n : Nat) : Option (Nat × Nat) :=
  if 0x0200_0000_0000 ≤ a ∧ a + n ≤ 0x0200_0020_0000 then some (k / 4, a - 0x0200_0000_0000)
  else
    let o := a - 0x0201_0000_0000
    if 0x0201_0000_0000 ≤ a ∧ o < 2 ^ 26 ∧ o % 2 ^ 24 + n ≤ 2 ^ 21 then some (o / 2 ^ 24, o % 2 ^ 24) else none

/-- Bytes a load returns to a control core. -/
def ccData (s : State) (k : Nat) (bs : List Byte) : State := setCc s k { ccOf s k with data := bs }

/-- Whether an access of the own map waits: a store's cluster is off or held, firn is not open to the core, or a DELTA has no mirror credit (R306, R351). -/
def ccLocalWaits (s : State) (a len : Nat) (data : Option (List Byte)) : Bool :=
  match placeOf a len with
  | .unmapped => false
  | .store c => corePresent s c && storeWaits s c
  | .firn => !firnOpen s a len || (match data with | some bs => !mirForeign s a len && mirWaits s a bs | none => false)

/-- A load or a store of a control core to a stationary store, firn or service SRAM (R386, R387). No task window applies. Anywhere else the core takes its access fault,
and nothing is recorded. -/
def ccLocal (s : State) (k a len : Nat) (data : Option (List Byte)) : State :=
  match sramPlace k a len with
  | some (d, o) =>
    match data with
    | some bs => sramWrite s d o bs
    | none => ccData s k ((List.range len).map fun i => mget zeroByte s.sram (d * 2 ^ 21 + o + i))
  | none =>
    match placeOf a len with
    | .unmapped => s
    | .store c =>
      if corePresent s c = false then
        let s1 := absentNote s c 5 k a
        match data with | some _ => s1 | none => ccData s1 k (deadBytes len)
      else match data with
        | some bs => wrBytes s a bs
        | none => ccData s k (rdBytes s a len)
    | .firn =>
      match data with
      | some bs => if mirForeign s a len then satF s (rMIR_STAT + 4) 0 16 1 else (devWrite s whoHost (len / 256 + 2) a bs).1
      | none =>
        let (s1, bs, bad) := devRead s whoHost (len / 256 + 2) a len
        if bad then s1 else ccData s1 k bs

/-- A signal of CC_SIG (R388). A COUNT of 0 sends nothing; one to an absent core is dropped. -/
def ccSignalGo (s : State) (k v : Nat) : State :=
  let core := bits v 8 8
  if bits v 20 16 = 0 then s
  else if bits v 52 1 = 1 then ccRemoteSignal s k v
  else if corePresent s core = false then absentNote s core 5 k core
  else sendSignal s ⟨core, bits v 0 6, bits v 20 16, bits v 16 4, 2, 1, ownPkg s, k, 5, true⟩

/-- A descriptor that holds no transfer: one whose template is empty, if there is one (entry 74). -/
def idleDesc (s : State) (c : Nat) : Option Nat :=
  let ds := (List.range 64).filter fun d => (descOf s c d).active.isNone && (descOf s c d).shadow.isNone && (descOf s c d).stopped.isNone
  (ds.find? fun d => (template s c d).all (· == 0)) <|> ds.head?

/-- A template is written (R237). -/
def putTemplate (s : State) (c d : Nat) (ws : List (BitVec 64)) : State :=
  let s1 := (List.range 8).foldl (fun s i => setR64 s (rDESC c d + 8 * i) (ws.getD i 0).toNat) s
  setR64 s1 (rDESC_STAT c d) (setBits (getR64 s1 (rDESC_STAT c d)) 16 32 0)

/-- The loader arms an overlay for a task (R129, R276): a descriptor of the core carries it, and its template is put back. -/
def overlayArm (s : State) (c t src dst len : Nat) : State :=
  match idleDesc s c with
  | none => s
  | some d =>
    let old := template s c d
    putTemplate (armRun (putTemplate s c d [0x60, BitVec.ofNat 64 src, BitVec.ofNat 64 dst, BitVec.ofNat 64 len]) c t d) c d old

/-- Whether an item waits: a remote request for tracker entries (R336), a load for the load before it, a remote signal for the ACK of each earlier remote write (R388),
an overlay for its core and a descriptor. -/
def ccItemWaits (s : State) (k : Nat) : CcItem → Bool
  | .access (some _) addr n data => decide (65536 < trkInUse s + (blockParts addr n).length) || (data.isNone && !(ccOf s k).loads.isEmpty)
  | .access none a n data => ((sramPlace k a n).isNone && ccLocalWaits s a n data) || (data.isNone && !(ccOf s k).loads.isEmpty)
  | .signal v => bits v.toNat 52 1 == 1 && (!(ccOf s k).tags.isEmpty || !trkRoom s)
  | .irq _ => false
  | .overlay c _ _ _ _ => storeWaits s c || (idleDesc s c).isNone

/-- An item is done. -/
def ccItemGo (s : State) (k : Nat) : CcItem → State
  | .access (some pkg) addr n data => ccRemote s k pkg addr n data
  | .access none a n data => ccLocal s k a n data
  | .signal v => ccSignalGo s k v.toNat
  | .irq v => hostIrq s v
  | .overlay c t src dst len => overlayArm s c t src dst len

/-- A control core does what it has to do, in program order, up to the first item that waits. -/
def ccGo (s : State) (k : Nat) : Nat → State
  | 0 => s
  | n + 1 =>
    match (ccOf s k).todo with
    | [] => s
    | x :: rest => if ccItemWaits s k x then s else ccGo (ccItemGo (setCc s k { ccOf s k with todo := rest }) k x) k n

/-- A core's pending items run while the core runs. -/
def ccTodo (s : State) (k : Nat) : State := if ccRuns s k then ccGo s k (ccOf s k).todo.length else s

/-- An item follows those before it in program order. -/
def ccPush (s : State) (k : Nat) (x : CcItem) : State := ccTodo (setCc s k { ccOf s k with todo := (ccOf s k).todo ++ [x] }) k

/-- A write of CC_SIG (R388): the signal follows the core's earlier stores, local and remote. -/
def ccSigRun (s : State) (k v : Nat) : State := if ccRuns s k then ccPush s k (.signal (BitVec.ofNat 64 v)) else ccSignalGo s k v

/-- CC_REMOTE_STORE and CC_REMOTE_LOAD (R389): the request goes to the package and base that CC_RWIN holds now. -/
def ccRemoteRun (s : State) (k o n : Nat) (data : Option (List Byte)) : State :=
  if ccRuns s k = false ∨ n = 0 then s else ccPush s k (.access (some (rwinPkg s k)) (rwinAddr s k o) n data)

/-- CC_STORE_ACCESS (R386, R387): a load (`data` none) or a store of a control core's own map. -/
def ccAccess (s : State) (k a n : Nat) (data : Option (List Byte)) : State :=
  let len := match data with | some bs => bs.length | none => n
  if ccRuns s k = false ∨ len = 0 then s else ccPush s k (.access none a len data)

/-- OWNER_PROGRAM_EXCEPTION (R398, R399). -/
def ownerFault (s : State) (k cause pc : Nat) : State :=
  if k < 4 ∨ ccRuns s k = false then s else hostIrq (setR64 s rPROG_STAT (cause % 256 + 256 * pc)) 17

-- serving (R394 to R397) ------------------------------------------------------------------------------------------------------

def tpb : Nat := max 1 Config.tokensPerBlock
/-- Blocks a request needs (R395). -/
def blocksFor (n : Nat) : Nat := ceilDiv n tpb
def kvPool (s : State) : Nat := (getR s rSRV_KV).toNat
def ctxMax (s : State) : Nat := getF s rSRV_CFG 0 13
/-- Blocks reserved by the admitted streams. -/
def kvReserved (s : State) : Nat := s.serve.rows.foldl (fun a x => a + blocksFor (x.plen + x.maxnew)) 0

/-- The lowest free block of the pool. -/
def kvFree (s : State) : Nat :=
  let used := s.serve.rows.flatMap fun x => x.blocks
  ((List.range (used.length + 1)).find? fun b => !used.contains b).getD 0

/-- Vector 16, or a remote signal to the requester's counter (R397). Which core and generation that signal names, the spec leaves to the requester: free values. -/
def serveTell (s : State) (pkg : Nat) : State :=
  if pkg = ownPkg s then ccPush s 0 (.irq 16)
  else
    let (v, s1) := drawFree s
    ccSigRun s1 0 (getF s1 (rSRV_CFG + 4) 0 6 + 2 ^ 8 * (v.toNat % 256) + 2 ^ 16 * (v.toNat / 256 % 16) + 2 ^ 20 + 2 ^ 36 * pkg + 2 ^ 52)

/-- The bytes of a token record, word 1 before word 0, as stores of CC0 (R397): through the remote window for another package, in its own map for this one, where an
absent core's store and an unmapped address answer as R387 and R386 say. -/
def tokenWrite (s : State) (pkg a w0 w1 : Nat) : State :=
  let p := if pkg = ownPkg s then none else some pkg
  ccPush (ccPush s 0 (.access p (a + 8) 8 (some (leBytes 8 w1)))) 0 (.access p a 8 (some (leBytes 8 w0)))

/-- Records written to a token ring. -/
def ringCount (s : State) (x : Stream) : Nat := mget (fun _ => 0) s.serve.wrote (x.rpkg * 2 ^ 48 + x.taddr)

/-- Whether a token ring is full (R397). A ring that has not been lapped is not; how Bruta learns that the requester has drained a lapped one the spec does not say:
a free value. -/
def ringFull (s : State) (x : Stream) : Bool × State :=
  if ringCount s x < 2 ^ x.tlog then (false, s)
  else
    let (v, s1) := drawFree s
    (decide (v.toNat % 2 = 1), s1)

/-- A record is appended to the requester's token ring. -/
def serveRecord (s : State) (x : Stream) (last : Bool) (reason index token : Nat) : State :=
  let n := ringCount s x
  let size := 2 ^ x.tlog
  let phase := if n / size % 2 = 0 then 1 else 0
  let w0 := phase + (if last then 2 else 0) + 4 * reason + 2 ^ 16 * (index % 2 ^ 13) + 2 ^ 32 * x.reqid
  let s1 := tokenWrite s x.rpkg (x.taddr + 16 * (n % size)) w0 token
  let s2 := { s1 with serve := { s1.serve with wrote := mset (fun _ => 0) s1.serve.wrote (x.rpkg * 2 ^ 48 + x.taddr) (n + 1) } }
  serveTell s2 x.rpkg

/-- A request entry (Table 17-4). -/
def serveEntry (ws : List Nat) : Stream :=
  let w := fun i => ws.getD i 0
  { reqid := bits (w 0) 32 32, plen := bits (w 1) 0 16, maxnew := bits (w 1) 16 16, rpkg := bits (w 1) 32 16, paddr := bits (w 2) 0 48,
    temp := bits (w 3) 0 32, topk := bits (w 3) 32 16, seed := w 4, taddr := bits (w 5) 0 48, tlog := bits (w 6) 0 5, made := 0, last := 0, blocks := [], held := none }

/-- The head of the accepted requests is admitted while a row and its blocks are free (R395). It takes the blocks of its prompt. -/
def serveAdmit (s : State) : Nat → State
  | 0 => s
  | n + 1 =>
    match s.serve.queue with
    | [] => s
    | x :: q =>
      if s.serve.rows.length < getF s rSRV_CFG 16 7 ∧ kvReserved s + blocksFor (x.plen + x.maxnew) ≤ kvPool s then
        let s1 := { s with serve := { s.serve with queue := q, rows := s.serve.rows ++ [x] } }
        let blocks := (List.range (blocksFor x.plen)).foldl (fun (l : List Nat) _ =>
          l ++ [kvFree { s1 with serve := { s1.serve with rows := s1.serve.rows ++ [{ x with blocks := l }] } }]) []
        serveAdmit { s1 with serve := { s1.serve with rows := s.serve.rows ++ [{ x with blocks := blocks }] } } n
      else s

/-- One accepted entry: rejected when it is too large (R395), else queued. -/
def serveAccept (s : State) (x : Stream) : State :=
  if ctxMax s < x.plen + x.maxnew ∨ kvPool s < blocksFor (x.plen + x.maxnew) then
    serveRecord (satF s (rSRV_STAT + 4) 16 16 1) x true 3 0 0
  else { s with serve := { s.serve with queue := s.serve.queue ++ [x] } }

/-- Entries are accepted in ring order up to the first that is not valid (R394); word 0 of each is then 0. One whose bytes are not open to CC0 is left for a later poll. -/
def serveIntake (s : State) : Nat → State
  | 0 => s
  | n + 1 =>
    let a := bits (getR64 s rSRV_REQ) 0 48 + 64 * s.serve.idx
    if firnOpen s a 64 = false ∨ mirWaits s a (leBytes 8 0) then s
    else
      let (s1, bs, bad) := devRead s whoHost 3 a 64
      let ws := (wordsOf bs).map fun w => w.toNat
      if bad ∨ decide (bits (ws.getD 0 0) 0 1 = 1) ≠ s.serve.phase then s1
      else
        let size := 2 ^ getF s1 (rSRV_REQ + 4) 16 5
        let i := (s1.serve.idx + 1) % size
        let s2 := ccPush s1 0 (.access none a 8 (some (leBytes 8 0)))
        let s3 := { s2 with serve := { s2.serve with idx := i, phase := if i = 0 then !s2.serve.phase else s2.serve.phase } }
        serveIntake (serveAccept s3 (serveEntry ws)) n

/-- Whether Bruta serves. -/
def serving (s : State) : Bool := getB s rSRV_CTL 0 && bruta s && ccRuns s 0

/-- SRV_STAT.ACTIVE. -/
def serveCount (s : State) : State := setF s (rSRV_STAT + 4) 0 16 s.serve.rows.length

/-- SRV_REQUEST_POLL (R394, R395): as CC0 is in order, it polls with its earlier stores done. -/
def servePoll (s : State) : State :=
  if serving s ∧ (ccOf s 0).todo = [] then
    let s1 := serveIntake s (2 ^ getF s (rSRV_REQ + 4) 16 5)
    serveCount (serveAdmit s1 (s1.serve.queue.length))
  else s

/-- Replaces a row. -/
def setRow (s : State) (i : Nat) (x : Stream) : State := { s with serve := { s.serve with rows := s.serve.rows.set i x } }

/-- One row takes its token (R395 to R397): the record is appended, or held while the ring is full; a token index at a multiple of TPB takes a block. -/
def serveRow (s : State) (i : Nat) (tok : Option (Nat × Bool)) : State :=
  match s.serve.rows[i]? with
  | none => s
  | some x =>
    match (match x.held with | some h => some h | none => tok) with
    | none => s
    | some (v, stop) =>
      let (full, s1) := ringFull s x
      if full then setRow s1 i { x with held := some (v, stop) }
      else
        let index := x.plen + x.made
        let b := if index % tpb = 0 then x.blocks ++ [kvFree s1] else x.blocks
        let last := stop || decide (x.maxnew ≤ x.made + 1)
        let s2 := serveRecord s1 x last (if stop then 2 else if last then 1 else 0) index v
        let s3 := setR s2 rSRV_STAT (getR s2 rSRV_STAT + 1)
        setRow s3 i { x with made := if last then max x.maxnew (x.made + 1) else x.made + 1, last := v, blocks := b, held := none }

/-- SERVING_STEP (R396): the module is signalled, each row's token is taken, finished rows free their blocks, then intake and admission. -/
def serveStep (s : State) (tokens : List (Nat × Bool)) : State :=
  if serving s = false ∨ (ccOf s 0).todo ≠ [] then s
  else
    let core := Config.serveCore.toNat
    let ctr := Config.serveCounter.toNat
    let s1 := ccSigRun s 0 (ctr + 2 ^ 8 * core + 2 ^ 16 * ctrGen s core ctr + 2 ^ 20)
    let s2 := (List.range s1.serve.rows.length).foldl (fun s i => serveRow s i tokens[i]?) s1
    let s3 := { s2 with serve := { s2.serve with rows := s2.serve.rows.filter fun x => decide (x.made < x.maxnew), step := s2.serve.step + 1 } }
    servePoll (serveCount s3)

-- meanings --------------------------------------------------------------------------------------------------------------------------

/-- CC_TIMER_INTERRUPT (R384). -/
def execCcTimerInterrupt (cc : CcId) (s : State) : Host.Outcome State Fault Refusal := .next (ccTimerRun s cc)
/-- CC_EXTERNAL_INTERRUPT (R390). -/
def execCcExternalInterrupt (cc : CcId) (s : State) : Host.Outcome State Fault Refusal := .next (ccExternalRun s cc)
/-- CC_REMOTE_STORE (R389). -/
def execCcRemoteStore (cc : CcId) (offset : BitVec 40) (data : List Byte) (s : State) : Host.Outcome State Fault Refusal :=
  .next (ccRemoteRun s cc offset.toNat data.length (some data))
/-- CC_REMOTE_LOAD (R389). -/
def execCcRemoteLoad (cc : CcId) (offset : BitVec 40) (len : Nat) (s : State) : Host.Outcome State Fault Refusal := .next (ccRemoteRun s cc offset.toNat len none)
/-- CC_STORE_ACCESS (R387). -/
def execCcStoreAccess (cc : CcId) (addr : BitVec 48) (len : Nat) (data : Option (List Byte)) (s : State) : Host.Outcome State Fault Refusal :=
  .next (ccAccess s cc addr.toNat len data)
/-- OWNER_PROGRAM_EXCEPTION (R399). -/
def execOwnerProgramException (cc : CcId) (cause : BitVec 8) (pc : BitVec 56) (s : State) : Host.Outcome State Fault Refusal :=
  .next (ownerFault s cc cause.toNat pc.toNat)
/-- SRV_REQUEST_POLL (R394). -/
def execSrvRequestPoll (s : State) : Host.Outcome State Fault Refusal := .next (servePoll s)
/-- SERVING_STEP (R396). -/
def execServingStep (tokens : List (BitVec 32 × Bool)) (s : State) : Host.Outcome State Fault Refusal :=
  .next (serveStep s (tokens.map fun t => (t.1.toNat, t.2)))

end Sys2Proof.Machine
end

