-- ==== Sys2Proof/Machine/Diag.lean ====
section
/-! DEFINITION. Release of containments (19_moraine_errors.md, R417), the ledger checker (20_conservation_modes.md, R419 to R427), and trace capture
(chapter 21, R439 to R441). -/

namespace Sys2Proof.Machine

-- release (R417) ---------------------------------------------------------------------------------------------------------

/-- The containments of a die are released: its FAULTED slots may be cleared. -/
def releaseDie (s : State) (d : Nat) : State :=
  (List.range 64).foldl (fun s k => (List.range 4).foldl (fun s t =>
    if (slotOf s (64 * d + k) t).unrel then modSlot s (64 * d + k) t fun x => { x with unrel := false } else s) s) s

/-- MLOG_CTL.RELEASE: it acts only with no first record and a die that is not halted. -/
def mlogCtl (s : State) (d v : Nat) : State :=
  if bits v 0 1 = 0 then s
  else if getB s (rMLOG_FIRST d) 0 || getB s (rMLOG_STAT d) 7 then setF s (rMLOG_STAT d) 8 1 1
  else releaseDie s d

-- the checker (R419, R427) ---------------------------------------------------------------------------------------------------

/-- Sum of a count over a keyed list. -/
def sumBy {α : Type} (l : List (Nat × α)) (f : Nat → α → Nat) : Nat := l.foldl (fun a p => a + f p.1 p.2) 0

/-- Signals of this package that a tracker entry covers. -/
def trkSigs (s : State) : Nat :=
  sumBy s.tracker fun _ e => match e.busy with
    | some (.descWrite _ _ _ _ true, _, _) => 1
    | some (.ccSignal _, _, _) => 1
    | _ => 0

/-- Tokens held, counted in the device's state (Table 20-1). -/
def heldNow (s : State) (q : Nat) : Nat :=
  if q = 0 then sumBy s.cores fun _ k => sumPairs k.credOut + sumPairs k.reclaim
  else if q = 1 then sumBy s.cores fun c k => sumBy k.rings (fun _ r => r.length) + (List.range 16).foldl (fun a e => a + ichRsv s c e) 0
  else if q = 2 then ((s.signals ++ netSigs s).filter fun g => g.own).length + trkSigs s
  else if q = 3 then sumBy s.ports fun _ p => usedTotal p
  else if q = 4 then sumBy s.cores fun _ k => sumBy k.desc fun _ d => (if d.active.isSome then 1 else 0) + (if d.shadow.isSome then 1 else 0)
  else if q = 5 then sumBy s.host.movers fun _ m => m.length
  else if q = 6 then s.mirror.unacked.length
  else if q = 7 then s.firnEnt.length
  else trkInUse s

/-- Whether a quantity satisfies R420, modulo 2^48. -/
def ledgerOk (s : State) (q : Nat) : Bool := ledHeld s q % 2 ^ 48 == heldNow s q % 2 ^ 48

/-- LEDGER_SNAPSHOT (R427). -/
def snapshot (s : State) : State :=
  if getB s rLEDGER_CHK 0 = false ∨ s.pwr.vaux = false then s
  else
    let s1 := setF s rLEDGER_CHK 16 16 (getF s rLEDGER_CHK 16 16 + 1)
    let bad := (List.range 9).foldl (fun a q => if ledgerOk s q then a else a + 2 ^ q) 0
    let was := getF s (rLEDGER_CHK + 4) 0 9
    let s2 := setF s1 (rLEDGER_CHK + 4) 0 9 (was ||| bad)
    if was = 0 ∧ bad ≠ 0 then setR64 s2 rLEDGER_CHK_TB (tbNow s) else s2

-- trace (R439 to R441) ---------------------------------------------------------------------------------------------------------

def trcBase (s : State) (d : Nat) : Nat := bits (getR64 s (rTRC_BUF d)) 21 27 * 2 ^ 21
def trcSize (s : State) (d : Nat) : Nat := bits (getR64 s (rTRC_BUF d)) 48 12
/-- Records that the buffer holds. -/
def trcCap (s : State) (d : Nat) : Nat := trcSize s d * 65536

/-- Whether the buffer lies wholly within one stack of the die (R441). -/
def trcBufOk (s : State) (d : Nat) : Bool :=
  let lo := trcBase s d
  let k := lo / 2 ^ 33
  trcSize s d != 0 && decide (k / 8 = d) && decide ((lo + trcSize s d * 2 ^ 21 - 1) / 2 ^ 33 = k)

def trcBad (s : State) (d : Nat) : State := setF s (rTRC_STAT d + 4) 1 1 1

/-- A write of TRC_CTL: EN only with debug rights, and only over a legal buffer. -/
def trcCtl (s : State) (d v : Nat) (debug : Bool) : State :=
  let s1 := setR s (rTRC_CTL d) (BitVec.ofNat 32 ((v &&& 0xFF_1F02) + getF s (rTRC_CTL d) 0 1))
  if debug = false then s1
  else if bits v 0 1 = 0 then setF s1 (rTRC_CTL d) 0 1 0
  else if trcBufOk s1 d then setF s1 (rTRC_CTL d) 0 1 1
  else trcBad s1 d

/-- A write of a word of TRC_BUF: refused while EN = 1. -/
def trcBuf (s : State) (d off : Nat) (v : BitVec 32) : State :=
  if getB s (rTRC_CTL d) 0 then trcBad s d else setR s off (v &&& (regSpec off).rw)

/-- A write of TRC_MARK. -/
def trcMarkRun (s : State) (d v : Nat) : State := traceRec s d 5 0 0 0 0 v 0

/-- Whether TRC_SLOTS opens a slot. -/
def trcSlotOpen (s : State) (d slot : Nat) : Bool := getB s (rTRC_SLOTS d + 4 * (slot / 32)) (slot % 32)

/-- The records of a packet written at the write pointer. -/
def trcStore (s : State) (d : Nat) (rs : List (List (BitVec 64))) : State :=
  rs.foldl (fun s r =>
    let i := (getR s (rTRC_STAT d)).toNat
    let a := trcBase s d + 32 * (i % max 1 (trcCap s d))
    let s1 := if mirForeign s a 32 then satF s (rMIR_STAT + 4) 0 16 1 else (devWrite s whoHost 3 a (wordBytes r)).1
    setR s1 (rTRC_STAT d) (BitVec.ofNat 32 (i + 1))) s

/-- Whether the DELTAs of 16 records hold their mirror credits (R351): a flit each. -/
def trcCredit (s : State) (d : Nat) : Bool :=
  match mirDelta s (trcBase s d) (List.replicate 32 0) with
  | some k => mirRoom s k && decide (portUsed (portOf s 0) 6 + 16 * flitsOf k ≤ vlAllot 3)
  | none => true

/-- TRACE_PACKET_WRITE (R440): 16 staged records enter an open slot, or are dropped where a scheduled packet holds it. -/
def tracePacket (s : State) (d slot : Nat) (busy : Bool) : State :=
  let staged := traceOf s d
  let stop := getB s (rTRC_CTL d) 1
  if staged.length < 16 ∨ trcSlotOpen s d slot = false ∨ regionUp s (32 + d) = false ∨ (stop && getB s (rTRC_STAT d + 4) 0) = true then s
  else
    let s1 := setTrace s d (staged.drop 16)
    if busy then satF s1 (rTRC_STAT d + 4) 16 16 16
    else if firnOpen s (trcBase s d + 32 * ((getR s (rTRC_STAT d)).toNat % max 1 (trcCap s d))) 512 = false ∨ trcCredit s d = false then s
    else
      let s2 := trcStore s1 d (staged.take 16)
      if stop ∧ (getR s2 (rTRC_STAT d)).toNat % max 1 (trcCap s2 d) = 0 then setF s2 (rTRC_STAT d + 4) 0 1 1 else s2

/-- LEDGER_SNAPSHOT (R427). -/
def execLedgerSnapshot (s : State) : Host.Outcome State Fault Refusal := .next (snapshot s)
/-- TRACE_PACKET_WRITE (R440). -/
def execTracePacketWrite (die : DieId) (slot : BitVec 8) (slotBusy : Bool) (s : State) : Host.Outcome State Fault Refusal :=
  .next (tracePacket s die slot.toNat slotBusy)

end Sys2Proof.Machine
end

