-- ==== Sys2Proof/Machine/Regs.lean ====
section
/-! DEFINITION. Register reads and writes (23_register_map.md): the fields that show other state, the rights of a source, accesses that wait for their
region, the writes with a behaviour of their own, and the rows that are such writes. -/

namespace Sys2Proof.Machine

-- absent units and regions (R279, R306, R313) -------------------------------------------------------------------------------

/-- The die of the absent unit whose block an offset lies in, if any (R279, R455). -/
def absentDie (s : State) (off : Nat) : Option Nat :=
  if 0x100_0000 ≤ off ∧ off < 0x120_0000 then
    let c := (off - 0x100_0000) / 0x1_0000
    if off % 0x1_0000 < 0x8000 ∧ clusterPresent s c = false then some (c / 8) else none
  else if 0x200_0000 ≤ off ∧ off < 0x300_0000 then
    let c := (off - 0x200_0000) / 0x1_0000
    if corePresent s c then none else some (c / 64)
  else none

/-- The clock region that serves a register; none for the blocks of the always-on region and those served in SLEEP (R313). -/
def regRegion (s : State) (off : Nat) : Option Nat :=
  if off < 0x10_0000 ∨ (0x20_0000 ≤ off ∧ off < 0x40_0000) then none
  else if off < 0x10_1000 then some (32 + (off - 0x10_0000) / 0x400)
  else if off < 0x20_0000 then some 32
  else if off < 0x50_0000 then some (32 + (off - 0x40_0000) / 0x4_0000)
  else if 0x100_0000 ≤ off ∧ off < 0x120_0000 then
    let c := (off - 0x100_0000) / 0x1_0000
    let o := off % 0x1_0000
    some (if o < 0x8000 then c else if o < 0x9000 then stackRegion s c else 32 + c / 8)
  else if 0x200_0000 ≤ off ∧ off < 0x300_0000 then some ((off - 0x200_0000) / 0x8_0000)
  else none

/-- Whether a write starts work: TASK_CTL.START or FLOE_CTL.START. -/
def isStart (off v : Nat) : Bool :=
  bits v 0 1 == 1 &&
    ((decide (0x100_0000 ≤ off) && decide (off < 0x120_0000) && decide (0x1000 ≤ off % 0x1_0000) && decide (off % 0x1_0000 < 0x1400) && off % 0x20 == 4) ||
     (decide (0x200_0000 ≤ off) && decide (off < 0x300_0000) && decide (0x200 ≤ off % 0x1_0000) && decide (off % 0x1_0000 < 0x300) && off % 0x40 == 0))

/-- The gated cluster whose cores an access is addressed to, if any (R306): a core's block, or a FLOE_CTL. -/
def gatedFor (s : State) (off : Nat) : Option Nat :=
  let c := if 0x200_0000 ≤ off ∧ off < 0x300_0000 then some ((off - 0x200_0000) / 0x8_0000)
    else if 0x100_0000 ≤ off ∧ off < 0x120_0000 ∧ 0x1000 ≤ off % 0x1_0000 ∧ off % 0x1_0000 < 0x1400 ∧ off % 0x20 = 4 then some ((off - 0x100_0000) / 0x1_0000)
    else none
  match c with
  | some k => if (clusterOf s k).gated then some k else none
  | none => none

-- fields that show other state --------------------------------------------------------------------------------------------------

/-- The hottest of some sensors, and which. -/
def hottest (s : State) (base n : Nat) : Nat × Nat :=
  (List.range n).foldl (fun (a : Nat × Nat) i => if a.1 < tempOf s (base + i) then (tempOf s (base + i), i) else a) (0, 0)

/-- Highest severity with a bit in SEVSEEN (R418). -/
def maxSev (s : State) (d : Nat) : Nat := (List.range 4).foldl (fun a k => if getB s (rMLOG_STAT d) k then k else a) 0
/-- MLOG_STAT.HANDLING (R414). -/
def handling (s : State) (d : Nat) : Bool := getB s (rMLOG_FIRST d) 0 && decide (getF s (rMLOG_SEV_CTL d) 0 2 ≤ getF s (rMLOG_FIRST d) 1 2)
/-- Highest thermal level of any cluster, and THR_L. -/
def maxTh (s : State) : Nat := (List.range 32).foldl (fun a c => max a (clusterOf s c).lth) 0
def thrL (s : State) : Nat := max s.pwr.lpwr (maxTh s)
def anyWarn (s : State) : Bool := (List.range 32).any fun r => getB s (rCLK_STAT r) 9
/-- HOST_STAT.BMEWAIT (R364): Bus Master Enable is 0 while fetches or transfers wait. -/
def bmeWait (s : State) : Bool := !s.host.bme && ((getB s rHRING_SIZE 8 && sessOpen s) || s.host.movers.any fun m => !m.2.isEmpty)

def flag (b : Bool) (k : Nat) : Nat := if b then 2 ^ k else 0

/-- STAT_FLOE of a floe (Table 16-8). -/
def statFloe (s : State) (n : Nat) : Nat :=
  let cl := n / 32
  let f := n % 32
  if clusterPresent s cl = false then 0
  else
    let ms := (floeMembers s cl f).map fun m => slotState s m.1 m.2
    let st := if getB s (rFLOE_DEF cl f) 16 = false then 0
      else match ms with
        | [] => 6
        | a :: r => if a ≠ 0 ∧ r.all (· == a) then a else 6
    getF s (rFLOE_STAT cl f) 0 4 + 16 * st + flag (getB s (rFLOE_STAT cl f) 5) 7

/-- STAT_MLOG of a die. -/
def statMlog (s : State) (d : Nat) : Nat :=
  let sum := classCodes.foldl (fun a c => a + getF s (rMLOG_COUNT d + 4 * (c / 2)) (16 * (c % 2)) 16) 0
  maxSev s d + flag (getB s (rMLOG_FIRST d) 0) 2 + flag (getB s (rMLOG_STAT d) 4) 3 + 256 * getF s (rMLOG_FIRST d) 8 8 + 65536 * min 0xFFFF sum

/-- The status window (R378, Table 16-8). -/
def statusWord (s : State) (o : Nat) : Nat :=
  if o = 0 then
    flag (sessOpen s) 0 + flag (sessDebug s) 1 + 4 * (pwrState s % 4) + flag (pwrBusy s) 4 + flag (getB s (rTB_CTL + 4) 0) 5 + flag (getB s (rTB_CTL + 4) 2) 6 +
      flag (getB s (rTB_CTL + 4) 1) 7 + (List.range 4).foldl (fun a d => a + maxSev s d * 2 ^ (2 * d + 8)) 0 + 2 ^ 16 * thrL s + flag (anyWarn s) 19
  else if o = 8 then tbNow s % 2 ^ 32
  else if o = 0xC then tbNow s / 2 ^ 32
  else if o = 0x10 then getF s rPWR_MEAS 0 13 + 2 ^ 16 * (hottest s 0 36).1 + 2 ^ 24 * (hottest s 64 32).1
  else if 0x18 ≤ o ∧ o < 0x28 then statMlog s ((o - 0x18) / 4)
  else if 0x800 ≤ o ∧ o < 0x1000 then statFloe s ((o - 0x800) / 2) + 65536 * statFloe s ((o - 0x800) / 2 + 1)
  else 0

/-- WAITERS: a slot that is stalled or BLOCKED on what it waits for (R223, Table 09-4); a READY slot that holds its reservation is not. -/
def waitBits (s : State) (c : Nat) (p : Wait → Bool) : Nat :=
  (List.range 4).foldl (fun a t => match (slotOf s c t).wait with
    | some w => a + flag (p w && (slotState s c t == 2 || slotState s c t == 3)) t
    | none => a) 0

/-- State code of a descriptor (Table 10-5). -/
def descCode (x : DescSt) : Nat :=
  match x.active with
  | some a => match a.phase with | .fenced => 1 | .waiting => 2 | .moving => 3
  | none => if x.stopped.isSome then 4 else 0

/-- A word of DBG_V, DBG_S or DBG_A (Table 21-5). -/
def debugWord (s : State) (c o : Nat) : Nat :=
  if o < 0x3000 then bits (vreg s c (getF s (rDBG_VSEL c) 0 5)).toNat (8 * (o - 0x2800)) 32
  else
    let t := (o - 0x3000) / 0x200
    let k := o % 0x200
    if k < 0x100 then bits (sreg s c t (k / 8)).toNat (8 * (k % 8)) 32 else (areg s c t ((k - 0x100) / 4)).toNat

/-- A word of a core's block. -/
def coreWord (s : State) (c off : Nat) : Nat :=
  let o := off % 0x1_0000
  let v := (getR s off).toNat
  if 0x200 ≤ o ∧ o < 0x300 ∧ o % 0x40 = 8 then
    let t := (o - 0x200) / 0x40
    if slotLive s c t then (slotOf s c t).pc % 8192 else v
  else if 0x400 ≤ o ∧ o < 0xA00 then
    let n := (o - 0x400) / 0x20
    if o % 0x20 = 8 then
      v + 2 ^ 8 * waitBits s c (fun w => match w with | .ctr m _ => m == n | _ => false) + flag ((List.range 64).any fun d => (waitsOn s c n d).isSome) 12
    else if o % 0x20 = 0xC then v % 65536 + 65536 * (ctrRsv s c n % 65536)
    else v
  else if 0xA00 ≤ o ∧ o < 0xC00 ∧ o % 0x20 = 8 then
    let e := (o - 0xA00) / 0x20
    v + 4 * (ringOf s c e).length + 2 ^ 14 * waitBits s c fun w => match w with | .ich f => f == e | _ => false
  else if (0x2800 ≤ o ∧ o < 0x2C00) ∨ (0x3000 ≤ o ∧ o < 0x3800 ∧ o % 0x200 < 0x140) then debugWord s c o
  else if 0x5000 ≤ o ∧ o < 0x5200 ∧ o % 8 = 0 then
    let x := descOf s c ((o - 0x5000) / 8)
    v / 256 * 256 + descCode x + flag x.shadow.isSome 3 + (match x.active with | some a => 16 * a.slot | none => 0)
  else v

/-- A word of the power block. -/
def pwrWord (s : State) (off : Nat) : Nat :=
  let v := (getR s off).toNat
  if off = rPWR_STATE then
    v + 2 ^ 24 * thrL s + flag (decide (0 < s.pwr.lpwr)) 28 + flag (decide (0 < maxTh s)) 29 + flag ((List.range 32).any fun c => decide (0 < rampLevel (clusterOf s c))) 30
  else if off = rTHERM_STAT then
    (hottest s 0 36).1 + 2 ^ 8 * (hottest s 0 36).2 + 2 ^ 16 * (hottest s 64 32).1 + 2 ^ 24 * (hottest s 64 32).2 + 2 ^ 29 * maxTh s
  else if off = rMARGIN_STAT then v + flag (anyWarn s) 16
  else if off = rTB_VALUE then tbNow s % 2 ^ 32
  else if off = rTB_VALUE + 4 then tbNow s / 2 ^ 32
  else if rCLK_STAT 0 ≤ off ∧ off < rCLK_STAT 36 ∧ off % 8 = 0 then v + flag (inLegacy s ((off - rCLK_STAT 0) / 8)) 8
  else v

/-- A word of the host block. -/
def hostWord (s : State) (off : Nat) : Nat :=
  let o := off - 0x4_0000
  let v := (getR s off).toNat
  if 0x100 ≤ o ∧ o < 0x200 ∧ o % 0x10 < 8 then
    let q := moverQ s ((o - 0x100) / 0x10)
    if o % 0x10 = 0 then (q.length - 1) + flag (!q.isEmpty) 4
    else match q with | c :: _ => bits (c.words.getD 0 0).toNat 32 32 | [] => 0
  else if off = rHOST_STAT then v + flag (bmeWait s) 9
  else v

/-- A word of the session block. -/
def sessWord (s : State) (off : Nat) : Nat :=
  let v := (getR s off).toNat
  if off = rSESS_LOCK then lockRemain s
  else if off = rLIFECYCLE then lifecycleWord s
  else if off = rBOOT_STAT then v + 2 ^ 8 * s.sec.svn
  else if off = rATTEST_SERIAL then Config.serial.toNat % 2 ^ 32
  else if off = rATTEST_SERIAL + 4 then Config.serial.toNat / 2 ^ 32
  else if rATTEST_PUB ≤ off ∧ off < rATTEST_PUB + 1984 then leNat ((List.range 4).map fun i => Config.attestPub (off - rATTEST_PUB + i))
  else v

/-- A word of the blocks from the moraine to the service complexes. -/
def midWord (s : State) (off : Nat) : Nat :=
  let v := (getR s off).toNat
  if off < 0x10_0000 then (if off % 0x1000 = 0x40 then v + flag (handling s (off / 0x1000 % 0x40)) 5 else v)
  else if off < 0x10_1000 then
    let p := (off - 0x10_0000) / 0x100
    if off % 0x100 = 0x48 then (Config.ownMac p).toNat % 2 ^ 32 else if off % 0x100 = 0x4C then (Config.ownMac p).toNat / 2 ^ 32 else v
  else if off = rFAB_TRK then trkInUse s
  else if 0x20_0000 ≤ off ∧ off < 0x20_0240 ∧ off % 0x40 = 0x18 then heldNow s ((off - 0x20_0000) / 0x40) % 2 ^ 32
  else if 0x20_0000 ≤ off ∧ off < 0x20_0240 ∧ off % 0x40 = 0x1C then heldNow s ((off - 0x20_0000) / 0x40) / 2 ^ 32 % 65536 + v / 65536 * 65536
  else if 0x40_0000 ≤ off ∧ off % 0x4_0000 = 0x100 then getF s rHOST_IRQ_STAT 16 16 * 65536
  else if 0x40_0000 ≤ off ∧ off % 0x4_0000 = 0x104 then (getR s (rHOST_IRQ_STAT + 4)).toNat
  else v

/-- What a 32-bit read of CTLBAR returns (R7, R279, R360), but for the latch of R295. -/
def readReg (s : State) (off : Nat) : BitVec 32 :=
  if (absentDie s off).isSome then 0xDEAD_0FF5
  else BitVec.ofNat 32 (
    if off = rDEV_ID then (devId s).toNat
    else if off = rGRADE_MAP then s.fuses.grade.toNat
    else if off = rSTEPPING then Config.stepping.toNat
    else if off < 0x1_0000 then (getR s off).toNat
    else if off < 0x2_0000 then statusWord s (off - 0x1_0000)
    else if off < 0x4_0000 then sessWord s off
    else if off < 0x8_0000 then hostWord s off
    else if off < 0xC_0000 then pwrWord s off
    else if off < 0x50_0000 then midWord s off
    else if 0x200_0000 ≤ off ∧ off < 0x300_0000 then coreWord s ((off - 0x200_0000) / 0x1_0000) off
    else (getR s off).toNat)

/-- A 32-bit read with its effect: the low half of TB_VALUE latches the upper, and the next read of that half returns the latch (R295). -/
def readEffect (s : State) (off : Nat) : State × BitVec 32 :=
  if off = rTB_VALUE then ({ s with time := { s.time with latch := readReg s (rTB_VALUE + 4), latched := true } }, readReg s off)
  else if off = rTB_VALUE + 4 ∧ s.time.latched then ({ s with time := { s.time with latched := false } }, s.time.latch)
  else (s, readReg s off)

-- writes by block ---------------------------------------------------------------------------------------------------------------------

/-- A write by the access codes of Table 00-4; `debug` gives the rights of a debug session. -/
def plainWrite (s : State) (debug : Bool) (off : Nat) (v : BitVec 32) : State :=
  let p := regSpec off
  let m := if debug then p.rw ||| p.dbg else p.rw
  setR s off ((getR s off &&& ~~~m &&& ~~~(p.w1c &&& v)) ||| (v &&& m))

/-- The 64-bit value that a write of one half of a WO register acts with: the half that it does not cover is 0 (R457). -/
def halfOnly (off v : Nat) : Nat := if off % 8 = 4 then 2 ^ 32 * v else v
/-- The 64-bit value that a write of one half makes of an old one. -/
def halfOf (off v old : Nat) : Nat := if off % 8 = 4 then setBits old 32 32 v else setBits old 0 32 v

/-- A write of DBG_V, DBG_S or DBG_A (R438): served only while no slot that can change the register runs. -/
def debugWrite (s : State) (c o v : Nat) : State :=
  if o < 0x3000 then
    if (runningSlot s c).isSome then s
    else
      let r := getF s (rDBG_VSEL c) 0 5
      setVreg s c r (BitVec.ofNat 8192 (setBits (vreg s c r).toNat (8 * (o - 0x2800)) 32 v))
  else
    let t := (o - 0x3000) / 0x200
    let k := o % 0x200
    if slotState s c t = 2 then s
    else if k < 0x100 then setSreg s c t (k / 8) (BitVec.ofNat 64 (setBits (sreg s c t (k / 8)).toNat (8 * (k % 8)) 32 v))
    else setAreg s c t ((k - 0x100) / 4) (BitVec.ofNat 32 v)

/-- Whether every slot of a core is EMPTY, HALTED or FAULTED (R261, R264). -/
def slotsIdle (s : State) (c : Nat) : Bool := (List.range 4).all fun t => !slotLive s c t

/-- SCL_CTL (R261). -/
def sclCtl (s : State) (c : Nat) (v : BitVec 32) : State :=
  let s1 := plainWrite s false (rSCL_CTL c) v
  if bits v.toNat 1 1 = 0 then s1 else if slotsIdle s1 c then rollAll s1 c else setF s1 (rSCL_CTL c) 2 1 1

/-- Every valid monitor slot is closed, and VALID cleared (R264). -/
def monCloseAll (s : State) (c : Nat) : State :=
  (List.range 256).foldl (fun s l => if getB s (rMON_STAT c l) 0 then setF (monClose1 s c l) (rMON_STAT c l) 0 1 0 else s) s

/-- MON_CTL (R264). -/
def monCtl (s : State) (c : Nat) (v : BitVec 32) : State :=
  let s1 := plainWrite s false (rMON_CTL c) v
  if bits v.toNat 0 1 = 0 then s1 else if slotsIdle s1 c then monCloseAll s1 c else setF s1 (rMON_CTL c) 1 1 1

/-- CTR_CFG (Table 09-1): ADVANCE is ignored while a slot waits on the counter or holds a reservation on it. -/
def ctrCfg (s : State) (c n : Nat) (v : BitVec 32) : State :=
  let s1 := plainWrite s false (rCTR_CFG c n) v
  if bits v.toNat 4 1 = 1 ∧ ctrBusy s1 c n = false then ctrAdvance s1 c n else s1

/-- A write in a core's block. -/
def coreWrite (s : State) (debug : Bool) (c off : Nat) (v : BitVec 32) : State :=
  let o := off % 0x1_0000
  let n := v.toNat
  if o = 0 then coreCtl s c n
  else if 0x200 ≤ o ∧ o < 0x300 ∧ o % 0x40 = 0 then taskCtl s c ((o - 0x200) / 0x40) n
  else if 0x400 ≤ o ∧ o < 0xA00 ∧ o % 0x20 = 0 then grantAll (plainWrite s debug off v) c ((o - 0x400) / 0x20)
  else if 0x400 ≤ o ∧ o < 0xA00 ∧ o % 0x20 = 4 then ctrCfg s c ((o - 0x400) / 0x20) v
  else if 0xA00 ≤ o ∧ o < 0xC00 ∧ o % 0x20 = 4 then ichCtl s c ((o - 0xA00) / 0x20) n
  else if (0x2800 ≤ o ∧ o < 0x2C00) ∨ (0x3000 ≤ o ∧ o < 0x3800 ∧ o % 0x200 < 0x140) then (if debug then debugWrite s c o n else s)
  else if 0x4000 ≤ o ∧ o < 0x5000 then
    let d := rDESC_STAT c ((o - 0x4000) / 0x40)
    setR64 (plainWrite s debug off v) d (setBits (getR64 s d) 16 32 0)
  else if off = rSCL_CTL c then sclCtl s c v
  else if off = rMON_CTL c then monCtl s c v
  else plainWrite s debug off v

/-- A write in a cluster's block. -/
def clusterWrite (s : State) (debug : Bool) (c off : Nat) (v : BitVec 32) : State :=
  let o := off % 0x1_0000
  let f := (o - 0x1000) / 0x20
  if off = rCLK_XCTL c then clkXctl s c v.toNat
  else if 0x1000 ≤ o ∧ o < 0x1400 ∧ o % 0x20 = 0 then floeDef s c f v.toNat
  else if 0x1000 ≤ o ∧ o < 0x1400 ∧ o % 0x20 = 4 then floeCtl s c f v.toNat debug
  else if off = rFIRN_REFRESH c then firnRefresh s c v.toNat
  else plainWrite s debug off v

/-- PWR_REQ (R311): ALLOW belongs to the host. -/
def pwrReqWrite (s : State) (src : Src) (v : BitVec 32) : State :=
  let host := match src with | .host | .ring => true | _ => false
  let s1 := if host then plainWrite s false rPWR_REQ v else s
  if bits v.toNat 3 1 = 1 then pwrRequest s1 src (bits v.toNat 0 3) else s1

/-- A write in the power block. -/
def pwrWrite (s : State) (src : Src) (off : Nat) (v : BitVec 32) : State :=
  let n := v.toNat
  if off = rPWR_REQ then pwrReqWrite s src v
  else if off = rPAD_RELEASE then padRun s n
  else if off = rDVFS_TARGET ∨ off = rDVFS_TARGET + 4 then dvfsWrite s (halfOf off n (getR64 s rDVFS_TARGET))
  else if off = rIVR_LIMIT then
    (List.range 4).foldl lpEval (plainWrite s false off (BitVec.ofNat 32 (setBits n 8 5 (max 1 (min 24 (bits n 8 5))))))
  else if off = rPWR_LIMIT then
    plainWrite s false off (BitVec.ofNat 32 (min 3000 (bits n 0 13) + 65536 * min 3600 (bits n 16 13)))
  else if off = rRST_REQ then (if bits n 3 1 = 1 then rstReq s (bits n 0 3) (bits n 16 10) else s)
  else if off = rTHERM_CFG then plainWrite s false off (BitVec.ofNat 32 (min 105 (bits n 0 8)))
  else if off = rTB_CTL then tbCtlLow s n
  else if off = rTB_VALUE ∨ off = rTB_VALUE + 4 then tbStep s ((halfOf off n (tbNow s) * 2 ^ 32 : Nat) : Int)
  else plainWrite s false off v

def cfgErr (s : State) : State := setF s rHRING_SIZE 9 1 1

/-- HRING_SIZE (R365). -/
def ringSize (s : State) (n : Nat) : State :=
  let on := getB s rHRING_SIZE 8
  let old := getF s rHRING_SIZE 0 5
  let asked := bits n 0 5
  let s1 := if bits n 9 1 = 1 then setF s rHRING_SIZE 9 1 0 else s
  if on then
    let s2 := if asked = old then s1 else cfgErr s1
    setF s2 rHRING_SIZE 8 1 (bits n 8 1)
  else
    let s2 := setF (setF s1 rHRING_SIZE 0 5 (if 6 ≤ asked ∧ asked ≤ 16 then asked else 6)) rHRING_SIZE 8 1 (bits n 8 1)
    -- EN from 0 to 1: both indices 0, both phases 1
    if bits n 8 1 = 1 then setR (setF s2 rHRING_STAT 0 17 0x1_0000) rCTAIL 0 else s2

/-- The low bits that a ring address must have clear. -/
def ringAlign (off : Nat) : Nat := if off = rCRING_HEADPTR then 8 else 4096
def isRingReg (off : Nat) : Bool := off == rHRING_BASE || off == rCRING_BASE || off == rCRING_HEADPTR

/-- HOST_IRQ_EN (R377): an enable that rises over a set bit sends the vector. -/
def irqEn (s : State) (off : Nat) (v : BitVec 32) : State :=
  let base := if off = rHOST_IRQ_EN then 0 else 32
  let rise := v.toNat &&& (getR s (off - 8)).toNat
  let old := (getR s off).toNat
  (List.range 32).foldl (fun s b => if bits rise b 1 = 1 ∧ bits old b 1 = 0 then msix s (base + b) else s) (setR s off v)

/-- A write in the host block. -/
def hostWrite (s : State) (off : Nat) (v : BitVec 32) : State :=
  let n := v.toNat
  if isRingReg (off / 8 * 8) then
    if getB s rHRING_SIZE 8 || (off % 8 == 0 && n % ringAlign off != 0) then cfgErr s else setR s off v
  else if off = rHRING_SIZE then ringSize s n
  else if off = rHRING_POLL then setF s off 0 7 (min 100 (bits n 0 7))
  else if off = rHOST_IRQ_EN ∨ off = rHOST_IRQ_EN + 4 then irqEn s off v
  else plainWrite s false off v

/-- A write in the session block. -/
def sessWrite (s : State) (src : Src) (off : Nat) (v : BitVec 32) : State :=
  let n := v.toNat
  if off = rSESS_CTL then sessCtl s (src == .jtag) n
  else if rSESS_RESPONSE ≤ off ∧ off < rSESS_RESPONSE + 48 then
    { s with sess := { s.sess with resp := mset (fun _ => (0 : BitVec 32)) s.sess.resp ((off - rSESS_RESPONSE) / 4) v } }
  else if off = rLIFECYCLE then lifecycleCtl s n
  else if off = rBOOT_CTL then (if sessOpen s then plainWrite s false off v else noSession s src)
  else if off = rBOOT_PUSH_CTL then pushCtl s n
  else if off = rATTEST_CTL then
    let s1 := plainWrite s false off v
    if bits n 0 1 = 1 then attestReq s1 else s1
  else if rATTEST_NONCE ≤ off ∧ off < rATTEST_NONCE + 32 then (if attestBusy s then s else plainWrite s false off v)
  else if rPROV_KEY ≤ off ∧ off < rPROV_KEY + 96 then
    if s.sec.burning then s
    else { s with sec := { s.sec with provKey := mset (fun _ => (0 : BitVec 32)) s.sec.provKey ((off - rPROV_KEY) / 4) v } }
  else plainWrite s false off v

/-- PKG_ID (R435). -/
def pkgIdRun (s : State) (v : BitVec 32) : State :=
  let s1 := if bits v.toNat 16 1 = 1 then setF s rPKG_ID 16 1 0 else s
  if (List.range 16).any fun p => portState s p != 0 then setF s1 rPKG_ID 16 1 1
  else
    let s2 := setF s1 rPKG_ID 0 16 (bits v.toNat 0 16)
    if fabBadCfg s2 then setF s2 rFAB_ROUTE 24 1 1 else s2

/-- A write in a service complex block. -/
def svcWrite (s : State) (debug : Bool) (d off : Nat) (v : BitVec 32) : State :=
  let o := off % 0x4_0000
  let n := v.toNat
  if o < 0x100 ∧ o % 0x40 = 0 then ccCtl s (4 * d + o / 0x40) n
  else if o < 0x100 ∧ (o % 0x40 = 0x20 ∨ o % 0x40 = 0x24) then ccSigRun s (4 * d + o / 0x40) (halfOnly off n)
  else if o = 0x100 ∨ o = 0x104 then ccHostirqRun s (halfOnly off n)
  else if o = 0x2000 then trcCtl s d n debug
  else if o = 0x2008 ∨ o = 0x200C then trcBuf s d off v
  else if o = 0x2018 then trcMarkRun s d n
  else plainWrite s debug off v

/-- A 32-bit write whose rights and place are settled. -/
def writeWord (s : State) (src : Src) (off : Nat) (v : BitVec 32) : State :=
  let debug := mayDebug s src
  if off = rPKG_ID then pkgIdRun s v
  else if inSessBlock off then sessWrite s src off v
  else if 0x4_0000 ≤ off ∧ off < 0x8_0000 then hostWrite s off v
  else if 0x8_0000 ≤ off ∧ off < 0xC_0000 then pwrWrite s src off v
  else if 0xC_0000 ≤ off ∧ off < 0xC_4000 then
    let d := off / 0x1000 % 0x40
    if off = rMLOG_CTL d then mlogCtl s d v.toNat else setAlert (plainWrite s false off v)
  else if 0x10_0000 ≤ off ∧ off < 0x10_1000 ∧ off % 0x100 = 0 then fabCtl s ((off - 0x10_0000) / 0x100) v.toNat
  else if off = rFAB_ROUTE then
    let s1 := plainWrite s false off v
    if fabBadCfg s1 then setF s1 rFAB_ROUTE 24 1 1 else s1
  else if off = rMIR_CTL then mirCtl s v.toNat
  else if 0x40_0000 ≤ off ∧ off < 0x50_0000 then svcWrite s debug ((off - 0x40_0000) / 0x4_0000) off v
  else if 0x100_0000 ≤ off ∧ off < 0x120_0000 then clusterWrite s debug ((off - 0x100_0000) / 0x1_0000) off v
  else if 0x200_0000 ≤ off ∧ off < 0x300_0000 then coreWrite s debug ((off - 0x200_0000) / 0x1_0000) off v
  else plainWrite s false off v

-- an access as a whole ------------------------------------------------------------------------------------------------------------------

/-- Unit kind and index of an access to an absent register (R279). -/
def srcUnit : Src → Nat × Nat
  | .cc k => (5, k)
  | .jtag => (6, 36)
  | _ => (3, 0)

/-- The 8-byte registers whose write acts on all 64 bits at once. -/
def wideWrite (s : State) (off v : Nat) : Option State :=
  if off = rTB_VALUE then some (tbStep s ((v * 2 ^ 32 : Nat) : Int))
  else if off = rDVFS_TARGET then some (dvfsWrite s v)
  else if off = rBOOT_PUSH_DATA then some (pushData s v)
  else if isRingReg off then
    some (if getB s rHRING_SIZE 8 || v % ringAlign off != 0 then cfgErr s else setR64 s off v)
  else if 0x40_0000 ≤ off ∧ off < 0x50_0000 ∧ off % 0x4_0000 < 0x100 ∧ off % 0x40 = 0x20 then
    some (ccSigRun s (4 * ((off - 0x40_0000) / 0x4_0000) + off % 0x4_0000 / 0x40) v)
  else if 0x40_0000 ≤ off ∧ off < 0x50_0000 ∧ off % 0x4_0000 = 0x100 then some (ccHostirqRun s v)
  else none

/-- Whether a source may write the word at an offset (Table 16-3, R387). -/
def mayWriteAt (s : State) (src : Src) (off : Nat) : Bool :=
  match src with
  | .cc _ => !inSessBlock off
  | _ => inSessBlock off || sessOpen s

/-- A word of a write with its rights (R361). A power request without a session is recorded (R311). -/
def rightsWord (s : State) (src : Src) (off : Nat) (v : BitVec 32) : State :=
  if mayWriteAt s src off then writeWord s src off v
  else if off = rPWR_REQ then noSession (if bits v.toNat 3 1 = 1 then pwrResult s 2 else s) src
  else noSession s src

/-- The write itself: discarded at an absent unit with ABSENT_UNIT (R279); a 64-bit register as a whole; else the lower word first (R458). -/
def regPerform (s : State) (src : Src) (off : Nat) (wide : Bool) (v : Nat) : State :=
  match absentDie s off with
  | some d =>
    if mayWriteAt s src off then
      raiseEv s d { cls := cABSENT, sev := 0, home := 0, ukind := (srcUnit src).1, uindex := (srcUnit src).2, addr := off, detail := 0xFF }
    else noSession s src
  | none =>
    if wide then
      match (if mayWriteAt s src off then wideWrite s off v else none) with
      | some s1 => s1
      | none =>
        let s1 := rightsWord s src off (BitVec.ofNat 32 v)
        if mayWriteAt s src off = false ∧ off ≠ rPWR_REQ then s1 else rightsWord s1 src (off + 4) (BitVec.ofNat 32 (v / 2 ^ 32))
    else rightsWord s src off (BitVec.ofNat 32 v)

/-- A write joins those that wait for their region. -/
def hold (s : State) (src : Src) (off : Nat) (wide : Bool) (v : Nat) : State :=
  { s with pwr := { s.pwr with held := s.pwr.held ++ [⟨src, off, wide, BitVec.ofNat 64 v⟩] } }

/-- Whether a START waits: an entry to SLEEP or DEEP is in progress, or the package is in one (R312). -/
def startsWait (s : State) : Bool := s.pwr.entry.isSome || decide (2 ≤ pwrState s)

/-- Whether the register path to a cluster waits for its crossing's alignment (R287, R288). -/
def crossWaits (s : State) (r : Nat) : Bool :=
  decide (r < 32) && regionUp s r && regionUp s (32 + r / 8) && (regionOf s r).xlat == 0 && (legacyOf s r || regionN s r == regionN s (32 + r / 8))

/-- A write of a source to CTLBAR. It is performed, or waits for its region (R306, R312, R313), or finds the package in DEEP or OFF, where nothing serves it. -/
def regWrite (s : State) (src : Src) (off : Nat) (wide : Bool) (v : Nat) : State :=
  let host : Bool := match src with | .host | .ring => true | _ => false
  if 2 ^ 26 ≤ off ∨ off % (if wide then 8 else 4) ≠ 0 then (if host then satF s (rHOST_STAT + 4) 0 16 1 else s)
  else if s.pwr.vaux = false ∨ s.pwr.off ∨ (pwrState s = 3 ∧ pwrBusy s = false) then s
  else if (absentDie s off).isSome then regPerform s src off wide v
  else match regRegion s off with
    | none => regPerform s src off wide v
    | some r =>
      if mayWriteAt s src off = false then noSession s src
      else if crossWaits s r then hold s src off wide v
      else if regionUp s r = false then
        let s1 := hold s src off wide v
        if host then wakeDetectRun s1 .pcie else s1
      else if startsWait s && (isStart off v || (wide && isStart (off + 4) (v / 2 ^ 32))) then hold s src off wide v
      else match (match gatedFor s off with | some c => some c | none => if wide then gatedFor s (off + 4) else none) with
        | some _ => regPerform (idleWake s .access) src off wide v
        | none => regPerform s src off wide v

/-- A write that waited is performed; DBG_REG then shows that its access is done (R437). -/
def heldWrite (s : State) (h : Held) : State :=
  let s1 := regWrite s h.src h.off h.wide h.val.toNat
  if h.src = .jtag then { s1 with tap := { s1.tap with status := 0 } } else s1

/-- Writes that waited are performed once the package is awake. -/
def flushHeld (s : State) : State :=
  if s.pwr.held.isEmpty ∨ awake s = false then s
  else s.pwr.held.foldl heldWrite { s with pwr := { s.pwr with held := [] } }

/-- Whether a source can make an access: a control core must run. -/
def srcLive (s : State) : Src → Bool
  | .cc k => ccRuns s k
  | _ => true

/-- A register write as a command: the write, then those that waited where it has woken the package. -/
def regTop (s : State) (src : Src) (off : Nat) (wide : Bool) (v : Nat) : State :=
  if srcLive s src = false then s
  else if s.pwr.held.isEmpty && awake s then regWrite s src off wide v
  else flushHeld (regWrite s src off wide v)

end Sys2Proof.Machine
end

