-- ==== Sys2Proof/Machine/Access.lean ====
section
/-! DEFINITION. The rows that are writes of a register with a behaviour of its own (23_register_map.md), and plain writes. Each is one write of CTLBAR with the
rights of its source; fields of the same word that the row does not name are written as they stand. -/

namespace Sys2Proof.Machine

/-- PWR_REQ with REQ = 1 for a target, ALLOW as it stands. -/
def powerAsk (s : State) (target : Nat) : Nat := target + 8 + 256 * getF s rPWR_REQ 8 3
/-- FAB_PORT_CTL as it stands, with EN 0. -/
def fabCtlNow (s : State) (p : Nat) : Nat := getF s (rFAB_CTL p) 1 15 * 2
/-- A 32-bit read of a register, for its effect. -/
def readTop (s : State) (src : Src) (off : Nat) : State :=
  if srcLive s src = false ∨ s.pwr.vaux = false ∨ s.pwr.off ∨ (pwrState s = 3 ∧ pwrBusy s = false) then s else (readEffect s off).1
/-- A write of DBG_V, DBG_S or DBG_A (Table 21-5); no such register lies at any other offset. -/
def debugTop (s : State) (src : Src) (c o : Nat) (wide : Bool) (v : Nat) : State :=
  if (0x2800 ≤ o ∧ o < 0x2C00) ∨ (0x3000 ≤ o ∧ o < 0x3800 ∧ o % 0x200 < 0x140) then regTop s src (coreBase c + o) wide v else s

/-- PWR_REQ for RUN (R311). -/
def execPwrReqRun (src : Src) (s : State) : Host.Outcome State Fault Refusal :=
  .next (regTop s src rPWR_REQ false (powerAsk s 0))

/-- PWR_REQ for IDLE (R311). -/
def execPwrReqIdle (src : Src) (s : State) : Host.Outcome State Fault Refusal :=
  .next (regTop s src rPWR_REQ false (powerAsk s 1))

/-- PWR_REQ for SLEEP (R311). -/
def execPwrReqSleep (src : Src) (s : State) : Host.Outcome State Fault Refusal :=
  .next (regTop s src rPWR_REQ false (powerAsk s 2))

/-- PWR_REQ for DEEP (R311). -/
def execPwrReqDeep (src : Src) (s : State) : Host.Outcome State Fault Refusal :=
  .next (regTop s src rPWR_REQ false (powerAsk s 3))

/-- PWR_REQ for OFF (R311). -/
def execPwrReqOff (src : Src) (s : State) : Host.Outcome State Fault Refusal :=
  .next (regTop s src rPWR_REQ false (powerAsk s 4))

/-- DVFS_TARGET_WRITE (R320). -/
def execDvfsTargetWrite (src : Src) (value : W64) (s : State) : Host.Outcome State Fault Refusal :=
  .next (regTop s src rDVFS_TARGET true value.toNat)

/-- PAD_RELEASE (R316). -/
def execPadRelease (src : Src) (s : State) : Host.Outcome State Fault Refusal :=
  .next (regTop s src rPAD_RELEASE false 1)

/-- GATED_CLUSTER_ACCESS (R306). -/
def execGatedClusterAccess (cluster : ClusterId) (s : State) : Host.Outcome State Fault Refusal :=
  .next (flushHeld (gatedRun s cluster))

/-- CROSSING_ALIGN (R288): what waits for the crossing goes on. -/
def execCrossingAlign (crossing : Crossing) (margin3 : Bool) (s : State) : Host.Outcome State Fault Refusal := .next (flushHeld (align s crossing margin3))

/-- WAKE_DETECT (R313). -/
def execWakeDetect (source : WakeSrc) (s : State) : Host.Outcome State Fault Refusal :=
  .next (flushHeld (wakeDetectRun s source))

/-- WAKE_COMPLETE (R314). -/
def execWakeComplete  (s : State) : Host.Outcome State Fault Refusal :=
  .next (flushHeld (wakeDoneRun s))

/-- WAKE packet (R347). -/
def execWakePacket (port : PortId) (s : State) : Host.Outcome State Fault Refusal :=
  .next (flushHeld (wakePacketRun s port))

/-- RST_REQ, KIND 0 (R432). -/
def execRstFloe (src : Src) (index : BitVec 10) (s : State) : Host.Outcome State Fault Refusal :=
  .next (regTop s src rRST_REQ false (8 + 0 + 65536 * index.toNat))

/-- RST_REQ, KIND 1 (R432). -/
def execRstCore (src : Src) (index : BitVec 10) (s : State) : Host.Outcome State Fault Refusal :=
  .next (regTop s src rRST_REQ false (8 + 1 + 65536 * index.toNat))

/-- RST_REQ, KIND 2 (R432). -/
def execRstCluster (src : Src) (index : BitVec 10) (s : State) : Host.Outcome State Fault Refusal :=
  .next (regTop s src rRST_REQ false (8 + 2 + 65536 * index.toNat))

/-- RST_REQ, KIND 3 (R432). -/
def execRstDie (src : Src) (index : BitVec 10) (s : State) : Host.Outcome State Fault Refusal :=
  .next (regTop s src rRST_REQ false (8 + 3 + 65536 * index.toNat))

/-- RST_REQ, KIND 4 (R432). -/
def execRstPackage (src : Src) (index : BitVec 10) (s : State) : Host.Outcome State Fault Refusal :=
  .next (regTop s src rRST_REQ false (8 + 4 + 65536 * index.toNat))

/-- HRING_ENABLE (R365). -/
def execHringEnable (src : Src) (s : State) : Host.Outcome State Fault Refusal :=
  .next (regTop s src rHRING_SIZE false (256 + getF s rHRING_SIZE 0 5))

/-- HRING_DISABLE (R365). -/
def execHringDisable (src : Src) (s : State) : Host.Outcome State Fault Refusal :=
  .next (regTop s src rHRING_SIZE false (getF s rHRING_SIZE 0 5))

/-- HOST_IRQ_EN_WRITE (R377). -/
def execHostIrqEnWrite (src : Src) (value : W64) (s : State) : Host.Outcome State Fault Refusal :=
  .next (regTop s src rHOST_IRQ_EN true value.toNat)

/-- SESS_REQ (R381). -/
def execSessReq (src : Src) (kind : Bool) (s : State) : Host.Outcome State Fault Refusal :=
  .next (regTop s src rSESS_CTL false (if kind then 9 else 1))

/-- SESS_SUBMIT (R381). -/
def execSessSubmit (src : Src) (s : State) : Host.Outcome State Fault Refusal :=
  .next (regTop s src rSESS_CTL false 2)

/-- SESS_CLOSE (R383). -/
def execSessClose (src : Src) (s : State) : Host.Outcome State Fault Refusal :=
  .next (regTop s src rSESS_CTL false 4)

/-- PROVISION (R407). -/
def execProvision (src : Src) (s : State) : Host.Outcome State Fault Refusal :=
  .next (regTop s src rLIFECYCLE false 0x100)

/-- DBG_UNLOCK (R407). -/
def execDbgUnlock (src : Src) (s : State) : Host.Outcome State Fault Refusal :=
  .next (regTop s src rLIFECYCLE false 0x200)

/-- DBG_LOCK (R407). -/
def execDbgLock (src : Src) (s : State) : Host.Outcome State Fault Refusal :=
  .next (regTop s src rLIFECYCLE false 0x400)

/-- LIFECYCLE_RELEASE (R407). -/
def execLifecycleRelease (src : Src) (s : State) : Host.Outcome State Fault Refusal :=
  .next (regTop s src rLIFECYCLE false 0x800)

/-- BOOT_PUSH_START (R402). -/
def execBootPushStart (src : Src) (s : State) : Host.Outcome State Fault Refusal :=
  .next (regTop s src rBOOT_PUSH_CTL false 1)

/-- BOOT_PUSH_DATA (R402). -/
def execBootPushData (src : Src) (value : W64) (s : State) : Host.Outcome State Fault Refusal :=
  .next (regTop s src rBOOT_PUSH_DATA true value.toNat)

/-- BOOT_PUSH_DONE (R402). -/
def execBootPushDone (src : Src) (s : State) : Host.Outcome State Fault Refusal :=
  .next (regTop s src rBOOT_PUSH_CTL false 2)

/-- ATTEST_REQ (R406). -/
def execAttestReq (src : Src) (s : State) : Host.Outcome State Fault Refusal :=
  .next (regTop s src rATTEST_CTL false 1)

/-- FAB_PORT_ENABLE (R326). -/
def execFabPortEnable (src : Src) (port : PortId) (s : State) : Host.Outcome State Fault Refusal :=
  .next (regTop s src (rFAB_CTL port) false (fabCtlNow s port + 1))

/-- FAB_PORT_DISABLE (R348). -/
def execFabPortDisable (src : Src) (port : PortId) (s : State) : Host.Outcome State Fault Refusal :=
  .next (regTop s src (rFAB_CTL port) false (fabCtlNow s port))

/-- FAB_WAKE_SEND (R347). -/
def execFabWakeSend (src : Src) (port : PortId) (s : State) : Host.Outcome State Fault Refusal :=
  .next (regTop s src (rFAB_CTL port) false (fabCtlNow s port + getF s (rFAB_CTL port) 0 1 + 4))

/-- MIR_CTL_WRITE (R350). -/
def execMirCtlWrite (src : Src) (low high : BitVec 16) (s : State) : Host.Outcome State Fault Refusal :=
  .next (regTop s src rMIR_CTL false (low.toNat + 65536 * high.toNat))

/-- CC_RUN (R391). -/
def execCcRun (src : Src) (cc : CcId) (s : State) : Host.Outcome State Fault Refusal :=
  .next (regTop s src (rCC_CTL cc) false 1)

/-- CC_RESET (R391). -/
def execCcReset (src : Src) (cc : CcId) (s : State) : Host.Outcome State Fault Refusal :=
  .next (regTop s src (rCC_CTL cc) false 2)

/-- CC_SIG (R388). -/
def execCcSig (cc : CcId) (value : W64) (s : State) : Host.Outcome State Fault Refusal :=
  .next (regTop s (.cc cc) (rCC_SIG cc) true value.toNat)

/-- CC_HOSTIRQ (R390). -/
def execCcHostirq (cc : CcId) (value : W64) (s : State) : Host.Outcome State Fault Refusal :=
  .next (regTop s (.cc cc) (rCC_HOSTIRQ (cc / 4)) true value.toNat)

/-- SCL_ROLL (R261). -/
def execSclRoll (src : Src) (core : CoreId) (s : State) : Host.Outcome State Fault Refusal :=
  .next (regTop s src (rSCL_CTL core) false (2 + getF s (rSCL_CTL core) 0 1))

/-- MON_CLOSE (R264). -/
def execMonClose (src : Src) (core : CoreId) (s : State) : Host.Outcome State Fault Refusal :=
  .next (regTop s src (rMON_CTL core) false 1)

/-- MLOG_RELEASE (R417). -/
def execMlogRelease (src : Src) (die : DieId) (s : State) : Host.Outcome State Fault Refusal :=
  .next (regTop s src (rMLOG_CTL die) false 1)

/-- TRC_ENABLE_WRITE (R441). -/
def execTrcEnableWrite (src : Src) (die : DieId) (value : W32) (s : State) : Host.Outcome State Fault Refusal :=
  .next (regTop s src (rTRC_CTL die) false value.toNat)

/-- TRC_BUF_WRITE (R441). -/
def execTrcBufWrite (src : Src) (die : DieId) (value : W64) (s : State) : Host.Outcome State Fault Refusal :=
  .next (regTop s src (rTRC_BUF die) true value.toNat)

/-- TRC_MARK (R439). -/
def execTrcMark (src : Src) (die : DieId) (value : W32) (s : State) : Host.Outcome State Fault Refusal :=
  .next (regTop s src (rTRC_MARK die) false value.toNat)

/-- TASK_START (R133). -/
def execTaskStart (src : Src) (core : CoreId) (slot : SlotId) (s : State) : Host.Outcome State Fault Refusal :=
  .next (regTop s src (rTASK_CTL core slot) false 1)

/-- TASK_CLEAR (Table 05-7). -/
def execTaskClear (src : Src) (core : CoreId) (slot : SlotId) (s : State) : Host.Outcome State Fault Refusal :=
  .next (regTop s src (rTASK_CTL core slot) false 2)

/-- FLOE_START (R191). -/
def execFloeStart (src : Src) (cluster : ClusterId) (floe : FloeId) (s : State) : Host.Outcome State Fault Refusal :=
  .next (regTop s src (rFLOE_CTL cluster floe) false (1 + 4 * getF s (rFLOE_CTL cluster floe) 2 1))

/-- FLOE_CLEAR (R191). -/
def execFloeClear (src : Src) (cluster : ClusterId) (floe : FloeId) (s : State) : Host.Outcome State Fault Refusal :=
  .next (regTop s src (rFLOE_CTL cluster floe) false (2 + 4 * getF s (rFLOE_CTL cluster floe) 2 1))

/-- FLOE_HOLD (R205). -/
def execFloeHold (src : Src) (cluster : ClusterId) (floe : FloeId) (hold : Bool) (s : State) : Host.Outcome State Fault Refusal :=
  .next (regTop s src (rFLOE_CTL cluster floe) false (if hold then 4 else 0))

/-- FLOE_DEF_WRITE (R190). -/
def execFloeDefWrite (src : Src) (cluster : ClusterId) (floe : FloeId) (value : W32) (s : State) : Host.Outcome State Fault Refusal :=
  .next (regTop s src (rFLOE_DEF cluster floe) false value.toNat)

/-- CORE_CTL_WRITE (R139). -/
def execCoreCtlWrite (src : Src) (core : CoreId) (value : W32) (s : State) : Host.Outcome State Fault Refusal :=
  .next (regTop s src (rCORE_CTL core) false value.toNat)

/-- CTR_ADVANCE (Table 09-1). -/
def execCtrAdvance (src : Src) (core : CoreId) (ctr : CtrId) (s : State) : Host.Outcome State Fault Refusal :=
  .next (regTop s src (rCTR_CFG core ctr) false (16 + getF s (rCTR_CFG core ctr) 0 4))

/-- CTR_VALUE_WRITE (R223). -/
def execCtrValueWrite (src : Src) (core : CoreId) (ctr : CtrId) (value : BitVec 16) (s : State) : Host.Outcome State Fault Refusal :=
  .next (regTop s src (rCTR_VAL core ctr) false value.toNat)

/-- ICH_CLOSE (R235). -/
def execIchClose (src : Src) (core : CoreId) (ich : EndId) (s : State) : Host.Outcome State Fault Refusal :=
  .next (regTop s src (rICH_CTL core ich) false 1)

/-- ICH_REOPEN_KEEP (R235). -/
def execIchReopenKeep (src : Src) (core : CoreId) (ich : EndId) (s : State) : Host.Outcome State Fault Refusal :=
  .next (regTop s src (rICH_CTL core ich) false 2)

/-- ICH_REOPEN_FLUSH (R236). -/
def execIchReopenFlush (src : Src) (core : CoreId) (ich : EndId) (s : State) : Host.Outcome State Fault Refusal :=
  .next (regTop s src (rICH_CTL core ich) false 6)

/-- DESC_TEMPLATE_WRITE (R237). -/
def execDescTemplateWrite (src : Src) (core : CoreId) (desc : DescId) (word : Fin 8) (value : W64) (s : State) : Host.Outcome State Fault Refusal :=
  .next (regTop s src (rDESC core desc + 8 * word) true value.toNat)

/-- FIRN_MAP_WRITE (R164). -/
def execFirnMapWrite (src : Src) (stack : StackId) (mode : Bool) (s : State) : Host.Outcome State Fault Refusal :=
  .next (regTop s src (rFIRN_MAP stack) false (if mode then 1 else 0))

/-- FIRN_REFRESH_WRITE (R171). -/
def execFirnRefreshWrite (src : Src) (stack : StackId) (rate : BitVec 2) (s : State) : Host.Outcome State Fault Refusal :=
  .next (regTop s src (rFIRN_REFRESH stack) false rate.toNat)

/-- TB_VALUE_WRITE (R297). -/
def execTbValueWrite (src : Src) (value : W64) (s : State) : Host.Outcome State Fault Refusal :=
  .next (regTop s src rTB_VALUE true value.toNat)

/-- TB_LOW_READ (R295). -/
def execTbLowRead (src : Src) (s : State) : Host.Outcome State Fault Refusal :=
  .next (readTop s src rTB_VALUE)

/-- LEGACY_WRITE (R290). -/
def execLegacyWrite (src : Src) (cluster : ClusterId) (legacy : Bool) (s : State) : Host.Outcome State Fault Refusal :=
  .next (regTop s src (rCLK_XCTL cluster) false (if legacy then 1 else 0))

/-- PKG_ID_WRITE (R435). -/
def execPkgIdWrite (src : Src) (value : W32) (s : State) : Host.Outcome State Fault Refusal :=
  .next (regTop s src rPKG_ID false value.toNat)

/-- DEBUG_REGISTER_WRITE (R438). -/
def execDebugRegisterWrite (src : Src) (core : CoreId) (offset : BitVec 16) (value : W64) (wide : Bool) (s : State) : Host.Outcome State Fault Refusal :=
  .next (debugTop s src core offset.toNat wide value.toNat)

/-- REGISTER_WRITE (Table 00-4). -/
def execRegisterWrite (src : Src) (offset : BitVec 26) (wide : Bool) (value : W64) (s : State) : Host.Outcome State Fault Refusal :=
  .next (regTop s src offset.toNat wide value.toNat)

end Sys2Proof.Machine
end

