-- ==== Sys2Proof/Machine/Engine.lean ====
section
/-! DEFINITION. The events of the engines, counters, channels, descriptors and firn: one meaning for each row, over the operations of the
earlier files. An engine of a core that does not run (R306, R416, R432) does nothing. -/

namespace Sys2Proof.Machine

/-- An event of a core's engines: it comes about only while the core runs. -/
def onCore (s : State) (c : Nat) (f : State → State) : State := if coreRuns s c then f s else s

-- matrix engine, loader and writer (03, 05) ---------------------------------------------------------------------------

/-- TILE_ROW_LOAD (R67). -/
def execTileRowLoad (core : CoreId) (s : State) : Host.Outcome State Fault Refusal := .next (onCore s core (tileRowLoad · core))
/-- TILE_READY (R67). -/
def execTileReady (core : CoreId) (s : State) : Host.Outcome State Fault Refusal := .next (onCore s core (tileReady · core))
/-- WEIGHT_COLUMN_ENTER (R61). -/
def execWeightColumnEnter (core : CoreId) (s : State) : Host.Outcome State Fault Refusal := .next (onCore s core (weightColumnEnter · core))
/-- CHECK_COLUMN_INJECT (R78). -/
def execCheckColumnInject (core : CoreId) (s : State) : Host.Outcome State Fault Refusal := .next (onCore s core (checkColumnInject · core))
/-- ABFT_CHECK (R79). -/
def execAbftCheck (core : CoreId) (s : State) : Host.Outcome State Fault Refusal := .next (onCore s core (abftCheck · core))
/-- DRAIN_COLUMN_EMIT (R70). -/
def execDrainColumnEmit (core : CoreId) (s : State) : Host.Outcome State Fault Refusal := .next (onCore s core (drainColumnEmit · core))
/-- MXE_OP_COMPLETE (R66). -/
def execMxeOpComplete (core : CoreId) (s : State) : Host.Outcome State Fault Refusal := .next (onCore s core (mxeOpComplete · core))
/-- PASS_THROUGH_ITEM_READ (R110). -/
def execPassThroughItemRead (core : CoreId) (s : State) : Host.Outcome State Fault Refusal := .next (onCore s core (passThroughItemRead · core))
/-- VXE_QUEUE_START (R111). -/
def execVxeQueueStart (core : CoreId) (s : State) : Host.Outcome State Fault Refusal := .next (onCore s core (vxeQueueStart · core))
/-- SWR_WRITE_PERFORMED (R112). -/
def execSwrWritePerformed (core : CoreId) (s : State) : Host.Outcome State Fault Refusal := .next (onCore s core (swrWritePerformed · core))

-- counters and channels (09) ----------------------------------------------------------------------------------------------

/-- A unit addressed to a gated cluster's cores waits until the cluster runs (R306). -/
def coreReached (s : State) (c : Nat) : Bool := !(clusterOf s (c / 8)).gated

/-- SIGNAL_APPLY (R214). -/
def execSignalApply (core : CoreId) (s : State) : Host.Outcome State Fault Refusal :=
  .next (if coreReached s core then signalApply s core else s)
/-- MESSAGE_ARRIVE (R225). -/
def execMessageArrive (core : CoreId) (srcPkg : BitVec 16) (srcCore : CoreId) (srcOch : ChanId) (s : State) : Host.Outcome State Fault Refusal :=
  .next (if coreReached s core then messageArrive s core srcPkg.toNat srcCore srcOch else s)
/-- MESSAGE_RETURN (R231). -/
def execMessageReturn (core : CoreId) (och : ChanId) (s : State) : Host.Outcome State Fault Refusal :=
  .next (if coreReached s core then messageReturn s core och else s)
/-- CREDIT_RETURN (R226). -/
def execCreditReturn (core : CoreId) (och : ChanId) (s : State) : Host.Outcome State Fault Refusal :=
  .next (if coreReached s core then creditReturn s core och else s)

-- descriptors and near-bank commands (10, 07) -------------------------------------------------------------------------------

/-- DESC_WAIT_COMPLETE (R243). -/
def execDescWaitComplete (core : CoreId) (desc : DescId) (s : State) : Host.Outcome State Fault Refusal := .next (onCore s core (descWait · core desc))
/-- DESC_REQUEST_ISSUE (R244). -/
def execDescRequestIssue (core : CoreId) (desc : DescId) (s : State) : Host.Outcome State Fault Refusal :=
  .next (onCore s core (descRequestIssue · core desc))
/-- DESC_DATA_WRITE (R245). -/
def execDescDataWrite (core : CoreId) (desc : DescId) (s : State) : Host.Outcome State Fault Refusal := .next (onCore s core (descDataWrite · core desc))
/-- DESC_COMPLETE (R242). -/
def execDescComplete (core : CoreId) (desc : DescId) (s : State) : Host.Outcome State Fault Refusal := .next (onCore s core (descComplete · core desc))
/-- FENCE_RELEASE (R252). -/
def execFenceRelease (core : CoreId) (desc : DescId) (s : State) : Host.Outcome State Fault Refusal := .next (onCore s core (fenceRelease · core desc))
/-- GATHER (R181). -/
def execGather (core : CoreId) (desc : DescId) (s : State) : Host.Outcome State Fault Refusal := .next (onCore s core (gatherRun · core desc))
/-- GATHER_SUM (R182). -/
def execGatherSum (core : CoreId) (desc : DescId) (s : State) : Host.Outcome State Fault Refusal := .next (onCore s core (gatherSumRun · core desc))
/-- KV_FETCH (R183). -/
def execKvFetch (core : CoreId) (desc : DescId) (s : State) : Host.Outcome State Fault Refusal := .next (onCore s core (kvFetchRun · core desc))
/-- EXPAND of 2:4 sparse elements (R184). -/
def execExpandSparse (core : CoreId) (desc : DescId) (s : State) : Host.Outcome State Fault Refusal := .next (onCore s core (expandSparseRun · core desc))
/-- EXPAND of codebook indices (R185). -/
def execExpandCodebook (core : CoreId) (desc : DescId) (s : State) : Host.Outcome State Fault Refusal :=
  .next (onCore s core (expandCodebookRun · core desc))
/-- EXPAND of sparse codebook indices (R185). -/
def execExpandSparseCodebook (core : CoreId) (desc : DescId) (s : State) : Host.Outcome State Fault Refusal :=
  .next (onCore s core (expandBothRun · core desc))

-- firn (07) -----------------------------------------------------------------------------------------------------------------

/-- FIRN_REQUEST_ENTER (R160). -/
def execFirnRequestEnter (stack : StackId) (chan : FirnChan) (port : FirnPort) (s : State) : Host.Outcome State Fault Refusal :=
  .next (firnRequestEnter s stack chan port)
/-- FIRN_READ_RETURN (R167). -/
def execFirnReadReturn (stack : StackId) (chan : FirnChan) (port : FirnPort) (s : State) : Host.Outcome State Fault Refusal :=
  .next (firnReadReturn s stack chan port)
/-- FIRN_WRITE_PERFORMED (R163). -/
def execFirnWritePerformed (stack : StackId) (chan : FirnChan) (port : FirnPort) (s : State) : Host.Outcome State Fault Refusal :=
  .next (firnWritePerformed s stack chan port)
/-- READ_MODIFY_WRITE (R174). -/
def execReadModifyWrite (stack : StackId) (chan : FirnChan) (port : FirnPort) (s : State) : Host.Outcome State Fault Refusal :=
  .next (readModifyWrite s stack chan port)

end Sys2Proof.Machine
end

