-- ==== Sys2Proof/Machine/Loader.lean ====
section
/-! DEFINITION. Bruta's loader (12_turmi_loader.md, R266 to R277, R282): a module's image is parsed, mapped, translated, checked and written. Where the spec leaves a
place to the loader (a firn region, a window) the choice among the legal ones is a free value. -/

namespace Sys2Proof.Machine

/-- The fields of a LOAD that the loader uses (Table 16-4). -/
structure LoadArgs where
  len  : Nat
  rank : Nat
  peer : Nat
  deriving DecidableEq, Repr

/-- Where a module's units lie: virtual to physical clusters, virtual stacks to firn addresses, and PBASE of each task. -/
structure Plan where
  clusters : List (Nat × Nat) := []
  stackMap : List (Nat × Nat) := []
  pbase    : List Nat := []
  draw     : Nat := 0
  deriving DecidableEq, Repr

/-- A value of a keyed list, 0 where there is none. -/
def look (l : List (Nat × Nat)) (k : Nat) : Nat := ((l.find? fun p => p.1 == k).map fun p => p.2).getD 0

/-- The physical core of a virtual core (R270). -/
def physCore (p : Plan) (v : Nat) : Nat := 8 * look p.clusters (v / 8) + v % 8

/-- A free choice among legal values. -/
def choose (draw : Nat) (l : List Nat) : Option Nat := l[(Config.freeValue draw).toNat % max 1 l.length]?

-- step 1: parse (R266) --------------------------------------------------------------------------------------------------------

/-- The number that n bytes from an offset spell, little-endian. -/
def leAt (bs : List Byte) (o n : Nat) : Nat := leNat ((bs.drop o).take n)

/-- The first n pieces of `size` bytes. -/
def pieces (size : Nat) : Nat → List Byte → List (List Byte)
  | 0, _ => []
  | n + 1, bs => bs.take size :: pieces size n (bs.drop size)

/-- An entry of the section table (R266). -/
structure Sect where
  typ   : Nat
  pad   : Nat
  off   : Nat
  size  : Nat
  count : Nat
  deriving DecidableEq, Repr

def sectOf (e : List Byte) : Sect := ⟨leAt e 0 2, leAt e 2 2, leAt e 4 4, leAt e 8 4, leAt e 12 4⟩

/-- Bytes of a record (Table 12-2); 0 for DATA, whose records vary. -/
def recSize (typ : Nat) : Nat := ([0, 4, 8, 32, 16, 16, 16, 64, 2048, 4, 4, 0, 8] : List Nat).getD typ 0

/-- A Turmi operation (Table 12-3). `qin` and `qout` index the module's queue ends; 0xFFFF is none. -/
structure TurmiOp where
  top   : Nat
  delta : Nat
  qin   : Nat
  qout  : Nat
  args  : Nat
  deriving DecidableEq, Repr

def turmiOp (r : List Byte) : TurmiOp := ⟨leAt r 0 2, leAt r 2 2, leAt r 4 2, leAt r 6 2, leAt r 8 8⟩

/-- A relocation entry (R273). -/
structure Reloc where
  site : Nat
  sec  : Nat
  kind : Nat
  arg  : Nat
  deriving DecidableEq, Repr

def relocOf (r : List Byte) : Reloc := ⟨leAt r 0 4, leAt r 4 1, leAt r 5 1, leAt r 6 2⟩

/-- A module as parsed: header fields, the section table, operations by CODE section, templates with their section, index and 512 bits, INJ_TAB images, relocations, and
the other records. -/
structure Module extends TurmiRecs where
  target : Nat
  tver   : Nat
  sects  : List Sect
  code   : List (Nat × List TurmiOp)
  temps  : List (TurmiDesc × Nat × Nat × Nat)
  tables : List (Nat × List Byte)
  relocs : List Reloc
  deriving DecidableEq, Repr

/-- The records of the sections of a type, each with the index of its section and its own in that section. -/
def recordsOf (img : List Byte) (ss : List Sect) (typ : Nat) : List (Nat × Nat × List Byte) :=
  (ss.zipIdx.filter fun x => x.1.typ == typ).flatMap fun x => (pieces (recSize typ) x.1.count (img.drop x.1.off)).zipIdx.map fun r => (x.2, r.2, r.1)

/-- The module that an image and its records spell. -/
def moduleOf (img : List Byte) (recs : TurmiRecs) : Module :=
  let ss := (pieces 16 (leAt img 6 2) (img.drop (leAt img 8 4))).map sectOf
  { recs with
    target := leAt img 4 1, tver := leAt img 5 1, sects := ss,
    code := (ss.zipIdx.filter fun x => x.1.typ == 4).map fun x => (x.2, (pieces 16 x.1.count (img.drop x.1.off)).map turmiOp),
    temps := (recs.descs.zip (recordsOf img ss 7)).map fun x => (x.1, x.2.1, x.2.2.1, leNat x.2.2.2),
    tables := (recs.routes.zip (recordsOf img ss 8)).map fun x => (x.1, x.2.2.2),
    relocs := (recordsOf img ss 12).map fun x => relocOf x.2.2 }

/-- The operations of a CODE section. -/
def codeOf (m : Module) (sec : Nat) : List TurmiOp := ((m.code.find? fun x => x.1 == sec).map fun x => x.2).getD []

/-- Whether the header and the section table are well formed (R266, R376): the table lies in the module, and every section, of a known type, in whole records. -/
def imageOk (img : List Byte) (len : Nat) : Bool :=
  let size := leAt img 0xC 4
  let n := leAt img 6 2
  let tab := leAt img 8 4
  decide (32 ≤ img.length) && leAt img 0 4 == 0x494D_5254 && (leAt img 4 1 == 2 || leAt img 4 1 == 4) && decide (1 ≤ leAt img 5 1) && decide (leAt img 5 1 ≤ 3) &&
    decide (1 ≤ n) && decide (n ≤ 64) && tab % 16 == 0 && leAt img 0x10 16 == 0 && decide (size ≤ len) && decide (size ≤ img.length) && decide (tab + 16 * n ≤ size) &&
    ((pieces 16 n (img.drop tab)).map sectOf).all fun x =>
      decide (1 ≤ x.typ) && decide (x.typ ≤ 12) && x.pad == 0 && decide (x.off + x.size ≤ size) && (x.typ == 11 || x.size == x.count * recSize x.typ)

/-- Whether a virtual core is one that a VCL record declares. -/
def declared (m : Module) (v : Nat) : Bool := m.vcl.any fun x => x.1 == v / 8 && bits x.2 (v % 8) 1 == 1
def declaredCl (m : Module) (v : Nat) : Bool := m.vcl.any fun x => x.1 == v

/-- Virtual cores that a queue end names, with its counters and ends in range. -/
def qendOk (m : Module) : QEnd → Bool
  | .flow => true
  | .streamConsumer a b p n => decide (a < 48) && decide (b < 48) && declared m p && decide (1 ≤ n) && decide (n < 65536)
  | .streamProducer d b n => decide (d < 64) && decide (b < 48) && decide (1 ≤ n) && decide (n < 65536)
  | .recv e sd => decide (e < 16) && decide (sd < 32)
  | .send o h x l => decide (o < 64) && decide (h < 64) && decide (x < 32) && decide (l < 8)
  | .tokenPop c k => decide (c < 48) && decide (k < 65536)
  | .tokenPush c k v => decide (c < 48) && decide (k < 65536) && declared m v

/-- The width of a relocated field (Table 12-5); that of KIND 8, which the table does not give, is a byte (DESIGN CHOICE, entry 74). -/
def relocWidth (kind : Nat) : Nat := ([0, 48, 21, 48, 8, 4, 12, 16, 8] : List Nat).getD kind 0

def typeAt (m : Module) (sec : Nat) : Nat := ((m.sects[sec]?).map Sect.typ).getD 0

/-- The lowest bit of a relocated field in its template, or in the ARGS of its operation (R273): the field of the native form that begins in the byte that SITE names;
CORE and GEN of a SIGC begin within one (Table 06-3). -/
def relocLo (m : Module) (r : Reloc) : Nat :=
  if typeAt m r.sec = 7 then r.site % 64 * 8
  else
    let sig := ((codeOf m r.sec)[r.site / 16]?.map TurmiOp.top) == some 0x61
    (r.site % 16 - 8) * 8 + (if sig ∧ r.kind = 4 then 1 else if sig ∧ r.kind = 5 then 4 else 0)

/-- Whether a relocation names a unit that the module declares and a field of a CODE or DESC section (R273). -/
def relocOk (m : Module) (r : Reloc) : Bool :=
  let ty := typeAt m r.sec
  decide (1 ≤ r.kind) && decide (r.kind ≤ 8) && decide (r.site < ((m.sects[r.sec]?).map Sect.size).getD 0) &&
    (if ty = 7 then decide (relocLo m r + relocWidth r.kind ≤ 512)
     else ty == 4 && decide (8 ≤ r.site % 16) && decide (relocLo m r + relocWidth r.kind ≤ 48)) &&
    (if r.kind = 1 then m.vstk.any fun x => x.vstk == r.arg
     else if r.kind = 8 then declaredCl m r.arg
     else if r.kind = 3 ∨ r.kind = 4 ∨ r.kind = 5 then declared m r.arg else true)

/-- Records of a type in the section table. -/
def countOf (m : Module) (typ : Nat) : Nat := (m.sects.filter fun x => x.typ == typ).foldl (fun a x => a + x.count) 0

/-- Whether the records are well formed (R266, R271): as many of each type as the sections count, and their fields in range. -/
def recordsOk (m : Module) : Bool :=
  ([(1, m.vcl.length), (2, m.vstk.length), (3, m.tasks.length), (5, m.qends.length), (6, m.och.length + m.ich.length), (7, m.descs.length), (8, m.routes.length),
      (9, m.floes.length), (10, m.ccfg.length), (11, m.data.length)].all fun x => countOf m x.1 == x.2) &&
    (m.vcl.all fun x => decide (x.1 < 32) && decide (x.2 < 256)) &&
    (m.vstk.all fun x => decide (x.vstk < 32) && (!x.bound || declaredCl m x.vstk)) &&
    (m.tasks.all fun t => declared m t.vcore && decide (t.slot < 4) && decide (t.lo ≤ t.hi) && decide (t.entry < (codeOf m t.code).length)) &&
    (m.code.all fun x => x.2.all fun o => decide (o.args < 2 ^ 48) && (o.qin == 0xFFFF || decide (o.qin < m.qends.length)) &&
      (o.qout == 0xFFFF || decide (o.qout < m.qends.length))) &&
    m.qends.all (qendOk m) &&
    (m.och.all fun o => declared m o.vcore && decide (o.och < 64) && decide (o.ich < 16) && decide (o.rplyEnd < 16) && declared m o.dcore) &&
    (m.ich.all fun e => declared m e.vcore && decide (e.ich < 16) && decide (e.owner < 4)) &&
    (m.descs.all fun d => declared m d.vcore && decide (d.desc < 64)) &&
    (m.routes.all fun r => declaredCl m r) &&
    (m.floes.all fun f => declaredCl m f.1 && decide (f.2.1 < 32) && decide (f.2.2.1 < 256) && decide (f.2.2.2.1 < 4)) &&
    (m.ccfg.all fun c => declared m c.1 && decide (c.2.1 < 48) && decide (c.2.2.1 < 4)) &&
    (m.data.all fun d => m.vstk.any fun x => x.vstk == d.1) &&
    m.relocs.all (relocOk m)

-- step 2: map (R270 to R272) -------------------------------------------------------------------------------------------------------

/-- Virtual clusters in ascending order, of one virtual die. -/
def vclOf (m : Module) (d : Nat) : List Nat := (List.range 8).filterMap fun i => if declaredCl m (8 * d + i) then some (8 * d + i) else none
def allVcl (m : Module) : List Nat := (List.range 4).flatMap fun d => vclOf m d

/-- R270. -/
def mapClusters (s : State) (m : Module) (map : Option (List Nat)) : Except Nat (List (Nat × Nat)) :=
  match map with
  | some bytes =>
    let ps := (allVcl m).map fun v => (v, bytes.getD v 0xFF)
    if (ps.all fun p => decide (p.2 < 32) && p.2 / 8 == p.1 / 8 && clusterPresent s p.2) && (ps.map fun p => p.2).eraseDups.length == ps.length then .ok ps
    else .error 2
  | none =>
    let on := fun (d : Nat) => ((List.range 8).map fun i => 8 * d + i).filter fun c => clusterPresent s c
    if (List.range 4).all fun d => decide ((vclOf m d).length ≤ (on d).length) then .ok ((List.range 4).flatMap fun d => (vclOf m d).zip (on d))
    else .error 2

/-- The physical stacks of the virtual stacks (R271). -/
def mapStacks (m : Module) (cl : List (Nat × Nat)) : Option (List (TurmiStack × Nat)) :=
  let bound := (m.vstk.filter fun x => x.bound).map fun x => (x, look cl x.vstk)
  let used := bound.map fun p => p.2
  let free := (List.range 4).map fun d =>
    let vs := ((List.range 8).map fun i => 8 * d + i).filterMap fun v => m.vstk.find? fun x => x.vstk == v && !x.bound
    let ks := ((List.range 8).map fun i => 8 * d + i).filter fun k => !used.contains k
    (vs, ks)
  if free.all fun p => decide (p.1.length ≤ p.2.length) then some (bound ++ free.flatMap fun p => p.1.zip p.2) else none

/-- Bases of a region in a stack: multiples of 2 MiB that meet no other region and not what Bruta reserves (R271, R393). -/
def regionBases (k size : Nat) (taken : List (Nat × Nat)) : List Nat :=
  (List.range 4096).filterMap fun i =>
    let a := firnBase k + i * 2 ^ 21
    if i * 2 ^ 21 + size ≤ (if k = 0 then imageBase else 2 ^ 33) ∧ (taken.all fun t => decide (t.1 + t.2 ≤ a) || decide (a + size ≤ t.1)) = true then some a else none

/-- Regions for the stacks, in order. -/
def placeStacks (s : State) : List (TurmiStack × Nat) → List (Nat × Nat) → Nat → List (Nat × Nat) → Except Nat (List (Nat × Nat) × Nat)
  | [], _, draw, out => .ok (out, draw)
  | (x, k) :: rest, taken, draw, out =>
    if getF s (rFIRN_MAP k) 0 1 ≠ x.mode then .error 9
    else match choose draw (regionBases k x.bytes taken) with
      | none => .error 9
      | some a => placeStacks s rest ((a, x.bytes) :: taken) (draw + 1) ((x.vstk, a) :: out)

/-- Windows of a core that its resident tasks hold (R272). -/
def heldPages (s : State) (c : Nat) : List (Nat × Nat) :=
  (List.range 4).filterMap fun t => if slotState s c t = 0 then none else some (getF s (rTASK_SPWIN c t) 0 9, getF s (rTASK_SPWIN c t) 16 9)

/-- Whether pages lo + p to hi + p lie in the store and meet none of some windows. -/
def pagesFit (taken : List (Nat × Nat)) (lo hi p : Nat) : Bool := decide (hi + p ≤ 0x1FF) && taken.all fun w => decide (hi + p < w.1) || decide (w.2 < lo + p)

/-- Whether windows of tasks fit beside others, in some order each at the lowest place: if any placement exists, one in that form does. -/
def canPlace (taken : List (Nat × Nat)) : Nat → List (Nat × Nat) → Bool
  | 0, l => l.isEmpty
  | n + 1, l => l.isEmpty || l.zipIdx.any fun x =>
      match (List.range 512).find? fun p => pagesFit taken x.1.1 x.1.2 p with
      | some p => canPlace ((x.1.1 + p, x.1.2 + p) :: taken) n (l.eraseIdx x.2)
      | none => false

/-- PBASE of each task (R272): a free choice among those that leave a place to every later task of the core. -/
def placePages (s : State) (p : Plan) : List TurmiTask → List (Nat × Nat × Nat) → Nat → List Nat → Except Nat (List Nat × Nat)
  | [], _, draw, out => .ok (out, draw)
  | t :: rest, taken, draw, out =>
    let c := physCore p t.vcore
    let held := heldPages s c ++ (taken.filter fun w => w.1 == c).map fun w => w.2
    let later := (rest.filter fun u => u.vcore == t.vcore).map fun u => (u.lo, u.hi)
    let k := (Config.freeValue draw).toNat % 512
    match ((List.range 512).map fun i => (k + i) % 512).find? fun b => pagesFit held t.lo t.hi b && canPlace ((t.lo + b, t.hi + b) :: held) later.length later with
    | none => .error 3
    | some b => placePages s p rest ((c, t.lo + b, t.hi + b) :: taken) (draw + 1) (out ++ [b])

-- step 3: relocation (R273) -----------------------------------------------------------------------------------------------------------

/-- GEN of a counter once the loader has advanced those that CCFG assigns (R275). -/
def genAfter (s : State) (m : Module) (p : Plan) (c n : Nat) : Nat :=
  if m.ccfg.any fun x => physCore p x.1 == c && x.2.1 == n then (ctrGen s c n + 1) % 16 else ctrGen s c n

/-- PBASE of the first task on a virtual core. -/
def pbaseOf (m : Module) (p : Plan) (v : Nat) : Nat := (((m.tasks.zip p.pbase).find? fun x => x.1.vcore == v).map fun x => x.2).getD 0

/-- The value of a relocated field (Table 12-5); `own` is PBASE of the site's own task and `ctr` the counter that the site names. ARG 0 of KIND 7 is the package
itself, another ARG the peer. -/
def relocValue (s : State) (m : Module) (p : Plan) (a : LoadArgs) (own old ctr : Nat) (r : Reloc) : Nat :=
  let core := physCore p r.arg
  if r.kind = 1 then look p.stackMap r.arg + old
  else if r.kind = 2 then old + own * 4096
  else if r.kind = 3 then storeBase core + pbaseOf m p r.arg * 4096 + old
  else if r.kind = 4 then core
  else if r.kind = 5 then genAfter s m p core ctr
  else if r.kind = 6 then old + a.rank
  else if r.kind = 7 then (if r.arg = 0 then ownPkg s else a.peer)
  else look p.clusters r.arg

/-- The relocations of one site applied to its bits; a value that does not fit is refused with RELOC. -/
def patch (s : State) (m : Module) (p : Plan) (a : LoadArgs) (own : Nat) (ctr : Nat → Nat) : List Reloc → Nat → Except Nat Nat
  | [], w => .ok w
  | r :: rest, w =>
    let n := relocWidth r.kind
    let v := relocValue s m p a own (bits w (relocLo m r) n) (ctr w) r
    if v < 2 ^ n then patch s m p a own ctr rest (setBits w (relocLo m r) n v) else .error 6

-- step 3: translation (R267, R268) --------------------------------------------------------------------------------------------------------

/-- A word at a floe cycle, with the operation that it is the main word of. -/
abbrev Placed := Nat × Nat × Option Nat

def mkWord (op args : Nat) : Nat := op * 2 ^ 48 + args
def mkWaitc (c k : Nat) : Nat := mkWord 0x60 (c * 2 ^ 42 + k)
/-- A SIGC to a counter of a virtual core. -/
def mkSigc (s : State) (m : Module) (p : Plan) (c k v : Nat) : Nat :=
  let core := physCore p v
  mkWord 0x61 (c * 2 ^ 42 + core * 2 ^ 33 + genAfter s m p core c * 2 ^ 28 + k)

/-- The main word of an operation: FLOW ends put 32 into a source and into VD. -/
def flowArgs (m : Module) (o : TurmiOp) (args : Nat) : Nat :=
  let w := mkWord o.top args
  let a := if m.qends[o.qin]? = some .flow ∧ isVec w ∧ vVA w ≠ 32 ∧ vVB w ≠ 32 ∧ vVC w ≠ 32 then setBits args 36 6 32 else args
  if m.qends[o.qout]? = some .flow ∧ isVec w then setBits a 42 6 32 else a

/-- The words of one operation at floe cycle c (Table 12-4). -/
def opWords (s : State) (m : Module) (p : Plan) (i c : Nat) (o : TurmiOp) (args : Nat) : Except Nat (List Placed) :=
  let pop := m.qends[o.qin]?
  let main : Except Nat Nat :=
    if o.top = 0x100 then
      match pop with
      | some (.streamConsumer _ freed prod _) => .ok (mkSigc s m p freed 1 prod)
      | _ => .error 8
    else if o.top < 0x100 then .ok (mkWord o.top (flowArgs m o args)) else .error 8
  let before : Except Nat (List Placed) :=
    match pop with
    | none | some .flow => .ok []
    | some (.streamConsumer filled _ _ _) => if o.top = 0x100 then .ok [] else if c = 0 then .error 7 else .ok [(c - 1, mkWaitc filled 1, none)]
    | some (.recv e sd) => .ok [(c, mkWord 0x71 (e * 2 ^ 44 + sd * 2 ^ 39), none)]
    | some (.tokenPop n k) => .ok [(c, mkWaitc n k, none)]
    | some _ => .error 8
  let after : Except Nat (List Placed) :=
    match m.qends[o.qout]? with
    | none | some .flow => .ok []
    | some (.streamProducer d _ _) => .ok [(c, mkWord 0x72 d, none)]
    | some (.send och h x l) => .ok [(c, mkWord 0x70 (och * 2 ^ 42 + h * 2 ^ 36 + x * 2 ^ 31 + l * 2 ^ 28), none)]
    | some (.tokenPush n k v) => .ok [(c, mkSigc s m p n k v, none)]
    | some _ => .error 8
  match main, before, after with
  | .ok w, .ok b, .ok e => .ok (b ++ [(c, w, some i)] ++ e)
  | .error x, _, _ => .error x
  | _, .error x, _ => .error x
  | _, _, .error x => .error x

/-- The words of the operations from an index and a floe cycle onward. -/
def bodyWords (s : State) (m : Module) (p : Plan) (a : LoadArgs) (t : TurmiTask) (own : Nat) : List TurmiOp → Nat → Nat → Except Nat (List Placed)
  | [], _, _ => .ok []
  | o :: rest, i, c =>
    match patch s m p a own synCtr (m.relocs.filter fun r => r.sec == t.code && r.site / 16 == i) o.args with
    | .error x => .error x
    | .ok args =>
      match opWords s m p i (c + o.delta) o args, bodyWords s m p a t own rest (i + 1) (c + o.delta) with
      | .ok x, .ok y => .ok (x ++ y)
      | .error x, _ => .error x
      | _, .error x => .error x

/-- Inserts a word in the order of its cycle; a word that must end its group goes last in it (R115). -/
def placeWord (x : Placed) : List Placed → List Placed
  | [] => [x]
  | y :: r => if x.1 < y.1 ∨ (x.1 = y.1 ∧ endsGroup (wOp y.2.1) = true) then x :: y :: r else y :: placeWord x r
def sortWords (l : List Placed) : List Placed := l.foldl (fun a x => placeWord x a) []

/-- Whether a cycle has room for a word: its unit is free, and the group has fewer than four words (R114). -/
def cycleFree (l : List Placed) (w c : Nat) : Bool := !(l.any fun x => x.1 == c && wUnit x.2.1 == wUnit w) && decide ((l.filter fun x => x.1 == c).length < 4)

/-- Words put, in order, on the first of the given cycles that the module leaves free on their units (R268); the last of those cycles also comes back. -/
def fillFree (cs : List Nat) : List Nat → List Placed → Nat → Except Nat (List Placed × Nat)
  | [], l, z => .ok (l, z)
  | w :: ws, l, z =>
    match cs.find? (cycleFree l w) with
    | none => .error 7
    | some c => fillFree cs ws (placeWord (c, w, none) l) (max z (c + 1))

/-- The words that a task's stream ends add (Table 12-4): those of its prologue, and the epilogue's, each with the cycle of the last push of its link. -/
def linkWords (s : State) (m : Module) (p : Plan) (ops : List TurmiOp) (body : List Placed) : List Nat × List (Nat × Nat) :=
  let ins : List (Nat × Nat × Nat) := (ops.filterMap fun (o : TurmiOp) =>
    (match m.qends[o.qin]? with | some (.streamConsumer _ f v b) => some (f, v, b) | _ => none : Option (Nat × Nat × Nat))).eraseDups
  let outs : List (Nat × Nat × Nat) := (ops.filterMap fun (o : TurmiOp) =>
    (match m.qends[o.qout]? with | some (.streamProducer d f b) => some (d, f, b) | _ => none : Option (Nat × Nat × Nat))).eraseDups
  (ins.map fun x => mkSigc s m p x.1 x.2.2 x.2.1,
   outs.map fun x => (((body.filter fun y => y.2.1 == mkWord 0x72 x.1).map fun y => y.1).foldl max 0, mkWaitc x.2.1 x.2.2))

/-- The epilogue before HALT: each WAITC on the last free cycle after the last push of its link (R267, Table 12-4). -/
def epilogue (halt : Nat) : List (Nat × Nat) → List Placed → Except Nat (List Placed)
  | [], l => .ok l
  | (after, w) :: r, l =>
    match fillFree (((List.range halt).filter fun c => decide (after < c)).reverse) [w] l 0 with
    | .error x => .error x
    | .ok (l1, _) => epilogue halt r l1

def isSwitch (w : Nat) : Bool := wOp w == .waitc || wOp w == .recv || wOp w == .yieldW
def isGo (w : Nat) : Bool := wOp w == .sldgo || wOp w == .mxgo || wOp w == .swrgo

/-- The staging registers that a GO latches (R149, Table 06-4), each as the OP of its configuration word and its REG. -/
def goRegs (go : Nat) : List (Nat × Nat) :=
  match wOp go with
  | .sldgo =>
    (if sldKind go = 0 then [0x00, 0x01, 0x02, 0x08, 0x09, 0x0A, 0x0B, 0x0C, 0x0D, 0x10, 0x11, 0x12, 0x13, 0x14, 0x15, 0x18, 0x19, 0x1A, 0x1B, 0x1C, 0x1D]
     else [0x20, 0x21, 0x24, 0x25, 0x26, 0x28, 0x29, 0x2A]).map fun r => (0x10, r)
  | .mxgo => (0x10, 0x30) :: [0x00, 0x01, 0x02, 0x03, 0x04].map fun r => (0x20, r)
  | .swrgo => [0x00, 0x01, 0x04, 0x05, 0x06, 0x08, 0x09, 0x0A].map fun r => (0x30, r)
  | _ => []

/-- Whether a word writes a staging register. -/
def writesReg (k : Nat × Nat) (w : Nat) : Bool := wOP w == k.1 && cfgReg w == k.2

/-- Whether two words are GOs that latch the same registers. -/
def sameGo (a b : Nat) : Bool := isGo a && goRegs a == goRegs b

/-- The bodies of the loops around a cycle, innermost first: the cycles of their LOOP and ENDL, which ENDIDX names as an operation. -/
def loopsAround (l : List Placed) (go : Nat) : List (Nat × Nat) :=
  ((l.filter fun x => wOp x.2.1 == .loop && decide (x.1 < go)).filterMap fun x =>
    match l.find? fun y => y.2.2 == some (loopEndidx x.2.1) with
    | some y => if go < y.1 then some (x.1, y.1) else none
    | none => none).reverse

/-- The cycle after which a GO's registers are emitted, where it is the first of its kind after a switch point (R268): the switch point, or the LOOP whose body comes
round to the GO after one. -/
def goAfter (l : List Placed) (go : Placed) : Option Nat :=
  let mark := fun (x : Placed) => isSwitch x.2.1 || sameGo x.2.1 go.2.1
  let lastSw := fun (f : Placed → Bool) => match (l.filter fun x => mark x && f x).getLast? with
    | some x => if isSwitch x.2.1 then some x.1 else none
    | none => none
  match (loopsAround l go.1).find? fun b =>
      !(l.any fun x => mark x && decide (b.1 < x.1) && decide (x.1 < go.1)) && (lastSw fun x => decide (go.1 ≤ x.1) && decide (x.1 ≤ b.2)).isSome with
  | some b => some b.1
  | none => lastSw fun x => decide (x.1 < go.1)

/-- The configuration words for the registers that a GO latches and that nothing writes after the cycle `sw`: each as the task last writes it, before the GO if it can be,
else as at reset. -/
def staleCfg (l : List Placed) (sw : Nat) (go : Placed) : List Nat :=
  ((goRegs go.2.1).filter fun k => !(l.any fun x => writesReg k x.2.1 && decide (sw < x.1) && decide (x.1 < go.1))).map fun k =>
    let ws := l.filter fun x => writesReg k x.2.1
    match (ws.filter fun x => decide (x.1 < go.1)).getLast? <|> ws.getLast? with
    | some x => x.2.1 % 2 ^ 56
    | none => mkWord k.1 (k.2 * 2 ^ 40 + (stagReset (256 * (k.1 / 16) + k.2)).toNat)

/-- The staging registers emitted before every GO that follows a switch point (R121, R268). -/
def restage : List Placed → List Placed → Except Nat (List Placed)
  | [], l => .ok l
  | go :: rest, l =>
    match if isGo go.2.1 then goAfter l go else none with
    | none => restage rest l
    | some sw =>
      match fillFree ((List.range (go.1 - sw - 1)).map fun i => sw + 1 + i) (staleCfg l sw go) l 0 with
      | .error x => .error x
      | .ok (l1, _) => restage rest l1

/-- Whether every cycle holds at most four words, each for another unit (R114), and ends its group where it must (R115). -/
def groupsOk : List Placed → Bool
  | [] => true
  | x :: r =>
    let g := r.filter fun y => y.1 == x.1
    decide (g.length ≤ 3) && !(g.any fun y => wUnit y.2.1 == wUnit x.2.1) && !(endsGroup (wOp x.2.1) && !g.isEmpty) && groupsOk r

/-- The NOP words that a gap needs, and the delta that is left (R267). -/
def gapNops : Nat → Nat → List Nat × Nat
  | 0, d => ([], d)
  | fuel + 1, d => if d ≤ 255 then ([], d) else let r := gapNops fuel (d - 255); (255 * 2 ^ 56 :: r.1, r.2)

/-- Words with their deltas, and for each operation the word that begins its group and its own word. -/
def emitWords : List Placed → Nat → Nat → List Nat → List (Nat × Nat × Nat) → List Nat × List (Nat × Nat × Nat)
  | [], _, _, out, pos => (out, pos)
  | x :: r, prev, start, out, pos =>
    let (nops, d) := gapNops (x.1 - prev + 1) (x.1 - prev)
    let st := if x.1 = prev ∧ out ≠ [] then start else out.length
    let own := out.length + nops.length
    emitWords r x.1 st (out ++ nops ++ [d * 2 ^ 56 + x.2.1]) (match x.2.2 with | some i => (i, st, own) :: pos | none => pos)

/-- LOOP and JMP operands, which name operations, become word indexes. An ENDIDX must lie above its LOOP (R146), and the word at a JMP's target needs D of at least 1
(R115). `i` is the index of the word. -/
def aimWord (base : Nat) (pos : List (Nat × Nat × Nat)) (ws : List Nat) (i w : Nat) : Except Nat Nat :=
  let find := fun (i : Nat) => pos.find? fun q => q.1 == i
  let fit := fun (x lo : Nat) => if x < 8192 then Except.ok (setBits w lo 13 x) else Except.error 8
  match wOp w with
  | .loop => match find (loopEndidx w) with | some q => if q.2.2 ≤ i then .error 8 else fit (base + q.2.2) 32 | none => .error 8
  | .jmp => match find (jmpTarget w) with | some q => if bits (ws.getD q.2.1 0) 56 8 = 0 then .error 7 else fit (base + q.2.1) 0 | none => .error 8
  | _ => .ok w

def aimWords (base : Nat) (pos : List (Nat × Nat × Nat)) (vmask : Nat) (ws : List Nat) : Nat → List Nat → Except Nat (List Nat)
  | _, [] => .ok []
  | i, w :: r =>
    match aimWord base pos ws i w, aimWords base pos vmask ws (i + 1) r with
    | .ok x, .ok y => if (wordReason vmask x).isSome then .error 8 else .ok (x :: y)
    | .error x, _ => .error x
    | _, .error x => .error x

/-- A task's words before its place in the store is known: the words, the places of its operations, the length of its prologue and the cycle of its HALT. -/
structure Draft where
  words : List Nat
  pos   : List (Nat × Nat × Nat)
  pro   : Nat
  halt  : Nat
  deriving DecidableEq, Repr

/-- The native words of a task (R267, R268). -/
def translate (s : State) (m : Module) (p : Plan) (a : LoadArgs) (t : TurmiTask) (own : Nat) : Except Nat Draft := do
  let ops := (codeOf m t.code).drop t.entry
  let body ← bodyWords s m p a t own ops t.entry 0
  let halt := ((body.find? fun x => wOp x.2.1 == .halt).map fun x => x.1).getD (body.foldl (fun a x => max a x.1) 0 + 1)
  let (ins, outs) := linkWords s m p ops body
  let (l0, pro) ← fillFree (List.range halt) ins (sortWords body) 0
  let l1 ← epilogue halt outs l0
  let l2 ← restage l1 l1
  if groupsOk l2 then
    let (ws, pos) := emitWords l2 0 0 [] []
    pure ⟨ws, pos, pro, halt⟩
  else .error 7

/-- Whether two tasks run in one floe of the module. -/
def floeMates (m : Module) (t u : TurmiTask) : Bool :=
  m.floes.any fun f => f.1 == t.vcore / 8 && f.1 == u.vcore / 8 && bits f.2.2.1 (t.vcore % 8) 1 == 1 && bits f.2.2.1 (u.vcore % 8) 1 == 1 &&
    f.2.2.2.1 == t.slot && f.2.2.2.1 == u.slot

/-- The prologue of a floe's tasks has one length, that of the longest (R268): it must end before any of them halts. -/
def prologuesOk (m : Module) (ds : List (TurmiTask × Draft)) : Bool := ds.all fun x => ds.all fun y => !floeMates m x.1 y.1 || decide (x.2.pro ≤ y.2.halt)

/-- First blocks of the tasks of a virtual core, in the order of their slots: from block 16 times the slot, or end to end where that overruns the store. They depend on
the module alone (R269; DESIGN CHOICE, entry 74). -/
def packBlocks (gap : Nat) : List (Nat × Nat × Nat) → Nat → List (Nat × Nat) × Nat
  | [], e => ([], e)
  | (i, slot, n) :: r, e =>
    let b := max (gap * slot) e
    let (l, z) := packBlocks gap r (b + n)
    ((i, b) :: l, z)

def coreBlocks (ds : List (TurmiTask × Draft)) (v : Nat) : Option (List (Nat × Nat)) :=
  let mine := (List.range 4).flatMap fun sl =>
    (ds.zipIdx.filter fun x => x.1.1.vcore == v && x.1.1.slot == sl).map fun x => (x.2, sl, ceilDiv x.1.2.words.length 128)
  let (l, e) := packBlocks 16 mine 0
  if e ≤ 64 then some l
  else
    let (l1, e1) := packBlocks 0 mine 0
    if e1 ≤ 64 then some l1 else none

/-- The drafts of the tasks. -/
def draftAll (s : State) (m : Module) (p : Plan) (a : LoadArgs) : List (TurmiTask × Nat) → Except Nat (List (TurmiTask × Draft))
  | [] => .ok []
  | (t, own) :: r =>
    match translate s m p a t own, draftAll s m p a r with
    | .ok d, .ok l => .ok ((t, d) :: l)
    | .error x, _ => .error x
    | _, .error x => .error x

/-- Each task's first block and words. Code that overruns the store is refused with TRANSLATE. -/
def aimAll (ds : List (TurmiTask × Draft)) : List ((TurmiTask × Draft) × Nat) → Except Nat (List (Nat × List Nat))
  | [] => .ok []
  | ((t, d), i) :: r =>
    match coreBlocks ds t.vcore with
    | none => .error 8
    | some bs =>
      match aimWords (128 * look bs i) d.pos t.vmask d.words 0 d.words, aimAll ds r with
      | .ok ws, .ok l => .ok ((look bs i, ws) :: l)
      | .error x, _ => .error x
      | _, .error x => .error x

/-- The native words of every task (R269). -/
def translateAll (s : State) (m : Module) (p : Plan) (a : LoadArgs) : Except Nat (List (Nat × List Nat)) := do
  let ds ← draftAll s m p a (m.tasks.zip p.pbase)
  if prologuesOk m ds then aimAll ds ds.zipIdx else .error 7

/-- Where the loader lays a task's code in firn, for its overlay: in the stack above the core, clear of every region. -/
def placeCode (p : Plan) : List (TurmiTask × Nat) → List (Nat × Nat) → Nat → List Nat → Except Nat (List Nat × Nat)
  | [], _, draw, out => .ok (out, draw)
  | (t, n) :: rest, taken, draw, out =>
    match choose draw (regionBases (physCore p t.vcore / 8) (1024 * n) taken) with
    | none => .error 9
    | some x => placeCode p rest ((x, 1024 * n) :: taken) (draw + 1) (out ++ [x])

/-- The task of a core that arms a descriptor, else the core's first. -/
def armsDesc (m : Module) (d : TurmiDesc) (t : TurmiTask) : Bool :=
  ((codeOf m t.code).drop t.entry).any fun o => (o.top == 0x72 && o.args % 64 == d.desc) ||
    (match m.qends[o.qout]? with | some (.streamProducer x _ _) => x == d.desc | _ => false)

def descPbase (m : Module) (p : Plan) (d : TurmiDesc) : Nat :=
  let ts := (m.tasks.zip p.pbase).filter fun x => x.1.vcore == d.vcore
  (((ts.find? fun x => armsDesc m d x.1) <|> ts.head?).map fun x => x.2).getD 0

/-- A template with its fields relocated, as a number of 512 bits. -/
def descImage (s : State) (m : Module) (p : Plan) (a : LoadArgs) (x : TurmiDesc × Nat × Nat × Nat) : Except Nat Nat :=
  patch s m p a (descPbase m p x.1) (fun w => bits w 472 6) (m.relocs.filter fun r => r.sec == x.2.1 && r.site / 64 == x.2.2.1) x.2.2.2

def descImages (s : State) (m : Module) (p : Plan) (a : LoadArgs) : List (TurmiDesc × Nat × Nat × Nat) → Except Nat (List (TurmiDesc × Nat))
  | [] => .ok []
  | x :: r =>
    match descImage s m p a x, descImages s m p a r with
    | .ok w, .ok y => .ok ((x.1, w) :: y)
    | .error e, _ => .error e
    | _, .error e => .error e

-- step 4: checks (R274, R275, R282) ---------------------------------------------------------------------------------------------------------

/-- Whether a task's words SEND on a channel. -/
def sendsOn (ws : List Nat) (och : Nat) : Bool := ws.any fun w => wOp w == .send && sendOch w == och

/-- The rank of the end that a channel aims at: the module's own end, else the resident one. -/
def endRank (s : State) (m : Module) (p : Plan) (a : LoadArgs) (o : TurmiOch) : Nat :=
  match m.ich.find? fun e => e.vcore == o.dcore && e.ich == o.ich with
  | some e => e.rank + a.rank
  | none => getF s (rICH_CFG (physCore p o.dcore) o.ich) 0 12

/-- The request graph ascends strictly, and no rank passes 4,095. -/
def ranksOk (s : State) (m : Module) (p : Plan) (a : LoadArgs) (code : List (Nat × List Nat)) : Bool :=
  (m.tasks.all fun t => decide (t.rank + a.rank ≤ 4095)) && (m.ich.all fun e => decide (e.rank + a.rank ≤ 4095)) &&
    (m.och.all fun o => o.reply || (decide (o.drank + a.rank ≤ 4095) &&
      (m.tasks.zip code).all fun x => x.1.vcore != o.vcore || !sendsOn x.2.2 o.och ||
        (decide (x.1.rank + a.rank < endRank s m p a o) && decide (x.1.rank < o.drank))))

/-- ALLOT aimed at an end by the resident channels that the module does not replace. -/
def residentAllot (s : State) (m : Module) (p : Plan) (core e : Nat) : Nat :=
  (List.range 256).foldl (fun x c => (List.range 64).foldl (fun x o =>
    if ochValid s c o && !ochReply s c o && ochCore s c o == core && ochEnd s c o == e && ochPkg s c o == ownPkg s &&
        !(m.och.any fun q => physCore p q.vcore == c && q.och == o) then x + getF s (rOCH_CRED c o) 8 6 else x) x) 0

/-- No end has more than 32 credits aimed at it. -/
def allotOk (s : State) (m : Module) (p : Plan) : Bool :=
  (m.och.filter fun o => !o.reply).all fun o =>
    let mine := (m.och.filter fun q => !q.reply && q.dcore == o.dcore && q.ich == o.ich).foldl (fun a q => a + q.allot) 0
    decide (mine + residentAllot s m p (physCore p o.dcore) o.ich ≤ 32)

/-- Every target slot is EMPTY, and no counter has waiters or reservations. -/
def slotsFree (s : State) (m : Module) (p : Plan) : Bool :=
  (m.tasks.all fun t => slotState s (physCore p t.vcore) t.slot == 0) && (m.ccfg.all fun c => !ctrBusy s (physCore p c.1) c.2.1)

/-- Whether a word of a T2 module names only the T2's counters and ends (R282). -/
def legacyWord (o : TurmiOp) : Bool :=
  let w := mkWord o.top o.args
  match wOp w with
  | .waitc | .sigc => decide (synCtr w < 32)
  | .lfence => decide (fenceMask w < 2 ^ 32)
  | .recv => decide (recvIch w < 8)
  | _ => true

/-- Whether a template names only the T2's counters. -/
def legacyTemplate (w : Nat) : Bool := (bits w 11 1 == 0 || decide (bits w 448 6 < 32)) && (bits w 12 1 == 0 || decide (bits w 472 6 < 32))

/-- A T2 module keeps R282: version, one virtual die, 32 counters and 8 ends a core; and its clusters can take the legacy mode, which R290 refuses a cluster with live
floes. -/
def legacyOk (s : State) (m : Module) (p : Plan) : Bool :=
  m.target == 4 || (m.tver == 1 && (allVcl m).all (fun v => v / 8 == (allVcl m).headD 0 / 8) && (m.ccfg.all fun c => decide (c.2.1 < 32)) &&
    (m.ich.all fun e => decide (e.ich < 8)) && (m.och.all fun o => decide (o.ich < 8) && decide (o.rplyEnd < 8)) && (m.qends.all fun q => match q with
      | .streamConsumer x y _ _ => decide (x < 32) && decide (y < 32)
      | .streamProducer _ y _ => decide (y < 32)
      | .tokenPop c _ | .tokenPush c _ _ => decide (c < 32)
      | .recv e _ => decide (e < 8)
      | _ => true) && (m.code.all fun x => x.2.all legacyWord) && (m.temps.all fun x => legacyTemplate x.2.2.2) &&
    p.clusters.all fun c => getF s (rCLK_XCTL c.2) 0 1 == 1 || !clusterLive s c.2)

-- steps 5 and 6: writes --------------------------------------------------------------------------------------------------------------------

/-- The registers of one task. -/
def writeTask (s : State) (p : Plan) (a : LoadArgs) (t : TurmiTask) (own block : Nat) : State :=
  let c := physCore p t.vcore
  let s1 := setR s (rTASK_SPWIN c t.slot) (BitVec.ofNat 32 ((t.lo + own) + 65536 * (t.hi + own)))
  let s2 := setR (setR s1 (rTASK_VMASK c t.slot) (BitVec.ofNat 32 t.vmask)) (rTASK_RANK c t.slot) (BitVec.ofNat 32 (t.rank + a.rank))
  setR (setR s2 (rTASK_PC c t.slot) (BitVec.ofNat 32 (128 * block))) (rSR_CORE c) (BitVec.ofNat 32 t.vcore)

/-- A stretch of bytes as stores of CC0 that meet no 256-byte boundary (R334, R351). -/
def storeItems : Nat → Nat → List Byte → List CcItem
  | 0, _, _ => []
  | n + 1, a, bs => if bs.isEmpty then [] else let m := 256 - a % 256; .access none a (min m bs.length) (some (bs.take m)) :: storeItems n (a + m) (bs.drop m)

/-- A task's code in firn, in whole blocks, and its overlay (R129, R276). -/
def codeItems (p : Plan) (t : TurmiTask) (at_ : Nat) (code : Nat × List Nat) : List CcItem :=
  let n := ceilDiv code.2.length 128
  let bs := (code.2 ++ List.replicate (128 * n - code.2.length) 0).flatMap (leBytes 8)
  storeItems (4 * n + 1) at_ bs ++ [.overlay (physCore p t.vcore) t.slot at_ (1024 * code.1) (1024 * n)]

/-- One outbound channel. -/
def writeOch (s : State) (p : Plan) (a : LoadArgs) (o : TurmiOch) : State :=
  let c := physCore p o.vcore
  let cfg := 1 + flag o.reply 1 + flag o.rres 2 + 8 * o.ich + 2 ^ 7 * o.rplyEnd + 2 ^ 11 * (o.drank + a.rank) + 2 ^ 23 * physCore p o.dcore
  setF (setR (setR s (rOCH_CFG c o.och) (BitVec.ofNat 32 cfg)) (rOCH_DEST c o.och) (BitVec.ofNat 32 (ownPkg s))) (rOCH_CRED c o.och) 8 6 o.allot

/-- One inbound end. -/
def writeIch (s : State) (p : Plan) (a : LoadArgs) (e : TurmiIch) : State :=
  setR s (rICH_CFG (physCore p e.vcore) e.ich) (BitVec.ofNat 32 (e.rank + a.rank + flag e.reply 12 + 2 ^ 13 * e.owner + flag e.autoclose 15))

/-- One counter: its generation advances, then its owner (R275). -/
def writeCtr (s : State) (p : Plan) (x : Nat × Nat × Nat × Bool) : State :=
  let c := physCore p x.1
  setR (ctrAdvance s c x.2.1) (rCTR_CFG c x.2.1) (BitVec.ofNat 32 (1 + 2 * x.2.2.1 + flag x.2.2.2 3))

/-- INJ_TAB of a cluster. -/
def writeRoute (s : State) (p : Plan) (r : Nat × List Byte) : State :=
  let c := look p.clusters r.1
  ((pieces 4 512 r.2).zipIdx).foldl (fun s x => setR s (rINJ_TAB c 0 + 4 * x.2) (BitVec.ofNat 32 (leNat x.1) &&& 0x0F0F_0F0F)) s

/-- A template. -/
def writeDesc (s : State) (p : Plan) (x : TurmiDesc × Nat) : State :=
  putTemplate s (physCore p x.1.vcore) x.1.desc ((List.range 8).map fun i => BitVec.ofNat 64 (bits x.2 (64 * i) 64))

/-- A floe definition (R190). -/
def writeFloe (s : State) (p : Plan) (f : Nat × Nat × Nat × Nat × Bool) : State :=
  floeDef s (look p.clusters f.1) f.2.1 (f.2.2.1 + 2 ^ 8 * f.2.2.2.1 + 2 ^ 16 + flag f.2.2.2.2 17)

/-- Steps 5 and 6 of R276, with the legacy mode of a T2 module (R282): the registers, and CC0's stores of DATA and of code, then its overlays, in this order. Writes to
gated clusters wake them (R306). -/
def writeModule (s : State) (m : Module) (p : Plan) (a : LoadArgs) (code : List (Nat × List Nat)) (at_ : List Nat) (ds : List (TurmiDesc × Nat)) : State :=
  let s0 := { s with draws := p.draw, alloc := s.alloc ++ m.vstk.map fun x => (look p.stackMap x.vstk, x.bytes) }
  let s1 := if p.clusters.any fun c => (clusterOf s0 c.2).gated then idleWake s0 .access else s0
  let s2 := ds.foldl (fun s d => writeDesc s p d) s1
  let s3 := m.tables.foldl (fun s r => writeRoute s p r) s2
  let s4 := m.ich.foldl (fun s e => writeIch s p a e) (m.och.foldl (fun s o => writeOch s p a o) s3)
  let s5 := m.ccfg.foldl (fun s c => writeCtr s p c) s4
  let s6 := (m.tasks.zip (p.pbase.zip code)).foldl (fun s t => writeTask s p a t.1 t.2.1 t.2.2.1) s5
  let s7 := m.floes.foldl (fun s f => writeFloe s p f) s6
  let s8 := if m.target = 2 then p.clusters.foldl (fun s c => clkXctl s c.2 1) s7 else s7
  let data := m.data.flatMap fun d => storeItems (d.2.2.length / 256 + 2) (look p.stackMap d.1 + d.2.1) d.2.2
  let text := (m.tasks.zip (at_.zip code)).flatMap fun t => codeItems p t.1 t.2.1 t.2.2
  (data ++ text).foldl (fun s i => ccPush s 0 i) s8

/-- A check of a load, and the code of R277 when it fails. -/
def require (ok : Bool) (code : Nat) : Except Nat Unit := if ok then .ok () else .error code

/-- What a load does: the state with the module written, the floes that start, and the blocks awaited, as core, first block and number. -/
abbrev Loaded := State × List (Nat × Nat) × List (Nat × Nat × Nat)

/-- The steps of R276 in order: the code of R277 of the first that fails, else what the load does. -/
def loadSteps (s : State) (img : List Byte) (recs : TurmiRecs) (map : Option (List Nat)) (a : LoadArgs) : Except Nat Loaded := do
  let _ ← require (imageOk (img.take a.len) a.len) 1
  let m := moduleOf (img.take (leAt img 0xC 4)) recs
  let _ ← require (recordsOk m) 1
  let cl ← mapClusters s m map
  let ks ← (mapStacks m cl).elim (.error 9) .ok
  let st ← placeStacks s ks s.alloc s.draws []
  let p1 : Plan := { clusters := cl, stackMap := st.1, draw := st.2 }
  let pb ← placePages s p1 m.tasks [] st.2 []
  let p2 : Plan := { p1 with pbase := pb.1 }
  let code ← translateAll s m p2 a
  let ds ← descImages s m p2 a m.temps
  let lens := m.tasks.zip (code.map fun x => ceilDiv x.2.length 128)
  let at_ ← placeCode p2 lens (s.alloc ++ m.vstk.map fun x => (look p2.stackMap x.vstk, x.bytes)) pb.2 []
  let _ ← require (ranksOk s m p2 a code) 4
  let _ ← require (allotOk s m p2) 5
  let _ ← require (slotsFree s m p2) 3
  let _ ← require (legacyOk s m p2) 10
  pure (writeModule s m { p2 with draw := at_.2 } a code at_.1 ds, m.floes.map fun f => (look cl f.1, f.2.1),
    (lens.zip code).map fun x => (physCore p2 x.1.1.vcore, x.2.1, x.1.2))

/-- Steps 1 to 6 of a load: the code of R277, the floes that step 7 starts, and the blocks it waits for. A refusal leaves the device as it was. -/
def loadModule (s : State) (img : List Byte) (recs : TurmiRecs) (map : Option (List Nat)) (a : LoadArgs) : State × Nat × List (Nat × Nat) × List (Nat × Nat × Nat) :=
  match loadSteps s img recs map a with
  | .ok (s1, fs, ws) => (s1, 0, fs, ws)
  | .error e => (s, e, [], [])

end Sys2Proof.Machine
end

