-- ==== Sys2Proof/Machine/Host.lean ====
section
/-! DEFINITION. FIRNBAR, the command and completion rings, host movers and host commands (16_host_interface.md, R359 to R377, R468). What host memory holds is an
operand of the command that reads it; what the device writes to the host joins `host.out`. -/

namespace Sys2Proof.Machine

-- FIRNBAR and CTLBAR accesses (R360 to R363) ---------------------------------------------------------------------------------

/-- The firn address of a FIRNBAR byte (R362). -/
def winAddr (s : State) (o : Nat) : Nat := (getF s rFIRN_WIN_BASE 0 8 * 2 ^ 30 + o) % 2 ^ 38
/-- The bytes of n from an address before the top of firn; the rest wraps to stack 0. -/
def winLow (a n : Nat) : Nat := min n (2 ^ 38 - a)
/-- Whether n bytes of the window reach only open stacks. -/
def winOpen (s : State) (a n : Nat) : Bool := firnOpen s a (winLow a n) && (n - winLow a n == 0 || firnOpen s 0 (n - winLow a n))
def hostOut (s : State) (o : HostOut) : State := { s with host := { s.host with out := s.host.out ++ [o] } }

/-- Whether a host access to firn finds nothing that serves it: the package is in DEEP or OFF, or without power (R313). -/
def hostDead (s : State) : Bool := !s.pwr.vaux || s.pwr.off || pwrState s == 3

/-- One part of a FIRNBAR write: discarded where a mirror secondary is foreign to it (R351, R363). -/
def barPart (s : State) (a : Nat) (bs : List Byte) : State :=
  if bs.isEmpty then s
  else if mirForeign s a bs.length then satF s (rMIR_STAT + 4) 0 16 1
  else (devWrite s whoHost (bs.length / 256 + 2) a bs).1

/-- Whether a FIRNBAR access waits: the package sleeps or wakes, a stack is not open, or a DELTA has no mirror credit (R313, R351). -/
def barWaits (s : State) (x : BarAcc) : Bool :=
  let m := winLow x.addr x.len
  decide (pwrState s = 2) || !winOpen s x.addr x.len || (match x.data with | some bs => mirWaits s x.addr (bs.take m) || mirWaits s 0 (bs.drop m) | none => false)

/-- A FIRNBAR access is performed (R361 to R363). -/
def barDo (s : State) (x : BarAcc) : State :=
  let m := winLow x.addr x.len
  match x.data with
  | some bs => barPart (barPart s x.addr (bs.take m)) 0 (bs.drop m)
  | none =>
    let (s1, lo, bad1) := devRead s whoHost (x.len / 256 + 2) x.addr m
    if bad1 then hostOut s1 .completerAbort
    else
      let (s2, hi, bad2) := devRead s1 whoHost (x.len / 256 + 2) 0 (x.len - m)
      hostOut s2 (if bad2 then .completerAbort else .readRsp (lo ++ hi))

/-- FIRNBAR accesses go on in their order, up to the first that waits. -/
def barGo (s : State) : Nat → State
  | 0 => s
  | n + 1 =>
    match s.host.bar with
    | [] => s
    | x :: rest => if hostDead s || barWaits s x then s else barGo (barDo { s with host := { s.host with bar := rest } } x) n

def barRun (s : State) : State := barGo s s.host.bar.length

/-- A FIRNBAR access arrives, with the window as it stands (R362). In SLEEP it begins a wake, and completes after it (R313). -/
def barPush (s : State) (o n : Nat) (data : Option (List Byte)) : State :=
  let s1 := { s with host := { s.host with bar := s.host.bar ++ [⟨winAddr s o, n, data⟩], barCnt := s.host.barCnt + 1 } }
  if pwrState s = 2 then wakeDetectRun s1 .pcie else barRun s1

/-- FIRNBAR_READ (R361 to R363). -/
def barRead (s : State) (o n : Nat) : State :=
  if hostDead s ∨ n = 0 then s
  else if sessOpen s = false then hostOut (satF s rHOST_STAT 16 16 1) (.readRsp (List.replicate n 0))
  else barPush s o n none

/-- FIRNBAR_WRITE (R361 to R363). -/
def barWrite (s : State) (o : Nat) (bs : List Byte) : State :=
  if hostDead s ∨ bs = [] then s
  else if sessOpen s = false then satF s rHOST_STAT 16 16 1
  else barPush s o bs.length (some bs)

/-- CTLBAR_BAD_ACCESS (R360): nothing where the size and place are right. -/
def badAccess (s : State) (write : Bool) (off size : Nat) : State :=
  if (size = 4 ∨ size = 8) ∧ off % size = 0 then s
  else if write then satF s (rHOST_STAT + 4) 0 16 1
  else hostOut s .unsupported

-- completion records (R364, R371) ----------------------------------------------------------------------------------------------

def cmdWord (c : HostCmd) (i : Nat) : Nat := (c.words.getD i 0).toNat
def cmdF (c : HostCmd) (i lo w : Nat) : Nat := bits (cmdWord c i) lo w
def ringLog (s : State) : Nat := getF s rHRING_SIZE 0 5

/-- Table 16-5 at the completion index. -/
def recWords (s : State) (r : HostRec) : List (BitVec 64) :=
  let lap := (getR s rCTAIL).toNat / 2 ^ ringLog s
  let w0 := cmdOpc r.cmd + (if lap % 2 = 0 then 2 ^ 8 else 0) + 2 ^ 16 * r.status + 2 ^ 32 * cmdF r.cmd 0 32 32
  [w0, r.cmd.hidx, r.tb, r.info].map (BitVec.ofNat 64)

/-- One record is written, the index advances, and bit 0 follows (R371). -/
def recWrite (s : State) (r : HostRec) : State :=
  let addr := (getR64 s rCRING_BASE + 32 * ((getR s rCTAIL).toNat % 2 ^ ringLog s)) % 2 ^ 64
  let s1 := hostOut s (.record addr (recWords s r))
  let s2 := setR s1 rCTAIL (getR s rCTAIL + 1)
  if cmdF r.cmd 0 9 1 = 1 then hostIrq s2 0 else s2

/-- Bus-master requests leave only with Bus Master Enable over a trained link (R364). -/
def busMaster (s : State) : Bool := s.host.bme && s.host.linkUp

/-- Records that waited are written, oldest first. -/
def recFlush (s : State) : State :=
  if busMaster s then s.host.recs.foldl recWrite { s with host := { s.host with recs := [] } } else s

/-- A command completes. -/
def complete (s : State) (c : HostCmd) (status info : Nat) : State :=
  recFlush { s with host := { s.host with recs := s.host.recs ++ [⟨c, status, info, tbNow s⟩] } }

/-- BUS_MASTER_ENABLE (R364): what waited leaves. -/
def busEnable (s : State) (on : Bool) : State := recFlush (msixFlush { s with host := { s.host with bme := on } })

/-- The host writes a vector's entry of the MSI-X table; a pending vector that it unmasks is sent (R359, R377). -/
def unmaskRun (s : State) (v : Nat) (e : VecEnt) : State := msixFlush { s with host := { s.host with vectors := mset (fun _ => {}) s.host.vectors v e } }

-- the poll (R367 to R369) ---------------------------------------------------------------------------------------------------------

/-- A poll that fails ends fetching. -/
def pollFail (s : State) (headErr : Bool) : State :=
  let s1 := setF (setF s rHRING_SIZE 8 1 0) rHRING_STAT 17 1 1
  hostIrq (if headErr then setF s1 rHRING_STAT 18 1 1 else s1) 1

/-- Accepted commands whose records are not written. -/
def inFlight (s : State) : Nat :=
  s.host.accepted.length + (s.host.movers.foldl (fun a m => a + m.2.length) 0) + (if s.host.loader.isSome then 1 else 0) + s.host.recs.length

/-- Entries up to the first whose PHASE is not the expected one. -/
def validEntries (phase : Nat) (es : List (List W64)) : List (List W64) := es.takeWhile fun ws => bits (ws.getD 0 0).toNat 8 1 == phase

/-- Entries are accepted, and the fetch index advances past them; the expected phase inverts at a wrap. -/
def acceptEntries (s : State) (es : List (List W64)) : State :=
  let f := getF s rHRING_STAT 0 16
  let n := f + es.length
  let cmds := es.zipIdx.map fun e => (⟨f + e.2, e.1, s.host.barCnt⟩ : HostCmd)
  let s1 := { s with host := { s.host with accepted := s.host.accepted ++ cmds } }
  if 2 ^ ringLog s ≤ n then setF (setF s1 rHRING_STAT 0 16 0) rHRING_STAT 16 1 (1 - getF s rHRING_STAT 16 1) else setF s1 rHRING_STAT 0 16 n

/-- Whether the device may fetch (R312, R364, R365). -/
def mayFetch (s : State) : Bool := getB s rHRING_SIZE 8 && sessOpen s && busMaster s && !startsWait s && !hostDead s

/-- HRING_POLL (R368, R369). `head` and `entries` are what the host reads return; none is a read that fails. -/
def ringPoll (s : State) (head : Option W32) (entries : Option (List (List W64))) : State :=
  if mayFetch s = false then s
  else match head with
    | none => pollFail s false
    | some h =>
      let size := 2 ^ ringLog s
      let tail := (getR s rCTAIL).toNat
      if size < (tail + 2 ^ 32 - h.toNat) % 2 ^ 32 then pollFail s true
      else
        let used := (tail + inFlight s + 2 ^ 32 - h.toNat) % 2 ^ 32
        let n := min (min 32 ((size + 2 ^ 32 - used) % 2 ^ 32)) (size - getF s rHRING_STAT 0 16)
        if n = 0 then s
        else match entries with
          | none => pollFail s false
          | some es => acceptEntries s (validEntries (getF s rHRING_STAT 16 1) (es.take n))

-- dispatch (R366, R367, R370) --------------------------------------------------------------------------------------------------------

/-- The bits of each word that an opcode uses (Table 16-4). -/
def usedBits (c : HostCmd) : List Nat :=
  let w0 := 0xFFFF_FFFF_0000_07FF
  let all := 2 ^ 64 - 1
  let sig := 0xFFFF_000F_FF3F
  match cmdOpc c with
  | 1 => [w0, all, 2 ^ 54 - 1, 2 ^ 32 - 1, if cmdF c 2 53 1 = 1 then sig else 0, 0, 0, 0]
  | 2 => [w0, all, 0xFFFF_0000_0FFF_0001, 2 ^ 32 - 1, 0, all, 0, 0]
  | 3 => [w0, 2 ^ 26 - 1 + 2 ^ 32, all, 0, 0, 0, 0, 0]
  | 4 => [w0, 0, 0, 0, sig, 0, 0, 0]
  | 5 => [w0, 7, 0, 0, 0, 0, 0, 0]
  | _ => [w0, 0, 0, 0, 0, 0, 0, 0]

/-- Whether a block completes with BAD_CMD (R366, R367). -/
def badCmd (c : HostCmd) : Bool :=
  let k := cmdOpc c
  let sig := k == 4 || (k == 1 && cmdF c 2 53 1 == 1)
  decide (6 < k) || ((usedBits c).zipIdx.any fun u => cmdWord c u.2 &&& u.1 != cmdWord c u.2) ||
    ((k == 1 || k == 2) && cmdF c 3 0 32 == 0) || (sig && (decide (47 < cmdF c 4 0 6) || cmdF c 4 32 16 == 0))

/-- A command with FENCE waits until every earlier command has completed (R370). -/
def fenceOk (s : State) (c : HostCmd) : Bool :=
  cmdF c 0 10 1 == 0 || ((s.host.movers.all fun m => m.2.isEmpty) && s.host.loader.isNone && s.host.recs.isEmpty)

/-- The next command in ring order is dispatched when it is one of the row's and FENCE lets it: a bad block completes with BAD_CMD and does nothing else. -/
def dispatch (s : State) (opc : Nat → Bool) (f : State → HostCmd → State) : State :=
  match s.host.accepted with
  | [] => s
  | c :: rest =>
    if opc (cmdOpc c) = false ∨ fenceOk s c = false ∨ hostDead s then s
    else if badCmd c then complete { s with host := { s.host with accepted := rest } } c 1 0
    else f s c

/-- The queue of accepted commands without its first. -/
def dropFirst (s : State) : State := { s with host := { s.host with accepted := s.host.accepted.drop 1 } }

/-- HOST_NOP, and an opcode that Table 16-6 does not list, whose block only completes. -/
def nopRun (s : State) : State := dispatch s (fun k => k == 0 || decide (6 < k)) fun s c => complete (dropFirst s) c 0 0

/-- REGW (R372): a write with the rights of Table 16-3. -/
def regwRun (s : State) : State :=
  dispatch s (· == 3) fun s c =>
    let off := cmdF c 1 0 26
    let wide := cmdF c 1 32 1 == 1
    if inSessBlock off ∨ off % (if wide then 8 else 4) ≠ 0 then complete (dropFirst s) c 1 0
    else complete (regTop (dropFirst s) .ring off wide (cmdWord c 2)) c 0 0

/-- POWER (R311, R372): INFO holds RESULT. -/
def powerRun (s : State) : State :=
  dispatch s (· == 5) fun s c =>
    let s1 := flushHeld (pwrRequest (dropFirst s) .ring (cmdF c 1 0 3))
    let r := getF s1 rPWR_STATE 4 3
    complete s1 c (if r = 0 then 0 else 7) r

/-- CLOSE (R372, R383). -/
def closeRun (s : State) : State := dispatch s (· == 6) fun s c => complete (sessEnd (dropFirst s)) c 0 0

/-- The signal of a block (Table 16-4). `src` is the mover, 16 for a SIGNAL command (R374, R468). -/
def cmdSignal (s : State) (c : HostCmd) (cls sub src : Nat) : Sig :=
  ⟨cmdF c 4 8 8, cmdF c 4 0 6, cmdF c 4 32 16, cmdF c 4 16 4, cls, sub, ownPkg s, src, 3, true⟩

/-- Whether every FIRNBAR access that arrived before a command was fetched has been performed (R375). -/
def barsDone (s : State) (c : HostCmd) : Bool := decide (c.bars + s.host.bar.length ≤ s.host.barCnt)

/-- SIGNAL (R375): it waits for the FIRNBAR writes that arrived before it was fetched. -/
def signalRun (s : State) : State :=
  dispatch s (· == 4) fun s c =>
    let core := cmdF c 4 8 8
    if barsDone s c = false then s
    else if corePresent s core = false then complete (absentNote (dropFirst s) core 3 16 core) c 3 0
    else complete (sendSignal (dropFirst s) (cmdSignal s c 2 1 16)) c 0 0

-- movers (R373, R374) -------------------------------------------------------------------------------------------------------------------

def mvLen (c : HostCmd) : Nat := cmdF c 3 0 32
def mvAddr (c : HostCmd) : Nat := cmdF c 2 0 48
def mvToHost (c : HostCmd) : Bool := cmdF c 2 52 1 == 1
def mvSig (c : HostCmd) : Bool := cmdF c 2 53 1 == 1

/-- Bytes moved so far of the MOVE in progress. -/
def movedOf (s : State) (m : Nat) : Nat := mget (fun _ => 0) s.host.moved m
def setMoved (s : State) (m n : Nat) : State := { s with host := { s.host with moved := mset (fun _ => 0) s.host.moved m n } }

/-- A MOVE that ends as it dispatches moves nothing; its token is issued and returned. -/
def moveStops (s : State) (c : HostCmd) (status : Nat) : State :=
  complete (moveError (ledReturn1 (ledIssue (dropFirst s) qHMV 1) qHMV) (cmdMv c)) c status 0

/-- SP_BOUNDS of a host mover (R23, R373). -/
def moverBounds (s : State) (c : HostCmd) : State :=
  raiseEv s 0 { cls := cSP_BOUNDS, sev := 2, home := 1, ukind := 3, uindex := cmdMv c, addr := mvAddr c, detail := 0 }

/-- MOVE (R370, R373): the checks at dispatch, then the mover's queue, which holds 8 beside the MOVE in progress. -/
def moveRun (s : State) : State :=
  dispatch s (· == 1) fun s c =>
    let m := cmdMv c
    let enq := ledIssue (setMoverQ (dropFirst s) m (moverQ s m ++ [c])) qHMV 1
    if 9 ≤ (moverQ s m).length then s
    else match placeOf (mvAddr c) (mvLen c) with
      | .unmapped => moveStops (moverBounds s c) c 2
      | .firn =>
        if mvSig c && !corePresent s (cmdF c 4 8 8) then moveStops (absentNote s (cmdF c 4 8 8) 3 m (cmdF c 4 8 8)) c 3 else enq
      | .store k =>
        let noCore := mvSig c && !corePresent s (cmdF c 4 8 8)
        if corePresent s k = false then (if noCore || !mvToHost c then moveStops (absentNote s k 3 m (mvAddr c)) c 3 else enq)
        else if noCore then moveStops (absentNote s (cmdF c 4 8 8) 3 m (cmdF c 4 8 8)) c 3
        else enq

/-- Where the signal of a MOVE starts (R374): at the last write for a MOVE to the device, as R245 sets out, else at the host interface. -/
def moveSignal (s : State) (m : Nat) (c : HostCmd) : Sig :=
  if mvToHost c then cmdSignal s c 2 1 m
  else match placeOf (mvAddr c) (mvLen c) with
    | .store k => cmdSignal s c 2 (if k / 8 = cmdF c 4 8 8 / 8 then 0 else 1) m
    | _ => cmdSignal s c 3 ((mvAddr c + mvLen c - 1) / 2 ^ 33) m

/-- A MOVE ends: counts, signal, token, and the record (R374). -/
def moveEnd (s : State) (m : Nat) (c : HostCmd) (status n : Nat) : State :=
  let w := getR64 s (rHMV_CNT m)
  let s1 := setR64 s (rHMV_CNT m) (setBits w 0 48 ((bits w 0 48 + n) % 2 ^ 48))
  let s2 := setMoved (setMoverQ (if status = 0 then s1 else moveError s1 m) m ((moverQ s m).drop 1)) m 0
  let s3 := if status = 0 ∧ mvSig c = true then sendSignal s2 (moveSignal s m c) else s2
  complete (ledReturn1 s3 qHMV) c status n

/-- Whether the beat that holds an address has an uncorrectable error. -/
def beatBad (s : State) (a : Nat) : Bool := match eccDecode (beatErrOf s (memKey s a)) with | .bad => true | _ => false

/-- The bytes of a write of m bytes that uncorrectable beats refuse: those of a first or last beat that is not written whole (R174). -/
def lostBytes (s : State) (a m : Nat) : Nat :=
  let n1 := min m (32 - a % 32)
  let first := if n1 < 32 ∧ beatBad s a = true then n1 else 0
  let last := (a + m) % 32
  first + (if n1 < m ∧ last ≠ 0 ∧ beatBad s (a + m - 1) = true then last else 0)

/-- Bytes go to firn in requests (R161), each once its DELTA has room (R351). The result: bytes moved, whether a beat stopped the transfer, whether it waits. -/
def moveWrite (s : State) : Nat → Nat → List Byte → State × Nat × Bool × Bool
  | 0, _, _ => (s, 0, false, false)
  | fuel + 1, a, bs =>
    if bs.isEmpty then (s, 0, false, false)
    else
      let m := min bs.length (256 - a % 256)
      if mirWaits s a (bs.take m) then (s, 0, false, true)
      else
        let lost := lostBytes s a m
        let (s1, bad) := devWrite s whoHost 2 a (bs.take m)
        if bad then (s1, m - lost, true, false)
        else
          let r := moveWrite s1 fuel (a + m) (bs.drop m)
          (r.1, m + r.2.1, r.2.2)

/-- A MOVE to the device. `data` is what host memory holds; where it ends early, that host read failed. -/
def moveIn (s : State) (m : Nat) (c : HostCmd) (data : List Byte) : State :=
  let n := movedOf s m
  let bs := data.take (mvLen c)
  let status := if bs.length < mvLen c then 5 else 0
  match placeOf (mvAddr c) (mvLen c) with
  | .unmapped => s
  | .store k => if storeWaits s k then s else moveEnd (wrBytes s (mvAddr c) bs) m c status bs.length
  | .firn =>
    if mirForeign s (mvAddr c) (mvLen c) then moveEnd (moverBounds (satF s (rMIR_STAT + 4) 0 16 1) c) m c 2 0
    else if firnOpen s (mvAddr c) (mvLen c) = false then s
    else
      let (s1, k, bad, wait) := moveWrite s (bs.length / 256 + 2) (mvAddr c + n) (bs.drop n)
      if wait then setMoved s1 m (n + k) else moveEnd s1 m c (if bad then 4 else status) (n + k)

/-- A MOVE to the host. -/
def moveOut (s : State) (m : Nat) (c : HostCmd) : State :=
  let send := fun (s : State) (bs : List Byte) => if bs.isEmpty then s else hostOut s (.data (cmdWord c 1) bs)
  match placeOf (mvAddr c) (mvLen c) with
  | .unmapped => s
  | .store k =>
    if corePresent s k = false then
      let s1 := absentNote s k 3 m (mvAddr c)
      moveEnd (send s1 ((deadBytes (mvAddr c % 4 + mvLen c)).drop (mvAddr c % 4))) m c 3 (mvLen c)
    else if storeWaits s k then s
    else moveEnd (send s (rdBytes s (mvAddr c) (mvLen c))) m c 0 (mvLen c)
  | .firn =>
    if firnOpen s (mvAddr c) (mvLen c) = false then s
    else
      let (s1, bs, bad) := devRead s whoHost (mvLen c / 256 + 2) (mvAddr c) (mvLen c)
      moveEnd (send s1 bs) m c (if bad then 4 else 0) bs.length

/-- MOVER_COMPLETE (R374): the first MOVE of a mover's queue moves its data; it waits for Bus Master Enable, for a wake (R312) and for what it reaches. -/
def moverRun (s : State) (m : Nat) (data : Option (List Byte)) : State :=
  match moverQ s m with
  | [] => s
  | c :: _ => if busMaster s = false ∨ startsWait s then s else if mvToHost c then moveOut s m c else moveIn s m c (data.getD [])

-- loads (R276, R277, R376) -----------------------------------------------------------------------------------------------------------------

/-- The loader takes a LOAD, with the status and the code it will end with. -/
def loadTake (s : State) (c : HostCmd) (status code : Nat) (floes : List (Nat × Nat)) (wants : List (Nat × Nat × Nat)) : State :=
  let s1 := setF (dropFirst s) (rCC_IRQ_STAT 0) 1 1 1
  { s1 with host := { s1.host with loader := some ⟨c, status, code, floes, wants⟩ } }

/-- Steps 1 to 6 of a load whose image and map have been read. -/
def loadModuleRun (s : State) (c : HostCmd) (img : List Byte) (recs : TurmiRecs) (map : Option (List Nat)) : State :=
  let (s1, code, floes, wants) := loadModule s img recs map ⟨cmdF c 3 0 32, cmdF c 2 16 12, cmdF c 2 48 16⟩
  loadTake s1 c 0 code floes wants

/-- LOAD (R372, R376): the loader, Bruta, reads the module and the map at dispatch. A module in firn must lie wholly there, in stacks that accept requests. -/
def loadRun (s : State) (read : ModuleRead) : State :=
  dispatch s (· == 2) fun s c =>
    let inFirn := cmdF c 2 0 1 == 1
    let a := cmdWord c 1
    let n := cmdF c 3 0 32
    let usesHost := !inFirn || cmdWord c 5 != 0
    if s.host.loader.isSome ∨ bruta s = false ∨ ccRuns s 0 = false ∨ (ccOf s 0).todo ≠ [] ∨ startsWait s then s
    else if inFirn ∧ 2 ^ 38 < a + n then loadTake s c 2 0 [] []
    else if usesHost && !busMaster s then s
    else if inFirn ∧ firnOpen s a n = false then s
    else match read with
      | .hostError => if usesHost then loadTake s c 5 0 [] [] else s
      | .content img recs map =>
        if (cmdWord c 5 == 0) != map.isNone then s
        else if inFirn then
          let (s1, bs, bad) := devRead s whoHost (n / 256 + 2) a n
          if bad then loadTake s1 c 4 0 [] [] else loadModuleRun s1 c bs recs map
        else loadModuleRun s c img recs map

/-- Whether n blocks of a core's instruction store hold the overlays written to them (R276, step 6). -/
def overlaid (s : State) (c b n : Nat) : Bool := (List.range n).all fun i => bits (getR64 s (rOVL_VALID c)) (b + i) 1 == 1

/-- LOAD_COMPLETE (R276 step 7, R277): once every first block is valid the floes start, and the record carries the code. A START waits while R312 holds it, and wakes a gated cluster (R306). -/
def loadDone (s : State) : State :=
  match s.host.loader with
  | none => s
  | some l =>
    if !l.floes.isEmpty && startsWait s then s
    else if !(l.wants.all fun w => overlaid s w.1 w.2.1 w.2.2) then s
    else
      let s1 := if l.floes.any fun f => (clusterOf s f.1).gated then idleWake s .access else s
      let s2 := l.floes.foldl (fun s f => floeStartRun s f.1 f.2) { s1 with host := { s1.host with loader := none } }
      complete s2 l.cmd (if l.status ≠ 0 then l.status else if l.code ≠ 0 then 7 else 0) l.code

-- meanings ------------------------------------------------------------------------------------------------------------------------------------

/-- BUS_MASTER_ENABLE (R364). -/
def execBusMasterEnable (on : Bool) (s : State) : Host.Outcome State Fault Refusal := .next (busEnable s on)
/-- CTLBAR_BAD_ACCESS (R360). -/
def execCtlbarBadAccess (write : Bool) (offset : BitVec 26) (size : Nat) (s : State) : Host.Outcome State Fault Refusal :=
  .next (badAccess s write offset.toNat size)
/-- FIRNBAR_READ (R362). -/
def execFirnbarRead (offset : BitVec 36) (len : Nat) (s : State) : Host.Outcome State Fault Refusal := .next (barRead s offset.toNat len)
/-- FIRNBAR_WRITE (R362). -/
def execFirnbarWrite (offset : BitVec 36) (data : List Byte) (s : State) : Host.Outcome State Fault Refusal := .next (barWrite s offset.toNat data)
/-- HRING_POLL (R368). -/
def execHringPoll (head : Option W32) (entries : Option (List (List W64))) (s : State) : Host.Outcome State Fault Refusal :=
  .next (ringPoll s head entries)
/-- HOST_NOP (R372). -/
def execHostNop (s : State) : Host.Outcome State Fault Refusal := .next (nopRun s)
/-- MOVE (R373). -/
def execMove (s : State) : Host.Outcome State Fault Refusal := .next (moveRun s)
/-- LOAD (R376). -/
def execLoad (read : ModuleRead) (s : State) : Host.Outcome State Fault Refusal := .next (loadRun s read)
/-- REGW (R372). -/
def execRegw (s : State) : Host.Outcome State Fault Refusal := .next (regwRun s)
/-- SIGNAL (R375). -/
def execSignalCommand (s : State) : Host.Outcome State Fault Refusal := .next (signalRun s)
/-- POWER (R372). -/
def execPower (s : State) : Host.Outcome State Fault Refusal := .next (powerRun s)
/-- CLOSE (R372). -/
def execCloseCommand (s : State) : Host.Outcome State Fault Refusal := .next (closeRun s)
/-- MOVER_COMPLETE (R374). -/
def execMoverComplete (mover : MoverId) (hostData : Option (List Byte)) (s : State) : Host.Outcome State Fault Refusal := .next (moverRun s mover hostData)
/-- LOAD_COMPLETE (R277). -/
def execLoadComplete (s : State) : Host.Outcome State Fault Refusal := .next (loadDone s)
/-- The unmasking of an MSI-X vector (R359). -/
def execMsixUnmask (entry : VecWrite) (s : State) : Host.Outcome State Fault Refusal :=
  .next (unmaskRun s entry.vector ⟨entry.addr, entry.data, entry.masked⟩)

end Sys2Proof.Machine
end

