-- ==== Sys2Proof/Machine/Tap.lean ====
section
/-! DEFINITION. The TAP (chapter 21, R436 and R437) and SMBus (22_package_electrical.md, R447). -/

namespace Sys2Proof.Machine

/-- An instruction comes into force. -/
def tapIr (s : State) (code : BitVec 8) : State := { s with tap := { s.tap with ir := code } }

/-- The identification code (Table 21-4). -/
def idWord : BitVec 32 := BitVec.ofNat 32 (1 + 2 * Config.jep106.toNat + 2 ^ 12 * 0x7434 + 2 ^ 28 * Config.stepping.toNat)

/-- Whether EXTEST-class instructions act: LIFECYCLE is UNPROVISIONED, or a debug session is open (Table 21-4). -/
def extestAllowed (s : State) : Bool := s.sec.lifeState == 0 || sessDebug s

/-- An EXTEST-class instruction: otherwise BYPASS; selecting one drops the host link, as link loss does (R436). -/
def extestRun (s : State) (code : BitVec 8) : State := if extestAllowed s then linkLoss (tapIr s code) else tapIr s 0xFF

/-- The TAP is in Test-Logic-Reset, where IDCODE is in force; a session that JTAG owns ends (R436, R437). -/
def tapReset (s : State) : State :=
  let s1 := if s.sess.jtag then sessEnd s else s
  { s1 with tap := {} }

/-- A field that only a debug session writes fills the register. -/
def debugOnly (off : Nat) : Bool := (regSpec off).rw == 0 && (regSpec off).w1c == 0 && (regSpec off).dbg != 0

def tapStatus (s : State) (k : Nat) : State := { s with tap := { s.tap with status := k } }

/-- A read of DBG_REG: the data of one register or two. -/
def tapRead (s : State) (off : Nat) (wide : Bool) : State :=
  let (s1, lo) := readEffect s off
  if wide then
    let (s2, hi) := readEffect s1 (off + 4)
    tapStatus { s2 with tap := { s2.tap with data := BitVec.ofNat 64 (lo.toNat + 2 ^ 32 * hi.toNat) } } 0
  else tapStatus { s1 with tap := { s1.tap with data := BitVec.ofNat 64 lo.toNat } } 0

/-- Whether nothing serves an access at an offset now: the package is in DEEP or OFF, or the register's region has no clock. -/
def tapWaits (s : State) (off : Nat) : Bool :=
  hostDead s || ((absentDie s off).isNone && match regRegion s off with | some r => !regionUp s r | none => false)

/-- A write of DBG_REG with the rights of Table 16-3. -/
def tapWrite (s : State) (off : Nat) (wide : Bool) (v : Nat) : State :=
  if mayWriteAt s .jtag off = false ∨ (debugOnly off ∧ sessDebug s = false) then tapStatus (regTop s .jtag off wide v) 2
  else
    let s1 := regTop s .jtag off wide v
    tapStatus s1 (if s1.pwr.held.length ≤ s.pwr.held.length then 0 else 1)

/-- A read that waited is done once its region serves it (R313, R437). -/
def tapFlush (s : State) : State :=
  match s.tap.read with
  | some (off, wide) => if tapWaits s off then s else tapRead { s with tap := { s.tap with read := none } } off wide
  | none => s

/-- DBG_REG at Update-DR (R437): one CTLBAR access. Status 0 done, 1 busy, 2 refused by rights, 3 misaligned. -/
def dbgRun (s : State) (shift : Nat) : State :=
  let off := 4 * bits shift 2 26
  let wide := bits shift 1 1 == 1
  let v := bits shift 32 64
  let s0 := tapIr s 0x10
  if off % (if wide then 8 else 4) ≠ 0 then tapStatus s0 3
  else if 2 ^ 26 ≤ off then
    if bits shift 0 1 = 1 then tapStatus s0 0 else tapStatus { s0 with tap := { s0.tap with data := 0 } } 0
  else if bits shift 0 1 = 0 then tapFlush (tapStatus { s0 with tap := { s0.tap with read := some (off, wide) } } 1)
  else if hostDead s0 then tapStatus s0 1
  else tapWrite s0 off wide v

/-- What an SMBus sensor reports (R447): the state sensor adds OFF, as 4. -/
def smbusValue (s : State) : SmbRequest → Nat
  | .hottestJunction => (hottest s 0 36).1
  | .hottestFirn => (hottest s 64 32).1
  | .power => getF s rPWR_MEAS 0 13
  | .powerState => if s.pwr.off then 4 else pwrState s

/-- SMBUS_MCTP_REQUEST (R447): served while VAUX is present. -/
def smbusRun (s : State) (q : SmbRequest) : State := if s.pwr.vaux then { s with pins := { s.pins with smbOut := smbusValue s q } } else s

/-- SMBUS_ARP (R447). -/
def arpRun (s : State) (a : BitVec 7) : State := if s.pwr.vaux then { s with pins := { s.pins with smbAddr := a } } else s

-- meanings ------------------------------------------------------------------------------------------------------------------------------------

/-- BYPASS (R436). -/
def execBypass (s : State) : Host.Outcome State Fault Refusal := .next (tapIr s 0xFF)
/-- IDCODE (R436). -/
def execIdcode (s : State) : Host.Outcome State Fault Refusal :=
  .next { tapIr s 0x01 with tap := { (tapIr s 0x01).tap with dr := idWord } }
/-- SAMPLE/PRELOAD (R436). -/
def execSamplePreload (pins : List Bool) (s : State) : Host.Outcome State Fault Refusal :=
  .next { tapIr s 0x02 with tap := { (tapIr s 0x02).tap with cells := pins } }
/-- EXTEST (R436). -/
def execExtest (s : State) : Host.Outcome State Fault Refusal := .next (extestRun s 0x00)
/-- CLAMP (R436). -/
def execClamp (s : State) : Host.Outcome State Fault Refusal := .next (extestRun s 0x03)
/-- HIGHZ (R436). -/
def execHighz (s : State) : Host.Outcome State Fault Refusal := .next (extestRun s 0x04)
/-- EXTEST_PULSE (R436). -/
def execExtestPulse (s : State) : Host.Outcome State Fault Refusal := .next (extestRun s 0x05)
/-- EXTEST_TRAIN (R436). -/
def execExtestTrain (s : State) : Host.Outcome State Fault Refusal := .next (extestRun s 0x06)
/-- DBG_REG (R437). -/
def execDbgReg (shift : BitVec 96) (s : State) : Host.Outcome State Fault Refusal := .next (dbgRun s shift.toNat)
/-- TRST_N (R436). -/
def execTrstN (s : State) : Host.Outcome State Fault Refusal := .next (tapReset s)
/-- TEST_LOGIC_RESET (R437). -/
def execTestLogicReset (s : State) : Host.Outcome State Fault Refusal := .next (tapReset s)
/-- SMBUS_MCTP_REQUEST (R447). -/
def execSmbusMctpRequest (req : SmbRequest) (s : State) : Host.Outcome State Fault Refusal := .next (smbusRun s req)
/-- SMBUS_ARP (R447). -/
def execSmbusArp (addr : BitVec 7) (s : State) : Host.Outcome State Fault Refusal := .next (arpRun s addr)

end Sys2Proof.Machine
end

