-- ==== Sys2Proof/Machine/Dispatch.lean ====
section
/-! DEFINITION. The effect of each command: one arm per row of the table of operations and events. -/

namespace Sys2Proof.Machine

def exec (i : Instr) (s : State) : Host.Outcome State Fault Refusal :=
  match i with
  | .nop core => Sys2Proof.Machine.execNop core s
  | .loop core => Sys2Proof.Machine.execLoop core s
  | .endl core => Sys2Proof.Machine.execEndl core s
  | .jmp core => Sys2Proof.Machine.execJmp core s
  | .aadd core => Sys2Proof.Machine.execAadd core s
  | .yieldW core => Sys2Proof.Machine.execYield core s
  | .halt core => Sys2Proof.Machine.execHalt core s
  | .sldcfg core => Sys2Proof.Machine.execSldcfg core s
  | .sldgo core => Sys2Proof.Machine.execSldgo core s
  | .mxcfg core => Sys2Proof.Machine.execMxcfg core s
  | .mxgo core => Sys2Proof.Machine.execMxgo core s
  | .swrcfg core => Sys2Proof.Machine.execSwrcfg core s
  | .swrgo core => Sys2Proof.Machine.execSwrgo core s
  | .vadd core => Sys2Proof.Machine.execVadd core s
  | .vsub core => Sys2Proof.Machine.execVsub core s
  | .vmul core => Sys2Proof.Machine.execVmul core s
  | .vfma core => Sys2Proof.Machine.execVfma core s
  | .vmax core => Sys2Proof.Machine.execVmax core s
  | .vmin core => Sys2Proof.Machine.execVmin core s
  | .vabs core => Sys2Proof.Machine.execVabs core s
  | .vneg core => Sys2Proof.Machine.execVneg core s
  | .vcmp core => Sys2Proof.Machine.execVcmp core s
  | .vsel core => Sys2Proof.Machine.execVsel core s
  | .vexp core => Sys2Proof.Machine.execVexp core s
  | .vlog core => Sys2Proof.Machine.execVlog core s
  | .vrcp core => Sys2Proof.Machine.execVrcp core s
  | .vrsq core => Sys2Proof.Machine.execVrsq core s
  | .vred core => Sys2Proof.Machine.execVred core s
  | .vcvt core => Sys2Proof.Machine.execVcvt core s
  | .vstat core => Sys2Proof.Machine.execVstat core s
  | .vstfin core => Sys2Proof.Machine.execVstfin core s
  | .vnorm core => Sys2Proof.Machine.execVnorm core s
  | .vperm core => Sys2Proof.Machine.execVperm core s
  | .vshuf core => Sys2Proof.Machine.execVshuf core s
  | .vpack core => Sys2Proof.Machine.execVpack core s
  | .vunpk core => Sys2Proof.Machine.execVunpk core s
  | .vget core => Sys2Proof.Machine.execVget core s
  | .vsetvl core => Sys2Proof.Machine.execVsetvl core s
  | .vupdsr core => Sys2Proof.Machine.execVupdsr core s
  | .waitc core => Sys2Proof.Machine.execWaitc core s
  | .sigc core => Sys2Proof.Machine.execSigc core s
  | .lfence core => Sys2Proof.Machine.execLfence core s
  | .mircommit core => Sys2Proof.Machine.execMircommit core s
  | .send core => Sys2Proof.Machine.execSend core s
  | .recv core => Sys2Proof.Machine.execRecv core s
  | .strmarm core => Sys2Proof.Machine.execStrmarm core s
  | .tileRowLoad core => Sys2Proof.Machine.execTileRowLoad core s
  | .tileReady core => Sys2Proof.Machine.execTileReady core s
  | .weightColumnEnter core => Sys2Proof.Machine.execWeightColumnEnter core s
  | .checkColumnInject core => Sys2Proof.Machine.execCheckColumnInject core s
  | .abftCheck core => Sys2Proof.Machine.execAbftCheck core s
  | .drainColumnEmit core => Sys2Proof.Machine.execDrainColumnEmit core s
  | .mxeOpComplete core => Sys2Proof.Machine.execMxeOpComplete core s
  | .passThroughItemRead core => Sys2Proof.Machine.execPassThroughItemRead core s
  | .vxeQueueStart core => Sys2Proof.Machine.execVxeQueueStart core s
  | .swrWritePerformed core => Sys2Proof.Machine.execSwrWritePerformed core s
  | .floeStallBegin cluster floe reason => Sys2Proof.Machine.execFloeStallBegin cluster floe reason s
  | .floeStallEnd cluster floe => Sys2Proof.Machine.execFloeStallEnd cluster floe s
  | .throttleHold cluster => Sys2Proof.Machine.execThrottleHold cluster s
  | .stallTimeout cluster floe => Sys2Proof.Machine.execStallTimeout cluster floe s
  | .quiescenceComplete core => Sys2Proof.Machine.execQuiescenceComplete core s
  | .switchComplete core => Sys2Proof.Machine.execSwitchComplete core s
  | .idleCoreSelect core => Sys2Proof.Machine.execIdleCoreSelect core s
  | .signalApply core => Sys2Proof.Machine.execSignalApply core s
  | .messageArrive core srcPkg srcCore srcOch => Sys2Proof.Machine.execMessageArrive core srcPkg srcCore srcOch s
  | .messageReturn core och => Sys2Proof.Machine.execMessageReturn core och s
  | .creditReturn core och => Sys2Proof.Machine.execCreditReturn core och s
  | .descWaitComplete core desc => Sys2Proof.Machine.execDescWaitComplete core desc s
  | .descRequestIssue core desc => Sys2Proof.Machine.execDescRequestIssue core desc s
  | .descDataWrite core desc => Sys2Proof.Machine.execDescDataWrite core desc s
  | .descComplete core desc => Sys2Proof.Machine.execDescComplete core desc s
  | .fenceRelease core desc => Sys2Proof.Machine.execFenceRelease core desc s
  | .gather core desc => Sys2Proof.Machine.execGather core desc s
  | .gatherSum core desc => Sys2Proof.Machine.execGatherSum core desc s
  | .kvFetch core desc => Sys2Proof.Machine.execKvFetch core desc s
  | .expandSparse core desc => Sys2Proof.Machine.execExpandSparse core desc s
  | .expandCodebook core desc => Sys2Proof.Machine.execExpandCodebook core desc s
  | .expandSparseCodebook core desc => Sys2Proof.Machine.execExpandSparseCodebook core desc s
  | .firnRequestEnter stack chan port => Sys2Proof.Machine.execFirnRequestEnter stack chan port s
  | .firnReadReturn stack chan port => Sys2Proof.Machine.execFirnReadReturn stack chan port s
  | .firnWritePerformed stack chan port => Sys2Proof.Machine.execFirnWritePerformed stack chan port s
  | .readModifyWrite stack chan port => Sys2Proof.Machine.execReadModifyWrite stack chan port s
  | .refreshSlot stack => Sys2Proof.Machine.execRefreshSlot stack s
  | .refreshRegimeChange stack temp => Sys2Proof.Machine.execRefreshRegimeChange stack temp s
  | .selfRefreshExit stack => Sys2Proof.Machine.execSelfRefreshExit stack s
  | .firnInitDone stack => Sys2Proof.Machine.execFirnInitDone stack s
  | .packetInject cluster link source slot first rest => Sys2Proof.Machine.execPacketInject cluster link source slot first rest s
  | .packetSwitchEnter out => Sys2Proof.Machine.execPacketSwitchEnter out s
  | .turnBufferRelease out => Sys2Proof.Machine.execTurnBufferRelease out s
  | .turnHoldRelease out => Sys2Proof.Machine.execTurnHoldRelease out s
  | .packetDeliver cluster link => Sys2Proof.Machine.execPacketDeliver cluster link s
  | .wheelHold die => Sys2Proof.Machine.execWheelHold die s
  | .wheelStart die neighbour transit => Sys2Proof.Machine.execWheelStart die neighbour transit s
  | .droopStretch region two => Sys2Proof.Machine.execDroopStretch region two s
  | .crossingAlign crossing margin3 => Sys2Proof.Machine.execCrossingAlign crossing margin3 s
  | .pllNChange region => Sys2Proof.Machine.execPllNChange region s
  | .marginWarn cluster code => Sys2Proof.Machine.execMarginWarn cluster code s
  | .autostep cluster code => Sys2Proof.Machine.execAutostep cluster code s
  | .refloss => Sys2Proof.Machine.execRefloss s
  | .refclkReturn => Sys2Proof.Machine.execRefclkReturn s
  | .tbSyncInEdge => Sys2Proof.Machine.execTbSyncInEdge s
  | .timeExchange => Sys2Proof.Machine.execTimeExchange s
  | .syncLost => Sys2Proof.Machine.execSyncLost s
  | .tbAlarmFire => Sys2Proof.Machine.execTbAlarmFire s
  | .tbSyncOutPulse => Sys2Proof.Machine.execTbSyncOutPulse s
  | .pwrReqRun src => Sys2Proof.Machine.execPwrReqRun src s
  | .pwrReqIdle src => Sys2Proof.Machine.execPwrReqIdle src s
  | .pwrReqSleep src => Sys2Proof.Machine.execPwrReqSleep src s
  | .pwrReqDeep src => Sys2Proof.Machine.execPwrReqDeep src s
  | .pwrReqOff src => Sys2Proof.Machine.execPwrReqOff src s
  | .idleClusterGate cluster => Sys2Proof.Machine.execIdleClusterGate cluster s
  | .gatedClusterAccess cluster => Sys2Proof.Machine.execGatedClusterAccess cluster s
  | .sleepEntryComplete => Sys2Proof.Machine.execSleepEntryComplete s
  | .deepEntryComplete => Sys2Proof.Machine.execDeepEntryComplete s
  | .offEntry => Sys2Proof.Machine.execOffEntry s
  | .wakeDetect source => Sys2Proof.Machine.execWakeDetect source s
  | .railSettled die report => Sys2Proof.Machine.execRailSettled die report s
  | .regionPowerUp region => Sys2Proof.Machine.execRegionPowerUp region s
  | .pllLock region => Sys2Proof.Machine.execPllLock region s
  | .wakeComplete => Sys2Proof.Machine.execWakeComplete s
  | .activityRampStep cluster => Sys2Proof.Machine.execActivityRampStep cluster s
  | .powerLimiterSample watts => Sys2Proof.Machine.execPowerLimiterSample watts s
  | .thermalLevelUpdate cluster tjRegion tjService tFirn => Sys2Proof.Machine.execThermalLevelUpdate cluster tjRegion tjService tFirn s
  | .brownout die amps => Sys2Proof.Machine.execBrownout die amps s
  | .ivrLpExit current => Sys2Proof.Machine.execIvrLpExit current s
  | .dvfsTargetWrite src value => Sys2Proof.Machine.execDvfsTargetWrite src value s
  | .settleTimeout die => Sys2Proof.Machine.execSettleTimeout die s
  | .padRelease src => Sys2Proof.Machine.execPadRelease src s
  | .thermtrip sensor temp => Sys2Proof.Machine.execThermtrip sensor temp s
  | .thermalWarn sensor temp => Sys2Proof.Machine.execThermalWarn sensor temp s
  | .mainPowerLoss => Sys2Proof.Machine.execMainPowerLoss s
  | .mainSuppliesPresent => Sys2Proof.Machine.execMainSuppliesPresent s
  | .vauxPowerUp railMode bootSrc => Sys2Proof.Machine.execVauxPowerUp railMode bootSrc s
  | .vauxLoss => Sys2Proof.Machine.execVauxLoss s
  | .rstFloe src index => Sys2Proof.Machine.execRstFloe src index s
  | .rstCore src index => Sys2Proof.Machine.execRstCore src index s
  | .rstCluster src index => Sys2Proof.Machine.execRstCluster src index s
  | .rstDie src index => Sys2Proof.Machine.execRstDie src index s
  | .rstPackage src index => Sys2Proof.Machine.execRstPackage src index s
  | .resetComplete => Sys2Proof.Machine.execResetComplete s
  | .perstN => Sys2Proof.Machine.execPerstN s
  | .functionLevelReset => Sys2Proof.Machine.execFunctionLevelReset s
  | .hostLinkTrain rate width flit => Sys2Proof.Machine.execHostLinkTrain rate width flit s
  | .hostLinkLoss => Sys2Proof.Machine.execHostLinkLoss s
  | .busMasterEnable on => Sys2Proof.Machine.execBusMasterEnable on s
  | .ctlbarBadAccess write offset size => Sys2Proof.Machine.execCtlbarBadAccess write offset size s
  | .firnbarRead offset len => Sys2Proof.Machine.execFirnbarRead offset len s
  | .firnbarWrite offset data => Sys2Proof.Machine.execFirnbarWrite offset data s
  | .hringPoll head entries => Sys2Proof.Machine.execHringPoll head entries s
  | .hringEnable src => Sys2Proof.Machine.execHringEnable src s
  | .hringDisable src => Sys2Proof.Machine.execHringDisable src s
  | .hostNop => Sys2Proof.Machine.execHostNop s
  | .move => Sys2Proof.Machine.execMove s
  | .load read => Sys2Proof.Machine.execLoad read s
  | .regw => Sys2Proof.Machine.execRegw s
  | .signalCommand => Sys2Proof.Machine.execSignalCommand s
  | .power => Sys2Proof.Machine.execPower s
  | .closeCommand => Sys2Proof.Machine.execCloseCommand s
  | .moverComplete mover hostData => Sys2Proof.Machine.execMoverComplete mover hostData s
  | .loadComplete => Sys2Proof.Machine.execLoadComplete s
  | .hostIrqEnWrite src value => Sys2Proof.Machine.execHostIrqEnWrite src value s
  | .sessReq src kind => Sys2Proof.Machine.execSessReq src kind s
  | .sessSubmit src => Sys2Proof.Machine.execSessSubmit src s
  | .sessClose src => Sys2Proof.Machine.execSessClose src s
  | .lockoutExpiry => Sys2Proof.Machine.execLockoutExpiry s
  | .provision src => Sys2Proof.Machine.execProvision src s
  | .provisionDone => Sys2Proof.Machine.execProvisionDone s
  | .dbgUnlock src => Sys2Proof.Machine.execDbgUnlock src s
  | .dbgLock src => Sys2Proof.Machine.execDbgLock src s
  | .lifecycleRelease src => Sys2Proof.Machine.execLifecycleRelease src s
  | .bootRomRun image => Sys2Proof.Machine.execBootRomRun image s
  | .bootPushStart src => Sys2Proof.Machine.execBootPushStart src s
  | .bootPushData src value => Sys2Proof.Machine.execBootPushData src value s
  | .bootPushDone src => Sys2Proof.Machine.execBootPushDone src s
  | .attestReq src => Sys2Proof.Machine.execAttestReq src s
  | .attestSignDone => Sys2Proof.Machine.execAttestSignDone s
  | .fabPortEnable src port => Sys2Proof.Machine.execFabPortEnable src port s
  | .fabPortDisable src port => Sys2Proof.Machine.execFabPortDisable src port s
  | .trainingDone port lane0 lane1 lane2 lane3 peer => Sys2Proof.Machine.execTrainingDone port lane0 lane1 lane2 lane3 peer s
  | .trainingTimeout port => Sys2Proof.Machine.execTrainingTimeout port s
  | .lpExit port => Sys2Proof.Machine.execLpExit port s
  | .fabWakeSend src port => Sys2Proof.Machine.execFabWakeSend src port s
  | .flitReceive port flit => Sys2Proof.Machine.execFlitReceive port flit s
  | .linkDown port cause => Sys2Proof.Machine.execLinkDown port cause s
  | .ethFrameReceive port addresses body fcs => Sys2Proof.Machine.execEthFrameReceive port addresses body fcs s
  | .rtoExpiry port => Sys2Proof.Machine.execRtoExpiry port s
  | .write port pkt => Sys2Proof.Machine.execWrite port pkt s
  | .read port pkt => Sys2Proof.Machine.execRead port pkt s
  | .readData port pkt => Sys2Proof.Machine.execReadData port pkt s
  | .ack port pkt => Sys2Proof.Machine.execAck port pkt s
  | .error port pkt => Sys2Proof.Machine.execError port pkt s
  | .msg port pkt => Sys2Proof.Machine.execMsg port pkt s
  | .credit port pkt => Sys2Proof.Machine.execCredit port pkt s
  | .fabricSignal port pkt => Sys2Proof.Machine.execFabricSignal port pkt s
  | .timeReq port t1 => Sys2Proof.Machine.execTimeReq port t1 s
  | .timeRsp port t1 t2 t3 retried => Sys2Proof.Machine.execTimeRsp port t1 t2 t3 retried s
  | .wakePacket port => Sys2Proof.Machine.execWakePacket port s
  | .delta pkt => Sys2Proof.Machine.execDelta pkt s
  | .commit pkt => Sys2Proof.Machine.execCommit pkt s
  | .commitApply => Sys2Proof.Machine.execCommitApply s
  | .commitAck pkt => Sys2Proof.Machine.execCommitAck pkt s
  | .trackerTimeout tag => Sys2Proof.Machine.execTrackerTimeout tag s
  | .mirCtlWrite src low high => Sys2Proof.Machine.execMirCtlWrite src low high s
  | .mirrorLag => Sys2Proof.Machine.execMirrorLag s
  | .ccRun src cc => Sys2Proof.Machine.execCcRun src cc s
  | .ccReset src cc => Sys2Proof.Machine.execCcReset src cc s
  | .ccSig cc value => Sys2Proof.Machine.execCcSig cc value s
  | .ccHostirq cc value => Sys2Proof.Machine.execCcHostirq cc value s
  | .ccTimerInterrupt cc => Sys2Proof.Machine.execCcTimerInterrupt cc s
  | .ccExternalInterrupt cc => Sys2Proof.Machine.execCcExternalInterrupt cc s
  | .ccRemoteStore cc offset data => Sys2Proof.Machine.execCcRemoteStore cc offset data s
  | .ccRemoteLoad cc offset len => Sys2Proof.Machine.execCcRemoteLoad cc offset len s
  | .ccStoreAccess cc addr len data => Sys2Proof.Machine.execCcStoreAccess cc addr len data s
  | .ownerProgramException cc cause pc => Sys2Proof.Machine.execOwnerProgramException cc cause pc s
  | .srvRequestPoll => Sys2Proof.Machine.execSrvRequestPoll s
  | .servingStep tokens => Sys2Proof.Machine.execServingStep tokens s
  | .sclRoll src core => Sys2Proof.Machine.execSclRoll src core s
  | .monClose src core => Sys2Proof.Machine.execMonClose src core s
  | .mlogRelease src die => Sys2Proof.Machine.execMlogRelease src die s
  | .ledgerSnapshot => Sys2Proof.Machine.execLedgerSnapshot s
  | .trcEnableWrite src die value => Sys2Proof.Machine.execTrcEnableWrite src die value s
  | .trcBufWrite src die value => Sys2Proof.Machine.execTrcBufWrite src die value s
  | .trcMark src die value => Sys2Proof.Machine.execTrcMark src die value s
  | .tracePacketWrite die slot slotBusy => Sys2Proof.Machine.execTracePacketWrite die slot slotBusy s
  | .bypass => Sys2Proof.Machine.execBypass s
  | .idcode => Sys2Proof.Machine.execIdcode s
  | .samplePreload pins => Sys2Proof.Machine.execSamplePreload pins s
  | .extest => Sys2Proof.Machine.execExtest s
  | .clamp => Sys2Proof.Machine.execClamp s
  | .highz => Sys2Proof.Machine.execHighz s
  | .extestPulse => Sys2Proof.Machine.execExtestPulse s
  | .extestTrain => Sys2Proof.Machine.execExtestTrain s
  | .dbgReg shift => Sys2Proof.Machine.execDbgReg shift s
  | .trstN => Sys2Proof.Machine.execTrstN s
  | .smbusMctpRequest req => Sys2Proof.Machine.execSmbusMctpRequest req s
  | .smbusArp addr => Sys2Proof.Machine.execSmbusArp addr s
  | .taskStart src core slot => Sys2Proof.Machine.execTaskStart src core slot s
  | .taskClear src core slot => Sys2Proof.Machine.execTaskClear src core slot s
  | .floeStart src cluster floe => Sys2Proof.Machine.execFloeStart src cluster floe s
  | .floeClear src cluster floe => Sys2Proof.Machine.execFloeClear src cluster floe s
  | .floeHold src cluster floe hold => Sys2Proof.Machine.execFloeHold src cluster floe hold s
  | .floeDefWrite src cluster floe value => Sys2Proof.Machine.execFloeDefWrite src cluster floe value s
  | .coreCtlWrite src core value => Sys2Proof.Machine.execCoreCtlWrite src core value s
  | .ctrAdvance src core ctr => Sys2Proof.Machine.execCtrAdvance src core ctr s
  | .ctrValueWrite src core ctr value => Sys2Proof.Machine.execCtrValueWrite src core ctr value s
  | .ichClose src core ich => Sys2Proof.Machine.execIchClose src core ich s
  | .ichReopenKeep src core ich => Sys2Proof.Machine.execIchReopenKeep src core ich s
  | .ichReopenFlush src core ich => Sys2Proof.Machine.execIchReopenFlush src core ich s
  | .descTemplateWrite src core desc word value => Sys2Proof.Machine.execDescTemplateWrite src core desc word value s
  | .firnMapWrite src stack mode => Sys2Proof.Machine.execFirnMapWrite src stack mode s
  | .firnRefreshWrite src stack rate => Sys2Proof.Machine.execFirnRefreshWrite src stack rate s
  | .tbValueWrite src value => Sys2Proof.Machine.execTbValueWrite src value s
  | .tbLowRead src => Sys2Proof.Machine.execTbLowRead src s
  | .legacyWrite src cluster legacy => Sys2Proof.Machine.execLegacyWrite src cluster legacy s
  | .pkgIdWrite src value => Sys2Proof.Machine.execPkgIdWrite src value s
  | .debugRegisterWrite src core offset value wide => Sys2Proof.Machine.execDebugRegisterWrite src core offset value wide s
  | .registerWrite src offset wide value => Sys2Proof.Machine.execRegisterWrite src offset wide value s
  | .unlistedOpcode core => Sys2Proof.Machine.execUnlistedOpcode core s
  | .testLogicReset => Sys2Proof.Machine.execTestLogicReset s
  | .peerLp port inLp => Sys2Proof.Machine.execPeerLp port inLp s
  | .msixUnmask entry => Sys2Proof.Machine.execMsixUnmask entry s

end Sys2Proof.Machine
end

