-- ==== Sys2Proof/Machine/Tick.lean ====
section
/-! DEFINITION. What one tick of the 100 MHz time-base clock does when no command waits (13_clocks_timebase.md, R284 to R294; R192, R206, R323): time, the cycles of
the regions, slot wheels and floe counts. -/

namespace Sys2Proof.Machine

/-- Empty steps in which one tick of 10 ns passes: the most root periods that a region completes in a tick (R284), so that a step begins at most one cycle of any
clock (DESIGN CHOICE, entry 2). -/
def subSteps : Nat := 34

/-- The time base moves on by 10 ns, corrected by the servo (R294, R298); a pulse of TB_SYNC_OUT lasts one tick. -/
def timeTick (s : State) : State :=
  let d : Int := 10 * 2 ^ 32 + clampServo (s.time.rate + s.time.slew)
  { s with time := { s.time with tb := (((s.time.tb : Int) + d) % (2 ^ 96 : Int)).toNat, ticks := s.time.ticks + 1, syncOut := false } }

/-- Whether a region completes a root period in a step of the tick: its N periods spread evenly over the steps (R284). -/
def rootEdge (s : State) (r : Nat) : Bool :=
  let n := regionN s r
  (s.time.sub + 1) * n / subSteps != s.time.sub * n / subSteps

/-- The root of a region runs for one step: a period held by a stretch is not one of its cycles (R285); the phase is kept modulo 4. -/
def rootStep (s : State) (r : Nat) : State :=
  let x := regionOf s r
  if rootEdge s r = false then s
  else if 0 < x.debt then setRegion s r { x with debt := x.debt - 1 }
  else setRegion s r { x with phase := (x.phase + 1) % 4 }

/-- Whether an ACLK or CCLK cycle, and an NCLK cycle, of a region begins in the step (Table 13-1): ACLK at half the root, NCLK at a quarter. -/
def halfBegins (s : State) (r : Nat) : Bool := rootEdge s r && (regionOf s r).debt == 0 && (regionOf s r).phase % 2 == 1
def quarterBegins (s : State) (r : Nat) : Bool := rootEdge s r && (regionOf s r).debt == 0 && (regionOf s r).phase == 3

/-- A cycle of a floe that counts nowhere else: with no reason in force and no group left in the present floe cycle, the count advances and ends the continuous stall
(R192, R207); a frozen cycle counts under its reason, saturating (R206, Table 08-1). -/
def floeCount (s : State) (cl f r : Nat) : State :=
  if r ≠ 0 then satF s (rFLOE_STALL cl f r) 0 32 1
  else if floeAll s cl f && ((floeMembers s cl f).all fun m => decide (floeNow s m.1 m.2 < groupDue s m.1 m.2)) then
    setFloe (add64 s (rFLOE_CYC cl f) 1) cl f { floeOf s cl f with since := none }
  else s

/-- An elastic stall begins with a lag that would reach 9 and ends when every lag is 0 (R76). -/
def elastic (s : State) (cl f : Nat) : State :=
  let x := floeOf s cl f
  if x.held = 0 then (match (floeLags s cl f).min? with | some r => setFloe s cl f { x with held := r } | none => s)
  else if floeQuiesces s cl f = false ∧ floeCaughtUp s cl f = true then setFloe s cl f { x with held := 0 }
  else s

/-- A floe that neither runs nor waits has no reason in force, and once no member is READY either, its continuous stall is over (R206, R207). -/
def floeRests (s : State) (cl f : Nat) : State :=
  let s1 := if getF s (rFLOE_STAT cl f) 0 4 = 0 then s else setFloeReason s cl f 0
  if floeBusy s1 cl f || (floeOf s1 cl f).since.isNone then s1 else setFloe s1 cl f { floeOf s1 cl f with since := none }

/-- One ACLK cycle of a floe: the reason in force is the lowest whose cause holds. -/
def floeCycle (s : State) (cl f : Nat) : State :=
  if getB s (rFLOE_DEF cl f) 16 = false ∨ floeMembers s cl f = [] then s
  else if (floeSome s cl f || floeQuiesces s cl f) = false then floeRests s cl f
  else
    let s1 := elastic s cl f
    let r := (floeCodes s1 cl f).min?.getD 0
    floeCount (setFloeReason s1 cl f r) cl f r

/-- An ACLK cycle of a cluster whose clock runs begins: the counts of its floes account for the cycle that ends. -/
def clusterCycle (s : State) (cl : Nat) : State :=
  let s0 := (List.range 8).foldl (fun s r => owedRun s (8 * cl + r)) s
  let s1 := (List.range 8).foldl (fun s r => paceRun s (8 * cl + r)) ((List.range 32).foldl (fun s f => floeCycle s cl f) s0)
  let k := clusterOf s1 cl
  let busy := (List.range 32).any fun f => floeRuns s1 cl f
  let s2 := setCluster s1 cl { k with idleCyc := if busy then 0 else min 4096 (k.idleCyc + 1), rampCyc := min 256 (k.rampCyc + 1) }
  setRegion s2 cl { regionOf s2 cl with cyc := (regionOf s2 cl).cyc + 1 }

/-- A tick in which a cluster's clock is off is no part of a continuous stall (R207), nor is a wait of a RECV when IDLE_OK = 1. -/
def stallPause (s : State) (cl : Nat) (off : Bool) : State :=
  (List.range 32).foldl (fun s f =>
    let x := floeOf s cl f
    match x.since with
    | some t0 =>
      if off || (getF s (rFLOE_STAT cl f) 0 4 == 14 && getB s (rFLOE_DEF cl f) 17) then setFloe s cl f { x with since := some (t0 + 10) } else s
    | none => s) s

/-- One step of a cluster region: its side of the crossings runs with FCLK, which gating leaves running (R306). -/
def clusterStep (s : State) (cl : Nat) : State :=
  let off := regionUp s cl = false ∨ (clusterOf s cl).gated
  let s0 := if s.time.sub = 0 then stallPause s cl off else s
  if regionUp s0 cl = false then s0
  else if halfBegins s0 cl = false then rootStep s0 cl
  else
    let s1 := crossStep (rootStep s0 cl) cl
    if (clusterOf s1 cl).gated then s1 else clusterCycle s1 cl

/-- The NCLK cycles that begin in a step, side by side on the four dies: each compares the counts of its neighbours as they stood before (R291, R292). -/
def serviceStep (s : State) : State :=
  let go := (List.range 4).filter fun d => regionUp s (32 + d) && quarterBegins s (32 + d)
  let s1 := (List.range 4).foldl (fun s d => if regionUp s (32 + d) then rootStep s (32 + d) else s) s
  let s2 := go.foldl (fun s d => (List.range 4).foldl (fun s i => ccTodo s (4 * d + i)) (switchCycle s d)) (nclkCycles s1 go)
  let s2 := if s2.host.bar.isEmpty then s2 else barRun s2
  -- the nodes of fused clusters, whose interfaces remain (R160): their side runs with the die's NCLK (entry 114)
  go.foldl (fun s d => (List.range 8).foldl (fun s k => if clusterPresent s (8 * d + k) then s else crossStep s (8 * d + k)) s) s2

/-- One step of the block with no command. Without VAUX nothing runs. -/
def tick (s : State) : State :=
  if s.pwr.vaux = false then s
  else
    let s0 := if s.time.sub = 0 then timeTick s else s
    let s1 := tapFlush <| edgesRun (serviceStep ((List.range 32).foldl clusterStep s0))
    { s1 with time := { s1.time with sub := (s1.time.sub + 1) % subSteps } }

end Sys2Proof.Machine
end

