-- ==== Sys2Proof/Safety.lean ====
section
/-! DEFINITION. The words that statements use: what a state keeps, when a word issues, when a register write is served, and the invariants of the block. -/

namespace Sys2Proof.Safety

open Sys2Proof.Machine

-- frames ---------------------------------------------------------------------------------------------------------------

/-- Every byte of firn and of the stationary stores reads as before. -/
def SameMem (s t : State) : Prop := ∀ a, rdByte t a = rdByte s a

/-- Every register word but those of a list reads as before. -/
def SameRegsBut (l : List Nat) (s t : State) : Prop := ∀ off, off ∉ l → getR t off = getR s off

/-- A command that changes no memory, no register but those of a list, no fuse and no waiting command. -/
def Frame (l : List Nat) (s t : State) : Prop :=
  SameMem s t ∧ SameRegsBut l s t ∧ t.fuses = s.fuses ∧ t.pending = s.pending

/-- The unaddressed state of every core but one is as before. -/
def OtherCores (c : Nat) (s t : State) : Prop := ∀ k, k ≠ c → coreOf t k = coreOf s k

/-- The task slots of a core but one are as before. -/
def OtherSlots (c t : Nat) (s s' : State) : Prop := ∀ u, u ≠ t → slotOf s' c u = slotOf s c u

-- native words -----------------------------------------------------------------------------------------------------------

/-- The sequencer of core c is at a group of the single word w, in its running slot t, whose floe is f; its floe cycle has come (R113), nothing holds the floe,
no other member's group stalls (R193), the word breaks no rule of its own (R142 to R157), waits for nothing (R117) and passes its checks at issue (R466). -/
def Issues (s : State) (c t f w : Nat) : Prop :=
  coreRuns s c = true ∧ (coreOf s c).switch = none ∧ runningSlot s c = some t ∧ floeFor s c t = some f ∧
    s.rstJob ≠ some (0, 32 * (c / 8) + f) ∧ groupDue s c t ≤ floeNow s c t ∧ floeHeld s c f = 0 ∧ matesRun s c t = true ∧ mateCodes s c t = [] ∧
    fetchGroup s c t = .words [((slotOf s c t).pc, w)] ∧ staticReason (slotOf s c t) 0 [] (slotOf s c t).pc w = none ∧
    wordWait s c t (slotOf s c t).pc w = 0 ∧ (dynFault s c t (slotOf s c t).pc w).isNone = true

/-- What the issue of any word of floe f of core c's cluster may write besides the word's own effect: the floe's stall reason and the count of lost trace
records of its die. -/
def issueRegs (c f : Nat) : List Nat := [rFLOE_STAT (c / 8) f, rTRC_STAT (c / 64) + 4]

/-- A slot that goes on at the next word: its pc advances, the next group's D counts from this floe cycle (R113), and every other register it has is as before. -/
def StepsOn (s s' : State) (c t : Nat) : Prop :=
  slotOf s' c t = { slotOf s c t with pc := (slotOf s c t).pc + 1, jumped := false, wait := none, cyc := floeNow s c t, fresh := false }

/-- A vector word that starts at once: the instruction queue is empty, its flowline elements and its room are there, its registers hold no parity error, and its
effective length is n (R88, R111). -/
def StartsAt (s : State) (c t w n : Nat) : Prop :=
  (coreOf s c).vxq = [] ∧ vxeReady s c t w = true ∧ vregParity s c t w = false ∧ n = effLen (slotOf s c t).vl w
/-- A vector word that starts at once on one element or more. -/
def Starts (s : State) (c t w n : Nat) : Prop := StartsAt s c t w n ∧ 0 < n

/-- The element-wise arithmetic words and their commands. -/
def arithWords (c : CoreId) : List (Op × Instr) :=
  [(.vadd, .vadd c), (.vsub, .vsub c), (.vmul, .vmul c), (.vfma, .vfma c), (.vmax, .vmax c), (.vmin, .vmin c), (.vabs, .vabs c), (.vneg, .vneg c),
    (.vexp, .vexp c), (.vlog, .vlog c), (.vrcp, .vrcp c), (.vrsq, .vrsq c)]
/-- The vector words and their commands. -/
def vectorWords (c : CoreId) : List (Op × Instr) :=
  arithWords c ++ [(.vcmp, .vcmp c), (.vsel, .vsel c), (.vred, .vred c), (.vcvt, .vcvt c), (.vstat, .vstat c), (.vstfin, .vstfin c), (.vnorm, .vnorm c),
    (.vperm, .vperm c), (.vshuf, .vshuf c), (.vpack, .vpack c), (.vunpk, .vunpk c), (.vget, .vget c), (.vsetvl, .vsetvl c), (.vupdsr, .vupdsr c)]

/-- The elements in the SWR skid buffer of a core, oldest first (R112). -/
def skid (s : State) (c : Nat) : List Elem := (coreOf s c).flo.flatMap FloEnt.es

/-- Lane i of a vector register in a format (R88). -/
def lane (s : State) (c r f i : Nat) : Nat := bits (vreg s c r).toNat (laneBits f * i) (laneBits f)

/-- The vector registers of a core but some are as before. -/
def OtherVregs (l : List Nat) (c : Nat) (s s' : State) : Prop := ∀ r, r ∉ l → vreg s' c r = vreg s c r

-- register writes ------------------------------------------------------------------------------------------------------------

/-- The package is awake, no entry to a lower state is in progress and no access waits. -/
def Awake (s : State) : Prop := s.pwr.vaux = true ∧ awake s = true ∧ s.pwr.held = [] ∧ s.pwr.entry = none

/-- A source's write to the register word at an offset is served at once: the source runs and has the rights (R361), the unit is present (R279), its region has its
clock, its crossing is aligned, and its cluster is not gated (R288, R306, R313). -/
def Served (s : State) (src : Src) (off : Nat) : Prop :=
  Awake s ∧ srcLive s src = true ∧ mayWriteAt s src off = true ∧ absentDie s off = none ∧
    (regRegion s off).all (fun r => regionUp s r && !crossWaits s r) = true ∧ gatedFor s off = none

-- fabric ----------------------------------------------------------------------------------------------------------------------------

/-- A packet joins the transmit queue of its VL and class of a port, whose flits leave in order while they hold credits (R329 to R332). -/
def Sends (s s' : State) (p cls : Nat) (k : Packet) : Prop := portOf s' p = portOf (txPush s p cls k) p

/-- A response leaves on its first hop, and no other port changes (R327, R343). -/
def Responds (s s' : State) (k : Packet) : Prop := ∀ p, portOf s' p = portOf (fabRespond s k) p

-- host ----------------------------------------------------------------------------------------------------------------------------------

/-- The record of a completed command is written at the completion index, which advances (R371). -/
def Records (s s' : State) (c : HostCmd) (status info : Nat) : Prop :=
  getR s' rCTAIL = getR s rCTAIL + 1 ∧
    ∃ out, s'.host.out = s.host.out ++ out ++ [.record ((getR64 s rCRING_BASE + 32 * ((getR s rCTAIL).toNat % 2 ^ ringLog s)) % 2 ^ 64)
      (recWords s ⟨c, status, info, tbNow s⟩)]

/-- The host's next command is c, which a trained link with Bus Master Enable lets complete at once, without an interrupt of its own (R364, R370, R371). -/
def NextCommand (s : State) (c : HostCmd) (opc : Nat) : Prop :=
  (∃ r, s.host.accepted = c :: r) ∧ cmdOpc c = opc ∧ fenceOk s c = true ∧ hostDead s = false ∧ busMaster s = true ∧ s.host.recs = [] ∧ cmdF c 0 9 1 = 0

-- invariants -------------------------------------------------------------------------------------------------------------------

/-- Registers and memory are in their canonical form: equal contents are equal data. -/
def Canonical (s : State) : Prop := mwf resetVal s.regs = true ∧ mwf zeroByte s.mem = true

/-- Whether an owner slot of the security store has been programmed (R407). -/
def usedAt (s : State) (k : Nat) : Bool := (ownerSlot s k).used

/-- What fuses hold, a later state holds (R1, R404, R407): the grade, a security version at least as high, and the programmed owner slots. -/
def FusesKept (s t : State) : Prop :=
  t.fuses = s.fuses ∧ s.sec.svn ≤ t.sec.svn ∧ ∀ k, usedAt s k = true → usedAt t k = true

end Sys2Proof.Safety
end

