-- ==== Sys2Proof/Certificates/Slice0/Obligations.lean ====
section
/-! DEFINITION. The statements for the provers: what the commands do and what every step keeps, from the rules of the spec. -/

open Sys2Proof Sys2Proof.Machine Sys2Proof.Safety

-- the block ------------------------------------------------------------------------------------------------------------------

/-- O1. A command at the front of the queue acts on the state with the rest of the queue (the block's step; log entry 1). -/
def Obligations.StepRunsTheFrontCommand : Prop :=
  ∀ (c : Instr) (s : State), step { s with pending := c :: s.pending } = exec c s

/-- O2. Every step keeps registers and memory in canonical form: every listed word and byte stands at a rising offset and differs from its reset value. -/
def Obligations.StepKeepsCanonicalStores : Prop :=
  ∀ (s t : State), Canonical s → step s = .next t → Canonical t

/-- O3. The state after reset is canonical, its queue is empty, and every register word reads its reset value. -/
def Obligations.ResetIsCanonical : Prop :=
  Canonical State.reset ∧ State.reset.pending = [] ∧ (∀ off, getR State.reset off = resetVal off) ∧ (∀ a, rdByte State.reset a = 0)

/-- O4. No step, a reset or a loss of supply among them, changes the grade fuses, lowers the security version or frees a programmed owner slot (R1, R404, R407). -/
def Obligations.StepKeepsFuses : Prop := ∀ (s t : State), step s = .next t → FusesKept s t

-- native words (05, 06) -------------------------------------------------------------------------------------------------------

/-- O5. NOP, LOOP, ENDL and JMP move the pc and the loops (R125 to R127, R131), and write no register, byte or other slot but the floe's stall reason.
LOOP latches bits [23:0] of its scalar register; a count of 0 goes on after the ENDL. AADD writes a[AS] + X modulo 2^32 to a[AD], X a signed 16-bit immediate or the
low 32 bits of a scalar register (R119), and no other register of the slot. -/
def Obligations.SequencerWordsMoveThePc : Prop :=
  ∀ (core : CoreId) (s : State) (t f w : Nat), Issues s core t f w → wOp w ∈ [Op.nop, .loop, .endl, .jmp, .aadd] →
    ∃ s', exec (match wOp w with | .loop => .loop core | .endl => .endl core | .jmp => .jmp core | .aadd => .aadd core | _ => .nop core) s = .next s' ∧
      Frame (issueRegs core f) s s' ∧ OtherCores core s s' ∧ OtherSlots core t s s' ∧
      (wOp w = .nop → StepsOn s s' core t) ∧
      (wOp w = .jmp → slotOf s' core t = { slotOf s core t with pc := jmpTarget w, jumped := true, wait := none, cyc := floeNow s core t, fresh := false }) ∧
      (wOp w = .loop → ∀ n, n = (sreg s core t (loopSk w)).toNat % 2 ^ 24 →
        (n = 0 → slotOf s' core t = { slotOf s core t with pc := loopEndidx w + 1, jumped := true, wait := none, cyc := floeNow s core t, fresh := false }) ∧
        (n ≠ 0 → slotOf s' core t = { slotOf s core t with
          pc := (slotOf s core t).pc + 1, jumped := true, wait := none, cyc := floeNow s core t, fresh := false,
          loops := ⟨(slotOf s core t).pc + 1, loopEndidx w, n⟩ :: (slotOf s core t).loops })) ∧
      (wOp w = .endl → ∀ q r, (slotOf s core t).loops = q :: r →
        (1 < q.left → slotOf s' core t = { slotOf s core t with
          pc := q.start, jumped := true, wait := none, cyc := floeNow s core t, fresh := false, loops := { q with left := q.left - 1 } :: r }) ∧
        (q.left ≤ 1 → slotOf s' core t = { slotOf s core t with
          pc := (slotOf s core t).pc + 1, jumped := true, wait := none, cyc := floeNow s core t, fresh := false, loops := r })) ∧
      (wOp w = .aadd → areg s' core t (aaddAd w) = areg s core t (aaddAs w) +
          (if aaddXsrc w = 1 then (sreg s core t (aaddSx w)).setWidth 32 else (BitVec.ofNat 16 (aaddImm w)).signExtend 32) ∧
        (∀ r, r ≠ aaddAd w → areg s' core t r = areg s core t r) ∧ (∀ r, sreg s' core t r = sreg s core t r) ∧
        (slotOf s' core t).pc = (slotOf s core t).pc + 1)

/-- O6. A configuration word writes one staging register of its unit with IMM, a[RIDX] + IMM or bits [31:0] of s[RIDX] + IMM, reserved bits discarded (R148), and no
other staging register. SLDGO, MXGO and SWRGO latch the staging registers and queue one operation behind those of the slot's engines (R64, R110, R149); MXGO counts in
the core's operation counts. -/
def Obligations.EngineWordsStageAndQueue : Prop :=
  ∀ (core : CoreId) (s : State) (t f w : Nat), Issues s core t f w →
    (wOp w ∈ [Op.sldcfg, .mxcfg, .swrcfg] →
      ∃ s', exec (match wOp w with | .sldcfg => .sldcfg core | .mxcfg => .mxcfg core | _ => .swrcfg core) s = .next s' ∧
        Frame (issueRegs core f) s s' ∧ OtherCores core s s' ∧ OtherSlots core t s s' ∧ StepsOn s s' core t ∧
        (stag s' core (wUnit w) (cfgReg w)).toNat =
          ((match cfgSrc w with
            | 0 => BitVec.ofNat 32 (cfgImm w)
            | 1 => areg s core t (cfgRidx w) + BitVec.ofNat 32 (cfgImm w)
            | _ => (sreg s core t (cfgRidx w)).setWidth 32 + BitVec.ofNat 32 (cfgImm w)).toNat &&& stagMask (wUnit w) (cfgReg w)) ∧
        (∀ u r, u < 4 → r < 256 → (u, r) ≠ (wUnit w, cfgReg w) → stag s' core u r = stag s core u r)) ∧
    (wOp w = .sldgo → ∃ s', exec (.sldgo core) s = .next s' ∧ Frame (issueRegs core f) s s' ∧ OtherCores core s s' ∧ StepsOn s s' core t ∧
      (sldKind w = 0 → (coreOf s' core).tileq = (coreOf s core).tileq ++ [tileLatch s core t w] ∧ (coreOf s' core).passq = (coreOf s core).passq) ∧
      (sldKind w = 1 → (coreOf s' core).passq = (coreOf s core).passq ++ [⟨t, genLatch s core false, 0, passDue s core t⟩] ∧
        (coreOf s' core).tileq = (coreOf s core).tileq)) ∧
    (wOp w = .swrgo → ∃ s', exec (.swrgo core) s = .next s' ∧ Frame (issueRegs core f) s s' ∧ OtherCores core s s' ∧ StepsOn s s' core t ∧
      (coreOf s' core).swrq = (coreOf s core).swrq ++ [⟨t, genLatch s core true, 0, 0⟩]) ∧
    (wOp w = .mxgo → ∃ s', exec (.mxgo core) s = .next s' ∧ Frame (rMX_OPSEQ core :: issueRegs core f) s s' ∧ OtherCores core s s' ∧
      StepsOn s s' core t ∧ getR s' (rMX_OPSEQ core) = getR s (rMX_OPSEQ core) + 1 ∧
      ∃ o, (coreOf s' core).mxq = (coreOf s core).mxq ++ [o] ∧ o.slot = t ∧ o.index = (slotOf s core t).pc ∧ o.word = BitVec.ofNat 64 w)

/-- O7. YIELD goes on where TSW is 0 or no slot is READY (R134, R135). With TSW = 1 and a READY slot u the slot becomes READY and a switch to u begins. HALT ends the task:
the slot becomes HALTED, whatever TSW holds (R134); stated where the slot owns no counter and no reply reference, holds no reservation and owns no end that closes with
it: then no byte, no other slot and no other core changes. -/
def Obligations.YieldSwitchesAndHaltEnds : Prop :=
  ∀ (core : CoreId) (s : State) (t f w : Nat), Issues s core t f w →
    (wOp w = .yieldW → mates s core t = [] →
      ∃ s', exec (.yieldW core) s = .next s' ∧ SameMem s s' ∧ OtherCores core s s' ∧ OtherSlots core t s s' ∧ StepsOn s s' core t ∧
        ((tsw s core = false ∨ chooseReady s core t = none) → Frame (issueRegs core f) s s' ∧ slotState s' core t = 2 ∧ (coreOf s' core).switch = none) ∧
        (∀ u, tsw s core = true → chooseReady s core t = some u → slotState s' core t = 1 ∧ (coreOf s' core).switch = some { out := t, inn := u, quiet := false })) ∧
    (wOp w = .halt → ctrsOf s core t = [] → (slotOf s core t).resv = none → (slotOf s core t).mres = none →
      (∀ e, e < 16 → getF s (rICH_CFG core e) 13 2 = t → getB s (rICH_REPLY core e) 0 = false ∧ getB s (rICH_CFG core e) 15 = false) →
      ∃ s', exec (.halt core) s = .next s' ∧ SameMem s s' ∧ OtherCores core s s' ∧ OtherSlots core t s s' ∧ slotState s' core t = 4 ∧
        (∀ u, tsw s core = true → chooseReady s core t = some u → (coreOf s' core).switch = some { out := t, inn := u, quiet := false }) ∧
        (tsw s core = false → (coreOf s' core).switch = none))

/-- O8. An element-wise vector word writes, in every lane below n, the result of its operation on the operand lanes, leaves the lanes above as they were, and
ORs its flags into FP_FLAGS (R56, R88, R95, R96); with FLO for its destination the n results join the skid buffer instead (R112). VCMP writes bit i of VD for every lane i
below n and leaves the other bits (R97); VSEL writes in each lane the operand that bit i of VC selects. That a selected NaN is canonical is the model's reading of R30
(log entry 5). -/
def Obligations.ElementwiseWordsWriteTheirLanes : Prop :=
  ∀ (core : CoreId) (s : State) (t f w n : Nat), Issues s core t f w → Starts s core t w n →
    ∀ a b d, a = srcLanes s core t (vSCL w == 1) (vVA w) (vFMT w) n → b = srcLanes s core t (vSCL w == 2) (vVB w) (vFMT w) n →
      d = srcLanes s core t (vSCL w == 3) (vVC w) (vFMT w) n →
    (∀ p ∈ arithWords core, wOp w = p.1 →
      ∃ s', exec p.2 s = .next s' ∧ Frame (rFP_FLAGS core :: issueRegs core f) s s' ∧ OtherCores core s s' ∧ OtherSlots core t s s' ∧
        StepsOn s s' core t ∧ OtherVregs (if vVD w = 32 then [] else [vVD w]) core s s' ∧
        getF s' (rFP_FLAGS core) 0 6 = (getF s (rFP_FLAGS core) 0 6 ||| (ewLanes p.1 (vFMT w) a b d).2) % 2 ^ 6 ∧
        (vVD w = 32 → skid s' core = skid s core ++
          (List.range n).map fun i => ⟨vFMT w, (ewLane p.1 (vFMT w) (a.getD i 0) (b.getD i 0) (d.getD i 0)).code⟩) ∧
        (vVD w ≠ 32 → skid s' core = skid s core ∧
          (∀ i, i < n → lane s' core (vVD w) (vFMT w) i =
            (ewLane p.1 (vFMT w) (a.getD i 0) (b.getD i 0) (d.getD i 0)).code % 2 ^ laneBits (vFMT w)) ∧
          (∀ i, n ≤ i → i < perReg (vFMT w) → lane s' core (vVD w) (vFMT w) i = lane s core (vVD w) (vFMT w) i))) ∧
    (wOp w = .vcmp → ∃ s', exec (.vcmp core) s = .next s' ∧ Frame (issueRegs core f) s s' ∧ OtherCores core s s' ∧ StepsOn s s' core t ∧
      OtherVregs [vVD w] core s s' ∧
      (∀ i, i < n → maskBit (vreg s' core (vVD w)).toNat i = cmpLane (fnCond w) (vFMT w) (a.getD i 0) (b.getD i 0)) ∧
      (∀ i, n ≤ i → maskBit (vreg s' core (vVD w)).toNat i = maskBit (vreg s core (vVD w)).toNat i)) ∧
    (wOp w = .vsel → ∃ s', exec (.vsel core) s = .next s' ∧ Frame (issueRegs core f) s s' ∧ OtherCores core s s' ∧ StepsOn s s' core t ∧
      OtherVregs (if vVD w = 32 then [] else [vVD w]) core s s' ∧
      (vVD w = 32 → skid s' core = skid s core ++
        (List.range n).map fun i => ⟨vFMT w, selLane (vFMT w) (maskBit (vreg s core (vVC w)).toNat i) (a.getD i 0) (b.getD i 0)⟩) ∧
      (vVD w ≠ 32 → ∀ i, i < n → lane s' core (vVD w) (vFMT w) i =
        selLane (vFMT w) (maskBit (vreg s core (vVC w)).toNat i) (a.getD i 0) (b.getD i 0) % 2 ^ laneBits (vFMT w)) ∧
      (vVD w ≠ 32 → ∀ i, n ≤ i → i < perReg (vFMT w) → lane s' core (vVD w) (vFMT w) i = lane s core (vVD w) (vFMT w) i))

/-- O9. A VCVT from one plain integer format to another writes in every lane the source's integer, which a narrower format saturates to its range; INT_SAT is set when a
value changes, and no other flag is (R46). -/
def Obligations.IntegerConversionsSaturate : Prop :=
  ∀ (core : CoreId) (s : State) (t f w n : Nat), Issues s core t f w → wOp w = .vcvt → Starts s core t w n → fmtIsInt (vFMT w) = true → fmtIsInt (fnDfmt w) = true →
    vVA w ≠ 32 → vVD w ≠ 32 → ∀ (hi : Int) (v : Nat → Int), hi = 2 ^ (fmtWidth (fnDfmt w) - 1) - 1 →
    (∀ i, v i = signed (fmtWidth (vFMT w)) (lane s core (vVA w) (vFMT w) i)) →
    ∃ s', exec (.vcvt core) s = .next s' ∧ Frame (rFP_FLAGS core :: issueRegs core f) s s' ∧ OtherCores core s s' ∧ OtherSlots core t s s' ∧ StepsOn s s' core t ∧
      OtherVregs [vVD w] core s s' ∧
      (∀ i, i < n → signed (fmtWidth (fnDfmt w)) (lane s' core (vVD w) (fnDfmt w) i) = max (-hi - 1) (min hi (v i))) ∧
      (∀ i, n ≤ i → i < perReg (fnDfmt w) → lane s' core (vVD w) (fnDfmt w) i = lane s core (vVD w) (fnDfmt w) i) ∧
      (getB s' (rFP_FLAGS core) 3 = true ↔ getB s (rFP_FLAGS core) 3 = true ∨ ∃ i, i < n ∧ max (-hi - 1) (min hi (v i)) ≠ v i) ∧
      ∀ b, b < 6 → b ≠ 3 → getB s' (rFP_FLAGS core) b = getB s (rFP_FLAGS core) b

/-- O10. VRED, VSTAT, VSTFIN and VGET write one scalar register and nothing else of the slot but the pc (R98 to R102, R106): the reduction, the pair, the finished
pair, the element zero-extended. VRED and VSTAT do nothing at n = 0 (R89); the other two read no element operand of length n. -/
def Obligations.ScalarResultWordsWriteSx : Prop :=
  ∀ (core : CoreId) (s : State) (t f w n : Nat), Issues s core t f w → StartsAt s core t w n → (0 < n ∨ wOp w = .vstfin ∨ wOp w = .vget) →
    ∀ a old, a = srcLanes s core t false (vVA w) (vFMT w) n → old = (sreg s core t (vSX w)).toNat →
    ∀ p ∈ ([(.vred, .vred core, (vredLanes (fnRedMode w) (vFMT w) (fnAcc w) old a).1), (.vstat, .vstat core, (vstatLanes (fnMode2 w) (vFMT w) old a).1),
        (.vstfin, .vstfin core, (vstfinPair (fnMode2 w) (sreg s core t (vVA w)).toNat (sreg s core t (vVB w)).toNat).1),
        (.vget, .vget core, lane s core (vVA w) (vFMT w) (fnIndex w))] : List (Op × Instr × Nat)),
      wOp w = p.1 →
      ∃ s', exec p.2.1 s = .next s' ∧ Frame (rFP_FLAGS core :: issueRegs core f) s s' ∧ OtherCores core s s' ∧ OtherSlots core t s s' ∧
        OtherVregs [] core s s' ∧ sreg s' core t (vSX w) = BitVec.ofNat 64 p.2.2 ∧ (∀ r, r ≠ vSX w → sreg s' core t r = sreg s core t r) ∧
        (slotOf s' core t).pc = (slotOf s core t).pc + 1

/-- O11. VPERM, VSHUF, VPACK and VUNPK move elements between lanes without looking at their values (R104 to R106); VPACK also writes the count it
packed to s[SX]. Lanes that the word does not write keep their bits. -/
def Obligations.PermutesMoveLanes : Prop :=
  ∀ (core : CoreId) (s : State) (t f w n : Nat), Issues s core t f w → Starts s core t w n → ∀ q, q = vFMT w →
    (wOp w = .vperm → ∃ s', exec (.vperm core) s = .next s' ∧ Frame (issueRegs core f) s s' ∧ OtherVregs [vVD w] core s s' ∧ StepsOn s s' core t ∧
      ∀ i, i < n → ∀ k : Int, k = signed 16 (bits (vreg s core (vVC w + i / 512)).toNat (16 * (i % 512)) 16) →
        lane s' core (vVD w) q i = if 0 ≤ k ∧ k < n then lane s core (vVA w) q k.toNat else 0) ∧
    (wOp w = .vshuf → shufBad (fnPat w) n = false → ∃ s', exec (.vshuf core) s = .next s' ∧ Frame (issueRegs core f) s s' ∧
      OtherVregs [vVD w] core s s' ∧ StepsOn s s' core t ∧
      (∀ i, i < n → lane s' core (vVD w) q i =
        (shufLanes (fnPat w) ((sreg s core t (vSX w)).toNat % 2 ^ 16) n ((List.range n).map (lane s core (vVA w) q)) ((List.range n).map (lane s core (vVB w) q))).getD i 0) ∧
      (fnPat w = 0 → ∀ i, i < n → lane s' core (vVD w) q i = lane s core (vVA w) q (n - 1 - i)) ∧
      (fnPat w = 1 → ∀ i, i < n → lane s' core (vVD w) q i = lane s core (vVA w) q ((i + (sreg s core t (vSX w)).toNat % 2 ^ 16) % n))) ∧
    (wOp w = .vpack → ∃ s', exec (.vpack core) s = .next s' ∧ Frame (issueRegs core f) s s' ∧ OtherVregs [vVD w] core s s' ∧
      ∀ ones, ones = (List.range n).filter (fun i => maskBit (vreg s core (vVC w)).toNat i) →
        sreg s' core t (vSX w) = BitVec.ofNat 64 ones.length ∧
        (∀ j, j < ones.length → lane s' core (vVD w) q j = lane s core (vVA w) q (ones.getD j 0)) ∧
        (∀ j, ones.length ≤ j → j < perReg q → lane s' core (vVD w) q j = lane s core (vVD w) q j)) ∧
    (wOp w = .vunpk → ∃ s', exec (.vunpk core) s = .next s' ∧ Frame (issueRegs core f) s s' ∧ OtherVregs [vVD w] core s s' ∧ StepsOn s s' core t ∧
      ∀ i, i < n → lane s' core (vVD w) q i =
        if maskBit (vreg s core (vVC w)).toNat i then lane s core (vVA w) q (((List.range i).filter fun j => maskBit (vreg s core (vVC w)).toNat j).length)
        else lane s core (vVD w) q i)

/-- O12. VCVT, VNORM and VUPDSR without a monitor write their lanes (R42 to R49, R103, R254 to R258); a conversion to an MX format also writes the block scales to
the register after VD (R38). VSETVL writes VL with the lesser of its length and 1,024 (R87). -/
def Obligations.ConvertNormaliseUpdateSetVl : Prop :=
  ∀ (core : CoreId) (s : State) (t f w n : Nat), Issues s core t f w →
    (wOp w = .vcvt → Starts s core t w n → ∀ a x, a = srcLanes s core t false (vVA w) (vFMT w) n →
      x = srcValues (vFMT w) (if fmtIsMx (vFMT w) then unpackLanes 8 (vreg s core (vVA w + 1)).toNat (ceilDiv n 32) else []) 0 a →
      ∃ s', exec (.vcvt core) s = .next s' ∧ Frame (rFP_FLAGS core :: issueRegs core f) s s' ∧ StepsOn s s' core t ∧
        OtherVregs (if fmtIsMx (fnDfmt w) then [vVD w, vVD w + 1] else if vVD w = 32 then [] else [vVD w]) core s s' ∧
        (vVD w = 32 → (skid s' core).length = (skid s core).length + n) ∧
        (fmtIsMx (fnDfmt w) = false → vVD w ≠ 32 → ∀ i, i < n → lane s' core (vVD w) (fnDfmt w) i =
          (toPlain (fnDfmt w) (fnRm w) (fnSat w == 1) (x.getD i .nan)).code % 2 ^ laneBits (fnDfmt w)) ∧
        (fmtIsMx (fnDfmt w) = true → fnSsrc w = 0 → ∀ y, y = toMxLanes (fnDfmt w) none (blocksOf x (ceilDiv n 32)) →
          (∀ i, i < n → lane s' core (vVD w) (fnDfmt w) i = y.1.getD i 0 % 2 ^ laneBits (fnDfmt w)) ∧
          (vreg s' core (vVD w + 1)).toNat = packLanes 8 y.2.1)) ∧
    (wOp w = .vnorm → Starts s core t w n →
      ∃ s', exec (.vnorm core) s = .next s' ∧ Frame (rFP_FLAGS core :: issueRegs core f) s s' ∧
        OtherVregs (if vVD w = 32 then [] else [vVD w]) core s s' ∧ StepsOn s s' core t ∧ (vVD w = 32 → (skid s' core).length = (skid s core).length + n) ∧
        ∀ a g b, vVD w ≠ 32 → a = srcLanes s core t false (vVA w) (vFMT w) n → g = regLanes s core (vVB w) (vFMT w) n → b = regLanes s core (vVC w) (vFMT w) n → ∀ i, i < n →
          lane s' core (vVD w) (fnOfmt w) i = (toFloat (floatSpec (fnOfmt w)) 0 false (dec32 (normLane (fnNormMode w) (fnGain w) (vFMT w)
            (sreg s core t (vSX w)).toNat (a.getD i 0) (g.getD i 0) (if fnBias w = 1 then to32 (vFMT w) (b.getD i 0) else 0)).1)).code % 2 ^ laneBits (fnOfmt w)) ∧
    (wOp w = .vupdsr → Starts s core t w n → fnMon w = 0 → getB s (rSCL_CTL core) 0 = false →
      ∃ s', exec (.vupdsr core) s = .next s' ∧ Frame (rFP_FLAGS core :: issueRegs core f) s s' ∧ OtherVregs [vVD w] core s s' ∧ StepsOn s s' core t ∧
        ∀ i, i < n → lane s' core (vVD w) (vFMT w) i = (updLane (vFMT w) (updFmt (fnUfmt w)) (fnK w) (fnUpdSat w == 1)
          (srDraw (BitVec.ofNat 64 (getR64 s (rSR_SEED core))) (getF s (rSR_CORE core) 0 16) ((sreg s core t (vSX w + 1)).toNat % 2 ^ 32)
            ((sreg s core t (vSX w)).toNat % 2 ^ 40 + i))
          (lane s core (vVA w) (vFMT w) i) (lane s core (vVB w) (updFmt (fnUfmt w)) i)).code % 2 ^ laneBits (vFMT w)) ∧
    (wOp w = .vsetvl → (coreOf s core).vxq = [] → vxeReady s core t w = true →
      ∃ s', exec (.vsetvl core) s = .next s' ∧ Frame (issueRegs core f) s s' ∧ OtherVregs [] core s s' ∧ OtherSlots core t s s' ∧
        (slotOf s' core t).vl = min (if fnLsrc w = 1 then (sreg s core t (vSX w)).toNat else fnLen w) 1024)

/-- O13. A vector word whose queue is not empty, or whose flowline elements or room are missing, joins the instruction queue with what it reads at issue (R153, R254)
and does nothing yet (R111); with automatic rolls enabled a VUPDSR whose n is not 0 leaves its STEP in SCL_STEP, and its roll changes no memory (R261). At n = 0 a word
that reads elements writes nothing and sets no flag (R89). -/
def Obligations.VectorWordsQueueInOrder : Prop :=
  ∀ (core : CoreId) (s : State) (t f w : Nat), Issues s core t f w → ∀ p ∈ vectorWords core, wOp w = p.1 →
    (((coreOf s core).vxq ≠ [] ∨ vxeReady s core t w = false) →
      ∃ s', exec p.2 s = .next s' ∧ SameMem s s' ∧ OtherCores core s s' ∧ StepsOn s s' core t ∧ OtherVregs [] core s s' ∧
        (coreOf s' core).vxq = (coreOf s core).vxq ++ [vxEntry s core t (slotOf s core t).pc w] ∧
        ((wOp w = .vupdsr → getB s (rSCL_CTL core) 0 = false) → Frame (issueRegs core f) s s') ∧
        (wOp w = .vupdsr → getB s (rSCL_CTL core) 0 = true → effLen (vlNow s core t) w ≠ 0 →
          getR s' (rSCL_STEP core) = (sregNow s core t (vSX w + 1)).setWidth 32)) ∧
    (StartsAt s core t w 0 → p.1 ∉ [Op.vsetvl, .vstfin, .vget] →
      ∃ s', exec p.2 s = .next s' ∧ Frame (issueRegs core f) s s' ∧ OtherCores core s s' ∧ StepsOn s s' core t ∧ OtherVregs [] core s s' ∧
        (coreOf s' core).flo = (coreOf s core).flo ∧ (coreOf s' core).fli = (coreOf s core).fli)

/-- O14. WAITC completes when the available count is at least k and subtracts k from VALUE (R216); SIGC sends one signal of its count and generation, for which a
CTR token is issued (R213, R419): within the cluster the signal is on its way at once, else it enters the core's crossing queue to the stream network. -/
def Obligations.WaitcSubtractsSigcSends : Prop :=
  ∀ (core : CoreId) (s : State) (t f w : Nat), Issues s core t f w →
    (wOp w = .waitc → (slotOf s core t).resv = none →
      synCount w ≤ ctrAvail s core (synCtr w) ∧
      ∃ s', exec (.waitc core) s = .next s' ∧ Frame (rCTR_VAL core (synCtr w) :: issueRegs core f) s s' ∧ OtherCores core s s' ∧
        OtherSlots core t s s' ∧ StepsOn s s' core t ∧ ctrValue s' core (synCtr w) = ctrValue s core (synCtr w) - synCount w ∧
        ctrGen s' core (synCtr w) = ctrGen s core (synCtr w)) ∧
    (wOp w = .sigc → ∃ s', exec (.sigc core) s = .next s' ∧
      Frame (ledgerBase qCTR :: (ledgerBase qCTR + 4) :: issueRegs core f) s s' ∧ OtherCores core s s' ∧ StepsOn s s' core t ∧
      getR64 s' (ledgerBase qCTR) = (getR64 s (ledgerBase qCTR) + 1) % 2 ^ 64 ∧
      ∃ g : Sig, g.core = (if sigLocal w = 1 then core.val else sigCore w) ∧ g.ctr = synCtr w ∧ g.count = synCount w ∧
        g.gen = sigGen w ∧ g.src = core.val ∧ g.own = true ∧
        (g.core / 8 = core.val / 8 → s'.signals = s.signals ++ [g]) ∧
        (g.core / 8 ≠ core.val / 8 → s'.signals = s.signals ∧ ∀ k, k = outKey (core.val / 8) (core.val % 8) (core.val % 8) →
          ∃ i : NetItem, i.load = .sig g ∧ outOf s' k = outOf s k ++ [i]))

/-- O15. LFENCE orders later arms after the slot's earlier transfers that name a counter of its mask, and leaves nothing where there is none (R252). STRMARM
arms one transfer of its descriptor, numbered by the arm index, for which a DESC token is issued: active on an IDLE descriptor, else in the shadow (R241, R242).
MIRCOMMIT is a NOP where this package is not an active primary (R349); on an active primary ISSUED rises, the commit waits for its acknowledgement, for which a MIRSEQ
token is issued, and a COMMIT of that number and of the regions named leaves by port 0 behind what port 0 has to send (R352, R419). -/
def Obligations.FenceArmAndIdleCommit : Prop :=
  ∀ (core : CoreId) (s : State) (t f w : Nat), Issues s core t f w →
    (wOp w = .lfence → ∃ s', exec (.lfence core) s = .next s' ∧ Frame (issueRegs core f) s s' ∧ OtherCores core s s' ∧
      (slotOf s' core t).pc = (slotOf s core t).pc + 1 ∧
      ∀ ids, ids = ((slotXfers s core t).filter fun x => namesCtr core x (fenceMask w)).map Xfer.id →
        (slotOf s' core t).fences = (slotOf s core t).fences ++ (if fenceMask w = 0 ∨ ids = [] then [] else [⟨fenceMask w, ids⟩])) ∧
    (wOp w = .mircommit → (mirMode s ≠ 1 ∨ mirActive s = false) → ∃ s', exec (.mircommit core) s = .next s' ∧ Frame (issueRegs core f) s s' ∧
      OtherCores core s s' ∧ StepsOn s s' core t ∧ s'.mirror = s.mirror) ∧
    (wOp w = .mircommit → mirMode s = 1 → mirActive s = true → ∀ n, n = (getR s rMIR_SEQ + 1).toNat →
      ∃ s', exec (.mircommit core) s = .next s' ∧ SameMem s s' ∧ OtherCores core s s' ∧ StepsOn s s' core t ∧ getR s' rMIR_SEQ = getR s rMIR_SEQ + 1 ∧
        s'.mirror.unacked = s.mirror.unacked ++ [(n, tbNow s)] ∧ getR64 s' (ledgerBase qMIRSEQ) = (getR64 s (ledgerBase qMIRSEQ) + 1) % 2 ^ 64 ∧
        Sends s s' 0 0 ⟨{ mkHdr 13 (getF s (rFAB_STAT 0) 16 16) (ownPkg s) 0 0 0 0 with seq := n, regions := commitRegions s w }, [], []⟩) ∧
    (wOp w = .strmarm → ∃ s', exec (.strmarm core) s = .next s' ∧ SameMem s s' ∧ OtherCores core s s' ∧
      (slotOf s' core t).pc = (slotOf s core t).pc + 1 ∧ getR64 s' (ledgerBase qDESC) = (getR64 s (ledgerBase qDESC) + 1) % 2 ^ 64 ∧
      (∀ a, (descOf s core (armDesc w)).active = some a → (descOf s' core (armDesc w)).active = some a ∧
        ∃ x, (descOf s' core (armDesc w)).shadow = some x ∧ x.words = template s core (armDesc w) ∧ x.slot = t) ∧
      ((descOf s core (armDesc w)).active = none →
        ∃ x, (descOf s' core (armDesc w)).active = some x ∧ x.words = template s core (armDesc w) ∧ x.slot = t ∧ x.issued = 0 ∧
          bits (getR64 s' (rDESC_STAT core (armDesc w))) 16 32 = (bits (getR64 s (rDESC_STAT core (armDesc w))) 16 32 + 1) % 2 ^ 32))

/-- O16. A SEND of a request to a core of this package takes one credit, and the message it forms of the header and LEN scalar registers leaves for the
channel's end (R224, R226); the words above LEN are 0. Within the cluster it is on its way at once, else it enters the core's crossing queue to the stream network. -/
def Obligations.SendTakesACreditAndLeaves : Prop :=
  ∀ (core : CoreId) (s : State) (t f w : Nat), Issues s core t f w → wOp w = .send → ochReply s core (sendOch w) = false →
    ochRres s core (sendOch w) = false → ochPkg s core (sendOch w) = ownPkg s →
    ∃ s', exec (.send core) s = .next s' ∧ SameMem s s' ∧ OtherCores core s s' ∧ StepsOn s s' core t ∧
      getF s' (rOCH_CRED core (sendOch w)) 0 6 + 1 = getF s (rOCH_CRED core (sendOch w)) 0 6 ∧
      getR64 s' (ledgerBase qCHCRED) = (getR64 s (ledgerBase qCHCRED) + 1) % 2 ^ 64 ∧
      ∃ m : Flight, m.core = ochCore s core (sendOch w) ∧ m.ich = ochEnd s core (sendOch w) ∧ m.slot = t ∧ m.remote = none ∧
        (m.core / 8 = core.val / 8 → s'.flights = s.flights ++ [m]) ∧
        (m.core / 8 ≠ core.val / 8 → s'.flights = s.flights ∧ ∀ k, k = outKey (core.val / 8) (core.val % 8) (core.val % 8) →
          ∃ i : NetItem, i.load = .msg m ∧ outOf s' k = outOf s k ++ [i]) ∧
        m.words.length = 8 ∧ hdrHandler (m.words.headD 0) = sendHandler w ∧ hdrLen (m.words.headD 0) = sendLen w ∧
        (∀ i, i < sendLen w → m.words.getD (i + 1) 0 = sreg s core t (sendSx w + i)) ∧ (∀ i, sendLen w ≤ i → i < 7 → m.words.getD (i + 1) 0 = 0)

/-- O17. A RECV takes the message reserved for its slot, else the oldest that is reserved for none: the header goes to s[SD], the payload to the seven registers after it,
0 above LEN (R232), as a word issued next reads them: behind vector words of the task that wait, they are written in order (R92). Stated for a request without a reply
reference and for a handler that does not dispatch. -/
def Obligations.RecvTakesTheOldestMessage : Prop :=
  ∀ (core : CoreId) (s : State) (t f w : Nat) (m : RingMsg), Issues s core t f w → wOp w = .recv →
    recvMsg s core t (recvIch w) = some m → (∀ e ∈ (coreOf s core).vxq, e.slot = t) → hdrRres (m.words.headD 0) = false →
    bits (handlerOf s core t (m.words.headD 0)) 13 1 = 0 → (hdrReq (m.words.headD 0) = true → hdrPkg (m.words.headD 0) = ownPkg s) →
    ∃ s', exec (.recv core) s = .next s' ∧ SameMem s s' ∧ OtherCores core s s' ∧ OtherSlots core t s s' ∧
      ringOf s' core (recvIch w) = (ringOf s core (recvIch w)).erase m ∧ sregNow s' core t (recvSd w) = m.words.headD 0 ∧
      (∀ i, i < 7 → sregNow s' core t (recvSd w + 1 + i) = if i < hdrLen (m.words.headD 0) then m.words.getD (i + 1) 0 else 0) ∧
      (∀ r, r < recvSd w ∨ recvSd w + 7 < r → sregNow s' core t r = sregNow s core t r) ∧ (slotOf s' core t).pc = (slotOf s core t).pc + 1

/-- O18. A word whose OP Table 06-2 does not list faults with ILLEGAL_INSTR, REASON 0 (R144, R157): the core's free record takes its index and its word, and the
slot, alone in its floe, is FAULTED. -/
def Obligations.UnlistedOpcodeIsIllegal : Prop :=
  ∀ (core : CoreId) (s : State) (t f w : Nat), coreRuns s core = true → (coreOf s core).switch = none → runningSlot s core = some t →
    floeFor s core t = some f → s.rstJob ≠ some (0, 32 * (core.val / 8) + f) → groupDue s core t ≤ floeNow s core t → floeHeld s core f = 0 → mates s core t = [] → wOp w = .bad →
    fetchGroup s core t = .words [((slotOf s core t).pc, w)] → getB s (rILL_FAULT_INFO core) 0 = false →
    ∃ s', exec (.unlistedOpcode core) s = .next s' ∧ SameMem s s' ∧ slotState s' core t = 5 ∧ (slotOf s' core t).pc = (slotOf s core t).pc ∧
      getF s' (rILL_FAULT_INFO core) 0 1 = 1 ∧ getF s' (rILL_FAULT_INFO core) 1 2 = t ∧ getF s' (rILL_FAULT_INFO core) 3 14 = (slotOf s core t).pc ∧
      getF s' (rILL_FAULT_INFO core) 17 4 = 0 ∧ getR64 s' (rILL_FAULT_WORD core) = w % 2 ^ 64

-- engines (03, 05) --------------------------------------------------------------------------------------------------------------

/-- O19. A tile transfer loads one row of 128 elements into the shadow buffer, an FP32 row in two floe cycles (R67, R73, R74), and a tile is ready 2 cycles after its
last row; nothing else changes. Each path takes one item a cycle (R75): stated for cycles in which no earlier item occupies it. -/
def Obligations.TileRowsFillTheShadow : Prop :=
  ∀ (core : CoreId) (s : State), coreRuns s core = true →
    (∀ x r tl codes scales, (coreOf s core).tileq = x :: r → mayRun s core x.slot x.due = true → pathFree s core 0 = true → pathFree s core 3 = true →
      (((coreOf s core).shadow = none ∧ x.row = 0 ∧ tl = ⟨x.slot, 0, x.fmt, x.split, x.mt, [], false⟩) ∨
        ((coreOf s core).shadow = some tl ∧ tl.ready = false ∧ tl.rows.length ≤ tl.mt)) →
      gatherLoads ((List.range 128).map fun q => loadElem s core x ((inReg x 2 + x.row) % 2 ^ 32) (128 * (x.p0 + x.tile) + q)) = .ok codes →
      (if fmtIsMx x.fmt then gatherLoads ((List.range 4).map fun b => loadScale s core x ((inReg x 2 + x.row) % 2 ^ 32) (128 * (x.p0 + x.tile) + 32 * b))
        else .ok []) = .ok scales →
      ∃ s', exec (.tileRowLoad core) s = .next s' ∧ Frame [] s s' ∧ OtherCores core s s' ∧
        (coreOf s' core).shadow = some { tl with rows := tl.rows ++ [⟨codes, scales⟩], due := x.due + (if fmtWidth x.fmt = 32 then 3 else 2) } ∧
        ∀ d, d = x.due + (if fmtWidth x.fmt = 32 then 2 else 1) →
          (x.row = x.mt → x.tile = x.ntm1 → (coreOf s' core).tileq.map (·.slot) = r.map (·.slot) ∧ ∀ y ∈ (coreOf s' core).tileq.head?, d ≤ y.due) ∧
          (x.row = x.mt → x.tile ≠ x.ntm1 → (coreOf s' core).tileq = { x with due := d, row := 0, tile := x.tile + 1 } :: r) ∧
          (x.row ≠ x.mt → (coreOf s' core).tileq = { x with due := d, row := x.row + 1 } :: r)) ∧
    (∀ tl, (coreOf s core).shadow = some tl → tl.mt < tl.rows.length → mayRun s core tl.slot tl.due = true → pathFree s core 5 = true →
      ∃ s', exec (.tileReady core) s = .next s' ∧ Frame [] s s' ∧ OtherCores core s s' ∧
        (coreOf s' core).shadow = some { tl with ready := true } ∧ (coreOf s' core).tileq = (coreOf s core).tileq)

/-- O20. A weight column takes its bytes from the feed buffer and adds its exact pass sum to one accumulator word in every row of the tile (R54, R59 to R61). Stated
for one column a cycle, with checks off, inside a pass, in a cycle that no earlier column occupies (R75), on words without a parity error. -/
def Obligations.WeightColumnAccumulates : Prop :=
  ∀ (core : CoreId) (s : State) (o : MxOp) (q : List MxOp) (tl : Tile) (col : List FV), coreRuns s core = true →
    (coreOf s core).mxq = o :: q → o.entered = false → (coreOf s core).tile = some tl → opGroup o = 1 → opAct o = 0 → 0 < o.col → o.col + 1 < opNt o →
    mayRun s core o.slot (colDue o o.pass o.col) = true → pathFree s core 1 = true → ((o.pass ≠ 0 ∨ opCont o = true) → colParity s core o o.col = false) → accFree (o :: q) 0 o = true →
    colBytes o ≤ (coreOf s core).elemBuf.length →
    col = colValues o ((coreOf s core).elemBuf.take (colBytes o)) ((o.passScales.drop (colScales o * o.col)).take (colScales o)) →
    ∃ s', exec (.weightColumnEnter core) s = .next s' ∧ SameMem s s' ∧ OtherCores core s s' ∧ SameRegsBut [rFP_FLAGS core] s s' ∧
      (coreOf s' core).elemBuf = (coreOf s core).elemBuf.drop (colBytes o) ∧ (coreOf s' core).mxq = { o with col := o.col + 1 } :: q ∧
      ∀ i, i ≤ opMt o →
        (mget (fun _ => (0 : BitVec 32)) (coreOf s' core).acc (accWord (opSplit o) i o.col)) = BitVec.ofNat 32 (accumulate o
          (if o.pass = 0 ∧ opCont o = false then (if opFloat o then negZero32 else 0)
            else (mget (fun _ => (0 : BitVec 32)) (coreOf s core).acc (accWord (opSplit o) i o.col)).toNat)
          (dotFV (rowValues o tl i) col) (anyNan col || anyNan (rowValues o tl i))).code

/-- O21. After a pass's last column the check column enters and the pass ends (R78). A check that passes leaves nothing but its place in the list; one with a value
that is not finite is skipped and counted in SKIPPED; one that fails is counted in FAILS (R79, R80). The check column enters once no column occupies its path (R75). -/
def Obligations.ChecksColumnAndVerdicts : Prop :=
  ∀ (core : CoreId) (s : State) (o : MxOp) (q : List MxOp), coreRuns s core = true → (coreOf s core).mxq = o :: q →
    (∀ tl, o.entered = false → (coreOf s core).tile = some tl → opAct o ≠ 0 → o.col = opNt o → mayRun s core o.slot (checkColDue o o.pass) = true → pathFree s core 1 = true →
      ∃ s', exec (.checkColumnInject core) s = .next s' ∧ Frame [] s s' ∧ OtherCores core s s' ∧
        (coreOf s' core).mxq = passEnd { o with checks := o.checks ++ columnChecks o tl } :: q) ∧
    (∀ k ks, o.checks = k :: ks → mayRun s core o.slot k.due = true → checkPass o k = some true →
      ∃ s', exec (.abftCheck core) s = .next s' ∧ Frame [] s s' ∧ OtherCores core s s' ∧ (coreOf s' core).mxq = { o with checks := ks } :: q) ∧
    (∀ k ks, o.checks = k :: ks → mayRun s core o.slot k.due = true → checkPass o k = none →
      ∃ s', exec (.abftCheck core) s = .next s' ∧ Frame [rMX_ABFT_CNT core] s s' ∧
        getF s' (rMX_ABFT_CNT core) 16 16 = min 65535 (getF s (rMX_ABFT_CNT core) 16 16 + 1) ∧ getF s' (rMX_ABFT_CNT core) 0 16 = getF s (rMX_ABFT_CNT core) 0 16) ∧
    (∀ k ks, o.checks = k :: ks → mayRun s core o.slot k.due = true → checkPass o k = some false →
      ∃ s', exec (.abftCheck core) s = .next s' ∧ SameMem s s' ∧ getF s' (rMX_ABFT_CNT core) 0 16 = min 65535 (getF s (rMX_ABFT_CNT core) 0 16 + 1) ∧
        getB s' (rMX_ABFT_STAT core) 0 = true)

/-- O22. The columns of one cycle leave as MT + 1 elements each of the output format on the flowline (R70), one cycle after they have left the drain (Table 05-1); a group
of 32 MX columns sends its block scales ahead and then its columns (R71), each into a free entry of the skid buffer of 8 (R112). An operation whose columns have entered
and left and whose checks are done leaves the queue (R66). The drain path takes one emission a cycle (R75). Stated for columns without poison or parity error, and for an operation that captures no maximum. That the
scales go ahead of the group's first column is the model's choice (entry 35). -/
def Obligations.DrainEmitsAndOperationEnds : Prop :=
  ∀ (core : CoreId) (s : State) (o : MxOp) (q : List MxOp), coreRuns s core = true → (coreOf s core).mxq = o :: q →
    (∀ n, opDrain o = true → o.emit < opNt o → o.group = [] → fmtIsMx (opOut o) = false → n = min (opGroup o) (opNt o - o.emit) → columnDue o o.emit n = true →
      mayRun s core o.slot (leaveDue o o.emit) = true → pathFree s core 2 = true → fliEarly s core < 8 → o.poison = false →
      (∀ d, d < n → colParity s core o (o.emit + d) = false ∧ o.emit + d ∉ o.badCols) →
      ∃ s', exec (.drainColumnEmit core) s = .next s' ∧ Frame [rFP_FLAGS core] s s' ∧ OtherCores core s s' ∧
        (coreOf s' core).fli = fliInsert ⟨o.slot, leaveDue o o.emit + 1, 0, (List.range n).flatMap fun d => (List.range (opMt o + 1)).map fun i =>
          ⟨opOut o, (toPlain (opOut o) 0 (opSat o) (accVal s core o i (o.emit + d))).code⟩⟩ (coreOf s core).fli ∧
        (coreOf s' core).mxq.map (·.emit) = (o.emit + n) :: q.map (·.emit)) ∧
    (∀ n, opDrain o = true → o.emit < opNt o → o.group = [] → fmtIsMx (opOut o) = true → n = min 32 (opNt o - o.emit) → columnDue o o.emit n = true →
      mayRun s core o.slot (leaveMxDue o o.emit) = true → pathFree s core 2 = true → (coreOf s core).flo.length < 8 → (∀ d, d < n → colParity s core o (o.emit + d) = false) →
      ∃ s' scales, exec (.drainColumnEmit core) s = .next s' ∧ Frame [rFP_FLAGS core] s s' ∧ OtherCores core s s' ∧
        (coreOf s' core).flo = (coreOf s core).flo ++ [⟨o.slot, scales⟩] ∧ scales.length = opMt o + 1 ∧ (∀ e ∈ scales, e.fmt = 10) ∧
        (coreOf s' core).mxq.map (·.emit) = (o.emit + n) :: q.map (·.emit)) ∧
    (∀ e r, opDrain o = true → o.group = e :: r → (coreOf s core).flo.length < 8 → mayRun s core o.slot (drainDue o) = true → pathFree s core 2 = true →
      ∃ s', exec (.drainColumnEmit core) s = .next s' ∧ Frame [] s s' ∧ OtherCores core s s' ∧
        (coreOf s' core).flo = (coreOf s core).flo ++ [⟨o.slot, e⟩] ∧ (coreOf s' core).mxq = { o with group := r } :: q) ∧
    (o.entered = true → o.checks = [] → (opDrain o = false ∨ (o.emit = opNt o ∧ o.group = [])) → opAmaxEn o = false → mayRun s core o.slot (opEnd o) = true →
      ∃ s', exec (.mxeOpComplete core) s = .next s' ∧ Frame [] s s' ∧ OtherCores core s s' ∧ (coreOf s' core).mxq = q)

/-- O23. A pass-through reads its next item, at most 256 bytes of elements, in its floe cycle unless a tile row has the port; it is on FLI 3 cycles later (R110). The head
of the vector queue leaves it once it can start, the lanes are free and no register it reads has a pending write (R90, R91, R111). An SWR write takes elements from the skid buffer and writes them at its generator's places, or hands their bytes to
its descriptor's moving transfer; those beyond the transfer's extent stay with SWR until the next transfer takes them (R112, R122, R247). -/
def Obligations.FlowlineItemsMove : Prop :=
  ∀ (core : CoreId) (s : State), coreRuns s core = true →
    (∀ x r n, (coreOf s core).passq = x :: r → n = min (perEntry x.gen.fmt) (genTotal x.gen - x.next) → fliEarly s core < 8 → mayRun s core x.slot x.due = true →
      tileCan s core = false → pathFree s core 0 = true → pathFree s core 3 = true →
      ∃ s', exec (.passThroughItemRead core) s = .next s' ∧ Frame [] s s' ∧ OtherCores core s s' ∧
        (coreOf s' core).fli = fliInsert ⟨x.slot, x.due + 3, 1, (List.range n).map fun i =>
          ⟨x.gen.fmt, readElem s (storeBase core) (genPlace x.gen (x.next + i)).1 (genPlace x.gen (x.next + i)).2 (fmtWidth x.gen.fmt)⟩⟩ (coreOf s core).fli ∧
        (coreOf s' core).passq = (if x.next + n = genTotal x.gen then r else { x with next := x.next + n, due := x.due + 1 } :: r)) ∧
    (∀ e q, (coreOf s core).vxq = e :: q → mayRun s core e.slot e.due = true → vxeReady s core e.slot e.word.toNat = true → pathFree s core 4 = true →
      vecPending s core e.slot e.word.toNat = false →
      ∃ s', exec (.vxeQueueStart core) s = .next s' ∧ SameMem s s' ∧ (coreOf s' core).vxq = q) ∧
    (∀ x r d, (coreOf s core).swrq = x :: r → d = descOf s core x.gen.desc →
      (x.gen.dest = true → 0 < handRoom d → d.hand ≠ [] →
        ∃ s', exec (.swrWritePerformed core) s = .next s' ∧ Frame [] s s' ∧ OtherCores core s s' ∧ skid s' core = skid s core ∧
          descOf s' core x.gen.desc = handOver { d with hand := d.hand.drop (handRoom d) } (d.hand.take (handRoom d))) ∧
      (∀ n bs, n = swrTake x (skid s core).length → 0 < n → bs = packBytes x.gen.fmt ((skid s core).take n) → x.gen.dest = true → 0 < handRoom d → d.hand = [] →
        ∃ s', exec (.swrWritePerformed core) s = .next s' ∧ Frame [] s s' ∧ OtherCores core s s' ∧ skid s' core = (skid s core).drop n ∧
          descOf s' core x.gen.desc = handOver { d with hand := bs.drop (handRoom d) } (bs.take (handRoom d))) ∧
      (swrTake x (skid s core).length = 1 → x.gen.dest = false → ∀ e a, (skid s core).head? = some e → a = storeBase core + (genPlace x.gen x.next).1 →
        ∃ s', exec (.swrWritePerformed core) s = .next s' ∧ SameRegsBut [] s s' ∧ OtherCores core s s' ∧ skid s' core = (skid s core).drop 1 ∧
          readElem s' (storeBase core) (genPlace x.gen x.next).1 (genPlace x.gen x.next).2 (fmtWidth x.gen.fmt) = e.code % 2 ^ fmtWidth x.gen.fmt ∧
          (∀ b, (b < a ∨ a + ceilDiv ((genPlace x.gen x.next).2 + fmtWidth x.gen.fmt) 8 ≤ b) → rdByte s' b = rdByte s b)))

-- floes and task slots (05, 08) ----------------------------------------------------------------------------------------------------

/-- O24. A lag that would reach 9 stops a running floe under its item's reason until every lag is 0 (R76, R203, R206); in a held cycle of a throttle group the floe
shows HOLD, or else THROTTLE, which precede every other reason (R206, R323); a stall longer than its limit sets TIMEOUT and its reason, and stops the floe (R207). -/
def Obligations.FloeStallsAndTimeouts : Prop :=
  ∀ (cluster : ClusterId) (floe : FloeId) (s : State),
    (∀ r : BitVec 4, floeRuns s cluster floe = true → floeQuiesces s cluster floe = false → (floeOf s cluster floe).held = 0 →
      r.toNat ∈ floeLags s cluster floe →
      ∃ s', exec (.floeStallBegin cluster floe r) s = .next s' ∧ Frame [rFLOE_STAT cluster floe, rTRC_STAT (cluster / 8) + 4] s s' ∧
        (floeOf s' cluster floe).held = r.toNat ∧ getF s' (rFLOE_STAT cluster floe) 0 4 = r.toNat) ∧
    ((floeOf s cluster floe).held ≠ 0 → floeQuiesces s cluster floe = false → floeCaughtUp s cluster floe = true →
      ∃ s', exec (.floeStallEnd cluster floe) s = .next s' ∧ Frame [rFLOE_STAT cluster floe, rTRC_STAT (cluster / 8) + 4] s s' ∧
        (floeOf s' cluster floe).held = 0 ∧ getF s' (rFLOE_STAT cluster floe) 0 4 = 0) ∧
    (throttleHolds s cluster = true → regionUp s cluster = true → (clusterOf s cluster).gated = false → floeRuns s cluster floe = true →
      floeQuiesces s cluster floe = false → (floeOf s cluster floe).held = 0 →
      ∃ s', exec (.throttleHold cluster) s = .next s' ∧ SameMem s s' ∧
        getF s' (rFLOE_STAT cluster floe) 0 4 = (if getB s (rFLOE_CTL cluster floe) 2 then 1 else 2)) ∧
    (∀ t0 m, (floeOf s cluster floe).since = some t0 → 0 < getF s (rSTALL_LIMIT cluster) 0 20 → t0 + 1000 * getF s (rSTALL_LIMIT cluster) 0 20 < tbNow s →
      getB s (rFLOE_DEF cluster floe) 16 = true → floeMembers s cluster floe = [m] → slotLive s m.1 m.2 = true → getB s (rFLOE_STAT cluster floe) 5 = false →
      ∃ s', exec (.stallTimeout cluster floe) s = .next s' ∧ SameMem s s' ∧ getB s' (rFLOE_STAT cluster floe) 5 = true ∧
        getF s' (rFLOE_STAT cluster floe) 8 4 = getF s (rFLOE_STAT cluster floe) 0 4 ∧ slotState s' m.1 m.2 = 5)

/-- O25. A task switch quiesces the outgoing slot, then, once its five cycles are over, makes the incoming one RUNNING (R135); a core without a running slot takes the next READY one (R467). Stated
for a slot that holds no reservation and so completes no wait in its first cycle. -/
def Obligations.SwitchesMakeReadySlotsRun : Prop :=
  ∀ (core : CoreId) (s : State),
    (∀ w, (coreOf s core).switch = some w → w.quiet = false → engineQuiet s core w.out = true →
      ∃ s', exec (.quiescenceComplete core) s = .next s' ∧ SameMem s s' ∧ OtherCores core s s' ∧ (coreOf s' core).switch = some { w with quiet := true, left := 6 }) ∧
    (∀ w, (coreOf s core).switch = some w → w.quiet = true → w.left = 0 → slotState s core w.inn = 1 → (slotOf s core w.inn).resv = none → (slotOf s core w.inn).mres = none →
      ∃ s', exec (.switchComplete core) s = .next s' ∧ Frame [rTASK_STAT core w.inn] s s' ∧ OtherCores core s s' ∧
        slotState s' core w.inn = 2 ∧ (coreOf s' core).switch = none ∧ (coreOf s' core).last = w.inn) ∧
    (∀ t, coreRuns s core = true → (coreOf s core).switch = none → runningSlot s core = none →
      [((coreOf s core).last + 1) % 4, ((coreOf s core).last + 2) % 4, ((coreOf s core).last + 3) % 4, (coreOf s core).last].find?
        (fun u => slotState s core u == 1) = some t →
      engineQuiet s core (coreOf s core).last = true → (slotOf s core t).resv = none → (slotOf s core t).mres = none →
      ∃ s', exec (.idleCoreSelect core) s = .next s' ∧ SameMem s s' ∧ OtherCores core s s' ∧ slotState s' core t = 2 ∧ (coreOf s' core).last = t)

-- counters and channels (09) ----------------------------------------------------------------------------------------------------------

/-- O26. The next signal of a core adds its count to its counter (R214), shows itself in CTR_LASTSIG and leaves the signals on their way; one of another generation is
stale and changes no VALUE (R220); one that would pass 65,535 sets OVF and changes no VALUE (R219). -/
def Obligations.SignalsAddToTheirCounter : Prop :=
  ∀ (core : CoreId) (s : State) (g : Sig), coreReached s core = true → core.val ∉ s.resetting → nextSig s.signals core = some g → g.ctr < 48 →
    ∃ s', exec (.signalApply core) s = .next s' ∧ SameMem s s' ∧ s'.signals = s.signals.erase g ∧ ctrGen s' core g.ctr = ctrGen s core g.ctr ∧
      (g.gen = ctrGen s core g.ctr → ctrValue s core g.ctr + g.count ≤ 65535 →
        ctrValue s' core g.ctr = ctrValue s core g.ctr + g.count ∧ getR64 s' (rCTR_LASTSIG core g.ctr) = sigRecord s g % 2 ^ 64) ∧
      (g.gen ≠ ctrGen s core g.ctr → ctrValue s' core g.ctr = ctrValue s core g.ctr ∧
        getF s' (rCTR_STAT core g.ctr) 16 16 = min 65535 (getF s (rCTR_STAT core g.ctr) 16 16 + 1)) ∧
      (g.gen = ctrGen s core g.ctr → 65535 < ctrValue s core g.ctr + g.count →
        ctrValue s' core g.ctr = ctrValue s core g.ctr ∧ getB s' (rCTR_STAT core g.ctr) 1 = true)

/-- O27. A request of this package that no earlier one of its channel precedes in the stream network (R234) and that finds its end OPEN, its rank right and a free ring slot
joins the end's ring (R225, R227); a refused request closes and fills its
channel's held message (R231); a credit that comes back raises CREDITS (R226). -/
def Obligations.MessagesArriveReturnAndCredit : Prop :=
  ∀ (core : CoreId) (s : State), coreReached s core = true →
    (∀ (f : Flight) (p : BitVec 16) (c : CoreId) (o : ChanId),
      s.flights.find? (fun f => f.core == core.val && ofChannel p.toNat c o f) = some f →
      (∀ k g, (k, NetLoad.msg g) ∈ netLoads s → ofChannel p.toNat c o g = true → f.n ≤ g.n) →
      f.remote = none → hdrReq (f.words.headD 0) = true → ichState s core f.ich = 0 → hdrDrank (f.words.headD 0) = getF s (rICH_CFG core f.ich) 0 12 →
      (ringOf s core f.ich).length + ichRsv s core f.ich < 32 →
      ∃ s', exec (.messageArrive core p c o) s = .next s' ∧ SameMem s s' ∧ s'.flights = s.flights.erase f ∧
        (ringOf s' core f.ich).map (·.words) = (ringOf s core f.ich).map (·.words) ++ [f.words] ∧
        getR64 s' (ledgerBase qRING) = (getR64 s (ledgerBase qRING) + 1) % 2 ^ 64) ∧
    (∀ (o : ChanId) (r : Refused), s.refusals.find? (fun r => r.core == core.val && r.och == o.val) = some r →
      ∃ s', exec (.messageReturn core o) s = .next s' ∧ SameMem s s' ∧ s'.refusals = s.refusals.erase r ∧
        getB s' (rOCH_STAT core o) 0 = true ∧ getB s' (rOCH_STAT core o) 1 = true ∧
        (getB s (rOCH_STAT core o) 1 = false → ∀ i, i < 8 → getR64 s' (rOCH_HELD core o + 8 * i) = (r.words.getD i 0).toNat)) ∧
    (∀ o : ChanId, (core.val, o.val) ∈ s.credits → strayedOf s core o = 0 → reclaimOf s core o = 0 → 0 < credOutOf s core o → getF s (rOCH_CRED core o) 0 6 < 63 →
      ∃ s', exec (.creditReturn core o) s = .next s' ∧ SameMem s s' ∧ s'.credits = s.credits.erase (core.val, o.val) ∧
        getF s' (rOCH_CRED core o) 0 6 = getF s (rOCH_CRED core o) 0 6 + 1 ∧ credOutOf s' core o = credOutOf s core o - 1)

-- descriptors and firn (10, 07) --------------------------------------------------------------------------------------------------------

/-- O28. A waiting transfer takes WCOUNT from its counter and moves (R243); a transfer asks for its next source bytes (R244): for SRCK 0 a firn request, to its own stack
or as a packet toward another (R15), for SRCK 1 the bytes of the store; a fenced transfer whose earlier transfers have ended leaves FENCED (R252). -/
def Obligations.TransfersWaitAskAndLeaveFences : Prop :=
  ∀ (core : CoreId) (desc : DescId) (s : State) (x : Xfer), coreRuns s core = true → (descOf s core desc).active = some x →
    (∀ n, n = tWCTR x.words → x.phase = .waiting → waitcFirst s core n = false → (∀ e, e < desc.val → waitsOn s core n e = none) →
      tWCOUNT x.words ≤ ctrAvail s core n → n < 48 →
      ∃ s', exec (.descWaitComplete core desc) s = .next s' ∧ Frame [rCTR_VAL core n] s s' ∧ OtherCores core s s' ∧
        ctrValue s' core n = ctrValue s core n - tWCOUNT x.words ∧ (descOf s' core desc).active = some { x with phase := .moving }) ∧
    (x.phase = .moving → x.issued < xTotal x → x.stopAt = none → feedHolds s core desc x = false → tDSTK x.words ≠ 4 → tDSTK x.words ≠ 5 →
      ∀ a n, a = xSrc x x.issued → n = pieceLen x x.issued a 256 (xTotal x - x.issued) →
        (tSRCK x.words = 0 → core.val / 8 = a / 2 ^ 33 → ∃ s', exec (.descRequestIssue core desc) s = .next s' ∧ Frame [] s s' ∧ OtherCores core s s' ∧
          (descOf s' core desc).active = some { x with issued := x.issued + n } ∧
          ∃ r, s'.firnWait = s.firnWait ++ [r] ∧ r.stack = a / 2 ^ 33 ∧ r.off = a % 2 ^ 33 ∧ r.len = n ∧ r.wr = false ∧ r.id = x.id ∧ r.pos = x.issued) ∧
        (tSRCK x.words = 0 → core.val / 8 ≠ a / 2 ^ 33 → coreRoom s core = true → ∃ s', exec (.descRequestIssue core desc) s = .next s' ∧ Frame [] s s' ∧
          OtherCores core s s' ∧ s'.firnWait = s.firnWait ∧ (descOf s' core desc).active = some { x with issued := x.issued + n } ∧
          ∃ r, s'.net = (coreOut s core 0 (.firnReq r)).net ∧ r.stack = a / 2 ^ 33 ∧ r.off = a % 2 ^ 33 ∧ r.len = n ∧ r.wr = false ∧ r.id = x.id ∧
            r.pos = x.issued) ∧
        (tSRCK x.words = 1 → ∃ s', exec (.descRequestIssue core desc) s = .next s' ∧ Frame [] s s' ∧ OtherCores core s s' ∧
          (descOf s' core desc).active = some { x with issued := x.issued + n, arrived := x.arrived ++ rdBytes s (storeBase core + a) n })) ∧
    (x.phase = .fenced → x.after = [] →
      ∃ s', exec (.fenceRelease core desc) s = .next s' ∧ Frame [] s s' ∧ OtherCores core s s' ∧
        (descOf s' core desc).active = some { x with phase := if tWAITEN x.words then .waiting else .moving })

/-- O29. A piece that has arrived for the stationary store is written there, and no other byte changes (R245). A transfer whose last byte is written ends: its DESC token
returns, its signal leaves, and the shadow becomes active or the descriptor is IDLE (R242). -/
def Obligations.TransfersWriteAndComplete : Prop :=
  ∀ (core : CoreId) (desc : DescId) (s : State) (x : Xfer), coreRuns s core = true → (descOf s core desc).active = some x → x.phase = .moving →
    (tDSTK x.words = 0 → x.arrived ≠ [] → x.stopAt = none →
      ∀ a n, a = storeBase core + xDst x x.sent % 2 ^ 21 → n = pieceLen x x.sent (xDst x x.sent) 256 x.arrived.length →
        ∃ s', exec (.descDataWrite core desc) s = .next s' ∧ SameRegsBut [] s s' ∧ OtherCores core s s' ∧
          (∀ i, i < n → rdByte s' (a + i) = x.arrived.getD i 0) ∧ (∀ b, (b < a ∨ a + n ≤ b) → rdByte s' b = rdByte s b) ∧
          (descOf s' core desc).active = some { x with arrived := x.arrived.drop n, sent := x.sent + n, done := x.done + n, marks := if x.arrived.length ≤ n then 0 else x.marks }) ∧
    (xTotal x ≤ x.done → 0 < ledHeld s qDESC → xSigRoom s core x = true →
      ∃ s', exec (.descComplete core desc) s = .next s' ∧ SameMem s s' ∧ OtherCores core s s' ∧
        getR64 s' (ledgerBase qDESC + 8) = (getR64 s (ledgerBase qDESC + 8) + 1) % 2 ^ 64 ∧
        ((descOf s core desc).shadow = none → (descOf s' core desc).active = none) ∧
        (∀ y, (descOf s core desc).shadow = some y → (descOf s' core desc).shadow = none ∧
          ∃ z, (descOf s' core desc).active = some z ∧ z.id = y.id ∧ z.words = y.words ∧ z.slot = y.slot) ∧
        (tSIGEN x.words = true → tDSTK x.words ≠ 3 →
          ∀ at_, at_ = (if tDSTK x.words = 1 then xDst x (xTotal x - 1) / 2 ^ 33 else xEndCore core x / 8) →
            (tSCORE x.words / 8 = at_ → s'.signals = s.signals ++ [xSignal s core x] ∧ s'.net = s.net) ∧
            (tSCORE x.words / 8 ≠ at_ → s'.signals = s.signals ∧
              s'.net = (if tDSTK x.words = 1 then stackOut s at_ (tSCORE x.words) 0 (.sig (xSignal s core x)) else coreOut s (xEndCore core x) 0 (.sig (xSignal s core x))).net)) ∧
        ((tSIGEN x.words = false ∨ tDSTK x.words = 3) → s'.signals = s.signals ∧ s'.net = s.net))

/-- O30. A near-bank unit delivers the next output of the moving command of its row (R181 to R186), once its stack accepts a request (R178, R179) and a feed has room for it
(R246): the bytes join those that have arrived. A GATHER index outside the table delivers zeros and is counted with the row's first bytes (R187). Stated for a command in
the core's own stack whose earlier output is all there. -/
def Obligations.NearBankCommandsDeliver : Prop :=
  ∀ (core : CoreId) (desc : DescId) (s s1 : State) (x y : Xfer) (bs : List Byte), coreRuns s core = true → (descOf s core desc).active = some x →
    x.phase = .moving → tSRCK x.words = 3 → x.issued < xTotal x → x.stopAt = none → feedHolds s core desc x = false →
    (tDSTK x.words = 4 → 128 ≤ feedRoom s core 4 - feedFlight s core 4) → nbStack x.cmd = core.val / 8 →
    pieceOpen s (whoNear core x.slot) (nbSRC x.cmd) = true →
    nbNext s core x.slot x.cmd x.issued = (s1, bs, false) → (descOf s1 core desc).active = some y → y.id = x.id →
    y.early = [] → y.stopAt = none → y.sent + y.arrived.length = x.issued → bs ≠ [] →
    (∀ p ∈ ([(1, 0, .gather core desc), (2, 0, .gatherSum core desc), (3, 0, .kvFetch core desc), (4, 1, .expandSparse core desc),
        (4, 2, .expandCodebook core desc), (4, 3, .expandSparseCodebook core desc)] : List (Nat × Nat × Instr)),
      nbOP x.cmd = p.1 → (p.1 = 4 → nbX x.cmd = p.2.1) →
      ∃ s', exec p.2.2 s = .next s' ∧ SameMem s1 s' ∧ SameRegsBut [] s1 s' ∧
        (descOf s' core desc).active = some { y with issued := y.issued + bs.length, arrived := y.arrived ++ bs }) ∧
    (∀ i at_, nbOP x.cmd = 1 → i = listEntry s core (nbIDX x.cmd) (x.issued / nbRBYTES x.cmd) → at_ = x.issued % nbRBYTES x.cmd → (i < 0 ∨ (nbNROWS x.cmd : Int) ≤ i) →
      bs = List.replicate (min 32 (nbRBYTES x.cmd - at_)) 0 ∧
        getF s1 (rFIRN_NB_CNT (nbStack x.cmd)) 0 16 = (if at_ = 0 then min 65535 (getF s (rFIRN_NB_CNT (nbStack x.cmd)) 0 16 + 1)
          else getF s (rFIRN_NB_CNT (nbStack x.cmd)) 0 16))

/-- O31. The oldest request that waits for a port of a channel takes an entry when the stack is open and the port has one free (R160); one that enters in the maintenance
window of a slot carries REFRESH (R202). An entry that is due is served (R162): a read of the stack's own cores delivers the bytes that stand there, one of another node's
cores sends them back by the stream network (R15), a write stores its bytes whole or merged, and no other byte changes (R163, R167, R174). Stated for beats without an
error and requests that the mirror does not concern. -/
def Obligations.FirnRequestsEnterAndAreServed : Prop :=
  ∀ (stack : StackId) (chan : FirnChan) (port : FirnPort) (s : State) (r : FirnReq), (stackOf s stack).open_ = true → s.beatErr = [] →
    (s.firnWait.find? (fun r => r.stack == stack.val && r.port == port.val && waitChan s r == chan.val) = some r → r.wr = false →
      portUsedBy s stack chan port < portEntries s stack port →
      ∃ s', exec (.firnRequestEnter stack chan port) s = .next s' ∧ SameMem s s' ∧ s'.firnWait = s.firnWait.erase r ∧
        (∀ ph, ph = firnPlace (mapMode s stack) r.off →
          s'.firnEnt = s.firnEnt ++ [{ r with phys := ph, marks := if inWindow s stack ph then r.marks ||| 8 else r.marks }]) ∧
        getR64 s' (ledgerBase qFIRNREQ) = (getR64 s (ledgerBase qFIRNREQ) + 1) % 2 ^ 64) ∧
    (s.firnEnt.find? (fun e => e.stack == stack.val && entChan e == chan.val && e.port == port.val && !e.wr) = some r → entryReady s r = true →
      ∀ x, reqXfer s r = some x → entKey r % 256 + r.len ≤ 256 → 0 < r.len →
        (port.val < 8 → x.early = [] → x.stopAt = none → x.sent + x.arrived.length = r.pos →
          ∃ s', exec (.firnReadReturn stack chan port) s = .next s' ∧ SameMem s s' ∧ s'.firnEnt = s.firnEnt.erase r ∧
            (descOf s' r.core r.desc).active = some { x with arrived := x.arrived ++ rdBytes s (entKey r) r.len, marks := x.marks ||| r.marks }) ∧
        (8 ≤ port.val → stackRoom s r.stack r.core = true →
          ∃ s', exec (.firnReadReturn stack chan port) s = .next s' ∧ SameMem s s' ∧ s'.firnEnt = s.firnEnt.erase r ∧
            s'.net = (stackOut s r.stack r.core 0 (.firnData r (rdBytes s (entKey r) r.len) false)).net)) ∧
    (∀ p ∈ ([(.firnWritePerformed stack chan port, false), (.readModifyWrite stack chan port, true)] : List (Instr × Bool)),
      s.firnEnt.find? (fun e => e.stack == stack.val && entChan e == chan.val && e.port == port.val && (e.wr && needsMerge e.off e.len == p.2)) = some r →
      entryReady s r = true → r.data.length = r.len → entKey r % 256 + r.len ≤ 256 → r.off % 32 = r.phys % 32 → needsMerge r.off r.len = p.2 →
      ∃ s', exec p.1 s = .next s' ∧ s'.firnEnt = s.firnEnt.erase r ∧ (∀ i, i < r.len → rdByte s' (entKey r + i) = r.data.getD i 0) ∧
        (∀ b, (b < entKey r ∨ entKey r + r.len ≤ b) → rdByte s' b = rdByte s b))

/-- O32. A refresh slot closes one bank of each channel and loses no byte (R168, R169), and requests that hold entries then carry REFRESH (R202); the regime changes with the
first slot at or behind a multiple of 3,904 ns; a measured case temperature shows in FIRN_STAT and sets the regime to come by Table 07-4 (R171); a stack leaves
self-refresh 3 µs after its region's clock is stable (R178); initialisation writes zero to every byte of the stack and none outside it (R179). -/
def Obligations.StacksRefreshAndInitialise : Prop :=
  ∀ (stack : StackId) (s : State),
    (∀ n, n = tbNow s / slotLen s stack → (stackOf s stack).open_ = true → regionUp s (stackRegion s stack) = true → (stackOf s stack).slotIdx ≤ n * slotLen s stack →
      s.beatErr = [] →
      ∃ s', exec (.refreshSlot stack) s = .next s' ∧ SameMem s s' ∧
        ((stackOf s stack).want = getB s (rFIRN_STAT stack) 8 → (stackOf s' stack).slotIdx = n * slotLen s stack + 1 ∧
          ∀ ch, ch < 64 → ∀ p ∈ (stackOf s' stack).rows, p.1 ≠ 16 * ch + (n + ch) % 16) ∧
        ((stackOf s stack).slotIdx ≤ tbNow s / 3904 * 3904 → getB s' (rFIRN_STAT stack) 8 = (stackOf s stack).want) ∧
        (∀ e ∈ s'.firnEnt, e.stack = stack.val → bits e.marks 3 1 = 1)) ∧
    (∀ t : BitVec 8, (stackOf s stack).open_ = true → ∃ s', exec (.refreshRegimeChange stack t) s = .next s' ∧ SameMem s s' ∧
      getF s' (rFIRN_STAT stack) 0 8 = t.toNat ∧ getB s' (rFIRN_STAT stack) 8 = getB s (rFIRN_STAT stack) 8 ∧
      (stackOf s' stack).want = (decide (getF s (rFIRN_REFRESH stack) 0 2 = 2) ||
        (if (stackOf s stack).want then decide (82 ≤ t.toNat) else decide (85 < t.toNat)))) ∧
    (getB s (rFIRN_STAT stack) 9 = true → getB s (rFIRN_STAT stack) 10 = true → regionUp s (stackRegion s stack) = true →
      (regionOf s (stackRegion s stack)).lockTick + 300 ≤ s.time.ticks →
      ∃ s', exec (.selfRefreshExit stack) s = .next s' ∧ SameMem s s' ∧ getB s' (rFIRN_STAT stack) 9 = false ∧ (stackOf s' stack).open_ = true ∧
        (stackOf s' stack).slotIdx = tbNow s) ∧
    (getB s (rFIRN_STAT stack) 10 = false → regionUp s (stackRegion s stack) = true →
      ∃ s', exec (.firnInitDone stack) s = .next s' ∧ getB s' (rFIRN_STAT stack) 10 = true ∧ (stackOf s' stack).open_ = true ∧
        (∀ a, firnBase stack ≤ a → a < firnBase (stack.val + 1) → rdByte s' a = 0) ∧
        (∀ a, (a < firnBase stack ∨ firnBase (stack.val + 1) ≤ a) → rdByte s' a = rdByte s a))

-- stream network (08) ---------------------------------------------------------------------------------------------------------------

/-- O33. In a slot of its source, the source's oldest packet that has crossed to the switch enters an outbound link and is due at its output four slots later (R195,
R196, R287); turn hold of a link of its route keeps it back and marks it (R198, R202). At an output the packet of the present slot enters, a held packet before a fresh
one, the lower input before the higher, and the other waits a turn, marked, and is counted (R197). A held packet leaves when its slot comes again; the hold ends below
four; a delivery takes the oldest packet of an inbound link into the crossing queue toward the cluster, which has 8 entries (R287, R289). -/
def Obligations.NetworkPacketsMove : Prop :=
  ∀ (cluster : ClusterId) (link : LinkId) (s : State) (key die : Nat), key = swKey (.inbound cluster link) → die = cluster.val / 8 → swRuns s die = true →
    (∀ (source : BitVec 4) (slot : BitVec 8) (first : SwOut) (rest route : List SwOut) (o : SwOut) (i : NetItem) (q : List NetItem), route = first :: rest → source.toNat ≤ 8 →
      slot.toNat = wheelOf s die % 256 → injOwner s cluster link slot.toNat = source.toNat → linkUsed s (outLink cluster link) die = false →
      outOf s (outKey cluster link source.toNat) = i :: q → crossReady s cluster 2 i = true → routeOk die route = true → route.getLast? = some o →
      endsAt o i.load = true →
      ∃ s', exec (.packetInject cluster link source slot first rest) s = .next s' ∧ Frame [] s s' ∧ s'.net.turn = s.net.turn ∧ s'.net.links = s.net.links ∧
        (routeHeld s die route = false → outOf s' (outKey cluster link source.toNat) = q ∧ linkUsed s' (outLink cluster link) die = true ∧
          s'.net.flying = s.net.flying ++ [{ input := 8 * cluster + link, due := wheelOf s die + 4, route := route, marks := i.marks, load := i.load }]) ∧
        (routeHeld s die route = true → s'.net.flying = s.net.flying ∧
          outOf s' (outKey cluster link source.toNat) = { i with marks := i.marks ||| 32 } :: q)) ∧
    (linkUsed s key die = false →
      (∀ p, (swDue s key).1 = [p] → (turnOf s key).find? (fun h => dueAt s key h) = none →
        ∃ s', exec (.packetSwitchEnter (.inbound cluster link)) s = .next s' ∧ Frame [] s s' ∧ turnOf s' key = turnOf s key ∧
          linkOf s' key = linkOf s key ++ [{ p with due := wheelOf s die + 4, route := [] }]) ∧
      (∀ p r, (swDue s key).1 = [p, r] → (turnOf s key).find? (fun h => dueAt s key h) = none → (turnOf s key).length < 16 →
        p.input ≤ r.input ∧ ∃ s', exec (.packetSwitchEnter (.inbound cluster link)) s = .next s' ∧ SameMem s s' ∧
          linkOf s' key = linkOf s key ++ [{ p with due := wheelOf s die + 4, route := [] }] ∧
          turnOf s' key = turnOf s key ++ [{ r with due := r.due + 256, marks := r.marks ||| 32 }] ∧
          getF s' (rNET_CNT cluster) 0 16 = min 65535 (getF s (rNET_CNT cluster) 0 16 + 1)) ∧
      (∀ p h, (swDue s key).1 = [p] → (turnOf s key).find? (fun h => dueAt s key h) = some h → (turnOf s key).length ≤ 16 →
        ∃ s', exec (.packetSwitchEnter (.inbound cluster link)) s = .next s' ∧ SameMem s s' ∧
          linkOf s' key = linkOf s key ++ [{ h with due := wheelOf s die + 4, route := [] }] ∧
          turnOf s' key = (turnOf s key).erase h ++ [{ p with due := p.due + 256, marks := p.marks ||| 32 }]) ∧
      (∀ h, (turnOf s key).find? (fun h => dueAt s key h) = some h → (swDue s key).1 = [] →
        ∃ s', exec (.turnBufferRelease (.inbound cluster link)) s = .next s' ∧ Frame [] s s' ∧ turnOf s' key = (turnOf s key).erase h ∧
          linkOf s' key = linkOf s key ++ [{ h with due := wheelOf s die + 4, route := [] }])) ∧
    (turnHeld s key = true → (turnOf s key).length < 4 →
      ∃ s', exec (.turnHoldRelease (.inbound cluster link)) s = .next s' ∧ Frame [] s s' ∧ turnHeld s' key = false ∧ s'.net.turn = s.net.turn) ∧
    (∀ p r, linkOf s key = p :: r → p.due ≤ wheelOf s die → (inOf s key).length < 8 →
      ∃ s' l, exec (.packetDeliver cluster link) s = .next s' ∧ Frame [] s s' ∧ linkOf s' key = r ∧ 3 ≤ l ∧ l ≤ 5 ∧
        inOf s' key = inOf s key ++ [⟨0, l, p.marks, p.load⟩])

-- clocks and the time base (13) ---------------------------------------------------------------------------------------------------------

/-- O34. A stretch makes one period of a region longer by root periods and is counted (R285); in a legacy group it stretches every member (R290). An alignment sets the
XLAT of its crossing, a legacy member's to 3 (R288), and a change of N that completes, for the four service regions together, makes the crossings align again (R284). A wheel starts from 0 or from a running neighbour's count advanced by the
measured transit (R291); one that leads a neighbour by 2 holds for one cycle (R292). A margin code lowers MIN, and one at or below WARN_CODE sets WARN (R301); with STEP_EN
a code at or below STEP_CODE begins a change to N − 1 and sets STEPPED, above 20 and 100 µs after the last (R302). Stated for regions that have a PLL. -/
def Obligations.RegionsStretchAlignAndTurn : Prop :=
  ∀ (region : RegionId) (s : State), region.val < 36 → regionUp s region = true →
    (∀ two : Bool, inLegacy s region = false →
      ∃ s', exec (.droopStretch region two) s = .next s' ∧ Frame [rCLK_STAT region + 4] s s' ∧
        regionOf s' region = { regionOf s region with debt := (regionOf s region).debt + (if two then 2 else 1) } ∧
        (getR s' (rCLK_STAT region + 4)).toNat = min (2 ^ 32 - 1) ((getR s (rCLK_STAT region + 4)).toNat + 1)) ∧
    (∀ two : Bool, inLegacy s region = true →
      ∃ s', exec (.droopStretch region two) s = .next s' ∧ SameMem s s' ∧ ∀ q ∈ legacyGroup s (regionDie region), regionUp s q = true →
        (regionOf s' q).debt = (regionOf s q).debt + (if two then 2 else 1)) ∧
    (∀ (three : Bool) (cluster : ClusterId), region.val = cluster.val → (regionOf s region).xlat = 0 → regionUp s (32 + cluster / 8) = true →
      regionN s region = regionN s (32 + cluster / 8) →
      ∃ s', exec (.crossingAlign (.cluster cluster) three) s = .next s' ∧ Frame [rCLK_STAT region, rCLK_STAT 32, rCLK_STAT 33, rCLK_STAT 34, rCLK_STAT 35] s s' ∧
        getB s' (rCLK_STAT region) 7 = true ∧ (regionOf s' region).xlat = (if three || legacyOf s cluster then 3 else 4)) ∧
    (∀ (three : Bool) (die : DieId) (n : Fin 2) (far : Nat), region.val = 32 + die.val → far = (if n = 0 then (dieNbr die).1 else (dieNbr die).2) →
      regionUp s (32 + far) = true → edgeXlat s die far = 0 →
      ∃ s', exec (.crossingAlign (.edge die n) three) s = .next s' ∧ Frame [rCLK_STAT 32, rCLK_STAT 33, rCLK_STAT 34, rCLK_STAT 35] s s' ∧
        edgeXlat s' die far = (if three then 3 else 4)) ∧
    (∀ n, (regionOf s region).goal = some n → n < 64 →
      ∃ s', exec (.pllNChange region) s = .next s' ∧ SameMem s s' ∧ regionN s' region = n ∧
        (region.val < 32 → (regionOf s' region).xlat = 0 ∧ getB s' (rCLK_STAT region) 7 = false ∧ ∀ q, q ≠ region.val → regionN s' q = regionN s q) ∧
        (32 ≤ region.val → (∀ d, d < 4 → regionUp s (32 + d) = true → regionN s' (32 + d) = n) ∧
          ∀ cl, cl < 32 → regionUp s (32 + cl / 8) = true → (regionOf s' cl).xlat = 0)) ∧
    (∀ (die : DieId) (transit : BitVec 8), region.val = 32 + die.val →
      ((regionOf s (32 + die)).wheelOn = false →
        ∃ s', exec (.wheelStart die none transit) s = .next s' ∧ Frame [] s s' ∧ (regionOf s' (32 + die)).wheelOn = true ∧ (regionOf s' (32 + die)).wheel = 0) ∧
      (∀ n : DieId, (regionOf s (32 + die)).wheelOn = false → (n.val = (dieNbr die).1 ∨ n.val = (dieNbr die).2) → (regionOf s (32 + n)).wheelOn = true →
        ∃ s', exec (.wheelStart die (some n) transit) s = .next s' ∧ Frame [] s s' ∧ (regionOf s' (32 + die)).wheelOn = true ∧
          (regionOf s' (32 + die)).wheel = (regionOf s (32 + n)).wheel + transit.toNat) ∧
      ((regionOf s (32 + die)).wheelOn = true → wheelMustHold s die = true →
        ∃ s', exec (.wheelHold die) s = .next s' ∧ Frame [] s s' ∧ (regionOf s' (32 + die)).wheel = (regionOf s (32 + die)).wheel ∧
          ∃ y r, (regionOf s' (32 + die)).hist = y :: r ∧ y.own = (regionOf s (32 + die)).wheel ∧ y.held = true)) ∧
    (∀ (cluster : ClusterId) (code : BitVec 6), region.val = cluster.val → monitored s cluster = true →
      (getB s (rCLK_STAT cluster) 9 = false → code.toNat ≤ getF s rMARGIN_STAT 0 6 →
        ∃ s', exec (.marginWarn cluster code) s = .next s' ∧ SameMem s s' ∧ getB s' (rCLK_STAT cluster) 9 = true ∧
          getF s' (rCLK_STAT cluster) 16 6 = min code.toNat (getF s (rCLK_STAT cluster) 16 6)) ∧
      (getF s rMARGIN_STAT 0 6 < code.toNat →
        ∃ s', exec (.marginWarn cluster code) s = .next s' ∧ Frame [rCLK_STAT cluster] s s' ∧ getB s' (rCLK_STAT cluster) 9 = getB s (rCLK_STAT cluster) 9 ∧
          getF s' (rCLK_STAT cluster) 16 6 = min code.toNat (getF s (rCLK_STAT cluster) 16 6)) ∧
      (getB s (rCLK_STAT cluster) 9 = true → getB s rMARGIN_STAT 14 = true → code.toNat ≤ getF s rMARGIN_STAT 8 6 →
        (∀ t, (regionOf s cluster).stepNs = some t → t + 100000 ≤ tbNow s) → 20 < regionN s cluster → inLegacy s cluster = false →
        (regionOf s cluster).goal = none →
        ∃ s', exec (.autostep cluster code) s = .next s' ∧ Frame [rCLK_STAT cluster] s s' ∧ (regionOf s' cluster).goal = some (regionN s cluster - 1) ∧
          (regionOf s' cluster).stepNs = some (tbNow s) ∧ getB s' (rCLK_STAT cluster) 10 = true ∧ regionN s' cluster = regionN s cluster))

/-- O35. The loss of the reference starts holdover and is latched, and its return ends holdover (R303, R304). An edge on TB_SYNC_IN is referred to the nearest multiple of
the interval: its error in whole nanoseconds shows in TB_STAT and sets the rate and the slew (R296, R298). Four intervals without an event set SYNC_LOST; the alarm sets
its flag, clears its enable and raises the host's cause 6 (R300); a leader drives TB_SYNC_OUT for the tick of a multiple (R296). The first of 34
steps on an empty queue is a tick of the time base, which adds 10 ns corrected by the servo (R294, R298; that a tick passes in 34 such steps is the model's choice, log
entry 2); without VAUX nothing changes. -/
def Obligations.TheTimeBaseFollows : Prop :=
  ∀ (s : State),
    (s.pwr.refLost = false → s.pwr.off = false →
      ∃ s', exec .refloss s = .next s' ∧ SameMem s s' ∧ s'.time = s.time ∧ s'.pwr.refLost = true ∧ getB s' (rTB_CTL + 4) 0 = true ∧
        getB s' (rTB_CTL + 4) 1 = true) ∧
    (s.pwr.refLost = true →
      ∃ s', exec .refclkReturn s = .next s' ∧ Frame [rTB_CTL + 4] s s' ∧ s'.time = s.time ∧ s'.pwr.refLost = false ∧ getB s' (rTB_CTL + 4) 1 = false ∧
        getB s' (rTB_CTL + 4) 0 = getB s (rTB_CTL + 4) 0) ∧
    (∀ e n i : Int, i = (tbInterval s : Int) → tbSrc s = 1 → s.pwr.vaux = true → e = (s.time.tb : Int) - (tbDelay s : Int) * 2 ^ 32 - n * (i * 2 ^ 32) →
      -(i * 2 ^ 32) ≤ 2 * e → 2 * e < i * 2 ^ 32 →
      ∃ s', exec .tbSyncInEdge s = .next s' ∧ Frame [rTB_CTL + 4] s s' ∧ s'.time.tb = s.time.tb ∧ getF s' (rTB_CTL + 4) 16 16 = unsigned 16 (errNs e) ∧
        s'.time.rate = clampServo (s.time.rate - 10 * e / (4 * i)) ∧ s'.time.slew = -(10 * e / i) ∧ s'.time.eventTick = s.time.ticks ∧
        s'.time.syncOut = (tbOut s || s.time.syncOut)) ∧
    ((tbSrc s = 1 ∨ tbSrc s = 2) → s.time.eventTick * 10 + 4 * tbInterval s ≤ s.time.ticks * 10 →
      ∃ s', exec .syncLost s = .next s' ∧ Frame [rTB_CTL + 4] s s' ∧ getB s' (rTB_CTL + 4) 3 = true ∧ s'.time.slew = 0 ∧ s'.time.rate = s.time.rate ∧
        s'.time.tb = s.time.tb) ∧
    (getB s rTB_CTL 7 = true → getR64 s rTB_ALARM ≤ tbNow s →
      ∃ s', exec .tbAlarmFire s = .next s' ∧ Frame [rTB_CTL, rTB_CTL + 4, rHOST_IRQ_STAT, rHOST_IRQ_STAT + 4] s s' ∧ getB s' (rTB_CTL + 4) 5 = true ∧
        getB s' rTB_CTL 7 = false ∧ bits (getR64 s' rHOST_IRQ_STAT) 6 1 = 1) ∧
    (tbSrc s = 0 → tbOut s = true → tbNow s % tbInterval s < 10 →
      ∃ s', exec .tbSyncOutPulse s = .next s' ∧ Frame [] s s' ∧ s'.time = { s.time with syncOut := true }) ∧
    (s.pending = [] → s.pwr.vaux = true →
      ∃ s', step s = .next s' ∧ s'.time.sub = (s.time.sub + 1) % 34 ∧ s'.time.rate = s.time.rate ∧ s'.time.slew = s.time.slew ∧
        (s.time.sub = 0 → s'.time.tb = (((s.time.tb : Int) + 10 * 2 ^ 32 + clampServo (s.time.rate + s.time.slew)) % (2 ^ 96 : Int)).toNat ∧
          s'.time.ticks = s.time.ticks + 1 ∧ s'.time.syncOut = false) ∧
        (s.time.sub ≠ 0 → s'.time.tb = s.time.tb ∧ s'.time.ticks = s.time.ticks ∧ s'.time.syncOut = s.time.syncOut)) ∧
    (s.pending = [] → s.pwr.vaux = false → step s = .next s)

-- power (14, 22) -----------------------------------------------------------------------------------------------------------------------------

/-- O36. A write of PWR_REQ answers in RESULT (R311): a source without a session reads NO_SESSION, and a control core that may not ask reads NOT_ALLOWED, with no other
effect; RUN and IDLE are reached at once; SLEEP and DEEP need quiescence and begin an entry, whose ports go to LP (R312); OFF begins its entry without it. -/
def Obligations.PowerRequestsAreAnswered : Prop :=
  ∀ (src : Src) (s : State), Awake s → srcLive s src = true →
    (mayWriteAt s src rPWR_REQ = false → ∀ i ∈ ([.pwrReqRun src, .pwrReqIdle src, .pwrReqSleep src, .pwrReqDeep src, .pwrReqOff src] : List Instr),
      ∃ s', exec i s = .next s' ∧ Frame [rPWR_STATE] s s' ∧ getF s' rPWR_STATE 4 3 = 2 ∧ pwrState s' = pwrState s ∧ s'.pwr = s.pwr) ∧
    (mayWriteAt s src rPWR_REQ = true →
      (∀ i ∈ ([(.pwrReqIdle src, 1), (.pwrReqSleep src, 2), (.pwrReqDeep src, 3), (.pwrReqOff src, 4)] : List (Instr × Nat)), notAllowed s src i.2 = true →
        ∃ s', exec i.1 s = .next s' ∧ Frame [rPWR_STATE] s s' ∧ getF s' rPWR_STATE 4 3 = 3 ∧ pwrState s' = pwrState s ∧ s'.pwr = s.pwr) ∧
      (∃ s', exec (.pwrReqRun src) s = .next s' ∧ SameMem s s' ∧ pwrState s' = 0 ∧ getF s' rPWR_STATE 4 3 = 0 ∧
        (pwrState s = 1 → ∀ cl, cl < 32 → (clusterOf s' cl).gated = false)) ∧
      (notAllowed s src 1 = false → ∃ s', exec (.pwrReqIdle src) s = .next s' ∧ SameMem s s' ∧ pwrState s' = 1 ∧ getF s' rPWR_STATE 4 3 = 0) ∧
      (∀ i ∈ ([(.pwrReqSleep src, 2), (.pwrReqDeep src, 3)] : List (Instr × Nat)), notAllowed s src i.2 = false →
        (packageQuiet s = false → ∃ s', exec i.1 s = .next s' ∧ Frame [rPWR_STATE] s s' ∧ getF s' rPWR_STATE 4 3 = 1 ∧ s'.pwr = s.pwr) ∧
        (packageQuiet s = true → ∃ s', exec i.1 s = .next s' ∧ SameMem s s' ∧ getF s' rPWR_STATE 4 3 = 0 ∧ pwrBusy s' = true ∧ s'.pwr.entry = some i.2 ∧
          ∀ p, p < 16 → portUp s p = true → portState s' p = (if (portOf s p).eth then 0 else 4))) ∧
      (notAllowed s src 4 = false → ∃ s', exec (.pwrReqOff src) s = .next s' ∧ Frame [rPWR_STATE] s s' ∧ getF s' rPWR_STATE 4 3 = 0 ∧ pwrBusy s' = true ∧
        s'.pwr.entry = some 4))

/-- O37. An entry ends in its state whatever is under way (R307 to R309, R312): in SLEEP every stack is in self-refresh, no control core but CC0 runs and only the service
region of die 0 keeps its clock; in DEEP no region but the always-on one does, every port is DOWN, and the pads are latched at their levels; in OFF every held token is
written off (R424) and no memory keeps its contents. A wake source that was latched during the entry begins its wake at once (R312). -/
def Obligations.PowerEntriesComplete : Prop :=
  ∀ (s : State),
    (s.pwr.entry = some 2 → ∃ s', exec .sleepEntryComplete s = .next s' ∧ pwrState s' = 2 ∧ s'.pwr.entry = none ∧
      (s.firnEnt = [] → SameMem s s') ∧ (∀ k, k < 32 → getB s' (rFIRN_STAT k) 9 = true) ∧ (∀ r, r < 36 → r ≠ 32 → regionUp s' r = false) ∧
      regionUp s' 32 = regionUp s 32 ∧ (∀ k, 0 < k → k < 16 → getB s' (rCC_CTL k) 0 = false) ∧
      (s.pwr.latched = none → pwrBusy s' = false ∧ s'.pwr.waking = s.pwr.waking) ∧
      (∀ w, s.pwr.latched = some w → s.pwr.off = false → s'.pwr.waking = true ∧ pwrBusy s' = true ∧ getF s' rPWR_STATE 8 4 = wakeCode w)) ∧
    (s.pwr.entry = some 3 → ∃ s', exec .deepEntryComplete s = .next s' ∧ pwrState s' = 3 ∧ s'.pwr.entry = none ∧
      (∀ r, r < 36 → regionUp s' r = false) ∧ (∀ p, p < 16 → portState s' p = 0) ∧ s'.host.linkUp = false ∧ s'.pwr.padsLatched = some (padLevels s) ∧
      getB s' rPAD_RELEASE 1 = true ∧ (s.pwr.latched = none → pwrBusy s' = false) ∧
      (∀ w, s.pwr.latched = some w → s.pwr.off = false → s'.pwr.waking = true ∧ pwrBusy s' = true ∧ getF s' rPWR_STATE 8 4 = wakeCode w)) ∧
    (s.pwr.entry = some 4 → ∃ s', exec .offEntry s = .next s' ∧ getF s' rPWR_STATE 12 2 = 1 ∧ s'.pwr.entry = none ∧ (∀ q, q < 9 → ledHeld s' q = 0) ∧
      (∀ a, rdByte s' a = 0) ∧ (∀ r, r < 36 → regionUp s' r = false) ∧ s'.pwr.padsLatched.isSome = true ∧ getB s' rPAD_RELEASE 1 = true ∧
      s'.fuses = s.fuses ∧ s'.pending = s.pending ∧ (s.pwr.latched = none → s'.pwr.off = true))

/-- O38. A wake source of the state ends IDLE, begins the wake from SLEEP, DEEP or OFF, or is latched during an entry, and shows in WAKE_SRC (R313). A rail is settled
within 10 mV of its voltage where its regulator shows no fault (R318); regions power up in their order (R322); a PLL locks at its target multiplier, a service region's at
the one the others run at (R284), and after a SLEEP the stores of its cores read zero
(R307, R314); the wake ends once all are ready (R314). Stated with no access waiting. -/
def Obligations.WakesBringThePackageUp : Prop :=
  ∀ (s : State), s.pwr.held = [] → s.pwr.vaux = true →
    (∀ w st, s.pwr.entry = some st → s.pwr.latched = none → wakes s st w = true →
      ∃ s', exec (.wakeDetect w) s = .next s' ∧ Frame [] s s' ∧ s'.pwr = { s.pwr with latched := some w }) ∧
    (∀ w, s.pwr.entry = none → s.pwr.waking = false → s.pwr.off = false → pwrState s = 1 → wakes s 1 w = true →
      ∃ s', exec (.wakeDetect w) s = .next s' ∧ SameMem s s' ∧ pwrState s' = 0 ∧ getF s' rPWR_STATE 8 4 = wakeCode w ∧
        ∀ cl, cl < 32 → (clusterOf s' cl).gated = false) ∧
    (∀ w, s.pwr.entry = none → s.pwr.waking = false → s.pwr.off = false → (pwrState s = 2 ∨ pwrState s = 3) → wakes s (pwrState s) w = true →
      ∃ s', exec (.wakeDetect w) s = .next s' ∧ SameMem s s' ∧ s'.pwr.waking = true ∧ pwrBusy s' = true ∧ getF s' rPWR_STATE 8 4 = wakeCode w ∧
        ∀ d, d < 4 → (railOf s' d).on = true ∧ (railOf s' d).settled = false ∧
          (railOf s' d).goal = tgtVolt { s with pwr := { s.pwr with target := BitVec.ofNat 64 (getR64 s rDVFS_TARGET) } } d) ∧
    (∀ w, s.pwr.entry = none → s.pwr.waking = false → s.pwr.off = true → s.pwr.supplies = true → wakes s 4 w = true →
      ∃ s', exec (.wakeDetect w) s = .next s' ∧ SameMem s s' ∧ s'.pwr.waking = true ∧ s'.pwr.off = false ∧ getF s' rPWR_STATE 8 4 = wakeCode w) ∧
    (∀ (d : DieId) (mv : BitVec 10) (fault : Bool), (railOf s d).on = true → awake s = false →
      ∃ s', exec (.railSettled d ⟨mv, fault⟩) s = .next s' ∧ Frame [rDVFS_STATUS, rDVFS_STATUS + 4] s s' ∧ bits (getR64 s' rDVFS_STATUS) (10 * d.val) 10 = mv.toNat ∧
        (railOf s' d).settled = ((railOf s d).settled ||
          (!fault && decide (mv.toNat ≤ (railOf s d).goal.toNat + 10) && decide ((railOf s d).goal.toNat ≤ mv.toNat + 10)))) ∧
    (∀ r : RegionId, s.pwr.off = false → tripped s = false → s.pwr.supplies = true → (pwrState s < 2 ∨ s.pwr.waking = true) → railsReady s r = true →
      (powerSet s r).find? (fun q => !(regionOf s q).powered) = some r.val →
      ∃ s', exec (.regionPowerUp r) s = .next s' ∧ Frame [] s s' ∧ (regionOf s' r).powered = true ∧ ∀ q, q ≠ r.val → regionOf s' q = regionOf s q) ∧
    (∀ r : RegionId, r.val < 36 → (regionOf s r).powered = true → getB s (rCLK_STAT r) 6 = false → startingN s r < 64 →
      ((pwrState s ≠ 2 ∨ s.pwr.waking = false) → (r.val < 32 ∨ (railOf s (r.val - 32)).brown = none) →
        ∃ s', exec (.pllLock r) s = .next s' ∧ Frame [rCLK_STAT r, rCLK_STAT 32, rCLK_STAT 33, rCLK_STAT 34, rCLK_STAT 35] s s' ∧ regionUp s' r = true ∧
          regionN s' r = startingN s r) ∧
      (pwrState s = 2 → s.pwr.waking = true → r.val < 32 →
        ∃ s', exec (.pllLock r) s = .next s' ∧ regionUp s' r = true ∧ regionN s' r = startingN s r ∧
          (∀ c, c < 8 → (coreOf s' (8 * r.val + c)).vreg = [] ∧ (coreOf s' (8 * r.val + c)).istore = [] ∧ (coreOf s' (8 * r.val + c)).acc = [] ∧
            (coreOf s' (8 * r.val + c)).scaleBuf = []) ∧
          (∀ a, storeBase (8 * r.val) ≤ a → a < storeBase (8 * r.val + 8) → rdByte s' a = 0) ∧
          (∀ a, (a < storeBase (8 * r.val) ∨ storeBase (8 * r.val + 8) ≤ a) → rdByte s' a = rdByte s a))) ∧
    (s.pwr.waking = true → (powerSet s 32).all (fun r => regionReady s r) = true → (∀ k, k < 32 → getB s (rFIRN_STAT k) 9 = false) →
      ∃ s', exec .wakeComplete s = .next s' ∧ SameMem s s' ∧ s'.pwr.waking = false ∧ pwrState s' = (if s.pwr.idleNext then 1 else 0) ∧ pwrBusy s' = false)

/-- O39. In IDLE a quiescent cluster gates its clock, and with the last of its die the regulator goes to low-power mode where LP_EN = 1 (R319), and an access to it ends IDLE with WAKE_SRC 7 (R306); a ramp advances by steps of 256 cycles (R323). A regulator leaves
low-power mode when its current exceeds EXIT_AMPS; above 25 A its die browns out, is marked in PWR_STATE and loses its clocks (R319). -/
def Obligations.ClustersGateAndRegulatorsLeave : Prop :=
  ∀ (cluster : ClusterId) (die : DieId) (s : State),
    (pwrState s = 1 → pwrBusy s = false → regionUp s cluster = true → (clusterOf s cluster).gated = false →
      (∀ k, k < 8 → coreQuiet s (8 * cluster + k) = true) →
      ∃ s', exec (.idleClusterGate cluster) s = .next s' ∧ Frame [] s s' ∧ clusterOf s' cluster = { clusterOf s cluster with gated := true } ∧
        (s.pwr.railStrap = true → (railOf s (cluster / 8)).on = true → getB s rIVR_LIMIT 0 = true →
          (∀ k, k < 8 → 8 * (cluster.val / 8) + k ≠ cluster.val → (clusterOf s (8 * (cluster.val / 8) + k)).gated = true) →
          (railOf s' (cluster / 8)).lowPow = true)) ∧
    ((clusterOf s cluster).gated = true → s.pwr.held = [] →
      ∃ s', exec (.gatedClusterAccess cluster) s = .next s' ∧ SameMem s s' ∧ pwrState s' = 0 ∧ getF s' rPWR_STATE 8 4 = 7 ∧
        ∀ cl, cl < 32 → (clusterOf s' cl).gated = false) ∧
    (0 < (clusterOf s cluster).ramp → (clusterOf s cluster).ramp ≤ 7 → 256 ≤ (clusterOf s cluster).rampCyc → regionUp s cluster = true → (clusterOf s cluster).gated = false →
      ∃ s', exec (.activityRampStep cluster) s = .next s' ∧ Frame [] s s' ∧
        clusterOf s' cluster = { clusterOf s cluster with ramp := (clusterOf s cluster).ramp + 1, rampCyc := 0 }) ∧
    (∀ amps : BitVec 8, ∃ s', exec (.ivrLpExit ⟨die, amps⟩) s = .next s' ∧ Frame [] s s' ∧
      (getF s rIVR_LIMIT 8 5 < amps.toNat → railOf s' die = { railOf s die with lowPow := false }) ∧ (amps.toNat ≤ getF s rIVR_LIMIT 8 5 → s' = s)) ∧
    (∀ amps : BitVec 5, s.pwr.railStrap = true → (railOf s die).lowPow = true → 25 < amps.toNat →
      ∃ s', exec (.brownout die amps) s = .next s' ∧ getB s' rPWR_STATE (16 + die) = true ∧ (∀ k, k < 8 → regionUp s' (8 * die.val + k) = false) ∧
        regionUp s' (32 + die) = false ∧ (railOf s' die).brown = some (tbNow s, amps.toNat))

/-- O40. The power limiter raises its level above PEAK or after TIME of SUSTAIN exceeded, lowers it below 95 percent of SUSTAIN at most once in 10 samples, and keeps it
otherwise; PWR_MEAS shows the sample (R324). A cluster's thermal level rises above 105 °C or 95 °C of firn and falls at or below 102 and 92 (R454). A reading that
reaches its threshold warns; at the trip point THERMTRIP_N goes low, TRIPPED is set and every region but the always-on one stops (R453). -/
def Obligations.LimitsActOnSamples : Prop :=
  ∀ (s : State),
    (∀ (watts : BitVec 13) (sus above : Nat), sus = min (getF s rPWR_LIMIT 0 13) (getF s rPWR_LIMIT 16 13) → above = (if sus < watts.toNat then s.pwr.overUs + 1 else 0) →
      ∃ s', exec (.powerLimiterSample watts) s = .next s' ∧ Frame [rPWR_MEAS] s s' ∧ getF s' rPWR_MEAS 0 13 = watts.toNat ∧ s'.pwr.overUs = above ∧
        (getF s rPWR_LIMIT 16 13 < watts.toNat ∨ getF s (rPWR_LIMIT + 4) 0 10 ≤ above → s'.pwr.lpwr = min (s.pwr.lpwr + 1) 7) ∧
        (watts.toNat ≤ getF s rPWR_LIMIT 16 13 → above < getF s (rPWR_LIMIT + 4) 0 10 →
          s'.pwr.lpwr = (if 100 * watts.toNat < 95 * sus ∧ 9 ≤ s.pwr.sinceUs then s.pwr.lpwr - 1 else s.pwr.lpwr))) ∧
    (∀ (cluster : ClusterId) (tj ts tf : BitVec 8), clusterPresent s cluster = true → regionUp s cluster = true →
      ∃ s', exec (.thermalLevelUpdate cluster tj ts tf) s = .next s' ∧ SameMem s s' ∧ getF s' (rFIRN_STAT cluster) 0 8 = tf.toNat ∧
        (clusterOf s' cluster).lth = (if 105 < max tj.toNat ts.toNat ∨ 95 < tf.toNat then min ((clusterOf s cluster).lth + 1) 7
          else if max tj.toNat ts.toNat ≤ 102 ∧ tf.toNat ≤ 92 then (clusterOf s cluster).lth - 1 else (clusterOf s cluster).lth)) ∧
    (∀ (region : RegionId) (t : BitVec 8), tempOf s region < getF s rTHERM_CFG 0 8 → getF s rTHERM_CFG 0 8 ≤ t.toNat →
      ∃ s', exec (.thermalWarn (.junction region) t) s = .next s' ∧ SameMem s s' ∧ tempOf s' region = t.toNat ∧ bits (getR64 s' rHOST_IRQ_STAT) 11 1 = 1 ∧
        getF s' (rMLOG_STAT (regionDie region)) 0 1 = 1) ∧
    (∀ (sensor : Sensor) (t : BitVec 8), tripped s = false → (match sensor with | .junction _ => 115 | .firnCase _ => 105) ≤ t.toNat →
      ∃ s', exec (.thermtrip sensor t) s = .next s' ∧ s'.pins.thermtripN = false ∧ tripped s' = true ∧ (∀ r, r < 36 → regionUp s' r = false) ∧
        (∀ d, d < 4 → (railOf s' d).on = false))

/-- O41. Loss of the main supplies takes the package to OFF with cause 2, and their presence starts the bring-up (R450, R434). The loss of VAUX loses the always-on
region too (R451); its return samples the straps and starts from reset. DVFS_TARGET refuses a multiplier outside 20 to 34 with BADREQ (R321); a raise that has not settled
in 1 ms shows TIMEOUT (R321); PAD_RELEASE releases latched pads (R316). -/
def Obligations.SuppliesAndTargets : Prop :=
  ∀ (s : State),
    (s.pwr.off = false → ∃ s', exec .mainPowerLoss s = .next s' ∧ s'.pwr.off = true ∧ s'.pwr.supplies = false ∧ getF s' rPWR_STATE 12 2 = 2 ∧
      (∀ q, q < 9 → ledHeld s' q = 0) ∧ (∀ a, rdByte s' a = 0)) ∧
    (s.pwr.supplies = false → s.pwr.vaux = true → tripped s = false → s.pwr.off = false →
      ∃ s', exec .mainSuppliesPresent s = .next s' ∧ SameMem s s' ∧ s'.pwr.supplies = true ∧ s'.pwr.waking = true ∧ pwrBusy s' = true ∧
        ∀ d, d < 4 → (railOf s' d).on = true) ∧
    (∃ s', exec .vauxLoss s = .next s' ∧ s'.pwr.vaux = false ∧ (∀ off, getR s' off = resetVal off) ∧ (∀ a, rdByte s' a = 0) ∧ s'.fuses = s.fuses ∧
      s'.sec.svn = s.sec.svn ∧ s'.pending = s.pending) ∧
    (∀ railMode bootSrc : Bool, s.pwr.vaux = false →
      ∃ s', exec (.vauxPowerUp railMode bootSrc) s = .next s' ∧ s'.pwr.vaux = true ∧ s'.pwr.railStrap = railMode ∧ s'.pwr.bootStrap = bootSrc ∧
        (∀ off, off ≠ rRAIL_MODE → getR s' off = resetVal off) ∧ getB s' rRAIL_MODE 0 = railMode ∧ s'.pending = s.pending) ∧
    (∀ (src : Src) (v : W64), Served s src rDVFS_TARGET →
      (∃ n ∈ [bits v.toNat 0 6, bits v.toNat 8 6, bits v.toNat 16 6, bits v.toNat 24 6, bits v.toNat 32 6], n < 20 ∨ 34 < n) →
      ∃ s', exec (.dvfsTargetWrite src v) s = .next s' ∧ Frame [rDVFS_STATUS, rDVFS_STATUS + 4] s s' ∧ bits (getR64 s' rDVFS_STATUS) 52 1 = 1) ∧
    (∀ (src : Src) (v : W64), Served s src rDVFS_TARGET →
      (∀ n ∈ [bits v.toNat 0 6, bits v.toNat 8 6, bits v.toNat 16 6, bits v.toNat 24 6, bits v.toNat 32 6], 20 ≤ n ∧ n ≤ 34) →
      ∃ s', exec (.dvfsTargetWrite src v) s = .next s' ∧ Frame [rDVFS_TARGET, rDVFS_TARGET + 4, rDVFS_STATUS, rDVFS_STATUS + 4] s s' ∧
        (∀ d, d < 4 → tgtCl s' d = bits v.toNat (8 * d) 6) ∧ tgtSvc s' = bits v.toNat 32 6 ∧ ∀ r, regionN s' r = regionN s r) ∧
    (∀ d : DieId, phase s d = 3 → (railOf s d).settled = false → (railOf s d).since + 100000 ≤ s.time.ticks →
      ∃ s', exec (.settleTimeout d) s = .next s' ∧ Frame [rDVFS_STATUS, rDVFS_STATUS + 4] s s' ∧ bits (getR64 s' rDVFS_STATUS) 53 1 = 1) ∧
    (∀ src : Src, Served s src rPAD_RELEASE → s.pwr.padsLatched.isSome = true →
      ∃ s', exec (.padRelease src) s = .next s' ∧ Frame [rPAD_RELEASE] s s' ∧ s'.pwr.padsLatched = none ∧ getB s' rPAD_RELEASE 1 = false)

-- resets (21) ---------------------------------------------------------------------------------------------------------------------------------

/-- O42. A write of RST_REQ that names a target out of range, an absent one, one without a clock or one that a reset or containment holds answers with its RESULT and does
nothing else; an accepted one sets BUSY (R432). A core reset leaves its slots EMPTY, its counters at 0 in the next generation and its ends in RESET_HOLD, and keeps its
memories and its scalar registers (Table 21-1). A package cold reset returns every register but those it keeps to reset, and ends with the bring-up of R434. -/
def Obligations.ResetRequestsAct : Prop :=
  ∀ (src : Src) (index : BitVec 10) (s : State), Served s src rRST_REQ →
    (∀ p ∈ ([(.rstFloe src index, 0, 1024), (.rstCore src index, 1, 256), (.rstCluster src index, 2, 32), (.rstDie src index, 3, 4)] : List (Instr × Nat × Nat)),
      (p.2.2 ≤ index.toNat → ∃ s', exec p.1 s = .next s' ∧ Frame [rRST_STAT] s s' ∧ getF s' rRST_STAT 1 3 = 4) ∧
      (index.toNat < p.2.2 →
        ((s.rstJob ≠ none ∨ s.resetting ≠ []) → ∃ s', exec p.1 s = .next s' ∧ Frame [rRST_STAT] s s' ∧ getF s' rRST_STAT 1 3 = 1) ∧
        (s.rstJob = none → s.resetting = [] →
          (p.2.1 < 3 → clusterPresent s (rstCluster p.2.1 index.toNat) = false →
            ∃ s', exec p.1 s = .next s' ∧ Frame [rRST_STAT] s s' ∧ getF s' rRST_STAT 1 3 = 3) ∧
          ((p.2.1 < 3 → clusterPresent s (rstCluster p.2.1 index.toNat) = true) →
            (regionUp s (if p.2.1 = 3 then 32 + index.toNat else rstCluster p.2.1 index.toNat) = false →
              ∃ s', exec p.1 s = .next s' ∧ Frame [rRST_STAT] s s' ∧ getF s' rRST_STAT 1 3 = 5) ∧
            (regionUp s (if p.2.1 = 3 then 32 + index.toNat else rstCluster p.2.1 index.toNat) = true →
              (rstRefused s p.2.1 index.toNat = true → ∃ s', exec p.1 s = .next s' ∧ Frame [rRST_STAT] s s' ∧ getF s' rRST_STAT 1 3 = 2) ∧
              (rstRefused s p.2.1 index.toNat = false → ∃ s', exec p.1 s = .next s' ∧ SameMem s s' ∧ s'.rstJob = some (p.2.1, index.toNat) ∧
                getF s' rRST_STAT 1 3 = 0 ∧ getB s' rRST_STAT 0 = true ∧
                (p.2.1 = 1 → s'.resetting = [index.toNat] ∧ (∀ t, t < 4 → slotState s' index.toNat t = 0) ∧
                  (∀ n, n < 48 → ctrValue s' index.toNat n = 0 ∧ ctrGen s' index.toNat n = (ctrGen s index.toNat n + 1) % 16) ∧
                  (∀ e, e < 16 → ichState s' index.toNat e = 2) ∧ (∀ r, vreg s' index.toNat r = vreg s index.toNat r) ∧
                  (∀ t r, t < 4 → sreg s' index.toNat t r = sreg s index.toNat t r)))))))) ∧
    (∃ s', exec (.rstPackage src index) s = .next s' ∧ s'.fuses = s.fuses ∧ s'.pending = s.pending ∧ (∀ a, rdByte s' a = 0) ∧
      getR s' rLEDGER_COLD = getR s rLEDGER_COLD + 1 ∧ s'.sec.lifeState = (if s.sec.lifeState = 2 then 1 else s.sec.lifeState) ∧ s'.sec.svn = s.sec.svn ∧
      (∀ off, off ∉ [rPWR_STATE, rTHERM_STAT + 4, rBOOT_CTL, rSESS_STATE, rLEDGER_COLD, rTB_CTL + 4, rRAIL_MODE] → getR s' off = resetVal off) ∧
      (s.pwr.supplies = true → tripped s = false → s'.pwr.waking = true ∧ pwrBusy s' = true))

/-- O43. A reset ends when the requests it waits for have completed (R251, R433): BUSY reads 0, a floe's slots are EMPTY, a core's descriptors are IDLE. PERST_N and a
Function Level Reset take the host link down, drop every fetched command, and return the host block, with its MSI-X table and
configuration, to reset but for FIRN_WIN_BASE (R358, R431). What the table and the configuration hold at reset is presumed (entry 116). -/
def Obligations.ResetsEnd : Prop :=
  ∀ (s : State),
    (∀ i, s.rstJob = some (0, i) → s.resetting = [] → (∀ m ∈ floeMembers s (i / 32) (i % 32), engineQuiet s m.1 m.2 = true) →
      ∃ s', exec .resetComplete s = .next s' ∧ SameMem s s' ∧ s'.rstJob = none ∧ getB s' rRST_STAT 0 = false ∧
        (∀ m ∈ floeMembers s (i / 32) (i % 32), slotState s' m.1 m.2 = 0) ∧ getR64 s' (rFLOE_CYC (i / 32) (i % 32)) = 0) ∧
    (∀ c, s.rstJob = some (1, c) → s.resetting = [c] → coreDrained s c = true → regionUp s (c / 8) = true →
      ∃ s', exec .resetComplete s = .next s' ∧ SameMem s s' ∧ s'.rstJob = none ∧ s'.resetting = [] ∧ getB s' rRST_STAT 0 = false ∧ (coreOf s' c).desc = []) ∧
    (∀ i ∈ ([.perstN, .functionLevelReset] : List Instr),
      ∃ s', exec i s = .next s' ∧ SameMem s s' ∧ s'.host.linkUp = false ∧ s'.host.bme = false ∧ s'.host.accepted = [] ∧ s'.host.movers = [] ∧
        s'.host.loader = none ∧ s'.host.pend = 0 ∧ (∀ v, vecOf s' v = {}) ∧ s'.host.cfg = {} ∧ (s.sess.jtag = false → sessOpen s' = false) ∧
        (∀ off, 0x40000 ≤ off → off < 0x80000 → off ∉ [rFIRN_WIN_BASE, rHOST_IRQ_STAT, rHOST_IRQ_STAT + 4] → getR s' off = resetVal off) ∧
        getR s' rFIRN_WIN_BASE = getR s rFIRN_WIN_BASE)

-- sessions and the host link (16) ------------------------------------------------------------------------------------------------------------------

/-- O44. A session begins with a challenge (R381) and opens on the right response to it, which clears FAILS; a wrong one counts in FAILS, and the eighth locks out for
60 · 2^LEVEL s (R382). A refused request or SUBMIT leaves its code in ERR alone. CLOSE ends the session and the ring (R383); a lockout ends when its time has passed. -/
def Obligations.SessionsOpenAndClose : Prop :=
  ∀ (src : Src) (s : State), Served s src rSESS_CTL →
    (∀ debug : Bool,
      (∀ e : Nat, ((e = 5 ∧ (bruta s = false ∨ sessState s = 2)) ∨ (e = 3 ∧ bruta s = true ∧ sessState s = 3) ∨
          (e = 4 ∧ bruta s = true ∧ sessState s < 2 ∧ sessKey s debug = none)) →
        ∃ s', exec (.sessReq src debug) s = .next s' ∧ Frame [rSESS_STATE] s s' ∧ getF s' rSESS_STATE 12 4 = e ∧ sessState s' = sessState s) ∧
      (∀ k, bruta s = true → sessState s < 2 → sessKey s debug = some k →
        ∃ s', exec (.sessReq src debug) s = .next s' ∧ Frame (rSESS_STATE :: (List.range 8).map fun i => rSESS_CHALLENGE + 4 * i) s s' ∧ sessState s' = 1 ∧
          getB s' rSESS_STATE 2 = debug ∧ regBytes s' rSESS_CHALLENGE 32 = leBytes 32 (Config.challenge s.draws).toNat ∧ s'.sess.chalTick = s.time.ticks)) ∧
    (sessState s ≠ 1 → ∃ s', exec (.sessSubmit src) s = .next s' ∧ Frame [rSESS_STATE] s s' ∧ getF s' rSESS_STATE 12 4 = 6 ∧ sessState s' = sessState s) ∧
    (sessState s = 1 → s.sess.chalTick + 1000000000 ≤ s.time.ticks →
      ∃ s', exec (.sessSubmit src) s = .next s' ∧ Frame [rSESS_STATE] s s' ∧ getF s' rSESS_STATE 12 4 = 2 ∧ sessState s' = 0) ∧
    (∀ k, sessState s = 1 → s.time.ticks < s.sess.chalTick + 1000000000 → sessKey s (getB s rSESS_STATE 2) = some k →
      (sessResponse s = hmac384 k (regBytes s rSESS_CHALLENGE 32 ++ regBytes s rSESS_NONCE 32 ++ sessLabel (getB s rSESS_STATE 2)) →
        ∃ s', exec (.sessSubmit src) s = .next s' ∧ Frame [rSESS_STATE] s s' ∧ sessState s' = 2 ∧ getF s' rSESS_STATE 4 8 = 0 ∧
          getF s' rSESS_STATE 16 16 = (getF s rSESS_STATE 16 16 + 1) % 65536 ∧ s'.sess.jtag = (src == .jtag)) ∧
      (sessResponse s ≠ hmac384 k (regBytes s rSESS_CHALLENGE 32 ++ regBytes s rSESS_NONCE 32 ++ sessLabel (getB s rSESS_STATE 2)) →
        ∃ s', exec (.sessSubmit src) s = .next s' ∧ SameMem s s' ∧ getF s' rSESS_STATE 12 4 = 1 ∧
          (getF s rSESS_STATE 4 4 < 7 → sessState s' = 0 ∧ getF s' rSESS_STATE 4 4 = getF s rSESS_STATE 4 4 + 1) ∧
          (getF s rSESS_STATE 4 4 = 7 → sessState s' = 3 ∧ getF s' rSESS_STATE 4 4 = 0 ∧ getF s' rSESS_STATE 8 4 = min 10 (getF s rSESS_STATE 8 4 + 1) ∧
            s'.sess.lockLen = 60 * 2 ^ getF s rSESS_STATE 8 4 * 100000000 ∧ s'.sess.lockTick = s.time.ticks))) ∧
    (sessOpen s = true → sessDebug s = false →
      ∃ s', exec (.sessClose src) s = .next s' ∧ Frame [rSESS_STATE, rHRING_SIZE] s s' ∧ sessState s' = 0 ∧ getB s' rHRING_SIZE 8 = false ∧
        s'.host.accepted = s.host.accepted) ∧
    (sessState s = 3 → s.sess.lockTick + s.sess.lockLen ≤ s.time.ticks →
      ∃ s', exec .lockoutExpiry s = .next s' ∧ Frame [rSESS_STATE] s s' ∧ sessState s' = 0)

/-- O45. A trained host link shows its rate, width and mode in HOST_STAT (R357); its loss stops the ring, drops the fetched commands and ends a session that JTAG does
not own (R383). Bus Master Enable lets what waited leave (R364); a vector's entry takes its address, data and mask, and a pending vector that it unmasks is sent with
them, a masked one is not (R359); a CTLBAR access of a wrong size or place is discarded and
counted, or reads as unsupported (R360); HOST_IRQ_EN sends the vector of a set bit that it newly enables (R377). -/
def Obligations.TheHostLinkCarriesInterrupts : Prop :=
  ∀ (s : State),
    (∀ (rate : BitVec 3) (width : BitVec 5) (flit : Bool), 3 ≤ rate.toNat → rate.toNat ≤ 5 → width.toNat ∈ [1, 4, 8, 16] → s.pwr.off = false → regionUp s 32 = true →
      ∃ s', exec (.hostLinkTrain rate width flit) s = .next s' ∧ Frame [rHOST_STAT] s s' ∧ s'.host.linkUp = true ∧ getF s' rHOST_STAT 0 3 = rate.toNat ∧
        getF s' rHOST_STAT 3 5 = width.toNat ∧ getB s' rHOST_STAT 8 = (flit || rate.toNat == 5)) ∧
    (∃ s', exec .hostLinkLoss s = .next s' ∧ SameMem s s' ∧ s'.host.linkUp = false ∧ getF s' rHOST_STAT 0 9 = 0 ∧ getB s' rHRING_SIZE 8 = false ∧
      s'.host.accepted = [] ∧ s'.host.movers = [] ∧ (s.sess.jtag = false → sessOpen s' = false) ∧ (s.sess.jtag = true → sessState s' = sessState s)) ∧
    (∀ on : Bool, s.host.recs = [] → s.host.pend = 0 →
      ∃ s', exec (.busMasterEnable on) s = .next s' ∧ Frame [] s s' ∧ s'.host = { s.host with bme := on }) ∧
    (∀ r, s.host.recs = [r] → s.host.linkUp = true → s.host.pend = 0 → cmdF r.cmd 0 9 1 = 0 →
      ∃ s', exec (.busMasterEnable true) s = .next s' ∧ Frame [rCTAIL] s s' ∧ s'.host.recs = [] ∧ getR s' rCTAIL = getR s rCTAIL + 1 ∧
        s'.host.out = s.host.out ++ [.record ((getR64 s rCRING_BASE + 32 * ((getR s rCTAIL).toNat % 2 ^ ringLog s)) % 2 ^ 64) (recWords s r)]) ∧
    (∀ (v : Fin 64) (addr : W64) (data : W32),
      (s.host.linkUp = true → s.host.bme = true → s.host.pend = 2 ^ v.val →
        ∃ s', exec (.msixUnmask ⟨v, addr, data, false⟩) s = .next s' ∧ Frame [] s s' ∧ s'.host.pend = 0 ∧ vecOf s' v = ⟨addr, data, false⟩ ∧
          s'.host.out = s.host.out ++ [.msix v.val addr data]) ∧
      (s.host.pend = 0 ∨ s.host.linkUp = false ∨ s.host.bme = false →
        ∃ s', exec (.msixUnmask ⟨v, addr, data, false⟩) s = .next s' ∧ Frame [] s s' ∧ s'.host.pend = s.host.pend ∧ vecOf s' v = ⟨addr, data, false⟩ ∧
          s'.host.out = s.host.out) ∧
      (s.host.pend = 2 ^ v.val →
        ∃ s', exec (.msixUnmask ⟨v, addr, data, true⟩) s = .next s' ∧ Frame [] s s' ∧ s'.host.pend = s.host.pend ∧ vecOf s' v = ⟨addr, data, true⟩ ∧
          s'.host.out = s.host.out ∧ ∀ w : Fin 64, w ≠ v → vecOf s' w = vecOf s w)) ∧
    (∀ (off : BitVec 26) (size : Nat), ((size ≠ 4 ∧ size ≠ 8) ∨ off.toNat % size ≠ 0) →
      (∃ s', exec (.ctlbarBadAccess true off size) s = .next s' ∧ Frame [rHOST_STAT + 4] s s' ∧
        getF s' (rHOST_STAT + 4) 0 16 = min 65535 (getF s (rHOST_STAT + 4) 0 16 + 1)) ∧
      (∃ s', exec (.ctlbarBadAccess false off size) s = .next s' ∧ Frame [] s s' ∧ s'.host.out = s.host.out ++ [.unsupported])) ∧
    (∀ (src : Src) (v : W64), Served s src rHOST_IRQ_EN →
      ∃ s', exec (.hostIrqEnWrite src v) s = .next s' ∧ Frame [rHOST_IRQ_EN, rHOST_IRQ_EN + 4] s s' ∧
        getR64 s' rHOST_IRQ_EN = v.toNat ∧
        (∀ b, b < 32 → getR64 s rHOST_IRQ_EN = 0 → v.toNat = 2 ^ b → bits (getR64 s rHOST_IRQ_STAT) b 1 = 1 → s.host.linkUp = true → s.host.bme = true →
          (vecOf s b).mask = false → s'.host.out = s.host.out ++ [.msix b (vecOf s b).addr (vecOf s b).data]))

-- boot, attestation and lifecycle (18) --------------------------------------------------------------------------------------------------------

/-- O46. PROVISION burns PROV_KEY into the next owner slot and ends in OWNED; DBG_UNLOCK and DBG_LOCK move between OWNED and DEBUG_UNLOCKED; RELEASE revokes the slot and
resets the package (R407). An attestation signs the report (R406). -/
def Obligations.TheLifecycleMoves : Prop :=
  ∀ (src : Src) (s : State), Served s src rLIFECYCLE →
    (s.sec.lifeState = 0 → slotsUsed s < 4 → s.sec.burning = false →
      ∃ s', exec (.provision src) s = .next s' ∧ Frame [] s s' ∧ s'.sec = { s.sec with burning := true }) ∧
    (s.sec.burning = true →
      ∃ s', exec .provisionDone s = .next s' ∧ Frame [] s s' ∧ s'.sec.lifeState = 1 ∧ s'.sec.burning = false ∧ s'.sec.cur = slotsUsed s ∧ s'.sec.provKey = [] ∧
        ownerSlot s' (slotsUsed s) = ⟨(provBytes s).take 32, ((provBytes s).drop 32).take 32, (provBytes s).drop 64, true, false⟩ ∧
        ∀ k, k ≠ slotsUsed s → ownerSlot s' k = ownerSlot s k) ∧
    (s.sec.lifeState = 1 → sessOpen s = true → sessDebug s = false →
      ∃ s', exec (.dbgUnlock src) s = .next s' ∧ Frame [] s s' ∧ s'.sec = { s.sec with lifeState := 2 }) ∧
    (s.sec.lifeState = 2 → sessOpen s = true →
      ∃ s', exec (.dbgLock src) s = .next s' ∧ SameMem s s' ∧ s'.sec = { s.sec with lifeState := 1 } ∧ (sessDebug s = true → sessState s' = 0) ∧
        (sessDebug s = false → sessState s' = 2)) ∧
    ((s.sec.lifeState = 1 ∨ s.sec.lifeState = 2) → sessOpen s = true → sessDebug s = false →
      ∃ s', exec (.lifecycleRelease src) s = .next s' ∧ s'.sec.lifeState = 0 ∧ (ownerSlot s' s.sec.cur).revoked = true ∧
        (ownerSlot s' s.sec.cur).used = (ownerSlot s s.sec.cur).used ∧ sessOpen s' = false ∧ (∀ a, rdByte s' a = 0)) ∧
    (s.sec.signing = false → ∃ s', exec (.attestReq src) s = .next s' ∧ Frame [rATTEST_CTL] s s' ∧ getB s' rATTEST_CTL 1 = true ∧ s'.sec.signing = true) ∧
    (s.sec.signing = true → ∃ s', exec (.attestReq src) s = .next s' ∧ Frame [rATTEST_CTL] s s' ∧ getB s' rATTEST_CTL 2 = true ∧ s'.sec.signing = true) ∧
    (s.sec.signing = true →
      ∃ s', exec .attestSignDone s = .next s' ∧ Frame (rATTEST_CTL :: (List.range 1024).map fun i => rATTEST_REPORT + 4 * i) s s' ∧
        getB s' rATTEST_CTL 1 = false ∧ s'.sec.signing = false ∧ regBytes s' rATTEST_REPORT 256 = reportHead s)

/-- O47. Once stack 0 is initialised, the boot ROM waits for a push when FORCE_PUSH or the strap asks for one, or when the flash cannot be read; it enters an image that
verifies, and waits for a push with its code of R403 in ERR after one that does not (R400, R401). A stack 0 whose initialisation fails is ERR 8, and a restart enters the copy
that it verifies in stack 0, and where
it does not verify and a push is asked for waits with its code (R431). A push begins at index 0, takes 8 bytes at each write, and is verified in place when it is done (R402). -/
def Obligations.ImagesBootOnlyWhenVerified : Prop :=
  ∀ (s : State),
    (s.sec.bootWait = true → getB s (rCC_CTL 0) 0 = true → regionUp s 32 = true → stack0Ready s = true → s.sec.warm = false →
      (∀ image, (getB s rBOOT_CTL 0 = true ∨ s.pwr.bootStrap = true) →
        ∃ s', exec (.bootRomRun image) s = .next s' ∧ Frame [rBOOT_STAT, rBOOT_CTL] s s' ∧ getF s' rBOOT_STAT 0 2 = 1 ∧ getB s' rBOOT_CTL 0 = false ∧
          s'.sec.bootWait = false) ∧
      (getB s rBOOT_CTL 0 = false → s.pwr.bootStrap = false →
        (∃ s', exec (.bootRomRun .failed) s = .next s' ∧ SameMem s s' ∧ getF s' rBOOT_STAT 0 2 = 1 ∧ getF s' rBOOT_STAT 4 4 = 7 ∧ s'.sec.bootWait = false) ∧
        (∀ m p, m.length = 0x2000 → p.length = manPlen m → p.length ≤ 0xF00000 →
          ∃ s', exec (.bootRomRun (.bytes m p)) s = .next s' ∧ s'.sec.bootWait = false ∧ s.sec.svn ≤ s'.sec.svn ∧
            (verifyImage s.sec.svn m p = 0 → getF s' rBOOT_STAT 0 2 = 2 ∧ getR s' rFW_VERSION = BitVec.ofNat 32 (manField m 0x10 4) ∧
              (ccOf s' 0).pc = 0x020000000000) ∧
            (verifyImage s.sec.svn m p ≠ 0 → getF s' rBOOT_STAT 0 2 = 1 ∧ getF s' rBOOT_STAT 4 4 = verifyImage s.sec.svn m p ∧ s'.sec.svn = s.sec.svn)))) ∧
    (s.sec.bootWait = true → getB s (rCC_CTL 0) 0 = true → regionUp s 32 = true → stack0Ready s = false →
      (∃ s', exec (.bootRomRun .noFirn) s = .next s' ∧ Frame [rBOOT_STAT, rBOOT_CTL] s s' ∧ getF s' rBOOT_STAT 0 2 = 1 ∧ getF s' rBOOT_STAT 4 4 = 8 ∧
        s'.sec.bootWait = false) ∧
      (∀ image, image ≠ .noFirn → exec (.bootRomRun image) s = .next s)) ∧
    (s.sec.bootWait = true → getB s (rCC_CTL 0) 0 = true → regionUp s 32 = true → stack0Ready s = true → s.sec.warm = true →
      ∀ image s1 m p e, imageCheck s = (s1, m, p, e) →
        ∃ s', exec (.bootRomRun image) s = .next s' ∧ s'.sec.warm = false ∧
          (e = 0 → getF s' rBOOT_STAT 0 2 = 2 ∧ getR s' rFW_VERSION = BitVec.ofNat 32 (manField m 0x10 4) ∧ (ccOf s' 0).pc = 0x020000000000 ∧
            s'.sec.bootWait = false) ∧
          (e ≠ 0 → (getB s1 rBOOT_CTL 0 = true ∨ s1.pwr.bootStrap = true) → getF s' rBOOT_STAT 0 2 = 1 ∧ getF s' rBOOT_STAT 4 4 = e ∧ s'.sec.bootWait = false)) ∧
    (∀ src, Served s src rBOOT_PUSH_CTL → getF s rBOOT_STAT 0 2 = 1 →
      (∃ s', exec (.bootPushStart src) s = .next s' ∧ Frame [] s s' ∧ s'.sec = { s.sec with pushIdx := some 0 }) ∧
      ((stackOf s 0).open_ = true →
        (∀ (v : W64) (i key : Nat), s.sec.pushIdx = some i → i < 2 ^ 24 → i % 8 = 0 → key = memKey s (imageBase + i) → s.firnEnt = [] → s.beatErr = [] →
          mirMode s ≠ 1 →
          ∃ s', exec (.bootPushData src v) s = .next s' ∧ s'.sec = { s.sec with pushIdx := some (i + 8) } ∧ rdBytes s' key 8 = leBytes 8 v.toNat ∧
            ∀ a, (a < key ∨ key + 8 ≤ a) → rdByte s' a = rdByte s a) ∧
        (∀ (v : W64) (i : Nat), s.sec.pushIdx = some i → 2 ^ 24 ≤ i →
          ∃ s', exec (.bootPushData src v) s = .next s' ∧ Frame [rBOOT_STAT] s s' ∧ getB s' rBOOT_STAT 15 = true ∧ s'.sec = s.sec) ∧
        (∀ i s1 m p e, s.sec.pushIdx = some i → imageCheck s = (s1, m, p, e) →
          ∃ s', exec (.bootPushDone src) s = .next s' ∧
            (e = 0 → getF s' rBOOT_STAT 0 2 = 2 ∧ getB s' rBOOT_STAT 2 = true ∧ getR s' rFW_VERSION = BitVec.ofNat 32 (manField m 0x10 4)) ∧
            (e ≠ 0 → getF s' rBOOT_STAT 0 2 = 1 ∧ getF s' rBOOT_STAT 4 4 = e ∧ s'.sec.pushIdx = none))))

-- fabric ports (15) ---------------------------------------------------------------------------------------------------------------------------------

/-- O48. A port that is enabled trains (R326); trained, it is UP with four lanes and UP_HALF with one pair, its sequence numbers at 0. A lost link is DOWN with LINKDOWN
latched; packets that have arrived whole stay (R348). A port in LP retrains once the package is awake; WAKE leaves on a link that is up or trains, and at once as one flit on
a link in LP; one that arrives in SLEEP wakes the package (R327, R347). Stated for ports without packets to send and requests in flight. -/
def Obligations.PortsTrainAndFall : Prop :=
  ∀ (port : PortId) (src : Src) (s : State), (portOf s port).txq = [] →
    (Served s src (rFAB_CTL port) → portState s port = 0 →
      ∃ s', exec (.fabPortEnable src port) s = .next s' ∧ SameMem s s' ∧ portState s' port = 1 ∧ getB s' (rFAB_CTL port) 0 = true) ∧
    (∀ i ∈ ([(.fabPortDisable src port, true), (.linkDown port 2, false), (.linkDown port 3, false)] : List (Instr × Bool)),
      (i.2 = true → Served s src (rFAB_CTL port)) → portState s port ≠ 0 → s.tracker = [] → ((netLoads s).all fun m => (toPort port m.2).isNone) = true →
      (port.val ≠ 0 ∨ (s.mirror.commits = [] ∧ s.mirror.pendWr = none)) →
      ∃ s', exec i.1 s = .next s' ∧ SameMem s s' ∧ portState s' port = 0 ∧ getB s' (rFAB_STAT port) 5 = true ∧
        portOf s' port = { out := (portOf s port).out, landed := (portOf s port).landed, rx := (portOf s port).rx.map fun k => { k with flits := 0 } } ∧
        (i.2 = true → getB s' (rFAB_CTL port) 0 = false)) ∧
    (∀ (l0 l1 l2 l3 lo hi : Bool) (peer : PeerId), lo = (l0 && l1) → hi = (l2 && l3) → portState s port = 1 →
      ((lo || hi) = false → exec (.trainingDone port l0 l1 l2 l3 peer) s = .next s) ∧
      ((lo || hi) = true → ∃ s', exec (.trainingDone port l0 l1 l2 l3 peer) s = .next s' ∧ SameMem s s' ∧ portState s' port = (if lo && hi then 2 else 3) ∧
        getF s' (rFAB_STAT port) 16 16 = peer.pkg.toNat ∧ getF s' (rFAB_STAT port + 4) 0 4 = peer.port.toNat ∧ (portOf s' port).rxSeq = 0 ∧
        (port.val ≠ 0 ∨ mirMode s = 0 → (portOf s' port).nextSeq = 0 ∧ (portOf s' port).replay = [] ∧ (portOf s' port).used = []))) ∧
    (portState s port = 1 → ∃ s', exec (.trainingTimeout port) s = .next s' ∧ Frame [] s s' ∧ portState s' port = 1) ∧
    (portState s port = 4 → awake s = true →
      ∃ s', exec (.lpExit port) s = .next s' ∧ SameMem s s' ∧ portState s' port = (if (portOf s port).half then 3 else 2) ∧ (portOf s' port).nextSeq = 0) ∧
    (Served s src (rFAB_CTL port) → getB s (rFAB_CTL port) 0 = true → getB s (rFAB_CTL port) 2 = false →
      (portUp s port = true ∨ portState s port = 1 →
        ∃ s', exec (.fabWakeSend src port) s = .next s' ∧ SameMem s s' ∧
          Sends s s' port 0 ⟨mkHdr 11 (getF s (rFAB_STAT port) 16 16) (ownPkg s) 0 0 0 0, [], []⟩) ∧
      (portState s port = 4 → (portOf s port).eth = false →
        ∃ s', exec (.fabWakeSend src port) s = .next s' ∧ SameMem s s' ∧ ∃ bs f, (portOf s' port).out = (portOf s port).out ++ [bs] ∧ flitOf bs = some f ∧
          (f.vl, f.sop, f.eop, f.idle) = (2, true, true, false) ∧
          pktOf f.content = ⟨mkHdr 11 (getF s (rFAB_STAT port) 16 16) (ownPkg s) 0 0 0 0, [], []⟩)) ∧
    (∀ k, (portOf s port).rx = [k] → k.pkt.hdr.typ = 11 → portState s port = 4 → pwrState s = 2 → s.pwr.entry = none → s.pwr.waking = false → s.pwr.off = false →
      s.pwr.vaux = true → s.pwr.held = [] →
      ∃ s', exec (.wakePacket port) s = .next s' ∧ SameMem s s' ∧ s'.pwr.waking = true ∧ getF s' rPWR_STATE 8 4 = 6 ∧ (portOf s' port).rx = []) ∧
    (∀ lp : Bool, portState s port ≠ 0 →
      ∃ s', exec (.peerLp port lp) s = .next s' ∧ Frame [rFAB_STAT port] s s' ∧ getB s' (rFAB_STAT port) 3 = lp ∧ portState s' port = portState s port)

/-- O49. The flit of the expected sequence number is taken once: its packet stands in the receive buffer, the flits it acknowledges leave the replay buffer, and an
acknowledgement leaves (R332). One that fails its CRC or comes ahead of the next in order is not taken and asks for a replay; one that came before is only acknowledged; a flit
that asks for a replay lets every unacknowledged flit leave again, which is counted, and too many replays lose the link (R333). Credits come back with a flit (R330). Ethernet
framing counts pauses and lost frames, takes nothing that is not of its tunnel, and replays when RTO has passed (R344, R345). A tracker entry older than
FAB_TMO ends with TIMEOUT: stated for a load of a control core (R336, R389). Time messages carry the stamps and give their error (R346). How an IDLE flit carries an
acknowledgement, and when an exchange starts within its interval, are the model's (entry 108; R296). -/
def Obligations.LinksRetryAndExchangeTime : Prop :=
  ∀ (port : PortId) (s : State) (x : PortSt), x = portOf s port → portUp s port = true → x.txq = [] → x.ret = [] → x.ackDue = false → x.nakDue = false →
    (∀ bs, x.eth = false → flitOf bs = none →
      ∃ s', exec (.flitReceive port bs) s = .next s' ∧ Frame [] s s' ∧ portOf s' port =
        { x with lossy := true, behind := max x.behind 1,
                 out := x.out ++ [flitBytes ⟨x.nextSeq, 0, 0, false, false, true, (x.rxSeq + 4095) % 4096, true, List.replicate 8 0, []⟩] }) ∧
    (∀ bs f, flitOf bs = some f → f.nak = false → f.credits = List.replicate 8 0 → f.idle = false → f.seq = x.rxSeq →
      ∃ s', exec (.flitReceive port bs) s = .next s' ∧ Frame [] s s' ∧ (portOf s' port).rxSeq = (x.rxSeq + 1) % 4096 ∧ (portOf s' port).lossy = false ∧
        (portOf s' port).replay = (if x.replay.any fun g => g.seq == f.ackSeq then (x.replay.dropWhile fun g => g.seq != f.ackSeq).drop 1 else x.replay) ∧
        (f.sop = true → f.eop = true →
          (portOf s' port).rx = x.rx ++ [⟨f.vl, f.cls, 1, if 0 < x.behind then 16 else 0, tbNow s, s.sendNo, pktOf f.content⟩]) ∧
        (f.eop = false → (portOf s' port).rx = x.rx) ∧
        (x.eth = false → (portOf s' port).out = x.out ++ [flitBytes ⟨x.nextSeq, 0, 0, false, false, true, f.seq, false, List.replicate 8 0, []⟩])) ∧
    (∀ bs f, flitOf bs = some f → f.nak = false → f.idle = false → (x.replay.any fun g => g.seq == f.ackSeq) = false →
      0 < (f.seq + 4096 - x.rxSeq) % 4096 → x.eth = false →
      ((f.seq + 4096 - x.rxSeq) % 4096 < 2048 → x.lossy = false →
        ∃ s', exec (.flitReceive port bs) s = .next s' ∧ Frame [] s s' ∧ portOf s' port =
          { x with lossy := true, behind := max x.behind ((f.seq + 4096 - x.rxSeq) % 4096 + 1),
                   out := x.out ++ [flitBytes ⟨x.nextSeq, 0, 0, false, false, true, (x.rxSeq + 4095) % 4096, true, List.replicate 8 0, []⟩] }) ∧
      (2048 ≤ (f.seq + 4096 - x.rxSeq) % 4096 →
        ∃ s', exec (.flitReceive port bs) s = .next s' ∧ Frame [] s s' ∧ portOf s' port =
          { x with out := x.out ++ [flitBytes ⟨x.nextSeq, 0, 0, false, false, true, (x.rxSeq + 4095) % 4096, false, List.replicate 8 0, []⟩] })) ∧
    (∀ bs f, flitOf bs = some f → f.nak = true → f.idle = true → f.vl ≠ 3 → f.credits = List.replicate 8 0 → (x.replay.any fun g => g.seq == f.ackSeq) = false →
      x.replay ≠ [] →
      (x.replays < retryMax s port → x.eth = false →
        ∃ s', exec (.flitReceive port bs) s = .next s' ∧ Frame [rFAB_CNT port] s s' ∧ (portOf s' port).replays = x.replays + 1 ∧ (portOf s' port).replay = x.replay ∧
          getF s' (rFAB_CNT port) 0 16 = min 65535 (getF s (rFAB_CNT port) 0 16 + 1) ∧
          (portOf s' port).out = x.out ++ x.replay.map fun g => flitBytes { g with ackSeq := (x.rxSeq + 4095) % 4096 }) ∧
      (retryMax s port ≤ x.replays →
        ∃ s', exec (.flitReceive port bs) s = .next s' ∧ portState s' port = 0 ∧ getB s' (rFAB_STAT port) 4 = true)) ∧
    (∀ bs f, flitOf bs = some f → f.nak = false → f.idle = true → f.vl ≠ 3 → (f.credits.any fun n => n != 0) = true → f.seq = x.rxSeq →
      ∃ s', exec (.flitReceive port bs) s = .next s' ∧ SameMem s s' ∧ (portOf s' port).rxSeq = (x.rxSeq + 1) % 4096 ∧
        ∀ k, k < 8 → portUsed (portOf s' port) k = portUsed x k - min (f.credits.getD k 0) (portUsed x k)) ∧
    (x.eth = true →
      (∀ (addresses body fcs : List Byte), frameOf (bits (getR64 s (rFAB_MAC port)) 0 48) (Config.ownMac port).toNat (getF s rFAB_ETH 0 16) (addresses ++ body ++ fcs) = .pause →
        ∃ s', exec (.ethFrameReceive port addresses body fcs) s = .next s' ∧ Frame [rFAB_CNT port + 4] s s' ∧
          getF s' (rFAB_CNT port + 4) 16 16 = min 65535 (getF s (rFAB_CNT port + 4) 16 16 + 1)) ∧
      (∀ (addresses body fcs : List Byte), frameOf (bits (getR64 s (rFAB_MAC port)) 0 48) (Config.ownMac port).toNat (getF s rFAB_ETH 0 16) (addresses ++ body ++ fcs) = .bad → x.lossy = false →
        ∃ s', exec (.ethFrameReceive port addresses body fcs) s = .next s' ∧ Frame [rFAB_CNT port + 4] s s' ∧ (portOf s' port).lossy = true ∧
          getF s' (rFAB_CNT port + 4) 0 16 = min 65535 (getF s (rFAB_CNT port + 4) 0 16 + 1)) ∧
      (∀ (addresses body fcs : List Byte), frameOf (bits (getR64 s (rFAB_MAC port)) 0 48) (Config.ownMac port).toNat (getF s rFAB_ETH 0 16) (addresses ++ body ++ fcs) = .other →
        exec (.ethFrameReceive port addresses body fcs) s = .next s) ∧
      (∀ (addresses body fcs f : List Byte), frameOf (bits (getR64 s (rFAB_MAC port)) 0 48) (Config.ownMac port).toNat (getF s rFAB_ETH 0 16) (addresses ++ body ++ fcs) = .flits [f] →
        ∃ s', exec (.ethFrameReceive port addresses body fcs) s = .next s' ∧ exec (.flitReceive port f) s = .next s') ∧
      (x.replay ≠ [] → x.since + 1000 * getF s (rFAB_CTL port) 8 8 ≤ tbNow s → x.rtos + 1 < retryMax s port → x.replays < retryMax s port →
        ∃ s', exec (.rtoExpiry port) s = .next s' ∧ Frame [rFAB_CNT port, rFAB_CNT port + 4] s s' ∧ (portOf s' port).rtos = x.rtos + 1 ∧
          (portOf s' port).out.length = x.out.length + x.replay.length ∧
          getF s' (rFAB_CNT port) 0 16 = min 65535 (getF s (rFAB_CNT port) 0 16 + 1) ∧
          getF s' (rFAB_CNT port + 4) 0 16 = min 65535 (getF s (rFAB_CNT port + 4) 0 16 + 1)) ∧
      (tbNow s < x.since + 1000 * getF s (rFAB_CTL port) 8 8 → exec (.rtoExpiry port) s = .next s)) ∧
    (∀ (tag : BitVec 16) (k : CcId) (pos p t0 : Nat), (trkOf s tag.toNat).busy = some (.ccRead k pos, p, t0) → t0 + 1000 * max 1 (getF s rFAB_TMO 0 16) < tbNow s →
      ∃ s', exec (.trackerTimeout tag) s = .next s' ∧ SameMem s s' ∧ trkOf s' tag.toNat = ⟨((trkOf s tag.toNat).gen + 1) % 16, none⟩ ∧
        getF s' (rCC_RWIN k) 8 4 = 7 ∧ getB s' (rCC_IRQ_STAT k) 3 = true ∧ getF s' (rFAB_TRK + 4) 16 16 = min 65535 (getF s (rFAB_TRK + 4) 16 16 + 1)) ∧
    (tbSrc s = 2 → tbPort s = port.val →
      (tbNow s % tbInterval s < 10 → s.time.exch ≠ some (tbNow s / tbInterval s) → portUsed x 4 < 16 → x.replay.length < 1024 →
        ∃ s', exec .timeExchange s = .next s' ∧ SameMem s s' ∧ s'.time.t1 = some (tbNow s, x.nextSeq) ∧ s'.time.exch = some (tbNow s / tbInterval s) ∧
          Sends s s' port 0 ⟨mkHdr 9 (getF s (rFAB_STAT port) 16 16) (ownPkg s) 0 0 0 8, List.replicate 8 0, []⟩) ∧
      (10 ≤ tbNow s % tbInterval s ∨ s.time.exch = some (tbNow s / tbInterval s) → exec .timeExchange s = .next s) ∧
      (∀ (k : RxPkt) (t1 t2 t3 : W64) (q : Nat), x.rx = [k] → k.pkt.hdr.typ = 10 → payWord k.pkt 0 = t1.toNat → payWord k.pkt 1 = t2.toNat → payWord k.pkt 2 = t3.toNat →
        s.time.t1 = some (t1.toNat, q) →
        (s.time.t1Late = true ∨ k.marks ≠ 0 →
          ∃ s', exec (.timeRsp port t1 t2 t3 (decide (k.marks ≠ 0))) s = .next s' ∧ Frame [rFAB_TIME + 4] s s' ∧ s'.time = { s.time with t1 := none } ∧
            getF s' (rFAB_TIME + 4) 0 16 = min 65535 (getF s (rFAB_TIME + 4) 0 16 + 1)) ∧
        (s.time.t1Late = false → k.marks = 0 →
          ∃ s', exec (.timeRsp port t1 t2 t3 false) s = .next s' ∧ Frame [rFAB_TIME, rTB_CTL + 4] s s' ∧ s'.time.t1 = none ∧
            getR s' rFAB_TIME = BitVec.ofNat 32 (unsigned 32 (((k.tb : Int) - t1.toNat) - ((t3.toNat : Int) - t2.toNat))) ∧
            getF s' (rTB_CTL + 4) 16 16 = unsigned 16 (errNs (2 ^ 32 * (((t1.toNat : Int) - t2.toNat) + ((k.tb : Int) - t3.toNat)) / 2))))) ∧
    (∀ (k : RxPkt) (t1 : W64), x.rx = [k] → k.pkt.hdr.typ = 9 → payWord k.pkt 0 = t1.toNat → ∃ s', exec (.timeReq port t1) s = .next s' ∧ SameMem s s' ∧
      portOf s' port = portOf (txPush (rxTake s port k) port 0 ⟨mkHdr 10 (getF s (rFAB_STAT port) 16 16) (ownPkg s) 0 0 0 24,
        leBytes 8 t1.toNat ++ leBytes 8 k.tb ++ leBytes 8 0, []⟩) port)

/-- O50. At its target a WRITE of a store stores its bytes, applies its signal and is acknowledged, and a READ returns the bytes (R25, R335); READ_DATA takes its place in
the transfer that waits for it, an ACK completes a write, an ERROR ends a control core's load with its status, and a response of another generation only counts in LATE
(R336). A message joins those on their way to its end, a credit returns to its channel, and a signal joins those of its core (R335). A WRITE with a signal behind an earlier
WRITE of its source that has arrived waits for it (R337). Stated for the one packet that has landed from its port. -/
def Obligations.PacketsActAtTheirTarget : Prop :=
  ∀ (port : PortId) (k : RxPkt) (h : PktHdr) (s s0 : State), portUp s port = true → (portOf s port).landed = [k] → h = k.pkt.hdr → h.dstPkg = ownPkg s →
    s0 = setPort s port { portOf s port with landed := [] } →
    (inTurn s port k = true →
      (∀ c, h.typ = 1 → placeOf h.addr k.pkt.payload.length = .store c → corePresent s c = true → storeWaits s c = false →
        (h.sig = false → ∃ s', exec (.write port k.pkt) s = .next s' ∧ s'.signals = s.signals ∧
          (∀ i, i < k.pkt.payload.length → rdByte s' (h.addr + i) = k.pkt.payload.getD i 0) ∧
          (∀ a, (a < h.addr ∨ h.addr + k.pkt.payload.length ≤ a) → rdByte s' a = rdByte s a) ∧
          Responds s0 s' ⟨mkHdr 4 h.srcPkg (ownPkg s) h.tag h.tgen 0 0, [], []⟩) ∧
        (h.sig = true → corePresent s h.score = true → ∃ s', exec (.write port k.pkt) s = .next s' ∧
          ∃ g, s'.signals = s.signals ++ [g] ∧ g.core = h.score ∧ g.ctr = h.sctr ∧ g.count = h.scount ∧ g.gen = h.sgen ∧ g.own = false)) ∧
      (∀ c, h.typ = 2 → placeOf h.addr h.len = .store c → corePresent s c = true → storeWaits s c = false →
        ∃ s', exec (.read port k.pkt) s = .next s' ∧ SameMem s s' ∧
          Responds s0 s' ⟨mkHdr 3 h.srcPkg (ownPkg s) h.tag h.tgen h.addr h.len, rdBytes s h.addr h.len, []⟩) ∧
      (((trkOf s h.tag).busy = none ∨ (trkOf s h.tag).gen ≠ h.tgen) → ∀ i ∈ ([(3, .readData port k.pkt), (4, .ack port k.pkt), (5, .error port k.pkt)] : List (Nat × Instr)), h.typ = i.1 →
        ∃ s', exec i.2 s = .next s' ∧ Frame [rFAB_TRK + 4] s s' ∧ getF s' (rFAB_TRK + 4) 0 16 = min 65535 (getF s (rFAB_TRK + 4) 0 16 + 1)) ∧
      (∀ w p t0, (trkOf s h.tag).busy = some (w, p, t0) → (trkOf s h.tag).gen = h.tgen →
        (∀ c d id pos x, h.typ = 3 → w = .descRead c d id pos → (descOf s c d).active = some x → x.id = id → x.stopAt = none → x.early = [] → k.pkt.payload ≠ [] →
          ∃ s' y, exec (.readData port k.pkt) s = .next s' ∧ SameMem s s' ∧ (descOf s' c d).active = some y ∧ (trkOf s' h.tag).busy = none ∧
            (pos = x.sent + x.arrived.length → y.arrived = x.arrived ++ k.pkt.payload ∧ y.early = []) ∧
            (pos ≠ x.sent + x.arrived.length → y.arrived = x.arrived ∧ y.early = [(pos, 64 ||| k.marks, k.pkt.payload)])) ∧
        (∀ c d id len x, h.typ = 4 → w = .descWrite c d id len false → (descOf s c d).active = some x → x.id = id →
          ∃ s', exec (.ack port k.pkt) s = .next s' ∧ SameMem s s' ∧ (descOf s' c d).active = some { x with done := x.done + len } ∧
            (trkOf s' h.tag).busy = none) ∧
        (∀ c pos, h.typ = 5 → w = .ccRead c pos → h.status < 16 →
          ∃ s', exec (.error port k.pkt) s = .next s' ∧ SameMem s s' ∧ getF s' (rCC_RWIN c) 8 4 = h.status ∧ getB s' (rCC_IRQ_STAT c) 3 = true ∧
            (trkOf s' h.tag).busy = none)) ∧
      (h.typ = 6 → corePresent s h.score = true → hdrReq ((wordsOf k.pkt.payload).headD 0) = true →
        ∃ s', exec (.msg port k.pkt) s = .next s' ∧ Frame [] s s' ∧
          s'.flights = s.flights ++ [⟨h.score, h.addr % 16, h.srcPkg, wordsOf k.pkt.payload, 0, some (port.val, h), 0⟩]) ∧
      (∀ o, h.typ = 7 → o = h.addr % 64 → (coreOf s h.score).live.contains (o, h.tag, h.tgen) = true → strayedOf s h.score o = 0 →
        reclaimOf s h.score o = 0 → 0 < credOutOf s h.score o → getF s (rOCH_CRED h.score o) 0 6 < 63 →
        ∃ s', exec (.credit port k.pkt) s = .next s' ∧ SameMem s s' ∧ getF s' (rOCH_CRED h.score o) 0 6 = getF s (rOCH_CRED h.score o) 0 6 + 1 ∧
          credOutOf s' h.score o = credOutOf s h.score o - 1) ∧
      (h.typ = 8 → corePresent s h.score = true →
        ∃ s', exec (.fabricSignal port k.pkt) s = .next s' ∧ SameMem s s' ∧ Responds s0 s' ⟨mkHdr 4 h.srcPkg (ownPkg s) h.tag h.tgen 0 0, [], []⟩ ∧
          ∃ g, s'.signals = s.signals ++ [g] ∧ g.core = h.score ∧ g.ctr = h.sctr ∧ g.count = h.scount ∧ g.gen = h.sgen ∧ g.own = false)) ∧
    (∀ q ∈ (portOf s port).rx, h.typ = 1 → h.sig = true → q.pkt.hdr.typ = 1 → q.pkt.hdr.srcPkg = h.srcPkg → q.pkt.hdr.dstPkg = ownPkg s → q.n < k.n →
      exec (.write port k.pkt) s = .next s)

-- the mirror pair (15) ----------------------------------------------------------------------------------------------------------------------------------

/-- O51. A secondary takes a delta into its log when the slot is open and the log has room, and its bytes stand in firn there; it begins an application at a COMMIT, and
applies it whole: the bytes of the deltas of its regions that came before it stand in firn, later ones stay logged, DONE takes its number and COMMIT_ACK leaves (R351, R353,
R339). A primary's commit that is acknowledged is done; one that lags sets LAGGING (R354). A MIR_CTL write waits while a commit is being applied; MODE 0 ends the pair's
activity, and ACTIVE is set where the partner's check agrees, for the regions that pass on both sides with one SIZE (R349, R350). The layout of a log record and of the
partner's statement are the model's (entries 110 and 111). -/
def Obligations.MirrorCommitsApplyWhole : Prop :=
  ∀ (s : State),
    (∀ k : RxPkt, portUp s 0 = true → rxHead s 0 3 = some k → (portOf s 0).rx = [k] → mirMode s = 2 → mirActive s = true →
      (∀ d n a, k.pkt.hdr.typ = 12 → d = ⟨k.pkt.hdr.regions % 16, k.pkt.hdr.addr, k.pkt.payload, k.pkt.mask, s.mirror.logNo⟩ → n = deltaSize d →
        a = s.mirror.logAt.1 + s.mirror.logPos →
        (fabSlotOpen s 0 (wheelOf s 0) = true → logUsed s + n ≤ s.mirror.logAt.2 → s.mirror.logPos + n ≤ s.mirror.logAt.2 → firnOpenFor s whoFabric a n = true →
          a % 256 + n ≤ 256 → a + n ≤ 2 ^ 38 → s.firnEnt = [] → s.beatErr = [] →
          ∃ s', exec (.delta k.pkt) s = .next s' ∧ (portOf s' 0).rx = [] ∧
            s'.mirror = { s.mirror with log := s.mirror.log ++ [d], logNo := s.mirror.logNo + 1, logPos := (s.mirror.logPos + n) % s.mirror.logAt.2 } ∧
            rdBytes s' (memKey s a) (pktBytes k.pkt).length = pktBytes k.pkt ∧
            ∀ b, (b < memKey s a ∨ memKey s a + (pktBytes k.pkt).length ≤ b) → rdByte s' b = rdByte s b) ∧
        (fabSlotOpen s 0 (wheelOf s 0) = false ∨ s.mirror.logAt.2 < logUsed s + n → exec (.delta k.pkt) s = .next s)) ∧
      (k.pkt.hdr.typ = 13 → ∃ s', exec (.commit k.pkt) s = .next s' ∧ Frame [rMIR_STAT] s s' ∧ getB s' rMIR_STAT 0 = true ∧
        s'.mirror = { s.mirror with commits := s.mirror.commits ++ [(k.pkt.hdr.seq, k.pkt.hdr.regions, s.mirror.logNo)] })) ∧
    (∀ n rs upto, s.mirror.commits = [(n, rs, upto)] → s.mirror.pendWr = none → mirMode s = 2 → s.firnEnt = [] → s.beatErr = [] →
      (s.mirror.log = [] → ∃ s', exec .commitApply s = .next s' ∧ SameMem s s' ∧ s'.mirror.commits = [] ∧ getB s' rMIR_STAT 0 = false ∧
        getR s' (rMIR_SEQ + 4) = BitVec.ofNat 32 n ∧ Sends s s' 0 0 ⟨{ mkHdr 14 (getF s (rFAB_STAT 0) 16 16) (ownPkg s) 0 0 0 0 with seq := n }, [], []⟩) ∧
      (∀ d r a, s.mirror.log = [d] → s.mirror.layout.find? (fun r => r.1 == d.region) = some r → a = mirBase r.2 + d.off → bits rs d.region 1 = 1 →
        d.mask = List.replicate d.data.length true → a % 256 + d.data.length ≤ 256 → a + d.data.length ≤ 2 ^ 38 →
        (d.no < upto → ∃ s', exec .commitApply s = .next s' ∧ s'.mirror.commits = [] ∧ s'.mirror.log = [] ∧ getR s' (rMIR_SEQ + 4) = BitVec.ofNat 32 n ∧
          rdBytes s' (memKey s a) d.data.length = d.data ∧
          ∀ b, (b < memKey s a ∨ memKey s a + d.data.length ≤ b) → rdByte s' b = rdByte s b) ∧
        (upto ≤ d.no → ∃ s', exec .commitApply s = .next s' ∧ SameMem s s' ∧ s'.mirror.commits = [] ∧ s'.mirror.log = [d] ∧
          getR s' (rMIR_SEQ + 4) = BitVec.ofNat 32 n))) ∧
    (∀ k : RxPkt, portUp s 0 = true → rxHead s 0 3 = some k → k.pkt.hdr.typ = 14 → (s.mirror.unacked.any fun u => u.1 == k.pkt.hdr.seq) = true →
      ∃ s', exec (.commitAck k.pkt) s = .next s' ∧ SameMem s s' ∧ s'.mirror = { s.mirror with unacked := s.mirror.unacked.filter fun u => u.1 != k.pkt.hdr.seq } ∧
        getR s' (rMIR_SEQ + 4) = BitVec.ofNat 32 k.pkt.hdr.seq) ∧
    (∀ n t r, s.mirror.unacked = (n, t) :: r → (t + 1000 * getF s rMIR_CTL 16 16 < tbNow s ∨ getF s rMIR_CTL 8 8 ≤ mirBehind s) →
      ∃ s', exec .mirrorLag s = .next s' ∧ SameMem s s' ∧ getB s' rMIR_STAT 2 = true ∧ s'.mirror = s.mirror) ∧
    (∀ (src : Src) (low high : BitVec 16) (v : W32), v = high ++ low → Served s src rMIR_CTL →
      (getB s rMIR_STAT 0 = true → ∃ s', exec (.mirCtlWrite src low high) s = .next s' ∧ Frame [] s s' ∧ s'.mirror = { s.mirror with pendWr := some v }) ∧
      (getB s rMIR_STAT 0 = false → bits v.toNat 0 2 = 0 →
        ∃ s', exec (.mirCtlWrite src low high) s = .next s' ∧ Frame [rMIR_CTL] s s' ∧ mirMode s' = 0 ∧ mirActive s' = false ∧
          getF s' rMIR_CTL 8 24 = bits v.toNat 8 24 ∧ s'.mirror = { s.mirror with active := 0, layout := [] }) ∧
      (∀ y, getB s rMIR_STAT 0 = false → bits v.toNat 0 2 = 1 → portUp s 0 = true → mirActive s = false → s.mirror.partner = some y → y.mode = 2 → y.logOk = true →
        ∃ s', exec (.mirCtlWrite src low high) s = .next s' ∧ Frame [rMIR_CTL, rMIR_STAT] s s' ∧ mirMode s' = 1 ∧ mirActive s' = true ∧
          ∀ r, r < 16 → (bits s'.mirror.active r 1 = 1 ↔
            (mirEn (mirReg s r) = true ∧ mirPasses s' r = true ∧ bits y.pass r 1 = 1 ∧ y.sizes.getD r 0 = mirSize (mirReg s r) / 2 ^ 21))))

-- host commands (16, 12) ---------------------------------------------------------------------------------------------------------------------------------

/-- O52. A block that Table 16-4 does not allow completes with BAD_CMD and does nothing else (R366, R367). NOP only completes; REGW leaves what a register write of the ring
leaves; SIGNAL sends its signal; POWER completes with RESULT in INFO; CLOSE ends the session; MOVE joins its mover's queue and takes a token; LOAD hands its module to the
loader, and one whose image is malformed ends with code 1 (R266, R276, R370 to R376). -/
def Obligations.HostCommandsComplete : Prop :=
  ∀ (c : HostCmd) (s : State),
    (∀ p ∈ ([(.move, 1), (.regw, 3), (.signalCommand, 4), (.power, 5), (.closeCommand, 6), (.hostNop, 7)] : List (Instr × Nat)),
      NextCommand s c p.2 → badCmd c = true →
      ∃ s', exec p.1 s = .next s' ∧ Frame [rCTAIL] s s' ∧ s'.host.accepted = s.host.accepted.drop 1 ∧ Records s s' c 1 0) ∧
    (badCmd c = false →
      (NextCommand s c 0 → ∃ s', exec .hostNop s = .next s' ∧ Frame [rCTAIL] s s' ∧ s'.host.accepted = s.host.accepted.drop 1 ∧ Records s s' c 0 0) ∧
      (∀ off wide, NextCommand s c 3 → off = cmdF c 1 0 26 → wide = (cmdF c 1 32 1 == 1) → inSessBlock off = false → off % (if wide then 8 else 4) = 0 →
        ∃ s' t, exec .regw s = .next s' ∧ exec (.registerWrite .ring (BitVec.ofNat 26 off) wide (BitVec.ofNat 64 (cmdWord c 2))) (dropFirst s) = .next t ∧
          SameMem t s' ∧ SameRegsBut [rCTAIL] t s') ∧
      (NextCommand s c 4 → barsDone s c = true → corePresent s (cmdF c 4 8 8) = true →
        ∃ s', exec .signalCommand s = .next s' ∧ Frame [rCTAIL, ledgerBase qCTR, ledgerBase qCTR + 4] s s' ∧ s'.host.accepted = s.host.accepted.drop 1 ∧ Records s s' c 0 0 ∧
          ∃ g, s'.signals = s.signals ++ [g] ∧ g.core = cmdF c 4 8 8 ∧ g.ctr = cmdF c 4 0 6 ∧ g.count = cmdF c 4 32 16 ∧ g.gen = cmdF c 4 16 4 ∧ g.own = true) ∧
      (NextCommand s c 5 → awake s = true → s.pwr.held = [] → sessOpen s = true → pwrState s = 0 → cmdF c 1 0 3 = 1 →
        ∃ s', exec .power s = .next s' ∧ SameMem s s' ∧ pwrState s' = 1 ∧ s'.host.accepted = s.host.accepted.drop 1 ∧ Records s s' c 0 0) ∧
      (NextCommand s c 6 → sessOpen s = true → sessDebug s = false →
        ∃ s', exec .closeCommand s = .next s' ∧ Frame [rCTAIL, rSESS_STATE, rHRING_SIZE] s s' ∧ sessState s' = 0 ∧ getB s' rHRING_SIZE 8 = false ∧
          s'.host.accepted = s.host.accepted.drop 1 ∧ Records s s' c 0 0) ∧
      (∀ k, NextCommand s c 1 → (moverQ s (cmdMv c)).length < 9 → placeOf (mvAddr c) (mvLen c) = .store k → corePresent s k = true → mvSig c = false →
        ∃ s', exec .move s = .next s' ∧ Frame [ledgerBase qHMV, ledgerBase qHMV + 4] s s' ∧ s'.host.accepted = s.host.accepted.drop 1 ∧
          moverQ s' (cmdMv c) = moverQ s (cmdMv c) ++ [c] ∧ getR64 s' (ledgerBase qHMV) = (getR64 s (ledgerBase qHMV) + 1) % 2 ^ 64) ∧
      (∀ (img : List Byte) (recs : TurmiRecs) (map : Option (List Nat)) (s1 : State) (code : Nat) (fs : List (Nat × Nat)) (ws : List (Nat × Nat × Nat)),
        NextCommand s c 2 → s.host.loader = none → bruta s = true → ccRuns s 0 = true → (ccOf s 0).todo = [] → startsWait s = false →
        (cmdWord c 5 == 0) = map.isNone →
        (cmdF c 2 0 1 = 0 → loadModule s img recs map ⟨cmdF c 3 0 32, cmdF c 2 16 12, cmdF c 2 48 16⟩ = (s1, code, fs, ws) →
          ∃ s', exec (.load (.content img recs map)) s = .next s' ∧ SameMem s1 s' ∧ SameRegsBut [rCC_IRQ_STAT 0] s1 s' ∧ s'.host.loader = some ⟨c, 0, code, fs, ws⟩ ∧
            (code ≠ 0 → Frame [rCC_IRQ_STAT 0] s s') ∧ (imageOk (img.take (cmdF c 3 0 32)) (cmdF c 3 0 32) = false → code = 1)) ∧
        (cmdF c 2 0 1 = 1 → cmdWord c 1 + cmdF c 3 0 32 ≤ 2 ^ 38 → cmdWord c 1 % 256 + cmdF c 3 0 32 ≤ 256 → firnOpen s (cmdWord c 1) (cmdF c 3 0 32) = true →
          s.firnEnt = [] → s.beatErr = [] → imageOk (rdBytes s (memKey s (cmdWord c 1)) (cmdF c 3 0 32)) (cmdF c 3 0 32) = false →
          ∃ s', exec (.load (.content img recs map)) s = .next s' ∧ SameMem s s' ∧ s'.host.loader = some ⟨c, 0, 1, [], []⟩) ∧
        (cmdF c 2 0 1 = 1 → 2 ^ 38 < cmdWord c 1 + cmdF c 3 0 32 →
          ∃ s', exec (.load (.content img recs map)) s = .next s' ∧ Frame [rCC_IRQ_STAT 0] s s' ∧ s'.host.loader = some ⟨c, 2, 0, [], []⟩)))

/-- O53. EN begins a ring at index 0 with phase 1 (R365); a poll fetches the valid entries in order, and one that cannot read the head ends fetching (R368, R369). A mover
moves the bytes of its MOVE between host memory and a store and completes it with their number (R373, R374); a load that is done starts its floes, once the blocks of its overlays are valid (R276, R277). The firn
window reads and writes the bytes of firn in a session, and without one reads zero and counts; an access in SLEEP begins a wake and completes after it
(R313, R361, R362). -/
def Obligations.RingMoversAndWindow : Prop :=
  ∀ (s : State),
    (∀ src, Served s src rHRING_SIZE → getB s rHRING_SIZE 8 = false → 6 ≤ getF s rHRING_SIZE 0 5 → getF s rHRING_SIZE 0 5 ≤ 16 →
      ∃ s', exec (.hringEnable src) s = .next s' ∧ Frame [rHRING_SIZE, rHRING_STAT, rCTAIL] s s' ∧ getB s' rHRING_SIZE 8 = true ∧
        getF s' rHRING_SIZE 0 5 = getF s rHRING_SIZE 0 5 ∧ getF s' rHRING_STAT 0 16 = 0 ∧ getB s' rHRING_STAT 16 = true ∧ getR s' rCTAIL = 0) ∧
    (∀ src, Served s src rHRING_SIZE → getB s rHRING_SIZE 8 = true →
      ∃ s', exec (.hringDisable src) s = .next s' ∧ Frame [rHRING_SIZE] s s' ∧ getB s' rHRING_SIZE 8 = false ∧ getF s' rHRING_SIZE 0 5 = getF s rHRING_SIZE 0 5) ∧
    (mayFetch s = true →
      (∀ es, ∃ s', exec (.hringPoll none es) s = .next s' ∧ SameMem s s' ∧ getB s' rHRING_SIZE 8 = false ∧ getB s' rHRING_STAT 17 = true ∧
        bits (getR64 s' rHOST_IRQ_STAT) 1 1 = 1 ∧ s'.host.accepted = s.host.accepted) ∧
      (∀ (head : W32) (ws : List W64), ringLog s ≤ 16 → inFlight s < 2 ^ ringLog s → head.toNat = (getR s rCTAIL).toNat →
        getF s rHRING_STAT 0 16 + 1 < 2 ^ ringLog s → bits (ws.getD 0 0).toNat 8 1 = getF s rHRING_STAT 16 1 →
        ∃ s', exec (.hringPoll (some head) (some [ws])) s = .next s' ∧ Frame [rHRING_STAT] s s' ∧
          s'.host.accepted = s.host.accepted ++ [⟨getF s rHRING_STAT 0 16, ws, s.host.barCnt⟩] ∧ getF s' rHRING_STAT 0 16 = getF s rHRING_STAT 0 16 + 1 ∧
          getF s' rHRING_STAT 16 1 = getF s rHRING_STAT 16 1)) ∧
    (∀ (m : MoverId) (c : HostCmd) (q : List HostCmd) (k : Nat), moverQ s m = c :: q → busMaster s = true → startsWait s = false → s.host.recs = [] → cmdF c 0 9 1 = 0 →
      placeOf (mvAddr c) (mvLen c) = .store k → corePresent s k = true → storeWaits s k = false → mvSig c = false → 0 < mvLen c →
      (mvToHost c = true → ∀ data, ∃ s', exec (.moverComplete m data) s = .next s' ∧ SameMem s s' ∧ moverQ s' m = q ∧ Records s s' c 0 (mvLen c) ∧
        ∃ r, s'.host.out = s.host.out ++ [.data (cmdWord c 1) (rdBytes s (mvAddr c) (mvLen c)), r]) ∧
      (mvToHost c = false → ∀ data : List Byte, mvLen c ≤ data.length → ∃ s', exec (.moverComplete m (some data)) s = .next s' ∧ moverQ s' m = q ∧
        Records s s' c 0 (mvLen c) ∧ rdBytes s' (mvAddr c) (mvLen c) = data.take (mvLen c) ∧
        ∀ a, (a < mvAddr c ∨ mvAddr c + mvLen c ≤ a) → rdByte s' a = rdByte s a)) ∧
    (∀ (l : LoadSt) (cl f : Nat) (x : Nat × Nat), s.host.loader = some l → l.floes = [(cl, f)] → startsWait s = false → (l.wants.all fun w => overlaid s w.1 w.2.1 w.2.2) = true →
      (clusterOf s cl).gated = false → busMaster s = true → s.host.recs = [] → cmdF l.cmd 0 9 1 = 0 → getB s (rFLOE_DEF cl f) 16 = true → floeMembers s cl f = [x] → slotState s x.1 x.2 = 0 →
      ∃ s', exec .loadComplete s = .next s' ∧ SameMem s s' ∧ s'.host.loader = none ∧ slotState s' x.1 x.2 = 1 ∧
        Records s s' l.cmd (if l.status ≠ 0 then l.status else if l.code ≠ 0 then 7 else 0) l.code) ∧
    (∀ l : LoadSt, s.host.loader = some l → (l.wants.all fun w => overlaid s w.1 w.2.1 w.2.2) = false → exec .loadComplete s = .next s) ∧
    (∀ (off : BitVec 36) (n a : Nat), a = winAddr s off.toNat → hostDead s = false → s.host.bar = [] → 0 < n →
      (sessOpen s = false → ∃ s', exec (.firnbarRead off n) s = .next s' ∧ Frame [rHOST_STAT] s s' ∧ s'.host.out = s.host.out ++ [.readRsp (List.replicate n 0)] ∧
        getF s' rHOST_STAT 16 16 = min 65535 (getF s rHOST_STAT 16 16 + 1)) ∧
      (sessOpen s = true → pwrState s ≠ 2 → winOpen s a n = true → a % 256 + n ≤ 256 → a + n ≤ 2 ^ 38 → s.firnEnt = [] → s.beatErr = [] →
        (∃ s', exec (.firnbarRead off n) s = .next s' ∧ SameMem s s' ∧ s'.host.out = s.host.out ++ [.readRsp (rdBytes s (memKey s a) n)]) ∧
        (∀ data : List Byte, data.length = n → mirForeign s a n = false → mirMode s ≠ 1 →
          ∃ s', exec (.firnbarWrite off data) s = .next s' ∧ rdBytes s' (memKey s a) n = data ∧
            ∀ b, (b < memKey s a ∨ memKey s a + n ≤ b) → rdByte s' b = rdByte s b)) ∧
      (sessOpen s = true → pwrState s = 2 → s.pwr.entry = none → s.pwr.waking = false → s.pwr.off = false → s.pwr.vaux = true →
        ∃ s', exec (.firnbarRead off n) s = .next s' ∧ SameMem s s' ∧ s'.pwr.waking = true ∧ s'.host.bar = [⟨a, n, none⟩] ∧ s'.host.out = s.host.out))

-- control cores and serving (17) ----------------------------------------------------------------------------------------------------------------------------

/-- O54. RUN starts a control core and RESET holds it with its state lost (R391). CC_SIG sends a signal unless its COUNT is 0 (R388); CC_HOSTIRQ sets host causes 16 to 63
(R390); the timer and external interrupts are pending as R384 and R390 state. A remote access takes a tracker entry and leaves on its port, two where it crosses a
4,096-byte boundary, and waits while the tracker is full (R334, R336, R389); a store access moves the
bytes of a store (R387); an owner program's exception is shown in PROG_STAT (R399). -/
def Obligations.ControlCoresAct : Prop :=
  ∀ (cc : CcId) (s : State),
    (∀ src, Served s src (rCC_CTL cc) →
      (∃ s', exec (.ccRun src cc) s = .next s' ∧ Frame [rCC_CTL cc] s s' ∧ getB s' (rCC_CTL cc) 0 = true) ∧
      (∃ s', exec (.ccReset src cc) s = .next s' ∧ Frame [rCC_CTL cc] s s' ∧ getB s' (rCC_CTL cc) 0 = false ∧ ccOf s' cc = {})) ∧
    (∀ v : W64, Served s (.cc cc) (rCC_SIG cc) → (ccOf s cc).todo = [] →
      (bits v.toNat 20 16 = 0 → ∃ s', exec (.ccSig cc v) s = .next s' ∧ Frame [] s s' ∧ s'.signals = s.signals) ∧
      (bits v.toNat 20 16 ≠ 0 → bits v.toNat 52 1 = 0 → corePresent s (bits v.toNat 8 8) = true →
        ∃ s', exec (.ccSig cc v) s = .next s' ∧ Frame [ledgerBase qCTR, ledgerBase qCTR + 4] s s' ∧
          ∃ g, s'.signals = s.signals ++ [g] ∧ g.core = bits v.toNat 8 8 ∧ g.ctr = bits v.toNat 0 6 ∧ g.count = bits v.toNat 20 16 ∧ g.gen = bits v.toNat 16 4 ∧
            g.src = cc.val ∧ g.own = true)) ∧
    (∀ v : W64, Served s (.cc cc) (rCC_HOSTIRQ (cc.val / 4)) →
      ∃ s', exec (.ccHostirq cc v) s = .next s' ∧ Frame [rHOST_IRQ_STAT, rHOST_IRQ_STAT + 4] s s' ∧
        ∀ b, b < 64 → bits (getR64 s' rHOST_IRQ_STAT) b 1 = (if 16 ≤ b ∧ bits v.toNat b 1 = 1 then 1 else bits (getR64 s rHOST_IRQ_STAT) b 1)) ∧
    (ccRuns s cc = true →
      (∃ s', exec (.ccTimerInterrupt cc) s = .next s' ∧ Frame [] s s' ∧ ccOf s' cc = { ccOf s cc with mtip := decide (getR64 s (rCC_TIMECMP cc) ≤ tbNow s) }) ∧
      (∃ s', exec (.ccExternalInterrupt cc) s = .next s' ∧ Frame [] s s' ∧
        ccOf s' cc = { ccOf s cc with meip := decide (getR s (rCC_IRQ_STAT cc) &&& getR s (rCC_IRQ_EN cc) ≠ 0) }) ∧
      (∀ (off : BitVec 40) (p cls t a : Nat), (ccOf s cc).todo = [] → t = trkFree s → a = rwinAddr s cc off.toNat → avoided s (rwinPkg s cc) = false →
        route s (rwinPkg s cc) none 0 = .port p cls →
        (∀ data : List Byte, data ≠ [] → a % 4096 + data.length ≤ 4096 →
          (trkRoom s = true → ∃ s', exec (.ccRemoteStore cc off data) s = .next s' ∧ SameMem s s' ∧ (ccOf s' cc).tags = (ccOf s cc).tags ++ [t] ∧
            (trkOf s' t).busy = some (.ccWrite cc.val, p, tbNow s) ∧
            Sends s s' p cls ⟨mkHdr 1 (rwinPkg s cc) (ownPkg s) t (trkOf s t).gen a data.length, data, []⟩) ∧
          (trkRoom s = false → ∃ s', exec (.ccRemoteStore cc off data) s = .next s' ∧ Frame [] s s' ∧ s'.tracker = s.tracker ∧
            ccOf s' cc = { ccOf s cc with todo := [.access (some (rwinPkg s cc)) a data.length (some data)] })) ∧
        (∀ n, 0 < n → a % 4096 + n ≤ 4096 → trkRoom s = true → (ccOf s cc).loads = [] →
          ∃ s', exec (.ccRemoteLoad cc off n) s = .next s' ∧ SameMem s s' ∧ (ccOf s' cc).loads = [t] ∧
            (trkOf s' t).busy = some (.ccRead cc.val 0, p, tbNow s) ∧
            Sends s s' p cls ⟨mkHdr 2 (rwinPkg s cc) (ownPkg s) t (trkOf s t).gen a n, [], []⟩) ∧
        (∀ data : List Byte, 4096 < a % 4096 + data.length → data.length ≤ 4096 → trkInUse s + 2 ≤ 65536 →
          ∃ s', exec (.ccRemoteStore cc off data) s = .next s' ∧ SameMem s s' ∧ (ccOf s' cc).tags.length = (ccOf s cc).tags.length + 2)) ∧
      (∀ (addr : BitVec 48) (c : Nat), (ccOf s cc).todo = [] → (ccOf s cc).loads = [] → sramPlace cc addr.toNat 8 = none → placeOf addr.toNat 8 = .store c → corePresent s c = true → storeWaits s c = false →
        (∃ s', exec (.ccStoreAccess cc addr 8 none) s = .next s' ∧ Frame [] s s' ∧ (ccOf s' cc).data = rdBytes s addr.toNat 8) ∧
        (∀ data : List Byte, data.length = 8 → ∃ s', exec (.ccStoreAccess cc addr 8 (some data)) s = .next s' ∧ SameRegsBut [] s s' ∧
          rdBytes s' addr.toNat 8 = data ∧ ∀ a, (a < addr.toNat ∨ addr.toNat + 8 ≤ a) → rdByte s' a = rdByte s a)) ∧
      (∀ (cause : BitVec 8) (pc : BitVec 56), 4 ≤ cc.val →
        ∃ s', exec (.ownerProgramException cc cause pc) s = .next s' ∧ Frame [rPROG_STAT, rPROG_STAT + 4, rHOST_IRQ_STAT, rHOST_IRQ_STAT + 4] s s' ∧
          getR64 s' rPROG_STAT = cause.toNat + 256 * pc.toNat ∧ bits (getR64 s' rHOST_IRQ_STAT) 17 1 = 1 ∧ s'.cores = s.cores ∧ s'.floes = s.floes ∧ s'.ccs = s.ccs))

/-- O55. A request entry of the expected phase is taken, its word 0 cleared, and admitted while a row and its blocks are free (R394, R395); a step takes each row's token,
counts it, appends its record and goes on (R396, R397). Stated for one entry whose successor is not valid, and for a row of this package whose ring,
in a core's store, has not been lapped. -/
def Obligations.ServingAdmitsAndAdvances : Prop :=
  ∀ (s : State), serving s = true → (ccOf s 0).todo = [] →
    (∀ (base size i key : Nat) (x : Stream), base = bits (getR64 s rSRV_REQ) 0 48 → size = 2 ^ getF s (rSRV_REQ + 4) 16 5 → i = s.serve.idx → i + 1 < size →
      firnOpen s base (64 * size) = true → base % 64 = 0 → base + 64 * size ≤ 2 ^ 38 → s.firnEnt = [] → s.beatErr = [] → mirMode s = 0 →
      key = memKey s (base + 64 * i) → s.serve.queue = [] → x = serveEntry ((wordsOf (rdBytes s key 64)).map fun w => w.toNat) →
      decide (bits (leNat (rdBytes s key 8)) 0 1 = 1) = s.serve.phase →
      decide (bits (leNat (rdBytes s (memKey s (base + 64 * (i + 1))) 8)) 0 1 = 1) ≠ s.serve.phase →
      x.plen + x.maxnew ≤ ctxMax s → kvReserved s + blocksFor (x.plen + x.maxnew) ≤ kvPool s → s.serve.rows.length < getF s rSRV_CFG 16 7 →
      ∃ s', exec .srvRequestPoll s = .next s' ∧ s'.serve.idx = i + 1 ∧ s'.serve.queue = [] ∧ rdBytes s' key 8 = List.replicate 8 0 ∧
        getF s' (rSRV_STAT + 4) 0 16 = s.serve.rows.length + 1 ∧ ∃ y, s'.serve.rows = s.serve.rows ++ [y] ∧ y.reqid = x.reqid ∧ y.plen = x.plen ∧ y.maxnew = x.maxnew) ∧
    (∀ (x : Stream) (tok : BitVec 32) (a c : Nat), s.serve.rows = [x] → x.held = none → x.rpkg = ownPkg s → ringCount s x < 2 ^ x.tlog → x.made + 1 < x.maxnew →
      a = x.taddr + 16 * ringCount s x → placeOf a 16 = .store c → corePresent s c = true → storeWaits s c = false →
      ∃ s', exec (.servingStep [(tok, false)]) s = .next s' ∧ s'.serve.step = s.serve.step + 1 ∧ getR s' rSRV_STAT = getR s rSRV_STAT + 1 ∧
        bits (getR64 s' rHOST_IRQ_STAT) 16 1 = 1 ∧ (∃ y r, s'.serve.rows = y :: r ∧ y.made = x.made + 1 ∧ y.last = tok.toNat ∧ y.reqid = x.reqid) ∧
        (firnOpen s (bits (getR64 s rSRV_REQ) 0 48 + 64 * s.serve.idx) 64 = false →
          rdBytes s' (a + 8) 8 = leBytes 8 tok.toNat ∧ bits (leNat (rdBytes s' a 8)) 0 1 = 1 ∧ bits (leNat (rdBytes s' a 8)) 32 32 = x.reqid % 2 ^ 32))
-- tasks, counters and plain registers (05, 08, 09, 23) -----------------------------------------------------------------------------

/-- O56. START of a task slot takes it to READY at TASK_PC with its registers of loops and length reset (R133, R191); CLEAR takes a HALTED or released slot to EMPTY and,
out of FAULTED, advances the counters it owns (R221). A floe starts, clears and holds as a unit (R191, R205); FLOE_DEF and TSW change only where no slot they concern is in use
(R139, R190). -/
def Obligations.TasksAndFloesStartAndClear : Prop :=
  ∀ (src : Src) (s : State),
    (∀ (c : CoreId) (t : SlotId) (f : Nat), Served s src (rTASK_CTL c t) → floeFor s c t = some f →
      ((floeCores s (c / 8) f).length = 1 → (slotState s c t = 0 ∨ slotState s c t = 4) →
        ∃ s', exec (.taskStart src c t) s = .next s' ∧ SameMem s s' ∧ OtherCores c s s' ∧ OtherSlots c t s s' ∧ slotState s' c t = 1 ∧
          (slotOf s' c t).pc = getF s (rTASK_PC c t) 0 13 ∧ (slotOf s' c t).vl = 1024 ∧ (slotOf s' c t).loops = [] ∧
          (slotOf s' c t).lo = getF s (rTASK_SPWIN c t) 0 9 ∧ (slotOf s' c t).hi = getF s (rTASK_SPWIN c t) 16 9 ∧
          (slotOf s' c t).vmask = (getR s (rTASK_VMASK c t)).toNat ∧ (∀ r, sreg s' c t r = sreg s c t r) ∧ (∀ r, areg s' c t r = areg s c t r) ∧
          getR64 s' (rFLOE_CYC (c / 8) f) = 0 ∧ ∀ n, n ∈ ctrsOf s c t → getF s' (rCTR_BASE c n) 0 16 = ctrValue s c n) ∧
      ((floeCores s (c / 8) f).length ≠ 1 → exec (.taskStart src c t) s = .next s)) ∧
    (∀ (c : CoreId) (t : SlotId), Served s src (rTASK_CTL c t) →
      ((slotState s c t = 4 ∨ (slotState s c t = 5 ∧ (slotOf s c t).unrel = false)) →
        ∃ s', exec (.taskClear src c t) s = .next s' ∧ SameMem s s' ∧ OtherCores c s s' ∧ slotState s' c t = 0 ∧ (slotOf s' c t).fences = [] ∧
          (∀ d, d < 64 → (descOf s' c d).stopped ≠ some t.val) ∧
          (slotState s c t = 5 → ∀ n, n ∈ ctrsOf s c t → ctrGen s' c n = (ctrGen s c n + 1) % 16 ∧ ctrValue s' c n = 0)) ∧
      (slotState s c t ≠ 4 → (slotState s c t = 5 → (slotOf s c t).unrel = true) → exec (.taskClear src c t) s = .next s)) ∧
    (∀ (cl : ClusterId) (f : FloeId), Served s src (rFLOE_CTL cl f) → ∀ ms, ms = floeMembers s cl f →
      (getB s (rFLOE_DEF cl f) 16 = true → ms ≠ [] →
        ((∀ m, m ∈ ms → slotState s m.1 m.2 = 0 ∨ slotState s m.1 m.2 = 4) → (∀ m, m ∈ ms → tsw s m.1 = tsw s (ms.headD (0, 0)).1) →
          ∃ s', exec (.floeStart src cl f) s = .next s' ∧ SameMem s s' ∧ getR64 s' (rFLOE_CYC cl f) = 0 ∧
            ∀ m, m ∈ ms → slotState s' m.1 m.2 = 1 ∧ (slotOf s' m.1 m.2).pc = getF s (rTASK_PC m.1 m.2) 0 13) ∧
        (∀ m, m ∈ ms → tsw s m.1 ≠ tsw s (ms.headD (0, 0)).1 →
          ∃ s', exec (.floeStart src cl f) s = .next s' ∧ SameMem s s' ∧ getB s' (rFLOE_STAT cl f) 4 = true ∧ ∀ k, coreOf s' k = coreOf s k)) ∧
      (getB s (rFLOE_DEF cl f) 16 = true → (∀ m, m ∈ ms → slotState s m.1 m.2 = 4) →
        ∃ s', exec (.floeClear src cl f) s = .next s' ∧ SameMem s s' ∧ ∀ m, m ∈ ms → slotState s' m.1 m.2 = 0) ∧
      (mayDebug s src = true → ∀ on, ∃ s', exec (.floeHold src cl f on) s = .next s' ∧ Frame [rFLOE_CTL cl f] s s' ∧ getB s' (rFLOE_CTL cl f) 2 = on ∧
        ∀ k, coreOf s' k = coreOf s k) ∧
      (mayDebug s src = false → ∀ on, exec (.floeHold src cl f on) s = .next s)) ∧
    (∀ (cl : ClusterId) (f : FloeId) (v : W32), Served s src (rFLOE_DEF cl f) → ∀ new old, new = defSlots cl v.toNat →
      old = defSlots cl (getR s (rFLOE_DEF cl f)).toNat →
      (((∃ m, m ∈ new ++ old ∧ slotState s m.1 m.2 ≠ 0) ∨ (bits v.toNat 16 1 = 1 ∧ ∃ m, m ∈ new ∧ namedElsewhere s cl f m.1 m.2 = true)) →
        ∃ s', exec (.floeDefWrite src cl f v) s = .next s' ∧ Frame [rFLOE_STAT cl f] s s' ∧
          getR s' (rFLOE_STAT cl f) = getR s (rFLOE_STAT cl f) ||| 16 ∧ ∀ k, coreOf s' k = coreOf s k) ∧
      ((∀ m, m ∈ new ++ old → slotState s m.1 m.2 = 0) → (bits v.toNat 16 1 = 1 → ∀ m, m ∈ new → namedElsewhere s cl f m.1 m.2 = false) →
        ∃ s', exec (.floeDefWrite src cl f v) s = .next s' ∧ Frame [rFLOE_DEF cl f] s s' ∧ getR s' (rFLOE_DEF cl f) = v &&& 0x303FF)) ∧
    (∀ (c : CoreId) (v : W32), Served s src (rCORE_CTL c) → ∀ live, live = (List.range 4).any (fun t => slotLive s c t) →
      ∃ s', exec (.coreCtlWrite src c v) s = .next s' ∧ Frame [rCORE_CTL c] s s' ∧ tsw s' c = (if live then tsw s c else bits v.toNat 0 1 == 1) ∧
        getB s' (rCORE_CTL c) 1 = ((live && (bits v.toNat 0 1 == 1) != tsw s c) || (getB s (rCORE_CTL c) 1 && bits v.toNat 1 1 == 0)))

/-- O57. ADVANCE takes a counter to the next generation at 0 unless a slot waits on it or holds a reservation; a value written in a debug session wakes the slot whose wait it
covers (R217, R221, R223). CLOSE closes an OPEN end, and REOPEN opens it again with its messages kept or flushed (R235, R236). -/
def Obligations.CountersAndEndsAreWritten : Prop :=
  ∀ (src : Src) (s : State) (c : CoreId),
    (∀ n : CtrId, Served s src (rCTR_CFG c n) →
      (ctrBusy s c n = false →
        ∃ s', exec (.ctrAdvance src c n) s = .next s' ∧ Frame [rCTR_VAL c n, rCTR_BASE c n, rCTR_STAT c n] s s' ∧
          ctrGen s' c n = (ctrGen s c n + 1) % 16 ∧ ctrValue s' c n = 0 ∧ getF s' (rCTR_BASE c n) 0 16 = 0 ∧ getB s' (rCTR_STAT c n) 1 = false) ∧
      (ctrBusy s c n = true → ∃ s', exec (.ctrAdvance src c n) s = .next s' ∧ Frame [] s s')) ∧
    (∀ (n : CtrId) (v : BitVec 16), Served s src (rCTR_VAL c n) → mayDebug s src = true →
      ((∀ t m k, (slotOf s c t).wait = some (.ctr m k) → m ≠ n.val) →
        ∃ s', exec (.ctrValueWrite src c n v) s = .next s' ∧ Frame [rCTR_VAL c n] s s' ∧ ctrValue s' c n = v.toNat ∧ ctrGen s' c n = ctrGen s c n) ∧
      (∀ t k, t < 4 → (slotOf s c t).wait = some (.ctr n.val k) → slotState s c t = 3 → k ≤ v.toNat - ctrRsv s c n →
        (∀ u m j, u ≠ t → (slotOf s c u).wait = some (.ctr m j) → m ≠ n.val) →
        ∃ s', exec (.ctrValueWrite src c n v) s = .next s' ∧ SameMem s s' ∧ ctrValue s' c n = v.toNat ∧ slotState s' c t = 1 ∧
          (slotOf s' c t).resv = some (n.val, k))) ∧
    (∀ e : EndId, Served s src (rICH_CTL c e) →
      (ichState s c e = 0 → getB s (rICH_REPLY c e) 0 = false →
        ∃ s', exec (.ichClose src c e) s = .next s' ∧ Frame [rICH_STAT c e] s s' ∧ ichState s' c e = 1 ∧ ringOf s' c e = ringOf s c e) ∧
      (ichState s c e ≠ 0 → exec (.ichClose src c e) s = .next s) ∧
      (ichState s c e ≠ 0 → ∃ s', exec (.ichReopenKeep src c e) s = .next s' ∧ SameMem s s' ∧ ichState s' c e = 0 ∧ ringOf s' c e = ringOf s c e) ∧
      (ichState s c e ≠ 0 → (∀ m, m ∈ ringOf s c e → hdrReq (m.words.headD 0) = false) →
        ∃ s', exec (.ichReopenFlush src c e) s = .next s' ∧ SameMem s s' ∧ ichState s' c e = 0 ∧ ringOf s' c e = [] ∧
          getF s' (rICH_CNT c e) 16 16 = min 65535 (getF s (rICH_CNT c e) 16 16 + (ringOf s c e).length)) ∧
      (ichState s c e = 0 → exec (.ichReopenKeep src c e) s = .next s ∧ exec (.ichReopenFlush src c e) s = .next s))

/-- O58. A register takes what is written to it by the codes of its bits: RW bits are replaced, W1C bits are cleared by 1, the others stand (Table 00-4). So the template
words of a descriptor, whose LEN shows 0 then (R237), FIRN_MAP and FIRN_REFRESH (R164, R171), the time base (R295, R297), LEGACY (R290), the package's ID (R435), and the
registers of a slot that does not run in a debug session (R438). -/
def Obligations.RegistersTakeTheirWrites : Prop :=
  ∀ (src : Src) (s : State),
    (∀ (c : CoreId) (t : SlotId) (n : Fin 512) (k : StackId) (off : BitVec 26) (v : W64), Served s src off.toNat →
      off.toNat ∈ [rTASK_PC c t, rTASK_SPWIN c t, rTASK_VMASK c t, rSCL_CFG c n, rFIRN_ERR_STAT k] →
      ∃ s', exec (.registerWrite src off false v) s = .next s' ∧ Frame [off.toNat] s s' ∧ ∀ p x, p = regSpec off.toNat → x = v.setWidth 32 →
        getR s' off.toNat = (getR s off.toNat &&& ~~~p.rw &&& ~~~(p.w1c &&& x)) ||| (x &&& p.rw)) ∧
    (∀ (c : CoreId) (d : DescId) (k : Fin 8) (v : W64), Served s src (rDESC c d + 8 * k.val) → gatedFor s (rDESC c d + 8 * k.val + 4) = none →
      ∃ s', exec (.descTemplateWrite src c d k v) s = .next s' ∧
        Frame [rDESC c d + 8 * k.val, rDESC c d + 8 * k.val + 4, rDESC_STAT c d, rDESC_STAT c d + 4] s s' ∧ getR64 s' (rDESC c d + 8 * k.val) = v.toNat ∧
        bits (getR64 s' (rDESC_STAT c d)) 16 32 = 0 ∧ bits (getR64 s' (rDESC_STAT c d)) 0 16 = bits (getR64 s (rDESC_STAT c d)) 0 16) ∧
    (∀ (k : StackId) (mode : Bool), Served s src (rFIRN_MAP k) →
      ∃ s', exec (.firnMapWrite src k mode) s = .next s' ∧ SameRegsBut [rFIRN_MAP k] s s' ∧ s'.mem = s.mem ∧ getB s' (rFIRN_MAP k) 0 = mode) ∧
    (∀ (k : StackId) (rate : BitVec 2), Served s src (rFIRN_REFRESH k) →
      ∃ s', exec (.firnRefreshWrite src k rate) s = .next s' ∧ SameMem s s' ∧ getF s' (rFIRN_REFRESH k) 0 2 = (if rate = 3 then 0 else rate.toNat) ∧
        ((stackOf s k).open_ = false → Frame [rFIRN_REFRESH k] s s')) ∧
    (∀ v : W64, Served s src rTB_VALUE →
      (stepAllowed s = true → ∃ s', exec (.tbValueWrite src v) s = .next s' ∧ Frame [] s s' ∧ s'.time.tb = v.toNat * 2 ^ 32) ∧
      (stepAllowed s = false → ∃ s', exec (.tbValueWrite src v) s = .next s' ∧ Frame [rTB_CTL + 4] s s' ∧ s'.time = s.time ∧ getB s' (rTB_CTL + 4) 4 = true)) ∧
    (Awake s → srcLive s src = true → ∃ s', exec (.tbLowRead src) s = .next s' ∧ Frame [] s s' ∧ s'.time.tb = s.time.tb ∧ s'.time.latched = true ∧
      s'.time.latch.toNat = tbNow s / 2 ^ 32) ∧
    (∀ (cl : ClusterId) (on : Bool), Served s src (rCLK_XCTL cl) →
      ∀ live, live = (List.range 8).any (fun r => (List.range 4).any fun t => slotLive s (8 * cl.val + r) t) →
      (live = false → ∃ s', exec (.legacyWrite src cl on) s = .next s' ∧ Frame ([rCLK_XCTL cl, rCLK_STAT cl, rDVFS_STATUS, rDVFS_STATUS + 4] ++ (List.range 4).map fun d => rCLK_STAT (32 + d)) s s' ∧
        getB s' (rCLK_XCTL cl) 0 = on ∧
        (getB s (rCLK_XCTL cl) 0 ≠ on → (regionOf s' cl).xlat = 0 ∧ getB s' (rCLK_STAT cl) 7 = false)) ∧
      (live = true → ∃ s', exec (.legacyWrite src cl on) s = .next s' ∧ Frame [rCLK_XCTL cl] s s' ∧
        getB s' (rCLK_XCTL cl) 0 = getB s (rCLK_XCTL cl) 0 ∧ getB s' (rCLK_XCTL cl) 1 = true)) ∧
    (∀ v : W32, Served s src rPKG_ID →
      ((∃ p, p < 16 ∧ portState s p ≠ 0) → ∃ s', exec (.pkgIdWrite src v) s = .next s' ∧ Frame [rPKG_ID] s s' ∧ ownPkg s' = ownPkg s ∧
        getB s' rPKG_ID 16 = true) ∧
      ((∀ p, p < 16 → portState s p = 0) → ∃ s', exec (.pkgIdWrite src v) s = .next s' ∧ Frame [rPKG_ID, rFAB_ROUTE] s s' ∧ ownPkg s' = v.toNat % 65536 ∧
        (fabBadCfg s' = true → getB s' rFAB_ROUTE 24 = true))) ∧
    (∀ (c : CoreId) (t : SlotId) (off : BitVec 16) (v : W64), Served s src (coreBase c + off.toNat) → mayDebug s src = true → slotState s c t ≠ 2 →
      (∀ r, r < 32 → off.toNat = 0x3000 + 0x200 * t.val + 8 * r → gatedFor s (coreBase c + off.toNat + 4) = none →
        ∃ s', exec (.debugRegisterWrite src c off v true) s = .next s' ∧ Frame [] s s' ∧ OtherSlots c t s s' ∧ sreg s' c t r = v ∧
          (∀ q, q ≠ r → sreg s' c t q = sreg s c t q) ∧ ∀ q, areg s' c t q = areg s c t q) ∧
      (∀ r, r < 16 → off.toNat = 0x3100 + 0x200 * t.val + 4 * r →
        ∃ s', exec (.debugRegisterWrite src c off v false) s = .next s' ∧ Frame [] s s' ∧ OtherSlots c t s s' ∧ areg s' c t r = v.setWidth 32 ∧
          (∀ q, q ≠ r → areg s' c t q = areg s c t q) ∧ ∀ q, sreg s' c t q = sreg s c t q)) ∧
    (∀ (c : CoreId) (i : Nat) (off : BitVec 16) (v : W64), i < 256 → off.toNat = 0x2800 + 4 * i → Served s src (coreBase c + off.toNat) →
      mayDebug s src = true → ∀ r, r = getF s (rDBG_VSEL c) 0 5 →
      (runningSlot s c = none → ∃ s', exec (.debugRegisterWrite src c off v false) s = .next s' ∧ Frame [] s s' ∧ OtherVregs [r] c s s' ∧
        bits (vreg s' c r).toNat (32 * i) 32 = v.toNat % 2 ^ 32 ∧ ∀ j, j < 256 → j ≠ i → bits (vreg s' c r).toNat (32 * j) 32 = bits (vreg s c r).toNat (32 * j) 32) ∧
      (runningSlot s c ≠ none → exec (.debugRegisterWrite src c off v false) s = .next s))

-- training registers, the moraine, the checker and trace (11, 19, 20, 21) ---------------------------------------------------------------

/-- O59. ROLL shifts every scale slot's history and CLOSE closes every monitor slot, where no slot of the core is in use (R261, R264). RELEASE frees the die's faulted slots
once the first record is cleared (R417). A snapshot of the checker counts, and sets the bit of each quantity that breaks R420 (R427). Trace enables over a legal buffer only, takes
marks, and writes packets of 16 records where the write pointer stands (R439 to R441). -/
def Obligations.DiagnosticsAct : Prop :=
  ∀ (src : Src) (s : State),
    (∀ c : CoreId,
      (Served s src (rSCL_CTL c) →
        (slotsIdle s c = true → ∃ s', exec (.sclRoll src c) s = .next s' ∧ SameMem s s' ∧
          (∀ off, (off < coreBase c + 0x8000 ∨ coreBase c + 0x10000 ≤ off) → getR s' off = getR s off) ∧
          ∀ n, n < 512 → getR s' (rSCL_CUR c n) = 0 ∧ histGet s' c n 0 = toBf16Up (getR s (rSCL_CUR c n)).toNat ∧
            ∀ i, 1 ≤ i → i < 16 → histGet s' c n i = histGet s c n (i - 1)) ∧
        (slotsIdle s c = false → ∃ s', exec (.sclRoll src c) s = .next s' ∧ Frame [rSCL_CTL c] s s' ∧ getB s' (rSCL_CTL c) 2 = true ∧
          getB s' (rSCL_CTL c) 0 = getB s (rSCL_CTL c) 0)) ∧
      (Served s src (rMON_CTL c) →
        (slotsIdle s c = true → ∃ s', exec (.monClose src c) s = .next s' ∧ SameMem s s' ∧
          (∀ off, (∀ l, l < 256 → off ≠ rMON_STAT c l ∧ off ≠ rMON_RATIO c l) → getR s' off = getR s off) ∧
          ∀ l, l < 256 → getB s' (rMON_STAT c l) 0 = false ∧
            getR s' (rMON_RATIO c l) = (if getB s (rMON_STAT c l) 0 then BitVec.ofNat 32 (monRatio (getR s (rMON_USQ c l)).toNat (getR s (rMON_WSQ c l)).toNat)
              else getR s (rMON_RATIO c l))) ∧
        (slotsIdle s c = false → ∃ s', exec (.monClose src c) s = .next s' ∧ Frame [rMON_CTL c] s s' ∧ getB s' (rMON_CTL c) 1 = true))) ∧
    (∀ d : DieId,
      (Served s src (rMLOG_CTL d) →
        ((getB s (rMLOG_FIRST d) 0 = false ∧ getB s (rMLOG_STAT d) 7 = false) → ∃ s', exec (.mlogRelease src d) s = .next s' ∧ Frame [] s s' ∧
          ∀ k t, k < 64 → t < 4 → slotOf s' (64 * d.val + k) t = { slotOf s (64 * d.val + k) t with unrel := false }) ∧
        ((getB s (rMLOG_FIRST d) 0 = true ∨ getB s (rMLOG_STAT d) 7 = true) →
          ∃ s', exec (.mlogRelease src d) s = .next s' ∧ Frame [rMLOG_STAT d] s s' ∧ getB s' (rMLOG_STAT d) 8 = true ∧ ∀ k, coreOf s' k = coreOf s k)) ∧
      (∀ v : W32, Served s src (rTRC_CTL d) → ∃ s', exec (.trcEnableWrite src d v) s = .next s' ∧ Frame [rTRC_CTL d, rTRC_STAT d + 4] s s' ∧
        getR s' (rTRC_CTL d) &&& 0xFF1F02 = v &&& 0xFF1F02 ∧
        getB s' (rTRC_CTL d) 0 = (if mayDebug s src && (bits v.toNat 0 1 == 0 || trcBufOk s d) then bits v.toNat 0 1 == 1 else getB s (rTRC_CTL d) 0) ∧
        getB s' (rTRC_STAT d + 4) 1 = (getB s (rTRC_STAT d + 4) 1 || (mayDebug s src && bits v.toNat 0 1 == 1 && !trcBufOk s d))) ∧
      (∀ v : W64, Served s src (rTRC_BUF d) →
        (getB s (rTRC_CTL d) 0 = false → ∃ s', exec (.trcBufWrite src d v) s = .next s' ∧ Frame [rTRC_BUF d, rTRC_BUF d + 4] s s' ∧
          getR64 s' (rTRC_BUF d) = v.toNat &&& 0x0FFFFFFFFFE00000) ∧
        (getB s (rTRC_CTL d) 0 = true → ∃ s', exec (.trcBufWrite src d v) s = .next s' ∧ Frame [rTRC_STAT d + 4] s s' ∧
          getB s' (rTRC_STAT d + 4) 1 = true)) ∧
      (∀ v : W32, Served s src (rTRC_MARK d) → getB s (rTRC_CTL d) 0 = true → getB s (rTRC_CTL d) 12 = true →
        (getB s (rTRC_CTL d) 1 = true → getB s (rTRC_STAT d + 4) 0 = false) → (traceOf s d).length < 256 →
        ∃ s', exec (.trcMark src d v) s = .next s' ∧ Frame [] s s' ∧
          traceOf s' d = traceOf s d ++ [[5#64, BitVec.ofNat 64 (tbNow s), v.setWidth 64, 0#64]]) ∧
      (∀ (slot : BitVec 8) (i : Nat), i = (getR s (rTRC_STAT d)).toNat → 16 ≤ (traceOf s d).length → (∀ r, r ∈ traceOf s d → r.length = 4) →
        trcSlotOpen s d slot.toNat = true → regionUp s (32 + d.val) = true → (getB s (rTRC_CTL d) 1 = true → getB s (rTRC_STAT d + 4) 0 = false) →
        (trcBufOk s d = true → firnOpen s (trcBase s d) (trcSize s d * 2 ^ 21) = true → s.firnEnt = [] → mirMode s = 0 → i + 16 < 2 ^ 32 →
          ∃ s', exec (.tracePacketWrite d slot false) s = .next s' ∧ traceOf s' d = (traceOf s d).drop 16 ∧ (getR s' (rTRC_STAT d)).toNat = i + 16 ∧
            SameRegsBut [rTRC_STAT d, rTRC_STAT d + 4, ledgerBase qFIRNREQ, ledgerBase qFIRNREQ + 4, ledgerBase qFIRNREQ + 8, ledgerBase qFIRNREQ + 12,
              ledgerBase qFIRNREQ + 28] s s' ∧
            getB s' (rTRC_STAT d + 4) 0 = (getB s (rTRC_STAT d + 4) 0 || (getB s (rTRC_CTL d) 1 && (i + 16) % trcCap s d == 0)) ∧
            (∀ k b, k < 16 → b < 32 → rdByte s' (memKey s (trcBase s d + 32 * ((i + k) % trcCap s d) + b)) = (wordBytes ((traceOf s d).getD k [])).getD b 0) ∧
            ∀ a, (∀ k b, k < 16 → b < 32 → a ≠ memKey s (trcBase s d + 32 * ((i + k) % trcCap s d) + b)) → rdByte s' a = rdByte s a) ∧
        ∃ s', exec (.tracePacketWrite d slot true) s = .next s' ∧ Frame [rTRC_STAT d + 4] s s' ∧ traceOf s' d = (traceOf s d).drop 16 ∧
          getF s' (rTRC_STAT d + 4) 16 16 = min 65535 (getF s (rTRC_STAT d + 4) 16 16 + 16))) ∧
    (getB s rLEDGER_CHK 0 = true → s.pwr.vaux = true →
      ∃ s', exec .ledgerSnapshot s = .next s' ∧ Frame [rLEDGER_CHK, rLEDGER_CHK + 4, rLEDGER_CHK_TB, rLEDGER_CHK_TB + 4] s s' ∧
        getF s' rLEDGER_CHK 16 16 = (getF s rLEDGER_CHK 16 16 + 1) % 65536 ∧
        (∀ q, q < 9 → getB s' (rLEDGER_CHK + 4) q = (getB s (rLEDGER_CHK + 4) q || !ledgerOk s q)) ∧
        ((getF s (rLEDGER_CHK + 4) 0 9 = 0 ∧ ∃ q, q < 9 ∧ ledgerOk s q = false) → getR64 s' rLEDGER_CHK_TB = tbNow s)) ∧
    (getB s rLEDGER_CHK 0 = false → exec .ledgerSnapshot s = .next s)

/-- O60. A TAP instruction comes into force: BYPASS, IDCODE with the identification code, SAMPLE/PRELOAD with the pins, and the EXTEST class, which drops the host link, or is
BYPASS where it may not act (R436). DBG_REG reads or writes one register with the rights of its session, and shows busy while
the register's region has no clock (R437). Test-Logic-Reset ends the session that JTAG owns (R437).
SMBus reports the sensors and the power state while VAUX is present (R447). -/
def Obligations.TapAndSmbusAnswer : Prop :=
  ∀ (s : State),
    (∃ s', exec .bypass s = .next s' ∧ Frame [] s s' ∧ s'.tap = { s.tap with ir := 0xFF }) ∧
    (∃ s', exec .idcode s = .next s' ∧ Frame [] s s' ∧ s'.tap = { s.tap with ir := 0x01, dr := idWord }) ∧
    (∀ pins, ∃ s', exec (.samplePreload pins) s = .next s' ∧ Frame [] s s' ∧ s'.tap = { s.tap with ir := 0x02, cells := pins }) ∧
    (∀ p ∈ ([(.extest, 0x00), (.clamp, 0x03), (.highz, 0x04), (.extestPulse, 0x05), (.extestTrain, 0x06)] : List (Instr × BitVec 8)),
      (extestAllowed s = true → ∃ s', exec p.1 s = .next s' ∧ SameMem s s' ∧ s'.tap = { s.tap with ir := p.2 } ∧ s'.host.linkUp = false ∧
        getB s' rHRING_SIZE 8 = false) ∧
      (extestAllowed s = false → ∃ s', exec p.1 s = .next s' ∧ Frame [] s s' ∧ s'.host = s.host ∧ s'.tap = { s.tap with ir := 0xFF })) ∧
    (∀ i ∈ ([.trstN, .testLogicReset] : List Instr), ∃ s', exec i s = .next s' ∧ SameMem s s' ∧ s'.tap = {} ∧
      (s.sess.jtag = false → Frame [] s s') ∧ (s.sess.jtag = true → sessOpen s = true → sessOpen s' = false ∧ s'.sess.jtag = false ∧ getB s' rHRING_SIZE 8 = false)) ∧
    (∀ (x : BitVec 96) (off : Nat), off = 4 * bits x.toNat 2 26 →
      (bits x.toNat 1 1 = 1 → off % 8 ≠ 0 → ∃ s', exec (.dbgReg x) s = .next s' ∧ Frame [] s s' ∧ s'.tap = { s.tap with ir := 0x10, status := 3 }) ∧
      (off < 2 ^ 26 → bits x.toNat 0 1 = 0 → tapWaits s off = false → off ≠ rTB_VALUE → off ≠ rTB_VALUE + 4 →
        (bits x.toNat 1 1 = 0 → ∃ s', exec (.dbgReg x) s = .next s' ∧ Frame [] s s' ∧
          s'.tap = { s.tap with ir := 0x10, status := 0, data := (readReg s off).setWidth 64, read := none }) ∧
        (bits x.toNat 1 1 = 1 → off % 8 = 0 → ∃ s', exec (.dbgReg x) s = .next s' ∧ Frame [] s s' ∧
          s'.tap = { s.tap with ir := 0x10, status := 0, data := (readReg s (off + 4)) ++ (readReg s off), read := none })) ∧
      (off < 2 ^ 26 → off % 8 = 0 → bits x.toNat 0 1 = 0 → tapWaits s off = true → ∃ s', exec (.dbgReg x) s = .next s' ∧ Frame [] s s' ∧
        s'.tap = { s.tap with ir := 0x10, status := 1, read := some (off, bits x.toNat 1 1 == 1) }) ∧
      (∀ (c : CoreId) (t : SlotId), off = rTASK_PC c t → Served s .jtag off → hostDead s = false → bits x.toNat 0 1 = 1 → bits x.toNat 1 1 = 0 →
        ∃ s', exec (.dbgReg x) s = .next s' ∧ Frame [off] s s' ∧ s'.tap = { s.tap with ir := 0x10, status := 0 } ∧
          (getR s' off).toNat % 8192 = bits x.toNat 32 13) ∧
      (off < 2 ^ 26 → off ≠ rPWR_REQ → mayWriteAt s .jtag off = false → Awake s → hostDead s = false → bits x.toNat 0 1 = 1 → bits x.toNat 1 1 = 0 →
        ∃ s', exec (.dbgReg x) s = .next s' ∧ Frame [] s s' ∧ s'.tap = { s.tap with ir := 0x10, status := 2 })) ∧
    (s.pwr.vaux = true →
      (∃ s', exec (.smbusMctpRequest .hottestJunction) s = .next s' ∧ Frame [] s s' ∧ (∀ i, i < 36 → tempOf s i ≤ s'.pins.smbOut) ∧
        (s'.pins.smbOut = 0 ∨ ∃ i, i < 36 ∧ s'.pins.smbOut = tempOf s i)) ∧
      (∃ s', exec (.smbusMctpRequest .hottestFirn) s = .next s' ∧ Frame [] s s' ∧ (∀ i, i < 32 → tempOf s (64 + i) ≤ s'.pins.smbOut) ∧
        (s'.pins.smbOut = 0 ∨ ∃ i, i < 32 ∧ s'.pins.smbOut = tempOf s (64 + i))) ∧
      (∃ s', exec (.smbusMctpRequest .power) s = .next s' ∧ Frame [] s s' ∧ s'.pins.smbOut = getF s rPWR_MEAS 0 13) ∧
      (∃ s', exec (.smbusMctpRequest .powerState) s = .next s' ∧ Frame [] s s' ∧ s'.pins.smbOut = (if s.pwr.off then 4 else pwrState s)) ∧
      (∀ a, ∃ s', exec (.smbusArp a) s = .next s' ∧ Frame [] s s' ∧ s'.pins = { s.pins with smbAddr := a })) ∧
    (s.pwr.vaux = false → ∀ q a, exec (.smbusMctpRequest q) s = .next s ∧ exec (.smbusArp a) s = .next s)
end

