-- ==== Sys2Proof/Laws/Sparse.lean ====
section
/-! SUPPORT. Sparse stores: a read after a write, and the canonical form that every store operation keeps. -/

namespace Sys2Proof.Machine

variable {α : Type}

@[simp] theorem mget_nil (d : Nat → α) (x : Nat) : mget d [] x = d x := rfl

/-- A place read after it is inserted. -/
@[simp] theorem mget_minsert_same (d : Nat → α) (m : List (Nat × α)) (x : Nat) (v : α) : mget d (minsert m x v) x = v := by
  induction m with
  | nil => simp [minsert, mget]
  | cons p m ih =>
    obtain ⟨k, w⟩ := p
    by_cases h : x = k
    · simp [minsert, mget, h]
    · by_cases h2 : x < k
      · simp [minsert, mget, h, h2]
      · simp [minsert, mget, h, h2, ih]

/-- Every other place reads as before. -/
theorem mget_minsert_other (d : Nat → α) (m : List (Nat × α)) {x y : Nat} (v : α) (h : y ≠ x) : mget d (minsert m x v) y = mget d m y := by
  induction m with
  | nil => simp [minsert, mget, h]
  | cons p m ih =>
    obtain ⟨k, w⟩ := p
    simp only [minsert]
    split
    · rename_i e; subst e; simp [mget, h]
    · split
      · simp [mget, h]
      · simp [mget, ih]

/-- Places that a filter by key keeps read as before; the others read their default. -/
theorem mget_filter (d : Nat → α) (m : List (Nat × α)) (q : Nat → Bool) (y : Nat) :
    mget d (m.filter fun p => q p.1) y = if q y then mget d m y else d y := by
  induction m with
  | nil => simp [mget]
  | cons p m ih =>
    obtain ⟨k, w⟩ := p
    by_cases hk : q k
    · simp only [List.filter_cons, hk, if_true, mget]
      split
      · rename_i e; subst e; simp [hk]
      · exact ih
    · have hk' : q k = false := by simpa using hk
      by_cases e : y = k
      · subst e; simp [hk', ih]
      · simp [hk', ih, mget, e]

/-- A place read after it is written. -/
@[simp] theorem mget_mset_same [DecidableEq α] (d : Nat → α) (m : List (Nat × α)) (x : Nat) (v : α) : mget d (mset d m x v) x = v := by
  unfold mset
  split
  · rename_i e
    rw [mget_filter d m (fun k => decide (k ≠ x))]
    simp [e]
  · simp

/-- A write leaves every other place alone. -/
theorem mget_mset_other [DecidableEq α] (d : Nat → α) (m : List (Nat × α)) {x y : Nat} (v : α) (h : y ≠ x) : mget d (mset d m x v) y = mget d m y := by
  unfold mset
  split
  · rw [mget_filter d m (fun k => decide (k ≠ x))]
    simp [h]
  · exact mget_minsert_other d m v h

theorem mget_mset [DecidableEq α] (d : Nat → α) (m : List (Nat × α)) (x y : Nat) (v : α) : mget d (mset d m x v) y = if y = x then v else mget d m y := by
  split
  · rename_i e; subst e; simp
  · rename_i e; exact mget_mset_other d m v e

-- the canonical form --------------------------------------------------------------------------------------------

/-- The canonical form, said of the list as a whole. -/
theorem mwf_iff [DecidableEq α] (d : Nat → α) (m : List (Nat × α)) :
    mwf d m = true ↔ (m.Pairwise fun p q => p.1 < q.1) ∧ ∀ p, p ∈ m → p.2 ≠ d p.1 := by
  induction m with
  | nil => simp [mwf]
  | cons p m ih =>
    cases m with
    | nil => simp [mwf]
    | cons q m =>
      simp only [mwf, Bool.and_eq_true, decide_eq_true_eq, ih]
      constructor
      · rintro ⟨⟨hp, hlt⟩, hpw, hne⟩
        refine ⟨List.pairwise_cons.2 ⟨?_, hpw⟩, ?_⟩
        · intro r hr
          rcases List.mem_cons.1 hr with rfl | hr
          · exact hlt
          · exact lt_trans hlt ((List.pairwise_cons.1 hpw).1 r hr)
        · intro r hr
          rcases List.mem_cons.1 hr with rfl | hr
          · exact hp
          · exact hne r hr
      · rintro ⟨hpw, hne⟩
        have h1 := List.pairwise_cons.1 hpw
        exact ⟨⟨hne p (by simp), h1.1 q (by simp)⟩, h1.2, fun r hr => hne r (List.mem_cons_of_mem _ hr)⟩

@[simp] theorem mwf_nil [DecidableEq α] (d : Nat → α) : mwf d [] = true := rfl

/-- A store without some of its entries is canonical. -/
theorem mwf_filter [DecidableEq α] (d : Nat → α) (m : List (Nat × α)) (q : Nat × α → Bool) (h : mwf d m = true) : mwf d (m.filter q) = true := by
  rw [mwf_iff] at *
  exact ⟨h.1.filter q, fun p hp => h.2 p (List.mem_of_mem_filter hp)⟩

/-- The entries of a store with one inserted. -/
theorem mem_minsert {m : List (Nat × α)} {x : Nat} {v : α} {p : Nat × α} (h : p ∈ minsert m x v) : p = (x, v) ∨ p ∈ m := by
  induction m with
  | nil => simpa [minsert] using h
  | cons q m ih =>
    simp only [minsert] at h
    split at h
    · rcases List.mem_cons.1 h with h | h
      · exact .inl h
      · exact .inr (List.mem_cons_of_mem _ h)
    · split at h
      · rcases List.mem_cons.1 h with h | h
        · exact .inl h
        · exact .inr h
      · rcases List.mem_cons.1 h with h | h
        · exact .inr (by simp [h])
        · rcases ih h with h | h
          · exact .inl h
          · exact .inr (List.mem_cons_of_mem _ h)

/-- Inserting a value that is not the default keeps the canonical form. -/
theorem mwf_minsert [DecidableEq α] (d : Nat → α) (m : List (Nat × α)) (x : Nat) (v : α) (hv : v ≠ d x) (h : mwf d m = true) :
    mwf d (minsert m x v) = true := by
  rw [mwf_iff] at *
  refine ⟨?_, ?_⟩
  · induction m with
    | nil => simp [minsert]
    | cons q m ih =>
      have hq := List.pairwise_cons.1 h.1
      simp only [minsert]
      split
      · rename_i e
        exact List.pairwise_cons.2 ⟨fun r hr => by simpa [e] using hq.1 r hr, hq.2⟩
      · rename_i e
        split
        · rename_i lt
          refine List.pairwise_cons.2 ⟨fun r hr => ?_, h.1⟩
          rcases List.mem_cons.1 hr with rfl | hr
          · exact lt
          · exact lt_trans lt (hq.1 r hr)
        · rename_i nlt
          refine List.pairwise_cons.2 ⟨fun r hr => ?_, ih ⟨hq.2, fun p hp => h.2 p (List.mem_cons_of_mem _ hp)⟩⟩
          rcases mem_minsert hr with rfl | hr
          · exact lt_of_le_of_ne (not_lt.1 nlt) (Ne.symm e)
          · exact hq.1 r hr
  · intro p hp
    rcases mem_minsert hp with rfl | hp
    · exact hv
    · exact h.2 p hp

/-- Every write keeps the canonical form. -/
theorem mwf_mset [DecidableEq α] (d : Nat → α) (m : List (Nat × α)) (x : Nat) (v : α) (h : mwf d m = true) : mwf d (mset d m x v) = true := by
  unfold mset
  split
  · exact mwf_filter d m _ h
  · rename_i hv; exact mwf_minsert d m x v hv h

/-- In canonical form a store that reads everywhere as its defaults lists nothing. -/
theorem mwf_default [DecidableEq α] (d : Nat → α) (m : List (Nat × α)) (h : mwf d m = true) (hd : ∀ x, mget d m x = d x) : m = [] := by
  cases m with
  | nil => rfl
  | cons p m =>
    exfalso
    obtain ⟨k, v⟩ := p
    have h1 := ((mwf_iff d _).1 h).2 (k, v) (by simp)
    exact h1 (by simpa [mget] using hd k)

end Sys2Proof.Machine
end

