-- ==== Sys2Proof/Laws/State.lean ====
section
/-! SUPPORT. What each update of State leaves alone: one lemma per field and update, so that no proof unfolds a record update. -/

namespace Sys2Proof.Machine

variable (s : State)

-- setR writes the field regs alone
@[simp] theorem setR_mem (off : Nat) (v : BitVec 32) : (setR s off v).mem = s.mem := rfl
@[simp] theorem setR_beatErr (off : Nat) (v : BitVec 32) : (setR s off v).beatErr = s.beatErr := rfl
@[simp] theorem setR_sram (off : Nat) (v : BitVec 32) : (setR s off v).sram = s.sram := rfl
@[simp] theorem setR_cores (off : Nat) (v : BitVec 32) : (setR s off v).cores = s.cores := rfl
@[simp] theorem setR_firnStacks (off : Nat) (v : BitVec 32) : (setR s off v).firnStacks = s.firnStacks := rfl
@[simp] theorem setR_regions (off : Nat) (v : BitVec 32) : (setR s off v).regions = s.regions := rfl
@[simp] theorem setR_clusters (off : Nat) (v : BitVec 32) : (setR s off v).clusters = s.clusters := rfl
@[simp] theorem setR_floes (off : Nat) (v : BitVec 32) : (setR s off v).floes = s.floes := rfl
@[simp] theorem setR_rails (off : Nat) (v : BitVec 32) : (setR s off v).rails = s.rails := rfl
@[simp] theorem setR_ccs (off : Nat) (v : BitVec 32) : (setR s off v).ccs = s.ccs := rfl
@[simp] theorem setR_ports (off : Nat) (v : BitVec 32) : (setR s off v).ports = s.ports := rfl
@[simp] theorem setR_tracker (off : Nat) (v : BitVec 32) : (setR s off v).tracker = s.tracker := rfl
@[simp] theorem setR_trace (off : Nat) (v : BitVec 32) : (setR s off v).trace = s.trace := rfl
@[simp] theorem setR_temps (off : Nat) (v : BitVec 32) : (setR s off v).temps = s.temps := rfl
@[simp] theorem setR_signals (off : Nat) (v : BitVec 32) : (setR s off v).signals = s.signals := rfl
@[simp] theorem setR_flights (off : Nat) (v : BitVec 32) : (setR s off v).flights = s.flights := rfl
@[simp] theorem setR_refusals (off : Nat) (v : BitVec 32) : (setR s off v).refusals = s.refusals := rfl
@[simp] theorem setR_credits (off : Nat) (v : BitVec 32) : (setR s off v).credits = s.credits := rfl
@[simp] theorem setR_firnWait (off : Nat) (v : BitVec 32) : (setR s off v).firnWait = s.firnWait := rfl
@[simp] theorem setR_firnEnt (off : Nat) (v : BitVec 32) : (setR s off v).firnEnt = s.firnEnt := rfl
@[simp] theorem setR_net (off : Nat) (v : BitVec 32) : (setR s off v).net = s.net := rfl
@[simp] theorem setR_fuses (off : Nat) (v : BitVec 32) : (setR s off v).fuses = s.fuses := rfl
@[simp] theorem setR_time (off : Nat) (v : BitVec 32) : (setR s off v).time = s.time := rfl
@[simp] theorem setR_pwr (off : Nat) (v : BitVec 32) : (setR s off v).pwr = s.pwr := rfl
@[simp] theorem setR_host (off : Nat) (v : BitVec 32) : (setR s off v).host = s.host := rfl
@[simp] theorem setR_sess (off : Nat) (v : BitVec 32) : (setR s off v).sess = s.sess := rfl
@[simp] theorem setR_sec (off : Nat) (v : BitVec 32) : (setR s off v).sec = s.sec := rfl
@[simp] theorem setR_tap (off : Nat) (v : BitVec 32) : (setR s off v).tap = s.tap := rfl
@[simp] theorem setR_mirror (off : Nat) (v : BitVec 32) : (setR s off v).mirror = s.mirror := rfl
@[simp] theorem setR_serve (off : Nat) (v : BitVec 32) : (setR s off v).serve = s.serve := rfl
@[simp] theorem setR_pins (off : Nat) (v : BitVec 32) : (setR s off v).pins = s.pins := rfl
@[simp] theorem setR_xferId (off : Nat) (v : BitVec 32) : (setR s off v).xferId = s.xferId := rfl
@[simp] theorem setR_sendNo (off : Nat) (v : BitVec 32) : (setR s off v).sendNo = s.sendNo := rfl
@[simp] theorem setR_resetting (off : Nat) (v : BitVec 32) : (setR s off v).resetting = s.resetting := rfl
@[simp] theorem setR_rstJob (off : Nat) (v : BitVec 32) : (setR s off v).rstJob = s.rstJob := rfl
@[simp] theorem setR_alloc (off : Nat) (v : BitVec 32) : (setR s off v).alloc = s.alloc := rfl
@[simp] theorem setR_draws (off : Nat) (v : BitVec 32) : (setR s off v).draws = s.draws := rfl
@[simp] theorem setR_pending (off : Nat) (v : BitVec 32) : (setR s off v).pending = s.pending := rfl

-- setF writes the field regs alone
@[simp] theorem setF_mem (off lo w v : Nat) : (setF s off lo w v).mem = s.mem := rfl
@[simp] theorem setF_beatErr (off lo w v : Nat) : (setF s off lo w v).beatErr = s.beatErr := rfl
@[simp] theorem setF_sram (off lo w v : Nat) : (setF s off lo w v).sram = s.sram := rfl
@[simp] theorem setF_cores (off lo w v : Nat) : (setF s off lo w v).cores = s.cores := rfl
@[simp] theorem setF_firnStacks (off lo w v : Nat) : (setF s off lo w v).firnStacks = s.firnStacks := rfl
@[simp] theorem setF_regions (off lo w v : Nat) : (setF s off lo w v).regions = s.regions := rfl
@[simp] theorem setF_clusters (off lo w v : Nat) : (setF s off lo w v).clusters = s.clusters := rfl
@[simp] theorem setF_floes (off lo w v : Nat) : (setF s off lo w v).floes = s.floes := rfl
@[simp] theorem setF_rails (off lo w v : Nat) : (setF s off lo w v).rails = s.rails := rfl
@[simp] theorem setF_ccs (off lo w v : Nat) : (setF s off lo w v).ccs = s.ccs := rfl
@[simp] theorem setF_ports (off lo w v : Nat) : (setF s off lo w v).ports = s.ports := rfl
@[simp] theorem setF_tracker (off lo w v : Nat) : (setF s off lo w v).tracker = s.tracker := rfl
@[simp] theorem setF_trace (off lo w v : Nat) : (setF s off lo w v).trace = s.trace := rfl
@[simp] theorem setF_temps (off lo w v : Nat) : (setF s off lo w v).temps = s.temps := rfl
@[simp] theorem setF_signals (off lo w v : Nat) : (setF s off lo w v).signals = s.signals := rfl
@[simp] theorem setF_flights (off lo w v : Nat) : (setF s off lo w v).flights = s.flights := rfl
@[simp] theorem setF_refusals (off lo w v : Nat) : (setF s off lo w v).refusals = s.refusals := rfl
@[simp] theorem setF_credits (off lo w v : Nat) : (setF s off lo w v).credits = s.credits := rfl
@[simp] theorem setF_firnWait (off lo w v : Nat) : (setF s off lo w v).firnWait = s.firnWait := rfl
@[simp] theorem setF_firnEnt (off lo w v : Nat) : (setF s off lo w v).firnEnt = s.firnEnt := rfl
@[simp] theorem setF_net (off lo w v : Nat) : (setF s off lo w v).net = s.net := rfl
@[simp] theorem setF_fuses (off lo w v : Nat) : (setF s off lo w v).fuses = s.fuses := rfl
@[simp] theorem setF_time (off lo w v : Nat) : (setF s off lo w v).time = s.time := rfl
@[simp] theorem setF_pwr (off lo w v : Nat) : (setF s off lo w v).pwr = s.pwr := rfl
@[simp] theorem setF_host (off lo w v : Nat) : (setF s off lo w v).host = s.host := rfl
@[simp] theorem setF_sess (off lo w v : Nat) : (setF s off lo w v).sess = s.sess := rfl
@[simp] theorem setF_sec (off lo w v : Nat) : (setF s off lo w v).sec = s.sec := rfl
@[simp] theorem setF_tap (off lo w v : Nat) : (setF s off lo w v).tap = s.tap := rfl
@[simp] theorem setF_mirror (off lo w v : Nat) : (setF s off lo w v).mirror = s.mirror := rfl
@[simp] theorem setF_serve (off lo w v : Nat) : (setF s off lo w v).serve = s.serve := rfl
@[simp] theorem setF_pins (off lo w v : Nat) : (setF s off lo w v).pins = s.pins := rfl
@[simp] theorem setF_xferId (off lo w v : Nat) : (setF s off lo w v).xferId = s.xferId := rfl
@[simp] theorem setF_sendNo (off lo w v : Nat) : (setF s off lo w v).sendNo = s.sendNo := rfl
@[simp] theorem setF_resetting (off lo w v : Nat) : (setF s off lo w v).resetting = s.resetting := rfl
@[simp] theorem setF_rstJob (off lo w v : Nat) : (setF s off lo w v).rstJob = s.rstJob := rfl
@[simp] theorem setF_alloc (off lo w v : Nat) : (setF s off lo w v).alloc = s.alloc := rfl
@[simp] theorem setF_draws (off lo w v : Nat) : (setF s off lo w v).draws = s.draws := rfl
@[simp] theorem setF_pending (off lo w v : Nat) : (setF s off lo w v).pending = s.pending := rfl

-- setR64 writes the field regs alone
@[simp] theorem setR64_mem (off v : Nat) : (setR64 s off v).mem = s.mem := rfl
@[simp] theorem setR64_beatErr (off v : Nat) : (setR64 s off v).beatErr = s.beatErr := rfl
@[simp] theorem setR64_sram (off v : Nat) : (setR64 s off v).sram = s.sram := rfl
@[simp] theorem setR64_cores (off v : Nat) : (setR64 s off v).cores = s.cores := rfl
@[simp] theorem setR64_firnStacks (off v : Nat) : (setR64 s off v).firnStacks = s.firnStacks := rfl
@[simp] theorem setR64_regions (off v : Nat) : (setR64 s off v).regions = s.regions := rfl
@[simp] theorem setR64_clusters (off v : Nat) : (setR64 s off v).clusters = s.clusters := rfl
@[simp] theorem setR64_floes (off v : Nat) : (setR64 s off v).floes = s.floes := rfl
@[simp] theorem setR64_rails (off v : Nat) : (setR64 s off v).rails = s.rails := rfl
@[simp] theorem setR64_ccs (off v : Nat) : (setR64 s off v).ccs = s.ccs := rfl
@[simp] theorem setR64_ports (off v : Nat) : (setR64 s off v).ports = s.ports := rfl
@[simp] theorem setR64_tracker (off v : Nat) : (setR64 s off v).tracker = s.tracker := rfl
@[simp] theorem setR64_trace (off v : Nat) : (setR64 s off v).trace = s.trace := rfl
@[simp] theorem setR64_temps (off v : Nat) : (setR64 s off v).temps = s.temps := rfl
@[simp] theorem setR64_signals (off v : Nat) : (setR64 s off v).signals = s.signals := rfl
@[simp] theorem setR64_flights (off v : Nat) : (setR64 s off v).flights = s.flights := rfl
@[simp] theorem setR64_refusals (off v : Nat) : (setR64 s off v).refusals = s.refusals := rfl
@[simp] theorem setR64_credits (off v : Nat) : (setR64 s off v).credits = s.credits := rfl
@[simp] theorem setR64_firnWait (off v : Nat) : (setR64 s off v).firnWait = s.firnWait := rfl
@[simp] theorem setR64_firnEnt (off v : Nat) : (setR64 s off v).firnEnt = s.firnEnt := rfl
@[simp] theorem setR64_net (off v : Nat) : (setR64 s off v).net = s.net := rfl
@[simp] theorem setR64_fuses (off v : Nat) : (setR64 s off v).fuses = s.fuses := rfl
@[simp] theorem setR64_time (off v : Nat) : (setR64 s off v).time = s.time := rfl
@[simp] theorem setR64_pwr (off v : Nat) : (setR64 s off v).pwr = s.pwr := rfl
@[simp] theorem setR64_host (off v : Nat) : (setR64 s off v).host = s.host := rfl
@[simp] theorem setR64_sess (off v : Nat) : (setR64 s off v).sess = s.sess := rfl
@[simp] theorem setR64_sec (off v : Nat) : (setR64 s off v).sec = s.sec := rfl
@[simp] theorem setR64_tap (off v : Nat) : (setR64 s off v).tap = s.tap := rfl
@[simp] theorem setR64_mirror (off v : Nat) : (setR64 s off v).mirror = s.mirror := rfl
@[simp] theorem setR64_serve (off v : Nat) : (setR64 s off v).serve = s.serve := rfl
@[simp] theorem setR64_pins (off v : Nat) : (setR64 s off v).pins = s.pins := rfl
@[simp] theorem setR64_xferId (off v : Nat) : (setR64 s off v).xferId = s.xferId := rfl
@[simp] theorem setR64_sendNo (off v : Nat) : (setR64 s off v).sendNo = s.sendNo := rfl
@[simp] theorem setR64_resetting (off v : Nat) : (setR64 s off v).resetting = s.resetting := rfl
@[simp] theorem setR64_rstJob (off v : Nat) : (setR64 s off v).rstJob = s.rstJob := rfl
@[simp] theorem setR64_alloc (off v : Nat) : (setR64 s off v).alloc = s.alloc := rfl
@[simp] theorem setR64_draws (off v : Nat) : (setR64 s off v).draws = s.draws := rfl
@[simp] theorem setR64_pending (off v : Nat) : (setR64 s off v).pending = s.pending := rfl

-- wrByte writes the field mem alone
@[simp] theorem wrByte_regs (a : Nat) (v : Byte) : (wrByte s a v).regs = s.regs := rfl
@[simp] theorem wrByte_beatErr (a : Nat) (v : Byte) : (wrByte s a v).beatErr = s.beatErr := rfl
@[simp] theorem wrByte_sram (a : Nat) (v : Byte) : (wrByte s a v).sram = s.sram := rfl
@[simp] theorem wrByte_cores (a : Nat) (v : Byte) : (wrByte s a v).cores = s.cores := rfl
@[simp] theorem wrByte_firnStacks (a : Nat) (v : Byte) : (wrByte s a v).firnStacks = s.firnStacks := rfl
@[simp] theorem wrByte_regions (a : Nat) (v : Byte) : (wrByte s a v).regions = s.regions := rfl
@[simp] theorem wrByte_clusters (a : Nat) (v : Byte) : (wrByte s a v).clusters = s.clusters := rfl
@[simp] theorem wrByte_floes (a : Nat) (v : Byte) : (wrByte s a v).floes = s.floes := rfl
@[simp] theorem wrByte_rails (a : Nat) (v : Byte) : (wrByte s a v).rails = s.rails := rfl
@[simp] theorem wrByte_ccs (a : Nat) (v : Byte) : (wrByte s a v).ccs = s.ccs := rfl
@[simp] theorem wrByte_ports (a : Nat) (v : Byte) : (wrByte s a v).ports = s.ports := rfl
@[simp] theorem wrByte_tracker (a : Nat) (v : Byte) : (wrByte s a v).tracker = s.tracker := rfl
@[simp] theorem wrByte_trace (a : Nat) (v : Byte) : (wrByte s a v).trace = s.trace := rfl
@[simp] theorem wrByte_temps (a : Nat) (v : Byte) : (wrByte s a v).temps = s.temps := rfl
@[simp] theorem wrByte_signals (a : Nat) (v : Byte) : (wrByte s a v).signals = s.signals := rfl
@[simp] theorem wrByte_flights (a : Nat) (v : Byte) : (wrByte s a v).flights = s.flights := rfl
@[simp] theorem wrByte_refusals (a : Nat) (v : Byte) : (wrByte s a v).refusals = s.refusals := rfl
@[simp] theorem wrByte_credits (a : Nat) (v : Byte) : (wrByte s a v).credits = s.credits := rfl
@[simp] theorem wrByte_firnWait (a : Nat) (v : Byte) : (wrByte s a v).firnWait = s.firnWait := rfl
@[simp] theorem wrByte_firnEnt (a : Nat) (v : Byte) : (wrByte s a v).firnEnt = s.firnEnt := rfl
@[simp] theorem wrByte_net (a : Nat) (v : Byte) : (wrByte s a v).net = s.net := rfl
@[simp] theorem wrByte_fuses (a : Nat) (v : Byte) : (wrByte s a v).fuses = s.fuses := rfl
@[simp] theorem wrByte_time (a : Nat) (v : Byte) : (wrByte s a v).time = s.time := rfl
@[simp] theorem wrByte_pwr (a : Nat) (v : Byte) : (wrByte s a v).pwr = s.pwr := rfl
@[simp] theorem wrByte_host (a : Nat) (v : Byte) : (wrByte s a v).host = s.host := rfl
@[simp] theorem wrByte_sess (a : Nat) (v : Byte) : (wrByte s a v).sess = s.sess := rfl
@[simp] theorem wrByte_sec (a : Nat) (v : Byte) : (wrByte s a v).sec = s.sec := rfl
@[simp] theorem wrByte_tap (a : Nat) (v : Byte) : (wrByte s a v).tap = s.tap := rfl
@[simp] theorem wrByte_mirror (a : Nat) (v : Byte) : (wrByte s a v).mirror = s.mirror := rfl
@[simp] theorem wrByte_serve (a : Nat) (v : Byte) : (wrByte s a v).serve = s.serve := rfl
@[simp] theorem wrByte_pins (a : Nat) (v : Byte) : (wrByte s a v).pins = s.pins := rfl
@[simp] theorem wrByte_xferId (a : Nat) (v : Byte) : (wrByte s a v).xferId = s.xferId := rfl
@[simp] theorem wrByte_sendNo (a : Nat) (v : Byte) : (wrByte s a v).sendNo = s.sendNo := rfl
@[simp] theorem wrByte_resetting (a : Nat) (v : Byte) : (wrByte s a v).resetting = s.resetting := rfl
@[simp] theorem wrByte_rstJob (a : Nat) (v : Byte) : (wrByte s a v).rstJob = s.rstJob := rfl
@[simp] theorem wrByte_alloc (a : Nat) (v : Byte) : (wrByte s a v).alloc = s.alloc := rfl
@[simp] theorem wrByte_draws (a : Nat) (v : Byte) : (wrByte s a v).draws = s.draws := rfl
@[simp] theorem wrByte_pending (a : Nat) (v : Byte) : (wrByte s a v).pending = s.pending := rfl

-- wrBytes writes the field mem alone
@[simp] theorem wrBytes_regs (a : Nat) (bs : List Byte) : (wrBytes s a bs).regs = s.regs := rfl
@[simp] theorem wrBytes_beatErr (a : Nat) (bs : List Byte) : (wrBytes s a bs).beatErr = s.beatErr := rfl
@[simp] theorem wrBytes_sram (a : Nat) (bs : List Byte) : (wrBytes s a bs).sram = s.sram := rfl
@[simp] theorem wrBytes_cores (a : Nat) (bs : List Byte) : (wrBytes s a bs).cores = s.cores := rfl
@[simp] theorem wrBytes_firnStacks (a : Nat) (bs : List Byte) : (wrBytes s a bs).firnStacks = s.firnStacks := rfl
@[simp] theorem wrBytes_regions (a : Nat) (bs : List Byte) : (wrBytes s a bs).regions = s.regions := rfl
@[simp] theorem wrBytes_clusters (a : Nat) (bs : List Byte) : (wrBytes s a bs).clusters = s.clusters := rfl
@[simp] theorem wrBytes_floes (a : Nat) (bs : List Byte) : (wrBytes s a bs).floes = s.floes := rfl
@[simp] theorem wrBytes_rails (a : Nat) (bs : List Byte) : (wrBytes s a bs).rails = s.rails := rfl
@[simp] theorem wrBytes_ccs (a : Nat) (bs : List Byte) : (wrBytes s a bs).ccs = s.ccs := rfl
@[simp] theorem wrBytes_ports (a : Nat) (bs : List Byte) : (wrBytes s a bs).ports = s.ports := rfl
@[simp] theorem wrBytes_tracker (a : Nat) (bs : List Byte) : (wrBytes s a bs).tracker = s.tracker := rfl
@[simp] theorem wrBytes_trace (a : Nat) (bs : List Byte) : (wrBytes s a bs).trace = s.trace := rfl
@[simp] theorem wrBytes_temps (a : Nat) (bs : List Byte) : (wrBytes s a bs).temps = s.temps := rfl
@[simp] theorem wrBytes_signals (a : Nat) (bs : List Byte) : (wrBytes s a bs).signals = s.signals := rfl
@[simp] theorem wrBytes_flights (a : Nat) (bs : List Byte) : (wrBytes s a bs).flights = s.flights := rfl
@[simp] theorem wrBytes_refusals (a : Nat) (bs : List Byte) : (wrBytes s a bs).refusals = s.refusals := rfl
@[simp] theorem wrBytes_credits (a : Nat) (bs : List Byte) : (wrBytes s a bs).credits = s.credits := rfl
@[simp] theorem wrBytes_firnWait (a : Nat) (bs : List Byte) : (wrBytes s a bs).firnWait = s.firnWait := rfl
@[simp] theorem wrBytes_firnEnt (a : Nat) (bs : List Byte) : (wrBytes s a bs).firnEnt = s.firnEnt := rfl
@[simp] theorem wrBytes_net (a : Nat) (bs : List Byte) : (wrBytes s a bs).net = s.net := rfl
@[simp] theorem wrBytes_fuses (a : Nat) (bs : List Byte) : (wrBytes s a bs).fuses = s.fuses := rfl
@[simp] theorem wrBytes_time (a : Nat) (bs : List Byte) : (wrBytes s a bs).time = s.time := rfl
@[simp] theorem wrBytes_pwr (a : Nat) (bs : List Byte) : (wrBytes s a bs).pwr = s.pwr := rfl
@[simp] theorem wrBytes_host (a : Nat) (bs : List Byte) : (wrBytes s a bs).host = s.host := rfl
@[simp] theorem wrBytes_sess (a : Nat) (bs : List Byte) : (wrBytes s a bs).sess = s.sess := rfl
@[simp] theorem wrBytes_sec (a : Nat) (bs : List Byte) : (wrBytes s a bs).sec = s.sec := rfl
@[simp] theorem wrBytes_tap (a : Nat) (bs : List Byte) : (wrBytes s a bs).tap = s.tap := rfl
@[simp] theorem wrBytes_mirror (a : Nat) (bs : List Byte) : (wrBytes s a bs).mirror = s.mirror := rfl
@[simp] theorem wrBytes_serve (a : Nat) (bs : List Byte) : (wrBytes s a bs).serve = s.serve := rfl
@[simp] theorem wrBytes_pins (a : Nat) (bs : List Byte) : (wrBytes s a bs).pins = s.pins := rfl
@[simp] theorem wrBytes_xferId (a : Nat) (bs : List Byte) : (wrBytes s a bs).xferId = s.xferId := rfl
@[simp] theorem wrBytes_sendNo (a : Nat) (bs : List Byte) : (wrBytes s a bs).sendNo = s.sendNo := rfl
@[simp] theorem wrBytes_resetting (a : Nat) (bs : List Byte) : (wrBytes s a bs).resetting = s.resetting := rfl
@[simp] theorem wrBytes_rstJob (a : Nat) (bs : List Byte) : (wrBytes s a bs).rstJob = s.rstJob := rfl
@[simp] theorem wrBytes_alloc (a : Nat) (bs : List Byte) : (wrBytes s a bs).alloc = s.alloc := rfl
@[simp] theorem wrBytes_draws (a : Nat) (bs : List Byte) : (wrBytes s a bs).draws = s.draws := rfl
@[simp] theorem wrBytes_pending (a : Nat) (bs : List Byte) : (wrBytes s a bs).pending = s.pending := rfl

-- setCore writes the field cores alone
@[simp] theorem setCore_regs (c : Nat) (x : CoreSt) : (setCore s c x).regs = s.regs := rfl
@[simp] theorem setCore_mem (c : Nat) (x : CoreSt) : (setCore s c x).mem = s.mem := rfl
@[simp] theorem setCore_beatErr (c : Nat) (x : CoreSt) : (setCore s c x).beatErr = s.beatErr := rfl
@[simp] theorem setCore_sram (c : Nat) (x : CoreSt) : (setCore s c x).sram = s.sram := rfl
@[simp] theorem setCore_firnStacks (c : Nat) (x : CoreSt) : (setCore s c x).firnStacks = s.firnStacks := rfl
@[simp] theorem setCore_regions (c : Nat) (x : CoreSt) : (setCore s c x).regions = s.regions := rfl
@[simp] theorem setCore_clusters (c : Nat) (x : CoreSt) : (setCore s c x).clusters = s.clusters := rfl
@[simp] theorem setCore_floes (c : Nat) (x : CoreSt) : (setCore s c x).floes = s.floes := rfl
@[simp] theorem setCore_rails (c : Nat) (x : CoreSt) : (setCore s c x).rails = s.rails := rfl
@[simp] theorem setCore_ccs (c : Nat) (x : CoreSt) : (setCore s c x).ccs = s.ccs := rfl
@[simp] theorem setCore_ports (c : Nat) (x : CoreSt) : (setCore s c x).ports = s.ports := rfl
@[simp] theorem setCore_tracker (c : Nat) (x : CoreSt) : (setCore s c x).tracker = s.tracker := rfl
@[simp] theorem setCore_trace (c : Nat) (x : CoreSt) : (setCore s c x).trace = s.trace := rfl
@[simp] theorem setCore_temps (c : Nat) (x : CoreSt) : (setCore s c x).temps = s.temps := rfl
@[simp] theorem setCore_signals (c : Nat) (x : CoreSt) : (setCore s c x).signals = s.signals := rfl
@[simp] theorem setCore_flights (c : Nat) (x : CoreSt) : (setCore s c x).flights = s.flights := rfl
@[simp] theorem setCore_refusals (c : Nat) (x : CoreSt) : (setCore s c x).refusals = s.refusals := rfl
@[simp] theorem setCore_credits (c : Nat) (x : CoreSt) : (setCore s c x).credits = s.credits := rfl
@[simp] theorem setCore_firnWait (c : Nat) (x : CoreSt) : (setCore s c x).firnWait = s.firnWait := rfl
@[simp] theorem setCore_firnEnt (c : Nat) (x : CoreSt) : (setCore s c x).firnEnt = s.firnEnt := rfl
@[simp] theorem setCore_net (c : Nat) (x : CoreSt) : (setCore s c x).net = s.net := rfl
@[simp] theorem setCore_fuses (c : Nat) (x : CoreSt) : (setCore s c x).fuses = s.fuses := rfl
@[simp] theorem setCore_time (c : Nat) (x : CoreSt) : (setCore s c x).time = s.time := rfl
@[simp] theorem setCore_pwr (c : Nat) (x : CoreSt) : (setCore s c x).pwr = s.pwr := rfl
@[simp] theorem setCore_host (c : Nat) (x : CoreSt) : (setCore s c x).host = s.host := rfl
@[simp] theorem setCore_sess (c : Nat) (x : CoreSt) : (setCore s c x).sess = s.sess := rfl
@[simp] theorem setCore_sec (c : Nat) (x : CoreSt) : (setCore s c x).sec = s.sec := rfl
@[simp] theorem setCore_tap (c : Nat) (x : CoreSt) : (setCore s c x).tap = s.tap := rfl
@[simp] theorem setCore_mirror (c : Nat) (x : CoreSt) : (setCore s c x).mirror = s.mirror := rfl
@[simp] theorem setCore_serve (c : Nat) (x : CoreSt) : (setCore s c x).serve = s.serve := rfl
@[simp] theorem setCore_pins (c : Nat) (x : CoreSt) : (setCore s c x).pins = s.pins := rfl
@[simp] theorem setCore_xferId (c : Nat) (x : CoreSt) : (setCore s c x).xferId = s.xferId := rfl
@[simp] theorem setCore_sendNo (c : Nat) (x : CoreSt) : (setCore s c x).sendNo = s.sendNo := rfl
@[simp] theorem setCore_resetting (c : Nat) (x : CoreSt) : (setCore s c x).resetting = s.resetting := rfl
@[simp] theorem setCore_rstJob (c : Nat) (x : CoreSt) : (setCore s c x).rstJob = s.rstJob := rfl
@[simp] theorem setCore_alloc (c : Nat) (x : CoreSt) : (setCore s c x).alloc = s.alloc := rfl
@[simp] theorem setCore_draws (c : Nat) (x : CoreSt) : (setCore s c x).draws = s.draws := rfl
@[simp] theorem setCore_pending (c : Nat) (x : CoreSt) : (setCore s c x).pending = s.pending := rfl

-- modCore writes the field cores alone
@[simp] theorem modCore_regs (c : Nat) (f : CoreSt → CoreSt) : (modCore s c f).regs = s.regs := rfl
@[simp] theorem modCore_mem (c : Nat) (f : CoreSt → CoreSt) : (modCore s c f).mem = s.mem := rfl
@[simp] theorem modCore_beatErr (c : Nat) (f : CoreSt → CoreSt) : (modCore s c f).beatErr = s.beatErr := rfl
@[simp] theorem modCore_sram (c : Nat) (f : CoreSt → CoreSt) : (modCore s c f).sram = s.sram := rfl
@[simp] theorem modCore_firnStacks (c : Nat) (f : CoreSt → CoreSt) : (modCore s c f).firnStacks = s.firnStacks := rfl
@[simp] theorem modCore_regions (c : Nat) (f : CoreSt → CoreSt) : (modCore s c f).regions = s.regions := rfl
@[simp] theorem modCore_clusters (c : Nat) (f : CoreSt → CoreSt) : (modCore s c f).clusters = s.clusters := rfl
@[simp] theorem modCore_floes (c : Nat) (f : CoreSt → CoreSt) : (modCore s c f).floes = s.floes := rfl
@[simp] theorem modCore_rails (c : Nat) (f : CoreSt → CoreSt) : (modCore s c f).rails = s.rails := rfl
@[simp] theorem modCore_ccs (c : Nat) (f : CoreSt → CoreSt) : (modCore s c f).ccs = s.ccs := rfl
@[simp] theorem modCore_ports (c : Nat) (f : CoreSt → CoreSt) : (modCore s c f).ports = s.ports := rfl
@[simp] theorem modCore_tracker (c : Nat) (f : CoreSt → CoreSt) : (modCore s c f).tracker = s.tracker := rfl
@[simp] theorem modCore_trace (c : Nat) (f : CoreSt → CoreSt) : (modCore s c f).trace = s.trace := rfl
@[simp] theorem modCore_temps (c : Nat) (f : CoreSt → CoreSt) : (modCore s c f).temps = s.temps := rfl
@[simp] theorem modCore_signals (c : Nat) (f : CoreSt → CoreSt) : (modCore s c f).signals = s.signals := rfl
@[simp] theorem modCore_flights (c : Nat) (f : CoreSt → CoreSt) : (modCore s c f).flights = s.flights := rfl
@[simp] theorem modCore_refusals (c : Nat) (f : CoreSt → CoreSt) : (modCore s c f).refusals = s.refusals := rfl
@[simp] theorem modCore_credits (c : Nat) (f : CoreSt → CoreSt) : (modCore s c f).credits = s.credits := rfl
@[simp] theorem modCore_firnWait (c : Nat) (f : CoreSt → CoreSt) : (modCore s c f).firnWait = s.firnWait := rfl
@[simp] theorem modCore_firnEnt (c : Nat) (f : CoreSt → CoreSt) : (modCore s c f).firnEnt = s.firnEnt := rfl
@[simp] theorem modCore_net (c : Nat) (f : CoreSt → CoreSt) : (modCore s c f).net = s.net := rfl
@[simp] theorem modCore_fuses (c : Nat) (f : CoreSt → CoreSt) : (modCore s c f).fuses = s.fuses := rfl
@[simp] theorem modCore_time (c : Nat) (f : CoreSt → CoreSt) : (modCore s c f).time = s.time := rfl
@[simp] theorem modCore_pwr (c : Nat) (f : CoreSt → CoreSt) : (modCore s c f).pwr = s.pwr := rfl
@[simp] theorem modCore_host (c : Nat) (f : CoreSt → CoreSt) : (modCore s c f).host = s.host := rfl
@[simp] theorem modCore_sess (c : Nat) (f : CoreSt → CoreSt) : (modCore s c f).sess = s.sess := rfl
@[simp] theorem modCore_sec (c : Nat) (f : CoreSt → CoreSt) : (modCore s c f).sec = s.sec := rfl
@[simp] theorem modCore_tap (c : Nat) (f : CoreSt → CoreSt) : (modCore s c f).tap = s.tap := rfl
@[simp] theorem modCore_mirror (c : Nat) (f : CoreSt → CoreSt) : (modCore s c f).mirror = s.mirror := rfl
@[simp] theorem modCore_serve (c : Nat) (f : CoreSt → CoreSt) : (modCore s c f).serve = s.serve := rfl
@[simp] theorem modCore_pins (c : Nat) (f : CoreSt → CoreSt) : (modCore s c f).pins = s.pins := rfl
@[simp] theorem modCore_xferId (c : Nat) (f : CoreSt → CoreSt) : (modCore s c f).xferId = s.xferId := rfl
@[simp] theorem modCore_sendNo (c : Nat) (f : CoreSt → CoreSt) : (modCore s c f).sendNo = s.sendNo := rfl
@[simp] theorem modCore_resetting (c : Nat) (f : CoreSt → CoreSt) : (modCore s c f).resetting = s.resetting := rfl
@[simp] theorem modCore_rstJob (c : Nat) (f : CoreSt → CoreSt) : (modCore s c f).rstJob = s.rstJob := rfl
@[simp] theorem modCore_alloc (c : Nat) (f : CoreSt → CoreSt) : (modCore s c f).alloc = s.alloc := rfl
@[simp] theorem modCore_draws (c : Nat) (f : CoreSt → CoreSt) : (modCore s c f).draws = s.draws := rfl
@[simp] theorem modCore_pending (c : Nat) (f : CoreSt → CoreSt) : (modCore s c f).pending = s.pending := rfl

-- setSlot writes the field cores alone
@[simp] theorem setSlot_regs (c t : Nat) (x : SlotSt) : (setSlot s c t x).regs = s.regs := rfl
@[simp] theorem setSlot_mem (c t : Nat) (x : SlotSt) : (setSlot s c t x).mem = s.mem := rfl
@[simp] theorem setSlot_beatErr (c t : Nat) (x : SlotSt) : (setSlot s c t x).beatErr = s.beatErr := rfl
@[simp] theorem setSlot_sram (c t : Nat) (x : SlotSt) : (setSlot s c t x).sram = s.sram := rfl
@[simp] theorem setSlot_firnStacks (c t : Nat) (x : SlotSt) : (setSlot s c t x).firnStacks = s.firnStacks := rfl
@[simp] theorem setSlot_regions (c t : Nat) (x : SlotSt) : (setSlot s c t x).regions = s.regions := rfl
@[simp] theorem setSlot_clusters (c t : Nat) (x : SlotSt) : (setSlot s c t x).clusters = s.clusters := rfl
@[simp] theorem setSlot_floes (c t : Nat) (x : SlotSt) : (setSlot s c t x).floes = s.floes := rfl
@[simp] theorem setSlot_rails (c t : Nat) (x : SlotSt) : (setSlot s c t x).rails = s.rails := rfl
@[simp] theorem setSlot_ccs (c t : Nat) (x : SlotSt) : (setSlot s c t x).ccs = s.ccs := rfl
@[simp] theorem setSlot_ports (c t : Nat) (x : SlotSt) : (setSlot s c t x).ports = s.ports := rfl
@[simp] theorem setSlot_tracker (c t : Nat) (x : SlotSt) : (setSlot s c t x).tracker = s.tracker := rfl
@[simp] theorem setSlot_trace (c t : Nat) (x : SlotSt) : (setSlot s c t x).trace = s.trace := rfl
@[simp] theorem setSlot_temps (c t : Nat) (x : SlotSt) : (setSlot s c t x).temps = s.temps := rfl
@[simp] theorem setSlot_signals (c t : Nat) (x : SlotSt) : (setSlot s c t x).signals = s.signals := rfl
@[simp] theorem setSlot_flights (c t : Nat) (x : SlotSt) : (setSlot s c t x).flights = s.flights := rfl
@[simp] theorem setSlot_refusals (c t : Nat) (x : SlotSt) : (setSlot s c t x).refusals = s.refusals := rfl
@[simp] theorem setSlot_credits (c t : Nat) (x : SlotSt) : (setSlot s c t x).credits = s.credits := rfl
@[simp] theorem setSlot_firnWait (c t : Nat) (x : SlotSt) : (setSlot s c t x).firnWait = s.firnWait := rfl
@[simp] theorem setSlot_firnEnt (c t : Nat) (x : SlotSt) : (setSlot s c t x).firnEnt = s.firnEnt := rfl
@[simp] theorem setSlot_net (c t : Nat) (x : SlotSt) : (setSlot s c t x).net = s.net := rfl
@[simp] theorem setSlot_fuses (c t : Nat) (x : SlotSt) : (setSlot s c t x).fuses = s.fuses := rfl
@[simp] theorem setSlot_time (c t : Nat) (x : SlotSt) : (setSlot s c t x).time = s.time := rfl
@[simp] theorem setSlot_pwr (c t : Nat) (x : SlotSt) : (setSlot s c t x).pwr = s.pwr := rfl
@[simp] theorem setSlot_host (c t : Nat) (x : SlotSt) : (setSlot s c t x).host = s.host := rfl
@[simp] theorem setSlot_sess (c t : Nat) (x : SlotSt) : (setSlot s c t x).sess = s.sess := rfl
@[simp] theorem setSlot_sec (c t : Nat) (x : SlotSt) : (setSlot s c t x).sec = s.sec := rfl
@[simp] theorem setSlot_tap (c t : Nat) (x : SlotSt) : (setSlot s c t x).tap = s.tap := rfl
@[simp] theorem setSlot_mirror (c t : Nat) (x : SlotSt) : (setSlot s c t x).mirror = s.mirror := rfl
@[simp] theorem setSlot_serve (c t : Nat) (x : SlotSt) : (setSlot s c t x).serve = s.serve := rfl
@[simp] theorem setSlot_pins (c t : Nat) (x : SlotSt) : (setSlot s c t x).pins = s.pins := rfl
@[simp] theorem setSlot_xferId (c t : Nat) (x : SlotSt) : (setSlot s c t x).xferId = s.xferId := rfl
@[simp] theorem setSlot_sendNo (c t : Nat) (x : SlotSt) : (setSlot s c t x).sendNo = s.sendNo := rfl
@[simp] theorem setSlot_resetting (c t : Nat) (x : SlotSt) : (setSlot s c t x).resetting = s.resetting := rfl
@[simp] theorem setSlot_rstJob (c t : Nat) (x : SlotSt) : (setSlot s c t x).rstJob = s.rstJob := rfl
@[simp] theorem setSlot_alloc (c t : Nat) (x : SlotSt) : (setSlot s c t x).alloc = s.alloc := rfl
@[simp] theorem setSlot_draws (c t : Nat) (x : SlotSt) : (setSlot s c t x).draws = s.draws := rfl
@[simp] theorem setSlot_pending (c t : Nat) (x : SlotSt) : (setSlot s c t x).pending = s.pending := rfl

-- modSlot writes the field cores alone
@[simp] theorem modSlot_regs (c t : Nat) (f : SlotSt → SlotSt) : (modSlot s c t f).regs = s.regs := rfl
@[simp] theorem modSlot_mem (c t : Nat) (f : SlotSt → SlotSt) : (modSlot s c t f).mem = s.mem := rfl
@[simp] theorem modSlot_beatErr (c t : Nat) (f : SlotSt → SlotSt) : (modSlot s c t f).beatErr = s.beatErr := rfl
@[simp] theorem modSlot_sram (c t : Nat) (f : SlotSt → SlotSt) : (modSlot s c t f).sram = s.sram := rfl
@[simp] theorem modSlot_firnStacks (c t : Nat) (f : SlotSt → SlotSt) : (modSlot s c t f).firnStacks = s.firnStacks := rfl
@[simp] theorem modSlot_regions (c t : Nat) (f : SlotSt → SlotSt) : (modSlot s c t f).regions = s.regions := rfl
@[simp] theorem modSlot_clusters (c t : Nat) (f : SlotSt → SlotSt) : (modSlot s c t f).clusters = s.clusters := rfl
@[simp] theorem modSlot_floes (c t : Nat) (f : SlotSt → SlotSt) : (modSlot s c t f).floes = s.floes := rfl
@[simp] theorem modSlot_rails (c t : Nat) (f : SlotSt → SlotSt) : (modSlot s c t f).rails = s.rails := rfl
@[simp] theorem modSlot_ccs (c t : Nat) (f : SlotSt → SlotSt) : (modSlot s c t f).ccs = s.ccs := rfl
@[simp] theorem modSlot_ports (c t : Nat) (f : SlotSt → SlotSt) : (modSlot s c t f).ports = s.ports := rfl
@[simp] theorem modSlot_tracker (c t : Nat) (f : SlotSt → SlotSt) : (modSlot s c t f).tracker = s.tracker := rfl
@[simp] theorem modSlot_trace (c t : Nat) (f : SlotSt → SlotSt) : (modSlot s c t f).trace = s.trace := rfl
@[simp] theorem modSlot_temps (c t : Nat) (f : SlotSt → SlotSt) : (modSlot s c t f).temps = s.temps := rfl
@[simp] theorem modSlot_signals (c t : Nat) (f : SlotSt → SlotSt) : (modSlot s c t f).signals = s.signals := rfl
@[simp] theorem modSlot_flights (c t : Nat) (f : SlotSt → SlotSt) : (modSlot s c t f).flights = s.flights := rfl
@[simp] theorem modSlot_refusals (c t : Nat) (f : SlotSt → SlotSt) : (modSlot s c t f).refusals = s.refusals := rfl
@[simp] theorem modSlot_credits (c t : Nat) (f : SlotSt → SlotSt) : (modSlot s c t f).credits = s.credits := rfl
@[simp] theorem modSlot_firnWait (c t : Nat) (f : SlotSt → SlotSt) : (modSlot s c t f).firnWait = s.firnWait := rfl
@[simp] theorem modSlot_firnEnt (c t : Nat) (f : SlotSt → SlotSt) : (modSlot s c t f).firnEnt = s.firnEnt := rfl
@[simp] theorem modSlot_net (c t : Nat) (f : SlotSt → SlotSt) : (modSlot s c t f).net = s.net := rfl
@[simp] theorem modSlot_fuses (c t : Nat) (f : SlotSt → SlotSt) : (modSlot s c t f).fuses = s.fuses := rfl
@[simp] theorem modSlot_time (c t : Nat) (f : SlotSt → SlotSt) : (modSlot s c t f).time = s.time := rfl
@[simp] theorem modSlot_pwr (c t : Nat) (f : SlotSt → SlotSt) : (modSlot s c t f).pwr = s.pwr := rfl
@[simp] theorem modSlot_host (c t : Nat) (f : SlotSt → SlotSt) : (modSlot s c t f).host = s.host := rfl
@[simp] theorem modSlot_sess (c t : Nat) (f : SlotSt → SlotSt) : (modSlot s c t f).sess = s.sess := rfl
@[simp] theorem modSlot_sec (c t : Nat) (f : SlotSt → SlotSt) : (modSlot s c t f).sec = s.sec := rfl
@[simp] theorem modSlot_tap (c t : Nat) (f : SlotSt → SlotSt) : (modSlot s c t f).tap = s.tap := rfl
@[simp] theorem modSlot_mirror (c t : Nat) (f : SlotSt → SlotSt) : (modSlot s c t f).mirror = s.mirror := rfl
@[simp] theorem modSlot_serve (c t : Nat) (f : SlotSt → SlotSt) : (modSlot s c t f).serve = s.serve := rfl
@[simp] theorem modSlot_pins (c t : Nat) (f : SlotSt → SlotSt) : (modSlot s c t f).pins = s.pins := rfl
@[simp] theorem modSlot_xferId (c t : Nat) (f : SlotSt → SlotSt) : (modSlot s c t f).xferId = s.xferId := rfl
@[simp] theorem modSlot_sendNo (c t : Nat) (f : SlotSt → SlotSt) : (modSlot s c t f).sendNo = s.sendNo := rfl
@[simp] theorem modSlot_resetting (c t : Nat) (f : SlotSt → SlotSt) : (modSlot s c t f).resetting = s.resetting := rfl
@[simp] theorem modSlot_rstJob (c t : Nat) (f : SlotSt → SlotSt) : (modSlot s c t f).rstJob = s.rstJob := rfl
@[simp] theorem modSlot_alloc (c t : Nat) (f : SlotSt → SlotSt) : (modSlot s c t f).alloc = s.alloc := rfl
@[simp] theorem modSlot_draws (c t : Nat) (f : SlotSt → SlotSt) : (modSlot s c t f).draws = s.draws := rfl
@[simp] theorem modSlot_pending (c t : Nat) (f : SlotSt → SlotSt) : (modSlot s c t f).pending = s.pending := rfl

-- setDesc writes the field cores alone
@[simp] theorem setDesc_regs (c d : Nat) (x : DescSt) : (setDesc s c d x).regs = s.regs := rfl
@[simp] theorem setDesc_mem (c d : Nat) (x : DescSt) : (setDesc s c d x).mem = s.mem := rfl
@[simp] theorem setDesc_beatErr (c d : Nat) (x : DescSt) : (setDesc s c d x).beatErr = s.beatErr := rfl
@[simp] theorem setDesc_sram (c d : Nat) (x : DescSt) : (setDesc s c d x).sram = s.sram := rfl
@[simp] theorem setDesc_firnStacks (c d : Nat) (x : DescSt) : (setDesc s c d x).firnStacks = s.firnStacks := rfl
@[simp] theorem setDesc_regions (c d : Nat) (x : DescSt) : (setDesc s c d x).regions = s.regions := rfl
@[simp] theorem setDesc_clusters (c d : Nat) (x : DescSt) : (setDesc s c d x).clusters = s.clusters := rfl
@[simp] theorem setDesc_floes (c d : Nat) (x : DescSt) : (setDesc s c d x).floes = s.floes := rfl
@[simp] theorem setDesc_rails (c d : Nat) (x : DescSt) : (setDesc s c d x).rails = s.rails := rfl
@[simp] theorem setDesc_ccs (c d : Nat) (x : DescSt) : (setDesc s c d x).ccs = s.ccs := rfl
@[simp] theorem setDesc_ports (c d : Nat) (x : DescSt) : (setDesc s c d x).ports = s.ports := rfl
@[simp] theorem setDesc_tracker (c d : Nat) (x : DescSt) : (setDesc s c d x).tracker = s.tracker := rfl
@[simp] theorem setDesc_trace (c d : Nat) (x : DescSt) : (setDesc s c d x).trace = s.trace := rfl
@[simp] theorem setDesc_temps (c d : Nat) (x : DescSt) : (setDesc s c d x).temps = s.temps := rfl
@[simp] theorem setDesc_signals (c d : Nat) (x : DescSt) : (setDesc s c d x).signals = s.signals := rfl
@[simp] theorem setDesc_flights (c d : Nat) (x : DescSt) : (setDesc s c d x).flights = s.flights := rfl
@[simp] theorem setDesc_refusals (c d : Nat) (x : DescSt) : (setDesc s c d x).refusals = s.refusals := rfl
@[simp] theorem setDesc_credits (c d : Nat) (x : DescSt) : (setDesc s c d x).credits = s.credits := rfl
@[simp] theorem setDesc_firnWait (c d : Nat) (x : DescSt) : (setDesc s c d x).firnWait = s.firnWait := rfl
@[simp] theorem setDesc_firnEnt (c d : Nat) (x : DescSt) : (setDesc s c d x).firnEnt = s.firnEnt := rfl
@[simp] theorem setDesc_net (c d : Nat) (x : DescSt) : (setDesc s c d x).net = s.net := rfl
@[simp] theorem setDesc_fuses (c d : Nat) (x : DescSt) : (setDesc s c d x).fuses = s.fuses := rfl
@[simp] theorem setDesc_time (c d : Nat) (x : DescSt) : (setDesc s c d x).time = s.time := rfl
@[simp] theorem setDesc_pwr (c d : Nat) (x : DescSt) : (setDesc s c d x).pwr = s.pwr := rfl
@[simp] theorem setDesc_host (c d : Nat) (x : DescSt) : (setDesc s c d x).host = s.host := rfl
@[simp] theorem setDesc_sess (c d : Nat) (x : DescSt) : (setDesc s c d x).sess = s.sess := rfl
@[simp] theorem setDesc_sec (c d : Nat) (x : DescSt) : (setDesc s c d x).sec = s.sec := rfl
@[simp] theorem setDesc_tap (c d : Nat) (x : DescSt) : (setDesc s c d x).tap = s.tap := rfl
@[simp] theorem setDesc_mirror (c d : Nat) (x : DescSt) : (setDesc s c d x).mirror = s.mirror := rfl
@[simp] theorem setDesc_serve (c d : Nat) (x : DescSt) : (setDesc s c d x).serve = s.serve := rfl
@[simp] theorem setDesc_pins (c d : Nat) (x : DescSt) : (setDesc s c d x).pins = s.pins := rfl
@[simp] theorem setDesc_xferId (c d : Nat) (x : DescSt) : (setDesc s c d x).xferId = s.xferId := rfl
@[simp] theorem setDesc_sendNo (c d : Nat) (x : DescSt) : (setDesc s c d x).sendNo = s.sendNo := rfl
@[simp] theorem setDesc_resetting (c d : Nat) (x : DescSt) : (setDesc s c d x).resetting = s.resetting := rfl
@[simp] theorem setDesc_rstJob (c d : Nat) (x : DescSt) : (setDesc s c d x).rstJob = s.rstJob := rfl
@[simp] theorem setDesc_alloc (c d : Nat) (x : DescSt) : (setDesc s c d x).alloc = s.alloc := rfl
@[simp] theorem setDesc_draws (c d : Nat) (x : DescSt) : (setDesc s c d x).draws = s.draws := rfl
@[simp] theorem setDesc_pending (c d : Nat) (x : DescSt) : (setDesc s c d x).pending = s.pending := rfl

-- setStack writes the field firnStacks alone
@[simp] theorem setStack_regs (k : Nat) (x : StackSt) : (setStack s k x).regs = s.regs := rfl
@[simp] theorem setStack_mem (k : Nat) (x : StackSt) : (setStack s k x).mem = s.mem := rfl
@[simp] theorem setStack_beatErr (k : Nat) (x : StackSt) : (setStack s k x).beatErr = s.beatErr := rfl
@[simp] theorem setStack_sram (k : Nat) (x : StackSt) : (setStack s k x).sram = s.sram := rfl
@[simp] theorem setStack_cores (k : Nat) (x : StackSt) : (setStack s k x).cores = s.cores := rfl
@[simp] theorem setStack_regions (k : Nat) (x : StackSt) : (setStack s k x).regions = s.regions := rfl
@[simp] theorem setStack_clusters (k : Nat) (x : StackSt) : (setStack s k x).clusters = s.clusters := rfl
@[simp] theorem setStack_floes (k : Nat) (x : StackSt) : (setStack s k x).floes = s.floes := rfl
@[simp] theorem setStack_rails (k : Nat) (x : StackSt) : (setStack s k x).rails = s.rails := rfl
@[simp] theorem setStack_ccs (k : Nat) (x : StackSt) : (setStack s k x).ccs = s.ccs := rfl
@[simp] theorem setStack_ports (k : Nat) (x : StackSt) : (setStack s k x).ports = s.ports := rfl
@[simp] theorem setStack_tracker (k : Nat) (x : StackSt) : (setStack s k x).tracker = s.tracker := rfl
@[simp] theorem setStack_trace (k : Nat) (x : StackSt) : (setStack s k x).trace = s.trace := rfl
@[simp] theorem setStack_temps (k : Nat) (x : StackSt) : (setStack s k x).temps = s.temps := rfl
@[simp] theorem setStack_signals (k : Nat) (x : StackSt) : (setStack s k x).signals = s.signals := rfl
@[simp] theorem setStack_flights (k : Nat) (x : StackSt) : (setStack s k x).flights = s.flights := rfl
@[simp] theorem setStack_refusals (k : Nat) (x : StackSt) : (setStack s k x).refusals = s.refusals := rfl
@[simp] theorem setStack_credits (k : Nat) (x : StackSt) : (setStack s k x).credits = s.credits := rfl
@[simp] theorem setStack_firnWait (k : Nat) (x : StackSt) : (setStack s k x).firnWait = s.firnWait := rfl
@[simp] theorem setStack_firnEnt (k : Nat) (x : StackSt) : (setStack s k x).firnEnt = s.firnEnt := rfl
@[simp] theorem setStack_net (k : Nat) (x : StackSt) : (setStack s k x).net = s.net := rfl
@[simp] theorem setStack_fuses (k : Nat) (x : StackSt) : (setStack s k x).fuses = s.fuses := rfl
@[simp] theorem setStack_time (k : Nat) (x : StackSt) : (setStack s k x).time = s.time := rfl
@[simp] theorem setStack_pwr (k : Nat) (x : StackSt) : (setStack s k x).pwr = s.pwr := rfl
@[simp] theorem setStack_host (k : Nat) (x : StackSt) : (setStack s k x).host = s.host := rfl
@[simp] theorem setStack_sess (k : Nat) (x : StackSt) : (setStack s k x).sess = s.sess := rfl
@[simp] theorem setStack_sec (k : Nat) (x : StackSt) : (setStack s k x).sec = s.sec := rfl
@[simp] theorem setStack_tap (k : Nat) (x : StackSt) : (setStack s k x).tap = s.tap := rfl
@[simp] theorem setStack_mirror (k : Nat) (x : StackSt) : (setStack s k x).mirror = s.mirror := rfl
@[simp] theorem setStack_serve (k : Nat) (x : StackSt) : (setStack s k x).serve = s.serve := rfl
@[simp] theorem setStack_pins (k : Nat) (x : StackSt) : (setStack s k x).pins = s.pins := rfl
@[simp] theorem setStack_xferId (k : Nat) (x : StackSt) : (setStack s k x).xferId = s.xferId := rfl
@[simp] theorem setStack_sendNo (k : Nat) (x : StackSt) : (setStack s k x).sendNo = s.sendNo := rfl
@[simp] theorem setStack_resetting (k : Nat) (x : StackSt) : (setStack s k x).resetting = s.resetting := rfl
@[simp] theorem setStack_rstJob (k : Nat) (x : StackSt) : (setStack s k x).rstJob = s.rstJob := rfl
@[simp] theorem setStack_alloc (k : Nat) (x : StackSt) : (setStack s k x).alloc = s.alloc := rfl
@[simp] theorem setStack_draws (k : Nat) (x : StackSt) : (setStack s k x).draws = s.draws := rfl
@[simp] theorem setStack_pending (k : Nat) (x : StackSt) : (setStack s k x).pending = s.pending := rfl

-- setRegion writes the field regions alone
@[simp] theorem setRegion_regs (r : Nat) (x : RegionSt) : (setRegion s r x).regs = s.regs := rfl
@[simp] theorem setRegion_mem (r : Nat) (x : RegionSt) : (setRegion s r x).mem = s.mem := rfl
@[simp] theorem setRegion_beatErr (r : Nat) (x : RegionSt) : (setRegion s r x).beatErr = s.beatErr := rfl
@[simp] theorem setRegion_sram (r : Nat) (x : RegionSt) : (setRegion s r x).sram = s.sram := rfl
@[simp] theorem setRegion_cores (r : Nat) (x : RegionSt) : (setRegion s r x).cores = s.cores := rfl
@[simp] theorem setRegion_firnStacks (r : Nat) (x : RegionSt) : (setRegion s r x).firnStacks = s.firnStacks := rfl
@[simp] theorem setRegion_clusters (r : Nat) (x : RegionSt) : (setRegion s r x).clusters = s.clusters := rfl
@[simp] theorem setRegion_floes (r : Nat) (x : RegionSt) : (setRegion s r x).floes = s.floes := rfl
@[simp] theorem setRegion_rails (r : Nat) (x : RegionSt) : (setRegion s r x).rails = s.rails := rfl
@[simp] theorem setRegion_ccs (r : Nat) (x : RegionSt) : (setRegion s r x).ccs = s.ccs := rfl
@[simp] theorem setRegion_ports (r : Nat) (x : RegionSt) : (setRegion s r x).ports = s.ports := rfl
@[simp] theorem setRegion_tracker (r : Nat) (x : RegionSt) : (setRegion s r x).tracker = s.tracker := rfl
@[simp] theorem setRegion_trace (r : Nat) (x : RegionSt) : (setRegion s r x).trace = s.trace := rfl
@[simp] theorem setRegion_temps (r : Nat) (x : RegionSt) : (setRegion s r x).temps = s.temps := rfl
@[simp] theorem setRegion_signals (r : Nat) (x : RegionSt) : (setRegion s r x).signals = s.signals := rfl
@[simp] theorem setRegion_flights (r : Nat) (x : RegionSt) : (setRegion s r x).flights = s.flights := rfl
@[simp] theorem setRegion_refusals (r : Nat) (x : RegionSt) : (setRegion s r x).refusals = s.refusals := rfl
@[simp] theorem setRegion_credits (r : Nat) (x : RegionSt) : (setRegion s r x).credits = s.credits := rfl
@[simp] theorem setRegion_firnWait (r : Nat) (x : RegionSt) : (setRegion s r x).firnWait = s.firnWait := rfl
@[simp] theorem setRegion_firnEnt (r : Nat) (x : RegionSt) : (setRegion s r x).firnEnt = s.firnEnt := rfl
@[simp] theorem setRegion_net (r : Nat) (x : RegionSt) : (setRegion s r x).net = s.net := rfl
@[simp] theorem setRegion_fuses (r : Nat) (x : RegionSt) : (setRegion s r x).fuses = s.fuses := rfl
@[simp] theorem setRegion_time (r : Nat) (x : RegionSt) : (setRegion s r x).time = s.time := rfl
@[simp] theorem setRegion_pwr (r : Nat) (x : RegionSt) : (setRegion s r x).pwr = s.pwr := rfl
@[simp] theorem setRegion_host (r : Nat) (x : RegionSt) : (setRegion s r x).host = s.host := rfl
@[simp] theorem setRegion_sess (r : Nat) (x : RegionSt) : (setRegion s r x).sess = s.sess := rfl
@[simp] theorem setRegion_sec (r : Nat) (x : RegionSt) : (setRegion s r x).sec = s.sec := rfl
@[simp] theorem setRegion_tap (r : Nat) (x : RegionSt) : (setRegion s r x).tap = s.tap := rfl
@[simp] theorem setRegion_mirror (r : Nat) (x : RegionSt) : (setRegion s r x).mirror = s.mirror := rfl
@[simp] theorem setRegion_serve (r : Nat) (x : RegionSt) : (setRegion s r x).serve = s.serve := rfl
@[simp] theorem setRegion_pins (r : Nat) (x : RegionSt) : (setRegion s r x).pins = s.pins := rfl
@[simp] theorem setRegion_xferId (r : Nat) (x : RegionSt) : (setRegion s r x).xferId = s.xferId := rfl
@[simp] theorem setRegion_sendNo (r : Nat) (x : RegionSt) : (setRegion s r x).sendNo = s.sendNo := rfl
@[simp] theorem setRegion_resetting (r : Nat) (x : RegionSt) : (setRegion s r x).resetting = s.resetting := rfl
@[simp] theorem setRegion_rstJob (r : Nat) (x : RegionSt) : (setRegion s r x).rstJob = s.rstJob := rfl
@[simp] theorem setRegion_alloc (r : Nat) (x : RegionSt) : (setRegion s r x).alloc = s.alloc := rfl
@[simp] theorem setRegion_draws (r : Nat) (x : RegionSt) : (setRegion s r x).draws = s.draws := rfl
@[simp] theorem setRegion_pending (r : Nat) (x : RegionSt) : (setRegion s r x).pending = s.pending := rfl

-- setCluster writes the field clusters alone
@[simp] theorem setCluster_regs (c : Nat) (x : ClusterSt) : (setCluster s c x).regs = s.regs := rfl
@[simp] theorem setCluster_mem (c : Nat) (x : ClusterSt) : (setCluster s c x).mem = s.mem := rfl
@[simp] theorem setCluster_beatErr (c : Nat) (x : ClusterSt) : (setCluster s c x).beatErr = s.beatErr := rfl
@[simp] theorem setCluster_sram (c : Nat) (x : ClusterSt) : (setCluster s c x).sram = s.sram := rfl
@[simp] theorem setCluster_cores (c : Nat) (x : ClusterSt) : (setCluster s c x).cores = s.cores := rfl
@[simp] theorem setCluster_firnStacks (c : Nat) (x : ClusterSt) : (setCluster s c x).firnStacks = s.firnStacks := rfl
@[simp] theorem setCluster_regions (c : Nat) (x : ClusterSt) : (setCluster s c x).regions = s.regions := rfl
@[simp] theorem setCluster_floes (c : Nat) (x : ClusterSt) : (setCluster s c x).floes = s.floes := rfl
@[simp] theorem setCluster_rails (c : Nat) (x : ClusterSt) : (setCluster s c x).rails = s.rails := rfl
@[simp] theorem setCluster_ccs (c : Nat) (x : ClusterSt) : (setCluster s c x).ccs = s.ccs := rfl
@[simp] theorem setCluster_ports (c : Nat) (x : ClusterSt) : (setCluster s c x).ports = s.ports := rfl
@[simp] theorem setCluster_tracker (c : Nat) (x : ClusterSt) : (setCluster s c x).tracker = s.tracker := rfl
@[simp] theorem setCluster_trace (c : Nat) (x : ClusterSt) : (setCluster s c x).trace = s.trace := rfl
@[simp] theorem setCluster_temps (c : Nat) (x : ClusterSt) : (setCluster s c x).temps = s.temps := rfl
@[simp] theorem setCluster_signals (c : Nat) (x : ClusterSt) : (setCluster s c x).signals = s.signals := rfl
@[simp] theorem setCluster_flights (c : Nat) (x : ClusterSt) : (setCluster s c x).flights = s.flights := rfl
@[simp] theorem setCluster_refusals (c : Nat) (x : ClusterSt) : (setCluster s c x).refusals = s.refusals := rfl
@[simp] theorem setCluster_credits (c : Nat) (x : ClusterSt) : (setCluster s c x).credits = s.credits := rfl
@[simp] theorem setCluster_firnWait (c : Nat) (x : ClusterSt) : (setCluster s c x).firnWait = s.firnWait := rfl
@[simp] theorem setCluster_firnEnt (c : Nat) (x : ClusterSt) : (setCluster s c x).firnEnt = s.firnEnt := rfl
@[simp] theorem setCluster_net (c : Nat) (x : ClusterSt) : (setCluster s c x).net = s.net := rfl
@[simp] theorem setCluster_fuses (c : Nat) (x : ClusterSt) : (setCluster s c x).fuses = s.fuses := rfl
@[simp] theorem setCluster_time (c : Nat) (x : ClusterSt) : (setCluster s c x).time = s.time := rfl
@[simp] theorem setCluster_pwr (c : Nat) (x : ClusterSt) : (setCluster s c x).pwr = s.pwr := rfl
@[simp] theorem setCluster_host (c : Nat) (x : ClusterSt) : (setCluster s c x).host = s.host := rfl
@[simp] theorem setCluster_sess (c : Nat) (x : ClusterSt) : (setCluster s c x).sess = s.sess := rfl
@[simp] theorem setCluster_sec (c : Nat) (x : ClusterSt) : (setCluster s c x).sec = s.sec := rfl
@[simp] theorem setCluster_tap (c : Nat) (x : ClusterSt) : (setCluster s c x).tap = s.tap := rfl
@[simp] theorem setCluster_mirror (c : Nat) (x : ClusterSt) : (setCluster s c x).mirror = s.mirror := rfl
@[simp] theorem setCluster_serve (c : Nat) (x : ClusterSt) : (setCluster s c x).serve = s.serve := rfl
@[simp] theorem setCluster_pins (c : Nat) (x : ClusterSt) : (setCluster s c x).pins = s.pins := rfl
@[simp] theorem setCluster_xferId (c : Nat) (x : ClusterSt) : (setCluster s c x).xferId = s.xferId := rfl
@[simp] theorem setCluster_sendNo (c : Nat) (x : ClusterSt) : (setCluster s c x).sendNo = s.sendNo := rfl
@[simp] theorem setCluster_resetting (c : Nat) (x : ClusterSt) : (setCluster s c x).resetting = s.resetting := rfl
@[simp] theorem setCluster_rstJob (c : Nat) (x : ClusterSt) : (setCluster s c x).rstJob = s.rstJob := rfl
@[simp] theorem setCluster_alloc (c : Nat) (x : ClusterSt) : (setCluster s c x).alloc = s.alloc := rfl
@[simp] theorem setCluster_draws (c : Nat) (x : ClusterSt) : (setCluster s c x).draws = s.draws := rfl
@[simp] theorem setCluster_pending (c : Nat) (x : ClusterSt) : (setCluster s c x).pending = s.pending := rfl

-- setFloe writes the field floes alone
@[simp] theorem setFloe_regs (cl f : Nat) (x : FloeSt) : (setFloe s cl f x).regs = s.regs := rfl
@[simp] theorem setFloe_mem (cl f : Nat) (x : FloeSt) : (setFloe s cl f x).mem = s.mem := rfl
@[simp] theorem setFloe_beatErr (cl f : Nat) (x : FloeSt) : (setFloe s cl f x).beatErr = s.beatErr := rfl
@[simp] theorem setFloe_sram (cl f : Nat) (x : FloeSt) : (setFloe s cl f x).sram = s.sram := rfl
@[simp] theorem setFloe_cores (cl f : Nat) (x : FloeSt) : (setFloe s cl f x).cores = s.cores := rfl
@[simp] theorem setFloe_firnStacks (cl f : Nat) (x : FloeSt) : (setFloe s cl f x).firnStacks = s.firnStacks := rfl
@[simp] theorem setFloe_regions (cl f : Nat) (x : FloeSt) : (setFloe s cl f x).regions = s.regions := rfl
@[simp] theorem setFloe_clusters (cl f : Nat) (x : FloeSt) : (setFloe s cl f x).clusters = s.clusters := rfl
@[simp] theorem setFloe_rails (cl f : Nat) (x : FloeSt) : (setFloe s cl f x).rails = s.rails := rfl
@[simp] theorem setFloe_ccs (cl f : Nat) (x : FloeSt) : (setFloe s cl f x).ccs = s.ccs := rfl
@[simp] theorem setFloe_ports (cl f : Nat) (x : FloeSt) : (setFloe s cl f x).ports = s.ports := rfl
@[simp] theorem setFloe_tracker (cl f : Nat) (x : FloeSt) : (setFloe s cl f x).tracker = s.tracker := rfl
@[simp] theorem setFloe_trace (cl f : Nat) (x : FloeSt) : (setFloe s cl f x).trace = s.trace := rfl
@[simp] theorem setFloe_temps (cl f : Nat) (x : FloeSt) : (setFloe s cl f x).temps = s.temps := rfl
@[simp] theorem setFloe_signals (cl f : Nat) (x : FloeSt) : (setFloe s cl f x).signals = s.signals := rfl
@[simp] theorem setFloe_flights (cl f : Nat) (x : FloeSt) : (setFloe s cl f x).flights = s.flights := rfl
@[simp] theorem setFloe_refusals (cl f : Nat) (x : FloeSt) : (setFloe s cl f x).refusals = s.refusals := rfl
@[simp] theorem setFloe_credits (cl f : Nat) (x : FloeSt) : (setFloe s cl f x).credits = s.credits := rfl
@[simp] theorem setFloe_firnWait (cl f : Nat) (x : FloeSt) : (setFloe s cl f x).firnWait = s.firnWait := rfl
@[simp] theorem setFloe_firnEnt (cl f : Nat) (x : FloeSt) : (setFloe s cl f x).firnEnt = s.firnEnt := rfl
@[simp] theorem setFloe_net (cl f : Nat) (x : FloeSt) : (setFloe s cl f x).net = s.net := rfl
@[simp] theorem setFloe_fuses (cl f : Nat) (x : FloeSt) : (setFloe s cl f x).fuses = s.fuses := rfl
@[simp] theorem setFloe_time (cl f : Nat) (x : FloeSt) : (setFloe s cl f x).time = s.time := rfl
@[simp] theorem setFloe_pwr (cl f : Nat) (x : FloeSt) : (setFloe s cl f x).pwr = s.pwr := rfl
@[simp] theorem setFloe_host (cl f : Nat) (x : FloeSt) : (setFloe s cl f x).host = s.host := rfl
@[simp] theorem setFloe_sess (cl f : Nat) (x : FloeSt) : (setFloe s cl f x).sess = s.sess := rfl
@[simp] theorem setFloe_sec (cl f : Nat) (x : FloeSt) : (setFloe s cl f x).sec = s.sec := rfl
@[simp] theorem setFloe_tap (cl f : Nat) (x : FloeSt) : (setFloe s cl f x).tap = s.tap := rfl
@[simp] theorem setFloe_mirror (cl f : Nat) (x : FloeSt) : (setFloe s cl f x).mirror = s.mirror := rfl
@[simp] theorem setFloe_serve (cl f : Nat) (x : FloeSt) : (setFloe s cl f x).serve = s.serve := rfl
@[simp] theorem setFloe_pins (cl f : Nat) (x : FloeSt) : (setFloe s cl f x).pins = s.pins := rfl
@[simp] theorem setFloe_xferId (cl f : Nat) (x : FloeSt) : (setFloe s cl f x).xferId = s.xferId := rfl
@[simp] theorem setFloe_sendNo (cl f : Nat) (x : FloeSt) : (setFloe s cl f x).sendNo = s.sendNo := rfl
@[simp] theorem setFloe_resetting (cl f : Nat) (x : FloeSt) : (setFloe s cl f x).resetting = s.resetting := rfl
@[simp] theorem setFloe_rstJob (cl f : Nat) (x : FloeSt) : (setFloe s cl f x).rstJob = s.rstJob := rfl
@[simp] theorem setFloe_alloc (cl f : Nat) (x : FloeSt) : (setFloe s cl f x).alloc = s.alloc := rfl
@[simp] theorem setFloe_draws (cl f : Nat) (x : FloeSt) : (setFloe s cl f x).draws = s.draws := rfl
@[simp] theorem setFloe_pending (cl f : Nat) (x : FloeSt) : (setFloe s cl f x).pending = s.pending := rfl

-- setRail writes the field rails alone
@[simp] theorem setRail_regs (d : Nat) (x : RailSt) : (setRail s d x).regs = s.regs := rfl
@[simp] theorem setRail_mem (d : Nat) (x : RailSt) : (setRail s d x).mem = s.mem := rfl
@[simp] theorem setRail_beatErr (d : Nat) (x : RailSt) : (setRail s d x).beatErr = s.beatErr := rfl
@[simp] theorem setRail_sram (d : Nat) (x : RailSt) : (setRail s d x).sram = s.sram := rfl
@[simp] theorem setRail_cores (d : Nat) (x : RailSt) : (setRail s d x).cores = s.cores := rfl
@[simp] theorem setRail_firnStacks (d : Nat) (x : RailSt) : (setRail s d x).firnStacks = s.firnStacks := rfl
@[simp] theorem setRail_regions (d : Nat) (x : RailSt) : (setRail s d x).regions = s.regions := rfl
@[simp] theorem setRail_clusters (d : Nat) (x : RailSt) : (setRail s d x).clusters = s.clusters := rfl
@[simp] theorem setRail_floes (d : Nat) (x : RailSt) : (setRail s d x).floes = s.floes := rfl
@[simp] theorem setRail_ccs (d : Nat) (x : RailSt) : (setRail s d x).ccs = s.ccs := rfl
@[simp] theorem setRail_ports (d : Nat) (x : RailSt) : (setRail s d x).ports = s.ports := rfl
@[simp] theorem setRail_tracker (d : Nat) (x : RailSt) : (setRail s d x).tracker = s.tracker := rfl
@[simp] theorem setRail_trace (d : Nat) (x : RailSt) : (setRail s d x).trace = s.trace := rfl
@[simp] theorem setRail_temps (d : Nat) (x : RailSt) : (setRail s d x).temps = s.temps := rfl
@[simp] theorem setRail_signals (d : Nat) (x : RailSt) : (setRail s d x).signals = s.signals := rfl
@[simp] theorem setRail_flights (d : Nat) (x : RailSt) : (setRail s d x).flights = s.flights := rfl
@[simp] theorem setRail_refusals (d : Nat) (x : RailSt) : (setRail s d x).refusals = s.refusals := rfl
@[simp] theorem setRail_credits (d : Nat) (x : RailSt) : (setRail s d x).credits = s.credits := rfl
@[simp] theorem setRail_firnWait (d : Nat) (x : RailSt) : (setRail s d x).firnWait = s.firnWait := rfl
@[simp] theorem setRail_firnEnt (d : Nat) (x : RailSt) : (setRail s d x).firnEnt = s.firnEnt := rfl
@[simp] theorem setRail_net (d : Nat) (x : RailSt) : (setRail s d x).net = s.net := rfl
@[simp] theorem setRail_fuses (d : Nat) (x : RailSt) : (setRail s d x).fuses = s.fuses := rfl
@[simp] theorem setRail_time (d : Nat) (x : RailSt) : (setRail s d x).time = s.time := rfl
@[simp] theorem setRail_pwr (d : Nat) (x : RailSt) : (setRail s d x).pwr = s.pwr := rfl
@[simp] theorem setRail_host (d : Nat) (x : RailSt) : (setRail s d x).host = s.host := rfl
@[simp] theorem setRail_sess (d : Nat) (x : RailSt) : (setRail s d x).sess = s.sess := rfl
@[simp] theorem setRail_sec (d : Nat) (x : RailSt) : (setRail s d x).sec = s.sec := rfl
@[simp] theorem setRail_tap (d : Nat) (x : RailSt) : (setRail s d x).tap = s.tap := rfl
@[simp] theorem setRail_mirror (d : Nat) (x : RailSt) : (setRail s d x).mirror = s.mirror := rfl
@[simp] theorem setRail_serve (d : Nat) (x : RailSt) : (setRail s d x).serve = s.serve := rfl
@[simp] theorem setRail_pins (d : Nat) (x : RailSt) : (setRail s d x).pins = s.pins := rfl
@[simp] theorem setRail_xferId (d : Nat) (x : RailSt) : (setRail s d x).xferId = s.xferId := rfl
@[simp] theorem setRail_sendNo (d : Nat) (x : RailSt) : (setRail s d x).sendNo = s.sendNo := rfl
@[simp] theorem setRail_resetting (d : Nat) (x : RailSt) : (setRail s d x).resetting = s.resetting := rfl
@[simp] theorem setRail_rstJob (d : Nat) (x : RailSt) : (setRail s d x).rstJob = s.rstJob := rfl
@[simp] theorem setRail_alloc (d : Nat) (x : RailSt) : (setRail s d x).alloc = s.alloc := rfl
@[simp] theorem setRail_draws (d : Nat) (x : RailSt) : (setRail s d x).draws = s.draws := rfl
@[simp] theorem setRail_pending (d : Nat) (x : RailSt) : (setRail s d x).pending = s.pending := rfl

-- setCc writes the field ccs alone
@[simp] theorem setCc_regs (k : Nat) (x : CcSt) : (setCc s k x).regs = s.regs := rfl
@[simp] theorem setCc_mem (k : Nat) (x : CcSt) : (setCc s k x).mem = s.mem := rfl
@[simp] theorem setCc_beatErr (k : Nat) (x : CcSt) : (setCc s k x).beatErr = s.beatErr := rfl
@[simp] theorem setCc_sram (k : Nat) (x : CcSt) : (setCc s k x).sram = s.sram := rfl
@[simp] theorem setCc_cores (k : Nat) (x : CcSt) : (setCc s k x).cores = s.cores := rfl
@[simp] theorem setCc_firnStacks (k : Nat) (x : CcSt) : (setCc s k x).firnStacks = s.firnStacks := rfl
@[simp] theorem setCc_regions (k : Nat) (x : CcSt) : (setCc s k x).regions = s.regions := rfl
@[simp] theorem setCc_clusters (k : Nat) (x : CcSt) : (setCc s k x).clusters = s.clusters := rfl
@[simp] theorem setCc_floes (k : Nat) (x : CcSt) : (setCc s k x).floes = s.floes := rfl
@[simp] theorem setCc_rails (k : Nat) (x : CcSt) : (setCc s k x).rails = s.rails := rfl
@[simp] theorem setCc_ports (k : Nat) (x : CcSt) : (setCc s k x).ports = s.ports := rfl
@[simp] theorem setCc_tracker (k : Nat) (x : CcSt) : (setCc s k x).tracker = s.tracker := rfl
@[simp] theorem setCc_trace (k : Nat) (x : CcSt) : (setCc s k x).trace = s.trace := rfl
@[simp] theorem setCc_temps (k : Nat) (x : CcSt) : (setCc s k x).temps = s.temps := rfl
@[simp] theorem setCc_signals (k : Nat) (x : CcSt) : (setCc s k x).signals = s.signals := rfl
@[simp] theorem setCc_flights (k : Nat) (x : CcSt) : (setCc s k x).flights = s.flights := rfl
@[simp] theorem setCc_refusals (k : Nat) (x : CcSt) : (setCc s k x).refusals = s.refusals := rfl
@[simp] theorem setCc_credits (k : Nat) (x : CcSt) : (setCc s k x).credits = s.credits := rfl
@[simp] theorem setCc_firnWait (k : Nat) (x : CcSt) : (setCc s k x).firnWait = s.firnWait := rfl
@[simp] theorem setCc_firnEnt (k : Nat) (x : CcSt) : (setCc s k x).firnEnt = s.firnEnt := rfl
@[simp] theorem setCc_net (k : Nat) (x : CcSt) : (setCc s k x).net = s.net := rfl
@[simp] theorem setCc_fuses (k : Nat) (x : CcSt) : (setCc s k x).fuses = s.fuses := rfl
@[simp] theorem setCc_time (k : Nat) (x : CcSt) : (setCc s k x).time = s.time := rfl
@[simp] theorem setCc_pwr (k : Nat) (x : CcSt) : (setCc s k x).pwr = s.pwr := rfl
@[simp] theorem setCc_host (k : Nat) (x : CcSt) : (setCc s k x).host = s.host := rfl
@[simp] theorem setCc_sess (k : Nat) (x : CcSt) : (setCc s k x).sess = s.sess := rfl
@[simp] theorem setCc_sec (k : Nat) (x : CcSt) : (setCc s k x).sec = s.sec := rfl
@[simp] theorem setCc_tap (k : Nat) (x : CcSt) : (setCc s k x).tap = s.tap := rfl
@[simp] theorem setCc_mirror (k : Nat) (x : CcSt) : (setCc s k x).mirror = s.mirror := rfl
@[simp] theorem setCc_serve (k : Nat) (x : CcSt) : (setCc s k x).serve = s.serve := rfl
@[simp] theorem setCc_pins (k : Nat) (x : CcSt) : (setCc s k x).pins = s.pins := rfl
@[simp] theorem setCc_xferId (k : Nat) (x : CcSt) : (setCc s k x).xferId = s.xferId := rfl
@[simp] theorem setCc_sendNo (k : Nat) (x : CcSt) : (setCc s k x).sendNo = s.sendNo := rfl
@[simp] theorem setCc_resetting (k : Nat) (x : CcSt) : (setCc s k x).resetting = s.resetting := rfl
@[simp] theorem setCc_rstJob (k : Nat) (x : CcSt) : (setCc s k x).rstJob = s.rstJob := rfl
@[simp] theorem setCc_alloc (k : Nat) (x : CcSt) : (setCc s k x).alloc = s.alloc := rfl
@[simp] theorem setCc_draws (k : Nat) (x : CcSt) : (setCc s k x).draws = s.draws := rfl
@[simp] theorem setCc_pending (k : Nat) (x : CcSt) : (setCc s k x).pending = s.pending := rfl

-- setPort writes the field ports alone
@[simp] theorem setPort_regs (p : Nat) (x : PortSt) : (setPort s p x).regs = s.regs := rfl
@[simp] theorem setPort_mem (p : Nat) (x : PortSt) : (setPort s p x).mem = s.mem := rfl
@[simp] theorem setPort_beatErr (p : Nat) (x : PortSt) : (setPort s p x).beatErr = s.beatErr := rfl
@[simp] theorem setPort_sram (p : Nat) (x : PortSt) : (setPort s p x).sram = s.sram := rfl
@[simp] theorem setPort_cores (p : Nat) (x : PortSt) : (setPort s p x).cores = s.cores := rfl
@[simp] theorem setPort_firnStacks (p : Nat) (x : PortSt) : (setPort s p x).firnStacks = s.firnStacks := rfl
@[simp] theorem setPort_regions (p : Nat) (x : PortSt) : (setPort s p x).regions = s.regions := rfl
@[simp] theorem setPort_clusters (p : Nat) (x : PortSt) : (setPort s p x).clusters = s.clusters := rfl
@[simp] theorem setPort_floes (p : Nat) (x : PortSt) : (setPort s p x).floes = s.floes := rfl
@[simp] theorem setPort_rails (p : Nat) (x : PortSt) : (setPort s p x).rails = s.rails := rfl
@[simp] theorem setPort_ccs (p : Nat) (x : PortSt) : (setPort s p x).ccs = s.ccs := rfl
@[simp] theorem setPort_tracker (p : Nat) (x : PortSt) : (setPort s p x).tracker = s.tracker := rfl
@[simp] theorem setPort_trace (p : Nat) (x : PortSt) : (setPort s p x).trace = s.trace := rfl
@[simp] theorem setPort_temps (p : Nat) (x : PortSt) : (setPort s p x).temps = s.temps := rfl
@[simp] theorem setPort_signals (p : Nat) (x : PortSt) : (setPort s p x).signals = s.signals := rfl
@[simp] theorem setPort_flights (p : Nat) (x : PortSt) : (setPort s p x).flights = s.flights := rfl
@[simp] theorem setPort_refusals (p : Nat) (x : PortSt) : (setPort s p x).refusals = s.refusals := rfl
@[simp] theorem setPort_credits (p : Nat) (x : PortSt) : (setPort s p x).credits = s.credits := rfl
@[simp] theorem setPort_firnWait (p : Nat) (x : PortSt) : (setPort s p x).firnWait = s.firnWait := rfl
@[simp] theorem setPort_firnEnt (p : Nat) (x : PortSt) : (setPort s p x).firnEnt = s.firnEnt := rfl
@[simp] theorem setPort_net (p : Nat) (x : PortSt) : (setPort s p x).net = s.net := rfl
@[simp] theorem setPort_fuses (p : Nat) (x : PortSt) : (setPort s p x).fuses = s.fuses := rfl
@[simp] theorem setPort_time (p : Nat) (x : PortSt) : (setPort s p x).time = s.time := rfl
@[simp] theorem setPort_pwr (p : Nat) (x : PortSt) : (setPort s p x).pwr = s.pwr := rfl
@[simp] theorem setPort_host (p : Nat) (x : PortSt) : (setPort s p x).host = s.host := rfl
@[simp] theorem setPort_sess (p : Nat) (x : PortSt) : (setPort s p x).sess = s.sess := rfl
@[simp] theorem setPort_sec (p : Nat) (x : PortSt) : (setPort s p x).sec = s.sec := rfl
@[simp] theorem setPort_tap (p : Nat) (x : PortSt) : (setPort s p x).tap = s.tap := rfl
@[simp] theorem setPort_mirror (p : Nat) (x : PortSt) : (setPort s p x).mirror = s.mirror := rfl
@[simp] theorem setPort_serve (p : Nat) (x : PortSt) : (setPort s p x).serve = s.serve := rfl
@[simp] theorem setPort_pins (p : Nat) (x : PortSt) : (setPort s p x).pins = s.pins := rfl
@[simp] theorem setPort_xferId (p : Nat) (x : PortSt) : (setPort s p x).xferId = s.xferId := rfl
@[simp] theorem setPort_sendNo (p : Nat) (x : PortSt) : (setPort s p x).sendNo = s.sendNo := rfl
@[simp] theorem setPort_resetting (p : Nat) (x : PortSt) : (setPort s p x).resetting = s.resetting := rfl
@[simp] theorem setPort_rstJob (p : Nat) (x : PortSt) : (setPort s p x).rstJob = s.rstJob := rfl
@[simp] theorem setPort_alloc (p : Nat) (x : PortSt) : (setPort s p x).alloc = s.alloc := rfl
@[simp] theorem setPort_draws (p : Nat) (x : PortSt) : (setPort s p x).draws = s.draws := rfl
@[simp] theorem setPort_pending (p : Nat) (x : PortSt) : (setPort s p x).pending = s.pending := rfl

-- setTrk writes the field tracker alone
@[simp] theorem setTrk_regs (t : Nat) (x : TrkEnt) : (setTrk s t x).regs = s.regs := rfl
@[simp] theorem setTrk_mem (t : Nat) (x : TrkEnt) : (setTrk s t x).mem = s.mem := rfl
@[simp] theorem setTrk_beatErr (t : Nat) (x : TrkEnt) : (setTrk s t x).beatErr = s.beatErr := rfl
@[simp] theorem setTrk_sram (t : Nat) (x : TrkEnt) : (setTrk s t x).sram = s.sram := rfl
@[simp] theorem setTrk_cores (t : Nat) (x : TrkEnt) : (setTrk s t x).cores = s.cores := rfl
@[simp] theorem setTrk_firnStacks (t : Nat) (x : TrkEnt) : (setTrk s t x).firnStacks = s.firnStacks := rfl
@[simp] theorem setTrk_regions (t : Nat) (x : TrkEnt) : (setTrk s t x).regions = s.regions := rfl
@[simp] theorem setTrk_clusters (t : Nat) (x : TrkEnt) : (setTrk s t x).clusters = s.clusters := rfl
@[simp] theorem setTrk_floes (t : Nat) (x : TrkEnt) : (setTrk s t x).floes = s.floes := rfl
@[simp] theorem setTrk_rails (t : Nat) (x : TrkEnt) : (setTrk s t x).rails = s.rails := rfl
@[simp] theorem setTrk_ccs (t : Nat) (x : TrkEnt) : (setTrk s t x).ccs = s.ccs := rfl
@[simp] theorem setTrk_ports (t : Nat) (x : TrkEnt) : (setTrk s t x).ports = s.ports := rfl
@[simp] theorem setTrk_trace (t : Nat) (x : TrkEnt) : (setTrk s t x).trace = s.trace := rfl
@[simp] theorem setTrk_temps (t : Nat) (x : TrkEnt) : (setTrk s t x).temps = s.temps := rfl
@[simp] theorem setTrk_signals (t : Nat) (x : TrkEnt) : (setTrk s t x).signals = s.signals := rfl
@[simp] theorem setTrk_flights (t : Nat) (x : TrkEnt) : (setTrk s t x).flights = s.flights := rfl
@[simp] theorem setTrk_refusals (t : Nat) (x : TrkEnt) : (setTrk s t x).refusals = s.refusals := rfl
@[simp] theorem setTrk_credits (t : Nat) (x : TrkEnt) : (setTrk s t x).credits = s.credits := rfl
@[simp] theorem setTrk_firnWait (t : Nat) (x : TrkEnt) : (setTrk s t x).firnWait = s.firnWait := rfl
@[simp] theorem setTrk_firnEnt (t : Nat) (x : TrkEnt) : (setTrk s t x).firnEnt = s.firnEnt := rfl
@[simp] theorem setTrk_net (t : Nat) (x : TrkEnt) : (setTrk s t x).net = s.net := rfl
@[simp] theorem setTrk_fuses (t : Nat) (x : TrkEnt) : (setTrk s t x).fuses = s.fuses := rfl
@[simp] theorem setTrk_time (t : Nat) (x : TrkEnt) : (setTrk s t x).time = s.time := rfl
@[simp] theorem setTrk_pwr (t : Nat) (x : TrkEnt) : (setTrk s t x).pwr = s.pwr := rfl
@[simp] theorem setTrk_host (t : Nat) (x : TrkEnt) : (setTrk s t x).host = s.host := rfl
@[simp] theorem setTrk_sess (t : Nat) (x : TrkEnt) : (setTrk s t x).sess = s.sess := rfl
@[simp] theorem setTrk_sec (t : Nat) (x : TrkEnt) : (setTrk s t x).sec = s.sec := rfl
@[simp] theorem setTrk_tap (t : Nat) (x : TrkEnt) : (setTrk s t x).tap = s.tap := rfl
@[simp] theorem setTrk_mirror (t : Nat) (x : TrkEnt) : (setTrk s t x).mirror = s.mirror := rfl
@[simp] theorem setTrk_serve (t : Nat) (x : TrkEnt) : (setTrk s t x).serve = s.serve := rfl
@[simp] theorem setTrk_pins (t : Nat) (x : TrkEnt) : (setTrk s t x).pins = s.pins := rfl
@[simp] theorem setTrk_xferId (t : Nat) (x : TrkEnt) : (setTrk s t x).xferId = s.xferId := rfl
@[simp] theorem setTrk_sendNo (t : Nat) (x : TrkEnt) : (setTrk s t x).sendNo = s.sendNo := rfl
@[simp] theorem setTrk_resetting (t : Nat) (x : TrkEnt) : (setTrk s t x).resetting = s.resetting := rfl
@[simp] theorem setTrk_rstJob (t : Nat) (x : TrkEnt) : (setTrk s t x).rstJob = s.rstJob := rfl
@[simp] theorem setTrk_alloc (t : Nat) (x : TrkEnt) : (setTrk s t x).alloc = s.alloc := rfl
@[simp] theorem setTrk_draws (t : Nat) (x : TrkEnt) : (setTrk s t x).draws = s.draws := rfl
@[simp] theorem setTrk_pending (t : Nat) (x : TrkEnt) : (setTrk s t x).pending = s.pending := rfl

-- setOut writes the field net alone
@[simp] theorem setOut_regs (k : Nat) (q : List NetItem) : (setOut s k q).regs = s.regs := rfl
@[simp] theorem setOut_mem (k : Nat) (q : List NetItem) : (setOut s k q).mem = s.mem := rfl
@[simp] theorem setOut_beatErr (k : Nat) (q : List NetItem) : (setOut s k q).beatErr = s.beatErr := rfl
@[simp] theorem setOut_sram (k : Nat) (q : List NetItem) : (setOut s k q).sram = s.sram := rfl
@[simp] theorem setOut_cores (k : Nat) (q : List NetItem) : (setOut s k q).cores = s.cores := rfl
@[simp] theorem setOut_firnStacks (k : Nat) (q : List NetItem) : (setOut s k q).firnStacks = s.firnStacks := rfl
@[simp] theorem setOut_regions (k : Nat) (q : List NetItem) : (setOut s k q).regions = s.regions := rfl
@[simp] theorem setOut_clusters (k : Nat) (q : List NetItem) : (setOut s k q).clusters = s.clusters := rfl
@[simp] theorem setOut_floes (k : Nat) (q : List NetItem) : (setOut s k q).floes = s.floes := rfl
@[simp] theorem setOut_rails (k : Nat) (q : List NetItem) : (setOut s k q).rails = s.rails := rfl
@[simp] theorem setOut_ccs (k : Nat) (q : List NetItem) : (setOut s k q).ccs = s.ccs := rfl
@[simp] theorem setOut_ports (k : Nat) (q : List NetItem) : (setOut s k q).ports = s.ports := rfl
@[simp] theorem setOut_tracker (k : Nat) (q : List NetItem) : (setOut s k q).tracker = s.tracker := rfl
@[simp] theorem setOut_trace (k : Nat) (q : List NetItem) : (setOut s k q).trace = s.trace := rfl
@[simp] theorem setOut_temps (k : Nat) (q : List NetItem) : (setOut s k q).temps = s.temps := rfl
@[simp] theorem setOut_signals (k : Nat) (q : List NetItem) : (setOut s k q).signals = s.signals := rfl
@[simp] theorem setOut_flights (k : Nat) (q : List NetItem) : (setOut s k q).flights = s.flights := rfl
@[simp] theorem setOut_refusals (k : Nat) (q : List NetItem) : (setOut s k q).refusals = s.refusals := rfl
@[simp] theorem setOut_credits (k : Nat) (q : List NetItem) : (setOut s k q).credits = s.credits := rfl
@[simp] theorem setOut_firnWait (k : Nat) (q : List NetItem) : (setOut s k q).firnWait = s.firnWait := rfl
@[simp] theorem setOut_firnEnt (k : Nat) (q : List NetItem) : (setOut s k q).firnEnt = s.firnEnt := rfl
@[simp] theorem setOut_fuses (k : Nat) (q : List NetItem) : (setOut s k q).fuses = s.fuses := rfl
@[simp] theorem setOut_time (k : Nat) (q : List NetItem) : (setOut s k q).time = s.time := rfl
@[simp] theorem setOut_pwr (k : Nat) (q : List NetItem) : (setOut s k q).pwr = s.pwr := rfl
@[simp] theorem setOut_host (k : Nat) (q : List NetItem) : (setOut s k q).host = s.host := rfl
@[simp] theorem setOut_sess (k : Nat) (q : List NetItem) : (setOut s k q).sess = s.sess := rfl
@[simp] theorem setOut_sec (k : Nat) (q : List NetItem) : (setOut s k q).sec = s.sec := rfl
@[simp] theorem setOut_tap (k : Nat) (q : List NetItem) : (setOut s k q).tap = s.tap := rfl
@[simp] theorem setOut_mirror (k : Nat) (q : List NetItem) : (setOut s k q).mirror = s.mirror := rfl
@[simp] theorem setOut_serve (k : Nat) (q : List NetItem) : (setOut s k q).serve = s.serve := rfl
@[simp] theorem setOut_pins (k : Nat) (q : List NetItem) : (setOut s k q).pins = s.pins := rfl
@[simp] theorem setOut_xferId (k : Nat) (q : List NetItem) : (setOut s k q).xferId = s.xferId := rfl
@[simp] theorem setOut_sendNo (k : Nat) (q : List NetItem) : (setOut s k q).sendNo = s.sendNo := rfl
@[simp] theorem setOut_resetting (k : Nat) (q : List NetItem) : (setOut s k q).resetting = s.resetting := rfl
@[simp] theorem setOut_rstJob (k : Nat) (q : List NetItem) : (setOut s k q).rstJob = s.rstJob := rfl
@[simp] theorem setOut_alloc (k : Nat) (q : List NetItem) : (setOut s k q).alloc = s.alloc := rfl
@[simp] theorem setOut_draws (k : Nat) (q : List NetItem) : (setOut s k q).draws = s.draws := rfl
@[simp] theorem setOut_pending (k : Nat) (q : List NetItem) : (setOut s k q).pending = s.pending := rfl

-- setIn writes the field net alone
@[simp] theorem setIn_regs (k : Nat) (q : List NetItem) : (setIn s k q).regs = s.regs := rfl
@[simp] theorem setIn_mem (k : Nat) (q : List NetItem) : (setIn s k q).mem = s.mem := rfl
@[simp] theorem setIn_beatErr (k : Nat) (q : List NetItem) : (setIn s k q).beatErr = s.beatErr := rfl
@[simp] theorem setIn_sram (k : Nat) (q : List NetItem) : (setIn s k q).sram = s.sram := rfl
@[simp] theorem setIn_cores (k : Nat) (q : List NetItem) : (setIn s k q).cores = s.cores := rfl
@[simp] theorem setIn_firnStacks (k : Nat) (q : List NetItem) : (setIn s k q).firnStacks = s.firnStacks := rfl
@[simp] theorem setIn_regions (k : Nat) (q : List NetItem) : (setIn s k q).regions = s.regions := rfl
@[simp] theorem setIn_clusters (k : Nat) (q : List NetItem) : (setIn s k q).clusters = s.clusters := rfl
@[simp] theorem setIn_floes (k : Nat) (q : List NetItem) : (setIn s k q).floes = s.floes := rfl
@[simp] theorem setIn_rails (k : Nat) (q : List NetItem) : (setIn s k q).rails = s.rails := rfl
@[simp] theorem setIn_ccs (k : Nat) (q : List NetItem) : (setIn s k q).ccs = s.ccs := rfl
@[simp] theorem setIn_ports (k : Nat) (q : List NetItem) : (setIn s k q).ports = s.ports := rfl
@[simp] theorem setIn_tracker (k : Nat) (q : List NetItem) : (setIn s k q).tracker = s.tracker := rfl
@[simp] theorem setIn_trace (k : Nat) (q : List NetItem) : (setIn s k q).trace = s.trace := rfl
@[simp] theorem setIn_temps (k : Nat) (q : List NetItem) : (setIn s k q).temps = s.temps := rfl
@[simp] theorem setIn_signals (k : Nat) (q : List NetItem) : (setIn s k q).signals = s.signals := rfl
@[simp] theorem setIn_flights (k : Nat) (q : List NetItem) : (setIn s k q).flights = s.flights := rfl
@[simp] theorem setIn_refusals (k : Nat) (q : List NetItem) : (setIn s k q).refusals = s.refusals := rfl
@[simp] theorem setIn_credits (k : Nat) (q : List NetItem) : (setIn s k q).credits = s.credits := rfl
@[simp] theorem setIn_firnWait (k : Nat) (q : List NetItem) : (setIn s k q).firnWait = s.firnWait := rfl
@[simp] theorem setIn_firnEnt (k : Nat) (q : List NetItem) : (setIn s k q).firnEnt = s.firnEnt := rfl
@[simp] theorem setIn_fuses (k : Nat) (q : List NetItem) : (setIn s k q).fuses = s.fuses := rfl
@[simp] theorem setIn_time (k : Nat) (q : List NetItem) : (setIn s k q).time = s.time := rfl
@[simp] theorem setIn_pwr (k : Nat) (q : List NetItem) : (setIn s k q).pwr = s.pwr := rfl
@[simp] theorem setIn_host (k : Nat) (q : List NetItem) : (setIn s k q).host = s.host := rfl
@[simp] theorem setIn_sess (k : Nat) (q : List NetItem) : (setIn s k q).sess = s.sess := rfl
@[simp] theorem setIn_sec (k : Nat) (q : List NetItem) : (setIn s k q).sec = s.sec := rfl
@[simp] theorem setIn_tap (k : Nat) (q : List NetItem) : (setIn s k q).tap = s.tap := rfl
@[simp] theorem setIn_mirror (k : Nat) (q : List NetItem) : (setIn s k q).mirror = s.mirror := rfl
@[simp] theorem setIn_serve (k : Nat) (q : List NetItem) : (setIn s k q).serve = s.serve := rfl
@[simp] theorem setIn_pins (k : Nat) (q : List NetItem) : (setIn s k q).pins = s.pins := rfl
@[simp] theorem setIn_xferId (k : Nat) (q : List NetItem) : (setIn s k q).xferId = s.xferId := rfl
@[simp] theorem setIn_sendNo (k : Nat) (q : List NetItem) : (setIn s k q).sendNo = s.sendNo := rfl
@[simp] theorem setIn_resetting (k : Nat) (q : List NetItem) : (setIn s k q).resetting = s.resetting := rfl
@[simp] theorem setIn_rstJob (k : Nat) (q : List NetItem) : (setIn s k q).rstJob = s.rstJob := rfl
@[simp] theorem setIn_alloc (k : Nat) (q : List NetItem) : (setIn s k q).alloc = s.alloc := rfl
@[simp] theorem setIn_draws (k : Nat) (q : List NetItem) : (setIn s k q).draws = s.draws := rfl
@[simp] theorem setIn_pending (k : Nat) (q : List NetItem) : (setIn s k q).pending = s.pending := rfl

-- setEdgeXlat writes the field net alone
@[simp] theorem setEdgeXlat_regs (d n x : Nat) : (setEdgeXlat s d n x).regs = s.regs := rfl
@[simp] theorem setEdgeXlat_mem (d n x : Nat) : (setEdgeXlat s d n x).mem = s.mem := rfl
@[simp] theorem setEdgeXlat_beatErr (d n x : Nat) : (setEdgeXlat s d n x).beatErr = s.beatErr := rfl
@[simp] theorem setEdgeXlat_sram (d n x : Nat) : (setEdgeXlat s d n x).sram = s.sram := rfl
@[simp] theorem setEdgeXlat_cores (d n x : Nat) : (setEdgeXlat s d n x).cores = s.cores := rfl
@[simp] theorem setEdgeXlat_firnStacks (d n x : Nat) : (setEdgeXlat s d n x).firnStacks = s.firnStacks := rfl
@[simp] theorem setEdgeXlat_regions (d n x : Nat) : (setEdgeXlat s d n x).regions = s.regions := rfl
@[simp] theorem setEdgeXlat_clusters (d n x : Nat) : (setEdgeXlat s d n x).clusters = s.clusters := rfl
@[simp] theorem setEdgeXlat_floes (d n x : Nat) : (setEdgeXlat s d n x).floes = s.floes := rfl
@[simp] theorem setEdgeXlat_rails (d n x : Nat) : (setEdgeXlat s d n x).rails = s.rails := rfl
@[simp] theorem setEdgeXlat_ccs (d n x : Nat) : (setEdgeXlat s d n x).ccs = s.ccs := rfl
@[simp] theorem setEdgeXlat_ports (d n x : Nat) : (setEdgeXlat s d n x).ports = s.ports := rfl
@[simp] theorem setEdgeXlat_tracker (d n x : Nat) : (setEdgeXlat s d n x).tracker = s.tracker := rfl
@[simp] theorem setEdgeXlat_trace (d n x : Nat) : (setEdgeXlat s d n x).trace = s.trace := rfl
@[simp] theorem setEdgeXlat_temps (d n x : Nat) : (setEdgeXlat s d n x).temps = s.temps := rfl
@[simp] theorem setEdgeXlat_signals (d n x : Nat) : (setEdgeXlat s d n x).signals = s.signals := rfl
@[simp] theorem setEdgeXlat_flights (d n x : Nat) : (setEdgeXlat s d n x).flights = s.flights := rfl
@[simp] theorem setEdgeXlat_refusals (d n x : Nat) : (setEdgeXlat s d n x).refusals = s.refusals := rfl
@[simp] theorem setEdgeXlat_credits (d n x : Nat) : (setEdgeXlat s d n x).credits = s.credits := rfl
@[simp] theorem setEdgeXlat_firnWait (d n x : Nat) : (setEdgeXlat s d n x).firnWait = s.firnWait := rfl
@[simp] theorem setEdgeXlat_firnEnt (d n x : Nat) : (setEdgeXlat s d n x).firnEnt = s.firnEnt := rfl
@[simp] theorem setEdgeXlat_fuses (d n x : Nat) : (setEdgeXlat s d n x).fuses = s.fuses := rfl
@[simp] theorem setEdgeXlat_time (d n x : Nat) : (setEdgeXlat s d n x).time = s.time := rfl
@[simp] theorem setEdgeXlat_pwr (d n x : Nat) : (setEdgeXlat s d n x).pwr = s.pwr := rfl
@[simp] theorem setEdgeXlat_host (d n x : Nat) : (setEdgeXlat s d n x).host = s.host := rfl
@[simp] theorem setEdgeXlat_sess (d n x : Nat) : (setEdgeXlat s d n x).sess = s.sess := rfl
@[simp] theorem setEdgeXlat_sec (d n x : Nat) : (setEdgeXlat s d n x).sec = s.sec := rfl
@[simp] theorem setEdgeXlat_tap (d n x : Nat) : (setEdgeXlat s d n x).tap = s.tap := rfl
@[simp] theorem setEdgeXlat_mirror (d n x : Nat) : (setEdgeXlat s d n x).mirror = s.mirror := rfl
@[simp] theorem setEdgeXlat_serve (d n x : Nat) : (setEdgeXlat s d n x).serve = s.serve := rfl
@[simp] theorem setEdgeXlat_pins (d n x : Nat) : (setEdgeXlat s d n x).pins = s.pins := rfl
@[simp] theorem setEdgeXlat_xferId (d n x : Nat) : (setEdgeXlat s d n x).xferId = s.xferId := rfl
@[simp] theorem setEdgeXlat_sendNo (d n x : Nat) : (setEdgeXlat s d n x).sendNo = s.sendNo := rfl
@[simp] theorem setEdgeXlat_resetting (d n x : Nat) : (setEdgeXlat s d n x).resetting = s.resetting := rfl
@[simp] theorem setEdgeXlat_rstJob (d n x : Nat) : (setEdgeXlat s d n x).rstJob = s.rstJob := rfl
@[simp] theorem setEdgeXlat_alloc (d n x : Nat) : (setEdgeXlat s d n x).alloc = s.alloc := rfl
@[simp] theorem setEdgeXlat_draws (d n x : Nat) : (setEdgeXlat s d n x).draws = s.draws := rfl
@[simp] theorem setEdgeXlat_pending (d n x : Nat) : (setEdgeXlat s d n x).pending = s.pending := rfl

-- setTrace writes the field trace alone
@[simp] theorem setTrace_regs (d : Nat) (r : List (List (BitVec 64))) : (setTrace s d r).regs = s.regs := rfl
@[simp] theorem setTrace_mem (d : Nat) (r : List (List (BitVec 64))) : (setTrace s d r).mem = s.mem := rfl
@[simp] theorem setTrace_beatErr (d : Nat) (r : List (List (BitVec 64))) : (setTrace s d r).beatErr = s.beatErr := rfl
@[simp] theorem setTrace_sram (d : Nat) (r : List (List (BitVec 64))) : (setTrace s d r).sram = s.sram := rfl
@[simp] theorem setTrace_cores (d : Nat) (r : List (List (BitVec 64))) : (setTrace s d r).cores = s.cores := rfl
@[simp] theorem setTrace_firnStacks (d : Nat) (r : List (List (BitVec 64))) : (setTrace s d r).firnStacks = s.firnStacks := rfl
@[simp] theorem setTrace_regions (d : Nat) (r : List (List (BitVec 64))) : (setTrace s d r).regions = s.regions := rfl
@[simp] theorem setTrace_clusters (d : Nat) (r : List (List (BitVec 64))) : (setTrace s d r).clusters = s.clusters := rfl
@[simp] theorem setTrace_floes (d : Nat) (r : List (List (BitVec 64))) : (setTrace s d r).floes = s.floes := rfl
@[simp] theorem setTrace_rails (d : Nat) (r : List (List (BitVec 64))) : (setTrace s d r).rails = s.rails := rfl
@[simp] theorem setTrace_ccs (d : Nat) (r : List (List (BitVec 64))) : (setTrace s d r).ccs = s.ccs := rfl
@[simp] theorem setTrace_ports (d : Nat) (r : List (List (BitVec 64))) : (setTrace s d r).ports = s.ports := rfl
@[simp] theorem setTrace_tracker (d : Nat) (r : List (List (BitVec 64))) : (setTrace s d r).tracker = s.tracker := rfl
@[simp] theorem setTrace_temps (d : Nat) (r : List (List (BitVec 64))) : (setTrace s d r).temps = s.temps := rfl
@[simp] theorem setTrace_signals (d : Nat) (r : List (List (BitVec 64))) : (setTrace s d r).signals = s.signals := rfl
@[simp] theorem setTrace_flights (d : Nat) (r : List (List (BitVec 64))) : (setTrace s d r).flights = s.flights := rfl
@[simp] theorem setTrace_refusals (d : Nat) (r : List (List (BitVec 64))) : (setTrace s d r).refusals = s.refusals := rfl
@[simp] theorem setTrace_credits (d : Nat) (r : List (List (BitVec 64))) : (setTrace s d r).credits = s.credits := rfl
@[simp] theorem setTrace_firnWait (d : Nat) (r : List (List (BitVec 64))) : (setTrace s d r).firnWait = s.firnWait := rfl
@[simp] theorem setTrace_firnEnt (d : Nat) (r : List (List (BitVec 64))) : (setTrace s d r).firnEnt = s.firnEnt := rfl
@[simp] theorem setTrace_net (d : Nat) (r : List (List (BitVec 64))) : (setTrace s d r).net = s.net := rfl
@[simp] theorem setTrace_fuses (d : Nat) (r : List (List (BitVec 64))) : (setTrace s d r).fuses = s.fuses := rfl
@[simp] theorem setTrace_time (d : Nat) (r : List (List (BitVec 64))) : (setTrace s d r).time = s.time := rfl
@[simp] theorem setTrace_pwr (d : Nat) (r : List (List (BitVec 64))) : (setTrace s d r).pwr = s.pwr := rfl
@[simp] theorem setTrace_host (d : Nat) (r : List (List (BitVec 64))) : (setTrace s d r).host = s.host := rfl
@[simp] theorem setTrace_sess (d : Nat) (r : List (List (BitVec 64))) : (setTrace s d r).sess = s.sess := rfl
@[simp] theorem setTrace_sec (d : Nat) (r : List (List (BitVec 64))) : (setTrace s d r).sec = s.sec := rfl
@[simp] theorem setTrace_tap (d : Nat) (r : List (List (BitVec 64))) : (setTrace s d r).tap = s.tap := rfl
@[simp] theorem setTrace_mirror (d : Nat) (r : List (List (BitVec 64))) : (setTrace s d r).mirror = s.mirror := rfl
@[simp] theorem setTrace_serve (d : Nat) (r : List (List (BitVec 64))) : (setTrace s d r).serve = s.serve := rfl
@[simp] theorem setTrace_pins (d : Nat) (r : List (List (BitVec 64))) : (setTrace s d r).pins = s.pins := rfl
@[simp] theorem setTrace_xferId (d : Nat) (r : List (List (BitVec 64))) : (setTrace s d r).xferId = s.xferId := rfl
@[simp] theorem setTrace_sendNo (d : Nat) (r : List (List (BitVec 64))) : (setTrace s d r).sendNo = s.sendNo := rfl
@[simp] theorem setTrace_resetting (d : Nat) (r : List (List (BitVec 64))) : (setTrace s d r).resetting = s.resetting := rfl
@[simp] theorem setTrace_rstJob (d : Nat) (r : List (List (BitVec 64))) : (setTrace s d r).rstJob = s.rstJob := rfl
@[simp] theorem setTrace_alloc (d : Nat) (r : List (List (BitVec 64))) : (setTrace s d r).alloc = s.alloc := rfl
@[simp] theorem setTrace_draws (d : Nat) (r : List (List (BitVec 64))) : (setTrace s d r).draws = s.draws := rfl
@[simp] theorem setTrace_pending (d : Nat) (r : List (List (BitVec 64))) : (setTrace s d r).pending = s.pending := rfl

end Sys2Proof.Machine
end

