-- ==== Sys2Proof/Laws/Ops.lean ====
section
/-! SUPPORT. The laws of the named operations: a read after a write of a register, a field, a byte and a unit, and the canonical form that they keep. -/

namespace Sys2Proof

-- bit fields ------------------------------------------------------------------------------------------------------------

theorem bits_lt (x lo w : Nat) : bits x lo w < 2 ^ w := Nat.mod_lt _ (Nat.two_pow_pos w)

/-- A bit of a field. -/
theorem testBit_bits (x lo w i : Nat) : (bits x lo w).testBit i = (decide (i < w) && x.testBit (lo + i)) := by
  rw [bits, Nat.testBit_mod_two_pow, Nat.testBit_shiftRight]

/-- A bit of a number with a field replaced. -/
theorem testBit_setBits (x lo w v i : Nat) :
    (setBits x lo w v).testBit i = if i < lo then x.testBit i else if i < lo + w then v.testBit (i - lo) else x.testBit i := by
  have h1 : x % 2 ^ lo < 2 ^ lo := Nat.mod_lt _ (Nat.two_pow_pos lo)
  have h2 : v % 2 ^ w < 2 ^ w := Nat.mod_lt _ (Nat.two_pow_pos w)
  have e : setBits x lo w v = 2 ^ lo * (2 ^ w * (x >>> (lo + w)) + v % 2 ^ w) + x % 2 ^ lo := by
    unfold setBits
    rw [Nat.mul_add, ← Nat.mul_assoc, ← pow_add]
    ring
  rw [e, Nat.testBit_two_pow_mul_add _ h1]
  split
  · rename_i h; simp [Nat.testBit_mod_two_pow, h]
  · rename_i h
    rw [Nat.testBit_two_pow_mul_add _ h2]
    split
    · rename_i h3
      have : i < lo + w := by omega
      simp [Nat.testBit_mod_two_pow, h3, this]
    · rename_i h3
      have h4 : ¬ i < lo + w := by omega
      rw [if_neg h4, Nat.testBit_shiftRight]
      congr 1; omega

/-- The field that was replaced. -/
@[simp] theorem bits_setBits_same (x lo w v : Nat) : bits (setBits x lo w v) lo w = v % 2 ^ w := by
  apply Nat.eq_of_testBit_eq
  intro i
  rw [testBit_bits, testBit_setBits, Nat.testBit_mod_two_pow]
  by_cases h : i < w
  · have : lo + i < lo + w := by omega
    simp [h, this]
  · simp [h]

/-- A field that lies wholly below or above the one replaced. -/
theorem bits_setBits_other (x lo w v lo' w' : Nat) (h : lo' + w' ≤ lo ∨ lo + w ≤ lo') : bits (setBits x lo w v) lo' w' = bits x lo' w' := by
  apply Nat.eq_of_testBit_eq
  intro i
  rw [testBit_bits, testBit_bits, testBit_setBits]
  by_cases hi : i < w'
  · rcases h with h | h
    · have : lo' + i < lo := by omega
      simp [this]
    · have h1 : ¬ lo' + i < lo := by omega
      have h2 : ¬ lo' + i < lo + w := by omega
      simp [h1, h2]
  · simp [hi]

theorem setBits_lt (x lo w v n : Nat) (h : lo + w ≤ n) (hx : x < 2 ^ n) : setBits x lo w v < 2 ^ n := by
  apply Nat.lt_pow_two_of_testBit
  intro i hi
  rw [testBit_setBits]
  have h1 : ¬ i < lo := by omega
  have h2 : ¬ i < lo + w := by omega
  simp only [h1, h2, if_false]
  exact Nat.testBit_lt_two_pow (lt_of_lt_of_le hx (Nat.pow_le_pow_right (by omega) hi))

end Sys2Proof

namespace Sys2Proof.Machine

-- registers -----------------------------------------------------------------------------------------------------------------

@[simp] theorem getR_setR_same (s : State) (off : Nat) (v : BitVec 32) : getR (setR s off v) off = v := by simp [getR, setR]

theorem getR_setR_other (s : State) {off off' : Nat} (v : BitVec 32) (h : off' ≠ off) : getR (setR s off v) off' = getR s off' := by
  simp only [getR, setR]; exact mget_mset_other _ _ _ h

theorem getR_setR (s : State) (off off' : Nat) (v : BitVec 32) : getR (setR s off v) off' = if off' = off then v else getR s off' := by
  simp only [getR, setR]; exact mget_mset _ _ _ _ _

theorem getR_setF_other (s : State) {off off' : Nat} (lo w v : Nat) (h : off' ≠ off) : getR (setF s off lo w v) off' = getR s off' :=
  getR_setR_other s _ h

theorem getF_setF_otherReg (s : State) {off off' : Nat} (lo w v lo' w' : Nat) (h : off' ≠ off) : getF (setF s off lo w v) off' lo' w' = getF s off' lo' w' := by
  simp only [getF, getR_setF_other s lo w v h]

/-- A field within its word reads what was written to it. -/
@[simp] theorem getF_setF_same (s : State) (off lo w v : Nat) (h : lo + w ≤ 32) : getF (setF s off lo w v) off lo w = v % 2 ^ w := by
  have hx : setBits (getR s off).toNat lo w v < 2 ^ 32 := setBits_lt _ _ _ _ _ h (getR s off).isLt
  simp only [getF, setF, getR_setR_same, BitVec.toNat_ofNat, Nat.mod_eq_of_lt hx, bits_setBits_same]

/-- The other fields of the word stand. -/
theorem getF_setF_otherField (s : State) (off lo w v lo' w' : Nat) (h : lo + w ≤ 32) (h' : lo' + w' ≤ lo ∨ lo + w ≤ lo') :
    getF (setF s off lo w v) off lo' w' = getF s off lo' w' := by
  have hx : setBits (getR s off).toNat lo w v < 2 ^ 32 := setBits_lt _ _ _ _ _ h (getR s off).isLt
  simp only [getF, setF, getR_setR_same, BitVec.toNat_ofNat, Nat.mod_eq_of_lt hx]
  exact bits_setBits_other _ _ _ _ _ _ h'

theorem getF_lt (s : State) (off lo w : Nat) : getF s off lo w < 2 ^ w := bits_lt _ _ _

/-- A 64-bit register reads what was written to it. -/
theorem getR64_setR64_same (s : State) (off v : Nat) (h : v < 2 ^ 64) : getR64 (setR64 s off v) off = v := by
  have h1 : getR (setR64 s off v) off = BitVec.ofNat 32 v := by
    simp only [setR64]; rw [getR_setR_other _ _ (by omega)]; simp
  have h2 : getR (setR64 s off v) (off + 4) = BitVec.ofNat 32 (v / 2 ^ 32) := by simp [setR64]
  simp only [getR64, h1, h2, BitVec.toNat_ofNat]
  omega

theorem getR_setR64_other (s : State) {off off' : Nat} (v : Nat) (h : off' ≠ off) (h' : off' ≠ off + 4) : getR (setR64 s off v) off' = getR s off' := by
  simp only [setR64]; rw [getR_setR_other _ _ h', getR_setR_other _ _ h]

-- memory -----------------------------------------------------------------------------------------------------------------------

@[simp] theorem rdByte_wrByte_same (s : State) (a : Nat) (v : Byte) : rdByte (wrByte s a v) a = v := by simp [rdByte, wrByte]

theorem rdByte_wrByte_other (s : State) {a b : Nat} (v : Byte) (h : b ≠ a) : rdByte (wrByte s a v) b = rdByte s b := by
  simp only [rdByte, wrByte]; exact mget_mset_other _ _ _ h

/-- A byte after a run of bytes is written. -/
theorem mget_memWrite (m : List (Nat × Byte)) (a b : Nat) (bs : List Byte) :
    mget zeroByte (memWrite m a bs) b = if a ≤ b ∧ b < a + bs.length then bs.getD (b - a) 0 else mget zeroByte m b := by
  induction bs generalizing m a with
  | nil => simp [memWrite]
  | cons v bs ih =>
    simp only [memWrite, ih, mget_mset, List.length_cons]
    by_cases h : b = a
    · subst h; simp
    · by_cases h1 : a + 1 ≤ b ∧ b < a + 1 + bs.length
      · have h2 : a ≤ b ∧ b < a + (bs.length + 1) := by omega
        have h3 : b - a = (b - (a + 1)) + 1 := by omega
        rw [if_pos h1, if_pos h2, h3]; rfl
      · have h2 : ¬ (a ≤ b ∧ b < a + (bs.length + 1)) := by omega
        rw [if_neg h1, if_neg h2, if_neg h]

theorem rdByte_wrBytes (s : State) (a b : Nat) (bs : List Byte) :
    rdByte (wrBytes s a bs) b = if a ≤ b ∧ b < a + bs.length then bs.getD (b - a) 0 else rdByte s b := mget_memWrite _ _ _ _

/-- Bytes read after they are written. -/
theorem rdBytes_wrBytes_same (s : State) (a : Nat) (bs : List Byte) : rdBytes (wrBytes s a bs) a bs.length = bs := by
  apply List.ext_getElem
  · simp [rdBytes]
  · intro i h1 h2
    simp [rdBytes, rdByte_wrBytes, h2]

/-- Every memory operation keeps the canonical form. -/
theorem mwf_memWrite (m : List (Nat × Byte)) (a : Nat) (bs : List Byte) (h : mwf zeroByte m = true) : mwf zeroByte (memWrite m a bs) = true := by
  induction bs generalizing m a with
  | nil => exact h
  | cons v bs ih => exact ih _ _ (mwf_mset _ _ _ _ h)

theorem mwf_wrByte (s : State) (a : Nat) (v : Byte) (h : mwf zeroByte s.mem = true) : mwf zeroByte (wrByte s a v).mem = true := mwf_mset _ _ _ _ h
theorem mwf_wrBytes (s : State) (a : Nat) (bs : List Byte) (h : mwf zeroByte s.mem = true) : mwf zeroByte (wrBytes s a bs).mem = true := mwf_memWrite _ _ _ h
/-- Every register operation keeps the canonical form. -/
theorem mwf_setR (s : State) (off : Nat) (v : BitVec 32) (h : mwf resetVal s.regs = true) : mwf resetVal (setR s off v).regs = true := mwf_mset _ _ _ _ h
theorem mwf_setF (s : State) (off lo w v : Nat) (h : mwf resetVal s.regs = true) : mwf resetVal (setF s off lo w v).regs = true := mwf_setR _ _ _ h
theorem mwf_setR64 (s : State) (off v : Nat) (h : mwf resetVal s.regs = true) : mwf resetVal (setR64 s off v).regs = true := mwf_setR _ _ _ (mwf_setR _ _ _ h)

-- units ---------------------------------------------------------------------------------------------------------------------------

@[simp] theorem coreOf_setCore_same (s : State) (c : Nat) (x : CoreSt) : coreOf (setCore s c x) c = x := by simp [coreOf, setCore]
theorem coreOf_setCore_other (s : State) {c k : Nat} (x : CoreSt) (h : k ≠ c) : coreOf (setCore s c x) k = coreOf s k := by
  simp only [coreOf, setCore]; exact mget_mset_other _ _ _ h
@[simp] theorem coreOf_modCore_same (s : State) (c : Nat) (f : CoreSt → CoreSt) : coreOf (modCore s c f) c = f (coreOf s c) := by simp [modCore]
theorem coreOf_modCore_other (s : State) {c k : Nat} (f : CoreSt → CoreSt) (h : k ≠ c) : coreOf (modCore s c f) k = coreOf s k :=
  coreOf_setCore_other s _ h
@[simp] theorem slotOf_setSlot_same (s : State) (c t : Nat) (x : SlotSt) : slotOf (setSlot s c t x) c t = x := by simp [slotOf, setSlot]
theorem slotOf_setSlot_otherSlot (s : State) (c : Nat) {t u : Nat} (x : SlotSt) (h : u ≠ t) : slotOf (setSlot s c t x) c u = slotOf s c u := by
  simp only [slotOf, setSlot, coreOf_modCore_same]; exact mget_mset_other _ _ _ h
theorem slotOf_setSlot_otherCore (s : State) {c k : Nat} (t u : Nat) (x : SlotSt) (h : k ≠ c) : slotOf (setSlot s c t x) k u = slotOf s k u := by
  simp only [slotOf, setSlot, coreOf_modCore_other s _ h]
@[simp] theorem slotOf_modSlot_same (s : State) (c t : Nat) (f : SlotSt → SlotSt) : slotOf (modSlot s c t f) c t = f (slotOf s c t) := by simp [modSlot]
@[simp] theorem descOf_setDesc_same (s : State) (c d : Nat) (x : DescSt) : descOf (setDesc s c d x) c d = x := by simp [descOf, setDesc]
theorem descOf_setDesc_other (s : State) (c : Nat) {d e : Nat} (x : DescSt) (h : e ≠ d) : descOf (setDesc s c d x) c e = descOf s c e := by
  simp only [descOf, setDesc, coreOf_modCore_same]; exact mget_mset_other _ _ _ h
@[simp] theorem slotOf_setDesc (s : State) (c d k t : Nat) (x : DescSt) : slotOf (setDesc s c d x) k t = slotOf s k t := by
  by_cases h : k = c
  · subst h; simp [slotOf, setDesc]
  · simp only [slotOf, setDesc, coreOf_modCore_other s _ h]
@[simp] theorem stackOf_setStack_same (s : State) (k : Nat) (x : StackSt) : stackOf (setStack s k x) k = x := by simp [stackOf, setStack]
@[simp] theorem regionOf_setRegion_same (s : State) (r : Nat) (x : RegionSt) : regionOf (setRegion s r x) r = x := by simp [regionOf, setRegion]
theorem regionOf_setRegion_other (s : State) {r q : Nat} (x : RegionSt) (h : q ≠ r) : regionOf (setRegion s r x) q = regionOf s q := by
  simp only [regionOf, setRegion]; exact mget_mset_other _ _ _ h
@[simp] theorem clusterOf_setCluster_same (s : State) (c : Nat) (x : ClusterSt) : clusterOf (setCluster s c x) c = x := by simp [clusterOf, setCluster]
@[simp] theorem floeOf_setFloe_same (s : State) (cl f : Nat) (x : FloeSt) : floeOf (setFloe s cl f x) cl f = x := by simp [floeOf, setFloe]
@[simp] theorem railOf_setRail_same (s : State) (d : Nat) (x : RailSt) : railOf (setRail s d x) d = x := by simp [railOf, setRail]
@[simp] theorem ccOf_setCc_same (s : State) (k : Nat) (x : CcSt) : ccOf (setCc s k x) k = x := by simp [ccOf, setCc]
@[simp] theorem portOf_setPort_same (s : State) (p : Nat) (x : PortSt) : portOf (setPort s p x) p = x := by simp [portOf, setPort]
theorem portOf_setPort_other (s : State) {p q : Nat} (x : PortSt) (h : q ≠ p) : portOf (setPort s p x) q = portOf s q := by
  simp only [portOf, setPort]; exact mget_mset_other _ _ _ h
@[simp] theorem trkOf_setTrk_same (s : State) (t : Nat) (x : TrkEnt) : trkOf (setTrk s t x) t = x := by simp [trkOf, setTrk]

-- registers read through unit updates ------------------------------------------------------------------------------------------------

/-- Registers and memory depend on their own fields alone. -/
theorem getR_congr {s t : State} (h : t.regs = s.regs) (off : Nat) : getR t off = getR s off := by simp only [getR, h]
theorem getF_congr {s t : State} (h : t.regs = s.regs) (off lo w : Nat) : getF t off lo w = getF s off lo w := by simp only [getF, getR_congr h]
theorem rdByte_congr {s t : State} (h : t.mem = s.mem) (a : Nat) : rdByte t a = rdByte s a := by simp only [rdByte, h]
theorem coreOf_congr {s t : State} (h : t.cores = s.cores) (c : Nat) : coreOf t c = coreOf s c := by simp only [coreOf, h]

end Sys2Proof.Machine
end

