-- ==== Sys2Proof/Laws/Keep.lean ====
section
/-! SUPPORT. What every operation of the machine keeps: the fuses, a security version that does not fall, the programmed owner slots, and the canonical form of
registers and memory. One lemma per operation, in the form "kept so far, kept after it", so that a proof over a command follows its calls. -/

namespace Sys2Proof.Machine

open Sys2Proof.Safety

/-- What every operation keeps. -/
structure Keep (s t : State) : Prop where
  fuses : FusesKept s t
  canon : Canonical s → Canonical t

theorem Keep.refl (s : State) : Keep s s := ⟨⟨rfl, le_refl _, fun _ h => h⟩, id⟩
theorem Keep.trans {s t u : State} (h : Keep s t) (h' : Keep t u) : Keep s u :=
  ⟨⟨h'.fuses.1.trans h.fuses.1, le_trans h.fuses.2.1 h'.fuses.2.1, fun k hk => h'.fuses.2.2 k (h.fuses.2.2 k hk)⟩, fun c => h'.canon (h.canon c)⟩

def KeepP {α : Type} (b : State) (p : State × α) : Prop := Keep b p.1
def KeepQ {α : Type} (b : State) (p : α × State) : Prop := Keep b p.2
def KeepO (b : State) (o : Option State) : Prop := ∀ t, o = some t → Keep b t

variable {b0 s t : State}

theorem keep_ite {c : Prop} [Decidable c] {x y : State} (hx : Keep b0 x) (hy : Keep b0 y) : Keep b0 (if c then x else y) := by split <;> assumption
theorem keepP_ite {α : Type} {c : Prop} [Decidable c] {x y : State × α} (hx : KeepP b0 x) (hy : KeepP b0 y) : KeepP b0 (if c then x else y) := by split <;> assumption
theorem keepO_ite {c : Prop} [Decidable c] {x y : Option State} (hx : KeepO b0 x) (hy : KeepO b0 y) : KeepO b0 (if c then x else y) := by split <;> assumption
theorem keepO_some {x : State} (hx : Keep b0 x) : KeepO b0 (some x) := by intro t e; cases e; exact hx
theorem keepO_none : KeepO b0 none := by intro t e; cases e
theorem keepP_mk {α : Type} {x : State} {a : α} (hx : Keep b0 x) : KeepP b0 (x, a) := hx
theorem keepQ_mk {α : Type} {x : State} {a : α} (hx : Keep b0 x) : KeepQ b0 (a, x) := hx
theorem keep_fst {α : Type} {p : State × α} (h : KeepP b0 p) : Keep b0 p.1 := h
theorem keep_snd {α : Type} {p : α × State} (h : KeepQ b0 p) : Keep b0 p.2 := h
theorem keep_eqP {α : Type} {p : State × α} {x : α} (e : p = (t, x)) (h : KeepP b0 p) : Keep b0 t := by subst e; exact h
theorem keep_eqQ {α : Type} {p : α × State} {x : α} (e : p = (x, t)) (h : KeepQ b0 p) : Keep b0 t := by subst e; exact h
theorem keep_eqO {o : Option State} (e : o = some t) (h : KeepO b0 o) : Keep b0 t := h t e

theorem keep_foldl {α : Type} {f : State → α → State} {l : List α} (hf : ∀ s x, Keep b0 s → Keep b0 (f s x)) (h : Keep b0 s) : Keep b0 (l.foldl f s) := by
  induction l generalizing s with
  | nil => exact h
  | cons a l ih => exact ih (hf s a h)

variable {v_regs : List (Nat × BitVec 32)} {v_mem : List (Nat × Byte)} {v_beatErr : List (Nat × BitVec 288)} {v_sram : List (Nat × Byte)} {v_cores : List (Nat × CoreSt)}
    {v_firnStacks : List (Nat × StackSt)} {v_regions : List (Nat × RegionSt)} {v_clusters : List (Nat × ClusterSt)} {v_floes : List (Nat × FloeSt)} {v_rails : List (Nat ×
    RailSt)} {v_ccs : List (Nat × CcSt)} {v_ports : List (Nat × PortSt)} {v_tracker : List (Nat × TrkEnt)} {v_trace : List (Nat × List (List (BitVec 64)))} {v_temps :
    List (Nat × Nat)} {v_signals : List Sig} {v_flights : List Flight} {v_refusals : List Refused} {v_credits : List (Nat × Nat)} {v_firnWait : List FirnReq} {v_firnEnt :
    List FirnReq} {v_net : NetSt} {v_time : TimeSt} {v_pwr : PowerSt} {v_host : HostSt} {v_sess : SessSt} {v_sec : SecSt} {v_tap : TapSt} {v_mirror : MirrorSt} {v_serve :
    ServeSt} {v_pins : PinSt} {v_xferId : Nat} {v_sendNo : Nat} {v_resetting : List Nat} {v_rstJob : Option (Nat × Nat)} {v_alloc : List (Nat × Nat)} {v_draws : Nat}
    {v_pending : List Instr}
   {w_lifeState : Nat} {w_cur : Nat} {w_provKey : List (Nat × BitVec 32)} {w_burning : Bool} {w_pushIdx : Option Nat} {w_bootCnt : Nat} {w_mhash : BitVec 384} {w_bootWait
      : Bool} {w_warm : Bool} {w_signing : Bool}
theorem keep_mk (h : Keep b0 s) : Keep b0 ⟨s.regs, s.mem, v_beatErr, v_sram, v_cores, v_firnStacks, v_regions, v_clusters, v_floes, v_rails, v_ccs, v_ports, v_tracker,
    v_trace, v_temps, v_signals, v_flights, v_refusals, v_credits, v_firnWait, v_firnEnt, v_net, s.fuses, v_time, v_pwr, v_host, v_sess, s.sec, v_tap, v_mirror, v_serve,
    v_pins, v_xferId, v_sendNo, v_resetting, v_rstJob, v_alloc, v_draws, v_pending⟩ := ⟨h.fuses, h.canon⟩
theorem keep_mkRegs (h : Keep b0 s) (hr : mwf resetVal s.regs = true → mwf resetVal v_regs = true) : Keep b0 ⟨v_regs, s.mem, v_beatErr, v_sram, v_cores, v_firnStacks,
    v_regions, v_clusters, v_floes, v_rails, v_ccs, v_ports, v_tracker, v_trace, v_temps, v_signals, v_flights, v_refusals, v_credits, v_firnWait, v_firnEnt, v_net,
    s.fuses, v_time, v_pwr, v_host, v_sess, s.sec, v_tap, v_mirror, v_serve, v_pins, v_xferId, v_sendNo, v_resetting, v_rstJob, v_alloc, v_draws, v_pending⟩ := ⟨h.fuses,
    fun c => ⟨hr (h.canon c).1, (h.canon c).2⟩⟩
theorem keep_mkSec (h : Keep b0 s) (h1 : s.sec.svn ≤ v_sec.svn) (h2 : v_sec.slots = s.sec.slots) : Keep b0 ⟨s.regs, s.mem, v_beatErr, v_sram, v_cores, v_firnStacks,
    v_regions, v_clusters, v_floes, v_rails, v_ccs, v_ports, v_tracker, v_trace, v_temps, v_signals, v_flights, v_refusals, v_credits, v_firnWait, v_firnEnt, v_net,
    s.fuses, v_time, v_pwr, v_host, v_sess, v_sec, v_tap, v_mirror, v_serve, v_pins, v_xferId, v_sendNo, v_resetting, v_rstJob, v_alloc, v_draws, v_pending⟩ := by
  refine ⟨⟨h.fuses.1, le_trans h.fuses.2.1 h1, fun k hk => ?_⟩, h.canon⟩
  have := h.fuses.2.2 k hk
  simpa only [usedAt, ownerSlot, h2] using this
theorem keep_mkMem (h : Keep b0 s) (hr : mwf zeroByte s.mem = true → mwf zeroByte v_mem = true) : Keep b0 ⟨s.regs, v_mem, v_beatErr, v_sram, v_cores, v_firnStacks,
    v_regions, v_clusters, v_floes, v_rails, v_ccs, v_ports, v_tracker, v_trace, v_temps, v_signals, v_flights, v_refusals, v_credits, v_firnWait, v_firnEnt, v_net,
    s.fuses, v_time, v_pwr, v_host, v_sess, s.sec, v_tap, v_mirror, v_serve, v_pins, v_xferId, v_sendNo, v_resetting, v_rstJob, v_alloc, v_draws, v_pending⟩ := ⟨h.fuses,
    fun c => ⟨(h.canon c).1, hr (h.canon c).2⟩⟩


theorem keepP_foldl {σ α : Type} {f : State × σ → α → State × σ} {l : List α} {p : State × σ} (hf : ∀ p a, KeepP b0 p → KeepP b0 (f p a)) (h : KeepP b0 p) :
    KeepP b0 (l.foldl f p) := by
  induction l generalizing p with
  | nil => exact h
  | cons a l ih => exact ih (hf p a h)

theorem keepO_findSome {α : Type} {f : α → Option State} {l : List α} (hf : ∀ p, KeepO b0 (f p)) : KeepO b0 (l.findSome? f) := by
  intro t e
  obtain ⟨a, _, ha⟩ := List.exists_of_findSome?_eq_some e
  exact hf a t ha

/-- A state that is built anew from another. -/
theorem keep_fresh {x : State} (h : Keep b0 s) (hr : mwf resetVal s.regs = true → mwf resetVal x.regs = true) (hf : x.fuses = s.fuses)
    (hv : x.sec.svn = s.sec.svn) (hs : x.sec.slots = s.sec.slots) (hm : x.mem = s.mem ∨ x.mem = []) : Keep b0 x := by
  refine ⟨⟨hf.trans h.fuses.1, hv ▸ h.fuses.2.1, fun k hk => ?_⟩, fun c => ⟨hr (h.canon c).1, ?_⟩⟩
  · have := h.fuses.2.2 k hk
    simpa only [usedAt, ownerSlot, hs] using this
  · rcases hm with hm | hm <;> rw [hm]
    · exact (h.canon c).2
    · rfl

/-- An answer of the loader: where there is a state, it is kept. -/
def KeepE {β : Type} (b : State) (e : Except Nat (State × β)) : Prop := ∀ x, e = .ok x → Keep b x.1
theorem keepE_bind {α β : Type} {e : Except Nat α} {f : α → Except Nat (State × β)} (h : ∀ a, KeepE b0 (f a)) : KeepE b0 (e >>= f) := by
  intro x hx
  cases e with
  | error _ => cases hx
  | ok a => exact h a x hx
theorem keepE_throw {β : Type} {n : Nat} : KeepE (β := β) b0 (throw n) := by intro x hx; cases hx
theorem keepE_pure {β : Type} {p : State × β} (h : Keep b0 p.1) : KeepE b0 (pure p) := by intro x hx; cases hx; exact h
theorem keepE_ite {β : Type} {c : Prop} [Decidable c] {x y : Except Nat (State × β)} (hx : KeepE b0 x) (hy : KeepE b0 y) : KeepE b0 (if c then x else y) := by split <;>
    assumption
theorem keep_mkSec2 (h : Keep b0 s) : Keep b0 ⟨s.regs, s.mem, v_beatErr, v_sram, v_cores, v_firnStacks, v_regions, v_clusters, v_floes, v_rails, v_ccs, v_ports,
    v_tracker, v_trace, v_temps, v_signals, v_flights, v_refusals, v_credits, v_firnWait, v_firnEnt, v_net, s.fuses, v_time, v_pwr, v_host, v_sess, ⟨w_lifeState,
    s.sec.slots, w_cur, w_provKey, w_burning, s.sec.svn, w_pushIdx, w_bootCnt, w_mhash, w_bootWait, w_warm, w_signing⟩, v_tap, v_mirror, v_serve, v_pins, v_xferId,
    v_sendNo, v_resetting, v_rstJob, v_alloc, v_draws, v_pending⟩ := ⟨h.fuses, h.canon⟩

-- one lemma per operation ----------------------------------------------------------------------------------------------------------

theorem keep_setR {b0 : State} (s : State) (off : Nat) (v : BitVec 32) (hk : Keep b0 s) : Keep b0 (setR s off v) := by
  unfold setR
  try dsimp only
  repeat' first
      | (with_reducible assumption) | (exact fun h => mwf_mset _ _ _ _ h) | (exact fun h => mwf_filter _ _ _ h) | (exact fun h => mwf_memWrite _ _ _ h) | split
      | (dsimp only) | (with_reducible apply keep_mk) | (with_reducible apply keep_mkRegs)

theorem keep_setF {b0 : State} (s : State) (off lo w v : Nat) (hk : Keep b0 s) : Keep b0 (setF s off lo w v) := by
  unfold setF
  try dsimp only
  repeat' first | (with_reducible assumption) | (with_reducible apply keep_setR)

theorem keep_setFlags {b0 : State} (s : State) (c fl : Nat) (hk : Keep b0 s) : Keep b0 (setFlags s c fl) := by
  unfold setFlags
  try dsimp only
  repeat' first | (with_reducible assumption) | (with_reducible apply keep_setF)

theorem keep_setR64 {b0 : State} (s : State) (off v : Nat) (hk : Keep b0 s) : Keep b0 (setR64 s off v) := by
  unfold setR64
  try dsimp only
  repeat' first | (with_reducible assumption) | (with_reducible apply keep_setR)

theorem keep_add64 {b0 : State} (s : State) (off n : Nat) (hk : Keep b0 s) : Keep b0 (add64 s off n) := by
  unfold add64
  try dsimp only
  repeat' first | (with_reducible assumption) | (with_reducible apply keep_setR64)

theorem keep_satF {b0 : State} (s : State) (off lo w n : Nat) (hk : Keep b0 s) : Keep b0 (satF s off lo w n) := by
  unfold satF
  try dsimp only
  repeat' first | (with_reducible assumption) | (with_reducible apply keep_setF)

theorem keep_ledReturn1 {b0 : State} (s : State) (q : Nat) (hk : Keep b0 s) : Keep b0 (ledReturn1 s q) := by
  unfold ledReturn1
  try dsimp only
  repeat' first
      | (with_reducible assumption) | (with_reducible apply keep_add64) | (with_reducible apply keep_satF) | (with_reducible apply keep_ite)

theorem keep_sigReturn {b0 : State} (s : State) (g : Sig) (hk : Keep b0 s) : Keep b0 (sigReturn s g) := by
  unfold sigReturn
  try dsimp only
  repeat' first | (with_reducible assumption) | (with_reducible apply keep_ledReturn1) | (with_reducible apply keep_ite)

theorem keep_setCore {b0 : State} (s : State) (c : Nat) (x : CoreSt) (hk : Keep b0 s) : Keep b0 (setCore s c x) := by
  unfold setCore
  try dsimp only
  repeat' first | (with_reducible assumption) | split | (dsimp only) | (with_reducible apply keep_mk)

theorem keep_modCore {b0 : State} (s : State) (c : Nat) (f : CoreSt → CoreSt) (hk : Keep b0 s) : Keep b0 (modCore s c f) := by
  unfold modCore
  try dsimp only
  repeat' first | (with_reducible assumption) | (with_reducible apply keep_setCore)

theorem keep_occupy {b0 : State} (s : State) (c p k : Nat) (hk : Keep b0 s) : Keep b0 (occupy s c p k) := keep_modCore _ _ _ hk

theorem keep_setDesc {b0 : State} (s : State) (c d : Nat) (x : DescSt) (hk : Keep b0 s) : Keep b0 (setDesc s c d x) := by
  unfold setDesc
  try dsimp only
  repeat' first | (with_reducible assumption) | (with_reducible apply keep_modCore)

theorem keep_ledReturn {b0 : State} (s : State) (q : Nat) (y0 : Nat) (hk : Keep b0 s) : Keep b0 (ledReturn s q y0) := by
  induction y0 generalizing s q with
  | zero =>
    unfold ledReturn
    repeat' first | (with_reducible assumption)
  | succ _ ih =>
    unfold ledReturn
    repeat' first | (with_reducible assumption) | (with_reducible apply ih) | (with_reducible apply keep_ledReturn1)

theorem keep_stopDesc {b0 : State} (s : State) (c d : Nat) (hk : Keep b0 s) : Keep b0 (stopDesc s c d) := by
  unfold stopDesc
  try dsimp only
  repeat' first
      | (with_reducible assumption) | (with_reducible apply keep_ledReturn) | (with_reducible apply keep_setDesc) | (with_reducible apply keep_ite) | split
      

theorem keep_haltDesc {b0 : State} (s : State) (c d : Nat) (hk : Keep b0 s) : Keep b0 (haltDesc s c d) := by
  unfold haltDesc
  try dsimp only
  repeat' first
      | (with_reducible assumption) | (with_reducible apply keep_setDesc) | (with_reducible apply keep_stopDesc) | (with_reducible apply keep_ite) | split
      

theorem keep_setSlot {b0 : State} (s : State) (c t : Nat) (x : SlotSt) (hk : Keep b0 s) : Keep b0 (setSlot s c t x) := by
  unfold setSlot
  try dsimp only
  repeat' first | (with_reducible assumption) | (with_reducible apply keep_modCore)

theorem keep_modSlot {b0 : State} (s : State) (c t : Nat) (f : SlotSt → SlotSt) (hk : Keep b0 s) : Keep b0 (modSlot s c t f) := by
  unfold modSlot
  try dsimp only
  repeat' first | (with_reducible assumption) | (with_reducible apply keep_setSlot)

theorem keep_setSlotState {b0 : State} (s : State) (c t v : Nat) (hk : Keep b0 s) : Keep b0 (setSlotState s c t v) := by
  unfold setSlotState
  try dsimp only
  repeat' first | (with_reducible assumption) | (with_reducible apply keep_setF)

theorem keep_readyMates {b0 : State} (s : State) (c t : Nat) (hk : Keep b0 s) : Keep b0 (readyMates s c t) := by
  unfold readyMates
  try dsimp only
  repeat' first
      | (with_reducible assumption) | (with_reducible apply keep_setSlotState) | (with_reducible apply keep_ite) | (with_reducible apply keep_foldl) | split
      | (intro _ _ _)

theorem keep_setRing {b0 : State} (s : State) (c e : Nat) (r : List RingMsg) (hk : Keep b0 s) : Keep b0 (setRing s c e r) := by
  unfold setRing
  try dsimp only
  repeat' first | (with_reducible assumption) | (with_reducible apply keep_modCore)

theorem keep_grantMsg {b0 : State} (s : State) (c e : Nat) (hk : Keep b0 s) : Keep b0 (grantMsg s c e) := by
  unfold grantMsg
  try dsimp only
  repeat' first
      | (with_reducible assumption) | (with_reducible apply keep_modSlot) | (with_reducible apply keep_readyMates) | (with_reducible apply keep_setRing)
      | (with_reducible apply keep_setSlotState) | (with_reducible apply keep_ite) | (with_reducible apply keep_foldl) | split | (intro _ _ _)
      

theorem keep_dropMres {b0 : State} (s : State) (c t : Nat) (hk : Keep b0 s) : Keep b0 (dropMres s c t) := by
  unfold dropMres
  try dsimp only
  repeat' first
      | (with_reducible assumption) | (with_reducible apply keep_grantMsg) | (with_reducible apply keep_modSlot) | (with_reducible apply keep_setRing)
      | (with_reducible apply keep_ite) | split

theorem keep_grantSlot {b0 : State} (s : State) (c n t : Nat) (hk : Keep b0 s) : Keep b0 (grantSlot s c n t) := by
  unfold grantSlot
  try dsimp only
  repeat' first
      | (with_reducible assumption) | (with_reducible apply keep_modSlot) | (with_reducible apply keep_readyMates) | (with_reducible apply keep_setSlotState)
      | (with_reducible apply keep_ite) | split

theorem keep_grantAll {b0 : State} (s : State) (c n : Nat) (hk : Keep b0 s) : Keep b0 (grantAll s c n) := by
  unfold grantAll
  try dsimp only
  repeat' first | (with_reducible assumption) | (with_reducible apply keep_grantSlot)

theorem keep_dropResv {b0 : State} (s : State) (c t : Nat) (hk : Keep b0 s) : Keep b0 (dropResv s c t) := by
  unfold dropResv
  try dsimp only
  repeat' first
      | (with_reducible assumption) | (with_reducible apply keep_grantAll) | (with_reducible apply keep_modSlot) | split

theorem keep_dropAllResv {b0 : State} (s : State) (c t : Nat) (hk : Keep b0 s) : Keep b0 (dropAllResv s c t) := by
  unfold dropAllResv
  try dsimp only
  repeat' first | (with_reducible assumption) | (with_reducible apply keep_dropMres) | (with_reducible apply keep_dropResv)

theorem keep_oweReply {b0 : State} (s : State) (c pkg core ich : Nat) (ws : List (BitVec 64)) (hk : Keep b0 s) : Keep b0 (oweReply s c pkg core ich ws) := by
  unfold oweReply
  try dsimp only
  repeat' first | (with_reducible assumption) | (with_reducible apply keep_modCore)

theorem keep_nullReply {b0 : State} (s : State) (c e : Nat) (count : Bool) (hk : Keep b0 s) : Keep b0 (nullReply s c e count) := by
  unfold nullReply
  try dsimp only
  repeat' first
      | (with_reducible assumption) | (with_reducible apply keep_oweReply) | (with_reducible apply keep_satF) | (with_reducible apply keep_setR64)
      | (with_reducible apply keep_ite)

theorem keep_nullRepliesOf {b0 : State} (s : State) (c t : Nat) (hk : Keep b0 s) : Keep b0 (nullRepliesOf s c t) := by
  unfold nullRepliesOf
  try dsimp only
  repeat' first
      | (with_reducible assumption) | (with_reducible apply keep_nullReply) | (with_reducible apply keep_ite) | (with_reducible apply keep_foldl) | split | (intro _ _ _)
      

theorem keep_faultSlot {b0 : State} (s : State) (c t : Nat) (hk : Keep b0 s) : Keep b0 (faultSlot s c t) := by
  unfold faultSlot
  try dsimp only
  repeat' first
      | (with_reducible assumption) | (with_reducible apply keep_dropAllResv) | (with_reducible apply keep_modSlot) | (with_reducible apply keep_nullRepliesOf)
      | (with_reducible apply keep_setSlotState) | (with_reducible apply keep_ite)

theorem keep_setFloe {b0 : State} (s : State) (cl f : Nat) (x : FloeSt) (hk : Keep b0 s) : Keep b0 (setFloe s cl f x) := by
  unfold setFloe
  try dsimp only
  repeat' first | (with_reducible assumption) | split | (dsimp only) | (with_reducible apply keep_mk)

theorem keep_stallSince {b0 : State} (s : State) (cl f r : Nat) (hk : Keep b0 s) : Keep b0 (stallSince s cl f r) := by
  unfold stallSince
  try dsimp only
  repeat' first
      | (with_reducible assumption) | (with_reducible apply keep_setFloe) | (with_reducible apply keep_ite)

theorem keep_setTrace {b0 : State} (s : State) (d : Nat) (r : List (List (BitVec 64))) (hk : Keep b0 s) : Keep b0 (setTrace s d r) := by
  unfold setTrace
  try dsimp only
  repeat' first | (with_reducible assumption) | split | (dsimp only) | (with_reducible apply keep_mk)

theorem keep_traceRec {b0 : State} (s : State) (d typ core slot floe fcyc w2 w3 : Nat) (hk : Keep b0 s) : Keep b0 (traceRec s d typ core slot floe fcyc w2 w3) := by
  unfold traceRec
  try dsimp only
  repeat' first
      | (with_reducible assumption) | (with_reducible apply keep_satF) | (with_reducible apply keep_setTrace) | (with_reducible apply keep_ite)

theorem keep_traceOfFloe {b0 : State} (s : State) (cl f typ w2 w3 : Nat) (hk : Keep b0 s) : Keep b0 (traceOfFloe s cl f typ w2 w3) := by
  unfold traceOfFloe
  try dsimp only
  repeat' first | (with_reducible assumption) | (with_reducible apply keep_traceRec) | (with_reducible apply keep_ite)

theorem keep_setFloeReason {b0 : State} (s : State) (cl f r : Nat) (hk : Keep b0 s) : Keep b0 (setFloeReason s cl f r) := by
  unfold setFloeReason
  try dsimp only
  repeat' first
      | (with_reducible assumption) | (with_reducible apply keep_setF) | (with_reducible apply keep_stallSince) | (with_reducible apply keep_traceOfFloe)
      | (with_reducible apply keep_ite)

theorem keep_stopFloe {b0 : State} (s : State) (cl f : Nat) (hk : Keep b0 s) : Keep b0 (stopFloe s cl f) := by
  unfold stopFloe
  try dsimp only
  repeat' first
      | (with_reducible assumption) | (with_reducible apply keep_faultSlot) | (with_reducible apply keep_setFloe) | (with_reducible apply keep_setFloeReason)
      | (with_reducible apply keep_foldl) | (with_reducible apply keep_fst) | split | (intro _ _ _)

theorem keep_stopCore {b0 : State} (s : State) (c : Nat) (hk : Keep b0 s) : Keep b0 (stopCore s c) := by
  unfold stopCore
  try dsimp only
  repeat' first
      | (with_reducible assumption) | (with_reducible apply keep_faultSlot) | (with_reducible apply keep_stopFloe) | (with_reducible apply keep_ite)
      | (with_reducible apply keep_foldl) | split | (intro _ _ _)

theorem keep_stopCluster {b0 : State} (s : State) (cl : Nat) (hk : Keep b0 s) : Keep b0 (stopCluster s cl) := by
  unfold stopCluster
  try dsimp only
  repeat' first | (with_reducible assumption) | (with_reducible apply keep_stopCore) | (with_reducible apply keep_foldl) | split | (intro _ _ _)

theorem keep_haltDie {b0 : State} (s : State) (d : Nat) (hk : Keep b0 s) : Keep b0 (haltDie s d) := by
  unfold haltDie
  try dsimp only
  repeat' first
      | (with_reducible assumption) | (with_reducible apply keep_haltDesc) | (with_reducible apply keep_setF) | (with_reducible apply keep_stopCluster)
      | (with_reducible apply keep_foldl) | split | (intro _ _ _)

theorem keep_setAlert {b0 : State} (s : State) (hk : Keep b0 s) : Keep b0 (setAlert s) := by
  unfold setAlert
  try dsimp only
  repeat' first | (with_reducible assumption) | split | (dsimp only) | (with_reducible apply keep_mk)

theorem keep_stopFloeOf {b0 : State} (s : State) (c t : Nat) (hk : Keep b0 s) : Keep b0 (stopFloeOf s c t) := by
  unfold stopFloeOf
  try dsimp only
  repeat' first
      | (with_reducible assumption) | (with_reducible apply keep_faultSlot) | (with_reducible apply keep_stopFloe) | (with_reducible apply keep_ite) | split
      

theorem keep_contain {b0 : State} (s : State) (d tier : Nat) (e : Ev) (hk : Keep b0 s) : Keep b0 (contain s d tier e) := by
  unfold contain
  try dsimp only
  repeat' first
      | (with_reducible assumption) | (with_reducible apply keep_haltDie) | (with_reducible apply keep_setAlert) | (with_reducible apply keep_stopCluster)
      | (with_reducible apply keep_stopCore) | (with_reducible apply keep_stopFloeOf) | (with_reducible apply keep_ite) | split

theorem keep_fillFirst {b0 : State} (s : State) (d tier : Nat) (e : Ev) (hk : Keep b0 s) : Keep b0 (fillFirst s d tier e) := by
  unfold fillFirst
  try dsimp only
  repeat' first | (with_reducible assumption) | (with_reducible apply keep_setR64)

theorem keep_logEvent {b0 : State} (s : State) (d tier : Nat) (e : Ev) (hk : Keep b0 s) : Keep b0 (logEvent s d tier e) := by
  unfold logEvent
  try dsimp only
  repeat' first
      | (with_reducible assumption) | (with_reducible apply keep_fillFirst) | (with_reducible apply keep_setF) | (with_reducible apply keep_setR64)
      | (with_reducible apply keep_ite)

theorem keep_msix {b0 : State} (s : State) (v : Nat) (hk : Keep b0 s) : Keep b0 (msix s v) := by
  unfold msix
  try dsimp only
  repeat' first | (with_reducible assumption) | (with_reducible apply keep_ite) | split | (dsimp only) | (with_reducible apply keep_mk)

theorem keep_hostIrq {b0 : State} (s : State) (b : Nat) (hk : Keep b0 s) : Keep b0 (hostIrq s b) := by
  unfold hostIrq
  try dsimp only
  repeat' first
      | (with_reducible assumption) | (with_reducible apply keep_msix) | (with_reducible apply keep_setR64) | (with_reducible apply keep_ite)

theorem keep_reportEvent {b0 : State} (s : State) (d : Nat) (e : Ev) (hk : Keep b0 s) : Keep b0 (reportEvent s d e) := by
  unfold reportEvent
  try dsimp only
  repeat' first
      | (with_reducible assumption) | (with_reducible apply keep_hostIrq) | (with_reducible apply keep_setAlert) | (with_reducible apply keep_setF)
      | (with_reducible apply keep_ite) | (with_reducible apply keep_foldl) | split | (intro _ _ _)

theorem keep_raiseEv {b0 : State} (s : State) (d : Nat) (e : Ev) (hk : Keep b0 s) : Keep b0 (raiseEv s d e) := by
  unfold raiseEv
  try dsimp only
  repeat' first
      | (with_reducible assumption) | (with_reducible apply keep_contain) | (with_reducible apply keep_logEvent) | (with_reducible apply keep_reportEvent)
      | (with_reducible apply keep_satF) | (with_reducible apply keep_setF) | (with_reducible apply keep_traceRec) | (with_reducible apply keep_ite)
      

theorem keep_raiseCore {b0 : State} (s : State) (c t cls sev home addr detail aux : Nat) (hk : Keep b0 s) : Keep b0 (raiseCore s c t cls sev home addr detail aux) := by
  unfold raiseCore
  try dsimp only
  repeat' first | (with_reducible assumption) | (with_reducible apply keep_raiseEv)

theorem keep_ovfWaiters {b0 : State} (s : State) (c n : Nat) (hk : Keep b0 s) : Keep b0 (ovfWaiters s c n) := by
  unfold ovfWaiters
  try dsimp only
  repeat' first
      | (with_reducible assumption) | (with_reducible apply keep_raiseCore) | (with_reducible apply keep_ite) | (with_reducible apply keep_foldl) | split | (intro _ _ _)
      

theorem keep_applySignal {b0 : State} (s : State) (g : Sig) (hk : Keep b0 s) : Keep b0 (applySignal s g) := by
  unfold applySignal
  try dsimp only
  repeat' first
      | (with_reducible assumption) | (with_reducible apply keep_grantAll) | (with_reducible apply keep_ovfWaiters) | (with_reducible apply keep_raiseEv)
      | (with_reducible apply keep_satF) | (with_reducible apply keep_setF) | (with_reducible apply keep_setR64) | (with_reducible apply keep_sigReturn)
      | (with_reducible apply keep_ite)

theorem keep_signalApply {b0 : State} (s : State) (c : Nat) (hk : Keep b0 s) : Keep b0 (signalApply s c) := by
  unfold signalApply
  try dsimp only
  repeat' first
      | (with_reducible assumption) | (with_reducible apply keep_applySignal) | (with_reducible apply keep_ite) | split | (dsimp only) | (with_reducible apply keep_mk)

theorem keep_ledIssue {b0 : State} (s : State) (q n : Nat) (hk : Keep b0 s) : Keep b0 (ledIssue s q n) := by
  unfold ledIssue
  try dsimp only
  repeat' first | (with_reducible assumption) | (with_reducible apply keep_add64)

theorem keep_sendSignal {b0 : State} (s : State) (g : Sig) (hk : Keep b0 s) : Keep b0 (sendSignal s g) := by
  unfold sendSignal
  try dsimp only
  repeat' first | (with_reducible assumption) | (with_reducible apply keep_ledIssue) | split | (dsimp only) | (with_reducible apply keep_mk)

theorem keepQ_drawFree {b0 : State} (s : State) (hk : Keep b0 s) : KeepQ b0 (drawFree s) := by
  unfold drawFree
  try dsimp only
  repeat' first
      | (with_reducible assumption) | (with_reducible apply keep_snd) | (with_reducible refine keep_eqQ ‹_ = (_, _)› ?_) | split | (dsimp only)
      | (with_reducible apply keepQ_mk) | (with_reducible apply keep_mk)

theorem keepQ_netItem {b0 : State} (s : State) (marks : Nat) (load : NetLoad) (hk : Keep b0 s) : KeepQ b0 (netItem s marks load) := by
  unfold netItem
  try dsimp only
  repeat' first
      | (with_reducible assumption) | (with_reducible apply keepQ_drawFree) | (with_reducible apply keep_snd) | (with_reducible refine keep_eqQ ‹_ = (_, _)› ?_) | split
      | (dsimp only) | (with_reducible apply keepQ_mk)

theorem keep_setOut {b0 : State} (s : State) (k : Nat) (q : List NetItem) (hk : Keep b0 s) : Keep b0 (setOut s k q) := by
  unfold setOut
  try dsimp only
  repeat' first | (with_reducible assumption) | split | (dsimp only) | (with_reducible apply keep_mk)

theorem keep_outPush {b0 : State} (s : State) (cl l src marks : Nat) (load : NetLoad) (hk : Keep b0 s) : Keep b0 (outPush s cl l src marks load) := by
  unfold outPush
  try dsimp only
  repeat' first
      | (with_reducible assumption) | (with_reducible apply keepQ_netItem) | (with_reducible apply keep_setOut) | (with_reducible apply keep_snd)
      

theorem keep_coreOut {b0 : State} (s : State) (c marks : Nat) (load : NetLoad) (hk : Keep b0 s) : Keep b0 (coreOut s c marks load) := by
  unfold coreOut
  try dsimp only
  repeat' first | (with_reducible assumption) | (with_reducible apply keep_outPush)

theorem keep_coreSend {b0 : State} (s : State) (c : Nat) (g : Sig) (hk : Keep b0 s) : Keep b0 (coreSend s c g) := by
  unfold coreSend
  try dsimp only
  repeat' first
      | (with_reducible assumption) | (with_reducible apply keep_coreOut) | (with_reducible apply keep_ledIssue) | (with_reducible apply keep_sendSignal)
      | (with_reducible apply keep_ite)

theorem keep_sigcRun {b0 : State} (s : State) (c w : Nat) (hk : Keep b0 s) : Keep b0 (sigcRun s c w) := by
  unfold sigcRun
  try dsimp only
  repeat' first | (with_reducible assumption) | (with_reducible apply keep_coreSend)

theorem keep_waitcRun {b0 : State} (s : State) (c t w : Nat) (hk : Keep b0 s) : Keep b0 (waitcRun s c t w) := by
  unfold waitcRun
  try dsimp only
  repeat' first
      | (with_reducible assumption) | (with_reducible apply keep_modSlot) | (with_reducible apply keep_setF)

theorem keep_ctrAdvance {b0 : State} (s : State) (c n : Nat) (hk : Keep b0 s) : Keep b0 (ctrAdvance s c n) := by
  unfold ctrAdvance
  try dsimp only
  repeat' first | (with_reducible assumption) | (with_reducible apply keep_setF) | (with_reducible apply keep_setR)

theorem keep_ctrStart {b0 : State} (s : State) (c t : Nat) (hk : Keep b0 s) : Keep b0 (ctrStart s c t) := by
  unfold ctrStart
  try dsimp only
  repeat' first | (with_reducible assumption) | (with_reducible apply keep_setF) | (with_reducible apply keep_foldl) | split | (intro _ _ _)

theorem keep_ctrResidue {b0 : State} (s : State) (c t : Nat) (hk : Keep b0 s) : Keep b0 (ctrResidue s c t) := by
  unfold ctrResidue
  try dsimp only
  repeat' first
      | (with_reducible assumption) | (with_reducible apply keep_raiseCore) | (with_reducible apply keep_setF) | (with_reducible apply keep_ite)
      | (with_reducible apply keep_foldl) | split | (intro _ _ _)

theorem keep_setCredOut {b0 : State} (s : State) (c o n : Nat) (hk : Keep b0 s) : Keep b0 (setCredOut s c o n) := by
  unfold setCredOut
  try dsimp only
  repeat' first | (with_reducible assumption) | (with_reducible apply keep_modCore)

theorem keep_setReclaim {b0 : State} (s : State) (c o n : Nat) (hk : Keep b0 s) : Keep b0 (setReclaim s c o n) := by
  unfold setReclaim
  try dsimp only
  repeat' first | (with_reducible assumption) | (with_reducible apply keep_modCore)

theorem keep_setStrayed {b0 : State} (s : State) (c o n : Nat) (hk : Keep b0 s) : Keep b0 (setStrayed s c o n) := by
  unfold setStrayed
  try dsimp only
  repeat' first | (with_reducible assumption) | (with_reducible apply keep_modCore)

theorem keepP_credBack {b0 : State} (s : State) (c o : Nat) (hk : Keep b0 s) : KeepP b0 (credBack s c o) := by
  unfold credBack
  try dsimp only
  repeat' first
      | (with_reducible assumption) | (with_reducible apply keep_ledReturn1) | (with_reducible apply keep_satF) | (with_reducible apply keep_setCredOut)
      | (with_reducible apply keep_setF) | (with_reducible apply keep_setReclaim) | (with_reducible apply keep_setStrayed) | (with_reducible apply keep_ite)
      | (with_reducible apply keepP_ite) | (with_reducible apply keep_fst) | (with_reducible refine keep_eqP ‹_ = (_, _)› ?_) | split | (dsimp only)
      | (with_reducible apply keepP_mk)

theorem keep_creditReturn {b0 : State} (s : State) (c o : Nat) (hk : Keep b0 s) : Keep b0 (creditReturn s c o) := by
  unfold creditReturn
  try dsimp only
  repeat' first
      | (with_reducible assumption) | (with_reducible apply keepP_credBack) | (with_reducible apply keep_ite) | (with_reducible apply keep_fst)
      | (with_reducible refine keep_eqP ‹_ = (_, _)› ?_) | split | (dsimp only) | (with_reducible apply keep_mk)

theorem keep_portDrop {b0 : State} (s : State) (p : Nat) (hk : Keep b0 s) : Keep b0 (portDrop s p) := by
  unfold portDrop
  try dsimp only
  repeat' first | (with_reducible assumption) | (with_reducible apply keep_satF)

theorem keep_setPort {b0 : State} (s : State) (p : Nat) (x : PortSt) (hk : Keep b0 s) : Keep b0 (setPort s p x) := by
  unfold setPort
  try dsimp only
  repeat' first | (with_reducible assumption) | split | (dsimp only) | (with_reducible apply keep_mk)

theorem keep_emitFlit {b0 : State} (s : State) (p : Nat) (f : FlitRec) (hk : Keep b0 s) : Keep b0 (emitFlit s p f) := by
  unfold emitFlit
  try dsimp only
  repeat' first
      | (with_reducible assumption) | (with_reducible apply keep_setPort)

theorem keep_sendNumbered {b0 : State} (s : State) (p : Nat) (f : FlitRec) (hk : Keep b0 s) : Keep b0 (sendNumbered s p f) := by
  unfold sendNumbered
  try dsimp only
  repeat' first
      | (with_reducible assumption) | (with_reducible apply keep_emitFlit) | (with_reducible apply keep_setPort)
      

theorem keep_drainOne {b0 : State} (s : State) (p k : Nat) (hk : Keep b0 s) : Keep b0 (drainOne s p k) := by
  unfold drainOne
  try dsimp only
  repeat' first
      | (with_reducible assumption) | (with_reducible apply keep_ledIssue) | (with_reducible apply keep_sendNumbered) | (with_reducible apply keep_setPort)
      | (with_reducible apply keep_ite) | split | (dsimp only) | (with_reducible apply keep_mk)

theorem keep_portDrain {b0 : State} (s : State) (p : Nat) (y0 : Nat) (hk : Keep b0 s) : Keep b0 (portDrain s p y0) := by
  induction y0 generalizing s p with
  | zero =>
    unfold portDrain
    repeat' first | (with_reducible assumption)
  | succ _ ih =>
    unfold portDrain
    repeat' first | (with_reducible assumption) | (with_reducible apply ih) | (with_reducible apply keep_drainOne) | split

theorem keep_portIdle {b0 : State} (s : State) (p : Nat) (hk : Keep b0 s) : Keep b0 (portIdle s p) := by
  unfold portIdle
  try dsimp only
  repeat' first
      | (with_reducible assumption) | (with_reducible apply keep_emitFlit) | (with_reducible apply keep_sendNumbered) | (with_reducible apply keep_setPort)
      | (with_reducible apply keep_ite)

theorem keep_portFlush {b0 : State} (s : State) (p : Nat) (hk : Keep b0 s) : Keep b0 (portFlush s p) := by
  unfold portFlush
  try dsimp only
  repeat' first | (with_reducible assumption) | (with_reducible apply keep_portDrain) | (with_reducible apply keep_portIdle)

theorem keep_txPush {b0 : State} (s : State) (p cls : Nat) (k : Packet) (hk : Keep b0 s) : Keep b0 (txPush s p cls k) := by
  unfold txPush
  try dsimp only
  repeat' first
      | (with_reducible assumption) | (with_reducible apply keep_portFlush) | (with_reducible apply keep_setPort)

theorem keep_fabRespond {b0 : State} (s : State) (k : Packet) (hk : Keep b0 s) : Keep b0 (fabRespond s k) := by
  unfold fabRespond
  try dsimp only
  repeat' first | (with_reducible assumption) | (with_reducible apply keep_portDrop) | (with_reducible apply keep_txPush) | split

theorem keep_creditToSender {b0 : State} (s : State) (m : RingMsg) (hk : Keep b0 s) : Keep b0 (creditToSender s m) := by
  unfold creditToSender
  try dsimp only
  repeat' first
      | (with_reducible assumption) | (with_reducible apply keep_fabRespond) | (with_reducible apply keep_ite) | split | (dsimp only) | (with_reducible apply keep_mk)

theorem keep_dropRsv {b0 : State} (s : State) (c e : Nat) (hk : Keep b0 s) : Keep b0 (dropRsv s c e) := by
  unfold dropRsv
  try dsimp only
  repeat' first
      | (with_reducible assumption) | (with_reducible apply keep_ledReturn1) | (with_reducible apply keep_setF) | (with_reducible apply keep_ite)

theorem keep_holdMsg {b0 : State} (s : State) (c o : Nat) (ws : List (BitVec 64)) (hk : Keep b0 s) : Keep b0 (holdMsg s c o ws) := by
  unfold holdMsg
  try dsimp only
  repeat' first
      | (with_reducible assumption) | (with_reducible apply keep_satF) | (with_reducible apply keep_setF) | (with_reducible apply keep_setR64)
      | (with_reducible apply keep_ite) | (with_reducible apply keep_foldl) | split | (intro _ _ _)

theorem keep_msgReturned {b0 : State} (s : State) (c o t cls : Nat) (full rres : Bool) (ws : List (BitVec 64)) (hk : Keep b0 s) : Keep b0 (msgReturned s c o t cls full
    rres ws) := by
  unfold msgReturned
  try dsimp only
  repeat' first
      | (with_reducible assumption) | (with_reducible apply keepP_credBack) | (with_reducible apply keep_dropRsv) | (with_reducible apply keep_holdMsg)
      | (with_reducible apply keep_raiseCore) | (with_reducible apply keep_setF) | (with_reducible apply keep_ite) | (with_reducible apply keep_fst)
      

theorem keep_messageReturn {b0 : State} (s : State) (c o : Nat) (hk : Keep b0 s) : Keep b0 (messageReturn s c o) := by
  unfold messageReturn
  try dsimp only
  repeat' first
      | (with_reducible assumption) | (with_reducible apply keep_msgReturned) | (with_reducible apply keep_ite) | split | (dsimp only) | (with_reducible apply keep_mk)

theorem keep_enterRing {b0 : State} (s : State) (c e : Nat) (m : RingMsg) (hk : Keep b0 s) : Keep b0 (enterRing s c e m) := by
  unfold enterRing
  try dsimp only
  repeat' first
      | (with_reducible assumption) | (with_reducible apply keep_grantMsg) | (with_reducible apply keep_ledIssue) | (with_reducible apply keep_satF)
      | (with_reducible apply keep_setF) | (with_reducible apply keep_setRing) | (with_reducible apply keep_ite)

theorem keep_fabError {b0 : State} (s : State) (hdr : PktHdr) (status why : Nat) (payload : List Byte) (hk : Keep b0 s) : Keep b0 (fabError s hdr status why payload) :=
    by
  unfold fabError
  try dsimp only
  repeat' first | (with_reducible assumption) | (with_reducible apply keep_fabRespond)

theorem keep_fabAck {b0 : State} (s : State) (hdr : PktHdr) (hk : Keep b0 s) : Keep b0 (fabAck s hdr) := by
  unfold fabAck
  try dsimp only
  repeat' first | (with_reducible assumption) | (with_reducible apply keep_fabRespond)

theorem keep_refuse {b0 : State} (s : State) (f : Flight) (rank full : Bool) (hk : Keep b0 s) : Keep b0 (refuse s f rank full) := by
  unfold refuse
  try dsimp only
  repeat' first
      | (with_reducible assumption) | (with_reducible apply keep_fabError) | (with_reducible apply keep_satF) | (with_reducible apply keep_ite) | split | (dsimp only)
      | (with_reducible apply keep_mk)

theorem keep_arriveAt {b0 : State} (s : State) (f : Flight) (hk : Keep b0 s) : Keep b0 (arriveAt s f) := by
  unfold arriveAt
  try dsimp only
  repeat' first
      | (with_reducible assumption) | (with_reducible apply keep_enterRing) | (with_reducible apply keep_fabAck) | (with_reducible apply keep_raiseEv)
      | (with_reducible apply keep_refuse) | (with_reducible apply keep_ite) | split

theorem keep_messageArrive {b0 : State} (s : State) (c pkg src och : Nat) (hk : Keep b0 s) : Keep b0 (messageArrive s c pkg src och) := by
  unfold messageArrive
  try dsimp only
  repeat' first
      | (with_reducible assumption) | (with_reducible apply keep_arriveAt) | (with_reducible apply keep_ite) | split | (dsimp only) | (with_reducible apply keep_mk)

theorem keep_illegal {b0 : State} (s : State) (c t reason idx : Nat) (w : Nat) (hk : Keep b0 s) : Keep b0 (illegal s c t reason idx w) := by
  unfold illegal
  try dsimp only
  repeat' first
      | (with_reducible assumption) | (with_reducible apply keep_raiseCore) | (with_reducible apply keep_setR) | (with_reducible apply keep_setR64)
      | (with_reducible apply keep_ite)

theorem keepO_sendFault {b0 : State} (s : State) (c t idx w : Nat) (hk : Keep b0 s) : KeepO b0 (sendFault s c t idx w) := by
  unfold sendFault
  try dsimp only
  repeat' first
      | (with_reducible assumption) | (with_reducible apply keep_holdMsg) | (with_reducible apply keep_illegal) | (with_reducible apply keep_raiseCore)
      | (with_reducible apply keep_ite) | (with_reducible apply keepO_ite) | (with_reducible apply keepO_some) | (with_reducible apply keepO_none)
      

theorem keep_msgFailed {b0 : State} (s : State) (c o t st : Nat) (rres : Bool) (ws : List (BitVec 64)) (hk : Keep b0 s) : Keep b0 (msgFailed s c o t st rres ws) := by
  unfold msgFailed
  try dsimp only
  repeat' first
      | (with_reducible assumption) | (with_reducible apply keepP_credBack) | (with_reducible apply keep_enterRing) | (with_reducible apply keep_holdMsg)
      | (with_reducible apply keep_raiseCore) | (with_reducible apply keep_setF) | (with_reducible apply keep_stopFloeOf) | (with_reducible apply keep_ite)
      | (with_reducible apply keep_fst)

theorem keep_replyFailed {b0 : State} (s : State) (c st : Nat) (hk : Keep b0 s) : Keep b0 (replyFailed s c st) := by
  unfold replyFailed
  try dsimp only
  repeat' first | (with_reducible assumption) | (with_reducible apply keep_raiseEv)

theorem keep_sendOut {b0 : State} (s : State) (src : Option Nat) (p cls : Nat) (k : Packet) (hk : Keep b0 s) : Keep b0 (sendOut s src p cls k) := by
  unfold sendOut
  try dsimp only
  repeat' first | (with_reducible assumption) | (with_reducible apply keep_coreOut) | (with_reducible apply keep_txPush) | split

theorem keep_setTrk {b0 : State} (s : State) (t : Nat) (x : TrkEnt) (hk : Keep b0 s) : Keep b0 (setTrk s t x) := by
  unfold setTrk
  try dsimp only
  repeat' first | (with_reducible assumption) | split | (dsimp only) | (with_reducible apply keep_mk)

theorem keepQ_trkTake {b0 : State} (s : State) (who : TrkWho) (port : Nat) (hk : Keep b0 s) : KeepQ b0 (trkTake s who port) := by
  unfold trkTake
  try dsimp only
  repeat' first
      | (with_reducible assumption) | (with_reducible apply keep_ledIssue) | (with_reducible apply keep_setTrk) | (with_reducible apply keep_snd)
      | (with_reducible refine keep_eqQ ‹_ = (_, _)› ?_) | split | (dsimp only) | (with_reducible apply keepQ_mk)

theorem keepP_fabRequest {b0 : State} (s : State) (who : TrkWho) (k : Packet) (hk : Keep b0 s) : KeepP b0 (fabRequest s who k) := by
  unfold fabRequest
  try dsimp only
  repeat' first
      | (with_reducible assumption) | (with_reducible apply keep_sendOut) | (with_reducible apply keep_setF) | (with_reducible apply keepQ_trkTake)
      | (with_reducible apply keep_ite) | (with_reducible apply keepP_ite) | (with_reducible apply keep_fst) | (with_reducible apply keep_snd)
      | (with_reducible refine keep_eqP ‹_ = (_, _)› ?_) | (with_reducible refine keep_eqQ ‹_ = (_, _)› ?_) | split | (dsimp only) | (with_reducible apply keepP_mk)
      

theorem keepP_sendMessage {b0 : State} (s : State) (src pkg core ich slot : Nat) (who : TrkWho) (ws : List (BitVec 64)) (hk : Keep b0 s) : KeepP b0 (sendMessage s src pkg
    core ich slot who ws) := by
  unfold sendMessage
  try dsimp only
  repeat' first
      | (with_reducible assumption) | (with_reducible apply keep_coreOut) | (with_reducible apply keepP_fabRequest) | (with_reducible apply keep_ite)
      | (with_reducible apply keepP_ite) | (with_reducible apply keep_fst) | (with_reducible refine keep_eqP ‹_ = (_, _)› ?_) | split | (dsimp only)
      | (with_reducible apply keepP_mk) | (with_reducible apply keep_mk)

theorem keep_sendReply {b0 : State} (s : State) (c pkg core ich slot : Nat) (ws : List (BitVec 64)) (hk : Keep b0 s) : Keep b0 (sendReply s c pkg core ich slot ws) := by
  unfold sendReply
  try dsimp only
  repeat' first
      | (with_reducible assumption) | (with_reducible apply keep_replyFailed) | (with_reducible apply keepP_sendMessage) | (with_reducible apply keep_fst)
      | (with_reducible refine keep_eqP ‹_ = (_, _)› ?_) | split

theorem keep_owedRun {b0 : State} (s : State) (c : Nat) (hk : Keep b0 s) : Keep b0 (owedRun s c) := by
  unfold owedRun
  try dsimp only
  repeat' first
      | (with_reducible assumption) | (with_reducible apply keep_modCore) | (with_reducible apply keep_sendReply) | (with_reducible apply keep_ite) | split
      

theorem keep_sendRun {b0 : State} (s : State) (c t w : Nat) (hk : Keep b0 s) : Keep b0 (sendRun s c t w) := by
  unfold sendRun
  try dsimp only
  repeat' first
      | (with_reducible assumption) | (with_reducible apply keep_ledIssue) | (with_reducible apply keep_modCore) | (with_reducible apply keep_msgFailed)
      | (with_reducible apply keepP_sendMessage) | (with_reducible apply keep_sendReply) | (with_reducible apply keep_setCredOut) | (with_reducible apply keep_setF)
      | (with_reducible apply keep_setR64) | (with_reducible apply keep_ite) | (with_reducible apply keep_fst) | (with_reducible refine keep_eqP ‹_ = (_, _)› ?_) | split
      

theorem keep_parClear {b0 : State} (s : State) (c arr i : Nat) (hk : Keep b0 s) : Keep b0 (parClear s c arr i) := by
  unfold parClear
  try dsimp only
  repeat' first
      | (with_reducible assumption) | (with_reducible apply keep_modCore) | (with_reducible apply keep_ite)

theorem keep_sramParity {b0 : State} (s : State) (c t arr : Nat) (hk : Keep b0 s) : Keep b0 (sramParity s c t arr) := by
  unfold sramParity
  try dsimp only
  repeat' first | (with_reducible assumption) | (with_reducible apply keep_raiseCore)

theorem keepO_recvFault {b0 : State} (s : State) (c t idx w : Nat) (hk : Keep b0 s) : KeepO b0 (recvFault s c t idx w) := by
  unfold recvFault
  try dsimp only
  repeat' first
      | (with_reducible assumption) | (with_reducible apply keep_illegal) | (with_reducible apply keep_parClear) | (with_reducible apply keep_raiseCore)
      | (with_reducible apply keep_sramParity) | (with_reducible apply keep_ite) | (with_reducible apply keepO_ite) | (with_reducible apply keepO_some)
      | (with_reducible apply keepO_none) | (with_reducible refine keep_eqO ‹_ = some _› ?_) | split

theorem keep_popped {b0 : State} (s : State) (m : RingMsg) (hk : Keep b0 s) : Keep b0 (popped s m) := by
  unfold popped
  try dsimp only
  repeat' first
      | (with_reducible assumption) | (with_reducible apply keep_creditToSender) | (with_reducible apply keep_ledReturn1) | (with_reducible apply keep_ite)
      

theorem keep_setSreg {b0 : State} (s : State) (c t r : Nat) (v : BitVec 64) (hk : Keep b0 s) : Keep b0 (setSreg s c t r v) := by
  unfold setSreg
  try dsimp only
  repeat' first | (with_reducible assumption) | (with_reducible apply keep_modSlot)

theorem keep_putSreg {b0 : State} (s : State) (c t r : Nat) (v : BitVec 64) (hk : Keep b0 s) : Keep b0 (putSreg s c t r v) := by
  unfold putSreg
  try dsimp only
  repeat' first
      | (with_reducible assumption) | (with_reducible apply keep_modCore) | (with_reducible apply keep_setSreg) | split

theorem keepP_recvRun {b0 : State} (s : State) (c t w : Nat) (hk : Keep b0 s) : KeepP b0 (recvRun s c t w) := by
  unfold recvRun
  try dsimp only
  repeat' first
      | (with_reducible assumption) | (with_reducible apply keep_modSlot) | (with_reducible apply keep_nullReply) | (with_reducible apply keep_popped)
      | (with_reducible apply keep_putSreg) | (with_reducible apply keep_setR64) | (with_reducible apply keep_setRing) | (with_reducible apply keep_ite)
      | (with_reducible apply keepP_ite) | (with_reducible apply keep_foldl) | (with_reducible apply keep_fst) | (with_reducible refine keep_eqP ‹_ = (_, _)› ?_) | split
      | (intro _ _ _) | (dsimp only) | (with_reducible apply keepP_mk)

theorem keep_setIchState {b0 : State} (s : State) (c e v : Nat) (hk : Keep b0 s) : Keep b0 (setIchState s c e v) := by
  unfold setIchState
  try dsimp only
  repeat' first | (with_reducible assumption) | (with_reducible apply keep_setF)

theorem keep_closeEnd {b0 : State} (s : State) (c e : Nat) (hk : Keep b0 s) : Keep b0 (closeEnd s c e) := by
  unfold closeEnd
  try dsimp only
  repeat' first
      | (with_reducible assumption) | (with_reducible apply keep_nullReply) | (with_reducible apply keep_setIchState) | (with_reducible apply keep_ite)
      

theorem keep_autoClose {b0 : State} (s : State) (c t : Nat) (hk : Keep b0 s) : Keep b0 (autoClose s c t) := by
  unfold autoClose
  try dsimp only
  repeat' first
      | (with_reducible assumption) | (with_reducible apply keep_closeEnd) | (with_reducible apply keep_ite) | (with_reducible apply keep_foldl) | split | (intro _ _ _)
      

theorem keep_flushOne {b0 : State} (s : State) (c e : Nat) (m : RingMsg) (hk : Keep b0 s) : Keep b0 (flushOne s c e m) := by
  unfold flushOne
  try dsimp only
  repeat' first
      | (with_reducible assumption) | (with_reducible apply keep_oweReply) | (with_reducible apply keep_popped) | (with_reducible apply keep_satF)
      | (with_reducible apply keep_ite)

theorem keep_reopenEnd {b0 : State} (s : State) (c e : Nat) (flush : Bool) (hk : Keep b0 s) : Keep b0 (reopenEnd s c e flush) := by
  unfold reopenEnd
  try dsimp only
  repeat' first
      | (with_reducible assumption) | (with_reducible apply keep_flushOne) | (with_reducible apply keep_grantMsg) | (with_reducible apply keep_modSlot)
      | (with_reducible apply keep_setIchState) | (with_reducible apply keep_setRing) | (with_reducible apply keep_ite) | (with_reducible apply keep_foldl) | split
      | (intro _ _ _)

theorem keep_ichCtl {b0 : State} (s : State) (c e v : Nat) (hk : Keep b0 s) : Keep b0 (ichCtl s c e v) := by
  unfold ichCtl
  try dsimp only
  repeat' first
      | (with_reducible assumption) | (with_reducible apply keep_closeEnd) | (with_reducible apply keep_reopenEnd) | (with_reducible apply keep_ite)
      

theorem keep_abandonMxe {b0 : State} (s : State) (c t : Nat) (hk : Keep b0 s) : Keep b0 (abandonMxe s c t) := by
  unfold abandonMxe
  try dsimp only
  repeat' first | (with_reducible assumption) | (with_reducible apply keep_modCore)

theorem keep_spBounds {b0 : State} (s : State) (c t source : Nat) (wr : Bool) (addr : Int) (hk : Keep b0 s) : Keep b0 (spBounds s c t source wr addr) := by
  unfold spBounds
  try dsimp only
  repeat' first
      | (with_reducible assumption) | (with_reducible apply keep_raiseCore) | (with_reducible apply keep_setR) | (with_reducible apply keep_ite)

theorem keep_tileRowLoad {b0 : State} (s : State) (c : Nat) (hk : Keep b0 s) : Keep b0 (tileRowLoad s c) := by
  unfold tileRowLoad
  try dsimp only
  repeat' first
      | (with_reducible assumption) | (with_reducible apply keep_abandonMxe) | (with_reducible apply keep_modCore) | (with_reducible apply keep_spBounds)
      | (with_reducible apply keep_ite) | split

theorem keep_tileReady {b0 : State} (s : State) (c : Nat) (hk : Keep b0 s) : Keep b0 (tileReady s c) := by
  unfold tileReady
  try dsimp only
  repeat' first
      | (with_reducible assumption) | (with_reducible apply keep_modCore)

theorem keep_passThroughItemRead {b0 : State} (s : State) (c : Nat) (hk : Keep b0 s) : Keep b0 (passThroughItemRead s c) := by
  unfold passThroughItemRead
  try dsimp only
  repeat' first
      | (with_reducible assumption) | (with_reducible apply keep_modCore) | (with_reducible apply keep_ite) | (with_reducible apply keep_fst) | split
      

theorem keep_wrBytes {b0 : State} (s : State) (a : Nat) (bs : List Byte) (hk : Keep b0 s) : Keep b0 (wrBytes s a bs) := by
  unfold wrBytes
  try dsimp only
  repeat' first
      | (with_reducible assumption) | (exact fun h => mwf_mset _ _ _ _ h) | (exact fun h => mwf_filter _ _ _ h) | (exact fun h => mwf_memWrite _ _ _ h) | split
      | (dsimp only) | (with_reducible apply keep_mk) | (with_reducible apply keep_mkMem)

theorem keep_writeElem {b0 : State} (s : State) (c : Nat) (p : Nat × Nat) (w code : Nat) (hk : Keep b0 s) : Keep b0 (writeElem s c p w code) := by
  unfold writeElem
  try dsimp only
  repeat' first | (with_reducible assumption) | (with_reducible apply keep_wrBytes)

theorem keep_writeElems {b0 : State} (s : State) (c : Nat) (g : Gen) (y0 : Nat) (y1 : List Elem) (hk : Keep b0 s) : Keep b0 (writeElems s c g y0 y1) := by
  induction y1 generalizing s y0 with
  | nil => exact hk
  | cons x xs ih => exact ih _ _ (keep_writeElem _ _ _ _ _ hk)

theorem keepP_readEffect {b0 : State} (s : State) (off : Nat) (hk : Keep b0 s) : KeepP b0 (readEffect s off) := by
  unfold readEffect
  try dsimp only
  repeat' first
      | (with_reducible assumption) | (with_reducible apply keep_ite) | (with_reducible apply keepP_ite) | (with_reducible apply keep_fst)
      | (with_reducible refine keep_eqP ‹_ = (_, _)› ?_) | split | (dsimp only) | (with_reducible apply keepP_mk) | (with_reducible apply keep_mk)

theorem keep_plainWrite {b0 : State} (s : State) (debug : Bool) (off : Nat) (v : BitVec 32) (hk : Keep b0 s) : Keep b0 (plainWrite s debug off v) := by
  unfold plainWrite
  try dsimp only
  repeat' first | (with_reducible assumption) | (with_reducible apply keep_setR)

theorem keep_setAreg {b0 : State} (s : State) (c t r : Nat) (v : BitVec 32) (hk : Keep b0 s) : Keep b0 (setAreg s c t r v) := by
  unfold setAreg
  try dsimp only
  repeat' first | (with_reducible assumption) | (with_reducible apply keep_modSlot)

theorem keep_setVreg {b0 : State} (s : State) (c r : Nat) (v : BitVec 8192) (hk : Keep b0 s) : Keep b0 (setVreg s c r v) := by
  unfold setVreg
  try dsimp only
  repeat' first
      | (with_reducible assumption) | (with_reducible apply keep_modCore) | (with_reducible apply keep_parClear)

theorem keep_debugWrite {b0 : State} (s : State) (c o v : Nat) (hk : Keep b0 s) : Keep b0 (debugWrite s c o v) := by
  unfold debugWrite
  try dsimp only
  repeat' first
      | (with_reducible assumption) | (with_reducible apply keep_setAreg) | (with_reducible apply keep_setSreg) | (with_reducible apply keep_setVreg)
      | (with_reducible apply keep_ite)

theorem keep_histSet {b0 : State} (s : State) (c n i v : Nat) (hk : Keep b0 s) : Keep b0 (histSet s c n i v) := by
  unfold histSet
  try dsimp only
  repeat' first | (with_reducible assumption) | (with_reducible apply keep_setF)

theorem keep_rollSlot {b0 : State} (s : State) (c n : Nat) (hk : Keep b0 s) : Keep b0 (rollSlot s c n) := by
  unfold rollSlot
  try dsimp only
  repeat' first
      | (with_reducible assumption) | (with_reducible apply keep_histSet) | (with_reducible apply keep_setR) | (with_reducible apply keep_foldl) | split | (intro _ _ _)
      

theorem keep_rollAll {b0 : State} (s : State) (c : Nat) (hk : Keep b0 s) : Keep b0 (rollAll s c) := by
  unfold rollAll
  try dsimp only
  repeat' first | (with_reducible assumption) | (with_reducible apply keep_rollSlot) | (with_reducible apply keep_foldl) | split | (intro _ _ _)

theorem keep_sclCtl {b0 : State} (s : State) (c : Nat) (v : BitVec 32) (hk : Keep b0 s) : Keep b0 (sclCtl s c v) := by
  unfold sclCtl
  try dsimp only
  repeat' first
      | (with_reducible assumption) | (with_reducible apply keep_plainWrite) | (with_reducible apply keep_rollAll) | (with_reducible apply keep_setF)
      | (with_reducible apply keep_ite)

theorem keep_monClose1 {b0 : State} (s : State) (c l : Nat) (hk : Keep b0 s) : Keep b0 (monClose1 s c l) := by
  unfold monClose1
  try dsimp only
  repeat' first
      | (with_reducible assumption) | (with_reducible apply keep_setF) | (with_reducible apply keep_setR) | (with_reducible apply keep_ite) | split

theorem keep_monCloseAll {b0 : State} (s : State) (c : Nat) (hk : Keep b0 s) : Keep b0 (monCloseAll s c) := by
  unfold monCloseAll
  try dsimp only
  repeat' first
      | (with_reducible assumption) | (with_reducible apply keep_monClose1) | (with_reducible apply keep_setF) | (with_reducible apply keep_ite)
      | (with_reducible apply keep_foldl) | split | (intro _ _ _)

theorem keep_monCtl {b0 : State} (s : State) (c : Nat) (v : BitVec 32) (hk : Keep b0 s) : Keep b0 (monCtl s c v) := by
  unfold monCtl
  try dsimp only
  repeat' first
      | (with_reducible assumption) | (with_reducible apply keep_monCloseAll) | (with_reducible apply keep_plainWrite) | (with_reducible apply keep_setF)
      | (with_reducible apply keep_ite)

theorem keep_ctrCfg {b0 : State} (s : State) (c n : Nat) (v : BitVec 32) (hk : Keep b0 s) : Keep b0 (ctrCfg s c n v) := by
  unfold ctrCfg
  try dsimp only
  repeat' first
      | (with_reducible assumption) | (with_reducible apply keep_ctrAdvance) | (with_reducible apply keep_plainWrite) | (with_reducible apply keep_ite)
      

theorem keep_coreCtl {b0 : State} (s : State) (c v : Nat) (hk : Keep b0 s) : Keep b0 (coreCtl s c v) := by
  unfold coreCtl
  try dsimp only
  repeat' first | (with_reducible assumption) | (with_reducible apply keep_setF) | (with_reducible apply keep_ite)

theorem keep_clearStopped {b0 : State} (s : State) (c t : Nat) (hk : Keep b0 s) : Keep b0 (clearStopped s c t) := by
  unfold clearStopped
  try dsimp only
  repeat' first
      | (with_reducible assumption) | (with_reducible apply keep_setDesc) | (with_reducible apply keep_ite) | (with_reducible apply keep_foldl) | split | (intro _ _ _)
      

theorem keep_slotClear {b0 : State} (s : State) (c t : Nat) (hk : Keep b0 s) : Keep b0 (slotClear s c t) := by
  unfold slotClear
  try dsimp only
  repeat' first
      | (with_reducible assumption) | (with_reducible apply keep_clearStopped) | (with_reducible apply keep_ctrAdvance) | (with_reducible apply keep_dropAllResv)
      | (with_reducible apply keep_modSlot) | (with_reducible apply keep_nullRepliesOf) | (with_reducible apply keep_setSlotState) | (with_reducible apply keep_ite)
      | (with_reducible apply keep_foldl) | split | (intro _ _ _)

theorem keep_setCause {b0 : State} (s : State) (c t cause index : Nat) (hk : Keep b0 s) : Keep b0 (setCause s c t cause index) := by
  unfold setCause
  try dsimp only
  repeat' first | (with_reducible assumption) | (with_reducible apply keep_setF)

theorem keep_slotStart {b0 : State} (s : State) (c t : Nat) (hk : Keep b0 s) : Keep b0 (slotStart s c t) := by
  unfold slotStart
  try dsimp only
  repeat' first
      | (with_reducible assumption) | (with_reducible apply keep_ctrStart) | (with_reducible apply keep_modSlot) | (with_reducible apply keep_setCause)
      | (with_reducible apply keep_setSlotState) | (with_reducible apply keep_ite)

theorem keep_zeroCyc {b0 : State} (s : State) (cl f : Nat) (hk : Keep b0 s) : Keep b0 (zeroCyc s cl f) := by
  unfold zeroCyc
  try dsimp only
  repeat' first | (with_reducible assumption) | (with_reducible apply keep_setFloe) | (with_reducible apply keep_setR64)

theorem keep_taskCtl {b0 : State} (s : State) (c t v : Nat) (hk : Keep b0 s) : Keep b0 (taskCtl s c t v) := by
  unfold taskCtl
  try dsimp only
  repeat' first
      | (with_reducible assumption) | (with_reducible apply keep_slotClear) | (with_reducible apply keep_slotStart) | (with_reducible apply keep_zeroCyc)
      | (with_reducible apply keep_ite) | split

theorem keep_coreWrite {b0 : State} (s : State) (debug : Bool) (c off : Nat) (v : BitVec 32) (hk : Keep b0 s) : Keep b0 (coreWrite s debug c off v) := by
  unfold coreWrite
  try dsimp only
  repeat' first
      | (with_reducible assumption) | (with_reducible apply keep_coreCtl) | (with_reducible apply keep_ctrCfg) | (with_reducible apply keep_debugWrite)
      | (with_reducible apply keep_grantAll) | (with_reducible apply keep_ichCtl) | (with_reducible apply keep_monCtl) | (with_reducible apply keep_plainWrite)
      | (with_reducible apply keep_sclCtl) | (with_reducible apply keep_setR64) | (with_reducible apply keep_taskCtl) | (with_reducible apply keep_ite)
      

theorem keep_pmbSend {b0 : State} (s : State) (d : Nat) (f : Nat → PmbOp) (hk : Keep b0 s) : Keep b0 (pmbSend s d f) := by
  unfold pmbSend
  try dsimp only
  repeat' first | (with_reducible assumption) | (with_reducible apply keep_ite) | split | (dsimp only) | (with_reducible apply keep_mk)

theorem keep_setRail {b0 : State} (s : State) (d : Nat) (x : RailSt) (hk : Keep b0 s) : Keep b0 (setRail s d x) := by
  unfold setRail
  try dsimp only
  repeat' first | (with_reducible assumption) | split | (dsimp only) | (with_reducible apply keep_mk)

theorem keep_railTo {b0 : State} (s : State) (d : Nat) (v : BitVec 10) (hk : Keep b0 s) : Keep b0 (railTo s d v) := by
  unfold railTo
  try dsimp only
  repeat' first
      | (with_reducible assumption) | (with_reducible apply keep_pmbSend) | (with_reducible apply keep_setRail)

theorem keep_setPhase {b0 : State} (s : State) (d p : Nat) (hk : Keep b0 s) : Keep b0 (setPhase s d p) := by
  unfold setPhase
  try dsimp only
  repeat' first | (with_reducible assumption) | (with_reducible apply keep_setR64)

theorem keep_setRegion {b0 : State} (s : State) (r : Nat) (x : RegionSt) (hk : Keep b0 s) : Keep b0 (setRegion s r x) := by
  unfold setRegion
  try dsimp only
  repeat' first | (with_reducible assumption) | split | (dsimp only) | (with_reducible apply keep_mk)

theorem keep_startN {b0 : State} (s : State) (rs : List Nat) (hk : Keep b0 s) : Keep b0 (startN s rs) := by
  unfold startN
  try dsimp only
  repeat' first
      | (with_reducible assumption) | (with_reducible apply keep_setRegion) | (with_reducible apply keep_foldl) | split | (intro _ _ _)
      

theorem keep_dieNext {b0 : State} (s : State) (d : Nat) (hk : Keep b0 s) : Keep b0 (dieNext s d) := by
  unfold dieNext
  try dsimp only
  repeat' first
      | (with_reducible assumption) | (with_reducible apply keep_railTo) | (with_reducible apply keep_setPhase) | (with_reducible apply keep_startN)
      | (with_reducible apply keep_ite)

theorem keep_svcNext {b0 : State} (s : State) (hk : Keep b0 s) : Keep b0 (svcNext s) := by
  unfold svcNext
  try dsimp only
  repeat' first | (with_reducible assumption) | (with_reducible apply keep_startN) | (with_reducible apply keep_ite)

theorem keep_dvfsNext {b0 : State} (s : State) (hk : Keep b0 s) : Keep b0 (dvfsNext s) := by
  unfold dvfsNext
  try dsimp only
  repeat' first
      | (with_reducible assumption) | (with_reducible apply keep_dieNext) | (with_reducible apply keep_svcNext) | (with_reducible apply keep_foldl)
      

theorem keep_setEdgeXlat {b0 : State} (s : State) (d n x : Nat) (hk : Keep b0 s) : Keep b0 (setEdgeXlat s d n x) := by
  unfold setEdgeXlat
  try dsimp only
  repeat' first | (with_reducible assumption) | split | (dsimp only) | (with_reducible apply keep_mk)

theorem keep_xalignSet {b0 : State} (s : State) (r : Nat) (hk : Keep b0 s) : Keep b0 (xalignSet s r) := by
  unfold xalignSet
  try dsimp only
  repeat' first
      | (with_reducible assumption) | (with_reducible apply keep_setF) | (with_reducible apply keep_ite) | (with_reducible apply keep_foldl) | split | (intro _ _ _)
      

theorem keep_setXlat {b0 : State} (s : State) (r x : Nat) (hk : Keep b0 s) : Keep b0 (setXlat s r x) := by
  unfold setXlat
  try dsimp only
  repeat' first
      | (with_reducible assumption) | (with_reducible apply keep_setRegion) | (with_reducible apply keep_xalignSet)
      

theorem keep_unalign {b0 : State} (s : State) (r : Nat) (hk : Keep b0 s) : Keep b0 (unalign s r) := by
  unfold unalign
  try dsimp only
  repeat' first
      | (with_reducible assumption) | (with_reducible apply keep_setEdgeXlat) | (with_reducible apply keep_setXlat) | (with_reducible apply keep_xalignSet)
      | (with_reducible apply keep_ite) | (with_reducible apply keep_foldl) | (with_reducible apply keep_fst) | split | (intro _ _ _)

theorem keep_clkXctl {b0 : State} (s : State) (cl v : Nat) (hk : Keep b0 s) : Keep b0 (clkXctl s cl v) := by
  unfold clkXctl
  try dsimp only
  repeat' first
      | (with_reducible assumption) | (with_reducible apply keep_dvfsNext) | (with_reducible apply keep_setF) | (with_reducible apply keep_setRegion)
      | (with_reducible apply keep_unalign) | (with_reducible apply keep_ite)

theorem keep_setStack {b0 : State} (s : State) (k : Nat) (x : StackSt) (hk : Keep b0 s) : Keep b0 (setStack s k x) := by
  unfold setStack
  try dsimp only
  repeat' first | (with_reducible assumption) | split | (dsimp only) | (with_reducible apply keep_mk)

theorem keep_wantRegime {b0 : State} (s : State) (k : Nat) (two : Bool) (hk : Keep b0 s) : Keep b0 (wantRegime s k two) := by
  unfold wantRegime
  try dsimp only
  repeat' first | (with_reducible assumption) | (with_reducible apply keep_setStack)

theorem keep_startRegime {b0 : State} (s : State) (k : Nat) (hk : Keep b0 s) : Keep b0 (startRegime s k) := by
  unfold startRegime
  try dsimp only
  repeat' first | (with_reducible assumption) | (with_reducible apply keep_wantRegime)

theorem keep_firnRefresh {b0 : State} (s : State) (k v : Nat) (hk : Keep b0 s) : Keep b0 (firnRefresh s k v) := by
  unfold firnRefresh
  try dsimp only
  repeat' first
      | (with_reducible assumption) | (with_reducible apply keep_setF) | (with_reducible apply keep_startRegime) | (with_reducible apply keep_ite)

theorem keep_floeClearRun {b0 : State} (s : State) (cl f : Nat) (hk : Keep b0 s) : Keep b0 (floeClearRun s cl f) := by
  unfold floeClearRun
  try dsimp only
  repeat' first
      | (with_reducible assumption) | (with_reducible apply keep_slotClear) | (with_reducible apply keep_ite) | (with_reducible apply keep_foldl)
      | (with_reducible apply keep_fst) | split | (intro _ _ _)

theorem keep_floeHoldRun {b0 : State} (s : State) (cl f : Nat) (on : Bool) (hk : Keep b0 s) : Keep b0 (floeHoldRun s cl f on) := by
  unfold floeHoldRun
  try dsimp only
  repeat' first | (with_reducible assumption) | (with_reducible apply keep_setF)

theorem keep_floeStartRun {b0 : State} (s : State) (cl f : Nat) (hk : Keep b0 s) : Keep b0 (floeStartRun s cl f) := by
  unfold floeStartRun
  try dsimp only
  repeat' first
      | (with_reducible assumption) | (with_reducible apply keep_setF) | (with_reducible apply keep_slotStart) | (with_reducible apply keep_zeroCyc)
      | (with_reducible apply keep_ite) | (with_reducible apply keep_foldl) | (with_reducible apply keep_fst) | split | (intro _ _ _)

theorem keep_floeCtl {b0 : State} (s : State) (cl f v : Nat) (debug : Bool) (hk : Keep b0 s) : Keep b0 (floeCtl s cl f v debug) := by
  unfold floeCtl
  try dsimp only
  repeat' first
      | (with_reducible assumption) | (with_reducible apply keep_floeClearRun) | (with_reducible apply keep_floeHoldRun) | (with_reducible apply keep_floeStartRun)
      | (with_reducible apply keep_ite)

theorem keep_floeDef {b0 : State} (s : State) (cl f v : Nat) (hk : Keep b0 s) : Keep b0 (floeDef s cl f v) := by
  unfold floeDef
  try dsimp only
  repeat' first
      | (with_reducible assumption) | (with_reducible apply keep_setF) | (with_reducible apply keep_setR) | (with_reducible apply keep_ite)
      

theorem keep_clusterWrite {b0 : State} (s : State) (debug : Bool) (c off : Nat) (v : BitVec 32) (hk : Keep b0 s) : Keep b0 (clusterWrite s debug c off v) := by
  unfold clusterWrite
  try dsimp only
  repeat' first
      | (with_reducible assumption) | (with_reducible apply keep_clkXctl) | (with_reducible apply keep_firnRefresh) | (with_reducible apply keep_floeCtl)
      | (with_reducible apply keep_floeDef) | (with_reducible apply keep_plainWrite) | (with_reducible apply keep_ite)

theorem keep_setPortState {b0 : State} (s : State) (p st : Nat) (hk : Keep b0 s) : Keep b0 (setPortState s p st) := by
  unfold setPortState
  try dsimp only
  repeat' first
      | (with_reducible assumption) | (with_reducible apply keep_hostIrq) | (with_reducible apply keep_setF) | (with_reducible apply keep_foldl) | split | (intro _ _ _)
      

theorem keep_portSleep {b0 : State} (s : State) (p : Nat) (hk : Keep b0 s) : Keep b0 (portSleep s p) := by
  unfold portSleep
  try dsimp only
  repeat' first
      | (with_reducible assumption) | (with_reducible apply keep_ledReturn) | (with_reducible apply keep_setPort) | (with_reducible apply keep_setPortState)
      | (with_reducible apply keep_ite)

theorem keep_pwrTrans {b0 : State} (s : State) (b : Bool) (hk : Keep b0 s) : Keep b0 (pwrTrans s b) := by
  unfold pwrTrans
  try dsimp only
  repeat' first | (with_reducible assumption) | (with_reducible apply keep_setF)

theorem keep_enterBegin {b0 : State} (s : State) (target : Nat) (hk : Keep b0 s) : Keep b0 (enterBegin s target) := by
  unfold enterBegin
  try dsimp only
  repeat' first
      | (with_reducible assumption) | (with_reducible apply keep_portSleep) | (with_reducible apply keep_pwrTrans) | (with_reducible apply keep_foldl) | split
      | (intro _ _ _) | (dsimp only) | (with_reducible apply keep_mk)

theorem keep_powerDone {b0 : State} (s : State) (hk : Keep b0 s) : Keep b0 (powerDone s) := by
  unfold powerDone
  try dsimp only
  repeat' first
      | (with_reducible assumption) | (with_reducible apply keep_hostIrq) | (with_reducible apply keep_setF) | (with_reducible apply keep_foldl) | split | (intro _ _ _)
      

theorem keep_setPwrState {b0 : State} (s : State) (v : Nat) (hk : Keep b0 s) : Keep b0 (setPwrState s v) := by
  unfold setPwrState
  try dsimp only
  repeat' first | (with_reducible assumption) | (with_reducible apply keep_setF)

theorem keep_setCluster {b0 : State} (s : State) (c : Nat) (x : ClusterSt) (hk : Keep b0 s) : Keep b0 (setCluster s c x) := by
  unfold setCluster
  try dsimp only
  repeat' first | (with_reducible assumption) | split | (dsimp only) | (with_reducible apply keep_mk)

theorem keep_clockStarts {b0 : State} (s : State) (cl : Nat) (hk : Keep b0 s) : Keep b0 (clockStarts s cl) := by
  unfold clockStarts
  try dsimp only
  repeat' first
      | (with_reducible assumption) | (with_reducible apply keep_setCluster) | (with_reducible apply keep_setRegion)
      

theorem keep_ungate {b0 : State} (s : State) (cl : Nat) (hk : Keep b0 s) : Keep b0 (ungate s cl) := by
  unfold ungate
  try dsimp only
  repeat' first
      | (with_reducible assumption) | (with_reducible apply keep_clockStarts) | (with_reducible apply keep_setCluster) | (with_reducible apply keep_ite)
      

theorem keep_idleWake {b0 : State} (s : State) (w : WakeSrc) (hk : Keep b0 s) : Keep b0 (idleWake s w) := by
  unfold idleWake
  try dsimp only
  repeat' first
      | (with_reducible assumption) | (with_reducible apply keep_powerDone) | (with_reducible apply keep_setF) | (with_reducible apply keep_setPwrState)
      | (with_reducible apply keep_setRail) | (with_reducible apply keep_ungate) | (with_reducible apply keep_ite) | (with_reducible apply keep_foldl) | split
      | (intro _ _ _) | (dsimp only) | (with_reducible apply keep_mk)

theorem keep_pwrResult {b0 : State} (s : State) (r : Nat) (hk : Keep b0 s) : Keep b0 (pwrResult s r) := by
  unfold pwrResult
  try dsimp only
  repeat' first | (with_reducible assumption) | (with_reducible apply keep_setF)

theorem keep_railsUp {b0 : State} (s0 : State) (hk : Keep b0 s0) : Keep b0 (railsUp s0) := by
  unfold railsUp
  try dsimp only
  repeat' first
      | (with_reducible assumption) | (with_reducible apply keep_pmbSend) | (with_reducible apply keep_railTo) | (with_reducible apply keep_setRail)
      | (with_reducible apply keep_foldl) | split | (intro _ _ _) | (dsimp only) | (with_reducible apply keep_mk)

theorem keep_startup {b0 : State} (s : State) (hk : Keep b0 s) : Keep b0 (startup s) := by
  unfold startup
  try dsimp only
  repeat' first
      | (with_reducible assumption) | (with_reducible apply keep_pwrTrans) | (with_reducible apply keep_railsUp) | (with_reducible apply keep_ite) | split | (dsimp only)
      | (with_reducible apply keep_mk) | (with_reducible apply keep_mkSec2)

theorem keep_wakeBegin {b0 : State} (s : State) (w : WakeSrc) (hk : Keep b0 s) : Keep b0 (wakeBegin s w) := by
  unfold wakeBegin
  try dsimp only
  repeat' first
      | (with_reducible assumption) | (with_reducible apply keep_pwrTrans) | (with_reducible apply keep_railsUp) | (with_reducible apply keep_setF)
      | (with_reducible apply keep_startup) | (with_reducible apply keep_ite) | split | (dsimp only) | (with_reducible apply keep_mk)

theorem keep_pwrRequest {b0 : State} (s : State) (src : Src) (target : Nat) (hk : Keep b0 s) : Keep b0 (pwrRequest s src target) := by
  unfold pwrRequest
  try dsimp only
  repeat' first
      | (with_reducible assumption) | (with_reducible apply keep_enterBegin) | (with_reducible apply keep_idleWake) | (with_reducible apply keep_powerDone)
      | (with_reducible apply keep_pwrResult) | (with_reducible apply keep_pwrTrans) | (with_reducible apply keep_setPwrState) | (with_reducible apply keep_wakeBegin)
      | (with_reducible apply keep_ite) | split | (dsimp only) | (with_reducible apply keep_mk)

theorem keep_pwrReqWrite {b0 : State} (s : State) (src : Src) (v : BitVec 32) (hk : Keep b0 s) : Keep b0 (pwrReqWrite s src v) := by
  unfold pwrReqWrite
  try dsimp only
  repeat' first
      | (with_reducible assumption) | (with_reducible apply keep_plainWrite) | (with_reducible apply keep_pwrRequest) | (with_reducible apply keep_ite)
      

theorem keep_dvfsApply {b0 : State} (s : State) (hk : Keep b0 s) : Keep b0 (dvfsApply s) := by
  unfold dvfsApply
  try dsimp only
  repeat' first | (with_reducible assumption) | (with_reducible apply keep_dvfsNext) | split | (dsimp only) | (with_reducible apply keep_mk)

theorem keep_dvfsWrite {b0 : State} (s : State) (v : Nat) (hk : Keep b0 s) : Keep b0 (dvfsWrite s v) := by
  unfold dvfsWrite
  try dsimp only
  repeat' first
      | (with_reducible assumption) | (with_reducible apply keep_dvfsApply) | (with_reducible apply keep_setR64) | (with_reducible apply keep_setRegion)
      | (with_reducible apply keep_ite) | (with_reducible apply keep_foldl) | split | (intro _ _ _)

theorem keep_lpEval {b0 : State} (s : State) (d : Nat) (hk : Keep b0 s) : Keep b0 (lpEval s d) := by
  unfold lpEval
  try dsimp only
  repeat' first
      | (with_reducible assumption) | (with_reducible apply keep_setRail) | (with_reducible apply keep_ite)

theorem keep_padRun {b0 : State} (s : State) (v : Nat) (hk : Keep b0 s) : Keep b0 (padRun s v) := by
  unfold padRun
  try dsimp only
  repeat' first | (with_reducible assumption) | (with_reducible apply keep_setF) | (with_reducible apply keep_ite) | split | (dsimp only) | (with_reducible apply keep_mk)

theorem keep_ctrReset {b0 : State} (s : State) (c n : Nat) (hk : Keep b0 s) : Keep b0 (ctrReset s c n) := by
  unfold ctrReset
  try dsimp only
  repeat' first | (with_reducible assumption) | (with_reducible apply keep_ctrAdvance) | (with_reducible apply keep_setR)

theorem keep_dropRegs {b0 : State} (s : State) (lo hi : Nat) (hk : Keep b0 s) : Keep b0 (dropRegs s lo hi) := by
  unfold dropRegs
  try dsimp only
  repeat' first
      | (with_reducible assumption) | (with_reducible apply keep_fst) | (exact fun h => mwf_mset _ _ _ _ h) | (exact fun h => mwf_filter _ _ _ h)
      | (exact fun h => mwf_memWrite _ _ _ h) | split | (dsimp only) | (with_reducible apply keep_mk) | (with_reducible apply keep_mkRegs)

theorem keep_ichReset {b0 : State} (s : State) (c e : Nat) (hk : Keep b0 s) : Keep b0 (ichReset s c e) := by
  unfold ichReset
  try dsimp only
  repeat' first
      | (with_reducible assumption) | (with_reducible apply keep_nullReply) | (with_reducible apply keep_setF) | (with_reducible apply keep_setIchState)
      

theorem keep_ochReset {b0 : State} (s : State) (c o : Nat) (hk : Keep b0 s) : Keep b0 (ochReset s c o) := by
  unfold ochReset
  try dsimp only
  repeat' first
      | (with_reducible assumption) | (with_reducible apply keep_setCredOut) | (with_reducible apply keep_setF) | (with_reducible apply keep_setReclaim)
      | (with_reducible apply keep_ite)

theorem keep_coreResetStart {b0 : State} (s : State) (c : Nat) (hk : Keep b0 s) : Keep b0 (coreResetStart s c) := by
  unfold coreResetStart
  try dsimp only
  repeat' first
      | (with_reducible assumption) | (with_reducible apply keep_ctrReset) | (with_reducible apply keep_dropRegs) | (with_reducible apply keep_ichReset)
      | (with_reducible apply keep_modCore) | (with_reducible apply keep_ochReset) | (with_reducible apply keep_setFloe) | (with_reducible apply keep_setFloeReason)
      | (with_reducible apply keep_ite) | (with_reducible apply keep_foldl) | split | (intro _ _ _) | (dsimp only) | (with_reducible apply keep_mk)

theorem keep_clusterResetStart {b0 : State} (s : State) (cl : Nat) (hk : Keep b0 s) : Keep b0 (clusterResetStart s cl) := by
  unfold clusterResetStart
  try dsimp only
  repeat' first
      | (with_reducible assumption) | (with_reducible apply keep_coreResetStart) | (with_reducible apply keep_dropRegs) | (with_reducible apply keep_dvfsNext)
      | (with_reducible apply keep_unalign) | (with_reducible apply keep_ite) | (with_reducible apply keep_foldl) | (with_reducible apply keep_fst) | split
      | (intro _ _ _) | (dsimp only) | (with_reducible apply keep_mk)

theorem mwf_coldRegs (s : State) : mwf resetVal (coldRegs s) = true := by
  have h0 : mwf resetVal ({} : State).regs = true := rfl
  exact mwf_setF _ _ _ _ _ (mwf_setF _ _ _ _ _ (mwf_setR _ _ _ (mwf_setF _ _ _ _ _ (mwf_setF _ _ _ _ _ (mwf_setF _ _ _ _ _ (mwf_setF _ _ _ _ _
    (mwf_setF _ _ _ _ _ (mwf_setF _ _ _ _ _ h0))))))))
theorem keep_coldReset {b0 : State} (s : State) (hk : Keep b0 s) : Keep b0 (coldReset s) := by
  unfold coldReset
  apply keep_startup
  refine ⟨⟨hk.fuses.1, hk.fuses.2.1, fun k h => ?_⟩, fun _ => ⟨mwf_coldRegs s, rfl⟩⟩
  have h1 := hk.fuses.2.2 k h
  simpa only [usedAt, ownerSlot] using h1

theorem keep_setCc {b0 : State} (s : State) (k : Nat) (x : CcSt) (hk : Keep b0 s) : Keep b0 (setCc s k x) := by
  unfold setCc
  try dsimp only
  repeat' first | (with_reducible assumption) | split | (dsimp only) | (with_reducible apply keep_mk)

theorem keep_ccBoot {b0 : State} (s : State) (warm : Bool) (hk : Keep b0 s) : Keep b0 (ccBoot s warm) := by
  unfold ccBoot
  try dsimp only
  repeat' first
      | (with_reducible assumption) | (with_reducible apply keep_setCc) | (with_reducible apply keep_setF) | split | (dsimp only) | (with_reducible apply keep_mk)
      | (with_reducible apply keep_mkSec2)

theorem keep_ccHold {b0 : State} (s : State) (k : Nat) (hk : Keep b0 s) : Keep b0 (ccHold s k) := by
  unfold ccHold
  try dsimp only
  repeat' first | (with_reducible assumption) | (with_reducible apply keep_setCc) | (with_reducible apply keep_setF)

theorem keep_hold {b0 : State} (s : State) (src : Src) (off : Nat) (wide : Bool) (v : Nat) (hk : Keep b0 s) : Keep b0 (hold s src off wide v) := by
  unfold hold
  try dsimp only
  repeat' first | (with_reducible assumption) | split | (dsimp only) | (with_reducible apply keep_mk)

theorem keep_netReset {b0 : State} (s : State) (d : Nat) (hk : Keep b0 s) : Keep b0 (netReset s d) := by
  unfold netReset
  try dsimp only
  repeat' first
      | (with_reducible assumption) | (with_reducible apply keep_hold) | (with_reducible apply keep_setRegion) | (with_reducible apply keep_fst) | split | (dsimp only)
      | (with_reducible apply keep_mk)

theorem keep_moveError {b0 : State} (s : State) (m : Nat) (hk : Keep b0 s) : Keep b0 (moveError s m) := by
  unfold moveError
  try dsimp only
  repeat' first | (with_reducible assumption) | (with_reducible apply keep_satF)

theorem keep_abortAll {b0 : State} (s : State) (hk : Keep b0 s) : Keep b0 (abortAll s) := by
  unfold abortAll
  try dsimp only
  repeat' first
      | (with_reducible assumption) | (with_reducible apply keep_ledReturn) | (with_reducible apply keep_moveError) | (with_reducible apply keep_foldl) | split
      | (intro _ _ _) | (dsimp only) | (with_reducible apply keep_mk)

theorem keep_endDebug {b0 : State} (s : State) (hk : Keep b0 s) : Keep b0 (endDebug s) := by
  unfold endDebug
  try dsimp only
  repeat' first
      | (with_reducible assumption) | (with_reducible apply keep_floeHoldRun) | (with_reducible apply keep_setF) | (with_reducible apply keep_ite)
      | (with_reducible apply keep_foldl) | split | (intro _ _ _)

theorem keep_sessEnd {b0 : State} (s : State) (hk : Keep b0 s) : Keep b0 (sessEnd s) := by
  unfold sessEnd
  try dsimp only
  repeat' first
      | (with_reducible assumption) | (with_reducible apply keep_endDebug) | (with_reducible apply keep_setF) | (with_reducible apply keep_ite) | split | (dsimp only)
      | (with_reducible apply keep_mk)

theorem keep_sessLost {b0 : State} (s : State) (hk : Keep b0 s) : Keep b0 (sessLost s) := by
  unfold sessLost
  try dsimp only
  repeat' first
      | (with_reducible assumption) | (with_reducible apply keep_abortAll) | (with_reducible apply keep_hostIrq) | (with_reducible apply keep_sessEnd)
      | (with_reducible apply keep_setF) | (with_reducible apply keep_ite)

theorem keep_dieResetStart {b0 : State} (s : State) (d : Nat) (hk : Keep b0 s) : Keep b0 (dieResetStart s d) := by
  unfold dieResetStart
  try dsimp only
  repeat' first
      | (with_reducible assumption) | (with_reducible apply keep_ccBoot) | (with_reducible apply keep_ccHold) | (with_reducible apply keep_clusterResetStart)
      | (with_reducible apply keep_netReset) | (with_reducible apply keep_sessLost) | (with_reducible apply keep_setAlert) | (with_reducible apply keep_setF)
      | (with_reducible apply keep_ite) | (with_reducible apply keep_foldl) | split | (intro _ _ _)

theorem keep_rstResult {b0 : State} (s : State) (r : Nat) (hk : Keep b0 s) : Keep b0 (rstResult s r) := by
  unfold rstResult
  try dsimp only
  repeat' first | (with_reducible assumption) | (with_reducible apply keep_setF)

theorem keep_rstReq {b0 : State} (s : State) (kind index : Nat) (hk : Keep b0 s) : Keep b0 (rstReq s kind index) := by
  unfold rstReq
  try dsimp only
  repeat' first
      | (with_reducible assumption) | (with_reducible apply keep_clusterResetStart) | (with_reducible apply keep_coldReset) | (with_reducible apply keep_coreResetStart)
      | (with_reducible apply keep_dieResetStart) | (with_reducible apply keep_rstResult) | (with_reducible apply keep_setF) | (with_reducible apply keep_ite) | split
      | (dsimp only) | (with_reducible apply keep_mk)

theorem keep_tbCtlLow {b0 : State} (s : State) (v : Nat) (hk : Keep b0 s) : Keep b0 (tbCtlLow s v) := by
  unfold tbCtlLow
  try dsimp only
  repeat' first | (with_reducible assumption) | (with_reducible apply keep_setR) | (with_reducible apply keep_ite) | split | (dsimp only) | (with_reducible apply keep_mk)

theorem keep_tbStep {b0 : State} (s : State) (v : Int) (hk : Keep b0 s) : Keep b0 (tbStep s v) := by
  unfold tbStep
  try dsimp only
  repeat' first | (with_reducible assumption) | (with_reducible apply keep_setF) | (with_reducible apply keep_ite) | split | (dsimp only) | (with_reducible apply keep_mk)

theorem keep_pwrWrite {b0 : State} (s : State) (src : Src) (off : Nat) (v : BitVec 32) (hk : Keep b0 s) : Keep b0 (pwrWrite s src off v) := by
  unfold pwrWrite
  try dsimp only
  repeat' first
      | (with_reducible assumption) | (with_reducible apply keep_dvfsWrite) | (with_reducible apply keep_lpEval) | (with_reducible apply keep_padRun)
      | (with_reducible apply keep_plainWrite) | (with_reducible apply keep_pwrReqWrite) | (with_reducible apply keep_rstReq) | (with_reducible apply keep_tbCtlLow)
      | (with_reducible apply keep_tbStep) | (with_reducible apply keep_ite) | (with_reducible apply keep_foldl)

theorem keep_cfgErr {b0 : State} (s : State) (hk : Keep b0 s) : Keep b0 (cfgErr s) := by
  unfold cfgErr
  try dsimp only
  repeat' first | (with_reducible assumption) | (with_reducible apply keep_setF)

theorem keep_ringSize {b0 : State} (s : State) (n : Nat) (hk : Keep b0 s) : Keep b0 (ringSize s n) := by
  unfold ringSize
  try dsimp only
  repeat' first
      | (with_reducible assumption) | (with_reducible apply keep_cfgErr) | (with_reducible apply keep_setF) | (with_reducible apply keep_setR)
      | (with_reducible apply keep_ite)

theorem keep_irqEn {b0 : State} (s : State) (off : Nat) (v : BitVec 32) (hk : Keep b0 s) : Keep b0 (irqEn s off v) := by
  unfold irqEn
  try dsimp only
  repeat' first
      | (with_reducible assumption) | (with_reducible apply keep_msix) | (with_reducible apply keep_setR) | (with_reducible apply keep_ite)
      | (with_reducible apply keep_foldl) | split | (intro _ _ _)

theorem keep_hostWrite {b0 : State} (s : State) (off : Nat) (v : BitVec 32) (hk : Keep b0 s) : Keep b0 (hostWrite s off v) := by
  unfold hostWrite
  try dsimp only
  repeat' first
      | (with_reducible assumption) | (with_reducible apply keep_cfgErr) | (with_reducible apply keep_irqEn) | (with_reducible apply keep_plainWrite)
      | (with_reducible apply keep_ringSize) | (with_reducible apply keep_setF) | (with_reducible apply keep_setR) | (with_reducible apply keep_ite)
      

theorem keep_attestReq {b0 : State} (s : State) (hk : Keep b0 s) : Keep b0 (attestReq s) := by
  unfold attestReq
  try dsimp only
  repeat' first
      | (with_reducible assumption) | (with_reducible apply keep_setF) | (with_reducible apply keep_ite) | split | (dsimp only) | (with_reducible apply keep_mk)
      | (with_reducible apply keep_mkSec2)

theorem keep_lockRun {b0 : State} (s : State) (hk : Keep b0 s) : Keep b0 (lockRun s) := by
  unfold lockRun
  try dsimp only
  repeat' first
      | (with_reducible assumption) | (with_reducible apply keep_sessEnd) | (with_reducible apply keep_ite) | split | (dsimp only) | (with_reducible apply keep_mk)
      | (with_reducible apply keep_mkSec2)

theorem keep_provisionRun {b0 : State} (s : State) (hk : Keep b0 s) : Keep b0 (provisionRun s) := by
  unfold provisionRun
  try dsimp only
  repeat' first
      | (with_reducible assumption) | (with_reducible apply keep_ite) | split | (dsimp only) | (with_reducible apply keep_mk) | (with_reducible apply keep_mkSec2)

theorem keep_releaseRun {b0 : State} (s : State) (hk : Keep b0 s) : Keep b0 (releaseRun s) := by
  unfold releaseRun
  split
  · apply keep_coldReset
    have hk1 := keep_sessEnd s hk
    generalize sessEnd s = s1 at hk1 ⊢
    refine ⟨⟨hk1.fuses.1, hk1.fuses.2.1, fun k h => ?_⟩, hk1.canon⟩
    have h1 := hk1.fuses.2.2 k h
    simp only [usedAt, ownerSlot] at h1 ⊢
    rw [mget_mset]
    split
    · rename_i e; subst e; exact h1
    · exact h1
  · exact hk

theorem keep_unlockRun {b0 : State} (s : State) (hk : Keep b0 s) : Keep b0 (unlockRun s) := by
  unfold unlockRun
  try dsimp only
  repeat' first
      | (with_reducible assumption) | (with_reducible apply keep_ite) | split | (dsimp only) | (with_reducible apply keep_mk) | (with_reducible apply keep_mkSec2)

theorem keep_lifecycleCtl {b0 : State} (s : State) (v : Nat) (hk : Keep b0 s) : Keep b0 (lifecycleCtl s v) := by
  unfold lifecycleCtl
  try dsimp only
  repeat' first
      | (with_reducible assumption) | (with_reducible apply keep_lockRun) | (with_reducible apply keep_provisionRun) | (with_reducible apply keep_releaseRun)
      | (with_reducible apply keep_unlockRun) | (with_reducible apply keep_ite)

theorem keep_noSession {b0 : State} (s : State) (y0 : Src) (hk : Keep b0 s) : Keep b0 (noSession s y0) := by
  unfold noSession
  try dsimp only
  repeat' first | (with_reducible assumption) | (with_reducible apply keep_satF) | split

theorem keep_blowFuses {b0 : State} (s : State) (y0 : Nat) (hk : Keep b0 s) : Keep b0 (blowFuses s y0) := by
  induction y0 generalizing s with
  | zero => exact hk
  | succ n ih =>
    simp only [blowFuses]
    split
    · exact ih _ ⟨⟨hk.fuses.1, Nat.le_succ_of_le hk.fuses.2.1, hk.fuses.2.2⟩, hk.canon⟩
    · exact ih _ (keep_setF _ _ _ _ _ ⟨hk.fuses, hk.canon⟩)

theorem keep_sramWrite {b0 : State} (s : State) (d off : Nat) (bs : List Byte) (hk : Keep b0 s) : Keep b0 (sramWrite s d off bs) := by
  unfold sramWrite
  try dsimp only
  repeat' first | (with_reducible assumption) | split | (dsimp only) | (with_reducible apply keep_mk)

theorem keep_bootEnter {b0 : State} (s : State) (m p : List Byte) (hk : Keep b0 s) : Keep b0 (bootEnter s m p) := by
  unfold bootEnter
  try dsimp only
  repeat' first
      | (with_reducible assumption) | (with_reducible apply keep_blowFuses) | (with_reducible apply keep_setCc) | (with_reducible apply keep_setF)
      | (with_reducible apply keep_setR) | (with_reducible apply keep_sramWrite) | split | (dsimp only) | (with_reducible apply keep_mk)
      | (with_reducible apply keep_mkSec2)

theorem keep_bootFail {b0 : State} (s : State) (err : Nat) (hk : Keep b0 s) : Keep b0 (bootFail s err) := by
  unfold bootFail
  try dsimp only
  repeat' first
      | (with_reducible assumption) | (with_reducible apply keep_raiseEv) | (with_reducible apply keep_setF)

theorem keep_openRow {b0 : State} (s : State) (key : Nat) (hk : Keep b0 s) : Keep b0 (openRow s key) := by
  unfold openRow
  try dsimp only
  repeat' first | (with_reducible assumption) | (with_reducible apply keep_setStack)

theorem keep_firnEvent {b0 : State} (s : State) (key sym : Nat) (ue : Bool) (w : FirnWho) (hk : Keep b0 s) : Keep b0 (firnEvent s key sym ue w) := by
  unfold firnEvent
  try dsimp only
  repeat' first
      | (with_reducible assumption) | (with_reducible apply keep_raiseEv) | (with_reducible apply keep_satF) | (with_reducible apply keep_setR)
      | (with_reducible apply keep_setR64) | (with_reducible apply keep_ite)

theorem keepP_readBeat {b0 : State} (s : State) (key : Nat) (w : FirnWho) (hk : Keep b0 s) : KeepP b0 (readBeat s key w) := by
  unfold readBeat
  try dsimp only
  repeat' first
      | (with_reducible assumption) | (with_reducible apply keep_firnEvent) | (with_reducible apply keepP_ite) | (with_reducible apply keep_fst)
      | (with_reducible refine keep_eqP ‹_ = (_, _)› ?_) | split | (dsimp only) | (with_reducible apply keepP_mk)

theorem keepP_readKeys {b0 : State} (s : State) (w : FirnWho) (y0 : Nat) (y1 : Nat) (y2 : Nat) (hk : Keep b0 s) : KeepP b0 (readKeys s w y0 y1 y2) := by
  induction y0 generalizing s w y1 y2 with
  | zero =>
    unfold readKeys
    repeat' first
        | (with_reducible assumption) | (with_reducible apply ih) | (with_reducible apply keepP_readBeat) | (with_reducible apply keep_ite)
        | (with_reducible apply keepP_ite) | (with_reducible apply keep_fst) | (with_reducible refine keep_eqP ‹_ = (_, _)› ?_) | split | (dsimp only)
        | (with_reducible apply keepP_mk)
  | succ _ ih =>
    unfold readKeys
    repeat' first
        | (with_reducible assumption) | (with_reducible apply ih) | (with_reducible apply keepP_readBeat) | (with_reducible apply keep_ite)
        | (with_reducible apply keepP_ite) | (with_reducible apply keep_fst) | (with_reducible refine keep_eqP ‹_ = (_, _)› ?_) | split | (dsimp only)
        | (with_reducible apply keepP_mk)

theorem keep_modXfer {b0 : State} (s : State) (c d id : Nat) (f : Xfer → Xfer) (hk : Keep b0 s) : Keep b0 (modXfer s c d id f) := by
  unfold modXfer
  try dsimp only
  repeat' first
      | (with_reducible assumption) | (with_reducible apply keep_setDesc) | (with_reducible apply keep_ite) | split

theorem keep_dropWaiting {b0 : State} (s : State) (id pos : Nat) (hk : Keep b0 s) : Keep b0 (dropWaiting s id pos) := by
  unfold dropWaiting
  try dsimp only
  repeat' first | (with_reducible assumption) | split | (dsimp only) | (with_reducible apply keep_mk)

theorem keep_fenceGone {b0 : State} (s : State) (c id : Nat) (hk : Keep b0 s) : Keep b0 (fenceGone s c id) := by
  unfold fenceGone
  try dsimp only
  repeat' first
      | (with_reducible assumption) | (with_reducible apply keep_modCore) | (with_reducible apply keep_modSlot) | (with_reducible apply keep_foldl)
      | (with_reducible apply keep_fst) | split | (intro _ _ _)

theorem keep_endXfer {b0 : State} (s : State) (c d : Nat) (hk : Keep b0 s) : Keep b0 (endXfer s c d) := by
  unfold endXfer
  try dsimp only
  repeat' first | (with_reducible assumption) | (with_reducible apply keep_fenceGone) | (with_reducible apply keep_stopDesc) | split

theorem keep_stopCheck {b0 : State} (s : State) (c d : Nat) (hk : Keep b0 s) : Keep b0 (stopCheck s c d) := by
  unfold stopCheck
  try dsimp only
  repeat' first | (with_reducible assumption) | (with_reducible apply keep_endXfer) | (with_reducible apply keep_ite) | split

theorem keep_stopXfer {b0 : State} (s : State) (c d id pos : Nat) (hk : Keep b0 s) : Keep b0 (stopXfer s c d id pos) := by
  unfold stopXfer
  try dsimp only
  repeat' first
      | (with_reducible assumption) | (with_reducible apply keep_dropWaiting) | (with_reducible apply keep_modXfer) | (with_reducible apply keep_stopCheck)
      | (with_reducible apply keep_ite) | (with_reducible apply keep_fst) | split

theorem keep_readLands {b0 : State} (s : State) (r : FirnReq) (marks : Nat) (bs : List Byte) (bad : Bool) (hk : Keep b0 s) : Keep b0 (readLands s r marks bs bad) := by
  unfold readLands
  try dsimp only
  repeat' first
      | (with_reducible assumption) | (with_reducible apply keep_modXfer) | (with_reducible apply keep_stopXfer) | (with_reducible apply keep_ite)

theorem keep_stackOut {b0 : State} (s : State) (k c marks : Nat) (load : NetLoad) (hk : Keep b0 s) : Keep b0 (stackOut s k c marks load) := by
  unfold stackOut
  try dsimp only
  repeat' first | (with_reducible assumption) | (with_reducible apply keep_outPush)

theorem keep_serveRead {b0 : State} (s : State) (r : FirnReq) (hk : Keep b0 s) : Keep b0 (serveRead s r) := by
  unfold serveRead
  try dsimp only
  repeat' first
      | (with_reducible assumption) | (with_reducible apply keep_ledReturn1) | (with_reducible apply keep_openRow) | (with_reducible apply keepP_readKeys)
      | (with_reducible apply keep_readLands) | (with_reducible apply keep_stackOut) | (with_reducible apply keep_ite) | (with_reducible apply keep_fst)
      | (with_reducible refine keep_eqP ‹_ = (_, _)› ?_) | split | (dsimp only) | (with_reducible apply keep_mk)

theorem keep_setBeatErr {b0 : State} (s : State) (key : Nat) (e : BitVec 288) (hk : Keep b0 s) : Keep b0 (setBeatErr s key e) := by
  unfold setBeatErr
  try dsimp only
  repeat' first | (with_reducible assumption) | split | (dsimp only) | (with_reducible apply keep_mk)

theorem keepP_writeBeat {b0 : State} (s : State) (key : Nat) (bs : List Byte) (w : FirnWho) (hk : Keep b0 s) : KeepP b0 (writeBeat s key bs w) := by
  unfold writeBeat
  try dsimp only
  repeat' first
      | (with_reducible assumption) | (with_reducible apply keepP_readBeat) | (with_reducible apply keep_setBeatErr) | (with_reducible apply keep_wrBytes)
      | (with_reducible apply keep_ite) | (with_reducible apply keepP_ite) | (with_reducible apply keep_fst) | (with_reducible refine keep_eqP ‹_ = (_, _)› ?_) | split
      | (dsimp only) | (with_reducible apply keepP_mk)

theorem keepP_writeKeys {b0 : State} (s : State) (w : FirnWho) (y0 : Nat) (y1 : Nat) (y2 : List Byte) (hk : Keep b0 s) : KeepP b0 (writeKeys s w y0 y1 y2) := by
  induction y0 generalizing s w y1 y2 with
  | zero =>
    unfold writeKeys
    repeat' first
        | (with_reducible assumption) | (with_reducible apply ih) | (with_reducible apply keepP_writeBeat) | (with_reducible apply keep_ite)
        | (with_reducible apply keepP_ite) | (with_reducible apply keep_fst) | (with_reducible refine keep_eqP ‹_ = (_, _)› ?_) | split | (dsimp only)
        | (with_reducible apply keepP_mk)
  | succ _ ih =>
    unfold writeKeys
    repeat' first
        | (with_reducible assumption) | (with_reducible apply ih) | (with_reducible apply keepP_writeBeat) | (with_reducible apply keep_ite)
        | (with_reducible apply keepP_ite) | (with_reducible apply keep_fst) | (with_reducible refine keep_eqP ‹_ = (_, _)› ?_) | split | (dsimp only)
        | (with_reducible apply keepP_mk)

theorem keep_serveWrite {b0 : State} (s : State) (r : FirnReq) (hk : Keep b0 s) : Keep b0 (serveWrite s r) := by
  unfold serveWrite
  try dsimp only
  repeat' first
      | (with_reducible assumption) | (with_reducible apply keep_dropWaiting) | (with_reducible apply keep_endXfer) | (with_reducible apply keep_ledReturn1)
      | (with_reducible apply keep_openRow) | (with_reducible apply keepP_writeKeys) | (with_reducible apply keep_ite) | (with_reducible apply keep_fst)
      | (with_reducible refine keep_eqP ‹_ = (_, _)› ?_) | split | (dsimp only) | (with_reducible apply keep_mk)

theorem keep_settleChan {b0 : State} (s : State) (key : Nat) (y0 : Nat) (hk : Keep b0 s) : Keep b0 (settleChan s key y0) := by
  induction y0 generalizing s key with
  | zero =>
    unfold settleChan
    repeat' first
        | (with_reducible assumption)
        
  | succ _ ih =>
    unfold settleChan
    repeat' first
        | (with_reducible assumption) | (with_reducible apply ih) | (with_reducible apply keep_serveRead) | (with_reducible apply keep_serveWrite)
        | (with_reducible apply keep_ite) | split

theorem keepP_devRead {b0 : State} (s : State) (w : FirnWho) (y0 : Nat) (y1 : Nat) (y2 : Nat) (hk : Keep b0 s) : KeepP b0 (devRead s w y0 y1 y2) := by
  induction y0 generalizing s w y1 y2 with
  | zero =>
    unfold devRead
    repeat' first
        | (with_reducible assumption) | (with_reducible apply ih) | (with_reducible apply keep_ledIssue) | (with_reducible apply keep_ledReturn1)
        | (with_reducible apply keep_openRow) | (with_reducible apply keepP_readKeys) | (with_reducible apply keep_settleChan) | (with_reducible apply keep_ite)
        | (with_reducible apply keepP_ite) | (with_reducible apply keep_fst) | (with_reducible refine keep_eqP ‹_ = (_, _)› ?_) | split | (dsimp only)
        | (with_reducible apply keepP_mk)
  | succ _ ih =>
    unfold devRead
    repeat' first
        | (with_reducible assumption) | (with_reducible apply ih) | (with_reducible apply keep_ledIssue) | (with_reducible apply keep_ledReturn1)
        | (with_reducible apply keep_openRow) | (with_reducible apply keepP_readKeys) | (with_reducible apply keep_settleChan) | (with_reducible apply keep_ite)
        | (with_reducible apply keepP_ite) | (with_reducible apply keep_fst) | (with_reducible refine keep_eqP ‹_ = (_, _)› ?_) | split | (dsimp only)
        | (with_reducible apply keepP_mk)

theorem keepP_imageRead {b0 : State} (s : State) (off n : Nat) (hk : Keep b0 s) : KeepP b0 (imageRead s off n) := by
  unfold imageRead
  try dsimp only
  repeat' first
      | (with_reducible assumption) | (with_reducible apply keepP_devRead)
      

theorem keepP_imageCheck {b0 : State} (s : State) (hk : Keep b0 s) : KeepP b0 (imageCheck s) := by
  unfold imageCheck
  exact keepP_mk (keep_fst (keepP_imageRead _ _ _ (keep_fst (keepP_imageRead s 0 0x2000 hk))))

theorem keep_pushDone {b0 : State} (s : State) (hk : Keep b0 s) : Keep b0 (pushDone s) := by
  unfold pushDone
  have h := keepP_imageCheck s hk
  generalize imageCheck s = r at h ⊢
  dsimp only
  split
  · exact hk
  · split
    · exact keep_bootEnter _ _ _ (keep_setF _ _ _ _ _ h)
    · exact keep_mkSec2 (keep_bootFail _ _ h)

theorem keep_pushStart {b0 : State} (s : State) (hk : Keep b0 s) : Keep b0 (pushStart s) := by
  unfold pushStart
  try dsimp only
  repeat' first
      | (with_reducible assumption) | (with_reducible apply keep_ite) | split | (dsimp only) | (with_reducible apply keep_mk) | (with_reducible apply keep_mkSec2)

theorem keep_pushCtl {b0 : State} (s : State) (v : Nat) (hk : Keep b0 s) : Keep b0 (pushCtl s v) := by
  unfold pushCtl
  try dsimp only
  repeat' first
      | (with_reducible assumption) | (with_reducible apply keep_pushDone) | (with_reducible apply keep_pushStart) | (with_reducible apply keep_ite)
      

theorem keep_sessErr {b0 : State} (s : State) (e : Nat) (hk : Keep b0 s) : Keep b0 (sessErr s e) := by
  unfold sessErr
  try dsimp only
  repeat' first | (with_reducible assumption) | (with_reducible apply keep_setF)

theorem keep_setRegBytes {b0 : State} (s : State) (off : Nat) (bs : List Byte) (hk : Keep b0 s) : Keep b0 (setRegBytes s off bs) := by
  unfold setRegBytes
  try dsimp only
  repeat' first | (with_reducible assumption) | (with_reducible apply keep_setR) | (with_reducible apply keep_foldl) | split | (intro _ _ _)

theorem keep_sessRequest {b0 : State} (s : State) (debug : Bool) (hk : Keep b0 s) : Keep b0 (sessRequest s debug) := by
  unfold sessRequest
  try dsimp only
  repeat' first
      | (with_reducible assumption) | (with_reducible apply keep_sessErr) | (with_reducible apply keep_setF) | (with_reducible apply keep_setRegBytes)
      | (with_reducible apply keep_ite) | split | (dsimp only) | (with_reducible apply keep_mk)

theorem keep_badMac {b0 : State} (s : State) (hk : Keep b0 s) : Keep b0 (badMac s) := by
  unfold badMac
  try dsimp only
  repeat' first
      | (with_reducible assumption) | (with_reducible apply keep_hostIrq) | (with_reducible apply keep_raiseEv) | (with_reducible apply keep_sessErr)
      | (with_reducible apply keep_setF) | (with_reducible apply keep_ite) | split | (dsimp only) | (with_reducible apply keep_mk)

theorem keep_sessSubmit {b0 : State} (s : State) (jtag : Bool) (hk : Keep b0 s) : Keep b0 (sessSubmit s jtag) := by
  unfold sessSubmit
  try dsimp only
  repeat' first
      | (with_reducible assumption) | (with_reducible apply keep_badMac) | (with_reducible apply keep_sessErr) | (with_reducible apply keep_setF)
      | (with_reducible apply keep_ite) | split | (dsimp only) | (with_reducible apply keep_mk)

theorem keep_sessCtl {b0 : State} (s : State) (jtag : Bool) (v : Nat) (hk : Keep b0 s) : Keep b0 (sessCtl s jtag v) := by
  unfold sessCtl
  try dsimp only
  repeat' first
      | (with_reducible assumption) | (with_reducible apply keep_sessEnd) | (with_reducible apply keep_sessErr) | (with_reducible apply keep_sessRequest)
      | (with_reducible apply keep_sessSubmit) | (with_reducible apply keep_ite)

theorem keep_sessWrite {b0 : State} (s : State) (src : Src) (off : Nat) (v : BitVec 32) (hk : Keep b0 s) : Keep b0 (sessWrite s src off v) := by
  unfold sessWrite
  try dsimp only
  repeat' first
      | (with_reducible assumption) | (with_reducible apply keep_attestReq) | (with_reducible apply keep_lifecycleCtl) | (with_reducible apply keep_noSession)
      | (with_reducible apply keep_plainWrite) | (with_reducible apply keep_pushCtl) | (with_reducible apply keep_sessCtl) | (with_reducible apply keep_ite) | split
      | (dsimp only) | (with_reducible apply keep_mk) | (with_reducible apply keep_mkSec2)

theorem keep_pkgIdRun {b0 : State} (s : State) (v : BitVec 32) (hk : Keep b0 s) : Keep b0 (pkgIdRun s v) := by
  unfold pkgIdRun
  try dsimp only
  repeat' first | (with_reducible assumption) | (with_reducible apply keep_setF) | (with_reducible apply keep_ite)

theorem keep_ccCtl {b0 : State} (s : State) (k v : Nat) (hk : Keep b0 s) : Keep b0 (ccCtl s k v) := by
  unfold ccCtl
  try dsimp only
  repeat' first
      | (with_reducible assumption) | (with_reducible apply keep_ccHold) | (with_reducible apply keep_setF) | (with_reducible apply keep_ite)

theorem keep_ccHostirqRun {b0 : State} (s : State) (v : Nat) (hk : Keep b0 s) : Keep b0 (ccHostirqRun s v) := by
  unfold ccHostirqRun
  try dsimp only
  repeat' first
      | (with_reducible assumption) | (with_reducible apply keep_hostIrq) | (with_reducible apply keep_ite) | (with_reducible apply keep_foldl) | split | (intro _ _ _)
      

theorem keep_absentNote {b0 : State} (s : State) (c ukind uindex addr : Nat) (hk : Keep b0 s) : Keep b0 (absentNote s c ukind uindex addr) := by
  unfold absentNote
  try dsimp only
  repeat' first | (with_reducible assumption) | (with_reducible apply keep_raiseEv)

theorem keep_ccData {b0 : State} (s : State) (k : Nat) (bs : List Byte) (hk : Keep b0 s) : Keep b0 (ccData s k bs) := by
  unfold ccData
  try dsimp only
  repeat' first | (with_reducible assumption) | (with_reducible apply keep_setCc)

theorem keep_setMirDeltas {b0 : State} (s : State) (r n : Nat) (hk : Keep b0 s) : Keep b0 (setMirDeltas s r n) := by
  unfold setMirDeltas
  try dsimp only
  repeat' first | (with_reducible assumption) | split | (dsimp only) | (with_reducible apply keep_mk)

theorem keep_mirSend {b0 : State} (s : State) (k : Packet) (hk : Keep b0 s) : Keep b0 (mirSend s k) := by
  unfold mirSend
  try dsimp only
  repeat' first | (with_reducible assumption) | (with_reducible apply keep_setMirDeltas) | (with_reducible apply keep_txPush)

theorem keepP_devWrite {b0 : State} (s : State) (w : FirnWho) (y0 : Nat) (y1 : Nat) (y2 : List Byte) (hk : Keep b0 s) : KeepP b0 (devWrite s w y0 y1 y2) := by
  induction y0 generalizing s w y1 y2 with
  | zero =>
    unfold devWrite
    repeat' first
        | (with_reducible assumption) | (with_reducible apply ih) | (with_reducible apply keep_ledIssue) | (with_reducible apply keep_ledReturn1)
        | (with_reducible apply keep_mirSend) | (with_reducible apply keep_openRow) | (with_reducible apply keep_settleChan) | (with_reducible apply keep_wrBytes)
        | (with_reducible apply keepP_writeKeys) | (with_reducible apply keep_ite) | (with_reducible apply keepP_ite) | (with_reducible apply keep_fst)
        | (with_reducible refine keep_eqP ‹_ = (_, _)› ?_) | split | (dsimp only) | (with_reducible apply keepP_mk)
  | succ _ ih =>
    unfold devWrite
    repeat' first
        | (with_reducible assumption) | (with_reducible apply ih) | (with_reducible apply keep_ledIssue) | (with_reducible apply keep_ledReturn1)
        | (with_reducible apply keep_mirSend) | (with_reducible apply keep_openRow) | (with_reducible apply keep_settleChan) | (with_reducible apply keep_wrBytes)
        | (with_reducible apply keepP_writeKeys) | (with_reducible apply keep_ite) | (with_reducible apply keepP_ite) | (with_reducible apply keep_fst)
        | (with_reducible refine keep_eqP ‹_ = (_, _)› ?_) | split | (dsimp only) | (with_reducible apply keepP_mk)

theorem keep_ccLocal {b0 : State} (s : State) (k a len : Nat) (data : Option (List Byte)) (hk : Keep b0 s) : Keep b0 (ccLocal s k a len data) := by
  unfold ccLocal
  try dsimp only
  repeat' first
      | (with_reducible assumption) | (with_reducible apply keep_absentNote) | (with_reducible apply keep_ccData) | (with_reducible apply keepP_devRead)
      | (with_reducible apply keepP_devWrite) | (with_reducible apply keep_satF) | (with_reducible apply keep_sramWrite) | (with_reducible apply keep_wrBytes)
      | (with_reducible apply keep_ite) | (with_reducible apply keep_fst) | (with_reducible refine keep_eqP ‹_ = (_, _)› ?_) | split

theorem keep_ccError {b0 : State} (s : State) (k st : Nat) (hk : Keep b0 s) : Keep b0 (ccError s k st) := by
  unfold ccError
  try dsimp only
  repeat' first
      | (with_reducible assumption) | (with_reducible apply keep_raiseEv) | (with_reducible apply keep_setF)

theorem keep_ccFetch {b0 : State} (s : State) (k pkg addr pos n : Nat) (hk : Keep b0 s) : Keep b0 (ccFetch s k pkg addr pos n) := by
  unfold ccFetch
  try dsimp only
  repeat' first
      | (with_reducible assumption) | (with_reducible apply keep_ccError) | (with_reducible apply keepP_fabRequest) | (with_reducible apply keep_setCc)
      | (with_reducible apply keep_fst) | (with_reducible refine keep_eqP ‹_ = (_, _)› ?_) | split

theorem keep_ccPost {b0 : State} (s : State) (k pkg addr : Nat) (bs : List Byte) (hk : Keep b0 s) : Keep b0 (ccPost s k pkg addr bs) := by
  unfold ccPost
  try dsimp only
  repeat' first
      | (with_reducible assumption) | (with_reducible apply keep_ccError) | (with_reducible apply keepP_fabRequest) | (with_reducible apply keep_setCc)
      | (with_reducible apply keep_fst) | (with_reducible refine keep_eqP ‹_ = (_, _)› ?_) | split

theorem keepQ_openBytes {b0 : State} (s : State) (n : Nat) (hk : Keep b0 s) : KeepQ b0 (openBytes s n) := by
  unfold openBytes
  try dsimp only
  repeat' first
      | (with_reducible assumption) | (with_reducible apply keepQ_drawFree) | (with_reducible apply keep_snd) | (with_reducible refine keep_eqQ ‹_ = (_, _)› ?_) | split
      | (dsimp only) | (with_reducible apply keepQ_mk)

theorem keep_ccRemote {b0 : State} (s : State) (k pkg addr n : Nat) (data : Option (List Byte)) (hk : Keep b0 s) : Keep b0 (ccRemote s k pkg addr n data) := by
  unfold ccRemote
  try dsimp only
  repeat' first
      | (with_reducible assumption) | (with_reducible apply keep_ccFetch) | (with_reducible apply keep_ccPost) | (with_reducible apply keepQ_openBytes)
      | (with_reducible apply keep_setCc) | (with_reducible apply keep_foldl) | (with_reducible apply keep_fst) | (with_reducible apply keep_snd)
      | (with_reducible refine keep_eqQ ‹_ = (_, _)› ?_) | split | (intro _ _ _)

theorem keep_ccRemoteSignal {b0 : State} (s : State) (k v : Nat) (hk : Keep b0 s) : Keep b0 (ccRemoteSignal s k v) := by
  unfold ccRemoteSignal
  try dsimp only
  repeat' first
      | (with_reducible assumption) | (with_reducible apply keep_ccError) | (with_reducible apply keepP_fabRequest) | (with_reducible apply keep_ledIssue)
      | (with_reducible apply keep_ledReturn1) | (with_reducible apply keep_fst) | (with_reducible refine keep_eqP ‹_ = (_, _)› ?_) | split
      

theorem keep_ccSignalGo {b0 : State} (s : State) (k v : Nat) (hk : Keep b0 s) : Keep b0 (ccSignalGo s k v) := by
  unfold ccSignalGo
  try dsimp only
  repeat' first
      | (with_reducible assumption) | (with_reducible apply keep_absentNote) | (with_reducible apply keep_ccRemoteSignal) | (with_reducible apply keep_sendSignal)
      | (with_reducible apply keep_ite)

theorem keep_clearBlocks {b0 : State} (s : State) (c : Nat) (x : Xfer) (hk : Keep b0 s) : Keep b0 (clearBlocks s c x) := by
  unfold clearBlocks
  try dsimp only
  repeat' first | (with_reducible assumption) | (with_reducible apply keep_setR64)

theorem keep_armRun {b0 : State} (s : State) (c t w : Nat) (hk : Keep b0 s) : Keep b0 (armRun s c t w) := by
  unfold armRun
  try dsimp only
  repeat' first
      | (with_reducible assumption) | (with_reducible apply keep_clearBlocks) | (with_reducible apply keep_ledIssue) | (with_reducible apply keep_setDesc)
      | (with_reducible apply keep_setR64) | (with_reducible apply keep_ite) | split | (dsimp only) | (with_reducible apply keep_mk)

theorem keep_putTemplate {b0 : State} (s : State) (c d : Nat) (ws : List (BitVec 64)) (hk : Keep b0 s) : Keep b0 (putTemplate s c d ws) := by
  unfold putTemplate
  try dsimp only
  repeat' first | (with_reducible assumption) | (with_reducible apply keep_setR64) | (with_reducible apply keep_foldl) | split | (intro _ _ _)

theorem keep_overlayArm {b0 : State} (s : State) (c t src dst len : Nat) (hk : Keep b0 s) : Keep b0 (overlayArm s c t src dst len) := by
  unfold overlayArm
  try dsimp only
  repeat' first | (with_reducible assumption) | (with_reducible apply keep_armRun) | (with_reducible apply keep_putTemplate) | split

theorem keep_ccItemGo {b0 : State} (s : State) (k : Nat) (y0 : CcItem) (hk : Keep b0 s) : Keep b0 (ccItemGo s k y0) := by
  unfold ccItemGo
  try dsimp only
  repeat' first
      | (with_reducible assumption) | (with_reducible apply keep_ccLocal) | (with_reducible apply keep_ccRemote) | (with_reducible apply keep_ccSignalGo)
      | (with_reducible apply keep_hostIrq) | (with_reducible apply keep_overlayArm) | split

theorem keep_ccGo {b0 : State} (s : State) (k : Nat) (y0 : Nat) (hk : Keep b0 s) : Keep b0 (ccGo s k y0) := by
  induction y0 generalizing s k with
  | zero =>
    unfold ccGo
    repeat' first
        | (with_reducible assumption)
        
  | succ _ ih =>
    unfold ccGo
    repeat' first
        | (with_reducible assumption) | (with_reducible apply ih) | (with_reducible apply keep_ccItemGo) | (with_reducible apply keep_setCc)
        | (with_reducible apply keep_ite) | split

theorem keep_ccTodo {b0 : State} (s : State) (k : Nat) (hk : Keep b0 s) : Keep b0 (ccTodo s k) := by
  unfold ccTodo
  try dsimp only
  repeat' first | (with_reducible assumption) | (with_reducible apply keep_ccGo) | (with_reducible apply keep_ite)

theorem keep_ccPush {b0 : State} (s : State) (k : Nat) (x : CcItem) (hk : Keep b0 s) : Keep b0 (ccPush s k x) := by
  unfold ccPush
  try dsimp only
  repeat' first
      | (with_reducible assumption) | (with_reducible apply keep_ccTodo) | (with_reducible apply keep_setCc)

theorem keep_ccSigRun {b0 : State} (s : State) (k v : Nat) (hk : Keep b0 s) : Keep b0 (ccSigRun s k v) := by
  unfold ccSigRun
  try dsimp only
  repeat' first
      | (with_reducible assumption) | (with_reducible apply keep_ccPush) | (with_reducible apply keep_ccSignalGo) | (with_reducible apply keep_ite)

theorem keep_trcBad {b0 : State} (s : State) (d : Nat) (hk : Keep b0 s) : Keep b0 (trcBad s d) := by
  unfold trcBad
  try dsimp only
  repeat' first | (with_reducible assumption) | (with_reducible apply keep_setF)

theorem keep_trcBuf {b0 : State} (s : State) (d off : Nat) (v : BitVec 32) (hk : Keep b0 s) : Keep b0 (trcBuf s d off v) := by
  unfold trcBuf
  try dsimp only
  repeat' first
      | (with_reducible assumption) | (with_reducible apply keep_setR) | (with_reducible apply keep_trcBad) | (with_reducible apply keep_ite)

theorem keep_trcCtl {b0 : State} (s : State) (d v : Nat) (debug : Bool) (hk : Keep b0 s) : Keep b0 (trcCtl s d v debug) := by
  unfold trcCtl
  try dsimp only
  repeat' first
      | (with_reducible assumption) | (with_reducible apply keep_setF) | (with_reducible apply keep_setR) | (with_reducible apply keep_trcBad)
      | (with_reducible apply keep_ite)

theorem keep_trcMarkRun {b0 : State} (s : State) (d v : Nat) (hk : Keep b0 s) : Keep b0 (trcMarkRun s d v) := by
  unfold trcMarkRun
  try dsimp only
  repeat' first | (with_reducible assumption) | (with_reducible apply keep_traceRec)

theorem keep_svcWrite {b0 : State} (s : State) (debug : Bool) (d off : Nat) (v : BitVec 32) (hk : Keep b0 s) : Keep b0 (svcWrite s debug d off v) := by
  unfold svcWrite
  try dsimp only
  repeat' first
      | (with_reducible assumption) | (with_reducible apply keep_ccCtl) | (with_reducible apply keep_ccHostirqRun) | (with_reducible apply keep_ccSigRun)
      | (with_reducible apply keep_plainWrite) | (with_reducible apply keep_trcBuf) | (with_reducible apply keep_trcCtl) | (with_reducible apply keep_trcMarkRun)
      | (with_reducible apply keep_ite)

theorem keep_netKeep {b0 : State} (s : State) (keep : NetLoad → Bool) (hk : Keep b0 s) : Keep b0 (netKeep s keep) := by
  unfold netKeep
  try dsimp only
  repeat' first | (with_reducible assumption) | split | (dsimp only) | (with_reducible apply keep_mk)

theorem keep_orphan {b0 : State} (s : State) (p : Nat) (k : Packet) (hk : Keep b0 s) : Keep b0 (orphan s p k) := by
  unfold orphan
  try dsimp only
  repeat' first
      | (with_reducible assumption) | (with_reducible apply keep_fabError) | (with_reducible apply keep_portDrop) | (with_reducible apply keep_ite)

theorem keep_writeMasked {b0 : State} (s : State) (y0 : Nat) (y1 : Nat) (y2 : List Byte) (y3 : List Bool) (hk : Keep b0 s) : Keep b0 (writeMasked s y0 y1 y2 y3) := by
  induction y0 generalizing s y1 y2 y3 with
  | zero =>
    unfold writeMasked
    repeat' first
        | (with_reducible assumption)
        
  | succ _ ih =>
    unfold writeMasked
    repeat' first
        | (with_reducible assumption) | (with_reducible apply ih) | (with_reducible apply keepP_devWrite) | (with_reducible apply keep_fst)
        | (with_reducible refine keep_eqP ‹_ = (_, _)› ?_) | split

theorem keep_applyDeltas {b0 : State} (s : State) (regions : Nat) (ds : List DeltaRec) (hk : Keep b0 s) : Keep b0 (applyDeltas s regions ds) := by
  unfold applyDeltas
  try dsimp only
  repeat' first
      | (with_reducible assumption) | (with_reducible apply keep_writeMasked) | (with_reducible apply keep_ite) | (with_reducible apply keep_foldl)
      | (with_reducible apply keep_fst) | split | (intro _ _ _)

theorem keep_applyOne {b0 : State} (s : State) (n rs upto : Nat) (rest : List (Nat × Nat × Nat)) (hk : Keep b0 s) : Keep b0 (applyOne s n rs upto rest) := by
  unfold applyOne
  try dsimp only
  repeat' first
      | (with_reducible assumption) | (with_reducible apply keep_applyDeltas) | (with_reducible apply keep_setR) | split | (dsimp only) | (with_reducible apply keep_mk)

theorem keep_applyAll {b0 : State}  (y0 : List (Nat × Nat × Nat)) (y1 : State) (hk : Keep b0 y1) : Keep b0 (applyAll y0 y1) := by
  induction y0 generalizing y1 with
  | nil =>
    unfold applyAll
    repeat' first | (with_reducible assumption)
  | cons _ _ ih =>
    unfold applyAll
    repeat' first | (with_reducible assumption) | (with_reducible apply ih) | (with_reducible apply keep_applyOne)

theorem keep_mirUnpair {b0 : State} (s : State) (hk : Keep b0 s) : Keep b0 (mirUnpair s) := by
  unfold mirUnpair
  try dsimp only
  repeat' first | (with_reducible assumption) | (with_reducible apply keep_setF) | split | (dsimp only) | (with_reducible apply keep_mk)

theorem keep_mirAgree {b0 : State} (s : State) (hk : Keep b0 s) : Keep b0 (mirAgree s) := by
  unfold mirAgree
  try dsimp only
  repeat' first
      | (with_reducible assumption) | (with_reducible apply keep_mirUnpair) | (with_reducible apply keep_setF) | (with_reducible apply keep_ite)
      | (with_reducible apply keep_foldl) | split | (intro _ _ _) | (dsimp only) | (with_reducible apply keep_mk)

theorem keep_mirTell {b0 : State} (s : State) (hk : Keep b0 s) : Keep b0 (mirTell s) := by
  unfold mirTell
  try dsimp only
  repeat' first
      | (with_reducible assumption) | (with_reducible apply keep_sendNumbered) | (with_reducible apply keep_ite)

theorem keep_mirCheck {b0 : State} (s : State) (hk : Keep b0 s) : Keep b0 (mirCheck s) := by
  unfold mirCheck
  try dsimp only
  repeat' first
      | (with_reducible assumption) | (with_reducible apply keep_mirAgree) | (with_reducible apply keep_mirTell) | (with_reducible apply keep_setF)
      | (with_reducible apply keep_ite)

theorem keep_mirCtl {b0 : State} (s : State) (v : Nat) (hk : Keep b0 s) : Keep b0 (mirCtl s v) := by
  unfold mirCtl
  try dsimp only
  repeat' first
      | (with_reducible assumption) | (with_reducible apply keep_mirCheck) | (with_reducible apply keep_mirUnpair) | (with_reducible apply keep_setR)
      | (with_reducible apply keep_ite) | split | (dsimp only) | (with_reducible apply keep_mk)

theorem keep_applyEnd {b0 : State} (s : State) (hk : Keep b0 s) : Keep b0 (applyEnd s) := by
  unfold applyEnd
  try dsimp only
  repeat' first
      | (with_reducible assumption) | (with_reducible apply keep_mirCtl) | (with_reducible apply keep_setF) | split | (dsimp only) | (with_reducible apply keep_mk)

theorem keep_partnerLost {b0 : State} (s : State) (hk : Keep b0 s) : Keep b0 (partnerLost s) := by
  unfold partnerLost
  try dsimp only
  repeat' first
      | (with_reducible assumption) | (with_reducible apply keep_applyAll) | (with_reducible apply keep_applyEnd) | (with_reducible apply keep_hostIrq)
      | (with_reducible apply keep_ledReturn) | (with_reducible apply keep_satF) | (with_reducible apply keep_setF) | (with_reducible apply keep_ite) | split
      | (dsimp only) | (with_reducible apply keep_mk)

theorem keep_ccLoadDone {b0 : State} (s : State) (k tag pos : Nat) (bs : List Byte) (hk : Keep b0 s) : Keep b0 (ccLoadDone s k tag pos bs) := by
  unfold ccLoadDone
  try dsimp only
  repeat' first | (with_reducible assumption) | (with_reducible apply keep_setCc)

theorem keep_ccWriteDone {b0 : State} (s : State) (k tag : Nat) (hk : Keep b0 s) : Keep b0 (ccWriteDone s k tag) := by
  unfold ccWriteDone
  try dsimp only
  repeat' first | (with_reducible assumption) | (with_reducible apply keep_setCc)

theorem keep_descFabError {b0 : State} (s : State) (c d id pos st : Nat) (hk : Keep b0 s) : Keep b0 (descFabError s c d id pos st) := by
  unfold descFabError
  try dsimp only
  repeat' first
      | (with_reducible assumption) | (with_reducible apply keep_raiseCore) | (with_reducible apply keep_stopFloeOf) | (with_reducible apply keep_stopXfer)
      | (with_reducible apply keep_ite) | split

theorem keep_liveDrop {b0 : State} (s : State) (c och tag : Nat) (hk : Keep b0 s) : Keep b0 (liveDrop s c och tag) := by
  unfold liveDrop
  try dsimp only
  repeat' first
      | (with_reducible assumption) | (with_reducible apply keep_modCore)

theorem keep_trkDone {b0 : State} (s : State) (t : Nat) (hk : Keep b0 s) : Keep b0 (trkDone s t) := by
  unfold trkDone
  try dsimp only
  repeat' first
      | (with_reducible assumption) | (with_reducible apply keep_ledReturn1) | (with_reducible apply keep_setTrk)

theorem keep_trkFail {b0 : State} (s : State) (t st why : Nat) (hk : Keep b0 s) : Keep b0 (trkFail s t st why) := by
  unfold trkFail
  try dsimp only
  repeat' first
      | (with_reducible assumption) | (with_reducible apply keep_ccError) | (with_reducible apply keep_ccLoadDone) | (with_reducible apply keep_ccWriteDone)
      | (with_reducible apply keep_descFabError) | (with_reducible apply keep_ledReturn1) | (with_reducible apply keep_liveDrop) | (with_reducible apply keep_msgFailed)
      | (with_reducible apply keep_msgReturned) | (with_reducible apply keep_replyFailed) | (with_reducible apply keep_trkDone) | (with_reducible apply keep_ite) | split
      

theorem keep_portLost {b0 : State} (s : State) (p cause : Nat) (hk : Keep b0 s) : Keep b0 (portLost s p cause) := by
  unfold portLost
  try dsimp only
  repeat' first
      | (with_reducible assumption) | (with_reducible apply keep_ledReturn) | (with_reducible apply keep_netKeep) | (with_reducible apply keep_orphan)
      | (with_reducible apply keep_partnerLost) | (with_reducible apply keep_raiseEv) | (with_reducible apply keep_setF) | (with_reducible apply keep_setPort)
      | (with_reducible apply keep_setPortState) | (with_reducible apply keep_trkFail) | (with_reducible apply keep_ite) | (with_reducible apply keep_foldl)
      | (with_reducible apply keep_fst) | split | (intro _ _ _)

theorem keep_wakeSend {b0 : State} (s : State) (p : Nat) (hk : Keep b0 s) : Keep b0 (wakeSend s p) := by
  unfold wakeSend
  try dsimp only
  repeat' first
      | (with_reducible assumption) | (with_reducible apply keep_emitFlit) | (with_reducible apply keep_txPush) | (with_reducible apply keep_ite)
      

theorem keep_fabCtl {b0 : State} (s : State) (p v : Nat) (hk : Keep b0 s) : Keep b0 (fabCtl s p v) := by
  unfold fabCtl
  try dsimp only
  repeat' first
      | (with_reducible assumption) | (with_reducible apply keep_portLost) | (with_reducible apply keep_setPortState) | (with_reducible apply keep_setR)
      | (with_reducible apply keep_wakeSend) | (with_reducible apply keep_ite)

theorem keep_releaseDie {b0 : State} (s : State) (d : Nat) (hk : Keep b0 s) : Keep b0 (releaseDie s d) := by
  unfold releaseDie
  try dsimp only
  repeat' first
      | (with_reducible assumption) | (with_reducible apply keep_modSlot) | (with_reducible apply keep_ite) | (with_reducible apply keep_foldl) | split | (intro _ _ _)
      

theorem keep_mlogCtl {b0 : State} (s : State) (d v : Nat) (hk : Keep b0 s) : Keep b0 (mlogCtl s d v) := by
  unfold mlogCtl
  try dsimp only
  repeat' first
      | (with_reducible assumption) | (with_reducible apply keep_releaseDie) | (with_reducible apply keep_setF) | (with_reducible apply keep_ite)

theorem keep_writeWord {b0 : State} (s : State) (src : Src) (off : Nat) (v : BitVec 32) (hk : Keep b0 s) : Keep b0 (writeWord s src off v) := by
  unfold writeWord
  try dsimp only
  repeat' first
      | (with_reducible assumption) | (with_reducible apply keep_clusterWrite) | (with_reducible apply keep_coreWrite) | (with_reducible apply keep_fabCtl)
      | (with_reducible apply keep_hostWrite) | (with_reducible apply keep_mirCtl) | (with_reducible apply keep_mlogCtl) | (with_reducible apply keep_pkgIdRun)
      | (with_reducible apply keep_plainWrite) | (with_reducible apply keep_pwrWrite) | (with_reducible apply keep_sessWrite) | (with_reducible apply keep_setAlert)
      | (with_reducible apply keep_setF) | (with_reducible apply keep_svcWrite) | (with_reducible apply keep_ite)

theorem keep_imageWrite {b0 : State} (s : State) (off : Nat) (bs : List Byte) (hk : Keep b0 s) : Keep b0 (imageWrite s off bs) := by
  unfold imageWrite
  try dsimp only
  repeat' first
      | (with_reducible assumption) | (with_reducible apply keepP_devWrite) | (with_reducible apply keep_fst)
      

theorem keep_pushData {b0 : State} (s : State) (v : Nat) (hk : Keep b0 s) : Keep b0 (pushData s v) := by
  unfold pushData
  try dsimp only
  repeat' first
      | (with_reducible assumption) | (with_reducible apply keep_imageWrite) | (with_reducible apply keep_setF) | (with_reducible apply keep_ite) | split | (dsimp only)
      | (with_reducible apply keep_mk) | (with_reducible apply keep_mkSec2)

theorem keepO_wideWrite {b0 : State} (s : State) (off v : Nat) (hk : Keep b0 s) : KeepO b0 (wideWrite s off v) := by
  unfold wideWrite
  try dsimp only
  repeat' first
      | (with_reducible assumption) | (with_reducible apply keep_ccHostirqRun) | (with_reducible apply keep_ccSigRun) | (with_reducible apply keep_cfgErr)
      | (with_reducible apply keep_dvfsWrite) | (with_reducible apply keep_pushData) | (with_reducible apply keep_setR64) | (with_reducible apply keep_tbStep)
      | (with_reducible apply keep_ite) | (with_reducible apply keepO_ite) | (with_reducible apply keepO_some) | (with_reducible apply keepO_none)
      

theorem keep_rightsWord {b0 : State} (s : State) (src : Src) (off : Nat) (v : BitVec 32) (hk : Keep b0 s) : Keep b0 (rightsWord s src off v) := by
  unfold rightsWord
  try dsimp only
  repeat' first
      | (with_reducible assumption) | (with_reducible apply keep_noSession) | (with_reducible apply keep_pwrResult) | (with_reducible apply keep_writeWord)
      | (with_reducible apply keep_ite)

theorem keep_regPerform {b0 : State} (s : State) (src : Src) (off : Nat) (wide : Bool) (v : Nat) (hk : Keep b0 s) : Keep b0 (regPerform s src off wide v) := by
  unfold regPerform
  try dsimp only
  repeat' first
      | (with_reducible assumption) | (with_reducible apply keep_noSession) | (with_reducible apply keep_raiseEv) | (with_reducible apply keep_rightsWord)
      | (with_reducible apply keepO_wideWrite) | (with_reducible apply keep_ite) | (with_reducible apply keepO_ite) | (with_reducible apply keepO_some)
      | (with_reducible apply keepO_none) | (with_reducible apply keep_fst) | (with_reducible refine keep_eqO ‹_ = some _› ?_) | split
      

theorem keep_wakeDetectRun {b0 : State} (s : State) (w : WakeSrc) (hk : Keep b0 s) : Keep b0 (wakeDetectRun s w) := by
  unfold wakeDetectRun
  try dsimp only
  repeat' first
      | (with_reducible assumption) | (with_reducible apply keep_idleWake) | (with_reducible apply keep_wakeBegin) | (with_reducible apply keep_ite) | split
      | (dsimp only) | (with_reducible apply keep_mk)

theorem keep_regWrite {b0 : State} (s : State) (src : Src) (off : Nat) (wide : Bool) (v : Nat) (hk : Keep b0 s) : Keep b0 (regWrite s src off wide v) := by
  unfold regWrite
  try dsimp only
  repeat' first
      | (with_reducible assumption) | (with_reducible apply keep_hold) | (with_reducible apply keep_idleWake) | (with_reducible apply keep_noSession)
      | (with_reducible apply keep_regPerform) | (with_reducible apply keep_satF) | (with_reducible apply keep_wakeDetectRun) | (with_reducible apply keep_ite) | split
      

theorem keep_heldWrite {b0 : State} (s : State) (h : Held) (hk : Keep b0 s) : Keep b0 (heldWrite s h) := by
  unfold heldWrite
  try dsimp only
  repeat' first
      | (with_reducible assumption) | (with_reducible apply keep_regWrite) | (with_reducible apply keep_ite) | split | (dsimp only) | (with_reducible apply keep_mk)

theorem keep_flushHeld {b0 : State} (s : State) (hk : Keep b0 s) : Keep b0 (flushHeld s) := by
  unfold flushHeld
  try dsimp only
  repeat' first
      | (with_reducible assumption) | (with_reducible apply keep_heldWrite) | (with_reducible apply keep_ite) | (with_reducible apply keep_foldl) | split | (intro _ _ _)
      | (dsimp only) | (with_reducible apply keep_mk)

theorem keep_regTop {b0 : State} (s : State) (src : Src) (off : Nat) (wide : Bool) (v : Nat) (hk : Keep b0 s) : Keep b0 (regTop s src off wide v) := by
  unfold regTop
  try dsimp only
  repeat' first
      | (with_reducible assumption) | (with_reducible apply keep_flushHeld) | (with_reducible apply keep_regWrite) | (with_reducible apply keep_ite)
      

theorem keep_mirLagging {b0 : State} (s : State) (hk : Keep b0 s) : Keep b0 (mirLagging s) := by
  unfold mirLagging
  try dsimp only
  repeat' first
      | (with_reducible assumption) | (with_reducible apply keep_hostIrq) | (with_reducible apply keep_raiseEv) | (with_reducible apply keep_setF)
      | (with_reducible apply keep_ite)

theorem keep_descsReset {b0 : State} (s : State) (c : Nat) (hk : Keep b0 s) : Keep b0 (descsReset s c) := by
  unfold descsReset
  try dsimp only
  repeat' first
      | (with_reducible assumption) | (with_reducible apply keep_ledReturn) | (with_reducible apply keep_modCore)
      

theorem keep_coreResetEnd {b0 : State} (s : State) (c : Nat) (hk : Keep b0 s) : Keep b0 (coreResetEnd s c) := by
  unfold coreResetEnd
  try dsimp only
  repeat' first | (with_reducible assumption) | (with_reducible apply keep_descsReset) | split | (dsimp only) | (with_reducible apply keep_mk)

theorem keep_floeResetEnd {b0 : State} (s : State) (cl f : Nat) (hk : Keep b0 s) : Keep b0 (floeResetEnd s cl f) := by
  unfold floeResetEnd
  try dsimp only
  repeat' first
      | (with_reducible assumption) | (with_reducible apply keep_dropAllResv) | (with_reducible apply keep_modSlot) | (with_reducible apply keep_nullRepliesOf)
      | (with_reducible apply keep_setCause) | (with_reducible apply keep_setFloe) | (with_reducible apply keep_setR) | (with_reducible apply keep_setR64)
      | (with_reducible apply keep_setSlotState) | (with_reducible apply keep_foldl) | (with_reducible apply keep_fst) | split | (intro _ _ _)
      

theorem keep_rstDone {b0 : State} (s : State) (hk : Keep b0 s) : Keep b0 (rstDone s) := by
  unfold rstDone
  try dsimp only
  repeat' first | (with_reducible assumption) | (with_reducible apply keep_setF) | split | (dsimp only) | (with_reducible apply keep_mk)

theorem keep_resetComplete {b0 : State} (s : State) (hk : Keep b0 s) : Keep b0 (resetComplete s) := by
  unfold resetComplete
  try dsimp only
  repeat' first
      | (with_reducible assumption) | (with_reducible apply keep_coreResetEnd) | (with_reducible apply keep_floeResetEnd) | (with_reducible apply keep_rstDone)
      | (with_reducible apply keep_ite) | (with_reducible apply keep_foldl) | (with_reducible apply keep_fst) | split | (intro _ _ _)

theorem keep_snapshot {b0 : State} (s : State) (hk : Keep b0 s) : Keep b0 (snapshot s) := by
  unfold snapshot
  try dsimp only
  repeat' first
      | (with_reducible assumption) | (with_reducible apply keep_setF) | (with_reducible apply keep_setR64) | (with_reducible apply keep_ite)
      

theorem keep_trcStore {b0 : State} (s : State) (d : Nat) (rs : List (List (BitVec 64))) (hk : Keep b0 s) : Keep b0 (trcStore s d rs) := by
  unfold trcStore
  try dsimp only
  repeat' first
      | (with_reducible assumption) | (with_reducible apply keepP_devWrite) | (with_reducible apply keep_satF) | (with_reducible apply keep_setR)
      | (with_reducible apply keep_ite) | (with_reducible apply keep_foldl) | (with_reducible apply keep_fst) | (with_reducible refine keep_eqP ‹_ = (_, _)› ?_) | split
      | (intro _ _ _)

theorem keep_tracePacket {b0 : State} (s : State) (d slot : Nat) (busy : Bool) (hk : Keep b0 s) : Keep b0 (tracePacket s d slot busy) := by
  unfold tracePacket
  try dsimp only
  repeat' first
      | (with_reducible assumption) | (with_reducible apply keep_satF) | (with_reducible apply keep_setF) | (with_reducible apply keep_setTrace)
      | (with_reducible apply keep_trcStore) | (with_reducible apply keep_ite)

theorem keep_waitPush {b0 : State} (s : State) (hk : Keep b0 s) : Keep b0 (waitPush s) := by
  unfold waitPush
  try dsimp only
  repeat' first
      | (with_reducible assumption) | (with_reducible apply keep_setF) | split | (dsimp only) | (with_reducible apply keep_mk) | (with_reducible apply keep_mkSec2)

theorem keep_bootCold {b0 : State} (s : State) (image : ImageRead) (hk : Keep b0 s) : Keep b0 (bootCold s image) := by
  unfold bootCold
  try dsimp only
  repeat' first
      | (with_reducible assumption) | (with_reducible apply keep_bootEnter) | (with_reducible apply keep_bootFail) | (with_reducible apply keep_imageWrite)
      | (with_reducible apply keep_padRun) | (with_reducible apply keep_setF) | (with_reducible apply keep_waitPush) | (with_reducible apply keep_ite) | split
      

theorem keep_bootRun {b0 : State} (s : State) (image : ImageRead) (hk : Keep b0 s) : Keep b0 (bootRun s image) := by
  unfold bootRun
  have h := keepP_imageCheck s hk
  generalize imageCheck s = r at h ⊢
  dsimp only
  split
  · exact hk
  split
  · split
    · exact keep_waitPush _ (keep_setF _ _ _ _ _ hk)
    · exact hk
  split
  · split
    · exact keep_bootEnter _ _ _ h
    · exact keep_bootCold _ _ (keep_bootFail _ _ (keep_mkSec2 h))
  · exact keep_bootCold _ _ hk

theorem keep_attestDone {b0 : State} (s : State) (hk : Keep b0 s) : Keep b0 (attestDone s) := by
  unfold attestDone
  try dsimp only
  repeat' first
      | (with_reducible assumption) | (with_reducible apply keep_setF) | (with_reducible apply keep_setRegBytes) | (with_reducible apply keep_ite) | split | (dsimp only)
      | (with_reducible apply keep_mk) | (with_reducible apply keep_mkSec2)

theorem keep_provisionEnd {b0 : State} (s : State) (hk : Keep b0 s) : Keep b0 (provisionEnd s) := by
  unfold provisionEnd
  split
  · refine ⟨⟨hk.fuses.1, hk.fuses.2.1, fun k h => ?_⟩, hk.canon⟩
    have h1 := hk.fuses.2.2 k h
    simp only [usedAt, ownerSlot] at h1 ⊢
    rw [mget_mset]
    split
    · rfl
    · exact h1
  · exact hk

theorem keep_lockoutExpiry {b0 : State} (s : State) (hk : Keep b0 s) : Keep b0 (lockoutExpiry s) := by
  unfold lockoutExpiry
  try dsimp only
  repeat' first | (with_reducible assumption) | (with_reducible apply keep_setF) | (with_reducible apply keep_ite)

theorem keep_setMoverQ {b0 : State} (s : State) (m : Nat) (q : List HostCmd) (hk : Keep b0 s) : Keep b0 (setMoverQ s m q) := by
  unfold setMoverQ
  try dsimp only
  repeat' first | (with_reducible assumption) | split | (dsimp only) | (with_reducible apply keep_mk)

theorem keep_linkLoss {b0 : State} (s : State) (hk : Keep b0 s) : Keep b0 (linkLoss s) := by
  unfold linkLoss
  try dsimp only
  repeat' first
      | (with_reducible assumption) | (with_reducible apply keep_abortAll) | (with_reducible apply keep_sessLost) | (with_reducible apply keep_setF)
      | (with_reducible apply keep_ite) | split | (dsimp only) | (with_reducible apply keep_mk)

theorem keep_hostReset {b0 : State} (s : State) (hk : Keep b0 s) : Keep b0 (hostReset s) := by
  unfold hostReset
  have h := keep_linkLoss s hk
  generalize linkLoss s = s1 at h ⊢
  dsimp only
  split
  · exact keep_hostIrq _ _ (keep_fresh h (fun h => mwf_filter _ _ _ h) rfl rfl rfl (.inl rfl))
  · exact keep_fresh h (fun h => mwf_filter _ _ _ h) rfl rfl rfl (.inl rfl)

theorem keep_msixFlush {b0 : State} (s : State) (hk : Keep b0 s) : Keep b0 (msixFlush s) := by
  unfold msixFlush
  try dsimp only
  repeat' first
      | (with_reducible assumption) | (with_reducible apply keep_msix) | (with_reducible apply keep_ite) | (with_reducible apply keep_foldl) | split | (intro _ _ _)
      | (dsimp only) | (with_reducible apply keep_mk)

theorem keep_linkTrain {b0 : State} (s : State) (rate width : Nat) (flit : Bool) (hk : Keep b0 s) : Keep b0 (linkTrain s rate width flit) := by
  unfold linkTrain
  try dsimp only
  repeat' first
      | (with_reducible assumption) | (with_reducible apply keep_msixFlush) | (with_reducible apply keep_setF) | (with_reducible apply keep_ite) | split | (dsimp only)
      | (with_reducible apply keep_mk)

theorem keepO_armFault {b0 : State} (s : State) (c t idx w : Nat) (hk : Keep b0 s) : KeepO b0 (armFault s c t idx w) := by
  unfold armFault
  try dsimp only
  repeat' first
      | (with_reducible assumption) | (with_reducible apply keep_illegal) | (with_reducible apply keep_raiseCore) | (with_reducible apply keep_satF)
      | (with_reducible apply keep_spBounds) | (with_reducible apply keep_ite) | (with_reducible apply keepO_ite) | (with_reducible apply keepO_some)
      | (with_reducible apply keepO_none) | (with_reducible refine keep_eqO ‹_ = some _› ?_) | split

theorem keep_lfenceRun {b0 : State} (s : State) (c t w : Nat) (hk : Keep b0 s) : Keep b0 (lfenceRun s c t w) := by
  unfold lfenceRun
  try dsimp only
  repeat' first
      | (with_reducible assumption) | (with_reducible apply keep_modSlot) | (with_reducible apply keep_ite)

theorem keep_descWait {b0 : State} (s : State) (c d : Nat) (hk : Keep b0 s) : Keep b0 (descWait s c d) := by
  unfold descWait
  try dsimp only
  repeat' first
      | (with_reducible assumption) | (with_reducible apply keep_endXfer) | (with_reducible apply keep_modXfer) | (with_reducible apply keep_raiseCore)
      | (with_reducible apply keep_setF) | (with_reducible apply keep_ite) | split

theorem keep_fenceRelease {b0 : State} (s : State) (c d : Nat) (hk : Keep b0 s) : Keep b0 (fenceRelease s c d) := by
  unfold fenceRelease
  try dsimp only
  repeat' first
      | (with_reducible assumption) | (with_reducible apply keep_modXfer) | (with_reducible apply keep_ite) | split

theorem keep_firnSend {b0 : State} (s : State) (c : Nat) (r : FirnReq) (hk : Keep b0 s) : Keep b0 (firnSend s c r) := by
  unfold firnSend
  try dsimp only
  repeat' first
      | (with_reducible assumption) | (with_reducible apply keep_coreOut) | (with_reducible apply keep_ite) | split | (dsimp only) | (with_reducible apply keep_mk)

theorem keep_descRequestIssue {b0 : State} (s : State) (c d : Nat) (hk : Keep b0 s) : Keep b0 (descRequestIssue s c d) := by
  unfold descRequestIssue
  try dsimp only
  repeat' first
      | (with_reducible assumption) | (with_reducible apply keep_descFabError) | (with_reducible apply keepP_fabRequest) | (with_reducible apply keep_firnSend)
      | (with_reducible apply keep_modXfer) | (with_reducible apply keep_setDesc) | (with_reducible apply keep_ite) | (with_reducible apply keep_fst)
      | (with_reducible refine keep_eqP ‹_ = (_, _)› ?_) | split

theorem keep_writeWords {b0 : State} (s : State) (c : Nat) (y0 : Nat) (y1 : List (BitVec 64)) (hk : Keep b0 s) : Keep b0 (writeWords s c y0 y1) := by
  induction y1 generalizing s y0 with
  | nil => exact hk
  | cons x xs ih =>
    simp only [writeWords]
    apply ih
    have h := keep_modCore (parClear s c 1 y0) c (fun k => { k with istore := mset (fun _ => 0) k.istore y0 x }) (keep_parClear _ _ _ _ hk)
    split
    · exact keep_setR64 _ _ _ h
    · exact h

theorem keep_descSend {b0 : State} (s : State) (c d : Nat) (x : Xfer) (hk : Keep b0 s) : Keep b0 (descSend s c d x) := by
  unfold descSend
  try dsimp only
  repeat' first
      | (with_reducible assumption) | (with_reducible apply keep_coreOut) | (with_reducible apply keep_descFabError) | (with_reducible apply keepP_fabRequest)
      | (with_reducible apply keep_firnSend) | (with_reducible apply keep_ledIssue) | (with_reducible apply keep_modCore) | (with_reducible apply keep_modXfer)
      | (with_reducible apply keep_wrBytes) | (with_reducible apply keep_writeWords) | (with_reducible apply keep_ite) | (with_reducible apply keep_fst)
      | (with_reducible refine keep_eqP ‹_ = (_, _)› ?_) | split

theorem keep_descDataWrite {b0 : State} (s : State) (c d : Nat) (hk : Keep b0 s) : Keep b0 (descDataWrite s c d) := by
  unfold descDataWrite
  try dsimp only
  repeat' first
      | (with_reducible assumption) | (with_reducible apply keep_descSend) | (with_reducible apply keep_stopCheck) | (with_reducible apply keep_ite) | split
      

theorem keep_xSigSend {b0 : State} (s : State) (c : Nat) (x : Xfer) (hk : Keep b0 s) : Keep b0 (xSigSend s c x) := by
  unfold xSigSend
  try dsimp only
  repeat' first
      | (with_reducible assumption) | (with_reducible apply keep_coreSend) | (with_reducible apply keep_ledIssue) | (with_reducible apply keep_sendSignal)
      | (with_reducible apply keep_stackOut) | (with_reducible apply keep_ite)

theorem keep_descComplete {b0 : State} (s : State) (c d : Nat) (hk : Keep b0 s) : Keep b0 (descComplete s c d) := by
  unfold descComplete
  try dsimp only
  repeat' first
      | (with_reducible assumption) | (with_reducible apply keep_fenceGone) | (with_reducible apply keep_ledReturn1) | (with_reducible apply keep_setDesc)
      | (with_reducible apply keep_traceOfFloe) | (with_reducible apply keep_xSigSend) | (with_reducible apply keep_ite) | split
      

theorem keep_foreignStop {b0 : State} (s : State) (r : FirnReq) (hk : Keep b0 s) : Keep b0 (foreignStop s r) := by
  unfold foreignStop
  try dsimp only
  repeat' first
      | (with_reducible assumption) | (with_reducible apply keep_endXfer) | (with_reducible apply keep_raiseCore) | (with_reducible apply keep_satF) | split
      

theorem keep_firnRequestEnter {b0 : State} (s : State) (k ch port : Nat) (hk : Keep b0 s) : Keep b0 (firnRequestEnter s k ch port) := by
  unfold firnRequestEnter
  try dsimp only
  repeat' first
      | (with_reducible assumption) | (with_reducible apply keep_foreignStop) | (with_reducible apply keep_ledIssue) | (with_reducible apply keep_mirSend)
      | (with_reducible apply keep_modXfer) | (with_reducible apply keep_ite) | split | (dsimp only) | (with_reducible apply keep_mk)

theorem keep_serveOldest {b0 : State} (s : State) (k ch port : Nat) (pick : FirnReq → Bool) (serve : State → FirnReq → State) (h_serve : ∀ x0 x1, Keep b0 x0 → Keep b0
    (serve x0 x1)) (hk : Keep b0 s) : Keep b0 (serveOldest s k ch port pick serve) := by
  unfold serveOldest
  try dsimp only
  repeat' first | (with_reducible assumption) | (with_reducible apply h_serve) | (with_reducible apply keep_ite) | split

theorem keep_firnReadReturn {b0 : State} (s : State) (k ch port : Nat) (hk : Keep b0 s) : Keep b0 (firnReadReturn s k ch port) := by
  unfold firnReadReturn
  try dsimp only
  repeat' first | (with_reducible assumption) | (with_reducible apply keep_serveOldest) | (with_reducible apply keep_serveRead)

theorem keep_firnWritePerformed {b0 : State} (s : State) (k ch port : Nat) (hk : Keep b0 s) : Keep b0 (firnWritePerformed s k ch port) := by
  unfold firnWritePerformed
  try dsimp only
  repeat' first | (with_reducible assumption) | (with_reducible apply keep_serveOldest) | (with_reducible apply keep_serveWrite)

theorem keep_readModifyWrite {b0 : State} (s : State) (k ch port : Nat) (hk : Keep b0 s) : Keep b0 (readModifyWrite s k ch port) := by
  unfold readModifyWrite
  try dsimp only
  repeat' first | (with_reducible assumption) | (with_reducible apply keep_serveOldest) | (with_reducible apply keep_serveWrite)

theorem keep_nbOor {b0 : State} (s : State) (m : List Nat) (hk : Keep b0 s) : Keep b0 (nbOor s m) := by
  unfold nbOor
  try dsimp only
  repeat' first | (with_reducible assumption) | (with_reducible apply keep_satF)

theorem keepP_nbRow {b0 : State} (s : State) (c t : Nat) (m : List Nat) (i : Int) (off at_ n : Nat) (hk : Keep b0 s) : KeepP b0 (nbRow s c t m i off at_ n) := by
  unfold nbRow
  try dsimp only
  repeat' first
      | (with_reducible assumption) | (with_reducible apply keepP_devRead) | (with_reducible apply keep_nbOor) | (with_reducible apply keep_ite)
      | (with_reducible apply keepP_ite) | (with_reducible apply keep_fst) | (with_reducible refine keep_eqP ‹_ = (_, _)› ?_) | split | (dsimp only)
      | (with_reducible apply keepP_mk)

theorem keepP_nbBagSum {b0 : State} (s : State) (c t : Nat) (m : List Nat) (at_ : Nat) (y0 : Nat) (y1 : Nat) (y2 : List Nat) (hk : Keep b0 s) : KeepP b0 (nbBagSum s c t m
    at_ y0 y1 y2) := by
  induction y0 generalizing s c t m at_ y1 y2 with
  | zero =>
    unfold nbBagSum
    repeat' first
        | (with_reducible assumption) | (with_reducible apply ih) | (with_reducible apply keepP_devRead) | (with_reducible apply keep_nbOor)
        | (with_reducible apply keep_ite) | (with_reducible apply keepP_ite) | (with_reducible apply keep_fst) | (with_reducible refine keep_eqP ‹_ = (_, _)› ?_) | split
        | (dsimp only) | (with_reducible apply keepP_mk)
  | succ _ ih =>
    unfold nbBagSum
    repeat' first
        | (with_reducible assumption) | (with_reducible apply ih) | (with_reducible apply keepP_devRead) | (with_reducible apply keep_nbOor)
        | (with_reducible apply keep_ite) | (with_reducible apply keepP_ite) | (with_reducible apply keep_fst) | (with_reducible refine keep_eqP ‹_ = (_, _)› ?_) | split
        | (dsimp only) | (with_reducible apply keepP_mk)

theorem keepP_nbElems {b0 : State} (s : State) (c t base w i n : Nat) (hk : Keep b0 s) : KeepP b0 (nbElems s c t base w i n) := by
  unfold nbElems
  try dsimp only
  repeat' first
      | (with_reducible assumption) | (with_reducible apply keepP_devRead) | (with_reducible apply keepP_ite) | (with_reducible apply keep_fst)
      | (with_reducible refine keep_eqP ‹_ = (_, _)› ?_) | split | (dsimp only) | (with_reducible apply keepP_mk)

theorem keepP_nbExpand {b0 : State} (s : State) (c t : Nat) (m : List Nat) (e n : Nat) (hk : Keep b0 s) : KeepP b0 (nbExpand s c t m e n) := by
  unfold nbExpand
  try dsimp only
  repeat' first
      | (with_reducible assumption) | (with_reducible apply keepP_nbElems) | (with_reducible apply keep_satF) | (with_reducible apply keep_ite)
      | (with_reducible apply keepP_ite) | (with_reducible apply keep_fst) | (with_reducible refine keep_eqP ‹_ = (_, _)› ?_) | split | (dsimp only)
      | (with_reducible apply keepP_mk)

theorem keepP_nbPiece {b0 : State} (s : State) (c t : Nat) (m : List Nat) (o : Nat) (small : Bool) (hk : Keep b0 s) : KeepP b0 (nbPiece s c t m o small) := by
  unfold nbPiece
  try dsimp only
  repeat' first
      | (with_reducible assumption) | (with_reducible apply keepP_nbBagSum) | (with_reducible apply keepP_nbExpand) | (with_reducible apply keepP_nbRow)
      | (with_reducible apply keep_ite) | (with_reducible apply keepP_ite) | (with_reducible apply keep_fst) | (with_reducible refine keep_eqP ‹_ = (_, _)› ?_) | split
      | (dsimp only) | (with_reducible apply keepP_mk)

theorem keepP_nbNext {b0 : State} (s : State) (c t : Nat) (m : List Nat) (o : Nat) (hk : Keep b0 s) : KeepP b0 (nbNext s c t m o) := by
  unfold nbNext
  try dsimp only
  repeat' first
      | (with_reducible assumption) | (with_reducible apply keepP_nbPiece) | (with_reducible apply keep_ite) | (with_reducible apply keepP_ite)
      

theorem keep_nearDeliver {b0 : State} (s : State) (c d : Nat) (pick : List Nat → Bool) (hk : Keep b0 s) : Keep b0 (nearDeliver s c d pick) := by
  unfold nearDeliver
  try dsimp only
  repeat' first
      | (with_reducible assumption) | (with_reducible apply keep_modXfer) | (with_reducible apply keepP_nbNext) | (with_reducible apply keep_readLands)
      | (with_reducible apply keep_stackOut) | (with_reducible apply keep_ite) | (with_reducible apply keep_fst) | (with_reducible refine keep_eqP ‹_ = (_, _)› ?_)
      | split

theorem keep_gatherRun {b0 : State} (s : State) (c d : Nat) (hk : Keep b0 s) : Keep b0 (gatherRun s c d) := by
  unfold gatherRun
  try dsimp only
  repeat' first | (with_reducible assumption) | (with_reducible apply keep_nearDeliver)

theorem keep_gatherSumRun {b0 : State} (s : State) (c d : Nat) (hk : Keep b0 s) : Keep b0 (gatherSumRun s c d) := by
  unfold gatherSumRun
  try dsimp only
  repeat' first | (with_reducible assumption) | (with_reducible apply keep_nearDeliver)

theorem keep_kvFetchRun {b0 : State} (s : State) (c d : Nat) (hk : Keep b0 s) : Keep b0 (kvFetchRun s c d) := by
  unfold kvFetchRun
  try dsimp only
  repeat' first | (with_reducible assumption) | (with_reducible apply keep_nearDeliver)

theorem keep_expandSparseRun {b0 : State} (s : State) (c d : Nat) (hk : Keep b0 s) : Keep b0 (expandSparseRun s c d) := by
  unfold expandSparseRun
  try dsimp only
  repeat' first | (with_reducible assumption) | (with_reducible apply keep_nearDeliver)

theorem keep_expandCodebookRun {b0 : State} (s : State) (c d : Nat) (hk : Keep b0 s) : Keep b0 (expandCodebookRun s c d) := by
  unfold expandCodebookRun
  try dsimp only
  repeat' first | (with_reducible assumption) | (with_reducible apply keep_nearDeliver)

theorem keep_expandBothRun {b0 : State} (s : State) (c d : Nat) (hk : Keep b0 s) : Keep b0 (expandBothRun s c d) := by
  unfold expandBothRun
  try dsimp only
  repeat' first | (with_reducible assumption) | (with_reducible apply keep_nearDeliver)

theorem keep_closeBank {b0 : State} (s : State) (k ch bank : Nat) (hk : Keep b0 s) : Keep b0 (closeBank s k ch bank) := by
  unfold closeBank
  try dsimp only
  repeat' first
      | (with_reducible assumption) | (with_reducible apply keep_setStack)

theorem keep_writeBackBeat {b0 : State} (s : State) (k place : Nat) (hk : Keep b0 s) : Keep b0 (writeBackBeat s k place) := by
  unfold writeBackBeat
  try dsimp only
  repeat' first
      | (with_reducible assumption) | (with_reducible apply keep_setBeatErr) | (with_reducible apply keep_wrBytes) | (with_reducible apply keep_ite) | split
      

theorem keepP_scrubBeat {b0 : State} (s : State) (k place : Nat) (hk : Keep b0 s) : KeepP b0 (scrubBeat s k place) := by
  unfold scrubBeat
  try dsimp only
  repeat' first
      | (with_reducible assumption) | (with_reducible apply keep_firnEvent) | (with_reducible apply keepP_ite) | (with_reducible apply keep_fst)
      | (with_reducible refine keep_eqP ‹_ = (_, _)› ?_) | split | (dsimp only) | (with_reducible apply keepP_mk)

theorem keep_scrubChannel {b0 : State} (s : State) (k ch : Nat) (hk : Keep b0 s) : Keep b0 (scrubChannel s k ch) := by
  unfold scrubChannel
  split
  · exact keep_setStack _ _ _ (keep_foldl (fun s x h => keep_writeBackBeat _ _ _ h) hk)
  · extract_lets b place r x n s1
    have h : KeepP b0 r := keepP_foldl (fun p a h => keep_fst (keepP_scrubBeat _ _ _ h)) hk
    have h1 : Keep b0 s1 := keep_setStack _ _ _ h
    split
    · exact keep_setR _ _ _ h1
    · exact h1

theorem keep_setRegime {b0 : State} (s : State) (k : Nat) (two : Bool) (hk : Keep b0 s) : Keep b0 (setRegime s k two) := by
  unfold setRegime
  try dsimp only
  repeat' first
      | (with_reducible assumption) | (with_reducible apply keep_raiseEv) | (with_reducible apply keep_setF) | (with_reducible apply keep_ite)
      

theorem keep_markWindow {b0 : State} (s : State) (k : Nat) (hk : Keep b0 s) : Keep b0 (markWindow s k) := by
  unfold markWindow
  try dsimp only
  repeat' first | (with_reducible assumption) | (with_reducible apply keep_ite) | split | (dsimp only) | (with_reducible apply keep_mk)

theorem keep_refreshRun {b0 : State} (s : State) (k : Nat) (hk : Keep b0 s) : Keep b0 (refreshRun s k) := by
  unfold refreshRun
  try dsimp only
  repeat' first
      | (with_reducible assumption) | (with_reducible apply keep_closeBank) | (with_reducible apply keep_markWindow) | (with_reducible apply keep_scrubChannel)
      | (with_reducible apply keep_setRegime) | (with_reducible apply keep_setStack) | (with_reducible apply keep_ite) | (with_reducible apply keep_foldl) | split
      | (intro _ _ _)

theorem keep_firnTemp {b0 : State} (s : State) (k t : Nat) (hk : Keep b0 s) : Keep b0 (firnTemp s k t) := by
  unfold firnTemp
  try dsimp only
  repeat' first | (with_reducible assumption) | (with_reducible apply keep_setF) | split | (dsimp only) | (with_reducible apply keep_mk)

theorem keep_regimeRun {b0 : State} (s : State) (k t : Nat) (hk : Keep b0 s) : Keep b0 (regimeRun s k t) := by
  unfold regimeRun
  try dsimp only
  repeat' first
      | (with_reducible assumption) | (with_reducible apply keep_firnTemp) | (with_reducible apply keep_wantRegime) | (with_reducible apply keep_ite)
      

theorem keep_selfRefreshExit {b0 : State} (s : State) (k : Nat) (hk : Keep b0 s) : Keep b0 (selfRefreshExit s k) := by
  unfold selfRefreshExit
  try dsimp only
  repeat' first
      | (with_reducible assumption) | (with_reducible apply keep_setF) | (with_reducible apply keep_setStack) | (with_reducible apply keep_startRegime)
      | (with_reducible apply keep_ite)

theorem keep_selfRefreshEnter {b0 : State} (s : State) (k : Nat) (hk : Keep b0 s) : Keep b0 (selfRefreshEnter s k) := by
  unfold selfRefreshEnter
  try dsimp only
  repeat' first
      | (with_reducible assumption) | (with_reducible apply keep_serveRead) | (with_reducible apply keep_serveWrite) | (with_reducible apply keep_setF)
      | (with_reducible apply keep_setStack) | (with_reducible apply keep_ite) | (with_reducible apply keep_foldl) | split | (intro _ _ _)
      

theorem keep_zeroStack {b0 : State} (s : State) (k : Nat) (hk : Keep b0 s) : Keep b0 (zeroStack s k) := by
  unfold zeroStack
  try dsimp only
  repeat' first
      | (with_reducible assumption) | (with_reducible apply keep_fst) | (exact fun h => mwf_mset _ _ _ _ h) | (exact fun h => mwf_filter _ _ _ h)
      | (exact fun h => mwf_memWrite _ _ _ h) | split | (dsimp only) | (with_reducible apply keep_mk) | (with_reducible apply keep_mkMem)

theorem keep_initDone {b0 : State} (s : State) (k : Nat) (hk : Keep b0 s) : Keep b0 (initDone s k) := by
  unfold initDone
  try dsimp only
  repeat' first
      | (with_reducible assumption) | (with_reducible apply keep_setF) | (with_reducible apply keep_setR) | (with_reducible apply keep_setStack)
      | (with_reducible apply keep_startRegime) | (with_reducible apply keep_zeroStack) | (with_reducible apply keep_ite)
      

theorem keep_hostOut {b0 : State} (s : State) (o : HostOut) (hk : Keep b0 s) : Keep b0 (hostOut s o) := by
  unfold hostOut
  try dsimp only
  repeat' first | (with_reducible assumption) | split | (dsimp only) | (with_reducible apply keep_mk)

theorem keep_barPart {b0 : State} (s : State) (a : Nat) (bs : List Byte) (hk : Keep b0 s) : Keep b0 (barPart s a bs) := by
  unfold barPart
  try dsimp only
  repeat' first
      | (with_reducible assumption) | (with_reducible apply keepP_devWrite) | (with_reducible apply keep_satF) | (with_reducible apply keep_ite)
      | (with_reducible apply keep_fst)

theorem keep_barDo {b0 : State} (s : State) (x : BarAcc) (hk : Keep b0 s) : Keep b0 (barDo s x) := by
  unfold barDo
  try dsimp only
  repeat' first
      | (with_reducible assumption) | (with_reducible apply keep_barPart) | (with_reducible apply keepP_devRead) | (with_reducible apply keep_hostOut)
      | (with_reducible apply keep_ite) | (with_reducible apply keep_fst) | (with_reducible refine keep_eqP ‹_ = (_, _)› ?_) | split

theorem keep_barGo {b0 : State} (s : State) (y0 : Nat) (hk : Keep b0 s) : Keep b0 (barGo s y0) := by
  induction y0 generalizing s with
  | zero =>
    unfold barGo
    repeat' first
        | (with_reducible assumption)
        
  | succ _ ih =>
    unfold barGo
    repeat' first
        | (with_reducible assumption) | (with_reducible apply ih) | (with_reducible apply keep_barDo) | (with_reducible apply keep_ite) | split | (dsimp only)
        | (with_reducible apply keep_mk)

theorem keep_barRun {b0 : State} (s : State) (hk : Keep b0 s) : Keep b0 (barRun s) := by
  unfold barRun
  try dsimp only
  repeat' first | (with_reducible assumption) | (with_reducible apply keep_barGo)

theorem keep_barPush {b0 : State} (s : State) (o n : Nat) (data : Option (List Byte)) (hk : Keep b0 s) : Keep b0 (barPush s o n data) := by
  unfold barPush
  try dsimp only
  repeat' first
      | (with_reducible assumption) | (with_reducible apply keep_barRun) | (with_reducible apply keep_wakeDetectRun) | (with_reducible apply keep_ite) | split
      | (dsimp only) | (with_reducible apply keep_mk)

theorem keep_barRead {b0 : State} (s : State) (o n : Nat) (hk : Keep b0 s) : Keep b0 (barRead s o n) := by
  unfold barRead
  try dsimp only
  repeat' first
      | (with_reducible assumption) | (with_reducible apply keep_barPush) | (with_reducible apply keep_hostOut) | (with_reducible apply keep_satF)
      | (with_reducible apply keep_ite)

theorem keep_barWrite {b0 : State} (s : State) (o : Nat) (bs : List Byte) (hk : Keep b0 s) : Keep b0 (barWrite s o bs) := by
  unfold barWrite
  try dsimp only
  repeat' first
      | (with_reducible assumption) | (with_reducible apply keep_barPush) | (with_reducible apply keep_satF) | (with_reducible apply keep_ite)

theorem keep_badAccess {b0 : State} (s : State) (write : Bool) (off size : Nat) (hk : Keep b0 s) : Keep b0 (badAccess s write off size) := by
  unfold badAccess
  try dsimp only
  repeat' first
      | (with_reducible assumption) | (with_reducible apply keep_hostOut) | (with_reducible apply keep_satF) | (with_reducible apply keep_ite)

theorem keep_recWrite {b0 : State} (s : State) (r : HostRec) (hk : Keep b0 s) : Keep b0 (recWrite s r) := by
  unfold recWrite
  try dsimp only
  repeat' first
      | (with_reducible assumption) | (with_reducible apply keep_hostIrq) | (with_reducible apply keep_hostOut) | (with_reducible apply keep_setR)
      | (with_reducible apply keep_ite)

theorem keep_recFlush {b0 : State} (s : State) (hk : Keep b0 s) : Keep b0 (recFlush s) := by
  unfold recFlush
  try dsimp only
  repeat' first
      | (with_reducible assumption) | (with_reducible apply keep_recWrite) | (with_reducible apply keep_ite) | (with_reducible apply keep_foldl) | split | (intro _ _ _)
      | (dsimp only) | (with_reducible apply keep_mk)

theorem keep_complete {b0 : State} (s : State) (c : HostCmd) (status info : Nat) (hk : Keep b0 s) : Keep b0 (complete s c status info) := by
  unfold complete
  try dsimp only
  repeat' first | (with_reducible assumption) | (with_reducible apply keep_recFlush) | split | (dsimp only) | (with_reducible apply keep_mk)

theorem keep_busEnable {b0 : State} (s : State) (on : Bool) (hk : Keep b0 s) : Keep b0 (busEnable s on) := by
  unfold busEnable
  try dsimp only
  repeat' first
      | (with_reducible assumption) | (with_reducible apply keep_msixFlush) | (with_reducible apply keep_recFlush) | split | (dsimp only) | (with_reducible apply keep_mk)

theorem keep_unmaskRun {b0 : State} (s : State) (v : Nat) (e : VecEnt) (hk : Keep b0 s) : Keep b0 (unmaskRun s v e) := by
  unfold unmaskRun
  try dsimp only
  repeat' first | (with_reducible assumption) | (with_reducible apply keep_msixFlush) | split | (dsimp only) | (with_reducible apply keep_mk)

theorem keep_pollFail {b0 : State} (s : State) (headErr : Bool) (hk : Keep b0 s) : Keep b0 (pollFail s headErr) := by
  unfold pollFail
  try dsimp only
  repeat' first
      | (with_reducible assumption) | (with_reducible apply keep_hostIrq) | (with_reducible apply keep_setF) | (with_reducible apply keep_ite)

theorem keep_acceptEntries {b0 : State} (s : State) (es : List (List W64)) (hk : Keep b0 s) : Keep b0 (acceptEntries s es) := by
  unfold acceptEntries
  try dsimp only
  repeat' first
      | (with_reducible assumption) | (with_reducible apply keep_setF) | (with_reducible apply keep_ite) | (with_reducible apply keep_fst) | split | (dsimp only)
      | (with_reducible apply keep_mk)

theorem keep_ringPoll {b0 : State} (s : State) (head : Option W32) (entries : Option (List (List W64))) (hk : Keep b0 s) : Keep b0 (ringPoll s head entries) := by
  unfold ringPoll
  try dsimp only
  repeat' first
      | (with_reducible assumption) | (with_reducible apply keep_acceptEntries) | (with_reducible apply keep_pollFail) | (with_reducible apply keep_ite) | split
      

theorem keep_dispatch {b0 : State} (s : State) (opc : Nat → Bool) (f : State → HostCmd → State) (h_f : ∀ x0 x1, Keep b0 x0 → Keep b0 (f x0 x1)) (hk : Keep b0 s) : Keep b0
    (dispatch s opc f) := by
  unfold dispatch
  try dsimp only
  repeat' first
      | (with_reducible assumption) | (with_reducible apply keep_complete) | (with_reducible apply h_f) | (with_reducible apply keep_ite) | split | (intro _ _ _)
      | (dsimp only) | (with_reducible apply keep_mk)

theorem keep_dropFirst {b0 : State} (s : State) (hk : Keep b0 s) : Keep b0 (dropFirst s) := by
  unfold dropFirst
  try dsimp only
  repeat' first | (with_reducible assumption) | split | (dsimp only) | (with_reducible apply keep_mk)

theorem keep_nopRun {b0 : State} (s : State) (hk : Keep b0 s) : Keep b0 (nopRun s) := by
  unfold nopRun
  try dsimp only
  repeat' first
      | (with_reducible assumption) | (with_reducible apply keep_complete) | (with_reducible apply keep_dispatch) | (with_reducible apply keep_dropFirst) | split
      | (intro _ _ _)

theorem keep_regwRun {b0 : State} (s : State) (hk : Keep b0 s) : Keep b0 (regwRun s) := by
  unfold regwRun
  try dsimp only
  repeat' first
      | (with_reducible assumption) | (with_reducible apply keep_complete) | (with_reducible apply keep_dispatch) | (with_reducible apply keep_dropFirst)
      | (with_reducible apply keep_regTop) | (with_reducible apply keep_ite) | split | (intro _ _ _)

theorem keep_powerRun {b0 : State} (s : State) (hk : Keep b0 s) : Keep b0 (powerRun s) := by
  unfold powerRun
  try dsimp only
  repeat' first
      | (with_reducible assumption) | (with_reducible apply keep_complete) | (with_reducible apply keep_dispatch) | (with_reducible apply keep_dropFirst)
      | (with_reducible apply keep_flushHeld) | (with_reducible apply keep_pwrRequest) | (with_reducible apply keep_ite) | split | (intro _ _ _)

theorem keep_closeRun {b0 : State} (s : State) (hk : Keep b0 s) : Keep b0 (closeRun s) := by
  unfold closeRun
  try dsimp only
  repeat' first
      | (with_reducible assumption) | (with_reducible apply keep_complete) | (with_reducible apply keep_dispatch) | (with_reducible apply keep_dropFirst)
      | (with_reducible apply keep_sessEnd) | split | (intro _ _ _)

theorem keep_signalRun {b0 : State} (s : State) (hk : Keep b0 s) : Keep b0 (signalRun s) := by
  unfold signalRun
  try dsimp only
  repeat' first
      | (with_reducible assumption) | (with_reducible apply keep_absentNote) | (with_reducible apply keep_complete) | (with_reducible apply keep_dispatch)
      | (with_reducible apply keep_dropFirst) | (with_reducible apply keep_sendSignal) | (with_reducible apply keep_ite) | split | (intro _ _ _)

theorem keep_setMoved {b0 : State} (s : State) (m n : Nat) (hk : Keep b0 s) : Keep b0 (setMoved s m n) := by
  unfold setMoved
  try dsimp only
  repeat' first | (with_reducible assumption) | split | (dsimp only) | (with_reducible apply keep_mk)

theorem keep_moveStops {b0 : State} (s : State) (c : HostCmd) (status : Nat) (hk : Keep b0 s) : Keep b0 (moveStops s c status) := by
  unfold moveStops
  try dsimp only
  repeat' first
      | (with_reducible assumption) | (with_reducible apply keep_complete) | (with_reducible apply keep_dropFirst) | (with_reducible apply keep_ledIssue)
      | (with_reducible apply keep_ledReturn1) | (with_reducible apply keep_moveError)

theorem keep_moverBounds {b0 : State} (s : State) (c : HostCmd) (hk : Keep b0 s) : Keep b0 (moverBounds s c) := by
  unfold moverBounds
  try dsimp only
  repeat' first | (with_reducible assumption) | (with_reducible apply keep_raiseEv)

theorem keep_moveRun {b0 : State} (s : State) (hk : Keep b0 s) : Keep b0 (moveRun s) := by
  unfold moveRun
  try dsimp only
  repeat' first
      | (with_reducible assumption) | (with_reducible apply keep_absentNote) | (with_reducible apply keep_dispatch) | (with_reducible apply keep_dropFirst)
      | (with_reducible apply keep_ledIssue) | (with_reducible apply keep_moveStops) | (with_reducible apply keep_moverBounds) | (with_reducible apply keep_setMoverQ)
      | (with_reducible apply keep_ite) | split | (intro _ _ _)

theorem keep_moveEnd {b0 : State} (s : State) (m : Nat) (c : HostCmd) (status n : Nat) (hk : Keep b0 s) : Keep b0 (moveEnd s m c status n) := by
  unfold moveEnd
  try dsimp only
  repeat' first
      | (with_reducible assumption) | (with_reducible apply keep_complete) | (with_reducible apply keep_ledReturn1) | (with_reducible apply keep_moveError)
      | (with_reducible apply keep_sendSignal) | (with_reducible apply keep_setMoved) | (with_reducible apply keep_setMoverQ) | (with_reducible apply keep_setR64)
      | (with_reducible apply keep_ite)

theorem keepP_moveWrite {b0 : State} (s : State) (y0 : Nat) (y1 : Nat) (y2 : List Byte) (hk : Keep b0 s) : KeepP b0 (moveWrite s y0 y1 y2) := by
  induction y0 generalizing s y1 y2 with
  | zero =>
    unfold moveWrite
    repeat' first
        | (with_reducible assumption) | (with_reducible apply ih) | (with_reducible apply keepP_devWrite) | (with_reducible apply keep_ite)
        | (with_reducible apply keepP_ite) | (with_reducible apply keep_fst) | (with_reducible refine keep_eqP ‹_ = (_, _)› ?_) | split | (dsimp only)
        | (with_reducible apply keepP_mk)
  | succ _ ih =>
    unfold moveWrite
    repeat' first
        | (with_reducible assumption) | (with_reducible apply ih) | (with_reducible apply keepP_devWrite) | (with_reducible apply keep_ite)
        | (with_reducible apply keepP_ite) | (with_reducible apply keep_fst) | (with_reducible refine keep_eqP ‹_ = (_, _)› ?_) | split | (dsimp only)
        | (with_reducible apply keepP_mk)

theorem keep_moveIn {b0 : State} (s : State) (m : Nat) (c : HostCmd) (data : List Byte) (hk : Keep b0 s) : Keep b0 (moveIn s m c data) := by
  unfold moveIn
  try dsimp only
  repeat' first
      | (with_reducible assumption) | (with_reducible apply keep_moveEnd) | (with_reducible apply keepP_moveWrite) | (with_reducible apply keep_moverBounds)
      | (with_reducible apply keep_satF) | (with_reducible apply keep_setMoved) | (with_reducible apply keep_wrBytes) | (with_reducible apply keep_ite)
      | (with_reducible apply keep_fst) | (with_reducible refine keep_eqP ‹_ = (_, _)› ?_) | split

theorem keep_moveOut {b0 : State} (s : State) (m : Nat) (c : HostCmd) (hk : Keep b0 s) : Keep b0 (moveOut s m c) := by
  unfold moveOut
  try dsimp only
  repeat' first
      | (with_reducible assumption) | (with_reducible apply keep_absentNote) | (with_reducible apply keepP_devRead) | (with_reducible apply keep_hostOut)
      | (with_reducible apply keep_moveEnd) | (with_reducible apply keep_ite) | (with_reducible apply keep_fst) | (with_reducible refine keep_eqP ‹_ = (_, _)› ?_) | split
      

theorem keep_moverRun {b0 : State} (s : State) (m : Nat) (data : Option (List Byte)) (hk : Keep b0 s) : Keep b0 (moverRun s m data) := by
  unfold moverRun
  try dsimp only
  repeat' first
      | (with_reducible assumption) | (with_reducible apply keep_moveIn) | (with_reducible apply keep_moveOut) | (with_reducible apply keep_ite) | split

theorem keep_loadTake {b0 : State} (s : State) (c : HostCmd) (status code : Nat) (floes : List (Nat × Nat)) (wants : List (Nat × Nat × Nat)) (hk : Keep b0 s) : Keep b0
    (loadTake s c status code floes wants) := by
  unfold loadTake
  try dsimp only
  repeat' first
      | (with_reducible assumption) | (with_reducible apply keep_dropFirst) | (with_reducible apply keep_setF) | split | (dsimp only) | (with_reducible apply keep_mk)

theorem keep_writeCtr {b0 : State} (s : State) (p : Plan) (x : Nat × Nat × Nat × Bool) (hk : Keep b0 s) : Keep b0 (writeCtr s p x) := by
  unfold writeCtr
  try dsimp only
  repeat' first
      | (with_reducible assumption) | (with_reducible apply keep_ctrAdvance) | (with_reducible apply keep_setR)

theorem keep_writeDesc {b0 : State} (s : State) (p : Plan) (x : TurmiDesc × Nat) (hk : Keep b0 s) : Keep b0 (writeDesc s p x) := by
  unfold writeDesc
  try dsimp only
  repeat' first | (with_reducible assumption) | (with_reducible apply keep_putTemplate)

theorem keep_writeFloe {b0 : State} (s : State) (p : Plan) (f : Nat × Nat × Nat × Nat × Bool) (hk : Keep b0 s) : Keep b0 (writeFloe s p f) := by
  unfold writeFloe
  try dsimp only
  repeat' first | (with_reducible assumption) | (with_reducible apply keep_floeDef)

theorem keep_writeIch {b0 : State} (s : State) (p : Plan) (a : LoadArgs) (e : TurmiIch) (hk : Keep b0 s) : Keep b0 (writeIch s p a e) := by
  unfold writeIch
  try dsimp only
  repeat' first | (with_reducible assumption) | (with_reducible apply keep_setR)

theorem keep_writeOch {b0 : State} (s : State) (p : Plan) (a : LoadArgs) (o : TurmiOch) (hk : Keep b0 s) : Keep b0 (writeOch s p a o) := by
  unfold writeOch
  try dsimp only
  repeat' first | (with_reducible assumption) | (with_reducible apply keep_setF) | (with_reducible apply keep_setR)

theorem keep_writeRoute {b0 : State} (s : State) (p : Plan) (r : Nat × List Byte) (hk : Keep b0 s) : Keep b0 (writeRoute s p r) := by
  unfold writeRoute
  try dsimp only
  repeat' first
      | (with_reducible assumption) | (with_reducible apply keep_setR) | (with_reducible apply keep_foldl) | (with_reducible apply keep_fst) | split | (intro _ _ _)
      

theorem keep_writeTask {b0 : State} (s : State) (p : Plan) (a : LoadArgs) (t : TurmiTask) (own block : Nat) (hk : Keep b0 s) : Keep b0 (writeTask s p a t own block) := by
  unfold writeTask
  try dsimp only
  repeat' first | (with_reducible assumption) | (with_reducible apply keep_setR)

theorem keep_writeModule {b0 : State} (s : State) (m : Module) (p : Plan) (a : LoadArgs) (code : List (Nat × List Nat)) (at_ : List Nat) (ds : List (TurmiDesc × Nat)) (hk
    : Keep b0 s) : Keep b0 (writeModule s m p a code at_ ds) := by
  unfold writeModule
  try dsimp only
  repeat' first
      | (with_reducible assumption) | (with_reducible apply keep_ccPush) | (with_reducible apply keep_clkXctl) | (with_reducible apply keep_idleWake)
      | (with_reducible apply keep_writeCtr) | (with_reducible apply keep_writeDesc) | (with_reducible apply keep_writeFloe) | (with_reducible apply keep_writeIch)
      | (with_reducible apply keep_writeOch) | (with_reducible apply keep_writeRoute) | (with_reducible apply keep_writeTask) | (with_reducible apply keep_ite)
      | (with_reducible apply keep_foldl) | (with_reducible apply keep_fst) | split | (intro _ _ _) | (dsimp only) | (with_reducible apply keep_mk)

theorem keepE_loadSteps {b0 : State} (s : State) (img : List Byte) (recs : TurmiRecs) (map : Option (List Nat)) (a : LoadArgs) (hk : Keep b0 s) :
    KeepE b0 (loadSteps s img recs map a) := by
  unfold loadSteps
  iterate 13 (with_reducible apply keepE_bind; intro _)
  exact keepE_pure (keep_writeModule _ _ _ _ _ _ _ hk)
theorem keepP_loadModule {b0 : State} (s : State) (img : List Byte) (recs : TurmiRecs) (map : Option (List Nat)) (a : LoadArgs) (hk : Keep b0 s) :
    KeepP b0 (loadModule s img recs map a) := by
  unfold loadModule
  have h := keepE_loadSteps s img recs map a hk
  split
  · exact h _ ‹_›
  · exact hk

theorem keep_loadModuleRun {b0 : State} (s : State) (c : HostCmd) (img : List Byte) (recs : TurmiRecs) (map : Option (List Nat)) (hk : Keep b0 s) : Keep b0 (loadModuleRun
    s c img recs map) := by
  unfold loadModuleRun
  try dsimp only
  repeat' first
      | (with_reducible assumption) | (with_reducible apply keepP_loadModule) | (with_reducible apply keep_loadTake) | (with_reducible apply keep_fst)
      

theorem keep_loadRun {b0 : State} (s : State) (read : ModuleRead) (hk : Keep b0 s) : Keep b0 (loadRun s read) := by
  unfold loadRun
  try dsimp only
  repeat' first
      | (with_reducible assumption) | (with_reducible apply keepP_devRead) | (with_reducible apply keep_dispatch) | (with_reducible apply keep_loadModuleRun)
      | (with_reducible apply keep_loadTake) | (with_reducible apply keep_ite) | (with_reducible apply keep_fst) | (with_reducible refine keep_eqP ‹_ = (_, _)› ?_)
      | split | (intro _ _ _)

theorem keep_loadDone {b0 : State} (s : State) (hk : Keep b0 s) : Keep b0 (loadDone s) := by
  unfold loadDone
  try dsimp only
  repeat' first
      | (with_reducible assumption) | (with_reducible apply keep_complete) | (with_reducible apply keep_floeStartRun) | (with_reducible apply keep_idleWake)
      | (with_reducible apply keep_ite) | (with_reducible apply keep_foldl) | (with_reducible apply keep_fst) | split | (intro _ _ _) | (dsimp only)
      | (with_reducible apply keep_mk)

theorem keep_setRunning {b0 : State} (s : State) (c t : Nat) (hk : Keep b0 s) : Keep b0 (setRunning s c t) := by
  unfold setRunning
  try dsimp only
  repeat' first
      | (with_reducible assumption) | (with_reducible apply keep_modCore) | (with_reducible apply keep_setCluster) | (with_reducible apply keep_setSlotState)
      

theorem keep_setReason {b0 : State} (s : State) (c t r : Nat) (hk : Keep b0 s) : Keep b0 (setReason s c t r) := by
  unfold setReason
  try dsimp only
  repeat' first | (with_reducible assumption) | (with_reducible apply keep_setFloeReason) | split

theorem keep_quiesceReason {b0 : State} (s : State) (c t : Nat) (hk : Keep b0 s) : Keep b0 (quiesceReason s c t) := by
  unfold quiesceReason
  try dsimp only
  repeat' first | (with_reducible assumption) | (with_reducible apply keep_setReason) | (with_reducible apply keep_ite)

theorem keep_beginSwitch {b0 : State} (s : State) (c t u st : Nat) (hk : Keep b0 s) : Keep b0 (beginSwitch s c t u st) := by
  unfold beginSwitch
  try dsimp only
  repeat' first
      | (with_reducible assumption) | (with_reducible apply keep_modCore) | (with_reducible apply keep_quiesceReason) | (with_reducible apply keep_setSlotState)
      

theorem keep_gatherWait {b0 : State} (s : State) (c t : Nat) (hk : Keep b0 s) : Keep b0 (gatherWait s c t) := by
  unfold gatherWait
  try dsimp only
  repeat' first
      | (with_reducible assumption) | (with_reducible apply keep_beginSwitch) | (with_reducible apply keep_setReason) | (with_reducible apply keep_ite) | split
      

theorem keep_mxgoRun {b0 : State} (s : State) (c t idx w : Nat) (hk : Keep b0 s) : Keep b0 (mxgoRun s c t idx w) := by
  unfold mxgoRun
  try dsimp only
  repeat' first
      | (with_reducible assumption) | (with_reducible apply keep_modCore) | (with_reducible apply keep_setR)

theorem keep_actEarly {b0 : State} (s s0 : State) (c t : Nat) (p : Nat × Nat) (hk : Keep b0 s) : Keep b0 (actEarly s s0 c t p) := by
  unfold actEarly
  try dsimp only
  repeat' first
      | (with_reducible assumption) | (with_reducible apply keep_armRun) | (with_reducible apply keep_modCore) | (with_reducible apply keep_mxgoRun)
      | (with_reducible apply keep_sendRun) | (with_reducible apply keep_ite) | (with_reducible apply keep_fst) | split

theorem keep_aaddRun {b0 : State} (s s0 : State) (c t w : Nat) (hk : Keep b0 s) : Keep b0 (aaddRun s s0 c t w) := by
  unfold aaddRun
  try dsimp only
  repeat' first | (with_reducible assumption) | (with_reducible apply keep_setAreg)

theorem keep_mircommitRun {b0 : State} (s : State) (w : Nat) (hk : Keep b0 s) : Keep b0 (mircommitRun s w) := by
  unfold mircommitRun
  try dsimp only
  repeat' first
      | (with_reducible assumption) | (with_reducible apply keep_ledIssue) | (with_reducible apply keep_mirLagging) | (with_reducible apply keep_setMirDeltas)
      | (with_reducible apply keep_setR) | (with_reducible apply keep_txPush) | (with_reducible apply keep_ite) | (with_reducible apply keep_foldl)
      | (exact fun h => mwf_mset _ _ _ _ h) | (exact fun h => mwf_filter _ _ _ h) | (exact fun h => mwf_memWrite _ _ _ h) | split | (intro _ _ _) | (dsimp only)
      | (with_reducible apply keep_mk)

theorem keep_setStag {b0 : State} (s : State) (c unit reg : Nat) (v : BitVec 32) (hk : Keep b0 s) : Keep b0 (setStag s c unit reg v) := by
  unfold setStag
  try dsimp only
  repeat' first | (with_reducible assumption) | (with_reducible apply keep_modCore)

theorem keep_actMid {b0 : State} (s s0 : State) (c t : Nat) (p : Nat × Nat) (hk : Keep b0 s) : Keep b0 (actMid s s0 c t p) := by
  unfold actMid
  try dsimp only
  repeat' first
      | (with_reducible assumption) | (with_reducible apply keep_aaddRun) | (with_reducible apply keep_lfenceRun) | (with_reducible apply keep_mircommitRun)
      | (with_reducible apply keep_setStag) | (with_reducible apply keep_sigcRun) | (with_reducible apply keep_waitcRun) | split

theorem keepP_actRecv {b0 : State} (s : State) (c t : Nat) (l : List (Nat × Nat)) (hk : Keep b0 s) : KeepP b0 (actRecv s c t l) := by
  unfold actRecv
  try dsimp only
  repeat' first
      | (with_reducible assumption) | (with_reducible apply keepP_recvRun) | (with_reducible apply keepP_ite) | (with_reducible apply keep_fst)
      | (with_reducible refine keep_eqP ‹_ = (_, _)› ?_) | split | (dsimp only) | (with_reducible apply keepP_mk)

theorem keep_autoRoll {b0 : State} (s : State) (c step : Nat) (hk : Keep b0 s) : Keep b0 (autoRoll s c step) := by
  unfold autoRoll
  try dsimp only
  repeat' first
      | (with_reducible assumption) | (with_reducible apply keep_rollAll) | (with_reducible apply keep_setR) | (with_reducible apply keep_ite)

theorem keep_dropFli {b0 : State} (s : State) (c n : Nat) (hk : Keep b0 s) : Keep b0 (dropFli s c n) := by
  unfold dropFli
  try dsimp only
  repeat' first | (with_reducible assumption) | (with_reducible apply keep_modCore)

theorem keep_pushFlo {b0 : State} (s : State) (c t f : Nat) (cs : List Nat) (hk : Keep b0 s) : Keep b0 (pushFlo s c t f cs) := by
  unfold pushFlo
  try dsimp only
  repeat' first | (with_reducible assumption) | (with_reducible apply keep_modCore)

theorem keep_putResult {b0 : State} (s : State) (c t vd f : Nat) (cs : List Nat) (hk : Keep b0 s) : Keep b0 (putResult s c t vd f cs) := by
  unfold putResult
  try dsimp only
  repeat' first
      | (with_reducible assumption) | (with_reducible apply keep_pushFlo) | (with_reducible apply keep_setVreg) | (with_reducible apply keep_ite)

theorem keep_vxeConvert {b0 : State} (s : State) (c t w n scale : Nat) (hk : Keep b0 s) : Keep b0 (vxeConvert s c t w n scale) := by
  unfold vxeConvert
  try dsimp only
  repeat' first
      | (with_reducible assumption) | (with_reducible apply keep_putResult) | (with_reducible apply keep_setFlags) | (with_reducible apply keep_setVreg)
      | (with_reducible apply keep_ite)

theorem keep_vxeElementwise {b0 : State} (s : State) (c t w n : Nat) (hk : Keep b0 s) : Keep b0 (vxeElementwise s c t w n) := by
  unfold vxeElementwise
  try dsimp only
  repeat' first
      | (with_reducible assumption) | (with_reducible apply keep_putResult) | (with_reducible apply keep_setFlags) | (with_reducible apply keep_setVreg)
      | (with_reducible apply keep_ite) | (with_reducible apply keep_foldl) | (with_reducible apply keep_fst) | split

theorem keep_vxeNorm {b0 : State} (s : State) (c t w n : Nat) (hk : Keep b0 s) : Keep b0 (vxeNorm s c t w n) := by
  unfold vxeNorm
  try dsimp only
  repeat' first
      | (with_reducible assumption) | (with_reducible apply keep_putResult) | (with_reducible apply keep_setFlags)
      

theorem keep_vxePermute {b0 : State} (s : State) (c t w n : Nat) (hk : Keep b0 s) : Keep b0 (vxePermute s c t w n) := by
  unfold vxePermute
  try dsimp only
  repeat' first
      | (with_reducible assumption) | (with_reducible apply keep_putResult) | (with_reducible apply keep_setSreg) | (with_reducible apply keep_ite) | split

theorem keep_vxeScalar {b0 : State} (s : State) (c t w n : Nat) (hk : Keep b0 s) : Keep b0 (vxeScalar s c t w n) := by
  unfold vxeScalar
  try dsimp only
  repeat' first
      | (with_reducible assumption) | (with_reducible apply keep_setFlags) | (with_reducible apply keep_setSreg) | (with_reducible apply keep_fst) | split

theorem keep_monAcc {b0 : State} (s : State) (c l step su sw : Nat) (hk : Keep b0 s) : Keep b0 (monAcc s c l step su sw) := by
  unfold monAcc
  try dsimp only
  repeat' first
      | (with_reducible assumption) | (with_reducible apply keep_monClose1) | (with_reducible apply keep_setF) | (with_reducible apply keep_setR)
      | (with_reducible apply keep_ite)

theorem keep_vxeUpdate {b0 : State} (s : State) (c t w n p0 step : Nat) (hk : Keep b0 s) : Keep b0 (vxeUpdate s c t w n p0 step) := by
  unfold vxeUpdate
  try dsimp only
  repeat' first
      | (with_reducible assumption) | (with_reducible apply keep_monAcc) | (with_reducible apply keep_putResult) | (with_reducible apply keep_setFlags)
      | (with_reducible apply keep_ite)

theorem keep_vxeRun {b0 : State} (s : State) (c : Nat) (e : VxEnt) (hk : Keep b0 s) : Keep b0 (vxeRun s c e) := by
  unfold vxeRun
  try dsimp only
  repeat' first
      | (with_reducible assumption) | (with_reducible apply keep_dropFli) | (with_reducible apply keep_modSlot) | (with_reducible apply keep_vxeConvert)
      | (with_reducible apply keep_vxeElementwise) | (with_reducible apply keep_vxeNorm) | (with_reducible apply keep_vxePermute) | (with_reducible apply keep_vxeScalar)
      | (with_reducible apply keep_vxeUpdate) | (with_reducible apply keep_ite) | split

theorem keep_vxeTimed {b0 : State} (s : State) (c t w n : Nat) (hk : Keep b0 s) : Keep b0 (vxeTimed s c t w n) := by
  unfold vxeTimed; exact keep_modCore _ _ _ hk

theorem keep_vxeStart {b0 : State} (s : State) (c : Nat) (e : VxEnt) (hk : Keep b0 s) : Keep b0 (vxeStart s c e) := by
  unfold vxeStart
  try dsimp only
  repeat' first
      | (with_reducible assumption) | (with_reducible apply keep_vxeTimed) | (with_reducible apply keep_illegal) | (with_reducible apply keep_setSreg) | (with_reducible apply keep_sramParity)
      | (with_reducible apply keep_vxeRun) | (with_reducible apply keep_ite) | (with_reducible apply keep_foldl) | (with_reducible apply keep_fst) | split | (intro _ _ _)
      

theorem keep_vxeIssue {b0 : State} (s : State) (c t idx w : Nat) (hk : Keep b0 s) : Keep b0 (vxeIssue s c t idx w) := by
  unfold vxeIssue
  try dsimp only
  repeat' first
      | (with_reducible assumption) | (with_reducible apply keep_autoRoll) | (with_reducible apply keep_modCore) | (with_reducible apply keep_vxeStart)
      | (with_reducible apply keep_ite)

theorem keep_actVec {b0 : State} (s : State) (c t : Nat) (p : Nat × Nat) (hk : Keep b0 s) : Keep b0 (actVec s c t p) := by
  unfold actVec
  try dsimp only
  repeat' first
      | (with_reducible assumption) | (with_reducible apply keep_vxeIssue) | (with_reducible apply keep_ite)

theorem keep_advance {b0 : State} (s0 s : State) (c t : Nat) (l : List (Nat × Nat)) (disp : Option Nat) (hk : Keep b0 s) : Keep b0 (advance s0 s c t l disp) := by
  unfold advance
  try dsimp only
  repeat' first
      | (with_reducible assumption) | (with_reducible apply keep_modSlot) | (with_reducible apply keep_ite) | split

theorem keep_haltRun {b0 : State} (s : State) (c t : Nat) (hk : Keep b0 s) : Keep b0 (haltRun s c t) := by
  unfold haltRun
  try dsimp only
  repeat' first
      | (with_reducible assumption) | (with_reducible apply keep_autoClose) | (with_reducible apply keep_ctrResidue) | (with_reducible apply keep_dropAllResv)
      | (with_reducible apply keep_modCore) | (with_reducible apply keep_nullRepliesOf) | (with_reducible apply keep_quiesceReason) | (with_reducible apply keep_setCause)
      | (with_reducible apply keep_setReason) | (with_reducible apply keep_setSlotState) | (with_reducible apply keep_ite) | split
      

theorem keep_switchPoint {b0 : State} (s : State) (c t st cause index : Nat) (hk : Keep b0 s) : Keep b0 (switchPoint s c t st cause index) := by
  unfold switchPoint
  try dsimp only
  repeat' first
      | (with_reducible assumption) | (with_reducible apply keep_beginSwitch) | (with_reducible apply keep_setCause) | (with_reducible apply keep_ite)
      | (with_reducible apply keep_foldl) | split | (intro _ _ _)

theorem keep_actGroup {b0 : State} (s : State) (c t : Nat) (l : List (Nat × Nat)) (hk : Keep b0 s) : Keep b0 (actGroup s c t l) := by
  unfold actGroup
  try dsimp only
  repeat' first
      | (with_reducible assumption) | (with_reducible apply keep_actEarly) | (with_reducible apply keep_actMid) | (with_reducible apply keepP_actRecv)
      | (with_reducible apply keep_actVec) | (with_reducible apply keep_advance) | (with_reducible apply keep_haltRun) | (with_reducible apply keep_modSlot)
      | (with_reducible apply keep_setReason) | (with_reducible apply keep_switchPoint) | (with_reducible apply keep_traceOfFloe) | (with_reducible apply keep_ite)
      | (with_reducible apply keep_foldl) | (with_reducible apply keep_fst) | (with_reducible refine keep_eqP ‹_ = (_, _)› ?_) | split | (intro _ _ _)
      

theorem keepO_dynFault {b0 : State} (s : State) (c t : Nat) (i w : Nat) (hk : Keep b0 s) : KeepO b0 (dynFault s c t i w) := by
  unfold dynFault
  try dsimp only
  repeat' first
      | (with_reducible assumption) | (with_reducible apply keepO_armFault) | (with_reducible apply keep_illegal) | (with_reducible apply keep_raiseCore)
      | (with_reducible apply keepO_recvFault) | (with_reducible apply keepO_sendFault) | (with_reducible apply keep_spBounds) | (with_reducible apply keep_ite)
      | (with_reducible apply keepO_ite) | (with_reducible apply keepO_some) | (with_reducible apply keepO_none) | (with_reducible refine keep_eqO ‹_ = some _› ?_)
      | split

theorem keepO_groupFault {b0 : State} (s : State) (c t : Nat) (l : List (Nat × Nat)) (hk : Keep b0 s) : KeepO b0 (groupFault s c t l) := by
  unfold groupFault
  exact keepO_findSome fun p => keepO_dynFault _ _ _ _ _ hk

theorem keep_stallGroup {b0 : State} (s : State) (c t : Nat) (l : List (Nat × Nat)) (codes : List Nat) (hk : Keep b0 s) : Keep b0 (stallGroup s c t l codes) := by
  unfold stallGroup
  try dsimp only
  repeat' first
      | (with_reducible assumption) | (with_reducible apply keep_modSlot) | (with_reducible apply keep_setCause) | (with_reducible apply keep_setFloe)
      | (with_reducible apply keep_setReason) | (with_reducible apply keep_switchPoint) | (with_reducible apply keep_ite) | split
      

theorem keep_issueGroup {b0 : State} (s : State) (c t : Nat) (hk : Keep b0 s) : Keep b0 (issueGroup s c t) := by
  unfold issueGroup
  try dsimp only
  repeat' first
      | (with_reducible assumption) | (with_reducible apply keep_actGroup) | (with_reducible apply keepO_groupFault) | (with_reducible apply keep_illegal)
      | (with_reducible apply keep_setReason) | (with_reducible apply keep_sramParity) | (with_reducible apply keep_stallGroup) | (with_reducible apply keep_ite)
      | (with_reducible apply keepO_ite) | (with_reducible apply keepO_some) | (with_reducible apply keepO_none) | (with_reducible apply keep_fst)
      | (with_reducible refine keep_eqO ‹_ = some _› ?_) | split

theorem keep_sequencer {b0 : State} (s : State) (c : Nat) (lead : Op → Bool) (hk : Keep b0 s) : Keep b0 (sequencer s c lead) := by
  unfold sequencer
  try dsimp only
  repeat' first
      | (with_reducible assumption) | (with_reducible apply keep_gatherWait) | (with_reducible apply keep_issueGroup) | (with_reducible apply keep_setReason)
      | (with_reducible apply keep_ite) | split

theorem keep_resume {b0 : State} (s : State) (c t : Nat) (hk : Keep b0 s) : Keep b0 (resume s c t) := by
  unfold resume
  try dsimp only
  repeat' first | (with_reducible assumption) | (with_reducible apply keep_sequencer) | (with_reducible apply keep_ite)

theorem keep_freeHeld {b0 : State} (s : State) (c t : Nat) (hk : Keep b0 s) : Keep b0 (freeHeld s c t) := by
  unfold freeHeld
  try dsimp only
  repeat' first
      | (with_reducible assumption) | (with_reducible apply keep_setFloe) | (with_reducible apply keep_ite) | split

theorem keep_quiesceDone {b0 : State} (s : State) (c : Nat) (hk : Keep b0 s) : Keep b0 (quiesceDone s c) := by
  unfold quiesceDone
  try dsimp only
  repeat' first
      | (with_reducible assumption) | (with_reducible apply keep_freeHeld) | (with_reducible apply keep_modCore) | (with_reducible apply keep_setReason)
      | (with_reducible apply keep_ite) | split

theorem keep_switchDone {b0 : State} (s : State) (c : Nat) (hk : Keep b0 s) : Keep b0 (switchDone s c) := by
  unfold switchDone
  try dsimp only
  repeat' first
      | (with_reducible assumption) | (with_reducible apply keep_modCore) | (with_reducible apply keep_resume) | (with_reducible apply keep_setRunning)
      | (with_reducible apply keep_ite) | split

theorem keep_idleSelect {b0 : State} (s : State) (c : Nat) (hk : Keep b0 s) : Keep b0 (idleSelect s c) := by
  unfold idleSelect
  try dsimp only
  repeat' first
      | (with_reducible assumption) | (with_reducible apply keep_freeHeld) | (with_reducible apply keep_quiesceReason) | (with_reducible apply keep_resume)
      | (with_reducible apply keep_setReason) | (with_reducible apply keep_setRunning) | (with_reducible apply keep_ite) | split

theorem keep_stallBegin {b0 : State} (s : State) (cl f r : Nat) (hk : Keep b0 s) : Keep b0 (stallBegin s cl f r) := by
  unfold stallBegin
  try dsimp only
  repeat' first
      | (with_reducible assumption) | (with_reducible apply keep_setFloe) | (with_reducible apply keep_setFloeReason) | (with_reducible apply keep_ite)
      

theorem keep_stallEnd {b0 : State} (s : State) (cl f : Nat) (hk : Keep b0 s) : Keep b0 (stallEnd s cl f) := by
  unfold stallEnd
  try dsimp only
  repeat' first
      | (with_reducible assumption) | (with_reducible apply keep_setFloe) | (with_reducible apply keep_setFloeReason) | (with_reducible apply keep_ite)
      

theorem keep_throttleRun {b0 : State} (s : State) (cl : Nat) (hk : Keep b0 s) : Keep b0 (throttleRun s cl) := by
  unfold throttleRun
  try dsimp only
  repeat' first
      | (with_reducible assumption) | (with_reducible apply keep_setFloeReason) | (with_reducible apply keep_ite) | (with_reducible apply keep_foldl) | split
      | (intro _ _ _)

theorem keep_abandonEngine {b0 : State} (s : State) (c t : Nat) (hk : Keep b0 s) : Keep b0 (abandonEngine s c t) := by
  unfold abandonEngine
  try dsimp only
  repeat' first
      | (with_reducible assumption) | (with_reducible apply keep_abandonMxe) | (with_reducible apply keep_modCore)

theorem keep_timeoutRun {b0 : State} (s : State) (cl f : Nat) (hk : Keep b0 s) : Keep b0 (timeoutRun s cl f) := by
  unfold timeoutRun
  try dsimp only
  repeat' first
      | (with_reducible assumption) | (with_reducible apply keep_abandonEngine) | (with_reducible apply keep_raiseCore) | (with_reducible apply keep_setF)
      | (with_reducible apply keep_stopFloe) | (with_reducible apply keep_ite) | (with_reducible apply keep_foldl) | (with_reducible apply keep_fst) | split
      | (intro _ _ _)

theorem keep_wrByte {b0 : State} (s : State) (a : Nat) (v : Byte) (hk : Keep b0 s) : Keep b0 (wrByte s a v) := by
  unfold wrByte
  try dsimp only
  repeat' first
      | (with_reducible assumption) | (exact fun h => mwf_mset _ _ _ _ h) | (exact fun h => mwf_filter _ _ _ h) | (exact fun h => mwf_memWrite _ _ _ h) | split
      | (dsimp only) | (with_reducible apply keep_mk) | (with_reducible apply keep_mkMem)

theorem keep_setIn {b0 : State} (s : State) (k : Nat) (q : List NetItem) (hk : Keep b0 s) : Keep b0 (setIn s k q) := by
  unfold setIn
  try dsimp only
  repeat' first | (with_reducible assumption) | split | (dsimp only) | (with_reducible apply keep_mk)

theorem keep_ledWriteOff {b0 : State} (s : State) (q : Nat) (hk : Keep b0 s) : Keep b0 (ledWriteOff s q) := by
  unfold ledWriteOff
  try dsimp only
  repeat' first | (with_reducible assumption) | (with_reducible apply keep_add64)

theorem keep_raiseAll {b0 : State} (s : State) (d : Nat) (es : List Ev) (hk : Keep b0 s) : Keep b0 (raiseAll s d es) := by
  unfold raiseAll
  try dsimp only
  repeat' first | (with_reducible assumption) | (with_reducible apply keep_raiseEv) | (with_reducible apply keep_foldl) | split | (intro _ _ _)

theorem keep_regionOff {b0 : State} (s : State) (r : Nat) (hk : Keep b0 s) : Keep b0 (regionOff s r) := by
  unfold regionOff
  try dsimp only
  repeat' first
      | (with_reducible assumption) | (with_reducible apply keep_setF) | (with_reducible apply keep_setRegion) | (with_reducible apply keep_unalign)
      

theorem keep_setVout {b0 : State} (s : State) (d v : Nat) (hk : Keep b0 s) : Keep b0 (setVout s d v) := by
  unfold setVout
  try dsimp only
  repeat' first | (with_reducible assumption) | (with_reducible apply keep_setR64)

theorem keep_railOff {b0 : State} (s : State) (d : Nat) (hk : Keep b0 s) : Keep b0 (railOff s d) := by
  unfold railOff
  try dsimp only
  repeat' first
      | (with_reducible assumption) | (with_reducible apply keep_pmbSend) | (with_reducible apply keep_setPhase) | (with_reducible apply keep_setRail)
      | (with_reducible apply keep_setVout) | (with_reducible apply keep_ite)

theorem keep_entryDone {b0 : State} (s : State) (st : Nat) (hk : Keep b0 s) : Keep b0 (entryDone s st) := by
  unfold entryDone
  try dsimp only
  repeat' first
      | (with_reducible assumption) | (with_reducible apply keep_powerDone) | (with_reducible apply keep_pwrTrans) | (with_reducible apply keep_setPwrState)
      | (with_reducible apply keep_wakeBegin) | split | (dsimp only) | (with_reducible apply keep_mk)

theorem keep_firnSleep {b0 : State} (s : State) (hk : Keep b0 s) : Keep b0 (firnSleep s) := by
  unfold firnSleep
  try dsimp only
  repeat' first | (with_reducible assumption) | (with_reducible apply keep_selfRefreshEnter) | (with_reducible apply keep_foldl)

theorem keep_sleepEntry {b0 : State} (s : State) (hk : Keep b0 s) : Keep b0 (sleepEntry s) := by
  unfold sleepEntry
  try dsimp only
  repeat' first
      | (with_reducible assumption) | (with_reducible apply keep_ccHold) | (with_reducible apply keep_entryDone) | (with_reducible apply keep_firnSleep)
      | (with_reducible apply keep_lpEval) | (with_reducible apply keep_railOff) | (with_reducible apply keep_railTo) | (with_reducible apply keep_regionOff)
      | (with_reducible apply keep_ite) | (with_reducible apply keep_foldl) | (with_reducible apply keep_fst) | split | (intro _ _ _) | (dsimp only)
      | (with_reducible apply keep_mk)

theorem keep_latchPads {b0 : State} (s : State) (hk : Keep b0 s) : Keep b0 (latchPads s) := by
  unfold latchPads
  try dsimp only
  repeat' first | (with_reducible assumption) | (with_reducible apply keep_setF) | split | (dsimp only) | (with_reducible apply keep_mk)

theorem keep_portsLost {b0 : State} (s : State) (hk : Keep b0 s) : Keep b0 (portsLost s) := by
  unfold portsLost
  try dsimp only
  repeat' first | (with_reducible assumption) | (with_reducible apply keep_portLost) | (with_reducible apply keep_foldl) | split | (intro _ _ _)

theorem keep_hostDown {b0 : State} (s : State) (hk : Keep b0 s) : Keep b0 (hostDown s) := by
  unfold hostDown
  try dsimp only
  repeat' first
      | (with_reducible assumption) | (with_reducible apply keep_sessLost) | (with_reducible apply keep_setF) | split | (dsimp only) | (with_reducible apply keep_mk)

theorem keep_deepEntry {b0 : State} (s : State) (hk : Keep b0 s) : Keep b0 (deepEntry s) := by
  unfold deepEntry
  try dsimp only
  repeat' first
      | (with_reducible assumption) | (with_reducible apply keep_entryDone) | (with_reducible apply keep_firnSleep) | (with_reducible apply keep_hostDown)
      | (with_reducible apply keep_latchPads) | (with_reducible apply keep_portsLost) | (with_reducible apply keep_railOff) | (with_reducible apply keep_regionOff)
      | (with_reducible apply keep_ite) | (with_reducible apply keep_foldl) | (with_reducible apply keep_fst) | split | (intro _ _ _) | (dsimp only)
      | (with_reducible apply keep_mk)

theorem keep_offState {b0 : State} (x : State) (hk : Keep b0 x) : Keep b0 (offState x) := by
  unfold offState
  exact keep_fresh hk (fun h => mwf_filter _ _ _ h) rfl rfl rfl (.inr rfl)

theorem keep_offEnter {b0 : State} (s : State) (cause : Nat) (hk : Keep b0 s) : Keep b0 (offEnter s cause) := by
  unfold offEnter
  try dsimp only
  repeat' first
      | (with_reducible assumption) | (with_reducible apply keep_hostDown) | (with_reducible apply keep_latchPads) | (with_reducible apply keep_ledWriteOff)
      | (with_reducible apply keep_offState) | (with_reducible apply keep_portsLost) | (with_reducible apply keep_pwrTrans) | (with_reducible apply keep_railOff)
      | (with_reducible apply keep_setF) | (with_reducible apply keep_setPwrState) | (with_reducible apply keep_wakeBegin) | (with_reducible apply keep_ite)
      | (with_reducible apply keep_foldl) | split

theorem keep_offEntryRun {b0 : State} (s : State) (hk : Keep b0 s) : Keep b0 (offEntryRun s) := by
  unfold offEntryRun
  try dsimp only
  repeat' first | (with_reducible assumption) | (with_reducible apply keep_offEnter) | (with_reducible apply keep_ite)

theorem keep_powerLossRun {b0 : State} (s : State) (hk : Keep b0 s) : Keep b0 (powerLossRun s) := by
  unfold powerLossRun
  try dsimp only
  repeat' first
      | (with_reducible assumption) | (with_reducible apply keep_offEnter) | (with_reducible apply keep_ite) | split | (dsimp only) | (with_reducible apply keep_mk)

theorem keep_suppliesRun {b0 : State} (s : State) (hk : Keep b0 s) : Keep b0 (suppliesRun s) := by
  unfold suppliesRun
  try dsimp only
  repeat' first
      | (with_reducible assumption) | (with_reducible apply keep_startup) | (with_reducible apply keep_ite) | split | (dsimp only) | (with_reducible apply keep_mk)

theorem keep_bare {b0 : State} (s : State) (hk : Keep b0 s) : Keep b0 (bare s) := by
  unfold bare
  exact keep_fresh hk (fun _ => rfl) rfl rfl rfl (.inr rfl)

theorem keep_vauxLossRun {b0 : State} (s : State) (hk : Keep b0 s) : Keep b0 (vauxLossRun s) := by
  unfold vauxLossRun
  try dsimp only
  repeat' first | (with_reducible assumption) | (with_reducible apply keep_bare) | split | (dsimp only) | (with_reducible apply keep_mk)

theorem keep_vauxUpRun {b0 : State} (s : State) (railMode bootSrc : Bool) (hk : Keep b0 s) : Keep b0 (vauxUpRun s railMode bootSrc) := by
  unfold vauxUpRun
  try dsimp only
  repeat' first
      | (with_reducible assumption) | (with_reducible apply keep_bare) | (with_reducible apply keep_setR) | (with_reducible apply keep_ite) | split | (dsimp only)
      | (with_reducible apply keep_mk) | (with_reducible apply keep_mkSec2)

theorem keep_railSettledRun {b0 : State} (s : State) (d mv : Nat) (fault : Bool) (hk : Keep b0 s) : Keep b0 (railSettledRun s d mv fault) := by
  unfold railSettledRun
  try dsimp only
  repeat' first
      | (with_reducible assumption) | (with_reducible apply keep_dvfsNext) | (with_reducible apply keep_setRail) | (with_reducible apply keep_setVout)
      | (with_reducible apply keep_ite)

theorem keep_regionUpRun {b0 : State} (s : State) (r : Nat) (hk : Keep b0 s) : Keep b0 (regionUpRun s r) := by
  unfold regionUpRun
  try dsimp only
  repeat' first
      | (with_reducible assumption) | (with_reducible apply keep_setRail) | (with_reducible apply keep_setRegion) | (with_reducible apply keep_ite)
      

theorem keep_coreSleepLost {b0 : State} (s : State) (c : Nat) (hk : Keep b0 s) : Keep b0 (coreSleepLost s c) := by
  unfold coreSleepLost
  try dsimp only
  repeat' first
      | (with_reducible assumption) | (with_reducible apply keep_dropRegs) | (with_reducible apply keep_modCore) | (with_reducible apply keep_fst)
      | (exact fun h => mwf_mset _ _ _ _ h) | (exact fun h => mwf_filter _ _ _ h) | (exact fun h => mwf_memWrite _ _ _ h) | split | (dsimp only)
      | (with_reducible apply keep_mk) | (with_reducible apply keep_mkMem)

theorem keep_sramZero {b0 : State} (s : State) (d : Nat) (hk : Keep b0 s) : Keep b0 (sramZero s d) := by
  unfold sramZero
  try dsimp only
  repeat' first | (with_reducible assumption) | (with_reducible apply keep_fst) | split | (dsimp only) | (with_reducible apply keep_mk)

theorem keep_reportBrown {b0 : State} (s : State) (d : Nat) (hk : Keep b0 s) : Keep b0 (reportBrown s d) := by
  unfold reportBrown
  try dsimp only
  repeat' first
      | (with_reducible assumption) | (with_reducible apply keep_logEvent) | (with_reducible apply keep_reportEvent) | (with_reducible apply keep_setRail)
      | (with_reducible apply keep_traceRec) | split

theorem keep_setN {b0 : State} (s : State) (r n : Nat) (hk : Keep b0 s) : Keep b0 (setN s r n) := by
  unfold setN
  try dsimp only
  repeat' first | (with_reducible assumption) | (with_reducible apply keep_setF)

theorem keep_pllLockRun {b0 : State} (s : State) (r : Nat) (hk : Keep b0 s) : Keep b0 (pllLockRun s r) := by
  unfold pllLockRun
  try dsimp only
  repeat' first
      | (with_reducible assumption) | (with_reducible apply keep_clockStarts) | (with_reducible apply keep_coreSleepLost) | (with_reducible apply keep_reportBrown)
      | (with_reducible apply keep_setCluster) | (with_reducible apply keep_setF) | (with_reducible apply keep_setN) | (with_reducible apply keep_setRegion)
      | (with_reducible apply keep_sramZero) | (with_reducible apply keep_unalign) | (with_reducible apply keep_ite) | (with_reducible apply keep_foldl) | split
      | (intro _ _ _)

theorem keep_portWake {b0 : State} (s : State) (p : Nat) (hk : Keep b0 s) : Keep b0 (portWake s p) := by
  unfold portWake
  try dsimp only
  repeat' first | (with_reducible assumption) | (with_reducible apply keep_setPortState) | (with_reducible apply keep_ite)

theorem keep_wakeDoneRun {b0 : State} (s : State) (hk : Keep b0 s) : Keep b0 (wakeDoneRun s) := by
  unfold wakeDoneRun
  try dsimp only
  repeat' first
      | (with_reducible assumption) | (with_reducible apply keep_dvfsApply) | (with_reducible apply keep_portWake) | (with_reducible apply keep_powerDone)
      | (with_reducible apply keep_pwrTrans) | (with_reducible apply keep_setPwrState) | (with_reducible apply keep_ite) | (with_reducible apply keep_foldl) | split
      | (intro _ _ _) | (dsimp only) | (with_reducible apply keep_mk)

theorem keep_gateRun {b0 : State} (s : State) (cl : Nat) (hk : Keep b0 s) : Keep b0 (gateRun s cl) := by
  unfold gateRun
  try dsimp only
  repeat' first
      | (with_reducible assumption) | (with_reducible apply keep_lpEval) | (with_reducible apply keep_setCluster) | (with_reducible apply keep_ite)
      

theorem keep_gatedRun {b0 : State} (s : State) (cl : Nat) (hk : Keep b0 s) : Keep b0 (gatedRun s cl) := by
  unfold gatedRun
  try dsimp only
  repeat' first | (with_reducible assumption) | (with_reducible apply keep_idleWake) | (with_reducible apply keep_ite)

theorem keep_lpExitIvr {b0 : State} (s : State) (d amps : Nat) (hk : Keep b0 s) : Keep b0 (lpExitIvr s d amps) := by
  unfold lpExitIvr
  try dsimp only
  repeat' first
      | (with_reducible assumption) | (with_reducible apply keep_setRail) | (with_reducible apply keep_ite)

theorem keep_ledLose {b0 : State} (s : State) (q n : Nat) (hk : Keep b0 s) : Keep b0 (ledLose s q n) := by
  unfold ledLose
  try dsimp only
  repeat' first | (with_reducible assumption) | (with_reducible apply keep_add64)

theorem keep_coreLose {b0 : State} (s : State) (c : Nat) (hk : Keep b0 s) : Keep b0 (coreLose s c) := by
  unfold coreLose
  try dsimp only
  repeat' first
      | (with_reducible assumption) | (with_reducible apply keep_ledLose) | (with_reducible apply keep_modCore) | (with_reducible apply keep_setF)
      | (with_reducible apply keep_setStrayed) | (with_reducible apply keep_ite) | (with_reducible apply keep_foldl) | split | (intro _ _ _)
      

theorem keep_dieLose {b0 : State} (s : State) (d : Nat) (hk : Keep b0 s) : Keep b0 (dieLose s d) := by
  unfold dieLose
  try dsimp only
  repeat' first
      | (with_reducible assumption) | (with_reducible apply keep_coreLose) | (with_reducible apply keep_ledLose) | (with_reducible apply keep_netKeep)
      | (with_reducible apply keep_foldl) | (with_reducible apply keep_fst) | split | (intro _ _ _) | (dsimp only) | (with_reducible apply keep_mk)

theorem keep_brownRun {b0 : State} (s : State) (d amps : Nat) (hk : Keep b0 s) : Keep b0 (brownRun s d amps) := by
  unfold brownRun
  try dsimp only
  repeat' first
      | (with_reducible assumption) | (with_reducible apply keep_dieLose) | (with_reducible apply keep_dieResetStart) | (with_reducible apply keep_regionOff)
      | (with_reducible apply keep_rstDone) | (with_reducible apply keep_selfRefreshEnter) | (with_reducible apply keep_setF) | (with_reducible apply keep_setRail)
      | (with_reducible apply keep_sramZero) | (with_reducible apply keep_ite) | (with_reducible apply keep_foldl) | split | (intro _ _ _)

theorem keep_rampRun {b0 : State} (s : State) (cl : Nat) (hk : Keep b0 s) : Keep b0 (rampRun s cl) := by
  unfold rampRun
  try dsimp only
  repeat' first
      | (with_reducible assumption) | (with_reducible apply keep_setCluster) | (with_reducible apply keep_ite)

theorem keep_limiterRun {b0 : State} (s : State) (p : Nat) (hk : Keep b0 s) : Keep b0 (limiterRun s p) := by
  unfold limiterRun
  try dsimp only
  repeat' first | (with_reducible assumption) | (with_reducible apply keep_setF) | (with_reducible apply keep_ite) | split | (dsimp only) | (with_reducible apply keep_mk)

theorem keep_setTemp {b0 : State} (s : State) (r t : Nat) (hk : Keep b0 s) : Keep b0 (setTemp s r t) := by
  unfold setTemp
  try dsimp only
  repeat' first | (with_reducible assumption) | split | (dsimp only) | (with_reducible apply keep_mk)

theorem keep_thermalRun {b0 : State} (s : State) (cl tj ts tf : Nat) (hk : Keep b0 s) : Keep b0 (thermalRun s cl tj ts tf) := by
  unfold thermalRun
  try dsimp only
  repeat' first
      | (with_reducible assumption) | (with_reducible apply keep_firnTemp) | (with_reducible apply keep_hostIrq) | (with_reducible apply keep_setCluster)
      | (with_reducible apply keep_setF) | (with_reducible apply keep_setTemp) | (with_reducible apply keep_ite)

theorem keepP_senseTemp {b0 : State} (s : State) (k : Sensor) (t : Nat) (hk : Keep b0 s) : KeepP b0 (senseTemp s k t) := by
  unfold senseTemp
  try dsimp only
  repeat' first
      | (with_reducible assumption) | (with_reducible apply keep_firnTemp) | (with_reducible apply keep_setTemp) | (with_reducible apply keepP_ite)
      | (with_reducible apply keep_fst) | (with_reducible refine keep_eqP ‹_ = (_, _)› ?_) | split | (dsimp only) | (with_reducible apply keepP_mk)

theorem keep_warnRun {b0 : State} (s : State) (k : Sensor) (t : Nat) (hk : Keep b0 s) : Keep b0 (warnRun s k t) := by
  unfold warnRun
  try dsimp only
  repeat' first
      | (with_reducible assumption) | (with_reducible apply keep_hostIrq) | (with_reducible apply keep_raiseEv) | (with_reducible apply keepP_senseTemp)
      | (with_reducible apply keep_ite) | (with_reducible apply keep_fst)
      

theorem keep_tripRun {b0 : State} (s : State) (k : Sensor) (t : Nat) (hk : Keep b0 s) : Keep b0 (tripRun s k t) := by
  unfold tripRun
  try dsimp only
  repeat' first
      | (with_reducible assumption) | (with_reducible apply keep_ccHold) | (with_reducible apply keep_hostDown) | (with_reducible apply keep_portsLost)
      | (with_reducible apply keep_pwrTrans) | (with_reducible apply keep_railOff) | (with_reducible apply keep_raiseEv) | (with_reducible apply keep_regionOff)
      | (with_reducible apply keepP_senseTemp) | (with_reducible apply keep_setF) | (with_reducible apply keep_ite) | (with_reducible apply keep_foldl)
      | (with_reducible apply keep_fst) | (with_reducible refine keep_eqP ‹_ = (_, _)› ?_) | split | (intro _ _ _) | (dsimp only) | (with_reducible apply keep_mk)

theorem keep_rxTake {b0 : State} (s : State) (p : Nat) (k : RxPkt) (hk : Keep b0 s) : Keep b0 (rxTake s p k) := by
  unfold rxTake
  try dsimp only
  repeat' first
      | (with_reducible assumption) | (with_reducible apply keep_portFlush) | (with_reducible apply keep_setPort)

theorem keep_hopTake {b0 : State} (s : State) (p typ : Nat) (fits : RxPkt → Bool) (f : State → RxPkt → State) (h_f : ∀ x0 x1, Keep b0 x0 → Keep b0 (f x0 x1)) (hk : Keep b0 s) : Keep b0
    (hopTake s p typ fits f) := by
  unfold hopTake
  try dsimp only
  repeat' first | (with_reducible assumption) | (with_reducible apply keep_rxTake) | (with_reducible apply h_f) | split

theorem keep_wakePacketRun {b0 : State} (s : State) (p : Nat) (hk : Keep b0 s) : Keep b0 (wakePacketRun s p) := by
  unfold wakePacketRun
  try dsimp only
  repeat' first
      | (with_reducible assumption) | (with_reducible apply keep_hopTake) | (with_reducible apply keep_wakeDetectRun) | (with_reducible apply keep_ite) | split
      | (intro _ _ _)

theorem keep_ccTimerRun {b0 : State} (s : State) (k : Nat) (hk : Keep b0 s) : Keep b0 (ccTimerRun s k) := by
  unfold ccTimerRun
  try dsimp only
  repeat' first
      | (with_reducible assumption) | (with_reducible apply keep_setCc) | (with_reducible apply keep_ite)

theorem keep_ccExternalRun {b0 : State} (s : State) (k : Nat) (hk : Keep b0 s) : Keep b0 (ccExternalRun s k) := by
  unfold ccExternalRun
  try dsimp only
  repeat' first
      | (with_reducible assumption) | (with_reducible apply keep_setCc) | (with_reducible apply keep_ite)

theorem keep_ccRemoteRun {b0 : State} (s : State) (k o n : Nat) (data : Option (List Byte)) (hk : Keep b0 s) : Keep b0 (ccRemoteRun s k o n data) := by
  unfold ccRemoteRun
  try dsimp only
  repeat' first | (with_reducible assumption) | (with_reducible apply keep_ccPush) | (with_reducible apply keep_ite)

theorem keep_ccAccess {b0 : State} (s : State) (k a n : Nat) (data : Option (List Byte)) (hk : Keep b0 s) : Keep b0 (ccAccess s k a n data) := by
  unfold ccAccess
  try dsimp only
  repeat' first | (with_reducible assumption) | (with_reducible apply keep_ccPush) | (with_reducible apply keep_ite)

theorem keep_ownerFault {b0 : State} (s : State) (k cause pc : Nat) (hk : Keep b0 s) : Keep b0 (ownerFault s k cause pc) := by
  unfold ownerFault
  try dsimp only
  repeat' first
      | (with_reducible assumption) | (with_reducible apply keep_hostIrq) | (with_reducible apply keep_setR64) | (with_reducible apply keep_ite)

theorem keep_serveTell {b0 : State} (s : State) (pkg : Nat) (hk : Keep b0 s) : Keep b0 (serveTell s pkg) := by
  unfold serveTell
  try dsimp only
  repeat' first
      | (with_reducible assumption) | (with_reducible apply keep_ccPush) | (with_reducible apply keep_ccSigRun) | (with_reducible apply keepQ_drawFree)
      | (with_reducible apply keep_ite) | (with_reducible apply keep_snd)

theorem keep_tokenWrite {b0 : State} (s : State) (pkg a w0 w1 : Nat) (hk : Keep b0 s) : Keep b0 (tokenWrite s pkg a w0 w1) := by
  unfold tokenWrite
  try dsimp only
  repeat' first | (with_reducible assumption) | (with_reducible apply keep_ccPush)

theorem keepQ_ringFull {b0 : State} (s : State) (x : Stream) (hk : Keep b0 s) : KeepQ b0 (ringFull s x) := by
  unfold ringFull
  try dsimp only
  repeat' first
      | (with_reducible assumption) | (with_reducible apply keepQ_drawFree) | (with_reducible apply keep_ite) | (with_reducible apply keep_snd)
      | (with_reducible refine keep_eqQ ‹_ = (_, _)› ?_) | split | (dsimp only) | (with_reducible apply keepQ_mk)

theorem keep_serveRecord {b0 : State} (s : State) (x : Stream) (last : Bool) (reason index token : Nat) (hk : Keep b0 s) : Keep b0 (serveRecord s x last reason index
    token) := by
  unfold serveRecord
  try dsimp only
  repeat' first
      | (with_reducible assumption) | (with_reducible apply keep_serveTell) | (with_reducible apply keep_tokenWrite) | (with_reducible apply keep_ite) | split
      | (dsimp only) | (with_reducible apply keep_mk)

theorem keep_serveAdmit {b0 : State} (s : State) (y0 : Nat) (hk : Keep b0 s) : Keep b0 (serveAdmit s y0) := by
  induction y0 generalizing s with
  | zero =>
    unfold serveAdmit
    repeat' first
        | (with_reducible assumption)
        
  | succ _ ih =>
    unfold serveAdmit
    repeat' first
        | (with_reducible assumption) | (with_reducible apply ih) | (with_reducible apply keep_ite) | (with_reducible apply keep_foldl) | split | (intro _ _ _)
        | (dsimp only) | (with_reducible apply keep_mk)

theorem keep_serveAccept {b0 : State} (s : State) (x : Stream) (hk : Keep b0 s) : Keep b0 (serveAccept s x) := by
  unfold serveAccept
  try dsimp only
  repeat' first
      | (with_reducible assumption) | (with_reducible apply keep_satF) | (with_reducible apply keep_serveRecord) | (with_reducible apply keep_ite) | split | (dsimp only)
      | (with_reducible apply keep_mk)

theorem keep_serveIntake {b0 : State} (s : State) (y0 : Nat) (hk : Keep b0 s) : Keep b0 (serveIntake s y0) := by
  induction y0 generalizing s with
  | zero =>
    unfold serveIntake
    repeat' first
        | (with_reducible assumption)
        
        
  | succ _ ih =>
    unfold serveIntake
    repeat' first
        | (with_reducible assumption) | (with_reducible apply ih) | (with_reducible apply keep_ccPush) | (with_reducible apply keepP_devRead)
        | (with_reducible apply keep_serveAccept) | (with_reducible apply keep_ite) | (with_reducible apply keep_fst) | (with_reducible refine keep_eqP ‹_ = (_, _)› ?_)
        | split | (dsimp only) | (with_reducible apply keep_mk)

theorem keep_serveCount {b0 : State} (s : State) (hk : Keep b0 s) : Keep b0 (serveCount s) := by
  unfold serveCount
  try dsimp only
  repeat' first | (with_reducible assumption) | (with_reducible apply keep_setF)

theorem keep_servePoll {b0 : State} (s : State) (hk : Keep b0 s) : Keep b0 (servePoll s) := by
  unfold servePoll
  try dsimp only
  repeat' first
      | (with_reducible assumption) | (with_reducible apply keep_serveAdmit) | (with_reducible apply keep_serveCount) | (with_reducible apply keep_serveIntake)
      | (with_reducible apply keep_ite)

theorem keep_setRow {b0 : State} (s : State) (i : Nat) (x : Stream) (hk : Keep b0 s) : Keep b0 (setRow s i x) := by
  unfold setRow
  try dsimp only
  repeat' first | (with_reducible assumption) | split | (dsimp only) | (with_reducible apply keep_mk)

theorem keep_serveRow {b0 : State} (s : State) (i : Nat) (tok : Option (Nat × Bool)) (hk : Keep b0 s) : Keep b0 (serveRow s i tok) := by
  unfold serveRow
  try dsimp only
  repeat' first
      | (with_reducible assumption) | (with_reducible apply keepQ_ringFull) | (with_reducible apply keep_serveRecord) | (with_reducible apply keep_setR)
      | (with_reducible apply keep_setRow) | (with_reducible apply keep_ite) | (with_reducible apply keep_snd) | (with_reducible refine keep_eqQ ‹_ = (_, _)› ?_) | split
      

theorem keep_serveStep {b0 : State} (s : State) (tokens : List (Nat × Bool)) (hk : Keep b0 s) : Keep b0 (serveStep s tokens) := by
  unfold serveStep
  try dsimp only
  repeat' first
      | (with_reducible assumption) | (with_reducible apply keep_ccSigRun) | (with_reducible apply keep_serveCount) | (with_reducible apply keep_servePoll)
      | (with_reducible apply keep_serveRow) | (with_reducible apply keep_ite) | (with_reducible apply keep_foldl) | split | (intro _ _ _) | (dsimp only)
      | (with_reducible apply keep_mk)

theorem keep_tapIr {b0 : State} (s : State) (code : BitVec 8) (hk : Keep b0 s) : Keep b0 (tapIr s code) := by
  unfold tapIr
  try dsimp only
  repeat' first | (with_reducible assumption) | split | (dsimp only) | (with_reducible apply keep_mk)

theorem keep_extestRun {b0 : State} (s : State) (code : BitVec 8) (hk : Keep b0 s) : Keep b0 (extestRun s code) := by
  unfold extestRun
  try dsimp only
  repeat' first
      | (with_reducible assumption) | (with_reducible apply keep_linkLoss) | (with_reducible apply keep_tapIr) | (with_reducible apply keep_ite)

theorem keep_tapReset {b0 : State} (s : State) (hk : Keep b0 s) : Keep b0 (tapReset s) := by
  unfold tapReset
  try dsimp only
  repeat' first
      | (with_reducible assumption) | (with_reducible apply keep_sessEnd) | (with_reducible apply keep_ite) | split | (dsimp only) | (with_reducible apply keep_mk)

theorem keep_tapStatus {b0 : State} (s : State) (k : Nat) (hk : Keep b0 s) : Keep b0 (tapStatus s k) := by
  unfold tapStatus
  try dsimp only
  repeat' first | (with_reducible assumption) | split | (dsimp only) | (with_reducible apply keep_mk)

theorem keep_tapRead {b0 : State} (s : State) (off : Nat) (wide : Bool) (hk : Keep b0 s) : Keep b0 (tapRead s off wide) := by
  unfold tapRead
  try dsimp only
  repeat' first
      | (with_reducible assumption) | (with_reducible apply keepP_readEffect) | (with_reducible apply keep_tapStatus) | (with_reducible apply keep_ite)
      | (with_reducible apply keep_fst) | (with_reducible refine keep_eqP ‹_ = (_, _)› ?_) | split | (dsimp only) | (with_reducible apply keep_mk)

theorem keep_tapWrite {b0 : State} (s : State) (off : Nat) (wide : Bool) (v : Nat) (hk : Keep b0 s) : Keep b0 (tapWrite s off wide v) := by
  unfold tapWrite
  try dsimp only
  repeat' first
      | (with_reducible assumption) | (with_reducible apply keep_regTop) | (with_reducible apply keep_tapStatus) | (with_reducible apply keep_ite)

theorem keep_tapFlush {b0 : State} (s : State) (hk : Keep b0 s) : Keep b0 (tapFlush s) := by
  unfold tapFlush
  try dsimp only
  repeat' first
      | (with_reducible assumption) | (with_reducible apply keep_tapRead) | (with_reducible apply keep_ite) | split | (dsimp only) | (with_reducible apply keep_mk)

theorem keep_dbgRun {b0 : State} (s : State) (shift : Nat) (hk : Keep b0 s) : Keep b0 (dbgRun s shift) := by
  unfold dbgRun
  try dsimp only
  repeat' first
      | (with_reducible assumption) | (with_reducible apply keep_tapFlush) | (with_reducible apply keep_tapIr) | (with_reducible apply keep_tapStatus)
      | (with_reducible apply keep_tapWrite) | (with_reducible apply keep_ite) | split | (dsimp only) | (with_reducible apply keep_mk)

theorem keep_smbusRun {b0 : State} (s : State) (q : SmbRequest) (hk : Keep b0 s) : Keep b0 (smbusRun s q) := by
  unfold smbusRun
  try dsimp only
  repeat' first | (with_reducible assumption) | (with_reducible apply keep_ite) | split | (dsimp only) | (with_reducible apply keep_mk)

theorem keep_arpRun {b0 : State} (s : State) (a : BitVec 7) (hk : Keep b0 s) : Keep b0 (arpRun s a) := by
  unfold arpRun
  try dsimp only
  repeat' first | (with_reducible assumption) | (with_reducible apply keep_ite) | split | (dsimp only) | (with_reducible apply keep_mk)

theorem keep_timeTick {b0 : State} (s : State) (hk : Keep b0 s) : Keep b0 (timeTick s) := by
  unfold timeTick
  try dsimp only
  repeat' first | (with_reducible assumption) | split | (dsimp only) | (with_reducible apply keep_mk)

theorem keep_rootStep {b0 : State} (s : State) (r : Nat) (hk : Keep b0 s) : Keep b0 (rootStep s r) := by
  unfold rootStep
  try dsimp only
  repeat' first
      | (with_reducible assumption) | (with_reducible apply keep_setRegion) | (with_reducible apply keep_ite)

theorem keep_floeCount {b0 : State} (s : State) (cl f r : Nat) (hk : Keep b0 s) : Keep b0 (floeCount s cl f r) := by
  unfold floeCount
  try dsimp only
  repeat' first
      | (with_reducible assumption) | (with_reducible apply keep_add64) | (with_reducible apply keep_satF) | (with_reducible apply keep_setFloe)
      | (with_reducible apply keep_ite)

theorem keep_elastic {b0 : State} (s : State) (cl f : Nat) (hk : Keep b0 s) : Keep b0 (elastic s cl f) := by
  unfold elastic
  try dsimp only
  repeat' first
      | (with_reducible assumption) | (with_reducible apply keep_setFloe) | (with_reducible apply keep_ite) | split

theorem keep_floeRests {b0 : State} (s : State) (cl f : Nat) (hk : Keep b0 s) : Keep b0 (floeRests s cl f) := by
  unfold floeRests
  try dsimp only
  repeat' first | (with_reducible assumption) | (with_reducible apply keep_setFloeReason) | (with_reducible apply keep_setFloe) | (with_reducible apply keep_ite)

theorem keep_floeCycle {b0 : State} (s : State) (cl f : Nat) (hk : Keep b0 s) : Keep b0 (floeCycle s cl f) := by
  unfold floeCycle
  try dsimp only
  repeat' first
      | (with_reducible assumption) | (with_reducible apply keep_floeRests) | (with_reducible apply keep_elastic) | (with_reducible apply keep_floeCount) | (with_reducible apply keep_setFloeReason)
      | (with_reducible apply keep_ite)

theorem keep_paceRun {b0 : State} (s : State) (c : Nat) (hk : Keep b0 s) : Keep b0 (paceRun s c) := keep_ite hk (keep_modCore _ _ _ hk)

theorem keep_clusterCycle {b0 : State} (s : State) (cl : Nat) (hk : Keep b0 s) : Keep b0 (clusterCycle s cl) := by
  unfold clusterCycle
  try dsimp only
  repeat' first
      | (with_reducible assumption) | (with_reducible apply keep_paceRun) | (with_reducible apply keep_floeCycle) | (with_reducible apply keep_owedRun) | (with_reducible apply keep_setCluster)
      | (with_reducible apply keep_setRegion) | (with_reducible apply keep_ite) | (with_reducible apply keep_foldl) | split | (intro _ _ _)
      

theorem keep_stallPause {b0 : State} (s : State) (cl : Nat) (off : Bool) (hk : Keep b0 s) : Keep b0 (stallPause s cl off) := by
  unfold stallPause
  try dsimp only
  repeat' first
      | (with_reducible assumption) | (with_reducible apply keep_setFloe) | (with_reducible apply keep_ite) | (with_reducible apply keep_foldl) | split | (intro _ _ _)
      

theorem keep_netTake {b0 : State} (s : State) (l : Nat) (i : NetItem) (hk : Keep b0 s) : Keep b0 (netTake s l i) := by
  unfold netTake
  try dsimp only
  repeat' first
      | (with_reducible assumption) | (with_reducible apply keep_modXfer) | (with_reducible apply keep_readLands) | (with_reducible apply keep_setPort)
      | (with_reducible apply keep_wrBytes) | split | (dsimp only) | (with_reducible apply keep_mk)

theorem keep_inStep {b0 : State} (s : State) (cl l : Nat) (hk : Keep b0 s) : Keep b0 (inStep s cl l) := by
  unfold inStep
  try dsimp only
  repeat' first
      | (with_reducible assumption) | (with_reducible apply keep_netTake) | (with_reducible apply keep_setIn) | (with_reducible apply keep_ite) | split

theorem keep_crossStep {b0 : State} (s : State) (cl : Nat) (hk : Keep b0 s) : Keep b0 (crossStep s cl) := by
  unfold crossStep
  try dsimp only
  repeat' first | (with_reducible assumption) | (with_reducible apply keep_inStep) | (with_reducible apply keep_foldl) | split | (intro _ _ _)

theorem keep_clusterStep {b0 : State} (s : State) (cl : Nat) (hk : Keep b0 s) : Keep b0 (clusterStep s cl) := by
  unfold clusterStep
  try dsimp only
  repeat' first
      | (with_reducible assumption) | (with_reducible apply keep_clusterCycle) | (with_reducible apply keep_crossStep) | (with_reducible apply keep_rootStep)
      | (with_reducible apply keep_stallPause) | (with_reducible apply keep_ite)

theorem keep_nclkCycle {b0 : State} (s : State) (w0 : Nat → Nat) (d : Nat) (hk : Keep b0 s) : Keep b0 (nclkCycle s w0 d) := by
  unfold nclkCycle
  try dsimp only
  repeat' first
      | (with_reducible assumption) | (with_reducible apply keep_setRegion) | (with_reducible apply keep_ite)
      

theorem keep_nclkCycles {b0 : State} (s : State) (ds : List Nat) (hk : Keep b0 s) : Keep b0 (nclkCycles s ds) := by
  unfold nclkCycles
  try dsimp only
  repeat' first | (with_reducible assumption) | (with_reducible apply keep_nclkCycle) | (with_reducible apply keep_foldl) | split | (intro _ _ _)

theorem keep_setFlying {b0 : State} (s : State) (q : List NetPkt) (hk : Keep b0 s) : Keep b0 (setFlying s q) := by
  unfold setFlying
  try dsimp only
  repeat' first | (with_reducible assumption) | split | (dsimp only) | (with_reducible apply keep_mk)

theorem keep_setUsed {b0 : State} (s : State) (key d : Nat) (hk : Keep b0 s) : Keep b0 (setUsed s key d) := by
  unfold setUsed
  try dsimp only
  repeat' first | (with_reducible assumption) | split | (dsimp only) | (with_reducible apply keep_mk)

theorem keep_fabInject {b0 : State} (s : State) (p : Nat) (k : RxPkt) (o : SwOut) (load : NetLoad) (hk : Keep b0 s) : Keep b0 (fabInject s p k o load) := by
  unfold fabInject
  try dsimp only
  repeat' first
      | (with_reducible assumption) | (with_reducible apply keep_rxTake) | (with_reducible apply keep_setFlying) | (with_reducible apply keep_setPort)
      | (with_reducible apply keep_setUsed) | (with_reducible apply keep_ite)

theorem keep_fabForward {b0 : State} (s : State) (p : Nat) (k : RxPkt) (hk : Keep b0 s) : Keep b0 (fabForward s p k) := by
  unfold fabForward
  try dsimp only
  repeat' first
      | (with_reducible assumption) | (with_reducible apply keep_fabError) | (with_reducible apply keep_fabInject) | (with_reducible apply keep_portDrop)
      | (with_reducible apply keep_rxTake) | (with_reducible apply keep_setPort) | (with_reducible apply keep_ite) | split

theorem keep_fabSlot {b0 : State} (s : State) (p : Nat) (hk : Keep b0 s) : Keep b0 (fabSlot s p) := by
  unfold fabSlot
  try dsimp only
  repeat' first | (with_reducible assumption) | (with_reducible apply keep_fabForward) | (with_reducible apply keep_ite) | split

theorem keep_switchCycle {b0 : State} (s : State) (d : Nat) (hk : Keep b0 s) : Keep b0 (switchCycle s d) := by
  unfold switchCycle
  try dsimp only
  repeat' first
      | (with_reducible assumption) | (with_reducible apply keep_fabSlot) | (with_reducible apply keep_ite) | (with_reducible apply keep_foldl)
      | (with_reducible apply keep_fst) | split | (intro _ _ _) | (dsimp only) | (with_reducible apply keep_mk)

theorem keep_serviceStep {b0 : State} (s : State) (hk : Keep b0 s) : Keep b0 (serviceStep s) := by
  unfold serviceStep
  try dsimp only
  repeat' first
      | (with_reducible assumption) | (with_reducible apply keep_barRun) | (with_reducible apply keep_ccTodo) | (with_reducible apply keep_crossStep)
      | (with_reducible apply keep_nclkCycles) | (with_reducible apply keep_rootStep) | (with_reducible apply keep_switchCycle) | (with_reducible apply keep_ite)
      | (with_reducible apply keep_foldl) | split | (intro _ _ _)

theorem keep_setRecv {b0 : State} (s : State) (e : Nat) (q : List NetPkt) (hk : Keep b0 s) : Keep b0 (setRecv s e q) := by
  unfold setRecv
  try dsimp only
  repeat' first | (with_reducible assumption) | split | (dsimp only) | (with_reducible apply keep_mk)

theorem keep_setTurn {b0 : State} (s : State) (key : Nat) (q : List NetPkt) (hk : Keep b0 s) : Keep b0 (setTurn s key q) := by
  unfold setTurn
  try dsimp only
  repeat' first | (with_reducible assumption) | split | (dsimp only) | (with_reducible apply keep_mk)

theorem keep_setTurnHeld {b0 : State} (s : State) (key : Nat) (b : Bool) (hk : Keep b0 s) : Keep b0 (setTurnHeld s key b) := by
  unfold setTurnHeld
  try dsimp only
  repeat' first | (with_reducible assumption) | (with_reducible apply keep_hold) | (with_reducible apply keep_ite) | split | (dsimp only) | (with_reducible apply keep_mk)

theorem keep_turnPush {b0 : State} (s : State) (key : Nat) (p : NetPkt) (hk : Keep b0 s) : Keep b0 (turnPush s key p) := by
  unfold turnPush
  try dsimp only
  repeat' first
      | (with_reducible assumption) | (with_reducible apply keep_setFlying) | (with_reducible apply keep_setTurn) | (with_reducible apply keep_setTurnHeld)
      | (with_reducible apply keep_ite)

theorem keep_turnLate {b0 : State} (s : State) (key : Nat) (p : NetPkt) (hk : Keep b0 s) : Keep b0 (turnLate s key p) := by
  unfold turnLate
  try dsimp only
  repeat' first
      | (with_reducible assumption) | (with_reducible apply keep_satF) | (with_reducible apply keep_turnPush) | (with_reducible apply keep_ite) | split

theorem keep_edgeArrive {b0 : State} (s : State) (p : NetPkt) (hk : Keep b0 s) : Keep b0 (edgeArrive s p) := by
  unfold edgeArrive
  try dsimp only
  repeat' first
      | (with_reducible assumption) | (with_reducible apply keep_setFlying) | (with_reducible apply keep_setRecv) | (with_reducible apply keep_turnLate)
      | (with_reducible apply keep_ite) | split

theorem keep_edgesRun {b0 : State} (s : State) (hk : Keep b0 s) : Keep b0 (edgesRun s) := by
  unfold edgesRun
  try dsimp only
  repeat' first
      | (with_reducible assumption) | (with_reducible apply keep_edgeArrive) | (with_reducible apply keep_setFlying) | (with_reducible apply keep_ite)
      | (with_reducible apply keep_foldl)

theorem keep_tick {b0 : State} (s : State) (hk : Keep b0 s) : Keep b0 (tick s) := by
  unfold tick
  try dsimp only
  repeat' first
      | (with_reducible assumption) | (with_reducible apply keep_clusterStep) | (with_reducible apply keep_edgesRun) | (with_reducible apply keep_serviceStep)
      | (with_reducible apply keep_tapFlush) | (with_reducible apply keep_timeTick) | (with_reducible apply keep_ite) | (with_reducible apply keep_foldl) | split
      | (intro _ _ _) | (dsimp only) | (with_reducible apply keep_mk)

theorem keep_swrWritePerformed {b0 : State} (s : State) (c : Nat) (hk : Keep b0 s) : Keep b0 (swrWritePerformed s c) := by
  unfold swrWritePerformed
  try dsimp only
  repeat' first
      | (with_reducible assumption) | (with_reducible apply keep_modCore) | (with_reducible apply keep_setDesc) | (with_reducible apply keep_writeElems)
      | (with_reducible apply keep_ite) | split

theorem keep_onCore {b0 : State} (s : State) (c : Nat) (f : State → State) (h_f : ∀ x0, Keep b0 x0 → Keep b0 (f x0)) (hk : Keep b0 s) : Keep b0 (onCore s c f) := by
  unfold onCore
  try dsimp only
  repeat' first | (with_reducible assumption) | (with_reducible apply h_f) | (with_reducible apply keep_ite)

theorem keep_fabSignal {b0 : State} (s : State) (p kind : Nat) (h : PktHdr) (hk : Keep b0 s) : Keep b0 (fabSignal s p kind h) := by
  unfold fabSignal
  try dsimp only
  repeat' first
      | (with_reducible assumption) | (with_reducible apply keepQ_drawFree) | (with_reducible apply keep_snd) | (with_reducible refine keep_eqQ ‹_ = (_, _)› ?_) | split
      | (dsimp only) | (with_reducible apply keep_mk)

theorem keep_absentReply {b0 : State} (s : State) (p c : Nat) (h : PktHdr) (hk : Keep b0 s) : Keep b0 (absentReply s p c h) := by
  unfold absentReply
  try dsimp only
  repeat' first | (with_reducible assumption) | (with_reducible apply keep_absentNote) | (with_reducible apply keep_fabError)

theorem keep_writeDone {b0 : State} (s : State) (p : Nat) (h : PktHdr) (hk : Keep b0 s) : Keep b0 (writeDone s p h) := by
  unfold writeDone
  try dsimp only
  repeat' first
      | (with_reducible assumption) | (with_reducible apply keep_fabAck) | (with_reducible apply keep_fabSignal) | (with_reducible apply keep_ite)

theorem keep_writeIn {b0 : State} (s : State) (p : Nat) (k : Packet) (hk : Keep b0 s) : Keep b0 (writeIn s p k) := by
  unfold writeIn
  try dsimp only
  repeat' first
      | (with_reducible assumption) | (with_reducible apply keep_absentReply) | (with_reducible apply keepP_devWrite) | (with_reducible apply keep_fabError)
      | (with_reducible apply keep_satF) | (with_reducible apply keep_wrBytes) | (with_reducible apply keep_writeDone) | (with_reducible apply keep_ite)
      | (with_reducible apply keep_fst) | (with_reducible refine keep_eqP ‹_ = (_, _)› ?_) | split

theorem keep_readReply {b0 : State} (s : State) (h : PktHdr) (bs : List Byte) (hk : Keep b0 s) : Keep b0 (readReply s h bs) := by
  unfold readReply
  try dsimp only
  repeat' first | (with_reducible assumption) | (with_reducible apply keep_fabRespond)

theorem keep_readIn {b0 : State} (s : State) (p : Nat) (k : Packet) (hk : Keep b0 s) : Keep b0 (readIn s p k) := by
  unfold readIn
  try dsimp only
  repeat' first
      | (with_reducible assumption) | (with_reducible apply keep_absentReply) | (with_reducible apply keepP_devRead) | (with_reducible apply keep_fabError)
      | (with_reducible apply keep_readReply) | (with_reducible apply keep_ite) | (with_reducible apply keep_fst) | (with_reducible refine keep_eqP ‹_ = (_, _)› ?_)
      | split

theorem keep_trkLate {b0 : State} (s : State) (hk : Keep b0 s) : Keep b0 (trkLate s) := by
  unfold trkLate
  try dsimp only
  repeat' first | (with_reducible assumption) | (with_reducible apply keep_satF)

theorem keep_msgIn {b0 : State} (s : State) (p : Nat) (k : Packet) (hk : Keep b0 s) : Keep b0 (msgIn s p k) := by
  unfold msgIn
  try dsimp only
  repeat' first
      | (with_reducible assumption) | (with_reducible apply keep_absentReply) | (with_reducible apply keep_trkDone) | (with_reducible apply keep_trkLate)
      | (with_reducible apply keep_ite) | split | (dsimp only) | (with_reducible apply keep_mk)

theorem keep_creditIn {b0 : State} (s : State) (k : Packet) (hk : Keep b0 s) : Keep b0 (creditIn s k) := by
  unfold creditIn
  try dsimp only
  repeat' first
      | (with_reducible assumption) | (with_reducible apply keepP_credBack) | (with_reducible apply keep_liveDrop) | (with_reducible apply keep_trkLate)
      | (with_reducible apply keep_ite) | (with_reducible apply keep_fst)

theorem keep_signalIn {b0 : State} (s : State) (p : Nat) (k : Packet) (hk : Keep b0 s) : Keep b0 (signalIn s p k) := by
  unfold signalIn
  try dsimp only
  repeat' first
      | (with_reducible assumption) | (with_reducible apply keep_absentReply) | (with_reducible apply keep_fabAck) | (with_reducible apply keep_fabSignal)
      | (with_reducible apply keep_ite)

theorem keep_landedRun {b0 : State} (s : State) (p typ : Nat) (pkt : Packet) (waits : State → Packet → Bool) (f : State → RxPkt → State) (h_f : ∀ x0 x1, Keep b0 x0 → Keep b0 (f x0 x1))
    (hk : Keep b0 s) : Keep b0 (landedRun s p typ pkt waits f) := by
  unfold landedRun
  try dsimp only
  repeat' first
      | (with_reducible assumption) | (with_reducible apply keep_setPort) | (with_reducible apply h_f) | split
      

theorem keep_logWrite {b0 : State} (s : State) (pos : Nat) (bs : List Byte) (hk : Keep b0 s) : Keep b0 (logWrite s pos bs) := by
  unfold logWrite
  try dsimp only
  repeat' first
      | (with_reducible assumption) | (with_reducible apply keepP_devWrite) | (with_reducible apply keep_fst)
      

theorem keep_deltaRun {b0 : State} (s : State) (pkt : Packet) (hk : Keep b0 s) : Keep b0 (deltaRun s pkt) := by
  unfold deltaRun
  try dsimp only
  repeat' first
      | (with_reducible assumption) | (with_reducible apply keep_logWrite) | (with_reducible apply keep_rxTake) | (with_reducible apply keep_ite)
      | (with_reducible apply keep_fst) | split | (dsimp only) | (with_reducible apply keep_mk)

theorem keep_commitRun {b0 : State} (s : State) (pkt : Packet) (hk : Keep b0 s) : Keep b0 (commitRun s pkt) := by
  unfold commitRun
  try dsimp only
  repeat' first
      | (with_reducible assumption) | (with_reducible apply keep_rxTake) | (with_reducible apply keep_setF) | (with_reducible apply keep_ite) | split | (dsimp only)
      | (with_reducible apply keep_mk)

theorem keep_commitApply {b0 : State} (s : State) (hk : Keep b0 s) : Keep b0 (commitApply s) := by
  unfold commitApply
  try dsimp only
  repeat' first
      | (with_reducible assumption) | (with_reducible apply keep_applyEnd) | (with_reducible apply keep_applyOne) | (with_reducible apply keep_txPush)
      | (with_reducible apply keep_ite) | split

theorem keep_commitAckRun {b0 : State} (s : State) (pkt : Packet) (hk : Keep b0 s) : Keep b0 (commitAckRun s pkt) := by
  unfold commitAckRun
  try dsimp only
  repeat' first
      | (with_reducible assumption) | (with_reducible apply keep_ledReturn1) | (with_reducible apply keep_rxTake) | (with_reducible apply keep_setR)
      | (with_reducible apply keep_ite) | (with_reducible apply keep_fst) | split | (dsimp only) | (with_reducible apply keep_mk)

theorem keep_mirrorLagRun {b0 : State} (s : State) (hk : Keep b0 s) : Keep b0 (mirrorLagRun s) := by
  unfold mirrorLagRun
  try dsimp only
  repeat' first | (with_reducible assumption) | (with_reducible apply keep_mirLagging) | (with_reducible apply keep_ite) | split

theorem keep_portEnter {b0 : State} (s : State) (p : Nat) (half : Bool) (hk : Keep b0 s) : Keep b0 (portEnter s p half) := by
  unfold portEnter
  try dsimp only
  repeat' first
      | (with_reducible assumption) | (with_reducible apply keep_ledReturn) | (with_reducible apply keep_portFlush) | (with_reducible apply keep_setPort)
      | (with_reducible apply keep_setPortState)
      

theorem keep_trainingDoneRun {b0 : State} (s : State) (p : Nat) (lo hi : Bool) (pkg port : Nat) (hk : Keep b0 s) : Keep b0 (trainingDoneRun s p lo hi pkg port) := by
  unfold trainingDoneRun
  try dsimp only
  repeat' first
      | (with_reducible assumption) | (with_reducible apply keep_mirCheck) | (with_reducible apply keep_portEnter) | (with_reducible apply keep_setF)
      | (with_reducible apply keep_ite) | split | (dsimp only) | (with_reducible apply keep_mk)

theorem keepP_accColumn {b0 : State} (s : State) (c : Nat) (o : MxOp) (col : List FV) (rows : List (List FV)) (hk : Keep b0 s) :
    KeepP b0 (accColumn s c o col rows) := by
  unfold accColumn
  exact keepP_foldl (fun p a h => keepP_mk (keep_modCore _ _ _ (keep_parClear _ _ _ _ h))) hk

theorem keepP_enterColumn {b0 : State} (s : State) (c : Nat) (o : MxOp) (tl : Tile) (col : List FV) (hk : Keep b0 s) : KeepP b0 (enterColumn s c o tl col) := by
  unfold enterColumn
  extract_lets bad s1 o1 rows x
  have h : Keep b0 s1 := keep_ite (keep_sramParity _ _ _ _ hk) hk
  exact keepP_mk (keep_setFlags _ _ _ (keep_fst (keepP_accColumn _ _ _ _ _ h)))

theorem keep_setOp {b0 : State} (s : State) (c i : Nat) (o : MxOp) (hk : Keep b0 s) : Keep b0 (setOp s c i o) := by
  unfold setOp
  try dsimp only
  repeat' first | (with_reducible assumption) | (with_reducible apply keep_modCore)

theorem keep_enterCols {b0 : State} (s : State) (c i : Nat) (o : MxOp) (tl : Tile) (y0 : Nat) (hk : Keep b0 s) : Keep b0 (enterCols s c i o tl y0) := by
  induction y0 generalizing s c i o tl with
  | zero =>
    unfold enterCols
    repeat' first
        | (with_reducible assumption) | (with_reducible apply ih) | (with_reducible apply keepP_enterColumn) | (with_reducible apply keep_modCore)
        | (with_reducible apply keep_setOp)
        
  | succ _ ih =>
    unfold enterCols
    repeat' first
        | (with_reducible assumption) | (with_reducible apply ih) | (with_reducible apply keepP_enterColumn) | (with_reducible apply keep_modCore)
        | (with_reducible apply keep_setOp) | (with_reducible apply keep_ite) | (with_reducible apply keep_fst)
        

theorem keep_passClose {b0 : State} (s : State) (c i : Nat) (hk : Keep b0 s) : Keep b0 (passClose s c i) := by
  unfold passClose
  try dsimp only
  repeat' first | (with_reducible assumption) | (with_reducible apply keep_setOp) | (with_reducible apply keep_ite) | split

theorem keep_weightColumnEnter {b0 : State} (s : State) (c : Nat) (hk : Keep b0 s) : Keep b0 (weightColumnEnter s c) := by
  unfold weightColumnEnter
  try dsimp only
  repeat' first
      | (with_reducible assumption) | (with_reducible apply keep_occupy) | (with_reducible apply keep_abandonMxe) | (with_reducible apply keep_enterCols) | (with_reducible apply keep_illegal)
      | (with_reducible apply keep_modCore) | (with_reducible apply keep_passClose) | (with_reducible apply keep_ite) | split
      

theorem keep_checkColumnInject {b0 : State} (s : State) (c : Nat) (hk : Keep b0 s) : Keep b0 (checkColumnInject s c) := by
  unfold checkColumnInject
  try dsimp only
  repeat' first
      | (with_reducible assumption) | (with_reducible apply keep_occupy) | (with_reducible apply keep_setOp) | (with_reducible apply keep_ite) | split

theorem keep_checkFail {b0 : State} (s : State) (c i : Nat) (o : MxOp) (k : Check) (hk : Keep b0 s) : Keep b0 (checkFail s c i o k) := by
  unfold checkFail
  try dsimp only
  repeat' first
      | (with_reducible assumption) | (with_reducible apply keep_abandonMxe) | (with_reducible apply keep_raiseCore) | (with_reducible apply keep_satF)
      | (with_reducible apply keep_setOp) | (with_reducible apply keep_setR) | (with_reducible apply keep_ite)

theorem keep_abftCheck {b0 : State} (s : State) (c : Nat) (hk : Keep b0 s) : Keep b0 (abftCheck s c) := by
  unfold abftCheck
  try dsimp only
  repeat' first
      | (with_reducible assumption) | (with_reducible apply keep_checkFail) | (with_reducible apply keep_satF) | (with_reducible apply keep_setOp)
      | (with_reducible apply keep_ite) | split

theorem keep_emitPlain {b0 : State} (s0 : State) (c : Nat) (o : MxOp) (j n : Nat) (hk : Keep b0 s0) : Keep b0 (emitPlain s0 c o j n) := by
  unfold emitPlain
  try dsimp only
  repeat' first
      | (with_reducible assumption) | (with_reducible apply keep_modCore) | (with_reducible apply keep_setFlags) | (with_reducible apply keep_setOp)
      | (with_reducible apply keep_sramParity) | (with_reducible apply keep_ite)
      

theorem keep_formMx {b0 : State} (s0 : State) (c : Nat) (o : MxOp) (j n : Nat) (hk : Keep b0 s0) : Keep b0 (formMx s0 c o j n) := by
  unfold formMx
  try dsimp only
  repeat' first
      | (with_reducible assumption) | (with_reducible apply keep_setFlags) | (with_reducible apply keep_setOp) | (with_reducible apply keep_sramParity)
      | (with_reducible apply keep_ite)
      

theorem keep_emitMx {b0 : State} (s : State) (c : Nat) (o : MxOp) (hk : Keep b0 s) : Keep b0 (emitMx s c o) := by
  unfold emitMx
  try dsimp only
  repeat' first
      | (with_reducible assumption) | (with_reducible apply keep_modCore) | (with_reducible apply keep_setOp) | (with_reducible apply keep_ite) | split
      

theorem keep_drainColumnEmit {b0 : State} (s : State) (c : Nat) (hk : Keep b0 s) : Keep b0 (drainColumnEmit s c) := by
  unfold drainColumnEmit
  try dsimp only
  repeat' first
      | (with_reducible assumption) | (with_reducible apply keep_occupy) | (with_reducible apply keep_emitMx) | (with_reducible apply keep_emitPlain) | (with_reducible apply keep_formMx)
      | (with_reducible apply keep_ite) | split

theorem keep_capture {b0 : State} (s : State) (c n v : Nat) (hk : Keep b0 s) : Keep b0 (capture s c n v) := by
  unfold capture
  try dsimp only
  repeat' first | (with_reducible assumption) | (with_reducible apply keep_setR)

theorem keep_mxeOpComplete {b0 : State} (s : State) (c : Nat) (hk : Keep b0 s) : Keep b0 (mxeOpComplete s c) := by
  unfold mxeOpComplete
  try dsimp only
  repeat' first
      | (with_reducible assumption) | (with_reducible apply keep_capture) | (with_reducible apply keep_modCore) | (with_reducible apply keep_ite) | split
      

theorem keep_setLink {b0 : State} (s : State) (key : Nat) (q : List NetPkt) (hk : Keep b0 s) : Keep b0 (setLink s key q) := by
  unfold setLink
  try dsimp only
  repeat' first | (with_reducible assumption) | split | (dsimp only) | (with_reducible apply keep_mk)

theorem keep_turnCollide {b0 : State} (s : State) (key : Nat) (p : NetPkt) (hk : Keep b0 s) : Keep b0 (turnCollide s key p) := by
  unfold turnCollide
  try dsimp only
  repeat' first
      | (with_reducible assumption) | (with_reducible apply keep_raiseEv) | (with_reducible apply keep_satF) | (with_reducible apply keep_turnPush) | split
      

theorem keep_swEnter {b0 : State} (s : State) (key : Nat) (p : NetPkt) (hk : Keep b0 s) : Keep b0 (swEnter s key p) := by
  unfold swEnter
  try dsimp only
  repeat' first
      | (with_reducible assumption) | (with_reducible apply keep_setFlying) | (with_reducible apply keep_setLink) | (with_reducible apply keep_setUsed)
      | (with_reducible apply keep_txPush) | (with_reducible apply keep_ite) | split

theorem keepQ_swDue {b0 : State} (s : State) (key : Nat) (hk : Keep b0 s) : KeepQ b0 (swDue s key) := by
  unfold swDue
  try dsimp only
  repeat' first
      | (with_reducible assumption) | (with_reducible apply keep_setFlying) | (with_reducible apply keep_foldl) | (with_reducible apply keep_snd)
      | (with_reducible refine keep_eqQ ‹_ = (_, _)› ?_) | split | (intro _ _ _) | (dsimp only) | (with_reducible apply keepQ_mk) | (with_reducible apply keep_mk)

theorem keep_swMeet {b0 : State} (s : State) (key : Nat) (hk : Keep b0 s) : Keep b0 (swMeet s key) := by
  unfold swMeet
  try dsimp only
  repeat' first
      | (with_reducible assumption) | (with_reducible apply keep_setTurn) | (with_reducible apply keepQ_swDue) | (with_reducible apply keep_swEnter)
      | (with_reducible apply keep_turnCollide) | (with_reducible apply keep_ite) | (with_reducible apply keep_foldl) | (with_reducible apply keep_snd)
      | (with_reducible refine keep_eqQ ‹_ = (_, _)› ?_) | split | (intro _ _ _)

theorem keep_netInject {b0 : State} (s : State) (c l src slot : Nat) (route : List SwOut) (hk : Keep b0 s) : Keep b0 (netInject s c l src slot route) := by
  unfold netInject
  try dsimp only
  repeat' first
      | (with_reducible assumption) | (with_reducible apply keep_setFlying) | (with_reducible apply keep_setOut) | (with_reducible apply keep_setUsed)
      | (with_reducible apply keep_ite) | split

theorem keep_netEnter {b0 : State} (s : State) (key : Nat) (hk : Keep b0 s) : Keep b0 (netEnter s key) := by
  unfold netEnter
  try dsimp only
  repeat' first | (with_reducible assumption) | (with_reducible apply keep_swMeet)

theorem keep_netRelease {b0 : State} (s : State) (key : Nat) (hk : Keep b0 s) : Keep b0 (netRelease s key) := by
  unfold netRelease
  try dsimp only
  repeat' first | (with_reducible assumption) | (with_reducible apply keep_swMeet) | (with_reducible apply keep_ite)

theorem keep_netUnhold {b0 : State} (s : State) (key : Nat) (hk : Keep b0 s) : Keep b0 (netUnhold s key) := by
  unfold netUnhold
  try dsimp only
  repeat' first | (with_reducible assumption) | (with_reducible apply keep_setTurnHeld) | (with_reducible apply keep_ite)

theorem keep_netDeliver {b0 : State} (s : State) (c l : Nat) (hk : Keep b0 s) : Keep b0 (netDeliver s c l) := by
  unfold netDeliver
  try dsimp only
  repeat' first
      | (with_reducible assumption) | (with_reducible apply keepQ_netItem) | (with_reducible apply keep_setIn) | (with_reducible apply keep_setLink)
      | (with_reducible apply keep_ite) | (with_reducible apply keep_snd) | (with_reducible refine keep_eqQ ‹_ = (_, _)› ?_) | split

theorem keep_readTop {b0 : State} (s : State) (src : Src) (off : Nat) (hk : Keep b0 s) : Keep b0 (readTop s src off) := by
  unfold readTop
  try dsimp only
  repeat' first
      | (with_reducible assumption) | (with_reducible apply keepP_readEffect) | (with_reducible apply keep_ite) | (with_reducible apply keep_fst)
      

theorem keep_debugTop {b0 : State} (s : State) (src : Src) (c o : Nat) (wide : Bool) (v : Nat) (hk : Keep b0 s) : Keep b0 (debugTop s src c o wide v) := by
  unfold debugTop
  try dsimp only
  repeat' first | (with_reducible assumption) | (with_reducible apply keep_regTop) | (with_reducible apply keep_ite)

theorem keep_trkAck {b0 : State} (s : State) (t : Nat) (hk : Keep b0 s) : Keep b0 (trkAck s t) := by
  unfold trkAck
  try dsimp only
  repeat' first
      | (with_reducible assumption) | (with_reducible apply keep_ccWriteDone) | (with_reducible apply keep_ledReturn1) | (with_reducible apply keep_modXfer)
      | (with_reducible apply keep_trkDone) | (with_reducible apply keep_ite) | split

theorem keep_trkData {b0 : State} (s : State) (t marks : Nat) (bs : List Byte) (hk : Keep b0 s) : Keep b0 (trkData s t marks bs) := by
  unfold trkData
  try dsimp only
  repeat' first
      | (with_reducible assumption) | (with_reducible apply keep_ccLoadDone) | (with_reducible apply keep_modXfer) | (with_reducible apply keep_trkDone) | split
      

theorem keep_trkRespond {b0 : State} (s : State) (h : PktHdr) (f : State → State) (h_f : ∀ x0, Keep b0 x0 → Keep b0 (f x0)) (hk : Keep b0 s) : Keep b0 (trkRespond s h f)
    := by
  unfold trkRespond
  try dsimp only
  repeat' first
      | (with_reducible assumption) | (with_reducible apply keep_trkLate) | (with_reducible apply h_f) | (with_reducible apply keep_ite)
      

theorem keep_trkTimeout {b0 : State} (s : State) (t : Nat) (hk : Keep b0 s) : Keep b0 (trkTimeout s t) := by
  unfold trkTimeout
  try dsimp only
  repeat' first
      | (with_reducible assumption) | (with_reducible apply keep_satF) | (with_reducible apply keep_trkFail) | (with_reducible apply keep_ite) | split

theorem keep_mirHear {b0 : State} (s : State) (m : MirSay) (hk : Keep b0 s) : Keep b0 (mirHear s m) := by
  unfold mirHear
  try dsimp only
  repeat' first | (with_reducible assumption) | (with_reducible apply keep_mirAgree) | split | (dsimp only) | (with_reducible apply keep_mk)

theorem keep_lpExitRun {b0 : State} (s : State) (p : Nat) (hk : Keep b0 s) : Keep b0 (lpExitRun s p) := by
  unfold lpExitRun
  try dsimp only
  repeat' first | (with_reducible assumption) | (with_reducible apply keep_portEnter) | (with_reducible apply keep_ite)

theorem keep_trainingTimeoutRun {b0 : State} (s : State) (p : Nat) (hk : Keep b0 s) : Keep b0 (trainingTimeoutRun s p) := by
  unfold trainingTimeoutRun
  try dsimp only
  repeat' first | (with_reducible assumption) | (with_reducible apply keep_setF) | (with_reducible apply keep_ite)

theorem keep_ackFlits {b0 : State} (s : State) (p seq : Nat) (hk : Keep b0 s) : Keep b0 (ackFlits s p seq) := by
  unfold ackFlits
  try dsimp only
  repeat' first
      | (with_reducible assumption) | (with_reducible apply keep_setPort) | (with_reducible apply keep_ite)

theorem keep_returnCredits {b0 : State} (s : State) (p : Nat) (cs : List Nat) (hk : Keep b0 s) : Keep b0 (returnCredits s p cs) := by
  unfold returnCredits
  try dsimp only
  repeat' first
      | (with_reducible assumption) | (with_reducible apply keep_ledReturn) | (with_reducible apply keep_setPort) | (with_reducible apply keep_foldl) | split
      | (intro _ _ _)

theorem keep_resend {b0 : State} (s : State) (p : Nat) (hk : Keep b0 s) : Keep b0 (resend s p) := by
  unfold resend
  try dsimp only
  repeat' first
      | (with_reducible assumption) | (with_reducible apply keep_emitFlit) | (with_reducible apply keep_satF) | (with_reducible apply keep_setPort)
      | (with_reducible apply keep_ite) | (with_reducible apply keep_foldl) | split | (intro _ _ _) | (dsimp only) | (with_reducible apply keep_mk)

theorem keep_replayFrom {b0 : State} (s : State) (p : Nat) (hk : Keep b0 s) : Keep b0 (replayFrom s p) := by
  unfold replayFrom
  try dsimp only
  repeat' first
      | (with_reducible assumption) | (with_reducible apply keep_portLost) | (with_reducible apply keep_raiseEv) | (with_reducible apply keep_resend)
      | (with_reducible apply keep_setF) | (with_reducible apply keep_ite) | split

theorem keep_flitLost {b0 : State} (s : State) (p n : Nat) (again : Bool) (hk : Keep b0 s) : Keep b0 (flitLost s p n again) := by
  unfold flitLost
  try dsimp only
  repeat' first
      | (with_reducible assumption) | (with_reducible apply keep_satF) | (with_reducible apply keep_setPort) | (with_reducible apply keep_ite)
      

theorem keep_flitContent {b0 : State} (s : State) (p : Nat) (f : FlitRec) (late : Bool) (hk : Keep b0 s) : Keep b0 (flitContent s p f late) := by
  unfold flitContent
  try dsimp only
  repeat' first
      | (with_reducible assumption) | (with_reducible apply keep_setPort) | (with_reducible apply keep_ite) | (with_reducible apply keep_fst) | split | (dsimp only)
      | (with_reducible apply keep_mk)

theorem keep_flitNumbered {b0 : State} (s : State) (p : Nat) (f : FlitRec) (hk : Keep b0 s) : Keep b0 (flitNumbered s p f) := by
  unfold flitNumbered
  try dsimp only
  repeat' first
      | (with_reducible assumption) | (with_reducible apply keep_flitContent) | (with_reducible apply keep_flitLost) | (with_reducible apply keep_mirHear)
      | (with_reducible apply keep_returnCredits) | (with_reducible apply keep_setPort) | (with_reducible apply keep_ite)
      

theorem keep_flitIn {b0 : State} (s : State) (p : Nat) (bs : List Byte) (hk : Keep b0 s) : Keep b0 (flitIn s p bs) := by
  unfold flitIn
  try dsimp only
  repeat' first
      | (with_reducible assumption) | (with_reducible apply keep_ackFlits) | (with_reducible apply keep_flitContent) | (with_reducible apply keep_flitLost)
      | (with_reducible apply keep_flitNumbered) | (with_reducible apply keep_portFlush) | (with_reducible apply keep_replayFrom) | (with_reducible apply keep_ite)
      | split

theorem keep_frameIn {b0 : State} (s : State) (p : Nat) (bs : List Byte) (hk : Keep b0 s) : Keep b0 (frameIn s p bs) := by
  unfold frameIn
  try dsimp only
  repeat' first
      | (with_reducible assumption) | (with_reducible apply keep_flitIn) | (with_reducible apply keep_flitLost) | (with_reducible apply keep_portFlush)
      | (with_reducible apply keep_satF) | (with_reducible apply keep_ite) | (with_reducible apply keep_foldl) | split | (intro _ _ _)

theorem keep_rtoRun {b0 : State} (s : State) (p : Nat) (hk : Keep b0 s) : Keep b0 (rtoRun s p) := by
  unfold rtoRun
  try dsimp only
  repeat' first
      | (with_reducible assumption) | (with_reducible apply keep_portLost) | (with_reducible apply keep_replayFrom) | (with_reducible apply keep_satF)
      | (with_reducible apply keep_setPort) | (with_reducible apply keep_ite)

theorem keep_timeExchangeRun {b0 : State} (s : State) (hk : Keep b0 s) : Keep b0 (timeExchangeRun s) := by
  unfold timeExchangeRun
  try dsimp only
  repeat' first
      | (with_reducible assumption) | (with_reducible apply keep_txPush) | (with_reducible apply keep_ite) | split | (dsimp only) | (with_reducible apply keep_mk)

theorem keep_timeReqRun {b0 : State} (s : State) (p t1 : Nat) (hk : Keep b0 s) : Keep b0 (timeReqRun s p t1) := by
  unfold timeReqRun
  try dsimp only
  repeat' first
      | (with_reducible assumption) | (with_reducible apply keep_hopTake) | (with_reducible apply keep_txPush) | (with_reducible apply keep_ite) | split | (intro _ _ _)
      

theorem keep_syncEvent {b0 : State} (s : State) (e : Int) (hk : Keep b0 s) : Keep b0 (syncEvent s e) := by
  unfold syncEvent
  try dsimp only
  repeat' first
      | (with_reducible assumption) | (with_reducible apply keep_setF) | (with_reducible apply keep_tbStep) | (with_reducible apply keep_ite) | split | (dsimp only)
      | (with_reducible apply keep_mk)

theorem keep_timeRspRun {b0 : State} (s : State) (p t1 t2 t3 : Nat) (retried : Bool) (hk : Keep b0 s) : Keep b0 (timeRspRun s p t1 t2 t3 retried) := by
  unfold timeRspRun
  try dsimp only
  repeat' first
      | (with_reducible assumption) | (with_reducible apply keep_hopTake) | (with_reducible apply keep_satF) | (with_reducible apply keep_setR)
      | (with_reducible apply keep_syncEvent) | (with_reducible apply keep_ite) | (with_reducible apply keep_fst) | split | (intro _ _ _) | (dsimp only)
      | (with_reducible apply keep_mk)

theorem keep_State.withFetchWord {b0 : State} (s : State) (nbits w : Nat) (hk : Keep b0 s) : Keep b0 (State.withFetchWord s nbits w) := by
  unfold State.withFetchWord
  try dsimp only
  repeat' first | (with_reducible assumption) | split | (dsimp only) | (with_reducible apply keep_mk)

theorem keep_stretchOne {b0 : State} (s : State) (n r : Nat) (hk : Keep b0 s) : Keep b0 (stretchOne s n r) := by
  unfold stretchOne
  try dsimp only
  repeat' first
      | (with_reducible assumption) | (with_reducible apply keep_satF) | (with_reducible apply keep_setRegion) | (with_reducible apply keep_ite)
      

theorem keep_stretch {b0 : State} (s : State) (r n : Nat) (hk : Keep b0 s) : Keep b0 (stretch s r n) := by
  unfold stretch
  try dsimp only
  repeat' first
      | (with_reducible assumption) | (with_reducible apply keep_stretchOne) | (with_reducible apply keep_ite) | (with_reducible apply keep_foldl) | split | (intro _ _ _)
      

theorem keep_align {b0 : State} (s : State) (x : Crossing) (three : Bool) (hk : Keep b0 s) : Keep b0 (align s x three) := by
  unfold align
  try dsimp only
  repeat' first
      | (with_reducible assumption) | (with_reducible apply keep_setEdgeXlat) | (with_reducible apply keep_setXlat) | (with_reducible apply keep_xalignSet)
      | (with_reducible apply keep_ite) | (with_reducible apply keep_fst) | split

theorem keep_newN {b0 : State} (s : State) (r n : Nat) (hk : Keep b0 s) : Keep b0 (newN s r n) := by
  unfold newN
  try dsimp only
  repeat' first
      | (with_reducible assumption) | (with_reducible apply keep_setN) | (with_reducible apply keep_setRegion) | (with_reducible apply keep_unalign)
      

theorem keep_pllChange {b0 : State} (s : State) (r : Nat) (hk : Keep b0 s) : Keep b0 (pllChange s r) := by
  unfold pllChange
  try dsimp only
  repeat' first
      | (with_reducible assumption) | (with_reducible apply keep_dvfsNext) | (with_reducible apply keep_newN) | (with_reducible apply keep_ite)
      | (with_reducible apply keep_foldl) | split | (intro _ _ _)

theorem keep_settleTimeout {b0 : State} (s : State) (d : Nat) (hk : Keep b0 s) : Keep b0 (settleTimeout s d) := by
  unfold settleTimeout
  try dsimp only
  repeat' first | (with_reducible assumption) | (with_reducible apply keep_setR64) | (with_reducible apply keep_ite)

theorem keep_marginSeen {b0 : State} (s : State) (cl code : Nat) (hk : Keep b0 s) : Keep b0 (marginSeen s cl code) := by
  unfold marginSeen
  try dsimp only
  repeat' first
      | (with_reducible assumption) | (with_reducible apply keep_raiseEv) | (with_reducible apply keep_setF) | (with_reducible apply keep_ite)
      

theorem keep_marginRun {b0 : State} (s : State) (cl code : Nat) (hk : Keep b0 s) : Keep b0 (marginRun s cl code) := by
  unfold marginRun
  try dsimp only
  repeat' first | (with_reducible assumption) | (with_reducible apply keep_marginSeen) | (with_reducible apply keep_ite)

theorem keep_autostepRun {b0 : State} (s : State) (cl code : Nat) (hk : Keep b0 s) : Keep b0 (autostepRun s cl code) := by
  unfold autostepRun
  try dsimp only
  repeat' first
      | (with_reducible assumption) | (with_reducible apply keep_marginSeen) | (with_reducible apply keep_setF) | (with_reducible apply keep_setRegion)
      | (with_reducible apply keep_ite)

theorem keep_wheelHoldRun {b0 : State} (s : State) (d : Nat) (hk : Keep b0 s) : Keep b0 (wheelHoldRun s d) := by
  unfold wheelHoldRun
  try dsimp only
  repeat' first | (with_reducible assumption) | (with_reducible apply keep_nclkCycle) | (with_reducible apply keep_ite)

theorem keep_wheelStartRun {b0 : State} (s : State) (d : Nat) (nbr : Option Nat) (transit : Nat) (hk : Keep b0 s) : Keep b0 (wheelStartRun s d nbr transit) := by
  unfold wheelStartRun
  try dsimp only
  repeat' first
      | (with_reducible assumption) | (with_reducible apply keep_setRegion) | (with_reducible apply keep_ite) | (with_reducible apply keep_fst) | split
      

theorem keep_syncInEdge {b0 : State} (s : State) (hk : Keep b0 s) : Keep b0 (syncInEdge s) := by
  unfold syncInEdge
  try dsimp only
  repeat' first
      | (with_reducible assumption) | (with_reducible apply keep_syncEvent) | (with_reducible apply keep_ite) | split | (dsimp only) | (with_reducible apply keep_mk)

theorem keep_syncLostRun {b0 : State} (s : State) (hk : Keep b0 s) : Keep b0 (syncLostRun s) := by
  unfold syncLostRun
  try dsimp only
  repeat' first | (with_reducible assumption) | (with_reducible apply keep_setF) | (with_reducible apply keep_ite) | split | (dsimp only) | (with_reducible apply keep_mk)

theorem keep_alarmRun {b0 : State} (s : State) (hk : Keep b0 s) : Keep b0 (alarmRun s) := by
  unfold alarmRun
  try dsimp only
  repeat' first
      | (with_reducible assumption) | (with_reducible apply keep_hostIrq) | (with_reducible apply keep_setF) | (with_reducible apply keep_ite)

theorem keep_syncOutRun {b0 : State} (s : State) (hk : Keep b0 s) : Keep b0 (syncOutRun s) := by
  unfold syncOutRun
  try dsimp only
  repeat' first | (with_reducible assumption) | (with_reducible apply keep_ite) | split | (dsimp only) | (with_reducible apply keep_mk)

theorem keep_refLossRun {b0 : State} (s : State) (hk : Keep b0 s) : Keep b0 (refLossRun s) := by
  unfold refLossRun
  try dsimp only
  repeat' first
      | (with_reducible assumption) | (with_reducible apply keep_raiseEv) | (with_reducible apply keep_setF) | (with_reducible apply keep_ite) | split | (dsimp only)
      | (with_reducible apply keep_mk)

theorem keep_refBackRun {b0 : State} (s : State) (hk : Keep b0 s) : Keep b0 (refBackRun s) := by
  unfold refBackRun
  try dsimp only
  repeat' first | (with_reducible assumption) | (with_reducible apply keep_setF) | (with_reducible apply keep_ite) | split | (dsimp only) | (with_reducible apply keep_mk)

theorem keep_vxeQueueStart {b0 : State} (s : State) (c : Nat) (hk : Keep b0 s) : Keep b0 (vxeQueueStart s c) := by
  unfold vxeQueueStart
  try dsimp only
  repeat' first
      | (with_reducible assumption) | (with_reducible apply keep_modCore) | (with_reducible apply keep_vxeStart) | (with_reducible apply keep_ite) | split
      

end Sys2Proof.Machine
end

