-- ==== Sys2Proof/WellFormed.lean ====
section
/-! DEFINITION. What a command of the table may carry: the operand values that the spec gives its row. The machine's meanings take any operands; a term that is
not well formed is no command of the block's interface. -/

namespace Sys2Proof

/-- The stall reasons for which an item can be late (R203, Table 08-4). -/
def elastic : List Nat := [3, 4, 5, 6, 7, 8, 9, 11]

/-- The regions that have a PLL; the always-on region 36 has none (R283). -/
def hasPll (r : RegionId) : Bool := decide (r.val < 36)

/-- Whether a die is a neighbour of another (Table 00-3): dies 0 and 3 face dies 1 and 2. -/
def nextTo (d n : DieId) : Bool := if d.val == 0 || d.val == 3 then n.val == 1 || n.val == 2 else n.val == 0 || n.val == 3

/-- Junction sensors stand in regions 0 to 35 (R453). -/
def Sensor.wf : Sensor → Bool
  | .junction r => hasPll r
  | .firnCase _ => true

/-- The offsets of DBG_V, DBG_S and DBG_A in a core's block (Table 21-5). -/
def debugReg (o : Nat) : Bool :=
  (decide (0x2800 ≤ o) && decide (o < 0x2C00)) || (decide (0x3000 ≤ o) && decide (o < 0x3800) && decide (o % 0x200 < 0x140))

/-- A well-formed command. Operands whose type already bounds them need no check. -/
def Instr.wf : Instr → Bool
  | .nop _ => true
  | .loop _ => true
  | .endl _ => true
  | .jmp _ => true
  | .aadd _ => true
  | .yieldW _ => true
  | .halt _ => true
  | .sldcfg _ => true
  | .sldgo _ => true
  | .mxcfg _ => true
  | .mxgo _ => true
  | .swrcfg _ => true
  | .swrgo _ => true
  | .vadd _ => true
  | .vsub _ => true
  | .vmul _ => true
  | .vfma _ => true
  | .vmax _ => true
  | .vmin _ => true
  | .vabs _ => true
  | .vneg _ => true
  | .vcmp _ => true
  | .vsel _ => true
  | .vexp _ => true
  | .vlog _ => true
  | .vrcp _ => true
  | .vrsq _ => true
  | .vred _ => true
  | .vcvt _ => true
  | .vstat _ => true
  | .vstfin _ => true
  | .vnorm _ => true
  | .vperm _ => true
  | .vshuf _ => true
  | .vpack _ => true
  | .vunpk _ => true
  | .vget _ => true
  | .vsetvl _ => true
  | .vupdsr _ => true
  | .waitc _ => true
  | .sigc _ => true
  | .lfence _ => true
  | .mircommit _ => true
  | .send _ => true
  | .recv _ => true
  | .strmarm _ => true
  | .tileRowLoad _ => true
  | .tileReady _ => true
  | .weightColumnEnter _ => true
  | .checkColumnInject _ => true
  | .abftCheck _ => true
  | .drainColumnEmit _ => true
  | .mxeOpComplete _ => true
  | .passThroughItemRead _ => true
  | .vxeQueueStart _ => true
  | .swrWritePerformed _ => true
  | .floeStallBegin _ _ reason => decide (reason.toNat ∈ elastic)
  | .floeStallEnd _ _ => true
  | .throttleHold _ => true
  | .stallTimeout _ _ => true
  | .quiescenceComplete _ => true
  | .switchComplete _ => true
  | .idleCoreSelect _ => true
  | .signalApply _ => true
  | .messageArrive _ _ _ _ => true
  | .messageReturn _ _ => true
  | .creditReturn _ _ => true
  | .descWaitComplete _ _ => true
  | .descRequestIssue _ _ => true
  | .descDataWrite _ _ => true
  | .descComplete _ _ => true
  | .fenceRelease _ _ => true
  | .gather _ _ => true
  | .gatherSum _ _ => true
  | .kvFetch _ _ => true
  | .expandSparse _ _ => true
  | .expandCodebook _ _ => true
  | .expandSparseCodebook _ _ => true
  | .firnRequestEnter _ _ _ => true
  | .firnReadReturn _ _ _ => true
  | .firnWritePerformed _ _ _ => true
  | .readModifyWrite _ _ _ => true
  | .refreshSlot _ => true
  | .refreshRegimeChange _ _ => true
  | .selfRefreshExit _ => true
  | .firnInitDone _ => true
  | .packetInject _ _ _ _ _ _ => true
  | .packetSwitchEnter _ => true
  | .turnBufferRelease _ => true
  | .turnHoldRelease _ => true
  | .packetDeliver _ _ => true
  | .wheelHold _ => true
  | .wheelStart die neighbour _ => (match neighbour with | none => true | some n => nextTo die n)
  | .droopStretch region _ => hasPll region
  | .crossingAlign _ _ => true
  | .pllNChange region => hasPll region
  | .marginWarn _ _ => true
  | .autostep _ _ => true
  | .refloss => true
  | .refclkReturn => true
  | .tbSyncInEdge => true
  | .timeExchange => true
  | .syncLost => true
  | .tbAlarmFire => true
  | .tbSyncOutPulse => true
  | .pwrReqRun _ => true
  | .pwrReqIdle _ => true
  | .pwrReqSleep _ => true
  | .pwrReqDeep _ => true
  | .pwrReqOff _ => true
  | .idleClusterGate _ => true
  | .gatedClusterAccess _ => true
  | .sleepEntryComplete => true
  | .deepEntryComplete => true
  | .offEntry => true
  | .wakeDetect _ => true
  | .railSettled _ _ => true
  | .regionPowerUp region => hasPll region
  | .pllLock region => hasPll region
  | .wakeComplete => true
  | .activityRampStep _ => true
  | .powerLimiterSample _ => true
  | .thermalLevelUpdate _ _ _ _ => true
  | .brownout _ _ => true
  | .ivrLpExit _ => true
  | .dvfsTargetWrite _ _ => true
  | .settleTimeout _ => true
  | .padRelease _ => true
  | .thermtrip sensor _ => sensor.wf
  | .thermalWarn sensor _ => sensor.wf
  | .mainPowerLoss => true
  | .mainSuppliesPresent => true
  | .vauxPowerUp _ _ => true
  | .vauxLoss => true
  | .rstFloe _ _ => true
  | .rstCore _ _ => true
  | .rstCluster _ _ => true
  | .rstDie _ _ => true
  | .rstPackage _ _ => true
  | .resetComplete => true
  | .perstN => true
  | .functionLevelReset => true
  | .hostLinkTrain rate width _ => decide (3 ≤ rate.toNat) && decide (rate.toNat ≤ 5) && decide (width.toNat ∈ [1, 4, 8, 16])
  | .hostLinkLoss => true
  | .busMasterEnable _ => true
  | .ctlbarBadAccess _ offset size => !((size == 4 || size == 8) && offset.toNat % size == 0)
  | .firnbarRead _ len => decide (0 < len)
  | .firnbarWrite _ data => decide (data ≠ [])
  | .hringPoll _ entries => (match entries with | none => true | some es => es.all fun ws => ws.length == 8)
  | .hringEnable _ => true
  | .hringDisable _ => true
  | .hostNop => true
  | .move => true
  | .load rd => (match rd with | .hostError => true | .content _ _ map => (match map with | none => true | some l => l.length == 32))
  | .regw => true
  | .signalCommand => true
  | .power => true
  | .closeCommand => true
  | .moverComplete _ _ => true
  | .loadComplete => true
  | .hostIrqEnWrite _ _ => true
  | .sessReq _ _ => true
  | .sessSubmit _ => true
  | .sessClose _ => true
  | .lockoutExpiry => true
  | .provision _ => true
  | .provisionDone => true
  | .dbgUnlock _ => true
  | .dbgLock _ => true
  | .lifecycleRelease _ => true
  | .bootRomRun _ => true
  | .bootPushStart _ => true
  | .bootPushData _ _ => true
  | .bootPushDone _ => true
  | .attestReq _ => true
  | .attestSignDone => true
  | .fabPortEnable _ _ => true
  | .fabPortDisable _ _ => true
  | .trainingDone _ _ _ _ _ _ => true
  | .trainingTimeout _ => true
  | .lpExit _ => true
  | .fabWakeSend _ _ => true
  | .flitReceive _ flit => flit.length == 256
  | .linkDown _ _ => true
  | .ethFrameReceive _ addresses body fcs => addresses.length == 12 && decide (body.length ≤ 2062) && fcs.length == 4
  | .rtoExpiry _ => true
  | .write _ _ => true
  | .read _ _ => true
  | .readData _ _ => true
  | .ack _ _ => true
  | .error _ _ => true
  | .msg _ _ => true
  | .credit _ _ => true
  | .fabricSignal _ _ => true
  | .timeReq _ _ => true
  | .timeRsp _ _ _ _ _ => true
  | .wakePacket _ => true
  | .delta _ => true
  | .commit _ => true
  | .commitApply => true
  | .commitAck _ => true
  | .trackerTimeout _ => true
  | .mirCtlWrite _ _ _ => true
  | .mirrorLag => true
  | .ccRun _ _ => true
  | .ccReset _ _ => true
  | .ccSig _ _ => true
  | .ccHostirq _ _ => true
  | .ccTimerInterrupt _ => true
  | .ccExternalInterrupt _ => true
  | .ccRemoteStore _ _ data => decide (data ≠ []) && decide (data.length ≤ 8)
  | .ccRemoteLoad _ _ len => decide (0 < len) && decide (len ≤ 8)
  | .ccStoreAccess _ _ len data => (match data with | none => decide (0 < len) && decide (len ≤ 8) | some bs => decide (bs ≠ []) && decide (bs.length ≤ 8))
  | .ownerProgramException _ _ _ => true
  | .srvRequestPoll => true
  | .servingStep tokens => decide (tokens.length ≤ 64)
  | .sclRoll _ _ => true
  | .monClose _ _ => true
  | .mlogRelease _ _ => true
  | .ledgerSnapshot => true
  | .trcEnableWrite _ _ _ => true
  | .trcBufWrite _ _ _ => true
  | .trcMark _ _ _ => true
  | .tracePacketWrite _ _ _ => true
  | .bypass => true
  | .idcode => true
  | .samplePreload _ => true
  | .extest => true
  | .clamp => true
  | .highz => true
  | .extestPulse => true
  | .extestTrain => true
  | .dbgReg _ => true
  | .trstN => true
  | .smbusMctpRequest _ => true
  | .smbusArp _ => true
  | .taskStart _ _ _ => true
  | .taskClear _ _ _ => true
  | .floeStart _ _ _ => true
  | .floeClear _ _ _ => true
  | .floeHold _ _ _ _ => true
  | .floeDefWrite _ _ _ _ => true
  | .coreCtlWrite _ _ _ => true
  | .ctrAdvance _ _ _ => true
  | .ctrValueWrite _ _ _ _ => true
  | .ichClose _ _ _ => true
  | .ichReopenKeep _ _ _ => true
  | .ichReopenFlush _ _ _ => true
  | .descTemplateWrite _ _ _ _ _ => true
  | .firnMapWrite _ _ _ => true
  | .firnRefreshWrite _ _ _ => true
  | .tbValueWrite _ _ => true
  | .tbLowRead _ => true
  | .legacyWrite _ _ _ => true
  | .pkgIdWrite _ _ => true
  | .debugRegisterWrite _ _ offset _ wide => offset.toNat % (if wide then 8 else 4) == 0 && debugReg offset.toNat
  | .registerWrite _ offset wide _ => offset.toNat % (if wide then 8 else 4) == 0
  | .unlistedOpcode _ => true
  | .testLogicReset => true
  | .peerLp _ _ => true
  | .msixUnmask _ => true

end Sys2Proof
end

