-- ==== Sys2Proof/Tests/Slice0.lean ====
section
/-! SUPPORT. Tests of the model: an ill-formed command for each check, native words written out from Table 06-1, and for every statement with hypotheses a concrete
state and operands that meet them together. -/

namespace Sys2Proof.Tests

-- one theorem after the other: each kernel check waits for the one before it, and a thread for each would fill the memory
set_option Elab.async false

open Sys2Proof Sys2Proof.Machine Sys2Proof.Safety

-- small states -------------------------------------------------------------------------------------------------------------

/-- The state after reset with VAUX and the main supplies present. -/
def up : State := { State.reset with pwr := { vaux := true, supplies := true } }
/-- Registers written, as offset and value. -/
def withR (l : List (Nat × Nat)) (s : State) : State := l.foldl (fun s p => setR s p.1 (BitVec.ofNat 32 p.2)) s
/-- Regions powered with their PLLs locked, and their crossings aligned or not. -/
def litX (x : Nat) (l : List Nat) (s : State) : State :=
  l.foldl (fun s r => setF (setRegion s r { regionOf s r with powered := true, xlat := x }) (rCLK_STAT r) 6 1 1) s
def lit (l : List Nat) (s : State) : State := litX 4 l s
/-- Cluster 0 and the service region of die 0 run. -/
def base : State := lit [0, 32] up
/-- Core 0 runs slot 0 in floe 0, which is in floe cycle 9, at index 0 of its store, which holds the words of a list. -/
def runs (ws : List Nat) : State :=
  modCore (withR [(rOVL_VALID 0, 1), (rFLOE_DEF 0 0, 0x10001), (rTASK_STAT 0 0, 2), (rFLOE_CYC 0 0, 9)] base) 0 fun k =>
    { k with istore := (List.range ws.length).map fun i => (i, BitVec.ofNat 64 (ws.getD i 0)) }
/-- A HALT with D = 1, which no group takes in. -/
def wHalt : Nat := 0x0106_0000_0000_0000
/-- Core 0 at a group of the one word w. -/
def at1 (w : Nat) : State := runs [w, wHalt]
/-- A format-V word with D = 1, by its fields of Table 06-1. -/
def vw (op vd va vb vc fmt sx scl fn : Nat) : Nat :=
  2 ^ 56 + op * 2 ^ 48 + vd * 2 ^ 42 + va * 2 ^ 36 + vb * 2 ^ 30 + vc * 2 ^ 24 + fmt * 2 ^ 19 + sx * 2 ^ 14 + scl * 2 ^ 12 + fn
/-- Any other word with D = 1: its opcode and its bits [47:0]. -/
def ow (op rest : Nat) : Nat := 2 ^ 56 + op * 2 ^ 48 + rest
/-- Vector registers of core 0 written. -/
def withV (l : List (Nat × Nat)) (s : State) : State := l.foldl (fun s p => setVreg s 0 p.1 (BitVec.ofNat 8192 p.2)) s
/-- Scalar registers of slot 0 of core 0 written. -/
def withS (l : List (Nat × Nat)) (s : State) : State := l.foldl (fun s p => setSreg s 0 0 p.1 (BitVec.ofNat 64 p.2)) s
/-- The vector length of slot 0 of core 0. -/
def vlen (n : Nat) (s : State) : State := modSlot s 0 0 fun x => { x with vl := n }

-- statements about native words (O5 to O18) -------------------------------------------------------------------------------------

def wAadd : Nat := ow 0x04 (3 * 2 ^ 44 + 2 * 2 ^ 40 + 0xFFFF)
theorem wit_nop : Issues (at1 (ow 0 0)) 0 0 0 (ow 0 0) ∧ wOp (ow 0 0) = .nop := by unfold Issues; decide +kernel
theorem wit_jmp : Issues (at1 (ow 0x03 8191)) 0 0 0 (ow 0x03 8191) ∧ wOp (ow 0x03 8191) = .jmp := by unfold Issues; decide +kernel
/-- LOOP to index 1 with the count of s0. -/
def wLoop : Nat := ow 0x01 (2 ^ 32)
def sLoop (n : Nat) : State := withS [(0, n)] (runs [wLoop, ow 0x02 0])
theorem wit_loop_zero : Issues (sLoop 0) 0 0 0 wLoop ∧ wOp wLoop = .loop ∧ 0 = (sreg (sLoop 0) 0 0 (loopSk wLoop)).toNat % 2 ^ 24 := by
  unfold Issues; decide +kernel
theorem wit_loop_counts : Issues (sLoop (2 ^ 24 - 1)) 0 0 0 wLoop ∧ (2 ^ 24 - 1 = (sreg (sLoop (2 ^ 24 - 1)) 0 0 (loopSk wLoop)).toNat % 2 ^ 24) := by
  unfold Issues; decide +kernel
def sEndl (n : Nat) : State := modSlot (runs [ow 0x02 0]) 0 0 fun x => { x with loops := [⟨0, 0, n⟩] }
theorem wit_endl_again : Issues (sEndl 2) 0 0 0 (ow 0x02 0) ∧ (slotOf (sEndl 2) 0 0).loops = [⟨0, 0, 2⟩] ∧ 1 < (⟨0, 0, 2⟩ : LoopSt).left := by
  unfold Issues; decide +kernel
theorem wit_endl_last : Issues (sEndl 1) 0 0 0 (ow 0x02 0) ∧ (slotOf (sEndl 1) 0 0).loops = [⟨0, 0, 1⟩] ∧ (⟨0, 0, 1⟩ : LoopSt).left ≤ 1 := by
  unfold Issues; decide +kernel
theorem wit_aadd : Issues (at1 wAadd) 0 0 0 wAadd ∧ wOp wAadd = .aadd ∧ aaddXsrc wAadd = 0 := by unfold Issues; decide +kernel

/-- SLDCFG, MXCFG and SWRCFG of register 1 with an immediate. -/
def wCfg (op : Nat) : Nat := ow op (2 ^ 40 + 5)
theorem wit_sldcfg : Issues (at1 (wCfg 0x10)) 0 0 0 (wCfg 0x10) ∧ wOp (wCfg 0x10) = .sldcfg := by unfold Issues; decide +kernel
theorem wit_mxcfg : Issues (at1 (wCfg 0x20)) 0 0 0 (wCfg 0x20) ∧ wOp (wCfg 0x20) = .mxcfg := by unfold Issues; decide +kernel
theorem wit_swrcfg : Issues (at1 (wCfg 0x30)) 0 0 0 (wCfg 0x30) ∧ wOp (wCfg 0x30) = .swrcfg := by unfold Issues; decide +kernel
/-- A tile transfer of BF16 with one row of one tile. -/
def wTile : Nat := ow 0x11 (1 * 2 ^ 42)
theorem wit_sldgo_tile : Issues (at1 wTile) 0 0 0 wTile ∧ wOp wTile = .sldgo ∧ sldKind wTile = 0 := by unfold Issues; decide +kernel
/-- A pass-through, and an SWR write, of one element. -/
def sGen (w : Nat) : State :=
  [(1, 0x11, 1), (1, 0x12, 1), (1, 0x13, 1), (3, 0, 0), (3, 4, 1), (3, 5, 1), (3, 6, 1)].foldl (fun s p => setStag s 0 p.1 p.2.1 (BitVec.ofNat 32 p.2.2)) (at1 w)
def wPass : Nat := ow 0x11 (2 ^ 47)
theorem wit_sldgo_pass : Issues (at1 wPass) 0 0 0 wPass ∧ wOp wPass = .sldgo ∧ sldKind wPass = 1 := by unfold Issues; decide +kernel
def wSwrgo : Nat := ow 0x31 0
theorem wit_swrgo : Issues (at1 wSwrgo) 0 0 0 wSwrgo ∧ wOp wSwrgo = .swrgo := by unfold Issues; decide +kernel
def wMxgo : Nat := ow 0x21 0
theorem wit_mxgo : Issues (at1 wMxgo) 0 0 0 wMxgo ∧ wOp wMxgo = .mxgo := by unfold Issues; decide +kernel

def wYield : Nat := ow 0x05 0
/-- The same with TSW = 1 and slot 2 READY. -/
def sTsw (w : Nat) : State := withR [(rCORE_CTL 0, 1), (rTASK_STAT 0 2, 1)] (at1 w)
theorem wit_yield_on : Issues (at1 wYield) 0 0 0 wYield ∧ wOp wYield = .yieldW ∧ mates (at1 wYield) 0 0 = [] ∧ tsw (at1 wYield) 0 = false := by
  unfold Issues; decide +kernel
theorem wit_yield_switch : Issues (sTsw wYield) 0 0 0 wYield ∧ mates (sTsw wYield) 0 0 = [] ∧ tsw (sTsw wYield) 0 = true ∧ chooseReady (sTsw wYield) 0 0 = some 2 := by
  unfold Issues; decide +kernel
/-- HALT where every end belongs to slot 3, so that none closes with slot 0. -/
def sHalt (s : State) : State := withR ((List.range 16).map fun e => (rICH_CFG 0 e, 0xE000)) s
theorem wit_halt : Issues (sHalt (sTsw wHalt)) 0 0 0 wHalt ∧ wOp wHalt = .halt ∧ ctrsOf (sHalt (sTsw wHalt)) 0 0 = [] ∧ (slotOf (sHalt (sTsw wHalt)) 0 0).resv = none ∧
    (slotOf (sHalt (sTsw wHalt)) 0 0).mres = none ∧ chooseReady (sHalt (sTsw wHalt)) 0 0 = some 2 ∧
    (∀ e, e < 16 → getF (sHalt (sTsw wHalt)) (rICH_CFG 0 e) 13 2 = 0 →
      getB (sHalt (sTsw wHalt)) (rICH_REPLY 0 e) 0 = false ∧ getB (sHalt (sTsw wHalt)) (rICH_CFG 0 e) 15 = false) := by unfold Issues; decide +kernel
theorem wit_halt_last : Issues (sHalt (at1 wHalt)) 0 0 0 wHalt ∧ ctrsOf (sHalt (at1 wHalt)) 0 0 = [] ∧ tsw (sHalt (at1 wHalt)) 0 = false := by
  unfold Issues; decide +kernel

/-- VADD and VFMA of FP32 v1, v2 (and v3) into v0 or FLO, over two elements. -/
def wAdd : Nat := vw 0x40 0 1 2 0 0 0 0 0
def wFmaFlo : Nat := vw 0x43 32 1 2 3 0 0 0 0
def vregs (s : State) : State := vlen 2 (withV [(0, 7), (1, 0x40000000_3F800000), (2, 0x40400000_40000000), (3, 0x3)] s)
theorem wit_vadd : Issues (vregs (at1 wAdd)) 0 0 0 wAdd ∧ Starts (vregs (at1 wAdd)) 0 0 wAdd 2 ∧ (.vadd, .vadd 0) ∈ arithWords 0 ∧ wOp wAdd = .vadd := by
  unfold Issues Starts StartsAt; decide +kernel
theorem wit_vfma_flo : Issues (vregs (at1 wFmaFlo)) 0 0 0 wFmaFlo ∧ Starts (vregs (at1 wFmaFlo)) 0 0 wFmaFlo 2 ∧ wOp wFmaFlo = .vfma ∧ vVD wFmaFlo = 32 := by
  unfold Issues Starts StartsAt; decide +kernel
/-- VCMP GT and VSEL by the mask v3. -/
def wCmp : Nat := vw 0x48 4 1 2 0 0 0 0 2
def wSel : Nat := vw 0x49 0 1 2 3 0 0 0 0
def wSelFlo : Nat := vw 0x49 32 1 2 3 0 0 0 0
theorem wit_vcmp : Issues (vregs (at1 wCmp)) 0 0 0 wCmp ∧ Starts (vregs (at1 wCmp)) 0 0 wCmp 2 ∧ wOp wCmp = .vcmp := by unfold Issues Starts StartsAt; decide +kernel
theorem wit_vsel : Issues (vregs (at1 wSel)) 0 0 0 wSel ∧ Starts (vregs (at1 wSel)) 0 0 wSel 2 ∧ wOp wSel = .vsel ∧ vVD wSel ≠ 32 := by
  unfold Issues Starts StartsAt; decide +kernel
theorem wit_vsel_flo : Issues (vregs (at1 wSelFlo)) 0 0 0 wSelFlo ∧ Starts (vregs (at1 wSelFlo)) 0 0 wSelFlo 2 ∧ vVD wSelFlo = 32 := by
  unfold Issues Starts StartsAt; decide +kernel
/-- VRED SUM, VSTAT, VSTFIN and VGET of element 1 into s5. -/
def wRed : Nat := vw 0x4E 0 1 0 0 0 5 0 0
def wStat : Nat := vw 0x50 0 1 0 0 0 5 0 0
def wStfin : Nat := vw 0x51 0 6 7 0 0 5 0 1
def wGet : Nat := vw 0x57 0 1 0 0 0 5 0 1
theorem wit_vred : Issues (vregs (at1 wRed)) 0 0 0 wRed ∧ StartsAt (vregs (at1 wRed)) 0 0 wRed 2 ∧ wOp wRed = .vred := by unfold Issues StartsAt; decide +kernel
theorem wit_vstat : Issues (vregs (at1 wStat)) 0 0 0 wStat ∧ StartsAt (vregs (at1 wStat)) 0 0 wStat 2 ∧ wOp wStat = .vstat := by unfold Issues StartsAt; decide +kernel
theorem wit_vstfin : Issues (vregs (at1 wStfin)) 0 0 0 wStfin ∧ StartsAt (vregs (at1 wStfin)) 0 0 wStfin 2 ∧ wOp wStfin = .vstfin := by unfold Issues StartsAt; decide +kernel
theorem wit_vget : Issues (vregs (at1 wGet)) 0 0 0 wGet ∧ StartsAt (vregs (at1 wGet)) 0 0 wGet 2 ∧ wOp wGet = .vget := by unfold Issues StartsAt; decide +kernel
/-- VPERM, VSHUF REV and ROT, VPACK, VUNPK. -/
def wPerm : Nat := vw 0x53 0 1 0 3 0 0 0 0
def wRev : Nat := vw 0x54 0 1 0 0 0 0 0 0
def wRot : Nat := vw 0x54 0 1 0 0 0 5 0 1
def wPack : Nat := vw 0x55 0 1 0 3 0 5 0 0
def wUnpk : Nat := vw 0x56 0 1 0 3 0 0 0 0
theorem wit_vperm : Issues (vregs (at1 wPerm)) 0 0 0 wPerm ∧ Starts (vregs (at1 wPerm)) 0 0 wPerm 2 ∧ wOp wPerm = .vperm := by unfold Issues Starts StartsAt; decide +kernel
theorem wit_vshuf_rev : Issues (vregs (at1 wRev)) 0 0 0 wRev ∧ Starts (vregs (at1 wRev)) 0 0 wRev 2 ∧ wOp wRev = .vshuf ∧ shufBad (fnPat wRev) 2 = false ∧ fnPat wRev = 0 := by
  unfold Issues Starts StartsAt; decide +kernel
theorem wit_vshuf_rot : Issues (vregs (at1 wRot)) 0 0 0 wRot ∧ Starts (vregs (at1 wRot)) 0 0 wRot 2 ∧ shufBad (fnPat wRot) 2 = false ∧ fnPat wRot = 1 := by
  unfold Issues Starts StartsAt; decide +kernel
theorem wit_vpack : Issues (vregs (at1 wPack)) 0 0 0 wPack ∧ Starts (vregs (at1 wPack)) 0 0 wPack 2 ∧ wOp wPack = .vpack := by unfold Issues Starts StartsAt; decide +kernel
theorem wit_vunpk : Issues (vregs (at1 wUnpk)) 0 0 0 wUnpk ∧ Starts (vregs (at1 wUnpk)) 0 0 wUnpk 2 ∧ wOp wUnpk = .vunpk := by unfold Issues Starts StartsAt; decide +kernel
/-- VCVT from FP32 to BF16, to MXFP8 and to the flowline; VNORM; VUPDSR of BF16 by FP32; VSETVL 7. -/
def wCvt : Nat := vw 0x4F 0 1 0 0 0 0 0 1
def wCvtMx : Nat := vw 0x4F 8 1 0 0 0 0 0 12
def wCvtFlo : Nat := vw 0x4F 32 1 0 0 0 0 0 1
def wNorm : Nat := vw 0x52 0 1 0 0 0 5 0 0
def wUpd : Nat := vw 0x59 0 1 2 0 1 5 0 0
def wSetvl : Nat := vw 0x58 0 0 0 0 0 0 0 7
theorem wit_vcvt : Issues (vregs (at1 wCvt)) 0 0 0 wCvt ∧ Starts (vregs (at1 wCvt)) 0 0 wCvt 2 ∧ wOp wCvt = .vcvt ∧ fmtIsMx (fnDfmt wCvt) = false ∧ vVD wCvt ≠ 32 := by
  unfold Issues Starts StartsAt; decide +kernel
theorem wit_vcvt_mx : Issues (vregs (at1 wCvtMx)) 0 0 0 wCvtMx ∧ Starts (vregs (at1 wCvtMx)) 0 0 wCvtMx 2 ∧ fmtIsMx (fnDfmt wCvtMx) = true ∧ fnSsrc wCvtMx = 0 := by
  unfold Issues Starts StartsAt; decide +kernel
theorem wit_vcvt_flo : Issues (vregs (at1 wCvtFlo)) 0 0 0 wCvtFlo ∧ Starts (vregs (at1 wCvtFlo)) 0 0 wCvtFlo 2 ∧ vVD wCvtFlo = 32 := by
  unfold Issues Starts StartsAt; decide +kernel
theorem wit_vnorm : Issues (vregs (at1 wNorm)) 0 0 0 wNorm ∧ Starts (vregs (at1 wNorm)) 0 0 wNorm 2 ∧ wOp wNorm = .vnorm ∧ vVD wNorm ≠ 32 := by
  unfold Issues Starts StartsAt; decide +kernel
theorem wit_vupdsr : Issues (vregs (at1 wUpd)) 0 0 0 wUpd ∧ Starts (vregs (at1 wUpd)) 0 0 wUpd 2 ∧ wOp wUpd = .vupdsr ∧ fnMon wUpd = 0 ∧
    getB (vregs (at1 wUpd)) (rSCL_CTL 0) 0 = false := by unfold Issues Starts StartsAt; decide +kernel
theorem wit_vsetvl : Issues (at1 wSetvl) 0 0 0 wSetvl ∧ wOp wSetvl = .vsetvl ∧ (coreOf (at1 wSetvl) 0).vxq = [] ∧ vxeReady (at1 wSetvl) 0 0 wSetvl = true := by
  unfold Issues; decide +kernel
/-- A VADD and a VUPDSR behind a word that waits, the latter with automatic rolls on, and one whose flowline source is empty. -/
def ent (w : Nat) : VxEnt := { slot := 0, idx := 0, word := BitVec.ofNat 64 w, due := 0, sx0 := 0, sx1 := 0, scale := 0 }
def queue (l : List VxEnt) (s : State) : State := modCore s 0 fun k => { k with vxq := l }
def sQueued : State := queue [ent wAdd] (at1 wAdd)
def sQueuedUpd : State := vregs (withR [(rSCL_CTL 0, 1)] (queue [ent wAdd] (at1 wUpd)))
def wAddFli : Nat := vw 0x40 0 32 2 0 0 0 0 0
theorem wit_vector_queued : Issues sQueued 0 0 0 wAdd ∧ (.vadd, .vadd 0) ∈ vectorWords 0 ∧ wOp wAdd = .vadd ∧ (coreOf sQueued 0).vxq ≠ [] := by unfold Issues; decide +kernel
theorem wit_update_queued : Issues sQueuedUpd 0 0 0 wUpd ∧ (.vupdsr, .vupdsr 0) ∈ vectorWords 0 ∧ wOp wUpd = .vupdsr ∧ (coreOf sQueuedUpd 0).vxq ≠ [] ∧
    getB sQueuedUpd (rSCL_CTL 0) 0 = true ∧ effLen (vlNow sQueuedUpd 0 0) wUpd ≠ 0 := by unfold Issues; decide +kernel
theorem wit_vector_no_elements : Issues (at1 wAddFli) 0 0 0 wAddFli ∧ wOp wAddFli = .vadd ∧ vxeReady (at1 wAddFli) 0 0 wAddFli = false := by unfold Issues; decide +kernel
theorem wit_vector_length_zero : Issues (vlen 0 (at1 wAdd)) 0 0 0 wAdd ∧ StartsAt (vlen 0 (at1 wAdd)) 0 0 wAdd 0 ∧ Op.vadd ∉ [Op.vsetvl, .vstfin, .vget] := by
  unfold Issues StartsAt; decide +kernel

/-- WAITC of 3 units of c47 that holds 3; SIGC of 1 unit to c0 of core 0 by LOCAL, of core 1, and of core 255 in another cluster. -/
def wWaitc : Nat := ow 0x60 (47 * 2 ^ 42 + 3)
def wSigc : Nat := ow 0x61 (2 ^ 41 + 1)
def wSigcTo : Nat := ow 0x61 (1 * 2 ^ 33 + 1)
def wSigcFar : Nat := ow 0x61 (255 * 2 ^ 33 + 1)
def sWaitc : State := withR [(rCTR_VAL 0 47, 3)] (at1 wWaitc)
theorem wit_waitc : Issues sWaitc 0 0 0 wWaitc ∧ wOp wWaitc = .waitc ∧ (slotOf sWaitc 0 0).resv = none := by unfold Issues; decide +kernel
theorem wit_sigc : Issues (at1 wSigc) 0 0 0 wSigc ∧ wOp wSigc = .sigc ∧ sigLocal wSigc = 1 := by unfold Issues; decide +kernel
theorem wit_sigc_to : Issues (at1 wSigcTo) 0 0 0 wSigcTo ∧ wOp wSigcTo = .sigc ∧ sigLocal wSigcTo = 0 ∧ sigCore wSigcTo / 8 = 0 := by unfold Issues; decide +kernel
theorem wit_sigc_far : Issues (at1 wSigcFar) 0 0 0 wSigcFar ∧ wOp wSigcFar = .sigc ∧ sigLocal wSigcFar = 0 ∧ sigCore wSigcFar / 8 ≠ 0 := by unfold Issues; decide +kernel
/-- LFENCE of c0; MIRCOMMIT of region 0 with the mirror off; STRMARM of descriptor 0, IDLE and active. -/
def wFence : Nat := ow 0x62 1
def wMirc : Nat := ow 0x63 1
def wArm : Nat := ow 0x72 0
def xfer (words : List Nat) : Xfer :=
  { id := 0, slot := 0, words := words.map (BitVec.ofNat 64), src := 0, dst := 0, phase := .moving, after := [], issued := 0, arrived := [], sent := 0, done := 0 }
/-- A template of 32 bytes from firn to the store, that signals c0 of core 0. -/
def tmplSig : List Nat := [2 ^ 12, 0, 0, 32, 0, 0, 0, 2 ^ 48]
def withX (x : Xfer) (s : State) : State := setDesc s 0 0 { active := some x }
def sArm : State := withR [(rDESC 0 0 + 24, 32)] (at1 wArm)
theorem wit_lfence : Issues (withX (xfer tmplSig) (at1 wFence)) 0 0 0 wFence ∧ wOp wFence = .lfence ∧
    ((slotXfers (withX (xfer tmplSig) (at1 wFence)) 0 0).filter fun x => namesCtr 0 x (fenceMask wFence)).map Xfer.id = [0] := by unfold Issues; decide +kernel
theorem wit_mircommit : Issues (at1 wMirc) 0 0 0 wMirc ∧ wOp wMirc = .mircommit ∧ (mirMode (at1 wMirc) ≠ 1 ∨ mirActive (at1 wMirc) = false) := by unfold Issues; decide +kernel
/-- The same on an active primary whose region 0 is active, with port 0 up. -/
def sActive : State := let s := withR [(rMIR_CTL, 0x10105), (rFAB_STAT 0, 0x10002)] (at1 wMirc); { s with mirror := { active := 1, layout := [(0, 2 ^ 48)] } }
theorem wit_mircommit_active : Issues sActive 0 0 0 wMirc ∧ mirMode sActive = 1 ∧ mirActive sActive = true := by unfold Issues; decide +kernel
theorem wit_strmarm : Issues sArm 0 0 0 wArm ∧ wOp wArm = .strmarm ∧ (descOf sArm 0 (armDesc wArm)).active = none := by unfold Issues; decide +kernel
theorem wit_strmarm_shadow : Issues (withX (xfer tmplSig) sArm) 0 0 0 wArm ∧ (descOf (withX (xfer tmplSig) sArm) 0 (armDesc wArm)).active = some (xfer tmplSig) := by
  unfold Issues; decide +kernel
/-- SEND of s2, s3 over channel 0 to end 0 of core 0, whose rank is above the slot's; RECV of end 0 into s8. -/
def wSend : Nat := ow 0x70 (2 * 2 ^ 31 + 2 * 2 ^ 28)
def sSend : State := withS [(2, 11), (3, 12)] (withR [(rOCH_CFG 0 0, 1 + 2 ^ 11), (rOCH_CRED 0 0, 1)] (at1 wSend))
theorem wit_send : Issues sSend 0 0 0 wSend ∧ wOp wSend = .send ∧ ochReply sSend 0 (sendOch wSend) = false ∧ ochRres sSend 0 (sendOch wSend) = false ∧
    ochPkg sSend 0 (sendOch wSend) = ownPkg sSend ∧ ochCore sSend 0 (sendOch wSend) / 8 = 0 := by unfold Issues; decide +kernel
/-- The same to core 255. -/
def sSendFar : State := withR [(rOCH_CFG 0 0, 1 + 2 ^ 11 + 255 * 2 ^ 23)] sSend
theorem wit_send_far : Issues sSendFar 0 0 0 wSend ∧ ochReply sSendFar 0 (sendOch wSend) = false ∧ ochRres sSendFar 0 (sendOch wSend) = false ∧
    ochPkg sSendFar 0 (sendOch wSend) = ownPkg sSendFar ∧ ochCore sSendFar 0 (sendOch wSend) / 8 ≠ 0 := by unfold Issues; decide +kernel
def wRecv : Nat := ow 0x71 (8 * 2 ^ 39)
/-- A message of one payload word to handler 0. -/
def msg1 : RingMsg := ⟨msgHeader 0 1 true false false false 1 0 0 1 0 :: BitVec.ofNat 64 99 :: List.replicate 6 0, 0, 0, none⟩
def sRecv (q : List VxEnt) : State := modCore (withR [(rHTAB 0 0 0, 2 ^ 14)] (at1 wRecv)) 0 fun k => { k with rings := [(0, [msg1])], vxq := q }
theorem wit_recv : ∀ q ∈ [[], [ent wAdd]], Issues (sRecv q) 0 0 0 wRecv ∧ wOp wRecv = .recv ∧ recvMsg (sRecv q) 0 0 (recvIch wRecv) = some msg1 ∧
    (∀ e ∈ (coreOf (sRecv q) 0).vxq, e.slot = 0) ∧ hdrRres (msg1.words.headD 0) = false ∧
    bits (handlerOf (sRecv q) 0 0 (msg1.words.headD 0)) 13 1 = 0 ∧ (hdrReq (msg1.words.headD 0) = true → hdrPkg (msg1.words.headD 0) = ownPkg (sRecv q)) := by
  unfold Issues; decide +kernel
/-- OP = FFH, which Table 06-2 does not list. -/
def wBad : Nat := ow 0xFF 0
theorem wit_unlisted : coreRuns (at1 wBad) 0 = true ∧ (coreOf (at1 wBad) 0).switch = none ∧ runningSlot (at1 wBad) 0 = some 0 ∧ floeFor (at1 wBad) 0 0 = some 0 ∧
    (at1 wBad).rstJob ≠ some (0, 0) ∧ groupDue (at1 wBad) 0 0 ≤ floeNow (at1 wBad) 0 0 ∧ floeHeld (at1 wBad) 0 0 = 0 ∧ mates (at1 wBad) 0 0 = [] ∧ wOp wBad = .bad ∧
    fetchGroup (at1 wBad) 0 0 = .words [(0, wBad)] ∧ getB (at1 wBad) (rILL_FAULT_INFO 0) 0 = false := by decide +kernel

/-- VCVT of INT32 in v1 to INT8 in v4: 200, and −5; and INT8 in v1 to INT32. -/
def wCvtInt : Nat := vw 0x4F 4 1 0 0 8 0 0 10
def wCvtWide : Nat := vw 0x4F 4 1 0 0 10 0 0 8
def vints (s : State) : State := vlen 2 (withV [(1, 0xFFFFFFFB_000000C8), (4, 0x7777)] s)
theorem wit_vcvt_int : ∀ w ∈ [wCvtInt, wCvtWide], wOp w = .vcvt ∧ fmtIsInt (vFMT w) = true ∧ fmtIsInt (fnDfmt w) = true ∧ vVA w ≠ 32 ∧ vVD w ≠ 32 := by
  decide +kernel
theorem wit_vcvt_int_issues : Issues (vints (at1 wCvtInt)) 0 0 0 wCvtInt ∧ Starts (vints (at1 wCvtInt)) 0 0 wCvtInt 2 := by unfold Issues Starts StartsAt; decide +kernel
-- statements about engines, floes and slots (O19 to O25) ------------------------------------------------------------------------------

/-- Core 0 in floe cycle 1000 with engine state of its own. -/
def eng (f : CoreSt → CoreSt) : State := modCore (withR [(rFLOE_CYC 0 0, 1000)] (at1 wHalt)) 0 f
/-- A tile transfer of BF16, of one tile of one row, of the first row of two, or of two tiles. -/
def txT (mt ntm1 row : Nat) : TileXfer := ⟨999, 0, [], 1, false, mt, 0, ntm1, 0, row⟩
def tx (mt row : Nat) : TileXfer := txT mt 0 row
def sTileNew : State := eng fun k => { k with tileq := [tx 1 0] }
def tlOne : Tile := ⟨0, 999, 1, false, 1, [⟨List.replicate 128 0, []⟩], false⟩
def sTileLast : State := eng fun k => { k with tileq := [tx 1 1], shadow := some tlOne }
def sTileNext : State := eng fun k => { k with tileq := [txT 1 1 1], shadow := some tlOne }
/-- Position 0 of row 0 is read, the others lie beyond the count of one. -/
def codes0 : List Nat := List.replicate 128 0
theorem wit_tile_first_row : (coreRuns sTileNew 0 = true ∧ (coreOf sTileNew 0).tileq = [tx 1 0] ∧ (coreOf sTileNew 0).shadow = none ∧ (tx 1 0).row = 0 ∧
    mayRun sTileNew 0 (tx 1 0).slot (tx 1 0).due = true ∧ fmtIsMx (tx 1 0).fmt = false ∧ (tx 1 0).row ≠ (tx 1 0).mt ∧
      pathFree sTileNew 0 0 = true ∧ pathFree sTileNew 0 3 = true) ∧
    gatherLoads ((List.range 128).map fun q => loadElem sTileNew 0 (tx 1 0) ((inReg (tx 1 0) 2 + 0) % 2 ^ 32) (128 * (0 + 0) + q)) = .ok codes0 :=
  ⟨by decide +kernel, by rfl⟩
theorem wit_tile_last_row : (coreRuns sTileLast 0 = true ∧ (coreOf sTileLast 0).tileq = [tx 1 1] ∧ (coreOf sTileLast 0).shadow = some tlOne ∧ tlOne.ready = false ∧
      tlOne.rows.length ≤ tlOne.mt ∧ mayRun sTileLast 0 (tx 1 1).slot (tx 1 1).due = true ∧ fmtIsMx (tx 1 1).fmt = false ∧
      (tx 1 1).row = (tx 1 1).mt ∧ (tx 1 1).tile = (tx 1 1).ntm1 ∧
      pathFree sTileLast 0 0 = true ∧ pathFree sTileLast 0 3 = true) ∧
    gatherLoads ((List.range 128).map fun q => loadElem sTileLast 0 (tx 1 1) ((inReg (tx 1 1) 2 + 1) % 2 ^ 32) (128 * (0 + 0) + q)) = .ok codes0 :=
  ⟨by decide +kernel, by rfl⟩
theorem wit_tile_next : (coreRuns sTileNext 0 = true ∧ (coreOf sTileNext 0).tileq = [txT 1 1 1] ∧ (coreOf sTileNext 0).shadow = some tlOne ∧
      mayRun sTileNext 0 (txT 1 1 1).slot (txT 1 1 1).due = true ∧ (txT 1 1 1).row = (txT 1 1 1).mt ∧ (txT 1 1 1).tile ≠ (txT 1 1 1).ntm1 ∧
      pathFree sTileNext 0 0 = true ∧ pathFree sTileNext 0 3 = true) ∧
    gatherLoads ((List.range 128).map fun q => loadElem sTileNext 0 (txT 1 1 1) ((inReg (txT 1 1 1) 2 + 1) % 2 ^ 32) (128 * (0 + 0) + q)) = .ok codes0 :=
  ⟨by decide +kernel, by rfl⟩
/-- An MXFP8 row of 128 elements with its four scale bytes. -/
def txMx : TileXfer := { tx 1 0 with fmt := 12 }
def sTileMx : State := eng fun k => { k with tileq := [txMx] }
theorem wit_tile_mx : (coreRuns sTileMx 0 = true ∧ (coreOf sTileMx 0).tileq = [txMx] ∧ (coreOf sTileMx 0).shadow = none ∧ txMx.row = 0 ∧
      mayRun sTileMx 0 txMx.slot txMx.due = true ∧ fmtIsMx txMx.fmt = true ∧ pathFree sTileMx 0 0 = true ∧ pathFree sTileMx 0 3 = true) ∧
    gatherLoads ((List.range 128).map fun q => loadElem sTileMx 0 txMx ((inReg txMx 2 + 0) % 2 ^ 32) (128 * (0 + 0) + q)) = .ok codes0 ∧
    gatherLoads ((List.range 4).map fun b => loadScale sTileMx 0 txMx ((inReg txMx 2 + 0) % 2 ^ 32) (128 * (0 + 0) + 32 * b)) = .ok [0, 127, 127, 127] :=
  ⟨by decide +kernel, by rfl, by rfl⟩
def sTileReady : State := eng fun k => { k with shadow := some { tlOne with mt := 0 } }
theorem wit_tile_ready : pathFree sTileReady 0 5 = true ∧ mayRun sTileReady 0 tlOne.slot tlOne.due = true ∧ coreRuns sTileReady 0 = true ∧ (coreOf sTileReady 0).shadow = some { tlOne with mt := 0 } ∧ ({ tlOne with mt := 0 } : Tile).mt < tlOne.rows.length := by
  decide +kernel

/-- An FP32 operation of one row, one pass and four columns, by its MODE, at a column. -/
def mxop (mode col : Nat) : MxOp :=
  { slot := 0, index := 0, word := 0, mode := BitVec.ofNat 32 mode, shape := BitVec.ofNat 32 (2 ^ 18 + 0x7F00), passes := 0, slots := 0, tol := 0x10, wt := 0, opseq := 1,
    supplied := 0, start := 100, col := col }
def tlF : Tile := ⟨0, 90, 0, false, 0, [⟨List.replicate 128 0x3F80_0000, []⟩], true⟩
def sMx (o : MxOp) : State := eng fun k => { k with mxq := [o], tile := some tlF, elemBuf := List.replicate 512 0x40 }
/-- The column that 512 bytes of 40H spell. -/
def colF : List FV := colValues (mxop 0 1) (List.replicate 512 0x40) []
theorem wit_weight_column : coreRuns (sMx (mxop 0 1)) 0 = true ∧ pathFree (sMx (mxop 0 1)) 0 1 = true ∧ (coreOf (sMx (mxop 0 1)) 0).mxq = [mxop 0 1] ∧ (mxop 0 1).entered = false ∧
    (coreOf (sMx (mxop 0 1)) 0).tile = some tlF ∧ opGroup (mxop 0 1) = 1 ∧ opAct (mxop 0 1) = 0 ∧ 0 < (mxop 0 1).col ∧ (mxop 0 1).col + 1 < opNt (mxop 0 1) ∧
    mayRun (sMx (mxop 0 1)) 0 (mxop 0 1).slot (colDue (mxop 0 1) (mxop 0 1).pass (mxop 0 1).col) = true ∧ (mxop 0 1).pass = 0 ∧ opCont (mxop 0 1) = false ∧
    accFree [mxop 0 1] 0 (mxop 0 1) = true ∧
    colBytes (mxop 0 1) ≤ (coreOf (sMx (mxop 0 1)) 0).elemBuf.length ∧
    colF = colValues (mxop 0 1) ((coreOf (sMx (mxop 0 1)) 0).elemBuf.take (colBytes (mxop 0 1)))
      (((mxop 0 1).passScales.drop (colScales (mxop 0 1) * (mxop 0 1).col)).take (colScales (mxop 0 1))) := by decide +kernel
/-- The same in its second pass, where the words hold no parity error. -/
def mxPass2 : MxOp := { mxop 0 1 with passes := 1, pass := 1 }
theorem wit_weight_column_later : pathFree (sMx mxPass2) 0 1 = true ∧ (coreOf (sMx mxPass2) 0).mxq = [mxPass2] ∧ mxPass2.pass ≠ 0 ∧ colParity (sMx mxPass2) 0 mxPass2 mxPass2.col = false ∧
    mayRun (sMx mxPass2) 0 mxPass2.slot (colDue mxPass2 mxPass2.pass mxPass2.col) = true ∧ opGroup mxPass2 = 1 ∧ mxPass2.col + 1 < opNt mxPass2 ∧
    colBytes mxPass2 ≤ (coreOf (sMx mxPass2) 0).elemBuf.length := by decide +kernel
/-- The same with checks on, at its check column, and with a comparison that is due. -/
def mxAct (n : Nat) : MxOp := mxop (2 ^ 24) n
def chk (obs ref : FV) : Check := ⟨0, 0, 0, 0, obs, ref, .fin false 1 0, 200⟩
def mxChk (k : Check) : MxOp := { mxAct 4 with checks := [k] }
theorem wit_check_column : coreRuns (sMx (mxAct 4)) 0 = true ∧ pathFree (sMx (mxAct 4)) 0 1 = true ∧ (coreOf (sMx (mxAct 4)) 0).mxq = [mxAct 4] ∧ (mxAct 4).entered = false ∧
    (coreOf (sMx (mxAct 4)) 0).tile = some tlF ∧ opAct (mxAct 4) ≠ 0 ∧ (mxAct 4).col = opNt (mxAct 4) ∧
    mayRun (sMx (mxAct 4)) 0 (mxAct 4).slot (checkColDue (mxAct 4) (mxAct 4).pass) = true := by decide +kernel
def chkPass : Check := chk (.fin false 1 0) (.fin false 1 0)
def chkSkip : Check := chk .nan (.fin false 1 0)
def chkFail : Check := chk (.fin false 8 0) (.fin false 1 0)
theorem wit_checks : ∀ p ∈ [(chkPass, some true), (chkSkip, none), (chkFail, some false)], coreRuns (sMx (mxChk p.1)) 0 = true ∧
    (coreOf (sMx (mxChk p.1)) 0).mxq = [mxChk p.1] ∧ (mxChk p.1).checks = [p.1] ∧ mayRun (sMx (mxChk p.1)) 0 (mxChk p.1).slot p.1.due = true ∧
    checkPass (mxChk p.1) p.1 = p.2 := by decide +kernel
/-- The same with DRAIN, when every column has entered, at its first column to leave and after its last. -/
def mxDrain (emit : Nat) : MxOp := { mxop (2 ^ 27) 4 with entered := true, emit := emit }
theorem wit_drain_column : coreRuns (sMx (mxDrain 0)) 0 = true ∧ pathFree (sMx (mxDrain 0)) 0 2 = true ∧ (coreOf (sMx (mxDrain 0)) 0).mxq = [mxDrain 0] ∧ opDrain (mxDrain 0) = true ∧
    (mxDrain 0).emit < opNt (mxDrain 0) ∧ (mxDrain 0).group = [] ∧ fmtIsMx (opOut (mxDrain 0)) = false ∧
    1 = min (opGroup (mxDrain 0)) (opNt (mxDrain 0) - (mxDrain 0).emit) ∧ columnDue (mxDrain 0) 0 1 = true ∧
    mayRun (sMx (mxDrain 0)) 0 (mxDrain 0).slot (leaveDue (mxDrain 0) 0) = true ∧ fliEarly (sMx (mxDrain 0)) 0 < 8 ∧ (mxDrain 0).poison = false ∧
    (∀ d, d < 1 → colParity (sMx (mxDrain 0)) 0 (mxDrain 0) ((mxDrain 0).emit + d) = false ∧ (mxDrain 0).emit + d ∉ (mxDrain 0).badCols) := by decide +kernel
theorem wit_mx_complete : coreRuns (sMx (mxDrain 4)) 0 = true ∧ (coreOf (sMx (mxDrain 4)) 0).mxq = [mxDrain 4] ∧ (mxDrain 4).entered = true ∧ (mxDrain 4).checks = [] ∧
    (mxDrain 4).emit = opNt (mxDrain 4) ∧ (mxDrain 4).group = [] ∧ opAmaxEn (mxDrain 4) = false ∧
    mayRun (sMx (mxDrain 4)) 0 (mxDrain 4).slot (opEnd (mxDrain 4)) = true := by decide +kernel
/-- The same to MXFP8: four columns, a group of their own, before they leave and when one column is left to leave. -/
def mxDrainMx (emit : Nat) (g : List (List Elem)) : MxOp := { mxDrain emit with mode := BitVec.ofNat 32 (2 ^ 27 + 12 * 2 ^ 16), group := g }
theorem wit_drain_mx : coreRuns (sMx (mxDrainMx 0 [])) 0 = true ∧ pathFree (sMx (mxDrainMx 0 [])) 0 2 = true ∧ opDrain (mxDrainMx 0 []) = true ∧ (mxDrainMx 0 []).emit < opNt (mxDrainMx 0 []) ∧
    (mxDrainMx 0 []).group = [] ∧ fmtIsMx (opOut (mxDrainMx 0 [])) = true ∧ 4 = min 32 (opNt (mxDrainMx 0 []) - (mxDrainMx 0 []).emit) ∧
    columnDue (mxDrainMx 0 []) 0 4 = true ∧ mayRun (sMx (mxDrainMx 0 [])) 0 (mxDrainMx 0 []).slot (leaveMxDue (mxDrainMx 0 []) 0) = true ∧
    (coreOf (sMx (mxDrainMx 0 [])) 0).flo.length < 8 ∧ (∀ d, d < 4 → colParity (sMx (mxDrainMx 0 [])) 0 (mxDrainMx 0 []) d = false) := by decide +kernel
theorem wit_drain_mx_group : (coreOf (sMx (mxDrainMx 4 [[⟨12, 0x38⟩]])) 0).mxq = [mxDrainMx 4 [[⟨12, 0x38⟩]]] ∧ opDrain (mxDrainMx 4 [[⟨12, 0x38⟩]]) = true ∧
    (mxDrainMx 4 [[⟨12, 0x38⟩]]).group = [[⟨12, 0x38⟩]] ∧ (coreOf (sMx (mxDrainMx 4 [[⟨12, 0x38⟩]])) 0).flo.length < 8 ∧
    mayRun (sMx (mxDrainMx 4 [[⟨12, 0x38⟩]])) 0 0 (drainDue (mxDrainMx 4 [[⟨12, 0x38⟩]])) = true ∧ pathFree (sMx (mxDrainMx 4 [[⟨12, 0x38⟩]])) 0 2 = true := by decide +kernel

/-- A generator of two BF16 elements at byte 32. -/
def gen2 (dest : Bool) : Gen := ⟨32, [2, 1, 1], [2, 0, 0], 1, dest, 0⟩
def pass1 : GenOp := ⟨0, gen2 false, 0, 999⟩
def sPass : State := eng fun k => { k with passq := [pass1] }
theorem wit_pass_item : coreRuns sPass 0 = true ∧ (coreOf sPass 0).passq = [pass1] ∧ 2 = min (perEntry pass1.gen.fmt) (genTotal pass1.gen - 0) ∧
    fliEarly sPass 0 < 8 ∧ mayRun sPass 0 pass1.slot pass1.due = true ∧ tileCan sPass 0 = false ∧ pathFree sPass 0 0 = true ∧ pathFree sPass 0 3 = true := by decide +kernel
def sVxq : State := queue [ent wAdd] (vregs (at1 wHalt))
theorem wit_queue_start : coreRuns sVxq 0 = true ∧ (coreOf sVxq 0).vxq = [ent wAdd] ∧ mayRun sVxq 0 (ent wAdd).slot (ent wAdd).due = true ∧
    vxeReady sVxq 0 (ent wAdd).slot (ent wAdd).word.toNat = true ∧ pathFree sVxq 0 4 = true ∧
    vecPending sVxq 0 (ent wAdd).slot (ent wAdd).word.toNat = false := by decide +kernel
/-- SWR work with one element in the skid buffer, and a moving transfer from the flowline whose extent is 32 bytes. -/
def xHand : Xfer := xfer [2, 0, 0, 32, 0, 0, 0, 0]
def sSwr (dest : Bool) (next : Nat) (hand : List Byte) : State :=
  setDesc (eng fun k => { k with swrq := [⟨0, gen2 dest, next, 0⟩], flo := [⟨0, [⟨1, 0x3F80⟩]⟩] }) 0 0 { active := some xHand, hand := hand }
theorem wit_swr_store : coreRuns (sSwr false 0 []) 0 = true ∧ (coreOf (sSwr false 0 []) 0).swrq = [⟨0, gen2 false, 0, 0⟩] ∧
    swrTake ⟨0, gen2 false, 0, 0⟩ (skid (sSwr false 0 []) 0).length = 1 ∧ (gen2 false).dest = false ∧
    (skid (sSwr false 0 []) 0).head? = some ⟨1, 0x3F80⟩ := by decide +kernel
/-- A write to a descriptor waits for a full entry or its last element, and for what it handed over before. -/
theorem wit_swr_hand : coreRuns (sSwr true 1 []) 0 = true ∧ (coreOf (sSwr true 1 []) 0).swrq = [⟨0, gen2 true, 1, 0⟩] ∧
    1 = swrTake ⟨0, gen2 true, 1, 0⟩ (skid (sSwr true 1 []) 0).length ∧ 0 < handRoom (descOf (sSwr true 1 []) 0 (gen2 true).desc) ∧
    (descOf (sSwr true 1 []) 0 (gen2 true).desc).hand = [] ∧ (gen2 true).dest = true := by decide +kernel
theorem wit_swr_hand_rest : (coreOf (sSwr true 1 [7]) 0).swrq = [⟨0, gen2 true, 1, 0⟩] ∧ 0 < handRoom (descOf (sSwr true 1 [7]) 0 (gen2 true).desc) ∧
    (descOf (sSwr true 1 [7]) 0 (gen2 true).desc).hand ≠ [] := by decide +kernel

def sRun : State := at1 wHalt
/-- An operation waits for a weight column that was due 900 cycles ago. -/
def sLate : State := eng fun k => { k with mxq := [mxop 0 1], tile := some tlF }
theorem wit_stall_begin : floeRuns sLate 0 0 = true ∧ floeQuiesces sLate 0 0 = false ∧ (floeOf sLate 0 0).held = 0 ∧ (7#4).toNat ∈ floeLags sLate 0 0 := by decide +kernel
def sStalled : State := withR [(rFLOE_STAT 0 0, 4)] (setFloe sRun 0 0 { held := 4, since := some 0 })
theorem wit_stall_end : (floeOf sStalled 0 0).held ≠ 0 ∧ floeQuiesces sStalled 0 0 = false ∧ floeCaughtUp sStalled 0 0 = true := by decide +kernel
/-- The power limiter throttles at its highest level; and HOLD beside it. -/
def sThrottle (hold : Nat) : State := withR [(rFLOE_CTL 0 0, hold)] { sRun with pwr := { sRun.pwr with lpwr := 3 } }
theorem wit_throttle : ∀ h ∈ [0, 4], throttleHolds (sThrottle h) 0 = true ∧ regionUp (sThrottle h) 0 = true ∧ (clusterOf (sThrottle h) 0).gated = false ∧
    floeRuns (sThrottle h) 0 0 = true ∧ floeQuiesces (sThrottle h) 0 0 = false ∧ (floeOf (sThrottle h) 0 0).held = 0 ∧
    getB (sThrottle h) (rFLOE_CTL 0 0) 2 = (h == 4) := by decide +kernel
/-- A stall of 1,000,001 ns against the reset limit of 1,000 µs. -/
def sLong : State := { sStalled with time := { tb := 1000001 * 2 ^ 32 } }
theorem wit_stall_timeout : (floeOf sLong 0 0).since = some 0 ∧ 0 < getF sLong (rSTALL_LIMIT 0) 0 20 ∧ 0 + 1000 * getF sLong (rSTALL_LIMIT 0) 0 20 < tbNow sLong ∧
    getB sLong (rFLOE_DEF 0 0) 16 = true ∧ floeMembers sLong 0 0 = [(0, 0)] ∧ slotLive sLong 0 0 = true ∧ getB sLong (rFLOE_STAT 0 0) 5 = false := by decide +kernel

def sSwitch (quiet : Bool) : State := modCore (withR [(rTASK_STAT 0 0, 1), (rTASK_STAT 0 2, 1)] sRun) 0 fun k => { k with switch := some { out := 0, inn := 2, quiet := quiet } }
theorem wit_quiescent : (coreOf (sSwitch false) 0).switch = some { out := 0, inn := 2, quiet := false } ∧ engineQuiet (sSwitch false) 0 0 = true := by decide +kernel
theorem wit_switch : (coreOf (sSwitch true) 0).switch = some { out := 0, inn := 2, quiet := true, left := 0 } ∧ slotState (sSwitch true) 0 2 = 1 ∧ (slotOf (sSwitch true) 0 2).resv = none ∧
    (slotOf (sSwitch true) 0 2).mres = none := by decide +kernel
def sIdle : State := withR [(rTASK_STAT 0 0, 1)] sRun
theorem wit_idle_select : coreRuns sIdle 0 = true ∧ (coreOf sIdle 0).switch = none ∧ runningSlot sIdle 0 = none ∧
    [((coreOf sIdle 0).last + 1) % 4, ((coreOf sIdle 0).last + 2) % 4, ((coreOf sIdle 0).last + 3) % 4, (coreOf sIdle 0).last].find?
      (fun u => slotState sIdle 0 u == 1) = some 0 ∧ engineQuiet sIdle 0 (coreOf sIdle 0).last = true ∧ (slotOf sIdle 0 0).resv = none ∧ (slotOf sIdle 0 0).mres = none := by
  decide +kernel

-- statements about counters, channels, transfers, firn and the network (O26 to O33) ------------------------------------------------------

/-- A signal of 5 units to c0 of core 0, of a generation. -/
def sig5 (gen : Nat) : Sig := ⟨0, 0, 5, gen, 1, 0, 0, 0, 0, true⟩
def sSig (v gen : Nat) : State := withR [(rCTR_VAL 0 0, v), (ledgerBase qCTR, 1)] { base with signals := [sig5 gen] }
theorem wit_signal : coreReached (sSig 65530 0) 0 = true ∧ (0 : CoreId).val ∉ (sSig 65530 0).resetting ∧ nextSig (sSig 65530 0).signals 0 = some (sig5 0) ∧ (sig5 0).ctr < 48 ∧
    (sig5 0).gen = ctrGen (sSig 65530 0) 0 0 ∧ ctrValue (sSig 65530 0) 0 0 + 5 ≤ 65535 := by decide +kernel
theorem wit_signal_stale : nextSig (sSig 0 3).signals 0 = some (sig5 3) ∧ (sig5 3).gen ≠ ctrGen (sSig 0 3) 0 0 := by decide +kernel
theorem wit_signal_overflow : nextSig (sSig 65531 0).signals 0 = some (sig5 0) ∧ (sig5 0).gen = ctrGen (sSig 65531 0) 0 0 ∧ 65535 < ctrValue (sSig 65531 0) 0 0 + 5 := by
  decide +kernel
/-- A request of core 1, channel 2, of this package to end 3 of core 0, whose rank is 0. -/
def fl1 : Flight := { core := 0, ich := 3, pkg := 0, words := emptyMsg (msgHeader 0 0 true false false false 1 2 0 0 0), slot := 0, remote := none, n := 5 }
/-- A later one of the channel crosses to the switch. -/
def item (m : NetLoad) : NetItem := ⟨9, 5, 0, m⟩
def sFlight : State := setOut { base with flights := [fl1] } (outKey 0 1 1) [item (.msg { fl1 with n := 6 })]
theorem wit_message : coreReached sFlight 0 = true ∧ sFlight.flights.find? (fun f => f.core == 0 && ofChannel 0 1 2 f) = some fl1 ∧
    (netLoads sFlight).map (·.2) = [.msg { fl1 with n := 6 }] ∧ ofChannel 0 1 2 fl1 = true ∧ fl1.n ≤ 6 ∧ fl1.remote = none ∧ hdrReq (fl1.words.headD 0) = true ∧ ichState sFlight 0 3 = 0 ∧
    hdrDrank (fl1.words.headD 0) = getF sFlight (rICH_CFG 0 3) 0 12 ∧ (ringOf sFlight 0 3).length + ichRsv sFlight 0 3 < 32 := by decide +kernel
def ref1 : Refused := ⟨0, 2, 0, emptyMsg (msgHeader 0 0 true false false false 0 2 0 0 0), false, true⟩
def sRefused : State := { base with refusals := [ref1] }
theorem wit_return : coreReached sRefused 0 = true ∧ sRefused.refusals.find? (fun r => r.core == 0 && r.och == 2) = some ref1 ∧
    getB sRefused (rOCH_STAT 0 2) 1 = false := by decide +kernel
def sCredit : State := withR [(rOCH_CRED 0 2, 62), (ledgerBase qCHCRED, 1)] (modCore { base with credits := [(0, 2)] } 0 fun k => { k with credOut := [(2, 1)] })
theorem wit_credit : coreReached sCredit 0 = true ∧ (0, 2) ∈ sCredit.credits ∧ strayedOf sCredit 0 2 = 0 ∧ reclaimOf sCredit 0 2 = 0 ∧ 0 < credOutOf sCredit 0 2 ∧
    getF sCredit (rOCH_CRED 0 2) 0 6 < 63 := by decide +kernel

/-- A template that waits for 2 units of c3; one from firn 0 to the store, and one from the store to firn. -/
def tmplWait : List Nat := [2 ^ 11, 0, 0, 32, 0, 0, 0, 3 + 2 * 2 ^ 8]
def tmplOut : List Nat := [1 + 2 ^ 4, 0, 0, 32, 0, 0, 0, 0]
def sWait : State := withR [(rCTR_VAL 0 3, 2)] (withX { xfer tmplWait with phase := .waiting } base)
theorem wit_desc_wait : coreRuns sWait 0 = true ∧ (descOf sWait 0 0).active = some { xfer tmplWait with phase := .waiting } ∧ 3 = tWCTR (xfer tmplWait).words ∧
    waitcFirst sWait 0 3 = false ∧ (∀ e, e < (0 : DescId).val → waitsOn sWait 0 3 e = none) ∧ 3 < 48 ∧ { xfer tmplWait with phase := .waiting }.phase = .waiting ∧
    tWCOUNT (xfer tmplWait).words ≤ ctrAvail sWait 0 3 := by decide +kernel
def sMove : State := withX (xfer tmplSig) base
theorem wit_desc_request_firn : coreRuns sMove 0 = true ∧ (xfer tmplSig).phase = .moving ∧ (xfer tmplSig).issued < xTotal (xfer tmplSig) ∧
    feedHolds sMove 0 0 (xfer tmplSig) = false ∧ tDSTK (xfer tmplSig).words ≠ 4 ∧ tDSTK (xfer tmplSig).words ≠ 5 ∧ tSRCK (xfer tmplSig).words = 0 ∧
    (xfer tmplSig).stopAt = none ∧ (0 : CoreId).val / 8 = xSrc (xfer tmplSig) 0 / 2 ^ 33 := by decide +kernel
/-- The same from the last bytes of stack 31. -/
def xFar : Xfer := { xfer tmplSig with src := 2 ^ 38 - 32 }
theorem wit_desc_request_far : coreRuns (withX xFar base) 0 = true ∧ (descOf (withX xFar base) 0 0).active = some xFar ∧ xFar.phase = .moving ∧ xFar.issued < xTotal xFar ∧
    xFar.stopAt = none ∧ feedHolds (withX xFar base) 0 0 xFar = false ∧ tDSTK xFar.words ≠ 4 ∧ tDSTK xFar.words ≠ 5 ∧ tSRCK xFar.words = 0 ∧
    (0 : CoreId).val / 8 ≠ xSrc xFar 0 / 2 ^ 33 ∧ coreRoom (withX xFar base) 0 = true := by decide +kernel
theorem wit_desc_request_store : coreRuns (withX (xfer tmplOut) base) 0 = true ∧ (xfer tmplOut).phase = .moving ∧ (xfer tmplOut).issued < xTotal (xfer tmplOut) ∧
    feedHolds (withX (xfer tmplOut) base) 0 0 (xfer tmplOut) = false ∧ tDSTK (xfer tmplOut).words ≠ 4 ∧ tDSTK (xfer tmplOut).words ≠ 5 ∧ (xfer tmplOut).stopAt = none ∧
    tSRCK (xfer tmplOut).words = 1 := by decide +kernel
theorem wit_fence_release : coreRuns (withX { xfer tmplSig with phase := .fenced } base) 0 = true ∧
    (descOf (withX { xfer tmplSig with phase := .fenced } base) 0 0).active = some { xfer tmplSig with phase := .fenced } ∧ (xfer tmplSig).after = [] := by decide +kernel
/-- Four bytes have arrived; and all 32 are written, with the token of the transfer held and a second transfer in the shadow. -/
def xArrived : Xfer := { xfer tmplSig with issued := 4, arrived := [1, 2, 3, 4] }
def xDone (words : List Nat) : Xfer := { xfer words with issued := 32, sent := 32, done := 32 }
def sDone (shadow : Option Xfer) (words : List Nat) : State := withR [(ledgerBase qDESC, 2)] (setDesc base 0 0 { active := some (xDone words), shadow := shadow })
theorem wit_desc_data : coreRuns (withX xArrived base) 0 = true ∧ xArrived.phase = .moving ∧ tDSTK xArrived.words = 0 ∧ xArrived.arrived ≠ [] ∧ xArrived.stopAt = none := by decide +kernel
theorem wit_desc_complete : coreRuns (sDone none tmplSig) 0 = true ∧ (descOf (sDone none tmplSig) 0 0).active = some (xDone tmplSig) ∧ (xDone tmplSig).phase = .moving ∧
    xTotal (xDone tmplSig) ≤ (xDone tmplSig).done ∧ 0 < ledHeld (sDone none tmplSig) qDESC ∧ (descOf (sDone none tmplSig) 0 0).shadow = none ∧
    tSIGEN (xDone tmplSig).words = true ∧ tDSTK (xDone tmplSig).words ≠ 3 ∧ xSigRoom (sDone none tmplSig) 0 (xDone tmplSig) = true ∧
    tDSTK (xDone tmplSig).words ≠ 1 ∧ tSCORE (xDone tmplSig).words / 8 = xEndCore 0 (xDone tmplSig) / 8 := by decide +kernel
/-- A signal to core 255, of a write to the store and of one to firn. -/
def tmplFar (dst : Nat) : List Nat := [2 ^ 12 + dst * 2 ^ 4, 0, 0, 32, 0, 0, 0, 2 ^ 48 + 255 * 2 ^ 32]
theorem wit_desc_complete_far : ∀ d ∈ [0, 1], (descOf (sDone none (tmplFar d)) 0 0).active = some (xDone (tmplFar d)) ∧ xTotal (xDone (tmplFar d)) ≤ (xDone (tmplFar d)).done ∧
    xSigRoom (sDone none (tmplFar d)) 0 (xDone (tmplFar d)) = true ∧ tSIGEN (xDone (tmplFar d)).words = true ∧ tDSTK (xDone (tmplFar d)).words = d ∧
    tSCORE (xDone (tmplFar d)).words / 8 ≠ xEndCore 0 (xDone (tmplFar d)) / 8 ∧ tSCORE (xDone (tmplFar d)).words / 8 ≠ xDst (xDone (tmplFar d)) (xTotal (xDone (tmplFar d)) - 1) / 2 ^ 33 := by
  decide +kernel
theorem wit_desc_complete_shadow : (descOf (sDone (some { xfer tmplWait with id := 1 }) tmplOut) 0 0).shadow = some { xfer tmplWait with id := 1 } ∧
    xTotal (xDone tmplOut) ≤ (xDone tmplOut).done ∧ 0 < ledHeld (sDone (some { xfer tmplWait with id := 1 }) tmplOut) qDESC ∧ tSIGEN (xDone tmplOut).words = false ∧
    xSigRoom (sDone (some { xfer tmplWait with id := 1 }) tmplOut) 0 (xDone tmplOut) = true := by
  decide +kernel

/-- A transfer of a near-bank command to the store. -/
def xNear (dst : Nat) (cmd : List Nat) : Xfer := { xfer [3 + dst * 2 ^ 4, 0, 0, 128, 0, 0, 0, 0] with cmd := cmd }
/-- GATHER of one row of 32 bytes, of a table of four rows and of none; GATHER_SUM, KV_FETCH, and the three EXPANDs. -/
def nbGather (rows : Nat) : List Nat := [1 + 2 ^ 32, 0, 0, 0, 32 + 32 * 2 ^ 32, rows, 0, 0]
def nbSum : List Nat := [2 + 2 ^ 32, 0, 0, 0, 32 + 32 * 2 ^ 32, 4 + 2 ^ 32, 0, 0]
def nbKv : List Nat := [3 + 2 ^ 32, 0, 0, 0, 32 + 8 * 2 ^ 32 + 2 ^ 40, 4, 0, 0]
def nbExpand (x : Nat) : List Nat := [4 + (if x = 1 then 2 ^ 4 else 2 ^ 9) + x * 2 ^ 14 + 4 * 2 ^ 32, 0, 0x1000, if x = 1 then 0 else 0x2000 + 5 * 2 ^ 48, 0, 0, 0, 0]
def sNear (dst : Nat) (cmd : List Nat) : State := withX (xNear dst cmd) { base with firnStacks := [(0, { open_ := true })] }
def nearOf (dst : Nat) (cmd : List Nat) : State × List Byte × Bool := nbNext (sNear dst cmd) 0 0 cmd 0
theorem wit_near_bank : ∀ p ∈ [(0, nbGather 4, 1), (4, nbGather 4, 1), (0, nbSum, 2), (0, nbKv, 3), (0, nbExpand 1, 4), (0, nbExpand 2, 4), (0, nbExpand 3, 4)],
    coreRuns (sNear p.1 p.2.1) 0 = true ∧ (descOf (sNear p.1 p.2.1) 0 0).active = some (xNear p.1 p.2.1) ∧ (xNear p.1 p.2.1).phase = .moving ∧
      tSRCK (xNear p.1 p.2.1).words = 3 ∧ (xNear p.1 p.2.1).issued < xTotal (xNear p.1 p.2.1) ∧ (xNear p.1 p.2.1).stopAt = none ∧
      feedHolds (sNear p.1 p.2.1) 0 0 (xNear p.1 p.2.1) = false ∧ tDSTK (xNear p.1 p.2.1).words = p.1 ∧
      128 ≤ feedRoom (sNear p.1 p.2.1) 0 4 - feedFlight (sNear p.1 p.2.1) 0 4 ∧ nbStack (xNear p.1 p.2.1).cmd = (0 : CoreId).val / 8 ∧
      pieceOpen (sNear p.1 p.2.1) (whoNear 0 (xNear p.1 p.2.1).slot) (nbSRC (xNear p.1 p.2.1).cmd) = true ∧ (nearOf p.1 p.2.1).2.2 = false ∧
      (descOf (nearOf p.1 p.2.1).1 0 0).active = some (xNear p.1 p.2.1) ∧ (xNear p.1 p.2.1).early = [] ∧
      (xNear p.1 p.2.1).sent + (xNear p.1 p.2.1).arrived.length = (xNear p.1 p.2.1).issued ∧ (nearOf p.1 p.2.1).2.1 ≠ [] ∧ nbOP p.2.1 = p.2.2 := by decide +kernel
theorem wit_near_bank_expand : nbX (nbExpand 1) = 1 ∧ nbX (nbExpand 2) = 2 ∧ nbX (nbExpand 3) = 3 := by decide +kernel
theorem wit_near_bank_outside : (nearOf 0 (nbGather 0)).2.2 = false ∧ (nbNROWS (nbGather 0) : Int) ≤ listEntry (sNear 0 (nbGather 0)) 0 (nbIDX (nbGather 0)) 0 ∧
    (nearOf 0 (nbGather 0)).2.1 ≠ [] := by decide +kernel

/-- A firn request of descriptor 0 of core 0 at stack 0, channel 0, port 0. -/
def freq (off len : Nat) (wr : Bool) (data : List Byte) : FirnReq := ⟨0, 0, off, len, wr, data, 0, 0, 0, 0, 0, off, 0⟩
def sFirn (wait ent : List FirnReq) : State :=
  withX (xfer tmplSig) (withR [(ledgerBase qFIRNREQ, 1)] { base with firnStacks := [(0, { open_ := true })], firnWait := wait, firnEnt := ent })
def fRead : FirnReq := freq 0 32 false []
def fWrite : FirnReq := freq 32 32 true (List.replicate 32 7)
def fMerge : FirnReq := freq 33 2 true [8, 9]
theorem wit_firn_enter : (stackOf (sFirn [fRead] []) 0).open_ = true ∧ (sFirn [fRead] []).beatErr = [] ∧
    (sFirn [fRead] []).firnWait.find? (fun r => r.stack == 0 && r.port == 0 && waitChan (sFirn [fRead] []) r == 0) = some fRead ∧ fRead.wr = false ∧
    portUsedBy (sFirn [fRead] []) 0 0 0 < portEntries (sFirn [fRead] []) 0 0 := by decide +kernel
theorem wit_firn_read : (sFirn [] [fRead]).firnEnt.find? (fun e => e.stack == 0 && entChan e == 0 && e.port == 0 && !e.wr) = some fRead ∧
    entryReady (sFirn [] [fRead]) fRead = true ∧ reqXfer (sFirn [] [fRead]) fRead = some (xfer tmplSig) ∧ entKey fRead % 256 + fRead.len ≤ 256 ∧ 0 < fRead.len ∧
    (xfer tmplSig).early = [] ∧ (xfer tmplSig).stopAt = none ∧ (xfer tmplSig).sent + (xfer tmplSig).arrived.length = fRead.pos := by decide +kernel
/-- The same read on stack link 1, for core 0. -/
def fLink : FirnReq := { fRead with port := 9 }
theorem wit_firn_read_link : (sFirn [] [fLink]).firnEnt.find? (fun e => e.stack == 0 && entChan e == 0 && e.port == 9 && !e.wr) = some fLink ∧
    entryReady (sFirn [] [fLink]) fLink = true ∧ reqXfer (sFirn [] [fLink]) fLink = some (xfer tmplSig) ∧ entKey fLink % 256 + fLink.len ≤ 256 ∧
    8 ≤ (9 : FirnPort).val ∧ stackRoom (sFirn [] [fLink]) fLink.stack fLink.core = true := by decide +kernel
theorem wit_firn_write : ∀ r ∈ [fWrite, fMerge], (sFirn [] [r]).firnEnt.find? (fun e => e.stack == 0 && entChan e == 0 && e.port == 0 && (e.wr && needsMerge e.off e.len == needsMerge r.off r.len)) = some r ∧
    entryReady (sFirn [] [r]) r = true ∧ r.data.length = r.len ∧ entKey r % 256 + r.len ≤ 256 ∧ r.off % 32 = r.phys % 32 := by decide +kernel
theorem wit_firn_write_kinds : needsMerge fWrite.off fWrite.len = false ∧ needsMerge fMerge.off fMerge.len = true := by decide +kernel
/-- Stack 0 in its second slot, as it begins and after it has run, and behind a multiple of 3,904 ns with the other regime chosen; stack 0 in self-refresh, and not
initialised. -/
def sRefresh (ns idx : Nat) (want : Bool) : State :=
  { sFirn [] [] with time := { tb := ns * 2 ^ 32 }, firnStacks := [(0, { open_ := true, slotIdx := idx, want := want })] }
theorem wit_refresh : 1 = tbNow (sRefresh 244 0 false) / slotLen (sRefresh 244 0 false) 0 ∧ (stackOf (sRefresh 244 0 false) 0).open_ = true ∧
    regionUp (sRefresh 244 0 false) (stackRegion (sRefresh 244 0 false) 0) = true ∧ (stackOf (sRefresh 244 0 false) 0).slotIdx ≤ 1 * slotLen (sRefresh 244 0 false) 0 ∧
    (sRefresh 244 0 false).beatErr = [] ∧ (stackOf (sRefresh 244 0 false) 0).want = getB (sRefresh 244 0 false) (rFIRN_STAT 0) 8 := by decide +kernel
theorem wit_refresh_regime : 16 = tbNow (sRefresh 3910 3900 true) / slotLen (sRefresh 3910 3900 true) 0 ∧
    (stackOf (sRefresh 3910 3900 true) 0).slotIdx ≤ 16 * slotLen (sRefresh 3910 3900 true) 0 ∧
    (stackOf (sRefresh 3910 3900 true) 0).slotIdx ≤ tbNow (sRefresh 3910 3900 true) / 3904 * 3904 := by decide +kernel
def sReady : State := { withR [(rFIRN_STAT 0, 0x600)] base with time := { ticks := 300 } }
theorem wit_self_refresh : getB (withR [(rFIRN_STAT 0, 0x600)] base) (rFIRN_STAT 0) 9 = true ∧ getB (withR [(rFIRN_STAT 0, 0x600)] base) (rFIRN_STAT 0) 10 = true ∧
    regionUp (withR [(rFIRN_STAT 0, 0x600)] base) (stackRegion (withR [(rFIRN_STAT 0, 0x600)] base) 0) = true ∧
    (regionOf sReady (stackRegion sReady 0)).lockTick + 300 ≤ sReady.time.ticks ∧ getB sReady (rFIRN_STAT 0) 9 = true := by decide +kernel
theorem wit_firn_init : getB base (rFIRN_STAT 0) 10 = false ∧ regionUp base (stackRegion base 0) = true := by decide +kernel

/-- The network of cluster 0, with slot 0 of link 0 owned by core 0 of the cluster, in slot 0 of the third turn of die 0's wheel, with an item of core 0 that has crossed. -/
def sg0 : Sig := sig5 0
def sNet (flying held : List NetPkt) (hold : Bool) : State :=
  let s := setRegion (withR [(rINJ_TAB 0 0, 0x0F0F_0F00)] base) 32 { regionOf base 32 with wheelOn := true, wheel := 512 }
  { s with net := { flying := flying, turn := if held = [] then [] else [(0, held)], hold := if hold then [(0, [(1, true)])] else [], outq := [(0, [item (.sig sg0)])] } }
def pk (input n : Nat) : NetPkt := { input := input, due := 512, route := [.inbound 0 0], marks := n, load := .sig sg0 }
def out0 : SwOut := .inbound 0 0
theorem wit_inject : ∀ h ∈ [false, true], swRuns (sNet [] [] h) 0 = true ∧ (0#4).toNat ≤ 8 ∧ (0#8).toNat = wheelOf (sNet [] [] h) 0 % 256 ∧
    injOwner (sNet [] [] h) 0 0 0 = (0#4).toNat ∧ linkUsed (sNet [] [] h) (outLink 0 0) 0 = false ∧ outOf (sNet [] [] h) (outKey 0 0 0) = item (.sig sg0) :: [] ∧
    crossReady (sNet [] [] h) 0 2 (item (.sig sg0)) = true ∧ routeOk 0 [out0] = true ∧ [out0].getLast? = some out0 ∧ endsAt out0 (.sig sg0) = true ∧
    routeHeld (sNet [] [] h) 0 [out0] = h := by decide +kernel
theorem wit_switch_alone : linkUsed (sNet [pk 1 7] [] false) 0 0 = false ∧ (swDue (sNet [pk 1 7] [] false) 0).1 = [pk 1 7] ∧
    (turnOf (sNet [pk 1 7] [] false) 0).find? (fun h => dueAt (sNet [pk 1 7] [] false) 0 h) = none := by decide +kernel
theorem wit_switch_meet : linkUsed (sNet [pk 2 8, pk 1 7] [] false) 0 0 = false ∧ (swDue (sNet [pk 2 8, pk 1 7] [] false) 0).1 = [pk 1 7, pk 2 8] ∧
    (turnOf (sNet [pk 2 8, pk 1 7] [] false) 0).find? (fun h => dueAt (sNet [pk 2 8, pk 1 7] [] false) 0 h) = none ∧
    (turnOf (sNet [pk 2 8, pk 1 7] [] false) 0).length < 16 := by decide +kernel
theorem wit_switch_held : (swDue (sNet [pk 1 7] [pk 2 8] false) 0).1 = [pk 1 7] ∧
    (turnOf (sNet [pk 1 7] [pk 2 8] false) 0).find? (fun h => dueAt (sNet [pk 1 7] [pk 2 8] false) 0 h) = some (pk 2 8) ∧
    (turnOf (sNet [pk 1 7] [pk 2 8] false) 0).length ≤ 16 := by decide +kernel
theorem wit_turn_release : (turnOf (sNet [] [pk 2 8] true) 0).find? (fun h => dueAt (sNet [] [pk 2 8] true) 0 h) = some (pk 2 8) ∧
    (swDue (sNet [] [pk 2 8] true) 0).1 = [] ∧ turnHeld (sNet [] [pk 2 8] true) 0 = true ∧ (turnOf (sNet [] [pk 2 8] true) 0).length < 4 := by decide +kernel
def sDeliver : State := setLink (sNet [] [] false) 0 [pk 1 7]
theorem wit_deliver : swRuns sDeliver 0 = true ∧ linkOf sDeliver (swKey out0) = pk 1 7 :: [] ∧ (pk 1 7).due ≤ wheelOf sDeliver 0 ∧ (inOf sDeliver (swKey out0)).length < 8 := by
  decide +kernel
-- statements about clocks, power and resets (O34 to O43) ----------------------------------------------------------------------------------

/-- A session of the host, and one of the debug kind. -/
def sess (s : State) : State := withR [(rSESS_STATE, 2)] s
def dbg (s : State) : State := withR [(rSESS_STATE, 6)] s
/-- Cluster 0 in its die's legacy group; a crossing that has aligned; a change of N begun. -/
def sLegacy : State := withR [(rCLK_XCTL 0, 1)] base
theorem wit_stretch : (0 : RegionId).val < 36 ∧ regionUp base 0 = true ∧ inLegacy base 0 = false ∧ regionUp sLegacy 0 = true ∧ inLegacy sLegacy 0 = true ∧
    0 ∈ legacyGroup sLegacy (regionDie 0) := by decide +kernel
/-- Clusters 0 and the service regions of dies 0 and 1 before any crossing has aligned. -/
def sRaw : State := litX 0 [0, 32, 33] up
theorem wit_align : regionUp sRaw 0 = true ∧ (regionOf sRaw 0).xlat = 0 ∧ regionUp sRaw (32 + 0 / 8) = true ∧ regionN sRaw 0 = regionN sRaw (32 + 0 / 8) := by decide +kernel
theorem wit_align_edge : regionUp sRaw 32 = true ∧ (1 : Nat) = (dieNbr 0).1 ∧ regionUp sRaw (32 + 1) = true ∧ edgeXlat sRaw 0 1 = 0 := by decide +kernel
def sGoal : State := setRegion base 0 { regionOf base 0 with goal := some 63 }
def sGoalSvc : State := setRegion sRaw 33 { regionOf sRaw 33 with goal := some 20 }
theorem wit_n_change_service : regionUp sGoalSvc 33 = true ∧ (regionOf sGoalSvc 33).goal = some 20 ∧ regionUp sGoalSvc (32 + 0) = true ∧
    regionUp sGoalSvc (32 + 0 / 8) = true := by decide +kernel
theorem wit_n_change : regionUp sGoal 0 = true ∧ (regionOf sGoal 0).goal = some 63 ∧ 63 < 64 := by decide +kernel
/-- Die 0's wheel off beside die 1's wheel at 9; and on, leading die 1 by 2. -/
def sWheel (on : Bool) : State :=
  let s := setRegion base 33 { regionOf base 33 with wheel := 9, wheelOn := true }
  setRegion s 32 { regionOf s 32 with wheelOn := on, wheel := 12, hist := [⟨11, 9, 0, false⟩, ⟨11, 9, 0, false⟩] }
theorem wit_wheel_start : regionUp (sWheel false) 32 = true ∧ (32 : RegionId).val = 32 + (0 : DieId).val ∧ (regionOf (sWheel false) (32 + 0)).wheelOn = false ∧
    (1 : DieId).val = (dieNbr 0).1 ∧ (regionOf (sWheel false) (32 + 1)).wheelOn = true := by decide +kernel
theorem wit_wheel_hold : regionUp (sWheel true) 32 = true ∧ (regionOf (sWheel true) (32 + 0)).wheelOn = true ∧ wheelMustHold (sWheel true) 0 = true := by decide +kernel
/-- N = 25 with WARN set and STEP_EN, 100 µs after the last step; codes at WARN_CODE = 12 and above it. -/
def sMargin : State := { withR [(rCLK_STAT 0, 0x3F0259), (rMARGIN_STAT, 0x460C)] base with time := { ticks := 10000, tb := 100000 * 2 ^ 32 } }
theorem wit_margin_warn : (0 : RegionId).val = (0 : ClusterId).val ∧ monitored base 0 = true ∧ getB base (rCLK_STAT 0) 9 = false ∧ (12#6).toNat ≤ getF base rMARGIN_STAT 0 6 ∧
    getF base rMARGIN_STAT 0 6 < (13#6).toNat := by decide +kernel
def sStep : State := setRegion sMargin 0 { regionOf sMargin 0 with stepNs := some 0 }
theorem wit_autostep : regionUp sStep 0 = true ∧ monitored sStep 0 = true ∧ getB sStep (rCLK_STAT 0) 9 = true ∧ getB sStep rMARGIN_STAT 14 = true ∧
    (6#6).toNat ≤ getF sStep rMARGIN_STAT 8 6 ∧ (regionOf sStep 0).stepNs = some 0 ∧ 0 + 100000 ≤ tbNow sStep ∧ 20 < regionN sStep 0 ∧ inLegacy sStep 0 = false ∧
    (regionOf sStep 0).goal = none := by decide +kernel

/-- A follower of TB_SYNC_IN (SRC = 1), 100 ns after the multiple of its interval. -/
def sFollow : State := { withR [(rTB_CTL, 1)] base with time := { tb := (131072 + 100) * 2 ^ 32, ticks := 100000 } }
theorem wit_refloss : base.pwr.refLost = false ∧ base.pwr.off = false ∧ ({ base with pwr := { base.pwr with refLost := true } } : State).pwr.refLost = true := by decide +kernel
theorem wit_sync_in : (131072 : Int) = (tbInterval sFollow : Int) ∧ tbSrc sFollow = 1 ∧ sFollow.pwr.vaux = true ∧
    (100 * 2 ^ 32 : Int) = (sFollow.time.tb : Int) - (tbDelay sFollow : Int) * 2 ^ 32 - 1 * (131072 * 2 ^ 32) ∧ -(131072 * 2 ^ 32 : Int) ≤ 2 * (100 * 2 ^ 32) ∧
    (2 * (100 * 2 ^ 32) : Int) < 131072 * 2 ^ 32 := by decide +kernel
theorem wit_sync_lost : (tbSrc sFollow = 1 ∨ tbSrc sFollow = 2) ∧ sFollow.time.eventTick * 10 + 4 * tbInterval sFollow ≤ sFollow.time.ticks * 10 := by decide +kernel
def sAlarm : State := withR [(rTB_CTL, 0x80)] base
theorem wit_alarm : getB sAlarm rTB_CTL 7 = true ∧ getR64 sAlarm rTB_ALARM ≤ tbNow sAlarm := by decide +kernel
def sLead : State := withR [(rTB_CTL, 0x40)] base
theorem wit_sync_out : tbSrc sLead = 0 ∧ tbOut sLead = true ∧ tbNow sLead % tbInterval sLead < 10 := by decide +kernel

theorem wit_power_no_session : Awake base ∧ srcLive base .host = true ∧ mayWriteAt base .host rPWR_REQ = false := by unfold Awake; decide +kernel
theorem wit_power_not_allowed : Awake base ∧ srcLive base (.cc 0) = true ∧ mayWriteAt base (.cc 0) rPWR_REQ = true ∧ notAllowed base (.cc 0) 2 = true ∧
    notAllowed base (.cc 0) 3 = true ∧ notAllowed base (.cc 0) 4 = true ∧ notAllowed (withR [(rPWR_REQ, 0)] base) (.cc 0) 1 = true := by unfold Awake; decide +kernel
/-- The same package with cluster 0 alone. -/
def small (s : State) : State := { s with fuses := { grade := 1 } }
theorem wit_power_quiet : Awake (small (sess base)) ∧ mayWriteAt (small (sess base)) .host rPWR_REQ = true ∧ notAllowed (small (sess base)) .host 1 = false ∧ notAllowed (small (sess base)) .host 2 = false ∧
    notAllowed (small (sess base)) .host 3 = false ∧ notAllowed (small (sess base)) .host 4 = false ∧ packageQuiet (small (sess base)) = true ∧ srcLive (small (sess base)) .host = true := by unfold Awake; decide +kernel
theorem wit_power_from_idle : Awake (sess (withR [(rPWR_STATE, 1)] base)) ∧ mayWriteAt (sess (withR [(rPWR_STATE, 1)] base)) .host rPWR_REQ = true ∧
    pwrState (sess (withR [(rPWR_STATE, 1)] base)) = 1 := by unfold Awake; decide +kernel
theorem wit_power_busy : Awake (small (sess sMove)) ∧ mayWriteAt (small (sess sMove)) .host rPWR_REQ = true ∧ srcLive (small (sess sMove)) .host = true ∧
    notAllowed (small (sess sMove)) .host 2 = false ∧ packageQuiet (small (sess sMove)) = false := by unfold Awake; decide +kernel
def sEntry (st : Nat) : State := { withR [(rPWR_STATE, 8)] base with pwr := { base.pwr with entry := some st } }
def sLatched (st : Nat) : State := { sEntry st with pwr := { (sEntry st).pwr with latched := some .wakeIn } }
theorem wit_power_entries : ∀ st ∈ [2, 3, 4], (sEntry st).firnEnt = [] ∧ (sEntry st).pwr.latched = none ∧ (sEntry st).pwr.entry = some st ∧
    (sLatched st).pwr.entry = some st ∧ (sLatched st).pwr.latched = some .wakeIn ∧ (sLatched st).pwr.off = false := by decide +kernel

/-- The package in a power state, and in OFF. -/
def sPwr (st : Nat) : State := withR [(rPWR_STATE, st)] base
def sOff : State := { base with pwr := { base.pwr with off := true } }
theorem wit_wake_latched : (sEntry 2).pwr.held = [] ∧ (sEntry 2).pwr.vaux = true ∧ (sEntry 2).pwr.entry = some 2 ∧ (sEntry 2).pwr.latched = none ∧
    wakes (sEntry 2) 2 .pcie = true := by decide +kernel
theorem wit_wake_idle : (sPwr 1).pwr.held = [] ∧ (sPwr 1).pwr.entry = none ∧ (sPwr 1).pwr.waking = false ∧ (sPwr 1).pwr.off = false ∧ pwrState (sPwr 1) = 1 ∧
    wakes (sPwr 1) 1 .access = true := by decide +kernel
theorem wit_wake_sleep : pwrState (sPwr 2) = 2 ∧ wakes (sPwr 2) 2 .fabric = true ∧ pwrState (sPwr 3) = 3 ∧ wakes (sPwr 3) 3 .wakeIn = true ∧ (sPwr 2).pwr.entry = none := by
  decide +kernel
theorem wit_wake_off : sOff.pwr.entry = none ∧ sOff.pwr.waking = false ∧ sOff.pwr.off = true ∧ sOff.pwr.supplies = true ∧ wakes sOff 4 .wakeIn = true := by decide +kernel
/-- A wake from DEEP with the rails on at 700 mV, settled or not, and the regions of a list powered. -/
def sWake (st : Nat) (settled : Bool) (powered : List Nat) : State :=
  let s := (List.range 4).foldl (fun s d => setRail s d { railOf s d with on := true, goal := 700, settled := settled }) (withR [(rPWR_STATE, 8 + st)] up)
  let t := powered.foldl (fun s r => setRegion s r { regionOf s r with powered := true }) s
  { t with pwr := { t.pwr with waking := true } }
theorem wit_rail_settled : (railOf (sWake 3 false []) 0).on = true ∧ awake (sWake 3 false []) = false ∧ (710#10).toNat ≤ (railOf (sWake 3 false []) 0).goal.toNat + 10 ∧
    (railOf (sWake 3 false []) 0).goal.toNat ≤ (690#10).toNat + 10 := by decide +kernel
theorem wit_region_up : (sWake 3 true []).pwr.off = false ∧ tripped (sWake 3 true []) = false ∧ (sWake 3 true []).pwr.supplies = true ∧ (sWake 3 true []).pwr.waking = true ∧
    railsReady (sWake 3 true []) 32 = true ∧ (powerSet (sWake 3 true []) 32).find? (fun q => !(regionOf (sWake 3 true []) q).powered) = some 32 := by decide +kernel
theorem wit_pll_lock : (regionOf (sWake 3 true [32]) 32).powered = true ∧ getB (sWake 3 true [32]) (rCLK_STAT 32) 6 = false ∧ pwrState (sWake 3 true [32]) ≠ 2 ∧
    (railOf (sWake 3 true [32]) (32 - 32)).brown = none ∧
    startingN (sWake 3 true [32]) 32 < 64 ∧ (sWake 3 true [32]).pwr.held = [] ∧ (sWake 3 true [32]).pwr.vaux = true := by decide +kernel
theorem wit_pll_lock_sleep : (regionOf (sWake 2 true [0]) 0).powered = true ∧ getB (sWake 2 true [0]) (rCLK_STAT 0) 6 = false ∧ pwrState (sWake 2 true [0]) = 2 ∧
    (sWake 2 true [0]).pwr.waking = true ∧ (0 : RegionId).val < 32 ∧ startingN (sWake 2 true [0]) 0 < 64 := by decide +kernel
/-- Every region powered, locked and aligned. -/
def sAllUp : State :=
  let s := (List.range 36).foldl (fun s r => setF (setRegion s r { regionOf s r with xlat := 4 }) (rCLK_STAT r) 6 2 3) (sWake 3 true (List.range 36))
  [(0, 1), (0, 2), (1, 3), (2, 3)].foldl (fun s p => setEdgeXlat s p.1 p.2 4) s
theorem wit_wake_complete : sAllUp.pwr.waking = true ∧ (powerSet sAllUp 32).all (fun r => regionReady sAllUp r) = true ∧
    (∀ k, k < 32 → getB sAllUp (rFIRN_STAT k) 9 = false) := by decide +kernel

/-- The other clusters of die 0 are gated, and LP_EN = 1 on a package with integrated regulators. -/
def sLastGate : State :=
  let s := (List.range 7).foldl (fun s k => setCluster s (k + 1) { clusterOf s (k + 1) with gated := true }) (withR [(rIVR_LIMIT, 1)] (sPwr 1))
  { setRail s 0 { railOf s 0 with on := true } with pwr := { s.pwr with railStrap := true } }
theorem wit_cluster_gate_last : pwrState sLastGate = 1 ∧ pwrBusy sLastGate = false ∧ regionUp sLastGate 0 = true ∧ (clusterOf sLastGate 0).gated = false ∧
    (∀ k, k < 8 → coreQuiet sLastGate (8 * 0 + k) = true) ∧ sLastGate.pwr.railStrap = true ∧ (railOf sLastGate 0).on = true ∧ getB sLastGate rIVR_LIMIT 0 = true ∧
    (∀ k, k < 8 → 8 * (0 / 8) + k ≠ 0 → (clusterOf sLastGate (8 * (0 / 8) + k)).gated = true) := by decide +kernel
theorem wit_cluster_gate : pwrState (sPwr 1) = 1 ∧ pwrBusy (sPwr 1) = false ∧ regionUp (sPwr 1) 0 = true ∧ (clusterOf (sPwr 1) 0).gated = false ∧
    (∀ k, k < 8 → coreQuiet (sPwr 1) (8 * 0 + k) = true) := by decide +kernel
def sGated : State := setCluster (sPwr 1) 0 { clusterOf (sPwr 1) 0 with gated := true }
theorem wit_gated_access : (clusterOf sGated 0).gated = true ∧ sGated.pwr.held = [] := by decide +kernel
def sRamp (n : Nat) : State := setCluster base 0 { clusterOf base 0 with ramp := n, rampCyc := 256 }
theorem wit_ramp : 0 < (clusterOf (sRamp 1) 0).ramp ∧ (clusterOf (sRamp 7) 0).ramp ≤ 7 ∧ 256 ≤ (clusterOf (sRamp 7) 0).rampCyc ∧ regionUp (sRamp 7) 0 = true ∧ (clusterOf (sRamp 7) 0).gated = false := by decide +kernel
def sLowPow : State := { setRail base 0 { railOf base 0 with lowPow := true } with pwr := { base.pwr with railStrap := true } }
theorem wit_brownout : sLowPow.pwr.railStrap = true ∧ (railOf sLowPow 0).lowPow = true ∧ 25 < (26#5).toNat ∧ getF sLowPow rIVR_LIMIT 8 5 < (26#8).toNat ∧
    (1#8).toNat ≤ getF sLowPow rIVR_LIMIT 8 5 := by decide +kernel

theorem wit_limiter : (3000 : Nat) = min (getF base rPWR_LIMIT 0 13) (getF base rPWR_LIMIT 16 13) ∧ getF base rPWR_LIMIT 16 13 < (3601#13).toNat ∧
    (2849#13).toNat ≤ getF base rPWR_LIMIT 16 13 ∧ 0 < getF base (rPWR_LIMIT + 4) 0 10 := by decide +kernel
theorem wit_thermal_level : clusterPresent base 0 = true ∧ regionUp base 0 = true := by decide +kernel
theorem wit_thermal_warn : tempOf base 0 < getF base rTHERM_CFG 0 8 ∧ getF base rTHERM_CFG 0 8 ≤ (100#8).toNat := by decide +kernel
theorem wit_thermtrip : tripped base = false ∧ 115 ≤ (115#8).toNat ∧ 105 ≤ (105#8).toNat := by decide +kernel

theorem wit_main_loss : base.pwr.off = false ∧ State.reset.pwr.supplies = false ∧ State.reset.pwr.vaux = true ∧ tripped State.reset = false ∧ State.reset.pwr.off = false := by
  decide +kernel
theorem wit_vaux_up : ({ up with pwr := { up.pwr with vaux := false } } : State).pwr.vaux = false := by decide +kernel
theorem wit_dvfs_refused : Served (sess base) .host rDVFS_TARGET ∧ bits (0x2222222213#64).toNat 0 6 < 20 := by unfold Served Awake; decide +kernel
theorem wit_dvfs : Served (sess base) .host rDVFS_TARGET ∧ (∀ n ∈ [bits (0x1414141422#64).toNat 0 6, bits (0x1414141422#64).toNat 8 6, bits (0x1414141422#64).toNat 16 6,
    bits (0x1414141422#64).toNat 24 6, bits (0x1414141422#64).toNat 32 6], 20 ≤ n ∧ n ≤ 34) := by unfold Served Awake; decide +kernel
def sRaise : State := { setPhase base 0 3 with time := { ticks := 100000 } }
theorem wit_settle_timeout : phase sRaise 0 = 3 ∧ (railOf sRaise 0).settled = false ∧ (railOf sRaise 0).since + 100000 ≤ sRaise.time.ticks := by decide +kernel
def sPads : State := let s := sess base; { s with pwr := { s.pwr with padsLatched := some {} } }
theorem wit_pads : Served sPads .host rPAD_RELEASE ∧ sPads.pwr.padsLatched.isSome = true := by unfold Served Awake; decide +kernel

theorem wit_reset_target : Served (sess sRun) .host rRST_REQ ∧ (sess sRun).rstJob = none ∧ (sess sRun).resetting = [] ∧ clusterPresent (sess sRun) (rstCluster 1 0) = true ∧
    regionUp (sess sRun) (rstCluster 1 0) = true ∧ rstRefused (sess sRun) 1 0 = false ∧ 256 ≤ (256#10).toNat ∧ 4 ≤ (4#10).toNat := by unfold Served Awake; decide +kernel
theorem wit_reset_others : rstRefused (sess sRun) 0 0 = false ∧ rstRefused (sess sRun) 2 0 = false ∧ rstRefused (sess sRun) 3 0 = false ∧
    regionUp (sess sRun) (rstCluster 0 0) = true ∧ regionUp (sess sRun) (rstCluster 2 0) = true ∧ regionUp (sess sRun) (32 + 0) = true := by decide +kernel
theorem wit_reset_busy : Served { sess sRun with rstJob := some (1, 0) } .host rRST_REQ ∧ ({ sess sRun with rstJob := some (1, 0) } : State).rstJob ≠ none := by
  unfold Served Awake; decide +kernel
/-- A package of cluster 0 alone; region 1 without a clock; slot 0 FAULTED and not released. -/
def sAbsent : State := { sess sRun with fuses := { grade := 1 } }
theorem wit_reset_absent : Served sAbsent .host rRST_REQ ∧ clusterPresent sAbsent (rstCluster 1 8) = false ∧ clusterPresent sAbsent (rstCluster 0 32) = false ∧
    clusterPresent sAbsent (rstCluster 2 1) = false := by unfold Served Awake; decide +kernel
theorem wit_reset_no_clock : regionUp (sess sRun) (rstCluster 1 8) = false ∧ clusterPresent (sess sRun) (rstCluster 1 8) = true ∧ regionUp (sess sRun) (32 + 1) = false := by
  decide +kernel
def sFaulted : State := withR [(rTASK_STAT 0 0, 5)] (modSlot (sess sRun) 0 0 fun x => { x with unrel := true })
theorem wit_reset_refused : Served sFaulted .host rRST_REQ ∧ rstRefused sFaulted 0 0 = true := by unfold Served Awake; decide +kernel
theorem wit_reset_floe_ends : ({ sRun with rstJob := some (0, 0) } : State).resetting = [] ∧
    (∀ m ∈ floeMembers { sRun with rstJob := some (0, 0) } (0 / 32) (0 % 32), engineQuiet { sRun with rstJob := some (0, 0) } m.1 m.2 = true) := by decide +kernel
def sCoreRst : State := { sRun with rstJob := some (1, 0), resetting := [0] }
theorem wit_reset_core_ends : sCoreRst.rstJob = some (1, 0) ∧ sCoreRst.resetting = [0] ∧ coreDrained sCoreRst 0 = true ∧ regionUp sCoreRst (0 / 8) = true := by decide +kernel

theorem wit_tick : base.pending = [] ∧ base.pwr.vaux = true ∧ base.time.sub = 0 ∧ ({ base with time := { sub := 1 } } : State).time.sub ≠ 0 ∧ ({ base with pwr := { base.pwr with vaux := false } } : State).pending = [] ∧
    ({ base with pwr := { base.pwr with vaux := false } } : State).pwr.vaux = false := by decide +kernel

-- statements about sessions, the host link, boot and the lifecycle (O44 to O47) --------------------------------------------------------------

/-- An owned package whose ROM runs firmware, with an owner key and a debug key in slot 0. -/
def owned (life : Nat) (s : State) : State :=
  { withR [(rBOOT_STAT, 2)] s with sec := { lifeState := life, slots := [(0, ⟨List.replicate 32 0x11#8, List.replicate 32 0x22#8, [], true, false⟩)], bootWait := false } }
theorem wit_session_refused : Served base .host rSESS_CTL ∧ bruta base = false ∧ bruta (owned 1 (withR [(rSESS_STATE, 3)] base)) = true ∧
    sessState (owned 1 (withR [(rSESS_STATE, 3)] base)) = 3 ∧ bruta (owned 0 base) = true ∧ sessState (owned 0 base) < 2 ∧ sessKey (owned 0 base) false = none ∧
    sessKey (owned 1 base) true = none := by unfold Served Awake; decide +kernel
theorem wit_session_request : Served (owned 2 base) .host rSESS_CTL ∧ bruta (owned 2 base) = true ∧ sessState (owned 2 base) < 2 ∧
    sessKey (owned 2 base) false = some (List.replicate 32 0x11#8) ∧ sessKey (owned 2 base) true = some (List.replicate 32 0x22#8) := by unfold Served Awake; decide +kernel
/-- A challenge issued at tick 0 is answered at a tick, with FAILS as given, by the response of a key. -/
def sAnswer (key : List Byte) (tick fails : Nat) : State :=
  let s := owned 1 (withR [(rSESS_STATE, 1 + 16 * fails)] base)
  let h := hmac384 key (regBytes s rSESS_CHALLENGE 32 ++ regBytes s rSESS_NONCE 32 ++ sessLabel false)
  { s with sess := { resp := (List.range 12).map fun i => (i, BitVec.ofNat 32 (leNat ((h.drop (4 * i)).take 4))) }, time := { ticks := tick } }
theorem wit_session_expired : Served (sAnswer [] 1000000000 0) .host rSESS_CTL ∧ sessState (sAnswer [] 1000000000 0) = 1 ∧
    (sAnswer [] 1000000000 0).sess.chalTick + 1000000000 ≤ (sAnswer [] 1000000000 0).time.ticks := by unfold Served Awake; decide +kernel
theorem wit_session_opens : Served (sAnswer (List.replicate 32 0x11#8) 5 0) .host rSESS_CTL ∧ sessState (sAnswer (List.replicate 32 0x11#8) 5 0) = 1 ∧
    (sAnswer (List.replicate 32 0x11#8) 5 0).time.ticks < (sAnswer (List.replicate 32 0x11#8) 5 0).sess.chalTick + 1000000000 ∧
    sessKey (sAnswer (List.replicate 32 0x11#8) 5 0) false = some (List.replicate 32 0x11#8) ∧
    sessResponse (sAnswer (List.replicate 32 0x11#8) 5 0) = hmac384 (List.replicate 32 0x11#8)
      (regBytes (sAnswer (List.replicate 32 0x11#8) 5 0) rSESS_CHALLENGE 32 ++ regBytes (sAnswer (List.replicate 32 0x11#8) 5 0) rSESS_NONCE 32 ++ sessLabel false) := by
  unfold Served Awake; decide +kernel
def sWrong (fails : Nat) : State := owned 1 (withR [(rSESS_STATE, 1 + 16 * fails)] base)
theorem wit_session_wrong : ∀ f ∈ [6, 7], sessState (sWrong f) = 1 ∧ (sWrong f).time.ticks < (sWrong f).sess.chalTick + 1000000000 ∧
    sessKey (sWrong f) (getB (sWrong f) rSESS_STATE 2) = some (List.replicate 32 0x11#8) ∧ getF (sWrong f) rSESS_STATE 4 4 = f ∧
    sessResponse (sWrong f) ≠ hmac384 (List.replicate 32 0x11#8) (regBytes (sWrong f) rSESS_CHALLENGE 32 ++ regBytes (sWrong f) rSESS_NONCE 32 ++ sessLabel false) := by
  decide +kernel
theorem wit_session_close : Served (sess base) .host rSESS_CTL ∧ sessOpen (sess base) = true ∧ sessDebug (sess base) = false := by unfold Served Awake; decide +kernel
def sLocked : State := { withR [(rSESS_STATE, 3)] base with sess := { lockLen := 6000000000 }, time := { ticks := 6000000000 } }
theorem wit_lockout : sessState sLocked = 3 ∧ sLocked.sess.lockTick + sLocked.sess.lockLen ≤ sLocked.time.ticks := by decide +kernel

theorem wit_link_train : (∀ r ∈ [3#3, 4#3, 5#3], 3 ≤ r.toNat ∧ r.toNat ≤ 5) ∧ (∀ w ∈ [1#5, 4#5, 8#5, 16#5], w.toNat ∈ [1, 4, 8, 16]) ∧ base.pwr.off = false ∧ regionUp base 32 = true := by
  decide +kernel
/-- The host's link is up, with Bus Master Enable, a session, vectors pending, and a list of vectors with their mask bits. -/
def sHost (pend : Nat) (vs : List (Nat × Bool)) (s : State) : State :=
  { sess s with host := { linkUp := true, bme := true, pend := pend, vectors := vs.map fun p => (p.1, ⟨0xFEE00000, 5, p.2⟩) } }
theorem wit_jtag_session : (sess base).sess.jtag = false ∧ ({ sess base with sess := { jtag := true } } : State).sess.jtag = true := by decide +kernel
theorem wit_bme : (sHost 0 [] base).host.recs = [] ∧ (sHost 0 [] base).host.pend = 0 := by decide +kernel
def hcmd (ws : List Nat) : HostCmd := ⟨0, ws.map (BitVec.ofNat 64), 0⟩
def sRec : State := { sHost 0 [] base with host := { (sHost 0 [] base).host with bme := false, recs := [⟨hcmd [0x70], 0, 0, 0⟩] } }
theorem wit_bme_record : sRec.host.recs = [⟨hcmd [0x70], 0, 0, 0⟩] ∧ sRec.host.linkUp = true ∧ sRec.host.pend = 0 ∧ cmdF (hcmd [0x70]) 0 9 1 = 0 := by
  decide +kernel
theorem wit_unmask : (sHost (2 ^ 63) [] base).host.linkUp = true ∧ (sHost (2 ^ 63) [] base).host.bme = true ∧ (sHost (2 ^ 63) [] base).host.pend = 2 ^ (63 : Fin 64).val ∧
    (sHost 0 [] base).host.pend = 0 ∧ base.host.linkUp = false ∧ base.host.bme = false := by decide +kernel
theorem wit_bad_access : (((2 : Nat) ≠ 4 ∧ (2 : Nat) ≠ 8) ∨ (0 : BitVec 26).toNat % 2 ≠ 0) ∧ (((8 : Nat) ≠ 4 ∧ (8 : Nat) ≠ 8) ∨ (4 : BitVec 26).toNat % 8 ≠ 0) := by decide +kernel
def sIrq : State := withR [(rHOST_IRQ_STAT, 2 ^ 31)] (sHost 0 [(31, false)] base)
theorem wit_irq_en : Served sIrq .host rHOST_IRQ_EN ∧ getR64 sIrq rHOST_IRQ_EN = 0 ∧ (2147483648#64).toNat = 2 ^ 31 ∧ bits (getR64 sIrq rHOST_IRQ_STAT) 31 1 = 1 ∧
    sIrq.host.linkUp = true ∧ sIrq.host.bme = true ∧ (vecOf sIrq 31).mask = false := by unfold Served Awake; decide +kernel

def sLife (life : Nat) (burning : Bool) (st : Nat) : State :=
  let s := withR [(rSESS_STATE, st)] base
  { s with sec := { lifeState := life, burning := burning, provKey := [(0, 0xA5#32), (23, 7#32)] } }
theorem wit_provision : Served (sLife 0 false 2) .host rLIFECYCLE ∧ (sLife 0 false 2).sec.lifeState = 0 ∧ slotsUsed (sLife 0 false 2) < 4 ∧ (sLife 0 false 2).sec.burning = false ∧
    (sLife 0 true 2).sec.burning = true ∧ Served (sLife 0 true 2) .host rLIFECYCLE := by unfold Served Awake; decide +kernel
theorem wit_debug_unlock : Served (sLife 1 false 2) .host rLIFECYCLE ∧ (sLife 1 false 2).sec.lifeState = 1 ∧ sessOpen (sLife 1 false 2) = true ∧ sessDebug (sLife 1 false 2) = false := by
  unfold Served Awake; decide +kernel
theorem wit_debug_lock : Served (sLife 2 false 6) .host rLIFECYCLE ∧ (sLife 2 false 6).sec.lifeState = 2 ∧ sessOpen (sLife 2 false 6) = true ∧ sessDebug (sLife 2 false 6) = true ∧
    Served (sLife 2 false 2) .host rLIFECYCLE ∧ sessOpen (sLife 2 false 2) = true ∧ sessDebug (sLife 2 false 2) = false := by unfold Served Awake; decide +kernel
theorem wit_attest : (sLife 1 false 2).sec.signing = false ∧ ({ sLife 1 false 2 with sec := { signing := true } } : State).sec.signing = true ∧
    Served { sLife 1 false 2 with sec := { signing := true } } .host rLIFECYCLE := by unfold Served Awake; decide +kernel

/-- CC0 runs and stack 0 is initialised, with the ROM waiting for an image. -/
def sBoot (force : Nat) (strap : Bool) : State :=
  let s := withR [(rCC_CTL 0, 1), (rFIRN_STAT 0, 0x400), (rBOOT_CTL, force)] base
  let t := setStack s 0 { stackOf s 0 with open_ := true }
  { t with pwr := { t.pwr with bootStrap := strap } }
theorem wit_boot : ∀ p ∈ [sBoot 1 false, sBoot 0 true, sBoot 0 false], p.sec.bootWait = true ∧ getB p (rCC_CTL 0) 0 = true ∧ regionUp p 32 = true ∧ stack0Ready p = true ∧
    p.sec.warm = false := by decide +kernel
theorem wit_boot_sources : getB (sBoot 1 false) rBOOT_CTL 0 = true ∧ (sBoot 0 true).pwr.bootStrap = true ∧ getB (sBoot 0 false) rBOOT_CTL 0 = false ∧
    (sBoot 0 false).pwr.bootStrap = false := by decide +kernel
/-- The same with a failed stack 0, and after a restart. -/
def sNoFirn : State := let s := sBoot 0 false; setStack s 0 { stackOf s 0 with open_ := false }
def sWarm : State := let s := sBoot 1 false; { s with sec := { s.sec with warm := true } }
theorem wit_boot_no_firn : sNoFirn.sec.bootWait = true ∧ getB sNoFirn (rCC_CTL 0) 0 = true ∧ regionUp sNoFirn 32 = true ∧ stack0Ready sNoFirn = false ∧
    ImageRead.failed ≠ .noFirn := by decide +kernel
theorem wit_boot_warm : (sWarm.sec.bootWait = true ∧ getB sWarm (rCC_CTL 0) 0 = true ∧ regionUp sWarm 32 = true ∧ stack0Ready sWarm = true ∧ sWarm.sec.warm = true) ∧
    ∃ s1 m p e, imageCheck sWarm = (s1, m, p, e) := ⟨by decide +kernel, _, _, _, _, rfl⟩
def mZero : List Byte := List.replicate 0x2000 0
theorem verify_bad_magic {v : Nat} {m p : List Byte} (h : manField m 0 4 ≠ 0x4154_5242) : verifyImage v m p = 1 := by
  unfold verifyImage
  exact if_pos (Or.inl h)
theorem wit_boot_image : mZero.length = 0x2000 ∧ ([] : List Byte).length = manPlen mZero ∧ ([] : List Byte).length ≤ 0xF00000 ∧ (∀ v, verifyImage v mZero [] ≠ 0) :=
  ⟨List.length_replicate, by decide +kernel, by decide, fun v => by rw [verify_bad_magic (by decide +kernel)]; decide⟩
def sPush (i : Nat) : State := let s := setStack (withR [(rBOOT_STAT, 1)] base) 0 { stackOf base 0 with open_ := true }; { s with sec := { pushIdx := some i } }
theorem wit_push : Served (sPush 8) .host rBOOT_PUSH_CTL ∧ getF (sPush 8) rBOOT_STAT 0 2 = 1 ∧ (sPush 8).sec.pushIdx = some 8 ∧ 8 < 2 ^ 24 ∧ 8 % 8 = 0 ∧ (stackOf (sPush 8) 0).open_ = true ∧ (sPush 8).firnEnt = [] ∧
    (sPush 8).beatErr = [] ∧ mirMode (sPush 8) ≠ 1 ∧ (sPush (2 ^ 24)).sec.pushIdx = some (2 ^ 24) ∧ getF (sPush (2 ^ 24)) rBOOT_STAT 0 2 = 1 := by
  unfold Served Awake; decide +kernel
theorem wit_push_done : (sPush 8).sec.pushIdx = some 8 ∧ ∃ s1 m p e, imageCheck (sPush 8) = (s1, m, p, e) := ⟨by decide +kernel, _, _, _, _, rfl⟩

-- statements about ports, packets and the mirror pair (O48 to O51) -----------------------------------------------------------------------------

/-- Two packages in a ring of X, joined by port 0, in a link state; this one has ID 0 and an open session. -/
def sPort (st : Nat) : State := withR [(rFAB_ROUTE, 1), (rFAB_DIR 0, 1), (rFAB_STAT 0, 0x10000 + st), (rFAB_CTL 0, 0x431), (rFAB_TMO, 4)] (sess base)
/-- Port 0 of the same with a link state of its own. -/
def onPort (x : PortSt) (s : State) : State := setPort s 0 x
theorem wit_port_enable : (portOf (sPort 0) 0).txq = [] ∧ Served (sPort 0) .host (rFAB_CTL 0) ∧ portState (sPort 0) 0 = 0 := by unfold Served Awake; decide +kernel
theorem wit_port_down : ∀ st ∈ [1, 2, 3, 4], Served (sPort st) .host (rFAB_CTL 0) ∧ portState (sPort st) 0 ≠ 0 ∧ (sPort st).tracker = [] ∧ (sPort st).mirror.commits = [] ∧
    (sPort st).mirror.pendWr = none ∧ ((netLoads (sPort st)).all fun m => (toPort 0 m.2).isNone) = true := by
  unfold Served Awake; decide +kernel
theorem wit_port_train : portState (sPort 1) 0 = 1 ∧ (portOf (sPort 1) 0).txq = [] ∧ mirMode (sPort 1) = 0 ∧ (∀ p ∈ [(true, true), (true, false), (false, true)], (p.1 || p.2) = true) ∧ ((true && false) || (true && false)) = false := by decide +kernel
theorem wit_port_lp : portState (sPort 4) 0 = 4 ∧ awake (sPort 4) = true ∧ (portOf (sPort 4) 0).half = false := by decide +kernel
theorem wit_port_wake : ∀ st ∈ [1, 2, 4], Served (sPort st) .host (rFAB_CTL 0) ∧ getB (sPort st) (rFAB_CTL 0) 0 = true ∧ getB (sPort st) (rFAB_CTL 0) 2 = false ∧
    portUp (sPort st) 0 = (st == 2) ∧ portState (sPort st) 0 = st ∧ (portOf (sPort st) 0).eth = false := by unfold Served Awake; decide +kernel
/-- A packet of package 1 for this package, and what arrives of it on a virtual lane, or on VL 2 or 3. -/
def fp (typ tag addr len : Nat) (payload : List Byte) (sig : Bool) : Packet := ⟨{ mkHdr typ 0 1 tag 15 addr len with sig := sig, scount := 3 }, payload, []⟩
def got (vl n : Nat) (k : Packet) : RxPkt := ⟨vl, 0, 1, 0, 700, n, k⟩
def sSleepLp : State := onPort { rx := [got 2 0 (fp 11 0 0 0 [] false)] } (withR [(rPWR_STATE, 2)] (sPort 4))
theorem wit_wake_packet : (portOf sSleepLp 0).rx = [got 2 0 (fp 11 0 0 0 [] false)] ∧ (got 2 0 (fp 11 0 0 0 [] false)).pkt.hdr.typ = 11 ∧ portState sSleepLp 0 = 4 ∧
    pwrState sSleepLp = 2 ∧ sSleepLp.pwr.entry = none ∧ sSleepLp.pwr.waking = false ∧ sSleepLp.pwr.off = false ∧ sSleepLp.pwr.vaux = true ∧ sSleepLp.pwr.held = [] := by decide +kernel

/-- Port 0 is up, holds flits 7 and 8, and expects flit 4095. -/
def fr (seq ack : Nat) (nak idle : Bool) (credits : List Nat) : FlitRec := ⟨seq, 0, 0, !idle, !idle, idle, ack, nak, credits, List.replicate 240 0⟩
def none8 : List Nat := List.replicate 8 0
def sLink (eth : Bool) : State := onPort { eth := eth, replay := [fr 7 0 false false none8, fr 8 0 false false none8], nextSeq := 9, rxSeq := 4095 } (sPort 2)
theorem wit_link : ∀ e ∈ [false, true], portUp (sLink e) 0 = true ∧ (portOf (sLink e) 0).txq = [] ∧ (portOf (sLink e) 0).ret = [] ∧ (portOf (sLink e) 0).ackDue = false ∧
    (portOf (sLink e) 0).nakDue = false ∧ (portOf (sLink e) 0).eth = e := by decide +kernel
-- a flit of 248 bytes and its CRC: no CRC need be worked out
theorem runValue_six (x : Nat) : runValue (byteRun 6 x) = x % 2 ^ 48 := by simp [runValue, byteRun]; omega
theorem runValue_eight (x : Nat) : runValue (byteRun 8 x) = x % 2 ^ 64 := by simp [runValue, byteRun]; omega
theorem runValue_four (x : Nat) : runValue (byteRun 4 x) = x % 2 ^ 32 := by simp [runValue, byteRun]; omega
theorem byteRun_length (n : Nat) : ∀ x, (byteRun n x).length = n := by
  induction n with
  | zero => exact fun _ => rfl
  | succ n ih => exact fun x => congrArg Nat.succ (ih _)
theorem foldl_lt {α : Type} {n : Nat} (f : Nat → α → Nat) (hf : ∀ r a, r < n → f r a < n) (l : List α) : ∀ r, r < n → l.foldl f r < n := by
  induction l with
  | nil => exact fun _ h => h
  | cons a l ih => exact fun r h => ih _ (hf r a h)
theorem crcBit_lt {r : Nat} (b : Bool) : crcBit 64 0x42F0E1EBA9EA3693 r b < 2 ^ 64 := by
  unfold crcBit
  dsimp only
  split
  · exact Nat.xor_lt_two_pow (Nat.mod_lt _ (by decide)) (by decide)
  · exact Nat.mod_lt _ (by decide)
theorem crc64_lt (bs : List Byte) : crc64 bs < 2 ^ 64 := foldl_lt _ (fun _ _ h => foldl_lt _ (fun _ _ _ => crcBit_lt _) _ _ h) _ _ (by decide)
theorem crc_step_lt {r : Nat} (b : Bool) (h : r < 2 ^ 32) : (if (r % 2 == 1) != b then r / 2 ^^^ 0xEDB88320 else r / 2) < 2 ^ 32 := by
  split
  · exact Nat.xor_lt_two_pow (by omega) (by decide)
  · omega
theorem crc32_lt (bs : List Byte) : crc32 bs < 2 ^ 32 :=
  Nat.xor_lt_two_pow (foldl_lt _ (fun _ _ h => foldl_lt _ (fun _ _ h => crc_step_lt _ h) _ _ h) _ _ (by decide)) (by decide)
/-- What the link header and the content of a flit's first 248 bytes say. -/
def headOf (bs : List Byte) : FlitRec :=
  let h := runValue (bs.take 8)
  { seq := bits h 0 12, vl := bits h 12 2, cls := bits h 14 1, sop := bits h 15 1 == 1, eop := bits h 16 1 == 1, idle := bits h 17 1 == 1,
    ackSeq := bits h 18 12, nak := bits h 30 1 == 1, credits := (List.range 8).map fun i => bits h (32 + 4 * i) 4, content := (bs.drop 8).take 240 }
theorem flitOf_append {bs : List Byte} (h : bs.length = 248) : flitOf (bs ++ byteRun 8 (crc64 bs)) = some (headOf bs) := by
  have h8 : (byteRun 8 (crc64 bs)).length = 8 := byteRun_length 8 _
  have hd : (bs ++ byteRun 8 (crc64 bs)).drop 248 = byteRun 8 (crc64 bs) := by rw [← h]; exact List.drop_left
  have ht : (bs ++ byteRun 8 (crc64 bs)).take 248 = bs := by rw [← h]; exact List.take_left
  have h1 : (bs ++ byteRun 8 (crc64 bs)).take 8 = bs.take 8 := List.take_append_of_le_length (by omega)
  have h2 : ((bs ++ byteRun 8 (crc64 bs)).drop 8).take 240 = (bs.drop 8).take 240 := by
    rw [List.drop_append_of_le_length (by omega), List.take_append_of_le_length (by rw [List.length_drop]; omega)]
  have hc : ¬ ((bs ++ byteRun 8 (crc64 bs)).length ≠ 256 ∨ runValue ((bs ++ byteRun 8 (crc64 bs)).drop 248) ≠ crc64 ((bs ++ byteRun 8 (crc64 bs)).take 248)) := by
    rw [hd, ht, runValue_eight, Nat.mod_eq_of_lt (crc64_lt bs), List.length_append, h, h8]; simp
  unfold flitOf
  rw [if_neg hc, h1, h2]; rfl
theorem flitOf_flitBytes {f : FlitRec} {bs : List Byte} (hb : flitBytes f = bs ++ byteRun 8 (crc64 bs)) (h : bs.length = 248) (hf : headOf bs = f) :
    flitOf (flitBytes f) = some f := by rw [hb, flitOf_append h, hf]
/-- A damaged flit; the flits 4095, 0, 4094 and one that asks for a replay; and an IDLE one with credits. -/
theorem wit_flit_bad : flitOf [] = none := by decide
def f0 : FlitRec := fr 4095 7 false false none8
theorem wit_flit : flitOf (flitBytes f0) = some f0 ∧ f0.nak = false ∧ f0.credits = List.replicate 8 0 ∧ f0.idle = false ∧ f0.seq = (portOf (sLink false) 0).rxSeq ∧
    f0.sop = true ∧ f0.eop = true :=
  ⟨flitOf_flitBytes rfl (by decide +kernel) (by decide +kernel), by decide +kernel⟩
def fLong : FlitRec := { f0 with eop := false }
theorem wit_flit_long : flitOf (flitBytes fLong) = some fLong ∧ fLong.eop = false :=
  ⟨flitOf_flitBytes rfl (by decide +kernel) (by decide +kernel), by decide +kernel⟩
def fAhead : FlitRec := fr 0 6 false false none8
def fOld : FlitRec := fr 4094 6 false false none8
theorem wit_flit_order_bytes : flitOf (flitBytes fAhead) = some fAhead ∧ flitOf (flitBytes fOld) = some fOld :=
  ⟨flitOf_flitBytes rfl (by decide +kernel) (by decide +kernel), flitOf_flitBytes rfl (by decide +kernel) (by decide +kernel)⟩
theorem wit_flit_order : ∀ f ∈ [fAhead, fOld], f.nak = false ∧ f.idle = false ∧
    ((portOf (sLink false) 0).replay.any fun g => g.seq == f.ackSeq) = false ∧ 0 < (f.seq + 4096 - (portOf (sLink false) 0).rxSeq) % 4096 := by decide +kernel
theorem wit_flit_sides : (fAhead.seq + 4096 - (portOf (sLink false) 0).rxSeq) % 4096 < 2048 ∧ (portOf (sLink false) 0).lossy = false ∧
    2048 ≤ (fOld.seq + 4096 - (portOf (sLink false) 0).rxSeq) % 4096 := by decide +kernel
def fNak : FlitRec := fr 0 6 true true none8
theorem wit_flit_nak : flitOf (flitBytes fNak) = some fNak ∧ fNak.nak = true ∧ fNak.idle = true ∧ fNak.vl ≠ 3 ∧ fNak.credits = List.replicate 8 0 ∧
    ((portOf (sLink false) 0).replay.any fun g => g.seq == fNak.ackSeq) = false ∧ (portOf (sLink false) 0).replay ≠ [] ∧
    (portOf (sLink false) 0).replays < retryMax (sLink false) 0 :=
  ⟨flitOf_flitBytes rfl (by decide +kernel) (by decide +kernel), by decide +kernel⟩
def sTired : State := onPort { portOf (sLink false) 0 with replays := retryMax (sLink false) 0 } (sLink false)
theorem wit_flit_nak_last : retryMax sTired 0 ≤ (portOf sTired 0).replays ∧ (portOf sTired 0).replay ≠ [] ∧ portUp sTired 0 = true := by decide +kernel
def fCred : FlitRec := fr 4095 6 false true [3, 0, 0, 0, 0, 0, 0, 15]
theorem wit_flit_credits : flitOf (flitBytes fCred) = some fCred ∧ fCred.nak = false ∧ fCred.idle = true ∧ fCred.vl ≠ 3 ∧ (fCred.credits.any fun n => n != 0) = true ∧
    fCred.seq = (portOf (sLink false) 0).rxSeq :=
  ⟨flitOf_flitBytes rfl (by decide +kernel) (by decide +kernel), by decide +kernel⟩


-- a frame of one flit from the peer to the port's own address, which no proof can see
theorem frameOf_one {own : Nat} {f : List Byte} (hf : f.length = 256) (ho : own < 2 ^ 48) :
    frameOf 0 own 0x88B5 (frameBytes own 0 none 0x88B5 [f]) = .flits [f] := by
  obtain ⟨b, hb⟩ : ∃ b, b = netBytes 6 0 ++ netBytes 2 0x88B5 ++ byteRun 8 17 := ⟨_, rfl⟩
  obtain ⟨a, ha⟩ : ∃ a, a = netBytes 6 own := ⟨_, rfl⟩
  obtain ⟨c, hc⟩ : ∃ c, c = byteRun 4 (crc32 (a ++ b ++ f)) := ⟨_, rfl⟩
  have e : frameBytes own 0 none 0x88B5 [f] = a ++ b ++ f ++ c := by simp [frameBytes, ha, hb, hc]
  have la : a.length = 6 := by simp [ha, netBytes, byteRun_length]
  have lb : b.length = 16 := by rw [hb]; decide
  have lc : c.length = 4 := by rw [hc, byteRun_length]
  have hv : netValue a = own := by rw [ha, netValue, netBytes, List.reverse_reverse, runValue_six, Nat.mod_eq_of_lt ho]
  have hl : (a ++ b ++ f ++ c).length = 282 := by simp [la, lb, lc, hf]
  have h1 : (a ++ b ++ f ++ c).drop 278 = c := by rw [show 278 = (a ++ b ++ f).length by simp [la, lb, hf]]; exact List.drop_left
  have h2 : (a ++ b ++ f ++ c).take 278 = a ++ b ++ f := by rw [show 278 = (a ++ b ++ f).length by simp [la, lb, hf]]; exact List.take_left
  have h3 (i n : Nat) (h : i + n ≤ 16) : ((a ++ b ++ f ++ c).drop (6 + i)).take n = (b.drop i).take n := by
    rw [List.append_assoc, List.append_assoc, ← la, List.drop_length_add_append, List.drop_append_of_le_length (by omega),
      List.take_append_of_le_length (by rw [List.length_drop]; omega)]
  have h4 : (a ++ b ++ f ++ c).take 6 = a := by rw [List.append_assoc, List.append_assoc, ← la]; exact List.take_left
  have h5 : ((a ++ b ++ f ++ c).drop 22).take 256 = f := by
    rw [List.append_assoc, show 22 = (a ++ b).length by simp [la, lb], List.drop_left, ← hf]; exact List.take_left
  have hcrc : runValue c = crc32 (a ++ b ++ f) := by rw [hc, runValue_four, Nat.mod_eq_of_lt (crc32_lt _)]
  have t1 : ((a ++ b ++ f ++ c).drop 12).take 2 = netBytes 2 0x88B5 := by rw [h3 6 2 (by decide), hb]; decide
  have t2 : ((a ++ b ++ f ++ c).drop 14).take 8 = byteRun 8 17 := by rw [h3 8 8 (by decide), hb]; decide
  have t3 : ((a ++ b ++ f ++ c).drop 6).take 6 = netBytes 6 0 := by rw [h3 0 6 (by decide), hb]; decide
  have n1 : netValue (netBytes 2 0x88B5) = 0x88B5 := by decide
  have n2 : netValue (netBytes 6 0) = 0 := by decide
  have n3 : runValue (byteRun 8 17) = 17 := by decide
  have n4 : bits 17 0 4 = 1 := by decide
  have n5 : bits 17 4 4 = 1 := by decide
  rw [e]
  generalize a ++ b ++ f = y at *
  generalize y ++ c = x at *
  simp [frameOf, hl, h1, h2, hcrc, t1, t2, t3, h4, h5, hv, n1, n2, n3, n4, n5]

/-- Port 0 with Ethernet framing whose peer has address 0; its own is what Config says. -/
def sEth : State := withR [(rFAB_ETH, 0x88B5)] (sLink true)
def frameAt (bs : List Byte) : Frame := frameOf (bits (getR64 sEth (rFAB_MAC 0)) 0 48) (Config.ownMac (0 : PortId)).toNat (getF sEth rFAB_ETH 0 16) bs
/-- Fourteen bytes with an EtherType, and their FCS. -/
def shortFrame (ty : Nat) : List Byte := let bs := List.replicate 12 0 ++ netBytes 2 ty; bs ++ byteRun 4 (crc32 bs)
theorem wit_frame_pause : frameAt (shortFrame 0x8808) = .pause := by decide +kernel
theorem wit_frame_bad : frameAt [] = .bad ∧ (portOf sEth 0).lossy = false := by decide +kernel
theorem wit_frame_other : frameAt (shortFrame 0x800) = .other := by
  unfold frameAt frameOf
  rw [if_neg (by decide +kernel)]
  dsimp only
  rw [if_neg (by decide +kernel), if_pos (Or.inr (Or.inr (Or.inl (by decide +kernel))))]
theorem wit_frame_flit : frameAt (frameBytes (Config.ownMac (0 : PortId)).toNat 0 none 0x88B5 [flitBytes f0]) = .flits [flitBytes f0] := by
  unfold frameAt
  rw [show bits (getR64 sEth (rFAB_MAC 0)) 0 48 = 0 by decide +kernel, show getF sEth rFAB_ETH 0 16 = 0x88B5 by decide +kernel]
  exact frameOf_one (by decide +kernel) (BitVec.isLt _)
-- and every frame is some addresses, body and FCS
theorem frame_split (bs : List Byte) (n : Nat) : bs.take 12 ++ (bs.drop 12).take n ++ (bs.drop 12).drop n = bs := by
  rw [List.append_assoc, List.take_append_drop, List.take_append_drop]
theorem wit_frames : (∃ a b f, frameAt (a ++ b ++ f) = .pause) ∧ (∃ a b f, frameAt (a ++ b ++ f) = .bad) ∧ (∃ a b f, frameAt (a ++ b ++ f) = .other) ∧
    ∃ a b f, frameAt (a ++ b ++ f) = .flits [flitBytes f0] :=
  have k (bs : List Byte) (x : Frame) (h : frameAt bs = x) : ∃ a b f, frameAt (a ++ b ++ f) = x := ⟨_, _, _, (congrArg frameAt (frame_split bs (bs.length - 16))).trans h⟩
  ⟨k _ _ wit_frame_pause, k _ _ wit_frame_bad.1, k _ _ wit_frame_other, k _ _ wit_frame_flit⟩
theorem wit_rto : (portOf sEth 0).eth = true ∧ portUp sEth 0 = true ∧ (portOf sEth 0).replay ≠ [] ∧ (portOf sEth 0).rtos + 1 < retryMax sEth 0 ∧
    (portOf sEth 0).replays < retryMax sEth 0 ∧ tbNow sEth < (portOf sEth 0).since + 1000 * getF sEth (rFAB_CTL 0) 8 8 := by decide +kernel
def sEthLate : State := { sEth with time := { tb := 5000 * 2 ^ 32 } }
theorem wit_rto_late : (portOf sEthLate 0).since + 1000 * getF sEthLate (rFAB_CTL 0) 8 8 ≤ tbNow sEthLate ∧ (portOf sEthLate 0).replay ≠ [] := by decide +kernel

/-- Entry 0 of the tracker is held since time 0, on port 0, by a unit; the time base stands at 5 µs. -/
def sTrk (w : TrkWho) : State :=
  let s := setTrk (sPort 2) 0 { gen := 15, busy := some (w, 0, 0) }
  withR [(ledgerBase qFABTRK, 1)] { s with time := { tb := 5000 * 2 ^ 32 } }
theorem wit_tracker_timeout : (trkOf (sTrk (.ccRead 3 0)) (0 : BitVec 16).toNat).busy = some (.ccRead (3 : CcId).val 0, 0, 0) ∧
    0 + 1000 * max 1 (getF (sTrk (.ccRead 3 0)) rFAB_TMO 0 16) < tbNow (sTrk (.ccRead 3 0)) ∧ portUp (sTrk (.ccRead 3 0)) 0 = true := by decide +kernel
/-- A follower of SRC = 2, at a multiple of its interval and elsewhere; and with its TIME_RSP, whose stamps are 10, 20 and 30, in the receive buffer, in time or late. -/
def sTime (ns : Nat) : State := let s := withR [(rTB_CTL, 2)] (sPort 2); { s with time := { s.time with tb := ns * 2 ^ 32 } }
theorem wit_time_exchange : tbSrc (sTime 131072) = 2 ∧ tbPort (sTime 131072) = (0 : PortId).val ∧ tbNow (sTime 131072) % tbInterval (sTime 131072) < 10 ∧
    (sTime 131072).time.exch ≠ some (tbNow (sTime 131072) / tbInterval (sTime 131072)) ∧ portUsed (portOf (sTime 131072) 0) 4 < 16 ∧
    (portOf (sTime 131072) 0).replay.length < 1024 ∧ 10 ≤ tbNow (sTime 900) % tbInterval (sTime 900) := by decide +kernel
def kRsp : RxPkt := got 2 0 (fp 10 0 0 24 (leBytes 8 10 ++ leBytes 8 20 ++ leBytes 8 30) false)
def sRsp (late : Bool) : State := let s := onPort { rx := [kRsp] } (sTime 900); { s with time := { s.time with t1 := some (10, 4), t1Late := late } }
theorem wit_time_rsp : ∀ l ∈ [false, true], (portOf (sRsp l) 0).rx = [kRsp] ∧ kRsp.pkt.hdr.typ = 10 ∧ payWord kRsp.pkt 0 = (10#64).toNat ∧ payWord kRsp.pkt 1 = (20#64).toNat ∧ payWord kRsp.pkt 2 = (30#64).toNat ∧
    (sRsp l).time.t1 = some (10, 4) ∧ (sRsp l).time.t1Late = l ∧ kRsp.marks = 0 ∧ portUp (sRsp l) 0 = true ∧ tbSrc (sRsp l) = 2 ∧ tbPort (sRsp l) = (0 : PortId).val := by decide +kernel
def sReq : State := onPort { rx := [got 2 0 (fp 9 0 0 8 (leBytes 8 10) false)] } (sPort 2)
theorem wit_time_req : (portOf sReq 0).rx = [got 2 0 (fp 9 0 0 8 (leBytes 8 10) false)] ∧ (fp 9 0 0 8 (leBytes 8 10) false).hdr.typ = 9 ∧
    payWord (fp 9 0 0 8 (leBytes 8 10) false) 0 = (10#64).toNat ∧ portUp sReq 0 = true := by decide +kernel

/-- One packet has landed from port 0 at its target. -/
def landed (vl : Nat) (k : Packet) (s : State) : State := onPort { landed := [got vl 5 k] } s
/-- What O50 supposes of a state whose landed packet is k. -/
def Lands (s : State) (vl : Nat) (k : Packet) : Prop :=
  portUp s 0 = true ∧ (portOf s 0).landed = [got vl 5 k] ∧ k.hdr.dstPkg = ownPkg s ∧ inTurn s 0 (got vl 5 k) = true
def kWrite (sig : Bool) : Packet := fp 1 0 (storeBase 0) 4 [1, 2, 3, 4] sig
theorem wit_write_packet : ∀ b ∈ [false, true], Lands (landed 0 (kWrite b) (sPort 2)) 0 (kWrite b) ∧ (kWrite b).hdr.typ = 1 ∧ placeOf (kWrite b).hdr.addr (kWrite b).payload.length = .store 0 ∧
    placeOf (storeBase 0 + 2 ^ 21 - 4) 4 = .store 0 ∧ corePresent (landed 0 (kWrite b) (sPort 2)) 0 = true ∧ storeWaits (landed 0 (kWrite b) (sPort 2)) 0 = false ∧
    (kWrite b).hdr.sig = b ∧ (kWrite b).hdr.score = 0 := by unfold Lands; decide +kernel
def kRead : Packet := fp 2 0 (storeBase 0) 8 [] false
theorem wit_read_packet : Lands (landed 0 kRead (sPort 2)) 0 kRead ∧ kRead.hdr.typ = 2 ∧ placeOf kRead.hdr.addr kRead.hdr.len = .store 0 ∧
    storeWaits (landed 0 kRead (sPort 2)) 0 = false := by unfold Lands; decide +kernel
def kResp (typ : Nat) : Packet := fp typ 0 0 (if typ = 3 then 4 else 0) (if typ = 3 then [1, 2, 3, 4] else []) false
theorem wit_late_response : ∀ t ∈ [3, 4, 5], Lands (landed 1 (kResp t) (sPort 2)) 1 (kResp t) ∧ (kResp t).hdr.typ = t ∧
    (trkOf (landed 1 (kResp t) (sPort 2)) (kResp t).hdr.tag).busy = none ∧
    (trkOf (landed 1 (kResp t) (setTrk (sPort 2) 0 { gen := 14, busy := some (.ccRead 0 0, 0, 0) })) 0).gen ≠ (kResp t).hdr.tgen := by unfold Lands; decide +kernel
/-- A transfer whose read, at a place of its order, or whose write, is outstanding in entry 0. -/
def sFabMove (typ : Nat) (w : TrkWho) : State := landed 1 (kResp typ) (withX (xfer tmplSig) (sTrk w))
theorem wit_read_data : ∀ p ∈ [0, 8], Lands (sFabMove 3 (.descRead 0 0 0 p)) 1 (kResp 3) ∧
    (trkOf (sFabMove 3 (.descRead 0 0 0 p)) (kResp 3).hdr.tag).busy = some (.descRead 0 0 0 p, 0, 0) ∧
    (trkOf (sFabMove 3 (.descRead 0 0 0 p)) (kResp 3).hdr.tag).gen = (kResp 3).hdr.tgen ∧ (descOf (sFabMove 3 (.descRead 0 0 0 p)) 0 0).active = some (xfer tmplSig) ∧
    (xfer tmplSig).id = 0 ∧ (xfer tmplSig).stopAt = none ∧ (xfer tmplSig).early = [] ∧ (xfer tmplSig).sent + (xfer tmplSig).arrived.length = 0 ∧ (kResp 3).payload ≠ [] := by
  unfold Lands; decide +kernel
theorem wit_ack : Lands (sFabMove 4 (.descWrite 0 0 0 4 false)) 1 (kResp 4) ∧ (trkOf (sFabMove 4 (.descWrite 0 0 0 4 false)) 0).busy = some (.descWrite 0 0 0 4 false, 0, 0) ∧
    (trkOf (sFabMove 4 (.descWrite 0 0 0 4 false)) 0).gen = (kResp 4).hdr.tgen ∧ (descOf (sFabMove 4 (.descWrite 0 0 0 4 false)) 0 0).active = some (xfer tmplSig) := by
  unfold Lands; decide +kernel
theorem wit_error_packet : Lands (sFabMove 5 (.ccRead 0 0)) 1 (kResp 5) ∧ (trkOf (sFabMove 5 (.ccRead 0 0)) 0).busy = some (.ccRead 0 0, 0, 0) ∧
    (kResp 5).hdr.status < 16 := by unfold Lands; decide +kernel
def kMsg : Packet := fp 6 0 3 64 (wordBytes (emptyMsg (msgHeader 1 0 true false false false 1 2 0 0 0))) false
theorem wit_msg_packet : Lands (landed 0 kMsg (sPort 2)) 0 kMsg ∧ kMsg.hdr.typ = 6 ∧ corePresent (landed 0 kMsg (sPort 2)) kMsg.hdr.score = true ∧
    hdrReq ((wordsOf kMsg.payload).headD 0) = true := by unfold Lands; decide +kernel
def kCred : Packet := fp 7 5 2 0 [] false
def sRemoteCredit : State :=
  landed 1 kCred (withR [(rOCH_CRED 0 2, 62), (ledgerBase qCHCRED, 1)] (modCore (sPort 2) 0 fun k => { k with credOut := [(2, 1)], live := [(2, 5, 15)] }))
theorem wit_credit_packet : Lands sRemoteCredit 1 kCred ∧ kCred.hdr.typ = 7 ∧ 2 = kCred.hdr.addr % 64 ∧ (coreOf sRemoteCredit 0).live.contains (2, 5, 15) = true ∧
    strayedOf sRemoteCredit 0 2 = 0 ∧ reclaimOf sRemoteCredit 0 2 = 0 ∧ 0 < credOutOf sRemoteCredit 0 2 ∧ getF sRemoteCredit (rOCH_CRED 0 2) 0 6 < 63 := by
  unfold Lands; decide +kernel
def kSig : Packet := fp 8 0 0 0 [] true
theorem wit_signal_packet : Lands (landed 0 kSig (sPort 2)) 0 kSig ∧ kSig.hdr.typ = 8 ∧ corePresent (landed 0 kSig (sPort 2)) kSig.hdr.score = true := by unfold Lands; decide +kernel
/-- A WRITE with a signal behind an earlier WRITE of its source that has arrived. -/
def sBehind : State := onPort { landed := [got 0 5 (kWrite true)], rx := [got 0 4 (kWrite false)] } (sPort 2)
theorem wit_write_behind : portUp sBehind 0 = true ∧ (portOf sBehind 0).landed = [got 0 5 (kWrite true)] ∧ got 0 4 (kWrite false) ∈ (portOf sBehind 0).rx ∧
    (kWrite false).hdr.typ = 1 ∧ (kWrite false).hdr.srcPkg = (kWrite true).hdr.srcPkg ∧ (kWrite false).hdr.dstPkg = ownPkg sBehind ∧ (4 : Nat) < 5 := by decide +kernel

/-- The secondary of a mirror pair, whose region 0 is the first 2 MiB of firn and whose log is 4 KiB at 4 MiB, with a log, commits and a packet in the receive buffer. -/
def sMir (log : List DeltaRec) (commits : List (Nat × Nat × Nat)) (rx : List RxPkt) (room : Nat) : State :=
  let s := setStack (onPort { rx := rx } (withR [(rMIR_CTL, 6), (rFAB_SLOTS 0, 0xFFFF_FFFF)] (sPort 2))) 0 { stackOf base 0 with open_ := true }
  { s with mirror := { active := 1, layout := [(0, 2 ^ 48)], logAt := (2 ^ 22, room), log := log, commits := commits } }
def kDelta : RxPkt := got 3 0 { fp 12 0 64 3 [1, 2, 3] false with mask := [true, true, true] }
def d1 (no : Nat) : DeltaRec := ⟨0, 64, [1, 2, 3], [true, true, true], no⟩
theorem wit_delta : ∀ r ∈ [64, 63], portUp (sMir [] [] [kDelta] r) 0 = true ∧ rxHead (sMir [] [] [kDelta] r) 0 3 = some kDelta ∧ (portOf (sMir [] [] [kDelta] r) 0).rx = [kDelta] ∧
    mirMode (sMir [] [] [kDelta] r) = 2 ∧ mirActive (sMir [] [] [kDelta] r) = true ∧ kDelta.pkt.hdr.typ = 12 ∧
    d1 0 = ⟨kDelta.pkt.hdr.regions % 16, kDelta.pkt.hdr.addr, kDelta.pkt.payload, kDelta.pkt.mask, (sMir [] [] [kDelta] r).mirror.logNo⟩ ∧ deltaSize (d1 0) = 64 ∧
    2 ^ 22 = (sMir [] [] [kDelta] r).mirror.logAt.1 + (sMir [] [] [kDelta] r).mirror.logPos ∧ fabSlotOpen (sMir [] [] [kDelta] r) 0 (wheelOf (sMir [] [] [kDelta] r) 0) = true ∧
    firnOpenFor (sMir [] [] [kDelta] r) whoFabric (2 ^ 22) 64 = true ∧ 2 ^ 22 % 256 + 64 ≤ 256 ∧ (sMir [] [] [kDelta] r).firnEnt = [] ∧
    (sMir [] [] [kDelta] r).beatErr = [] := by decide +kernel
theorem wit_delta_room : logUsed (sMir [] [] [kDelta] 64) + 64 ≤ (sMir [] [] [kDelta] 64).mirror.logAt.2 ∧ (sMir [] [] [kDelta] 64).mirror.logPos + 64 ≤ (sMir [] [] [kDelta] 64).mirror.logAt.2 ∧
    (sMir [] [] [kDelta] 63).mirror.logAt.2 < logUsed (sMir [] [] [kDelta] 63) + 64 := by decide +kernel
def kCommit : RxPkt := got 3 0 { fp 13 0 0 0 [] false with hdr := { (fp 13 0 0 0 [] false).hdr with seq := 9, regions := 1 } }
theorem wit_commit : rxHead (sMir [] [] [kCommit] 64) 0 3 = some kCommit ∧ (portOf (sMir [] [] [kCommit] 64) 0).rx = [kCommit] ∧ kCommit.pkt.hdr.typ = 13 ∧
    mirMode (sMir [] [] [kCommit] 64) = 2 ∧ mirActive (sMir [] [] [kCommit] 64) = true := by decide +kernel
/-- A commit that covers delta 0, with that delta, the next one, or none in the log. -/
def sApply (log : List DeltaRec) : State := sMir log [(9, 1, 1)] [] 64
theorem wit_commit_apply : ∀ n ∈ [0, 1], (sApply [d1 n]).mirror.commits = [(9, 1, 1)] ∧ (sApply [d1 n]).mirror.pendWr = none ∧ mirMode (sApply [d1 n]) = 2 ∧
    (sApply [d1 n]).firnEnt = [] ∧ (sApply [d1 n]).beatErr = [] ∧ (sApply [d1 n]).mirror.log = [d1 n] ∧
    (sApply [d1 n]).mirror.layout.find? (fun r => r.1 == (d1 n).region) = some (0, 2 ^ 48) ∧ 64 = mirBase (2 ^ 48) + (d1 n).off ∧ bits 1 (d1 n).region 1 = 1 ∧
    (d1 n).mask = List.replicate (d1 n).data.length true ∧ 64 % 256 + (d1 n).data.length ≤ 256 ∧ 64 + (d1 n).data.length ≤ 2 ^ 38 ∧ (sApply []).mirror.log = [] := by decide +kernel
theorem wit_commit_apply_numbers : (d1 0).no < 1 ∧ 1 ≤ (d1 1).no := by decide
def kAck : RxPkt := got 3 0 (fp 14 0 0 0 [] false)
def sPrimary : State :=
  let s := onPort { rx := [kAck] } (withR [(rMIR_CTL, 0x10105)] (sPort 2))
  { s with mirror := { active := 1, layout := [(0, 2 ^ 48)], unacked := [(0, 0)] }, time := { tb := 5000 * 2 ^ 32 } }
theorem wit_commit_ack : portUp sPrimary 0 = true ∧ rxHead sPrimary 0 3 = some kAck ∧ kAck.pkt.hdr.typ = 14 ∧ (sPrimary.mirror.unacked.any fun u => u.1 == kAck.pkt.hdr.seq) = true := by
  decide +kernel
theorem wit_mirror_lag : sPrimary.mirror.unacked = (0, 0) :: [] ∧ 0 + 1000 * getF sPrimary rMIR_CTL 16 16 < tbNow sPrimary := by decide +kernel
theorem wit_mirror_control : Served (sPort 2) .host rMIR_CTL ∧ getB (sPort 2) rMIR_STAT 0 = false ∧ bits (0#16 ++ 0xFF00#16).toNat 0 2 = 0 ∧
    Served (withR [(rMIR_STAT, 1)] (sPort 2)) .host rMIR_CTL ∧ getB (withR [(rMIR_STAT, 1)] (sPort 2)) rMIR_STAT 0 = true := by unfold Served Awake; decide +kernel
/-- The partner has said that it is a secondary whose log and region 0, of 2 MiB, pass. -/
def sAgree : State := { sPort 2 with mirror := { partner := some ⟨2, true, 1, [1]⟩ } }
theorem wit_mirror_active : Served sAgree .host rMIR_CTL ∧ getB sAgree rMIR_STAT 0 = false ∧ bits (0#16 ++ 1#16).toNat 0 2 = 1 ∧ portUp sAgree 0 = true ∧ mirActive sAgree = false ∧
    sAgree.mirror.partner = some ⟨2, true, 1, [1]⟩ := by unfold Served Awake; decide +kernel

-- statements about host commands, control cores and serving (O52 to O55) ---------------------------------------------------------------------------

/-- A command that is the next of a host whose link and ring are up. -/
def sNext (ws : List Nat) (s : State) : State := let t := sHost 0 [] s; { t with host := { t.host with accepted := [hcmd ws] } }
theorem next_command {s : State} {c : HostCmd} {opc : Nat} (h : s.host.accepted = [c] ∧ cmdOpc c = opc ∧ fenceOk s c = true ∧ hostDead s = false ∧ busMaster s = true ∧
    s.host.recs = [] ∧ cmdF c 0 9 1 = 0) : NextCommand s c opc := ⟨⟨[], h.1⟩, h.2⟩
/-- Blocks of Table 16-4: NOP, REGW, SIGNAL, POWER, CLOSE and MOVE, and the same with a bit that they do not use. -/
def wNop : List Nat := [0, 0, 0, 0, 0, 0, 0, 0]
def wRegw : List Nat := [3, rTASK_PC 0 0, 5, 0, 0, 0, 0, 0]
def wSig : List Nat := [4, 0, 0, 0, 3 + 2 ^ 32, 0, 0, 0]
def wPower : List Nat := [5, 1, 0, 0, 0, 0, 0, 0]
def wClose : List Nat := [6, 0, 0, 0, 0, 0, 0, 0]
def wMove (toHost : Nat) : List Nat := [1, 0x1000, storeBase 0 + toHost * 2 ^ 52, 8, 0, 0, 0, 0]
theorem wit_bad_command : ∀ p ∈ [(7 :: wNop.drop 1, 7), (wRegw, 3), (wSig, 4), (wPower, 5), (wClose, 6), (wMove 0, 1)], badCmd (hcmd (p.1.set 7 1)) = true ∧
    cmdOpc (hcmd (p.1.set 7 1)) = p.2 := by decide +kernel
theorem wit_bad_next : NextCommand (sNext [7, 0, 0, 0, 0, 0, 0, 1] base) (hcmd [7, 0, 0, 0, 0, 0, 0, 1]) 7 := next_command (by decide +kernel)
theorem wit_host_nop : badCmd (hcmd wNop) = false ∧ NextCommand (sNext wNop base) (hcmd wNop) 0 := ⟨by decide +kernel, next_command (by decide +kernel)⟩
theorem wit_regw : badCmd (hcmd wRegw) = false ∧ NextCommand (sNext wRegw base) (hcmd wRegw) 3 ∧ cmdF (hcmd wRegw) 1 0 26 = rTASK_PC 0 0 ∧
    inSessBlock (cmdF (hcmd wRegw) 1 0 26) = false ∧ cmdF (hcmd wRegw) 1 0 26 % 4 = 0 ∧ (cmdF (hcmd wRegw) 1 32 1 == 1) = false :=
  ⟨by decide +kernel, next_command (by decide +kernel), by decide +kernel⟩
theorem wit_signal_command : badCmd (hcmd wSig) = false ∧ NextCommand (sNext wSig base) (hcmd wSig) 4 ∧ corePresent (sNext wSig base) (cmdF (hcmd wSig) 4 8 8) = true ∧
    barsDone (sNext wSig base) (hcmd wSig) = true :=
  ⟨by decide +kernel, next_command (by decide +kernel), by decide +kernel⟩
theorem wit_power_command : badCmd (hcmd wPower) = false ∧ NextCommand (sNext wPower base) (hcmd wPower) 5 ∧ awake (sNext wPower base) = true ∧ (sNext wPower base).pwr.held = [] ∧
    sessOpen (sNext wPower base) = true ∧ pwrState (sNext wPower base) = 0 ∧ cmdF (hcmd wPower) 1 0 3 = 1 :=
  ⟨by decide +kernel, next_command (by decide +kernel), by decide +kernel⟩
theorem wit_close_command : badCmd (hcmd wClose) = false ∧ NextCommand (sNext wClose base) (hcmd wClose) 6 ∧ sessOpen (sNext wClose base) = true ∧ sessDebug (sNext wClose base) = false :=
  ⟨by decide +kernel, next_command (by decide +kernel), by decide +kernel⟩
theorem wit_move : badCmd (hcmd (wMove 0)) = false ∧ NextCommand (sNext (wMove 0) base) (hcmd (wMove 0)) 1 ∧ (moverQ (sNext (wMove 0) base) (cmdMv (hcmd (wMove 0)))).length < 9 ∧
    placeOf (mvAddr (hcmd (wMove 0))) (mvLen (hcmd (wMove 0))) = .store 0 ∧ corePresent (sNext (wMove 0) base) 0 = true ∧ mvSig (hcmd (wMove 0)) = false :=
  ⟨by decide +kernel, next_command (by decide +kernel), by decide +kernel⟩
/-- A LOAD of an image of 64 zero bytes, by a running Bruta: from the host, from firn, and from beyond firn. -/
def noRecs : TurmiRecs := ⟨[], [], [], [], [], [], [], [], [], [], []⟩
def wLoad (at_ fw : Nat) : List Nat := [2, at_, fw, 64, 0, 0, 0, 0]
def sLoad (at_ fw : Nat) : State :=
  let s := withR [(rBOOT_STAT, 2), (rCC_CTL 0, 1)] (sNext (wLoad at_ fw) base); setStack s 0 { stackOf s 0 with open_ := true }
theorem wit_load : ∀ p ∈ [(0x1000, 0), (0, 1), (2 ^ 38, 1)], badCmd (hcmd (wLoad p.1 p.2)) = false ∧ NextCommand (sLoad p.1 p.2) (hcmd (wLoad p.1 p.2)) 2 ∧
    (sLoad p.1 p.2).host.loader = none ∧ bruta (sLoad p.1 p.2) = true ∧ ccRuns (sLoad p.1 p.2) 0 = true ∧ (ccOf (sLoad p.1 p.2) 0).todo = [] ∧
    startsWait (sLoad p.1 p.2) = false ∧ (cmdWord (hcmd (wLoad p.1 p.2)) 5 == 0) = (none : Option (List Nat)).isNone := by
  have h : ∀ p ∈ [(0x1000, 0), (0, 1), (2 ^ 38, 1)], (sLoad p.1 p.2).host.accepted = [hcmd (wLoad p.1 p.2)] ∧ cmdOpc (hcmd (wLoad p.1 p.2)) = 2 ∧
      fenceOk (sLoad p.1 p.2) (hcmd (wLoad p.1 p.2)) = true ∧ hostDead (sLoad p.1 p.2) = false ∧ busMaster (sLoad p.1 p.2) = true ∧ (sLoad p.1 p.2).host.recs = [] ∧
      cmdF (hcmd (wLoad p.1 p.2)) 0 9 1 = 0 := by decide +kernel
  have k : ∀ p ∈ [(0x1000, 0), (0, 1), (2 ^ 38, 1)], badCmd (hcmd (wLoad p.1 p.2)) = false ∧ (sLoad p.1 p.2).host.loader = none ∧ bruta (sLoad p.1 p.2) = true ∧
      ccRuns (sLoad p.1 p.2) 0 = true ∧ (ccOf (sLoad p.1 p.2) 0).todo = [] ∧ startsWait (sLoad p.1 p.2) = false ∧
      (cmdWord (hcmd (wLoad p.1 p.2)) 5 == 0) = (none : Option (List Nat)).isNone := by decide +kernel
  exact fun p hp => ⟨(k p hp).1, next_command (h p hp), (k p hp).2⟩
theorem wit_load_host : cmdF (hcmd (wLoad 0x1000 0)) 2 0 1 = 0 ∧ cmdF (hcmd (wLoad 0x1000 0)) 3 0 32 = 64 ∧ imageOk (([] : List Byte).take 64) 64 = false ∧
    ∃ s1 code fs ws, loadModule (sLoad 0x1000 0) [] noRecs none ⟨64, 0, 0⟩ = (s1, code, fs, ws) := ⟨by decide +kernel, by decide +kernel, by decide +kernel, _, _, _, _, rfl⟩
theorem wit_load_firn : cmdF (hcmd (wLoad 0 1)) 2 0 1 = 1 ∧ cmdWord (hcmd (wLoad 0 1)) 1 + 64 ≤ 2 ^ 38 ∧ cmdWord (hcmd (wLoad 0 1)) 1 % 256 + 64 ≤ 256 ∧
    firnOpen (sLoad 0 1) 0 64 = true ∧ (sLoad 0 1).firnEnt = [] ∧ (sLoad 0 1).beatErr = [] ∧ imageOk (rdBytes (sLoad 0 1) (memKey (sLoad 0 1) 0) 64) 64 = false ∧
    2 ^ 38 < cmdWord (hcmd (wLoad (2 ^ 38) 1)) 1 + 64 := by decide +kernel

theorem wit_ring_enable : ∀ z ∈ [6, 16], Served (withR [(rHRING_SIZE, z)] (sess base)) .host rHRING_SIZE ∧ getB (withR [(rHRING_SIZE, z)] (sess base)) rHRING_SIZE 8 = false ∧
    6 ≤ getF (withR [(rHRING_SIZE, z)] (sess base)) rHRING_SIZE 0 5 ∧ getF (withR [(rHRING_SIZE, z)] (sess base)) rHRING_SIZE 0 5 ≤ 16 := by unfold Served Awake; decide +kernel
/-- A ring of 64 entries is up, its head read as 0, with an entry whose PHASE is the expected 1. -/
def sRing : State := withR [(rHRING_SIZE, 0x106), (rHRING_STAT, 0x10000)] (sHost 0 [] base)
theorem wit_ring_disable : Served sRing .host rHRING_SIZE ∧ getB sRing rHRING_SIZE 8 = true := by unfold Served Awake; decide +kernel
theorem wit_ring_poll : mayFetch sRing = true ∧ ringLog sRing ≤ 16 ∧ inFlight sRing < 2 ^ ringLog sRing ∧ (0 : W32).toNat = (getR sRing rCTAIL).toNat ∧
    getF sRing rHRING_STAT 0 16 + 1 < 2 ^ ringLog sRing ∧ bits (([0x100#64] : List W64).getD 0 0).toNat 8 1 = getF sRing rHRING_STAT 16 1 := by decide +kernel
def sMover (toHost : Nat) : State := setMoverQ (withR [(ledgerBase qHMV, 1)] (sHost 0 [] base)) 0 [hcmd (wMove toHost)]
theorem wit_mover : ∀ h ∈ [0, 1], moverQ (sMover h) (0 : MoverId).val = hcmd (wMove h) :: [] ∧ busMaster (sMover h) = true ∧ startsWait (sMover h) = false ∧ (sMover h).host.recs = [] ∧
    cmdF (hcmd (wMove h)) 0 9 1 = 0 ∧ placeOf (mvAddr (hcmd (wMove h))) (mvLen (hcmd (wMove h))) = .store 0 ∧ corePresent (sMover h) 0 = true ∧ storeWaits (sMover h) 0 = false ∧
    mvSig (hcmd (wMove h)) = false ∧ 0 < mvLen (hcmd (wMove h)) ∧ mvToHost (hcmd (wMove h)) = (h == 1) ∧
    mvLen (hcmd (wMove h)) ≤ ([1, 2, 3, 4, 5, 6, 7, 8] : List Byte).length := by decide +kernel
def sLoaded (ws : List (Nat × Nat × Nat)) : State := let s := withR [(rFLOE_DEF 0 0, 0x10001)] (sHost 0 [] base); { s with host := { s.host with loader := some ⟨hcmd (wLoad 0x1000 0), 0, 0, [(0, 0)], ws⟩ } }
theorem wit_load_complete : (sLoaded []).host.loader = some ⟨hcmd (wLoad 0x1000 0), 0, 0, [(0, 0)], []⟩ ∧ startsWait (sLoaded []) = false ∧ (clusterOf (sLoaded []) 0).gated = false ∧
    busMaster (sLoaded []) = true ∧ (sLoaded []).host.recs = [] ∧ cmdF (hcmd (wLoad 0x1000 0)) 0 9 1 = 0 ∧ getB (sLoaded []) (rFLOE_DEF 0 0) 16 = true ∧
    floeMembers (sLoaded []) 0 0 = [(0, 0)] ∧ slotState (sLoaded []) 0 0 = 0 := by decide +kernel
theorem wit_load_waits : (sLoaded [(0, 0, 1)]).host.loader = some ⟨hcmd (wLoad 0x1000 0), 0, 0, [(0, 0)], [(0, 0, 1)]⟩ ∧ overlaid (sLoaded [(0, 0, 1)]) 0 0 1 = false := by
  decide +kernel
/-- The window at stack 0, which accepts requests. -/
def sWin : State := let s := sHost 0 [] base; setStack s 0 { stackOf s 0 with open_ := true }
theorem wit_window : winAddr sWin (64 : BitVec 36).toNat = 64 ∧ sWin.host.bar = [] ∧ hostDead sWin = false ∧ sessOpen sWin = true ∧ pwrState sWin ≠ 2 ∧ winOpen sWin 64 4 = true ∧ 64 % 256 + 4 ≤ 256 ∧
    64 + 4 ≤ 2 ^ 38 ∧ sWin.firnEnt = [] ∧ sWin.beatErr = [] ∧ ([1, 2, 3, 4] : List Byte).length = 4 ∧ mirForeign sWin 64 4 = false ∧ mirMode sWin ≠ 1 := by decide +kernel
theorem wit_window_no_session : hostDead base = false ∧ base.host.bar = [] ∧ sessOpen base = false := by decide +kernel
def sWinSleep : State := withR [(rPWR_STATE, 2)] sWin
theorem wit_window_sleep : hostDead sWinSleep = false ∧ sWinSleep.host.bar = [] ∧ sessOpen sWinSleep = true ∧ pwrState sWinSleep = 2 ∧ sWinSleep.pwr.entry = none ∧
    sWinSleep.pwr.waking = false ∧ sWinSleep.pwr.off = false ∧ sWinSleep.pwr.vaux = true := by decide +kernel

/-- Control cores 0 to 3 run, and CC4 on die 1. -/
def sCc : State := withR [(rCC_CTL 0, 1), (rCC_CTL 4, 1), (rCC_RWIN 0, 0x10000)] (lit [33] (sPort 2))
theorem wit_cc_control : Served sCc .host (rCC_CTL 0) ∧ Served sCc (.cc 0) (rCC_SIG 0) ∧ Served sCc (.cc 0) (rCC_HOSTIRQ 0) ∧ ccRuns sCc 0 = true := by unfold Served Awake; decide +kernel
theorem wit_cc_signal : bits (0x100000#64).toNat 20 16 ≠ 0 ∧ bits (0x100000#64).toNat 52 1 = 0 ∧ corePresent sCc (bits (0x100000#64).toNat 8 8) = true ∧ bits (5#64).toNat 20 16 = 0 := by
  decide +kernel
theorem wit_cc_remote : (ccOf sCc 0).todo = [] ∧ (ccOf sCc 0).loads = [] ∧ trkRoom sCc = true ∧ trkFree sCc = 0 ∧ trkInUse sCc + 2 ≤ 65536 ∧ avoided sCc (rwinPkg sCc 0) = false ∧
    route sCc (rwinPkg sCc 0) none 0 = .port 0 0 ∧ (rwinAddr sCc 0 4088 % 4096 + 8 ≤ 4096 ∧ 4096 < rwinAddr sCc 0 4089 % 4096 + 8) := by decide +kernel
/-- The same with a tracker that has no free entry. -/
def withT (l : List (Nat × TrkEnt)) (s : State) : State := { s with tracker := l }
def held (n : Nat) : List (Nat × TrkEnt) := (List.range n).map fun i => (i, ⟨0, some (.reply 0, 0, 0)⟩)
theorem held_length (n : Nat) : ((held n).filter fun e => e.2.busy.isSome).length = n := by
  have h : (held n).filter (fun e => e.2.busy.isSome) = held n := List.filter_eq_self.2 fun e he => by
    obtain ⟨i, -, rfl⟩ := List.mem_map.1 he; rfl
  rw [h, held, List.length_map, List.length_range]
theorem wit_cc_full_route : ccRuns (withT (held 65536) sCc) 0 = true ∧ (ccOf (withT (held 65536) sCc) 0).todo = [] ∧
    avoided (withT (held 65536) sCc) (rwinPkg (withT (held 65536) sCc) 0) = false ∧ route (withT (held 65536) sCc) (rwinPkg (withT (held 65536) sCc) 0) none 0 = .port 0 0 := by decide +kernel
theorem wit_cc_full : trkRoom (withT (held 65536) sCc) = false := by
  unfold trkRoom trkInUse withT
  rw [decide_eq_false_iff_not, held_length]; exact Nat.lt_irrefl _
theorem wit_cc_store : ∀ a ∈ [storeBase 0, storeBase 0 + 2 ^ 21 - 8], sramPlace 0 a 8 = none ∧ placeOf a 8 = .store 0 ∧ corePresent sCc 0 = true ∧ storeWaits sCc 0 = false := by decide +kernel
theorem wit_owner_program : ccRuns sCc 4 = true ∧ 4 ≤ (4 : CcId).val := by decide +kernel

/-- Bruta serves a ring of two entries at firn 0 (LOG2 1), whose first entry asks for one token after a prompt of none; the second is not valid. -/
def sServe : State :=
  let s := withR [(rBOOT_STAT, 2), (rCC_CTL 0, 1), (rSRV_CTL, 1), (rSRV_REQ + 4, 0x10000), (rSRV_CFG, 0x200800), (rSRV_KV, 0xFFFFFFFF)] base
  let t := setStack s 0 { stackOf s 0 with open_ := true }
  { t with mem := memWrite t.mem (memKey t 0) (leBytes 8 1 ++ leBytes 8 (2 ^ 16)) }
theorem blocks_le (n : Nat) : blocksFor n ≤ n := by
  have h : 1 ≤ tpb := Nat.le_max_left _ _
  unfold blocksFor ceilDiv
  rcases Nat.eq_zero_or_pos n with rfl | hn
  · exact Nat.le_of_lt_succ (Nat.div_lt_of_lt_mul (by omega))
  · refine Nat.le_of_lt_succ ((Nat.div_lt_iff_lt_mul h).2 ?_)
    have := Nat.mul_le_mul (Nat.le_refl n) h
    rw [Nat.succ_mul]; omega
theorem wit_serve_ring : serving sServe = true ∧ (ccOf sServe 0).todo = [] ∧ bits (getR64 sServe rSRV_REQ) 0 48 = 0 ∧ 2 ^ getF sServe (rSRV_REQ + 4) 16 5 = 2 ∧ sServe.serve.idx = 0 ∧
    firnOpen sServe 0 (64 * 2) = true ∧ 0 % 64 = 0 ∧ 0 + 64 * 2 ≤ 2 ^ 38 ∧ sServe.firnEnt = [] ∧ sServe.beatErr = [] ∧ mirMode sServe = 0 ∧ sServe.serve.queue = [] ∧
    sServe.serve.rows.length < getF sServe rSRV_CFG 16 7 := by decide +kernel
theorem wit_serve_entries : decide (bits (leNat (rdBytes sServe (memKey sServe 0) 8)) 0 1 = 1) = sServe.serve.phase ∧
    decide (bits (leNat (rdBytes sServe (memKey sServe 64) 8)) 0 1 = 1) ≠ sServe.serve.phase := by decide +kernel
theorem wit_serve_entry : let x := serveEntry ((wordsOf (rdBytes sServe (memKey sServe 0) 64)).map fun w => w.toNat)
    x.plen = 0 ∧ x.maxnew = 1 ∧ x.plen + x.maxnew ≤ ctxMax sServe := by decide +kernel
theorem wit_serve_room : kvReserved sServe + blocksFor (0 + 1) ≤ kvPool sServe := by
  have h0 : kvReserved sServe = 0 := by rfl
  have h1 : 1 ≤ kvPool sServe := by decide +kernel
  rw [h0, Nat.zero_add]; exact Nat.le_trans (blocks_le _) h1
def x1 : Stream := ⟨7, 3, 4, 0, 0x1000, 0, 0, 0, storeBase 0 + 0x2000, 4, 1, 0, [0], none⟩
/-- One row runs, and stack 0 takes requests or does not. -/
def sStepping (op : Bool) : State := let s := { sServe with serve := { rows := [x1] } }; setStack s 0 { stackOf s 0 with open_ := op }
theorem wit_serving_step : ∀ op ∈ [true, false], serving (sStepping op) = true ∧ (ccOf (sStepping op) 0).todo = [] ∧ (sStepping op).serve.rows = [x1] ∧ x1.held = none ∧
    x1.rpkg = ownPkg (sStepping op) ∧ ringCount (sStepping op) x1 < 2 ^ x1.tlog ∧ x1.made + 1 < x1.maxnew ∧
    placeOf (x1.taddr + 16 * ringCount (sStepping op) x1) 16 = .store 0 ∧ corePresent (sStepping op) 0 = true ∧ storeWaits (sStepping op) 0 = false ∧
    firnOpen (sStepping op) (bits (getR64 (sStepping op) rSRV_REQ) 0 48 + 64 * (sStepping op).serve.idx) 64 = op := by decide +kernel

-- statements about tasks, counters, registers, diagnostics and the TAP (O56 to O60) ------------------------------------------------------------------

/-- Floe 0 of cluster 0 is slot 0 of core 0, in a state; and of cores 0 and 1. -/
def sFloe (def_ st : Nat) : State := withR [(rFLOE_DEF 0 0, def_), (rTASK_STAT 0 0, st), (rTASK_STAT 1 0, st), (rTASK_PC 0 0, 0x100), (rCTR_CFG 0 5, 1), (rCTR_VAL 0 5, 9)] (sess base)
theorem wit_task_start : ∀ st ∈ [0, 4], Served (sFloe 0x10001 st) .host (rTASK_CTL 0 0) ∧ floeFor (sFloe 0x10001 st) 0 0 = some 0 ∧
    (floeCores (sFloe 0x10001 st) (0 / 8) 0).length = 1 ∧ slotState (sFloe 0x10001 st) 0 0 = st ∧ 5 ∈ ctrsOf (sFloe 0x10001 st) 0 0 := by unfold Served Awake; decide +kernel
theorem wit_task_start_joint : floeFor (sFloe 0x10003 0) 0 0 = some 0 ∧ (floeCores (sFloe 0x10003 0) (0 / 8) 0).length ≠ 1 := by decide +kernel
theorem wit_task_clear : ∀ st ∈ [4, 5], Served (sFloe 0x10001 st) .host (rTASK_CTL 0 0) ∧ slotState (sFloe 0x10001 st) 0 0 = st ∧ (slotOf (sFloe 0x10001 st) 0 0).unrel = false := by
  unfold Served Awake; decide +kernel
theorem wit_task_clear_not : slotState (sFloe 0x10001 2) 0 0 ≠ 4 ∧ slotState (sFloe 0x10001 2) 0 0 ≠ 5 := by decide +kernel
def sTswMix : State := withR [(rCORE_CTL 1, 1)] (sFloe 0x10003 0)
theorem wit_floe_start : Served (sFloe 0x10003 0) .host (rFLOE_CTL 0 0) ∧ floeMembers (sFloe 0x10003 0) 0 0 = [(0, 0), (1, 0)] ∧ getB (sFloe 0x10003 0) (rFLOE_DEF 0 0) 16 = true ∧
    (∀ m ∈ floeMembers (sFloe 0x10003 0) 0 0, slotState (sFloe 0x10003 0) m.1 m.2 = 0 ∧ tsw (sFloe 0x10003 0) m.1 = tsw (sFloe 0x10003 0) 0) ∧ tsw sTswMix 1 ≠ tsw sTswMix 0 ∧
    Served sTswMix .host (rFLOE_CTL 0 0) ∧ ∀ m ∈ floeMembers sTswMix 0 0, slotState sTswMix m.1 m.2 = 0 := by unfold Served Awake; decide +kernel
theorem wit_floe_clear : Served (sFloe 0x10003 4) .host (rFLOE_CTL 0 0) ∧ ∀ m ∈ floeMembers (sFloe 0x10003 4) 0 0, slotState (sFloe 0x10003 4) m.1 m.2 = 4 := by
  unfold Served Awake; decide +kernel
def sHeld : State := withR [(rFLOE_CTL 0 0, 4), (rFLOE_STAT 0 0, 1)] (dbg (sFloe 0x10003 2))
theorem wit_floe_hold : Served sHeld .host (rFLOE_CTL 0 0) ∧ mayDebug sHeld .host = true ∧ getF sHeld (rFLOE_STAT 0 0) 0 4 = 1 ∧ mayDebug (sess base) .host = false := by
  unfold Served Awake; decide +kernel
theorem wit_floe_def : Served (sFloe 0x10001 0) .host (rFLOE_DEF 0 1) ∧
    (∀ m ∈ defSlots 0 (0x10002#32).toNat ++ defSlots 0 (getR (sFloe 0x10001 0) (rFLOE_DEF 0 1)).toNat, slotState (sFloe 0x10001 0) m.1 m.2 = 0) ∧
    (∀ m ∈ defSlots 0 (0x10002#32).toNat, namedElsewhere (sFloe 0x10001 0) 0 1 m.1 m.2 = false) ∧ bits (0x10001#32).toNat 16 1 = 1 ∧
    (0, 0) ∈ defSlots 0 (0x10001#32).toNat ∧ namedElsewhere (sFloe 0x10001 0) 0 1 0 0 = true ∧ slotState (sFloe 0x10001 2) 0 0 ≠ 0 := by unfold Served Awake; decide +kernel
theorem wit_core_ctl : Served (sFloe 0x10001 2) .host (rCORE_CTL 0) ∧ (List.range 4).any (fun t => slotLive (sFloe 0x10001 2) 0 t) = true ∧
    (List.range 4).any (fun t => slotLive (sFloe 0x10001 0) 0 t) = false := by unfold Served Awake; decide +kernel

/-- Slot 1 of core 0 is BLOCKED on 4 units of c5. -/
def sBlocked : State := withR [(rTASK_STAT 0 1, 3)] (modSlot (dbg base) 0 1 fun x => { x with wait := some (.ctr 5 4) })
theorem wit_advance : Served (sess base) .host (rCTR_CFG 0 5) ∧ ctrBusy (sess base) 0 5 = false ∧ ctrBusy sBlocked 0 5 = true ∧ Served sBlocked .host (rCTR_CFG 0 5) := by
  unfold Served Awake; decide +kernel
theorem wit_counter_write : Served (dbg base) .host (rCTR_VAL 0 5) ∧ mayDebug (dbg base) .host = true ∧ ∀ t, (slotOf (dbg base) 0 t).wait = none := by
  refine ⟨by unfold Served Awake; decide +kernel, by decide +kernel, fun t => ?_⟩
  rw [show slotOf (dbg base) 0 t = slotOf ({} : State) 0 t from rfl]; rfl
theorem wit_counter_wakes : Served sBlocked .host (rCTR_VAL 0 5) ∧ mayDebug sBlocked .host = true ∧ (slotOf sBlocked 0 1).wait = some (.ctr (5 : CtrId).val 4) ∧
    slotState sBlocked 0 1 = 3 ∧ 4 ≤ (4#16).toNat - ctrRsv sBlocked 0 5 ∧ (∀ u, u < 4 → u ≠ 1 → (slotOf sBlocked 0 u).wait = none) := by unfold Served Awake; decide +kernel
def sRing3 (st : Nat) : State := withR [(rICH_STAT 0 3, st)] (modCore (sess base) 0 fun k => { k with rings := [(3, [⟨[0#64], 0, 0, none⟩])] })
theorem wit_end : (∀ st ∈ [0, 1, 2], Served (sRing3 st) .host (rICH_CTL 0 3) ∧ ichState (sRing3 st) 0 3 = st) ∧ getB (sRing3 0) (rICH_REPLY 0 3) 0 = false ∧
    (∀ m ∈ ringOf (sRing3 1) 0 3, hdrReq (m.words.headD 0) = false) ∧ ringOf (sRing3 1) 0 3 ≠ [] := by unfold Served Awake; decide +kernel

theorem wit_register_write : Served (sess base) .host (BitVec.ofNat 26 (rTASK_PC 0 0)).toNat ∧
    (BitVec.ofNat 26 (rTASK_PC 0 0)).toNat ∈ [rTASK_PC 0 0, rTASK_SPWIN 0 0, rTASK_VMASK 0 0, rSCL_CFG 0 0, rFIRN_ERR_STAT 0] ∧ Served (sess base) .host (rFIRN_ERR_STAT 0) ∧
    Served (sess base) .host (rSCL_CFG 0 511) := by unfold Served Awake; decide +kernel
theorem wit_template_write : Served (sess base) .host (rDESC 0 63 + 8 * (7 : Fin 8).val) ∧ gatedFor (sess base) (rDESC 0 63 + 8 * (7 : Fin 8).val + 4) = none := by
  unfold Served Awake; decide +kernel
theorem wit_firn_registers : Served (sess base) .host (rFIRN_MAP 0) ∧ Served (sess base) .host (rFIRN_REFRESH 0) ∧ (stackOf (sess base) 0).open_ = false := by unfold Served Awake; decide +kernel
theorem wit_time_value : Served (sess base) .host rTB_VALUE ∧ stepAllowed (sess base) = true ∧ stepAllowed (withR [(rFIRN_STAT 0, 0x400)] (sess base)) = false ∧
    Served (withR [(rFIRN_STAT 0, 0x400)] (sess base)) .host rTB_VALUE ∧ srcLive (sess base) .host = true := by unfold Served Awake; decide +kernel
theorem wit_legacy : Served (sess base) .host (rCLK_XCTL 0) ∧ (List.range 8).any (fun r => (List.range 4).any fun t => slotLive (sess base) (8 * 0 + r) t) = false ∧
    Served (sess sRun) .host (rCLK_XCTL 0) ∧ (List.range 8).any (fun r => (List.range 4).any fun t => slotLive (sess sRun) (8 * 0 + r) t) = true ∧
    getB (sess sRun) (rCLK_XCTL 0) 0 ≠ true := by unfold Served Awake; decide +kernel
theorem wit_package_id : Served (sess base) .host rPKG_ID ∧ (∀ p, p < 16 → portState (sess base) p = 0) ∧ Served (sPort 1) .host rPKG_ID ∧ portState (sPort 1) 0 ≠ 0 := by
  unfold Served Awake; decide +kernel
theorem wit_debug_write : ∀ off ∈ [0x3000 + 0x200 * 3 + 8 * 31, 0x3100 + 0x200 * 3 + 4 * 15, 0x2800 + 4 * 255], Served (dbg base) .host (coreBase 0 + (BitVec.ofNat 16 off).toNat) ∧
    (BitVec.ofNat 16 off).toNat = off ∧ gatedFor (dbg base) (coreBase 0 + off + 4) = none := by unfold Served Awake; decide +kernel
theorem wit_debug_slots : mayDebug (dbg base) .host = true ∧ slotState (dbg base) 0 3 ≠ 2 ∧ runningSlot (dbg base) 0 = none ∧ runningSlot (dbg sRun) 0 ≠ none := by decide +kernel

theorem wit_training : Served (sess base) .host (rSCL_CTL 0) ∧ Served (sess base) .host (rMON_CTL 0) ∧ slotsIdle (sess base) 0 = true ∧ Served (sess sRun) .host (rSCL_CTL 0) ∧
    Served (sess sRun) .host (rMON_CTL 0) ∧ slotsIdle (sess sRun) 0 = false := by unfold Served Awake; decide +kernel
theorem wit_release : Served (sess base) .host (rMLOG_CTL 0) ∧ getB (sess base) (rMLOG_FIRST 0) 0 = false ∧ getB (sess base) (rMLOG_STAT 0) 7 = false ∧
    getB (withR [(rMLOG_FIRST 0, 1)] (sess base)) (rMLOG_FIRST 0) 0 = true := by unfold Served Awake; decide +kernel
/-- Trace of die 0 into the first 2 MiB of stack 0, with 16 records staged, whose pointer stands at the last of the buffer's 65,536 records but 15. -/
def sTrace (ctl : Nat) : State :=
  let s := setStack (dbg base) 0 { stackOf base 0 with open_ := true }
  setTrace (withR [(rTRC_CTL 0, ctl), (rTRC_BUF 0 + 4, 0x10000), (rTRC_STAT 0, 65520), (rTRC_SLOTS 0 + 28, 2 ^ 31)] s) 0 (List.replicate 16 [5#64, 0#64, 1#64, 0#64])
theorem wit_trace_control : Served (sTrace 0) .host (rTRC_CTL 0) ∧ Served (sTrace 0) .host (rTRC_BUF 0) ∧ getB (sTrace 0) (rTRC_CTL 0) 0 = false ∧ getB (sTrace 1) (rTRC_CTL 0) 0 = true := by
  unfold Served Awake; decide +kernel
theorem wit_trace_mark : Served (sTrace 0x1003) .host (rTRC_MARK 0) ∧ getB (sTrace 0x1003) (rTRC_CTL 0) 0 = true ∧ getB (sTrace 0x1003) (rTRC_CTL 0) 12 = true ∧
    getB (sTrace 0x1003) (rTRC_CTL 0) 1 = true ∧ getB (sTrace 0x1003) (rTRC_STAT 0 + 4) 0 = false ∧ (traceOf (sTrace 0x1003) 0).length < 256 := by unfold Served Awake; decide +kernel
theorem wit_trace_packet : 65520 = (getR (sTrace 0x1003) (rTRC_STAT 0)).toNat ∧ 16 ≤ (traceOf (sTrace 0x1003) 0).length ∧ (∀ r ∈ traceOf (sTrace 0x1003) 0, r.length = 4) ∧
    trcSlotOpen (sTrace 0x1003) 0 (255#8).toNat = true ∧ regionUp (sTrace 0x1003) (32 + 0) = true ∧ trcBufOk (sTrace 0x1003) 0 = true ∧
    firnOpen (sTrace 0x1003) (trcBase (sTrace 0x1003) 0) (trcSize (sTrace 0x1003) 0 * 2 ^ 21) = true ∧ (sTrace 0x1003).firnEnt = [] ∧ mirMode (sTrace 0x1003) = 0 ∧ 65520 + 16 < 2 ^ 32 := by
  decide +kernel
/-- The checker is on, and one message credit is out that the ledger has not issued. -/
def sChecked : State := withR [(rLEDGER_CHK, 1)] (modCore base 0 fun k => { k with credOut := [(0, 1)] })
theorem wit_checker : getB sChecked rLEDGER_CHK 0 = true ∧ sChecked.pwr.vaux = true ∧ getF sChecked (rLEDGER_CHK + 4) 0 9 = 0 ∧ ledgerOk sChecked 0 = false ∧
    ledgerOk sChecked 1 = true ∧ getB (withR [(rLEDGER_CHK, 0)] base) rLEDGER_CHK 0 = false := by decide +kernel

theorem wit_extest : extestAllowed base = true ∧ extestAllowed (owned 1 base) = false := by decide +kernel
def sJtag : State := { sess base with sess := { jtag := true } }
theorem wit_tap_reset : sJtag.sess.jtag = true ∧ sessOpen sJtag = true ∧ base.sess.jtag = false := by decide +kernel
/-- A shift value of DBG_REG: op and size in the low bits, the address in words, the data. -/
def dbgShift (op size off data : Nat) : BitVec 96 := BitVec.ofNat 96 (op + 2 * size + off + 2 ^ 32 * data)
theorem wit_dbg_read : ∀ off ∈ [coreBase 0, coreBase 0 + 4], off = 4 * bits (dbgShift 0 1 off 0).toNat 2 26 ∧ off = 4 * bits (dbgShift 0 0 off 0).toNat 2 26 ∧ off < 2 ^ 26 ∧
    bits (dbgShift 0 1 off 0).toNat 0 1 = 0 ∧ tapWaits sJtag off = false ∧ off ≠ rTB_VALUE ∧ off ≠ rTB_VALUE + 4 ∧ bits (dbgShift 0 1 off 0).toNat 1 1 = 1 ∧
    bits (dbgShift 0 0 off 0).toNat 1 1 = 0 := by decide +kernel
theorem wit_dbg_busy : tapWaits sJtag (rTASK_PC 8 0) = true ∧ rTASK_PC 8 0 = 4 * bits (dbgShift 0 0 (rTASK_PC 8 0) 0).toNat 2 26 ∧ rTASK_PC 8 0 < 2 ^ 26 ∧
    rTASK_PC 8 0 % 8 = 0 ∧ bits (dbgShift 0 0 (rTASK_PC 8 0) 0).toNat 0 1 = 0 := by decide +kernel
theorem wit_dbg_places : coreBase 0 % 8 = 0 ∧ (coreBase 0 + 4) % 8 ≠ 0 := by decide +kernel
theorem wit_dbg_write : Served sJtag .jtag (rTASK_PC 0 0) ∧ hostDead sJtag = false ∧ bits (dbgShift 1 0 (rTASK_PC 0 0) 5).toNat 0 1 = 1 ∧
    bits (dbgShift 1 0 (rTASK_PC 0 0) 5).toNat 1 1 = 0 ∧ rTASK_PC 0 0 = 4 * bits (dbgShift 1 0 (rTASK_PC 0 0) 5).toNat 2 26 := by unfold Served Awake; decide +kernel
theorem wit_dbg_refused : rTASK_PC 0 0 ≠ rPWR_REQ ∧ mayWriteAt base .jtag (rTASK_PC 0 0) = false ∧ Awake base ∧ hostDead base = false := by unfold Awake; decide +kernel
theorem wit_smbus : base.pwr.vaux = true ∧ ({ base with pwr := { base.pwr with vaux := false } } : State).pwr.vaux = false := by decide +kernel

-- words and values that the spec writes out ------------------------------------------------------------------------------------------------------------

/-- The words of the worked encoding of chapter 06, by the fields it lists. -/
theorem test_word_mxcfg : wOp 0x0020_0000_0900_0303 = .mxcfg ∧ wD 0x0020_0000_0900_0303 = 0 ∧ cfgReg 0x0020_0000_0900_0303 = 0 ∧ cfgSrc 0x0020_0000_0900_0303 = 0 ∧
    cfgImm 0x0020_0000_0900_0303 = 0x0900_0303 := by decide +kernel
theorem test_word_sldgo : wOp 0x0011_0DFC_0000_0002 = .sldgo ∧ sldKind 0x0011_0DFC_0000_0002 = 0 ∧ sldFmt 0x0011_0DFC_0000_0002 = 3 ∧ sldSplit 0x0011_0DFC_0000_0002 = 0 ∧
    sldMt 0x0011_0DFC_0000_0002 = 127 ∧ sldP0 0x0011_0DFC_0000_0002 = 0 ∧ sldNtm1 0x0011_0DFC_0000_0002 = 2 := by decide +kernel
theorem test_word_mxgo : wOp 0x7E21_0000_0000_0000 = .mxgo ∧ wD 0x7E21_0000_0000_0000 = 126 ∧ cfgReg 0x0120_0200_0000_0002 = 2 ∧ wD 0x0120_0100_0000_2B7F = 1 := by decide +kernel
theorem test_word_vadd : wOp 0x0240_0E01_4000_2000 = .vadd ∧ vVD 0x0240_0E01_4000_2000 = 3 ∧ vVA 0x0240_0E01_4000_2000 = 32 ∧ vVB 0x0240_0E01_4000_2000 = 5 ∧
    vSCL 0x0240_0E01_4000_2000 = 2 ∧ vFMT 0x0240_0E01_4000_2000 = 0 := by decide +kernel
/-- One word of each other format, by Table 06-3: AADD a3, a2 + 0xFFFF; WAITC c5, 2; SIGC c5, core 17, generation 3; SEND channel 6; RECV end 9 into s4; YIELD; STRMARM 63. -/
theorem test_word_fields : wOp 0x0004_3200_0000_FFFF = .aadd ∧ aaddAd 0x0004_3200_0000_FFFF = 3 ∧ aaddAs 0x0004_3200_0000_FFFF = 2 ∧ wOp 0x0060_1400_0000_0002 = .waitc ∧
    synCtr 0x0060_1400_0000_0002 = 5 ∧ synCount 0x0060_1400_0000_0002 = 2 ∧ wOp 0x0061_1422_3000_0001 = .sigc ∧ sigCore 0x0061_1422_3000_0001 = 17 ∧
    sigGen 0x0061_1422_3000_0001 = 3 ∧ wOp 0x0070_1800_0000_0000 = .send ∧ sendOch 0x0070_1800_0000_0000 = 6 ∧ wOp 0x0071_9200_0000_0000 = .recv ∧
    recvIch 0x0071_9200_0000_0000 = 9 ∧ recvSd 0x0071_9200_0000_0000 = 4 ∧ wOp 0x0005_0000_0000_0000 = .yieldW ∧ armDesc 0x0072_0000_0000_003F = 63 ∧ wOp 0x0007_0000_0000_0000 = .bad := by
  decide +kernel
/-- R45: INT32 100,000 to FP16 is +∞ under RNE with SAT = 0, and 65,504 with SAT = 1. -/
theorem test_int_to_fp16 : (toPlain 2 0 false (decodeElem 8 100000)).code = 0x7C00 ∧ (toPlain 2 0 true (decodeElem 8 100000)).code = 0x7BFF := by decide +kernel
/-- The worked example of chapter 02: the block 13.0, −2.6, 0.2, 0.75, 2.5, 5.0, 0, … in MXFP4, whose scale byte is 0x80 with MX_CLIP and UNDERFLOW set. -/
theorem test_mxfp4_block : mxQuantise 14 (([0x41500000, 0xC0266666, 0x3E4CCCCD, 0x3F400000, 0x40200000, 0x40A00000] ++ List.replicate 26 0).map (decodeElem 0)) =
    (0x80, [7, 0xB, 0, 1, 2, 4] ++ List.replicate 26 0, fClip ||| fUnderflow) := by decide +kernel
/-- The worked example of chapter 11: a history of 10.0, 12.5, 9.0 and 11.0 with MARGIN 0x18 gives 0x7B for E4M3 and 0x81 for MXFP4. -/
theorem test_history_scale : histScale 12 0x18 [0x4120, 0x4148, 0x4110, 0x4130] = 0x7B ∧ histScale 14 0x18 [0x4120, 0x4148, 0x4110, 0x4130] = 0x81 := by decide +kernel
/-- The worked example of R257: w = 1.0 and u = 1.5 · 2^−4 with k = −6 go to 0x3F81 for draws below 0x3000_0000 only. -/
theorem test_stochastic_update : (updLane 1 2 (-6) false 0x2FFF_FFFF 0x3F80 0x2E00).code = 0x3F81 ∧ (updLane 1 2 (-6) false 0x3000_0000 0x3F80 0x2E00).code = 0x3F80 := by decide +kernel
/-- R5: the package whose GRADE_MAP reads 0xEFF7_FDBF has clusters 6, 9, 19 and 28 fused; there STALL_LIMIT of cluster 19 reads 0xDEAD_0FF5, and FIRN_STAT of stack 19 reads (chapter 23). -/
def sGrade : State := { base with fuses := { grade := 0xEFF7_FDBF } }
theorem test_grade_map : (List.range 32).filter (fun c => !clusterPresent sGrade c) = [6, 9, 19, 28] ∧ readReg sGrade 0x113_0040 = 0xDEAD_0FF5 ∧ readReg sGrade (0x200_0000 + 159 * 0x1_0000) = 0xDEAD_0FF5 ∧
    rFIRN_STAT 19 = 0x113_8008 ∧ readReg sGrade 0x113_8008 ≠ 0xDEAD_0FF5 := by decide +kernel
/-- The addresses that chapters 01 and 23 work out. -/
theorem test_addresses : firnBase 19 + 0x1_2345_6780 = 0x27_2345_6780 ∧ storeBase 150 + 0x1_2340 = 0x0100_9601_2340 ∧ rFLOE_STALL 18 5 3 = 0x112_214C ∧ rCTR_LASTSIG 150 7 = 0x296_04F0 := by
  decide +kernel
/-- The worked MOVE of chapter 16: mover 3, 1 MiB to firn, with a signal; and its record. -/
def wCopy : List Nat := [0x51_0000_0301, 0x40_8000_0000, 0x23_0027_2345_6780, 0x10_0000, 0x1_0002_9607, 0, 0, 0]
theorem test_move_block : badCmd (hcmd wCopy) = false ∧ cmdMv (hcmd wCopy) = 3 ∧ mvToHost (hcmd wCopy) = false ∧ mvSig (hcmd wCopy) = true ∧ mvLen (hcmd wCopy) = 0x10_0000 ∧
    cmdF (hcmd wCopy) 4 0 6 = 7 ∧ cmdF (hcmd wCopy) 4 8 8 = 150 ∧ cmdF (hcmd wCopy) 4 16 4 = 2 ∧ cmdF (hcmd wCopy) 4 32 16 = 1 ∧
    (recWords base ⟨hcmd wCopy, 0, 1048576, 0⟩).headD 0 = 0x51_0000_0101#64 := by decide +kernel
/-- The worked route of chapter 15: in an 8 × 8 × 4 torus that avoids package 12, package 10 sends to 213 in −X on port 2 of its ports 1 and 2. -/
def sTorus : State := withR [(rPKG_ID, 10), (rFAB_ROUTE, 0x30707), (rFAB_AVOID 0, 0x1000C), (rFAB_DIR 0, 1), (rFAB_DIR 1, 6), (rFAB_STAT 0, 2), (rFAB_STAT 1, 2), (rFAB_STAT 2, 2)] base
theorem test_route : route sTorus 213 none 0 = .port 2 0 ∧ ringPath sTorus 10 0 5 false 256 = [9, 8, 15, 14, 13] := by decide +kernel
/-- FIPS 180-4's value of SHA-384 for the message "abc". -/
theorem test_sha384 : beNat (sha384 [0x61, 0x62, 0x63]) =
    0xCB00753F45A35E8BB5A03D699AC65007272C32AB0EDED1631A8B605A43FF5BED8086072BA1E7CC2358BAECA134C825A7 := by decide +kernel

-- terms that are not well formed: one for each check of Instr.wf -----------------------------------------------------------------------------------------

theorem test_wf_units : (Instr.floeStallBegin 0 0 1).wf = false ∧ (Instr.floeStallBegin 0 0 3).wf = true ∧
    (Instr.wheelStart 0 (some 3) 0).wf = false ∧ (Instr.wheelStart 0 (some 1) 0).wf = true ∧ (Instr.droopStretch 36 true).wf = false ∧ (Instr.pllNChange 36).wf = false ∧
    (Instr.regionPowerUp 36).wf = false ∧ (Instr.pllLock 36).wf = false ∧ (Instr.thermtrip (.junction 36) 120).wf = false ∧ (Instr.thermalWarn (.junction 36) 120).wf = false := by
  decide +kernel
theorem test_wf_host : (Instr.hostLinkTrain 2 4 true).wf = false ∧ (Instr.hostLinkTrain 3 2 true).wf = false ∧ (Instr.ctlbarBadAccess true 8 8).wf = false ∧
    (Instr.firnbarRead 0 0).wf = false ∧ (Instr.firnbarWrite 0 []).wf = false ∧ (Instr.hringPoll none (some [[0]])).wf = false ∧
    (Instr.load (.content [] noRecs (some []))).wf = false ∧ (Instr.load (.content [] noRecs none)).wf = true := by decide +kernel
theorem test_wf_fabric : (Instr.flitReceive 0 []).wf = false ∧ (Instr.flitReceive 0 (List.replicate 256 0)).wf = true ∧ (Instr.ethFrameReceive 0 [] [] [0, 0, 0, 0]).wf = false ∧
    (Instr.ethFrameReceive 0 (List.replicate 12 0) (List.replicate 2063 0) [0, 0, 0, 0]).wf = false ∧ (Instr.ethFrameReceive 0 (List.replicate 12 0) [] []).wf = false ∧
    (Instr.ethFrameReceive 0 (List.replicate 12 0) [] [0, 0, 0, 0]).wf = true := by decide +kernel
theorem test_wf_others : (Instr.ccRemoteStore 0 0 []).wf = false ∧ (Instr.ccRemoteStore 0 0 (List.replicate 9 0)).wf = false ∧ (Instr.ccRemoteLoad 0 0 0).wf = false ∧
    (Instr.ccRemoteLoad 0 0 9).wf = false ∧ (Instr.ccStoreAccess 0 0 9 none).wf = false ∧ (Instr.ccStoreAccess 0 0 0 (some [])).wf = false ∧
    (Instr.servingStep (List.replicate 65 (0, false))).wf = false ∧ (Instr.debugRegisterWrite .host 0 0x2801 0 false).wf = false ∧
    (Instr.debugRegisterWrite .host 0 0x2804 0 true).wf = false ∧ (Instr.debugRegisterWrite .host 0 0x0 0 false).wf = false ∧ (Instr.registerWrite .host 4 true 0).wf = false := by decide +kernel
end Sys2Proof.Tests
end

section
/-! SUPPORT. Frames: how they compose, and what the updates of State change of them. -/

namespace Sys2Proof.Safety

open Sys2Proof.Machine

variable {l l' rs : List Nat} {s t u : State}

theorem Frame.refl (l : List Nat) (s : State) : Frame l s s := ⟨fun _ => rfl, fun _ _ => rfl, rfl, rfl⟩

theorem Frame.trans (h : Frame l s t) (h' : Frame l t u) : Frame l s u := by
  obtain ⟨hm, hr, hf, hp⟩ := h
  obtain ⟨hm', hr', hf', hp'⟩ := h'
  exact ⟨fun a => (hm' a).trans (hm a), fun o ho => (hr' o ho).trans (hr o ho), hf'.trans hf, hp'.trans hp⟩

theorem Frame.mono (hl : l ⊆ l') (h : Frame l s t) : Frame l' s t :=
  ⟨h.1, fun o ho => h.2.1 o fun hm => ho (hl hm), h.2.2⟩

/-- A register that a frame does not list reads as before. -/
theorem Frame.getR_eq (h : Frame l s t) {off : Nat} (ho : off ∉ l) : getR t off = getR s off := h.2.1 off ho

theorem frame_setF (s : State) {off : Nat} (ho : off ∈ l) (lo w v : Nat) : Frame l s (setF s off lo w v) :=
  ⟨fun _ => rfl, fun _ h => getR_setF_other s lo w v fun e => h (e ▸ ho), rfl, rfl⟩

theorem frame_modCore (l : List Nat) (s : State) (c : Nat) (g : CoreSt → CoreSt) : Frame l s (modCore s c g) :=
  ⟨fun _ => rfl, fun _ _ => rfl, rfl, rfl⟩

/-- What the start of a vector word may do: write registers of a list and vector registers of a list of its own core, and its bookkeeping. The task slots of
the core keep their state. -/
structure VecStep (l rs : List Nat) (c : Nat) (s s' : State) : Prop where
  frame : Frame l s s'
  cores : OtherCores c s s'
  slots : ∀ u, slotOf s' c u = slotOf s c u
  vregs : OtherVregs rs c s s'

theorem VecStep.trans {c : Nat} (h : VecStep l rs c s t) (h' : VecStep l rs c t u) : VecStep l rs c s u :=
  ⟨h.frame.trans h'.frame, fun k hk => (h'.cores k hk).trans (h.cores k hk), fun x => (h'.slots x).trans (h.slots x),
    fun r hr => (h'.vregs r hr).trans (h.vregs r hr)⟩

theorem VecStep.refl (l rs : List Nat) (c : Nat) (s : State) : VecStep l rs c s s :=
  ⟨Frame.refl l s, fun _ _ => rfl, fun _ => rfl, fun _ _ => rfl⟩

/-- An update of a core that leaves its slots and the vector registers outside a list alone. -/
theorem vecStep_modCore (l : List Nat) (s : State) (c : Nat) (g : CoreSt → CoreSt) (hs : (g (coreOf s c)).slots = (coreOf s c).slots)
    (hv : ∀ r, r ∉ rs → mget (fun _ => 0) (g (coreOf s c)).vreg r = mget (fun _ => 0) (coreOf s c).vreg r) : VecStep l rs c s (modCore s c g) :=
  ⟨frame_modCore l s c g, fun _ hk => coreOf_modCore_other s g hk, fun u => by simp only [slotOf, coreOf_modCore_same, hs],
    fun r hr => by simp only [vreg, coreOf_modCore_same, hv r hr]⟩

theorem vecStep_setFlags (rs : List Nat) (s : State) (c fl : Nat) : VecStep [rFP_FLAGS c] rs c s (setFlags s c fl) :=
  ⟨frame_setF s (List.mem_singleton.2 rfl) _ _ _, fun _ _ => rfl, fun _ => rfl, fun _ _ => rfl⟩

theorem vecStep_dropFli (l rs : List Nat) (s : State) (c n : Nat) : VecStep l rs c s (dropFli s c n) :=
  vecStep_modCore l s c _ rfl fun _ _ => rfl

theorem vecStep_vxeTimed (l rs : List Nat) (s : State) (c t w n : Nat) : VecStep l rs c s (vxeTimed s c t w n) := by
  unfold vxeTimed
  exact vecStep_modCore l s c _ rfl fun _ _ => rfl

theorem vecStep_parClear (l rs : List Nat) (s : State) (c a i : Nat) : VecStep l rs c s (parClear s c a i) := by
  unfold parClear
  split
  · exact vecStep_modCore l s c _ rfl fun _ _ => rfl
  · exact VecStep.refl l rs c s

theorem vecStep_setVreg (l : List Nat) (s : State) (c r : Nat) (v : BitVec 8192) : VecStep l [r] c s (setVreg s c r v) :=
  (vecStep_parClear l [r] s c 3 r).trans
    (vecStep_modCore l _ c _ rfl fun _ hq => mget_mset_other _ _ _ fun e => hq (List.mem_singleton.2 e))

theorem vecStep_putResult (l : List Nat) (s : State) (c t f : Nat) {vd : Nat} (cs : List Nat) (hd : vd ≠ 32) :
    VecStep l [vd] c s (putResult s c t vd f cs) := by
  simp only [putResult, hd, if_false]
  exact vecStep_setVreg l s c vd _

end Sys2Proof.Safety

namespace Sys2Proof.Machine

@[simp] theorem vreg_setVreg_same (s : State) (c r : Nat) (v : BitVec 8192) : vreg (setVreg s c r v) c r = v := by
  simp [vreg, setVreg]

theorem vreg_setFlags (s : State) (c fl k r : Nat) : vreg (setFlags s c fl) k r = vreg s k r := rfl

@[simp] theorem vreg_modSlot (s : State) (c t : Nat) (g : SlotSt → SlotSt) (r : Nat) : vreg (modSlot s c t g) c r = vreg s c r := by
  simp [vreg, modSlot, setSlot]

end Sys2Proof.Machine
end

section
/-! SUPPORT. The issue of a group of one vector word (R116, R131): the sequencer reaches the word's own effect, and what follows it touches only the stall reason
of the floe and the trace, and steps the slot on. -/

namespace Sys2Proof.Safety

open Sys2Proof.Machine

-- the fetch ------------------------------------------------------------------------------------------------------------------

/-- What has been read stands at the head of the group. -/
theorem fetchWords_prefix {s : State} {c n i : Nat} {acc l : List (Nat × Nat)} (h : fetchWords s c n i acc = .words l) : acc <+: l := by
  induction n generalizing i acc with
  | zero => simp only [fetchWords, Fetch.words.injEq] at h; exact h ▸ List.prefix_rfl
  | succ n ih =>
    simp only [fetchWords] at h
    split at h
    · split at h
      · cases h
      · cases h; exact List.prefix_rfl
    · split at h
      · cases h
      · split at h
        · cases h
        · split at h
          · cases h; exact List.prefix_rfl
          · split at h
            · cases h; exact List.prefix_append _ _
            · exact (List.prefix_append _ _).trans (ih h)

/-- A group of one word is the word at the slot's pc, in a valid block of the store. -/
theorem fetchGroup_single {s : State} {c t i w : Nat} (h : fetchGroup s c t = .words [(i, w)]) :
    (slotOf s c t).pc ≤ 8191 ∧ bits (getR64 s (rOVL_VALID c)) ((slotOf s c t).pc / 128) 1 ≠ 0 ∧ w = (iword s c (slotOf s c t).pc).toNat := by
  unfold fetchGroup fetchWords at h
  simp only [List.isEmpty_nil, if_true, Bool.not_true, Bool.false_and, Bool.false_eq_true, if_false, List.nil_append] at h
  split at h
  · cases h
  · split at h
    · cases h
    · split at h
      · cases h
      · rename_i hpc hv _
        refine ⟨by omega, hv, ?_⟩
        split at h
        · cases h; rfl
        · have hp := fetchWords_prefix h
          have e := hp.eq_of_length rfl
          cases e; rfl

theorem lt_of_fetchGroup_single {s : State} {c t i w : Nat} (h : fetchGroup s c t = .words [(i, w)]) : w < 2 ^ 64 := by
  rw [(fetchGroup_single h).2.2]
  exact BitVec.isLt _

theorem leadWord_of_fetchGroup_single {s : State} {c t i w : Nat} (h : fetchGroup s c t = .words [(i, w)]) : leadWord s c t = some w := by
  obtain ⟨hpc, hv, hw⟩ := fetchGroup_single h
  have h1 : bits (getR64 s (rOVL_VALID c)) ((slotOf s c t).pc / 128) 1 = 1 := by
    have := bits_lt (getR64 s (rOVL_VALID c)) ((slotOf s c t).pc / 128) 1
    omega
  simp [leadWord, hpc, h1, hw]

/-- A word that issues acts as a group of its own. -/
theorem sequencer_of_issues {s : State} {c t f w : Nat} (h : Issues s c t f w) {lead : Op → Bool} (hl : lead (wOp w) = true) :
    sequencer s c lead = actGroup s c t [((slotOf s c t).pc, w)] := by
  obtain ⟨hrun, hsw, hslot, hfloe, hrst, hdue, hheld, hmates, hcodes, hfetch, hstat, hwait, hdyn⟩ := h
  have hlead := leadWord_of_fetchGroup_single hfetch
  have hg : issueGroup s c t = actGroup s c t [((slotOf s c t).pc, w)] := by
    simp [issueGroup, hfetch, staticFault, hstat, hwait, hcodes, groupFault, Option.isNone_iff_eq_none.1 hdyn]
  simp [sequencer, hrun, hsw, hslot, hlead, hl, hfloe, hrst, Nat.not_lt.2 hdue, hheld, hmates, hg]

-- the action of a vector word ---------------------------------------------------------------------------------------------------

/-- The operations of the vector words. -/
def vectorOps : List Op := (vectorWords 0).map Prod.fst

/-- Words of format V lie in unit 4 (R144, Table 05-2). -/
theorem isVec_of_vectorOp {w : Nat} (h : wOp w ∈ vectorOps) : isVec w = true := by
  have key : ∀ n, n < 256 → opOf n ∈ vectorOps → (if n / 16 = 5 then 4 else n / 16) = 4 := by decide +kernel
  exact decide_eq_true (key (wOP w) (bits_lt w 48 8) h)

theorem actEarly_of_vectorOp {w : Nat} (h : wOp w ∈ vectorOps) (s s0 : State) (c t i : Nat) : actEarly s s0 c t (i, w) = s := by
  unfold actEarly
  dsimp only
  generalize wOp w = o at h
  split
  case h_6 => rfl
  all_goals exact absurd h (by decide)

theorem actMid_of_vectorOp {w : Nat} (h : wOp w ∈ vectorOps) (s s0 : State) (c t i : Nat) : actMid s s0 c t (i, w) = s := by
  unfold actMid
  dsimp only
  generalize wOp w = o at h
  split
  case h_9 => rfl
  all_goals exact absurd h (by decide)

theorem advance_of_vectorOp {w : Nat} (h : wOp w ∈ vectorOps) (s0 s : State) (c t i : Nat) :
    advance s0 s c t [(i, w)] none = modSlot s c t fun x =>
      { x with pc := (slotOf s0 c t).pc + 1, loops := (slotOf s0 c t).loops, jumped := false, cyc := floeNow s0 c t, fresh := false } := by
  simp only [advance, List.getLast?_singleton, List.length_singleton]
  generalize wOp w = o at h
  split
  case h_4 => rfl
  all_goals exact absurd h (by decide)

/-- The trace record of a group, captured at the floe's first member (R439). -/
def traceIssue (s : State) (c t i w : Nat) : State :=
  match floeFor s c t with
  | some f => if (floeCores s (c / 8) f).head? = some c then traceOfFloe s (c / 8) f 1 i w else s
  | none => s

/-- What the action of a group of one vector word does besides the word's own effect s1: the slot steps on, and the floe runs again. -/
def afterVector (s s1 : State) (c t i w : Nat) : State :=
  traceIssue (setReason (modSlot (advance s s1 c t [(i, w)] none) c t fun x => { x with wait := none }) c t 0) c t i w

theorem actGroup_of_vectorOp {w : Nat} (h : wOp w ∈ vectorOps) (s : State) (c t i : Nat) :
    actGroup s c t [(i, w)] = afterVector s (vxeIssue s c t i w) c t i w := by
  have hne : ∀ o, o ∉ vectorOps → wOp w ≠ o := fun o ho e => ho (e ▸ h)
  have h1 := hne .recv (by decide)
  have h2 := hne .halt (by decide)
  have h3 := hne .yieldW (by decide)
  simp only [actGroup, List.foldl_cons, List.foldl_nil, actEarly_of_vectorOp h, actMid_of_vectorOp h, actVec, isVec_of_vectorOp h, if_true, actRecv,
    List.find?_cons, List.find?_nil, h1, decide_false, List.any_cons, List.any_nil, h2, h3, Bool.or_self, Bool.false_eq_true, if_false, ite_self, List.headD_cons]
  rfl

-- notes: the stall reason and the trace -------------------------------------------------------------------------------------------

/-- What the issue of a word notes of its floe: nothing of any core. -/
structure Notes (c f : Nat) (s s' : State) : Prop where
  frame : Frame (issueRegs c f) s s'
  cores : s'.cores = s.cores

theorem Notes.refl (c f : Nat) (s : State) : Notes c f s s := ⟨Frame.refl _ s, rfl⟩
theorem Notes.trans {c f : Nat} {s t u : State} (h : Notes c f s t) (h' : Notes c f t u) : Notes c f s u :=
  ⟨h.frame.trans h'.frame, h'.cores.trans h.cores⟩

theorem notes_setF {c f off : Nat} (h : off ∈ issueRegs c f) (s : State) (lo w v : Nat) : Notes c f s (setF s off lo w v) := ⟨frame_setF s h lo w v, rfl⟩

theorem notes_traceRec (s : State) (c f typ core slot floe fcyc w2 w3 : Nat) : Notes c f s (traceRec s (c / 8 / 8) typ core slot floe fcyc w2 w3) := by
  have hd : c / 8 / 8 = c / 64 := Nat.div_div_eq_div_mul c 8 8
  simp only [traceRec, hd]
  split
  · split
    · exact ⟨⟨fun _ => rfl, fun _ _ => rfl, rfl, rfl⟩, rfl⟩
    · exact notes_setF (by simp [issueRegs]) s _ _ _
  · exact Notes.refl c f s

theorem notes_traceOfFloe (s : State) (c f g typ w2 w3 : Nat) : Notes c f s (traceOfFloe s (c / 8) g typ w2 w3) := by
  unfold traceOfFloe
  split
  · exact notes_traceRec s c f _ _ _ _ _ _ _
  · exact Notes.refl c f s

theorem notes_stallSince (s : State) (c f r : Nat) : Notes c f s (stallSince s (c / 8) f r) := by
  unfold stallSince
  dsimp only
  split
  · exact Notes.refl c f s
  · exact ⟨⟨fun _ => rfl, fun _ _ => rfl, rfl, rfl⟩, rfl⟩

theorem notes_setFloeReason (s : State) (c f r : Nat) : Notes c f s (setFloeReason s (c / 8) f r) := by
  unfold setFloeReason
  split
  · exact notes_stallSince s c f r
  · exact ((notes_setF (by simp [issueRegs]) s 0 4 r).trans (notes_stallSince _ c f r)).trans (notes_traceOfFloe _ c f f _ _ _)

theorem notes_setReason {s : State} {c t f : Nat} (h : floeFor s c t = some f) (r : Nat) : Notes c f s (setReason s c t r) := by
  simp only [setReason, h]
  exact notes_setFloeReason s c f r

theorem notes_traceIssue (s : State) (c t f i w : Nat) : Notes c f s (traceIssue s c t i w) := by
  unfold traceIssue
  split
  · split
    · exact notes_traceOfFloe s c f _ _ _ _
    · exact Notes.refl c f s
  · exact Notes.refl c f s

theorem Notes.coreOf_eq {c f : Nat} {s s' : State} (h : Notes c f s s') (k : Nat) : coreOf s' k = coreOf s k := coreOf_congr h.cores k

-- the floe of a slot, and what keeps it ----------------------------------------------------------------------------------------------

theorem floeFor_congr {s s' : State} {c : Nat} (h : ∀ f, f < 32 → getR s' (rFLOE_DEF (c / 8) f) = getR s (rFLOE_DEF (c / 8) f)) (t : Nat) :
    floeFor s' c t = floeFor s c t := by
  refine List.find?_congr fun f hf => ?_
  have hg : ∀ lo w, getF s' (rFLOE_DEF (c / 8) f) lo w = getF s (rFLOE_DEF (c / 8) f) lo w := fun lo w => by
    simp only [getF, h f (List.mem_range.1 hf)]
  unfold floeNames getB
  rw [hg, hg, hg]

theorem floeFor_lt {s : State} {c t f : Nat} (h : floeFor s c t = some f) : f < 32 :=
  List.mem_range.1 (List.mem_of_find?_eq_some h)

/-- FP_FLAGS of a core is no register that the issue of a word writes for its floe. -/
theorem fpFlags_not_mem_issueRegs (c : Nat) {f : Nat} (_hf : f < 32) : rFP_FLAGS c ∉ issueRegs c f := by
  simp only [issueRegs, List.mem_cons, List.not_mem_nil, or_false, rFP_FLAGS, rFLOE_STAT, rTRC_STAT, coreBase, clusterBase, svcBase]
  omega

theorem floeDef_ne_fpFlags (c : Nat) {f : Nat} (_hf : f < 32) : rFLOE_DEF (c / 8) f ≠ rFP_FLAGS c := by
  simp only [rFP_FLAGS, rFLOE_DEF, coreBase, clusterBase]
  omega

/-- A vector word leaves the floe definitions alone. -/
theorem VecStep.floeFor_eq {rs : List Nat} {c : Nat} {s s' : State} (h : VecStep [rFP_FLAGS c] rs c s s') (t : Nat) : floeFor s' c t = floeFor s c t :=
  floeFor_congr (fun _ hf => h.frame.getR_eq fun e => floeDef_ne_fpFlags c hf (List.mem_singleton.1 e)) t

-- a vector word issued ---------------------------------------------------------------------------------------------------------------

/-- What the command of a vector word leaves, where s1 is the state that the word's own effect leaves: the frame, the slot stepped on, and the vector registers and
flags of s1. -/
structure VectorIssued (s s1 s' : State) (c t f : Nat) : Prop where
  frame : Frame (rFP_FLAGS c :: issueRegs c f) s s'
  cores : OtherCores c s s'
  slots : OtherSlots c t s s'
  steps : StepsOn s s' c t
  vregs : ∀ r, vreg s' c r = vreg s1 c r
  flags : getR s' (rFP_FLAGS c) = getR s1 (rFP_FLAGS c)

/-- What follows a vector word's own effect notes the issue and steps the slot on. -/
theorem vectorIssued_afterVector {s s1 : State} {c t f w : Nat} {rs : List Nat} (hf : floeFor s c t = some f) (hv : wOp w ∈ vectorOps)
    (h : VecStep [rFP_FLAGS c] rs c s s1) : VectorIssued s s1 (afterVector s s1 c t (slotOf s c t).pc w) c t f := by
  rw [afterVector, advance_of_vectorOp hv]
  generalize hs2 : modSlot (modSlot s1 c t _) c t _ = s2
  have hfl : floeFor s2 c t = some f := by
    rw [← hf, ← h.floeFor_eq t, ← hs2]; rfl
  have hn : Notes c f s2 (traceIssue (setReason s2 c t 0) c t (slotOf s c t).pc w) :=
    (notes_setReason hfl 0).trans (notes_traceIssue _ c t f _ w)
  have hframe : Frame [rFP_FLAGS c] s s2 := hs2 ▸ h.frame.trans ((frame_modCore _ _ c _).trans (frame_modCore _ _ c _))
  have hreg : ∀ off, getR s2 off = getR s1 off := hs2 ▸ fun _ => rfl
  constructor
  case frame => exact (hframe.mono (by simp)).trans (hn.frame.mono (by simp))
  case cores =>
    intro k hk
    rw [hn.coreOf_eq, ← hs2]
    simp only [modSlot, setSlot, coreOf_modCore_other _ _ hk, h.cores k hk]
  case slots =>
    intro u hu
    rw [slotOf, hn.coreOf_eq, ← slotOf, ← hs2]
    simp only [modSlot, slotOf_setSlot_otherSlot _ _ _ hu, h.slots u]
  case steps =>
    rw [StepsOn, slotOf, hn.coreOf_eq, ← slotOf, ← hs2]
    simp only [slotOf_modSlot_same, h.slots t]
  case vregs =>
    intro r
    rw [vreg, hn.coreOf_eq, ← vreg, ← hs2, vreg_modSlot, vreg_modSlot]
  case flags => rw [hn.frame.getR_eq (fpFlags_not_mem_issueRegs c (floeFor_lt hf)), hreg]

/-- The command of a vector word that issues. -/
theorem vectorIssued_of_issues {s : State} {c t f w : Nat} {rs : List Nat} {lead : Op → Bool} (hi : Issues s c t f w) (hv : wOp w ∈ vectorOps)
    (hl : lead (wOp w) = true) (h : VecStep [rFP_FLAGS c] rs c s (vxeIssue s c t (slotOf s c t).pc w)) :
    VectorIssued s (vxeIssue s c t (slotOf s c t).pc w) (sequencer s c lead) c t f := by
  rw [sequencer_of_issues hi hl, actGroup_of_vectorOp hv]
  obtain ⟨_, _, _, hf, _⟩ := hi
  exact vectorIssued_afterVector hf hv h

/-- A word of an issuing group has 64 bits. -/
theorem lt_of_issues {s : State} {c t f w : Nat} (h : Issues s c t f w) : w < 2 ^ 64 := by
  obtain ⟨_, _, _, _, _, _, _, _, _, hfetch, _⟩ := h
  exact lt_of_fetchGroup_single hfetch

/-- A vector word that starts at once: its effect, and the time it takes (R90, R91, R111). -/
theorem vxeIssue_of_starts {s : State} {c t w n : Nat} (h : StartsAt s c t w n) (hw : w < 2 ^ 64) (h1 : wOp w ≠ .vupdsr) (h2 : wOp w ≠ .vshuf) (i : Nat) :
    vxeIssue s c t i w = vxeTimed (vxeRun s c (vxEntry s c t i w)) c t w n := by
  obtain ⟨hq, hready, hpar, rfl⟩ := h
  have ew : (vxEntry s c t i w).word.toNat = w := Nat.mod_eq_of_lt hw
  have es : (vxEntry s c t i w).slot = t := rfl
  have ep : (vxEntry s c t i w).puts = [] := rfl
  simp only [vxeIssue, h1, false_and, if_false, hq, List.isEmpty_nil, hready, Bool.and_self, if_true, vxeStart, ew, es, ep, h2, decide_false, Bool.false_and,
    Bool.false_eq_true, hpar, List.foldl_nil]

end Sys2Proof.Safety
end

section
/-! SUPPORT. Lanes of a vector register: packing, replacing the first lanes, and reading one lane (R38, R86, R88); the flags (R56). -/

namespace Sys2Proof

/-- A field is the remainder of a quotient. -/
theorem bits_eq_div_mod (x lo w : Nat) : bits x lo w = x / 2 ^ lo % 2 ^ w := by
  rw [bits, Nat.shiftRight_eq_div_pow]

/-- A field that lies within the width of a bit vector. -/
theorem bits_toNat_ofNat (x : Nat) {lo w N : Nat} (h : lo + w ≤ N) : bits (BitVec.ofNat N x).toNat lo w = bits x lo w := by
  apply Nat.eq_of_testBit_eq
  intro i
  rw [testBit_bits, testBit_bits, BitVec.toNat_ofNat, Nat.testBit_mod_two_pow]
  by_cases hi : i < w
  · have : lo + i < N := by omega
    simp [this]
  · simp [hi]

end Sys2Proof

namespace Sys2Proof.Machine

/-- Replacing lanes one by one: the first lane, and the rest above it. -/
theorem putLanes_cons (w old c : Nat) (cs : List Nat) : putLanes w old (c :: cs) = c % 2 ^ w + 2 ^ w * putLanes w (old / 2 ^ w) cs := by
  simp only [putLanes, packLanes, List.length_cons, Nat.mul_add, Nat.mul_one, pow_add, Nat.div_div_eq_div_mul]
  rw [mul_comm (2 ^ (w * cs.length)) (2 ^ w)]
  ring

/-- A lane read after the first lanes were replaced (R88). -/
theorem bits_putLanes (w old : Nat) (cs : List Nat) (i : Nat) :
    bits (putLanes w old cs) (w * i) w = if i < cs.length then cs.getD i 0 % 2 ^ w else bits old (w * i) w := by
  simp only [bits_eq_div_mod]
  induction cs generalizing old i with
  | nil => simp [putLanes, packLanes]
  | cons c cs ih =>
    have hw : 0 < 2 ^ w := Nat.two_pow_pos w
    rw [putLanes_cons]
    cases i with
    | zero => simp
    | succ i =>
      rw [show w * (i + 1) = w + w * i by ring, pow_add, ← Nat.div_div_eq_div_mul, ← Nat.div_div_eq_div_mul, Nat.add_mul_div_left _ _ hw,
        Nat.div_eq_of_lt (Nat.mod_lt c hw), Nat.zero_add, ih]
      simp

theorem laneBits_of_int {f : Nat} (h : fmtIsInt f = true) : laneBits f = fmtWidth f := by
  have hr : 8 ≤ fmtCode f ∧ fmtCode f < 12 := by simpa [fmtIsInt] using h
  obtain ⟨h8, h12⟩ := hr
  unfold laneBits fmtWidth
  interval_cases fmtCode f <;> rfl

theorem fmtWidth_pos (f : Nat) : 0 < fmtWidth f := by
  unfold fmtWidth
  split <;> decide

theorem fmtIsMx_of_int {f : Nat} (h : fmtIsInt f = true) : fmtIsMx f = false := by
  have hr : 8 ≤ fmtCode f ∧ fmtCode f < 12 := by simpa [fmtIsInt] using h
  simpa [fmtIsMx] using hr.2

/-- A lane lies within its register. -/
theorem lane_fits {f i : Nat} (h : i < perReg f) : laneBits f * i + laneBits f ≤ 8192 := by
  have h1 : (i + 1) * laneBits f ≤ 8192 := (Nat.le_div_iff_mul_le (by
    by_contra h0
    simp [perReg, Nat.eq_zero_of_not_pos h0] at h)).1 h
  linarith [Nat.mul_comm (laneBits f) i]

end Sys2Proof.Machine

namespace Sys2Proof.Safety

open Sys2Proof.Machine

/-- A lane of the register that a result went to (R86, R88). -/
theorem lane_putResult (s : State) (c t f : Nat) {vd : Nat} (cs : List Nat) (hd : vd ≠ 32) {i : Nat} (hi : i < perReg f) :
    lane (putResult s c t vd f cs) c vd f i = if i < cs.length then cs.getD i 0 % 2 ^ laneBits f else lane s c vd f i := by
  simp only [lane, putResult, hd, if_false, vreg_setVreg_same]
  rw [bits_toNat_ofNat _ (lane_fits hi), bits_putLanes]

/-- A vector word that puts its lanes into a register and sets its flags, takes k elements of the flowline, and occupies the lanes. -/
def vecResult (s : State) (c t w n vd f : Nat) (cs : List Nat) (fl k : Nat) : State :=
  vxeTimed (dropFli (setFlags (putResult s c t vd f cs) c fl) c k) c t w n

theorem getB_congr {s t : State} {off : Nat} (h : getR t off = getR s off) (b : Nat) : getB t off b = getB s off b := by
  rw [getB, getB, getF, getF, h]

/-- A bit of FP_FLAGS after flags were set (R56). -/
theorem getB_setFlags (s : State) (c fl : Nat) {b : Nat} (hb : b < 6) :
    getB (setFlags s c fl) (rFP_FLAGS c) b = (getB s (rFP_FLAGS c) b || fl.testBit b) := by
  have hbit : ∀ t : State, getB t (rFP_FLAGS c) b = (getF t (rFP_FLAGS c) 0 6).testBit b := fun t => by
    rw [getF, testBit_bits]
    simp [getB, getF, bits_eq_div_mod, hb, Nat.testBit_eq_decide_div_mod_eq]
  rw [hbit, hbit, setFlags, getF_setF_same _ _ _ _ _ (by decide), Nat.testBit_mod_two_pow, Nat.testBit_or]
  simp [hb]

section

variable (s : State) (c t w n f : Nat) {vd : Nat} (cs : List Nat) (fl k : Nat)

theorem vecStep_vecResult (hd : vd ≠ 32) : VecStep [rFP_FLAGS c] [vd] c s (vecResult s c t w n vd f cs fl k) :=
  (((vecStep_putResult _ s c t f cs hd).trans (vecStep_setFlags _ _ c fl)).trans (vecStep_dropFli _ _ _ c k)).trans (vecStep_vxeTimed _ _ _ c t w n)

theorem lane_vecResult (hd : vd ≠ 32) {i : Nat} (hi : i < perReg f) :
    lane (vecResult s c t w n vd f cs fl k) c vd f i = if i < cs.length then cs.getD i 0 % 2 ^ laneBits f else lane s c vd f i := by
  rw [← lane_putResult s c t f cs hd hi, lane, lane, vecResult, (vecStep_vxeTimed [] [] _ c t w n).vregs vd List.not_mem_nil,
    (vecStep_dropFli [] [] _ c k).vregs vd List.not_mem_nil, vreg_setFlags]

theorem getB_vecResult (hd : vd ≠ 32) {b : Nat} (hb : b < 6) :
    getB (vecResult s c t w n vd f cs fl k) (rFP_FLAGS c) b = (getB s (rFP_FLAGS c) b || fl.testBit b) := by
  have hput := getB_congr ((vecStep_putResult [] s c t f cs hd).frame.getR_eq (off := rFP_FLAGS c) List.not_mem_nil) b
  have htail := getB_congr (((vecStep_dropFli [] [] (setFlags (putResult s c t vd f cs) c fl) c k).trans
    (vecStep_vxeTimed [] [] _ c t w n)).frame.getR_eq (off := rFP_FLAGS c) List.not_mem_nil) b
  rw [vecResult, htail, getB_setFlags _ _ _ hb, hput]

end

end Sys2Proof.Safety
end

section
/-! SUPPORT. Conversions between plain integer formats (R46): saturation as a clamp, and the flags that lanes set together. -/

namespace Sys2Proof

/-- The value of a pattern is the integer that stands in the range of its width and agrees with it modulo 2^w. -/
theorem signed_unsigned {w : Nat} (hw : 0 < w) {x : Int} (h1 : -2 ^ (w - 1) ≤ x) (h2 : x < 2 ^ (w - 1)) : signed w (unsigned w x) = x := by
  obtain ⟨k, rfl⟩ : ∃ k, w = k + 1 := ⟨w - 1, by omega⟩
  simp only [Nat.add_sub_cancel] at h1 h2
  have hp : ((2 ^ (k + 1) : Nat) : Int) = 2 * 2 ^ k := by push_cast; ring
  have hk : ((2 ^ k : Nat) : Int) = 2 ^ k := by push_cast; rfl
  have hpos : (0 : Int) < 2 ^ k := by positivity
  have hm : ((unsigned (k + 1) x : Nat) : Int) = x % (2 * 2 ^ k) := by
    rw [unsigned, hp, Int.toNat_of_nonneg (Int.emod_nonneg _ (by omega))]
  have hlt : unsigned (k + 1) x < 2 ^ (k + 1) := by
    have := Int.emod_lt_of_pos x (show (0 : Int) < 2 * 2 ^ k by omega)
    omega
  simp only [signed, Nat.mod_eq_of_lt hlt, Nat.add_sub_cancel]
  by_cases hx : 0 ≤ x
  · rw [Int.emod_eq_of_lt hx (by omega)] at hm
    rw [if_pos (by omega), hm]
  · have he : x % (2 * 2 ^ k) = x + 2 * 2 ^ k := by
      rw [← Int.add_emod_right, Int.emod_eq_of_lt (by omega) (by omega)]
    rw [if_neg (by omega), hm, he, hp]
    ring

@[simp] theorem signed_mod (w x : Nat) : signed w (x % 2 ^ w) = signed w x := by
  simp only [signed, Nat.mod_mod]

end Sys2Proof

namespace Sys2Proof.Machine

/-- An integer brought into the range of w bits. -/
def clampInt (w : Nat) (x : Int) : Int := max (-2 ^ (w - 1)) (min (2 ^ (w - 1) - 1) x)

/-- Saturation writes the clamped integer, and sets INT_SAT when that is another value (R46). -/
theorem satInt_eq (w : Nat) (x : Int) : satInt w x = ⟨unsigned w (clampInt w x), if clampInt w x = x then 0 else fIntSat⟩ := by
  have hk : ((2 ^ (w - 1) : Nat) : Int) = 2 ^ (w - 1) := by push_cast; rfl
  have hpos : (0 : Int) < 2 ^ (w - 1) := by positivity
  have hk1 : ((2 ^ (w - 1) - 1 : Nat) : Int) = 2 ^ (w - 1) - 1 := by
    rw [Nat.cast_sub (Nat.one_le_two_pow), hk, Nat.cast_one]
  simp only [satInt, hk, hk1]
  split
  · rename_i h
    have e : clampInt w x = 2 ^ (w - 1) - 1 := by unfold clampInt; omega
    rw [e, if_neg (by omega)]
  · split
    · rename_i h
      have e : clampInt w x = -2 ^ (w - 1) := by unfold clampInt; omega
      rw [e, if_neg (by omega)]
    · have e : clampInt w x = x := by unfold clampInt; omega
      rw [e, if_pos rfl]

theorem signed_satInt {w : Nat} (hw : 0 < w) (x : Int) : signed w (satInt w x).code = clampInt w x := by
  have hpos : (0 : Int) < 2 ^ (w - 1) := by positivity
  rw [satInt_eq]
  exact signed_unsigned hw (by unfold clampInt; omega) (by unfold clampInt; omega)

/-- An integer is a value without a fraction: no rounding mode moves it. -/
theorem toPlain_of_int {d : Nat} (hd : fmtIsInt d = true) (rm : Nat) (sat : Bool) (x : Int) : toPlain d rm sat (intFV x 0) = satInt (fmtWidth d) x := by
  have hx : roundToInt rm (decide (x < 0)) x.natAbs 0 = x := by
    simp only [roundToInt, lt_irrefl, if_false, Int.toNat_zero, Nat.shiftLeft_zero, decide_eq_true_eq]
    split <;> omega
  simp only [toPlain, hd, if_true, intFV, toInt, hx]

/-- The source lanes of a plain integer format are integers (R32). -/
theorem srcValues_of_int {f : Nat} (hf : fmtIsInt f = true) (scales : List Nat) (i : Nat) (cs : List Nat) :
    srcValues f scales i cs = cs.map fun c => intFV (signed (fmtWidth f) c) 0 := by
  induction cs generalizing i with
  | nil => rfl
  | cons c cs ih =>
    simp only [srcValues, fmtIsMx_of_int hf, decodeElem, hf, laneCode, signed_mod, ih, if_true, Bool.false_eq_true, if_false, List.map_cons]

/-- The flag of lanes of integers that saturate together: INT_SAT when one of them changes (R46). -/
def intSatFlag (w : Nat) (xs : List Int) : Nat := if ∀ x ∈ xs, clampInt w x = x then 0 else fIntSat

theorem intSatFlag_cons (w : Nat) (x : Int) (xs : List Int) : intSatFlag w (x :: xs) = (satInt w x).fl ||| intSatFlag w xs := by
  have h0 : intSatFlag w xs = 0 ∨ intSatFlag w xs = fIntSat := by
    unfold intSatFlag
    split
    · exact .inl rfl
    · exact .inr rfl
  by_cases hx : clampInt w x = x
  · simp [intSatFlag, satInt_eq, hx]
  · have e : intSatFlag w (x :: xs) = fIntSat := if_neg fun h => hx (h x List.mem_cons_self)
    rw [e, satInt_eq, if_neg hx]
    rcases h0 with h | h
    · rw [h, Nat.or_zero]
    · rw [h, Nat.or_self]

theorem testBit_intSatFlag (w : Nat) (xs : List Int) (b : Nat) :
    (intSatFlag w xs).testBit b = true ↔ b = 3 ∧ ∃ x ∈ xs, clampInt w x ≠ x := by
  have h3 : fIntSat.testBit b = true ↔ b = 3 := by
    rw [show fIntSat = 2 ^ 3 from rfl, Nat.testBit_two_pow, decide_eq_true_eq, eq_comm]
  unfold intSatFlag
  split
  · rename_i h
    simp only [Nat.zero_testBit, Bool.false_eq_true, false_iff]
    rintro ⟨_, x, hx, hne⟩
    exact hne (h x hx)
  · rename_i h
    push Not at h
    simp [h3, h]

/-- Lanes of integers converted to a plain integer format: each saturates by itself. -/
theorem toPlainLanes_of_int {d : Nat} (hd : fmtIsInt d = true) (rm : Nat) (sat : Bool) (xs : List Int) :
    toPlainLanes d rm sat (xs.map fun x => intFV x 0) = (xs.map fun x => (satInt (fmtWidth d) x).code, intSatFlag (fmtWidth d) xs) := by
  induction xs with
  | nil => simp [toPlainLanes, intSatFlag]
  | cons x xs ih => simp only [List.map_cons, toPlainLanes, ih, toPlain_of_int hd, intSatFlag_cons]

end Sys2Proof.Machine
end

section
/-! PROOF. VCVT between plain integer formats (O9): the word's effect on its destination and flags, and the command that issues it. -/

namespace Sys2Proof.Safety

open Sys2Proof.Machine

/-- The command of VCVT runs the sequencer. -/
theorem exec_vcvt (core : CoreId) (s : State) : exec (.vcvt core) s = .next (sequencer s core (· = .vcvt)) := rfl

/-- A VCVT that issues and starts: its conversion, then the bookkeeping of its operands and its time. -/
theorem vxeIssue_vcvt {s : State} {c t f w n : Nat} (hi : Issues s c t f w) (hop : wOp w = .vcvt) (hs : Starts s c t w n) (i : Nat) :
    vxeIssue s c t i w =
      vxeTimed (dropFli (vxeConvert s c t w n (vxEntry s c t i w).scale) c (fliNeed (slotOf s c t).vl w)) c t w n := by
  obtain ⟨hst, hn⟩ := hs
  have hw := lt_of_issues hi
  have ew : (vxEntry s c t i w).word.toNat = w := Nat.mod_eq_of_lt hw
  have es : (vxEntry s c t i w).slot = t := rfl
  rw [vxeIssue_of_starts hst hw (by simp [hop]) (by simp [hop])]
  obtain ⟨_, _, _, rfl⟩ := hst
  simp only [vxeRun, ew, es, hop, Nat.pos_iff_ne_zero.1 hn, if_false]

/-- The source integers of a conversion. -/
def intLanes (s : State) (c w n : Nat) : List Int := (List.range n).map fun i => signed (fmtWidth (vFMT w)) (lane s c (vVA w) (vFMT w) i)

/-- What a conversion between plain integer formats does: saturated lanes in the destination, and INT_SAT when a lane changes. -/
theorem vxeConvert_int {s : State} {c t w n sc : Nat} (hf : fmtIsInt (vFMT w) = true) (hd : fmtIsInt (fnDfmt w) = true) (ha : vVA w ≠ 32) :
    vxeConvert s c t w n sc =
      setFlags (putResult s c t (vVD w) (fnDfmt w) ((intLanes s c w n).map fun x => (satInt (fmtWidth (fnDfmt w)) x).code)) c
        (intSatFlag (fmtWidth (fnDfmt w)) (intLanes s c w n)) := by
  have hvals : ∀ scales, srcValues (vFMT w) scales 0 (srcLanes s c t false (vVA w) (vFMT w) n) = (intLanes s c w n).map fun x => intFV x 0 := fun scales => by
    rw [srcValues_of_int hf]
    simp only [srcLanes, Bool.false_eq_true, if_false, ha, regLanes, unpackLanes, List.map_map, intLanes, Function.comp_def, lane]
  simp only [vxeConvert, fmtIsMx_of_int hd, Bool.false_eq_true, if_false, hvals, toPlainLanes_of_int hd]

/-- The effective length of a VCVT holds in a register of its destination's format (R88). -/
theorem le_perReg_of_starts_vcvt {s : State} {c t w n : Nat} (hop : wOp w = .vcvt) (hs : Starts s c t w n) : n ≤ perReg (fnDfmt w) := by
  obtain ⟨⟨_, _, _, rfl⟩, _⟩ := hs
  simp only [effLen, elemFmts, hop, List.foldl_cons, List.foldl_nil]
  exact min_le_right _ _

/-- The state that an integer VCVT leaves by its own effect. -/
theorem vxeIssue_vcvt_int {s : State} {c t f w n : Nat} (hi : Issues s c t f w) (hop : wOp w = .vcvt) (hs : Starts s c t w n) (hf : fmtIsInt (vFMT w) = true)
    (hd : fmtIsInt (fnDfmt w) = true) (ha : vVA w ≠ 32) (i : Nat) :
    vxeIssue s c t i w = vecResult s c t w n (vVD w) (fnDfmt w) ((intLanes s c w n).map fun x => (satInt (fmtWidth (fnDfmt w)) x).code)
      (intSatFlag (fmtWidth (fnDfmt w)) (intLanes s c w n)) (fliNeed (slotOf s c t).vl w) := by
  rw [vxeIssue_vcvt hi hop hs, vxeConvert_int hf hd ha, vecResult]

/-- The integer that a lane of the destination holds after saturated lanes were put there (R46). -/
theorem signed_lane_saturated (s : State) (c t w n fl k : Nat) {d vd i : Nat} (xs : List Int) (hd : fmtIsInt d = true) (hvd : vd ≠ 32) (hi : i < xs.length)
    (hp : i < perReg d) :
    signed (fmtWidth d) (lane (vecResult s c t w n vd d (xs.map fun x => (satInt (fmtWidth d) x).code) fl k) c vd d i) = clampInt (fmtWidth d) xs[i] := by
  rw [lane_vecResult _ _ _ _ _ _ _ _ _ hvd hp, List.length_map, if_pos hi, laneBits_of_int hd, signed_mod, ← signed_satInt (fmtWidth_pos d) xs[i],
    List.getD_eq_getElem _ _ (by simpa using hi), List.getElem_map]

/-- Settles O9: each lane of a conversion between plain integer formats saturates by itself (`satInt_eq`), and the flags of the lanes together are INT_SAT when one of
them changes (`testBit_intSatFlag`). -/
theorem integerConversionsSaturate : Obligations.IntegerConversionsSaturate := by
  unfold Obligations.IntegerConversionsSaturate
  intro core s t f w n hiss hop hs hf hd ha hvd top v htop hv
  obtain rfl : v = fun i => signed (fmtWidth (vFMT w)) (lane s core (vVA w) (vFMT w) i) := funext hv
  have hclamp : ∀ x, max (-top - 1) (min top x) = clampInt (fmtWidth (fnDfmt w)) x := fun x => by
    rw [clampInt, htop]
    congr 1
    ring
  have hlen : (intLanes s core w n).length = n := by simp [intLanes]
  have hn := le_perReg_of_starts_vcvt hop hs
  have hs1 := vxeIssue_vcvt_int hiss hop hs hf hd ha (slotOf s core t).pc
  have hstep := vecStep_vecResult s core t w n (fnDfmt w) ((intLanes s core w n).map fun x => (satInt (fmtWidth (fnDfmt w)) x).code)
    (intSatFlag (fmtWidth (fnDfmt w)) (intLanes s core w n)) (fliNeed (slotOf s core t).vl w) hvd
  have hdone := vectorIssued_of_issues (lead := (· = .vcvt)) hiss (by rw [hop]; decide) (by simp [hop]) (hs1 ▸ hstep)
  rw [hs1] at hdone
  have hflag := fun b hb => (getB_congr hdone.flags b).trans (getB_vecResult s core t w n (fnDfmt w) _ _ _ hvd (b := b) hb)
  refine ⟨_, exec_vcvt core s, hdone.frame, hdone.cores, hdone.slots, hdone.steps, ?_, ?_, ?_, ?_, ?_⟩
  · exact fun r hr => (hdone.vregs r).trans (hstep.vregs r hr)
  · intro i h
    rw [lane, hdone.vregs, ← lane, signed_lane_saturated _ _ _ _ _ _ _ _ hd hvd (hlen.symm ▸ h) (by omega), hclamp]
    simp [intLanes]
  · intro i h hp
    rw [lane, hdone.vregs, ← lane, lane_vecResult _ _ _ _ _ _ _ _ _ hvd hp, List.length_map, hlen, if_neg (by omega)]
  · rw [hflag 3 (by decide), Bool.or_eq_true, testBit_intSatFlag]
    simp [intLanes, hclamp]
  · intro b hb h3
    have h : (intSatFlag (fmtWidth (fnDfmt w)) (intLanes s core w n)).testBit b = false :=
      Bool.eq_false_iff.2 fun h => h3 ((testBit_intSatFlag _ _ b).1 h).1
    rw [hflag b hb, h, Bool.or_false]

end Sys2Proof.Safety
end

section
/-! SUPPORT. Register writes that are served at once: the write reaches the block of its core or cluster (R361, R456), and what the words of a core and a cluster with a
behaviour of their own do. -/

namespace Sys2Proof.Safety

open Sys2Proof.Machine

/-- A served write of a word is performed at once: nothing has it wait, refuses it or wakes the package (R306, R312, R313, R361). -/
theorem regTop_of_served {s : State} {src : Src} {off : Nat} (h : Served s src off) (hoff : off < 2 ^ 26) (h4 : off % 4 = 0) (v : Nat) :
    regTop s src off false v = writeWord s src off (BitVec.ofNat 32 v) := by
  obtain ⟨⟨hvaux, hawake, hheld, hentry⟩, hlive, hmay, habsent, hregion, hgated⟩ := h
  obtain ⟨⟨hstate, -⟩, hpower⟩ : (pwrState s ≤ 1 ∧ pwrBusy s = false) ∧ s.pwr.off = false := by
    simpa [Machine.awake, pwrState, pwrBusy] using hawake
  have hperform : regPerform s src off false v = writeWord s src off (BitVec.ofNat 32 v) := by
    simp [regPerform, habsent, rightsWord, hmay]
  have hplace : ¬ (2 ^ 26 ≤ off ∨ off % (if false = true then 8 else 4) ≠ 0) := by simp [h4]; omega
  have hpowered : ¬ (s.pwr.vaux = false ∨ s.pwr.off = true ∨ (pwrState s = 3 ∧ pwrBusy s = false)) := by simp [hvaux, hpower]; omega
  have hstart : startsWait s = false := by simp [startsWait, hentry]; omega
  rw [regTop, if_neg (by simp [hlive]), if_pos (by simp [hheld, hawake])]
  unfold regWrite
  rw [if_neg hplace, if_neg hpowered, if_neg (by simp [habsent]), ← hperform]
  cases hr : regRegion s off with
  | none => rfl
  | some r =>
    obtain ⟨hup, hcross⟩ : regionUp s r = true ∧ crossWaits s r = false := by simpa [hr] using hregion
    simp only [hmay, hcross, hup, hstart, hgated, Bool.true_eq_false, Bool.false_eq_true, if_false, Bool.false_and]

/-- Above the package's own blocks a write goes by its place to a cluster's block or a core's (R456). -/
theorem writeWord_block (s : State) (src : Src) {off : Nat} (hlo : 0x100_0000 ≤ off) (hhi : off < 0x300_0000) (v : BitVec 32) :
    writeWord s src off v =
      if off < 0x120_0000 then clusterWrite s (mayDebug s src) ((off - 0x100_0000) / 0x1_0000) off v
      else if 0x200_0000 ≤ off then coreWrite s (mayDebug s src) ((off - 0x200_0000) / 0x1_0000) off v
      else plainWrite s false off v := by
  have hpkg : off ≠ rPKG_ID := by unfold rPKG_ID; omega
  have hsess : inSessBlock off = false := by simp [inSessBlock]; omega
  have hroute : off ≠ rFAB_ROUTE := by unfold rFAB_ROUTE; omega
  have hmir : off ≠ rMIR_CTL := by unfold rMIR_CTL; omega
  rw [writeWord, if_neg hpkg, if_neg (by simp [hsess]), if_neg (by omega), if_neg (by omega), if_neg (by omega), if_neg (by omega), if_neg hroute, if_neg hmir,
    if_neg (by omega)]
  simp only [hlo, hhi, true_and, and_true]

theorem writeWord_core (s : State) (src : Src) {c o : Nat} (hc : c < 256) (ho : o < 0x1_0000) (v : BitVec 32) :
    writeWord s src (coreBase c + o) v = coreWrite s (mayDebug s src) c (coreBase c + o) v := by
  have hdiv : (coreBase c + o - 0x200_0000) / 0x1_0000 = c := by unfold coreBase; omega
  rw [writeWord_block s src (by unfold coreBase; omega) (by unfold coreBase; omega), if_neg (by unfold coreBase; omega), if_pos (by unfold coreBase; omega), hdiv]

theorem writeWord_cluster (s : State) (src : Src) {cl o : Nat} (hcl : cl < 32) (ho : o < 0x1_0000) (v : BitVec 32) :
    writeWord s src (clusterBase cl + o) v = clusterWrite s (mayDebug s src) cl (clusterBase cl + o) v := by
  have hdiv : (clusterBase cl + o - 0x100_0000) / 0x1_0000 = cl := by unfold clusterBase; omega
  rw [writeWord_block s src (by unfold clusterBase; omega) (by unfold clusterBase; omega), if_pos (by unfold clusterBase; omega), hdiv]

/-- A served write of CORE_CTL, TASK_CTL, FLOE_DEF or FLOE_CTL acts as its own operation (R133, R139, R190, R191). -/
theorem regTop_coreCtl {s : State} {src : Src} (c : CoreId) (h : Served s src (rCORE_CTL c)) {v : Nat} (hv : v < 2 ^ 32) :
    regTop s src (rCORE_CTL c) false v = coreCtl s c v := by
  have ho : coreBase c % 0x1_0000 = 0 := by unfold coreBase; omega
  rw [regTop_of_served h (by unfold rCORE_CTL coreBase; omega) (by unfold rCORE_CTL coreBase; omega), rCORE_CTL, ← Nat.add_zero (coreBase c),
    writeWord_core s src c.isLt (by omega), coreWrite, BitVec.toNat_ofNat, Nat.mod_eq_of_lt hv, Nat.add_zero]
  exact if_pos ho

theorem regTop_taskCtl {s : State} {src : Src} (c : CoreId) (t : SlotId) (h : Served s src (rTASK_CTL c t)) {v : Nat} (hv : v < 2 ^ 32) :
    regTop s src (rTASK_CTL c t) false v = taskCtl s c t v := by
  have ho : (coreBase c + (0x200 + 0x40 * t)) % 0x1_0000 = 0x200 + 0x40 * t := by unfold coreBase; omega
  have ht : (0x200 + 0x40 * t.val - 0x200) / 0x40 = t := by omega
  rw [regTop_of_served h (by unfold rTASK_CTL coreBase; omega) (by unfold rTASK_CTL coreBase; omega), rTASK_CTL, Nat.add_assoc,
    writeWord_core s src c.isLt (by omega), coreWrite, BitVec.toNat_ofNat, Nat.mod_eq_of_lt hv]
  dsimp only
  rw [ho, ht, if_neg (by omega), if_pos (by omega)]

theorem regTop_floeDef {s : State} {src : Src} (cl : ClusterId) (f : FloeId) (h : Served s src (rFLOE_DEF cl f)) {v : Nat} (hv : v < 2 ^ 32) :
    regTop s src (rFLOE_DEF cl f) false v = floeDef s cl f v := by
  have ho : (clusterBase cl + (0x1000 + 0x20 * f)) % 0x1_0000 = 0x1000 + 0x20 * f := by unfold clusterBase; omega
  have hx : clusterBase cl + (0x1000 + 0x20 * f) ≠ rCLK_XCTL cl := by unfold rCLK_XCTL; omega
  have hf : (0x1000 + 0x20 * f.val - 0x1000) / 0x20 = f := by omega
  rw [regTop_of_served h (by unfold rFLOE_DEF clusterBase; omega) (by unfold rFLOE_DEF clusterBase; omega), rFLOE_DEF, Nat.add_assoc,
    writeWord_cluster s src cl.isLt (by omega), clusterWrite, BitVec.toNat_ofNat, Nat.mod_eq_of_lt hv]
  rw [ho, hf, if_neg hx, if_pos (by omega)]

theorem regTop_floeCtl {s : State} {src : Src} (cl : ClusterId) (f : FloeId) (h : Served s src (rFLOE_CTL cl f)) {v : Nat} (hv : v < 2 ^ 32) :
    regTop s src (rFLOE_CTL cl f) false v = floeCtl s cl f v (mayDebug s src) := by
  have ho : (clusterBase cl + (0x1004 + 0x20 * f)) % 0x1_0000 = 0x1004 + 0x20 * f := by unfold clusterBase; omega
  have hx : clusterBase cl + (0x1004 + 0x20 * f) ≠ rCLK_XCTL cl := by unfold rCLK_XCTL; omega
  have hf : (0x1004 + 0x20 * f.val - 0x1000) / 0x20 = f := by omega
  rw [regTop_of_served h (by unfold rFLOE_CTL clusterBase; omega) (by unfold rFLOE_CTL clusterBase; omega), rFLOE_CTL, Nat.add_assoc,
    writeWord_cluster s src cl.isLt (by omega), clusterWrite, BitVec.toNat_ofNat, Nat.mod_eq_of_lt hv]
  rw [ho, hf, if_neg hx, if_neg (by omega), if_pos (by omega)]

end Sys2Proof.Safety
end

section
/-! SUPPORT. Registers and task slots under a frame, a fold that deals with each entry of a list once, and START of a task slot (R133, R222). -/

namespace Sys2Proof.Safety

open Sys2Proof.Machine

variable {s s' : State}

/-- A fold that settles the entries of a list: an act takes its own entry from to do (P) to done (Q), and leaves what is to do and what is done of the others. -/
theorem foldl_settles {α : Type} {f : State → α → State} {P Q : State → α → Prop} (hact : ∀ s a, P s a → Q (f s a) a)
    (hP : ∀ s a b, P s a → b ≠ a → P s b → P (f s a) b) (hQ : ∀ s a b, P s a → b ≠ a → Q s b → Q (f s a) b) {l : List α} (hnd : l.Nodup)
    (hl : ∀ a ∈ l, P s a) {b : α} (hb : b ∈ l ∨ Q s b) : Q (l.foldl f s) b := by
  induction l generalizing s with
  | nil => exact hb.resolve_left List.not_mem_nil
  | cons a l ih =>
    obtain ⟨hal, hnd⟩ := List.nodup_cons.1 hnd
    obtain ⟨hPa, hl⟩ := List.forall_mem_cons.1 hl
    refine ih hnd (fun x hx => hP s a x hPa (fun e => hal (e ▸ hx)) (hl x hx)) ?_
    by_cases hba : b = a
    · exact .inr (hba ▸ hact s a hPa)
    · rcases hb with hb | hb
      · exact .inl ((List.mem_cons.1 hb).resolve_left hba)
      · exact .inr (hQ s a b hPa hba hb)

-- reads under a frame ------------------------------------------------------------------------------------------------------------------

theorem Frame.getF_eq {l : List Nat} (h : Frame l s s') {off : Nat} (ho : off ∉ l) (lo w : Nat) : getF s' off lo w = getF s off lo w := by
  rw [getF, getF, h.getR_eq ho]

theorem Frame.ctrsOf_eq {l : List Nat} (h : Frame l s s') {c : Nat} (hc : ∀ n, n < 48 → rCTR_CFG c n ∉ l) (t : Nat) : ctrsOf s' c t = ctrsOf s c t :=
  List.filter_congr fun n hn => by simp only [getB, h.getF_eq (hc n (List.mem_range.1 hn))]

theorem Frame.floeMembers_eq {l : List Nat} (h : Frame l s s') {cl f : Nat} (hf : rFLOE_DEF cl f ∉ l) : floeMembers s' cl f = floeMembers s cl f := by
  simp only [floeMembers, floeCores, floeSlot, getB, h.getF_eq hf]

theorem frame_setR (s : State) {l : List Nat} {off : Nat} (ho : off ∈ l) (v : BitVec 32) : Frame l s (setR s off v) :=
  ⟨fun _ => rfl, fun _ h => getR_setR_other s v fun e => h (e ▸ ho), rfl, rfl⟩

theorem frame_setR64 (s : State) {l : List Nat} {off : Nat} (ho : off ∈ l) (ho' : off + 4 ∈ l) (v : Nat) : Frame l s (setR64 s off v) :=
  (frame_setR s ho _).trans (frame_setR _ ho' _)

-- task states --------------------------------------------------------------------------------------------------------------------------

/-- Each task slot has a TASK_STAT of its own. -/
theorem rTASK_STAT_ne {k u c t : Nat} (hu : u < 4) (ht : t < 4) (h : (k, u) ≠ (c, t)) : rTASK_STAT k u ≠ rTASK_STAT c t := by
  rw [ne_eq, Prod.mk.injEq] at h
  unfold rTASK_STAT coreBase
  omega

@[simp] theorem slotState_setSlotState_same (s : State) (c t v : Nat) : slotState (setSlotState s c t v) c t = v % 8 :=
  getF_setF_same s _ 0 3 v (by decide)

theorem slotState_setSlotState_other (s : State) {k u c t : Nat} (v : Nat) (hu : u < 4) (ht : t < 4) (h : (k, u) ≠ (c, t)) :
    slotState (setSlotState s c t v) k u = slotState s k u := getF_setF_otherReg s _ _ _ _ _ (rTASK_STAT_ne hu ht h)

/-- The blocked cause of a slot lies beside its state. -/
@[simp] theorem slotState_setCause (s : State) (c t cause index : Nat) : slotState (setCause s c t cause index) c t = slotState s c t :=
  (getF_setF_otherField _ _ 8 6 _ 0 3 (by decide) (by decide)).trans (getF_setF_otherField s _ 4 2 _ 0 3 (by decide) (by decide))

theorem coreOf_setF (s : State) (off lo w v k : Nat) : coreOf (setF s off lo w v) k = coreOf s k := coreOf_congr (setF_cores s off lo w v) k

theorem setCause_setSlotState_cores (s : State) (c t v cause index : Nat) : (setCause (setSlotState s c t v) c t cause index).cores = s.cores := by
  rw [setCause, setF_cores, setF_cores, setSlotState, setF_cores]

theorem slotOf_congr (h : s'.cores = s.cores) (c t : Nat) : slotOf s' c t = slotOf s c t := by rw [slotOf, slotOf, coreOf_congr h]

-- START of a slot ------------------------------------------------------------------------------------------------------------------------

/-- BASE of the counters of a core. -/
def baseRegs (c : Nat) : List Nat := (List.range 48).map (rCTR_BASE c)

theorem mem_baseRegs {off c : Nat} : off ∈ baseRegs c ↔ ∃ n, n < 48 ∧ rCTR_BASE c n = off := by simp [baseRegs]

theorem mem_ctrsOf_lt {c t n : Nat} (h : n ∈ ctrsOf s c t) : n < 48 := List.mem_range.1 (List.mem_of_mem_filter h)

theorem frame_ctrStart (s : State) (c t : Nat) : Frame (baseRegs c) s (ctrStart s c t) :=
  List.foldlRecOn _ _ (Frame.refl _ s) fun _ h n hn =>
    h.trans (frame_setF _ (mem_baseRegs.2 ⟨n, mem_ctrsOf_lt hn, rfl⟩) _ _ _)

theorem ctrStart_cores (s : State) (c t : Nat) : (ctrStart s c t).cores = s.cores :=
  List.foldlRecOn (motive := fun x : State => x.cores = s.cores) _ _ rfl fun x h n _ => (setF_cores x (rCTR_BASE c n) 0 16 _).trans h

/-- START copies the value of each counter of the slot into its BASE (R222). -/
theorem base_ctrStart {c t n : Nat} (hn : n ∈ ctrsOf s c t) : getF (ctrStart s c t) (rCTR_BASE c n) 0 16 = ctrValue s c n := by
  refine foldl_settles (P := fun x n => ctrValue x c n = ctrValue s c n) (Q := fun x n => getF x (rCTR_BASE c n) 0 16 = ctrValue s c n)
    ?_ ?_ ?_ (List.nodup_range.filter _) (fun _ _ => rfl) (.inl hn)
  · intro x a hx
    rw [getF_setF_same _ _ _ _ _ (by decide), hx]
    exact Nat.mod_eq_of_lt (getF_lt s _ _ _)
  · intro x a b _ _ hb
    rw [← hb]
    exact getF_setF_otherReg x _ _ _ _ _ (by unfold rCTR_VAL rCTR_BASE; omega)
  · intro x a b _ hba hb
    rw [← hb]
    exact getF_setF_otherReg x _ _ _ _ _ (by unfold rCTR_BASE; omega)

/-- What START makes of a slot's own state (R133). -/
def startedSlot (s : State) (c t : Nat) (x : SlotSt) : SlotSt :=
  { sreg := x.sreg, areg := x.areg, pc := getF s (rTASK_PC c t) 0 13, lo := getF s (rTASK_SPWIN c t) 0 9, hi := getF s (rTASK_SPWIN c t) 16 9,
    vmask := (getR s (rTASK_VMASK c t)).toNat }

@[simp] theorem startedSlot_pc (s : State) (c t : Nat) (x : SlotSt) : (startedSlot s c t x).pc = getF s (rTASK_PC c t) 0 13 := rfl

/-- A slot that has started, before the counters it owns take their BASE. -/
def readied (s : State) (c t : Nat) : State := modSlot (setCause (setSlotState s c t 1) c t 0 0) c t (startedSlot s c t)

theorem slotStart_of_idle {c t : Nat} (h : slotState s c t = 0 ∨ slotState s c t = 4) : slotStart s c t = ctrStart (readied s c t) c t := if_pos h

theorem frame_readied (s : State) (c t : Nat) : Frame [rTASK_STAT c t] s (readied s c t) :=
  have hstat := List.mem_singleton.2 rfl
  (((frame_setF s hstat _ _ _).trans (frame_setF _ hstat _ _ _)).trans (frame_setF _ hstat _ _ _)).trans (frame_modCore _ _ c _)

theorem slotState_readied (s : State) (c t : Nat) : slotState (readied s c t) c t = 1 := by
  rw [slotState, readied, getF_congr (modSlot_regs _ c t _), ← slotState, slotState_setCause, slotState_setSlotState_same]

theorem coreOf_readied_other (s : State) {c k : Nat} (t : Nat) (h : k ≠ c) : coreOf (readied s c t) k = coreOf s k := by
  rw [readied, modSlot, setSlot, coreOf_modCore_other _ _ h, coreOf_congr (setCause_setSlotState_cores s c t 1 0 0)]

theorem slotOf_readied_same (s : State) (c t : Nat) : slotOf (readied s c t) c t = startedSlot s c t (slotOf s c t) := by
  rw [readied, slotOf_modSlot_same, slotOf_congr (setCause_setSlotState_cores s c t 1 0 0)]

theorem slotOf_readied_other (s : State) (c : Nat) {t u : Nat} (h : u ≠ t) : slotOf (readied s c t) c u = slotOf s c u := by
  rw [readied, modSlot, slotOf_setSlot_otherSlot _ _ _ h, slotOf_congr (setCause_setSlotState_cores s c t 1 0 0)]

theorem frame_slotStart (s : State) (c t : Nat) : Frame (rTASK_STAT c t :: baseRegs c) s (slotStart s c t) := by
  by_cases h : slotState s c t = 0 ∨ slotState s c t = 4
  · rw [slotStart_of_idle h]
    exact ((frame_readied s c t).mono (by simp)).trans ((frame_ctrStart _ c t).mono (by simp))
  · rw [slotStart, if_neg h]
    exact Frame.refl _ s

/-- What START of a slot leaves (R133, R222). -/
structure Started (s s' : State) (c t : Nat) : Prop where
  frame : Frame (rTASK_STAT c t :: baseRegs c) s s'
  cores : OtherCores c s s'
  slots : OtherSlots c t s s'
  state : slotState s' c t = 1
  slot : slotOf s' c t = startedSlot s c t (slotOf s c t)
  bases : ∀ n, n ∈ ctrsOf s c t → getF s' (rCTR_BASE c n) 0 16 = ctrValue s c n

theorem taskPc_not_mem_startRegs (k u c t : Nat) : rTASK_PC k u ∉ rTASK_STAT c t :: baseRegs c := by
  rw [List.mem_cons, mem_baseRegs]
  rintro (h | ⟨n, hn, h⟩)
  · unfold rTASK_PC rTASK_STAT coreBase at h; omega
  · unfold rTASK_PC rCTR_BASE coreBase at h; omega

theorem Started.slotState_other {c t k u : Nat} (h : Started s s' c t) (ht : t < 4) (hu : u < 4) (hne : (k, u) ≠ (c, t)) : slotState s' k u = slotState s k u := by
  refine h.frame.getF_eq ?_ 0 3
  rw [List.mem_cons, mem_baseRegs]
  rintro (e | ⟨n, hn, e⟩)
  · exact rTASK_STAT_ne hu ht hne e
  · unfold rCTR_BASE rTASK_STAT coreBase at e; omega

theorem Started.slotOf_other {c t k u : Nat} (h : Started s s' c t) (hne : (k, u) ≠ (c, t)) : slotOf s' k u = slotOf s k u := by
  by_cases hk : k = c
  · subst hk
    exact h.slots u fun e => hne (e ▸ rfl)
  · rw [slotOf, h.cores k hk, ← slotOf]

theorem started_slotStart {c t : Nat} (ht : t < 4) (h : slotState s c t = 0 ∨ slotState s c t = 4) : Started s (slotStart s c t) c t := by
  have hpre := frame_readied s c t
  have hctr := frame_ctrStart (readied s c t) c t
  have hcore : ∀ k, coreOf (ctrStart (readied s c t) c t) k = coreOf (readied s c t) k := coreOf_congr (ctrStart_cores _ c t)
  have hslot : ∀ u, slotOf (ctrStart (readied s c t) c t) c u = slotOf (readied s c t) c u := fun u => by rw [slotOf, hcore, ← slotOf]
  have hctrs : ctrsOf (readied s c t) c t = ctrsOf s c t := hpre.ctrsOf_eq (fun n hn e => by
    rw [List.mem_singleton] at e; unfold rCTR_CFG rTASK_STAT at e; omega) t
  rw [slotStart_of_idle h]
  constructor
  case frame => exact slotStart_of_idle h ▸ frame_slotStart s c t
  case cores => exact fun k hk => (hcore k).trans (coreOf_readied_other s t hk)
  case slots => exact fun u hu => (hslot u).trans (slotOf_readied_other s c hu)
  case state =>
    refine (hctr.getF_eq (fun e => ?_) 0 3).trans (slotState_readied s c t)
    obtain ⟨n, -, e⟩ := mem_baseRegs.1 e
    unfold rCTR_BASE rTASK_STAT at e
    omega
  case slot => exact (hslot t).trans (slotOf_readied_same s c t)
  case bases =>
    intro n hn
    rw [base_ctrStart (by rw [hctrs]; exact hn)]
    exact hpre.getF_eq (fun e => by rw [List.mem_singleton] at e; unfold rCTR_VAL rTASK_STAT at e; omega) 0 16

end Sys2Proof.Safety
end

section
/-! SUPPORT. FLOE_CYC set to 0, and START of a floe as a unit (R191, R207). -/

namespace Sys2Proof.Safety

open Sys2Proof.Machine

variable {s s' : State}

/-- The two words of FLOE_CYC. -/
def cycRegs (cl f : Nat) : List Nat := [rFLOE_CYC cl f, rFLOE_CYC cl f + 4]

/-- The registers of a cluster lie below those of the cores. -/
theorem not_mem_cycRegs {cl f off : Nat} (hcl : cl < 32) (hf : f < 32) (ho : 0x200_0000 ≤ off) : off ∉ cycRegs cl f := by
  simp only [cycRegs, List.mem_cons, List.not_mem_nil, or_false, rFLOE_CYC, clusterBase]
  omega

theorem frame_setFloe (l : List Nat) (s : State) (cl f : Nat) (x : FloeSt) : Frame l s (setFloe s cl f x) :=
  ⟨fun _ => rfl, fun _ _ => rfl, rfl, rfl⟩

theorem frame_zeroCyc (s : State) (cl f : Nat) : Frame (cycRegs cl f) s (zeroCyc s cl f) := by
  unfold zeroCyc
  exact (frame_setR64 s (by simp [cycRegs]) (by simp [cycRegs]) 0).trans (frame_setFloe _ _ cl f _)

@[simp] theorem coreOf_zeroCyc (s : State) (cl f k : Nat) : coreOf (zeroCyc s cl f) k = coreOf s k := by
  rw [zeroCyc, coreOf_congr (setFloe_cores _ cl f _), coreOf_congr (setR64_cores s _ 0)]

@[simp] theorem slotOf_zeroCyc (s : State) (cl f k u : Nat) : slotOf (zeroCyc s cl f) k u = slotOf s k u := by
  rw [slotOf, coreOf_zeroCyc, ← slotOf]

theorem slotState_zeroCyc (s : State) {cl f : Nat} (hcl : cl < 32) (hf : f < 32) (k u : Nat) : slotState (zeroCyc s cl f) k u = slotState s k u :=
  (frame_zeroCyc s cl f).getF_eq (not_mem_cycRegs hcl hf (by unfold rTASK_STAT coreBase; omega)) 0 3

theorem getR64_zeroCyc (s : State) (cl f : Nat) : getR64 (zeroCyc s cl f) (rFLOE_CYC cl f) = 0 := by
  rw [zeroCyc, getR64, getR_congr (setFloe_regs _ cl f _), getR_congr (setFloe_regs _ cl f _), ← getR64, getR64_setR64_same s _ 0 (by decide)]

-- the members of a floe -----------------------------------------------------------------------------------------------------------------

theorem mem_floeMembers {cl f : Nat} {m : Nat × Nat} (h : m ∈ floeMembers s cl f) : m.1 / 8 = cl ∧ m.2 < 4 := by
  simp only [floeMembers, floeCores, List.mem_map, List.mem_filter, List.mem_range] at h
  obtain ⟨_, ⟨r, ⟨hr, -⟩, rfl⟩, rfl⟩ := h
  exact ⟨by omega, getF_lt s _ 8 2⟩

theorem nodup_floeMembers (s : State) (cl f : Nat) : (floeMembers s cl f).Nodup :=
  ((List.nodup_range.filter _).map fun _ _ h => by simpa using h).map fun _ _ h => (Prod.mk.inj h).1

-- START of a floe -----------------------------------------------------------------------------------------------------------------------

/-- The members of a floe started one after another, each as START of its slot would. -/
def startMembers (s : State) (ms : List (Nat × Nat)) : State := ms.foldl (fun s m => slotStart s m.1 m.2) s

theorem sameMem_startMembers (s : State) (ms : List (Nat × Nat)) : SameMem s (startMembers s ms) :=
  List.foldlRecOn (motive := SameMem s) ms _ (fun _ => rfl) fun x h m _ a => ((frame_slotStart x m.1 m.2).1 a).trans (h a)

/-- In state x a member still stands as it did in s, EMPTY or HALTED. -/
def StandsIdle (s x : State) (m : Nat × Nat) : Prop :=
  m.2 < 4 ∧ (slotState x m.1 m.2 = 0 ∨ slotState x m.1 m.2 = 4) ∧ getF x (rTASK_PC m.1 m.2) 0 13 = getF s (rTASK_PC m.1 m.2) 0 13

/-- In state x a member is READY at the TASK_PC of s. -/
def ReadyAtPc (s x : State) (m : Nat × Nat) : Prop :=
  m.2 < 4 ∧ slotState x m.1 m.2 = 1 ∧ (slotOf x m.1 m.2).pc = getF s (rTASK_PC m.1 m.2) 0 13

/-- Members that are EMPTY or HALTED are all READY at their TASK_PC afterwards. -/
theorem startMembers_ready {ms : List (Nat × Nat)} (hnd : ms.Nodup) (hms : ∀ m ∈ ms, StandsIdle s s m) {m : Nat × Nat} (hm : m ∈ ms) :
    ReadyAtPc s (startMembers s ms) m := by
  refine foldl_settles (P := StandsIdle s) ?_ ?_ ?_ hnd hms (.inl hm)
  · rintro x a ⟨ha, hi, hpc⟩
    have h := started_slotStart ha hi
    exact ⟨ha, h.state, by rw [h.slot, startedSlot_pc, hpc]⟩
  · rintro x a b ⟨ha, hi, -⟩ hne ⟨hb, hbi, hpc⟩
    have h := started_slotStart ha hi
    refine ⟨hb, ?_, (h.frame.getF_eq (taskPc_not_mem_startRegs _ _ _ _) 0 13).trans hpc⟩
    rwa [h.slotState_other ha hb hne]
  · rintro x a b ⟨ha, hi, -⟩ hne ⟨hb, hbs, hpc⟩
    have h := started_slotStart ha hi
    refine ⟨hb, ?_, ?_⟩
    · rwa [h.slotState_other ha hb hne]
    · rwa [h.slotOf_other hne]

theorem floeStartRun_of_idle {cl f : Nat} (hdef : getB s (rFLOE_DEF cl f) 16 = true) (hne : floeMembers s cl f ≠ [])
    (htsw : ∀ m, m ∈ floeMembers s cl f → tsw s m.1 = tsw s ((floeMembers s cl f).headD (0, 0)).1)
    (hidle : ∀ m, m ∈ floeMembers s cl f → slotState s m.1 m.2 = 0 ∨ slotState s m.1 m.2 = 4) :
    floeStartRun s cl f = zeroCyc (startMembers s (floeMembers s cl f)) cl f := by
  have h1 : ((floeMembers s cl f).all fun m => tsw s m.1 == tsw s ((floeMembers s cl f).headD (0, 0)).1) = true :=
    List.all_eq_true.2 fun m hm => by simp [htsw m hm]
  have h2 : ((floeMembers s cl f).all fun m => slotState s m.1 m.2 == 0 || slotState s m.1 m.2 == 4) = true :=
    List.all_eq_true.2 fun m hm => by simpa using hidle m hm
  unfold floeStartRun
  rw [if_neg (by simp [hdef, hne]), if_neg (by rw [h1]; decide), if_neg (by rw [h2]; decide), startMembers]

/-- Cores that differ in TSW keep a floe from starting (R139). -/
theorem floeStartRun_of_tsw_ne {cl f : Nat} {m : Nat × Nat} (hdef : getB s (rFLOE_DEF cl f) 16 = true) (hm : m ∈ floeMembers s cl f)
    (htsw : tsw s m.1 ≠ tsw s ((floeMembers s cl f).headD (0, 0)).1) : floeStartRun s cl f = setF s (rFLOE_STAT cl f) 4 1 1 := by
  have h1 : ((floeMembers s cl f).all fun m => tsw s m.1 == tsw s ((floeMembers s cl f).headD (0, 0)).1) = false :=
    List.all_eq_false.2 ⟨m, hm, by simpa using htsw⟩
  unfold floeStartRun
  rw [if_neg (by simp [hdef, List.ne_nil_of_mem hm]), if_pos h1]

end Sys2Proof.Safety
end

section
/-! SUPPORT. CLEAR of a task slot and of a floe (R221, R230, R250, R191): what the end of a reservation may grant, and what leaving FAULTED does. -/

namespace Sys2Proof.Safety

open Sys2Proof.Machine

variable {s s' s'' : State}

-- what granting may do ----------------------------------------------------------------------------------------------------------------------

/-- TASK_STAT of the slots of the cores of a core's cluster. -/
def statRegs (c : Nat) : List Nat := (List.range 8).flatMap fun r => (List.range 4).map fun u => rTASK_STAT (8 * (c / 8) + r) u

theorem rTASK_STAT_mem_statRegs {k u c : Nat} (hk : k / 8 = c / 8) (hu : u < 4) : rTASK_STAT k u ∈ statRegs c := by
  simp only [statRegs, List.mem_flatMap, List.mem_map, List.mem_range]
  exact ⟨k % 8, by omega, u, hu, by rw [← hk, Nat.div_add_mod]⟩

theorem rCTR_VAL_not_mem_statRegs (c n : Nat) : rCTR_VAL c n ∉ statRegs c := by
  simp only [statRegs, List.mem_flatMap, List.mem_map, List.mem_range]
  rintro ⟨r, -, u, -, h⟩
  unfold rTASK_STAT rCTR_VAL coreBase at h
  omega

/-- A change that writes registers of a list and the unaddressed state of one core alone. -/
structure OnCore (l : List Nat) (c : Nat) (s s' : State) : Prop where
  frame : Frame l s s'
  cores : OtherCores c s s'

theorem OnCore.refl (l : List Nat) (c : Nat) (s : State) : OnCore l c s s := ⟨Frame.refl l s, fun _ _ => rfl⟩

theorem OnCore.trans {l : List Nat} {c : Nat} (h : OnCore l c s s') (h' : OnCore l c s' s'') : OnCore l c s s'' :=
  ⟨h.frame.trans h'.frame, fun k hk => (h'.cores k hk).trans (h.cores k hk)⟩

theorem OnCore.mono {l l' : List Nat} {c : Nat} (hl : l ⊆ l') (h : OnCore l c s s') : OnCore l' c s s' := ⟨h.frame.mono hl, h.cores⟩

theorem onCore_modCore (l : List Nat) (s : State) (c : Nat) (g : CoreSt → CoreSt) : OnCore l c s (modCore s c g) :=
  ⟨frame_modCore l s c g, fun _ hk => coreOf_modCore_other s g hk⟩

theorem onCore_setF {l : List Nat} (s : State) (c : Nat) {off : Nat} (ho : off ∈ l) (lo w v : Nat) : OnCore l c s (setF s off lo w v) :=
  ⟨frame_setF s ho lo w v, fun k _ => coreOf_setF s off lo w v k⟩

/-- What the end of a slot's reservations may do on its core and in its cluster: BLOCKED slots become READY, and every other slot keeps its state (R138, R217, R232). -/
structure Grants (c : Nat) (s s' : State) : Prop extends OnCore (statRegs c) c s s' where
  states : ∀ k u, u < 4 → slotState s k u ≠ 3 → slotState s' k u = slotState s k u

theorem Grants.refl (c : Nat) (s : State) : Grants c s s := ⟨OnCore.refl _ c s, fun _ _ _ _ => rfl⟩

theorem Grants.trans {c : Nat} (h : Grants c s s') (h' : Grants c s' s'') : Grants c s s'' :=
  ⟨h.toOnCore.trans h'.toOnCore, fun k u hu hne =>
    have e := h.states k u hu hne
    (h'.states k u hu (e ▸ hne)).trans e⟩

theorem grants_modCore (s : State) (c : Nat) (g : CoreSt → CoreSt) : Grants c s (modCore s c g) :=
  ⟨onCore_modCore _ s c g, fun _ _ _ _ => rfl⟩

theorem grants_modSlot (s : State) (c t : Nat) (g : SlotSt → SlotSt) : Grants c s (modSlot s c t g) := by
  unfold modSlot setSlot
  exact grants_modCore s c _

theorem grants_setRing (s : State) (c e : Nat) (r : List RingMsg) : Grants c s (setRing s c e r) := grants_modCore s c _

/-- A BLOCKED slot of the cluster changes its state. -/
theorem grants_setSlotState {c k u : Nat} (hk : k / 8 = c / 8) (hu : u < 4) (h : slotState s k u = 3) (v : Nat) : Grants c s (setSlotState s k u v) := by
  refine ⟨onCore_setF s c (rTASK_STAT_mem_statRegs hk hu) 0 3 v, fun i x hx hne => ?_⟩
  exact slotState_setSlotState_other s v hx hu fun e => hne (by cases e; exact h)

theorem mem_mates {c t m : Nat} (h : m ∈ mates s c t) : m / 8 = c / 8 := by
  unfold mates at h
  split at h
  · simp only [floeCores, List.mem_filter, List.mem_map, List.mem_range] at h
    obtain ⟨⟨r, ⟨hr, -⟩, rfl⟩, -⟩ := h
    omega
  · cases h

theorem grants_readyMates (s : State) (c : Nat) {t : Nat} (ht : t < 4) : Grants c s (readyMates s c t) := by
  refine List.foldlRecOn (motive := Grants c s) _ _ (Grants.refl c s) fun x h m hm => h.trans ?_
  split
  · rename_i hb
    exact grants_setSlotState (mem_mates hm) ht hb.1 1
  · exact Grants.refl c x

/-- A BLOCKED slot that has what it waits for becomes READY with its floe. -/
theorem grants_ready {c t : Nat} (ht : t < 4) (h : slotState s c t = 3) (g : SlotSt → SlotSt) :
    Grants c s (readyMates (modSlot (setSlotState s c t 1) c t g) c t) :=
  ((grants_setSlotState rfl ht h 1).trans (grants_modSlot _ c t g)).trans (grants_readyMates _ c ht)

theorem grants_grantSlot (s : State) (c n : Nat) {t : Nat} (ht : t < 4) : Grants c s (grantSlot s c n t) := by
  unfold grantSlot
  split
  · split
    · rename_i h
      exact grants_ready ht h.2.1 _
    · split
      · exact grants_readyMates s c ht
      · exact Grants.refl c s
  · exact Grants.refl c s

theorem grants_grantAll (s : State) (c n : Nat) : Grants c s (grantAll s c n) :=
  (((grants_grantSlot s c n (by decide)).trans (grants_grantSlot _ c n (by decide))).trans (grants_grantSlot _ c n (by decide))).trans
    (grants_grantSlot _ c n (by decide))

theorem grants_dropResv (s : State) (c t : Nat) : Grants c s (dropResv s c t) := by
  unfold dropResv
  split
  · exact (grants_modSlot s c t _).trans (grants_grantAll _ c _)
  · exact Grants.refl c s

theorem grants_grantMsg (s : State) (c e : Nat) : Grants c s (grantMsg s c e) := by
  refine List.foldlRecOn (motive := Grants c s) _ _ (Grants.refl c s) fun x h t ht => h.trans ?_
  have ht := List.mem_range.1 ht
  dsimp only
  split
  · rename_i hw
    have hs : slotState (setRing x c e (markMsg t (ringOf x c e))) c t = 3 := (getF_congr (modCore_regs x c _) _ 0 3).trans hw.2.1
    exact (grants_setRing x c e _).trans (grants_ready ht hs _)
  · split
    · exact grants_readyMates x c ht
    · exact Grants.refl c x

theorem grants_dropMres (s : State) (c t : Nat) : Grants c s (dropMres s c t) := by
  unfold dropMres
  split
  · rename_i e _
    have h := fun g => (grants_setRing s c e (unmarkMsg t (ringOf s c e))).trans (grants_modSlot _ c t g)
    dsimp only
    split
    · exact (h _).trans (grants_grantMsg _ c e)
    · exact h _
  · exact Grants.refl c s

theorem grants_dropAllResv (s : State) (c t : Nat) : Grants c s (dropAllResv s c t) := (grants_dropResv s c t).trans (grants_dropMres _ c t)

theorem grants_clearStopped (s : State) (c t : Nat) : Grants c s (clearStopped s c t) := by
  refine List.foldlRecOn (motive := Grants c s) _ _ (Grants.refl c s) fun x h d _ => h.trans ?_
  split
  · exact grants_modCore x c _
  · exact Grants.refl c x

/-- No descriptor stays STOPPED for the slot (R250). -/
theorem stopped_clearStopped (s : State) (c t : Nat) {d : Nat} (hd : d < 64) : (descOf (clearStopped s c t) c d).stopped ≠ some t := by
  refine foldl_settles (P := fun _ _ => True) (Q := fun x d => (descOf x c d).stopped ≠ some t) ?_ (fun _ _ _ _ _ _ => trivial) ?_ List.nodup_range
    (fun _ _ => trivial) (.inl (List.mem_range.2 hd))
  · intro x a _
    split
    · simp
    · assumption
  · intro x a b _ hba hb
    split
    · rwa [descOf_setDesc_other x c _ hba]
    · exact hb


-- leaving FAULTED ---------------------------------------------------------------------------------------------------------------------------

/-- The registers of a core that null replies write: the references of its ends, and NOREPLY. -/
def replyRegs (c : Nat) : List Nat := (List.range 16).flatMap fun e => [rICH_REPLY c e, rICH_REPLY c e + 4, rICH_CNT2 c e]

/-- The registers of a core's counters that a generation change writes. -/
def ctrRegs (c : Nat) : List Nat := (List.range 48).flatMap fun n => [rCTR_VAL c n, rCTR_BASE c n, rCTR_STAT c n]

theorem rCTR_VAL_not_mem_replyRegs (c : Nat) {n : Nat} (_hn : n < 48) : rCTR_VAL c n ∉ replyRegs c := by
  simp only [replyRegs, List.mem_flatMap, List.mem_range, List.mem_cons, List.not_mem_nil, or_false, rICH_REPLY, rICH_CNT2, rCTR_VAL]
  omega

theorem onCore_nullReply (s : State) (c : Nat) {e : Nat} (he : e < 16) (count : Bool) : OnCore (replyRegs c) c s (nullReply s c e count) := by
  have hmem : ∀ off ∈ [rICH_REPLY c e, rICH_REPLY c e + 4, rICH_CNT2 c e], off ∈ replyRegs c :=
    fun off h => List.mem_flatMap.2 ⟨e, List.mem_range.2 he, h⟩
  have hclear : OnCore (replyRegs c) c s (setR64 s (rICH_REPLY c e) 0) :=
    ⟨frame_setR64 s (hmem _ (by simp)) (hmem _ (by simp)) 0, fun k _ => coreOf_congr (setR64_cores s _ 0) k⟩
  unfold nullReply
  dsimp only
  split
  · exact OnCore.refl _ c s
  · split
    · exact (hclear.trans (onCore_modCore _ _ c _)).trans (onCore_setF _ c (hmem _ (by simp)) 16 16 _)
    · exact hclear.trans (onCore_modCore _ _ c _)

theorem onCore_nullRepliesOf (s : State) (c t : Nat) : OnCore (replyRegs c) c s (nullRepliesOf s c t) := by
  refine List.foldlRecOn (motive := OnCore (replyRegs c) c s) _ _ (OnCore.refl _ c s) fun x h e he => h.trans ?_
  split
  · exact onCore_nullReply x c (List.mem_range.1 he) true
  · exact OnCore.refl _ c x

theorem onCore_ctrAdvance (s : State) (c : Nat) {n : Nat} (hn : n < 48) : OnCore (ctrRegs c) c s (ctrAdvance s c n) := by
  have hmem : ∀ off ∈ [rCTR_VAL c n, rCTR_BASE c n, rCTR_STAT c n], off ∈ ctrRegs c := fun off h => List.mem_flatMap.2 ⟨n, List.mem_range.2 hn, h⟩
  have hval : ∀ v, OnCore (ctrRegs c) c s (setR s (rCTR_VAL c n) v) := fun v =>
    ⟨frame_setR s (hmem _ (by simp)) v, fun k _ => coreOf_congr (setR_cores s _ v) k⟩
  exact ((hval _).trans (onCore_setF _ c (hmem _ (by simp)) 0 16 0)).trans (onCore_setF _ c (hmem _ (by simp)) 1 1 0)

/-- CTR_VAL of a counter in its next generation (R221). -/
def nextGen (s : State) (c n : Nat) : BitVec 32 := BitVec.ofNat 32 (65536 * ((ctrGen s c n + 1) % 16))

theorem ctrVal_ctrAdvance (s : State) (c n m : Nat) :
    getR (ctrAdvance s c n) (rCTR_VAL c m) = if m = n then nextGen s c n else getR s (rCTR_VAL c m) := by
  rw [ctrAdvance, getR_setF_other _ _ _ _ (by unfold rCTR_VAL rCTR_STAT; omega), getR_setF_other _ _ _ _ (by unfold rCTR_VAL rCTR_BASE; omega)]
  by_cases h : m = n
  · rw [if_pos h, h, getR_setR_same, nextGen]
  · rw [if_neg h, getR_setR_other _ _ (by unfold rCTR_VAL; omega)]

/-- What a slot leaves behind as it leaves FAULTED: its counters in their next generation, and its references answered (R221, R230). -/
def unfault (s : State) (c t : Nat) : State := nullRepliesOf ((ctrsOf s c t).foldl (fun s n => ctrAdvance s c n) s) c t

theorem onCore_unfault (s : State) (c t : Nat) : OnCore (ctrRegs c ++ replyRegs c) c s (unfault s c t) :=
  have h : OnCore (ctrRegs c) c s ((ctrsOf s c t).foldl (fun s n => ctrAdvance s c n) s) :=
    List.foldlRecOn (motive := OnCore (ctrRegs c) c s) _ _ (OnCore.refl _ c s) fun x h _ hn => h.trans (onCore_ctrAdvance x c (mem_ctrsOf_lt hn))
  (h.mono (List.subset_append_left _ _)).trans ((onCore_nullRepliesOf _ c t).mono (List.subset_append_right _ _))

theorem ctrVal_unfault {c t n : Nat} (hn : n ∈ ctrsOf s c t) : getR (unfault s c t) (rCTR_VAL c n) = nextGen s c n := by
  rw [unfault, (onCore_nullRepliesOf _ c t).frame.getR_eq (rCTR_VAL_not_mem_replyRegs c (mem_ctrsOf_lt hn))]
  refine foldl_settles (P := fun x n => getR x (rCTR_VAL c n) = getR s (rCTR_VAL c n)) (Q := fun x n => getR x (rCTR_VAL c n) = nextGen s c n)
    ?_ ?_ ?_ (List.nodup_range.filter _) (fun _ _ => rfl) (.inl hn)
  · intro x a h
    rw [ctrVal_ctrAdvance, if_pos rfl, nextGen, nextGen, ctrGen, ctrGen, getF, getF, h]
  · intro x a b _ hba h
    rw [ctrVal_ctrAdvance, if_neg hba, h]
  · intro x a b _ hba h
    rw [ctrVal_ctrAdvance, if_neg hba, h]

/-- A counter whose CTR_VAL is a next generation holds 0 in it. -/
theorem ctr_of_nextGen {c n : Nat} (h : getR s' (rCTR_VAL c n) = nextGen s c n) : ctrGen s' c n = (ctrGen s c n + 1) % 16 ∧ ctrValue s' c n = 0 := by
  have hlt : 65536 * ((ctrGen s c n + 1) % 16) < 2 ^ 32 := by omega
  have hword : (nextGen s c n).toNat = 65536 * ((ctrGen s c n + 1) % 16) := Nat.mod_eq_of_lt hlt
  constructor
  · rw [ctrGen, getF, h, hword, bits_eq_div_mod]
    omega
  · rw [ctrValue, getF, h, hword, bits_eq_div_mod]
    omega

-- CLEAR of a slot ---------------------------------------------------------------------------------------------------------------------------

/-- A slot made EMPTY: its reservations end, and the descriptors it stopped are IDLE again (R218, R232, R250). -/
def emptySlot (s : State) (c t : Nat) : State :=
  setSlotState (modSlot (clearStopped (dropAllResv s c t) c t) c t fun x => { x with fences := [], wait := none }) c t 0

theorem slotClear_of_halted {c t : Nat} (h : slotState s c t = 4) : slotClear s c t = emptySlot s c t := by
  unfold slotClear
  rw [if_pos (.inl h), if_neg (by rw [h]; decide)]
  rfl

theorem slotClear_of_released {c t : Nat} (h : slotState s c t = 5) (hrel : (slotOf s c t).unrel = false) : slotClear s c t = emptySlot (unfault s c t) c t := by
  unfold slotClear
  rw [if_pos (.inr ⟨h, hrel⟩), if_pos h]
  rfl

theorem slotClear_of_not {c t : Nat} (h4 : slotState s c t ≠ 4) (h5 : slotState s c t = 5 → (slotOf s c t).unrel = true) : slotClear s c t = s :=
  if_neg fun h => h.elim h4 fun ⟨h, hrel⟩ => Bool.noConfusion (hrel.symm.trans (h5 h))

/-- What an EMPTY slot leaves. -/
structure Emptied (c t : Nat) (s s' : State) : Prop extends OnCore (statRegs c) c s s' where
  state : slotState s' c t = 0
  fences : (slotOf s' c t).fences = []
  stopped : ∀ d, d < 64 → (descOf s' c d).stopped ≠ some t
  states : ∀ k u, u < 4 → (k, u) ≠ (c, t) → slotState s k u ≠ 3 → slotState s' k u = slotState s k u

theorem emptied_emptySlot (s : State) (c : Nat) {t : Nat} (ht : t < 4) : Emptied c t s (emptySlot s c t) := by
  have hg := ((grants_dropAllResv s c t).trans (grants_clearStopped _ c t)).trans (grants_modSlot _ c t fun x => { x with fences := [], wait := none })
  have hc := setF_cores (modSlot (clearStopped (dropAllResv s c t) c t) c t fun x => { x with fences := [], wait := none }) (rTASK_STAT c t) 0 3 0
  constructor
  case toOnCore => exact hg.toOnCore.trans (onCore_setF _ c (rTASK_STAT_mem_statRegs rfl ht) 0 3 0)
  case state => exact slotState_setSlotState_same _ c t 0
  case fences => rw [emptySlot, setSlotState, slotOf_congr hc, slotOf_modSlot_same]
  case stopped =>
    intro d hd
    have hdesc : descOf (emptySlot s c t) c d = descOf (clearStopped (dropAllResv s c t) c t) c d := by
      rw [emptySlot, setSlotState, descOf, coreOf_congr hc, modSlot, setSlot, coreOf_modCore_same, ← descOf]
    rw [hdesc]
    exact stopped_clearStopped _ c t hd
  case states =>
    intro k u hu hne h3
    rw [emptySlot, slotState_setSlotState_other _ 0 hu ht hne]
    exact hg.states k u hu h3

-- CLEAR of a floe ---------------------------------------------------------------------------------------------------------------------------

theorem sameMem_slotClear (s : State) (c : Nat) {t : Nat} (ht : t < 4) : SameMem s (slotClear s c t) := by
  by_cases h4 : slotState s c t = 4
  · rw [slotClear_of_halted h4]
    exact (emptied_emptySlot s c ht).frame.1
  · by_cases h5 : slotState s c t = 5 ∧ (slotOf s c t).unrel = false
    · rw [slotClear_of_released h5.1 h5.2]
      exact fun a => ((emptied_emptySlot _ c ht).frame.1 a).trans ((onCore_unfault s c t).frame.1 a)
    · rw [slotClear_of_not h4 fun h => by simpa [h] using h5]
      exact fun _ => rfl

/-- The members of a floe cleared one after another, each as CLEAR of its slot would. -/
def clearMembers (s : State) (ms : List (Nat × Nat)) : State := ms.foldl (fun s m => slotClear s m.1 m.2) s

theorem sameMem_clearMembers (s : State) {ms : List (Nat × Nat)} (hslot : ∀ m ∈ ms, m.2 < 4) : SameMem s (clearMembers s ms) :=
  List.foldlRecOn (motive := SameMem s) ms _ (fun _ => rfl) fun x h m hm a => (sameMem_slotClear x m.1 (hslot m hm) a).trans (h a)

/-- A member of a floe is in a state of Table 05-7. -/
def MemberIn (v : Nat) (s : State) (m : Nat × Nat) : Prop := m.2 < 4 ∧ slotState s m.1 m.2 = v

/-- The end of a member's reservations readies BLOCKED slots alone: members in another state keep it. -/
theorem memberIn_slotClear_other {v : Nat} (hv : v ≠ 3) {a b : Nat × Nat} (ha : MemberIn 4 s a) (hne : b ≠ a) (hb : MemberIn v s b) :
    MemberIn v (slotClear s a.1 a.2) b := by
  obtain ⟨hb, hbv⟩ := hb
  refine ⟨hb, ?_⟩
  rw [slotClear_of_halted ha.2, (emptied_emptySlot s a.1 ha.1).states b.1 b.2 hb hne (hbv ▸ hv), hbv]

/-- Members that are HALTED are all EMPTY afterwards (R191). -/
theorem clearMembers_empty {ms : List (Nat × Nat)} (hnd : ms.Nodup) (hms : ∀ m ∈ ms, MemberIn 4 s m) {m : Nat × Nat} (hm : m ∈ ms) :
    MemberIn 0 (clearMembers s ms) m := by
  refine foldl_settles (P := MemberIn 4) ?_ ?_ ?_ hnd hms (.inl hm)
  · rintro x a ⟨ha, h⟩
    rw [slotClear_of_halted h]
    exact ⟨ha, (emptied_emptySlot x a.1 ha).state⟩
  · exact fun x a b ha hne hb => memberIn_slotClear_other (by decide) ha hne hb
  · exact fun x a b ha hne hb => memberIn_slotClear_other (by decide) ha hne hb

end Sys2Proof.Safety
end

section
/-! SUPPORT. Writes of FLOE_CTL, FLOE_DEF and CORE_CTL (R139, R190, R205): the bits they read and write. -/

namespace Sys2Proof

/-- A field written as it stands. -/
theorem setBits_bits (x lo w : Nat) : setBits x lo w (bits x lo w) = x := by
  apply Nat.eq_of_testBit_eq
  intro i
  rw [testBit_setBits, testBit_bits]
  split
  · rfl
  · split
    · rename_i h1 h2
      have hw : i - lo < w := by omega
      simp [hw, Nat.add_sub_cancel' (not_lt.1 h1)]
    · rfl

/-- A bit that is set. -/
theorem setBits_one (x k : Nat) : setBits x k 1 1 = x ||| 2 ^ k := by
  apply Nat.eq_of_testBit_eq
  intro i
  rw [testBit_setBits, Nat.testBit_or, Nat.testBit_two_pow]
  by_cases h : k = i
  · simp [h]
  · have h1 : ¬ (¬ i < k ∧ i < k + 1) := by omega
    split
    · simp [h]
    · rw [if_neg (by omega)]
      simp [h]

theorem bits_one_cases (x k : Nat) : bits x k 1 = 0 ∨ bits x k 1 = 1 := by
  have := bits_lt x k 1
  omega

end Sys2Proof

namespace Sys2Proof.Safety

open Sys2Proof.Machine

variable {s s' : State}

theorem getB_eq_beq (s : State) (off b : Nat) : getB s off b = (getF s off b 1 == 1) := rfl

/-- A bit reads what was written to it, and the others stand. -/
theorem getB_setF_same (s : State) (off : Nat) {b : Nat} (hb : b < 32) (v : Nat) : getB (setF s off b 1 v) off b = (v % 2 == 1) := by
  rw [getB_eq_beq, getF_setF_same s off b 1 v hb, pow_one]

theorem getB_setF_other (s : State) (off : Nat) {b d : Nat} (hd : d < 32) (h : b ≠ d) (v : Nat) : getB (setF s off d 1 v) off b = getB s off b := by
  rw [getB, getB, getF_setF_otherField s off d 1 v b 1 hd (by omega)]

theorem getR_setF_getF (s : State) (off lo w off' : Nat) : getR (setF s off lo w (getF s off lo w)) off' = getR s off' := by
  rw [setF, getF, setBits_bits, getR_setR, BitVec.ofNat_toNat, BitVec.setWidth_eq]
  split
  · rename_i h
    rw [h]
  · rfl

-- FLOE_CTL ------------------------------------------------------------------------------------------------------------------------------

/-- HOLD written as it stands, in a debug session (R205). -/
def keepHold (s : State) (cl f : Nat) (debug : Bool) : State := if debug then floeHoldRun s cl f (getF s (rFLOE_CTL cl f) 2 1 == 1) else s

theorem floeHoldRun_getF (s : State) (cl f : Nat) :
    floeHoldRun s cl f (getF s (rFLOE_CTL cl f) 2 1 == 1) = setF s (rFLOE_CTL cl f) 2 1 (getF s (rFLOE_CTL cl f) 2 1) := by
  have h := bits_one_cases (getR s (rFLOE_CTL cl f)).toNat 2
  rw [← getF] at h
  rcases h with h | h <;> simp [floeHoldRun, h]

theorem frame_keepHold (s : State) (cl f : Nat) (debug : Bool) : Frame [] s (keepHold s cl f debug) := by
  unfold keepHold
  split
  · rw [floeHoldRun_getF]
    obtain ⟨hmem, -, hrest⟩ := frame_setF s (List.mem_singleton_self (rFLOE_CTL cl f)) 2 1 (getF s (rFLOE_CTL cl f) 2 1)
    exact ⟨hmem, fun off _ => getR_setF_getF s _ 2 1 off, hrest⟩
  · exact Frame.refl _ s

theorem coreOf_keepHold (s : State) (cl f : Nat) (debug : Bool) (k : Nat) : coreOf (keepHold s cl f debug) k = coreOf s k := by
  unfold keepHold
  split
  · exact coreOf_setF s _ 2 1 _ k
  · rfl

/-- The bits of a command of FLOE_CTL beside HOLD. -/
theorem bits_floeCtl {a h : Nat} (ha : a < 4) (hh : h < 2) : bits (a + 4 * h) 0 1 = bits a 0 1 ∧ bits (a + 4 * h) 1 1 = bits a 1 1 ∧ bits (a + 4 * h) 2 1 = h := by
  simp only [bits_eq_div_mod]
  omega

theorem floeCtl_start (s : State) (cl f : Nat) (debug : Bool) :
    floeCtl s cl f (1 + 4 * getF s (rFLOE_CTL cl f) 2 1) debug = floeStartRun (keepHold s cl f debug) cl f := by
  obtain ⟨h0, h1, h2⟩ := bits_floeCtl (a := 1) (by decide) (getF_lt s (rFLOE_CTL cl f) 2 1)
  rw [floeCtl, h0, h1, h2, if_pos (by decide), if_neg (by decide), keepHold]

theorem floeCtl_clear (s : State) (cl f : Nat) (debug : Bool) :
    floeCtl s cl f (2 + 4 * getF s (rFLOE_CTL cl f) 2 1) debug = floeClearRun (keepHold s cl f debug) cl f := by
  obtain ⟨h0, h1, h2⟩ := bits_floeCtl (a := 2) (by decide) (getF_lt s (rFLOE_CTL cl f) 2 1)
  rw [floeCtl, h0, h1, h2, if_neg (by decide), if_pos (by decide), keepHold]

theorem floeCtl_hold (s : State) (cl f : Nat) (on debug : Bool) :
    floeCtl s cl f (if on then 4 else 0) debug = if debug then floeHoldRun s cl f on else s := by
  cases on <;> rfl

-- FLOE_DEF ------------------------------------------------------------------------------------------------------------------------------

/-- A definition that concerns a slot in use, or a slot that another valid definition names, changes nothing but CFGERR (R190). -/
def DefRefused (s : State) (cl f v : Nat) : Prop :=
  (∃ m, m ∈ defSlots cl v ++ defSlots cl (getR s (rFLOE_DEF cl f)).toNat ∧ slotState s m.1 m.2 ≠ 0) ∨
    (bits v 16 1 = 1 ∧ ∃ m, m ∈ defSlots cl v ∧ namedElsewhere s cl f m.1 m.2 = true)

theorem defRefused_iff {cl f v : Nat} :
    (((defSlots cl v ++ defSlots cl (getR s (rFLOE_DEF cl f)).toNat).any fun m => slotState s m.1 m.2 != 0) ||
      (bits v 16 1 == 1 && (defSlots cl v).any fun m => namedElsewhere s cl f m.1 m.2)) = true ↔ DefRefused s cl f v := by
  simp only [Bool.or_eq_true, Bool.and_eq_true, List.any_eq_true, bne_iff_ne, beq_iff_eq, DefRefused]

theorem floeDef_refused {cl f v : Nat} (h : DefRefused s cl f v) : floeDef s cl f v = setF s (rFLOE_STAT cl f) 4 1 1 := if_pos (defRefused_iff.2 h)

theorem floeDef_accepted {cl f v : Nat} (h : ¬ DefRefused s cl f v) : floeDef s cl f v = setR s (rFLOE_DEF cl f) (BitVec.ofNat 32 v &&& 0x3_03FF) :=
  if_neg (mt defRefused_iff.1 h)

theorem getR_setF_cfgErr (s : State) (off : Nat) : getR (setF s off 4 1 1) off = getR s off ||| 16 := by
  rw [setF, setBits_one, getR_setR_same, BitVec.ofNat_or, BitVec.ofNat_toNat, BitVec.setWidth_eq]
  rfl

-- CORE_CTL ------------------------------------------------------------------------------------------------------------------------------

/-- CFGERR of CORE_CTL cleared by a write of 1. -/
def ackCfgErr (s : State) (c v : Nat) : State := if bits v 1 1 = 1 then setF s (rCORE_CTL c) 1 1 0 else s

theorem frame_ackCfgErr (s : State) (c v : Nat) : Frame [rCORE_CTL c] s (ackCfgErr s c v) := by
  unfold ackCfgErr
  split
  · exact frame_setF s (List.mem_singleton.2 rfl) _ _ _
  · exact Frame.refl _ s

theorem tsw_ackCfgErr (s : State) (c v : Nat) : getB (ackCfgErr s c v) (rCORE_CTL c) 0 = tsw s c := by
  unfold ackCfgErr
  split
  · exact getB_setF_other s _ (by decide) (by decide) 0
  · rfl

theorem cfgErr_ackCfgErr (s : State) (c v : Nat) : getB (ackCfgErr s c v) (rCORE_CTL c) 1 = (getB s (rCORE_CTL c) 1 && bits v 1 1 == 0) := by
  rcases bits_one_cases v 1 with h | h
  · simp [ackCfgErr, h]
  · simp [ackCfgErr, h, getB_setF_same s (rCORE_CTL c) (b := 1) (by decide)]

/-- What a write of CORE_CTL does (R139), where TSW is written with the value it has, while a slot is live, and while none is. -/
theorem coreCtl_cases (s : State) (c v : Nat) :
    ((bits v 0 1 == 1) = tsw s c ∧ coreCtl s c v = ackCfgErr s c v) ∨
    ((bits v 0 1 == 1) ≠ tsw s c ∧ (List.range 4).any (fun t => slotLive s c t) = true ∧ coreCtl s c v = setF (ackCfgErr s c v) (rCORE_CTL c) 1 1 1) ∨
    ((bits v 0 1 == 1) ≠ tsw s c ∧ (List.range 4).any (fun t => slotLive s c t) = false ∧ coreCtl s c v = setF (ackCfgErr s c v) (rCORE_CTL c) 0 1 (bits v 0 1)) := by
  have hsame : (bits v 0 1 == 1) = tsw s c ↔ bits v 0 1 = getF s (rCORE_CTL c) 0 1 := by
    rw [tsw, getB_eq_beq]
    rcases bits_one_cases v 0 with h | h <;> rcases bits_one_cases (getR s (rCORE_CTL c)).toNat 0 with h' | h' <;> simp [getF, h, h']
  by_cases h : bits v 0 1 = getF s (rCORE_CTL c) 0 1
  · exact .inl ⟨hsame.2 h, if_pos h⟩
  · refine .inr ?_
    cases hl : (List.range 4).any fun t => slotLive s c t
    · exact .inr ⟨mt hsame.1 h, rfl, (if_neg h).trans (if_neg (by rw [hl]; decide))⟩
    · exact .inl ⟨mt hsame.1 h, rfl, (if_neg h).trans (if_pos hl)⟩

theorem frame_coreCtl (s : State) (c v : Nat) : Frame [rCORE_CTL c] s (coreCtl s c v) := by
  have h := frame_ackCfgErr s c v
  have hset := fun lo v' => h.trans (frame_setF (ackCfgErr s c v) (List.mem_singleton.2 rfl) lo 1 v')
  rcases coreCtl_cases s c v with ⟨-, e⟩ | ⟨-, -, e⟩ | ⟨-, -, e⟩
  · exact e ▸ h
  · exact e ▸ hset _ _
  · exact e ▸ hset _ _

/-- TSW changes only where no slot is live (R139). -/
theorem tsw_coreCtl (s : State) (c v : Nat) :
    tsw (coreCtl s c v) c = if (List.range 4).any (fun t => slotLive s c t) then tsw s c else bits v 0 1 == 1 := by
  rcases coreCtl_cases s c v with ⟨h, e⟩ | ⟨-, hl, e⟩ | ⟨-, hl, e⟩
  · rw [e, tsw, tsw_ackCfgErr, h, ite_self]
  · rw [e, hl, if_pos rfl, tsw, getB_setF_other _ _ (by decide) (by decide), tsw_ackCfgErr]
  · rw [e, hl, if_neg (by decide), tsw, getB_setF_same _ _ (by decide), Nat.mod_eq_of_lt (show bits v 0 1 < 2 from bits_lt v 0 1)]

/-- CFGERR is set by a change of TSW that is refused (R139). -/
theorem cfgErr_coreCtl (s : State) (c v : Nat) :
    getB (coreCtl s c v) (rCORE_CTL c) 1 =
      (((List.range 4).any (fun t => slotLive s c t) && (bits v 0 1 == 1) != tsw s c) || (getB s (rCORE_CTL c) 1 && bits v 1 1 == 0)) := by
  rcases coreCtl_cases s c v with ⟨h, e⟩ | ⟨h, hl, e⟩ | ⟨-, hl, e⟩
  · rw [e, cfgErr_ackCfgErr, h, bne_self_eq_false, Bool.and_false, Bool.false_or]
  · rw [e, getB_setF_same _ _ (by decide), hl, bne_iff_ne.2 h]
    rfl
  · rw [e, getB_setF_other _ _ (by decide) (by decide), cfgErr_ackCfgErr, hl, Bool.false_and, Bool.false_or]

end Sys2Proof.Safety
end

section
/-! PROOF. Tasks and floes start and clear (O56): the commands are served writes of TASK_CTL, FLOE_CTL, FLOE_DEF and CORE_CTL, and each write's effect. -/

namespace Sys2Proof.Safety

open Sys2Proof.Machine

variable {s : State} {src : Src}

-- TASK_CTL --------------------------------------------------------------------------------------------------------------------------------

theorem exec_taskStart {c : CoreId} {t : SlotId} (h : Served s src (rTASK_CTL c t)) : exec (.taskStart src c t) s = .next (taskCtl s c t 1) :=
  congrArg _ (regTop_taskCtl c t h (by decide))

theorem exec_taskClear {c : CoreId} {t : SlotId} (h : Served s src (rTASK_CTL c t)) : exec (.taskClear src c t) s = .next (slotClear s c t) := by
  refine congrArg _ ((regTop_taskCtl c t h (by decide)).trans ?_)
  rw [taskCtl, if_pos (by decide : bits 2 1 1 = 1), if_neg fun e => absurd e.1 (by decide)]

/-- START acts on a slot whose floe is one core (R191). -/
theorem taskCtl_start {c t f : Nat} (hf : floeFor s c t = some f) (hone : (floeCores s (c / 8) f).length = 1) (h : slotState s c t = 0 ∨ slotState s c t = 4) :
    taskCtl s c t 1 = zeroCyc (slotStart s c t) (c / 8) f := by
  have hs : startable s c t = true := by simp [startable, hf, hone]
  rw [taskCtl, if_neg (by decide : ¬ bits 1 1 1 = 1), if_pos ⟨by decide, hs⟩, hf]
  exact if_pos h

theorem taskCtl_start_joint {c t f : Nat} (hf : floeFor s c t = some f) (hone : (floeCores s (c / 8) f).length ≠ 1) : taskCtl s c t 1 = s := by
  have hs : startable s c t = false := by simp [startable, hf, hone]
  rw [taskCtl, if_neg (by decide : ¬ bits 1 1 1 = 1), if_neg (by simp [hs])]

/-- CLEAR of a HALTED or released slot empties the slot, and the counters of a released one are in their next generation (R221). -/
theorem slotClear_empties {c t : Nat} (ht : t < 4) (h : slotState s c t = 4 ∨ (slotState s c t = 5 ∧ (slotOf s c t).unrel = false)) :
    ∃ x, OnCore (ctrRegs c ++ replyRegs c) c s x ∧ Emptied c t x (slotClear s c t) ∧
      (slotState s c t = 5 → ∀ n, n ∈ ctrsOf s c t → getR (slotClear s c t) (rCTR_VAL c n) = nextGen s c n) := by
  rcases h with h | ⟨h, hrel⟩
  · exact ⟨s, OnCore.refl _ c s, slotClear_of_halted h ▸ emptied_emptySlot s c ht, fun h5 => by omega⟩
  · have he := emptied_emptySlot (unfault s c t) c ht
    rw [slotClear_of_released h hrel]
    exact ⟨_, onCore_unfault s c t, he, fun _ n hn => (he.frame.getR_eq (rCTR_VAL_not_mem_statRegs c n)).trans (ctrVal_unfault hn)⟩

-- FLOE_CTL --------------------------------------------------------------------------------------------------------------------------------

/-- The state in which a command of FLOE_CTL acts: the source has written HOLD as it stands. -/
def floeView (s : State) (src : Src) (cl f : Nat) : State := keepHold s cl f (mayDebug s src)

theorem exec_floeStart {cl : ClusterId} {f : FloeId} (h : Served s src (rFLOE_CTL cl f)) :
    exec (.floeStart src cl f) s = .next (floeStartRun (floeView s src cl f) cl f) := by
  have := getF_lt s (rFLOE_CTL cl f) 2 1
  exact congrArg _ ((regTop_floeCtl cl f h (by omega)).trans (floeCtl_start s cl f _))

theorem exec_floeClear {cl : ClusterId} {f : FloeId} (h : Served s src (rFLOE_CTL cl f)) :
    exec (.floeClear src cl f) s = .next (floeClearRun (floeView s src cl f) cl f) := by
  have := getF_lt s (rFLOE_CTL cl f) 2 1
  exact congrArg _ ((regTop_floeCtl cl f h (by omega)).trans (floeCtl_clear s cl f _))

theorem exec_floeHold {cl : ClusterId} {f : FloeId} (h : Served s src (rFLOE_CTL cl f)) (on : Bool) :
    exec (.floeHold src cl f on) s = .next (if mayDebug s src then floeHoldRun s cl f on else s) :=
  congrArg _ ((regTop_floeCtl cl f h (by cases on <;> decide)).trans (floeCtl_hold s cl f on _))

theorem getF_floeView (s : State) (src : Src) (cl f off lo w : Nat) : getF (floeView s src cl f) off lo w = getF s off lo w :=
  (frame_keepHold s cl f _).getF_eq List.not_mem_nil lo w

theorem floeMembers_floeView (s : State) (src : Src) (cl f : Nat) : floeMembers (floeView s src cl f) cl f = floeMembers s cl f :=
  (frame_keepHold s cl f _).floeMembers_eq List.not_mem_nil

theorem slotState_floeView (s : State) (src : Src) (cl f k u : Nat) : slotState (floeView s src cl f) k u = slotState s k u := getF_floeView s src cl f _ 0 3

theorem getB_floeView (s : State) (src : Src) (cl f off b : Nat) : getB (floeView s src cl f) off b = getB s off b := by
  rw [getB, getB, getF_floeView]

theorem sameMem_floeView (s : State) (src : Src) (cl f : Nat) : SameMem s (floeView s src cl f) := (frame_keepHold s cl f _).1

/-- A floe starts as a unit (R191). -/
theorem floeStart_starts {cl : ClusterId} {f : FloeId} (h : Served s src (rFLOE_CTL cl f)) (hdef : getB s (rFLOE_DEF cl f) 16 = true) (hne : floeMembers s cl f ≠ [])
    (hidle : ∀ m, m ∈ floeMembers s cl f → slotState s m.1 m.2 = 0 ∨ slotState s m.1 m.2 = 4)
    (htsw : ∀ m, m ∈ floeMembers s cl f → tsw s m.1 = tsw s ((floeMembers s cl f).headD (0, 0)).1) :
    ∃ s', exec (.floeStart src cl f) s = .next s' ∧ SameMem s s' ∧ getR64 s' (rFLOE_CYC cl f) = 0 ∧
      ∀ m, m ∈ floeMembers s cl f → slotState s' m.1 m.2 = 1 ∧ (slotOf s' m.1 m.2).pc = getF s (rTASK_PC m.1 m.2) 0 13 := by
  have hms := floeMembers_floeView s src cl f
  have htsw' : ∀ k, tsw (floeView s src cl f) k = tsw s k := fun k => getB_floeView s src cl f _ 0
  have hrun := floeStartRun_of_idle (s := floeView s src cl f) (cl := cl) (f := f) (by rw [getB_floeView, hdef]) (by rw [hms]; exact hne)
    (by rw [hms]; simpa only [htsw'] using htsw) (by rw [hms]; simpa only [slotState_floeView] using hidle)
  rw [hms] at hrun
  refine ⟨_, exec_floeStart h, ?_, ?_, fun m hm => ?_⟩
  · rw [hrun]
    exact fun a => ((frame_zeroCyc _ cl f).1 a).trans ((sameMem_startMembers _ _ a).trans (sameMem_floeView s src cl f a))
  · rw [hrun, getR64_zeroCyc]
  · obtain ⟨-, hstate, hpc⟩ := startMembers_ready (s := floeView s src cl f) (nodup_floeMembers s cl f)
      (fun m hm => ⟨(mem_floeMembers hm).2, (slotState_floeView s src cl f m.1 m.2).symm ▸ hidle m hm, rfl⟩) hm
    rw [hrun, slotState_zeroCyc _ cl.isLt f.isLt, slotOf_zeroCyc, hstate, hpc, getF_floeView]
    exact ⟨rfl, rfl⟩

/-- Cores that differ in TSW keep their floe from starting (R139). -/
theorem floeStart_refused {cl : ClusterId} {f : FloeId} (h : Served s src (rFLOE_CTL cl f)) (hdef : getB s (rFLOE_DEF cl f) 16 = true) {m : Nat × Nat}
    (hm : m ∈ floeMembers s cl f) (htsw : tsw s m.1 ≠ tsw s ((floeMembers s cl f).headD (0, 0)).1) :
    ∃ s', exec (.floeStart src cl f) s = .next s' ∧ SameMem s s' ∧ getB s' (rFLOE_STAT cl f) 4 = true ∧ ∀ k, coreOf s' k = coreOf s k := by
  have hms := floeMembers_floeView s src cl f
  have htsw' : ∀ k, tsw (floeView s src cl f) k = tsw s k := fun k => getB_floeView s src cl f _ 0
  have hrun := floeStartRun_of_tsw_ne (s := floeView s src cl f) (cl := cl) (f := f) (m := m) (by rw [getB_floeView, hdef]) (by rw [hms]; exact hm)
    (by rw [hms, htsw', htsw']; exact htsw)
  refine ⟨_, (exec_floeStart h).trans (congrArg _ hrun), ?_, ?_, fun k => ?_⟩
  · exact fun a => (rdByte_congr (setF_mem _ _ _ _ _) a).trans (sameMem_floeView s src cl f a)
  · exact getB_setF_same _ _ (by decide) 1
  · exact (coreOf_setF _ _ _ _ _ k).trans (coreOf_keepHold s cl f _ k)

/-- A floe clears as a unit (R191). -/
theorem floeClear_clears {cl : ClusterId} {f : FloeId} (h : Served s src (rFLOE_CTL cl f)) (hdef : getB s (rFLOE_DEF cl f) 16 = true)
    (hhalted : ∀ m, m ∈ floeMembers s cl f → slotState s m.1 m.2 = 4) :
    ∃ s', exec (.floeClear src cl f) s = .next s' ∧ SameMem s s' ∧ ∀ m, m ∈ floeMembers s cl f → slotState s' m.1 m.2 = 0 := by
  have hrun : floeClearRun (floeView s src cl f) cl f = clearMembers (floeView s src cl f) (floeMembers s cl f) := by
    rw [floeClearRun, getB_floeView, if_pos hdef, floeMembers_floeView, clearMembers]
  refine ⟨_, (exec_floeClear h).trans (congrArg _ hrun), ?_, fun m hm => ?_⟩
  · exact fun a => (sameMem_clearMembers _ (fun m hm => (mem_floeMembers hm).2) a).trans (sameMem_floeView s src cl f a)
  · exact (clearMembers_empty (nodup_floeMembers s cl f)
      (fun m hm => ⟨(mem_floeMembers hm).2, (slotState_floeView s src cl f m.1 m.2).trans (hhalted m hm)⟩) hm).2

-- FLOE_DEF and CORE_CTL --------------------------------------------------------------------------------------------------------------------

theorem exec_floeDefWrite {cl : ClusterId} {f : FloeId} (h : Served s src (rFLOE_DEF cl f)) (v : W32) :
    exec (.floeDefWrite src cl f v) s = .next (floeDef s cl f v.toNat) := congrArg _ (regTop_floeDef cl f h v.isLt)

theorem exec_coreCtlWrite {c : CoreId} (h : Served s src (rCORE_CTL c)) (v : W32) : exec (.coreCtlWrite src c v) s = .next (coreCtl s c v.toNat) :=
  congrArg _ (regTop_coreCtl c h v.isLt)

/-- Settles O56: START, CLEAR, HOLD and the writes of FLOE_DEF and CORE_CTL, each by what its write does (`started_slotStart`, `slotClear_empties`,
`startMembers_ready`, `clearMembers_empty`, `floeDef_refused`, `coreCtl_cases`). -/
theorem tasksAndFloesStartAndClear : Obligations.TasksAndFloesStartAndClear := by
  unfold Obligations.TasksAndFloesStartAndClear
  intro src s
  refine ⟨fun c t f h hf => ⟨fun hone hidle => ?_, fun hjoint => ?_⟩, fun c t h => ⟨fun hend => ?_, fun h4 h5 => ?_⟩, ?_, ?_, ?_⟩
  · have hcl : c.val / 8 < 32 := by omega
    have hfl := floeFor_lt hf
    have hs := started_slotStart t.isLt hidle
    have hz := frame_zeroCyc (slotStart s c t) (c / 8) f
    have hpast : ∀ n, rCTR_BASE c n ∉ cycRegs (c / 8) f := fun n => not_mem_cycRegs hcl hfl (by unfold rCTR_BASE coreBase; omega)
    refine ⟨_, (exec_taskStart h).trans (congrArg _ (taskCtl_start hf hone hidle)), ?_, ?_, ?_, ?_, ?_⟩
    · exact fun a => (hz.1 a).trans (hs.frame.1 a)
    · exact fun k hk => (coreOf_zeroCyc _ _ _ k).trans (hs.cores k hk)
    · exact fun u hu => (slotOf_zeroCyc _ _ _ c u).trans (hs.slots u hu)
    · exact (slotState_zeroCyc _ hcl hfl c t).trans hs.state
    · simp only [sreg, areg, slotOf_zeroCyc, hs.slot]
      exact ⟨rfl, rfl, rfl, rfl, rfl, rfl, fun _ => rfl, fun _ => rfl, getR64_zeroCyc _ _ _, fun n hn => (hz.getF_eq (hpast n) 0 16).trans (hs.bases n hn)⟩
  · rw [exec_taskStart h, taskCtl_start_joint hf hjoint]
  · obtain ⟨x, hx, he, hctrs⟩ := slotClear_empties t.isLt hend
    exact ⟨_, exec_taskClear h, fun a => (he.frame.1 a).trans (hx.frame.1 a), fun k hk => (he.cores k hk).trans (hx.cores k hk), he.state, he.fences, he.stopped,
      fun h5 n hn => ctr_of_nextGen (hctrs h5 n hn)⟩
  · rw [exec_taskClear h, slotClear_of_not h4 h5]
  · rintro cl f h _ rfl
    refine ⟨fun hdef hne => ⟨floeStart_starts h hdef hne, fun m hm => floeStart_refused h hdef hm⟩, floeClear_clears h, fun hd on => ?_, fun hd on => ?_⟩
    · refine ⟨_, (exec_floeHold h on).trans (congrArg _ (if_pos hd)), frame_setF s (List.mem_singleton.2 rfl) _ _ _, ?_, coreOf_setF s _ _ _ _⟩
      rw [floeHoldRun, getB_setF_same s _ (by decide)]
      cases on <;> rfl
    · rw [exec_floeHold h on, hd]
      rfl
  · rintro cl f v h _ _ rfl rfl
    refine ⟨fun hr => ?_, fun hfree honce => ?_⟩
    · refine ⟨_, (exec_floeDefWrite h v).trans (congrArg _ (floeDef_refused hr)), frame_setF s (List.mem_singleton.2 rfl) _ _ _, getR_setF_cfgErr s _, coreOf_setF s _ _ _ _⟩
    · have hok : ¬ DefRefused s cl f v.toNat := by
        rintro (⟨m, hm, hbusy⟩ | ⟨hvalid, m, hm, htwice⟩)
        · exact hbusy (hfree m hm)
        · exact Bool.noConfusion ((honce hvalid m hm).symm.trans htwice)
      refine ⟨_, (exec_floeDefWrite h v).trans (congrArg _ (floeDef_accepted hok)), frame_setR s (List.mem_singleton.2 rfl) _, ?_⟩
      rw [getR_setR_same, BitVec.ofNat_toNat, BitVec.setWidth_eq]
  · rintro c v h _ rfl
    exact ⟨_, exec_coreCtlWrite h v, frame_coreCtl s c _, tsw_coreCtl s c _, cfgErr_coreCtl s c _⟩

end Sys2Proof.Safety
end

section
/-! SUPPORT. Host interrupts (R377), and the writes that are served at once in the block of a service complex (R388, R390, R391). -/

namespace Sys2Proof

/-- A bit read after one bit was set. -/
theorem bits_setBits_one (x b i : Nat) : bits (setBits x i 1 1) b 1 = if b = i then 1 else bits x b 1 := by
  by_cases h : b = i
  · rw [if_pos h, h, bits_setBits_same]
    rfl
  · rw [if_neg h, bits_setBits_other _ _ _ _ _ _ (by omega)]

end Sys2Proof

namespace Sys2Proof.Safety

open Sys2Proof.Machine

variable {s : State} {src : Src}

-- host interrupts -----------------------------------------------------------------------------------------------------------------------

/-- The two words of HOST_IRQ_STAT. -/
def irqRegs : List Nat := [rHOST_IRQ_STAT, rHOST_IRQ_STAT + 4]

theorem getR64_lt (s : State) (off : Nat) : getR64 s off < 2 ^ 64 := by
  have hlo := (getR s off).isLt
  have hhi := (getR s (off + 4)).isLt
  unfold getR64
  omega

/-- A message of a vector concerns the host alone. -/
theorem msix_eq (s : State) (v : Nat) : ∃ h, msix s v = { s with host := h } := by
  unfold msix
  split <;> exact ⟨_, rfl⟩

/-- A host interrupt sets its bit, and sends at most its vector. -/
theorem hostIrq_eq (s : State) (b : Nat) :
    ∃ h, hostIrq s b = { setR64 s rHOST_IRQ_STAT (setBits (getR64 s rHOST_IRQ_STAT) b 1 1) with host := h } := by
  unfold hostIrq
  dsimp only
  split
  · exact msix_eq _ b
  · exact ⟨_, rfl⟩

theorem frame_hostIrq (s : State) (b : Nat) : Frame irqRegs s (hostIrq s b) := by
  obtain ⟨h, e⟩ := hostIrq_eq s b
  rw [e]
  exact (frame_setR64 s (by simp [irqRegs]) (by simp [irqRegs]) _).trans ⟨fun _ => rfl, fun _ _ => rfl, rfl, rfl⟩

theorem hostIrq_units (s : State) (b : Nat) : (hostIrq s b).cores = s.cores ∧ (hostIrq s b).floes = s.floes ∧ (hostIrq s b).ccs = s.ccs := by
  obtain ⟨h, e⟩ := hostIrq_eq s b
  rw [e]
  exact ⟨rfl, rfl, rfl⟩

theorem getR64_hostIrq (s : State) {b : Nat} (hb : b < 64) :
    getR64 (hostIrq s b) rHOST_IRQ_STAT = setBits (getR64 s rHOST_IRQ_STAT) b 1 1 := by
  obtain ⟨h, e⟩ := hostIrq_eq s b
  rw [e]
  exact getR64_setR64_same s _ _ (setBits_lt _ _ _ _ _ hb (getR64_lt s _))

/-- CC_HOSTIRQ as far as the first n of its bits, from bit 16 on. -/
def hostirqFirst (s : State) (v n : Nat) : State :=
  (List.range n).foldl (fun s i => if bits v (16 + i) 1 = 1 then hostIrq s (16 + i) else s) s

theorem hostirqFirst_succ (s : State) (v n : Nat) :
    hostirqFirst s v (n + 1) = if bits v (16 + n) 1 = 1 then hostIrq (hostirqFirst s v n) (16 + n) else hostirqFirst s v n := by
  rw [hostirqFirst, List.range_succ, List.foldl_concat, hostirqFirst]

theorem ccHostirqRun_eq (s : State) (v : Nat) : ccHostirqRun s v = hostirqFirst s v 48 := rfl

theorem frame_hostirqFirst (s : State) (v n : Nat) : Frame irqRegs s (hostirqFirst s v n) := by
  induction n with
  | zero => exact Frame.refl _ s
  | succ n ih =>
    rw [hostirqFirst_succ]
    split
    · exact ih.trans (frame_hostIrq _ _)
    · exact ih

/-- The bits of HOST_IRQ_STAT after CC_HOSTIRQ: those written as 1 are set, the others stand (R390). -/
theorem bits_hostirqFirst (s : State) (v b : Nat) {n : Nat} (hn : n ≤ 48) :
    bits (getR64 (hostirqFirst s v n) rHOST_IRQ_STAT) b 1 =
      if 16 ≤ b ∧ b < 16 + n ∧ bits v b 1 = 1 then 1 else bits (getR64 s rHOST_IRQ_STAT) b 1 := by
  induction n with
  | zero => rw [if_neg (by omega), hostirqFirst, List.range_zero, List.foldl_nil]
  | succ n ih =>
    have ih := ih (by omega)
    rw [hostirqFirst_succ]
    by_cases hv : bits v (16 + n) 1 = 1
    · rw [if_pos hv, getR64_hostIrq _ (by omega), bits_setBits_one, ih]
      by_cases hb : b = 16 + n
      · rw [if_pos hb, if_pos ⟨by omega, by omega, hb ▸ hv⟩]
      · rw [if_neg hb]
        exact if_congr (by omega) rfl rfl
    · rw [if_neg hv, ih]
      have hb : bits v b 1 = 1 → b ≠ 16 + n := fun h e => hv (e ▸ h)
      exact if_congr (by omega) rfl rfl

-- writes in the block of a service complex -------------------------------------------------------------------------------------------------

/-- A served 64-bit write of a register there that acts on all its bits at once is performed at once (R361, R457). -/
theorem regTop_wide_of_served {off v : Nat} {s' : State} (h : Served s src off) (hlo : 0x40_0000 ≤ off) (hhi : off < 0x50_0000) (h8 : off % 8 = 0)
    (hw : wideWrite s off v = some s') : regTop s src off true v = s' := by
  obtain ⟨⟨hvaux, hawake, hheld, hentry⟩, hlive, hmay, habsent, hregion, hgated⟩ := h
  obtain ⟨⟨hstate, -⟩, hpower⟩ : (pwrState s ≤ 1 ∧ pwrBusy s = false) ∧ s.pwr.off = false := by
    simpa [Machine.awake, pwrState, pwrBusy] using hawake
  have hperform : regPerform s src off true v = s' := by simp [regPerform, habsent, hmay, hw]
  have hplace : ¬ (2 ^ 26 ≤ off ∨ off % (if true = true then 8 else 4) ≠ 0) := by simp [h8]; omega
  have hpowered : ¬ (s.pwr.vaux = false ∨ s.pwr.off = true ∨ (pwrState s = 3 ∧ pwrBusy s = false)) := by simp [hvaux, hpower]; omega
  have hstart : startsWait s = false := by simp [startsWait, hentry]; omega
  have hgated4 : gatedFor s (off + 4) = none := by
    unfold gatedFor
    rw [if_neg (by omega), if_neg (by omega)]
  rw [regTop, if_neg (by simp [hlive]), if_pos (by simp [hheld, hawake])]
  unfold regWrite
  rw [if_neg hplace, if_neg hpowered, if_neg (by simp [habsent]), ← hperform]
  cases hr : regRegion s off with
  | none => rfl
  | some r =>
    obtain ⟨hup, hcross⟩ : regionUp s r = true ∧ crossWaits s r = false := by simpa [hr] using hregion
    simp only [hmay, hcross, hup, hstart, hgated, hgated4, Bool.true_eq_false, Bool.false_eq_true, if_false, if_true, Bool.false_and]

theorem writeWord_svc (s : State) (src : Src) {d o : Nat} (hd : d < 4) (ho : o < 0x4_0000) (v : BitVec 32) :
    writeWord s src (svcBase d + o) v = svcWrite s (mayDebug s src) d (svcBase d + o) v := by
  have hdiv : (svcBase d + o - 0x40_0000) / 0x4_0000 = d := by unfold svcBase; omega
  have hlo : 0x40_0000 ≤ svcBase d + o := by unfold svcBase; omega
  have hhi : svcBase d + o < 0x50_0000 := by unfold svcBase; omega
  have hsess : ¬ inSessBlock (svcBase d + o) = true := by simp [inSessBlock]; omega
  rw [writeWord, if_neg (by unfold rPKG_ID; omega), if_neg hsess, if_neg (by omega), if_neg (by omega), if_neg (by omega), if_neg (by omega),
    if_neg (by unfold rFAB_ROUTE; omega), if_neg (by unfold rMIR_CTL; omega), if_pos ⟨hlo, hhi⟩, hdiv]

/-- The place of a control core's registers in the block of its die. -/
theorem rCC_CTL_bounds (cc : CcId) : cc.val / 4 < 4 ∧ 0x40 * (cc.val % 4) < 0x100 ∧ 0x40_0000 ≤ rCC_CTL cc ∧ rCC_CTL cc + 0x24 < 0x50_0000 := by
  unfold rCC_CTL svcBase
  omega

theorem regTop_ccCtl {cc : CcId} (h : Served s src (rCC_CTL cc)) {v : Nat} (hv : v < 2 ^ 32) : regTop s src (rCC_CTL cc) false v = ccCtl s cc v := by
  obtain ⟨hd, ho, -, hhi⟩ := rCC_CTL_bounds cc
  have hmod : (svcBase (cc / 4) + 0x40 * (cc % 4)) % 0x4_0000 = 0x40 * (cc % 4) := by unfold svcBase; omega
  have hcc : 4 * (cc.val / 4) + 0x40 * (cc.val % 4) / 0x40 = cc := by omega
  rw [regTop_of_served h (by omega) (by unfold rCC_CTL svcBase; omega), rCC_CTL, writeWord_svc s src hd (by omega), svcWrite, BitVec.toNat_ofNat,
    Nat.mod_eq_of_lt hv, hmod]
  rw [if_pos (by omega), hcc]

theorem regTop_ccSig {cc : CcId} (h : Served s src (rCC_SIG cc)) (v : Nat) : regTop s src (rCC_SIG cc) true v = ccSigRun s cc v := by
  obtain ⟨hd, ho, hlo, hhi⟩ := rCC_CTL_bounds cc
  have hoff : rCC_SIG cc = 0x40_0000 + 0x4_0000 * (cc / 4) + (0x40 * (cc % 4) + 0x20) := by unfold rCC_SIG rCC_CTL svcBase; omega
  refine regTop_wide_of_served h (by omega) (by omega) (by omega) ?_
  have hring : ¬ isRingReg (rCC_SIG cc) = true := by simp [isRingReg, rHRING_BASE, rCRING_BASE, rCRING_HEADPTR]; omega
  rw [wideWrite, if_neg (by unfold rTB_VALUE; omega), if_neg (by unfold rDVFS_TARGET; omega), if_neg (by unfold rBOOT_PUSH_DATA; omega), if_neg hring,
    if_pos (by omega)]
  congr 2
  omega

theorem regTop_ccHostirq {d : Nat} (hd : d < 4) (h : Served s src (rCC_HOSTIRQ d)) (v : Nat) : regTop s src (rCC_HOSTIRQ d) true v = ccHostirqRun s v := by
  have hoff : rCC_HOSTIRQ d = 0x40_0000 + 0x4_0000 * d + 0x100 := by unfold rCC_HOSTIRQ svcBase; omega
  refine regTop_wide_of_served h (by omega) (by omega) (by omega) ?_
  have hring : ¬ isRingReg (rCC_HOSTIRQ d) = true := by simp [isRingReg, rHRING_BASE, rCRING_BASE, rCRING_HEADPTR]; omega
  rw [wideWrite, if_neg (by unfold rTB_VALUE; omega), if_neg (by unfold rDVFS_TARGET; omega), if_neg (by unfold rBOOT_PUSH_DATA; omega), if_neg hring,
    if_neg (by omega), if_pos (by omega)]

end Sys2Proof.Safety
end

section
/-! SUPPORT. What a control core does in program order (R387 to R389): an item of a core that has nothing else to do is done at once, or waits. -/

namespace Sys2Proof.Safety

open Sys2Proof.Machine

variable {s t u : State}

/-- State t is s but for the control cores' own state and the count of free values drawn. -/
def CcOnly (s t : State) : Prop := ∃ c n, t = { s with ccs := c, draws := n }

theorem ccOnly_setCc (s : State) (k : Nat) (x : CcSt) : CcOnly s (setCc s k x) := ⟨_, _, rfl⟩

theorem CcOnly.trans (h : CcOnly s t) (h' : CcOnly t u) : CcOnly s u := by
  obtain ⟨c, n, rfl⟩ := h
  obtain ⟨c', n', rfl⟩ := h'
  exact ⟨c', n', rfl⟩

theorem CcOnly.frame (h : CcOnly s t) : Frame [] s t := by
  obtain ⟨c, n, rfl⟩ := h
  exact ⟨fun _ => rfl, fun _ _ => rfl, rfl, rfl⟩

theorem CcOnly.trkFree_eq (h : CcOnly s t) : trkFree t = trkFree s := by
  obtain ⟨c, n, rfl⟩ := h
  rfl

/-- Whether a signal or an access waits does not depend on what else the core has to do. -/
theorem ccItemWaits_setTodo (s : State) (k : Nat) (l : List CcItem) (x : CcItem) :
    ccItemWaits (setCc s k { ccOf s k with todo := l }) k x = ccItemWaits s k x := by
  unfold ccItemWaits
  cases x with
  | access pkg a n data => cases pkg <;> (rw [ccOf_setCc_same]; rfl)
  | signal v => rw [ccOf_setCc_same]; rfl
  | irq v => rfl
  | overlay c t src dst len => rfl

theorem ccPush_of_waits {k : Nat} {x : CcItem} (hrun : ccRuns s k = true) (htodo : (ccOf s k).todo = []) (hw : ccItemWaits s k x = true) :
    ccPush s k x = setCc s k { ccOf s k with todo := [x] } := by
  have hw' := (ccItemWaits_setTodo s k [x] x).trans hw
  have hrun' : ccRuns (setCc s k { ccOf s k with todo := [x] }) k = true := hrun
  rw [ccPush, htodo, List.nil_append, ccTodo, if_pos hrun']
  simp [ccGo, hw']

/-- An item that need not wait acts on the state as it stands, but for the list it is taken from. -/
theorem ccPush_of_ready {k : Nat} {x : CcItem} (hrun : ccRuns s k = true) (htodo : (ccOf s k).todo = []) (hw : ccItemWaits s k x = false) :
    ∃ t, CcOnly s t ∧ ccOf t k = ccOf s k ∧ ccPush s k x = ccItemGo t k x := by
  have hw' := (ccItemWaits_setTodo s k [x] x).trans hw
  have hrun' : ccRuns (setCc s k { ccOf s k with todo := [x] }) k = true := hrun
  have htaken : { ccOf s k with todo := [] } = ccOf s k := by rw [← htodo]
  refine ⟨setCc (setCc s k { ccOf s k with todo := [x] }) k { ccOf s k with todo := [] }, (ccOnly_setCc s k _).trans (ccOnly_setCc _ k _), ?_, ?_⟩
  · rw [ccOf_setCc_same, htaken]
  · rw [ccPush, htodo, List.nil_append, ccTodo, if_pos hrun']
    simp [ccGo, hw']

end Sys2Proof.Safety
end

section
/-! SUPPORT. The parts of a remote access (R334), and the first hop of a request that a control core sends (R327 to R332, R336, R341): the registers that the choice of
its port rests on, and what the transmission on a port leaves alone. -/

namespace Sys2Proof.Safety

open Sys2Proof.Machine

variable {s t : State}

theorem blockParts_within {a n : Nat} (h : a % 4096 + n ≤ 4096) : blockParts a n = [(0, n)] := by
  have hm : min n (4096 - a % 4096) = n := by omega
  simp [blockParts, hm]

theorem blockParts_across {a n : Nat} (h : 4096 < a % 4096 + n) :
    blockParts a n = [(0, 4096 - a % 4096), (4096 - a % 4096, n - (4096 - a % 4096))] := by
  have hm : min n (4096 - a % 4096) = 4096 - a % 4096 := by omega
  simp [blockParts, hm]
  omega

-- the route --------------------------------------------------------------------------------------------------------------------------------

/-- The registers below the ledgers, those of the fabric among them, read as before. -/
def SameFabric (s t : State) : Prop := ∀ off, off < 0x20_0000 → getR t off = getR s off

theorem SameFabric.getF_eq (h : SameFabric s t) {off : Nat} (ho : off < 0x20_0000) (lo w : Nat) : getF t off lo w = getF s off lo w := by
  rw [getF, getF, h off ho]

theorem SameFabric.getB_eq (h : SameFabric s t) {off : Nat} (ho : off < 0x20_0000) (b : Nat) : getB t off b = getB s off b := by
  rw [getB, getB, h.getF_eq ho]

theorem SameFabric.getR64_eq (h : SameFabric s t) {off : Nat} (ho : off + 4 < 0x20_0000) : getR64 t off = getR64 s off := by
  rw [getR64, getR64, h off (by omega), h (off + 4) ho]

/-- A frame whose registers are those of the ledgers. -/
theorem SameFabric.of_frame {l : List Nat} (h : Frame l s t) (hl : ∀ off ∈ l, 0x20_0000 ≤ off) : SameFabric s t :=
  fun _ ho => h.getR_eq fun hm => absurd (hl _ hm) (Nat.not_le.2 ho)

theorem rFAB_AVOID_lt {i : Nat} (h : i < 16) : rFAB_AVOID i < 0x20_0000 := by unfold rFAB_AVOID; omega
theorem rFAB_STAT_lt {p : Nat} (h : p < 16) : rFAB_STAT p < 0x20_0000 := by unfold rFAB_STAT portBase; omega
theorem rFAB_DIR_lt {k : Nat} (h : k < 6) : rFAB_DIR k < 0x20_0000 := by unfold rFAB_DIR; omega

section

variable (h : SameFabric s t)
include h

theorem SameFabric.ownPkg_eq : ownPkg t = ownPkg s := h.getF_eq (by decide) 0 16

theorem SameFabric.torusN_eq (d : Nat) : torusN t d = torusN s d := by
  rw [torusN, torusN, h.getF_eq (by decide)]

theorem SameFabric.coord_eq (pkg d : Nat) : coord t pkg d = coord s pkg d := by simp only [coord, h.torusN_eq]

theorem SameFabric.withCoord_eq (pkg d x : Nat) : withCoord t pkg d x = withCoord s pkg d x := by simp only [withCoord, h.torusN_eq, h.coord_eq]

theorem SameFabric.fabBadCfg_eq : fabBadCfg t = fabBadCfg s := by simp only [fabBadCfg, h.torusN_eq, h.ownPkg_eq]

theorem SameFabric.avoided_eq (pkg : Nat) : avoided t pkg = avoided s pkg := by
  rw [avoided, avoided, Bool.eq_iff_iff, List.any_eq_true, List.any_eq_true]
  refine exists_congr fun i => and_congr_right fun hi => ?_
  have ho := rFAB_AVOID_lt (List.mem_range.1 hi)
  rw [h.getB_eq ho, h.getF_eq ho]

theorem SameFabric.dirPorts_eq {k : Nat} (hk : k < 6) : dirPorts t k = dirPorts s k := by
  refine List.filter_congr fun p hp => ?_
  have ho := rFAB_STAT_lt (List.mem_range.1 hp)
  rw [h.getB_eq (rFAB_DIR_lt hk), h.getF_eq ho]

theorem SameFabric.ringPath_eq (pkg d target : Nat) (plus : Bool) (n : Nat) : ringPath t pkg d target plus n = ringPath s pkg d target plus n := by
  induction n generalizing pkg with
  | zero => rfl
  | succ n ih => simp only [ringPath, h.torusN_eq, h.coord_eq, h.withCoord_eq, ih]

theorem SameFabric.dirBlocked_eq (pkg dst : Nat) {d : Nat} (hd : d < 3) (plus : Bool) : dirBlocked t pkg dst d plus = dirBlocked s pkg dst d plus := by
  have hk : 2 * d + (if plus then 0 else 1) < 6 := by split <;> omega
  simp only [dirBlocked, h.dirPorts_eq hk, h.ringPath_eq, h.coord_eq, h.avoided_eq]

theorem SameFabric.nextDim_eq (pkg dst : Nat) : nextDim t pkg dst = nextDim s pkg dst := by simp only [nextDim, h.coord_eq]

theorem SameFabric.chooseDir_eq (pkg dst : Nat) {d : Nat} (hd : d < 3) : chooseDir t pkg dst d = chooseDir s pkg dst d := by
  simp only [chooseDir, h.torusN_eq, h.coord_eq, h.dirBlocked_eq _ _ hd]

theorem SameFabric.hopClass_eq (via : Option (Nat × Bool)) (cls d : Nat) (plus : Bool) : hopClass t via cls d plus = hopClass s via cls d plus := by
  simp only [hopClass, h.ownPkg_eq, h.coord_eq, h.torusN_eq]

end

theorem mem_dirPorts_lt {k p : Nat} (h : p ∈ dirPorts s k) : p < 16 := List.mem_range.1 (List.mem_of_mem_filter h)

theorem nextDim_lt {pkg dst d : Nat} (h : nextDim s pkg dst = some d) : d < 3 := List.mem_range.1 (List.mem_of_find?_eq_some h)

theorem SameFabric.dirPort_eq (h : SameFabric s t) (dst : Nat) {k : Nat} (hk : k < 6) (cls : Nat) : dirPort t dst k cls = dirPort s dst k cls := by
  simp only [dirPort, h.dirPorts_eq hk, h.getB_eq (rFAB_DIR_lt hk)]
  split
  · rfl
  · rename_i p hp
    rw [h.getB_eq (rFAB_STAT_lt (mem_dirPorts_lt (List.mem_of_getElem? hp)))]

/-- The first hop of a packet that enters here is chosen by the registers of the fabric alone (R341, R342). -/
theorem SameFabric.route_eq (h : SameFabric s t) (dst cls : Nat) : route t dst none cls = route s dst none cls := by
  simp only [route, h.fabBadCfg_eq, h.ownPkg_eq, h.nextDim_eq]
  split
  · rfl
  · split
    · rfl
    · rename_i d hd
      have hd := nextDim_lt hd
      simp only [h.chooseDir_eq _ _ hd, h.hopClass_eq]
      split
      · simp only [h.getB_eq (rFAB_DIR_lt (show 2 * d < 6 by omega))]
      · exact h.dirPort_eq _ (by split <;> omega) _

theorem dirPort_port_lt {dst k cls p cls' : Nat} (h : dirPort s dst k cls = .port p cls') : p < 16 := by
  unfold dirPort at h
  dsimp only at h
  split at h
  · cases h
  · rename_i q hq
    split at h
    · cases h
    · cases h
      exact mem_dirPorts_lt (List.mem_of_getElem? hq)

theorem route_port_lt {dst cls p cls' : Nat} (h : route s dst none cls = .port p cls') : p < 16 := by
  unfold route at h
  split at h
  · cases h
  · split at h
    · cases h
    · split at h
      · cases h
      · exact dirPort_port_lt h

theorem CcOnly.sameFabric (h : CcOnly s t) : SameFabric s t := .of_frame h.frame fun _ hm => absurd hm List.not_mem_nil

-- transmission on a port -------------------------------------------------------------------------------------------------------------------

/-- The registers that the transmission on a port writes: the count of link credits issued. -/
def linkRegs : List Nat := [ledgerBase qLINKCRED, ledgerBase qLINKCRED + 4]

/-- What transmission on a port leaves alone: memory, the registers but a ledger's, the control cores and the tracker. -/
structure Transmits (s t : State) : Prop where
  frame : Frame linkRegs s t
  ccs : t.ccs = s.ccs
  tracker : t.tracker = s.tracker

theorem Transmits.refl (s : State) : Transmits s s := ⟨Frame.refl _ s, rfl, rfl⟩

theorem Transmits.trans {u : State} (h : Transmits s t) (h' : Transmits t u) : Transmits s u :=
  ⟨h.frame.trans h'.frame, h'.ccs.trans h.ccs, h'.tracker.trans h.tracker⟩

theorem transmits_setPort (s : State) (p : Nat) (x : PortSt) : Transmits s (setPort s p x) := ⟨⟨fun _ => rfl, fun _ _ => rfl, rfl, rfl⟩, rfl, rfl⟩

theorem transmits_emitFlit (s : State) (p : Nat) (f : FlitRec) : Transmits s (emitFlit s p f) := transmits_setPort s p _

theorem transmits_sendNumbered (s : State) (p : Nat) (f : FlitRec) : Transmits s (sendNumbered s p f) :=
  (transmits_setPort s p _).trans (transmits_emitFlit _ p f)

theorem transmits_ledIssue (s : State) (n : Nat) : Transmits s (ledIssue s qLINKCRED n) :=
  ⟨frame_setR64 s (by simp [linkRegs]) (by simp [linkRegs]) _, rfl, rfl⟩

/-- A port whose packet t, the first of a VL and class, has sent a flit. -/
def portSent (x : PortSt) (k : Nat) (t : TxPkt) (q : List TxPkt) : PortSt :=
  { x with
    txq := mset (fun _ => []) x.txq k (if t.rest.length ≤ 1 then q else { t with rest := t.rest.tail, begun := true } :: q)
    used := mset (fun _ => 0) x.used k (portUsed x k + 1) }

/-- The flit that packet t of a VL and class sends next. -/
def packetFlit (s : State) (x : PortSt) (k : Nat) (t : TxPkt) : FlitRec :=
  { nextFlit x with
    vl := k / 2, cls := k % 2, sop := !t.begun, eop := t.rest.length ≤ 1, content := stampTime s t.pkt.hdr.typ (t.rest.headD []) }

/-- A TIME_REQ that leaves is noted with its time stamp and SEQ (R296). -/
def noteTimeReq (s : State) (typ seq : Nat) : State :=
  if typ = 9 then { s with time := { s.time with t1 := some (tbNow s, seq), t1Late := false } } else s

theorem drainOne_nil {p k : Nat} (h : txOf (portOf s p) k = []) : drainOne s p k = s := by simp only [drainOne, h]

theorem drainOne_cons {p k : Nat} {x : TxPkt} {q : List TxPkt} (h : txOf (portOf s p) k = x :: q) :
    drainOne s p k =
      ledIssue (sendNumbered (noteTimeReq (setPort s p (portSent (portOf s p) k x q)) x.pkt.hdr.typ (portOf s p).nextSeq) p
        (packetFlit s (portOf s p) k x)) qLINKCRED 1 := by
  simp only [drainOne, h]
  rfl

theorem transmits_noteTimeReq (s : State) (typ seq : Nat) : Transmits s (noteTimeReq s typ seq) := by
  unfold noteTimeReq
  split
  · exact ⟨⟨fun _ => rfl, fun _ _ => rfl, rfl, rfl⟩, rfl, rfl⟩
  · exact Transmits.refl s

theorem transmits_drainOne (s : State) (p k : Nat) : Transmits s (drainOne s p k) := by
  cases h : txOf (portOf s p) k with
  | nil =>
    rw [drainOne_nil h]
    exact Transmits.refl s
  | cons x q =>
    rw [drainOne_cons h]
    exact (((transmits_setPort s p _).trans (transmits_noteTimeReq _ _ _)).trans (transmits_sendNumbered _ p _)).trans (transmits_ledIssue _ 1)

theorem transmits_portDrain (s : State) (p n : Nat) : Transmits s (portDrain s p n) := by
  induction n generalizing s with
  | zero => exact Transmits.refl s
  | succ n ih =>
    unfold portDrain
    split
    · exact Transmits.refl s
    · exact (transmits_drainOne s p _).trans (ih _)

theorem transmits_portIdle (s : State) (p : Nat) : Transmits s (portIdle s p) := by
  unfold portIdle
  dsimp only
  split
  · exact Transmits.refl s
  · split
    · exact transmits_sendNumbered s p _
    · split
      · exact (transmits_setPort s p _).trans (transmits_emitFlit _ p _)
      · exact Transmits.refl s

theorem transmits_txPush (s : State) (p cls : Nat) (k : Packet) : Transmits s (txPush s p cls k) := by
  unfold txPush portFlush
  exact (transmits_setPort s p _).trans ((transmits_portDrain _ p _).trans (transmits_portIdle _ p))

-- what transmission rests on ---------------------------------------------------------------------------------------------------------------

/-- Two states look the same from a port: its own state, the time base and the registers of the fabric. -/
structure SamePort (p : Nat) (s t : State) : Prop where
  port : portOf t p = portOf s p
  now : tbNow t = tbNow s
  regs : SameFabric s t

variable {p : Nat}

theorem SamePort.setPort (h : SamePort p s t) (x : PortSt) : SamePort p (setPort s p x) (setPort t p x) :=
  ⟨by rw [portOf_setPort_same, portOf_setPort_same], h.now, h.regs⟩

theorem SamePort.emitFlit (hp : p < 16) (h : SamePort p s t) (f : FlitRec) : SamePort p (emitFlit s p f) (emitFlit t p f) := by
  have hmac : getR64 t (rFAB_MAC p) = getR64 s (rFAB_MAC p) := h.regs.getR64_eq (by unfold rFAB_MAC portBase; omega)
  have heth : getF t rFAB_ETH 0 16 = getF s rFAB_ETH 0 16 := h.regs.getF_eq (by decide) 0 16
  simp only [Machine.emitFlit, h.port, hmac, heth]
  exact h.setPort _

theorem SamePort.sendNumbered (hp : p < 16) (h : SamePort p s t) (f : FlitRec) : SamePort p (sendNumbered s p f) (sendNumbered t p f) := by
  simp only [Machine.sendNumbered, h.port, h.now]
  exact (h.setPort _).emitFlit hp f

theorem SamePort.ledIssue (h : SamePort p s t) (n : Nat) : SamePort p (ledIssue s qLINKCRED n) (ledIssue t qLINKCRED n) := by
  have hled := fun u => SameFabric.of_frame (transmits_ledIssue u n).frame (by decide)
  exact ⟨h.port, h.now, fun off ho => (hled t off ho).trans ((h.regs off ho).trans (hled s off ho).symm)⟩

theorem SamePort.noteTimeReq (h : SamePort p s t) (typ seq : Nat) : SamePort p (noteTimeReq s typ seq) (noteTimeReq t typ seq) := by
  unfold Safety.noteTimeReq
  split
  · exact ⟨h.port, h.now, h.regs⟩
  · exact h

theorem SamePort.packetFlit_eq (h : SamePort p s t) (x : PortSt) (k : Nat) (y : TxPkt) : packetFlit t x k y = packetFlit s x k y := by
  simp only [packetFlit, stampTime, h.now]

theorem SamePort.drainOne (hp : p < 16) (h : SamePort p s t) (k : Nat) : SamePort p (drainOne s p k) (drainOne t p k) := by
  cases hq : txOf (portOf s p) k with
  | nil =>
    rw [drainOne_nil hq, drainOne_nil (h.port ▸ hq)]
    exact h
  | cons x q =>
    rw [drainOne_cons hq, drainOne_cons (h.port ▸ hq), h.port, h.packetFlit_eq]
    exact (((h.setPort _).noteTimeReq _ _).sendNumbered hp _).ledIssue 1

theorem SamePort.portUp_eq (hp : p < 16) (h : SamePort p s t) : portUp t p = portUp s p := by
  simp only [portUp, portState, h.regs.getF_eq (rFAB_STAT_lt hp)]

theorem SamePort.portDrain (hp : p < 16) (h : SamePort p s t) (n : Nat) : SamePort p (portDrain s p n) (portDrain t p n) := by
  induction n generalizing s t with
  | zero => exact h
  | succ n ih =>
    have hkey : drainKey t p = drainKey s p := by simp only [drainKey, h.port, h.portUp_eq hp]
    rw [Machine.portDrain, Machine.portDrain, hkey]
    cases drainKey s p with
    | none => exact h
    | some k => exact ih (h.drainOne hp k)

theorem SamePort.portIdle (hp : p < 16) (h : SamePort p s t) : SamePort p (portIdle s p) (portIdle t p) := by
  simp only [Machine.portIdle, h.port, h.portUp_eq hp]
  split
  · exact h
  · split
    · exact h.sendNumbered hp _
    · split
      · exact (h.setPort _).emitFlit hp _
      · exact h

/-- What a packet makes of a port rests on that port, the time base and the fabric's registers alone. -/
theorem SamePort.txPush (hp : p < 16) (h : SamePort p s t) (cls : Nat) (k : Packet) : SamePort p (txPush s p cls k) (txPush t p cls k) := by
  simp only [Machine.txPush, Machine.portFlush, h.port, portOf_setPort_same]
  exact ((h.setPort _).portDrain hp _).portIdle hp

end Sys2Proof.Safety
end

section
/-! SUPPORT. A request that a control core sends to another package (R336, R389): its tracker entry, and its packet on the port of its first hop. -/

namespace Sys2Proof.Safety

open Sys2Proof.Machine

variable {s t : State} {p cls : Nat}

/-- A packet with the tag and the generation of the tracker entry that it takes. -/
def tagged (s : State) (k : Packet) : Packet := { k with hdr := { k.hdr with tag := trkFree s, tgen := (trkOf s (trkFree s)).gen } }

/-- The state in which a request has taken its tracker entry. -/
def entryTaken (s : State) (who : TrkWho) (p : Nat) : State := (trkTake s who p).2

theorem frame_entryTaken (s : State) (who : TrkWho) (p : Nat) : Frame [ledgerBase qFABTRK, ledgerBase qFABTRK + 4] s (entryTaken s who p) := by
  have hset : Frame [ledgerBase qFABTRK, ledgerBase qFABTRK + 4] s
      (setTrk s (trkFree s) { trkOf s (trkFree s) with busy := some (who, p, tbNow s) }) := ⟨fun _ => rfl, fun _ _ => rfl, rfl, rfl⟩
  exact hset.trans (frame_setR64 _ (by simp) (by simp) _)

theorem samePort_entryTaken (s : State) (who : TrkWho) (p q : Nat) : SamePort q s (entryTaken s who p) :=
  ⟨rfl, rfl, .of_frame (frame_entryTaken s who p) (by decide)⟩

/-- What a request does, but for its sender's own note of it: memory and the fabric's registers stand, an entry is taken, and the packet leaves. -/
structure Requests (s t : State) (who : TrkWho) (p cls : Nat) (k : Packet) : Prop where
  mem : SameMem s t
  fabric : SameFabric s t
  entry : (trkOf t (trkFree s)).busy = some (who, p, tbNow s)
  sends : Sends s t p cls (tagged s k)

/-- A request whose route has a port takes the lowest free entry and leaves on that port (R336, R341). -/
theorem fabRequest_leaves {who : TrkWho} (hwho : whoCore who = none) {k : Packet} (havoid : avoided s k.hdr.dstPkg = false)
    (hroute : route s k.hdr.dstPkg none 0 = .port p cls) : ∃ t, fabRequest s who k = (t, none) ∧ t.ccs = s.ccs ∧ Requests s t who p cls k := by
  have hp := route_port_lt hroute
  have htake := frame_entryTaken s who p
  have hsend := transmits_txPush (entryTaken s who p) p cls (tagged s k)
  refine ⟨txPush (entryTaken s who p) p cls (tagged s k), ?_, hsend.ccs, ?_⟩
  · simp only [fabRequest, havoid, hroute, sendOut, hwho]
    rfl
  · constructor
    case mem => exact fun a => (hsend.frame.1 a).trans (htake.1 a)
    case fabric =>
      exact fun off ho => (SameFabric.of_frame hsend.frame (by decide) off ho).trans (SameFabric.of_frame htake (by decide) off ho)
    case entry =>
      have hset : trkOf (entryTaken s who p) (trkFree s) = { trkOf s (trkFree s) with busy := some (who, p, tbNow s) } := trkOf_setTrk_same s _ _
      rw [trkOf, hsend.tracker, ← trkOf, hset]
    case sends => exact ((samePort_entryTaken s who p p).txPush hp cls _).port

theorem ccOf_congr (h : t.ccs = s.ccs) (k : Nat) : ccOf t k = ccOf s k := by rw [ccOf, ccOf, h]

theorem Requests.setCc {who : TrkWho} {k : Packet} (h : Requests s t who p cls k) (j : Nat) (x : CcSt) : Requests s (setCc t j x) who p cls k := by
  obtain ⟨hmem, hfabric, hentry, hsends⟩ := h
  exact ⟨hmem, hfabric, hentry, hsends⟩

/-- A request does not depend on the control cores' own state. -/
theorem Requests.of_ccOnly {u : State} (h : CcOnly s t) (hp : p < 16) {who : TrkWho} {k : Packet} (hreq : Requests t u who p cls k) :
    Requests s u who p cls k := by
  obtain ⟨c, n, rfl⟩ := h
  obtain ⟨hmem, hfabric, hentry, hsends⟩ := hreq
  have hport : SamePort p s { s with ccs := c, draws := n } := ⟨rfl, rfl, fun _ _ => rfl⟩
  exact ⟨hmem, hfabric, hentry, hsends.trans (hport.txPush hp cls (tagged s k)).port⟩

/-- A WRITE of a control core leaves, and its entry joins those that the core's signals wait for (R388, R389). -/
theorem ccPost_leaves (k : Nat) {pkg addr : Nat} {bs : List Byte} (havoid : avoided s pkg = false) (hroute : route s pkg none 0 = .port p cls) :
    Requests s (ccPost s k pkg addr bs) (.ccWrite k) p cls ⟨mkHdr 1 pkg (ownPkg s) 0 0 addr bs.length, bs, []⟩ ∧
      ccOf (ccPost s k pkg addr bs) k = { ccOf s k with tags := (ccOf s k).tags ++ [trkFree s] } := by
  obtain ⟨t, ht, hccs, hreq⟩ := fabRequest_leaves (who := .ccWrite k) rfl (k := ⟨mkHdr 1 pkg (ownPkg s) 0 0 addr bs.length, bs, []⟩) havoid hroute
  have hpost : ccPost s k pkg addr bs = setCc t k { ccOf s k with tags := (ccOf s k).tags ++ [trkFree s] } := by
    simp only [ccPost, ht, ccOf_congr hccs]
  rw [hpost]
  exact ⟨hreq.setCc k _, ccOf_setCc_same t k _⟩

/-- A READ of a control core leaves, and its entry joins those of the core's load (R389). -/
theorem ccFetch_leaves (k : Nat) {pkg addr n : Nat} (pos : Nat) (havoid : avoided s pkg = false) (hroute : route s pkg none 0 = .port p cls) :
    Requests s (ccFetch s k pkg addr pos n) (.ccRead k pos) p cls ⟨mkHdr 2 pkg (ownPkg s) 0 0 addr n, [], []⟩ ∧
      ccOf (ccFetch s k pkg addr pos n) k = { ccOf s k with loads := (ccOf s k).loads ++ [trkFree s] } := by
  obtain ⟨t, ht, hccs, hreq⟩ := fabRequest_leaves (who := .ccRead k pos) rfl (k := ⟨mkHdr 2 pkg (ownPkg s) 0 0 addr n, [], []⟩) havoid hroute
  have hfetch : ccFetch s k pkg addr pos n = setCc t k { ccOf s k with loads := (ccOf s k).loads ++ [trkFree s] } := by
    simp only [ccFetch, ht, ccOf_congr hccs]
  rw [hfetch]
  exact ⟨hreq.setCc k _, ccOf_setCc_same t k _⟩

end Sys2Proof.Safety
end

section
/-! PROOF. Control cores act (O54): writes of CC_CTL, CC_SIG and CC_HOSTIRQ, the interrupts, and the accesses of a control core to other packages and to stores. -/

namespace Sys2Proof.Safety

open Sys2Proof.Machine

variable {s : State} {cc : CcId}

-- CC_CTL, CC_SIG and CC_HOSTIRQ ------------------------------------------------------------------------------------------------------------

theorem exec_ccRun {src : Src} (h : Served s src (rCC_CTL cc)) : exec (.ccRun src cc) s = .next (setF s (rCC_CTL cc) 0 1 1) :=
  congrArg _ (regTop_ccCtl h (by decide))

theorem exec_ccReset {src : Src} (h : Served s src (rCC_CTL cc)) : exec (.ccReset src cc) s = .next (ccHold s cc) :=
  congrArg _ (regTop_ccCtl h (by decide))

theorem frame_ccHold (s : State) (k : Nat) : Frame [rCC_CTL k] s (ccHold s k) :=
  (frame_setF s (List.mem_singleton.2 rfl) 0 1 0).trans ⟨fun _ => rfl, fun _ _ => rfl, rfl, rfl⟩

/-- A write of CC_SIG is an item of the core that writes it (R388). -/
theorem exec_ccSig (h : Served s (.cc cc) (rCC_SIG cc)) (v : W64) : exec (.ccSig cc v) s = .next (ccPush s cc (.signal v)) := by
  have hrun : ccRuns s cc = true := h.2.1
  refine congrArg _ ((regTop_ccSig h v.toNat).trans ?_)
  rw [ccSigRun, if_pos hrun, BitVec.ofNat_toNat, BitVec.setWidth_eq]

theorem exec_ccHostirq (h : Served s (.cc cc) (rCC_HOSTIRQ (cc.val / 4))) (v : W64) : exec (.ccHostirq cc v) s = .next (hostirqFirst s v.toNat 48) :=
  congrArg _ ((regTop_ccHostirq (by omega) h v.toNat).trans (ccHostirqRun_eq s v.toNat))

/-- A signal whose COUNT is 0 is not sent, whether or not it has to wait (R388). -/
theorem ccSig_none (h : Served s (.cc cc) (rCC_SIG cc)) (htodo : (ccOf s cc).todo = []) {v : W64} (hcount : bits v.toNat 20 16 = 0) :
    ∃ s', exec (.ccSig cc v) s = .next s' ∧ Frame [] s s' ∧ s'.signals = s.signals := by
  have hrun : ccRuns s cc = true := h.2.1
  refine ⟨_, exec_ccSig h v, ?_⟩
  cases hw : ccItemWaits s cc (.signal v)
  · obtain ⟨t, ⟨c, n, rfl⟩, -, hpush⟩ := ccPush_of_ready hrun htodo hw
    rw [hpush, ccItemGo, ccSignalGo, if_pos hcount]
    exact ⟨CcOnly.frame ⟨c, n, rfl⟩, rfl⟩
  · rw [ccPush_of_waits hrun htodo hw]
    exact ⟨(ccOnly_setCc s cc _).frame, rfl⟩

/-- A signal to a core of this package leaves at once (R388). -/
theorem ccSig_sent (h : Served s (.cc cc) (rCC_SIG cc)) (htodo : (ccOf s cc).todo = []) {v : W64} (hcount : bits v.toNat 20 16 ≠ 0)
    (hown : bits v.toNat 52 1 = 0) (hcore : corePresent s (bits v.toNat 8 8) = true) :
    ∃ s', exec (.ccSig cc v) s = .next s' ∧ Frame [ledgerBase qCTR, ledgerBase qCTR + 4] s s' ∧
      ∃ g, s'.signals = s.signals ++ [g] ∧ g.core = bits v.toNat 8 8 ∧ g.ctr = bits v.toNat 0 6 ∧ g.count = bits v.toNat 20 16 ∧ g.gen = bits v.toNat 16 4 ∧
        g.src = cc.val ∧ g.own = true := by
  have hw : ccItemWaits s cc (.signal v) = false := by simp [ccItemWaits, hown]
  obtain ⟨t, ⟨c, n, rfl⟩, -, hpush⟩ := ccPush_of_ready (hrun := h.2.1) htodo hw
  have hcore' : ¬ corePresent { s with ccs := c, draws := n } (bits v.toNat 8 8) = false := by
    intro e
    exact Bool.noConfusion (hcore.symm.trans e)
  refine ⟨_, exec_ccSig h v, ?_⟩
  rw [hpush, ccItemGo, ccSignalGo, if_neg hcount, if_neg (by omega), if_neg hcore', sendSignal]
  refine ⟨?_, _, rfl, rfl, rfl, rfl, rfl, rfl, rfl⟩
  have hsig : ∀ gs, Frame [ledgerBase qCTR, ledgerBase qCTR + 4] s { s with ccs := c, draws := n, signals := gs } :=
    fun _ => ⟨fun _ => rfl, fun _ _ => rfl, rfl, rfl⟩
  exact (hsig _).trans (frame_setR64 _ (by simp) (by simp) _)

-- interrupts -----------------------------------------------------------------------------------------------------------------------------------

theorem exec_ccTimerInterrupt (hrun : ccRuns s cc = true) :
    exec (.ccTimerInterrupt cc) s = .next (setCc s cc { ccOf s cc with mtip := decide (getR64 s (rCC_TIMECMP cc) ≤ tbNow s) }) :=
  congrArg Host.Outcome.next (if_pos hrun)

theorem exec_ccExternalInterrupt (hrun : ccRuns s cc = true) :
    exec (.ccExternalInterrupt cc) s =
      .next (setCc s cc { ccOf s cc with meip := decide (getR s (rCC_IRQ_STAT cc) &&& getR s (rCC_IRQ_EN cc) ≠ 0) }) :=
  congrArg Host.Outcome.next (if_pos hrun)

theorem exec_ownerProgramException (hrun : ccRuns s cc = true) (hcc : 4 ≤ cc.val) (cause : BitVec 8) (pc : BitVec 56) :
    exec (.ownerProgramException cc cause pc) s = .next (hostIrq (setR64 s rPROG_STAT (cause.toNat + 256 * pc.toNat)) 17) := by
  have hlive : ¬ (cc.val < 4 ∨ ccRuns s cc = false) := by simp [hrun, hcc]
  have hcause : cause.toNat % 256 = cause.toNat := Nat.mod_eq_of_lt cause.isLt
  exact congrArg Host.Outcome.next ((if_neg hlive).trans (by rw [hcause]))

/-- An owner program's exception is shown in PROG_STAT, and raises host interrupt 17 (R399). -/
theorem ownerProgramException_shown (hrun : ccRuns s cc = true) (hcc : 4 ≤ cc.val) (cause : BitVec 8) (pc : BitVec 56) :
    ∃ s', exec (.ownerProgramException cc cause pc) s = .next s' ∧ Frame [rPROG_STAT, rPROG_STAT + 4, rHOST_IRQ_STAT, rHOST_IRQ_STAT + 4] s s' ∧
      getR64 s' rPROG_STAT = cause.toNat + 256 * pc.toNat ∧ bits (getR64 s' rHOST_IRQ_STAT) 17 1 = 1 ∧ s'.cores = s.cores ∧ s'.floes = s.floes ∧
        s'.ccs = s.ccs := by
  have hlt : cause.toNat + 256 * pc.toNat < 2 ^ 64 := by omega
  have hirq := frame_hostIrq (setR64 s rPROG_STAT (cause.toNat + 256 * pc.toNat)) 17
  refine ⟨_, exec_ownerProgramException hrun hcc cause pc, ?_, ?_, ?_, hostIrq_units _ 17⟩
  · exact (frame_setR64 s (by simp) (by simp) _).trans (hirq.mono (by simp [irqRegs]))
  · rw [getR64, hirq.getR_eq (by decide), hirq.getR_eq (by decide), ← getR64, getR64_setR64_same s _ _ hlt]
  · rw [getR64_hostIrq _ (by decide), bits_setBits_same]
    rfl

-- accesses to another package ------------------------------------------------------------------------------------------------------------------

/-- The state in which a load has begun: until its response, the bytes it returns are open (R389). -/
def loadBegun (s : State) (k n : Nat) : State := setCc (openBytes s n).2 k { ccOf (openBytes s n).2 k with data := (openBytes s n).1 }

theorem ccOnly_loadBegun (s : State) (k n : Nat) : CcOnly s (loadBegun s k n) := ⟨_, _, rfl⟩

theorem loads_loadBegun (s : State) (k n : Nat) : (ccOf (loadBegun s k n) k).loads = (ccOf s k).loads := by
  rw [loadBegun, ccOf_setCc_same]
  rfl

section

variable {off : BitVec 40} {a p cls : Nat} (hrun : ccRuns s cc = true) (ha : a = rwinAddr s cc off.toNat)
include hrun ha

theorem exec_ccRemoteStore {data : List Byte} (hdata : data ≠ []) :
    exec (.ccRemoteStore cc off data) s = .next (ccPush s cc (.access (some (rwinPkg s cc)) a data.length (some data))) :=
  ha ▸ congrArg Host.Outcome.next (if_neg (by simp [hrun, hdata]))

theorem exec_ccRemoteLoad {n : Nat} (hn : 0 < n) : exec (.ccRemoteLoad cc off n) s = .next (ccPush s cc (.access (some (rwinPkg s cc)) a n none)) :=
  ha ▸ congrArg Host.Outcome.next (if_neg (by simp [hrun, Nat.ne_of_gt hn]))

variable (htodo : (ccOf s cc).todo = [])
include htodo

/-- A store to another package waits while the tracker is full (R336). -/
theorem remoteStore_waits {data : List Byte} (hdata : data ≠ []) (hin : a % 4096 + data.length ≤ 4096) (hroom : trkRoom s = false) :
    exec (.ccRemoteStore cc off data) s =
      .next (setCc s cc { ccOf s cc with todo := [.access (some (rwinPkg s cc)) a data.length (some data)] }) := by
  have hfull : 65536 ≤ trkInUse s := by simpa [trkRoom] using hroom
  rw [exec_ccRemoteStore hrun ha hdata, ccPush_of_waits hrun htodo (by simp [ccItemWaits, blockParts_within hin]; omega)]

variable (havoid : avoided s (rwinPkg s cc) = false) (hroute : route s (rwinPkg s cc) none 0 = .port p cls)
include havoid hroute

/-- A store within a block of 4,096 bytes is one WRITE (R334, R389). -/
theorem remoteStore_leaves {data : List Byte} (hdata : data ≠ []) (hin : a % 4096 + data.length ≤ 4096) (hroom : trkRoom s = true) :
    ∃ s', exec (.ccRemoteStore cc off data) s = .next s' ∧ (ccOf s' cc).tags = (ccOf s cc).tags ++ [trkFree s] ∧
      Requests s s' (.ccWrite cc) p cls ⟨mkHdr 1 (rwinPkg s cc) (ownPkg s) 0 0 a data.length, data, []⟩ := by
  have hfree : trkInUse s < 65536 := by simpa [trkRoom] using hroom
  obtain ⟨t, honly, hcc, hpush⟩ := ccPush_of_ready (x := .access (some (rwinPkg s cc)) a data.length (some data)) hrun htodo
    (by simp [ccItemWaits, blockParts_within hin]; omega)
  have hgo : ccItemGo t cc (.access (some (rwinPkg s cc)) a data.length (some data)) = ccPost t cc (rwinPkg s cc) a data := by
    simp [ccItemGo, ccRemote, blockParts_within hin]
  have hfab := honly.sameFabric
  obtain ⟨hreq, hpost⟩ := ccPost_leaves (s := t) cc (addr := a) (bs := data) ((hfab.avoided_eq _).trans havoid) ((hfab.route_eq _ 0).trans hroute)
  rw [hfab.ownPkg_eq] at hreq
  rw [hcc, honly.trkFree_eq] at hpost
  rw [exec_ccRemoteStore hrun ha hdata, hpush, hgo]
  exact ⟨_, rfl, by rw [hpost], hreq.of_ccOnly honly (route_port_lt hroute)⟩

/-- A load within a block of 4,096 bytes is one READ (R334, R389). -/
theorem remoteLoad_leaves {n : Nat} (hn : 0 < n) (hin : a % 4096 + n ≤ 4096) (hroom : trkRoom s = true) (hloads : (ccOf s cc).loads = []) :
    ∃ s', exec (.ccRemoteLoad cc off n) s = .next s' ∧ (ccOf s' cc).loads = [trkFree s] ∧
      Requests s s' (.ccRead cc 0) p cls ⟨mkHdr 2 (rwinPkg s cc) (ownPkg s) 0 0 a n, [], []⟩ := by
  have hfree : trkInUse s < 65536 := by simpa [trkRoom] using hroom
  obtain ⟨t, honly, hcc, hpush⟩ := ccPush_of_ready (x := .access (some (rwinPkg s cc)) a n none) hrun htodo
    (by simp [ccItemWaits, blockParts_within hin, hloads]; omega)
  have hgo : ccItemGo t cc (.access (some (rwinPkg s cc)) a n none) = ccFetch (loadBegun t cc n) cc (rwinPkg s cc) a 0 n := by
    simp [ccItemGo, ccRemote, blockParts_within hin, loadBegun]
  have honly' := honly.trans (ccOnly_loadBegun t cc n)
  have hfab := honly'.sameFabric
  obtain ⟨hreq, hfetch⟩ := ccFetch_leaves (s := loadBegun t cc n) cc (addr := a) (n := n) 0 ((hfab.avoided_eq _).trans havoid)
    ((hfab.route_eq _ 0).trans hroute)
  rw [hfab.ownPkg_eq] at hreq
  rw [loads_loadBegun, hcc, hloads, honly'.trkFree_eq] at hfetch
  rw [exec_ccRemoteLoad hrun ha hn, hpush, hgo]
  exact ⟨_, rfl, by rw [hfetch, List.nil_append], hreq.of_ccOnly honly' (route_port_lt hroute)⟩

/-- A store across a block boundary is two WRITEs, each with an entry of its own (R334, R389). -/
theorem remoteStore_across {data : List Byte} (hin : 4096 < a % 4096 + data.length) (hroom : trkInUse s + 2 ≤ 65536) :
    ∃ s', exec (.ccRemoteStore cc off data) s = .next s' ∧ SameMem s s' ∧ (ccOf s' cc).tags.length = (ccOf s cc).tags.length + 2 := by
  have hdata : data ≠ [] := by
    rintro rfl
    rw [List.length_nil] at hin
    omega
  generalize hm : 4096 - a % 4096 = m
  obtain ⟨t, honly, hcc, hpush⟩ := ccPush_of_ready (x := .access (some (rwinPkg s cc)) a data.length (some data)) hrun htodo
    (by simp [ccItemWaits, blockParts_across hin]; omega)
  have hgo : ccItemGo t cc (.access (some (rwinPkg s cc)) a data.length (some data)) =
      ccPost (ccPost t cc (rwinPkg s cc) a (data.take m)) cc (rwinPkg s cc) (a + m) ((data.drop m).take (data.length - m)) := by
    simp only [ccItemGo, ccRemote, blockParts_across hin, List.foldl_cons, List.foldl_nil, List.drop_zero, Nat.add_zero, hm]
  have hfab := honly.sameFabric
  obtain ⟨hreq, hpost⟩ := ccPost_leaves (s := t) cc (addr := a) (bs := data.take m) ((hfab.avoided_eq _).trans havoid) ((hfab.route_eq _ 0).trans hroute)
  have hfab' : SameFabric s (ccPost t cc (rwinPkg s cc) a (data.take m)) := fun off ho => (hreq.fabric off ho).trans (hfab off ho)
  obtain ⟨hreq', hpost'⟩ := ccPost_leaves (s := ccPost t cc (rwinPkg s cc) a (data.take m)) cc (addr := a + m)
    (bs := (data.drop m).take (data.length - m)) ((hfab'.avoided_eq _).trans havoid) ((hfab'.route_eq _ 0).trans hroute)
  rw [exec_ccRemoteStore hrun ha hdata, hpush, hgo]
  refine ⟨_, rfl, fun b => ((hreq'.mem b).trans (hreq.mem b)).trans (honly.frame.1 b), ?_⟩
  rw [hpost', hpost, hcc, List.length_append, List.length_append]
  rfl

end

-- accesses to a store --------------------------------------------------------------------------------------------------------------------------

section

variable {addr : BitVec 48} {c : Nat} (hrun : ccRuns s cc = true) (htodo : (ccOf s cc).todo = [])
  (hsram : sramPlace cc addr.toNat 8 = none) (hplace : placeOf addr.toNat 8 = .store c) (hcore : corePresent s c = true) (hopen : storeWaits s c = false)
include hrun htodo hsram hplace hcore hopen

/-- A load from a store returns the store's bytes (R387). -/
theorem storeLoad_reads (hloads : (ccOf s cc).loads = []) :
    ∃ s', exec (.ccStoreAccess cc addr 8 none) s = .next s' ∧ Frame [] s s' ∧ (ccOf s' cc).data = rdBytes s addr.toNat 8 := by
  have hexec : exec (.ccStoreAccess cc addr 8 none) s = .next (ccPush s cc (.access none addr.toNat 8 none)) :=
    congrArg Host.Outcome.next (if_neg (by simp [hrun]))
  obtain ⟨t, honly, -, hpush⟩ := ccPush_of_ready (x := .access none addr.toNat 8 none) hrun htodo
    (by simp [ccItemWaits, ccLocalWaits, hsram, hplace, hopen, hloads])
  obtain ⟨cs, n, rfl⟩ := honly
  have hpresent : ¬ corePresent { s with ccs := cs, draws := n } c = false := fun e => Bool.noConfusion (hcore.symm.trans e)
  have hgo : ccItemGo { s with ccs := cs, draws := n } cc (.access none addr.toNat 8 none) =
      ccData { s with ccs := cs, draws := n } cc (rdBytes s addr.toNat 8) := by
    simp only [ccItemGo, ccLocal, hsram, hplace, if_neg hpresent]
    rfl
  rw [hexec, hpush, hgo, ccData]
  exact ⟨_, rfl, (CcOnly.trans ⟨cs, n, rfl⟩ (ccOnly_setCc _ cc _)).frame, by rw [ccOf_setCc_same]⟩

/-- A store to a store writes its bytes, and no other (R387). -/
theorem storeStore_writes {data : List Byte} (hlen : data.length = 8) :
    ∃ s', exec (.ccStoreAccess cc addr 8 (some data)) s = .next s' ∧ SameRegsBut [] s s' ∧ rdBytes s' addr.toNat 8 = data ∧
      ∀ a, (a < addr.toNat ∨ addr.toNat + 8 ≤ a) → rdByte s' a = rdByte s a := by
  have hexec : exec (.ccStoreAccess cc addr 8 (some data)) s = .next (ccPush s cc (.access none addr.toNat 8 (some data))) := by
    rw [← hlen]
    exact congrArg Host.Outcome.next (if_neg (by simp [hrun, hlen]))
  obtain ⟨t, honly, -, hpush⟩ := ccPush_of_ready (x := .access none addr.toNat 8 (some data)) hrun htodo
    (by simp [ccItemWaits, ccLocalWaits, hsram, hplace, hopen])
  obtain ⟨cs, n, rfl⟩ := honly
  have hpresent : ¬ corePresent { s with ccs := cs, draws := n } c = false := fun e => Bool.noConfusion (hcore.symm.trans e)
  have hgo : ccItemGo { s with ccs := cs, draws := n } cc (.access none addr.toNat 8 (some data)) =
      wrBytes { s with ccs := cs, draws := n } addr.toNat data := by
    simp only [ccItemGo, ccLocal, hsram, hplace, if_neg hpresent]
  rw [hexec, hpush, hgo]
  refine ⟨_, rfl, fun _ _ => rfl, ?_, fun a ha => ?_⟩
  · rw [← hlen]
    exact rdBytes_wrBytes_same _ _ _
  · rw [rdByte_wrBytes, if_neg (by omega)]
    rfl

end

/-- Settles O54: the writes of a control core's registers are served at once (`regTop_ccCtl`, `regTop_ccSig`, `regTop_ccHostirq`), an item of a core with nothing
else to do is done or waits (`ccPush_of_ready`, `ccPush_of_waits`), and a request takes an entry and leaves on its port (`fabRequest_leaves`). -/
theorem controlCoresAct : Obligations.ControlCoresAct := by
  unfold Obligations.ControlCoresAct
  intro cc s
  refine ⟨fun src h => ⟨?_, ?_⟩, fun v h htodo => ⟨ccSig_none h htodo, ccSig_sent h htodo⟩, fun v h => ?_, fun hrun => ⟨?_, ?_, ?_, ?_, ?_⟩⟩
  · exact ⟨_, exec_ccRun h, frame_setF s (List.mem_singleton.2 rfl) 0 1 1, getB_setF_same s _ (by decide) 1⟩
  · exact ⟨_, exec_ccReset h, frame_ccHold s cc, getB_setF_same s _ (by decide) 0, ccOf_setCc_same _ cc _⟩
  · refine ⟨_, exec_ccHostirq h v, frame_hostirqFirst s v.toNat 48, fun b hb => ?_⟩
    rw [bits_hostirqFirst s v.toNat b (le_refl 48)]
    exact if_congr (by omega) rfl rfl
  · exact ⟨_, exec_ccTimerInterrupt hrun, (ccOnly_setCc s cc _).frame, ccOf_setCc_same s cc _⟩
  · exact ⟨_, exec_ccExternalInterrupt hrun, (ccOnly_setCc s cc _).frame, ccOf_setCc_same s cc _⟩
  · rintro off p cls t a htodo rfl ha havoid hroute
    refine ⟨fun data hdata hin => ⟨fun hroom => ?_, fun hroom => ?_⟩, fun n hn hin hroom hloads => ?_, fun data hin _ hroom => ?_⟩
    · obtain ⟨s', hexec, htags, hmem, -, hentry, hsends⟩ := remoteStore_leaves hrun ha htodo havoid hroute hdata hin hroom
      exact ⟨s', hexec, hmem, htags, hentry, hsends⟩
    · exact ⟨_, remoteStore_waits hrun ha htodo hdata hin hroom, (ccOnly_setCc s cc _).frame, rfl, ccOf_setCc_same s cc _⟩
    · obtain ⟨s', hexec, hloads', hmem, -, hentry, hsends⟩ := remoteLoad_leaves hrun ha htodo havoid hroute hn hin hroom hloads
      exact ⟨s', hexec, hmem, hloads', hentry, hsends⟩
    · exact remoteStore_across hrun ha htodo havoid hroute hin hroom
  · intro addr c htodo hloads hsram hplace hcore hopen
    exact ⟨storeLoad_reads hrun htodo hsram hplace hcore hopen hloads, fun data => storeStore_writes hrun htodo hsram hplace hcore hopen⟩
  · exact fun cause pc hcc => ownerProgramException_shown hrun hcc cause pc

end Sys2Proof.Safety
end

section
/-! SUPPORT. Every command and every tick keeps what the operations keep (Keep), and with it the invariants of the block. -/

namespace Sys2Proof.Machine

open Sys2Proof.Safety

/-- An outcome of a command: where it is a state, that state is kept. -/
def KeepN (b : State) (o : Host.Outcome State Fault Refusal) : Prop := ∀ t, o = .next t → Keep b t

theorem keepN_next {b x : State} (h : Keep b x) : KeepN b (.next x) := by
  intro t e; cases e; exact h

/-- Every command keeps it: one arm for each operation that its row is. -/
theorem keep_exec (i : Instr) (s : State) : KeepN s (exec i s) := by
  have hs : Keep s s := Keep.refl s
  cases i with
  | nop _ | loop _ | endl _ | jmp _ | aadd _ | yieldW _ | halt _ | sldcfg _ | sldgo _ | mxcfg _ | mxgo _ | swrcfg _ | swrgo _ | vadd _ | vsub _
    | vmul _ | vfma _ | vmax _ | vmin _ | vabs _ | vneg _ | vcmp _ | vsel _ | vexp _ | vlog _ | vrcp _ | vrsq _ | vred _ | vcvt _ | vstat _ | vstfin _
    | vnorm _ | vperm _ | vshuf _ | vpack _ | vunpk _ | vget _ | vsetvl _ | vupdsr _ | waitc _ | sigc _ | lfence _ | mircommit _ | send _ | recv _
    | strmarm _ | unlistedOpcode _ => exact keepN_next <| keep_sequencer _ _ _ hs
  | tileRowLoad _ => exact keepN_next <| keep_onCore _ _ _ (fun _ => keep_tileRowLoad _ _) hs
  | tileReady _ => exact keepN_next <| keep_onCore _ _ _ (fun _ => keep_tileReady _ _) hs
  | weightColumnEnter _ => exact keepN_next <| keep_onCore _ _ _ (fun _ => keep_weightColumnEnter _ _) hs
  | checkColumnInject _ => exact keepN_next <| keep_onCore _ _ _ (fun _ => keep_checkColumnInject _ _) hs
  | abftCheck _ => exact keepN_next <| keep_onCore _ _ _ (fun _ => keep_abftCheck _ _) hs
  | drainColumnEmit _ => exact keepN_next <| keep_onCore _ _ _ (fun _ => keep_drainColumnEmit _ _) hs
  | mxeOpComplete _ => exact keepN_next <| keep_onCore _ _ _ (fun _ => keep_mxeOpComplete _ _) hs
  | passThroughItemRead _ => exact keepN_next <| keep_onCore _ _ _ (fun _ => keep_passThroughItemRead _ _) hs
  | vxeQueueStart _ => exact keepN_next <| keep_onCore _ _ _ (fun _ => keep_vxeQueueStart _ _) hs
  | swrWritePerformed _ => exact keepN_next <| keep_onCore _ _ _ (fun _ => keep_swrWritePerformed _ _) hs
  | descWaitComplete _ _ => exact keepN_next <| keep_onCore _ _ _ (fun _ => keep_descWait _ _ _) hs
  | descRequestIssue _ _ => exact keepN_next <| keep_onCore _ _ _ (fun _ => keep_descRequestIssue _ _ _) hs
  | descDataWrite _ _ => exact keepN_next <| keep_onCore _ _ _ (fun _ => keep_descDataWrite _ _ _) hs
  | descComplete _ _ => exact keepN_next <| keep_onCore _ _ _ (fun _ => keep_descComplete _ _ _) hs
  | fenceRelease _ _ => exact keepN_next <| keep_onCore _ _ _ (fun _ => keep_fenceRelease _ _ _) hs
  | gather _ _ => exact keepN_next <| keep_onCore _ _ _ (fun _ => keep_gatherRun _ _ _) hs
  | gatherSum _ _ => exact keepN_next <| keep_onCore _ _ _ (fun _ => keep_gatherSumRun _ _ _) hs
  | kvFetch _ _ => exact keepN_next <| keep_onCore _ _ _ (fun _ => keep_kvFetchRun _ _ _) hs
  | expandSparse _ _ => exact keepN_next <| keep_onCore _ _ _ (fun _ => keep_expandSparseRun _ _ _) hs
  | expandCodebook _ _ => exact keepN_next <| keep_onCore _ _ _ (fun _ => keep_expandCodebookRun _ _ _) hs
  | expandSparseCodebook _ _ => exact keepN_next <| keep_onCore _ _ _ (fun _ => keep_expandBothRun _ _ _) hs
  | floeStallBegin _ _ _ => exact keepN_next <| keep_stallBegin _ _ _ _ hs
  | floeStallEnd _ _ => exact keepN_next <| keep_stallEnd _ _ _ hs
  | throttleHold _ => exact keepN_next <| keep_throttleRun _ _ hs
  | stallTimeout _ _ => exact keepN_next <| keep_timeoutRun _ _ _ hs
  | quiescenceComplete _ => exact keepN_next <| keep_quiesceDone _ _ hs
  | switchComplete _ => exact keepN_next <| keep_switchDone _ _ hs
  | idleCoreSelect _ => exact keepN_next <| keep_idleSelect _ _ hs
  | signalApply _ => exact keepN_next <| keep_ite (keep_signalApply _ _ hs) hs
  | messageArrive _ _ _ _ => exact keepN_next <| keep_ite (keep_messageArrive _ _ _ _ _ hs) hs
  | messageReturn _ _ => exact keepN_next <| keep_ite (keep_messageReturn _ _ _ hs) hs
  | creditReturn _ _ => exact keepN_next <| keep_ite (keep_creditReturn _ _ _ hs) hs
  | peerLp _ _ => exact keepN_next <| keep_ite hs (keep_setF _ _ _ _ _ hs) | firnRequestEnter _ _ _ => exact keepN_next <| keep_firnRequestEnter _ _ _ _ hs
  | firnReadReturn _ _ _ => exact keepN_next <| keep_firnReadReturn _ _ _ _ hs
  | firnWritePerformed _ _ _ => exact keepN_next <| keep_firnWritePerformed _ _ _ _ hs
  | readModifyWrite _ _ _ => exact keepN_next <| keep_readModifyWrite _ _ _ _ hs
  | refreshSlot _ => exact keepN_next <| keep_refreshRun _ _ hs
  | refreshRegimeChange _ _ => exact keepN_next <| keep_regimeRun _ _ _ hs
  | selfRefreshExit _ => exact keepN_next <| keep_selfRefreshExit _ _ hs
  | firnInitDone _ => exact keepN_next <| keep_initDone _ _ hs
  | packetInject _ _ _ _ _ _ => exact keepN_next <| keep_netInject _ _ _ _ _ _ hs
  | packetSwitchEnter _ => exact keepN_next <| keep_netEnter _ _ hs
  | turnBufferRelease _ => exact keepN_next <| keep_netRelease _ _ hs
  | turnHoldRelease _ => exact keepN_next <| keep_netUnhold _ _ hs
  | packetDeliver _ _ => exact keepN_next <| keep_netDeliver _ _ _ hs
  | wheelHold _ => exact keepN_next <| keep_wheelHoldRun _ _ hs
  | wheelStart _ _ _ => exact keepN_next <| keep_wheelStartRun _ _ _ _ hs
  | droopStretch _ _ => exact keepN_next <| keep_stretch _ _ _ hs
  | crossingAlign _ _ =>
    exact keepN_next <| keep_flushHeld _ (keep_align _ _ _ hs) | gatedClusterAccess _ => exact keepN_next <| keep_flushHeld _ (keep_gatedRun _ _ hs) | wakeDetect _ => exact keepN_next <| keep_flushHeld _ (keep_wakeDetectRun _ _ hs) | wakeComplete => exact keepN_next <| keep_flushHeld _ (keep_wakeDoneRun _ hs) | wakePacket _ => exact keepN_next <| keep_flushHeld _ (keep_wakePacketRun _ _ hs) | pllNChange _ => exact keepN_next <| keep_pllChange _ _ hs
  | marginWarn _ _ => exact keepN_next <| keep_marginRun _ _ _ hs
  | autostep _ _ => exact keepN_next <| keep_autostepRun _ _ _ hs
  | refloss => exact keepN_next <| keep_refLossRun _ hs
  | refclkReturn => exact keepN_next <| keep_refBackRun _ hs
  | tbSyncInEdge => exact keepN_next <| keep_syncInEdge _ hs
  | timeExchange => exact keepN_next <| keep_timeExchangeRun _ hs
  | syncLost => exact keepN_next <| keep_syncLostRun _ hs
  | tbAlarmFire => exact keepN_next <| keep_alarmRun _ hs
  | tbSyncOutPulse => exact keepN_next <| keep_syncOutRun _ hs
  | pwrReqRun _ | pwrReqIdle _ | pwrReqSleep _ | pwrReqDeep _ | pwrReqOff _ | dvfsTargetWrite _ _ | padRelease _ | rstFloe _ _ | rstCore _ _
    | rstCluster _ _ | rstDie _ _ | rstPackage _ _ | hringEnable _ | hringDisable _ | hostIrqEnWrite _ _ | sessReq _ _ | sessSubmit _ | sessClose _
    | provision _ | dbgUnlock _ | dbgLock _ | lifecycleRelease _ | bootPushStart _ | bootPushData _ _ | bootPushDone _ | attestReq _
    | fabPortEnable _ _ | fabPortDisable _ _ | fabWakeSend _ _ | mirCtlWrite _ _ _ | ccRun _ _ | ccReset _ _ | ccSig _ _ | ccHostirq _ _ | sclRoll _ _
    | monClose _ _ | mlogRelease _ _ | trcEnableWrite _ _ _ | trcBufWrite _ _ _ | trcMark _ _ _ | taskStart _ _ _ | taskClear _ _ _ | floeStart _ _ _
    | floeClear _ _ _ | floeHold _ _ _ _ | floeDefWrite _ _ _ _ | coreCtlWrite _ _ _ | ctrAdvance _ _ _ | ctrValueWrite _ _ _ _ | ichClose _ _ _
    | ichReopenKeep _ _ _ | ichReopenFlush _ _ _ | descTemplateWrite _ _ _ _ _ | firnMapWrite _ _ _ | firnRefreshWrite _ _ _ | tbValueWrite _ _
    | legacyWrite _ _ _ | pkgIdWrite _ _ | registerWrite _ _ _ _ => exact keepN_next <| keep_regTop _ _ _ _ _ hs
  | idleClusterGate _ => exact keepN_next <| keep_gateRun _ _ hs
  | sleepEntryComplete => exact keepN_next <| keep_sleepEntry _ hs
  | deepEntryComplete => exact keepN_next <| keep_deepEntry _ hs
  | offEntry => exact keepN_next <| keep_offEntryRun _ hs
  | railSettled _ _ => exact keepN_next <| keep_railSettledRun _ _ _ _ hs
  | regionPowerUp _ => exact keepN_next <| keep_regionUpRun _ _ hs
  | pllLock _ => exact keepN_next <| keep_pllLockRun _ _ hs
  | activityRampStep _ => exact keepN_next <| keep_rampRun _ _ hs
  | powerLimiterSample _ => exact keepN_next <| keep_limiterRun _ _ hs
  | thermalLevelUpdate _ _ _ _ => exact keepN_next <| keep_thermalRun _ _ _ _ _ hs
  | brownout _ _ => exact keepN_next <| keep_brownRun _ _ _ hs
  | ivrLpExit _ => exact keepN_next <| keep_lpExitIvr _ _ _ hs
  | settleTimeout _ => exact keepN_next <| keep_settleTimeout _ _ hs
  | thermtrip _ _ => exact keepN_next <| keep_tripRun _ _ _ hs
  | thermalWarn _ _ => exact keepN_next <| keep_warnRun _ _ _ hs
  | mainPowerLoss => exact keepN_next <| keep_powerLossRun _ hs
  | mainSuppliesPresent => exact keepN_next <| keep_suppliesRun _ hs
  | vauxPowerUp _ _ => exact keepN_next <| keep_vauxUpRun _ _ _ hs
  | vauxLoss => exact keepN_next <| keep_vauxLossRun _ hs
  | resetComplete => exact keepN_next <| keep_resetComplete _ hs
  | perstN | functionLevelReset => exact keepN_next <| keep_hostReset _ hs
  | hostLinkTrain _ _ _ => exact keepN_next <| keep_linkTrain _ _ _ _ hs
  | hostLinkLoss => exact keepN_next <| keep_linkLoss _ hs
  | busMasterEnable _ => exact keepN_next <| keep_busEnable _ _ hs
  | ctlbarBadAccess _ _ _ => exact keepN_next <| keep_badAccess _ _ _ _ hs
  | firnbarRead _ _ => exact keepN_next <| keep_barRead _ _ _ hs
  | firnbarWrite _ _ => exact keepN_next <| keep_barWrite _ _ _ hs
  | hostNop => exact keepN_next <| keep_nopRun _ hs
  | move => exact keepN_next <| keep_moveRun _ hs
  | load _ => exact keepN_next <| keep_loadRun _ _ hs
  | regw => exact keepN_next <| keep_regwRun _ hs
  | signalCommand => exact keepN_next <| keep_signalRun _ hs
  | power => exact keepN_next <| keep_powerRun _ hs
  | closeCommand => exact keepN_next <| keep_closeRun _ hs
  | loadComplete => exact keepN_next <| keep_loadDone _ hs
  | lockoutExpiry => exact keepN_next <| keep_lockoutExpiry _ hs
  | provisionDone => exact keepN_next <| keep_provisionEnd _ hs
  | bootRomRun _ => exact keepN_next <| keep_bootRun _ _ hs
  | attestSignDone => exact keepN_next <| keep_attestDone _ hs
  | trainingDone _ _ _ _ _ _ => exact keepN_next <| keep_trainingDoneRun _ _ _ _ _ _ hs
  | trainingTimeout _ => exact keepN_next <| keep_trainingTimeoutRun _ _ hs
  | lpExit _ => exact keepN_next <| keep_lpExitRun _ _ hs
  | flitReceive _ _ => exact keepN_next <| keep_flitIn _ _ _ hs
  | linkDown _ _ => exact keepN_next <| keep_portLost _ _ _ hs
  | ethFrameReceive _ _ _ _ => exact keepN_next <| keep_frameIn _ _ _ hs
  | rtoExpiry _ => exact keepN_next <| keep_rtoRun _ _ hs
  | write _ _ => exact keepN_next <| keep_landedRun _ _ _ _ _ _ (fun _ _ => keep_writeIn _ _ _) hs
  | read _ _ => exact keepN_next <| keep_landedRun _ _ _ _ _ _ (fun _ _ => keep_readIn _ _ _) hs
  | readData _ _ => exact keepN_next <| keep_landedRun _ _ _ _ _ _ (fun _ _ hx => keep_trkRespond _ _ _ (fun _ => keep_trkData _ _ _ _) hx) hs
  | ack _ _ => exact keepN_next <| keep_landedRun _ _ _ _ _ _ (fun _ _ hx => keep_trkRespond _ _ _ (fun _ => keep_trkAck _ _) hx) hs
  | error _ _ => exact keepN_next <| keep_landedRun _ _ _ _ _ _ (fun _ _ hx => keep_trkRespond _ _ _ (fun _ => keep_trkFail _ _ _ _) hx) hs
  | msg _ _ => exact keepN_next <| keep_landedRun _ _ _ _ _ _ (fun _ _ => keep_msgIn _ _ _) hs
  | credit _ _ => exact keepN_next <| keep_landedRun _ _ _ _ _ _ (fun _ _ => keep_creditIn _ _) hs
  | fabricSignal _ _ => exact keepN_next <| keep_landedRun _ _ _ _ _ _ (fun _ _ => keep_signalIn _ _ _) hs
  | timeReq _ _ => exact keepN_next <| keep_timeReqRun _ _ _ hs
  | timeRsp _ _ _ _ _ => exact keepN_next <| keep_timeRspRun _ _ _ _ _ _ hs
  | delta _ => exact keepN_next <| keep_deltaRun _ _ hs
  | commit _ => exact keepN_next <| keep_commitRun _ _ hs
  | commitApply => exact keepN_next <| keep_commitApply _ hs
  | commitAck _ => exact keepN_next <| keep_commitAckRun _ _ hs
  | trackerTimeout _ => exact keepN_next <| keep_trkTimeout _ _ hs
  | mirrorLag => exact keepN_next <| keep_mirrorLagRun _ hs
  | ccTimerInterrupt _ => exact keepN_next <| keep_ccTimerRun _ _ hs
  | ccExternalInterrupt _ => exact keepN_next <| keep_ccExternalRun _ _ hs
  | ccRemoteStore _ _ _ | ccRemoteLoad _ _ _ => exact keepN_next <| keep_ccRemoteRun _ _ _ _ _ hs
  | ownerProgramException _ _ _ => exact keepN_next <| keep_ownerFault _ _ _ _ hs
  | srvRequestPoll => exact keepN_next <| keep_servePoll _ hs
  | ledgerSnapshot => exact keepN_next <| keep_snapshot _ hs
  | tracePacketWrite _ _ _ => exact keepN_next <| keep_tracePacket _ _ _ _ hs
  | bypass => exact keepN_next <| keep_tapIr _ _ hs
  | idcode | samplePreload _ =>
    exact keepN_next <| keep_mk (keep_tapIr _ _ hs) | extest | clamp | highz | extestPulse | extestTrain => exact keepN_next <| keep_extestRun _ _ hs
  | dbgReg _ => exact keepN_next <| keep_dbgRun _ _ hs
  | trstN | testLogicReset => exact keepN_next <| keep_tapReset _ hs
  | smbusMctpRequest _ => exact keepN_next <| keep_smbusRun _ _ hs
  | smbusArp _ => exact keepN_next <| keep_arpRun _ _ hs
  | tbLowRead _ => exact keepN_next <| keep_readTop _ _ _ hs
  | debugRegisterWrite _ _ _ _ _ => exact keepN_next <| keep_debugTop _ _ _ _ _ _ hs
  | msixUnmask _ => exact keepN_next <| keep_unmaskRun _ _ _ hs
  | hringPoll _ _ => exact keepN_next <| keep_ringPoll _ _ _ hs
  | moverComplete _ _ => exact keepN_next <| keep_moverRun _ _ _ hs
  | ccStoreAccess _ _ _ _ => exact keepN_next <| keep_ccAccess _ _ _ _ _ hs
  | servingStep _ => exact keepN_next <| keep_serveStep _ _ hs

end Sys2Proof.Machine
end

section

open Sys2Proof Sys2Proof.Machine Sys2Proof.Safety

/-- What a step keeps: a command does what it keeps, and so does a tick. -/
theorem keep_step {s t : State} (h : step s = .next t) : Keep s t := by
  unfold step at h
  split at h
  · cases h; exact keep_tick s (Keep.refl s)
  · exact (keep_mk (Keep.refl s)).trans (keep_exec _ _ t h)

/-- Settles O2: Keep carries the canonical form through every step (`keep_step`). -/
theorem stepKeepsCanonicalStores : Obligations.StepKeepsCanonicalStores := fun _ _ hc h => (keep_step h).canon hc

/-- Settles O4: Keep carries the fuses, the security version and the owner slots through every step (`keep_step`). -/
theorem stepKeepsFuses : Obligations.StepKeepsFuses := fun _ _ h => (keep_step h).fuses

/-- Settles O1: the front command is the first of the queue. -/
theorem stepRunsTheFrontCommand : Obligations.StepRunsTheFrontCommand := fun _ _ => rfl

/-- Settles O3: the stores list nothing at reset, so every place reads its default. -/
theorem resetIsCanonical : Obligations.ResetIsCanonical := ⟨⟨mwf_nil _, mwf_nil _⟩, rfl, fun _ => rfl, fun _ => rfl⟩

end

section
/-! PROOF. What LOOP and the configuration words read of a scalar register (O5, O6): a RECV that the task issued behind a waiting vector word has written the register for
every word issued after it (R92), while the register's own bits still hold what they held. The statements speak of the register's bits. -/

namespace Sys2Proof.Safety

open Sys2Proof.Machine Sys2Proof.Tests

/-- A vector word that waits, behind which a RECV has put 5 into s0 (R92). -/
def putBehind : VxEnt := { ent wAdd with puts := [(0, 5#64)] }

/-- Core 0 at a LOOP by s0, which a RECV behind a waiting vector word has written with 5. -/
def sLoopPut : State := queue [putBehind] (sLoop 0)

theorem issues_sLoopPut : Issues sLoopPut 0 0 0 wLoop := by unfold Issues; decide +kernel

/-- MXCFG of register 1 with s0. -/
def wCfgS0 : Nat := ow 0x20 (2 ^ 40 + 2 * 2 ^ 38)

/-- Core 0 at that word, behind the same waiting words. -/
def sCfgPut : State := queue [putBehind] (at1 wCfgS0)

theorem issues_sCfgPut : Issues sCfgPut 0 0 0 wCfgS0 := by unfold Issues; decide +kernel

/-- Refutes O5: where a RECV has put 5 into s0 behind a waiting vector word, LOOP latches 5 and enters the loop, while the bits of s0 are 0. -/
theorem not_sequencerWordsMoveThePc : ¬ Obligations.SequencerWordsMoveThePc := by
  intro h
  obtain ⟨s', hexec, _, _, _, _, _, hloop, _, _⟩ := h 0 sLoopPut 0 0 wLoop issues_sLoopPut (by decide)
  obtain rfl : sequencer sLoopPut 0 (· = .loop) = s' := Host.Outcome.next.inj hexec
  obtain ⟨hzero, _⟩ := hloop (by decide) 0 (by decide +kernel)
  have hpc := congrArg SlotSt.pc (hzero rfl)
  exact absurd hpc (by decide +kernel)

/-- Refutes O6: where a RECV has put 5 into s0 behind a waiting vector word, MXCFG stages 5, while the bits of s0 are 0. -/
theorem not_engineWordsStageAndQueue : ¬ Obligations.EngineWordsStageAndQueue := by
  intro h
  obtain ⟨hcfg, _, _, _⟩ := h 0 sCfgPut 0 0 wCfgS0 issues_sCfgPut
  obtain ⟨s', hexec, _, _, _, _, hstag, _⟩ := hcfg (by decide)
  obtain rfl : sequencer sCfgPut 0 (· = .mxcfg) = s' := Host.Outcome.next.inj hexec
  exact absurd hstag (by decide +kernel)

end Sys2Proof.Safety
end

section
/-! SUPPORT. The issue of a group of one word, whatever its unit (R116, R131): what follows the word's own effect is a step of its slot, and notes of the issue in the
floe's stall reason and the trace. -/

namespace Sys2Proof.Safety

open Sys2Proof.Machine

-- notes of an issue ----------------------------------------------------------------------------------------------------------

/-- A state with the notes of an issue: floe f's stall reason, the beginnings of stalls and the trace, and nothing else. -/
structure Annotated (c f : Nat) (s s' : State) : Prop where
  same : ∃ r tr fl, s' = { s with regs := r, trace := tr, floes := fl }
  regs : ∀ off, off ∉ issueRegs c f → getR s' off = getR s off

namespace Annotated

variable {c f : Nat} {s t u : State}

theorem refl (c f : Nat) (s : State) : Annotated c f s s := ⟨⟨_, _, _, rfl⟩, fun _ _ => rfl⟩

theorem trans (h : Annotated c f s t) (h' : Annotated c f t u) : Annotated c f s u := by
  obtain ⟨⟨r, tr, fl, rfl⟩, hr⟩ := h
  obtain ⟨⟨r', tr', fl', rfl⟩, hr'⟩ := h'
  exact ⟨⟨r', tr', fl', rfl⟩, fun off ho => (hr' off ho).trans (hr off ho)⟩

theorem frame (h : Annotated c f s t) : Frame (issueRegs c f) s t := by
  obtain ⟨⟨r, tr, fl, rfl⟩, hr⟩ := h
  exact ⟨fun _ => rfl, hr, rfl, rfl⟩

theorem cores (h : Annotated c f s t) : t.cores = s.cores := by obtain ⟨⟨r, tr, fl, rfl⟩, -⟩ := h; rfl
theorem signals (h : Annotated c f s t) : t.signals = s.signals := by obtain ⟨⟨r, tr, fl, rfl⟩, -⟩ := h; rfl
theorem flights (h : Annotated c f s t) : t.flights = s.flights := by obtain ⟨⟨r, tr, fl, rfl⟩, -⟩ := h; rfl
theorem net (h : Annotated c f s t) : t.net = s.net := by obtain ⟨⟨r, tr, fl, rfl⟩, -⟩ := h; rfl
theorem mirror (h : Annotated c f s t) : t.mirror = s.mirror := by obtain ⟨⟨r, tr, fl, rfl⟩, -⟩ := h; rfl
theorem ports (h : Annotated c f s t) : t.ports = s.ports := by obtain ⟨⟨r, tr, fl, rfl⟩, -⟩ := h; rfl
theorem mem (h : Annotated c f s t) : t.mem = s.mem := by obtain ⟨⟨r, tr, fl, rfl⟩, -⟩ := h; rfl

theorem coreOf_eq (h : Annotated c f s t) (k : Nat) : coreOf t k = coreOf s k := coreOf_congr h.cores k
theorem slotOf_eq (h : Annotated c f s t) (k u : Nat) : slotOf t k u = slotOf s k u := by rw [slotOf, slotOf, h.coreOf_eq]
theorem getF_eq (h : Annotated c f s t) {off : Nat} (ho : off ∉ issueRegs c f) (lo w : Nat) : getF t off lo w = getF s off lo w := by
  rw [getF, getF, h.regs off ho]
theorem getB_eq (h : Annotated c f s t) {off : Nat} (ho : off ∉ issueRegs c f) (b : Nat) : getB t off b = getB s off b := getB_congr (h.regs off ho) b
theorem getR64_eq (h : Annotated c f s t) {off : Nat} (ho : off ∉ issueRegs c f) (ho' : off + 4 ∉ issueRegs c f) : getR64 t off = getR64 s off := by
  rw [getR64, getR64, h.regs off ho, h.regs _ ho']

end Annotated

theorem annotated_setF {c f off : Nat} (h : off ∈ issueRegs c f) (s : State) (lo w v : Nat) : Annotated c f s (setF s off lo w v) :=
  ⟨⟨_, _, _, rfl⟩, fun _ ho => getR_setF_other s lo w v fun e => ho (e ▸ h)⟩

theorem annotated_setTrace (c f : Nat) (s : State) (d : Nat) (r : List (List (BitVec 64))) : Annotated c f s (setTrace s d r) :=
  ⟨⟨_, _, _, rfl⟩, fun _ _ => rfl⟩

theorem annotated_setFloe (c f : Nat) (s : State) (cl g : Nat) (x : FloeSt) : Annotated c f s (setFloe s cl g x) :=
  ⟨⟨_, _, _, rfl⟩, fun _ _ => rfl⟩

theorem annotated_traceOfFloe (s : State) (c f g typ w2 w3 : Nat) : Annotated c f s (traceOfFloe s (c / 8) g typ w2 w3) := by
  have hd : c / 8 / 8 = c / 64 := Nat.div_div_eq_div_mul c 8 8
  unfold traceOfFloe traceRec
  split
  · simp only [hd]
    split
    · split
      · exact annotated_setTrace c f s _ _
      · exact annotated_setF (by simp [issueRegs]) s _ _ _
    · exact Annotated.refl c f s
  · exact Annotated.refl c f s

theorem annotated_stallSince (c f : Nat) (s : State) (cl g r : Nat) : Annotated c f s (stallSince s cl g r) := by
  unfold stallSince
  dsimp only
  split
  · exact Annotated.refl c f s
  · exact annotated_setFloe c f s cl g _

theorem annotated_setFloeReason (s : State) (c f r : Nat) : Annotated c f s (setFloeReason s (c / 8) f r) := by
  unfold setFloeReason
  split
  · exact annotated_stallSince c f s _ f r
  · exact ((annotated_setF (by simp [issueRegs]) s 0 4 r).trans (annotated_stallSince c f _ _ f r)).trans (annotated_traceOfFloe _ c f f _ _ _)

theorem annotated_setReason {s : State} {c t f : Nat} (h : floeFor s c t = some f) (r : Nat) : Annotated c f s (setReason s c t r) := by
  simp only [setReason, h]
  exact annotated_setFloeReason s c f r

theorem annotated_traceIssue (s : State) (c t f i w : Nat) : Annotated c f s (traceIssue s c t i w) := by
  unfold traceIssue
  split
  · split
    · exact annotated_traceOfFloe s c f _ _ _ _
    · exact Annotated.refl c f s
  · exact Annotated.refl c f s

-- where the registers of an issue do not lie ------------------------------------------------------------------------------------

/-- A register of a floe's definition is none that the issue of a word writes. -/
theorem floeDef_not_mem_issueRegs (c : Nat) {f g : Nat} (_hf : f < 32) (_hg : g < 32) : rFLOE_DEF (c / 8) g ∉ issueRegs c f := by
  simp only [issueRegs, List.mem_cons, List.not_mem_nil, or_false, rFLOE_DEF, rFLOE_STAT, rTRC_STAT, clusterBase, svcBase]
  omega

theorem floeFor_of_regs {s s' : State} (h : s'.regs = s.regs) (c t : Nat) : floeFor s' c t = floeFor s c t :=
  floeFor_congr (fun _ _ => getR_congr h _) t

-- the slot's step ----------------------------------------------------------------------------------------------------------------

/-- Where the slot stands after a word that has had its own effect s1 (R113, R125 to R127, R131). -/
def stepped (s s1 : State) (c t i w : Nat) : State := modSlot (advance s s1 c t [(i, w)] none) c t fun x => { x with wait := none }

theorem advance_regs (s s1 : State) (c t : Nat) (l : List (Nat × Nat)) (d : Option Nat) : (advance s s1 c t l d).regs = s1.regs := by
  unfold advance
  dsimp only
  split
  · rfl
  · split
    · rfl
    · split
      · split <;> rfl
      · split
        · split <;> rfl
        · rfl
      · rfl
      · rfl

@[simp] theorem modSlot_regs (s : State) (c t : Nat) (g : SlotSt → SlotSt) : (modSlot s c t g).regs = s.regs := rfl

theorem stepped_regs (s s1 : State) (c t i w : Nat) : (stepped s s1 c t i w).regs = s1.regs := advance_regs s s1 c t _ _

/-- What follows the word's own effect: the slot's step, with notes. -/
theorem annotated_afterVector {s s1 : State} {c t f : Nat} (hf : floeFor s1 c t = some f) (i w : Nat) :
    Annotated c f (stepped s s1 c t i w) (afterVector s s1 c t i w) :=
  (annotated_setReason (by rw [floeFor_of_regs (stepped_regs s s1 c t i w), hf]) 0).trans (annotated_traceIssue _ c t f i w)

/-- The operations after which the slot goes on at the next word. -/
def jumpOps : List Op := [.loop, .endl, .jmp]

/-- A slot that goes on at the next word, from the loops that it had when the group issued. -/
def onward (s : State) (c t : Nat) (x : SlotSt) : SlotSt :=
  { x with pc := (slotOf s c t).pc + 1, loops := (slotOf s c t).loops, jumped := false, cyc := floeNow s c t, fresh := false }

theorem stepped_onward {s s1 : State} {c t w : Nat} (h : wOp w ∉ jumpOps) (i : Nat) :
    stepped s s1 c t i w = modSlot (modSlot s1 c t (onward s c t)) c t fun x => { x with wait := none } := by
  unfold stepped advance
  simp only [List.getLast?_singleton, List.length_singleton]
  generalize wOp w = o at h
  cases o with
  | loop | endl | jmp => exact absurd (by decide) h
  | _ => rfl

/-- The state of the slot after a word that is no jump. -/
theorem slotOf_stepped {s s1 : State} {c t w : Nat} (h : wOp w ∉ jumpOps) (i : Nat) :
    slotOf (stepped s s1 c t i w) c t = { onward s c t (slotOf s1 c t) with wait := none } := by
  rw [stepped_onward h]
  simp only [slotOf_modSlot_same]

/-- A step that touches one task slot of a core and nothing else. -/
structure SlotStep (c t : Nat) (s s' : State) : Prop where
  same : ∃ co, s' = { s with cores := co }
  cores : OtherCores c s s'
  core : ∃ l, coreOf s' c = { coreOf s c with slots := l }
  slots : OtherSlots c t s s'

theorem SlotStep.refl (c t : Nat) (s : State) : SlotStep c t s s := ⟨⟨_, rfl⟩, fun _ _ => rfl, ⟨_, rfl⟩, fun _ _ => rfl⟩

theorem SlotStep.trans {c t : Nat} {s u v : State} (h : SlotStep c t s u) (h' : SlotStep c t u v) : SlotStep c t s v := by
  obtain ⟨⟨k, rfl⟩, hc, ⟨l, hl⟩, hs⟩ := h
  obtain ⟨⟨k', rfl⟩, hc', ⟨l', hl'⟩, hs'⟩ := h'
  exact ⟨⟨k', rfl⟩, fun x hx => (hc' x hx).trans (hc x hx), ⟨l', by rw [hl', hl]⟩, fun x hx => (hs' x hx).trans (hs x hx)⟩

theorem slotStep_modSlot (s : State) (c t : Nat) (g : SlotSt → SlotSt) : SlotStep c t s (modSlot s c t g) :=
  ⟨⟨_, rfl⟩, fun _ h => coreOf_modCore_other s _ h, ⟨_, coreOf_modCore_same s c _⟩, fun _ h => slotOf_setSlot_otherSlot s c _ h⟩

theorem slotStep_advance (s s1 : State) (c t : Nat) (l : List (Nat × Nat)) (d : Option Nat) : SlotStep c t s1 (advance s s1 c t l d) := by
  unfold advance
  dsimp only
  split
  · exact slotStep_modSlot s1 c t _
  · split
    · exact SlotStep.refl c t s1
    · split
      · split <;> exact slotStep_modSlot s1 c t _
      · split
        · split <;> exact slotStep_modSlot s1 c t _
        · exact SlotStep.refl c t s1
      · exact slotStep_modSlot s1 c t _
      · exact slotStep_modSlot s1 c t _

theorem slotStep_stepped (s s1 : State) (c t i w : Nat) : SlotStep c t s1 (stepped s s1 c t i w) :=
  (slotStep_advance s s1 c t _ _).trans (slotStep_modSlot _ c t _)

/-- What a word leaves, where s1 is the state that its own effect leaves: the step of its slot and the notes of the issue. -/
structure WordDone (c t f w : Nat) (s s1 s' : State) : Prop where
  regs : ∀ off, off ∉ issueRegs c f → getR s' off = getR s1 off
  same : ∃ r co tr fl, s' = { s1 with regs := r, cores := co, trace := tr, floes := fl }
  cores : OtherCores c s1 s'
  core : ∃ l, coreOf s' c = { coreOf s1 c with slots := l }
  slots : OtherSlots c t s1 s'
  slot : wOp w ∉ jumpOps → slotOf s' c t = { onward s c t (slotOf s1 c t) with wait := none }

theorem wordDone_afterVector {s s1 : State} {c t f : Nat} (hf : floeFor s1 c t = some f) (i w : Nat) :
    WordDone c t f w s s1 (afterVector s s1 c t i w) := by
  have ha := annotated_afterVector (s := s) hf i w
  obtain ⟨⟨k, hk⟩, hc, ⟨l, hl⟩, hs⟩ := slotStep_stepped s s1 c t i w
  constructor
  case regs => exact fun off ho => (ha.regs off ho).trans (getR_congr (stepped_regs s s1 c t i w) off)
  case same =>
    obtain ⟨⟨r, tr, fl, e⟩, -⟩ := ha
    exact ⟨r, k, tr, fl, by rw [e, hk]⟩
  case cores => exact fun x hx => (ha.coreOf_eq x).trans (hc x hx)
  case core => exact ⟨l, by rw [ha.coreOf_eq, hl]⟩
  case slots => exact fun u hu => (ha.slotOf_eq c u).trans (hs u hu)
  case slot => exact fun h => (ha.slotOf_eq c t).trans (slotOf_stepped h i)

namespace WordDone

variable {c t f w : Nat} {s s1 s' : State}

/-- The frame of a word: that of its own effect and the notes. -/
theorem frame {l : List Nat} (h : WordDone c t f w s s1 s') (h1 : Frame l s s1) : Frame (l ++ issueRegs c f) s s' := by
  obtain ⟨r, co, tr, fl, rfl⟩ := h.same
  obtain ⟨hm, hr, hf, hp⟩ := h1
  exact ⟨hm, fun off ho => (h.regs off fun e => ho (List.mem_append_right _ e)).trans (hr off fun e => ho (List.mem_append_left _ e)), hf, hp⟩

theorem otherCores (h : WordDone c t f w s s1 s') (h1 : OtherCores c s s1) : OtherCores c s s' := fun k hk => (h.cores k hk).trans (h1 k hk)

theorem otherSlots (h : WordDone c t f w s s1 s') (h1 : OtherSlots c t s s1) : OtherSlots c t s s' := fun u hu => (h.slots u hu).trans (h1 u hu)

/-- A word that is no jump and leaves its own slot as it was: the slot steps on. -/
theorem stepsOn (h : WordDone c t f w s s1 s') (hj : wOp w ∉ jumpOps) (h1 : slotOf s1 c t = slotOf s c t) : StepsOn s s' c t := by
  rw [StepsOn, h.slot hj, h1]
  rfl

theorem sameMem (h : WordDone c t f w s s1 s') (h1 : SameMem s s1) : SameMem s s' := by
  obtain ⟨r, co, tr, fl, rfl⟩ := h.same
  exact h1

theorem vreg_eq (h : WordDone c t f w s s1 s') (r : Nat) : vreg s' c r = vreg s1 c r := by
  obtain ⟨l, hl⟩ := h.core
  rw [vreg, vreg, hl]

theorem getF_eq (h : WordDone c t f w s s1 s') {off : Nat} (ho : off ∉ issueRegs c f) (lo n : Nat) : getF s' off lo n = getF s1 off lo n := by
  rw [getF, getF, h.regs off ho]

theorem getR64_eq (h : WordDone c t f w s s1 s') {off : Nat} (ho : off ∉ issueRegs c f) (ho' : off + 4 ∉ issueRegs c f) : getR64 s' off = getR64 s1 off := by
  rw [getR64, getR64, h.regs off ho, h.regs _ ho']

end WordDone

-- the action of a word ---------------------------------------------------------------------------------------------------------------

/-- The words after whose own effect nothing follows but the slot's step: all but RECV, HALT and YIELD and the words of the table that are no words. -/
def actOps : List Op := [.nop, .loop, .endl, .jmp, .aadd, .sldcfg, .sldgo, .mxcfg, .mxgo, .swrcfg, .swrgo, .waitc, .sigc, .lfence, .mircommit, .send, .strmarm]

theorem isVec_of_actOp {w : Nat} (h : wOp w ∈ actOps) : isVec w = false := by
  have key : ∀ n, n < 256 → opOf n ∈ actOps → ¬ (if n / 16 = 5 then 4 else n / 16) = 4 := by decide +kernel
  exact decide_eq_false (key (wOP w) (bits_lt w 48 8) h)

/-- A word's own effect, where it is no vector word. -/
def wordEffect (s : State) (c t i w : Nat) : State := actMid (actEarly s s c t (i, w)) s c t (i, w)

theorem actGroup_of_actOp {w : Nat} (h : wOp w ∈ actOps) (s : State) (c t i : Nat) :
    actGroup s c t [(i, w)] = afterVector s (wordEffect s c t i w) c t i w := by
  have hne : ∀ o, o ∉ actOps → wOp w ≠ o := fun o ho e => ho (e ▸ h)
  have h1 := hne .recv (by decide)
  have h2 := hne .halt (by decide)
  have h3 := hne .yieldW (by decide)
  simp only [actGroup, List.foldl_cons, List.foldl_nil, actVec, isVec_of_actOp h, Bool.false_eq_true, if_false, actRecv, List.find?_cons, List.find?_nil, h1,
    decide_false, List.any_cons, List.any_nil, h2, h3, Bool.or_self, ite_self, List.headD_cons]
  rfl

/-- The command of a word that issues, where the word's own effect leaves the floe definitions alone. -/
theorem wordDone_of_issues {s : State} {c t f w : Nat} {lead : Op → Bool} (hi : Issues s c t f w) (hop : wOp w ∈ actOps) (hl : lead (wOp w) = true)
    (hd : floeFor (wordEffect s c t (slotOf s c t).pc w) c t = floeFor s c t) :
    WordDone c t f w s (wordEffect s c t (slotOf s c t).pc w) (sequencer s c lead) := by
  rw [sequencer_of_issues hi hl, actGroup_of_actOp hop]
  obtain ⟨_, _, _, hf, _⟩ := hi
  exact wordDone_afterVector (hd.trans hf) _ w

/-- The same of a vector word. -/
theorem wordDone_of_vectorWord {s : State} {c t f w : Nat} {lead : Op → Bool} (hi : Issues s c t f w) (hop : wOp w ∈ vectorOps) (hl : lead (wOp w) = true)
    (hd : floeFor (vxeIssue s c t (slotOf s c t).pc w) c t = floeFor s c t) :
    WordDone c t f w s (vxeIssue s c t (slotOf s c t).pc w) (sequencer s c lead) := by
  rw [sequencer_of_issues hi hl, actGroup_of_vectorOp hop]
  obtain ⟨_, _, _, hf, _⟩ := hi
  exact wordDone_afterVector (hd.trans hf) _ w

end Sys2Proof.Safety
end

section
/-! SUPPORT. What an issuing word's own checks leave true of its fields (R142 to R157), and where the registers that words write lie. -/

namespace Sys2Proof.Safety

open Sys2Proof.Machine

variable {s : State} {c t f w : Nat}

/-- No rule on a word's own bits is broken where it issues. -/
theorem wordReason_of_issues (h : Issues s c t f w) : wordReason (slotOf s c t).vmask w = none := by
  obtain ⟨_, _, _, _, _, _, _, _, _, _, hstat, _, _⟩ := h
  simp only [staticReason, List.min?_eq_none_iff, List.append_eq_nil_iff] at hstat
  obtain ⟨⟨h1, -⟩, -⟩ := hstat
  split at h1
  · exact absurd h1 (by simp)
  · assumption

/-- A word that is no vector word keeps the ranges of its fields (R145, R148, R155, R156). -/
theorem plainRange_of_issues (h : Issues s c t f w) (hv : isVec w = false) : plainRange w = false := by
  have hr := wordReason_of_issues h
  simp only [wordReason, hv, Bool.false_eq_true, if_false] at hr
  split at hr
  · cases hr
  · split at hr
    · cases hr
    · split at hr
      · cases hr
      · split at hr
        · cases hr
        · simp_all

/-- The check at issue that an issuing word passes (R466). -/
theorem dynFault_of_issues (h : Issues s c t f w) : dynFault s c t (slotOf s c t).pc w = none := by
  obtain ⟨_, _, _, _, _, _, _, _, _, _, _, _, hdyn⟩ := h
  exact Option.isNone_iff_eq_none.1 hdyn

theorem floeFor_of_issues (h : Issues s c t f w) : floeFor s c t = some f := by obtain ⟨_, _, _, hf, _⟩ := h; exact hf

theorem floe_lt_of_issues (h : Issues s c t f w) : f < 32 := floeFor_lt (floeFor_of_issues h)

/-- The registers that an issue notes lie in the blocks of the service complex and of a cluster. -/
theorem issueRegs_range (hc : c < 256) (hf : f < 32) {off : Nat} (h : off ∈ issueRegs c f) : 0x40_0000 ≤ off ∧ off < 0x200_0000 := by
  simp only [issueRegs, List.mem_cons, List.not_mem_nil, or_false, rFLOE_STAT, rTRC_STAT, clusterBase, svcBase] at h
  omega

theorem not_mem_issueRegs_of_core (hc : c < 256) (hf : f < 32) {off : Nat} (h : 0x200_0000 ≤ off) : off ∉ issueRegs c f :=
  fun e => absurd (issueRegs_range hc hf e).2 (by omega)

theorem not_mem_issueRegs_of_package (hc : c < 256) (hf : f < 32) {off : Nat} (h : off < 0x40_0000) : off ∉ issueRegs c f :=
  fun e => absurd (issueRegs_range hc hf e).1 (by omega)

/-- A frame whose registers lie outside the cluster blocks leaves the floe definitions alone. -/
theorem floeFor_of_frame {l : List Nat} {s' : State} (h : Frame l s s') (_hc : c < 256) (hl : ∀ off ∈ l, off < 0x100_0000 ∨ 0x200_0000 ≤ off) (u : Nat) :
    floeFor s' c u = floeFor s c u := by
  refine floeFor_congr (fun g hg => h.getR_eq fun e => ?_) u
  have := hl _ e
  simp only [rFLOE_DEF, clusterBase] at this
  omega

theorem coreBase_le (c k : Nat) : 0x200_0000 ≤ coreBase c + k := by unfold coreBase; omega

-- ledgers -------------------------------------------------------------------------------------------------------------------------

/-- A 64-bit register reads what was written to it. -/
theorem getR64_setR64 (s : State) (off v : Nat) : getR64 (setR64 s off v) off = v % 2 ^ 64 := by
  simp only [getR64, setR64, getR_setR_same, BitVec.toNat_ofNat]
  rw [getR_setR_other _ _ (show off ≠ off + 4 by omega), getR_setR_same, BitVec.toNat_ofNat]
  omega

theorem getR64_setR64_other (s : State) {off off' : Nat} (v : Nat) (h : off' + 8 ≤ off ∨ off + 8 ≤ off') :
    getR64 (setR64 s off v) off' = getR64 s off' := by
  simp only [getR64, setR64]
  rw [getR_setR_other _ _ (by omega), getR_setR_other _ _ (by omega), getR_setR_other _ _ (by omega), getR_setR_other _ _ (by omega)]

theorem getR64_congr {s t : State} (h : t.regs = s.regs) (off : Nat) : getR64 t off = getR64 s off := by simp only [getR64, getR_congr h]

theorem frame_ledIssue {l : List Nat} (s : State) {q : Nat} (h : ledgerBase q ∈ l) (h' : ledgerBase q + 4 ∈ l) (n : Nat) : Frame l s (ledIssue s q n) :=
  frame_setR64 s h h' _

/-- A token issued counts in ISSUED (R419). -/
theorem issued_ledIssue (s : State) (q n : Nat) : getR64 (ledIssue s q n) (ledgerBase q) = (getR64 s (ledgerBase q) + n) % 2 ^ 64 := by
  rw [ledIssue, add64, getR64_setR64, Nat.mod_mod]

end Sys2Proof.Safety
end

section
/-! PROOF. WAITC and SIGC (O14). -/

namespace Sys2Proof.Safety

open Sys2Proof.Machine

variable {s : State} {c t f w : Nat}

theorem wordEffect_waitc (h : wOp w = .waitc) (i : Nat) : wordEffect s c t i w = waitcRun s c t w := by simp [wordEffect, actEarly, actMid, h]
theorem wordEffect_sigc (h : wOp w = .sigc) (i : Nat) : wordEffect s c t i w = sigcRun s c w := by simp [wordEffect, actEarly, actMid, h]

/-- A WAITC that issues may take its units: from the available count where the slot has no reservation (R216). -/
theorem count_le_avail_of_waitc (hi : Issues s c t f w) (hop : wOp w = .waitc) (hr : (slotOf s c t).resv = none) : synCount w ≤ ctrAvail s c (synCtr w) := by
  have hd := dynFault_of_issues hi
  simp only [dynFault, hop] at hd
  split at hd
  · cases hd
  · split at hd
    · rename_i h; simpa [waitcCan, hr] using h
    · cases hd

/-- What WAITC does: VALUE falls by k and the reservation ends (R216). -/
theorem frame_waitcRun (s : State) (c t w : Nat) : Frame [rCTR_VAL c (synCtr w)] s (waitcRun s c t w) :=
  (frame_setF s (List.mem_singleton.2 rfl) _ _ _).trans (frame_modCore _ _ c _)

theorem slotStep_waitcRun (s : State) (c t w : Nat) : SlotStep c t (setF s (rCTR_VAL c (synCtr w)) 0 16 (ctrValue s c (synCtr w) - synCount w)) (waitcRun s c t w) := by
  unfold waitcRun
  exact slotStep_modSlot _ c t _

theorem slotOf_waitcRun (hr : (slotOf s c t).resv = none) : slotOf (waitcRun s c t w) c t = { slotOf s c t with wait := none } := by
  have : slotOf (waitcRun s c t w) c t = { slotOf s c t with resv := none, wait := none } := slotOf_modSlot_same _ c t _
  rw [this, ← hr]

/-- SIGC sends one signal. -/
def sigcSignal (s : State) (c w : Nat) : Sig :=
  coreSignal s c (if sigLocal w = 1 then c else sigCore w) (synCtr w) (synCount w) (sigGen w) 1 (sigLocal w == 1)

theorem sigcRun_eq (s : State) (c w : Nat) : sigcRun s c w = coreSend s c (sigcSignal s c w) := by
  simp [sigcRun, sigcSignal]

/-- An item that enters a core's crossing queue stands behind what waits there. -/
theorem outOf_coreOut (s : State) (c marks : Nat) (load : NetLoad) :
    ∃ i : NetItem, i.load = load ∧ i.marks = marks ∧ i.age = 0 ∧
      outOf (coreOut s c marks load) (outKey (c / 8) (c % 8) (c % 8)) = outOf s (outKey (c / 8) (c % 8) (c % 8)) ++ [i] :=
  ⟨(netItem s marks load).1, rfl, rfl, rfl, by simp [coreOut, outPush, netItem, drawFree, outOf, setOut]⟩

theorem frame_coreOut (l : List Nat) (s : State) (c marks : Nat) (load : NetLoad) : Frame l s (coreOut s c marks load) := ⟨fun _ => rfl, fun _ _ => rfl, rfl, rfl⟩

/-- A signal that leaves a core issues a token and changes no core (R213, R419). -/
theorem frame_coreSend (s : State) (c : Nat) (g : Sig) : Frame [ledgerBase qCTR, ledgerBase qCTR + 4] s (coreSend s c g) := by
  unfold coreSend sendSignal
  split
  · exact Frame.trans ⟨fun _ => rfl, fun _ _ => rfl, rfl, rfl⟩ (frame_ledIssue _ (by simp) (by simp) 1)
  · exact (frame_coreOut _ s c 0 _).trans (frame_ledIssue _ (by simp) (by simp) 1)

theorem cores_coreSend (s : State) (c : Nat) (g : Sig) : (coreSend s c g).cores = s.cores := by
  unfold coreSend
  split <;> rfl

theorem issued_coreSend (s : State) (c : Nat) (g : Sig) : getR64 (coreSend s c g) (ledgerBase qCTR) = (getR64 s (ledgerBase qCTR) + 1) % 2 ^ 64 := by
  unfold coreSend sendSignal
  split <;> rw [issued_ledIssue] <;> rfl

/-- Within the cluster a signal is on its way at once (R213). -/
theorem signals_coreSend_near (s : State) {c : Nat} {g : Sig} (h : g.core / 8 = c / 8) : (coreSend s c g).signals = s.signals ++ [g] := by
  rw [coreSend, if_pos h]
  rfl

/-- A signal to another cluster enters the core's crossing queue (R195, R289). -/
theorem coreSend_far (s : State) {c : Nat} {g : Sig} (h : g.core / 8 ≠ c / 8) :
    (coreSend s c g).signals = s.signals ∧ (coreSend s c g).net = (coreOut s c 0 (.sig g)).net := by
  rw [coreSend, if_neg h]
  exact ⟨rfl, rfl⟩

theorem outOf_congr {s t : State} (h : t.net = s.net) (k : Nat) : outOf t k = outOf s k := by rw [outOf, outOf, h]

/-- Settles O14: the effects of WAITC and of SIGC (`frame_waitcRun`, `frame_coreSend`), with the slot's step (`wordDone_of_issues`). -/
theorem waitcSubtractsSigcSends : Obligations.WaitcSubtractsSigcSends := by
  unfold Obligations.WaitcSubtractsSigcSends
  intro core s t f w hi
  have hf := floe_lt_of_issues hi
  have hc := core.isLt
  constructor
  · intro hop hr
    refine ⟨count_le_avail_of_waitc hi hop hr, _, rfl, ?_⟩
    have hfr := frame_waitcRun s core t w
    have hw : wordEffect s core t (slotOf s core t).pc w = waitcRun s core t w := wordEffect_waitc hop _
    have hd := wordDone_of_issues (lead := (· = .waitc)) hi (by simp [hop, actOps]) (by simp [hop])
      (by rw [hw]; exact floeFor_of_frame hfr hc (by simp [rCTR_VAL, coreBase]; omega) t)
    rw [hw] at hd
    have hreg : rCTR_VAL core (synCtr w) ∉ issueRegs core f := not_mem_issueRegs_of_core hc hf (by unfold rCTR_VAL coreBase; omega)
    have hval : ctrValue s core (synCtr w) < 2 ^ 16 := bits_lt _ _ _
    obtain ⟨_, hcores, _, hslots⟩ := slotStep_waitcRun s core t w
    refine ⟨hd.frame hfr, hd.otherCores hcores, hd.otherSlots hslots, ?_, ?_, ?_⟩
    · rw [StepsOn, hd.slot (by simp [hop, jumpOps]), slotOf_waitcRun hr]
      rfl
    · rw [ctrValue, hd.getF_eq hreg]
      change getF (setF s (rCTR_VAL core (synCtr w)) 0 16 _) _ 0 16 = _
      rw [getF_setF_same _ _ _ _ _ (by decide)]
      omega
    · rw [ctrGen, hd.getF_eq hreg]
      exact getF_setF_otherField s _ 0 16 _ 16 4 (by decide) (by decide)
  · intro hop
    refine ⟨_, rfl, ?_⟩
    have hw : wordEffect s core t (slotOf s core t).pc w = coreSend s core (sigcSignal s core w) := (wordEffect_sigc hop _).trans (sigcRun_eq s core w)
    generalize hg : sigcSignal s core w = g at hw
    have hfr := frame_coreSend s core g
    have hd := wordDone_of_issues (lead := (· = .sigc)) hi (by simp [hop, actOps]) (by simp [hop])
      (by rw [hw]; exact floeFor_of_frame hfr hc (by simp [ledgerBase, qCTR]) t)
    rw [hw] at hd
    have hco := fun k => coreOf_congr (cores_coreSend s core g) k
    have hlow : ∀ off, off < 0x40_0000 → off ∉ issueRegs core f := fun off hk => not_mem_issueRegs_of_package hc hf hk
    have hsig : (sequencer s core (· = .sigc)).signals = (coreSend s core g).signals := by obtain ⟨r, co, tr, fl, e⟩ := hd.same; rw [e]
    have hnet : (sequencer s core (· = .sigc)).net = (coreSend s core g).net := by obtain ⟨r, co, tr, fl, e⟩ := hd.same; rw [e]
    refine ⟨hd.frame hfr, hd.otherCores fun k _ => hco k, hd.stepsOn (by simp [hop, jumpOps]) (by rw [slotOf, slotOf, hco]), ?_, g, ?_⟩
    · rw [hd.getR64_eq (hlow _ (by decide)) (hlow _ (by decide)), issued_coreSend]
    · subst hg
      refine ⟨rfl, rfl, rfl, rfl, rfl, rfl, fun h => hsig.trans (signals_coreSend_near s h), fun h => ?_⟩
      obtain ⟨h1, h2⟩ := coreSend_far s h
      refine ⟨hsig.trans h1, fun k hk => ?_⟩
      subst hk
      obtain ⟨i, hl, -, -, ho⟩ := outOf_coreOut s core 0 (.sig (sigcSignal s core w))
      exact ⟨i, hl, by rw [outOf_congr (hnet.trans h2), ho]⟩

/-- Core 0 at a SEND of s2 and s3, where a RECV behind a waiting vector word has put 5 into s2 (R92). -/
def sSendPut : State := Sys2Proof.Tests.queue [{ Sys2Proof.Tests.ent Sys2Proof.Tests.wAdd with puts := [(2, 5#64)] }] Sys2Proof.Tests.sSend

end Sys2Proof.Safety
end

section
/-! PROOF. What SEND reads of a scalar register (O16): like LOOP (O5), the value that a RECV behind waiting vector words has put there (R92). -/

namespace Sys2Proof.Safety

open Sys2Proof.Machine Sys2Proof.Tests

theorem issues_sSendPut : Issues sSendPut 0 0 0 wSend := by unfold Issues; decide +kernel

/-- Refutes O16: where a RECV behind a waiting vector word has put 5 into s2, the message that SEND forms holds 5 in its first payload word, while the bits of s2 are 11. -/
theorem not_sendTakesACreditAndLeaves : ¬ Obligations.SendTakesACreditAndLeaves := by
  intro h
  obtain ⟨s', hexec, _, _, _, _, _, m, hcore, _, _, _, hnear, _, _, _, _, hpay, _⟩ :=
    h 0 sSendPut 0 0 wSend issues_sSendPut (by decide) (by decide +kernel) (by decide +kernel) (by decide +kernel)
  obtain rfl : sequencer sSendPut 0 (· = .send) = s' := Host.Outcome.next.inj hexec
  have hfl := hnear (by rw [hcore]; decide +kernel)
  obtain rfl : ((sequencer sSendPut 0 (· = .send)).flights.getD 0 ⟨0, 0, 0, [], 0, none, 0⟩) = m := by
    rw [hfl]
    have : sSendPut.flights = [] := by decide +kernel
    rw [this]
    rfl
  exact absurd (hpay 0 (by decide)) (by decide +kernel)

end Sys2Proof.Safety
end

section
/-! PROOF. YIELD and HALT (O7): what a switch point and the end of a task leave, on a slot that owns nothing. -/

namespace Sys2Proof.Safety

open Sys2Proof.Machine

variable {s s' : State} {c t f w : Nat}

/-- What leaving the running slot may write: its TASK_STAT and the notes of an issue. -/
def leaveRegs (c t f : Nat) : List Nat := rTASK_STAT c t :: issueRegs c f

theorem not_mem_leaveRegs (hc : c < 256) (hf : f < 32) {off : Nat} (ho : 0x200_0000 ≤ off) (hne : off ≠ rTASK_STAT c t) : off ∉ leaveRegs c t f := by
  rw [leaveRegs, List.mem_cons, not_or]
  exact ⟨hne, not_mem_issueRegs_of_core hc hf ho⟩

theorem rTASK_STAT_ge (c t : Nat) : 0x200_0000 ≤ rTASK_STAT c t := by unfold rTASK_STAT coreBase; omega

theorem tsw_of_leave (hc : c < 256) (hf : f < 32) (h : Frame (leaveRegs c t f) s s') : tsw s' c = tsw s c :=
  getB_congr (h.getR_eq (not_mem_leaveRegs hc hf (by unfold rCORE_CTL coreBase; omega) (by unfold rCORE_CTL rTASK_STAT; omega))) 0

theorem chooseReady_of_leave (hc : c < 256) (hf : f < 32) (ht : t < 4) (h : Frame (leaveRegs c t f) s s') : chooseReady s' c t = chooseReady s c t := by
  have key : ∀ u, u < 4 → u ≠ t → slotState s' c u = slotState s c u := fun u hu hne =>
    h.getF_eq (not_mem_leaveRegs hc hf (rTASK_STAT_ge c u) (rTASK_STAT_ne hu ht fun e => hne (Prod.mk.inj e).2)) 0 3
  simp only [chooseReady, List.find?_cons, List.find?_nil, key _ (Nat.mod_lt (t + 1) (by decide)) (by omega),
    key _ (Nat.mod_lt (t + 2) (by decide)) (by omega), key _ (Nat.mod_lt (t + 3) (by decide)) (by omega)]

theorem frame_setCause (s : State) (c t cause index : Nat) : Frame [rTASK_STAT c t] s (setCause s c t cause index) :=
  (frame_setF s (List.mem_singleton.2 rfl) _ _ _).trans (frame_setF _ (List.mem_singleton.2 rfl) _ _ _)

theorem setCause_cores (s : State) (c t cause index : Nat) : (setCause s c t cause index).cores = s.cores := by simp [setCause]

theorem floeFor_of_stat (hc : c < 256) (h : Frame [rTASK_STAT c t] s s') : floeFor s' c t = floeFor s c t :=
  floeFor_of_frame h hc (fun off ho => .inr (by rw [List.mem_singleton] at ho; rw [ho]; exact rTASK_STAT_ge c t)) t

theorem annotated_quiesceReason (h : floeFor s c t = some f) : Annotated c f s (quiesceReason s c t) := by
  unfold quiesceReason
  split
  · exact Annotated.refl c f s
  · exact annotated_setReason h _

/-- A state in which slot t of core c leaves with a state of its own, and in which the core may hold a switch. -/
structure Leaves (s s' : State) (c t f st : Nat) (sw : Option Switch) : Prop where
  frame : Frame (leaveRegs c t f) s s'
  cores : OtherCores c s s'
  core : coreOf s' c = { coreOf s c with switch := sw }
  state : slotState s' c t = st

theorem Leaves.slotOf_eq {st : Nat} {sw : Option Switch} (h : Leaves s s' c t f st sw) (u : Nat) : slotOf s' c u = slotOf s c u := by
  rw [slotOf, slotOf, h.core]

/-- A switch that stands, with the note of what its slot quiesces under. -/
theorem leaves_of_switch {s1 : State} {st : Nat} (hc : c < 256) (hf : f < 32) (h : Frame (leaveRegs c t f) s s1)
    (hd : floeFor s1 c t = some f) (hk : s1.cores = s.cores) (hst : slotState s1 c t = st) (x : Switch) :
    Leaves s (quiesceReason (modCore s1 c fun k => { k with switch := some x }) c t) c t f st (some x) := by
  have ha := annotated_quiesceReason (s := modCore s1 c fun k => { k with switch := some x }) (t := t) (by rw [floeFor_of_regs (modCore_regs s1 c _), hd])
  constructor
  case frame => exact (h.trans (frame_modCore _ s1 c _)).trans (ha.frame.mono (List.subset_cons_self _ _))
  case cores => exact fun k hk' => by rw [ha.coreOf_eq, coreOf_modCore_other _ _ hk', coreOf_congr hk]
  case core => rw [ha.coreOf_eq, coreOf_modCore_same, coreOf_congr hk]
  case state => rw [slotState, ha.getF_eq (not_mem_issueRegs_of_core hc hf (rTASK_STAT_ge c t)), getF_congr (modCore_regs s1 c _), ← slotState, hst]

theorem leaves_beginSwitch {st : Nat} (hc : c < 256) (hfl : floeFor s c t = some f) (u cause index : Nat) (hst : st < 8) :
    Leaves s (beginSwitch (setCause s c t cause index) c t u st) c t f st (some { out := t, inn := u, quiet := false }) := by
  have h1 : Frame [rTASK_STAT c t] s (setSlotState (setCause s c t cause index) c t st) :=
    (frame_setCause s c t cause index).trans (frame_setF _ (List.mem_singleton.2 rfl) _ _ _)
  refine leaves_of_switch hc (floeFor_lt hfl) (h1.mono (by simp [leaveRegs])) ((floeFor_of_stat hc h1).trans hfl) ?_ ?_ _
  · rw [setSlotState, setF_cores, setCause_cores]
  · rw [slotState_setSlotState_same, Nat.mod_eq_of_lt hst]

-- HALT ---------------------------------------------------------------------------------------------------------------------------

/-- A slot that owns no counter, no reference and no closing end, and holds no reservation: its task ends without a trace on its core (R134, R222, R230, R235). -/
structure OwnsNothing (s : State) (c t : Nat) : Prop where
  ctrs : ctrsOf s c t = []
  resv : (slotOf s c t).resv = none
  mres : (slotOf s c t).mres = none
  ends : ∀ e, e < 16 → getF s (rICH_CFG c e) 13 2 = t → getB s (rICH_REPLY c e) 0 = false ∧ getB s (rICH_CFG c e) 15 = false

/-- A fold whose steps leave the state as it was. -/
theorem foldl_eq_self {α β : Type*} {g : α → β → α} {a : α} {l : List β} (h : ∀ b ∈ l, g a b = a) : l.foldl g a = a := by
  induction l with
  | nil => rfl
  | cons b l ih => rw [List.foldl_cons, h b (List.mem_cons_self ..), ih fun x hx => h x (List.mem_cons_of_mem _ hx)]

theorem nullReply_of_none {e : Nat} (h : getB s (rICH_REPLY c e) 0 = false) (count : Bool) : nullReply s c e count = s := by
  have h0 : bits (getR64 s (rICH_REPLY c e)) 0 1 = 0 := by
    rw [bits_eq_div_mod, getR64]
    have : bits (getR s (rICH_REPLY c e)).toNat 0 1 = 0 := by
      rcases bits_one_cases (getR s (rICH_REPLY c e)).toNat 0 with h' | h'
      · exact h'
      · simp [getB, getF, h'] at h
    rw [bits_eq_div_mod] at this
    omega
  simp [nullReply, h0]

theorem nullRepliesOf_of_none (h : ∀ e, e < 16 → getF s (rICH_CFG c e) 13 2 = t → getB s (rICH_REPLY c e) 0 = false) : nullRepliesOf s c t = s := by
  refine foldl_eq_self fun e he => ?_
  split
  · rename_i ho; exact nullReply_of_none (h e (List.mem_range.1 he) ho) true
  · rfl

theorem autoClose_of_none (h : ∀ e, e < 16 → getF s (rICH_CFG c e) 13 2 = t → getB s (rICH_CFG c e) 15 = false) : autoClose s c t = s := by
  refine foldl_eq_self fun e he => ?_
  split
  · rename_i ho; simp [h e (List.mem_range.1 he) ho.1] at ho
  · rfl

/-- A halted slot, before the core's switch. -/
def halted (s : State) (c t : Nat) : State := setCause (setSlotState s c t 4) c t 0 0

theorem frame_halted (s : State) (c t : Nat) : Frame [rTASK_STAT c t] s (halted s c t) :=
  (frame_setF s (List.mem_singleton.2 rfl) _ _ _).trans (frame_setCause _ c t 0 0)

theorem halted_cores (s : State) (c t : Nat) : (halted s c t).cores = s.cores := setCause_setSlotState_cores s c t 4 0 0

theorem slotState_halted (s : State) (c t : Nat) : slotState (halted s c t) c t = 4 := by
  rw [halted, slotState_setCause, slotState_setSlotState_same]

theorem haltRun_of_ownsNothing (ht : t < 4) (h : OwnsNothing s c t) :
    haltRun s c t = (let s3 := setReason (halted s c t) c t 0
      if tsw s3 c then
        match chooseReady s3 c t with
        | some u => quiesceReason (modCore s3 c fun k => { k with switch := some { out := t, inn := u, quiet := false } }) c t
        | none => s3
      else s3) := by
  have hr : ∀ off, off ≠ rTASK_STAT c t → getR (halted s c t) off = getR s off := fun off ho =>
    (frame_halted s c t).getR_eq (by simpa using ho)
  have h1 : ctrResidue (halted s c t) c t = halted s c t := by
    rw [ctrResidue, (frame_halted s c t).ctrsOf_eq (fun n hn e => by rw [List.mem_singleton] at e; unfold rCTR_CFG rTASK_STAT at e; omega), h.ctrs]
    rfl
  have h2 : dropAllResv (halted s c t) c t = halted s c t := by
    have hs : slotOf (halted s c t) c t = slotOf s c t := slotOf_congr (halted_cores s c t) c t
    have h3 : dropResv (halted s c t) c t = halted s c t := by simp [dropResv, hs, h.resv]
    rw [dropAllResv, h3]
    simp [dropMres, hs, h.mres]
  have he : ∀ e, e < 16 → getF (halted s c t) (rICH_CFG c e) 13 2 = t →
      getB (halted s c t) (rICH_REPLY c e) 0 = false ∧ getB (halted s c t) (rICH_CFG c e) 15 = false := by
    intro e he
    have hcfg := hr (rICH_CFG c e) (by unfold rICH_CFG rTASK_STAT; omega)
    rw [getF, hcfg, ← getF, getB_congr (hr (rICH_REPLY c e) (by unfold rICH_REPLY rTASK_STAT; omega)), getB_congr hcfg]
    exact h.ends e he
  have h4 : nullRepliesOf (halted s c t) c t = halted s c t := nullRepliesOf_of_none fun e hl ho => (he e hl ho).1
  have h5 : autoClose (halted s c t) c t = halted s c t := autoClose_of_none fun e hl ho => (he e hl ho).2
  rw [haltRun, show setCause (setSlotState s c t 4) c t 0 0 = halted s c t from rfl, h1, h2, h4, h5] <;> rfl

theorem leaves_haltRun (hc : c < 256) (ht : t < 4) (hfl : floeFor s c t = some f) (hsw : (coreOf s c).switch = none) (h : OwnsNothing s c t) :
    Leaves s (haltRun s c t) c t f 4 (match (if tsw s c then chooseReady s c t else none) with | some u => some { out := t, inn := u, quiet := false } | none => none) := by
  have hf := floeFor_lt hfl
  have hd : floeFor (halted s c t) c t = some f := (floeFor_of_stat hc (frame_halted s c t)).trans hfl
  have ha := annotated_setReason hd 0
  have hfr : Frame (leaveRegs c t f) s (setReason (halted s c t) c t 0) :=
    ((frame_halted s c t).mono (by simp [leaveRegs])).trans (ha.frame.mono (List.subset_cons_self _ _))
  have hst : slotState (setReason (halted s c t) c t 0) c t = 4 := by
    rw [slotState, ha.getF_eq (not_mem_issueRegs_of_core hc hf (rTASK_STAT_ge c t)), ← slotState, slotState_halted]
  have hk : (setReason (halted s c t) c t 0).cores = s.cores := ha.cores.trans (halted_cores s c t)
  have hd' : floeFor (setReason (halted s c t) c t 0) c t = some f := by
    rw [← hd]
    exact floeFor_congr (fun g hg => ha.regs _ (floeDef_not_mem_issueRegs c hf hg)) t
  have hstay : Leaves s (setReason (halted s c t) c t 0) c t f 4 none :=
    ⟨hfr, fun k _ => coreOf_congr hk k, by rw [coreOf_congr hk, ← hsw], hst⟩
  rw [haltRun_of_ownsNothing ht h]
  simp only [tsw_of_leave hc hf hfr, chooseReady_of_leave hc hf ht hfr]
  split
  · split
    · exact leaves_of_switch hc hf hfr hd' hk hst _
    · exact hstay
  · exact hstay

-- the two words --------------------------------------------------------------------------------------------------------------------

theorem actGroup_of_halt (h : wOp w = .halt) (s : State) (c t i : Nat) :
    actGroup s c t [(i, w)] = (if slotState (afterVector s s c t i w) c t ≠ 2 then afterVector s s c t i w else haltRun (afterVector s s c t i w) c t) := by
  have hv : isVec w = false := by
    have key : ∀ n, n < 256 → opOf n = .halt → ¬ (if n / 16 = 5 then 4 else n / 16) = 4 := by decide +kernel
    exact decide_eq_false (key (wOP w) (bits_lt w 48 8) h)
  simp only [actGroup, List.foldl_cons, List.foldl_nil, actVec, hv, Bool.false_eq_true, if_false, actRecv, List.find?_cons, List.find?_nil, actEarly, actMid, h,
    List.any_cons, List.any_nil, List.headD_cons]
  rfl

theorem actGroup_of_yield (h : wOp w = .yieldW) (s : State) (c t i : Nat) :
    actGroup s c t [(i, w)] =
      (if slotState (afterVector s s c t i w) c t ≠ 2 then afterVector s s c t i w else switchPoint (afterVector s s c t i w) c t 1 3 0) := by
  have hv : isVec w = false := by
    have key : ∀ n, n < 256 → opOf n = .yieldW → ¬ (if n / 16 = 5 then 4 else n / 16) = 4 := by decide +kernel
    exact decide_eq_false (key (wOP w) (bits_lt w 48 8) h)
  simp only [actGroup, List.foldl_cons, List.foldl_nil, actVec, hv, Bool.false_eq_true, if_false, actRecv, List.find?_cons, List.find?_nil, actEarly, actMid, h,
    List.any_cons, List.any_nil, List.headD_cons]
  rfl

theorem running_of_issues (hi : Issues s c t f w) : t < 4 ∧ slotState s c t = 2 := by
  obtain ⟨_, _, hrun, _⟩ := hi
  exact ⟨List.mem_range.1 (List.mem_of_find?_eq_some hrun), by simpa using List.find?_some hrun⟩

/-- What an issue leaves for a switch point or the end of the task. -/
structure AtPoint (s s7 : State) (c t f : Nat) : Prop where
  frame : Frame (issueRegs c f) s s7
  cores : OtherCores c s s7
  slots : OtherSlots c t s s7
  core : ∃ l, coreOf s7 c = { coreOf s c with slots := l }
  steps : StepsOn s s7 c t
  floe : floeFor s7 c t = some f
  state : slotState s7 c t = 2

theorem atPoint_afterVector (hc : c < 256) (hi : Issues s c t f w) (hop : wOp w ∉ jumpOps) (i : Nat) : AtPoint s (afterVector s s c t i w) c t f := by
  have hfl := floeFor_of_issues hi
  have hd := wordDone_afterVector (s := s) hfl i w
  have hfr : Frame (issueRegs c f) s (afterVector s s c t i w) := hd.frame (Frame.refl [] s)
  constructor
  case frame => exact hfr
  case cores => exact hd.cores
  case slots => exact hd.slots
  case core => exact hd.core
  case steps => exact hd.stepsOn hop rfl
  case floe => exact (floeFor_congr (fun g hg => hd.regs _ (floeDef_not_mem_issueRegs c (floe_lt_of_issues hi) hg)) t).trans hfl
  case state =>
    rw [slotState, hd.getF_eq (not_mem_issueRegs_of_core hc (floe_lt_of_issues hi) (rTASK_STAT_ge c t)), ← slotState, (running_of_issues hi).2]

theorem AtPoint.leave (h : AtPoint s s' c t f) : Frame (leaveRegs c t f) s s' := h.frame.mono (List.subset_cons_self _ _)

theorem AtPoint.switch_eq (h : AtPoint s s' c t f) : (coreOf s' c).switch = (coreOf s c).switch := by obtain ⟨l, e⟩ := h.core; rw [e]

theorem AtPoint.mates_eq {s7 : State} (h : AtPoint s s7 c t f) (hfl : floeFor s c t = some f) : mates s7 c t = mates s c t := by
  have hd : ∀ b, getB s7 (rFLOE_DEF (c / 8) f) b = getB s (rFLOE_DEF (c / 8) f) b :=
    getB_congr (h.frame.getR_eq (floeDef_not_mem_issueRegs c (floeFor_lt hfl) (floeFor_lt hfl)))
  simp only [mates, h.floe, hfl, floeCores, hd]

theorem switchPoint_alone (hm : mates s c t = []) (hst : slotState s c t = 2) (hsw : (coreOf s c).switch = none) (st cause index : Nat) :
    switchPoint s c t st cause index = (if tsw s c then
      match chooseReady s c t with
      | some u => beginSwitch (setCause s c t cause index) c t u st
      | none => s else s) := by
  simp [switchPoint, hm, hst, hsw] <;> rfl

/-- What a slot that leaves after an issue has on its core. -/
theorem AtPoint.otherSlots_of_leaves {s7 : State} {st : Nat} {sw : Option Switch} (h : AtPoint s s7 c t f) (hl : Leaves s7 s' c t f st sw) :
    SameMem s s' ∧ OtherCores c s s' ∧ OtherSlots c t s s' ∧ StepsOn s s' c t :=
  ⟨(h.leave.trans hl.frame).1, fun k hk => (hl.cores k hk).trans (h.cores k hk), fun u hu => (hl.slotOf_eq u).trans (h.slots u hu),
    (hl.slotOf_eq t).trans h.steps⟩

/-- Settles O7: YIELD is a switch point of its slot alone; HALT of a slot that owns nothing changes only its state and the core's switch. -/
theorem yieldSwitchesAndHaltEnds : Obligations.YieldSwitchesAndHaltEnds := by
  unfold Obligations.YieldSwitchesAndHaltEnds
  intro core s t f w hi
  have hc := core.isLt
  have hf := floe_lt_of_issues hi
  obtain ⟨ht, hrun⟩ := running_of_issues hi
  have hfl := floeFor_of_issues hi
  have hsw : (coreOf s core).switch = none := by obtain ⟨_, h, _⟩ := hi; exact h
  constructor
  case left =>
    intro hop hm
    have hp := atPoint_afterVector hc hi (by rw [hop]; decide) (slotOf s core t).pc
    have hexec : exec (.yieldW core) s = .next (sequencer s core (· = .yieldW)) := rfl
    refine ⟨_, hexec, ?_⟩
    rw [sequencer_of_issues hi (by rw [hop]; decide), actGroup_of_yield hop, if_neg (not_not.2 hp.state),
      switchPoint_alone ((hp.mates_eq hfl).trans hm) hp.state (hp.switch_eq.trans hsw), tsw_of_leave hc hf hp.leave, chooseReady_of_leave hc hf ht hp.leave]
    by_cases hg : tsw s core = false ∨ chooseReady s core t = none
    · have hstay : (if tsw s core = true then match chooseReady s core t with
          | some u => beginSwitch (setCause (afterVector s s core t (slotOf s core t).pc w) core t 3 0) core t u 1
          | none => afterVector s s core t (slotOf s core t).pc w
          else afterVector s s core t (slotOf s core t).pc w) = afterVector s s core t (slotOf s core t).pc w := by
        rcases hg with h | h <;> simp [h]
      rw [hstay]
      refine ⟨hp.frame.1, hp.cores, hp.slots, hp.steps, fun _ => ⟨hp.frame, hp.state, hp.switch_eq.trans hsw⟩, fun u h1 h2 => ?_⟩
      rcases hg with h | h <;> simp [h] at h1 h2
    · obtain ⟨h1, h2⟩ := not_or.1 hg
      rw [Bool.not_eq_false] at h1
      obtain ⟨u, hu⟩ := Option.ne_none_iff_exists'.1 h2
      simp only [h1, if_true, hu]
      have hl := leaves_beginSwitch hc hp.floe u 3 0 (st := 1) (by decide)
      obtain ⟨hmem, hcores, hslots, hsteps⟩ := hp.otherSlots_of_leaves hl
      refine ⟨hmem, hcores, hslots, hsteps, fun h => ?_, fun v _ hv => ?_⟩
      · simp at h
      · cases hv
        exact ⟨hl.state, by rw [hl.core]⟩
  case right =>
    intro hop hctr hresv hmres hends
    have hp := atPoint_afterVector hc hi (by rw [hop]; decide) (slotOf s core t).pc
    have hcfg : ∀ off, 0x200_0000 ≤ off → getR (afterVector s s core t (slotOf s core t).pc w) off = getR s off :=
      fun off ho => hp.frame.getR_eq (not_mem_issueRegs_of_core hc hf ho)
    have hown : OwnsNothing (afterVector s s core t (slotOf s core t).pc w) core t := by
      constructor
      case ctrs => rw [hp.frame.ctrsOf_eq (fun n _ => not_mem_issueRegs_of_core hc hf (by unfold rCTR_CFG coreBase; omega)), hctr]
      case resv => rw [hp.steps]; exact hresv
      case mres => rw [hp.steps]; exact hmres
      case ends =>
        intro e he
        rw [getF, hcfg (rICH_CFG core e) (by unfold rICH_CFG coreBase; omega), ← getF, getB_congr (hcfg (rICH_CFG core e) (by unfold rICH_CFG coreBase; omega)),
          getB_congr (hcfg (rICH_REPLY core e) (by unfold rICH_REPLY coreBase; omega))]
        exact hends e he
    have hl := leaves_haltRun hc ht hp.floe (hp.switch_eq.trans hsw) hown
    have hexec : exec (.halt core) s = .next (sequencer s core (· = .halt)) := rfl
    refine ⟨_, hexec, ?_⟩
    rw [sequencer_of_issues hi (by rw [hop]; decide), actGroup_of_halt hop, if_neg (not_not.2 hp.state)]
    obtain ⟨hmem, hcores, hslots, -⟩ := hp.otherSlots_of_leaves hl
    rw [tsw_of_leave hc hf hp.leave, chooseReady_of_leave hc hf ht hp.leave] at hl
    refine ⟨hmem, hcores, hslots, hl.state, fun u h1 h2 => ?_, fun h1 => ?_⟩
    · rw [hl.core]
      simp [h1, h2]
    · rw [hl.core]
      simp [h1]

end Sys2Proof.Safety
end

section
/-! SUPPORT. What an event and its containment may do (R409 to R418), up to a fault of a slot, of its floe, its core or its cluster: the log, the reports, and slots that
enter FAULTED. -/

namespace Sys2Proof.Safety

open Sys2Proof.Machine

variable {s s' u : State}

/-- The registers that the log and the reports of an event may write: HOST_IRQ_STAT, the moraines and the service complex. -/
def LogReg (off : Nat) : Prop := (0x4_0048 ≤ off ∧ off < 0x4_0050) ∨ (0xC_0000 ≤ off ∧ off < 0x10_0000) ∨ (0x40_0000 ≤ off ∧ off < 0x100_0000)

/-- The registers that an event and its containment may write, but for FLOE_STAT and TASK_STAT: those of the log, and the ends of the cores. -/
def NoteReg (off : Nat) : Prop := LogReg off ∨ (0x200_0000 ≤ off ∧ 0xA00 ≤ off % 0x1_0000 ∧ off % 0x1_0000 < 0xC00)

/-- A register that no event writes: outside the notes, no FLOE_STAT and no TASK_STAT. -/
structure Spared (off : Nat) : Prop where
  note : ¬ NoteReg off
  floe : ∀ cl f, cl < 32 → f < 32 → off ≠ rFLOE_STAT cl f
  task : ∀ c t, t < 4 → off ≠ rTASK_STAT c t

/-- How a fault may move the state of a slot: a live one to FAULTED, a BLOCKED one to READY. -/
def Falls (a b : Nat) : Prop := b = a ∨ ((1 ≤ a ∧ a ≤ 3) ∧ b = 5) ∨ (a = 3 ∧ b = 1)

theorem Falls.trans {a b c : Nat} (h : Falls a b) (h' : Falls b c) : Falls a c := by unfold Falls at *; omega

/-- What an event and its containment may do. -/
structure Contained (s s' : State) : Prop where
  same : ∃ r co tr fl ho pi, s' = { s with regs := r, cores := co, trace := tr, floes := fl, host := ho, pins := pi }
  spared : ∀ off, Spared off → getR s' off = getR s off
  stat : ∀ cl f lo w, cl < 32 → f < 32 → 4 ≤ lo → getF s' (rFLOE_STAT cl f) lo w = getF s (rFLOE_STAT cl f) lo w
  state : ∀ c t, t < 4 → Falls (slotState s c t) (slotState s' c t)
  core : ∀ c, ∃ sl ri ow, coreOf s' c = { coreOf s c with slots := sl, rings := ri, owed := ow }
  pc : ∀ c t, (slotOf s' c t).pc = (slotOf s c t).pc

namespace Contained

theorem refl (s : State) : Contained s s :=
  ⟨⟨_, _, _, _, _, _, rfl⟩, fun _ _ => rfl, fun _ _ _ _ _ _ _ => rfl, fun _ _ _ => .inl rfl, fun _ => ⟨_, _, _, rfl⟩, fun _ _ => rfl⟩

theorem trans (h : Contained s s') (h' : Contained s' u) : Contained s u := by
  constructor
  case same =>
    obtain ⟨r, co, tr, fl, ho, pi, rfl⟩ := h.same
    obtain ⟨r', co', tr', fl', ho', pi', rfl⟩ := h'.same
    exact ⟨r', co', tr', fl', ho', pi', rfl⟩
  case spared => exact fun off ho => (h'.spared off ho).trans (h.spared off ho)
  case stat => exact fun cl f lo w hc hf hl => (h'.stat cl f lo w hc hf hl).trans (h.stat cl f lo w hc hf hl)
  case state => exact fun c t ht => (h.state c t ht).trans (h'.state c t ht)
  case core =>
    intro c
    obtain ⟨sl, ri, ow, e⟩ := h.core c
    obtain ⟨sl', ri', ow', e'⟩ := h'.core c
    exact ⟨sl', ri', ow', by rw [e', e]⟩
  case pc => exact fun c t => (h'.pc c t).trans (h.pc c t)

theorem sameMem (h : Contained s s') : SameMem s s' := by obtain ⟨r, co, tr, fl, ho, pi, rfl⟩ := h.same; exact fun _ => rfl
theorem signals (h : Contained s s') : s'.signals = s.signals := by obtain ⟨r, co, tr, fl, ho, pi, rfl⟩ := h.same; rfl

theorem getF_eq (h : Contained s s') {off : Nat} (ho : Spared off) (lo w : Nat) : getF s' off lo w = getF s off lo w := by
  rw [getF, getF, h.spared off ho]
theorem getB_eq (h : Contained s s') {off : Nat} (ho : Spared off) (b : Nat) : getB s' off b = getB s off b := getB_congr (h.spared off ho) b
theorem getR64_eq (h : Contained s s') {off : Nat} (ho : Spared off) (ho' : Spared (off + 4)) : getR64 s' off = getR64 s off := by
  rw [getR64, getR64, h.spared off ho, h.spared _ ho']

theorem ite {p : Prop} [Decidable p] (h : Contained s s') (h' : Contained s u) : Contained s (if p then s' else u) := by
  split
  · exact h
  · exact h'

/-- A list of steps that each contain a fault. -/
theorem foldl {α : Type*} {l : List α} {g : State → α → State} (hg : ∀ x, ∀ a ∈ l, Contained x (g x a)) (s : State) : Contained s (l.foldl g s) :=
  List.foldlRecOn (motive := Contained s) l _ (refl s) fun x h a ha => h.trans (hg x a ha)

end Contained

-- where registers lie ------------------------------------------------------------------------------------------------------------

theorem floeStat_ne_noteReg {off cl f : Nat} (h : NoteReg off) (_hc : cl < 32) (_hf : f < 32) : rFLOE_STAT cl f ≠ off := by
  unfold NoteReg LogReg at h
  unfold rFLOE_STAT clusterBase
  omega

theorem taskStat_ne_noteReg {off c t : Nat} (h : NoteReg off) (_ht : t < 4) : rTASK_STAT c t ≠ off := by
  unfold NoteReg LogReg at h
  unfold rTASK_STAT coreBase
  omega

theorem floeStat_ne_taskStat {cl f c t : Nat} (_hc : cl < 32) (_hf : f < 32) : rFLOE_STAT cl f ≠ rTASK_STAT c t := by
  unfold rFLOE_STAT clusterBase rTASK_STAT coreBase
  omega

/-- A register of a core below its ends and beside its TASK_STATs is spared. -/
theorem spared_of_core {off : Nat} (ho : 0x200_0000 ≤ off) (hl : off % 0x1_0000 < 0x200 ∨ (0x300 ≤ off % 0x1_0000 ∧ off % 0x1_0000 < 0xA00) ∨ 0xC00 ≤ off % 0x1_0000) :
    Spared off := by
  constructor
  case note => unfold NoteReg LogReg; omega
  case floe => intro cl f _ _; unfold rFLOE_STAT clusterBase; omega
  case task => intro c t _; unfold rTASK_STAT coreBase; omega

/-- A register of the package's blocks beside the host's interrupts and the moraines is spared. -/
theorem spared_of_package {off : Nat} (h : off < 0x4_0048 ∨ (0x4_0050 ≤ off ∧ off < 0xC_0000) ∨ (0x10_0000 ≤ off ∧ off < 0x40_0000)) : Spared off := by
  constructor
  case note => unfold NoteReg LogReg; omega
  case floe => intro cl f _ _; unfold rFLOE_STAT clusterBase; omega
  case task => intro c t _; unfold rTASK_STAT coreBase; omega

-- the steps of an event -------------------------------------------------------------------------------------------------------------

theorem contained_setR {off : Nat} (h : NoteReg off) (s : State) (v : BitVec 32) : Contained s (setR s off v) := by
  constructor
  case same => exact ⟨_, _, _, _, _, _, rfl⟩
  case spared => exact fun o ho => getR_setR_other s v fun e => ho.note (e ▸ h)
  case stat => exact fun cl f lo w hc hf _ => by rw [getF, getR_setR_other s v (floeStat_ne_noteReg h hc hf), getF]
  case state => exact fun c t ht => .inl (by rw [slotState, getF, getR_setR_other s v (taskStat_ne_noteReg h ht), ← getF, ← slotState])
  case core => exact fun c => ⟨_, _, _, rfl⟩
  case pc => exact fun c t => rfl

theorem contained_setF {off : Nat} (h : NoteReg off) (s : State) (lo w v : Nat) : Contained s (setF s off lo w v) := contained_setR h s _

theorem contained_setR64 {off : Nat} (h : NoteReg off) (h' : NoteReg (off + 4)) (s : State) (v : Nat) : Contained s (setR64 s off v) :=
  (contained_setR h s _).trans (contained_setR h' _ _)

theorem contained_satF {off : Nat} (h : NoteReg off) (s : State) (lo w n : Nat) : Contained s (satF s off lo w n) := contained_setF h s lo w _

theorem contained_setFloe (s : State) (cl f : Nat) (x : FloeSt) : Contained s (setFloe s cl f x) :=
  ⟨⟨_, _, _, _, _, _, rfl⟩, fun _ _ => rfl, fun _ _ _ _ _ _ _ => rfl, fun _ _ _ => .inl rfl, fun _ => ⟨_, _, _, rfl⟩, fun _ _ => rfl⟩

/-- The reason field of a FLOE_STAT. -/
theorem contained_setReasonField (s : State) {cl f : Nat} (hc : cl < 32) (hf : f < 32) (r : Nat) : Contained s (setF s (rFLOE_STAT cl f) 0 4 r) := by
  constructor
  case same => exact ⟨_, _, _, _, _, _, rfl⟩
  case spared => exact fun o ho => getR_setF_other s 0 4 r (ho.floe cl f hc hf)
  case stat =>
    intro cl' f' lo w _ _ hl
    by_cases e : rFLOE_STAT cl' f' = rFLOE_STAT cl f
    · rw [e]; exact getF_setF_otherField s _ 0 4 r lo w (by decide) (.inr hl)
    · exact getF_setF_otherReg s 0 4 r lo w e
  case state => exact fun c t ht => .inl (getF_setF_otherReg s 0 4 r 0 3 (floeStat_ne_taskStat hc hf).symm)
  case core => exact fun c => ⟨_, _, _, rfl⟩
  case pc => exact fun c t => rfl

theorem contained_setSlotState (s : State) {c t v : Nat} (ht : t < 4) (h : Falls (slotState s c t) (v % 8)) : Contained s (setSlotState s c t v) := by
  constructor
  case same => exact ⟨_, _, _, _, _, _, rfl⟩
  case spared => exact fun o ho => getR_setF_other s 0 3 v (ho.task c t ht)
  case stat => exact fun cl f lo w hc hf _ => getF_setF_otherReg s 0 3 v lo w (floeStat_ne_taskStat hc hf)
  case state =>
    intro k x hx
    by_cases e : (k, x) = (c, t)
    · cases e; rw [slotState_setSlotState_same]; exact h
    · exact .inl (slotState_setSlotState_other s v hx ht e)
  case core => exact fun c => ⟨_, _, _, rfl⟩
  case pc => exact fun c t => rfl

/-- A change of one core's slots, rings and owed replies that moves no pc. -/
theorem contained_modCore (s : State) (c : Nat) {g : CoreSt → CoreSt} (hg : ∀ k, ∃ sl ri ow, g k = { k with slots := sl, rings := ri, owed := ow })
    (hpc : ∀ t, (slotOf (modCore s c g) c t).pc = (slotOf s c t).pc) : Contained s (modCore s c g) := by
  constructor
  case same => exact ⟨_, _, _, _, _, _, rfl⟩
  case spared => exact fun _ _ => rfl
  case stat => exact fun _ _ _ _ _ _ _ => rfl
  case state => exact fun _ _ _ => .inl rfl
  case core =>
    intro k
    by_cases e : k = c
    · subst e; rw [coreOf_modCore_same]; exact hg _
    · rw [coreOf_modCore_other s g e]; exact ⟨_, _, _, rfl⟩
  case pc =>
    intro k t
    by_cases e : k = c
    · subst e; exact hpc t
    · rw [slotOf, coreOf_modCore_other s g e, ← slotOf]

theorem contained_modSlot (s : State) (c t : Nat) {g : SlotSt → SlotSt} (hg : ∀ x, (g x).pc = x.pc) : Contained s (modSlot s c t g) := by
  refine contained_modCore s c (fun k => ⟨_, _, _, rfl⟩) fun u => ?_
  by_cases e : u = t
  · subst e
    exact (congrArg SlotSt.pc (slotOf_modSlot_same s c u g)).trans (hg _)
  · exact congrArg SlotSt.pc (slotOf_setSlot_otherSlot s c _ e)

theorem slotState_modSlot (s : State) (c t : Nat) (g : SlotSt → SlotSt) (k u : Nat) : slotState (modSlot s c t g) k u = slotState s k u :=
  getF_congr (modSlot_regs s c t g) _ 0 3

theorem contained_setRing (s : State) (c e : Nat) (r : List RingMsg) : Contained s (setRing s c e r) :=
  contained_modCore s c (fun k => ⟨_, _, _, rfl⟩) fun t => by rw [slotOf, coreOf_modCore_same, slotOf]

theorem contained_oweReply (s : State) (c pkg core ich : Nat) (ws : List (BitVec 64)) : Contained s (oweReply s c pkg core ich ws) :=
  contained_modCore s c (fun k => ⟨_, _, _, rfl⟩) fun t => by rw [slotOf, coreOf_modCore_same, slotOf]

-- the log ---------------------------------------------------------------------------------------------------------------------------

/-- What the log and the reports of an event may do: no core, no floe and no memory changes. -/
structure Noted (s s' : State) : Prop where
  same : ∃ r tr ho pi, s' = { s with regs := r, trace := tr, host := ho, pins := pi }
  regs : ∀ off, ¬ LogReg off → getR s' off = getR s off

namespace Noted

theorem refl (s : State) : Noted s s := ⟨⟨_, _, _, _, rfl⟩, fun _ _ => rfl⟩

theorem trans (h : Noted s s') (h' : Noted s' u) : Noted s u := by
  obtain ⟨⟨r, tr, ho, pi, rfl⟩, hr⟩ := h
  obtain ⟨⟨r', tr', ho', pi', rfl⟩, hr'⟩ := h'
  exact ⟨⟨r', tr', ho', pi', rfl⟩, fun off h => (hr' off h).trans (hr off h)⟩

theorem ite {p : Prop} [Decidable p] (h : Noted s s') (h' : Noted s u) : Noted s (if p then s' else u) := by
  split
  · exact h
  · exact h'

theorem foldl {α : Type*} {l : List α} {g : State → α → State} (hg : ∀ x, ∀ a ∈ l, Noted x (g x a)) (s : State) : Noted s (l.foldl g s) :=
  List.foldlRecOn (motive := Noted s) l _ (refl s) fun x h a ha => h.trans (hg x a ha)

theorem cores (h : Noted s s') : s'.cores = s.cores := by obtain ⟨⟨r, tr, ho, pi, rfl⟩, -⟩ := h; rfl
theorem sameMem (h : Noted s s') : SameMem s s' := by obtain ⟨⟨r, tr, ho, pi, rfl⟩, -⟩ := h; exact fun _ => rfl

/-- A register that the log does not reach. -/
theorem getF_eq (h : Noted s s') {off : Nat} (ho : ¬ LogReg off) (lo w : Nat) : getF s' off lo w = getF s off lo w := by rw [getF, getF, h.regs off ho]

theorem contained (h : Noted s s') : Contained s s' := by
  have hst : ∀ cl f, cl < 32 → f < 32 → ¬ LogReg (rFLOE_STAT cl f) := by intro cl f _ _; unfold LogReg rFLOE_STAT clusterBase; omega
  have htk : ∀ c t, ¬ LogReg (rTASK_STAT c t) := by intro c t; unfold LogReg rTASK_STAT coreBase; omega
  have hcore : ∀ c, coreOf s' c = coreOf s c := coreOf_congr h.cores
  constructor
  case same =>
    obtain ⟨⟨r, tr, ho, pi, rfl⟩, -⟩ := h
    exact ⟨r, _, tr, _, ho, pi, rfl⟩
  case spared => exact fun off ho => h.regs off fun e => ho.note (.inl e)
  case stat => exact fun cl f lo w hc hf _ => h.getF_eq (hst cl f hc hf) lo w
  case state => exact fun c t _ => .inl (h.getF_eq (htk c t) 0 3)
  case core => exact fun c => ⟨_, _, _, hcore c⟩
  case pc => exact fun c t => by rw [slotOf, hcore, ← slotOf]

end Noted

theorem noted_setR {off : Nat} (h : LogReg off) (s : State) (v : BitVec 32) : Noted s (setR s off v) :=
  ⟨⟨_, _, _, _, rfl⟩, fun _ ho => getR_setR_other s v fun e => ho (e ▸ h)⟩

theorem noted_setF {off : Nat} (h : LogReg off) (s : State) (lo w v : Nat) : Noted s (setF s off lo w v) := noted_setR h s _

theorem noted_setR64 {off : Nat} (h : LogReg off) (h' : LogReg (off + 4)) (s : State) (v : Nat) : Noted s (setR64 s off v) :=
  (noted_setR h s _).trans (noted_setR h' _ _)

theorem noted_satF {off : Nat} (h : LogReg off) (s : State) (lo w n : Nat) : Noted s (satF s off lo w n) := noted_setF h s lo w _

theorem noted_of_same (h : ∃ tr ho pi, s' = { s with trace := tr, host := ho, pins := pi }) : Noted s s' := by
  obtain ⟨tr, ho, pi, rfl⟩ := h
  exact ⟨⟨_, _, _, _, rfl⟩, fun _ _ => rfl⟩

theorem noted_traceRec (s : State) {d : Nat} (hd : d < 4) (typ core slot floe fcyc w2 w3 : Nat) : Noted s (traceRec s d typ core slot floe fcyc w2 w3) := by
  unfold traceRec
  split
  · split
    · exact noted_of_same ⟨_, _, _, rfl⟩
    · exact noted_satF (by unfold LogReg rTRC_STAT svcBase; omega) s 16 16 1
  · exact Noted.refl s

theorem noted_traceOfFloe (s : State) {cl : Nat} (hc : cl < 32) (f typ w2 w3 : Nat) : Noted s (traceOfFloe s cl f typ w2 w3) := by
  unfold traceOfFloe
  split
  · exact noted_traceRec s (by omega) _ _ _ _ _ _ _
  · exact Noted.refl s

theorem noted_fillFirst (s : State) {d : Nat} (hd : d < 4) (tier : Nat) (e : Ev) : Noted s (fillFirst s d tier e) := by
  have h : ∀ k, k ≤ 40 → LogReg (rMLOG_FIRST d + k) ∧ LogReg (rMLOG_FIRST d + k + 4) := by
    intro k _; unfold LogReg rMLOG_FIRST mlogBase; omega
  have hset : ∀ k, k ≤ 40 → ∀ x v, Noted x (setR64 x (rMLOG_FIRST d + k) v) := fun k hk x v => noted_setR64 (h k hk).1 (h k hk).2 x v
  exact (((((hset 0 (by decide) _ _).trans (hset 8 (by decide) _ _)).trans (hset 16 (by decide) _ _)).trans (hset 24 (by decide) _ _)).trans
    (hset 32 (by decide) _ _)).trans (hset 40 (by decide) _ _)

theorem noted_msix (s : State) (v : Nat) : Noted s (msix s v) := by
  unfold msix
  split <;> exact noted_of_same ⟨_, _, _, rfl⟩

theorem noted_hostIrq (s : State) (b : Nat) : Noted s (hostIrq s b) := by
  have h : Noted s (setR64 s rHOST_IRQ_STAT (setBits (getR64 s rHOST_IRQ_STAT) b 1 1)) := noted_setR64 (by unfold LogReg; decide) (by unfold LogReg; decide) s _
  exact Noted.ite (h.trans (noted_msix _ b)) h

theorem noted_logEvent (s : State) {d : Nat} (hd : d < 4) (tier : Nat) {e : Ev} (_he : e.cls < 256) : Noted s (logEvent s d tier e) := by
  have hst : LogReg (rMLOG_STICKY d + 8 * (e.cls / 64)) ∧ LogReg (rMLOG_STICKY d + 8 * (e.cls / 64) + 4) := by
    unfold LogReg rMLOG_STICKY mlogBase; omega
  have hct : LogReg (rMLOG_COUNT d + 4 * (e.cls / 2)) := by unfold LogReg rMLOG_COUNT mlogBase; omega
  have hs : LogReg (rMLOG_STAT d) := by unfold LogReg rMLOG_STAT mlogBase; omega
  have hcount : ∀ x, Noted x (if getF x (rMLOG_COUNT d + 4 * (e.cls / 2)) (16 * (e.cls % 2)) 16 = 0xFFFF then setF x (rMLOG_STAT d) 4 1 1
      else setF x (rMLOG_COUNT d + 4 * (e.cls / 2)) (16 * (e.cls % 2)) 16 (getF x (rMLOG_COUNT d + 4 * (e.cls / 2)) (16 * (e.cls % 2)) 16 + 1)) :=
    fun x => Noted.ite (noted_setF hs x 4 1 1) (noted_setF hct x _ 16 _)
  have h3 := ((noted_setR64 hst.1 hst.2 s (setBits (getR64 s (rMLOG_STICKY d + 8 * (e.cls / 64))) (e.cls % 64) 1 1)).trans (hcount _)).trans
    (noted_setF hs _ e.sev 1 1)
  exact Noted.ite h3 (h3.trans (noted_fillFirst _ hd tier e))

theorem noted_setAlert (s : State) : Noted s (setAlert s) := noted_of_same ⟨_, _, _, rfl⟩

/-- The interrupts of the control cores of a die. -/
theorem noted_ccIrqs (s : State) {d : Nat} (_hd : d < 4) : Noted s ((List.range 4).foldl (fun s k => setF s (rCC_IRQ_STAT (4 * d + k)) 0 1 1) s) := by
  refine Noted.foldl (fun x k hk => noted_setF ?_ x 0 1 1) s
  have := List.mem_range.1 hk
  unfold LogReg rCC_IRQ_STAT rCC_CTL svcBase
  omega

theorem noted_reportEvent (s : State) {d : Nat} (hd : d < 4) (e : Ev) : Noted s (reportEvent s d e) := by
  have h1 : Noted s (if getF s (rMLOG_SEV_CTL d) 2 2 ≤ e.sev then hostIrq s (2 + d) else s) := Noted.ite (noted_hostIrq s _) (Noted.refl s)
  exact (h1.trans (Noted.ite (noted_ccIrqs _ hd) (Noted.refl _))).trans (noted_setAlert _)

-- stall reasons ------------------------------------------------------------------------------------------------------------------------

theorem contained_stallSince (s : State) (cl f r : Nat) : Contained s (stallSince s cl f r) := by
  unfold stallSince
  dsimp only
  split
  · exact Contained.refl s
  · exact contained_setFloe s cl f _

theorem contained_setFloeReason (s : State) {cl f : Nat} (hc : cl < 32) (hf : f < 32) (r : Nat) : Contained s (setFloeReason s cl f r) := by
  unfold setFloeReason
  split
  · exact contained_stallSince s cl f r
  · exact ((contained_setReasonField s hc hf r).trans (contained_stallSince _ cl f r)).trans (noted_traceOfFloe _ hc f _ _ _).contained

-- a slot enters FAULTED ----------------------------------------------------------------------------------------------------------------

theorem contained_readyMates (s : State) (c : Nat) {t : Nat} (ht : t < 4) : Contained s (readyMates s c t) := by
  refine Contained.foldl (fun x m _ => ?_) s
  split
  · rename_i h
    exact contained_setSlotState x ht (by rw [h.1]; exact .inr (.inr ⟨rfl, rfl⟩))
  · exact Contained.refl x

/-- A BLOCKED slot that has what it waits for becomes READY with its floe. -/
theorem contained_ready {c t : Nat} (ht : t < 4) (h : slotState s c t = 3) {g : SlotSt → SlotSt} (hg : ∀ x, (g x).pc = x.pc) :
    Contained s (readyMates (modSlot (setSlotState s c t 1) c t g) c t) :=
  ((contained_setSlotState s ht (by rw [h]; exact .inr (.inr ⟨rfl, rfl⟩))).trans (contained_modSlot _ c t hg)).trans (contained_readyMates _ c ht)

theorem contained_grantSlot (s : State) (c n : Nat) {t : Nat} (ht : t < 4) : Contained s (grantSlot s c n t) := by
  unfold grantSlot
  split
  · split
    · rename_i h
      exact contained_ready ht h.2.1 fun _ => by rfl
    · split
      · exact contained_readyMates s c ht
      · exact Contained.refl s
  · exact Contained.refl s

theorem contained_grantAll (s : State) (c n : Nat) : Contained s (grantAll s c n) :=
  (((contained_grantSlot s c n (by decide)).trans (contained_grantSlot _ c n (by decide))).trans (contained_grantSlot _ c n (by decide))).trans
    (contained_grantSlot _ c n (by decide))

theorem contained_dropResv (s : State) (c t : Nat) : Contained s (dropResv s c t) := by
  unfold dropResv
  split
  · exact (contained_modSlot s c t fun _ => by rfl).trans (contained_grantAll _ c _)
  · exact Contained.refl s

theorem contained_grantMsg (s : State) (c e : Nat) : Contained s (grantMsg s c e) := by
  refine Contained.foldl (fun x t ht => ?_) s
  have ht := List.mem_range.1 ht
  dsimp only
  split
  · rename_i hw
    have hs : slotState (setRing x c e (markMsg t (ringOf x c e))) c t = 3 := (getF_congr (modCore_regs x c _) _ 0 3).trans hw.2.1
    exact (contained_setRing x c e _).trans (contained_ready ht hs fun _ => by rfl)
  · split
    · exact contained_readyMates x c ht
    · exact Contained.refl x

theorem contained_dropMres (s : State) (c t : Nat) : Contained s (dropMres s c t) := by
  unfold dropMres
  split
  · rename_i e _
    have h := (contained_setRing s c e (unmarkMsg t (ringOf s c e))).trans (contained_modSlot _ c t (g := fun x => { x with mres := none }) fun _ => by rfl)
    dsimp only
    split
    · exact h.trans (contained_grantMsg _ c e)
    · exact h
  · exact Contained.refl s

theorem contained_dropAllResv (s : State) (c t : Nat) : Contained s (dropAllResv s c t) := (contained_dropResv s c t).trans (contained_dropMres _ c t)

theorem noteReg_ends (c : Nat) {e o : Nat} (_he : e < 16) (_ho : o < 0x20) : NoteReg (coreBase c + 0xA00 + o + 0x20 * e) := by
  unfold NoteReg LogReg coreBase
  omega

theorem contained_nullReply (s : State) (c : Nat) {e : Nat} (he : e < 16) (count : Bool) : Contained s (nullReply s c e count) := by
  have hrep : NoteReg (rICH_REPLY c e) ∧ NoteReg (rICH_REPLY c e + 4) := by unfold NoteReg LogReg rICH_REPLY coreBase; omega
  have hcnt : NoteReg (rICH_CNT2 c e) := by unfold NoteReg LogReg rICH_CNT2 coreBase; omega
  have hclear := contained_setR64 hrep.1 hrep.2 s 0
  unfold nullReply
  dsimp only
  split
  · exact Contained.refl s
  · split
    · exact (hclear.trans (contained_oweReply _ c _ _ _ _)).trans (contained_satF hcnt _ 16 16 1)
    · exact hclear.trans (contained_oweReply _ c _ _ _ _)

theorem contained_nullRepliesOf (s : State) (c t : Nat) : Contained s (nullRepliesOf s c t) := by
  refine Contained.foldl (fun x e he => ?_) s
  split
  · exact contained_nullReply x c (List.mem_range.1 he) true
  · exact Contained.refl x

theorem slotLive_iff (s : State) (c t : Nat) : slotLive s c t = true ↔ 1 ≤ slotState s c t ∧ slotState s c t ≤ 3 := by simp [slotLive]

theorem contained_faultSlot (s : State) (c : Nat) {t : Nat} (ht : t < 4) : Contained s (faultSlot s c t) := by
  unfold faultSlot
  split
  · rename_i h
    exact (((contained_setSlotState s ht (.inr (.inl ⟨(slotLive_iff s c t).1 h, rfl⟩))).trans (contained_modSlot _ c t fun _ => by rfl)).trans
      (contained_dropAllResv _ c t)).trans (contained_nullRepliesOf _ c t)
  · exact Contained.refl s

/-- A slot that was FAULTED stays so. -/
theorem Contained.faulted (h : Contained s s') {c t : Nat} (ht : t < 4) (h5 : slotState s c t = 5) : slotState s' c t = 5 := by
  have := h.state c t ht
  unfold Falls at this
  omega

/-- A live slot that faults is FAULTED. -/
theorem slotState_faultSlot {c t : Nat} (ht : t < 4) (h : slotLive s c t = true) : slotState (faultSlot s c t) c t = 5 := by
  rw [faultSlot, if_pos h]
  refine ((contained_dropAllResv _ c t).trans (contained_nullRepliesOf _ c t)).faulted ht ?_
  rw [slotState_modSlot, slotState_setSlotState_same]

/-- A slot that is live or FAULTED. -/
def LiveOrFaulted (s : State) (c t : Nat) : Prop := (1 ≤ slotState s c t ∧ slotState s c t ≤ 3) ∨ slotState s c t = 5

theorem Contained.liveOrFaulted (h : Contained s s') {c t : Nat} (ht : t < 4) (hl : LiveOrFaulted s c t) : LiveOrFaulted s' c t := by
  have := h.state c t ht
  unfold Falls at this
  unfold LiveOrFaulted at *
  omega

theorem faulted_faultSlot {c t : Nat} (ht : t < 4) (h : LiveOrFaulted s c t) : slotState (faultSlot s c t) c t = 5 := by
  rcases h with h | h
  · exact slotState_faultSlot ht ((slotLive_iff s c t).2 h)
  · exact (contained_faultSlot s c ht).faulted ht h

/-- Faults of a list of slots, one after another. -/
def faultAll (s : State) (ms : List (Nat × Nat)) : State := ms.foldl (fun s m => faultSlot s m.1 m.2) s

theorem faultAll_append (s : State) (l r : List (Nat × Nat)) : faultAll s (l ++ r) = faultAll (faultAll s l) r := List.foldl_append

theorem contained_faultAll {ms : List (Nat × Nat)} (hms : ∀ m ∈ ms, m.2 < 4) (s : State) : Contained s (faultAll s ms) :=
  Contained.foldl (fun x m hm => contained_faultSlot x m.1 (hms m hm)) s

/-- A list of faults that names a slot leaves it FAULTED. -/
theorem faulted_faultAll {c t : Nat} (ht : t < 4) {ms : List (Nat × Nat)} (hms : ∀ m ∈ ms, m.2 < 4) (hm : (c, t) ∈ ms) (h : LiveOrFaulted s c t) :
    slotState (faultAll s ms) c t = 5 := by
  obtain ⟨l, r, rfl⟩ := List.append_of_mem hm
  have hl := contained_faultAll (fun m hx => hms m (List.mem_append_left _ hx)) s
  have hr := contained_faultAll (fun m hx => hms m (List.mem_append_right _ (List.mem_cons_of_mem _ hx))) (faultSlot (faultAll s l) c t)
  rw [faultAll_append]
  exact hr.faulted ht (faulted_faultSlot ht (hl.liveOrFaulted ht h))

-- floes, cores and clusters stop -----------------------------------------------------------------------------------------------------------

theorem contained_stopFloe (s : State) {cl f : Nat} (hc : cl < 32) (hf : f < 32) : Contained s (stopFloe s cl f) :=
  ((contained_setFloeReason s hc hf 0).trans (contained_setFloe _ cl f {})).trans
    (contained_faultAll (fun _ hm => (mem_floeMembers hm).2) _)

theorem faulted_stopFloe {cl f c t : Nat} (hc : cl < 32) (hf : f < 32) (ht : t < 4) (hm : (c, t) ∈ floeMembers s cl f) (h : LiveOrFaulted s c t) :
    slotState (stopFloe s cl f) c t = 5 := by
  have hpre := (contained_setFloeReason s hc hf 0).trans (contained_setFloe _ cl f {})
  exact faulted_faultAll ht (fun m hm => (mem_floeMembers hm).2) hm (hpre.liveOrFaulted ht h)

/-- The floe of a slot has it for a member. -/
theorem mem_floeMembers_of_floeFor {c t f : Nat} (h : floeFor s c t = some f) : (c, t) ∈ floeMembers s (c / 8) f := by
  have hn := List.find?_some h
  simp only [floeNames, Bool.and_eq_true, decide_eq_true_eq] at hn
  obtain ⟨⟨-, hb⟩, hslot⟩ := hn
  simp only [floeMembers, floeCores, floeSlot, List.mem_map, List.mem_filter, List.mem_range]
  exact ⟨c, ⟨c % 8, ⟨Nat.mod_lt _ (by decide), hb⟩, Nat.div_add_mod c 8⟩, by rw [hslot]⟩

theorem contained_stopFloeOf (s : State) {c : Nat} {t : Nat} (hc : c < 256) (ht : t < 4) : Contained s (stopFloeOf s c t) := by
  unfold stopFloeOf
  split
  · split
    · rename_i h
      exact contained_stopFloe s (by omega) (floeFor_lt h)
    · exact contained_faultSlot s c ht
  · exact Contained.refl s

theorem faulted_stopFloeOf {c t : Nat} (hc : c < 256) (ht : t < 4) (h : slotLive s c t = true) : slotState (stopFloeOf s c t) c t = 5 := by
  rw [stopFloeOf, if_pos h]
  split
  · rename_i hf
    exact faulted_stopFloe (by omega) (floeFor_lt hf) ht (mem_floeMembers_of_floeFor hf) (.inl ((slotLive_iff s c t).1 h))
  · exact slotState_faultSlot ht h

/-- The stop of every floe that has a slot on a core. -/
def stopFloesOf (s : State) (c : Nat) : State := (List.range 32).foldl (fun s f =>
  if getB s (rFLOE_DEF (c / 8) f) 16 && getB s (rFLOE_DEF (c / 8) f) (c % 8) then stopFloe s (c / 8) f else s) s

theorem contained_stopFloesOf (s : State) {c : Nat} (hc : c < 256) : Contained s (stopFloesOf s c) :=
  Contained.foldl (fun x f hf => Contained.ite (contained_stopFloe x (by omega) (List.mem_range.1 hf)) (Contained.refl x)) s

theorem stopCore_eq (s : State) (c : Nat) : stopCore s c = faultAll (stopFloesOf s c) ((List.range 4).map fun t => (c, t)) := by
  rw [faultAll, List.foldl_map]
  rfl

theorem contained_stopCore (s : State) {c : Nat} (hc : c < 256) : Contained s (stopCore s c) := by
  rw [stopCore_eq]
  exact (contained_stopFloesOf s hc).trans (contained_faultAll (by simp) _)

theorem faulted_stopCore {c t : Nat} (hc : c < 256) (ht : t < 4) (h : LiveOrFaulted s c t) : slotState (stopCore s c) c t = 5 := by
  rw [stopCore_eq]
  exact faulted_faultAll ht (by simp) (by simpa using ht) ((contained_stopFloesOf s hc).liveOrFaulted ht h)

theorem contained_stopCluster (s : State) {cl : Nat} (_hc : cl < 32) : Contained s (stopCluster s cl) :=
  Contained.foldl (fun x r hr => contained_stopCore x (by have := List.mem_range.1 hr; omega)) s

/-- The stops of a list of cores of a cluster, one after another. -/
def stopCores (s : State) (cl : Nat) (l : List Nat) : State := l.foldl (fun s r => stopCore s (8 * cl + r)) s

theorem contained_stopCores {cl : Nat} {l : List Nat} (hl : ∀ r ∈ l, 8 * cl + r < 256) (s : State) : Contained s (stopCores s cl l) :=
  Contained.foldl (fun x r hr => contained_stopCore x (hl r hr)) s

theorem faulted_stopCluster {c t : Nat} (hc : c < 256) (ht : t < 4) (h : LiveOrFaulted s c t) : slotState (stopCluster s (c / 8)) c t = 5 := by
  have hm : c % 8 ∈ List.range 8 := List.mem_range.2 (Nat.mod_lt _ (by decide))
  obtain ⟨l, r, e⟩ := List.append_of_mem hm
  have hlt : ∀ x ∈ l ++ c % 8 :: r, 8 * (c / 8) + x < 256 := fun x hx => by have := List.mem_range.1 (e ▸ hx); omega
  have hl := contained_stopCores (fun x hx => hlt x (List.mem_append_left _ hx)) s
  have hr := contained_stopCores (fun x hx => hlt x (List.mem_append_right _ (List.mem_cons_of_mem _ hx))) (stopCore (stopCores s (c / 8) l) c)
  have heq : stopCluster s (c / 8) = stopCores (stopCore (stopCores s (c / 8) l) c) (c / 8) r := by
    rw [stopCluster, e, List.foldl_append, List.foldl_cons, Nat.div_add_mod]
    rfl
  rw [heq]
  exact hr.faulted ht (faulted_stopCore hc ht (hl.liveOrFaulted ht h))

-- the event -------------------------------------------------------------------------------------------------------------------------

/-- Up to a cluster's stop, what the containment of a slot's event may do. -/
theorem contained_contain (s : State) (d : Nat) {tier c t : Nat} (hc : c < 256) (ht : t < 4) {e : Ev} (ho : e.owner = some (c, t)) (htier : tier < 5) :
    Contained s (contain s d tier e) := by
  unfold contain
  rw [if_neg (by omega), ho]
  dsimp only
  split
  · exact Contained.refl s
  · split
    · exact contained_stopFloeOf s hc ht
    · split
      · exact contained_stopCore s hc
      · split
        · exact contained_stopCluster s (by omega)
        · exact Contained.refl s

theorem contain_unowned (s : State) (d : Nat) {tier : Nat} {e : Ev} (ho : e.owner = none) (htier : tier < 5) : contain s d tier e = s := by
  unfold contain
  rw [if_neg (by omega), ho]

theorem faulted_contain (d : Nat) {tier c t : Nat} (hc : c < 256) (ht : t < 4) {e : Ev} (ho : e.owner = some (c, t)) (htier : 2 ≤ tier) (htier' : tier < 5)
    (h : slotLive s c t = true) : slotState (contain s d tier e) c t = 5 := by
  have hl : LiveOrFaulted s c t := .inl ((slotLive_iff s c t).1 h)
  unfold contain
  rw [if_neg (by omega), ho]
  simp only [h, Bool.true_eq_false, if_false]
  split
  · exact faulted_stopFloeOf hc ht h
  · split
    · exact faulted_stopCore hc ht hl
    · rw [if_pos (by omega)]
      exact faulted_stopCluster hc ht hl

theorem evTier_le (s : State) (d : Nat) (e : Ev) : e.home ≤ (evTier s d e).1 ∨ 5 ≤ (evTier s d e).1 := by
  unfold evTier
  dsimp only
  split
  · dsimp only; omega
  · exact .inl (le_refl _)

theorem evTier_lt {d : Nat} {e : Ev} (h : e.home < 4) : (evTier s d e).1 < 5 := by
  unfold evTier
  dsimp only
  split
  · dsimp only; omega
  · dsimp only; omega

/-- The log of an event, its escalation and its trace record. -/
def logged (s : State) (d : Nat) (e : Ev) : State :=
  traceRec (if (evTier s d e).2 then satF (setF (logEvent s d (evTier s d e).1 e) (rMLOG_STAT d) 6 1 1) (rMLOG_STAT d) 16 16 1
    else logEvent s d (evTier s d e).1 e) d 3 0 0 0 0 (e.cls + 256 * e.sev) 0

theorem raiseEv_eq (s : State) (d : Nat) (e : Ev) : raiseEv s d e = reportEvent (contain (logged s d e) d (evTier s d e).1 e) d e := rfl

theorem noted_logged (s : State) {d : Nat} (hd : d < 4) {e : Ev} (he : e.cls < 256) : Noted s (logged s d e) := by
  have hs : LogReg (rMLOG_STAT d) := by unfold LogReg rMLOG_STAT mlogBase; omega
  have hl := noted_logEvent s hd (evTier s d e).1 he
  exact (Noted.ite ((hl.trans (noted_setF hs _ 6 1 1)).trans (noted_satF hs _ 16 16 1)) hl).trans (noted_traceRec _ hd _ _ _ _ _ _ _)

/-- An event without an owner is logged and reported, and stops nothing, where its home tier is below 4. -/
theorem noted_raiseEv_unowned (s : State) {d : Nat} {e : Ev} (hd : d < 4) (ho : e.owner = none) (hcls : e.cls < 256) (hhome : e.home < 4) :
    Noted s (raiseEv s d e) := by
  rw [raiseEv_eq, contain_unowned _ _ ho (evTier_lt hhome)]
  exact (noted_logged s hd hcls).trans (noted_reportEvent _ hd _)

/-- What an owned event may do where its home tier is below 4. -/
theorem contained_raiseEv (s : State) {d c t : Nat} {e : Ev} (hd : d < 4) (hc : c < 256) (ht : t < 4) (ho : e.owner = some (c, t)) (hcls : e.cls < 256) (hhome : e.home < 4) :
    Contained s (raiseEv s d e) := by
  rw [raiseEv_eq]
  exact ((noted_logged s hd hcls).contained.trans (contained_contain _ _ hc ht ho (evTier_lt hhome))).trans (noted_reportEvent _ hd _).contained

/-- A live slot that raises an event of tier 2 or 3 is FAULTED. -/
theorem faulted_raiseEv {d c t : Nat} {e : Ev} (hd : d < 4) (hc : c < 256) (ht : t < 4) (ho : e.owner = some (c, t)) (hcls : e.cls < 256) (hhome : 2 ≤ e.home)
    (hhome' : e.home < 4) (h : slotLive s c t = true) : slotState (raiseEv s d e) c t = 5 := by
  rw [raiseEv_eq]
  have hlt := evTier_lt (s := s) (d := d) hhome'
  refine (noted_reportEvent _ hd _).contained.faulted ht ?_
  rcases (noted_logged s hd hcls).contained.liveOrFaulted ht (.inl ((slotLive_iff s c t).1 h)) with hl | hl
  · have htier := evTier_le s d e
    exact faulted_contain _ hc ht ho (by omega) hlt ((slotLive_iff _ c t).2 hl)
  · exact (contained_contain _ _ hc ht ho hlt).faulted ht hl

/-- What an event of a core's slot may do. -/
theorem contained_raiseCore (s : State) {c t cls home : Nat} (hc : c < 256) (ht : t < 4) (hcls : cls < 256) (hhome : home < 4) (sev addr detail aux : Nat) :
    Contained s (raiseCore s c t cls sev home addr detail aux) := contained_raiseEv s (by omega) hc ht rfl hcls hhome

theorem faulted_raiseCore {c t cls home : Nat} (hc : c < 256) (ht : t < 4) (hcls : cls < 256) (hhome : 2 ≤ home) (hhome' : home < 4) (sev addr detail aux : Nat)
    (h : slotLive s c t = true) : slotState (raiseCore s c t cls sev home addr detail aux) c t = 5 := faulted_raiseEv (by omega) hc ht rfl hcls hhome hhome' h

end Sys2Proof.Safety
end

section
/-! PROOF. The unlisted opcode (O18). -/

namespace Sys2Proof.Safety

open Sys2Proof.Machine

variable {s : State} {c t f w : Nat}

/-- The lowest REASON of a word that the table does not list is 0 (R144, R157). -/
theorem staticReason_of_bad (h : wOp w = .bad) (x : SlotSt) (i : Nat) : staticReason x 0 [] i w = some 0 := by
  have hr : wordReason x.vmask w = some 0 := if_pos h
  rw [staticReason, hr]
  refine List.min?_eq_some_iff.2 ⟨by simp, fun b _ => Nat.zero_le b⟩

theorem sequencer_of_bad {lead : Op → Bool} (hrun : coreRuns s c = true) (hsw : (coreOf s c).switch = none) (hslot : runningSlot s c = some t)
    (hfloe : floeFor s c t = some f) (hrst : s.rstJob ≠ some (0, 32 * (c / 8) + f)) (hdue : groupDue s c t ≤ floeNow s c t) (hheld : floeHeld s c f = 0)
    (hmates : mates s c t = []) (hop : wOp w = .bad) (hl : lead .bad = true) (hfetch : fetchGroup s c t = .words [((slotOf s c t).pc, w)]) :
    sequencer s c lead = illegal s c t 0 (slotOf s c t).pc w := by
  have hlead := leadWord_of_fetchGroup_single hfetch
  have hg : issueGroup s c t = illegal s c t 0 (slotOf s c t).pc w := by
    simp [issueGroup, hfetch, staticFault, staticReason_of_bad hop]
  have hm : matesRun s c t = true := by simp [matesRun, hmates]
  simp [sequencer, hrun, hsw, hslot, hlead, hop, hl, hfloe, hrst, Nat.not_lt.2 hdue, hheld, hm, hg]

/-- The record of an illegal instruction where the core's record is free (R157). -/
def illRecorded (s : State) (c t reason idx w : Nat) : State :=
  setR (setR64 s (rILL_FAULT_WORD c) w) (rILL_FAULT_INFO c) (BitVec.ofNat 32 (1 + 2 * t + 8 * idx + 2 ^ 17 * reason))

theorem illegal_of_free (h : getB s (rILL_FAULT_INFO c) 0 = false) (reason idx : Nat) :
    illegal s c t reason idx w = raiseCore (illRecorded s c t reason idx w) c t cILLEGAL 2 2 0 (reason % 16 + 16 * idx) w := by
  simp [illegal, h, illRecorded]

theorem sameMem_illRecorded (reason idx : Nat) : SameMem s (illRecorded s c t reason idx w) := fun _ => rfl

theorem getF_illRecorded (lo n : Nat) : getF (illRecorded s c t 0 (slotOf s c t).pc w) (rILL_FAULT_INFO c) lo n =
    bits ((1 + 2 * t + 8 * (slotOf s c t).pc) % 2 ^ 32) lo n := by
  rw [getF, illRecorded, getR_setR_same, BitVec.toNat_ofNat]
  rfl

theorem getR64_illRecorded (reason idx : Nat) : getR64 (illRecorded s c t reason idx w) (rILL_FAULT_WORD c) = w % 2 ^ 64 := by
  have h : ∀ off, off ≠ rILL_FAULT_INFO c → getR (illRecorded s c t reason idx w) off = getR (setR64 s (rILL_FAULT_WORD c) w) off :=
    fun _ ho => getR_setR_other _ _ ho
  rw [← getR64_setR64 s (rILL_FAULT_WORD c) w, getR64, getR64, h _ (by unfold rILL_FAULT_WORD rILL_FAULT_INFO; omega),
    h _ (by unfold rILL_FAULT_WORD rILL_FAULT_INFO; omega)]

/-- Settles O18: the static rule of R144 faults before anything of the group acts, and the event of the fault leaves the record alone. -/
theorem unlistedOpcodeIsIllegal : Obligations.UnlistedOpcodeIsIllegal := by
  unfold Obligations.UnlistedOpcodeIsIllegal
  intro core s t f w hrun hsw hslot hfloe hrst hdue hheld hmates hop hfetch hfree
  have hc := core.isLt
  have ht : t < 4 := List.mem_range.1 (List.mem_of_find?_eq_some hslot)
  have h2 : slotState s core t = 2 := by simpa using List.find?_some hslot
  obtain ⟨hpc, -, -⟩ := fetchGroup_single hfetch
  have hexec : exec (.unlistedOpcode core) s = .next (sequencer s core (· = .bad)) := rfl
  have hinfo : Spared (rILL_FAULT_INFO core) := spared_of_core (by unfold rILL_FAULT_INFO coreBase; omega) (by unfold rILL_FAULT_INFO coreBase; omega)
  have hword : Spared (rILL_FAULT_WORD core) := spared_of_core (by unfold rILL_FAULT_WORD coreBase; omega) (by unfold rILL_FAULT_WORD coreBase; omega)
  have hword' : Spared (rILL_FAULT_WORD core + 4) := spared_of_core (by unfold rILL_FAULT_WORD coreBase; omega) (by unfold rILL_FAULT_WORD coreBase; omega)
  refine ⟨_, hexec, ?_⟩
  rw [sequencer_of_bad hrun hsw hslot hfloe hrst hdue hheld hmates hop (by decide) hfetch, illegal_of_free hfree]
  have hcon := contained_raiseCore (illRecorded s core t 0 (slotOf s core t).pc w) hc ht (show cILLEGAL < 256 by decide) (show 2 < 4 by decide) 2 0
    (0 % 16 + 16 * (slotOf s core t).pc) w
  refine ⟨fun a => (hcon.sameMem a).trans (sameMem_illRecorded _ _ a), ?_, hcon.pc core t, ?_, ?_, ?_, ?_, ?_⟩
  · refine faulted_raiseCore hc ht (by decide) (by decide) (by decide) 2 0 _ w ((slotLive_iff _ _ _).2 ?_)
    have : slotState (illRecorded s core t 0 (slotOf s core t).pc w) core t = 2 := by
      rw [← h2, slotState, slotState, getF, getF, illRecorded, getR_setR_other _ _ (by unfold rILL_FAULT_INFO rTASK_STAT; omega), setR64,
        getR_setR_other _ _ (by unfold rILL_FAULT_WORD rTASK_STAT; omega), getR_setR_other _ _ (by unfold rILL_FAULT_WORD rTASK_STAT; omega)]
    omega
  · rw [hcon.getF_eq hinfo, getF_illRecorded, bits_eq_div_mod]; omega
  · rw [hcon.getF_eq hinfo, getF_illRecorded, bits_eq_div_mod]; omega
  · rw [hcon.getF_eq hinfo, getF_illRecorded, bits_eq_div_mod]; omega
  · rw [hcon.getF_eq hinfo, getF_illRecorded, bits_eq_div_mod]; omega
  · rw [hcon.getR64_eq hword hword', getR64_illRecorded]

end Sys2Proof.Safety
end

section
/-! SUPPORT. The effect of a vector word that starts as it issues (R86 to R93, R111, R112): what its operands are, where its results go, and what else it may do. -/

namespace Sys2Proof.Machine

-- the flowline -----------------------------------------------------------------------------------------------------------------------

/-- The elements that an entry stands for are there. -/
theorem le_length_of_fliEntry {n : Nat} {l : List FliEnt} {e : FliEnt} (h : fliEntry n l = some e) : n ≤ (l.flatMap FliEnt.es).length := by
  induction l generalizing n with
  | nil => cases h
  | cons x l ih =>
    rw [List.flatMap_cons, List.length_append]
    unfold fliEntry at h
    split at h
    · omega
    · have := ih h
      omega

theorem le_length_of_fliPresent {s : State} {c t n : Nat} (h : fliPresent s c t n = true) : n ≤ ((coreOf s c).fli.flatMap FliEnt.es).length := by
  unfold fliPresent at h
  split at h
  · omega
  · split at h
    · cases h
    · rename_i he
      exact le_length_of_fliEntry he

/-- Chunks put end to end are the elements. -/
theorem flatten_chunkElems {per : Nat} (hp : 0 < per) (k : Nat) (es : List Elem) (h : es.length ≤ k) : (chunkElems per es k).flatten = es := by
  induction k generalizing es with
  | zero => rw [List.length_eq_zero_iff.1 (Nat.le_zero.1 h)]; rfl
  | succ k ih =>
    unfold chunkElems
    split
    · rename_i he; rw [List.isEmpty_iff.1 he]; rfl
    · rename_i he
      have hpos : 0 < es.length := List.length_pos_iff.2 fun e => he (by simp [e])
      rw [List.flatten_cons, ih _ (by rw [List.length_drop]; omega), List.take_append_drop]

theorem fmtWidth_le (f : Nat) : fmtWidth f ≤ 32 := by
  unfold fmtWidth
  split <;> decide

theorem perEntry_pos (f : Nat) : 0 < perEntry f := Nat.div_pos ((fmtWidth_le f).trans (by decide)) (fmtWidth_pos f)

-- the lanes of operations ---------------------------------------------------------------------------------------------------------------

theorem length_unpackLanes (w x n : Nat) : (unpackLanes w x n).length = n := by simp [unpackLanes]

theorem getD_unpackLanes (w x : Nat) {n i : Nat} (h : i < n) : (unpackLanes w x n).getD i 0 = bits x (w * i) w := by
  rw [List.getD_eq_getElem _ _ (by simpa [unpackLanes] using h)]
  simp [unpackLanes]

theorem length_ewLanes (op : Op) (f : Nat) (a b d : List Nat) : (ewLanes op f a b d).1.length = a.length := by
  induction a generalizing b d with
  | nil => rfl
  | cons x a ih => simp [ewLanes, ih]

theorem getD_tail {α : Type} (l : List α) (i : Nat) (z : α) : l.tail.getD i z = l.getD (i + 1) z := by cases l <;> simp

/-- Lane i of an element-wise word is the operation on lane i of its operands. -/
theorem getD_ewLanes (op : Op) (f : Nat) (a b d : List Nat) {i : Nat} (h : i < a.length) :
    (ewLanes op f a b d).1.getD i 0 = (ewLane op f (a.getD i 0) (b.getD i 0) (d.getD i 0)).code := by
  induction a generalizing b d i with
  | nil => exact absurd h (Nat.not_lt_zero i)
  | cons x a ih =>
    cases i with
    | zero => cases b <;> cases d <;> simp [ewLanes]
    | succ i =>
      have h' : i < a.length := by simpa using h
      simp only [ewLanes, List.getD_cons_succ, ih _ _ h', getD_tail]

end Sys2Proof.Machine

namespace Sys2Proof.Safety

open Sys2Proof.Machine

variable {s s1 s' : State} {c t f w n : Nat}

-- operands --------------------------------------------------------------------------------------------------------------------------------

/-- A source has n lanes: n elements of the flowline where the word takes them from there. -/
theorem length_srcLanes {scl : Bool} {v fm : Nat} (h : scl = false → v = 32 → n ≤ ((coreOf s c).fli.flatMap FliEnt.es).length) :
    (srcLanes s c t scl v fm n).length = n := by
  unfold srcLanes
  split
  · exact List.length_replicate
  · split
    · rename_i hs hv
      rw [List.length_map, List.length_take, Nat.min_eq_left (h (by simpa using hs) hv)]
    · rw [regLanes, length_unpackLanes]

/-- Where a starting word takes elements of the flowline, n of them are there. -/
theorem le_fli_of_starts (h : StartsAt s c t w n) (hf : fliCount w ≠ 0) : n ≤ ((coreOf s c).fli.flatMap FliEnt.es).length := by
  obtain ⟨-, hready, -, rfl⟩ := h
  rw [vxeReady, Bool.and_eq_true] at hready
  have := le_length_of_fliPresent hready.1
  rwa [fliNeed, if_neg hf] at this

theorem length_srcA (h : StartsAt s c t w n) (hr : (vRole w).va = .flow) (fm : Nat) : (srcLanes s c t (vSCL w == 1) (vVA w) fm n).length = n := by
  refine length_srcLanes fun hs hv => le_fli_of_starts h ?_
  simp [fliCount, isFli, hr, hs, hv]

theorem length_srcB (h : StartsAt s c t w n) (hr : (vRole w).vb = .flow) (fm : Nat) : (srcLanes s c t (vSCL w == 2) (vVB w) fm n).length = n := by
  refine length_srcLanes fun hs hv => le_fli_of_starts h ?_
  simp [fliCount, isFli, hr, hs, hv]

/-- The effective length of a word holds in a register of each of its formats (R88). -/
theorem foldl_min_le {l : List Nat} {fm : Nat} (h : fm ∈ l) (n : Nat) : l.foldl (fun n f => min n (perReg f)) n ≤ perReg fm := by
  have hle : ∀ (l : List Nat) (n : Nat), l.foldl (fun n f => min n (perReg f)) n ≤ n := by
    intro l
    induction l with
    | nil => exact fun n => le_refl n
    | cons x l ih => exact fun n => (ih _).trans (min_le_left _ _)
  induction l generalizing n with
  | nil => cases h
  | cons x l ih =>
    rcases List.mem_cons.1 h with rfl | h
    · exact (hle l _).trans (min_le_right _ _)
    · exact ih h _

theorem le_perReg_of_starts (h : StartsAt s c t w n) {fm : Nat} (hf : fm ∈ elemFmts w) : n ≤ perReg fm := by
  obtain ⟨-, -, -, rfl⟩ := h
  exact foldl_min_le hf _

-- the effect of a word ---------------------------------------------------------------------------------------------------------------------

/-- What a vector word's own effect may do: registers of a list, vector registers of a list, scalar registers of its slot, and bookkeeping of its core. -/
structure VecEffect (l rs : List Nat) (c t : Nat) (s s' : State) : Prop where
  frame : Frame l s s'
  cores : OtherCores c s s'
  slots : OtherSlots c t s s'
  slot : ∃ x, slotOf s' c t = { slotOf s c t with sreg := x }
  vregs : OtherVregs rs c s s'

theorem VecEffect.trans {l rs : List Nat} (h : VecEffect l rs c t s s1) (h' : VecEffect l rs c t s1 s') : VecEffect l rs c t s s' := by
  obtain ⟨x, hx⟩ := h.slot
  obtain ⟨y, hy⟩ := h'.slot
  exact ⟨h.frame.trans h'.frame, fun k hk => (h'.cores k hk).trans (h.cores k hk), fun u hu => (h'.slots u hu).trans (h.slots u hu),
    ⟨y, by rw [hy, hx]⟩, fun r hr => (h'.vregs r hr).trans (h.vregs r hr)⟩

theorem vecEffect_of_vecStep {l rs : List Nat} (h : VecStep l rs c s s') (t : Nat) : VecEffect l rs c t s s' :=
  ⟨h.frame, h.cores, fun u _ => h.slots u, ⟨_, h.slots t⟩, h.vregs⟩

theorem vecEffect_setSreg (l rs : List Nat) (s : State) (c t r : Nat) (v : BitVec 64) : VecEffect l rs c t s (setSreg s c t r v) := by
  constructor
  case frame => exact frame_modCore l s c _
  case cores => exact fun k hk => coreOf_modCore_other s _ hk
  case slots => exact fun u hu => slotOf_setSlot_otherSlot s c _ hu
  case slot => exact ⟨_, slotOf_modSlot_same s c t _⟩
  case vregs => exact fun r _ => vreg_modSlot s c t _ r

@[simp] theorem sreg_setSreg_same (s : State) (c t r : Nat) (v : BitVec 64) : sreg (setSreg s c t r v) c t r = v := by
  simp [sreg, setSreg, slotOf_modSlot_same]

theorem sreg_setSreg_other (s : State) (c t : Nat) {r r' : Nat} (v : BitVec 64) (h : r' ≠ r) : sreg (setSreg s c t r v) c t r' = sreg s c t r' := by
  simp only [sreg, setSreg, slotOf_modSlot_same]
  exact mget_mset_other _ _ _ h

theorem sreg_of_slot (h : slotOf s' c t = slotOf s c t) (r : Nat) : sreg s' c t r = sreg s c t r := by rw [sreg, sreg, h]

/-- What the command of a vector word leaves, where s1 is the state that its own effect leaves. -/
structure VecDone (l rs : List Nat) (c t f : Nat) (s s1 s' : State) : Prop where
  frame : Frame (l ++ issueRegs c f) s s'
  cores : OtherCores c s s'
  slots : OtherSlots c t s s'
  vregs : OtherVregs rs c s s'
  vreg : ∀ r, vreg s' c r = vreg s1 c r
  regs : ∀ off, off ∉ issueRegs c f → getR s' off = getR s1 off
  skid : skid s' c = skid s1 c
  sreg : ∀ r, sreg s' c t r = sreg s1 c t r
  pc : (slotOf s' c t).pc = (slotOf s c t).pc + 1
  steps : slotOf s1 c t = slotOf s c t → StepsOn s s' c t

theorem not_jump_of_vectorOp (h : wOp w ∈ vectorOps) : wOp w ∉ jumpOps := by
  generalize wOp w = o at h
  cases o with
  | loop | endl | jmp => exact absurd h (by decide)
  | _ => decide

/-- The command of a vector word whose own effect is known. -/
theorem vecDone_of_effect {l rs : List Nat} {lead : Op → Bool} (hc : c < 256) (hi : Issues s c t f w) (hop : wOp w ∈ vectorOps) (hl : lead (wOp w) = true)
    (hlr : ∀ off ∈ l, 0x200_0000 ≤ off) (he : VecEffect l rs c t s (vxeIssue s c t (slotOf s c t).pc w)) :
    VecDone l rs c t f s (vxeIssue s c t (slotOf s c t).pc w) (sequencer s c lead) := by
  have hd := wordDone_of_vectorWord hi hop hl (floeFor_of_frame he.frame hc (fun off ho => .inr (hlr off ho)) t)
  have hj := not_jump_of_vectorOp hop
  constructor
  case frame => exact hd.frame he.frame
  case cores => exact hd.otherCores he.cores
  case slots => exact hd.otherSlots he.slots
  case vregs => exact fun r hr => (hd.vreg_eq r).trans (he.vregs r hr)
  case vreg => exact hd.vreg_eq
  case regs => exact hd.regs
  case skid =>
    obtain ⟨x, e⟩ := hd.core
    rw [Safety.skid, Safety.skid, e]
  case sreg => exact fun r => by rw [Machine.sreg, hd.slot hj]; rfl
  case pc => rw [hd.slot hj]; rfl
  case steps => exact hd.stepsOn hj

theorem VecDone.lane_eq {l rs : List Nat} (h : VecDone l rs c t f s s1 s') (r fm i : Nat) : lane s' c r fm i = lane s1 c r fm i := by
  rw [lane, lane, h.vreg]

-- the parts of an effect ----------------------------------------------------------------------------------------------------------------------

theorem skid_of_flo (h : (coreOf s' c).flo = (coreOf s c).flo) : skid s' c = skid s c := by rw [skid, skid, h]

@[simp] theorem skid_setFlags (s : State) (c fl : Nat) : skid (setFlags s c fl) c = skid s c := rfl
@[simp] theorem skid_dropFli (s : State) (c k : Nat) : skid (dropFli s c k) c = skid s c := skid_of_flo (by simp [dropFli])
@[simp] theorem skid_vxeTimed (s : State) (c t w n : Nat) : skid (vxeTimed s c t w n) c = skid s c := skid_of_flo (by simp [vxeTimed])
@[simp] theorem skid_setSreg (s : State) (c t r : Nat) (v : BitVec 64) : skid (setSreg s c t r v) c = skid s c :=
  skid_of_flo (by simp [setSreg, modSlot, setSlot])

theorem flo_parClear (s : State) (c a i : Nat) : (coreOf (parClear s c a i) c).flo = (coreOf s c).flo := by
  unfold parClear
  split
  · rw [coreOf_modCore_same]
  · rfl

@[simp] theorem skid_setVreg (s : State) (c r : Nat) (v : BitVec 8192) : skid (setVreg s c r v) c = skid s c :=
  skid_of_flo (by rw [setVreg, coreOf_modCore_same]; exact flo_parClear s c 3 r)

/-- Results that go down the flowline join the skid buffer in order (R112). -/
theorem skid_pushFlo (s : State) (c t f : Nat) (cs : List Nat) : skid (pushFlo s c t f cs) c = skid s c ++ cs.map fun x => ⟨f, x⟩ := by
  have h := flatten_chunkElems (perEntry_pos f) cs.length (cs.map fun x => (⟨f, x⟩ : Elem)) (by simp)
  rw [skid, pushFlo, coreOf_modCore_same, List.flatMap_append, List.flatMap_map, ← skid]
  exact congrArg _ (List.flatMap_id'.trans h)

/-- The registers that a result goes to: none where it goes down the flowline. -/
def destRegs (vd : Nat) : List Nat := if vd = 32 then [] else [vd]

theorem vecStep_pushFlo (l rs : List Nat) (s : State) (c t f : Nat) (cs : List Nat) : VecStep l rs c s (pushFlo s c t f cs) :=
  vecStep_modCore l s c _ rfl fun _ _ => rfl

theorem vecStep_putAny (l : List Nat) (s : State) (c t vd f : Nat) (cs : List Nat) : VecStep l (destRegs vd) c s (putResult s c t vd f cs) := by
  by_cases h : vd = 32
  · rw [putResult, if_pos h]; exact vecStep_pushFlo _ _ s c t f cs
  · rw [destRegs, if_neg h]; exact vecStep_putResult l s c t f cs h

theorem skid_putResult_flo (s : State) (c t : Nat) {vd : Nat} (f : Nat) (cs : List Nat) (h : vd = 32) :
    skid (putResult s c t vd f cs) c = skid s c ++ cs.map fun x => ⟨f, x⟩ := by rw [putResult, if_pos h, skid_pushFlo]

theorem skid_putResult_reg (s : State) (c t : Nat) {vd : Nat} (f : Nat) (cs : List Nat) (h : vd ≠ 32) : skid (putResult s c t vd f cs) c = skid s c := by
  rw [putResult, if_neg h, skid_setVreg]

/-- What follows the lanes of a word: the elements that it took leave the flowline, and its time begins. -/
def vecTail (s : State) (c t w n k : Nat) : State := vxeTimed (dropFli s c k) c t w n

theorem vecStep_vecTail (l rs : List Nat) (s : State) (c t w n k : Nat) : VecStep l rs c s (vecTail s c t w n k) :=
  (vecStep_dropFli l rs s c k).trans (vecStep_vxeTimed l rs _ c t w n)

@[simp] theorem skid_vecTail (s : State) (c t w n k : Nat) : skid (vecTail s c t w n k) c = skid s c := by rw [vecTail, skid_vxeTimed, skid_dropFli]

@[simp] theorem vreg_vecTail (s : State) (c t w n k r : Nat) : vreg (vecTail s c t w n k) c r = vreg s c r :=
  (vecStep_vecTail [] [] s c t w n k).vregs r List.not_mem_nil

theorem sreg_vecTail (s : State) (c t w n k r : Nat) : sreg (vecTail s c t w n k) c t r = sreg s c t r :=
  sreg_of_slot ((vecStep_vecTail [] [] s c t w n k).slots t) r

theorem getR_vecTail (s : State) (c t w n k off : Nat) : getR (vecTail s c t w n k) off = getR s off :=
  (vecStep_vecTail [] [] s c t w n k).frame.getR_eq List.not_mem_nil

theorem getR_putResult (s : State) (c t vd f : Nat) (cs : List Nat) (off : Nat) : getR (putResult s c t vd f cs) off = getR s off :=
  (vecStep_putAny [] s c t vd f cs).frame.getR_eq List.not_mem_nil

/-- FP_FLAGS gathers the flags of a word (R56). -/
theorem getF_setFlags (s : State) (c fl : Nat) : getF (setFlags s c fl) (rFP_FLAGS c) 0 6 = (getF s (rFP_FLAGS c) 0 6 ||| fl) % 2 ^ 6 :=
  getF_setF_same s _ 0 6 _ (by decide)

/-- Bookkeeping that follows a word's results: no register, no lane and no element of the skid buffer. -/
structure Tail (c : Nat) (b s' : State) : Prop extends VecStep [] [] c b s' where
  skid : skid s' c = skid b c

theorem tail_vecTail (b : State) (c t w n k : Nat) : Tail c b (vecTail b c t w n k) := ⟨vecStep_vecTail [] [] b c t w n k, skid_vecTail b c t w n k⟩

theorem tail_vxeTimed (b : State) (c t w n : Nat) : Tail c b (vxeTimed b c t w n) := ⟨vecStep_vxeTimed [] [] b c t w n, skid_vxeTimed b c t w n⟩

-- the words ---------------------------------------------------------------------------------------------------------------------------------------

/-- The words that read elements and write nothing at n = 0 (R89), with their effects at other lengths. -/
def vecBody (s : State) (c t w n : Nat) (e : VxEnt) : State :=
  match wOp w with
  | .vcvt => vxeConvert s c t w n e.scale
  | .vupdsr => vxeUpdate s c t w n e.sx0.toNat (bits e.sx1.toNat 0 32)
  | .vred | .vstat => vxeScalar s c t w n
  | .vperm | .vshuf | .vpack | .vunpk => vxePermute s c t w n
  | .vnorm => vxeNorm s c t w n
  | _ => vxeElementwise s c t w n

/-- The words whose effect does not depend on n (R89). -/
def unlengthed : List Op := [.vsetvl, .vstfin, .vget]

theorem vxeRun_of_lengthed (h : wOp w ∉ unlengthed) (h0 : n ≠ 0) (e : VxEnt) (ht : e.slot = t) (hw : e.word.toNat = w) (hn : n = effLen (slotOf s c t).vl w) :
    vxeRun s c e = dropFli (vecBody s c t w n e) c (fliNeed (slotOf s c t).vl w) := by
  subst ht hw hn
  unfold vxeRun vecBody
  dsimp only
  generalize wOp e.word.toNat = o at h
  cases o with
  | vsetvl | vstfin | vget => exact absurd h (by decide)
  | _ => simp only [h0, if_false]

/-- A word that reads elements and starts as it issues: its effect, and the tail. -/
theorem vxeIssue_of_lengthed (hi : Issues s c t f w) (hs : Starts s c t w n) (h : wOp w ∉ unlengthed) (h1 : wOp w ≠ .vupdsr) (h2 : wOp w ≠ .vshuf) (i : Nat) :
    vxeIssue s c t i w = vecTail (vecBody s c t w n (vxEntry s c t i w)) c t w n (fliNeed (slotOf s c t).vl w) := by
  obtain ⟨hst, hn⟩ := hs
  have hw := lt_of_issues hi
  rw [vxeIssue_of_starts hst hw h1 h2]
  obtain ⟨_, _, _, e⟩ := hst
  rw [vxeRun_of_lengthed h (Nat.pos_iff_ne_zero.1 hn) (vxEntry s c t i w) rfl (Nat.mod_eq_of_lt hw) e, vecTail]
  rfl

theorem tail_of_lengthed (hi : Issues s c t f w) (hs : Starts s c t w n) (h : wOp w ∉ unlengthed) (h1 : wOp w ≠ .vupdsr) (h2 : wOp w ≠ .vshuf) (i : Nat)
    {b : State} (hb : vecBody s c t w n (vxEntry s c t i w) = b) : Tail c b (vxeIssue s c t i w) := by
  rw [vxeIssue_of_lengthed hi hs h h1 h2, hb]
  exact tail_vecTail b c t w n _

/-- The command of a vector word whose effect b before the bookkeeping is known. -/
theorem vecDone_of_body {l rs : List Nat} {lead : Op → Bool} {b : State} (hc : c < 256) (hi : Issues s c t f w) (hop : wOp w ∈ vectorOps)
    (hl : lead (wOp w) = true) (hlr : ∀ off ∈ l, 0x200_0000 ≤ off) (ht : Tail c b (vxeIssue s c t (slotOf s c t).pc w)) (hb : VecEffect l rs c t s b) :
    VecDone l rs c t f s b (sequencer s c lead) := by
  have heff : VecEffect l rs c t s (vxeIssue s c t (slotOf s c t).pc w) :=
    hb.trans (vecEffect_of_vecStep ⟨ht.frame.mono (List.nil_subset _), ht.cores, ht.slots, fun r _ => ht.vregs r List.not_mem_nil⟩ t)
  have hd := vecDone_of_effect hc hi hop hl hlr heff
  constructor
  case frame => exact hd.frame
  case cores => exact hd.cores
  case slots => exact hd.slots
  case vregs => exact hd.vregs
  case vreg => exact fun r => (hd.vreg r).trans (ht.vregs r List.not_mem_nil)
  case regs => exact fun off ho => (hd.regs off ho).trans (ht.frame.getR_eq List.not_mem_nil)
  case skid => exact hd.skid.trans ht.skid
  case sreg => exact fun r => (hd.sreg r).trans (sreg_of_slot (ht.slots t) r)
  case pc => exact hd.pc
  case steps => exact fun h => hd.steps ((ht.slots t).trans h)

/-- The same of a word that writes no scalar register. -/
theorem vecDone_of_step {l rs : List Nat} {lead : Op → Bool} {b : State} (hc : c < 256) (hi : Issues s c t f w) (hop : wOp w ∈ vectorOps)
    (hl : lead (wOp w) = true) (hlr : ∀ off ∈ l, 0x200_0000 ≤ off) (ht : Tail c b (vxeIssue s c t (slotOf s c t).pc w)) (hb : VecStep l rs c s b) :
    VecDone l rs c t f s b (sequencer s c lead) ∧ StepsOn s (sequencer s c lead) c t :=
  have hd := vecDone_of_body hc hi hop hl hlr ht (vecEffect_of_vecStep hb t)
  ⟨hd, hd.steps (hb.slots t)⟩

end Sys2Proof.Safety
end

section
/-! PROOF. Element-wise words, VCMP and VSEL (O8). -/

namespace Sys2Proof.Machine

/-- Lane i of a list made from the lanes of two operands. -/
theorem getD_zipLanes {g : Nat → Nat × Nat → Nat} {a b : List Nat} {n i : Nat} (ha : a.length = n) (hb : b.length = n) (h : i < n) :
    ((List.range n).zipWith g (a.zip b)).getD i 0 = g i (a.getD i 0, b.getD i 0) := by
  rw [List.getD_eq_getElem _ _ (by simp [ha, hb, h])]
  simp [List.getElem?_eq_getElem (ha.symm ▸ h : i < a.length), List.getElem?_eq_getElem (hb.symm ▸ h : i < b.length)]

theorem length_zipLanes {g : Nat → Nat × Nat → Nat} {a b : List Nat} {n : Nat} (ha : a.length = n) (hb : b.length = n) :
    ((List.range n).zipWith g (a.zip b)).length = n := by simp [ha, hb]

/-- A list of known length as the lanes of its places. -/
theorem eq_map_range {l : List Nat} {n : Nat} (h : l.length = n) : l = (List.range n).map fun i => l.getD i 0 := by
  refine List.ext_getElem (by simp [h]) fun i h1 _ => ?_
  simp [List.getElem?_eq_getElem h1]

/-- The sum of chosen powers of two has the chosen bits. -/
theorem testBit_sum_bits (p : Nat → Bool) (n i : Nat) :
    (((List.range n).map fun k => if p k then 2 ^ k else 0).foldl (· + ·) 0).testBit i = (decide (i < n) && p i) ∧
      ((List.range n).map fun k => if p k then 2 ^ k else 0).foldl (· + ·) 0 < 2 ^ n := by
  induction n with
  | zero => simp
  | succ n ih =>
    obtain ⟨hbit, hlt⟩ := ih
    rw [List.range_succ, List.map_append, List.foldl_append]
    generalize ((List.range n).map fun k => if p k then 2 ^ k else 0).foldl (· + ·) 0 = x at hbit hlt
    simp only [List.map_cons, List.map_nil, List.foldl_cons, List.foldl_nil]
    have hp : 2 ^ (n + 1) = 2 * 2 ^ n := by ring
    by_cases hn : p n = true
    · simp only [hn, if_true]
      refine ⟨?_, by omega⟩
      rcases Nat.lt_trichotomy i n with h | h | h
      · rw [Nat.add_comm, Nat.testBit_two_pow_add_gt h, hbit]
        simp [h, Nat.lt_succ_of_lt h]
      · subst h
        rw [Nat.add_comm, Nat.testBit_two_pow_add_eq, Nat.testBit_lt_two_pow hlt]
        simp [hn]
      · rw [Nat.testBit_lt_two_pow (lt_of_lt_of_le (by omega : x + 2 ^ n < 2 ^ (n + 1)) (Nat.pow_le_pow_right (by decide) h))]
        simp [show ¬ i < n + 1 by omega]
    · simp only [hn, Bool.false_eq_true, if_false, Nat.add_zero]
      refine ⟨?_, by omega⟩
      rw [hbit]
      rcases Nat.lt_trichotomy i n with h | h | h
      · simp [h, Nat.lt_succ_of_lt h]
      · subst h; simp [hn]
      · simp [show ¬ i < n by omega, show ¬ i < n + 1 by omega]

theorem maskBit_eq_testBit (m i : Nat) : maskBit m i = m.testBit i := by
  rw [maskBit, bits_eq_div_mod, Nat.testBit_eq_decide_div_mod_eq, pow_one]

end Sys2Proof.Machine

namespace Sys2Proof.Safety

open Sys2Proof.Machine

variable {s : State} {c t f w n : Nat}

/-- The element-wise arithmetic operations. -/
def arithOps : List Op := (arithWords 0).map Prod.fst

theorem exec_of_arithWord {core : CoreId} {p : Op × Instr} (hp : p ∈ arithWords core) (s : State) :
    exec p.2 s = .next (sequencer s core (· = p.1)) ∧ p.1 ∈ arithOps := by
  have hmem : p.1 ∈ (arithWords core).map Prod.fst := List.mem_map_of_mem hp
  simp only [arithWords, List.mem_cons, List.not_mem_nil, or_false] at hp
  rcases hp with rfl | rfl | rfl | rfl | rfl | rfl | rfl | rfl | rfl | rfl | rfl | rfl <;> exact ⟨rfl, hmem⟩

theorem elementwise_of_arithOp (h : wOp w ∈ arithOps) :
    wOp w ∈ vectorOps ∧ wOp w ∉ unlengthed ∧ wOp w ≠ .vupdsr ∧ wOp w ≠ .vshuf ∧ (vRole w).va = .flow ∧ vFMT w ∈ elemFmts w := by
  unfold vRole elemFmts
  generalize wOp w = o at h
  cases o with
  | vadd | vsub | vmul | vfma | vmax | vmin | vabs | vneg | vexp | vlog | vrcp | vrsq => exact ⟨by decide, by decide, by decide, by decide, rfl, List.mem_singleton.2 rfl⟩
  | _ => exact absurd h (by decide)

theorem vecBody_of_arithOp (h : wOp w ∈ arithOps) (s : State) (c t n : Nat) (e : VxEnt) : vecBody s c t w n e = vxeElementwise s c t w n := by
  unfold vecBody
  generalize wOp w = o at h
  cases o with
  | vadd | vsub | vmul | vfma | vmax | vmin | vabs | vneg | vexp | vlog | vrcp | vrsq => rfl
  | _ => exact absurd h (by decide)

/-- The operand lanes of an element-wise word. -/
def opA (s : State) (c t w n : Nat) : List Nat := srcLanes s c t (vSCL w == 1) (vVA w) (vFMT w) n
def opB (s : State) (c t w n : Nat) : List Nat := srcLanes s c t (vSCL w == 2) (vVB w) (vFMT w) n
def opD (s : State) (c t w n : Nat) : List Nat := srcLanes s c t (vSCL w == 3) (vVC w) (vFMT w) n

/-- The results of an element-wise word. -/
def ewResult (s : State) (c t w n : Nat) : List Nat × Nat := ewLanes (wOp w) (vFMT w) (opA s c t w n) (opB s c t w n) (opD s c t w n)

theorem vxeElementwise_of_arithOp (h : wOp w ∈ arithOps) :
    vxeElementwise s c t w n = setFlags (putResult s c t (vVD w) (vFMT w) (ewResult s c t w n).1) c (ewResult s c t w n).2 := by
  unfold vxeElementwise ewResult opA opB opD
  generalize wOp w = o at h
  cases o with
  | vcmp | vsel => exact absurd h (by decide)
  | _ => rfl

theorem vecStep_elementwise (l rs : List Nat) (hl : rFP_FLAGS c ∈ l) (hr : ∀ r ∈ destRegs (vVD w), r ∈ rs) {fm fl : Nat} {cs : List Nat} :
    VecStep l rs c s (setFlags (putResult s c t (vVD w) fm cs) c fl) := by
  have h1 := vecStep_putAny l s c t (vVD w) fm cs
  exact ⟨h1.frame.trans (frame_setF _ hl _ _ _), h1.cores, h1.slots, fun r hr' => h1.vregs r fun e => hr' (hr r e)⟩

/-- The mask that VCMP writes: its first n bits are the comparisons (R97). -/
def cmpMask (s : State) (c t w n : Nat) : BitVec 8192 := BitVec.ofNat 8192
  (((List.range n).map fun i => if cmpLane (fnCond w) (vFMT w) ((opA s c t w n).getD i 0) ((opB s c t w n).getD i 0) then 2 ^ i else 0).foldl (· + ·) 0 +
    (vreg s c (vVD w)).toNat / 2 ^ n * 2 ^ n)

theorem vxeElementwise_vcmp (h : wOp w = .vcmp) (ha : (opA s c t w n).length = n) (hb : (opB s c t w n).length = n) :
    vxeElementwise s c t w n = setVreg s c (vVD w) (cmpMask s c t w n) := by
  have hm := eq_map_range (length_zipLanes (g := fun i ab => if cmpLane (fnCond w) (vFMT w) ab.1 ab.2 then 2 ^ i else 0) ha hb)
  rw [List.map_congr_left fun i hi => getD_zipLanes ha hb (List.mem_range.1 hi)] at hm
  rw [cmpMask, ← hm]
  unfold vxeElementwise opA opB
  rw [h]

/-- The lanes that VSEL selects. -/
def selResult (s : State) (c t w n : Nat) : List Nat :=
  (List.range n).map fun i => selLane (vFMT w) (maskBit (vreg s c (vVC w)).toNat i) ((opA s c t w n).getD i 0) ((opB s c t w n).getD i 0)

theorem vxeElementwise_vsel (h : wOp w = .vsel) (ha : (opA s c t w n).length = n) (hb : (opB s c t w n).length = n) :
    vxeElementwise s c t w n = putResult s c t (vVD w) (vFMT w) (selResult s c t w n) := by
  have hm := eq_map_range (length_zipLanes (g := fun i ab => selLane (vFMT w) (maskBit (vreg s c (vVC w)).toNat i) ab.1 ab.2) ha hb)
  rw [List.map_congr_left fun i hi => getD_zipLanes ha hb (List.mem_range.1 hi)] at hm
  rw [selResult, ← hm]
  unfold vxeElementwise opA opB
  rw [h]

/-- The bits of a mask after its first n were replaced. -/
theorem testBit_replaced (p : Nat → Bool) {n N : Nat} (old : BitVec N) (hn : n ≤ N) (i : Nat) :
    (BitVec.ofNat N (((List.range n).map fun k => if p k then 2 ^ k else 0).foldl (· + ·) 0 + old.toNat / 2 ^ n * 2 ^ n)).toNat.testBit i =
      if i < n then p i else old.toNat.testBit i := by
  obtain ⟨hbit, hlt⟩ := testBit_sum_bits p n i
  generalize ((List.range n).map fun k => if p k then 2 ^ k else 0).foldl (· + ·) 0 = x at hbit hlt
  rw [BitVec.toNat_ofNat, Nat.testBit_mod_two_pow, Nat.add_comm, Nat.mul_comm, Nat.testBit_two_pow_mul_add _ hlt, Nat.testBit_div_two_pow]
  by_cases h : i < n
  · simp [h, hbit, show i < N by omega]
  · rw [if_neg h, if_neg h, Nat.sub_add_cancel (Nat.le_of_not_lt h)]
    by_cases hN : i < N
    · simp [hN]
    · rw [Nat.testBit_lt_two_pow (lt_of_lt_of_le old.isLt (Nat.pow_le_pow_right (by decide) (Nat.le_of_not_lt hN)))]
      simp

theorem maskBit_cmpMask (hn : n ≤ 8192) (i : Nat) : maskBit (cmpMask s c t w n).toNat i =
    if i < n then cmpLane (fnCond w) (vFMT w) ((opA s c t w n).getD i 0) ((opB s c t w n).getD i 0) else maskBit (vreg s c (vVD w)).toNat i := by
  rw [maskBit_eq_testBit, maskBit_eq_testBit]
  exact testBit_replaced _ (vreg s c (vVD w)) hn i

theorem rFP_FLAGS_ge (c : Nat) : 0x200_0000 ≤ rFP_FLAGS c := by unfold rFP_FLAGS coreBase; omega

theorem perReg_le (fm : Nat) : perReg fm ≤ 8192 := Nat.div_le_self _ _

/-- Settles O8: the operands of a word that starts have n lanes, and each word is a list of results put into a register or down the flowline. -/
theorem elementwiseWordsWriteTheirLanes : Obligations.ElementwiseWordsWriteTheirLanes := by
  unfold Obligations.ElementwiseWordsWriteTheirLanes
  intro core s t f w n hi hs a b d ha hb hd
  have hst := hs.1
  have hc := core.isLt
  have hff := fpFlags_not_mem_issueRegs core (floe_lt_of_issues hi)
  rw [← opA] at ha
  rw [← opB] at hb
  rw [← opD] at hd
  subst ha hb hd
  refine ⟨?_, ?_, ?_⟩
  · intro p hp hop
    obtain ⟨hexec, harith⟩ := exec_of_arithWord hp s
    rw [← hop] at harith
    obtain ⟨hv, hu, h1, h2, hrole, hfm⟩ := elementwise_of_arithOp harith
    have hlen : (ewResult s core t w n).1.length = n := (length_ewLanes _ _ _ _ _).trans (length_srcA hst hrole _)
    have hget : ∀ i, i < n → (ewResult s core t w n).1.getD i 0 =
        (ewLane p.1 (vFMT w) ((opA s core t w n).getD i 0) ((opB s core t w n).getD i 0) ((opD s core t w n).getD i 0)).code :=
      fun i h => hop ▸ getD_ewLanes _ _ _ _ _ ((length_srcA hst hrole _).symm ▸ h)
    have hrun := tail_of_lengthed hi hs hu h1 h2 (slotOf s core t).pc ((vecBody_of_arithOp harith _ _ _ _ _).trans (vxeElementwise_of_arithOp harith))
    obtain ⟨hdone, hsteps⟩ := vecDone_of_step (lead := (· = p.1)) hc hi hv (by simp [hop]) (by simp [rFP_FLAGS_ge]) hrun
      (vecStep_elementwise [rFP_FLAGS core] (destRegs (vVD w)) (List.mem_singleton.2 rfl) fun _ h => h)
    refine ⟨_, hexec, hdone.frame, hdone.cores, hdone.slots, hsteps, hdone.vregs, ?_, fun hvd => ?_, fun hvd => ⟨?_, ?_, ?_⟩⟩
    · rw [getF, hdone.regs _ hff, ← getF, getF_setFlags, getF, getR_putResult, ← getF, ewResult, hop]
    · rw [hdone.skid, skid_setFlags, skid_putResult_flo _ _ _ _ _ hvd, eq_map_range hlen, List.map_map]
      exact congrArg _ (List.map_congr_left fun i h => by simp only [Function.comp_apply, hget i (List.mem_range.1 h)])
    · rw [hdone.skid, skid_setFlags, skid_putResult_reg _ _ _ _ _ hvd]
    · intro i h
      rw [hdone.lane_eq, lane, vreg_setFlags, ← lane, lane_putResult _ _ _ _ _ hvd (h.trans_le (le_perReg_of_starts hst hfm)), hlen, if_pos h, hget i h]
    · intro i h hp'
      rw [hdone.lane_eq, lane, vreg_setFlags, ← lane, lane_putResult _ _ _ _ _ hvd hp', hlen, if_neg (by omega)]
  · intro hop
    have hrole : (vRole w).va = .flow ∧ (vRole w).vb = .flow := by simp [vRole, hop]
    have hn : n ≤ 8192 := (le_perReg_of_starts hst (fm := vFMT w) (by simp [elemFmts, hop])).trans (perReg_le _)
    have hbody : vecBody s core t w n (vxEntry s core t (slotOf s core t).pc w) = vxeElementwise s core t w n := by unfold vecBody; rw [hop]
    have hrun := tail_of_lengthed hi hs (by rw [hop]; decide) (by rw [hop]; decide) (by rw [hop]; decide) (slotOf s core t).pc
      (hbody.trans (vxeElementwise_vcmp hop (length_srcA hst hrole.1 _) (length_srcB hst hrole.2 _)))
    obtain ⟨hdone, hsteps⟩ := vecDone_of_step (lead := (· = .vcmp)) hc hi (by rw [hop]; decide) (by simp [hop]) (by simp) hrun (vecStep_setVreg [] s core (vVD w) _)
    have hbit : ∀ i, maskBit (vreg (sequencer s core (· = .vcmp)) core (vVD w)).toNat i = maskBit (cmpMask s core t w n).toNat i := fun i => by
      rw [hdone.vreg, vreg_setVreg_same]
    refine ⟨_, rfl, hdone.frame, hdone.cores, hsteps, hdone.vregs, fun i h => ?_, fun i h => ?_⟩
    · exact (hbit i).trans ((maskBit_cmpMask hn i).trans (if_pos h))
    · exact (hbit i).trans ((maskBit_cmpMask hn i).trans (if_neg (by omega)))
  · intro hop
    have hrole : (vRole w).va = .flow ∧ (vRole w).vb = .flow := by simp [vRole, hop]
    have hn : n ≤ perReg (vFMT w) := le_perReg_of_starts hst (by simp [elemFmts, hop])
    have hlen : (selResult s core t w n).length = n := by simp [selResult]
    have hbody : vecBody s core t w n (vxEntry s core t (slotOf s core t).pc w) = vxeElementwise s core t w n := by unfold vecBody; rw [hop]
    have hrun := tail_of_lengthed hi hs (by rw [hop]; decide) (by rw [hop]; decide) (by rw [hop]; decide) (slotOf s core t).pc
      (hbody.trans (vxeElementwise_vsel hop (length_srcA hst hrole.1 _) (length_srcB hst hrole.2 _)))
    obtain ⟨hdone, hsteps⟩ := vecDone_of_step (lead := (· = .vsel)) hc hi (by rw [hop]; decide) (by simp [hop]) (by simp) hrun
      (vecStep_putAny [] s core t (vVD w) (vFMT w) _)
    refine ⟨_, rfl, hdone.frame, hdone.cores, hsteps, hdone.vregs, fun hvd => ?_, fun hvd i h => ?_, fun hvd i h hp => ?_⟩
    · rw [hdone.skid, skid_putResult_flo _ _ _ _ _ hvd, selResult, List.map_map]
      rfl
    · rw [hdone.lane_eq, lane_putResult _ _ _ _ _ hvd (h.trans_le hn), hlen, if_pos h, selResult, List.getD_eq_getElem _ _ (by simpa using h)]
      simp only [List.getElem_map, List.getElem_range]
    · rw [hdone.lane_eq, lane_putResult _ _ _ _ _ hvd hp, hlen, if_neg (by omega)]

end Sys2Proof.Safety
end

section
/-! PROOF. The words that write a scalar register (O10). -/

namespace Sys2Proof.Safety

open Sys2Proof.Machine

variable {s : State} {c t f w n : Nat}

/-- A scalar result with its flags. -/
def putScalar (s : State) (c t r v fl : Nat) : State := setFlags (setSreg s c t r (BitVec.ofNat 64 v)) c fl

theorem vecEffect_putScalar (s : State) (c t r v fl : Nat) : VecEffect [rFP_FLAGS c] [] c t s (putScalar s c t r v fl) :=
  (vecEffect_setSreg _ [] s c t r _).trans (vecEffect_of_vecStep (vecStep_setFlags [] _ c fl) t)

theorem sreg_putScalar_same (s : State) (c t r v fl : Nat) : sreg (putScalar s c t r v fl) c t r = BitVec.ofNat 64 v := by
  rw [putScalar, sreg_of_slot ((vecStep_setFlags [] _ c fl).slots t), sreg_setSreg_same]

theorem sreg_putScalar_other (s : State) (c t v fl : Nat) {r r' : Nat} (h : r' ≠ r) : sreg (putScalar s c t r v fl) c t r' = sreg s c t r' := by
  rw [putScalar, sreg_of_slot ((vecStep_setFlags [] _ c fl).slots t), sreg_setSreg_other _ _ _ _ h]

/-- The scalar result of VSTFIN at the start of the word; the word does not depend on n. -/
theorem vxeIssue_vstfin (hi : Issues s c t f w) (hs : StartsAt s c t w n) (hop : wOp w = .vstfin) (i : Nat) :
    vxeIssue s c t i w = vxeTimed (putScalar s c t (vSX w) (vstfinPair (fnMode2 w) (sreg s c t (vVA w)).toNat (sreg s c t (vVB w)).toNat).1
      (vstfinPair (fnMode2 w) (sreg s c t (vVA w)).toNat (sreg s c t (vVB w)).toNat).2) c t w n := by
  rw [vxeIssue_of_starts hs (lt_of_issues hi) (by rw [hop]; decide) (by rw [hop]; decide)]
  have ew : (vxEntry s c t i w).word.toNat = w := Nat.mod_eq_of_lt (lt_of_issues hi)
  have es : (vxEntry s c t i w).slot = t := rfl
  simp only [vxeRun, ew, es, hop, vxeScalar, putScalar]

theorem vxeIssue_vget (hi : Issues s c t f w) (hs : StartsAt s c t w n) (hop : wOp w = .vget) (i : Nat) :
    vxeIssue s c t i w = vxeTimed (setSreg s c t (vSX w) (BitVec.ofNat 64 (lane s c (vVA w) (vFMT w) (fnIndex w)))) c t w n := by
  rw [vxeIssue_of_starts hs (lt_of_issues hi) (by rw [hop]; decide) (by rw [hop]; decide)]
  have ew : (vxEntry s c t i w).word.toNat = w := Nat.mod_eq_of_lt (lt_of_issues hi)
  have es : (vxEntry s c t i w).slot = t := rfl
  simp only [vxeRun, ew, es, hop, vxeScalar, lane]

/-- What the command of a word leaves whose result is the scalar v. -/
theorem scalarDone {core : CoreId} {t : Nat} {lead : Op → Bool} {v : Nat} {b : State} (hi : Issues s core t f w) (hop : wOp w ∈ vectorOps) (hl : lead (wOp w) = true)
    (ht : Tail core b (vxeIssue s core t (slotOf s core t).pc w)) (he : VecEffect [rFP_FLAGS core] [] core t s b)
    (hsame : sreg b core t (vSX w) = BitVec.ofNat 64 v) (hother : ∀ r, r ≠ vSX w → sreg b core t r = sreg s core t r) :
    ∃ s', Host.Outcome.next (sequencer s core lead) = (.next s' : Host.Outcome State Fault Refusal) ∧ Frame (rFP_FLAGS core :: issueRegs core f) s s' ∧
      OtherCores core s s' ∧ OtherSlots core t s s' ∧ OtherVregs [] core s s' ∧ sreg s' core t (vSX w) = BitVec.ofNat 64 v ∧
      (∀ r, r ≠ vSX w → sreg s' core t r = sreg s core t r) ∧ (slotOf s' core t).pc = (slotOf s core t).pc + 1 := by
  have hd := vecDone_of_body core.isLt hi hop hl (by simp [rFP_FLAGS_ge]) ht he
  exact ⟨_, rfl, hd.frame, hd.cores, hd.slots, hd.vregs, (hd.sreg _).trans hsame, fun r hr => (hd.sreg r).trans (hother r hr), hd.pc⟩

/-- Settles O10: each word is one scalar result, with the flags of its reduction. -/
theorem scalarResultWordsWriteSx : Obligations.ScalarResultWordsWriteSx := by
  unfold Obligations.ScalarResultWordsWriteSx
  intro core s t f w n hi hs hn a old ha hold p hp hop
  subst ha hold
  simp only [List.mem_cons, List.not_mem_nil, or_false] at hp
  have hput : ∀ v fl, VecEffect [rFP_FLAGS core] [] core t s (putScalar s core t (vSX w) v fl) := fun v fl => vecEffect_putScalar s core t (vSX w) v fl
  have hsame := fun v fl => sreg_putScalar_same s core t (vSX w) v fl
  have hother := fun v fl r hr => sreg_putScalar_other s core t v fl (r := vSX w) (r' := r) hr
  have hbody : ∀ o v fl, o ∉ unlengthed → wOp w = o → o ≠ .vupdsr → o ≠ .vshuf →
      vecBody s core t w n (vxEntry s core t (slotOf s core t).pc w) = putScalar s core t (vSX w) v fl →
      Tail core (putScalar s core t (vSX w) v fl) (vxeIssue s core t (slotOf s core t).pc w) := by
    rintro o v fl ho rfl h1 h2 h
    have hn' : 0 < n := by
      rcases hn with h | h | h
      · exact h
      · exact absurd (by rw [h]; decide) ho
      · exact absurd (by rw [h]; decide) ho
    exact tail_of_lengthed hi ⟨hs, hn'⟩ ho h1 h2 _ h
  rcases hp with rfl | rfl | rfl | rfl
  · have h : vecBody s core t w n (vxEntry s core t (slotOf s core t).pc w) = putScalar s core t (vSX w)
        (vredLanes (fnRedMode w) (vFMT w) (fnAcc w) (sreg s core t (vSX w)).toNat (srcLanes s core t false (vVA w) (vFMT w) n)).1
        (vredLanes (fnRedMode w) (vFMT w) (fnAcc w) (sreg s core t (vSX w)).toNat (srcLanes s core t false (vVA w) (vFMT w) n)).2 := by
      simp only [vecBody, show wOp w = .vred from hop, vxeScalar, putScalar]
    exact scalarDone (lead := (· = .vred)) hi (by rw [show wOp w = .vred from hop]; decide) (by simp [hop])
      (hbody .vred _ _ (by decide) hop (by decide) (by decide) h) (hput _ _) (hsame _ _) (hother _ _)
  · have h : vecBody s core t w n (vxEntry s core t (slotOf s core t).pc w) = putScalar s core t (vSX w)
        (vstatLanes (fnMode2 w) (vFMT w) (sreg s core t (vSX w)).toNat (srcLanes s core t false (vVA w) (vFMT w) n)).1
        (vstatLanes (fnMode2 w) (vFMT w) (sreg s core t (vSX w)).toNat (srcLanes s core t false (vVA w) (vFMT w) n)).2 := by
      simp only [vecBody, show wOp w = .vstat from hop, vxeScalar, putScalar]
    exact scalarDone (lead := (· = .vstat)) hi (by rw [show wOp w = .vstat from hop]; decide) (by simp [hop])
      (hbody .vstat _ _ (by decide) hop (by decide) (by decide) h) (hput _ _) (hsame _ _) (hother _ _)
  · exact scalarDone (lead := (· = .vstfin)) hi (by rw [show wOp w = .vstfin from hop]; decide) (by simp [hop]) (vxeIssue_vstfin hi hs hop _ ▸ tail_vxeTimed _ _ _ _ _) (hput _ _) (hsame _ _)
      (hother _ _)
  · exact scalarDone (lead := (· = .vget)) hi (by rw [show wOp w = .vget from hop]; decide) (by simp [hop]) (vxeIssue_vget hi hs hop _ ▸ tail_vxeTimed _ _ _ _ _)
      (vecEffect_setSreg _ _ s core t _ _) (sreg_setSreg_same _ _ _ _ _) fun r hr => sreg_setSreg_other _ _ _ _ hr

end Sys2Proof.Safety
end

section
/-! PROOF. VPERM, VSHUF, VPACK and VUNPK (O11). -/

namespace Sys2Proof.Machine

theorem lane_lt (x f i : Nat) : bits x (laneBits f * i) (laneBits f) < 2 ^ laneBits f := bits_lt _ _ _

/-- Packed lanes: as many as mask bits are set, each from the place of its bit (R106). -/
theorem packSel_eq (m : Nat) (g : Nat → Nat) (k n : Nat) :
    packSel m k ((List.range' k n).map g) = ((List.range' k n).filter fun i => maskBit m i).map g := by
  induction n generalizing k with
  | zero => rfl
  | succ n ih =>
    simp only [List.range'_succ, List.map_cons, packSel, ih, List.filter_cons]
    split <;> rfl

theorem unpackLanes_eq (w x n : Nat) : unpackLanes w x n = (List.range' 0 n).map fun i => bits x (w * i) w := by
  rw [unpackLanes, List.range_eq_range']

/-- Unpacked lanes: a set bit takes the next source lane, the others keep theirs (R106). -/
theorem getD_unpkSel (m : Nat) (old src : List Nat) (k : Nat) {i : Nat} (h : i < old.length) :
    (unpkSel m k old src).getD i 0 = if maskBit m (k + i) then src.getD ((List.range' k i).filter fun j => maskBit m j).length 0 else old.getD i 0 := by
  induction old generalizing k i src with
  | nil => exact absurd h (Nat.not_lt_zero i)
  | cons o old ih =>
    cases i with
    | zero => 
      simp only [unpkSel, Nat.add_zero, List.range'_zero, List.filter_nil, List.length_nil]
      split <;> cases src <;> simp
    | succ i =>
      have h' : i < old.length := by simpa using h
      have hk : k + (i + 1) = k + 1 + i := by omega
      simp only [unpkSel, List.range'_succ, List.filter_cons, hk]
      split
      · rw [List.getD_cons_succ, ih _ _ h', List.length_cons, getD_tail, List.getD_cons_succ]
      · rw [List.getD_cons_succ, ih _ _ h', List.getD_cons_succ]

theorem length_unpkSel (m k : Nat) (old src : List Nat) : (unpkSel m k old src).length = old.length := by
  induction old generalizing k src with
  | nil => rfl
  | cons o old ih =>
    unfold unpkSel
    split <;> simp [ih]

end Sys2Proof.Machine

namespace Sys2Proof.Safety

open Sys2Proof.Machine

variable {s : State} {c t f w n : Nat}

/-- What the command of a word leaves whose results go into the register VD. -/
theorem regDone {core : CoreId} {t : Nat} {lead : Op → Bool} {fm : Nat} {cs : List Nat} (hi : Issues s core t f w) (hop : wOp w ∈ vectorOps) (hl : lead (wOp w) = true)
    (hvd : vVD w ≠ 32) (ht : Tail core (putResult s core t (vVD w) fm cs) (vxeIssue s core t (slotOf s core t).pc w)) :
    Frame (issueRegs core f) s (sequencer s core lead) ∧ OtherVregs [vVD w] core s (sequencer s core lead) ∧ StepsOn s (sequencer s core lead) core t ∧
      ∀ i, i < perReg fm → lane (sequencer s core lead) core (vVD w) fm i = if i < cs.length then cs.getD i 0 % 2 ^ laneBits fm else lane s core (vVD w) fm i := by
  obtain ⟨hd, hsteps⟩ := vecDone_of_step core.isLt hi hop hl (by simp) ht (vecStep_putResult [] s core t fm cs hvd)
  exact ⟨hd.frame, hd.vregs, hsteps, fun i h => (hd.lane_eq _ _ _).trans (lane_putResult s core t fm cs hvd h)⟩

/-- The fields of a word that issues are in range (R151 to R154). -/
theorem vRange_of_issues (h : Issues s c t f w) (hv : isVec w = true) : vRange w = false ∧ vFormat w = false ∧ vParity w = false := by
  have hr := wordReason_of_issues h
  unfold wordReason at hr
  split at hr
  · cases hr
  · split at hr
    · cases hr
    · split at hr
      · cases hr
      · split at hr
        · cases hr
        · split at hr
          · cases hr
          · split at hr
            · cases hr
            · simp_all

theorem vd_lt_of_vec (h : vRange w = false) (hr : (vRole w).vd = .vec) : vVD w < 32 := by
  simp only [vRange, Bool.or_eq_false_iff] at h
  have := h.1.1.1.1.1.1.1
  simp only [hr, operandBad, decide_eq_false_iff_not] at this
  omega

/-- A format of whole bytes has at most 1,024 lanes in a register (R464). -/
theorem perReg_le_of_whole {fm : Nat} (h : fmtWhole fm = true) : perReg fm ≤ 1024 := by
  have h11 : fm < 11 := by
    simp only [fmtWhole, Bool.or_eq_true, decide_eq_true_eq, beq_iff_eq] at h
    omega
  have key : ∀ g, g < 11 → fmtWhole g = true → perReg g ≤ 1024 := by decide
  exact key fm h11 h

/-- Lanes of a register, unpacked. -/
theorem getD_lanes {s : State} {c r fm : Nat} {n i : Nat} (h : i < n) : (unpackLanes (laneBits fm) (vreg s c r).toNat n).getD i 0 = lane s c r fm i := getD_unpackLanes _ _ h

-- VPERM ------------------------------------------------------------------------------------------------------------------------------

/-- The indexes that VPERM reads, from one register or two (R104). -/
def permIdx (s : State) (c w n : Nat) : List Nat :=
  unpackLanes 16 (vreg s c (vVC w)).toNat (min n 512) ++ (if n ≤ 512 then [] else unpackLanes 16 (vreg s c (vVC w + 1)).toNat (n - 512))

theorem length_permIdx (s : State) (c w n : Nat) : (permIdx s c w n).length = n := by
  unfold permIdx
  split
  · rw [List.append_nil, length_unpackLanes]; omega
  · rw [List.length_append, length_unpackLanes, length_unpackLanes]; omega

theorem getD_permIdx (s : State) (c w : Nat) {n i : Nat} (h : i < n) (hn : n ≤ 1024) :
    (permIdx s c w n).getD i 0 = bits (vreg s c (vVC w + i / 512)).toNat (16 * (i % 512)) 16 := by
  unfold permIdx
  by_cases hi : i < 512
  · rw [List.getD_append _ _ _ _ (by rw [length_unpackLanes]; omega), getD_unpackLanes _ _ (by omega), Nat.div_eq_of_lt hi, Nat.mod_eq_of_lt hi, Nat.add_zero]
  · rw [List.getD_append_right _ _ _ _ (by rw [length_unpackLanes]; omega), length_unpackLanes, if_neg (by omega), getD_unpackLanes _ _ (by omega),
      show i / 512 = 1 by omega, show i - min n 512 = i % 512 by omega]

theorem getD_permLanes (n : Nat) (vs idx : List Nat) {i : Nat} (h : i < idx.length) :
    (permLanes n vs idx).getD i 0 = if 0 ≤ signed 16 (idx.getD i 0) ∧ signed 16 (idx.getD i 0) < n then vs.getD (signed 16 (idx.getD i 0)).toNat 0 else 0 := by
  rw [List.getD_eq_getElem _ _ (by simpa [permLanes] using h), List.getD_eq_getElem idx _ h]
  simp [permLanes]

theorem length_permLanes (n : Nat) (vs idx : List Nat) : (permLanes n vs idx).length = idx.length := by simp [permLanes]

-- VSHUF ------------------------------------------------------------------------------------------------------------------------------

theorem length_shufLanes (pat k n : Nat) (a b : List Nat) : (shufLanes pat k n a b).length = n := by simp [shufLanes]

/-- A shuffle makes no new value: its lanes are those of its operands, or 0. -/
theorem shufLanes_lt {pat k n N : Nat} {a b : List Nat} (ha : ∀ x ∈ a, x < 2 ^ N) (hb : ∀ x ∈ b, x < 2 ^ N) {i : Nat} (h : i < n) :
    (shufLanes pat k n a b).getD i 0 < 2 ^ N := by
  have hget : ∀ {l : List Nat}, (∀ x ∈ l, x < 2 ^ N) → ∀ j, l.toArray.getD j 0 < 2 ^ N := by
    intro l hl j
    by_cases hj : j < l.length
    · simpa [hj] using hl _ (List.getElem_mem hj)
    · simp [hj]
  rw [List.getD_eq_getElem _ _ (by simpa [shufLanes] using h)]
  simp only [shufLanes, List.getElem_map, List.getElem_range]
  split
  · exact hget ha _
  · exact hget ha _
  · split
    · exact hget ha _
    · exact hget hb _
  · split
    · exact hget ha _
    · exact hget hb _
  · split
    · exact hget ha _
    · exact hget hb _
  · split
    · exact hget ha _
    · exact hget hb _
  · exact hget ha _

theorem getD_shufLanes_reverse (k n : Nat) {a : List Nat} (b : List Nat) (_ha : a.length = n) {i : Nat} (h : i < n) :
    (shufLanes 0 k n a b).getD i 0 = a.getD (n - 1 - i) 0 := by
  rw [List.getD_eq_getElem _ _ (by simpa [shufLanes] using h)]
  simp [shufLanes]

theorem getD_shufLanes_rotate (k n : Nat) (a b : List Nat) {i : Nat} (h : i < n) : (shufLanes 1 k n a b).getD i 0 = a.getD ((i + k) % n) 0 := by
  rw [List.getD_eq_getElem _ _ (by simpa [shufLanes] using h)]
  simp [shufLanes]

/-- A shuffle that starts, whose length R105 allows. -/
theorem tail_of_vshuf (hi : Issues s c t f w) (hs : Starts s c t w n) (hop : wOp w = .vshuf) (hbad : shufBad (fnPat w) n = false) (i : Nat) :
    Tail c (vxePermute s c t w n) (vxeIssue s c t i w) := by
  obtain ⟨⟨hq, hready, hpar, hn⟩, h0⟩ := hs
  have ew : (vxEntry s c t i w).word.toNat = w := Nat.mod_eq_of_lt (lt_of_issues hi)
  have es : (vxEntry s c t i w).slot = t := rfl
  have ep : (vxEntry s c t i w).puts = [] := rfl
  have hrun := vxeRun_of_lengthed (s := s) (c := c) (by rw [hop]; decide) (Nat.pos_iff_ne_zero.1 h0) (vxEntry s c t i w) es ew hn
  have heq : vxeIssue s c t i w = vecTail (vxePermute s c t w n) c t w n (fliNeed (slotOf s c t).vl w) := by
    have hbody : vecBody s c t w n (vxEntry s c t i w) = vxePermute s c t w n := by unfold vecBody; rw [hop]
    rw [hbody] at hrun
    simp only [vxeIssue, hop, false_and, if_false, hq, List.isEmpty_nil, hready, Bool.and_self, if_true, vxeStart, ew, es, ep, ← hn, hbad, decide_true, Bool.true_and,
      Bool.false_eq_true, hpar, List.foldl_nil, hrun, vecTail, reduceCtorEq]
  rw [heq]
  exact tail_vecTail _ c t w n _

-- the statement ------------------------------------------------------------------------------------------------------------------------

theorem lanes_lt (x w n : Nat) : ∀ y ∈ unpackLanes w x n, y < 2 ^ w := by
  intro y hy
  obtain ⟨i, -, rfl⟩ := List.mem_map.1 hy
  exact bits_lt _ _ _

theorem lane_mod (s : State) (c r fm i : Nat) : lane s c r fm i % 2 ^ laneBits fm = lane s c r fm i := Nat.mod_eq_of_lt (bits_lt _ _ _)

/-- Settles O11: each word puts a list of operand lanes into its destination, and a lane fits its own width. -/
theorem permutesMoveLanes : Obligations.PermutesMoveLanes := by
  unfold Obligations.PermutesMoveLanes
  intro core s t f w n hi hs q hq
  subst hq
  have hst := hs.1
  refine ⟨fun hop => ?_, fun hop hbad => ?_, fun hop => ?_, fun hop => ?_⟩
  · have hv : wOp w ∈ vectorOps := by rw [hop]; decide
    obtain ⟨hr, hfm, -⟩ := vRange_of_issues hi (isVec_of_vectorOp hv)
    have hvd : vVD w ≠ 32 := (vd_lt_of_vec hr (by simp [vRole, hop])).ne
    have hn : n ≤ perReg (vFMT w) := le_perReg_of_starts hst (by simp [elemFmts, hop])
    have hwhole : fmtWhole (vFMT w) = true := by simpa [vFormat, vRole, hop] using hfm
    have hbody : vecBody s core t w n (vxEntry s core t (slotOf s core t).pc w) =
        putResult s core t (vVD w) (vFMT w) (permLanes n (unpackLanes (laneBits (vFMT w)) (vreg s core (vVA w)).toNat n) (permIdx s core w n)) := by
      simp only [vecBody, hop, vxePermute, permIdx]
    obtain ⟨hframe, hvregs, hsteps, hlane⟩ := regDone (lead := (· = .vperm)) hi hv (by simp [hop]) hvd
      (tail_of_lengthed hi hs (by rw [hop]; decide) (by rw [hop]; decide) (by rw [hop]; decide) _ hbody)
    refine ⟨_, rfl, hframe, hvregs, hsteps, fun i h k hk => ?_⟩
    have hx := length_permIdx s core w n
    rw [hlane i (h.trans_le hn), length_permLanes, hx, if_pos h, getD_permLanes _ _ _ (hx.symm ▸ h), getD_permIdx s core w h (hn.trans (perReg_le_of_whole hwhole)), ← hk]
    split
    · rename_i hk'
      rw [getD_lanes (by omega), lane_mod]
    · exact Nat.zero_mod _
  · have hv : wOp w ∈ vectorOps := by rw [hop]; decide
    obtain ⟨hr, -, -⟩ := vRange_of_issues hi (isVec_of_vectorOp hv)
    have hvd : vVD w ≠ 32 := (vd_lt_of_vec hr (by simp [vRole, hop])).ne
    have hn : n ≤ perReg (vFMT w) := le_perReg_of_starts hst (by simp [elemFmts, hop])
    have ht := tail_of_vshuf hi hs hop hbad (slotOf s core t).pc
    rw [show vxePermute s core t w n = putResult s core t (vVD w) (vFMT w) (shufLanes (fnPat w) (bits (sreg s core t (vSX w)).toNat 0 16) n
      (unpackLanes (laneBits (vFMT w)) (vreg s core (vVA w)).toNat n) (unpackLanes (laneBits (vFMT w)) (vreg s core (vVB w)).toNat n)) by
      simp only [vxePermute, hop]] at ht
    obtain ⟨hframe, hvregs, hsteps, hlane⟩ := regDone (lead := (· = .vshuf)) hi hv (by simp [hop]) hvd ht
    have hk : bits (sreg s core t (vSX w)).toNat 0 16 = (sreg s core t (vSX w)).toNat % 2 ^ 16 := by rw [bits_eq_div_mod, pow_zero, Nat.div_one]
    have hval : ∀ i, i < n → lane (sequencer s core (· = .vshuf)) core (vVD w) (vFMT w) i = (shufLanes (fnPat w) ((sreg s core t (vSX w)).toNat % 2 ^ 16) n
        ((List.range n).map (lane s core (vVA w) (vFMT w))) ((List.range n).map (lane s core (vVB w) (vFMT w)))).getD i 0 := by
      intro i h
      rw [hlane i (h.trans_le hn), length_shufLanes, if_pos h, Nat.mod_eq_of_lt (shufLanes_lt (lanes_lt _ _ _) (lanes_lt _ _ _) h), hk]
      rfl
    have hmap : ∀ r i, i < n → ((List.range n).map (lane s core r (vFMT w))).getD i 0 = lane s core r (vFMT w) i := fun r i h => getD_lanes (r := r) h
    refine ⟨_, rfl, hframe, hvregs, hsteps, hval, fun hpat i h => ?_, fun hpat i h => ?_⟩
    · rw [hval i h, hpat, getD_shufLanes_reverse _ _ _ (by simp) h, hmap _ _ (by omega)]
    · rw [hval i h, hpat, getD_shufLanes_rotate _ _ _ _ h, hmap _ _ (Nat.mod_lt _ (by omega))]
  · have hv : wOp w ∈ vectorOps := by rw [hop]; decide
    obtain ⟨hr, -, -⟩ := vRange_of_issues hi (isVec_of_vectorOp hv)
    have hvd : vVD w ≠ 32 := (vd_lt_of_vec hr (by simp [vRole, hop])).ne
    have hn : n ≤ perReg (vFMT w) := le_perReg_of_starts hst (by simp [elemFmts, hop])
    set ones := (List.range n).filter fun i => maskBit (vreg s core (vVC w)).toNat i with hones
    have hsel : packSel (vreg s core (vVC w)).toNat 0 (unpackLanes (laneBits (vFMT w)) (vreg s core (vVA w)).toNat n) = ones.map (lane s core (vVA w) (vFMT w)) := by
      rw [unpackLanes_eq, packSel_eq, ← List.range_eq_range']
      rfl
    have hlen : ones.length ≤ n := (List.length_filter_le _ _).trans (by simp)
    have hbody : vecBody s core t w n (vxEntry s core t (slotOf s core t).pc w) =
        setSreg (putResult s core t (vVD w) (vFMT w) (ones.map (lane s core (vVA w) (vFMT w)))) core t (vSX w) (BitVec.ofNat 64 ones.length) := by
      simp only [vecBody, hop, vxePermute, hsel, List.length_map]
    have hd := vecDone_of_body (lead := (· = .vpack)) core.isLt hi hv (by simp [hop]) (by simp)
      (tail_of_lengthed hi hs (by rw [hop]; decide) (by rw [hop]; decide) (by rw [hop]; decide) _ hbody)
      ((vecEffect_of_vecStep (vecStep_putResult [] s core t (vFMT w) _ hvd) t).trans (vecEffect_setSreg [] [vVD w] _ core t _ _))
    have hlane : ∀ i, i < perReg (vFMT w) → lane (sequencer s core (· = .vpack)) core (vVD w) (vFMT w) i =
        if i < ones.length then (ones.map (lane s core (vVA w) (vFMT w))).getD i 0 % 2 ^ laneBits (vFMT w) else lane s core (vVD w) (vFMT w) i := by
      intro i h
      rw [hd.lane_eq, lane, setSreg, vreg_modSlot, ← lane, lane_putResult _ _ _ _ _ hvd h, List.length_map]
    refine ⟨_, rfl, hd.frame, hd.vregs, ?_⟩
    rintro _ rfl
    refine ⟨(hd.sreg _).trans (sreg_setSreg_same _ _ _ _ _), fun j h => ?_, fun j h hp => ?_⟩
    · rw [hlane j (by omega), if_pos h, List.getD_eq_getElem _ _ (by simpa using h), List.getD_eq_getElem _ _ h, List.getElem_map, lane_mod]
    · rw [hlane j hp, if_neg (by omega)]
  · have hv : wOp w ∈ vectorOps := by rw [hop]; decide
    obtain ⟨hr, -, -⟩ := vRange_of_issues hi (isVec_of_vectorOp hv)
    have hvd : vVD w ≠ 32 := (vd_lt_of_vec hr (by simp [vRole, hop])).ne
    have hn : n ≤ perReg (vFMT w) := le_perReg_of_starts hst (by simp [elemFmts, hop])
    have hbody : vecBody s core t w n (vxEntry s core t (slotOf s core t).pc w) = putResult s core t (vVD w) (vFMT w)
        (unpkSel (vreg s core (vVC w)).toNat 0 (unpackLanes (laneBits (vFMT w)) (vreg s core (vVD w)).toNat n) (unpackLanes (laneBits (vFMT w)) (vreg s core (vVA w)).toNat n)) := by
      simp only [vecBody, hop, vxePermute]
    obtain ⟨hframe, hvregs, hsteps, hlane⟩ := regDone (lead := (· = .vunpk)) hi hv (by simp [hop]) hvd
      (tail_of_lengthed hi hs (by rw [hop]; decide) (by rw [hop]; decide) (by rw [hop]; decide) _ hbody)
    refine ⟨_, rfl, hframe, hvregs, hsteps, fun i h => ?_⟩
    have hold := length_unpackLanes (laneBits (vFMT w)) (vreg s core (vVD w)).toNat n
    rw [hlane i (h.trans_le hn), length_unpkSel, hold, if_pos h, getD_unpkSel _ _ _ _ (hold.symm ▸ h), Nat.zero_add, ← List.range_eq_range']
    split
    · have : ((List.range i).filter fun j => maskBit (vreg s core (vVC w)).toNat j).length ≤ i := (List.length_filter_le _ _).trans (by simp)
      rw [getD_lanes (by omega), lane_mod]
    · rw [getD_lanes h, lane_mod]

end Sys2Proof.Safety
end

section
/-! PROOF. VCVT, VNORM, VUPDSR and VSETVL (O12). -/

namespace Sys2Proof.Machine

-- the lanes of conversions ---------------------------------------------------------------------------------------------------------------

theorem length_srcValues (fm : Nat) (scales : List Nat) (i : Nat) (cs : List Nat) : (srcValues fm scales i cs).length = cs.length := by
  induction cs generalizing i with
  | nil => rfl
  | cons c cs ih => simp [srcValues, ih]

theorem length_toPlainLanes (d rm : Nat) (sat : Bool) (vs : List FV) : (toPlainLanes d rm sat vs).1.length = vs.length := by
  induction vs with
  | nil => rfl
  | cons v vs ih => simp [toPlainLanes, ih]

theorem getD_toPlainLanes (d rm : Nat) (sat : Bool) (vs : List FV) {i : Nat} (h : i < vs.length) :
    (toPlainLanes d rm sat vs).1.getD i 0 = (toPlain d rm sat (vs.getD i .nan)).code := by
  induction vs generalizing i with
  | nil => exact absurd h (Nat.not_lt_zero i)
  | cons v vs ih =>
    cases i with
    | zero => simp [toPlainLanes]
    | succ i => simpa [toPlainLanes] using ih (by simpa using h)

/-- The blocks of a list of values hold them all. -/
theorem length_flatten_blocksOf (k : Nat) (vs : List FV) (h : vs.length ≤ 32 * k) : (blocksOf vs k).flatten.length = vs.length := by
  induction k generalizing vs with
  | zero => rw [List.length_eq_zero_iff.1 (by omega : vs.length = 0)]; rfl
  | succ k ih =>
    unfold blocksOf
    split
    · rename_i he; rw [List.isEmpty_iff.1 he]; rfl
    · rw [List.flatten_cons, List.length_append, ih _ (by rw [List.length_drop]; omega), List.length_take, List.length_drop]
      omega

theorem length_blocksOf_le (k : Nat) (vs : List FV) : (blocksOf vs k).length ≤ k := by
  induction k generalizing vs with
  | zero => simp [blocksOf]
  | succ k ih =>
    unfold blocksOf
    split
    · simp
    · simpa using ih _

theorem length_mxQuantise (d : Nat) (b : List FV) : (mxQuantise d b).2.1.length = b.length := by
  unfold mxQuantise
  split
  · simp
  · split <;> simp [mxElements]

theorem length_toMxLanes (d : Nat) (bs : List (List FV)) :
    (toMxLanes d none bs).1.length = bs.flatten.length ∧ (toMxLanes d none bs).2.1.length = bs.length := by
  induction bs with
  | nil => exact ⟨rfl, rfl⟩
  | cons b bs ih =>
    obtain ⟨h1, h2⟩ := ih
    simp [toMxLanes, h1, h2, length_mxQuantise]

theorem packLanes_lt (w : Nat) (cs : List Nat) : packLanes w cs < 2 ^ (w * cs.length) := by
  induction cs with
  | nil => simp [packLanes]
  | cons c cs ih =>
    rw [packLanes, List.length_cons, Nat.mul_add, Nat.mul_one, Nat.add_comm (w * _), pow_add]
    have hc := Nat.mod_lt c (Nat.two_pow_pos w)
    nlinarith [Nat.two_pow_pos w]

-- the lanes of VNORM and VUPDSR ----------------------------------------------------------------------------------------------------------

theorem length_normLanes (mode gain bias fm om pair : Nat) (xs gs bs : List Nat) : (normLanes mode gain bias fm om pair xs gs bs).1.length = xs.length := by
  induction xs generalizing gs bs with
  | nil => rfl
  | cons x xs ih => simp [normLanes, ih]

theorem getD_normLanes (mode gain bias fm om pair : Nat) (xs gs bs : List Nat) {i : Nat} (h : i < xs.length) :
    (normLanes mode gain bias fm om pair xs gs bs).1.getD i 0 = (toFloat (floatSpec om) 0 false (dec32 (normLane mode gain fm pair (xs.getD i 0) (gs.getD i 0)
      (if bias = 1 then to32 fm (bs.getD i 0) else 0)).1)).code := by
  induction xs generalizing gs bs i with
  | nil => exact absurd h (Nat.not_lt_zero i)
  | cons x xs ih =>
    cases i with
    | zero => cases gs <;> cases bs <;> simp [normLanes]
    | succ i =>
      have h' : i < xs.length := by simpa using h
      simp only [normLanes, List.getD_cons_succ, ih _ _ h', getD_tail]

theorem length_updLanes (fm um : Nat) (k : Int) (sat : Bool) (seed : BitVec 64) (ck step idx : Nat) (ws us : List Nat) :
    (updLanes fm um k sat seed ck step idx ws us).1.length = ws.length := by
  induction ws generalizing us idx with
  | nil => rfl
  | cons x ws ih => simp [updLanes, ih]

theorem getD_updLanes (fm um : Nat) (k : Int) (sat : Bool) (seed : BitVec 64) (ck step idx : Nat) (ws us : List Nat) {i : Nat} (h : i < ws.length) :
    (updLanes fm um k sat seed ck step idx ws us).1.getD i 0 = (updLane fm um k sat (srDraw seed ck step (idx + i)) (ws.getD i 0) (us.getD i 0)).code := by
  induction ws generalizing us idx i with
  | nil => exact absurd h (Nat.not_lt_zero i)
  | cons x ws ih =>
    cases i with
    | zero => cases us <;> simp [updLanes]
    | succ i =>
      have h' : i < ws.length := by simpa using h
      have he : idx + 1 + i = idx + (i + 1) := by omega
      simp only [updLanes, List.getD_cons_succ, ih _ _ h', getD_tail, he]

end Sys2Proof.Machine

namespace Sys2Proof.Safety

open Sys2Proof.Machine

variable {s : State} {c t f w n : Nat}

/-- A source that is not a scalar has n lanes. -/
theorem length_srcPlain (h : StartsAt s c t w n) (hr : (vRole w).va = .flow) (hscl : vSCL w = 0) (fm : Nat) : (srcLanes s c t false (vVA w) fm n).length = n := by
  have := length_srcA h hr fm
  rwa [hscl] at this

theorem vSCL_of_issues (h : Issues s c t f w) (hv : isVec w = true) (hr : (vRole w).sclMax = 0) : vSCL w = 0 := by
  obtain ⟨hrange, -, -⟩ := vRange_of_issues h hv
  simp only [vRange, Bool.or_eq_false_iff, hr, decide_eq_false_iff_not] at hrange
  obtain ⟨⟨⟨⟨-, h0⟩, -⟩, -⟩, -⟩ := hrange
  omega

/-- The values that VCVT converts. -/
def cvtValues (s : State) (c t w n : Nat) : List FV :=
  srcValues (vFMT w) (if fmtIsMx (vFMT w) then unpackLanes 8 (vreg s c (vVA w + 1)).toNat (ceilDiv n 32) else []) 0 (srcLanes s c t false (vVA w) (vFMT w) n)

theorem vxeConvert_plain (hd : fmtIsMx (fnDfmt w) = false) (scale : Nat) :
    vxeConvert s c t w n scale = setFlags (putResult s c t (vVD w) (fnDfmt w) (toPlainLanes (fnDfmt w) (fnRm w) (fnSat w == 1) (cvtValues s c t w n)).1) c
      (toPlainLanes (fnDfmt w) (fnRm w) (fnSat w == 1) (cvtValues s c t w n)).2 := by
  simp only [vxeConvert, hd, Bool.false_eq_true, if_false, cvtValues]

/-- The lanes, the block scales and the flags of a conversion to an MX format. -/
def mxResult (s : State) (c t w n scale : Nat) : List Nat × List Nat × Nat :=
  toMxLanes (fnDfmt w) (if fnSsrc w = 1 then some scale else none) (blocksOf (cvtValues s c t w n) (ceilDiv n 32))

theorem vxeConvert_mx (hd : fmtIsMx (fnDfmt w) = true) (scale : Nat) :
    vxeConvert s c t w n scale = setFlags (setVreg (putResult s c t (vVD w) (fnDfmt w) (mxResult s c t w n scale).1) c (vVD w + 1)
      (BitVec.ofNat 8192 (packLanes 8 (mxResult s c t w n scale).2.1))) c (mxResult s c t w n scale).2.2 := by
  simp only [vxeConvert, hd, if_true, cvtValues, mxResult]

theorem ceilDiv32_bounds (n : Nat) : n ≤ 32 * ceilDiv n 32 ∧ (n ≤ 8192 → 8 * ceilDiv n 32 ≤ 8192) := by
  unfold ceilDiv
  omega

/-- A step in registers of a shorter list. -/
theorem VecStep.mono {l l' rs rs' : List Nat} {s s' : State} (hl : l ⊆ l') (hr : rs ⊆ rs') (h : VecStep l rs c s s') : VecStep l' rs' c s s' :=
  ⟨h.frame.mono hl, h.cores, h.slots, fun r hr' => h.vregs r fun e => hr' (hr e)⟩

theorem lane_setVreg_other (s : State) (c : Nat) {r r' : Nat} (v : BitVec 8192) (h : r' ≠ r) (fm i : Nat) : lane (setVreg s c r v) c r' fm i = lane s c r' fm i := by
  rw [lane, (vecStep_setVreg [] s c r v).vregs r' (by simpa using h), ← lane]

/-- VUPDSR where no roll is due and no monitor gathers. -/
theorem vxeIssue_vupdsr (hi : Issues s c t f w) (hs : Starts s c t w n) (hop : wOp w = .vupdsr) (hroll : getB s (rSCL_CTL c) 0 = false) (i : Nat) :
    vxeIssue s c t i w = vecTail (vxeUpdate s c t w n (sreg s c t (vSX w)).toNat ((sreg s c t (vSX w + 1)).toNat % 2 ^ 32)) c t w n (fliNeed (slotOf s c t).vl w) := by
  obtain ⟨⟨hq, hready, hpar, hn⟩, h0⟩ := hs
  have ew : (vxEntry s c t i w).word.toNat = w := Nat.mod_eq_of_lt (lt_of_issues hi)
  have es : (vxEntry s c t i w).slot = t := rfl
  have ep : (vxEntry s c t i w).puts = [] := rfl
  have hnow : ∀ r, sregNow s c t r = sreg s c t r := fun r => by simp [sregNow, hq, queuedWrite]
  have hrun := vxeRun_of_lengthed (s := s) (c := c) (by rw [hop]; decide) (Nat.pos_iff_ne_zero.1 h0) (vxEntry s c t i w) es ew hn
  have hbody : vecBody s c t w n (vxEntry s c t i w) = vxeUpdate s c t w n (sreg s c t (vSX w)).toNat ((sreg s c t (vSX w + 1)).toNat % 2 ^ 32) := by
    unfold vecBody
    rw [hop]
    simp only [vxEntry, hnow, bits_eq_div_mod, pow_zero, Nat.div_one]
  have hauto : ∀ step, autoRoll s c step = s := fun step => by simp [autoRoll, hroll]
  rw [hbody] at hrun
  simp only [vxeIssue, hauto, ite_self, hq, List.isEmpty_nil, hready, Bool.and_self, if_true, vxeStart, ew, es, ep, hop, reduceCtorEq, decide_false, Bool.false_and,
    Bool.false_eq_true, if_false, hpar, List.foldl_nil, hrun, ← hn, vecTail]

/-- The weights that VUPDSR writes, with its flags. -/
def updResult (s : State) (c t w n : Nat) : List Nat × Nat :=
  updLanes (vFMT w) (updFmt (fnUfmt w)) (fnK w) (fnUpdSat w == 1) (BitVec.ofNat 64 (getR64 s (rSR_SEED c))) (getF s (rSR_CORE c) 0 16)
    ((sreg s c t (vSX w + 1)).toNat % 2 ^ 32) ((sreg s c t (vSX w)).toNat % 2 ^ 40) (regLanes s c (vVA w) (vFMT w) n) (regLanes s c (vVB w) (updFmt (fnUfmt w)) n)

theorem vxeUpdate_plain (ha : vVA w ≠ 32) (hb : vVB w ≠ 32) (hm : fnMon w = 0) :
    vxeUpdate s c t w n (sreg s c t (vSX w)).toNat ((sreg s c t (vSX w + 1)).toNat % 2 ^ 32) =
      setFlags (putResult s c t (vVD w) (vFMT w) (updResult s c t w n).1) c (updResult s c t w n).2 := by
  simp only [vxeUpdate, srcLanes, ha, hb, Bool.false_eq_true, if_false, hm, Nat.zero_ne_one, updResult, bits_eq_div_mod, pow_zero, Nat.div_one]

theorem vxeIssue_vsetvl (hi : Issues s c t f w) (hop : wOp w = .vsetvl) (hq : (coreOf s c).vxq = []) (hready : vxeReady s c t w = true) (i : Nat) :
    vxeIssue s c t i w = vxeTimed (modSlot s c t fun x => { x with vl := setvlValue s c t w }) c t w (effLen (slotOf s c t).vl w) := by
  have hpar : vregParity s c t w = false := by simp [vregParity, vSources, vRole, hop]
  have ew : (vxEntry s c t i w).word.toNat = w := Nat.mod_eq_of_lt (lt_of_issues hi)
  have es : (vxEntry s c t i w).slot = t := rfl
  rw [vxeIssue_of_starts ⟨hq, hready, hpar, rfl⟩ (lt_of_issues hi) (by rw [hop]; decide) (by rw [hop]; decide)]
  simp only [vxeRun, ew, es, hop]

/-- What the command of a word leaves whose result goes where VD says, with its flags. -/
theorem anyDone {core : CoreId} {t : Nat} {lead : Op → Bool} {fm fl : Nat} {cs : List Nat} (hi : Issues s core t f w) (hop : wOp w ∈ vectorOps)
    (hl : lead (wOp w) = true) (ht : Tail core (setFlags (putResult s core t (vVD w) fm cs) core fl) (vxeIssue s core t (slotOf s core t).pc w)) :
    Frame (rFP_FLAGS core :: issueRegs core f) s (sequencer s core lead) ∧ OtherVregs (destRegs (vVD w)) core s (sequencer s core lead) ∧
      StepsOn s (sequencer s core lead) core t ∧ (vVD w = 32 → (skid (sequencer s core lead) core).length = (skid s core).length + cs.length) ∧
      (vVD w ≠ 32 → ∀ i, i < perReg fm → lane (sequencer s core lead) core (vVD w) fm i =
        if i < cs.length then cs.getD i 0 % 2 ^ laneBits fm else lane s core (vVD w) fm i) := by
  obtain ⟨hd, hsteps⟩ := vecDone_of_step core.isLt hi hop hl (by simp [rFP_FLAGS_ge]) ht
    (vecStep_elementwise [rFP_FLAGS core] (destRegs (vVD w)) (List.mem_singleton.2 rfl) fun _ h => h)
  refine ⟨hd.frame, hd.vregs, hsteps, fun hvd => ?_, fun hvd i h => ?_⟩
  · rw [hd.skid, skid_setFlags, skid_putResult_flo _ _ _ _ _ hvd, List.length_append, List.length_map]
  · rw [hd.lane_eq, lane, vreg_setFlags, ← lane, lane_putResult _ _ _ _ _ hvd h]

theorem getD_regLanes {s : State} {c r fm n i : Nat} (h : i < n) : (regLanes s c r fm n).getD i 0 = lane s c r fm i := getD_unpackLanes _ _ h

theorem vec_ne_of_vec (h : vRange w = false) : ((vRole w).va = .vec → vVA w ≠ 32) ∧ ((vRole w).vb = .vec → vVB w ≠ 32) := by
  simp only [vRange, Bool.or_eq_false_iff] at h
  obtain ⟨⟨⟨⟨⟨⟨⟨-, ha⟩, hb⟩, -⟩, -⟩, -⟩, -⟩, -⟩ := h
  constructor
  · intro hr e
    simp [operandBad, hr, e] at ha
  · intro hr e
    simp [operandBad, hr, e] at hb

/-- Settles O12: a conversion, a normalisation and an update are lists of results, as long as n, that go where VD says. -/
theorem convertNormaliseUpdateSetVl : Obligations.ConvertNormaliseUpdateSetVl := by
  unfold Obligations.ConvertNormaliseUpdateSetVl
  intro core s t f w n hi
  refine ⟨fun hop hs a x ha hx => ?_, fun hop hs => ?_, fun hop hs hmon hroll => ?_, fun hop hq hready => ?_⟩
  · have hst := hs.1
    have hv : wOp w ∈ vectorOps := by rw [hop]; decide
    have hscl := vSCL_of_issues hi (isVec_of_vectorOp hv) (by simp [vRole, hop])
    have hlen : (cvtValues s core t w n).length = n := (length_srcValues _ _ _ _).trans (length_srcPlain hst (by simp [vRole, hop]) hscl _)
    have hn : n ≤ perReg (fnDfmt w) := le_perReg_of_starts hst (by simp [elemFmts, hop])
    obtain rfl : x = cvtValues s core t w n := by rw [hx, ha, cvtValues]
    have htail := tail_of_lengthed hi hs (by rw [hop]; decide) (by rw [hop]; decide) (by rw [hop]; decide) (slotOf s core t).pc rfl
    rw [show vecBody s core t w n (vxEntry s core t (slotOf s core t).pc w) = vxeConvert s core t w n (vxEntry s core t (slotOf s core t).pc w).scale by
      unfold vecBody; rw [hop]] at htail
    by_cases hd : fmtIsMx (fnDfmt w) = true
    · rw [vxeConvert_mx hd] at htail
      obtain ⟨hrange, -, -⟩ := vRange_of_issues hi (isVec_of_vectorOp hv)
      have hvd : vVD w ≠ 32 := by
        simp only [vRange, hop, Bool.or_eq_false_iff, hd, Bool.true_and, beq_eq_false_iff_ne] at hrange
        exact hrange.2.1.2
      have hstep : ∀ sc, VecStep [rFP_FLAGS core] [vVD w, vVD w + 1] core s (setFlags (setVreg (putResult s core t (vVD w) (fnDfmt w) (mxResult s core t w n sc).1) core
          (vVD w + 1) (BitVec.ofNat 8192 (packLanes 8 (mxResult s core t w n sc).2.1))) core (mxResult s core t w n sc).2.2) := fun sc =>
        (((vecStep_putResult _ s core t _ _ hvd).mono (List.Subset.refl _) (by simp)).trans ((vecStep_setVreg _ _ core _ _).mono (List.Subset.refl _) (by simp))).trans
          (vecStep_setFlags _ _ core _)
      obtain ⟨hdone, hsteps⟩ := vecDone_of_step (lead := (· = .vcvt)) core.isLt hi hv (by simp [hop]) (by simp [rFP_FLAGS_ge]) htail (hstep _)
      refine ⟨_, rfl, hdone.frame, hsteps, ?_, fun e => absurd e hvd, fun e => absurd hd (by simp [e]), fun _ hsrc y hy => ?_⟩
      · rw [if_pos hd]; exact hdone.vregs
      · have hres : ∀ sc, mxResult s core t w n sc = y := fun sc => by rw [hy, mxResult, hsrc]; rfl
        have hb := ceilDiv32_bounds n
        obtain ⟨hl1, hl2⟩ := length_toMxLanes (fnDfmt w) (blocksOf (cvtValues s core t w n) (ceilDiv n 32))
        rw [← hy, length_flatten_blocksOf _ _ (by rw [hlen]; exact hb.1), hlen] at hl1
        rw [← hy] at hl2
        have hblocks := length_blocksOf_le (ceilDiv n 32) (cvtValues s core t w n)
        have hlt : packLanes 8 y.2.1 < 2 ^ 8192 := (packLanes_lt 8 _).trans_le
          (Nat.pow_le_pow_right (by decide) (by rw [hl2]; exact (Nat.mul_le_mul_left 8 hblocks).trans (hb.2 (hn.trans (perReg_le _)))))
        refine ⟨fun i h => ?_, ?_⟩
        · rw [hdone.lane_eq, lane, vreg_setFlags, ← lane, lane_setVreg_other _ _ _ (by omega), lane_putResult _ _ _ _ _ hvd (h.trans_le hn), hres, hl1, if_pos h]
        · rw [hdone.vreg, vreg_setFlags, vreg_setVreg_same, hres, BitVec.toNat_ofNat, Nat.mod_eq_of_lt hlt]
    · rw [Bool.not_eq_true] at hd
      rw [vxeConvert_plain hd] at htail
      obtain ⟨hframe, hvregs, hsteps, hskid, hlane⟩ := anyDone (lead := (· = .vcvt)) hi hv (by simp [hop]) htail
      have hl := (length_toPlainLanes (fnDfmt w) (fnRm w) (fnSat w == 1) (cvtValues s core t w n)).trans hlen
      refine ⟨_, rfl, hframe, hsteps, ?_, fun e => hl ▸ hskid e, fun _ hvd i h => ?_, fun e => absurd e (by simp [hd])⟩
      · rw [if_neg (by simp [hd])]; exact hvregs
      · rw [hlane hvd i (h.trans_le hn), hl, if_pos h, getD_toPlainLanes _ _ _ _ (hlen.symm ▸ h)]
  · have hst := hs.1
    have hv : wOp w ∈ vectorOps := by rw [hop]; decide
    have hscl := vSCL_of_issues hi (isVec_of_vectorOp hv) (by simp [vRole, hop])
    have hlen := length_srcPlain hst (show (vRole w).va = .flow by simp [vRole, hop]) hscl (vFMT w)
    have hn : n ≤ perReg (fnOfmt w) := le_perReg_of_starts hst (by simp [elemFmts, hop])
    have htail := tail_of_lengthed hi hs (by rw [hop]; decide) (by rw [hop]; decide) (by rw [hop]; decide) (slotOf s core t).pc rfl
    rw [show vecBody s core t w n (vxEntry s core t (slotOf s core t).pc w) = vxeNorm s core t w n by unfold vecBody; rw [hop]] at htail
    obtain ⟨hframe, hvregs, hsteps, hskid, hlane⟩ := anyDone (lead := (· = .vnorm)) hi hv (by simp [hop]) htail
    rw [length_normLanes, hlen] at hskid hlane
    refine ⟨_, rfl, hframe, hvregs, hsteps, hskid, ?_⟩
    rintro a g b hvd rfl rfl rfl i h
    rw [hlane hvd i (h.trans_le hn), if_pos h, getD_normLanes _ _ _ _ _ _ _ _ _ (hlen.symm ▸ h)]
  · have hst := hs.1
    have hv : wOp w ∈ vectorOps := by rw [hop]; decide
    obtain ⟨hrange, -, -⟩ := vRange_of_issues hi (isVec_of_vectorOp hv)
    obtain ⟨hva, hvb⟩ := vec_ne_of_vec hrange
    have hvd : vVD w ≠ 32 := (vd_lt_of_vec hrange (by simp [vRole, hop])).ne
    have hn : n ≤ perReg (vFMT w) := le_perReg_of_starts hst (by simp [elemFmts, hop])
    have hlen : (regLanes s core (vVA w) (vFMT w) n).length = n := length_unpackLanes _ _ _
    have hrun := vxeIssue_vupdsr hi hs hop hroll (slotOf s core t).pc
    rw [vxeUpdate_plain (hva (by simp [vRole, hop])) (hvb (by simp [vRole, hop])) hmon] at hrun
    obtain ⟨hframe, hvregs, hsteps, -, hlane⟩ := anyDone (lead := (· = .vupdsr)) hi hv (by simp [hop]) (hrun ▸ tail_vecTail _ _ _ _ _ _)
    have hl : (updResult s core t w n).1.length = n := (length_updLanes _ _ _ _ _ _ _ _ _ _).trans hlen
    rw [destRegs, if_neg hvd] at hvregs
    refine ⟨_, rfl, hframe, hvregs, hsteps, fun i h => ?_⟩
    rw [hlane hvd i (h.trans_le hn), hl, if_pos h, updResult, getD_updLanes _ _ _ _ _ _ _ _ _ _ (hlen.symm ▸ h), getD_regLanes h, getD_regLanes h]
  · have hv : wOp w ∈ vectorOps := by rw [hop]; decide
    have hrun := vxeIssue_vsetvl hi hop hq hready (slotOf s core t).pc
    have hstep := (slotStep_modSlot s core t fun x => { x with vl := setvlValue s core t w })
    have htail := vecStep_vxeTimed [] [] (modSlot s core t fun x => { x with vl := setvlValue s core t w }) core t w (effLen (slotOf s core t).vl w)
    have hframe : Frame [] s (vxeIssue s core t (slotOf s core t).pc w) := hrun ▸ (frame_modCore [] s core _).trans htail.frame
    have hd := wordDone_of_vectorWord (lead := (· = .vsetvl)) hi hv (by simp [hop]) (floeFor_of_frame hframe core.isLt (by simp) t)
    have hslot : ∀ u, slotOf (vxeIssue s core t (slotOf s core t).pc w) core u = slotOf (modSlot s core t fun x => { x with vl := setvlValue s core t w }) core u := by
      rw [hrun]; exact htail.slots
    refine ⟨_, rfl, hd.frame hframe, fun r hr => ?_, fun u hu => ?_, ?_⟩
    · rw [hd.vreg_eq, hrun, htail.vregs r hr, vreg_modSlot]
    · rw [hd.slots u hu, hslot, hstep.slots u hu]
    · rw [hd.slot (not_jump_of_vectorOp hv), hslot, slotOf_modSlot_same]
      rfl

end Sys2Proof.Safety
end

section
/-! PROOF. Vector words that join the queue, and words at n = 0 (O13). -/

namespace Sys2Proof.Safety

open Sys2Proof.Machine

variable {s s' u : State} {c t f w : Nat}

-- the automatic roll ---------------------------------------------------------------------------------------------------------------------

/-- The registers of a core's training numerics, its scale slots among them. -/
def RollReg (c off : Nat) : Prop := coreBase c + 0x5800 ≤ off ∧ off < coreBase c + 0x1_0000

/-- A change of registers of a core's training numerics alone (R261). -/
structure Rolled (c : Nat) (s s' : State) : Prop where
  same : ∃ r, s' = { s with regs := r }
  regs : ∀ off, ¬ RollReg c off → getR s' off = getR s off

theorem Rolled.refl (c : Nat) (s : State) : Rolled c s s := ⟨⟨_, rfl⟩, fun _ _ => rfl⟩

theorem Rolled.trans (h : Rolled c s s') (h' : Rolled c s' u) : Rolled c s u := by
  obtain ⟨⟨r, rfl⟩, hr⟩ := h
  obtain ⟨⟨r', rfl⟩, hr'⟩ := h'
  exact ⟨⟨r', rfl⟩, fun off ho => (hr' off ho).trans (hr off ho)⟩

theorem rolled_setR {off : Nat} (h : RollReg c off) (s : State) (v : BitVec 32) : Rolled c s (setR s off v) :=
  ⟨⟨_, rfl⟩, fun _ ho => getR_setR_other s v fun e => ho (e ▸ h)⟩

theorem rolled_setF {off : Nat} (h : RollReg c off) (s : State) (lo n v : Nat) : Rolled c s (setF s off lo n v) := rolled_setR h s _

theorem rolled_histSet (s : State) {n i : Nat} (_hn : n < 512) (_hi : i < 16) (v : Nat) : Rolled c s (histSet s c n i v) :=
  rolled_setF (by unfold RollReg histWord rSCL_HIST; dsimp only; omega) s _ _ _

theorem rolled_rollSlot (s : State) {n : Nat} (hn : n < 512) : Rolled c s (rollSlot s c n) := by
  have hcur : RollReg c (rSCL_CUR c n) := by unfold RollReg rSCL_CUR; omega
  have hshift : Rolled c s ((List.range 15).foldl (fun s j => histSet s c n (15 - j) (histGet s c n (14 - j))) s) :=
    List.foldlRecOn (motive := Rolled c s) _ _ (Rolled.refl c s) fun x h j _ => h.trans (rolled_histSet x hn (by omega) _)
  exact (hshift.trans (rolled_histSet _ hn (by decide) _)).trans (rolled_setR hcur _ _)

theorem rolled_rollAll (s : State) (c : Nat) : Rolled c s (rollAll s c) :=
  List.foldlRecOn (motive := Rolled c s) _ _ (Rolled.refl c s) fun x h _ hn => h.trans (rolled_rollSlot x (List.mem_range.1 hn))

theorem rollReg_STEP (c : Nat) : RollReg c (rSCL_STEP c) := by unfold RollReg rSCL_STEP; omega

theorem rolled_autoRoll (s : State) (c step : Nat) : Rolled c s (autoRoll s c step) := by
  unfold autoRoll
  split
  · exact (rolled_rollAll s c).trans (rolled_setR (rollReg_STEP c) _ _)
  · exact Rolled.refl c s

/-- With automatic rolls enabled SCL_STEP holds the step (R261). -/
theorem step_autoRoll (h : getB s (rSCL_CTL c) 0 = true) (step : Nat) : getR (autoRoll s c step) (rSCL_STEP c) = BitVec.ofNat 32 step := by
  unfold autoRoll
  by_cases he : (getR s (rSCL_STEP c)).toNat = step
  · rw [if_neg (by simp [he]), ← he, BitVec.ofNat_toNat, BitVec.setWidth_eq]
  · rw [if_pos (by simp [h, he]), getR_setR_same]

-- what a roll leaves ------------------------------------------------------------------------------------------------------------------------

theorem Rolled.frame (h : Rolled c s s') : SameMem s s' ∧ s'.fuses = s.fuses ∧ s'.pending = s.pending ∧ s'.cores = s.cores := by
  obtain ⟨⟨r, rfl⟩, -⟩ := h
  exact ⟨fun _ => rfl, rfl, rfl, rfl⟩

theorem Rolled.floeFor_eq (h : Rolled c s s') (_hc : c < 256) (t : Nat) : floeFor s' c t = floeFor s c t :=
  floeFor_congr (fun g hg => h.regs _ (by unfold RollReg rFLOE_DEF clusterBase coreBase; omega)) t

theorem Rolled.pace_eq (h : Rolled c s s') (hc : c < 256) (ht : t < 4) : pace s' c t = pace s c t := by
  have hrst : s'.rstJob = s.rstJob := by obtain ⟨⟨r, rfl⟩, -⟩ := h; rfl
  have hstat : slotState s' c t = slotState s c t := by
    rw [slotState, getF, h.regs _ (by unfold RollReg rTASK_STAT coreBase; omega), ← getF, ← slotState]
  unfold pace
  rw [h.floeFor_eq hc, hrst, hstat]
  cases hf : floeFor s c t with
  | none => rfl
  | some f =>
    have hlt := floeFor_lt hf
    have h1 : getR64 s' (rFLOE_CYC (c / 8) f) = getR64 s (rFLOE_CYC (c / 8) f) := by
      rw [getR64, getR64, h.regs _ (by unfold RollReg rFLOE_CYC clusterBase coreBase; omega), h.regs _ (by unfold RollReg rFLOE_CYC clusterBase coreBase; omega)]
    have h2 : getF s' (rFLOE_STAT (c / 8) f) 0 4 = getF s (rFLOE_STAT (c / 8) f) 0 4 := by
      rw [getF, getF, h.regs _ (by unfold RollReg rFLOE_STAT clusterBase coreBase; omega)]
    simp only [h1, h2]

theorem Rolled.vxeReady_eq (h : Rolled c s s') (hc : c < 256) (ht : t < 4) (w : Nat) : vxeReady s' c t w = vxeReady s c t w := by
  have hk : coreOf s' c = coreOf s c := coreOf_congr h.frame.2.2.2 c
  have hrun : ∀ n, mayRun s' c t n = mayRun s c t n := fun n => by rw [mayRun, mayRun, h.pace_eq hc ht]
  unfold vxeReady fliPresent floRoom drainNext passNext slotOf
  rw [hk]
  simp only [hrun]

-- a word joins the queue -------------------------------------------------------------------------------------------------------------------

/-- The state in which a vector word finds the queue: after the roll of a VUPDSR with a new STEP (R261). -/
def beforeVec (s : State) (c t i w : Nat) : State :=
  if wOp w = .vupdsr ∧ effLen (vlNow s c t) w ≠ 0 then autoRoll s c (bits (vxEntry s c t i w).sx1.toNat 0 32) else s

theorem rolled_beforeVec (s : State) (c t i w : Nat) : Rolled c s (beforeVec s c t i w) := by
  unfold beforeVec
  split
  · exact rolled_autoRoll s c _
  · exact Rolled.refl c s

/-- A word that cannot start joins the queue and does nothing else (R111). -/
theorem vxeIssue_queues (hc : c < 256) (ht : t < 4) (h : (coreOf s c).vxq ≠ [] ∨ vxeReady s c t w = false) (i : Nat) :
    vxeIssue s c t i w = modCore (beforeVec s c t i w) c fun k => { k with vxq := k.vxq ++ [vxEntry s c t i w] } := by
  have hr := rolled_beforeVec s c t i w
  have hq : (coreOf (beforeVec s c t i w) c).vxq = (coreOf s c).vxq := by rw [coreOf_congr hr.frame.2.2.2]
  have hno : ((coreOf (beforeVec s c t i w) c).vxq.isEmpty && vxeReady (beforeVec s c t i w) c t w) = false := by
    rw [hq, hr.vxeReady_eq hc ht, Bool.and_eq_false_iff]
    rcases h with h | h
    · left; simpa using h
    · exact .inr h
  rw [vxeIssue, ← beforeVec, hno]
  rfl

theorem exec_of_vectorWord {core : CoreId} {p : Op × Instr} (hp : p ∈ vectorWords core) (s : State) :
    exec p.2 s = .next (sequencer s core (· = p.1)) ∧ p.1 ∈ vectorOps := by
  have hmem : p.1 ∈ (vectorWords core).map Prod.fst := List.mem_map_of_mem hp
  refine ⟨?_, hmem⟩
  rcases List.mem_append.1 hp with h | h
  · exact (exec_of_arithWord h s).1
  · simp only [List.mem_cons, List.not_mem_nil, or_false] at h
    rcases h with rfl | rfl | rfl | rfl | rfl | rfl | rfl | rfl | rfl | rfl | rfl | rfl | rfl | rfl <;> rfl

/-- A word that reads elements does nothing at n = 0 (R89). -/
theorem vxeIssue_of_zero (hi : Issues s c t f w) (hs : StartsAt s c t w 0) (h : wOp w ∉ unlengthed) (i : Nat) :
    vxeIssue s c t i w = vxeTimed s c t w 0 := by
  obtain ⟨hq, hready, hpar, hn⟩ := hs
  have ew : (vxEntry s c t i w).word.toNat = w := Nat.mod_eq_of_lt (lt_of_issues hi)
  have es : (vxEntry s c t i w).slot = t := rfl
  have ep : (vxEntry s c t i w).puts = [] := rfl
  have hrun : vxeRun s c (vxEntry s c t i w) = s := by
    unfold vxeRun
    dsimp only
    rw [ew, es, ← hn]
    generalize wOp w = o at h
    cases o with
    | vsetvl | vstfin | vget => exact absurd (by decide) h
    | _ => rfl
  have hvl : vlNow s c t = (slotOf s c t).vl := by simp [vlNow, hq]
  have hshuf : shufBad (fnPat w) 0 = false := by simp [shufBad]
  simp only [vxeIssue, hvl, ← hn, ne_eq, not_true_eq_false, and_false, if_false, hq, List.isEmpty_nil, hready, Bool.and_self, if_true, vxeStart, ew, es, ep, hshuf,
    Bool.and_false, Bool.false_eq_true, if_false, hpar, List.foldl_nil, hrun]

/-- Settles O13: a word that cannot start joins the queue, after the roll that it may cause; at n = 0 only its time passes. -/
theorem vectorWordsQueueInOrder : Obligations.VectorWordsQueueInOrder := by
  unfold Obligations.VectorWordsQueueInOrder
  intro core s t f w hi p hp hop
  have hc := core.isLt
  obtain ⟨ht, -⟩ := running_of_issues hi
  have hf := floe_lt_of_issues hi
  obtain ⟨hexec, hv⟩ := exec_of_vectorWord hp s
  rw [← hop] at hv
  have hj := not_jump_of_vectorOp hv
  constructor
  case left =>
    intro hnot
    have hrun := vxeIssue_queues hc ht hnot (slotOf s core t).pc
    have hr := rolled_beforeVec s core t (slotOf s core t).pc w
    obtain ⟨hmem, hfuses, hpend, hcores⟩ := hr.frame
    have hfl : floeFor (vxeIssue s core t (slotOf s core t).pc w) core t = floeFor s core t := by
      rw [hrun, floeFor_of_regs (modCore_regs _ core _), hr.floeFor_eq hc]
    have hd := wordDone_of_vectorWord (lead := (· = p.1)) hi hv (by simp [hop]) hfl
    rw [hrun] at hd
    obtain ⟨sl, hcore⟩ := hd.core
    rw [coreOf_modCore_same, coreOf_congr hcores] at hcore
    refine ⟨_, hexec, hd.sameMem hmem, hd.otherCores fun k hk => ?_, hd.stepsOn hj ?_, fun r _ => ?_, ?_, fun hplain => ?_, fun hupd hroll hlen => ?_⟩
    · rw [coreOf_modCore_other _ _ hk, coreOf_congr hcores]
    · rw [slotOf, coreOf_modCore_same, coreOf_congr hcores, slotOf]
    · rw [vreg, hcore, vreg]
    · rw [hcore]
    · have hsame : beforeVec s core t (slotOf s core t).pc w = s := by
        unfold beforeVec
        split
        · rename_i h
          simp [autoRoll, hplain h.1]
        · rfl
      exact hd.frame (l := []) (by rw [hsame]; exact frame_modCore [] s core _)
    · have hmemS : rSCL_STEP core ∉ issueRegs core f := not_mem_issueRegs_of_core hc hf (by unfold rSCL_STEP coreBase; omega)
      have hstep : beforeVec s core t (slotOf s core t).pc w = autoRoll s core (bits (sregNow s core t (vSX w + 1)).toNat 0 32) := if_pos ⟨hupd, hlen⟩
      rw [hd.regs _ hmemS, getR_congr (modCore_regs _ core _), hstep, step_autoRoll hroll]
      apply BitVec.eq_of_toNat_eq
      rw [BitVec.toNat_ofNat, BitVec.toNat_setWidth, bits_eq_div_mod, pow_zero, Nat.div_one, Nat.mod_mod]
  case right =>
    intro hs hne
    have hu : wOp w ∉ unlengthed := hop ▸ hne
    have hrun := vxeIssue_of_zero hi hs hu (slotOf s core t).pc
    have htail := vecStep_vxeTimed [] [] s core t w 0
    have hd := wordDone_of_vectorWord (lead := (· = p.1)) hi hv (by simp [hop]) (floeFor_of_frame (hrun ▸ htail.frame) hc (by simp) t)
    rw [hrun] at hd
    obtain ⟨sl, hcore⟩ := hd.core
    refine ⟨_, hexec, hd.frame htail.frame, hd.otherCores htail.cores, hd.stepsOn hj (htail.slots t), fun r hr => (hd.vreg_eq r).trans (htail.vregs r hr), ?_, ?_⟩
    · rw [hcore, vxeTimed, coreOf_modCore_same]
    · rw [hcore, vxeTimed, coreOf_modCore_same]

end Sys2Proof.Safety
end

section
/-! SUPPORT. A packet that joins a port's transmit queue (R329 to R332): what else it may do, and that what the port then is rests on the port, the time base and the port
registers of the fabric alone, so that an event before it makes no difference. -/

namespace Sys2Proof.Safety

open Sys2Proof.Machine

variable {s t : State} {p : Nat}

/-- What transmission on ports may change: the ports, the time stamps of time messages, and the count of link credits issued. -/
structure Pushed (s t : State) : Prop extends Transmits s t where
  same : ∃ r po ti, t = { s with regs := r, ports := po, time := ti }

theorem Pushed.refl (s : State) : Pushed s s := ⟨Transmits.refl s, _, _, _, rfl⟩

theorem Pushed.trans {u : State} (h : Pushed s t) (h' : Pushed t u) : Pushed s u := by
  obtain ⟨ht, r, po, ti, rfl⟩ := h
  obtain ⟨ht', r', po', ti', rfl⟩ := h'
  exact ⟨ht.trans ht', r', po', ti', rfl⟩

theorem pushed_setPort (s : State) (p : Nat) (x : PortSt) : Pushed s (setPort s p x) := ⟨transmits_setPort s p x, _, _, _, rfl⟩

theorem pushed_emitFlit (s : State) (p : Nat) (f : FlitRec) : Pushed s (emitFlit s p f) := pushed_setPort s p _

theorem pushed_sendNumbered (s : State) (p : Nat) (f : FlitRec) : Pushed s (sendNumbered s p f) := (pushed_setPort s p _).trans (pushed_emitFlit _ p f)

theorem pushed_drainOne (s : State) (p k : Nat) : Pushed s (drainOne s p k) := by
  cases h : txOf (portOf s p) k with
  | nil => rw [drainOne_nil h]; exact Pushed.refl s
  | cons x q =>
    rw [drainOne_cons h]
    have hnote : ∀ u typ seq, Pushed u (noteTimeReq u typ seq) := fun u typ seq => by
      refine ⟨transmits_noteTimeReq u typ seq, ?_⟩
      unfold noteTimeReq
      split <;> exact ⟨_, _, _, rfl⟩
    exact (((pushed_setPort s p _).trans (hnote _ _ _)).trans (pushed_sendNumbered _ p _)).trans ⟨transmits_ledIssue _ 1, _, _, _, rfl⟩

theorem pushed_portDrain (s : State) (p n : Nat) : Pushed s (portDrain s p n) := by
  induction n generalizing s with
  | zero => exact Pushed.refl s
  | succ n ih =>
    unfold portDrain
    split
    · exact Pushed.refl s
    · exact (pushed_drainOne s p _).trans (ih _)

theorem pushed_portIdle (s : State) (p : Nat) : Pushed s (portIdle s p) := by
  unfold portIdle
  dsimp only
  split
  · exact Pushed.refl s
  · split
    · exact pushed_sendNumbered s p _
    · split
      · exact (pushed_setPort s p _).trans (pushed_emitFlit _ p _)
      · exact Pushed.refl s

theorem pushed_txPush (s : State) (p cls : Nat) (k : Packet) : Pushed s (txPush s p cls k) :=
  (pushed_setPort s p _).trans ((pushed_portDrain _ p _).trans (pushed_portIdle _ p))

namespace Pushed

theorem cores (h : Pushed s t) : t.cores = s.cores := by obtain ⟨-, r, po, ti, rfl⟩ := h; rfl
theorem mirror (h : Pushed s t) : t.mirror = s.mirror := by obtain ⟨-, r, po, ti, rfl⟩ := h; rfl

/-- Registers beside the ledger of link credits keep what they hold. -/
theorem getR_eq (h : Pushed s t) {off : Nat} (ho : off ≠ ledgerBase qLINKCRED) (ho' : off ≠ ledgerBase qLINKCRED + 4) : getR t off = getR s off :=
  h.frame.getR_eq (by simp [linkRegs, ho, ho'])

end Pushed

-- what transmission rests on ------------------------------------------------------------------------------------------------------------

/-- Two states look the same from a port in what it sends: its own state, the time base and the port registers of the fabric. -/
structure LikePort (p : Nat) (s t : State) : Prop where
  port : portOf t p = portOf s p
  now : tbNow t = tbNow s
  regs : ∀ off, 0x10_0000 ≤ off → off < 0x18_0000 → getR t off = getR s off

namespace LikePort

theorem setPort (h : LikePort p s t) (x : PortSt) : LikePort p (setPort s p x) (setPort t p x) :=
  ⟨by rw [portOf_setPort_same, portOf_setPort_same], h.now, h.regs⟩

theorem emitFlit (_hp : p < 16) (h : LikePort p s t) (f : FlitRec) : LikePort p (emitFlit s p f) (emitFlit t p f) := by
  have hmac : getR64 t (rFAB_MAC p) = getR64 s (rFAB_MAC p) := by
    rw [getR64, getR64, h.regs _ (by unfold rFAB_MAC portBase; omega) (by unfold rFAB_MAC portBase; omega),
      h.regs _ (by unfold rFAB_MAC portBase; omega) (by unfold rFAB_MAC portBase; omega)]
  have heth : getF t rFAB_ETH 0 16 = getF s rFAB_ETH 0 16 := by rw [getF, getF, h.regs _ (by decide) (by decide)]
  simp only [Machine.emitFlit, h.port, hmac, heth]
  exact h.setPort _

theorem sendNumbered (hp : p < 16) (h : LikePort p s t) (f : FlitRec) : LikePort p (sendNumbered s p f) (sendNumbered t p f) := by
  simp only [Machine.sendNumbered, h.port, h.now]
  exact (h.setPort _).emitFlit hp f

theorem ledIssue (h : LikePort p s t) (n : Nat) : LikePort p (ledIssue s qLINKCRED n) (ledIssue t qLINKCRED n) := by
  have hled : ∀ u off, off < 0x18_0000 → getR (Machine.ledIssue u qLINKCRED n) off = getR u off := fun u off ho =>
    (transmits_ledIssue u n).frame.getR_eq (by simp only [linkRegs, ledgerBase, List.mem_cons, List.not_mem_nil, or_false]; omega)
  exact ⟨h.port, h.now, fun off hlo hhi => (hled t off hhi).trans ((h.regs off hlo hhi).trans (hled s off hhi).symm)⟩

theorem noteTimeReq (h : LikePort p s t) (typ seq : Nat) : LikePort p (noteTimeReq s typ seq) (noteTimeReq t typ seq) := by
  unfold Safety.noteTimeReq
  split
  · exact ⟨h.port, h.now, h.regs⟩
  · exact h

theorem drainOne (hp : p < 16) (h : LikePort p s t) (k : Nat) : LikePort p (drainOne s p k) (drainOne t p k) := by
  cases hq : txOf (portOf s p) k with
  | nil =>
    rw [drainOne_nil hq, drainOne_nil (h.port ▸ hq)]
    exact h
  | cons x q =>
    have hflit : packetFlit t (portOf s p) k x = packetFlit s (portOf s p) k x := by simp only [packetFlit, stampTime, h.now]
    rw [drainOne_cons hq, drainOne_cons (h.port ▸ hq), h.port, hflit]
    exact (((h.setPort _).noteTimeReq _ _).sendNumbered hp _).ledIssue 1

theorem portUp_eq (_hp : p < 16) (h : LikePort p s t) : portUp t p = portUp s p := by
  simp only [portUp, portState, getF, h.regs (rFAB_STAT p) (by unfold rFAB_STAT portBase; omega) (by unfold rFAB_STAT portBase; omega)]

theorem portDrain (hp : p < 16) (h : LikePort p s t) (n : Nat) : LikePort p (portDrain s p n) (portDrain t p n) := by
  induction n generalizing s t with
  | zero => exact h
  | succ n ih =>
    have hkey : drainKey t p = drainKey s p := by simp only [drainKey, h.port, h.portUp_eq hp]
    rw [Machine.portDrain, Machine.portDrain, hkey]
    cases drainKey s p with
    | none => exact h
    | some k => exact ih (h.drainOne hp k)

theorem portIdle (hp : p < 16) (h : LikePort p s t) : LikePort p (portIdle s p) (portIdle t p) := by
  simp only [Machine.portIdle, h.port, h.portUp_eq hp]
  split
  · exact h
  · split
    · exact h.sendNumbered hp _
    · split
      · exact (h.setPort _).emitFlit hp _
      · exact h

theorem txPush (hp : p < 16) (h : LikePort p s t) (cls : Nat) (k : Packet) : LikePort p (txPush s p cls k) (txPush t p cls k) := by
  simp only [Machine.txPush, Machine.portFlush, h.port, portOf_setPort_same]
  exact ((h.setPort _).portDrain hp _).portIdle hp

end LikePort

end Sys2Proof.Safety
end

section
/-! PROOF. LFENCE, MIRCOMMIT and STRMARM (O15). -/

namespace Sys2Proof.Safety

open Sys2Proof.Machine

variable {s : State} {c t f w : Nat}

-- LFENCE ------------------------------------------------------------------------------------------------------------------------------

theorem wordEffect_lfence (h : wOp w = .lfence) (i : Nat) : wordEffect s c t i w = lfenceRun s c t w := by simp [wordEffect, actEarly, actMid, h]
theorem wordEffect_mircommit (h : wOp w = .mircommit) (i : Nat) : wordEffect s c t i w = mircommitRun s w := by simp [wordEffect, actEarly, actMid, h]
theorem wordEffect_strmarm (h : wOp w = .strmarm) (i : Nat) : wordEffect s c t i w = armRun s c t w := by simp [wordEffect, actEarly, actMid, h]

/-- The transfers that an LFENCE orders later arms behind (R252). -/
def fenced (s : State) (c t w : Nat) : List Nat := ((slotXfers s c t).filter fun x => namesCtr c x (fenceMask w)).map Xfer.id

theorem slotStep_lfenceRun (s : State) (c t w : Nat) : SlotStep c t s (lfenceRun s c t w) := by
  unfold lfenceRun
  dsimp only
  split
  · exact SlotStep.refl c t s
  · exact slotStep_modSlot s c t _

theorem fences_lfenceRun (s : State) (c t w : Nat) : (slotOf (lfenceRun s c t w) c t).fences =
    (slotOf s c t).fences ++ (if fenceMask w = 0 ∨ fenced s c t w = [] then [] else [⟨fenceMask w, fenced s c t w⟩]) := by
  unfold lfenceRun
  dsimp only
  rw [← fenced]
  split
  · rw [List.append_nil]
  · rw [slotOf_modSlot_same]

theorem SlotStep.frame {s' : State} (h : SlotStep c t s s') : Frame [] s s' := by
  obtain ⟨⟨co, rfl⟩, -⟩ := h
  exact ⟨fun _ => rfl, fun _ _ => rfl, rfl, rfl⟩

-- MIRCOMMIT ----------------------------------------------------------------------------------------------------------------------------

/-- The number of the next commit. -/
def nextCommit (s : State) : Nat := (getR64 s rMIR_SEQ + 1) % 2 ^ 32

theorem nextCommit_eq (s : State) : nextCommit s = (getR s rMIR_SEQ + 1).toNat := by
  rw [nextCommit, getR64, BitVec.toNat_add, show (1 : BitVec 32).toNat = 1 from rfl]
  omega

/-- The COMMIT that a MIRCOMMIT sends. -/
def commitPacket (s : State) (w : Nat) : Packet :=
  ⟨{ mkHdr 13 (getF s (rFAB_STAT 0) 16 16) (ownPkg s) 0 0 0 0 with seq := nextCommit s, regions := commitRegions s w }, [], []⟩

/-- The deltas of the regions of a commit are covered. -/
def coverDeltas (s : State) (regions : Nat) : State := (List.range 16).foldl (fun x r => if bits regions r 1 = 1 then setMirDeltas x r 0 else x) s

theorem coverDeltas_eq (s : State) (regions : Nat) : ∃ de, coverDeltas s regions = { s with mirror := { s.mirror with deltas := de } } := by
  refine List.foldlRecOn (motive := fun x : State => ∃ de, x = { s with mirror := { s.mirror with deltas := de } }) _ _ ⟨_, rfl⟩ fun x h r _ => ?_
  obtain ⟨de, rfl⟩ := h
  split <;> exact ⟨_, rfl⟩

/-- A commit that waits for its acknowledgement. -/
def addUnacked (s : State) (x : Nat × Nat) : State := { s with mirror := { s.mirror with unacked := s.mirror.unacked ++ [x] } }

/-- ISSUED rises, and the commit of the new number waits for its acknowledgement, for which a token is issued (R352, R419). -/
def commitNoted (s : State) (w : Nat) : State :=
  coverDeltas (ledIssue (addUnacked (setR s rMIR_SEQ (BitVec.ofNat 32 (nextCommit s))) (nextCommit s, tbNow s)) qMIRSEQ 1) (commitRegions s w)

/-- The state from which the COMMIT leaves: LAGGING is set where the pair lags (R354). -/
def commitLagged (s : State) (w : Nat) : State :=
  if getF (commitNoted s w) rMIR_CTL 8 8 ≤ mirBehind (commitNoted s w) then mirLagging (commitNoted s w) else commitNoted s w

/-- A MIRCOMMIT on an active primary (R352). -/
theorem mircommitRun_of_active (h1 : mirMode s = 1) (h2 : mirActive s = true) (w : Nat) : mircommitRun s w = txPush (commitLagged s w) 0 0 (commitPacket s w) := by
  rw [mircommitRun, if_neg (by simp [h1, h2])]
  simp only [commitLagged, commitNoted, coverDeltas, addUnacked, commitPacket, nextCommit] <;> rfl

/-- The event of a pair that lags (R354). -/
def mirLagEvent (s : State) : Ev := { cls := cMIRLAG, sev := 0, home := 0, ukind := 4, uindex := 0, detail := mirBehind s }

/-- LAGGING goes to 1: the event of R354 is logged, and the host interrupted. -/
theorem noted_mirLagging (s : State) : Noted s (mirLagging s) ∨ Noted (setF s rMIR_STAT 2 1 1) (mirLagging s) := by
  unfold mirLagging
  split
  · exact .inl (Noted.refl s)
  · exact .inr ((noted_raiseEv_unowned (e := mirLagEvent s) _ (by decide) rfl (show cMIRLAG < 256 by decide) (show 0 < 4 by decide)).trans (noted_hostIrq _ 10))

/-- What stands before the COMMIT leaves: the registers of the commit, and what an event may note. -/
structure Prepared (s t : State) (unacked : List (Nat × Nat)) : Prop where
  same : ∃ r tr ho pi de, t = { s with regs := r, trace := tr, host := ho, pins := pi, mirror := { s.mirror with unacked := unacked, deltas := de } }
  regs : ∀ off, ¬ LogReg off → off ≠ rMIR_STAT → off ≠ rMIR_SEQ → off ≠ ledgerBase qMIRSEQ → off ≠ ledgerBase qMIRSEQ + 4 → getR t off = getR s off
  seq : getR t rMIR_SEQ = BitVec.ofNat 32 (nextCommit s)
  ledger : getR64 t (ledgerBase qMIRSEQ) = (getR64 s (ledgerBase qMIRSEQ) + 1) % 2 ^ 64

theorem commitNoted_regs (s : State) (w : Nat) : (commitNoted s w).regs =
    (setR64 (setR s rMIR_SEQ (BitVec.ofNat 32 (nextCommit s))) (ledgerBase qMIRSEQ) ((getR64 s (ledgerBase qMIRSEQ) + 1) % 2 ^ 64)).regs := by
  obtain ⟨de, e⟩ := coverDeltas_eq (ledIssue (addUnacked (setR s rMIR_SEQ (BitVec.ofNat 32 (nextCommit s))) (nextCommit s, tbNow s)) qMIRSEQ 1) (commitRegions s w)
  have hled : getR64 (setR s rMIR_SEQ (BitVec.ofNat 32 (nextCommit s))) (ledgerBase qMIRSEQ) = getR64 s (ledgerBase qMIRSEQ) := by
    rw [getR64, getR_setR_other _ _ (by decide), getR_setR_other _ _ (by decide), ← getR64]
  rw [commitNoted, e, ← hled]
  rfl

theorem commitNoted_same (s : State) (w : Nat) : ∃ r de,
    commitNoted s w = { s with regs := r, mirror := { s.mirror with unacked := s.mirror.unacked ++ [(nextCommit s, tbNow s)], deltas := de } } := by
  obtain ⟨de, e⟩ := coverDeltas_eq (ledIssue (addUnacked (setR s rMIR_SEQ (BitVec.ofNat 32 (nextCommit s))) (nextCommit s, tbNow s)) qMIRSEQ 1) (commitRegions s w)
  have hled : ∀ x : State, ∃ r, ledIssue x qMIRSEQ 1 = { x with regs := r } := fun x => ⟨_, rfl⟩
  obtain ⟨r, h⟩ := hled (addUnacked (setR s rMIR_SEQ (BitVec.ofNat 32 (nextCommit s))) (nextCommit s, tbNow s))
  rw [commitNoted, e, h]
  exact ⟨r, de, rfl⟩

theorem prepared_commitNoted (s : State) (w : Nat) : Prepared s (commitNoted s w) (s.mirror.unacked ++ [(nextCommit s, tbNow s)]) := by
  have hreg := commitNoted_regs s w
  constructor
  case same =>
    obtain ⟨r, de, e⟩ := commitNoted_same s w
    exact ⟨r, s.trace, s.host, s.pins, de, e⟩
  case regs =>
    intro off _ _ h1 h2 h3
    rw [getR_congr hreg, setR64, getR_setR_other _ _ h3, getR_setR_other _ _ h2, getR_setR_other _ _ h1]
  case seq =>
    rw [getR_congr hreg, setR64, getR_setR_other _ _ (by decide), getR_setR_other _ _ (by decide), getR_setR_same]
  case ledger =>
    rw [getR64_congr hreg, getR64_setR64, Nat.mod_mod]

theorem Prepared.noted {t u : State} {l : List (Nat × Nat)} (h : Prepared s t l) (hn : Noted t u ∨ Noted (setF t rMIR_STAT 2 1 1) u) : Prepared s u l := by
  obtain ⟨⟨r, tr, ho, pi, de, e⟩, hregs, hseq, hled⟩ := h
  have hu : ∀ off, ¬ LogReg off → off ≠ rMIR_STAT → getR u off = getR t off := by
    intro off hl hs
    rcases hn with hn | hn
    · exact hn.regs off hl
    · exact (hn.regs off hl).trans (getR_setF_other t 2 1 1 hs)
  have hno : ¬ LogReg rMIR_SEQ ∧ ¬ LogReg (ledgerBase qMIRSEQ) ∧ ¬ LogReg (ledgerBase qMIRSEQ + 4) := by
    unfold LogReg; decide
  constructor
  case same =>
    rcases hn with ⟨⟨r', tr', ho', pi', e'⟩, -⟩ | ⟨⟨r', tr', ho', pi', e'⟩, -⟩
    · exact ⟨r', tr', ho', pi', de, by rw [e', e]⟩
    · exact ⟨r', tr', ho', pi', de, by rw [e', e, setF]; rfl⟩
  case regs => exact fun off hl h1 h2 h3 h4 => (hu off hl h1).trans (hregs off hl h1 h2 h3 h4)
  case seq => rw [hu _ hno.1 (by decide), hseq]
  case ledger => rw [getR64, hu _ hno.2.1 (by decide), hu _ hno.2.2 (by decide), ← getR64, hled]

theorem prepared_commitLagged (s : State) (w : Nat) : Prepared s (commitLagged s w) (s.mirror.unacked ++ [(nextCommit s, tbNow s)]) := by
  have h := prepared_commitNoted s w
  unfold commitLagged
  split
  · exact h.noted (noted_mirLagging _)
  · exact h

theorem Prepared.likePort {t : State} {l : List (Nat × Nat)} (h : Prepared s t l) (p : Nat) : LikePort p s t := by
  obtain ⟨⟨r, tr, ho, pi, de, rfl⟩, hregs, -⟩ := h
  exact ⟨rfl, rfl, fun off hlo hhi => hregs off (by unfold LogReg; omega) (by unfold rMIR_STAT; omega) (by unfold rMIR_SEQ; omega)
    (by simp only [ledgerBase, qMIRSEQ]; omega) (by simp only [ledgerBase, qMIRSEQ]; omega)⟩

-- STRMARM -------------------------------------------------------------------------------------------------------------------------------

/-- The registers that an arming writes: its arm index, the blocks of an overlay, and the ledger. -/
def armRegs (c d : Nat) : List Nat := [rDESC_STAT c d, rDESC_STAT c d + 4, rOVL_VALID c, rOVL_VALID c + 4, ledgerBase qDESC, ledgerBase qDESC + 4]

/-- The transfer that an arming makes, behind the fences of its slot (R252). -/
def armedXfer (s : State) (c t d : Nat) : Xfer :=
  { armXfer s c t d with after := (((slotOf s c t).fences.filter fun f => namesCtr c (armXfer s c t d) f.mask).flatMap Fence.after).eraseDups }

/-- A transfer number is used up. -/
def bumpXfer (s : State) : State := { s with xferId := s.xferId + 1 }

/-- DESC_STAT with its arm index one higher (R241). -/
def nextArm (s : State) (c d : Nat) : Nat := setBits (getR64 s (rDESC_STAT c d)) 16 32 (bits (getR64 s (rDESC_STAT c d)) 16 32 + 1)

/-- An arming of an overlay makes its blocks invalid (R130). -/
def overlayArmed (s : State) (c : Nat) (x : Xfer) : State := if tDSTK x.words = 6 then clearBlocks s c x else s

/-- The arm index rises, an overlay's blocks lose their validity, and a token is issued (R130, R241, R419). -/
def armNoted (s : State) (c d : Nat) (x : Xfer) : State := ledIssue (overlayArmed (setR64 (bumpXfer s) (rDESC_STAT c d) (nextArm s c d)) c x) qDESC 1

theorem armRun_eq (s : State) (c t w : Nat) : armRun s c t w = (if (descOf s c (armDesc w)).active.isNone
    then setDesc (armNoted s c (armDesc w) (armedXfer s c t (armDesc w))) c (armDesc w)
      { descOf s c (armDesc w) with active := some { armedXfer s c t (armDesc w) with phase := enterPhase (armedXfer s c t (armDesc w)) } }
    else setDesc (armNoted s c (armDesc w) (armedXfer s c t (armDesc w))) c (armDesc w)
      { descOf s c (armDesc w) with shadow := some (armedXfer s c t (armDesc w)) }) := by
  simp only [armRun, armNoted, overlayArmed, bumpXfer, nextArm, armedXfer] <;> rfl

theorem overlayArmed_cores (s : State) (c : Nat) (x : Xfer) : (overlayArmed s c x).cores = s.cores := by
  unfold overlayArmed
  split
  · exact setR64_cores _ _ _
  · rfl

theorem armNoted_cores (s : State) (c d : Nat) (x : Xfer) : (armNoted s c d x).cores = s.cores :=
  (setR64_cores _ _ _).trans ((overlayArmed_cores _ c x).trans (setR64_cores _ _ _))

theorem frame_overlayArmed (s : State) (c d : Nat) (x : Xfer) : Frame (armRegs c d) s (overlayArmed s c x) := by
  unfold overlayArmed
  split
  · exact frame_setR64 s (by simp [armRegs]) (by simp [armRegs]) _
  · exact Frame.refl _ s

theorem frame_armNoted (s : State) (c d : Nat) (x : Xfer) : Frame (armRegs c d) s (armNoted s c d x) := by
  have hid : Frame (armRegs c d) s (bumpXfer s) := ⟨fun _ => rfl, fun _ _ => rfl, rfl, rfl⟩
  exact ((hid.trans (frame_setR64 _ (by simp [armRegs]) (by simp [armRegs]) _)).trans (frame_overlayArmed _ c d x)).trans
    (frame_ledIssue _ (by simp [armRegs]) (by simp [armRegs]) 1)

/-- An arming of an overlay touches no register but those of the blocks. -/
theorem getR64_overlayArmed (s : State) {c off : Nat} (x : Xfer) (h : off + 8 ≤ rOVL_VALID c ∨ rOVL_VALID c + 8 ≤ off) :
    getR64 (overlayArmed s c x) off = getR64 s off := by
  unfold overlayArmed
  split
  · exact getR64_setR64_other _ _ h
  · rfl

/-- The arm index of a descriptor after an arming (R241). -/
theorem index_armNoted (s : State) {c d : Nat} (_hd : d < 64) (x : Xfer) :
    bits (getR64 (armNoted s c d x) (rDESC_STAT c d)) 16 32 = (bits (getR64 s (rDESC_STAT c d)) 16 32 + 1) % 2 ^ 32 := by
  have hovl : rDESC_STAT c d + 8 ≤ rOVL_VALID c ∨ rOVL_VALID c + 8 ≤ rDESC_STAT c d := by unfold rDESC_STAT rOVL_VALID; omega
  have hled : ledgerBase qDESC + 8 ≤ rDESC_STAT c d := by unfold rDESC_STAT coreBase ledgerBase qDESC; omega
  have hbits : ∀ v, bits (v % 2 ^ 64) 16 32 = bits v 16 32 := by intro v; simp only [bits_eq_div_mod]; omega
  rw [armNoted, ledIssue, add64, getR64_setR64_other _ _ (.inr hled), getR64_overlayArmed _ x hovl, getR64_setR64, hbits, nextArm, bits_setBits_same]

/-- A token of the descriptors is issued by an arming (R419). -/
theorem issued_armNoted (s : State) {c d : Nat} (x : Xfer) :
    getR64 (armNoted s c d x) (ledgerBase qDESC) = (getR64 s (ledgerBase qDESC) + 1) % 2 ^ 64 := by
  have hled : ledgerBase qDESC + 8 ≤ rDESC_STAT c d := by unfold rDESC_STAT coreBase ledgerBase qDESC; omega
  have hled' : ledgerBase qDESC + 8 ≤ rOVL_VALID c := by unfold rOVL_VALID coreBase ledgerBase qDESC; omega
  rw [armNoted, issued_ledIssue, getR64_overlayArmed _ x (.inl hled'), getR64_setR64_other _ _ (.inl hled)]
  rfl

theorem not_jump_of_plainOp {w : Nat} (h : wOp w = .lfence ∨ wOp w = .mircommit ∨ wOp w = .strmarm) : wOp w ∉ jumpOps := by
  rcases h with h | h | h <;> simp [h, jumpOps]

theorem slotStep_lfence_done {c t f w : Nat} {s : State} (hi : Issues s c t f w) (hop : wOp w = .lfence) :
    WordDone c t f w s (lfenceRun s c t w) (sequencer s c (· = .lfence)) := by
  have hd := wordDone_of_issues (lead := (· = .lfence)) hi (by simp [hop, actOps]) (by simp [hop])
  simp only [wordEffect_lfence hop] at hd
  obtain ⟨co, h⟩ := (slotStep_lfenceRun s c t w).same
  exact hd (floeFor_of_regs (by rw [h]) c t)

/-- The floe of a slot rests on the cluster blocks alone. -/
theorem floeFor_of_regRange {s s' : State} (h : ∀ off, 0x100_0000 ≤ off → off < 0x200_0000 → getR s' off = getR s off) {c : Nat} (_hc : c < 256) (t : Nat) :
    floeFor s' c t = floeFor s c t :=
  floeFor_congr (fun g _hg => h _ (by unfold rFLOE_DEF clusterBase; omega) (by unfold rFLOE_DEF clusterBase; omega)) t

namespace Prepared

variable {t : State} {l : List (Nat × Nat)}

theorem sameMem (h : Prepared s t l) : SameMem s t := by
  obtain ⟨⟨r, tr, ho, pi, de, rfl⟩, -⟩ := h
  exact fun a => rfl

theorem cores (h : Prepared s t l) : t.cores = s.cores := by
  obtain ⟨⟨r, tr, ho, pi, de, rfl⟩, -⟩ := h
  rfl

theorem unacked (h : Prepared s t l) : t.mirror.unacked = l := by
  obtain ⟨⟨r, tr, ho, pi, de, rfl⟩, -⟩ := h
  rfl

theorem clusterRegs (h : Prepared s t l) {off : Nat} (ho : 0x100_0000 ≤ off) : getR t off = getR s off :=
  h.regs off (by unfold LogReg; omega) (by unfold rMIR_STAT; omega) (by unfold rMIR_SEQ; omega) (by simp only [ledgerBase, qMIRSEQ]; omega) (by simp only [ledgerBase, qMIRSEQ]; omega)

end Prepared

theorem Pushed.clusterRegs {s t : State} (h : Pushed s t) {off : Nat} (ho : 0x100_0000 ≤ off) : getR t off = getR s off :=
  h.getR_eq (by simp only [ledgerBase, qLINKCRED]; omega) (by simp only [ledgerBase, qLINKCRED]; omega)

/-- A MIRCOMMIT that sends: its step follows the transmission. -/
theorem mircommit_done {c t f w : Nat} {s : State} (hc : c < 256) (hi : Issues s c t f w) (hop : wOp w = .mircommit) (h1 : mirMode s = 1) (h2 : mirActive s = true) :
    WordDone c t f w s (txPush (commitLagged s w) 0 0 (commitPacket s w)) (sequencer s c (· = .mircommit)) := by
  have hd := wordDone_of_issues (lead := (· = .mircommit)) hi (by simp [hop, actOps]) (by simp [hop])
  rw [wordEffect_mircommit hop, mircommitRun_of_active h1 h2] at hd
  exact hd (floeFor_of_regRange (fun off ho _ =>
    ((pushed_txPush _ 0 0 (commitPacket s w)).clusterRegs ho).trans ((prepared_commitLagged s w).clusterRegs ho)) hc t)

theorem WordDone.portOf_eq {c t f w : Nat} {s s1 s' : State} (h : WordDone c t f w s s1 s') (p : Nat) : portOf s' p = portOf s1 p := by
  obtain ⟨r, co, tr, fl, rfl⟩ := h.same
  rfl

theorem WordDone.descOf_eq {c t f w : Nat} {s s1 s' : State} (h : WordDone c t f w s s1 s') (d : Nat) : descOf s' c d = descOf s1 c d := by
  obtain ⟨l, hl⟩ := h.core
  rw [descOf, descOf, hl]

theorem WordDone.mirror {c t f w : Nat} {s s1 s' : State} (h : WordDone c t f w s s1 s') : s'.mirror = s1.mirror := by
  obtain ⟨r, co, tr, fl, rfl⟩ := h.same
  rfl

theorem armDesc_lt (w : Nat) : armDesc w < 64 := bits_lt _ _ _

/-- The effect of a STRMARM on anything but the descriptors of its core. -/
theorem armRun_setDesc (s : State) (c t w : Nat) : ∃ x, armRun s c t w = setDesc (armNoted s c (armDesc w) (armedXfer s c t (armDesc w))) c (armDesc w) x := by
  rw [armRun_eq]
  split <;> exact ⟨_, rfl⟩

theorem frame_armRun (s : State) (c t w : Nat) : Frame (armRegs c (armDesc w)) s (armRun s c t w) := by
  obtain ⟨x, e⟩ := armRun_setDesc s c t w
  have hset : ∀ y : State, Frame (armRegs c (armDesc w)) y (setDesc y c (armDesc w) x) := fun y => ⟨fun _ => rfl, fun _ _ => rfl, rfl, rfl⟩
  rw [e]
  exact (frame_armNoted s c _ _).trans (hset _)

theorem otherCores_armRun (s : State) (c t w : Nat) : OtherCores c s (armRun s c t w) := by
  obtain ⟨x, e⟩ := armRun_setDesc s c t w
  intro k hk
  rw [e, setDesc, coreOf_modCore_other _ _ hk]
  exact coreOf_congr (armNoted_cores s c _ _) k

theorem slotOf_armRun (s : State) (c t w u : Nat) : slotOf (armRun s c t w) c u = slotOf s c u := by
  obtain ⟨x, e⟩ := armRun_setDesc s c t w
  rw [e, slotOf_setDesc]
  exact slotOf_congr (armNoted_cores s c _ _) c u

theorem getR64_armRun (s : State) (c t w off : Nat) : getR64 (armRun s c t w) off = getR64 (armNoted s c (armDesc w) (armedXfer s c t (armDesc w))) off := by
  obtain ⟨x, e⟩ := armRun_setDesc s c t w
  rw [e]
  exact getR64_congr rfl off

/-- The step of a STRMARM follows the arming. -/
theorem strmarm_done {c t f w : Nat} {s : State} (hc : c < 256) (hi : Issues s c t f w) (hop : wOp w = .strmarm) :
    WordDone c t f w s (armRun s c t w) (sequencer s c (· = .strmarm)) := by
  have hd := wordDone_of_issues (lead := (· = .strmarm)) hi (by simp [hop, actOps]) (by simp [hop])
  rw [wordEffect_strmarm hop] at hd
  refine hd (floeFor_of_frame (frame_armRun s c t w) hc (fun off ho => ?_) t)
  simp only [armRegs, List.mem_cons, List.not_mem_nil, or_false, rDESC_STAT, rOVL_VALID, coreBase, ledgerBase, qDESC] at ho
  omega

/-- Settles O15: the fences of an LFENCE, the COMMIT that leaves port 0 from a state that the port cannot tell from the present one, and the transfer that an arming
makes. -/
theorem fenceArmAndIdleCommit : Obligations.FenceArmAndIdleCommit := by
  intro c s t f w hi
  have hc : c.val < 256 := c.isLt
  have hf := floe_lt_of_issues hi
  have hlow : ∀ off, off < 0x40_0000 → off ∉ issueRegs c f := fun off h => not_mem_issueRegs_of_package hc hf h
  refine ⟨?_, ?_, ?_, ?_⟩
  · intro hw
    have hd := slotStep_lfence_done hi hw
    have hs := slotStep_lfenceRun s c t w
    refine ⟨_, rfl, hd.frame hs.frame, hd.otherCores hs.cores, ?_, fun ids hids => ?_⟩
    · rw [hd.slot (not_jump_of_plainOp (.inl hw))]
      rfl
    · rw [hd.slot (not_jump_of_plainOp (.inl hw)), hids]
      exact fences_lfenceRun s c t w
  · intro hw hm
    have he : wordEffect s c t (slotOf s c t).pc w = s := by rw [wordEffect_mircommit hw, mircommitRun, if_pos hm]
    have hd := wordDone_of_issues (lead := (· = .mircommit)) hi (by simp [hw, actOps]) (by simp [hw]) (by rw [he])
    rw [he] at hd
    exact ⟨_, rfl, hd.frame (Frame.refl [] s), hd.otherCores fun _ _ => rfl, hd.stepsOn (not_jump_of_plainOp (.inr (.inl hw))) rfl, hd.mirror⟩
  · intro hw h1 h2 n hn
    rw [← nextCommit_eq] at hn
    subst hn
    have hd := mircommit_done hc hi hw h1 h2
    have hp := prepared_commitLagged s w
    have hx := pushed_txPush (commitLagged s w) 0 0 (commitPacket s w)
    have hcores := hx.cores.trans hp.cores
    have hreg : ∀ off, off < 0x40_0000 → off ≠ ledgerBase qLINKCRED → off ≠ ledgerBase qLINKCRED + 4 →
        getR (sequencer s c (· = .mircommit)) off = getR (commitLagged s w) off := fun off h h' h'' =>
      (hd.regs off (hlow off h)).trans (hx.getR_eq h' h'')
    refine ⟨_, rfl, hd.sameMem fun a => (hx.frame.1 a).trans (hp.sameMem a), hd.otherCores fun k _ => coreOf_congr hcores k,
      hd.stepsOn (not_jump_of_plainOp (.inr (.inl hw))) (slotOf_congr hcores c t), ?_, ?_, ?_, ?_⟩
    · rw [hreg _ (by decide) (by decide) (by decide), hp.seq, nextCommit_eq, BitVec.ofNat_toNat, BitVec.setWidth_eq]
    · rw [hd.mirror, hx.mirror, hp.unacked]
    · rw [getR64, hreg _ (by decide) (by decide) (by decide), hreg _ (by decide) (by decide) (by decide), ← getR64, hp.ledger]
    · exact (hd.portOf_eq 0).trans ((hp.likePort 0).txPush (by decide) 0 (commitPacket s w)).port
  · intro hw
    have hd := strmarm_done hc hi hw
    have hdesc := hd.descOf_eq (armDesc w)
    refine ⟨_, rfl, hd.sameMem (frame_armRun s c t w).1, hd.otherCores (otherCores_armRun s c t w), ?_, ?_, ?_, ?_⟩
    · rw [hd.slot (not_jump_of_plainOp (.inr (.inr hw)))]
      rfl
    · rw [hd.getR64_eq (hlow _ (by decide)) (hlow _ (by decide)), getR64_armRun, issued_armNoted]
    · intro a ha
      rw [hdesc, armRun_eq, ha]
      simp only [Option.isNone_some, Bool.false_eq_true, if_false, descOf_setDesc_same]
      exact ⟨ha, _, rfl, rfl, rfl⟩
    · intro ha
      rw [hdesc, armRun_eq, ha]
      simp only [Option.isNone_none, if_true, descOf_setDesc_same]
      refine ⟨_, rfl, rfl, rfl, rfl, ?_⟩
      have hcore : 0x200_0000 ≤ rDESC_STAT c (armDesc w) := by unfold rDESC_STAT coreBase; omega
      rw [hd.getR64_eq (not_mem_issueRegs_of_core hc hf hcore) (not_mem_issueRegs_of_core hc hf (by omega)), getR64_armRun,
        index_armNoted s (armDesc_lt w)]

end Sys2Proof.Safety
end

section
/-! PROOF. Two statements that a state with a number outside its field's range refutes: nothing bounds the slot that a refused message names (O27), nor the row of firn
that a request reads (O37), and registers are found by arithmetic on such numbers. -/

namespace Sys2Proof.Safety

open Sys2Proof.Machine Sys2Proof.Tests

-- O27: the slot of a refused message ---------------------------------------------------------------------------------------

/-- A refused request of channel 0 of core 0 that names slot 64 as its sender; bits [34:32] of its first word are those of a running slot's state. -/
def returnAtSlot64 : Refused := ⟨0, 0, 64, [BitVec.ofNat 64 (2 ^ 33)], false, false⟩
/-- Its sender has one credit out, so that the return faults slot 64. -/
def sReturn64 : State := { setCredOut base 0 0 1 with refusals := [returnAtSlot64] }

/-- The status of slot 64 stands where OCH_HELD of channel 0 keeps the upper half of word 0. -/
theorem rTASK_STAT_slot64 : rTASK_STAT 0 64 = rOCH_HELD 0 0 + 4 := by decide

theorem messageReturn_of_next {core : CoreId} {o : ChanId} {s s' : State} (hreach : coreReached s core = true)
    (h : exec (.messageReturn core o) s = .next s') : messageReturn s core o = s' :=
  (if_pos hreach).symm.trans (Host.Outcome.next.inj h)

/-- Refutes O27: the fault of slot 64 writes FAULTED into the message that the channel holds. -/
theorem not_messagesArriveReturnAndCredit : ¬ Obligations.MessagesArriveReturnAndCredit := by
  intro h
  obtain ⟨_, hreturn, _⟩ := h 0 sReturn64 (by decide +kernel)
  obtain ⟨s', hexec, _, _, _, _, hheld⟩ := hreturn 0 returnAtSlot64 (by decide +kernel)
  obtain rfl := messageReturn_of_next (by decide +kernel) hexec
  exact absurd (hheld (by decide +kernel) 0 (by decide)) (by decide +kernel)

-- O37: the row of a request that holds an entry ------------------------------------------------------------------------------

/-- A read that holds an entry of stack 31, whose place lies so far above the stack that its bytes are those of stack 8 · 0xF48. -/
def readBeyondStacks : FirnReq :=
  { stack := 31, port := 0, off := 0, len := 1, wr := false, data := [], core := 0, desc := 0, slot := 0, id := 0, pos := 0, phys := (8 * 0xF48 - 31) * 2 ^ 33 }
/-- The package enters SLEEP while that read holds its entry and its beat is uncorrectable; the mapping of stack 0 is not the interleaved one. -/
def sSleepBadBeat : State :=
  { withR [(rFIRN_MAP 0, 0)] base with
    firnEnt := [readBeyondStacks], beatErr := [(8 * 0xF48 * 2 ^ 33 / 32, BitVec.ofNat 288 0x0101)],
    pwr := { vaux := true, supplies := true, entry := some 2 } }

/-- The second word of the event record of "die" 0xF48 stands where stack 0 has FIRN_STAT. -/
theorem rMLOG_FIRST_die0xF48 : rMLOG_FIRST 0xF48 + 8 = rFIRN_STAT 0 := by decide

theorem sleepEntry_of_next {s s' : State} (h : exec .sleepEntryComplete s = .next s') : sleepEntry s = s' := Host.Outcome.next.inj h

theorem sleepEntry_awake : getB (sleepEntry sSleepBadBeat) (rFIRN_STAT 0) 9 = false := by decide +kernel

/-- Refutes O37: the record of that beat, made after stack 0 went to self-refresh, clears the bit of FIRN_STAT that says so. -/
theorem not_powerEntriesComplete : ¬ Obligations.PowerEntriesComplete := by
  intro h
  obtain ⟨hsleep, _, _⟩ := h sSleepBadBeat
  obtain ⟨s', hexec, _, _, _, hrefresh, _⟩ := hsleep rfl
  obtain rfl := sleepEntry_of_next hexec
  exact absurd (hrefresh 0 (by decide)) (by rw [sleepEntry_awake]; decide)

end Sys2Proof.Safety
end

section
/-! PROOF. The clock of a service region starts with the crossings of its clusters unaligned again (R288), which XALIGN of each cluster shows (O38). -/

namespace Sys2Proof.Safety

open Sys2Proof.Machine Sys2Proof.Tests

/-- The service region of die 0 is powered and waits for its PLL; XALIGN of cluster 0 still shows an alignment. -/
def sShowsAligned : State := withR [(rCLK_STAT 0, 0x80)] (setRegion up 32 { ({} : RegionSt) with powered := true })

theorem getR_pllLockRun_sShowsAligned : getR (pllLockRun sShowsAligned 32) (rCLK_STAT 0) = 0 := by decide +kernel

theorem pllLockRun_of_next {r : RegionId} {s s' : State} (h : exec (.pllLock r) s = .next s') : pllLockRun s r = s' := Host.Outcome.next.inj h

/-- Refutes O38: the lock of region 32 clears XALIGN of cluster 0, whose CLK_STAT is not among the registers that the statement lets it write. -/
theorem not_wakesBringThePackageUp : ¬ Obligations.WakesBringThePackageUp := by
  intro h
  obtain ⟨_, _, _, _, _, _, hlock, _⟩ := h sShowsAligned rfl rfl
  obtain ⟨hlock, _⟩ := hlock 32 (by decide) rfl (by decide +kernel) (by decide +kernel)
  obtain ⟨s', hexec, hframe, _⟩ := hlock (.inr rfl) (.inr rfl)
  obtain rfl := pllLockRun_of_next hexec
  have hsame : getR (pllLockRun sShowsAligned 32) (rCLK_STAT 0) = getR sShowsAligned (rCLK_STAT 0) := hframe.getR_eq (by decide)
  rw [getR_pllLockRun_sShowsAligned] at hsame
  exact absurd hsame (by decide +kernel)

end Sys2Proof.Safety
end

section
/-! PROOF. Three statements that a small state refutes: a replay's loss of its link with a request of a control core that does not exist (O49), a closed end with a task that
waits on it (O57), and a trace buffer that ends with its stack (O59). -/

namespace Sys2Proof.Safety

open Sys2Proof.Machine Sys2Proof.Tests

-- O49: a tracker entry of control core 256 ------------------------------------------------------------------------------------

/-- Port 0 is up with a flit that has been replayed as often as RETRY_MAX allows; FAB_PORT_CTL reads 0. Control core 256 waits for a load by the port. -/
def sRetried : State :=
  setTrk (setPort (withR [(rFAB_CTL 0, 0)] (sPort 2)) 0 { replay := [f0], replays := 1 }) 0 { gen := 0, busy := some (.ccRead 256 0, 0, 0) }

/-- The event record of control core 256's "die" has its second word where port 0 has FAB_PORT_STAT. -/
theorem rMLOG_FIRST_die64 : rMLOG_FIRST (256 / 4) + 8 = rFAB_STAT 0 := by decide

theorem flitIn_of_next {port : PortId} {bs : List Byte} {s s' : State} (h : exec (.flitReceive port bs) s = .next s') : flitIn s port bs = s' :=
  Host.Outcome.next.inj h

/-- A flit of an up port that only asks for a replay. -/
theorem flitIn_nak {s : State} {p : Nat} {bs : List Byte} {f : FlitRec} (hup : portUp s p = true) (hlp : portState s p ≠ 4) (hf : flitOf bs = some f)
    (hnum : numbered f = false) (hnak : f.nak = true) : flitIn s p bs = portFlush (replayFrom (ackFlits s p f.ackSeq) p) p := by
  unfold flitIn
  rw [if_neg hlp, if_neg (by simp [hup]), hf]
  simp [hnum, hnak]

theorem replay_clears_retried : getB (portFlush (replayFrom (ackFlits sRetried 0 fNak.ackSeq) 0) 0) (rFAB_STAT 0) 4 = false := by decide +kernel

theorem flitIn_clears_retried : getB (flitIn sRetried 0 (flitBytes fNak)) (rFAB_STAT 0) 4 = false :=
  (congrArg (fun s => getB s (rFAB_STAT 0) 4)
    (flitIn_nak (by decide +kernel) (by decide +kernel) wit_flit_nak.1 (by decide +kernel) wit_flit_nak.2.1)).trans replay_clears_retried

/-- Refutes O49: the loss of the link ends that load, and the record of its error clears the bit of FAB_PORT_STAT that tells of the replays. -/
theorem not_linksRetryAndExchangeTime : ¬ Obligations.LinksRetryAndExchangeTime := by
  intro h
  obtain ⟨_, _, _, hnak, _⟩ := h 0 sRetried (portOf sRetried 0) rfl (by decide +kernel) (by decide +kernel) (by decide +kernel) (by decide +kernel) (by decide +kernel)
  obtain ⟨hflit, hfnak, hidle, hvl, hcred, _⟩ := wit_flit_nak
  obtain ⟨_, hlast⟩ := hnak (flitBytes fNak) fNak hflit hfnak hidle hvl hcred (by decide +kernel) (by decide +kernel)
  obtain ⟨s', hexec, _, hretry⟩ := hlast (by decide +kernel)
  obtain rfl := flitIn_of_next hexec
  exact absurd (flitIn_clears_retried.symm.trans hretry) (by decide)

-- O57: a task that waits on a closed end ----------------------------------------------------------------------------------------

/-- End 3 of core 0 is closed and holds a message, and slot 1 is BLOCKED on it. -/
def sWaitsClosed : State := withR [(rTASK_STAT 0 1, 3)] (modSlot (sRing3 1) 0 1 fun x => { x with wait := some (.ich 3) })

theorem regTop_of_next_reopen {src : Src} {c : CoreId} {e : EndId} {s s' : State} (h : exec (.ichReopenKeep src c e) s = .next s') :
    regTop s src (rICH_CTL c e) false 2 = s' := Host.Outcome.next.inj h

/-- Refutes O57: as the end opens, its message is reserved for the task that waits (R232), so that the ring is not what it was. -/
theorem not_countersAndEndsAreWritten : ¬ Obligations.CountersAndEndsAreWritten := by
  intro h
  obtain ⟨_, _, hends⟩ := h .host sWaitsClosed 0
  obtain ⟨_, _, hkeep, _⟩ := hends 3 (by unfold Served Awake; decide +kernel)
  obtain ⟨s', hexec, _, _, hring⟩ := hkeep (by decide +kernel)
  obtain rfl := regTop_of_next_reopen hexec
  exact absurd hring (by decide +kernel)

-- O59: a trace buffer at the top of its stack -------------------------------------------------------------------------------------

/-- Trace of die 0 goes to the last 2 MiB of stack 0, its pointer at the last record; stack 1 is not open. -/
def sTraceTop : State :=
  let s := setStack (dbg base) 0 { stackOf base 0 with open_ := true }
  setTrace (withR [(rTRC_CTL 0, 1), (rTRC_BUF 0, 0xFFE0_0000), (rTRC_BUF 0 + 4, 0x10001), (rTRC_STAT 0, 65535), (rTRC_SLOTS 0 + 28, 2 ^ 31)] s) 0
    (List.replicate 16 [5#64, 0#64, 1#64, 0#64])

theorem tracePacket_of_next {d : DieId} {slot : BitVec 8} {busy : Bool} {s s' : State} (h : exec (.tracePacketWrite d slot busy) s = .next s') :
    tracePacket s d slot.toNat busy = s' := Host.Outcome.next.inj h

theorem trace_packet_waits : (traceOf (tracePacket sTraceTop (0 : DieId).val (255#8).toNat false) (0 : DieId).val).length = 16 := by decide +kernel

/-- Refutes O59: 15 of the 16 records wrap to the buffer's start, but the 512 bytes from the pointer on reach into stack 1, which is not open, and the packet waits. -/
theorem not_diagnosticsAct : ¬ Obligations.DiagnosticsAct := by
  intro h
  obtain ⟨_, hdie, _⟩ := h .host sTraceTop
  obtain ⟨_, _, _, _, hpacket⟩ := hdie 0
  obtain ⟨hwrite, _⟩ := hpacket 255 65535 (by decide +kernel) (by decide +kernel) (by decide +kernel) (by decide +kernel) (by decide +kernel) (by decide +kernel)
  obtain ⟨s', hexec, htrace, _⟩ := hwrite (by decide +kernel) (by decide +kernel) (by decide +kernel) (by decide +kernel) (by decide)
  obtain rfl := tracePacket_of_next hexec
  exact absurd (trace_packet_waits.symm.trans (congrArg List.length htrace)) (by decide +kernel)

end Sys2Proof.Safety
end

section
/-! SUPPORT. Bytes kept in register words, and writes of the session block (16_host_interface.md). -/

namespace Sys2Proof.Safety

open Sys2Proof.Machine

variable {s s' : State} {src : Src}

-- bytes in register words ----------------------------------------------------------------------------------------------------

theorem length_leBytes (n x : Nat) : (leBytes n x).length = n := by simp [leBytes]

theorem leNat_lt (bs : List Byte) : leNat bs < 256 ^ bs.length := by
  induction bs with
  | nil => simp [leNat]
  | cons b bs ih =>
    have hb := b.isLt
    rw [leNat, List.length_cons, pow_succ]
    omega

theorem leBytes_succ (n x : Nat) : leBytes (n + 1) x = BitVec.ofNat 8 x :: leBytes n (x / 256) := by
  simp only [leBytes, List.range_succ_eq_map, List.map_cons, List.map_map, pow_zero, Nat.div_one]
  congr 1
  refine List.map_congr_left fun i _ => ?_
  rw [Function.comp_apply, pow_succ', Nat.div_div_eq_div_mul]

/-- Bytes are those of their number. -/
theorem leBytes_leNat (bs : List Byte) : leBytes bs.length (leNat bs) = bs := by
  induction bs with
  | nil => rfl
  | cons b bs ih =>
    have hb := b.isLt
    have hq : (b.toNat + 256 * leNat bs) / 256 = leNat bs := by omega
    have hr : BitVec.ofNat 8 (b.toNat + 256 * leNat bs) = b := BitVec.eq_of_toNat_eq (by rw [BitVec.toNat_ofNat]; omega)
    rw [leNat, List.length_cons, leBytes_succ, hq, ih, hr]

/-- The first n words of a run of register words from an offset. -/
def wordsFrom (off n : Nat) : List Nat := (List.range n).map fun i => off + 4 * i

/-- The i-th word that setRegBytes stores. -/
def wordOf (bs : List Byte) (i : Nat) : BitVec 32 := BitVec.ofNat 32 (leNat ((bs.drop (4 * i)).take 4))

/-- setRegBytes as far as the first n words. -/
def wordsSet (s : State) (off : Nat) (bs : List Byte) (n : Nat) : State := (List.range n).foldl (fun s i => setR s (off + 4 * i) (wordOf bs i)) s

theorem wordsSet_succ (s : State) (off : Nat) (bs : List Byte) (n : Nat) :
    wordsSet s off bs (n + 1) = setR (wordsSet s off bs n) (off + 4 * n) (wordOf bs n) := by
  rw [wordsSet, List.range_succ, List.foldl_concat, wordsSet]

theorem setRegBytes_eq (s : State) (off : Nat) (bs : List Byte) : setRegBytes s off bs = wordsSet s off bs (bs.length / 4) := rfl

/-- Registers that hold bytes change, and nothing else of the state. -/
theorem wordsSet_same (s : State) (off : Nat) (bs : List Byte) (n : Nat) : ∃ r, wordsSet s off bs n = { s with regs := r } := by
  induction n with
  | zero => exact ⟨_, rfl⟩
  | succ n ih =>
    obtain ⟨r, e⟩ := ih
    rw [wordsSet_succ, e]
    exact ⟨_, rfl⟩

theorem setRegBytes_same (s : State) (off : Nat) (bs : List Byte) : ∃ r, setRegBytes s off bs = { s with regs := r } := wordsSet_same s off bs _

theorem getR_wordsSet_other (s : State) (off : Nat) (bs : List Byte) {o : Nat} (n : Nat) (h : ∀ i < n, o ≠ off + 4 * i) :
    getR (wordsSet s off bs n) o = getR s o := by
  induction n with
  | zero => rfl
  | succ n ih => rw [wordsSet_succ, getR_setR_other _ _ (h n (Nat.lt_succ_self n)), ih fun i hi => h i (by omega)]

theorem getR_wordsSet (s : State) (off : Nat) (bs : List Byte) {i n : Nat} (h : i < n) : getR (wordsSet s off bs n) (off + 4 * i) = wordOf bs i := by
  induction n with
  | zero => omega
  | succ n ih =>
    rw [wordsSet_succ]
    rcases Nat.lt_succ_iff_lt_or_eq.1 h with h' | rfl
    · rw [getR_setR_other _ _ (by omega), ih h']
    · exact getR_setR_same _ _ _

theorem frame_setRegBytes {l : List Nat} (s : State) (off : Nat) (bs : List Byte) (h : wordsFrom off (bs.length / 4) ⊆ l) : Frame l s (setRegBytes s off bs) := by
  obtain ⟨r, e⟩ := setRegBytes_same s off bs
  refine ⟨fun _ => by rw [e]; rfl, fun o ho => getR_wordsSet_other s off bs _ fun i hi he => ho (h ?_), by rw [e], by rw [e]⟩
  exact List.mem_map.2 ⟨i, List.mem_range.2 hi, he.symm⟩

theorem bytes_wordOf (bs : List Byte) {i : Nat} (h : 4 * i + 4 ≤ bs.length) : leBytes 4 (wordOf bs i).toNat = (bs.drop (4 * i)).take 4 := by
  have hl : ((bs.drop (4 * i)).take 4).length = 4 := by rw [List.length_take, List.length_drop]; omega
  have hlt := leNat_lt ((bs.drop (4 * i)).take 4)
  rw [hl] at hlt
  rw [wordOf, BitVec.toNat_ofNat, Nat.mod_eq_of_lt (hlt.trans_eq (by norm_num))]
  have hb := leBytes_leNat ((bs.drop (4 * i)).take 4)
  rwa [hl] at hb

/-- Cut into fours, a list is whole. -/
theorem flatMap_fours {α : Type} (n : Nat) (bs : List α) : (List.range n).flatMap (fun i => (bs.drop (4 * i)).take 4) = bs.take (4 * n) := by
  induction n with
  | zero => rfl
  | succ n ih => rw [List.range_succ, List.flatMap_append, ih, List.flatMap_singleton, Nat.mul_succ, List.take_add]

/-- Register words read back the bytes that were stored in them. -/
theorem regBytes_setRegBytes (s : State) (off n : Nat) (bs : List Byte) (h : bs.length = 4 * n) : regBytes (setRegBytes s off bs) off (4 * n) = bs := by
  have hn : bs.length / 4 = n := by omega
  have hword : ∀ i ∈ List.range n, wordBytes32 (setRegBytes s off bs) (off + 4 * i) = (bs.drop (4 * i)).take 4 := fun i hi => by
    have hi' : i < n := List.mem_range.1 hi
    rw [wordBytes32, setRegBytes_eq, hn, getR_wordsSet s off bs hi', bytes_wordOf bs (by omega)]
  rw [regBytes, Nat.mul_div_cancel_left n (by decide), ← List.flatMap_congr (fun i hi => (hword i hi).symm), flatMap_fours, ← h, List.take_length]

theorem regBytes_congr {off n : Nat} (h : ∀ i < n / 4, getR s' (off + 4 * i) = getR s (off + 4 * i)) : regBytes s' off n = regBytes s off n :=
  List.flatMap_congr fun i hi => by rw [wordBytes32, wordBytes32, h i (List.mem_range.1 hi)]

-- writes of the session block ------------------------------------------------------------------------------------------------------

theorem regTop_sessBlock {off : Nat} (h : Served s src off) (hlo : 0x2_0000 ≤ off) (hhi : off < 0x4_0000) (h4 : off % 4 = 0) (v : Nat) :
    regTop s src off false v = sessWrite s src off (BitVec.ofNat 32 v) := by
  rw [regTop_of_served h (by omega) h4, writeWord, if_neg (by unfold rPKG_ID; omega), if_pos (by simp [inSessBlock]; omega)]

theorem regTop_sessCtl (h : Served s src rSESS_CTL) (v : Nat) (hv : v < 2 ^ 32) : regTop s src rSESS_CTL false v = sessCtl s (src == .jtag) v := by
  rw [regTop_sessBlock h (by decide) (by decide) (by decide), sessWrite, if_pos rfl, BitVec.toNat_ofNat, Nat.mod_eq_of_lt hv]

theorem sessCtl_req (s : State) (jtag debug : Bool) : sessCtl s jtag (if debug then 9 else 1) = sessRequest s debug := by
  cases debug <;> simp [sessCtl, bits]

theorem sessCtl_submit (s : State) (jtag : Bool) : sessCtl s jtag 2 = sessSubmit s jtag := by simp [sessCtl, bits]

theorem sessCtl_close (s : State) (jtag : Bool) : sessCtl s jtag 4 = sessEnd s := by simp [sessCtl, bits]

theorem exec_sessReq (h : Served s src rSESS_CTL) (debug : Bool) : exec (.sessReq src debug) s = .next (sessRequest s debug) := by
  have hv : (if debug then 9 else 1) < 2 ^ 32 := by split <;> decide
  exact congrArg Host.Outcome.next ((regTop_sessCtl h _ hv).trans (sessCtl_req s _ debug))

theorem exec_sessSubmit (h : Served s src rSESS_CTL) : exec (.sessSubmit src) s = .next (sessSubmit s (src == .jtag)) :=
  congrArg Host.Outcome.next ((regTop_sessCtl h 2 (by decide)).trans (sessCtl_submit s _))

theorem exec_sessClose (h : Served s src rSESS_CTL) : exec (.sessClose src) s = .next (sessEnd s) :=
  congrArg Host.Outcome.next ((regTop_sessCtl h 4 (by decide)).trans (sessCtl_close s _))

-- a refused request ------------------------------------------------------------------------------------------------------------------

/-- A refusal leaves its code in ERR, and the session's state as it was. -/
theorem refused_sessErr (s : State) {e : Nat} (he : e < 16) :
    Frame [rSESS_STATE] s (sessErr s e) ∧ getF (sessErr s e) rSESS_STATE 12 4 = e ∧ sessState (sessErr s e) = sessState s :=
  ⟨frame_setF s (by simp) _ _ _, (getF_setF_same s _ _ _ _ (by decide)).trans (Nat.mod_eq_of_lt he), getF_setF_otherField s _ _ _ _ _ _ (by decide) (by decide)⟩

theorem sessState_lt (s : State) : sessState s < 4 := getF_lt s _ _ _

-- the challenge ---------------------------------------------------------------------------------------------------------------------

/-- A challenge drawn and dated, in its registers. -/
def challenged (s : State) : State :=
  setRegBytes { s with draws := s.draws + 1, sess := { s.sess with chalTick := s.time.ticks } } rSESS_CHALLENGE (leBytes 32 (Config.challenge s.draws).toNat)

/-- The session block at CHALLENGE of a kind. -/
def challengeOpen (s : State) (debug : Bool) : State := setF (setF s rSESS_STATE 0 2 1) rSESS_STATE 2 1 (if debug then 1 else 0)

theorem sessRequest_of_key {debug : Bool} {k : List Byte} (hb : bruta s = true) (hs : sessState s < 2) (hk : sessKey s debug = some k) :
    sessRequest s debug = challengeOpen (challenged s) debug := by
  rw [sessRequest, if_neg (by simp [hb]; omega), if_neg (by omega), hk]
  rfl

theorem frame_challenged (s : State) : Frame (wordsFrom rSESS_CHALLENGE 8) s (challenged s) := by
  have h0 : Frame (wordsFrom rSESS_CHALLENGE 8) s { s with draws := s.draws + 1, sess := { s.sess with chalTick := s.time.ticks } } :=
    ⟨fun _ => rfl, fun _ _ => rfl, rfl, rfl⟩
  exact h0.trans (frame_setRegBytes _ _ _ (by rw [length_leBytes]; exact List.Subset.refl _))

theorem chalTick_challenged (s : State) : (challenged s).sess.chalTick = s.time.ticks := by
  obtain ⟨r, e⟩ := setRegBytes_same { s with draws := s.draws + 1, sess := { s.sess with chalTick := s.time.ticks } } rSESS_CHALLENGE
    (leBytes 32 (Config.challenge s.draws).toNat)
  rw [challenged, e]

theorem regBytes_challenged (s : State) : regBytes (challenged s) rSESS_CHALLENGE 32 = leBytes 32 (Config.challenge s.draws).toNat :=
  regBytes_setRegBytes _ rSESS_CHALLENGE 8 _ (length_leBytes 32 _)

theorem frame_challengeOpen (s : State) (debug : Bool) : Frame [rSESS_STATE] s (challengeOpen s debug) :=
  (frame_setF s (by simp) _ _ _).trans (frame_setF _ (by simp) _ _ _)

theorem sessState_challengeOpen (s : State) (debug : Bool) : sessState (challengeOpen s debug) = 1 := by
  rw [sessState, challengeOpen, getF_setF_otherField _ _ _ _ _ _ _ (by decide) (by decide),
    getF_setF_same _ _ _ _ _ (by decide)]
  rfl

theorem debug_challengeOpen (s : State) (debug : Bool) : getB (challengeOpen s debug) rSESS_STATE 2 = debug := by
  rw [challengeOpen, getB_setF_same _ _ (by decide)]
  cases debug <;> rfl

theorem regBytes_challengeOpen (s : State) (debug : Bool) : regBytes (challengeOpen s debug) rSESS_CHALLENGE 32 = regBytes s rSESS_CHALLENGE 32 :=
  regBytes_congr fun i _ => (frame_challengeOpen s debug).getR_eq (by rw [List.mem_singleton]; unfold rSESS_CHALLENGE rSESS_STATE; omega)

-- a wrong response ----------------------------------------------------------------------------------------------------------------------

theorem frame_withSess (l : List Nat) (s : State) (x : SessSt) : Frame l s { s with sess := x } := ⟨fun _ => rfl, fun _ _ => rfl, rfl, rfl⟩

theorem getF_withSess (s : State) (x : SessSt) (off lo w : Nat) : getF { s with sess := x } off lo w = getF s off lo w := by
  unfold getF
  rfl

/-- The session block after a wrong response: FAILS counts it and ERR names it. -/
def failed (s : State) : State := sessErr (setF (setF s rSESS_STATE 0 2 0) rSESS_STATE 4 4 (getF s rSESS_STATE 4 4 + 1)) 1

/-- The event of a wrong response. -/
def authEvent (s : State) : Ev := { cls := cAUTH, sev := 0, home := 0, ukind := 3, uindex := 0, detail := getF s rSESS_STATE 4 4 + 1 }

/-- The lockout at its level. -/
def lockedOut (s : State) (l : Nat) : State :=
  setF (setF (setF { s with sess := { s.sess with lockTick := s.time.ticks, lockLen := 60 * 2 ^ l * 100_000_000 } } rSESS_STATE 0 2 3) rSESS_STATE 4 4 0)
    rSESS_STATE 8 4 (min 10 (l + 1))

theorem badMac_eq (s : State) :
    badMac s = if 8 ≤ getF s rSESS_STATE 4 4 + 1 then
        hostIrq (lockedOut (raiseEv (failed s) 0 (authEvent s)) (getF (raiseEv (failed s) 0 (authEvent s)) rSESS_STATE 8 4)) 8
      else raiseEv (failed s) 0 (authEvent s) := by
  simp only [badMac, failed, authEvent, lockedOut]

theorem noted_authEvent (s b : State) : Noted s (raiseEv s 0 (authEvent b)) := by
  have hcls : (authEvent b).cls = cAUTH := rfl
  have hhome : (authEvent b).home = 0 := rfl
  exact noted_raiseEv_unowned s (by decide) rfl (hcls ▸ by decide) (hhome ▸ by decide)

theorem not_logReg_sessState : ¬ LogReg rSESS_STATE := by unfold LogReg rSESS_STATE; omega

/-- FAILS below 8: the session is closed, and the response counts. -/
theorem getF_failed (s : State) :
    getF (failed s) rSESS_STATE 12 4 = 1 ∧ sessState (failed s) = 0 ∧ getF (failed s) rSESS_STATE 4 4 = (getF s rSESS_STATE 4 4 + 1) % 16 ∧
      getF (failed s) rSESS_STATE 8 4 = getF s rSESS_STATE 8 4 := by
  simp (disch := decide) only [failed, sessErr, sessState, getF_setF_same, getF_setF_otherField]
  exact ⟨by decide, by decide, rfl, trivial⟩

theorem getF_lockedOut (s : State) (l : Nat) :
    getF (lockedOut s l) rSESS_STATE 12 4 = getF s rSESS_STATE 12 4 ∧ sessState (lockedOut s l) = 3 ∧ getF (lockedOut s l) rSESS_STATE 4 4 = 0 ∧
      getF (lockedOut s l) rSESS_STATE 8 4 = min 10 (l + 1) := by
  simp (disch := decide) only [lockedOut, sessState, getF_setF_same, getF_setF_otherField]
  have hmin : min 10 (l + 1) % 2 ^ 4 = min 10 (l + 1) := Nat.mod_eq_of_lt (by omega)
  exact ⟨rfl, by decide, by decide, hmin⟩

theorem frame_failed (s : State) : Frame [rSESS_STATE] s (failed s) :=
  ((frame_setF s (by simp) _ _ _).trans (frame_setF _ (by simp) _ _ _)).trans (frame_setF _ (by simp) _ _ _)

theorem frame_lockedOut (s : State) (l : Nat) : Frame [rSESS_STATE] s (lockedOut s l) :=
  (((frame_withSess _ s _).trans (frame_setF _ (by simp) _ _ _)).trans (frame_setF _ (by simp) _ _ _)).trans (frame_setF _ (by simp) _ _ _)

theorem sess_lockedOut (s : State) (l : Nat) :
    (lockedOut s l).sess.lockLen = 60 * 2 ^ l * 100000000 ∧ (lockedOut s l).sess.lockTick = s.time.ticks := by
  constructor <;> simp only [lockedOut, setF_sess]

theorem sess_hostIrq (s : State) (b : Nat) : (hostIrq s b).sess = s.sess := by
  obtain ⟨h, e⟩ := hostIrq_eq s b
  rw [e]
  rfl

theorem getF_hostIrq (s : State) (b lo w : Nat) : getF (hostIrq s b) rSESS_STATE lo w = getF s rSESS_STATE lo w :=
  (frame_hostIrq s b).getF_eq (by decide) lo w

theorem Noted.time (h : Noted s s') : s'.time = s.time := by obtain ⟨⟨r, tr, ho, pi, rfl⟩, -⟩ := h; rfl

theorem wrong_badMac (s : State) :
    SameMem s (badMac s) ∧ getF (badMac s) rSESS_STATE 12 4 = 1 ∧
      (getF s rSESS_STATE 4 4 < 7 → sessState (badMac s) = 0 ∧ getF (badMac s) rSESS_STATE 4 4 = getF s rSESS_STATE 4 4 + 1) ∧
      (getF s rSESS_STATE 4 4 = 7 → sessState (badMac s) = 3 ∧ getF (badMac s) rSESS_STATE 4 4 = 0 ∧
        getF (badMac s) rSESS_STATE 8 4 = min 10 (getF s rSESS_STATE 8 4 + 1) ∧
        (badMac s).sess.lockLen = 60 * 2 ^ getF s rSESS_STATE 8 4 * 100000000 ∧ (badMac s).sess.lockTick = s.time.ticks) := by
  have hn := noted_authEvent (failed s) s
  have hf (lo w : Nat) : getF (raiseEv (failed s) 0 (authEvent s)) rSESS_STATE lo w = getF (failed s) rSESS_STATE lo w := hn.getF_eq not_logReg_sessState lo w
  have hm : SameMem s (raiseEv (failed s) 0 (authEvent s)) := fun a => (hn.sameMem a).trans ((frame_failed s).1 a)
  obtain ⟨herr, hstate, hfails, hlevel⟩ := getF_failed s
  rw [badMac_eq, hf, hlevel]
  split
  case isTrue h8 =>
    have hlast : ¬ getF s rSESS_STATE 4 4 < 7 := by omega
    obtain ⟨lerr, lstate, lfails, llevel⟩ := getF_lockedOut (raiseEv (failed s) 0 (authEvent s)) (getF s rSESS_STATE 8 4)
    obtain ⟨llen, ltick⟩ := sess_lockedOut (raiseEv (failed s) 0 (authEvent s)) (getF s rSESS_STATE 8 4)
    refine ⟨fun a => (((frame_hostIrq _ 8).1 a).trans ((frame_lockedOut _ _).1 a)).trans (hm a), ?_, fun h => absurd h hlast, fun _ => ?_⟩
    · rw [getF_hostIrq, lerr, hf, herr]
    · refine ⟨(getF_hostIrq _ _ _ _).trans lstate, (getF_hostIrq _ _ _ _).trans lfails, (getF_hostIrq _ _ _ _).trans llevel, ?_, ?_⟩
      · rw [sess_hostIrq, llen]
      · rw [sess_hostIrq, ltick, Noted.time hn]
        simp only [failed, sessErr, setF_time]
  case isFalse h8 =>
    refine ⟨hm, (hf _ _).trans herr, fun h => ⟨(hf _ _).trans hstate, ?_⟩, fun h => by omega⟩
    rw [hf, hfails, Nat.mod_eq_of_lt (by omega)]

-- a right response ------------------------------------------------------------------------------------------------------------------------

/-- The session opened by a right response. -/
def opened (s : State) (jtag : Bool) : State :=
  let s1 := setF (setF (setF s rSESS_STATE 0 2 2) rSESS_STATE 4 8 0) rSESS_STATE 16 16 (getF s rSESS_STATE 16 16 + 1)
  { s1 with sess := { s1.sess with jtag := jtag } }

theorem frame_opened (s : State) (jtag : Bool) : Frame [rSESS_STATE] s (opened s jtag) :=
  (((frame_setF s (by simp) _ _ _).trans (frame_setF _ (by simp) _ _ _)).trans (frame_setF _ (by simp) _ _ _)).trans (frame_withSess _ _ _)

theorem getF_opened (s : State) (jtag : Bool) :
    sessState (opened s jtag) = 2 ∧ getF (opened s jtag) rSESS_STATE 4 8 = 0 ∧ getF (opened s jtag) rSESS_STATE 16 16 = (getF s rSESS_STATE 16 16 + 1) % 65536 := by
  simp (disch := decide) only [sessState, opened, getF_withSess, getF_setF_same, getF_setF_otherField]
  exact ⟨by decide, by decide, by norm_num⟩

-- SUBMIT ------------------------------------------------------------------------------------------------------------------------------

theorem sessSubmit_of_idle (h : sessState s ≠ 1) (jtag : Bool) : sessSubmit s jtag = sessErr s 6 := by rw [sessSubmit, if_pos h]

theorem sessSubmit_of_expired (h : sessState s = 1) (he : s.sess.chalTick + 1000000000 ≤ s.time.ticks) (jtag : Bool) :
    sessSubmit s jtag = sessErr (setF s rSESS_STATE 0 2 0) 2 := by
  rw [sessSubmit, if_neg (not_not.2 h), if_pos he]

theorem sessSubmit_of_key {k : List Byte} (h : sessState s = 1) (he : s.time.ticks < s.sess.chalTick + 1000000000)
    (hk : sessKey s (getB s rSESS_STATE 2) = some k) (jtag : Bool) :
    sessSubmit s jtag = if sessResponse s = hmac384 k (regBytes s rSESS_CHALLENGE 32 ++ regBytes s rSESS_NONCE 32 ++ sessLabel (getB s rSESS_STATE 2)) then
      opened s jtag else badMac s := by
  rw [sessSubmit, if_neg (not_not.2 h), if_neg (by omega), hk]
  rfl

-- the end ------------------------------------------------------------------------------------------------------------------------------

theorem sessEnd_of_plain (ho : sessOpen s = true) (hd : sessDebug s = false) :
    sessEnd s = { setF (setF s rSESS_STATE 0 2 0) rHRING_SIZE 8 1 0 with sess := { s.sess with jtag := false } } := by
  rw [sessEnd, if_pos ho, hd]
  rfl

end Sys2Proof.Safety
end

section
/-! PROOF. Sessions open and close (O44). -/

namespace Sys2Proof.Safety

open Sys2Proof.Machine

/-- Settles O44, one case for each answer of the session block. -/
theorem sessionsOpenAndClose : Obligations.SessionsOpenAndClose := by
  unfold Obligations.SessionsOpenAndClose
  intro src s h
  refine ⟨fun debug => ⟨fun e he => ⟨_, exec_sessReq h debug, ?_⟩, fun k hb hs hk => ⟨_, exec_sessReq h debug, ?_⟩⟩, fun hs => ⟨_, exec_sessSubmit h, ?_⟩,
    fun hs he => ⟨_, exec_sessSubmit h, ?_⟩, fun k hs he hk => ⟨fun hr => ⟨_, exec_sessSubmit h, ?_⟩, fun hr => ⟨_, exec_sessSubmit h, ?_⟩⟩,
    fun ho hd => ⟨_, exec_sessClose h, ?_⟩, fun hs ht => ⟨_, rfl, ?_⟩⟩
  case refine_1 =>
    have hcode : sessRequest s debug = sessErr s e := by
      rcases he with ⟨rfl, h5⟩ | ⟨rfl, hb, h3⟩ | ⟨rfl, hb, h2, hk⟩
      · exact if_pos h5
      · rw [sessRequest, if_neg (by simp [hb, h3]), if_pos h3]
      · rw [sessRequest, if_neg (by simp [hb]; omega), if_neg (by omega), hk]
    rw [hcode]
    exact refused_sessErr s (by omega)
  case refine_2 =>
    rw [sessRequest_of_key hb hs hk]
    refine ⟨((frame_challenged s).mono (List.subset_cons_self _ _)).trans ((frame_challengeOpen _ debug).mono (by simp)), sessState_challengeOpen _ _,
      debug_challengeOpen _ _, (regBytes_challengeOpen _ _).trans (regBytes_challenged s), chalTick_challenged s⟩
  case refine_3 =>
    rw [sessSubmit_of_idle hs]
    exact refused_sessErr s (by decide)
  case refine_4 =>
    rw [sessSubmit_of_expired hs he]
    obtain ⟨hf, herr, hstate⟩ := refused_sessErr (setF s rSESS_STATE 0 2 0) (e := 2) (by decide)
    exact ⟨(frame_setF s (by simp) _ _ _).trans hf, herr, hstate.trans (getF_setF_same s _ _ _ _ (by decide))⟩
  case refine_5 =>
    rw [sessSubmit_of_key hs he hk, if_pos hr]
    obtain ⟨hstate, hfails, hcount⟩ := getF_opened s (src == .jtag)
    exact ⟨frame_opened s _, hstate, hfails, hcount, rfl⟩
  case refine_6 =>
    rw [sessSubmit_of_key hs he hk, if_neg hr]
    exact wrong_badMac s
  case refine_7 =>
    rw [sessEnd_of_plain ho hd]
    have hf := (frame_setF (l := [rSESS_STATE, rHRING_SIZE]) s (by simp) 0 2 0).trans (frame_setF (setF s rSESS_STATE 0 2 0) (off := rHRING_SIZE) (by simp) 8 1 0)
    refine ⟨hf.trans ⟨fun _ => rfl, fun _ _ => rfl, rfl, rfl⟩, ?_, getB_setF_same (setF s rSESS_STATE 0 2 0) _ (by decide) 0, rfl⟩
    exact (getF_setF_otherReg (setF s rSESS_STATE 0 2 0) _ _ _ _ _ (by decide)).trans (getF_setF_same s _ _ _ _ (by decide))
  case refine_8 =>
    rw [lockoutExpiry, if_pos ⟨hs, ht⟩]
    exact ⟨frame_setF s (by simp) _ _ _, getF_setF_same s _ _ _ _ (by decide)⟩

end Sys2Proof.Safety
end

section
/-! SUPPORT. Changes of registers alone, messages that leave for the host, and the loss of the host's link (16_host_interface.md). -/

namespace Sys2Proof.Safety

open Sys2Proof.Machine

variable {s s' t : State} {P : Nat → Prop}

-- changes of registers alone ----------------------------------------------------------------------------------------------------

/-- Only registers change, and none of those that P names. -/
structure RegsKeep (P : Nat → Prop) (s s' : State) : Prop where
  same : ∃ r, s' = { s with regs := r }
  kept : ∀ off, P off → getR s' off = getR s off

namespace RegsKeep

theorem refl (P : Nat → Prop) (s : State) : RegsKeep P s s := ⟨⟨s.regs, rfl⟩, fun _ _ => rfl⟩

theorem trans (h : RegsKeep P s s') (h' : RegsKeep P s' t) : RegsKeep P s t := by
  obtain ⟨⟨r, rfl⟩, hk⟩ := h
  obtain ⟨⟨r', rfl⟩, hk'⟩ := h'
  exact ⟨⟨r', rfl⟩, fun off ho => (hk' off ho).trans (hk off ho)⟩

theorem setR {off : Nat} (h : ¬ P off) (s : State) (v : BitVec 32) : RegsKeep P s (setR s off v) :=
  ⟨⟨_, rfl⟩, fun _ ho => getR_setR_other s v fun e => h (e ▸ ho)⟩

theorem setF {off : Nat} (h : ¬ P off) (s : State) (lo w v : Nat) : RegsKeep P s (setF s off lo w v) := setR h s _

theorem satF {off : Nat} (h : ¬ P off) (s : State) (lo w n : Nat) : RegsKeep P s (satF s off lo w n) := setF h s lo w _

theorem add64 {off : Nat} (h : ¬ P off) (h' : ¬ P (off + 4)) (s : State) (n : Nat) : RegsKeep P s (add64 s off n) := (setR h s _).trans (setR h' _ _)

theorem ite {p : Prop} [Decidable p] (h : RegsKeep P s s') (h' : RegsKeep P s t) : RegsKeep P s (if p then s' else t) := by
  split
  · exact h
  · exact h'

theorem foldl {α : Type*} {l : List α} {g : State → α → State} (hg : ∀ x, ∀ a ∈ l, RegsKeep P x (g x a)) (s : State) : RegsKeep P s (l.foldl g s) := by
  induction l generalizing s with
  | nil => exact refl P s
  | cons a l ih => exact (hg s a List.mem_cons_self).trans (ih (fun x b hb => hg x b (List.mem_cons_of_mem _ hb)) _)

theorem sameMem (h : RegsKeep P s s') : SameMem s s' := by obtain ⟨⟨r, rfl⟩, -⟩ := h; exact fun _ => rfl
theorem host (h : RegsKeep P s s') : s'.host = s.host := by obtain ⟨⟨r, rfl⟩, -⟩ := h; rfl
theorem sess (h : RegsKeep P s s') : s'.sess = s.sess := by obtain ⟨⟨r, rfl⟩, -⟩ := h; rfl
theorem getF_eq (h : RegsKeep P s s') {off : Nat} (ho : P off) (lo w : Nat) : getF s' off lo w = getF s off lo w := by rw [getF, getF, h.kept off ho]

end RegsKeep

/-- A fold on which one entry acts and the others leave the state, before and after it. -/
theorem foldl_once {α β : Type*} {g : α → β → α} {a a' : α} {l : List β} {b : β} (hnd : l.Nodup) (hb : b ∈ l) (hact : g a b = a')
    (hpre : ∀ x ∈ l, x ≠ b → g a x = a) (hpost : ∀ x ∈ l, x ≠ b → g a' x = a') : l.foldl g a = a' := by
  induction l with
  | nil => simp at hb
  | cons y l ih =>
    obtain ⟨hy, hnd'⟩ := List.nodup_cons.1 hnd
    rw [List.foldl_cons]
    rcases List.mem_cons.1 hb with rfl | hb'
    · rw [hact]
      exact foldl_eq_self fun x hx => hpost x (List.mem_cons_of_mem _ hx) fun e => hy (e ▸ hx)
    · rw [hpre y List.mem_cons_self fun e => hy (e ▸ hb')]
      exact ih hnd' hb' (fun x hx => hpre x (List.mem_cons_of_mem _ hx)) fun x hx => hpost x (List.mem_cons_of_mem _ hx)

-- messages that leave ----------------------------------------------------------------------------------------------------------------

/-- What leaves for the host, and what waits to, is all that changes. -/
def SendsHost (s s' : State) : Prop := ∃ o p, s' = { s with host := { s.host with out := o, pend := p } }

theorem SendsHost.refl (s : State) : SendsHost s s := ⟨_, _, rfl⟩

theorem SendsHost.trans (h : SendsHost s s') (h' : SendsHost s' t) : SendsHost s t := by
  obtain ⟨o, p, rfl⟩ := h
  obtain ⟨o', p', rfl⟩ := h'
  exact ⟨o', p', rfl⟩

theorem SendsHost.foldl {α : Type*} {l : List α} {g : State → α → State} (hg : ∀ x a, SendsHost x (g x a)) (s : State) : SendsHost s (l.foldl g s) := by
  induction l generalizing s with
  | nil => exact refl s
  | cons a l ih => exact (hg s a).trans (ih _)

theorem SendsHost.frame (h : SendsHost s s') (l : List Nat) : Frame l s s' := by
  obtain ⟨o, p, rfl⟩ := h
  exact ⟨fun _ => rfl, fun _ _ => rfl, rfl, rfl⟩

theorem sendsHost_msix (s : State) (v : Nat) : SendsHost s (msix s v) := by
  unfold msix
  split
  · exact ⟨_, s.host.pend, rfl⟩
  · exact ⟨s.host.out, _, rfl⟩

/-- A pending vector that may leave. -/
def vecDue (s : State) (v : Nat) : Prop := bits s.host.pend v 1 = 1 ∧ vecGoes s v = true

/-- One vector's part of msixFlush. -/
def flushVec (s : State) (v : Nat) : State :=
  if bits s.host.pend v 1 = 1 ∧ vecGoes s v then msix { s with host := { s.host with pend := setBits s.host.pend v 1 0 } } v else s

theorem msixFlush_eq (s : State) : msixFlush s = (List.range 64).foldl flushVec s := rfl

theorem flushVec_of_not (h : ¬ vecDue s v) : flushVec s v = s := if_neg h

theorem sendsHost_flushVec (s : State) (v : Nat) : SendsHost s (flushVec s v) := by
  unfold flushVec
  split
  · exact SendsHost.trans ⟨s.host.out, _, rfl⟩ (sendsHost_msix _ v)
  · exact SendsHost.refl s

theorem sendsHost_msixFlush (s : State) : SendsHost s (msixFlush s) := SendsHost.foldl sendsHost_flushVec s

theorem msixFlush_of_none (h : ∀ v, v < 64 → ¬ vecDue s v) : msixFlush s = s :=
  foldl_eq_self fun v hv => flushVec_of_not (h v (List.mem_range.1 hv))

theorem bits_zero (b w : Nat) : bits 0 b w = 0 := by simp [bits]

theorem not_vecDue_of_pend_zero (h : s.host.pend = 0) (v : Nat) : ¬ vecDue s v := by simp [vecDue, h, bits_zero]

theorem bits_one_iff (x b : Nat) : bits x b 1 = 1 ↔ x.testBit b = true := by
  rw [bits_eq_div_mod, pow_one, Nat.testBit_eq_decide_div_mod_eq, decide_eq_true_iff]

theorem bits_two_pow (v w : Nat) : bits (2 ^ v) w 1 = 1 ↔ w = v := by
  rw [bits_one_iff, Nat.testBit_two_pow, decide_eq_true_iff, eq_comm]

theorem setBits_two_pow (v : Nat) : setBits (2 ^ v) v 1 0 = 0 := by
  apply Nat.eq_of_testBit_eq
  intro i
  rw [testBit_setBits, Nat.zero_testBit, Nat.zero_testBit, Nat.testBit_two_pow]
  by_cases hi : v = i
  · simp [hi]
  · simp [hi]

/-- The state after the message of a pending vector, which was the only one, has left. -/
def vecSent (s : State) (v : Nat) : State :=
  { s with host := { s.host with pend := 0, out := s.host.out ++ [.msix v (vecOf s v).addr (vecOf s v).data] } }

theorem msixFlush_of_one {v : Nat} (hv : v < 64) (hp : s.host.pend = 2 ^ v) (hg : vecGoes s v = true) : msixFlush s = vecSent s v := by
  have hdue : bits s.host.pend v 1 = 1 ∧ vecGoes s v = true := ⟨hp ▸ (bits_two_pow v v).2 rfl, hg⟩
  have hact : flushVec s v = vecSent s v := by
    rw [flushVec, if_pos hdue, hp, setBits_two_pow, msix, if_pos (by exact hg)]
    rfl
  refine foldl_once List.nodup_range (List.mem_range.2 hv) hact (fun w _ hw => ?_) fun w _ _ => flushVec_of_not (not_vecDue_of_pend_zero rfl w)
  exact flushVec_of_not fun h => hw ((bits_two_pow v w).1 (hp ▸ h.1))

/-- Where the only pending vector may not leave, nothing does. -/
theorem msixFlush_of_held {v : Nat} (hp : s.host.pend = 2 ^ v) (hg : vecGoes s v = false) : msixFlush s = s :=
  msixFlush_of_none fun w _ ⟨hb, hw⟩ => by
    rw [(bits_two_pow v w).1 (hp ▸ hb), hg] at hw
    exact Bool.noConfusion hw

-- the loss of the link -----------------------------------------------------------------------------------------------------------------

/-- Registers that the end of the host's commands leaves as they are. -/
def NotMover (off : Nat) : Prop := off < 0x4_0100 ∨ (0x8_0000 ≤ off ∧ off < 0x20_0000)

theorem regsKeep_endDebug (s : State) : RegsKeep NotMover s (endDebug s) := by
  have hfloe (cl f : Nat) : ¬ NotMover (rFLOE_CTL cl f) := by unfold NotMover rFLOE_CTL clusterBase; omega
  have htrc (d : Nat) : ¬ NotMover (rTRC_CTL d) := by unfold NotMover rTRC_CTL svcBase; omega
  refine RegsKeep.trans ?_ (RegsKeep.foldl (fun x d _ => RegsKeep.setF (htrc d) x 0 1 0) _)
  exact RegsKeep.foldl (fun x cl _ => RegsKeep.foldl (fun y f _ => RegsKeep.ite (RegsKeep.setF (hfloe cl f) y 2 1 _) (RegsKeep.refl _ y)) x) s

theorem regsKeep_ledReturn1 (s : State) (q : Nat) : RegsKeep NotMover s (ledReturn1 s q) := by
  have hled (k : Nat) : ¬ NotMover (ledgerBase q + k) := by unfold NotMover ledgerBase; omega
  exact RegsKeep.ite (RegsKeep.satF (hled 28) s 16 16 1) (RegsKeep.add64 (hled 8) (hled 12) s 1)

theorem regsKeep_ledReturn (s : State) (q n : Nat) : RegsKeep NotMover s (ledReturn s q n) := by
  induction n generalizing s with
  | zero => exact RegsKeep.refl _ s
  | succ n ih => exact (regsKeep_ledReturn1 s q).trans (ih _)

theorem cmdMv_lt (c : HostCmd) : cmdMv c < 16 := bits_lt _ _ _

theorem regsKeep_moveError (s : State) (c : HostCmd) : RegsKeep NotMover s (moveError s (cmdMv c)) := by
  have hm := cmdMv_lt c
  have hreg : ¬ NotMover (rHMV_CNT (cmdMv c) + 4) := by unfold NotMover rHMV_CNT; omega
  exact RegsKeep.satF hreg s 16 16 1

/-- The host's part of a state whose fetched commands have ended. -/
def hostEnded (h : HostSt) : HostSt :=
  { h with accepted := [], movers := [], moved := [], loader := none, recs := [], bar := h.bar.filter fun x => x.data.isSome }

/-- The tokens of the fetched commands returned, and their errors counted. -/
def moversEnded (s : State) : State :=
  ((s.host.movers.flatMap fun p => p.2) ++ s.host.accepted.filter fun c => cmdOpc c == 1).foldl (fun s c => moveError s (cmdMv c))
    (ledReturn s qHMV (s.host.movers.flatMap fun p => p.2).length)

theorem regsKeep_moversEnded (s : State) : RegsKeep NotMover s (moversEnded s) :=
  (regsKeep_ledReturn s qHMV _).trans (RegsKeep.foldl (fun x c _ => regsKeep_moveError x c) _)

theorem abortAll_eq (s : State) : abortAll s = { moversEnded s with host := hostEnded (moversEnded s).host } := rfl

/-- The session when the link goes down without JTAG's ownership: it is over, and EN is 0. -/
structure HostGone (s s' : State) : Prop where
  mem : SameMem s s'
  stat : getF s' rHOST_STAT 0 9 = getF s rHOST_STAT 0 9
  en : getB s' rHRING_SIZE 8 = false
  link : s'.host.linkUp = s.host.linkUp
  accepted : s'.host.accepted = []
  movers : s'.host.movers = []
  loader : s'.host.loader = none
  base : getR s' rFIRN_WIN_BASE = getR s rFIRN_WIN_BASE

theorem hostGone_abortAll (s : State) (he : getB s rHRING_SIZE 8 = false) :
    HostGone s (abortAll s) ∧ ∀ lo w, getF (abortAll s) rSESS_STATE lo w = getF s rSESS_STATE lo w := by
  have hb := regsKeep_moversEnded s
  rw [abortAll_eq, hb.host]
  generalize moversEnded s = b at hb
  have hreg (off : Nat) (ho : NotMover off) : getR { b with host := hostEnded s.host } off = getR s off := hb.kept off ho
  have hf (off lo w : Nat) (ho : NotMover off) : getF { b with host := hostEnded s.host } off lo w = getF s off lo w := hb.getF_eq ho lo w
  refine ⟨⟨hb.sameMem, hf _ _ _ (.inl (by decide)), ?_, rfl, rfl, rfl, rfl, hreg _ (.inl (by decide))⟩, fun lo w => hf _ lo w (.inl (by decide))⟩
  rw [getB, hf _ _ _ (.inl (by decide)), ← getB, he]

/-- The registers that the end of a session and of the ring writes. -/
theorem sessEnd_facts (s : State) : SameMem s (sessEnd s) ∧ (sessEnd s).host = s.host ∧ sessOpen (sessEnd s) = false ∧
    ∀ off, NotMover off → off ≠ rSESS_STATE → off ≠ rHRING_SIZE → getR (sessEnd s) off = getR s off := by
  have hd := RegsKeep.ite (p := sessDebug s = true) (regsKeep_endDebug s) (RegsKeep.refl _ s)
  unfold sessEnd
  split
  case isFalse h => exact ⟨fun _ => rfl, rfl, by simpa using h, fun _ _ _ _ => rfl⟩
  case isTrue h =>
    dsimp only
    generalize (if sessDebug s = true then endDebug s else s) = b at hd
    have hopen : getF (setF (setF b rSESS_STATE 0 2 0) rHRING_SIZE 8 1 0) rSESS_STATE 0 2 = 0 :=
      (getF_setF_otherReg (setF b rSESS_STATE 0 2 0) _ _ _ _ _ (by decide)).trans (getF_setF_same b _ _ _ _ (by decide))
    refine ⟨hd.sameMem, hd.host, ?_, fun off ho hs hr => ?_⟩
    · rw [sessOpen, sessState, getF_withSess, hopen]
      rfl
    · exact (getR_setF_other _ _ _ _ hr).trans ((getR_setF_other _ _ _ _ hs).trans (hd.kept off ho))

theorem HostGone.ofFrame {u : State} (h : HostGone s s') (hm : SameMem s' u) (hr : ∀ off, off < 0x4_0048 ∨ off = rHOST_STAT → getR u off = getR s' off)
    (hl : u.host.linkUp = s'.host.linkUp ∧ u.host.accepted = s'.host.accepted ∧ u.host.movers = s'.host.movers ∧ u.host.loader = s'.host.loader) : HostGone s u := by
  obtain ⟨hlink, hacc, hmov, hload⟩ := hl
  refine ⟨fun a => (hm a).trans (h.mem a), ?_, ?_, hlink.trans h.link, hacc.trans h.accepted, hmov.trans h.movers, hload.trans h.loader,
    (hr _ (.inl (by decide))).trans h.base⟩
  · rw [getF, hr _ (.inr rfl), ← getF, h.stat]
  · rw [getB, getF, hr _ (.inl (by decide)), ← getF, ← getB, h.en]

theorem sendsHost_of_hostIrq (s : State) (b : Nat) :
    SendsHost (setR64 s rHOST_IRQ_STAT (setBits (getR64 s rHOST_IRQ_STAT) b 1 1)) (hostIrq s b) := by
  unfold hostIrq
  dsimp only
  split
  · exact sendsHost_msix _ b
  · exact SendsHost.refl _

/-- What an interrupt leaves of the host's state. -/
theorem host_hostIrq (s : State) (b : Nat) : ∃ o p, (hostIrq s b).host = { s.host with out := o, pend := p } := by
  obtain ⟨o, p, e⟩ := sendsHost_of_hostIrq s b
  exact ⟨o, p, by rw [e]; rfl⟩

theorem HostGone.hostIrq (h : HostGone s s') (b : Nat) : HostGone s (Machine.hostIrq s' b) := by
  obtain ⟨o, p, e⟩ := host_hostIrq s' b
  refine h.ofFrame (frame_hostIrq s' b).1 (fun off ho => (frame_hostIrq s' b).getR_eq ?_) (by rw [e]; exact ⟨rfl, rfl, rfl, rfl⟩)
  simp only [irqRegs, List.mem_cons, List.not_mem_nil, or_false, not_or]
  unfold rHOST_IRQ_STAT
  rcases ho with ho | rfl
  · omega
  · decide

theorem hostGone_sessLost (s : State) : HostGone s (sessLost s) ∧ sessOpen (sessLost s) = false := by
  obtain ⟨hm, hh, ho, hr⟩ := sessEnd_facts s
  have he : getB (setF (sessEnd s) rHRING_SIZE 8 1 0) rHRING_SIZE 8 = false := getB_setF_same (sessEnd s) rHRING_SIZE (by decide) 0
  obtain ⟨hgone, hsess⟩ := hostGone_abortAll _ he
  have hreg (off : Nat) (hn : NotMover off) (h1 : off ≠ rSESS_STATE) (h2 : off ≠ rHRING_SIZE) :
      getR (setF (sessEnd s) rHRING_SIZE 8 1 0) off = getR s off := (getR_setF_other _ _ _ _ h2).trans (hr off hn h1 h2)
  have hclosed : sessOpen (abortAll (setF (sessEnd s) rHRING_SIZE 8 1 0)) = false := by
    rw [sessOpen, sessState, hsess, getF_setF_otherReg _ _ _ _ _ _ (by decide)]
    exact ho
  have hbase : HostGone s (abortAll (setF (sessEnd s) rHRING_SIZE 8 1 0)) := by
    refine ⟨fun a => (hgone.mem a).trans (hm a), ?_, hgone.en, hgone.link.trans (congrArg HostSt.linkUp hh), hgone.accepted, hgone.movers, hgone.loader, ?_⟩
    · rw [hgone.stat, getF, hreg _ (.inl (by decide)) (by decide) (by decide), ← getF]
    · exact hgone.base.trans (hreg _ (.inl (by decide)) (by decide) (by decide))
  have hclosedIrq : sessOpen (hostIrq (abortAll (setF (sessEnd s) rHRING_SIZE 8 1 0)) 8) = false := by
    rw [sessOpen, sessState, getF_hostIrq]
    exact hclosed
  unfold sessLost
  dsimp only
  split
  · exact ⟨hbase.hostIrq 8, hclosedIrq⟩
  · exact ⟨hbase, hclosed⟩

/-- The state as the data link goes down. -/
def linkDown (s : State) : State := { setF s rHOST_STAT 0 9 0 with host := { s.host with linkUp := false } }

theorem linkLoss_eq (s : State) : linkLoss s = if s.sess.jtag then abortAll (setF (linkDown s) rHRING_SIZE 8 1 0) else sessLost (linkDown s) := rfl

theorem getF_linkDown (s : State) {off : Nat} (ho : off ≠ rHOST_STAT) (lo w : Nat) : getF (linkDown s) off lo w = getF s off lo w :=
  getF_setF_otherReg s 0 9 0 lo w ho

/-- Link loss: what is fetched ends, and the session that JTAG does not own. -/
theorem linkLoss_facts (s : State) : SameMem s (linkLoss s) ∧ (linkLoss s).host.linkUp = false ∧ getF (linkLoss s) rHOST_STAT 0 9 = 0 ∧
    getB (linkLoss s) rHRING_SIZE 8 = false ∧ (linkLoss s).host.accepted = [] ∧ (linkLoss s).host.movers = [] ∧ (linkLoss s).host.loader = none ∧
    getR (linkLoss s) rFIRN_WIN_BASE = getR s rFIRN_WIN_BASE ∧ (s.sess.jtag = false → sessOpen (linkLoss s) = false) ∧
    (s.sess.jtag = true → sessState (linkLoss s) = sessState s) := by
  have hstat : getF (linkDown s) rHOST_STAT 0 9 = 0 := getF_setF_same s rHOST_STAT 0 9 0 (by decide)
  have hwin : getR (linkDown s) rFIRN_WIN_BASE = getR s rFIRN_WIN_BASE := getR_setF_other s 0 9 0 (by decide)
  have hmem : SameMem s (linkDown s) := fun _ => rfl
  have hup : (linkDown s).host.linkUp = false := rfl
  rw [linkLoss_eq]
  split
  case isTrue hj =>
    have he : getB (setF (linkDown s) rHRING_SIZE 8 1 0) rHRING_SIZE 8 = false := getB_setF_same (linkDown s) rHRING_SIZE (by decide) 0
    obtain ⟨hgone, hsess⟩ := hostGone_abortAll _ he
    have hmem' : SameMem s (setF (linkDown s) rHRING_SIZE 8 1 0) := fun _ => rfl
    refine ⟨fun a => (hgone.mem a).trans (hmem' a), hgone.link.trans hup, ?_, hgone.en, hgone.accepted, hgone.movers, hgone.loader, ?_,
      fun h => Bool.noConfusion (hj.symm.trans h), fun _ => ?_⟩
    · rw [hgone.stat, getF_setF_otherReg _ _ _ _ _ _ (by decide), hstat]
    · rw [hgone.base, getR_setF_other _ _ _ _ (by decide), hwin]
    · rw [sessState, hsess, getF_setF_otherReg _ _ _ _ _ _ (by decide), getF_linkDown s (by decide), sessState]
  case isFalse hj =>
    obtain ⟨hgone, hclosed⟩ := hostGone_sessLost (linkDown s)
    exact ⟨fun a => (hgone.mem a).trans (hmem a), hgone.link.trans hup, hgone.stat.trans hstat, hgone.en, hgone.accepted, hgone.movers, hgone.loader,
      hgone.base.trans hwin, fun _ => hclosed, fun h => absurd h hj⟩

end Sys2Proof.Safety
end

section
/-! PROOF. The host link carries interrupts (O45). -/

namespace Sys2Proof.Safety

open Sys2Proof.Machine

variable {s s' : State} {src : Src}

/-- HOST_STAT of a link that trains. -/
def trainedStat (s : State) (rate width : Nat) (flit : Bool) : State :=
  setF (setF (setF s rHOST_STAT 0 3 rate) rHOST_STAT 3 5 width) rHOST_STAT 8 1 (if rate = 5 ∨ flit then 1 else 0)

theorem frame_trainedStat (s : State) (rate width : Nat) (flit : Bool) : Frame [rHOST_STAT] s (trainedStat s rate width flit) :=
  ((frame_setF s (by simp) _ _ _).trans (frame_setF _ (by simp) _ _ _)).trans (frame_setF _ (by simp) _ _ _)

theorem getF_trainedStat (s : State) {rate width : Nat} (hr : rate < 8) (hw : width < 32) (flit : Bool) :
    getF (trainedStat s rate width flit) rHOST_STAT 0 3 = rate ∧ getF (trainedStat s rate width flit) rHOST_STAT 3 5 = width ∧
      getB (trainedStat s rate width flit) rHOST_STAT 8 = (flit || rate == 5) := by
  have hbit : getB (trainedStat s rate width flit) rHOST_STAT 8 = (flit || rate == 5) := by
    rw [trainedStat, getB_setF_same _ _ (by decide)]
    by_cases h : rate = 5 <;> cases flit <;> simp [h]
  refine ⟨?_, ?_, hbit⟩
  · simp (disch := decide) only [trainedStat, getF_setF_same, getF_setF_otherField]
    exact Nat.mod_eq_of_lt hr
  · simp (disch := decide) only [trainedStat, getF_setF_same, getF_setF_otherField]
    exact Nat.mod_eq_of_lt hw

theorem linkTrain_eq {rate width : Nat} {flit : Bool} (hlo : 3 ≤ rate) (hhi : rate ≤ 5) (hw : width ∈ [1, 4, 8, 16]) (hoff : s.pwr.off = false)
    (hreg : regionUp s 32 = true) :
    ∃ p, linkTrain s rate width flit =
      msixFlush { trainedStat s rate width flit with host := { s.host with linkUp := true }, pwr := p } := by
  rw [linkTrain, if_pos ⟨hlo, hhi, by simpa using hw, hoff, hreg⟩]
  exact ⟨_, rfl⟩

/-- A host link that trains. -/
theorem linkTrain_facts {rate width : Nat} {flit : Bool} (hlo : 3 ≤ rate) (hhi : rate ≤ 5) (hw : width ∈ [1, 4, 8, 16]) (hoff : s.pwr.off = false)
    (hreg : regionUp s 32 = true) :
    Frame [rHOST_STAT] s (linkTrain s rate width flit) ∧ (linkTrain s rate width flit).host.linkUp = true ∧
      getF (linkTrain s rate width flit) rHOST_STAT 0 3 = rate ∧ getF (linkTrain s rate width flit) rHOST_STAT 3 5 = width ∧
      getB (linkTrain s rate width flit) rHOST_STAT 8 = (flit || rate == 5) := by
  have hwidth : width < 32 := by simp at hw; omega
  obtain ⟨hr, hwd, hb⟩ := getF_trainedStat s (show rate < 8 by omega) hwidth flit
  have hf := frame_trainedStat s rate width flit
  obtain ⟨p, e⟩ := linkTrain_eq (flit := flit) hlo hhi hw hoff hreg
  rw [e]
  generalize trainedStat s rate width flit = u at hr hwd hb hf
  obtain ⟨o, q, e'⟩ := sendsHost_msixFlush { u with host := { s.host with linkUp := true }, pwr := p }
  rw [e']
  exact ⟨hf.trans ⟨fun _ => rfl, fun _ _ => rfl, rfl, rfl⟩, rfl, hr, hwd, hb⟩

-- Bus Master Enable ---------------------------------------------------------------------------------------------------------------

/-- Bus Master Enable set or cleared. -/
def withBme (s : State) (on : Bool) : State := { s with host := { s.host with bme := on } }

theorem busEnable_of_idle (hr : s.host.recs = []) (hp : s.host.pend = 0) (on : Bool) : busEnable s on = withBme s on := by
  have hnone : msixFlush (withBme s on) = withBme s on := msixFlush_of_none fun v _ => not_vecDue_of_pend_zero (s := withBme s on) hp v
  have hflush : busEnable s on = recFlush (msixFlush (withBme s on)) := rfl
  have hrecs : { s.host with bme := on, recs := [] } = { s.host with bme := on } := by rw [← hr]
  rw [hflush, hnone, recFlush]
  split
  · rw [show (withBme s on).host.recs = [] from hr, List.foldl_nil]
    exact congrArg (fun h => { s with host := h }) hrecs
  · rfl

/-- The record that waited, written. -/
theorem busEnable_of_one {r : HostRec} (hr : s.host.recs = [r]) (hl : s.host.linkUp = true) (hp : s.host.pend = 0) :
    busEnable s true = recWrite { s with host := { s.host with bme := true, recs := [] } } r := by
  have hnone : msixFlush (withBme s true) = withBme s true := msixFlush_of_none fun v _ => not_vecDue_of_pend_zero (s := withBme s true) hp v
  have hflush : busEnable s true = recFlush (msixFlush (withBme s true)) := rfl
  have hmaster : busMaster (withBme s true) = true := by rw [busMaster, Bool.and_eq_true]; exact ⟨rfl, hl⟩
  rw [hflush, hnone, recFlush, if_pos hmaster, show (withBme s true).host.recs = [r] from hr]
  rfl

/-- A record that asks for no interrupt. -/
theorem recWrite_silent (s : State) {r : HostRec} (hi : cmdF r.cmd 0 9 1 = 0) :
    recWrite s r = setR (hostOut s (.record ((getR64 s rCRING_BASE + 32 * ((getR s rCTAIL).toNat % 2 ^ ringLog s)) % 2 ^ 64) (recWords s r))) rCTAIL
      (getR s rCTAIL + 1) := by
  unfold recWrite
  dsimp only
  exact if_neg (by rw [hi]; decide)

-- a vector's entry ---------------------------------------------------------------------------------------------------------------------

/-- A vector's entry written. -/
def withVec (s : State) (v : Nat) (e : VecEnt) : State := { s with host := { s.host with vectors := mset (fun _ => {}) s.host.vectors v e } }

theorem unmaskRun_eq (s : State) (v : Nat) (e : VecEnt) : unmaskRun s v e = msixFlush (withVec s v e) := rfl

theorem vecOf_withVec (s : State) (v : Nat) (e : VecEnt) : vecOf (withVec s v e) v = e := mget_mset_same _ s.host.vectors v e
theorem vecOf_withVec_other (s : State) {v w : Nat} (e : VecEnt) (h : w ≠ v) : vecOf (withVec s v e) w = vecOf s w := mget_mset_other _ s.host.vectors e h
theorem vecGoes_withVec (s : State) (v : Nat) (e : VecEnt) : vecGoes (withVec s v e) v = (s.host.linkUp && s.host.bme && !e.mask) := by
  rw [vecGoes, vecOf_withVec]
  rfl

theorem frame_withVec (s : State) (v : Nat) (e : VecEnt) : Frame [] s (withVec s v e) := ⟨fun _ => rfl, fun _ _ => rfl, rfl, rfl⟩

theorem vecOf_vecSent (s : State) (v w : Nat) : vecOf (vecSent s v) w = vecOf s w := rfl
theorem frame_vecSent (s : State) (v : Nat) : Frame [] s (vecSent s v) := ⟨fun _ => rfl, fun _ _ => rfl, rfl, rfl⟩

/-- Where no message may leave, none does. -/
theorem unmaskRun_of_still {v : Nat} {e : VecEnt} (h : s.host.pend = 0 ∨ s.host.linkUp = false ∨ s.host.bme = false) : unmaskRun s v e = withVec s v e := by
  rw [unmaskRun_eq]
  refine msixFlush_of_none fun w _ => ?_
  rcases h with h | h | h
  · exact not_vecDue_of_pend_zero (s := withVec s v e) h w
  · rintro ⟨-, hg⟩
    rw [vecGoes, show (withVec s v e).host.linkUp = false from h] at hg
    exact Bool.noConfusion hg
  · rintro ⟨-, hg⟩
    rw [vecGoes, show (withVec s v e).host.bme = false from h, Bool.and_false, Bool.false_and] at hg
    exact Bool.noConfusion hg

-- HOST_IRQ_EN -----------------------------------------------------------------------------------------------------------------------------

theorem regPerform_wide {off v : Nat} (h : absentDie s off = none) (hm : mayWriteAt s src off = true) (hw : wideWrite s off v = none) :
    regPerform s src off true v = rightsWord (rightsWord s src off (BitVec.ofNat 32 v)) src (off + 4) (BitVec.ofNat 32 (v / 2 ^ 32)) := by
  simp [regPerform, h, hm, hw]

/-- A served write of 64 bits to a block that needs no region is performed at once. -/
theorem regTop_wide_below {off : Nat} (h : Served s src off) (hoff : off < 0x10_0000) (h8 : off % 8 = 0) (v : Nat) :
    regTop s src off true v = regPerform s src off true v := by
  obtain ⟨⟨hvaux, hawake, hheld, -⟩, hlive, -, habsent, -, -⟩ := h
  obtain ⟨⟨hstate, -⟩, hpower⟩ : (pwrState s ≤ 1 ∧ pwrBusy s = false) ∧ s.pwr.off = false := by
    simpa [Machine.awake, pwrState, pwrBusy] using hawake
  have hplace : ¬ (2 ^ 26 ≤ off ∨ off % (if true = true then 8 else 4) ≠ 0) := by simp [h8]; omega
  have hpowered : ¬ (s.pwr.vaux = false ∨ s.pwr.off = true ∨ (pwrState s = 3 ∧ pwrBusy s = false)) := by simp [hvaux, hpower]; omega
  have hregion : regRegion s off = none := if_pos (.inl hoff)
  rw [regTop, if_neg (by simp [hlive]), if_pos (by simp [hheld, hawake])]
  unfold regWrite
  rw [if_neg hplace, if_neg hpowered, if_neg (by simp [habsent]), hregion]

/-- One vector's part of a write of HOST_IRQ_EN. -/
def enSend (base rise old : Nat) (s : State) (b : Nat) : State := if bits rise b 1 = 1 ∧ bits old b 1 = 0 then msix s (base + b) else s

/-- The index of the first vector of a half of HOST_IRQ_EN. -/
def enBase (off : Nat) : Nat := if off = rHOST_IRQ_EN then 0 else 32

theorem irqEn_eq (s : State) (off : Nat) (v : BitVec 32) :
    irqEn s off v = (List.range 32).foldl (enSend (enBase off) (v.toNat &&& (getR s (off - 8)).toNat) (getR s off).toNat) (setR s off v) := rfl

theorem sendsHost_enSend (base rise old : Nat) (s : State) (b : Nat) : SendsHost s (enSend base rise old s b) := by
  unfold enSend
  split
  · exact sendsHost_msix s _
  · exact SendsHost.refl s

theorem sendsHost_irqEn (s : State) (off : Nat) (v : BitVec 32) : SendsHost (setR s off v) (irqEn s off v) :=
  SendsHost.foldl (sendsHost_enSend _ _ _) _

theorem irqEn_zero (s : State) (off : Nat) : irqEn s off 0#32 = setR s off 0#32 := by
  rw [irqEn_eq]
  refine foldl_eq_self fun b _ => if_neg fun h => ?_
  rw [BitVec.toNat_ofNat, Nat.zero_mod, Nat.zero_and, bits_zero] at h
  exact absurd h.1 (by decide)

/-- The low half with one bit, whose cause is set and which was not enabled. -/
theorem irqEn_one {b : Nat} (hb : b < 32) (hold : (getR s rHOST_IRQ_EN).toNat = 0) (hset : bits (getR s rHOST_IRQ_STAT).toNat b 1 = 1) :
    irqEn s rHOST_IRQ_EN (BitVec.ofNat 32 (2 ^ b)) = msix (setR s rHOST_IRQ_EN (BitVec.ofNat 32 (2 ^ b))) b := by
  have hv : (BitVec.ofNat 32 (2 ^ b)).toNat = 2 ^ b := by rw [BitVec.toNat_ofNat, Nat.mod_eq_of_lt (Nat.pow_lt_pow_right (by decide) hb)]
  have hrise (k : Nat) : bits (2 ^ b &&& (getR s rHOST_IRQ_STAT).toNat) k 1 = 1 ↔ k = b := by
    rw [bits_one_iff, Nat.testBit_and, Bool.and_eq_true, ← bits_one_iff, ← bits_one_iff, bits_two_pow]
    exact ⟨And.left, fun h => ⟨h, h ▸ hset⟩⟩
  have hother (x : State) (k : Nat) (hk : k ≠ b) : enSend 0 (2 ^ b &&& (getR s rHOST_IRQ_STAT).toNat) 0 x k = x := if_neg fun h => hk ((hrise k).1 h.1)
  rw [irqEn_eq, hv, hold]
  refine foldl_once List.nodup_range (List.mem_range.2 hb) ?_ (fun k _ hk => hother _ k hk) fun k _ hk => hother _ k hk
  exact (if_pos ⟨(hrise b).2 rfl, bits_zero b 1⟩).trans (congrArg (msix _) (Nat.zero_add b))

theorem writeWord_irqEn {off : Nat} (h : off = rHOST_IRQ_EN ∨ off = rHOST_IRQ_EN + 4) (s : State) (src : Src) (v : BitVec 32) :
    writeWord s src off v = irqEn s off v := by
  rcases h with rfl | rfl <;> rfl

/-- Both halves of HOST_IRQ_EN written. -/
def irqEnBoth (s : State) (v : Nat) : State :=
  irqEn (irqEn s rHOST_IRQ_EN (BitVec.ofNat 32 v)) (rHOST_IRQ_EN + 4) (BitVec.ofNat 32 (v / 2 ^ 32))

theorem mayWriteAt_of_regs {off off' : Nat} (hs : sessState s' = sessState s) (hb : inSessBlock off' = inSessBlock off) (src : Src) :
    mayWriteAt s' src off' = mayWriteAt s src off := by
  cases src <;> simp only [mayWriteAt, sessOpen, hs, hb]

theorem frame_irqEn (s : State) (off : Nat) (v : BitVec 32) : Frame [off] s (irqEn s off v) :=
  (frame_setR s (by simp) v).trans ((sendsHost_irqEn s off v).frame _)

theorem getR_irqEn (s : State) (off : Nat) (v : BitVec 32) : getR (irqEn s off v) off = v :=
  (((sendsHost_irqEn s off v).frame []).getR_eq (by simp)).trans (getR_setR_same s off v)

theorem regTop_irqEn (h : Served s src rHOST_IRQ_EN) (v : Nat) : regTop s src rHOST_IRQ_EN true v = irqEnBoth s v := by
  have hmay : mayWriteAt s src rHOST_IRQ_EN = true := h.2.2.1
  have habsent : absentDie s rHOST_IRQ_EN = none := h.2.2.2.1
  have hsess : sessState (irqEn s rHOST_IRQ_EN (BitVec.ofNat 32 v)) = sessState s := (frame_irqEn s _ _).getF_eq (by decide) 0 2
  have hmay' : mayWriteAt (irqEn s rHOST_IRQ_EN (BitVec.ofNat 32 v)) src (rHOST_IRQ_EN + 4) = true := (mayWriteAt_of_regs hsess rfl src).trans hmay
  rw [regTop_wide_below h (by decide) (by decide), regPerform_wide habsent hmay rfl, rightsWord, if_pos, rightsWord, if_pos hmay, irqEnBoth,
    writeWord_irqEn (.inl rfl), writeWord_irqEn (.inr rfl)]
  rw [rightsWord, if_pos hmay, writeWord_irqEn (.inl rfl)]
  exact hmay'

theorem irqEn_facts (s : State) (v : W64) :
    Frame [rHOST_IRQ_EN, rHOST_IRQ_EN + 4] s (irqEnBoth s v.toNat) ∧ getR64 (irqEnBoth s v.toNat) rHOST_IRQ_EN = v.toNat := by
  have hv := v.isLt
  have h1 := frame_irqEn s rHOST_IRQ_EN (BitVec.ofNat 32 v.toNat)
  have h2 := frame_irqEn (irqEn s rHOST_IRQ_EN (BitVec.ofNat 32 v.toNat)) (rHOST_IRQ_EN + 4) (BitVec.ofNat 32 (v.toNat / 2 ^ 32))
  refine ⟨(h1.mono (by simp)).trans (h2.mono (by simp)), ?_⟩
  rw [getR64, irqEnBoth, h2.getR_eq (by decide), getR_irqEn, getR_irqEn, BitVec.toNat_ofNat, BitVec.toNat_ofNat]
  omega

/-- Settles O45, one case for each row of the host's link and interrupts. -/
theorem theHostLinkCarriesInterrupts : Obligations.TheHostLinkCarriesInterrupts := by
  unfold Obligations.TheHostLinkCarriesInterrupts
  intro s
  refine ⟨fun rate width flit hlo hhi hw hoff hreg => ⟨_, rfl, linkTrain_facts hlo hhi hw hoff hreg⟩, ⟨_, rfl, ?_⟩,
    fun on hr hp => ⟨_, rfl, ?_⟩, fun r hr hl hp hi => ⟨_, rfl, ?_⟩, fun v addr data => ⟨fun hl hb hp => ⟨_, rfl, ?_⟩, fun h => ⟨_, rfl, ?_⟩, fun hp => ⟨_, rfl, ?_⟩⟩,
    fun off size hbad => ⟨⟨_, rfl, ?_⟩, ⟨_, rfl, ?_⟩⟩, fun src v h => ⟨irqEnBoth s v.toNat, congrArg Host.Outcome.next (regTop_irqEn h v.toNat), ?_⟩⟩
  case refine_1 =>
    obtain ⟨hm, hl, hs, he, ha, hmv, -, -, hj, hj'⟩ := linkLoss_facts s
    exact ⟨hm, hl, hs, he, ha, hmv, hj, hj'⟩
  case refine_2 =>
    rw [busEnable_of_idle hr hp]
    exact ⟨⟨fun _ => rfl, fun _ _ => rfl, rfl, rfl⟩, rfl⟩
  case refine_3 =>
    rw [busEnable_of_one hr hl hp, recWrite_silent _ hi]
    refine ⟨⟨fun _ => rfl, fun off ho => getR_setR_other _ _ (by simpa using ho), rfl, rfl⟩, rfl, getR_setR_same _ _ _, rfl⟩
  case refine_4 =>
    have hg : vecGoes (withVec s v ⟨addr, data, false⟩) v = true := by rw [vecGoes_withVec, hl, hb]; rfl
    rw [unmaskRun_eq, msixFlush_of_one (s := withVec s v ⟨addr, data, false⟩) v.isLt hp hg]
    refine ⟨(frame_withVec s v _).trans (frame_vecSent _ v), rfl, ?_, ?_⟩
    · rw [vecOf_vecSent, vecOf_withVec]
    · rw [vecSent, vecOf_withVec]
      rfl
  case refine_5 =>
    rw [unmaskRun_of_still h]
    exact ⟨frame_withVec s v _, rfl, vecOf_withVec s v _, rfl⟩
  case refine_6 =>
    have hg : vecGoes (withVec s v ⟨addr, data, true⟩) v = false := by rw [vecGoes_withVec]; exact Bool.and_false _
    rw [unmaskRun_eq, msixFlush_of_held (s := withVec s v ⟨addr, data, true⟩) hp hg]
    exact ⟨frame_withVec s v _, rfl, vecOf_withVec s v _, rfl, fun w hw => vecOf_withVec_other s _ fun e => hw (Fin.ext e)⟩
  case refine_7 =>
    have hnot : ¬ ((size = 4 ∨ size = 8) ∧ off.toNat % size = 0) := by omega
    rw [badAccess, if_neg hnot, if_pos rfl]
    refine ⟨frame_setF s (by simp) _ _ _, (getF_setF_same s _ _ _ _ (by decide)).trans ?_⟩
    have hlt := getF_lt s (rHOST_STAT + 4) 0 16
    unfold satAdd
    omega
  case refine_8 =>
    have hnot : ¬ ((size = 4 ∨ size = 8) ∧ off.toNat % size = 0) := by omega
    rw [badAccess, if_neg hnot, if_neg (by decide)]
    exact ⟨⟨fun _ => rfl, fun _ _ => rfl, rfl, rfl⟩, rfl⟩
  case refine_9 =>
    obtain ⟨hf, hv⟩ := irqEn_facts s v
    refine ⟨hf, hv, fun b hb hold hval hset hl hbme hmask => ?_⟩
    have hlow : (getR s rHOST_IRQ_EN).toNat = 0 := by unfold getR64 at hold; omega
    have hbit : bits (getR s rHOST_IRQ_STAT).toNat b 1 = 1 := by
      rw [bits_one_iff] at hset ⊢
      have hlt := (getR s rHOST_IRQ_STAT).isLt
      rw [getR64, Nat.add_comm, Nat.testBit_two_pow_mul_add _ hlt, if_pos hb] at hset
      exact hset
    have hgoes : vecGoes (setR s rHOST_IRQ_EN (BitVec.ofNat 32 (2 ^ b))) b = true := by
      rw [vecGoes, show vecOf (setR s rHOST_IRQ_EN (BitVec.ofNat 32 (2 ^ b))) b = vecOf s b from rfl, hmask]
      simp [hl, hbme]
    have hhigh : 2 ^ b / 2 ^ 32 = 0 := Nat.div_eq_of_lt (Nat.pow_lt_pow_right (by decide) hb)
    rw [irqEnBoth, hval, irqEn_one hb hlow hbit, hhigh, irqEn_zero, msix, if_pos hgoes]
    rfl

end Sys2Proof.Safety
end

section
/-! PROOF. Resets end (O43). -/

namespace Sys2Proof.Safety

open Sys2Proof.Machine

variable {s s' : State}

-- a floe reset -----------------------------------------------------------------------------------------------------------------

/-- A fold whose acts reach what they are for, each of its own entry, and keep what other entries have reached. -/
theorem foldl_reaches {α : Type*} {g : State → α → State} {Q : State → α → Prop} {l : List α} (hact : ∀ s, ∀ a ∈ l, Q (g s a) a)
    (hkeep : ∀ s, ∀ a ∈ l, ∀ b, Q s b → Q (g s a) b) (s : State) : ∀ b ∈ l, Q (l.foldl g s) b := by
  have hstays : ∀ (m : List α), m ⊆ l → ∀ (x : State) (b : α), Q x b → Q (m.foldl g x) b := fun m => by
    induction m with
    | nil => exact fun _ _ _ h => h
    | cons a m ih => exact fun hm x b h => ih (fun _ hy => hm (List.mem_cons_of_mem _ hy)) _ b (hkeep x a (hm List.mem_cons_self) b h)
  intro b hb
  obtain ⟨l₁, l₂, hl⟩ := List.append_of_mem hb
  have hsub : l₂ ⊆ l := fun y hy => by rw [hl]; simp [hy]
  rw [hl, List.foldl_append, List.foldl_cons]
  exact hstays l₂ hsub _ b (hact _ b hb)

/-- A slot that is EMPTY, with nothing left that it waits for. -/
def slotCleared (s : State) (m : Nat × Nat) : State :=
  modSlot (setCause (setSlotState s m.1 m.2 0) m.1 m.2 0 0) m.1 m.2 fun x => { x with fences := [], wait := none, unrel := false }

theorem sameMem_slotCleared (s : State) (m : Nat × Nat) : SameMem s (slotCleared s m) := fun _ => rfl

theorem slotState_slotCleared (s : State) (m : Nat × Nat) : slotState (slotCleared s m) m.1 m.2 = 0 := by
  rw [slotCleared, slotState_modSlot, slotState_setCause, slotState_setSlotState_same]

theorem slotState_setCause_other (s : State) {k u c t : Nat} (cause index : Nat) (hu : u < 4) (ht : t < 4) (h : (k, u) ≠ (c, t)) :
    slotState (setCause s c t cause index) k u = slotState s k u :=
  (getF_setF_otherReg _ _ _ _ _ _ (rTASK_STAT_ne hu ht h)).trans (getF_setF_otherReg s _ _ _ _ _ (rTASK_STAT_ne hu ht h))

theorem slotState_slotCleared_other (s : State) {m b : Nat × Nat} (hm : m.2 < 4) (hb : b.2 < 4) (h : b ≠ m) :
    slotState (slotCleared s m) b.1 b.2 = slotState s b.1 b.2 := by
  rw [slotCleared, slotState_modSlot, slotState_setCause_other _ 0 0 hb hm h, slotState_setSlotState_other _ 0 hb hm h]

/-- What a slot holds let go. -/
def released (s : State) (m : Nat × Nat) : State := nullRepliesOf (dropAllResv s m.1 m.2) m.1 m.2

theorem contained_released (s : State) (m : Nat × Nat) : Contained s (released s m) :=
  (contained_dropAllResv s m.1 m.2).trans (contained_nullRepliesOf _ m.1 m.2)

/-- A slot of a floe that is reset. -/
def slotEmptied (s : State) (m : Nat × Nat) : State := slotCleared (released s m) m

theorem slotState_slotEmptied (s : State) (m : Nat × Nat) : slotState (slotEmptied s m) m.1 m.2 = 0 := slotState_slotCleared _ m

theorem sameMem_slotEmptied (s : State) (m : Nat × Nat) : SameMem s (slotEmptied s m) := fun a =>
  (sameMem_slotCleared _ m a).trans ((contained_released s m).sameMem a)

/-- An EMPTY slot stays so. -/
theorem empty_slotEmptied {m b : Nat × Nat} (hm : m.2 < 4) (hb : b.2 < 4) (h : slotState s b.1 b.2 = 0) : slotState (slotEmptied s m) b.1 b.2 = 0 := by
  by_cases he : b = m
  · subst he
    exact slotState_slotEmptied s b
  · have hfall := (contained_released s m).state b.1 b.2 hb
    rw [slotEmptied, slotState_slotCleared_other _ hm hb he]
    unfold Falls at hfall
    omega

/-- The members of a floe emptied. -/
def floeEmptied (s : State) (cl f : Nat) : State := (floeMembers s cl f).foldl slotEmptied s

theorem slotState_floeEmptied (s : State) (cl f : Nat) {m : Nat × Nat} (hm : m ∈ floeMembers s cl f) : slotState (floeEmptied s cl f) m.1 m.2 = 0 := by
  have hreach := foldl_reaches (g := slotEmptied) (Q := fun x b => b.2 < 4 → slotState x b.1 b.2 = 0) (l := floeMembers s cl f)
    (fun x a _ _ => slotState_slotEmptied x a) (fun x a ha b hq hb => empty_slotEmptied (mem_floeMembers ha).2 hb (hq hb)) s
  exact hreach m hm (mem_floeMembers hm).2

theorem sameMem_floeEmptied (s : State) (cl f : Nat) : SameMem s (floeEmptied s cl f) := by
  unfold floeEmptied
  generalize floeMembers s cl f = l
  induction l generalizing s with
  | nil => exact fun _ => rfl
  | cons m l ih =>
    intro a
    rw [List.foldl_cons, ih (slotEmptied s m) a, sameMem_slotEmptied s m a]

theorem floeResetEnd_eq (s : State) (cl f : Nat) :
    floeResetEnd s cl f = setR (setFloe (setR64 (floeEmptied s cl f) (rFLOE_CYC cl f) 0) cl f {}) (rFLOE_STAT cl f) 0 := by
  simp only [floeResetEnd, floeEmptied]
  rfl

theorem busy_rstDone (s : State) : getB (rstDone s) rRST_STAT 0 = false := getB_setF_same { s with rstJob := none } rRST_STAT (by decide) 0

theorem getR_rstDone (s : State) {off : Nat} (h : off ≠ rRST_STAT) : getR (rstDone s) off = getR s off := getR_setF_other { s with rstJob := none } 0 1 0 h

/-- A floe reset that ends. -/
theorem floeResetEnd_facts (s : State) (cl f : Nat) :
    SameMem s (rstDone (floeResetEnd s cl f)) ∧ (rstDone (floeResetEnd s cl f)).rstJob = none ∧ getB (rstDone (floeResetEnd s cl f)) rRST_STAT 0 = false ∧
      (∀ m ∈ floeMembers s cl f, slotState (rstDone (floeResetEnd s cl f)) m.1 m.2 = 0) ∧ getR64 (rstDone (floeResetEnd s cl f)) (rFLOE_CYC cl f) = 0 := by
  rw [floeResetEnd_eq]
  have hm := sameMem_floeEmptied s cl f
  have hs := fun m hm => slotState_floeEmptied s cl f (m := m) hm
  generalize floeEmptied s cl f = u at hm hs
  have hreg (off : Nat) (h1 : off ≠ rRST_STAT) (h2 : off ≠ rFLOE_STAT cl f) :
      getR (rstDone (setR (setFloe (setR64 u (rFLOE_CYC cl f) 0) cl f {}) (rFLOE_STAT cl f) 0)) off = getR (setR64 u (rFLOE_CYC cl f) 0) off :=
    (getR_rstDone _ h1).trans (getR_setR_other _ _ h2)
  refine ⟨hm, rfl, busy_rstDone _, fun m hmem => ?_, ?_⟩
  · obtain ⟨-, hlt⟩ := mem_floeMembers hmem
    have hne : rTASK_STAT m.1 m.2 ≠ rFLOE_STAT cl f ∧ rTASK_STAT m.1 m.2 ≠ rFLOE_CYC cl f ∧ rTASK_STAT m.1 m.2 ≠ rFLOE_CYC cl f + 4 ∧
        rTASK_STAT m.1 m.2 ≠ rRST_STAT := by
      unfold rTASK_STAT coreBase rFLOE_STAT rFLOE_CYC clusterBase rRST_STAT
      omega
    obtain ⟨hstat, hcyc, hcyc', hrst⟩ := hne
    have hkept := (hreg _ hrst hstat).trans ((getR_setR_other _ _ hcyc').trans (getR_setR_other _ _ hcyc))
    exact (congrArg (fun x : BitVec 32 => bits x.toNat 0 3) hkept).trans (hs m hmem)
  · rw [getR64, hreg _ (by unfold rFLOE_CYC clusterBase rRST_STAT; omega) (by unfold rFLOE_CYC rFLOE_STAT; omega),
      hreg _ (by unfold rFLOE_CYC clusterBase rRST_STAT; omega) (by unfold rFLOE_CYC rFLOE_STAT; omega), ← getR64, getR64_setR64, Nat.zero_mod]

/-- RESET_COMPLETE of a floe reset whose engines are quiet. -/
theorem resetComplete_floe {i : Nat} (hj : s.rstJob = some (0, i)) (hr : s.resetting = [])
    (hq : ∀ m ∈ floeMembers s (i / 32) (i % 32), engineQuiet s m.1 m.2 = true) : resetComplete s = rstDone (floeResetEnd s (i / 32) (i % 32)) := by
  have hall : ((floeMembers s (i / 32) (i % 32)).all fun m => engineQuiet s m.1 m.2) = true := List.all_eq_true.2 hq
  unfold resetComplete
  rw [hr, List.foldl_nil]
  simp only [hj]
  rw [if_pos hall]

-- a core reset -------------------------------------------------------------------------------------------------------------------

/-- RESET_COMPLETE of a core reset whose requests have completed. -/
theorem resetComplete_core {c : Nat} (hj : s.rstJob = some (1, c)) (hr : s.resetting = [c]) (hd : coreDrained s c = true) (hu : regionUp s (c / 8) = true) :
    resetComplete s = rstDone (coreResetEnd s c) := by
  have hled (n : Nat) : (ledReturn s qDESC n).rstJob = s.rstJob := by
    obtain ⟨r, e⟩ := (regsKeep_ledReturn s qDESC n).same
    rw [e]
  have hjob : (coreResetEnd s c).rstJob = some (1, c) := (hled _).trans hj
  have hnone : (coreResetEnd s c).resetting = [] := by simp [coreResetEnd, hr]
  have hfold : (s.resetting.foldl (fun s c => if coreDrained s c && regionUp s (c / 8) then coreResetEnd s c else s) s) = coreResetEnd s c := by
    rw [hr, List.foldl_cons, List.foldl_nil, if_pos (by simp [hd, hu])]
  unfold resetComplete
  rw [hfold]
  simp only [hjob, hnone, List.any_nil]
  exact if_neg Bool.false_ne_true

theorem coreResetEnd_facts {c : Nat} (hr : s.resetting = [c]) :
    SameMem s (rstDone (coreResetEnd s c)) ∧ (rstDone (coreResetEnd s c)).rstJob = none ∧ (rstDone (coreResetEnd s c)).resetting = [] ∧
      getB (rstDone (coreResetEnd s c)) rRST_STAT 0 = false ∧ (coreOf (rstDone (coreResetEnd s c)) c).desc = [] := by
  refine ⟨(regsKeep_ledReturn s qDESC _).sameMem, rfl, ?_, busy_rstDone _, ?_⟩
  · exact (List.filter_eq_nil_iff.2 (by simp [hr]) : s.resetting.filter (· ≠ c) = [])
  · have hcores : (rstDone (coreResetEnd s c)).cores = (descsReset s c).cores := rfl
    rw [coreOf_congr hcores, descsReset, coreOf_modCore_same]

-- PERST_N and a Function Level Reset --------------------------------------------------------------------------------------------------

/-- The host block returned to reset, but for FIRN_WIN_BASE. -/
def hostCleared (s : State) : State :=
  { s with
    regs := s.regs.filter fun p => decide (p.1 < 0x4_0000) || decide (0x8_0000 ≤ p.1) || decide (p.1 = rFIRN_WIN_BASE),
    host := { s.host with bme := false, pend := 0, vectors := [], cfg := {}, bar := [] },
    sec := { s.sec with pushIdx := none } }

theorem hostReset_eq (s : State) : hostReset s = if sessOpen s && !s.sess.jtag then hostIrq (hostCleared (linkLoss s)) 8 else hostCleared (linkLoss s) := rfl

theorem getR_hostCleared (s : State) (off : Nat) :
    getR (hostCleared s) off = if off < 0x4_0000 ∨ 0x8_0000 ≤ off ∨ off = rFIRN_WIN_BASE then getR s off else resetVal off := by
  have h := mget_filter resetVal s.regs (fun o => decide (o < 0x4_0000) || decide (0x8_0000 ≤ o) || decide (o = rFIRN_WIN_BASE)) off
  rw [getR, hostCleared, h]
  simp only [Bool.or_eq_true, decide_eq_true_eq, or_assoc, getR]

/-- The host block at reset. -/
structure HostAtReset (s s' : State) : Prop where
  mem : SameMem s s'
  link : s'.host.linkUp = false
  bme : s'.host.bme = false
  accepted : s'.host.accepted = []
  movers : s'.host.movers = []
  loader : s'.host.loader = none
  pend : s'.host.pend = 0
  vectors : s'.host.vectors = []
  cfg : s'.host.cfg = {}
  closed : s.sess.jtag = false → sessOpen s' = false
  regs : ∀ off, 0x40000 ≤ off → off < 0x80000 → off ∉ [rFIRN_WIN_BASE, rHOST_IRQ_STAT, rHOST_IRQ_STAT + 4] → getR s' off = resetVal off
  base : getR s' rFIRN_WIN_BASE = getR s rFIRN_WIN_BASE

theorem hostAtReset_hostCleared (s : State) : HostAtReset s (hostCleared (linkLoss s)) := by
  obtain ⟨hm, hl, -, -, ha, hmv, hld, hb, hc, -⟩ := linkLoss_facts s
  refine ⟨hm, hl, rfl, ha, hmv, hld, rfl, rfl, rfl, fun hj => ?_, fun off hlo hhi hne => ?_, ?_⟩
  · rw [← hc hj, sessOpen, sessOpen, sessState, sessState, getF, getF, getR_hostCleared, if_pos (.inl (by decide))]
  · simp only [List.mem_cons, List.not_mem_nil, or_false, not_or] at hne
    rw [getR_hostCleared, if_neg (by omega)]
  · rw [getR_hostCleared, if_pos (.inr (.inr rfl)), hb]

/-- An interrupt whose cause is not enabled sets its bit alone. -/
theorem hostIrq_of_disabled {b : Nat} (h : bits (getR64 (setR64 s rHOST_IRQ_STAT (setBits (getR64 s rHOST_IRQ_STAT) b 1 1)) rHOST_IRQ_EN) b 1 = 0) :
    hostIrq s b = setR64 s rHOST_IRQ_STAT (setBits (getR64 s rHOST_IRQ_STAT) b 1 1) := by
  have h' : bits (getR64 s rHOST_IRQ_EN) b 1 = 0 := by
    rw [getR64_setR64_other s _ (.inr (by decide))] at h
    exact h
  unfold hostIrq
  dsimp only
  exact if_neg fun h1 => by omega

theorem HostAtReset.hostIrq (h : HostAtReset s s') : HostAtReset s (Machine.hostIrq s' 8) := by
  have hen : getR64 s' rHOST_IRQ_EN = 0 := by
    rw [getR64, h.regs _ (by decide) (by decide) (by decide), h.regs _ (by decide) (by decide) (by decide)]
    decide
  have hoff : bits (getR64 (setR64 s' rHOST_IRQ_STAT (setBits (getR64 s' rHOST_IRQ_STAT) 8 1 1)) rHOST_IRQ_EN) 8 1 = 0 := by
    rw [getR64_setR64_other s' _ (.inr (by decide)), hen, bits_zero]
  have hreg {off : Nat} (ho : off ∉ irqRegs) : getR (Machine.hostIrq s' 8) off = getR s' off := (frame_hostIrq s' 8).getR_eq ho
  have hhost : (Machine.hostIrq s' 8).host = s'.host := by rw [hostIrq_of_disabled hoff]; rfl
  refine ⟨fun a => ((frame_hostIrq s' 8).1 a).trans (h.mem a), ?_, ?_, ?_, ?_, ?_, ?_, ?_, ?_, fun hj => ?_, fun off hlo hhi hne => ?_, ?_⟩
  · rw [hhost, h.link]
  · rw [hhost, h.bme]
  · rw [hhost, h.accepted]
  · rw [hhost, h.movers]
  · rw [hhost, h.loader]
  · rw [hhost, h.pend]
  · rw [hhost, h.vectors]
  · rw [hhost, h.cfg]
  · rw [← h.closed hj, sessOpen, sessState, getF_hostIrq, ← sessState, ← sessOpen]
  · rw [hreg fun hm => hne (List.mem_cons_of_mem _ hm), h.regs off hlo hhi hne]
  · rw [hreg (by decide), h.base]

theorem hostAtReset_hostReset (s : State) : HostAtReset s (hostReset s) := by
  rw [hostReset_eq]
  split
  · exact (hostAtReset_hostCleared s).hostIrq
  · exact hostAtReset_hostCleared s

/-- Settles O43, one case for each reset that ends. -/
theorem resetsEnd : Obligations.ResetsEnd := by
  unfold Obligations.ResetsEnd
  intro s
  refine ⟨fun i hj hr hq => ⟨_, rfl, ?_⟩, fun c hj hr hd hu => ⟨_, rfl, ?_⟩, fun i hi => ⟨hostReset s, ?_, ?_⟩⟩
  case refine_1 =>
    rw [resetComplete_floe hj hr hq]
    exact floeResetEnd_facts s _ _
  case refine_2 =>
    rw [resetComplete_core hj hr hd hu]
    exact coreResetEnd_facts hr
  case refine_3 =>
    simp only [List.mem_cons, List.not_mem_nil, or_false] at hi
    rcases hi with rfl | rfl <;> rfl
  case refine_4 =>
    obtain ⟨hm, hl, hb, ha, hmv, hld, hp, hv, hc, hs, hr, hw⟩ := hostAtReset_hostReset s
    exact ⟨hm, hl, hb, ha, hmv, hld, hp, fun v => by rw [vecOf, hv, mget_nil], hc, hs, hr, hw⟩

end Sys2Proof.Safety
end

section
/-! SUPPORT. The start of power-up and the cold reset (R314, R430, R434), and the length of a digest. -/

namespace Sys2Proof.Safety

open Sys2Proof.Machine

variable {s s' t : State}

-- power-up ----------------------------------------------------------------------------------------------------------------------

/-- Rails and the power state are all that changes. -/
def RailsMove (s s' : State) : Prop := ∃ rl p, s' = { s with rails := rl, pwr := p }

theorem RailsMove.refl (s : State) : RailsMove s s := ⟨s.rails, s.pwr, rfl⟩

theorem RailsMove.trans (h : RailsMove s s') (h' : RailsMove s' t) : RailsMove s t := by
  obtain ⟨rl, p, rfl⟩ := h
  obtain ⟨rl', p', rfl⟩ := h'
  exact ⟨rl', p', rfl⟩

theorem RailsMove.foldl {α : Type*} {l : List α} {g : State → α → State} (hg : ∀ x a, RailsMove x (g x a)) (s : State) : RailsMove s (l.foldl g s) := by
  induction l generalizing s with
  | nil => exact refl s
  | cons a l ih => exact (hg s a).trans (ih _)

theorem railsMove_pmbSend (s : State) (d : Nat) (f : Nat → PmbOp) : RailsMove s (pmbSend s d f) := by
  unfold pmbSend
  split
  · exact RailsMove.refl s
  · exact ⟨s.rails, _, rfl⟩

theorem railsMove_setRail (s : State) (d : Nat) (x : RailSt) : RailsMove s (setRail s d x) := ⟨_, s.pwr, rfl⟩

theorem railsMove_railTo (s : State) (d : Nat) (v : BitVec 10) : RailsMove s (railTo s d v) := (railsMove_setRail s d _).trans (railsMove_pmbSend _ d _)

/-- One rail's start. -/
def railUp (s : State) (d : Nat) : State :=
  pmbSend (railTo (setRail s d { railOf s d with on := true, lowPow := false }) d (tgtVolt s d)) d (.operation · true)

theorem railsMove_railUp (s : State) (d : Nat) : RailsMove s (railUp s d) :=
  ((railsMove_setRail s d _).trans (railsMove_railTo _ d _)).trans (railsMove_pmbSend _ d _)

/-- The targets as they are once DVFS_TARGET takes effect. -/
def retargeted (s : State) : State := { s with pwr := { s.pwr with target := BitVec.ofNat 64 (getR64 s rDVFS_TARGET) } }

theorem railsUp_eq (s : State) : railsUp s = (List.range 4).foldl railUp (retargeted s) := rfl

theorem railsMove_railsUp (s : State) : RailsMove s (railsUp s) := by
  rw [railsUp_eq]
  exact RailsMove.trans ⟨s.rails, _, rfl⟩ (RailsMove.foldl railsMove_railUp _)

/-- What the start of power-up may do: rails and the power state, PWR_STATE, and the lifecycle's return from DEBUG_UNLOCKED. -/
structure PowersUp (s s' : State) : Prop where
  same : ∃ r rl p se, s' = { s with regs := r, rails := rl, pwr := p, sec := se }
  regs : ∀ off, off ≠ rPWR_STATE → getR s' off = getR s off
  sec : s'.sec = s.sec ∨ (s.sec.lifeState = 2 ∧ s'.sec = { s.sec with lifeState := 1 })

theorem PowersUp.refl (s : State) : PowersUp s s := ⟨⟨s.regs, s.rails, s.pwr, s.sec, rfl⟩, fun _ _ => rfl, .inl rfl⟩

/-- Power-up under way. -/
def comingUp (s : State) : State := pwrTrans (railsUp s) true

theorem startup_eq (s : State) : startup s =
    if s.pwr.vaux = false ∨ s.pwr.supplies = false ∨ tripped s = true ∨ (s.pwr.off = true ∧ s.pwr.waking = false) then s
    else { comingUp s with
      pwr := { (comingUp s).pwr with off := false, waking := true },
      sec := if (comingUp s).pwr.off ∧ (comingUp s).sec.lifeState = 2 then { (comingUp s).sec with lifeState := 1 } else (comingUp s).sec } := rfl

theorem powersUp_startup (s : State) : PowersUp s (startup s) := by
  rw [startup_eq]
  split
  · exact PowersUp.refl s
  · obtain ⟨rl, p, e⟩ := railsMove_railsUp s
    have hsec : (comingUp s).sec = s.sec := by rw [comingUp, e]; rfl
    have hregs : ∀ off, off ≠ rPWR_STATE → getR (comingUp s) off = getR s off := fun off ho => by
      rw [comingUp, e]
      exact getR_setF_other _ 3 1 _ ho
    refine ⟨?_, hregs, ?_⟩
    · rw [comingUp, e]
      exact ⟨_, _, _, _, rfl⟩
    · rw [hsec]
      dsimp only
      split
      · rename_i h
        exact .inr ⟨h.2, rfl⟩
      · exact .inl rfl

/-- Power-up begins once the supplies are present and nothing has tripped. -/
theorem startup_begins (hv : s.pwr.vaux = true) (hs : s.pwr.supplies = true) (ht : tripped s = false) (ho : s.pwr.off = false) :
    (startup s).pwr.waking = true ∧ pwrBusy (startup s) = true := by
  rw [startup_eq, if_neg (by simp [hv, hs, ht, ho])]
  refine ⟨rfl, ?_⟩
  have hbusy : pwrBusy (comingUp s) = true := getB_setF_same (railsUp s) rPWR_STATE (by decide) 1
  exact hbusy

namespace PowersUp

theorem mem (h : PowersUp s s') : s'.mem = s.mem := by obtain ⟨⟨r, rl, p, se, rfl⟩, -, -⟩ := h; rfl
theorem fuses (h : PowersUp s s') : s'.fuses = s.fuses := by obtain ⟨⟨r, rl, p, se, rfl⟩, -, -⟩ := h; rfl
theorem pending (h : PowersUp s s') : s'.pending = s.pending := by obtain ⟨⟨r, rl, p, se, rfl⟩, -, -⟩ := h; rfl
theorem rdByte_eq (h : PowersUp s s') (a : Nat) : rdByte s' a = rdByte s a := by rw [rdByte, rdByte, h.mem]
theorem slots (h : PowersUp s s') : s'.sec.slots = s.sec.slots := by
  rcases h.sec with e | ⟨-, e⟩ <;> rw [e]
theorem svn (h : PowersUp s s') : s'.sec.svn = s.sec.svn := by
  rcases h.sec with e | ⟨-, e⟩ <;> rw [e]
theorem lifeState (h : PowersUp s s') (hn : s.sec.lifeState ≠ 2) : s'.sec.lifeState = s.sec.lifeState := by
  rcases h.sec with e | ⟨h2, -⟩
  · rw [e]
  · exact absurd h2 hn

end PowersUp

-- the cold reset --------------------------------------------------------------------------------------------------------------------

/-- The state that a package cold reset leaves before its bring-up begins. -/
def coldState (s : State) : State :=
  { regs := coldRegs s,
    fuses := s.fuses,
    temps := s.temps,
    time := { ({} : TimeSt) with ticks := s.time.ticks },
    pwr := { ({} : PowerSt) with vaux := s.pwr.vaux, supplies := s.pwr.supplies, refLost := s.pwr.refLost, railStrap := s.pwr.railStrap, bootStrap := s.pwr.bootStrap },
    host := { ({} : HostSt) with out := s.host.out },
    sess := { ({} : SessSt) with lockTick := s.sess.lockTick, lockLen := s.sess.lockLen },
    sec := { ({} : SecSt) with lifeState := (if s.sec.lifeState = 2 then 1 else s.sec.lifeState), slots := s.sec.slots, cur := s.sec.cur, svn := s.sec.svn,
                               bootCnt := s.sec.bootCnt + 1 },
    tap := s.tap,
    pins := { ({} : PinSt) with thermtripN := s.pins.thermtripN },
    xferId := s.xferId,
    draws := s.draws,
    pending := s.pending }

theorem coldReset_eq (s : State) : coldReset s = startup (coldState s) := rfl

/-- The registers that a cold reset keeps, in the order of coldRegs. -/
def coldKept (s z : State) : State :=
  let a := setF (setF z rPWR_STATE 12 2 (getF s rPWR_STATE 12 2)) rPWR_STATE 16 4 (getF s rPWR_STATE 16 4)
  let b := setF a (rTHERM_STAT + 4) 1 1 (getF s (rTHERM_STAT + 4) 1 1)
  let c := setF b rBOOT_CTL 0 1 (getF s rBOOT_CTL 0 1)
  let d := setF (setF c rSESS_STATE 4 8 (getF s rSESS_STATE 4 8)) rSESS_STATE 0 2 (if sessState s = 3 then 3 else 0)
  let e := setR d rLEDGER_COLD (getR s rLEDGER_COLD + 1)
  let f := setF e (rTB_CTL + 4) 1 1 (if s.pwr.refLost then 1 else 0)
  setF f rRAIL_MODE 0 1 (if s.pwr.railStrap then 1 else 0)

theorem coldRegs_eq (s : State) : coldRegs s = (coldKept s {}).regs := rfl

theorem getR_coldState (s : State) (off : Nat) : getR (coldState s) off = getR (coldKept s {}) off := by
  rw [getR, getR, ← coldRegs_eq]
  rfl

theorem getF_coldState (s : State) (off lo w : Nat) : getF (coldState s) off lo w = getF (coldKept s {}) off lo w := by rw [getF, getF, getR_coldState]

/-- The registers that a cold reset keeps a part of. -/
def coldList : List Nat := [rPWR_STATE, rTHERM_STAT + 4, rBOOT_CTL, rSESS_STATE, rLEDGER_COLD, rTB_CTL + 4, rRAIL_MODE]

theorem getR_coldKept_other (s z : State) {off : Nat} (h : off ∉ coldList) : getR (coldKept s z) off = getR z off := by
  simp only [coldList, List.mem_cons, List.not_mem_nil, or_false, not_or] at h
  obtain ⟨h1, h2, h3, h4, h5, h6, h7⟩ := h
  rw [coldKept, getR_setF_other _ _ _ _ h7, getR_setF_other _ _ _ _ h6, getR_setR_other _ _ h5, getR_setF_other _ _ _ _ h4, getR_setF_other _ _ _ _ h4,
    getR_setF_other _ _ _ _ h3, getR_setF_other _ _ _ _ h2, getR_setF_other _ _ _ _ h1, getR_setF_other _ _ _ _ h1]

theorem sessState_coldKept (s z : State) : sessState (coldKept s z) = if sessState s = 3 then 3 else 0 := by
  have h : (if sessState s = 3 then 3 else 0) % 4 = if sessState s = 3 then 3 else 0 := by split <;> rfl
  unfold sessState at h ⊢
  rw [coldKept, getF_setF_otherReg _ _ _ _ _ _ (by decide), getF_setF_otherReg _ _ _ _ _ _ (by decide), getF, getR_setR_other _ _ (by decide), ← getF,
    getF_setF_same _ _ _ _ _ (by decide)]
  exact h

theorem cold_coldKept (s z : State) : getR (coldKept s z) rLEDGER_COLD = getR s rLEDGER_COLD + 1 := by
  rw [coldKept, getR_setF_other _ _ _ _ (by decide), getR_setF_other _ _ _ _ (by decide), getR_setR_same]

theorem tripped_coldKept (s z : State) : tripped (coldKept s z) = tripped s := by
  have h : getF s (rTHERM_STAT + 4) 1 1 % 2 ^ 1 = getF s (rTHERM_STAT + 4) 1 1 := Nat.mod_eq_of_lt (getF_lt s _ 1 1)
  rw [tripped, tripped, getB, getB, coldKept, getF_setF_otherReg _ _ _ _ _ _ (by decide), getF_setF_otherReg _ _ _ _ _ _ (by decide), getF,
    getR_setR_other _ _ (by decide), ← getF, getF_setF_otherReg _ _ _ _ _ _ (by decide), getF_setF_otherReg _ _ _ _ _ _ (by decide),
    getF_setF_otherReg _ _ _ _ _ _ (by decide), getF_setF_same _ _ _ _ _ (by decide), h]

/-- After a cold reset no session is open. -/
theorem sessState_coldReset (s : State) : sessState (coldReset s) = if sessState s = 3 then 3 else 0 := by
  have h := (powersUp_startup (coldState s)).regs rSESS_STATE (by decide)
  rw [coldReset_eq, sessState, getF, h, ← getF, getF_coldState, ← sessState, sessState_coldKept]

theorem rdByte_coldReset (s : State) (a : Nat) : rdByte (coldReset s) a = 0 := by
  rw [coldReset_eq, (powersUp_startup (coldState s)).rdByte_eq, rdByte, coldState, mget_nil]
  rfl

-- digests ------------------------------------------------------------------------------------------------------------------------------

theorem length_shaRound (v : List (BitVec 64)) (kw : BitVec 64) : (shaRound v kw).length = v.length := by
  unfold shaRound
  split <;> rfl

theorem length_foldl_shaRound (l : List (BitVec 64)) (v : List (BitVec 64)) : (l.foldl shaRound v).length = v.length := by
  induction l generalizing v with
  | nil => rfl
  | cons a l ih => rw [List.foldl_cons, ih, length_shaRound]

theorem length_shaBlock (h : List (BitVec 64)) (b : List Byte) : (shaBlock h b).length = h.length := by
  rw [shaBlock, List.length_zipWith, length_foldl_shaRound, Nat.min_self]

theorem length_shaBlocks (n : Nat) (h : List (BitVec 64)) (b : List Byte) : (shaBlocks n h b).length = h.length := by
  induction n generalizing h b with
  | zero => rfl
  | succ n ih => rw [shaBlocks, ih, length_shaBlock]

theorem length_beBytes (n x : Nat) : (beBytes n x).length = n := by simp [beBytes]

theorem length_flatMap_const {α β : Type*} {g : α → List β} {n : Nat} (h : ∀ a, (g a).length = n) (l : List α) : (l.flatMap g).length = n * l.length := by
  induction l with
  | nil => rfl
  | cons a l ih => rw [List.flatMap_cons, List.length_append, h, ih, List.length_cons, Nat.mul_succ, Nat.add_comm]

/-- A digest has 48 bytes. -/
theorem length_sha384 (m : List Byte) : (sha384 m).length = 48 := by
  have h8 : shaInit.length = 8 := rfl
  rw [sha384, length_flatMap_const (fun w : BitVec 64 => length_beBytes 8 w.toNat), List.length_take, length_shaBlocks, h8]
  rfl

end Sys2Proof.Safety
end

section
/-! PROOF. The lifecycle moves (O46). -/

namespace Sys2Proof.Safety

open Sys2Proof.Machine

variable {s s' : State} {src : Src}

-- writes of LIFECYCLE and ATTEST_CTL ------------------------------------------------------------------------------------------------

theorem regTop_lifecycle (h : Served s src rLIFECYCLE) {v : Nat} (hv : v < 2 ^ 32) : regTop s src rLIFECYCLE false v = lifecycleCtl s v := by
  rw [regTop_sessBlock h (by decide) (by decide) (by decide), sessWrite, if_neg (by decide), if_neg (by decide), if_pos rfl, BitVec.toNat_ofNat,
    Nat.mod_eq_of_lt hv]

theorem exec_provision (h : Served s src rLIFECYCLE) : exec (.provision src) s = .next (provisionRun s) :=
  congrArg Host.Outcome.next ((regTop_lifecycle h (by decide)).trans (by simp [lifecycleCtl, bits]))
theorem exec_dbgUnlock (h : Served s src rLIFECYCLE) : exec (.dbgUnlock src) s = .next (unlockRun s) :=
  congrArg Host.Outcome.next ((regTop_lifecycle h (by decide)).trans (by simp [lifecycleCtl, bits]))
theorem exec_dbgLock (h : Served s src rLIFECYCLE) : exec (.dbgLock src) s = .next (lockRun s) :=
  congrArg Host.Outcome.next ((regTop_lifecycle h (by decide)).trans (by simp [lifecycleCtl, bits]))
theorem exec_lifecycleRelease (h : Served s src rLIFECYCLE) : exec (.lifecycleRelease src) s = .next (releaseRun s) :=
  congrArg Host.Outcome.next ((regTop_lifecycle h (by decide)).trans (by simp [lifecycleCtl, bits]))

/-- What serves one word of the session block serves every other. -/
theorem served_sessBlock {off off' : Nat} (h : Served s src off) (hlo : 0x2_0000 ≤ off) (hhi : off < 0x4_0000) (hlo' : 0x2_0000 ≤ off') (hhi' : off' < 0x4_0000) :
    Served s src off' := by
  obtain ⟨haw, hlive, hmay, -, -, -⟩ := h
  have hb : inSessBlock off = true := by simp [inSessBlock]; omega
  have hb' : inSessBlock off' = true := by simp [inSessBlock]; omega
  refine ⟨haw, hlive, (mayWriteAt_of_regs rfl (hb'.trans hb.symm) src).trans hmay, ?_, ?_, ?_⟩
  · rw [absentDie, if_neg (by omega), if_neg (by omega)]
  · rw [regRegion, if_pos (.inl (by omega))]
    rfl
  · simp only [gatedFor]
    rw [if_neg (by omega), if_neg (by omega)]

theorem exec_attestReq (h : Served s src rLIFECYCLE) : exec (.attestReq src) s = .next (attestReq (plainWrite s false rATTEST_CTL 1)) := by
  have h' : Served s src rATTEST_CTL := served_sessBlock h (by decide) (by decide) (by decide) (by decide)
  refine congrArg Host.Outcome.next ((regTop_sessBlock h' (by decide) (by decide) (by decide) 1).trans ?_)
  rw [sessWrite, if_neg (by decide), if_neg (by decide), if_neg (by decide), if_neg (by decide), if_neg (by decide), if_pos rfl]
  exact if_pos (by decide)

theorem frame_plainWrite (s : State) (debug : Bool) (off : Nat) (v : BitVec 32) : Frame [off] s (plainWrite s debug off v) := frame_setR s (by simp) _

-- the report -----------------------------------------------------------------------------------------------------------------------------

theorem length_regBytes (s : State) (off n : Nat) : (regBytes s off (4 * n)).length = 4 * n := by
  rw [regBytes, length_flatMap_const (n := 4) (g := fun i => wordBytes32 s (off + 4 * i)) (fun i => length_leBytes 4 _), List.length_range, Nat.mul_div_cancel_left n (by decide)]

theorem length_reportHead (s : State) : (reportHead s).length = 256 := by
  have hhash : (if bruta s then beBytes 48 s.sec.mhash.toNat else List.replicate 48 0).length = 48 := by
    split
    · exact length_beBytes 48 _
    · exact List.length_replicate
  have hnonce : (regBytes s rATTEST_NONCE 32).length = 32 := length_regBytes s rATTEST_NONCE 8
  simp only [reportHead, List.length_append, length_leBytes, hhash, hnonce, List.length_replicate]
  cases sessKey s false with
  | none => rfl
  | some k => simp only [length_sha384]

/-- The two signatures of a report. -/
def reportSigs (h : List Byte) : List Byte := (List.range 64).map (Config.attestEdSign h) ++ (List.range 3309).map (Config.attestMlSign h)

/-- A report, its signatures, and zeros up to 4,096 bytes. -/
def reportBytes (s : State) : List Byte :=
  reportHead s ++ reportSigs (reportHead s) ++ List.replicate (0x1000 - (reportHead s ++ reportSigs (reportHead s)).length) 0

theorem length_reportBytes (s : State) : (reportBytes s).length = 4 * 1024 := by
  have hall : (reportHead s ++ reportSigs (reportHead s)).length = 3629 := by
    rw [List.length_append, length_reportHead, reportSigs, List.length_append, List.length_map, List.length_map, List.length_range, List.length_range]
  rw [reportBytes, List.length_append, List.length_replicate, hall]

/-- The report in its registers. -/
def reported (s : State) : State := setRegBytes s rATTEST_REPORT (reportBytes s)

theorem attestDone_eq (h : s.sec.signing = true) :
    attestDone s = setF { reported s with sec := { (reported s).sec with signing := false } } rATTEST_CTL 1 1 0 := by
  rw [attestDone, attestBusy, if_pos h]
  rfl

theorem regBytes_reported (s : State) : regBytes (reported s) rATTEST_REPORT 256 = reportHead s := by
  have hlen := length_reportBytes s
  have hword : ∀ i ∈ List.range 64, wordBytes32 (reported s) (rATTEST_REPORT + 4 * i) = ((reportBytes s).drop (4 * i)).take 4 := fun i hi => by
    have hi' : i < 64 := List.mem_range.1 hi
    rw [wordBytes32, reported, setRegBytes_eq, getR_wordsSet s _ _ (by omega), bytes_wordOf _ (by omega)]
  have hhead : (reportBytes s).take (4 * 64) = reportHead s := by
    rw [reportBytes, List.append_assoc]
    exact List.take_left' (length_reportHead s)
  exact ((List.flatMap_congr hword).trans (flatMap_fours 64 _)).trans hhead

/-- Where the report stands. -/
def reportRegs : List Nat := (List.range 1024).map fun i => rATTEST_REPORT + 4 * i

theorem frame_reported (s : State) : Frame reportRegs s (reported s) := by
  refine frame_setRegBytes s _ _ ?_
  rw [length_reportBytes, Nat.mul_div_cancel_left 1024 (by decide)]
  exact List.Subset.refl _

theorem frame_withSec (l : List Nat) (s : State) (x : SecSt) : Frame l s { s with sec := x } := ⟨fun _ => rfl, fun _ _ => rfl, rfl, rfl⟩

theorem attestDone_facts (h : s.sec.signing = true) :
    Frame (rATTEST_CTL :: reportRegs) s (attestDone s) ∧ getB (attestDone s) rATTEST_CTL 1 = false ∧ (attestDone s).sec.signing = false ∧
      regBytes (attestDone s) rATTEST_REPORT 256 = reportHead s := by
  have hf := (frame_reported s).mono (List.subset_cons_self rATTEST_CTL reportRegs)
  have hb := regBytes_reported s
  rw [attestDone_eq h]
  generalize reported s = u at hf hb
  have hw : ∀ x : SecSt, Frame [rATTEST_CTL] u (setF { u with sec := x } rATTEST_CTL 1 1 0) := fun x =>
    (frame_withSec _ u x).trans (frame_setF { u with sec := x } (by simp) 1 1 0)
  refine ⟨hf.trans ((hw _).mono (by simp)), getB_setF_same _ _ (by decide) 0, rfl, ?_⟩
  rw [← hb]
  exact regBytes_congr fun i _ => (hw _).getR_eq (by rw [List.mem_singleton]; unfold rATTEST_REPORT rATTEST_CTL; omega)

-- RELEASE -----------------------------------------------------------------------------------------------------------------------------------

/-- The owner slot in use revoked. -/
def revoke (s : State) : State :=
  { s with sec := { s.sec with lifeState := 0, slots := mset (fun _ => {}) s.sec.slots s.sec.cur { ownerSlot s s.sec.cur with revoked := true } } }

theorem releaseRun_eq (hl : s.sec.lifeState = 1 ∨ s.sec.lifeState = 2) (ho : sessOpen s = true) (hd : sessDebug s = false) :
    releaseRun s = coldReset (revoke (sessEnd s)) := by
  rw [releaseRun, if_pos ⟨hl, ho, hd⟩]
  rfl

theorem secOf_sessEnd (ho : sessOpen s = true) (hd : sessDebug s = false) : (sessEnd s).sec = s.sec := by rw [sessEnd_of_plain ho hd]; rfl

/-- The end of a debug session, for what the lifecycle reads. -/
theorem sessEnd_of_debug (ho : sessOpen s = true) (hd : sessDebug s = true) : (sessEnd s).sec = s.sec ∧ sessState (sessEnd s) = 0 := by
  obtain ⟨r, e⟩ := (regsKeep_endDebug s).same
  rw [sessEnd, if_pos ho, if_pos hd, e]
  refine ⟨rfl, ?_⟩
  dsimp only
  rw [sessState, getF_withSess, getF_setF_otherReg _ _ _ _ _ _ (by decide), getF_setF_same _ _ _ _ _ (by decide)]
  rfl

theorem slots_coldReset (s : State) : (coldReset s).sec.slots = s.sec.slots := by
  rw [coldReset_eq, (powersUp_startup (coldState s)).slots]
  rfl

theorem ownerSlot_coldReset (s : State) (k : Nat) : ownerSlot (coldReset s) k = ownerSlot s k := by rw [ownerSlot, slots_coldReset, ownerSlot]

theorem ownerSlot_of_slots {k : Nat} {o : OwnerSlot} (h : s'.sec.slots = mset (fun _ => {}) s.sec.slots k o) :
    ownerSlot s' k = o ∧ ∀ j, j ≠ k → ownerSlot s' j = ownerSlot s j :=
  ⟨by rw [ownerSlot, h, mget_mset_same], fun j hj => by rw [ownerSlot, ownerSlot, h, mget_mset_other _ _ _ hj]⟩

theorem ownerSlot_revoke (s : State) : ownerSlot (revoke s) s.sec.cur = { ownerSlot s s.sec.cur with revoked := true } := mget_mset_same _ s.sec.slots _ _

theorem lifeState_coldReset_owned (s : State) (h : s.sec.lifeState = 0) : (coldReset s).sec.lifeState = 0 := by
  have hc : (coldState s).sec.lifeState = 0 := by simp [coldState, h]
  rw [coldReset_eq, (powersUp_startup (coldState s)).lifeState (by rw [hc]; decide), hc]

theorem sessOpen_coldReset (s : State) : sessOpen (coldReset s) = false := by
  rw [sessOpen, sessState_coldReset]
  split <;> rfl

/-- Settles O46, one case for each row of the lifecycle and of attestation. -/
theorem theLifecycleMoves : Obligations.TheLifecycleMoves := by
  unfold Obligations.TheLifecycleMoves
  intro src s h
  refine ⟨fun hl hu hb => ⟨_, exec_provision h, ?_⟩, fun hb => ⟨_, rfl, ?_⟩, fun hl ho hd => ⟨_, exec_dbgUnlock h, ?_⟩, fun hl ho => ⟨_, exec_dbgLock h, ?_⟩,
    fun hl ho hd => ⟨_, exec_lifecycleRelease h, ?_⟩, fun hs => ⟨_, exec_attestReq h, ?_⟩, fun hs => ⟨_, exec_attestReq h, ?_⟩, fun hs => ⟨_, rfl, attestDone_facts hs⟩⟩
  case refine_1 =>
    rw [provisionRun, if_pos ⟨hl, hu, hb⟩]
    exact ⟨frame_withSec [] s _, rfl⟩
  case refine_2 =>
    rw [provisionEnd, if_pos hb]
    exact ⟨frame_withSec [] s _, rfl, rfl, rfl, rfl, ownerSlot_of_slots rfl⟩
  case refine_3 =>
    rw [unlockRun, if_pos ⟨hl, ho, hd⟩]
    exact ⟨frame_withSec [] s _, rfl⟩
  case refine_4 =>
    have hopen : sessState s = 2 := by simpa [sessOpen] using ho
    rw [lockRun, if_pos ⟨hl, ho⟩]
    cases hd : sessDebug s with
    | false => exact ⟨fun _ => rfl, rfl, fun h => Bool.noConfusion h, fun _ => hopen⟩
    | true =>
      obtain ⟨hm, -, -, -⟩ := sessEnd_facts s
      obtain ⟨hsec, hstate⟩ := sessEnd_of_debug ho hd
      exact ⟨hm, congrArg (fun x : SecSt => { x with lifeState := 1 }) hsec, fun _ => hstate, fun h => Bool.noConfusion h⟩
  case refine_5 =>
    rw [releaseRun_eq hl ho hd]
    have hsec := secOf_sessEnd ho hd
    have hslot : ownerSlot (coldReset (revoke (sessEnd s))) s.sec.cur = { ownerSlot s s.sec.cur with revoked := true } := by
      have hr := ownerSlot_revoke (sessEnd s)
      rw [ownerSlot_coldReset, ← hsec, hr, ownerSlot, ownerSlot, hsec]
    refine ⟨lifeState_coldReset_owned _ rfl, by rw [hslot], by rw [hslot], sessOpen_coldReset _, rdByte_coldReset _⟩
  case refine_6 =>
    rw [attestReq, attestBusy, if_neg (by rw [show (plainWrite s false rATTEST_CTL 1).sec = s.sec from rfl, hs]; decide)]
    exact ⟨(frame_plainWrite s false _ 1).trans ((frame_withSec _ _ _).trans (frame_setF _ (by simp) 1 1 1)), getB_setF_same _ _ (by decide) 1, rfl⟩
  case refine_7 =>
    rw [attestReq, attestBusy, if_pos (show (plainWrite s false rATTEST_CTL 1).sec.signing = true from hs)]
    exact ⟨(frame_plainWrite s false _ 1).trans (frame_setF _ (by simp) 2 1 1), getB_setF_same _ _ (by decide) 1, hs⟩

end Sys2Proof.Safety
end

section
/-! PROOF. A power request without a session is counted in HOST_STAT as well (R361), which refutes O36. -/

namespace Sys2Proof.Safety

open Sys2Proof.Machine Sys2Proof.Tests

theorem pwrReqRun_of_next {src : Src} {s s' : State} (h : exec (.pwrReqRun src) s = .next s') : regTop s src rPWR_REQ false (powerAsk s 0) = s' :=
  Host.Outcome.next.inj h

/-- The host has no session, and its request for RUN is refused. -/
theorem unsessioned_base : Awake base ∧ srcLive base .host = true ∧ mayWriteAt base .host rPWR_REQ = false := by
  unfold Awake
  decide +kernel

/-- The refusal counts in NOSESS. -/
theorem noSess_pwrReq : getR (regTop base .host rPWR_REQ false (powerAsk base 0)) rHOST_STAT ≠ getR base rHOST_STAT := by decide +kernel

/-- Refutes O36: with no session the host's request for RUN changes NOSESS of HOST_STAT besides RESULT. -/
theorem not_powerRequestsAreAnswered : ¬ Obligations.PowerRequestsAreAnswered := by
  intro h
  obtain ⟨hawake, hlive, hmay⟩ := unsessioned_base
  obtain ⟨hrefused, _⟩ := h .host base hawake hlive
  obtain ⟨s', hexec, hframe, _⟩ := hrefused hmay (.pwrReqRun .host) (by simp)
  obtain rfl := pwrReqRun_of_next hexec
  exact noSess_pwrReq (hframe.getR_eq (by decide))

end Sys2Proof.Safety
end

section
/-! SUPPORT. Clock regions: what an alignment that is set or lost changes (R288), and regions that lose their clock (Table 13-4). -/

namespace Sys2Proof.Safety

open Sys2Proof.Machine

variable {s s' t : State}

/-- A field reads as before where the field that is written lies beside it, in whatever register. -/
theorem getF_setF_beside (s : State) (off lo w v off' lo' w' : Nat) (h : lo + w ≤ 32) (h' : lo' + w' ≤ lo ∨ lo + w ≤ lo') :
    getF (setF s off lo w v) off' lo' w' = getF s off' lo' w' := by
  by_cases ho : off' = off
  · subst ho
    exact getF_setF_otherField s off' lo w v lo' w' h h'
  · exact getF_setF_otherReg s lo w v lo' w' ho

theorem regionOf_setRegion_same (s : State) (r : Nat) (x : RegionSt) : regionOf (setRegion s r x) r = x := mget_mset_same _ s.regions r x
theorem regionOf_setRegion_other (s : State) {r q : Nat} (x : RegionSt) (h : q ≠ r) : regionOf (setRegion s r x) q = regionOf s q :=
  mget_mset_other _ s.regions x h

/-- What an alignment changes: XALIGN and XLAT. -/
structure Realigned (s s' : State) : Prop where
  same : ∃ r g n, s' = { s with regs := r, regions := g, net := n }
  field : ∀ off lo w, (lo + w ≤ 7 ∨ 8 ≤ lo) → getF s' off lo w = getF s off lo w
  regs : ∀ off, (∀ q, q < 36 → off ≠ rCLK_STAT q) → getR s' off = getR s off
  region : ∀ q, ∃ x, regionOf s' q = { regionOf s q with xlat := x }

namespace Realigned

theorem refl (s : State) : Realigned s s := ⟨⟨_, _, _, rfl⟩, fun _ _ _ _ => rfl, fun _ _ => rfl, fun _ => ⟨_, rfl⟩⟩

theorem trans (h : Realigned s s') (h' : Realigned s' t) : Realigned s t := by
  refine ⟨?_, fun off lo w hl => (h'.field off lo w hl).trans (h.field off lo w hl), fun off ho => (h'.regs off ho).trans (h.regs off ho), fun q => ?_⟩
  · obtain ⟨r, g, n, rfl⟩ := h.same
    obtain ⟨r', g', n', rfl⟩ := h'.same
    exact ⟨r', g', n', rfl⟩
  · obtain ⟨x, e⟩ := h.region q
    obtain ⟨x', e'⟩ := h'.region q
    exact ⟨x', by rw [e', e]⟩

theorem foldl {α : Type*} {l : List α} {g : State → α → State} (hg : ∀ x, ∀ a ∈ l, Realigned x (g x a)) (s : State) : Realigned s (l.foldl g s) := by
  induction l generalizing s with
  | nil => exact refl s
  | cons a l ih => exact (hg s a List.mem_cons_self).trans (ih (fun x b hb => hg x b (List.mem_cons_of_mem _ hb)) _)

theorem sameMem (h : Realigned s s') : SameMem s s' := by obtain ⟨r, g, n, rfl⟩ := h.same; exact fun _ => rfl
theorem frame (h : Realigned s s') {l : List Nat} (hl : ∀ q, q < 36 → rCLK_STAT q ∈ l) : Frame l s s' := by
  have hr := h.regs
  obtain ⟨r, g, n, rfl⟩ := h.same
  exact ⟨fun _ => rfl, fun off ho => hr off fun q hq e => ho (e ▸ hl q hq), rfl, rfl⟩

end Realigned

theorem realigned_stat (s : State) {q : Nat} (hq : q < 36) (v : Nat) : Realigned s (setF s (rCLK_STAT q) 7 1 v) :=
  ⟨⟨_, s.regions, s.net, rfl⟩, fun off lo w hl => getF_setF_beside s _ 7 1 v off lo w (by decide) hl, fun _ ho => getR_setF_other s 7 1 v (ho q hq),
    fun _ => ⟨_, rfl⟩⟩

theorem realigned_xalignSet (s : State) (r : Nat) : Realigned s (xalignSet s r) := by
  have hfold (x : State) : Realigned x ((List.range 4).foldl (fun s d => setF s (rCLK_STAT (32 + d)) 7 1 (if regionUp s (32 + d) && svcAligned s d then 1 else 0)) x) :=
    Realigned.foldl (fun y d hd => realigned_stat y (by rw [List.mem_range] at hd; omega) _) x
  unfold xalignSet
  dsimp only
  split
  · exact (realigned_stat s (by omega) _).trans (hfold _)
  · exact hfold s

theorem realigned_setRegion (s : State) (r x : Nat) : Realigned s (setRegion s r { regionOf s r with xlat := x }) := by
  refine ⟨⟨s.regs, _, s.net, rfl⟩, fun _ _ _ _ => rfl, fun _ _ => rfl, fun q => ?_⟩
  by_cases h : q = r
  · subst h
    exact ⟨x, regionOf_setRegion_same s q _⟩
  · exact ⟨_, regionOf_setRegion_other s _ h⟩

theorem realigned_setXlat (s : State) (r x : Nat) : Realigned s (setXlat s r x) := (realigned_setRegion s r x).trans (realigned_xalignSet _ r)

theorem realigned_setEdgeXlat (s : State) (d n x : Nat) : Realigned s (setEdgeXlat s d n x) :=
  ⟨⟨s.regs, s.regions, _, rfl⟩, fun _ _ _ _ => rfl, fun _ _ => rfl, fun _ => ⟨_, rfl⟩⟩

theorem realigned_unalign (s : State) (r : Nat) : Realigned s (unalign s r) := by
  unfold unalign
  split
  · exact realigned_setXlat s r 0
  · exact (((Realigned.foldl (fun x k _ => realigned_setXlat x _ 0) s).trans (realigned_setEdgeXlat _ _ _ 0)).trans (realigned_setEdgeXlat _ _ _ 0)).trans
      (realigned_xalignSet _ r)

-- regions without a clock ----------------------------------------------------------------------------------------------------------

/-- CLK_STAT shows no clock. -/
def Dark (s : State) (r : Nat) : Prop := getF s (rCLK_STAT r) 6 1 = 0

theorem regionUp_of_dark {r : Nat} (h : Dark s r) (hr : r ≠ 36) : regionUp s r = false := by
  rw [regionUp, getB, h]
  simp [hr]

theorem dark_realigned (h : Realigned s s') {r : Nat} (hd : Dark s r) : Dark s' r := (h.field _ 6 1 (.inl (by decide))).trans hd

/-- A region off, before its crossings wait. -/
def powerless (s : State) (r : Nat) : State :=
  setF (setRegion s r { ({} : RegionSt) with stepNs := (regionOf s r).stepNs, stepped := (regionOf s r).stepped }) (rCLK_STAT r) 0 8 0

theorem regionOff_eq (s : State) (r : Nat) : regionOff s r = unalign (powerless s r) r := rfl

theorem dark_powerless (s : State) (r : Nat) : Dark (powerless s r) r := by
  have h0 := getF_setF_same (setRegion s r { ({} : RegionSt) with stepNs := (regionOf s r).stepNs, stepped := (regionOf s r).stepped }) (rCLK_STAT r) 0 8 0 (by decide)
  have hbit (x : Nat) (h : bits x 0 8 = 0 % 2 ^ 8) : bits x 6 1 = 0 := by
    rw [bits_eq_div_mod] at h ⊢
    omega
  exact hbit _ h0

theorem dark_powerless_other (s : State) {r q : Nat} (h : Dark s q) : Dark (powerless s r) q := by
  by_cases he : q = r
  · subst he
    exact dark_powerless s q
  · exact (getF_setF_otherReg _ 0 8 0 6 1 (by unfold rCLK_STAT; omega)).trans h

theorem dark_regionOff (s : State) (r : Nat) : Dark (regionOff s r) r := dark_realigned (realigned_unalign (powerless s r) r) (dark_powerless s r)
theorem dark_regionOff_other (s : State) (r : Nat) {q : Nat} (h : Dark s q) : Dark (regionOff s r) q :=
  dark_realigned (realigned_unalign (powerless s r) r) (dark_powerless_other s h)

/-- Regions of a list that lose their clock are without one. -/
theorem dark_regionsOff {l : List Nat} (s : State) : ∀ r ∈ l, Dark (l.foldl regionOff s) r :=
  foldl_reaches (g := regionOff) (Q := Dark) (fun x a _ => dark_regionOff x a) (fun x a _ _ hq => dark_regionOff_other x a hq) s

/-- What a region's loss of its clock leaves of the registers: all but the clocks' own, and of those all but the low byte. -/
theorem getF_regionOff (s : State) (r : Nat) {off lo w : Nat} (h : ∀ q, off ≠ rCLK_STAT q) : getF (regionOff s r) off lo w = getF s off lo w := by
  have hr := (realigned_unalign (powerless s r) r).regs off fun q _ => h q
  have hp : getR (powerless s r) off = getR s off := getR_setF_other _ 0 8 0 (h r)
  rw [regionOff_eq, getF, hr, hp, ← getF]

theorem getF_regionsOff {l : List Nat} (s : State) {off lo w : Nat} (h : ∀ q, off ≠ rCLK_STAT q) : getF (l.foldl regionOff s) off lo w = getF s off lo w := by
  induction l generalizing s with
  | nil => rfl
  | cons a l ih => rw [List.foldl_cons, ih, getF_regionOff s a h]

-- clusters and rails -------------------------------------------------------------------------------------------------------------------

theorem clusterOf_setCluster_same (s : State) (c : Nat) (x : ClusterSt) : clusterOf (setCluster s c x) c = x := mget_mset_same _ s.clusters c x
theorem clusterOf_setCluster_other (s : State) {c q : Nat} (x : ClusterSt) (h : q ≠ c) : clusterOf (setCluster s c x) q = clusterOf s q :=
  mget_mset_other _ s.clusters x h
theorem railOf_setRail_same (s : State) (d : Nat) (x : RailSt) : railOf (setRail s d x) d = x := mget_mset_same _ s.rails d x
theorem railOf_setRail_other (s : State) {d q : Nat} (x : RailSt) (h : q ≠ d) : railOf (setRail s d x) q = railOf s q := mget_mset_other _ s.rails x h

theorem frame_setCluster (l : List Nat) (s : State) (c : Nat) (x : ClusterSt) : Frame l s (setCluster s c x) := ⟨fun _ => rfl, fun _ _ => rfl, rfl, rfl⟩
theorem frame_setRail (l : List Nat) (s : State) (d : Nat) (x : RailSt) : Frame l s (setRail s d x) := ⟨fun _ => rfl, fun _ _ => rfl, rfl, rfl⟩
theorem frame_setRegion (l : List Nat) (s : State) (r : Nat) (x : RegionSt) : Frame l s (setRegion s r x) := ⟨fun _ => rfl, fun _ _ => rfl, rfl, rfl⟩

end Sys2Proof.Safety
end

section
/-! PROOF. Clusters gate and regulators leave low-power mode (O39). -/

namespace Sys2Proof.Safety

open Sys2Proof.Machine

variable {s s' : State}

-- IDLE ends ------------------------------------------------------------------------------------------------------------------------

theorem gated_clockStarts (s : State) (cl q : Nat) : (clusterOf (clockStarts s cl) q).gated = (clusterOf s q).gated := by
  have h : clusterOf (clockStarts s cl) q = clusterOf (setCluster s cl { clusterOf s cl with ramp := 1, rampCyc := 0, idleCyc := 0 }) q := rfl
  rw [h]
  by_cases he : q = cl
  · subst he
    rw [clusterOf_setCluster_same]
  · rw [clusterOf_setCluster_other _ _ he]

theorem gated_ungate_same (s : State) (cl : Nat) : (clusterOf (ungate s cl) cl).gated = false := by
  unfold ungate
  split
  · rw [gated_clockStarts, clusterOf_setCluster_same]
  · rename_i h
    exact Bool.eq_false_of_not_eq_true h

theorem gated_ungate_other (s : State) (cl : Nat) {q : Nat} (h : (clusterOf s q).gated = false) : (clusterOf (ungate s cl) q).gated = false := by
  by_cases he : q = cl
  · subst he
    exact gated_ungate_same s q
  · unfold ungate
    split
    · rw [gated_clockStarts, clusterOf_setCluster_other _ _ he, h]
    · exact h

/-- Every cluster's clock runs after a fold of ungate over all of them. -/
theorem gated_ungateAll (s : State) : ∀ cl ∈ List.range 32, (clusterOf ((List.range 32).foldl ungate s) cl).gated = false :=
  foldl_reaches (g := ungate) (Q := fun x cl => (clusterOf x cl).gated = false) (fun x a _ => gated_ungate_same x a) (fun x a _ _ hq => gated_ungate_other x a hq) s

theorem frame_ungate (s : State) (cl : Nat) : Frame [] s (ungate s cl) := by
  unfold ungate
  split
  · exact ((frame_setCluster [] s cl _).trans (frame_setCluster [] _ cl _)).trans (frame_setRegion [] _ cl _)
  · exact Frame.refl [] s

theorem Frame.foldl {α : Type*} {rs : List Nat} {l : List α} {g : State → α → State} (hg : ∀ x, ∀ a ∈ l, Frame rs x (g x a)) (s : State) :
    Frame rs s (l.foldl g s) := by
  induction l generalizing s with
  | nil => exact Frame.refl rs s
  | cons a l ih => exact (hg s a List.mem_cons_self).trans (ih (fun x b hb => hg x b (List.mem_cons_of_mem _ hb)) _)

/-- The regulators out of low-power mode, and every cluster's clock running. -/
def ungated (s : State) : State :=
  (List.range 32).foldl (fun s cl => ungate s cl) ((List.range 4).foldl (fun s d => setRail s d { railOf s d with lowPow := false }) s)

theorem frame_ungated (s : State) : Frame [] s (ungated s) :=
  (Frame.foldl (fun x d _ => frame_setRail [] x d _) s).trans (Frame.foldl (fun x cl _ => frame_ungate x cl) _)

/-- The package in RUN with the wake's source. -/
def running (s : State) (w : WakeSrc) : State := setPwrState (setF s rPWR_STATE 8 4 (wakeCode w)) 0

/-- WAKE_OUT_N as a wake leaves it. -/
def wakeShown (s : State) (w : WakeSrc) : State := if w = .pcie ∨ s.host.linkUp then s else { s with pwr := { s.pwr with wakeOut := true } }

theorem idleWake_eq (s : State) (w : WakeSrc) : idleWake s w = powerDone (wakeShown (running (ungated s) w) w) := by
  unfold idleWake
  dsimp only
  generalize hu : List.foldl (fun s cl => ungate s cl) _ (List.range 32) = u
  rw [show ungated s = u from hu, running]
  generalize setPwrState (setF u rPWR_STATE 8 4 (wakeCode w)) 0 = v
  rw [wakeShown]

theorem frame_wakeShown (s : State) (w : WakeSrc) : Frame [] s (wakeShown s w) := by
  unfold wakeShown
  split
  · exact Frame.refl [] s
  · exact ⟨fun _ => rfl, fun _ _ => rfl, rfl, rfl⟩

theorem clusterOf_wakeShown (s : State) (w : WakeSrc) (cl : Nat) : clusterOf (wakeShown s w) cl = clusterOf s cl := by
  unfold wakeShown
  split <;> rfl

theorem held_wakeShown (s : State) (w : WakeSrc) : (wakeShown s w).pwr.held = s.pwr.held := by
  unfold wakeShown
  split <;> rfl

theorem ccIrqStat_ge (k : Nat) : 0x40_0000 ≤ rCC_IRQ_STAT k := by unfold rCC_IRQ_STAT rCC_CTL svcBase; omega

/-- What is left as it was when a power entry or wake finishes. -/
structure PowerNoted (s s' : State) : Prop where
  same : ∃ r ho, s' = { s with regs := r, host := ho }
  regs : ∀ off, off < 0x4_0048 ∨ (0x4_0050 ≤ off ∧ off < 0x40_0000) → getR s' off = getR s off

theorem powerNoted_powerDone (s : State) : PowerNoted s (powerDone s) := by
  have hirq : PowerNoted s (hostIrq s 7) := by
    obtain ⟨h, e⟩ := hostIrq_eq s 7
    refine ⟨⟨_, h, e⟩, fun off ho => (frame_hostIrq s 7).getR_eq ?_⟩
    simp only [irqRegs, List.mem_cons, List.not_mem_nil, or_false, not_or]
    unfold rHOST_IRQ_STAT
    omega
  have hk := RegsKeep.foldl (P := fun off => off < 0x40_0000) (l := List.range 16) (g := fun s k => setF s (rCC_IRQ_STAT k) 2 1 1)
    (fun x k _ => RegsKeep.setF (fun h => absurd (ccIrqStat_ge k) (by omega)) x 2 1 1) (hostIrq s 7)
  obtain ⟨⟨r, ho, e⟩, hreg⟩ := hirq
  refine ⟨?_, fun off ho => (hk.kept off (by omega)).trans (hreg off ho)⟩
  obtain ⟨r', e'⟩ := hk.same
  exact ⟨r', ho, e'.trans (by rw [e])⟩

theorem PowerNoted.getF_eq (h : PowerNoted s s') {off : Nat} (ho : off < 0x4_0048 ∨ (0x4_0050 ≤ off ∧ off < 0x40_0000)) (lo w : Nat) :
    getF s' off lo w = getF s off lo w := by rw [getF, getF, h.regs off ho]
theorem PowerNoted.sameMem (h : PowerNoted s s') : SameMem s s' := by obtain ⟨⟨r, ho, rfl⟩, -⟩ := h; exact fun _ => rfl
theorem PowerNoted.clusterOf_eq (h : PowerNoted s s') (cl : Nat) : clusterOf s' cl = clusterOf s cl := by obtain ⟨⟨r, ho, rfl⟩, -⟩ := h; rfl
theorem PowerNoted.pwr (h : PowerNoted s s') : s'.pwr = s.pwr := by obtain ⟨⟨r, ho, rfl⟩, -⟩ := h; rfl

theorem clusterOf_running (s : State) (w : WakeSrc) (cl : Nat) : clusterOf (running s w) cl = clusterOf s cl := rfl
theorem pwr_running (s : State) (w : WakeSrc) : (running s w).pwr = s.pwr := rfl
theorem gated_ungated (s : State) {cl : Nat} (h : cl < 32) : (clusterOf (ungated s) cl).gated = false := gated_ungateAll _ cl (List.mem_range.2 h)

theorem running_facts (s : State) (w : WakeSrc) :
    Frame [rPWR_STATE] s (running s w) ∧ pwrState (running s w) = 0 ∧ getF (running s w) rPWR_STATE 8 4 = wakeCode w := by
  have hcode : wakeCode w % 2 ^ 4 = wakeCode w := by cases w <;> rfl
  refine ⟨(frame_setF s (by simp) 8 4 _).trans (frame_setF _ (by simp) 0 3 0), getF_setF_same _ _ _ _ _ (by decide), ?_⟩
  rw [running, setPwrState, getF_setF_otherField _ _ _ _ _ _ _ (by decide) (by decide), getF_setF_same _ _ _ _ _ (by decide), hcode]

/-- IDLE that ends: RUN, the wake's source, and every cluster's clock. -/
theorem idleWake_facts (s : State) (w : WakeSrc) :
    SameMem s (idleWake s w) ∧ pwrState (idleWake s w) = 0 ∧ getF (idleWake s w) rPWR_STATE 8 4 = wakeCode w ∧
      (∀ cl, cl < 32 → (clusterOf (idleWake s w) cl).gated = false) ∧ (idleWake s w).pwr.held = (ungated s).pwr.held := by
  rw [idleWake_eq]
  obtain ⟨hf, hs, hw⟩ := running_facts (ungated s) w
  have hu := frame_ungated s
  have hshow := frame_wakeShown (running (ungated s) w) w
  have hn := powerNoted_powerDone (wakeShown (running (ungated s) w) w)
  have hfield (lo n : Nat) : getF (powerDone (wakeShown (running (ungated s) w) w)) rPWR_STATE lo n = getF (running (ungated s) w) rPWR_STATE lo n :=
    (hn.getF_eq (.inr (by decide)) lo n).trans (hshow.getF_eq (by simp) lo n)
  refine ⟨fun a => ((hn.sameMem a).trans (hshow.1 a)).trans ((hf.1 a).trans (hu.1 a)), (hfield _ _).trans hs, (hfield _ _).trans hw, fun cl hcl => ?_, ?_⟩
  · rw [hn.clusterOf_eq, clusterOf_wakeShown, clusterOf_running, gated_ungated s hcl]
  · rw [hn.pwr, held_wakeShown]
    exact congrArg PowerSt.held (pwr_running (ungated s) w)

theorem pwr_ungate (s : State) (cl : Nat) : (ungate s cl).pwr = s.pwr := by
  unfold ungate
  split <;> rfl

theorem pwr_foldl {α : Type*} {l : List α} {g : State → α → State} (hg : ∀ x, ∀ a ∈ l, (g x a).pwr = x.pwr) (s : State) : (l.foldl g s).pwr = s.pwr := by
  induction l generalizing s with
  | nil => rfl
  | cons a l ih => exact (ih (fun x b hb => hg x b (List.mem_cons_of_mem _ hb)) _).trans (hg s a List.mem_cons_self)

theorem pwr_ungated (s : State) : (ungated s).pwr = s.pwr :=
  (pwr_foldl (fun x a _ => pwr_ungate x a) _).trans (pwr_foldl (fun x d _ => (by rfl : (setRail x d _).pwr = x.pwr)) s)

theorem flushHeld_of_none (h : s.pwr.held = []) : flushHeld s = s := if_pos (.inl (by rw [h]; rfl))

-- gating -------------------------------------------------------------------------------------------------------------------------------

theorem frame_lpEval (s : State) (d : Nat) : Frame [] s (lpEval s d) := by
  unfold lpEval
  split
  · exact frame_setRail [] s d _
  · exact Frame.refl [] s

theorem clusterOf_lpEval (s : State) (d cl : Nat) : clusterOf (lpEval s d) cl = clusterOf s cl := by
  unfold lpEval
  split <;> rfl

/-- A regulator whose clusters are all gated is in low-power mode. -/
theorem lowPow_lpEval {d : Nat} (hs : s.pwr.railStrap = true) (ho : (railOf s d).on = true) (he : getB s rIVR_LIMIT 0 = true)
    (hg : ∀ k, k < 8 → (clusterOf s (8 * d + k)).gated = true) : (railOf (lpEval s d) d).lowPow = true := by
  have hall : ((List.range 8).all fun k => (clusterOf s (8 * d + k)).gated || !regionUp s (8 * d + k)) = true :=
    List.all_eq_true.2 fun k hk => by rw [hg k (List.mem_range.1 hk), Bool.true_or]
  rw [lpEval, if_pos ⟨hs, ho⟩, railOf_setRail_same, he, hall]
  rfl

theorem gateRun_eq {cl : Nat} (h1 : pwrState s = 1) (hb : pwrBusy s = false) (hu : regionUp s cl = true) (hg : (clusterOf s cl).gated = false)
    (hq : ∀ k, k < 8 → coreQuiet s (8 * cl + k) = true) : gateRun s cl = lpEval (setCluster s cl { clusterOf s cl with gated := true }) (cl / 8) :=
  if_pos ⟨h1, hb, hu, hg, List.all_eq_true.2 fun k hk => hq k (List.mem_range.1 hk)⟩

-- brown-outs -----------------------------------------------------------------------------------------------------------------------------

/-- The regions of a die. -/
def dieRegions (d : Nat) : List Nat := ((List.range 8).map fun k => 8 * d + k) ++ [32 + d]

/-- The end of a brown-out: the mark, the die's regions without a clock, and its rail. -/
def browned (u s : State) (d amps : Nat) : State :=
  let s3 := (dieRegions d).foldl regionOff (setF u rPWR_STATE (16 + d) 1 1)
  setRail s3 d { ({} : RailSt) with on := true, goal := tgtVolt s3 d, since := s3.time.ticks, brown := some (tbNow s, amps) }

theorem brownRun_eq {d amps : Nat} (hs : s.pwr.railStrap = true) (hl : (railOf s d).lowPow = true) (ha : 25 < amps) :
    ∃ u, brownRun s d amps = browned u s d amps := by
  rw [brownRun, if_neg (by rw [hs, hl]; simp; omega)]
  exact ⟨_, rfl⟩

theorem browned_facts (u s : State) {d : Nat} (hd : d < 4) (amps : Nat) :
    getB (browned u s d amps) rPWR_STATE (16 + d) = true ∧ (∀ k, k < 8 → regionUp (browned u s d amps) (8 * d + k) = false) ∧
      regionUp (browned u s d amps) (32 + d) = false ∧ (railOf (browned u s d amps) d).brown = some (tbNow s, amps) := by
  have hdark := dark_regionsOff (l := dieRegions d) (setF u rPWR_STATE (16 + d) 1 1)
  have hmark : getF ((dieRegions d).foldl regionOff (setF u rPWR_STATE (16 + d) 1 1)) rPWR_STATE (16 + d) 1 = 1 := by
    rw [getF_regionsOff _ fun q => by unfold rPWR_STATE rCLK_STAT; omega, getF_setF_same _ _ _ _ _ (by omega)]
    rfl
  unfold browned
  dsimp only
  generalize (dieRegions d).foldl regionOff (setF u rPWR_STATE (16 + d) 1 1) = x at hdark hmark
  refine ⟨decide_eq_true hmark, fun k hk => ?_, ?_, by rw [railOf_setRail_same]⟩
  · exact regionUp_of_dark (hdark (8 * d + k) (List.mem_append_left _ (List.mem_map.2 ⟨k, List.mem_range.2 hk, rfl⟩))) (by omega)
  · exact regionUp_of_dark (hdark (32 + d) (List.mem_append_right _ (List.mem_singleton_self _))) (by omega)

/-- Settles O39, one case for each row of the clusters' clocks and the regulators. -/
theorem clustersGateAndRegulatorsLeave : Obligations.ClustersGateAndRegulatorsLeave := by
  unfold Obligations.ClustersGateAndRegulatorsLeave
  intro cluster die s
  refine ⟨fun h1 hb hu hg hq => ⟨_, rfl, ?_⟩, fun hg hh => ⟨_, rfl, ?_⟩, fun hlo hhi hc hu hg => ⟨_, rfl, ?_⟩, fun amps => ⟨_, rfl, ?_⟩,
    fun amps hs hl ha => ⟨_, rfl, ?_⟩⟩
  case refine_1 =>
    rw [gateRun_eq h1 hb hu hg hq]
    refine ⟨(frame_setCluster [] s _ _).trans (frame_lpEval _ _), ?_, fun hs ho he hall => lowPow_lpEval hs ho he fun k hk => ?_⟩
    · rw [clusterOf_lpEval, clusterOf_setCluster_same]
    · by_cases hc : 8 * (cluster.val / 8) + k = cluster.val
      · rw [hc, clusterOf_setCluster_same]
      · rw [clusterOf_setCluster_other _ _ hc, hall k hk hc]
  case refine_2 =>
    obtain ⟨hm, hst, hw, hcl, hheld⟩ := idleWake_facts s .access
    rw [gatedRun, if_pos hg, flushHeld_of_none (hheld.trans ((congrArg PowerSt.held (pwr_ungated s)).trans hh))]
    exact ⟨hm, hst, hw, hcl⟩
  case refine_3 =>
    rw [rampRun, if_pos ⟨hlo, hhi, hc, hu, hg⟩]
    exact ⟨frame_setCluster [] s _ _, clusterOf_setCluster_same s _ _⟩
  case refine_4 =>
    unfold lpExitIvr
    split
    · rename_i h
      exact ⟨frame_setRail [] s _ _, fun _ => railOf_setRail_same s _ _, fun h' => absurd h (Nat.not_lt.2 h')⟩
    · rename_i h
      exact ⟨Frame.refl [] s, fun h' => absurd h' h, fun _ => rfl⟩
  case refine_5 =>
    obtain ⟨u, e⟩ := brownRun_eq hs hl ha
    rw [e]
    exact browned_facts u s die.isLt _

end Sys2Proof.Safety
end

section
/-! PROOF. Switches (O25): quiescence, the switch that completes, and a core without a running slot (R135, R467). -/

namespace Sys2Proof.Safety

open Sys2Proof.Machine

variable {s s' t : State}

/-- Nothing of any memory and of any core changed. -/
def Bystands (s s' : State) : Prop := SameMem s s' ∧ s'.cores = s.cores

theorem bystands_refl (s : State) : Bystands s s := ⟨fun _ => rfl, rfl⟩
theorem Bystands.trans (h : Bystands s s') (h' : Bystands s' t) : Bystands s t := ⟨fun a => (h'.1 a).trans (h.1 a), h'.2.trans h.2⟩
theorem Annotated.bystands {c f : Nat} (h : Annotated c f s s') : Bystands s s' := ⟨h.frame.1, h.cores⟩

theorem bystands_setReason (s : State) (c t r : Nat) : Bystands s (setReason s c t r) := by
  unfold setReason
  split
  next f _ => exact (annotated_setFloeReason s c f r).bystands
  next => exact bystands_refl s

theorem bystands_freeHeld (s : State) (c t : Nat) : Bystands s (freeHeld s c t) := by
  unfold freeHeld
  split
  next f _ =>
    split
    · exact bystands_refl s
    · exact ⟨fun _ => rfl, rfl⟩
  next => exact bystands_refl s

-- a slot that becomes RUNNING --------------------------------------------------------------------------------------------------------

/-- A cluster's idle count when a slot of it becomes RUNNING (R323). -/
def rampedCluster (k : ClusterSt) : ClusterSt := if 4096 ≤ k.idleCyc then { k with ramp := 1, rampCyc := 0, idleCyc := 0 } else { k with idleCyc := 0 }

theorem setRunning_eq (s : State) (c t : Nat) :
    setRunning s c t = modCore (setSlotState (setCluster s (c / 8) (rampedCluster (clusterOf s (c / 8)))) c t 2) c fun x => { x with switch := none, last := t } := rfl

theorem frame_setRunning (s : State) (c t : Nat) : Frame [rTASK_STAT c t] s (setRunning s c t) := by
  rw [setRunning_eq]
  exact ((frame_setCluster _ s _ _).trans (frame_setF _ (List.mem_singleton.2 rfl) 0 3 2)).trans (frame_modCore _ _ c _)

theorem otherCores_setRunning (s : State) (c t : Nat) : OtherCores c s (setRunning s c t) := fun k hk => by
  rw [setRunning_eq, coreOf_modCore_other _ _ hk]
  exact coreOf_congr (by simp [setSlotState]) k

theorem coreOf_setRunning (s : State) (c t : Nat) : coreOf (setRunning s c t) c = { coreOf s c with switch := none, last := t } := by
  rw [setRunning_eq, coreOf_modCore_same, coreOf_congr (s := s) (by simp [setSlotState])]

theorem slotState_setRunning (s : State) (c t : Nat) : slotState (setRunning s c t) c t = 2 := by
  rw [setRunning_eq, slotState, getF_congr (modCore_regs _ c _), ← slotState, slotState_setSlotState_same]

theorem slotOf_setRunning (s : State) (c t u : Nat) : slotOf (setRunning s c t) c u = slotOf s c u := by
  rw [slotOf, slotOf, coreOf_setRunning]

/-- A slot without a reservation completes no wait (R137). -/
theorem resume_of_unreserved {c t : Nat} (hr : (slotOf s c t).resv = none) (hm : (slotOf s c t).mres = none) : resume s c t = s := by
  rw [resume, hr, hm]
  rfl

/-- A slot that holds no reservation starts to run, and issues nothing yet. -/
theorem resume_setRunning {c t : Nat} (hr : (slotOf s c t).resv = none) (hm : (slotOf s c t).mres = none) :
    resume (setRunning s c t) c t = setRunning s c t :=
  resume_of_unreserved (by rw [slotOf_setRunning, hr]) (by rw [slotOf_setRunning, hm])

-- the three rows ------------------------------------------------------------------------------------------------------------------------

theorem quiesceDone_of_quiet {c : Nat} {w : Switch} (hw : (coreOf s c).switch = some w) (hq : w.quiet = false) (he : engineQuiet s c w.out = true) :
    Bystands (modCore s c fun k => { k with switch := some { w with quiet := true, left := 6 } }) (quiesceDone s c) := by
  simp only [quiesceDone, hw, hq, he, Bool.not_true, Bool.or_self, Bool.false_eq_true, if_false]
  exact (bystands_freeHeld _ c _).trans (bystands_setReason _ c _ _)

theorem switchDone_of_ready {c : Nat} {w : Switch} (hw : (coreOf s c).switch = some w) (hq : w.quiet = true) (hl : w.left = 0)
    (hst : slotState s c w.inn = 1) (hr : (slotOf s c w.inn).resv = none) (hm : (slotOf s c w.inn).mres = none) :
    switchDone s c = setRunning s c w.inn := by
  simp only [switchDone, hw, hq, hl, hst, ne_eq, not_true, Bool.true_eq_false, or_self, if_false, if_true]
  exact resume_setRunning hr hm

/-- A core without a running slot takes the next READY one, after the held reason of the slot that ran last is freed. -/
theorem idleSelect_of_ready {c u : Nat} (hrun : coreRuns s c = true) (hsw : (coreOf s c).switch = none) (hno : runningSlot s c = none)
    (hu : [((coreOf s c).last + 1) % 4, ((coreOf s c).last + 2) % 4, ((coreOf s c).last + 3) % 4, (coreOf s c).last].find? (fun u => slotState s c u == 1) = some u)
    (hq : engineQuiet s c (coreOf s c).last = true) (hr : (slotOf s c u).resv = none) (hm : (slotOf s c u).mres = none) :
    ∃ s1, Bystands s s1 ∧ idleSelect s c = setRunning s1 c u := by
  simp only [idleSelect, hrun, hsw, hno, hu, hq, Bool.true_eq_false, Option.isSome_none, Bool.false_eq_true, or_self, if_false, if_true]
  have key (s1 : State) (h : Bystands s s1) : ∃ s2, Bystands s s2 ∧ resume (setRunning s1 c u) c u = setRunning s2 c u := by
    have e : slotOf s1 c u = slotOf s c u := by rw [slotOf, slotOf, coreOf_congr h.2]
    exact ⟨s1, h, resume_setRunning (by rw [e, hr]) (by rw [e, hm])⟩
  split
  · exact key _ ((bystands_freeHeld s c _).trans (bystands_setReason _ c _ 0))
  · exact key s (bystands_refl s)

/-- Settles O25: a quiescence writes only the switch and the reason of its floe, and a slot that is chosen only its own state and its core's. -/
theorem switchesMakeReadySlotsRun : Obligations.SwitchesMakeReadySlotsRun := by
  intro core s
  refine ⟨fun w hw hq he => ?_, fun w hw hq hl hst hr hm => ?_, fun u hrun hsw hno hu hq hr hm => ?_⟩
  · obtain ⟨hmem, hcores⟩ := quiesceDone_of_quiet hw hq he
    refine ⟨_, rfl, fun a => (hmem a).trans (rdByte_congr (modCore_mem s core _) a), fun k hk => ?_, ?_⟩
    · exact (coreOf_congr hcores k).trans (coreOf_modCore_other s _ hk)
    · rw [coreOf_congr hcores, coreOf_modCore_same]
  · refine ⟨_, congrArg Host.Outcome.next (switchDone_of_ready hw hq hl hst hr hm), frame_setRunning s core w.inn, otherCores_setRunning s core w.inn,
      slotState_setRunning s core w.inn, ?_, ?_⟩ <;> rw [coreOf_setRunning]
  · obtain ⟨s1, ⟨hmem, hcores⟩, he⟩ := idleSelect_of_ready hrun hsw hno hu hq hr hm
    refine ⟨_, congrArg Host.Outcome.next he, fun a => ((frame_setRunning s1 core u).1 a).trans (hmem a),
      fun k hk => (otherCores_setRunning s1 core u k hk).trans (coreOf_congr hcores k), slotState_setRunning s1 core u, ?_⟩
    rw [coreOf_setRunning]

end Sys2Proof.Safety
end

section
/-! PROOF. Tile rows and pass ends of the matrix engine (O19, O21): rows that fill the shadow buffer (R67), the check column and the verdicts of checks (R78 to R80). -/

namespace Sys2Proof.Safety

open Sys2Proof.Machine

variable {s s' t : State} {c : Nat}

/-- A core that runs takes its engine's event. -/
theorem onCore_of_runs (h : coreRuns s c = true) (f : State → State) : onCore s c f = f s := if_pos h

theorem otherCores_modCore (s : State) (c : Nat) (g : CoreSt → CoreSt) : OtherCores c s (modCore s c g) := fun _ hk => coreOf_modCore_other s g hk
theorem OtherCores.trans (h : OtherCores c s s') (h' : OtherCores c s' t) : OtherCores c s t := fun k hk => (h' k hk).trans (h k hk)

-- tile rows (R67) --------------------------------------------------------------------------------------------------------------------

/-- The tile a row joins is the one that the shadow buffer holds, or a new one. -/
theorem tileTarget_of {k : CoreSt} {x : TileXfer} {tl : Tile}
    (h : (k.shadow = none ∧ x.row = 0 ∧ tl = ⟨x.slot, 0, x.fmt, x.split, x.mt, [], false⟩) ∨
      (k.shadow = some tl ∧ tl.ready = false ∧ tl.rows.length ≤ tl.mt)) : tileTarget k x = some tl := by
  rcases h with ⟨hn, hrow, rfl⟩ | ⟨hs, hready, hlen⟩
  · rw [tileTarget, hn]
    exact if_pos hrow
  · rw [tileTarget, hs]
    simp [hready, hlen]

/-- The queue of tile transfers after a row of the first one, whose next row is due at d. -/
def tileQueue (x : TileXfer) (r : List TileXfer) (d : Nat) : List TileXfer :=
  if decide (x.row = x.mt) && decide (x.tile = x.ntm1) then (match r with | y :: r => { y with due := max y.due d } :: r | [] => [])
  else (if decide (x.row = x.mt) then { x with due := d, row := 0, tile := x.tile + 1 } else { x with due := d, row := x.row + 1 }) :: r

/-- The cycles that a row takes (R67). -/
def rowCycles (x : TileXfer) : Nat := if fmtWidth x.fmt = 32 then 2 else 1

/-- A core after a row of its first tile transfer. -/
def rowLoaded (k : CoreSt) (x : TileXfer) (r : List TileXfer) (tl : Tile) (codes scales : List Nat) : CoreSt :=
  { k with shadow := some { tl with rows := tl.rows ++ [⟨codes, scales⟩], due := x.due + rowCycles x + 1 }, tileq := tileQueue x r (x.due + rowCycles x),
           paced := mset (fun _ => 0) (mset (fun _ => 0) k.paced 0 (rowCycles x)) 5 (rowCycles x + 1) }

theorem tileRowLoad_of_ready {x : TileXfer} {r : List TileXfer} {tl : Tile} {codes scales : List Nat} (hq : (coreOf s c).tileq = x :: r)
    (hrun : mayRun s c x.slot x.due = true) (h0 : pathFree s c 0 = true) (h3 : pathFree s c 3 = true) (ht : tileTarget (coreOf s c) x = some tl)
    (hc : gatherLoads ((List.range 128).map fun q => loadElem s c x ((inReg x 2 + x.row) % 2 ^ 32) (128 * (x.p0 + x.tile) + q)) = .ok codes)
    (hs : (if fmtIsMx x.fmt then gatherLoads ((List.range 4).map fun b => loadScale s c x ((inReg x 2 + x.row) % 2 ^ 32) (128 * (x.p0 + x.tile) + 32 * b))
      else .ok []) = .ok scales) :
    tileRowLoad s c = modCore s c fun k => rowLoaded k x r tl codes scales := by
  have hcan : tileCan s c = true := by simp [tileCan, hq, ht, hrun]
  simp only [tileRowLoad, hq, hcan, h0, h3, Bool.and_self, if_true, ht, hc, hs, hrun]
  rfl

theorem tileQueue_last {x : TileXfer} (r : List TileXfer) {d : Nat} (h : x.row = x.mt) (h' : x.tile = x.ntm1) :
    (tileQueue x r d).map (·.slot) = r.map (·.slot) ∧ ∀ y ∈ (tileQueue x r d).head?, d ≤ y.due := by
  simp only [tileQueue, h, h', decide_true, Bool.and_self, if_true]
  cases r with
  | nil => simp
  | cons y r => simp

theorem tileQueue_tile {x : TileXfer} (r : List TileXfer) {d : Nat} (h : x.row = x.mt) (h' : x.tile ≠ x.ntm1) :
    tileQueue x r d = { x with due := d, row := 0, tile := x.tile + 1 } :: r := by
  simp [tileQueue, h, h']

theorem tileQueue_row {x : TileXfer} (r : List TileXfer) {d : Nat} (h : x.row ≠ x.mt) : tileQueue x r d = { x with due := d, row := x.row + 1 } :: r := by
  simp [tileQueue, h]

/-- The shadow tile whose last row is in becomes ready (R67). -/
def tileMadeReady (s : State) (c : Nat) (k : CoreSt) : CoreSt :=
  { k with shadow := k.shadow.map fun tl => if tl.mt < tl.rows.length && (mayRun s c tl.slot tl.due || tileCatch s c tl.slot) && pathFree s c 5 then { tl with ready := true } else tl }

theorem tileReady_eq (s : State) (c : Nat) : tileReady s c = modCore s c (tileMadeReady s c) := rfl

/-- Settles O19: a row joins the shadow tile and moves its transfer on; a whole tile becomes ready. Both write the core's own state alone. -/
theorem tileRowsFillTheShadow : Obligations.TileRowsFillTheShadow := by
  intro core s hrun
  refine ⟨fun x r tl codes scales hq hmay h0 h3 htl hc hs => ?_, fun tl htl hlen hmay h5 => ?_⟩
  · have he := tileRowLoad_of_ready hq hmay h0 h3 (tileTarget_of htl) hc hs
    refine ⟨_, congrArg Host.Outcome.next ((onCore_of_runs hrun _).trans he), frame_modCore [] s core _, otherCores_modCore s core _, ?_, ?_⟩
    · rw [coreOf_modCore_same]
      simp only [rowLoaded, rowCycles]
      split <;> rfl
    · rintro d rfl
      rw [coreOf_modCore_same]
      exact ⟨fun h h' => tileQueue_last r h h', fun h h' => tileQueue_tile r h h', fun h => tileQueue_row r h⟩
  · refine ⟨_, congrArg Host.Outcome.next ((onCore_of_runs hrun _).trans (tileReady_eq s core)), frame_modCore [] s core _, otherCores_modCore s core _, ?_, ?_⟩
    · rw [coreOf_modCore_same, tileMadeReady, htl]
      simp [hlen, hmay, h5]
    · rw [coreOf_modCore_same]
      rfl

-- events of whatever slot ---------------------------------------------------------------------------------------------------------------

/-- What an event of a core's slot leaves, whatever its slot is: memory, and every register that no event writes and no slot number reaches. -/
structure EventKeeps (c : Nat) (s s' : State) : Prop where
  mem : SameMem s s'
  regs : ∀ off, Spared off → (∀ u, off ≠ rTASK_STAT c u) → getR s' off = getR s off
  core : ∀ k, ∃ sl ri ow, coreOf s' k = { coreOf s k with slots := sl, rings := ri, owed := ow }

theorem EventKeeps.trans (h : EventKeeps c s s') (h' : EventKeeps c s' t) : EventKeeps c s t := by
  refine ⟨fun a => (h'.mem a).trans (h.mem a), fun off ho hu => (h'.regs off ho hu).trans (h.regs off ho hu), fun k => ?_⟩
  obtain ⟨sl, ri, ow, e⟩ := h.core k
  obtain ⟨sl', ri', ow', e'⟩ := h'.core k
  exact ⟨sl', ri', ow', by rw [e', e]⟩
theorem EventKeeps.refl (c : Nat) (s : State) : EventKeeps c s s := ⟨fun _ => rfl, fun _ _ _ => rfl, fun _ => ⟨_, _, _, rfl⟩⟩
theorem Contained.eventKeeps (h : Contained s s') : EventKeeps c s s' := ⟨h.sameMem, fun off ho _ => h.spared off ho, h.core⟩
theorem EventKeeps.getF_eq (h : EventKeeps c s s') {off : Nat} (ho : Spared off) (hu : ∀ u, off ≠ rTASK_STAT c u) (lo w : Nat) :
    getF s' off lo w = getF s off lo w := by rw [getF, getF, h.regs off ho hu]

theorem eventKeeps_faultSlot (s : State) (c u : Nat) : EventKeeps c s (faultSlot s c u) := by
  unfold faultSlot
  split
  · have h1 : EventKeeps c s (setSlotState s c u 5) := ⟨fun _ => rfl, fun off _ hu => getR_setF_other s 0 3 5 (hu u), fun _ => ⟨_, _, _, rfl⟩⟩
    have h2 := contained_modSlot (setSlotState s c u 5) c u (g := fun x => { x with unrel := true, wait := none }) fun _ => rfl
    exact h1.trans ((h2.trans (contained_dropAllResv _ c u)).trans (contained_nullRepliesOf _ c u)).eventKeeps
  · exact EventKeeps.refl c s

theorem eventKeeps_stopFloeOf (s : State) {c : Nat} (hc : c < 256) (u : Nat) : EventKeeps c s (stopFloeOf s c u) := by
  unfold stopFloeOf
  split
  · split
    next f hf => exact (contained_stopFloe s (by omega) (floeFor_lt hf)).eventKeeps
    next => exact eventKeeps_faultSlot s c u
  · exact EventKeeps.refl c s

theorem eventKeeps_contain (s : State) (d : Nat) {tier c u : Nat} (hc : c < 256) {e : Ev} (ho : e.owner = some (c, u)) (htier : tier < 5) :
    EventKeeps c s (contain s d tier e) := by
  unfold contain
  rw [if_neg (by omega), ho]
  dsimp only
  split
  · exact EventKeeps.refl c s
  · split
    · exact eventKeeps_stopFloeOf s hc u
    · split
      · exact (contained_stopCore s hc).eventKeeps
      · split
        · exact (contained_stopCluster s (by omega)).eventKeeps
        · exact EventKeeps.refl c s

theorem eventKeeps_raiseCore (s : State) {c cls home : Nat} (hc : c < 256) (hcls : cls < 256) (hhome : home < 4) (u sev addr detail aux : Nat) :
    EventKeeps c s (raiseCore s c u cls sev home addr detail aux) := by
  unfold raiseCore
  rw [raiseEv_eq]
  exact ((noted_logged s (by omega) hcls).contained.eventKeeps.trans (eventKeeps_contain _ _ hc rfl (evTier_lt hhome))).trans
    (noted_reportEvent _ (by omega) _).contained.eventKeeps

theorem taskStat_ne_low (c : Nat) {o : Nat} (h : o < 0x200) (u : Nat) : coreBase c + o ≠ rTASK_STAT c u := by unfold rTASK_STAT; omega

/-- The registers of a core below its slots' are none that an event writes. -/
theorem spared_low (c : Nat) {o : Nat} (h : o < 0x200) : Spared (coreBase c + o) :=
  spared_of_core (by unfold coreBase; omega) (.inl (by unfold coreBase; omega))

theorem EventKeeps.low (h : EventKeeps c s s') {o : Nat} (ho : o < 0x200) (lo w : Nat) : getF s' (coreBase c + o) lo w = getF s (coreBase c + o) lo w :=
  h.getF_eq (spared_low c ho) (taskStat_ne_low c ho) lo w

-- checks (R78 to R80) -----------------------------------------------------------------------------------------------------------------------

theorem satF_field (s : State) (off lo w n : Nat) (h : lo + w ≤ 32) : getF (satF s off lo w n) off lo w = min (2 ^ w - 1) (getF s off lo w + n) := by
  rw [satF, getF_setF_same _ _ _ _ _ h, satAdd, Nat.mod_eq_of_lt]
  have := Nat.one_le_two_pow (n := w)
  exact lt_of_le_of_lt (Nat.min_le_left _ _) (by omega)

/-- The first operation of the queue that waits for a check is the first of the queue where that one does. -/
theorem abftCheck_of_head {o : MxOp} {q : List MxOp} {k : Check} {ks : List Check} (hq : (coreOf s c).mxq = o :: q) (hk : o.checks = k :: ks)
    (hmay : mayRun s c o.slot k.due = true) :
    abftCheck s c = (match checkPass o k with
      | none => satF (setOp s c 0 { o with checks := ks }) (rMX_ABFT_CNT c) 16 16 1
      | some true => setOp s c 0 { o with checks := ks }
      | some false => checkFail (setOp s c 0 { o with checks := ks }) c 0 { o with checks := ks } k) := by
  have hfind : (List.range (o :: q).length).find? (fun i => match (o :: q)[i]? with | some o => !o.checks.isEmpty | none => false) = some 0 := by
    rw [List.length_cons, List.range_succ_eq_map, List.find?_cons]
    simp [hk]
  unfold abftCheck
  rw [hq]
  dsimp only
  generalize hg : List.find? _ _ = r
  obtain rfl : r = some 0 := hg.symm.trans hfind
  simp only [List.getElem?_cons_zero, hk, hmay, Bool.true_eq_false, if_false] <;> rfl

theorem mxq_setOp (s : State) (c i : Nat) (o : MxOp) : (coreOf (setOp s c i o) c).mxq = (coreOf s c).mxq.set i o := by rw [setOp, coreOf_modCore_same]
theorem mxq_setOp_head {o : MxOp} {q : List MxOp} (hq : (coreOf s c).mxq = o :: q) (o' : MxOp) : (coreOf (setOp s c 0 o') c).mxq = o' :: q := by
  rw [mxq_setOp, hq, List.set_cons_zero]

/-- The record of a failing check: the first stays until it is read (R80). -/
def checkNoted (s : State) (c stat loc : Nat) (opseq : BitVec 32) : State :=
  if getB s (rMX_ABFT_STAT c) 0 then s
  else setR (setR (setR s (rMX_ABFT_STAT c) (BitVec.ofNat 32 stat)) (rMX_ABFT_LOC c) (BitVec.ofNat 32 loc)) (rMX_ABFT_OPSEQ c) opseq

theorem checkNoted_mem (s : State) (c stat loc : Nat) (opseq : BitVec 32) : SameMem s (checkNoted s c stat loc opseq) := by
  unfold checkNoted
  split <;> exact fun _ => rfl

theorem checkNoted_count (s : State) (c stat loc : Nat) (opseq : BitVec 32) : getF (checkNoted s c stat loc opseq) (rMX_ABFT_CNT c) 0 16 = getF s (rMX_ABFT_CNT c) 0 16 := by
  unfold checkNoted
  split
  · rfl
  · rw [getF, getR_setR_other _ _ (by unfold rMX_ABFT_CNT rMX_ABFT_OPSEQ; omega), getR_setR_other _ _ (by unfold rMX_ABFT_CNT rMX_ABFT_LOC; omega),
      getR_setR_other _ _ (by unfold rMX_ABFT_CNT rMX_ABFT_STAT; omega), ← getF]

theorem checkNoted_valid (s : State) (c loc : Nat) (opseq : BitVec 32) {stat : Nat} (h : stat % 2 = 1) : getF (checkNoted s c stat loc opseq) (rMX_ABFT_STAT c) 0 1 = 1 := by
  unfold checkNoted
  split
  next hb => exact (Nat.mod_two_eq_zero_or_one _).resolve_left fun h0 => by simp_all [getB, getF, bits_eq_div_mod]
  next =>
    rw [getF, getR_setR_other _ _ (by unfold rMX_ABFT_STAT rMX_ABFT_OPSEQ; omega), getR_setR_other _ _ (by unfold rMX_ABFT_STAT rMX_ABFT_LOC; omega),
      getR_setR_same, bits_eq_div_mod, BitVec.toNat_ofNat]
    omega

/-- The operation of a failing check: ACTION 2 poisons it from its next column on (R81). -/
def failMarked (o : MxOp) : MxOp := if opAct o = 2 ∧ o.poison = false then { o with poison := true, left := o.emit } else o

/-- The operation whose check failed, in its place of the queue, and the count (R80, R81). -/
def checkCounted (s : State) (c i : Nat) (o : MxOp) : State := setOp (satF s (rMX_ABFT_CNT c) 0 16 1) c i (failMarked o)

/-- The words of the record and of the event (R80, Table 19-2). -/
def checkStat (o : MxOp) (k : Check) : Nat := 1 + 2 * k.kind + (if opAct o = 2 then 8 else 0) + 256 * k.row + 65536 * k.col
def checkLoc (o : MxOp) (k : Check) : Nat := k.pass + 65536 * (if opAct o = 2 then min (failMarked o).left 0x7FF else 0)

theorem checkStat_odd (o : MxOp) (k : Check) : checkStat o k % 2 = 1 := by unfold checkStat; split <;> omega

/-- A failing check with its record and its event. -/
def checkRaised (s : State) (c i : Nat) (o : MxOp) (k : Check) : State :=
  raiseCore (checkNoted (checkCounted s c i o) c (checkStat o k) (checkLoc o k) o.opseq) c o.slot cABFT (if opAct o = 1 then 0 else 2) (opAct o - 1) 0
    (checkStat o k + 2 ^ 32 * checkLoc o k) o.opseq.toNat

theorem checkFail_eq (s : State) (c i : Nat) (o : MxOp) (k : Check) :
    checkFail s c i o k = if opAct o = 3 then abandonMxe (checkRaised s c i o k) c o.slot else checkRaised s c i o k := rfl

/-- Memory and the core's registers below its slots' stand. -/
structure CheckKeeps (s s' : State) (c : Nat) : Prop where
  mem : SameMem s s'
  low : ∀ o, o < 0x200 → ∀ lo w, getF s' (coreBase c + o) lo w = getF s (coreBase c + o) lo w

theorem EventKeeps.checkKeeps (h : EventKeeps c s s') : CheckKeeps s s' c := ⟨h.mem, fun _ ho lo w => h.low ho lo w⟩
theorem checkKeeps_abandonMxe (h : CheckKeeps s s' c) (u : Nat) : CheckKeeps s (abandonMxe s' c u) c :=
  ⟨h.mem, fun o ho lo w => (getF_congr (t := abandonMxe s' c u) (modCore_regs s' c _) _ lo w).trans (h.low o ho lo w)⟩

/-- What a failing check leaves, whatever its event stops: a count and a record. -/
theorem checkFail_keeps (s : State) {c : Nat} (hc : c < 256) (i : Nat) (o : MxOp) (k : Check) :
    CheckKeeps (checkNoted (checkCounted s c i o) c (checkStat o k) (checkLoc o k) o.opseq) (checkFail s c i o k) c := by
  have hact : opAct o < 4 := bits_lt _ _ 2
  have hraise : EventKeeps c (checkNoted (checkCounted s c i o) c (checkStat o k) (checkLoc o k) o.opseq) (checkRaised s c i o k) :=
    eventKeeps_raiseCore _ hc (by decide) (by omega) o.slot _ _ _ _
  rw [checkFail_eq]
  split
  · exact checkKeeps_abandonMxe hraise.checkKeeps o.slot
  · exact hraise.checkKeeps

/-- Settles O21: a check that passes leaves its place, one that is skipped its count, and one that fails its count and its record. -/
theorem checksColumnAndVerdicts : Obligations.ChecksColumnAndVerdicts := by
  intro core s o q hrun hq
  refine ⟨fun tl he htl hact hcol hmay hfree => ?_, fun k ks hk hmay hp => ?_, fun k ks hk hmay hp => ?_, fun k ks hk hmay hp => ?_⟩
  · have hent : entering (coreOf s core).mxq = some (0, o) := by rw [hq]; simp [entering.eq_def, he]
    have heq : checkColumnInject s core = occupy (setOp s core 0 (passEnd { o with checks := o.checks ++ columnChecks o tl })) core 1 1 := by
      simp only [checkColumnInject, hent, htl, hmay, hfree]
      exact if_pos ⟨hact, hcol, trivial, trivial⟩
    refine ⟨_, congrArg Host.Outcome.next ((onCore_of_runs hrun _).trans heq), (frame_modCore [] s core _).trans (frame_modCore [] _ core _),
      (otherCores_modCore s core _).trans (otherCores_modCore _ core _), ?_⟩
    rw [occupy, coreOf_modCore_same]
    exact mxq_setOp_head hq _
  · have heq := abftCheck_of_head hq hk hmay
    rw [hp] at heq
    exact ⟨_, congrArg Host.Outcome.next ((onCore_of_runs hrun _).trans heq), frame_modCore [] s core _, otherCores_modCore s core _, mxq_setOp_head hq _⟩
  · have heq := abftCheck_of_head hq hk hmay
    rw [hp] at heq
    refine ⟨_, congrArg Host.Outcome.next ((onCore_of_runs hrun _).trans heq),
      (frame_modCore _ s core _).trans (frame_setF _ (List.mem_singleton.2 rfl) _ _ _), ?_, ?_⟩
    · rw [satF_field _ _ _ _ _ (by decide)]
      rfl
    · exact getF_setF_otherField _ _ 16 16 _ 0 16 (by decide) (.inl (by decide))
  · have heq := abftCheck_of_head hq hk hmay
    rw [hp] at heq
    have hkeep := checkFail_keeps (setOp s core 0 { o with checks := ks }) core.isLt 0 { o with checks := ks } k
    refine ⟨_, congrArg Host.Outcome.next ((onCore_of_runs hrun _).trans heq), fun a => ?_, ?_, ?_⟩
    · exact (hkeep.mem a).trans (checkNoted_mem _ core _ _ _ a)
    · rw [rMX_ABFT_CNT, hkeep.low _ (by decide) 0 16, ← rMX_ABFT_CNT, checkNoted_count]
      exact satF_field (setOp s core 0 { o with checks := ks }) _ 0 16 1 (by decide)
    · rw [getB, rMX_ABFT_STAT, hkeep.low _ (by decide) 0 1, ← rMX_ABFT_STAT, checkNoted_valid _ core _ _ (checkStat_odd _ k)]
      rfl

end Sys2Proof.Safety
end

section
/-! PROOF. Weight columns (O20): the accumulator words of a column take its exact pass sums (R54, R59 to R61). -/

namespace Sys2Proof.Safety

open Sys2Proof.Machine

variable {s s' t : State} {c : Nat}

/-- An accumulator word of a core (R68). -/
def accAt (s : State) (c w : Nat) : BitVec 32 := mget (fun _ => (0 : BitVec 32)) (coreOf s c).acc w

/-- What a word of row i holds before a column accumulates on it (R55). -/
def oldSum (s : State) (c : Nat) (o : MxOp) (i : Nat) : Nat :=
  if o.pass = 0 ∧ opCont o = false then (if opFloat o then negZero32 else 0) else (accAt s c (accWord (opSplit o) i o.col)).toNat

/-- One row's pass sum is added to its word. -/
def accRow (c : Nat) (o : MxOp) (col : List FV) (st : State × Nat) (ir : Nat × List FV) : State × Nat :=
  let r := accumulate o (oldSum st.1 c o ir.1) (dotFV ir.2 col) (anyNan col || anyNan ir.2)
  (modCore (parClear st.1 c 0 (accWord (opSplit o) ir.1 o.col)) c fun k => { k with acc := mset (fun _ => 0) k.acc (accWord (opSplit o) ir.1 o.col) (BitVec.ofNat 32 r.code) },
    st.2 ||| r.fl)

theorem accColumn_eq (s : State) (c : Nat) (o : MxOp) (col : List FV) (rows : List (List FV)) :
    accColumn s c o col rows = ((List.range (opMt o + 1)).zip rows).foldl (accRow c o col) (s, 0) := rfl

/-- What accumulation changes: accumulator words of the core and their parity. -/
structure Accumulates (c : Nat) (s s' : State) : Prop where
  frame : Frame [] s s'
  others : OtherCores c s s'
  core : ∃ a p, coreOf s' c = { coreOf s c with acc := a, parErr := p }

theorem Accumulates.refl (c : Nat) (s : State) : Accumulates c s s := ⟨Frame.refl _ s, fun _ _ => rfl, _, _, rfl⟩
theorem Accumulates.trans (h : Accumulates c s s') (h' : Accumulates c s' t) : Accumulates c s t := by
  obtain ⟨a, p, e⟩ := h.core
  obtain ⟨a', p', e'⟩ := h'.core
  exact ⟨h.frame.trans h'.frame, h.others.trans h'.others, a', p', by rw [e', e]⟩

theorem accumulates_parClear (s : State) (c arr i : Nat) : Accumulates c s (parClear s c arr i) := by
  unfold parClear
  split
  · exact ⟨frame_modCore [] s c _, otherCores_modCore s c _, _, _, coreOf_modCore_same s c _⟩
  · exact Accumulates.refl c s

theorem accAt_parClear (s : State) (c arr i w : Nat) : accAt (parClear s c arr i) c w = accAt s c w := by
  unfold parClear
  split
  · rw [accAt, coreOf_modCore_same, accAt]
  · rfl

theorem accumulates_accRow (c : Nat) (o : MxOp) (col : List FV) (st : State × Nat) (ir : Nat × List FV) : Accumulates c st.1 (accRow c o col st ir).1 :=
  (accumulates_parClear st.1 c 0 _).trans ⟨frame_modCore [] _ c _, otherCores_modCore _ c _, _, _, coreOf_modCore_same _ c _⟩

theorem accAt_accRow_same (c : Nat) (o : MxOp) (col : List FV) (st : State × Nat) (ir : Nat × List FV) :
    accAt (accRow c o col st ir).1 c (accWord (opSplit o) ir.1 o.col) =
      BitVec.ofNat 32 (accumulate o (oldSum st.1 c o ir.1) (dotFV ir.2 col) (anyNan col || anyNan ir.2)).code := by
  unfold accRow
  rw [accAt, coreOf_modCore_same]
  exact mget_mset_same _ _ _ _

theorem accAt_accRow_other (c : Nat) (o : MxOp) (col : List FV) (st : State × Nat) (ir : Nat × List FV) {w : Nat} (h : w ≠ accWord (opSplit o) ir.1 o.col) :
    accAt (accRow c o col st ir).1 c w = accAt st.1 c w := by
  rw [← accAt_parClear st.1 c 0 (accWord (opSplit o) ir.1 o.col)]
  unfold accRow
  rw [accAt, coreOf_modCore_same]
  exact mget_mset_other _ _ _ h

theorem accWord_inj {sp : Bool} {i j col : Nat} (h : accWord sp i col = accWord sp j col) : i = j := by
  unfold accWord at h
  split at h <;> omega

/-- Rows of their own words, accumulated one after another: each word takes its sum, and the words of other rows stand. -/
theorem accRows_facts (c : Nat) (o : MxOp) (col : List FV) : ∀ (l : List (Nat × List FV)) (st : State × Nat), (l.map Prod.fst).Nodup →
    Accumulates c st.1 (l.foldl (accRow c o col) st).1 ∧
    (∀ i, i ∉ l.map Prod.fst → accAt (l.foldl (accRow c o col) st).1 c (accWord (opSplit o) i o.col) = accAt st.1 c (accWord (opSplit o) i o.col)) ∧
    ∀ ir ∈ l, accAt (l.foldl (accRow c o col) st).1 c (accWord (opSplit o) ir.1 o.col) =
      BitVec.ofNat 32 (accumulate o (oldSum st.1 c o ir.1) (dotFV ir.2 col) (anyNan col || anyNan ir.2)).code := by
  intro l
  induction l with
  | nil => exact fun st _ => ⟨Accumulates.refl c st.1, fun _ _ => rfl, by simp⟩
  | cons x l ih =>
    intro st hn
    rw [List.map_cons, List.nodup_cons] at hn
    obtain ⟨hx, hn⟩ := hn
    obtain ⟨hacc, hother, hsame⟩ := ih (accRow c o col st x) hn
    rw [List.foldl_cons]
    refine ⟨(accumulates_accRow c o col st x).trans hacc, fun i hi => ?_, fun ir hir => ?_⟩
    · rw [List.map_cons, List.mem_cons, not_or] at hi
      rw [hother i hi.2]
      exact accAt_accRow_other c o col st x fun e => hi.1 (accWord_inj e)
    · rw [List.mem_cons] at hir
      rcases hir with rfl | hir
      · rw [hother _ hx]
        exact accAt_accRow_same c o col st ir
      · have hne : ir.1 ≠ x.1 := fun e => hx (e ▸ List.mem_map_of_mem hir)
        have hold : oldSum (accRow c o col st x).1 c o ir.1 = oldSum st.1 c o ir.1 := by
          rw [oldSum, oldSum, accAt_accRow_other c o col st x fun e => hne (accWord_inj e)]
        rw [hsame ir hir, hold]

/-- A column of a tile without a parity error, with checks off. -/
theorem enterColumn_facts (s : State) (c : Nat) {o : MxOp} {tl : Tile} {col : List FV} (hact : opAct o = 0)
    (hpar : (decide (o.pass ≠ 0) || opCont o) = true → colParity s c o o.col = false) :
    ∃ s1 fl, Accumulates c s s1 ∧ enterColumn s c o tl col = (setFlags s1 c fl, { o with col := o.col + 1 }) ∧
      ∀ i, i ≤ opMt o → accAt s1 c (accWord (opSplit o) i o.col) =
        BitVec.ofNat 32 (accumulate o (oldSum s c o i) (dotFV (rowValues o tl i) col) (anyNan col || anyNan (rowValues o tl i))).code := by
  have hbad : ((decide (o.pass ≠ 0) || opCont o) && colParity s c o o.col) = false := by
    rw [Bool.and_eq_false_iff]
    rcases Bool.eq_false_or_eq_true (decide (o.pass ≠ 0) || opCont o) with h | h
    · exact .inr (hpar h)
    · exact .inl h
  have hnodup : (((List.range (opMt o + 1)).map fun i => (i, rowValues o tl i)).map Prod.fst).Nodup := by
    rw [List.map_map]
    exact (List.map_id (List.range (opMt o + 1))).symm ▸ List.nodup_range
  obtain ⟨hacc, -, hsame⟩ := accRows_facts c o col _ (s, 0) hnodup
  refine ⟨_, (((List.range (opMt o + 1)).map fun i => (i, rowValues o tl i)).foldl (accRow c o col) (s, 0)).2, hacc, ?_, fun i hi => ?_⟩
  · simp only [enterColumn, hbad, Bool.false_eq_true, if_false, hact, if_true, accColumn_eq, ← List.map_prod_left_eq_zip]
  · exact hsame (i, rowValues o tl i) (List.mem_map_of_mem (List.mem_range.2 (by omega)))

/-- A core whose feed buffer has given one column. -/
def columnTaken (s : State) (c : Nat) (o : MxOp) : State :=
  modCore s c fun x => { x with elemBuf := x.elemBuf.drop (colBytes o), elemMark := runDrop (colBytes o) x.elemMark }

/-- The values of the column that the feed buffer holds. -/
def nextColumn (s : State) (c : Nat) (o : MxOp) : List FV :=
  colValues o ((coreOf s c).elemBuf.take (colBytes o)) ((o.passScales.drop (colScales o * o.col)).take (colScales o))

theorem enterCols_one {i : Nat} {o : MxOp} {tl : Tile} (hcol : o.col < opNt o) (hbuf : colBytes o ≤ (coreOf s c).elemBuf.length) :
    enterCols s c i o tl 1 = setOp (enterColumn (columnTaken s c o) c o tl (nextColumn s c o)).1 c i (enterColumn (columnTaken s c o) c o tl (nextColumn s c o)).2 := by
  unfold enterCols
  exact if_pos ⟨hcol, hbuf⟩

/-- A column inside a pass, one a cycle: its cells are occupied for its period. -/
theorem weightColumnEnter_inside {o : MxOp} {q : List MxOp} {tl : Tile} (hq : (coreOf s c).mxq = o :: q) (he : o.entered = false) (htl : (coreOf s c).tile = some tl)
    (hg : opGroup o = 1) (h0 : 0 < o.col) (hcol : o.col + 1 < opNt o) (hmay : mayRun s c o.slot (colDue o o.pass o.col) = true) (hpath : pathFree s c 1 = true)
    (hfree : accFree (o :: q) 0 o = true) (hbuf : colBytes o ≤ (coreOf s c).elemBuf.length) :
    weightColumnEnter s c = occupy (passClose (enterCols s c 0 o tl 1) c 0) c 1 (opPeriod o) := by
  have hent : entering (o :: q) = some (0, o) := by simp [entering.eq_def, he]
  have hgo : ¬ (accFree (o :: q) 0 o = false ∨ (coreOf s c).elemBuf.length < colBytes o ∨ o.col = opNt o ∨ mayRun s c o.slot (colDue o o.pass o.col) = false ∨
      pathFree s c 1 = false) := by
    rw [hfree, hmay, hpath]
    simp only [Bool.true_eq_false, false_or, or_false]
    omega
  simp only [weightColumnEnter, hq, hent, if_neg hgo, if_neg (Nat.pos_iff_ne_zero.1 h0), htl, hg]

/-- A pass whose last column has not entered goes on. -/
theorem passClose_of_inside {o : MxOp} {q : List MxOp} (hq : (coreOf s c).mxq = o :: q) (hcol : o.col ≠ opNt o) : passClose s c 0 = s := by
  simp [passClose, hq, hcol]

theorem Accumulates.mxq (h : Accumulates c s s') : (coreOf s' c).mxq = (coreOf s c).mxq := by obtain ⟨a, p, e⟩ := h.core; rw [e]
theorem Accumulates.elemBuf (h : Accumulates c s s') : (coreOf s' c).elemBuf = (coreOf s c).elemBuf := by obtain ⟨a, p, e⟩ := h.core; rw [e]

theorem coreOf_setFlags (s : State) (c fl k : Nat) : coreOf (setFlags s c fl) k = coreOf s k := rfl

/-- Settles O20: one column leaves the feed buffer, and each row's word takes its pass sum. -/
theorem weightColumnAccumulates : Obligations.WeightColumnAccumulates := by
  intro core s o q tl col hrun hq he htl hg hact h0 hcol hmay hpath hpar hfree hbuf hvals
  obtain ⟨s1, fl, hacc, hent, hsum⟩ := enterColumn_facts (columnTaken s core o) core (tl := tl) (col := nextColumn s core o) hact fun h => by
    have hp := hpar (by simpa using h)
    have hc : colParity (columnTaken s core o) core o o.col = colParity s core o o.col := by simp [colParity, parBad, columnTaken]
    rw [hc, hp]
  obtain rfl : col = nextColumn s core o := hvals
  have hmxq : (coreOf s1 core).mxq = o :: q := by rw [hacc.mxq, columnTaken, coreOf_modCore_same, ← hq]
  have hset : (coreOf (setOp (setFlags s1 core fl) core 0 { o with col := o.col + 1 }) core).mxq = { o with col := o.col + 1 } :: q := mxq_setOp_head hmxq _
  have heq : weightColumnEnter s core = occupy (setOp (setFlags s1 core fl) core 0 { o with col := o.col + 1 }) core 1 (opPeriod o) := by
    rw [weightColumnEnter_inside hq he htl hg h0 hcol hmay hpath hfree hbuf, enterCols_one (by omega) hbuf, hent, passClose_of_inside hset]
    exact ne_of_lt hcol
  have hcore : coreOf (occupy (setOp (setFlags s1 core fl) core 0 { o with col := o.col + 1 }) core 1 (opPeriod o)) core =
      { coreOf s1 core with mxq := { o with col := o.col + 1 } :: q, paced := mset (fun _ => 0) (coreOf s1 core).paced 1 (opPeriod o) } := by
    rw [occupy, coreOf_modCore_same, setOp, coreOf_modCore_same, coreOf_setFlags, hmxq]
    rfl
  have hframe : Frame [rFP_FLAGS core] s (occupy (setOp (setFlags s1 core fl) core 0 { o with col := o.col + 1 }) core 1 (opPeriod o)) :=
    ((((frame_modCore _ s core _).trans (hacc.frame.mono (List.nil_subset _))).trans (frame_setF _ (List.mem_singleton.2 rfl) _ _ _)).trans
      (frame_modCore _ _ core _)).trans (frame_modCore _ _ core _)
  refine ⟨_, congrArg Host.Outcome.next ((onCore_of_runs hrun _).trans heq), hframe.1, ?_, hframe.2.1, ?_, ?_, fun i hi => ?_⟩
  · have hflags : OtherCores core s1 (setFlags s1 core fl) := fun _ _ => rfl
    exact (((otherCores_modCore s core _).trans hacc.others).trans hflags).trans ((otherCores_modCore _ core _).trans (otherCores_modCore _ core _))
  · rw [hcore]
    exact hacc.elemBuf.trans (by rw [columnTaken, coreOf_modCore_same])
  · rw [hcore]
  · rw [hcore]
    have hold : oldSum (columnTaken s core o) core o i = oldSum s core o i := by rw [oldSum, oldSum, accAt, accAt, columnTaken, coreOf_modCore_same]
    exact (hsum i hi).trans (by rw [hold]; rfl)

end Sys2Proof.Safety
end

section
/-! PROOF. The drain and the end of an operation (O22): plain columns, groups of MX columns and the skid buffer (R66, R70, R71, R112). -/

namespace Sys2Proof.Safety

open Sys2Proof.Machine

variable {s s' t : State} {c : Nat}

/-- A head of the queue that is replaced changes what the queue's head is, and nothing behind it. -/
theorem mxq_setOp_of {x : State} {o : MxOp} {q : List MxOp} (hx : (coreOf x c).mxq = (coreOf s c).mxq) (hq : (coreOf s c).mxq = o :: q) (o' : MxOp) :
    (coreOf (setOp x c 0 o') c).mxq = o' :: q := mxq_setOp_head (hx.trans hq) o'

theorem coreOf_occupy (s : State) (c p k : Nat) : coreOf (occupy s c p k) c = { coreOf s c with paced := mset (fun _ => 0) (coreOf s c).paced p k } :=
  coreOf_modCore_same s c _

theorem frame_setFlags (s : State) (c fl : Nat) : Frame [rFP_FLAGS c] s (setFlags s c fl) := frame_setF s (List.mem_singleton.2 rfl) _ _ _
theorem otherCores_setFlags (s : State) (c fl : Nat) : OtherCores c s (setFlags s c fl) := fun _ _ => rfl

-- plain columns (R70) -------------------------------------------------------------------------------------------------------------------

theorem toPlainLanes_codes (f rm : Nat) (sat : Bool) (vs : List FV) : (toPlainLanes f rm sat vs).1 = vs.map fun v => (toPlain f rm sat v).code := by
  induction vs with
  | nil => rfl
  | cons v vs ih => rw [toPlainLanes, List.map_cons, ← ih]

/-- The accumulator values of a column. -/
def columnVals (s : State) (c : Nat) (o : MxOp) (q : Nat) : List FV := (List.range (opMt o + 1)).map fun i => accVal s c o i q

/-- The codes and flags that a column leaves with (R70, R81). -/
def columnOut (s : State) (c : Nat) (o : MxOp) (q : Nat) : List Nat × Nat :=
  if o.poison || colParity s c o q || o.badCols.contains q then ((columnVals s c o q).map fun _ => poisonCode (opOut o), 0)
  else toPlainLanes (opOut o) 0 (opSat o) (columnVals s c o q)

/-- The operation after columns up to j + n have left. -/
def columnsLeft (s : State) (c : Nat) (o : MxOp) (j n : Nat) : MxOp :=
  { o with emit := j + n, amax := if opAmaxEn o then amaxWith o (((List.range n).map (j + ·)).flatMap fun q => columnVals s c o q) else o.amax }

/-- The flowline entry of columns, and the flags they set. -/
def columnsEntry (s : State) (c : Nat) (o : MxOp) (j n : Nat) : FliEnt :=
  ⟨o.slot, leaveDue o j + 1, 0, (((List.range n).map (j + ·)).map (columnOut s c o)).flatMap fun r => r.1.map fun x => ⟨opOut o, x⟩⟩
def columnsFlags (s : State) (c : Nat) (o : MxOp) (j n : Nat) : Nat := (((List.range n).map (j + ·)).map (columnOut s c o)).foldl (fun a r => a ||| r.2) 0

theorem no_parity {o : MxOp} {j n : Nat} (h : ∀ d, d < n → colParity s c o (j + d) = false) : ((List.range n).map (j + ·)).any (colParity s c o) = false := by
  rw [List.any_eq_false]
  intro q hq
  obtain ⟨d, hd, rfl⟩ := List.mem_map.1 hq
  simp [h d (List.mem_range.1 hd)]

theorem emitPlain_of_sound {o : MxOp} {j n : Nat} (h : ∀ d, d < n → colParity s c o (j + d) = false) :
    emitPlain s c o j n = setOp (modCore (setFlags s c (columnsFlags s c o j n)) c fun k => { k with fli := fliInsert (columnsEntry s c o j n) k.fli }) c 0
      (columnsLeft s c o j n) := by
  unfold emitPlain
  simp only [no_parity h, Bool.false_eq_true, if_false]
  rfl

/-- Columns without poison carry their values in the output format. -/
theorem columnsEntry_of_sound {o : MxOp} {j n : Nat} (hp : o.poison = false) (h : ∀ d, d < n → colParity s c o (j + d) = false ∧ j + d ∉ o.badCols) :
    columnsEntry s c o j n = ⟨o.slot, leaveDue o j + 1, 0, (List.range n).flatMap fun d => (List.range (opMt o + 1)).map fun i =>
      ⟨opOut o, (toPlain (opOut o) 0 (opSat o) (accVal s c o i (j + d))).code⟩⟩ := by
  have hcol (d : Nat) (hd : d ∈ List.range n) : (columnOut s c o (j + d)).1.map (fun x => (⟨opOut o, x⟩ : Elem)) =
      (List.range (opMt o + 1)).map fun i => ⟨opOut o, (toPlain (opOut o) 0 (opSat o) (accVal s c o i (j + d))).code⟩ := by
    obtain ⟨hpar, hbad⟩ := h d (List.mem_range.1 hd)
    have hb : (o.poison || colParity s c o (j + d) || o.badCols.contains (j + d)) = false := by simp [hp, hpar, hbad]
    rw [columnOut, if_neg (by rw [hb]; decide), toPlainLanes_codes, columnVals, List.map_map, List.map_map]
    rfl
  rw [columnsEntry, List.map_map, List.flatMap_map]
  exact congrArg (FliEnt.mk o.slot (leaveDue o j + 1) 0) (List.flatMap_congr hcol)

-- groups of MX columns (R71) --------------------------------------------------------------------------------------------------------------

/-- What the first part of a group's leaving is: flags, and the operation with its block scales ahead of its columns. -/
theorem formMx_of_sound {o : MxOp} {j n : Nat} (h : ∀ d, d < n → colParity s c o (j + d) = false) :
    ∃ (fl : Nat) (codes : List Nat) (rest : List (List Elem)) (am : BitVec 32), codes.length = opMt o + 1 ∧
      formMx s c o j n = setOp (setFlags s c fl) c 0 { o with emit := j + n, group := codes.map (fun x => (⟨10, x⟩ : Elem)) :: rest, amax := am } := by
  unfold formMx
  simp only [no_parity h, Bool.false_eq_true, if_false]
  refine ⟨_, _, _, _, ?_, rfl⟩
  split <;> simp

theorem emitMx_of_room {o : MxOp} {e : List Elem} {r : List (List Elem)} (hg : o.group = e :: r) (hf : (coreOf s c).flo.length < 8) :
    emitMx s c o = setOp (modCore s c fun k => { k with flo := k.flo ++ [⟨o.slot, e⟩] }) c 0 { o with group := r } := by
  rw [emitMx, hg]
  exact if_pos hf

-- the drain's event -----------------------------------------------------------------------------------------------------------------------------

theorem drainDue_plain {o : MxOp} (h : fmtIsMx (opOut o) = false) : drainDue o = leaveDue o o.emit := by rw [drainDue, h]; rfl
theorem drainDue_group {o : MxOp} (h : fmtIsMx (opOut o) = true) (hg : o.group = []) (he : o.emit < opNt o) : drainDue o = leaveMxDue o o.emit := by
  rw [drainDue, h, if_pos rfl, if_pos hg, Nat.min_eq_left (by omega)]

/-- The drain's head operation may emit. -/
theorem not_drainWaits {o : MxOp} (hd : opDrain o = true) (hp : pathFree s c 2 = true) (hm : mayRun s c o.slot (drainDue o) = true) :
    ¬ (opDrain o = false ∨ pathFree s c 2 = false ∨ mayRun s c o.slot (drainDue o) = false) := by simp [hd, hp, hm]

theorem drainColumnEmit_plain {o : MxOp} {q : List MxOp} (hq : (coreOf s c).mxq = o :: q) (hd : opDrain o = true) (he : o.emit < opNt o) (hg : o.group = [])
    (hf : fmtIsMx (opOut o) = false) (hdue : columnDue o o.emit (min (opGroup o) (opNt o - o.emit)) = true) (hm : mayRun s c o.slot (leaveDue o o.emit) = true)
    (hp : pathFree s c 2 = true) (hfli : fliEarly s c < 8) :
    drainColumnEmit s c = occupy (emitPlain s c o o.emit (min (opGroup o) (opNt o - o.emit))) c 2 (opPeriod o) := by
  have hgo := not_drainWaits hd hp (drainDue_plain hf ▸ hm)
  simp only [drainColumnEmit, hq, List.head?_cons, if_neg hgo, hg, ne_eq, not_true, if_false, if_neg (ne_of_lt he), hf, Bool.false_eq_true, hdue, hfli, decide_true,
    Bool.and_self, if_true]

theorem drainColumnEmit_mx {o o1 : MxOp} {q : List MxOp} (hq : (coreOf s c).mxq = o :: q) (hd : opDrain o = true) (he : o.emit < opNt o) (hg : o.group = [])
    (hf : fmtIsMx (opOut o) = true) (hdue : columnDue o o.emit (min 32 (opNt o - o.emit)) = true) (hm : mayRun s c o.slot (leaveMxDue o o.emit) = true)
    (hp : pathFree s c 2 = true) (hflo : (coreOf s c).flo.length < 8) (ho1 : (coreOf (formMx s c o o.emit (min 32 (opNt o - o.emit))) c).mxq.head? = some o1) :
    drainColumnEmit s c = emitMx (formMx s c o o.emit (min 32 (opNt o - o.emit))) c o1 := by
  have hgo := not_drainWaits hd hp (drainDue_group hf hg he ▸ hm)
  simp only [drainColumnEmit, hq, List.head?_cons, if_neg hgo, hg, ne_eq, not_true, if_false, if_neg (ne_of_lt he), hf, hdue, hflo, decide_true, Bool.and_self, if_true, ho1]

theorem drainColumnEmit_next {o : MxOp} {q : List MxOp} {e : List Elem} {r : List (List Elem)} (hq : (coreOf s c).mxq = o :: q) (hd : opDrain o = true)
    (hg : o.group = e :: r) (hflo : (coreOf s c).flo.length < 8) (hm : mayRun s c o.slot (drainDue o) = true) (hp : pathFree s c 2 = true) :
    drainColumnEmit s c = occupy (emitMx s c o) c 2 (opPeriod o) := by
  have hgo := not_drainWaits hd hp hm
  simp only [drainColumnEmit, hq, List.head?_cons, if_neg hgo, hg, ne_eq, reduceCtorEq, not_false_iff, if_true, hflo]

/-- Settles O22: a plain column's values on FLI, a group's scales and then its columns in the skid buffer, and the operation that leaves the queue. -/
theorem drainEmitsAndOperationEnds : Obligations.DrainEmitsAndOperationEnds := by
  intro core s o q hrun hq
  refine ⟨?plain, ?mx, ?next, ?ends⟩
  case plain =>
    rintro n hd he hg hf rfl hdue hm hp hfli hpoison hsound
    have heq := (drainColumnEmit_plain hq hd he hg hf hdue hm hp hfli).trans
      (congrArg (occupy · core 2 (opPeriod o)) (emitPlain_of_sound fun d hd => (hsound d hd).1))
    refine ⟨_, congrArg Host.Outcome.next ((onCore_of_runs hrun _).trans heq),
      (((frame_setFlags s core _).trans (frame_modCore _ _ core _)).trans (frame_modCore _ _ core _)).trans (frame_modCore _ _ core _),
      (((otherCores_setFlags s core _).trans (otherCores_modCore _ core _)).trans (otherCores_modCore _ core _)).trans (otherCores_modCore _ core _), ?_, ?_⟩
    · rw [coreOf_occupy, setOp, coreOf_modCore_same, coreOf_modCore_same, coreOf_setFlags, columnsEntry_of_sound hpoison hsound]
    · rw [coreOf_occupy]
      have hmid : (coreOf (modCore (setFlags s core (columnsFlags s core o o.emit (min (opGroup o) (opNt o - o.emit)))) core fun k =>
          { k with fli := fliInsert (columnsEntry s core o o.emit (min (opGroup o) (opNt o - o.emit))) k.fli }) core).mxq = (coreOf s core).mxq := by
        rw [coreOf_modCore_same, coreOf_setFlags]
      dsimp only
      rw [mxq_setOp_of hmid hq]
      rfl
  case mx =>
    rintro n hd he hg hf rfl hdue hm hp hflo hsound
    obtain ⟨fl, codes, rest, am, hlen, hform⟩ := formMx_of_sound hsound
    have hhead (o1 : MxOp) : (coreOf (setOp (setFlags s core fl) core 0 o1) core).mxq = o1 :: q := mxq_setOp_of (by rw [coreOf_setFlags]) hq o1
    have hflo1 (o1 : MxOp) : (coreOf (setOp (setFlags s core fl) core 0 o1) core).flo = (coreOf s core).flo := by rw [setOp, coreOf_modCore_same, coreOf_setFlags]
    have heq := (drainColumnEmit_mx hq hd he hg hf hdue hm hp hflo (by rw [hform, hhead]; rfl)).trans
      ((congrArg (emitMx · core _) hform).trans (emitMx_of_room rfl (by rw [hflo1]; exact hflo)))
    refine ⟨_, codes.map (⟨10, ·⟩), congrArg Host.Outcome.next ((onCore_of_runs hrun _).trans heq),
      (((frame_setFlags s core _).trans (frame_modCore _ _ core _)).trans (frame_modCore _ _ core _)).trans (frame_modCore _ _ core _),
      (((otherCores_setFlags s core _).trans (otherCores_modCore _ core _)).trans (otherCores_modCore _ core _)).trans (otherCores_modCore _ core _),
      ?_, by rw [List.length_map, hlen], fun e he => ?_, ?_⟩
    · rw [setOp, coreOf_modCore_same, coreOf_modCore_same]
      dsimp only
      rw [hflo1]
    · obtain ⟨x, -, rfl⟩ := List.mem_map.1 he
      rfl
    · rw [mxq_setOp_head (o := { o with emit := o.emit + min 32 (opNt o - o.emit), group := codes.map (⟨10, ·⟩) :: rest, amax := am }) (q := q)]
      · rfl
      · rw [coreOf_modCore_same]
        exact hhead _
  case next =>
    intro e r hd hg hflo hm hp
    have heq := (drainColumnEmit_next hq hd hg hflo hm hp).trans (congrArg (occupy · core 2 (opPeriod o)) (emitMx_of_room hg hflo))
    refine ⟨_, congrArg Host.Outcome.next ((onCore_of_runs hrun _).trans heq),
      ((frame_modCore _ s core _).trans (frame_modCore _ _ core _)).trans (frame_modCore _ _ core _),
      ((otherCores_modCore s core _).trans (otherCores_modCore _ core _)).trans (otherCores_modCore _ core _), ?_, ?_⟩
    · rw [coreOf_occupy, setOp, coreOf_modCore_same, coreOf_modCore_same]
    · rw [coreOf_occupy]
      exact mxq_setOp_of (by rw [coreOf_modCore_same]) hq _
  case ends =>
    intro he hc hdr ham hm
    have heq : mxeOpComplete s core = modCore s core fun k => { k with mxq := q } := by
      simp only [mxeOpComplete, hq, ham, Bool.false_eq_true, if_false]
      exact if_pos ⟨he, hc, hdr, hm⟩
    refine ⟨_, congrArg Host.Outcome.next ((onCore_of_runs hrun _).trans heq), frame_modCore _ s core _, otherCores_modCore s core _, ?_⟩
    rw [coreOf_modCore_same]

end Sys2Proof.Safety
end

section
/-! PROOF. Items of the flowline (O23): pass-throughs (R110), the head of the vector queue (R111), and the writes and hand-offs of SWR (R112, R247). -/

namespace Sys2Proof.Safety

open Sys2Proof.Machine

variable {s s' t : State} {c : Nat}

-- the vector queue ------------------------------------------------------------------------------------------------------------------------

/-- A vector word that starts writes no memory, and the words behind it wait on. -/
structure LeavesQueue (c : Nat) (s s' : State) : Prop where
  mem : SameMem s s'
  queue : (coreOf s' c).vxq = (coreOf s c).vxq

namespace LeavesQueue

theorem refl (c : Nat) (s : State) : LeavesQueue c s s := ⟨fun _ => rfl, rfl⟩
theorem trans (h : LeavesQueue c s s') (h' : LeavesQueue c s' t) : LeavesQueue c s t := ⟨fun a => (h'.mem a).trans (h.mem a), h'.queue.trans h.queue⟩
theorem of_events (h : EventKeeps c s s') : LeavesQueue c s s' := by
  obtain ⟨sl, ri, ow, e⟩ := h.core c
  exact ⟨h.mem, by rw [e]⟩
theorem modCore (s : State) (c : Nat) {g : CoreSt → CoreSt} (hg : ∀ k, (g k).vxq = k.vxq) : LeavesQueue c s (Machine.modCore s c g) :=
  ⟨fun _ => rfl, by rw [coreOf_modCore_same, hg]⟩
theorem setR (s : State) (c off : Nat) (v : BitVec 32) : LeavesQueue c s (Machine.setR s off v) := ⟨fun _ => rfl, rfl⟩
theorem setF (s : State) (c off lo w v : Nat) : LeavesQueue c s (Machine.setF s off lo w v) := ⟨fun _ => rfl, rfl⟩
theorem setFlags (s : State) (c fl : Nat) : LeavesQueue c s (Machine.setFlags s c fl) := ⟨fun _ => rfl, rfl⟩
theorem modSlot (s : State) (c t : Nat) (g : SlotSt → SlotSt) : LeavesQueue c s (Machine.modSlot s c t g) := by
  unfold Machine.modSlot setSlot
  exact modCore s c fun _ => rfl
theorem setSreg (s : State) (c t r : Nat) (v : BitVec 64) : LeavesQueue c s (Machine.setSreg s c t r v) := modSlot s c t _
theorem ite {p : Prop} [Decidable p] (h : LeavesQueue c s s') (h' : LeavesQueue c s t) : LeavesQueue c s (if p then s' else t) := by
  split
  · exact h
  · exact h'
theorem foldl {α : Type*} {l : List α} {g : State → α → State} (hg : ∀ x, ∀ a ∈ l, LeavesQueue c x (g x a)) (s : State) : LeavesQueue c s (l.foldl g s) :=
  List.foldlRecOn (motive := LeavesQueue c s) l _ (refl c s) fun x h a ha => h.trans (hg x a ha)

theorem parClear (s : State) (c arr i : Nat) : LeavesQueue c s (Machine.parClear s c arr i) := ite (modCore s c fun _ => by rfl) (refl c s)
theorem setVreg (s : State) (c r : Nat) (v : BitVec 8192) : LeavesQueue c s (Machine.setVreg s c r v) := (parClear s c 3 r).trans (modCore _ c fun _ => by rfl)
theorem putResult (s : State) (c t vd f : Nat) (cs : List Nat) : LeavesQueue c s (Machine.putResult s c t vd f cs) :=
  ite (modCore s c fun _ => by rfl) (setVreg s c vd _)
theorem dropFli (s : State) (c n : Nat) : LeavesQueue c s (Machine.dropFli s c n) := modCore s c fun _ => by rfl
theorem vxeTimed (s : State) (c t w n : Nat) : LeavesQueue c s (Machine.vxeTimed s c t w n) := by
  unfold Machine.vxeTimed
  exact modCore s c fun _ => rfl

theorem monClose1 (s : State) (c l : Nat) : LeavesQueue c s (Machine.monClose1 s c l) := by
  unfold Machine.monClose1
  dsimp only
  split
  · have h1 (p : Prop) [Decidable p] (v : BitVec 32) : LeavesQueue c s (if p then Machine.setF (Machine.setR s (rMON_RATIO c l) v) (rMON_STAT c l) 1 1 1
        else Machine.setR s (rMON_RATIO c l) v) := ite ((setR s c _ _).trans (setF _ c _ _ _ _)) (setR s c _ _)
    exact ite ((h1 _ _).trans (setF _ c _ _ _ _)) (h1 _ _)
  · exact (setR s c _ _).trans (setF _ c _ _ _ _)

theorem monAcc (s : State) (c l step su sw : Nat) : LeavesQueue c s (Machine.monAcc s c l step su sw) := by
  unfold Machine.monAcc
  dsimp only
  have h1 (p : Prop) [Decidable p] : LeavesQueue c s (if p then Machine.monClose1 s c l else s) := ite (monClose1 s c l) (refl c s)
  have h2 (p q : Prop) [Decidable p] [Decidable q] : LeavesQueue c s (if q then Machine.setF (Machine.setR (Machine.setR (Machine.setR
      (if p then Machine.monClose1 s c l else s) (rMON_USQ c l) 0) (rMON_WSQ c l) 0) (rMON_STEP c l) (BitVec.ofNat 32 step)) (rMON_STAT c l) 0 1 1
      else (if p then Machine.monClose1 s c l else s)) :=
    ite (((((h1 p).trans (setR _ c _ _)).trans (setR _ c _ _)).trans (setR _ c _ _)).trans (setF _ c _ _ _ _)) (h1 p)
  exact ((h2 _ _).trans (setR _ c _ _)).trans (setR _ c _ _)

theorem vxeElementwise (s : State) (c t w n : Nat) : LeavesQueue c s (Machine.vxeElementwise s c t w n) := by
  unfold Machine.vxeElementwise
  dsimp only
  split
  · exact setVreg s c _ _
  · exact putResult s c t _ _ _
  · exact (putResult s c t _ _ _).trans (setFlags _ c _)

theorem vxeConvert (s : State) (c t w n scale : Nat) : LeavesQueue c s (Machine.vxeConvert s c t w n scale) := by
  unfold Machine.vxeConvert
  dsimp only
  split
  · exact ((putResult s c t _ _ _).trans (setVreg _ c _ _)).trans (setFlags _ c _)
  · exact (putResult s c t _ _ _).trans (setFlags _ c _)

theorem vxeUpdate (s : State) (c t w n p0 step : Nat) : LeavesQueue c s (Machine.vxeUpdate s c t w n p0 step) := by
  unfold Machine.vxeUpdate
  dsimp only
  have h1 (cs : List Nat) (fl : Nat) : LeavesQueue c s (Machine.setFlags (Machine.putResult s c t (vVD w) (vFMT w) cs) c fl) :=
    (putResult s c t _ _ _).trans (setFlags _ c _)
  exact ite ((h1 _ _).trans (monAcc _ c _ _ _ _)) (h1 _ _)

theorem vxeScalar (s : State) (c t w n : Nat) : LeavesQueue c s (Machine.vxeScalar s c t w n) := by
  unfold Machine.vxeScalar
  dsimp only
  split
  · exact (setSreg s c t _ _).trans (setFlags _ c _)
  · exact (setSreg s c t _ _).trans (setFlags _ c _)
  · exact (setSreg s c t _ _).trans (setFlags _ c _)
  · exact setSreg s c t _ _
  · exact refl c s

theorem vxePermute (s : State) (c t w n : Nat) : LeavesQueue c s (Machine.vxePermute s c t w n) := by
  unfold Machine.vxePermute
  dsimp only
  split
  · exact putResult s c t _ _ _
  · exact putResult s c t _ _ _
  · exact (putResult s c t _ _ _).trans (setSreg _ c t _ _)
  · exact putResult s c t _ _ _
  · exact refl c s

theorem vxeNorm (s : State) (c t w n : Nat) : LeavesQueue c s (Machine.vxeNorm s c t w n) := (putResult s c t _ _ _).trans (setFlags _ c _)

theorem vxeRun (s : State) (c : Nat) (e : VxEnt) : LeavesQueue c s (Machine.vxeRun s c e) := by
  unfold Machine.vxeRun
  dsimp only
  split
  · exact modSlot s c _ _
  · exact vxeScalar s c _ _ _
  · exact vxeScalar s c _ _ _
  · split
    · exact refl c s
    · refine LeavesQueue.trans ?_ (dropFli _ c _)
      split
      · exact vxeConvert s c _ _ _ _
      · exact vxeUpdate s c _ _ _ _ _
      · exact vxeScalar s c _ _ _
      · exact vxeScalar s c _ _ _
      · exact vxePermute s c _ _ _
      · exact vxePermute s c _ _ _
      · exact vxePermute s c _ _ _
      · exact vxePermute s c _ _ _
      · exact vxeNorm s c _ _ _
      · exact vxeElementwise s c _ _ _

theorem illegal (s : State) {c : Nat} (hc : c < 256) (t reason idx w : Nat) : LeavesQueue c s (Machine.illegal s c t reason idx w) := by
  unfold Machine.illegal
  dsimp only
  refine LeavesQueue.trans ?_ (of_events (eventKeeps_raiseCore _ hc (by decide) (by decide) t _ _ _ _))
  exact ite (refl c s) ⟨fun _ => rfl, rfl⟩

theorem sramParity (s : State) {c : Nat} (hc : c < 256) (t arr : Nat) : LeavesQueue c s (Machine.sramParity s c t arr) :=
  of_events (eventKeeps_raiseCore s hc (by decide) (by split <;> decide) t _ _ _ _)

theorem vxeStart (s : State) {c : Nat} (hc : c < 256) (e : VxEnt) : LeavesQueue c s (Machine.vxeStart s c e) :=
  (ite (illegal s hc _ _ _ _) (ite (sramParity s hc _ _) ((vxeRun s c e).trans (vxeTimed _ c _ _ _)))).trans (foldl (fun x p _ => setSreg x c _ p.1 p.2) _)

end LeavesQueue

theorem vxeQueueStart_of_ready {e : VxEnt} {q : List VxEnt} (hq : (coreOf s c).vxq = e :: q) (hm : mayRun s c e.slot e.due = true)
    (hr : vxeReady s c e.slot e.word.toNat = true) (hp : pathFree s c 4 = true) (hv : vecPending s c e.slot e.word.toNat = false) :
    vxeQueueStart s c = vxeStart (modCore s c fun k => { k with vxq := q }) c e := by
  simp only [vxeQueueStart, hq, hm, hr, hp, hv, Bool.not_false, Bool.and_self, if_true]

-- the skid buffer ------------------------------------------------------------------------------------------------------------------------------

/-- Elements leave the skid buffer in order. -/
theorem takeFlo_facts : ∀ (l : List FloEnt) (n : Nat),
    (takeFlo n l).1 = (l.flatMap FloEnt.es).take n ∧ (takeFlo n l).2.flatMap FloEnt.es = (l.flatMap FloEnt.es).drop n := by
  intro l
  induction l with
  | nil => intro n; simp [takeFlo]
  | cons e r ih =>
    intro n
    rw [takeFlo]
    split
    next h0 => subst h0; simp
    next =>
      split
      next hle =>
        obtain ⟨h1, h2⟩ := ih (n - e.es.length)
        simp only [h1, h2, List.flatMap_cons, List.take_append, List.drop_append, List.take_of_length_le hle, List.drop_of_length_le hle, List.nil_append, and_self]
      next hgt =>
        have h0 : n - e.es.length = 0 := by omega
        simp [List.take_append, List.drop_append, h0]

theorem floCount_eq (s : State) (c : Nat) : floCount (coreOf s c) = (skid s c).length := by
  have h (l : List FloEnt) (a : Nat) : l.foldl (fun a e => a + e.es.length) a = a + (l.flatMap FloEnt.es).length := by
    induction l generalizing a with
    | nil => simp
    | cons e l ih => rw [List.foldl_cons, ih, List.flatMap_cons, List.length_append]; omega
  rw [floCount, h, Nat.zero_add, skid]

-- elements in the store ------------------------------------------------------------------------------------------------------------------------

theorem leNat_leBytes (n x : Nat) : leNat (leBytes n x) = x % 256 ^ n := by
  induction n generalizing x with
  | zero => simp [leBytes, leNat, Nat.mod_one]
  | succ n ih =>
    have hb : leBytes (n + 1) x = BitVec.ofNat 8 x :: leBytes n (x / 256) := by
      simp [leBytes, List.range_succ_eq_map, Nat.div_div_eq_div_mul, Nat.pow_succ, Nat.mul_comm]
    have h256 : (2 : Nat) ^ 8 = 256 := rfl
    rw [hb, leNat, ih, BitVec.toNat_ofNat, h256, Nat.pow_succ 256 n, Nat.mul_comm (256 ^ n), Nat.mod_mul]

theorem bits_mod_two_pow (x lo w n : Nat) (h : lo + w ≤ n) : bits (x % 2 ^ n) lo w = bits x lo w := by
  apply Nat.eq_of_testBit_eq
  intro i
  rw [testBit_bits, testBit_bits, Nat.testBit_mod_two_pow]
  by_cases hi : i < w
  · have : lo + i < n := by omega
    simp [hi, this]
  · simp [hi]

/-- An element reads as it was written, at any bit of its first byte (R36). -/
theorem readElem_writeElem (s : State) (c : Nat) (p : Nat × Nat) (w code : Nat) :
    readElem (writeElem s c p w code) (storeBase c) p.1 p.2 w = code % 2 ^ w := by
  have hlen : ceilDiv (p.2 + w) 8 = (leBytes (ceilDiv (p.2 + w) 8)
      (setBits (leNat (rdBytes s (storeBase c + p.1) (ceilDiv (p.2 + w) 8))) p.2 w code)).length := (length_leBytes _ _).symm
  have hrd : rdBytes (writeElem s c p w code) (storeBase c + p.1) (ceilDiv (p.2 + w) 8) = leBytes (ceilDiv (p.2 + w) 8)
      (setBits (leNat (rdBytes s (storeBase c + p.1) (ceilDiv (p.2 + w) 8))) p.2 w code) := by
    conv_lhs => rw [hlen]
    exact rdBytes_wrBytes_same s _ _
  have h256 : (256 : Nat) = 2 ^ 8 := rfl
  rw [readElem, hrd, leNat_leBytes, h256, ← Nat.pow_mul, bits_mod_two_pow _ _ _ _ (by unfold ceilDiv; omega), bits_setBits_same]

theorem rdByte_writeElem_other (s : State) (c : Nat) (p : Nat × Nat) (w code : Nat) {b : Nat}
    (h : b < storeBase c + p.1 ∨ storeBase c + p.1 + ceilDiv (p.2 + w) 8 ≤ b) : rdByte (writeElem s c p w code) b = rdByte s b := by
  unfold writeElem
  dsimp only
  rw [rdByte_wrBytes, length_leBytes, if_neg (by omega)]

-- SWR (R112, R247) --------------------------------------------------------------------------------------------------------------------------------

/-- A hand-off changes the descriptor, the skid buffer and SWR's queue of its own core. -/
def handed (s : State) (c : Nat) (x : GenOp) (d : DescSt) (flo : List FloEnt) (q : List GenOp) : State :=
  modCore (setDesc s c x.gen.desc d) c fun y => { y with flo := flo, swrq := q }

theorem frame_handed (s : State) (c : Nat) (x : GenOp) (d : DescSt) (flo : List FloEnt) (q : List GenOp) : Frame [] s (handed s c x d flo q) :=
  ⟨fun _ => rfl, fun _ _ => rfl, rfl, rfl⟩
theorem otherCores_handed (s : State) (c : Nat) (x : GenOp) (d : DescSt) (flo : List FloEnt) (q : List GenOp) : OtherCores c s (handed s c x d flo q) :=
  (otherCores_modCore s c _).trans (otherCores_modCore _ c _)
theorem skid_handed (s : State) (c : Nat) (x : GenOp) (d : DescSt) (flo : List FloEnt) (q : List GenOp) : skid (handed s c x d flo q) c = flo.flatMap FloEnt.es := by
  rw [skid, handed, coreOf_modCore_same]
theorem descOf_handed (s : State) (c : Nat) (x : GenOp) (d : DescSt) (flo : List FloEnt) (q : List GenOp) : descOf (handed s c x d flo q) c x.gen.desc = d := by
  rw [descOf, handed, coreOf_modCore_same]
  exact descOf_setDesc_same s c x.gen.desc d

/-- Bytes that stay with SWR go to the transfer that has room now. -/
theorem swrWritePerformed_rest {x : GenOp} {r : List GenOp} (hq : (coreOf s c).swrq = x :: r) (hd : x.gen.dest = true) (hm : 0 < handRoom (descOf s c x.gen.desc))
    (hh : (descOf s c x.gen.desc).hand ≠ []) : ∃ q, swrWritePerformed s c =
      handed s c x (handOver { descOf s c x.gen.desc with hand := (descOf s c x.gen.desc).hand.drop (handRoom (descOf s c x.gen.desc)) }
        ((descOf s c x.gen.desc).hand.take (handRoom (descOf s c x.gen.desc)))) (coreOf s c).flo q := by
  refine ⟨if (descOf s c x.gen.desc).hand.length ≤ handRoom (descOf s c x.gen.desc) ∧ x.next = genTotal x.gen then r else (coreOf s c).swrq, ?_⟩
  simp only [swrWritePerformed, hq, hd, hh, ne_eq, not_false_iff, and_self, if_true, if_neg (Nat.pos_iff_ne_zero.1 hm)]
  simp only [handed, modCore, setDesc, coreOf_setCore_same]

/-- Elements of the skid buffer go to the transfer that has room. -/
theorem swrWritePerformed_hand {x : GenOp} {r : List GenOp} {n : Nat} (hq : (coreOf s c).swrq = x :: r) (hd : x.gen.dest = true) (hm : 0 < handRoom (descOf s c x.gen.desc))
    (hh : (descOf s c x.gen.desc).hand = []) (hn : n = swrTake x (skid s c).length) (h0 : 0 < n) : ∃ q, swrWritePerformed s c =
      handed s c x (handOver { descOf s c x.gen.desc with hand := (packBytes x.gen.fmt ((skid s c).take n)).drop (handRoom (descOf s c x.gen.desc)) }
        ((packBytes x.gen.fmt ((skid s c).take n)).take (handRoom (descOf s c x.gen.desc)))) (takeFlo n (coreOf s c).flo).2 q := by
  obtain ⟨htake, -⟩ := takeFlo_facts (coreOf s c).flo n
  refine ⟨if decide (x.next + n = genTotal x.gen) && decide ((packBytes x.gen.fmt ((skid s c).take n)).length ≤ handRoom (descOf s c x.gen.desc)) then r
    else { x with next := x.next + n } :: r, ?_⟩
  simp only [swrWritePerformed, hq, hd, hh, ne_eq, not_true, and_false, if_false, floCount_eq, ← hn, or_self, Nat.pos_iff_ne_zero.1 h0, Nat.pos_iff_ne_zero.1 hm,
    if_true, htake]
  rfl

/-- One element of the skid buffer is written at its place. -/
theorem swrWritePerformed_store {x : GenOp} {r : List GenOp} {e : Elem} (hq : (coreOf s c).swrq = x :: r) (hd : x.gen.dest = false)
    (hn : swrTake x (skid s c).length = 1) (he : (skid s c).head? = some e) : ∃ q, swrWritePerformed s c =
      modCore (writeElem s c (genPlace x.gen x.next) (fmtWidth x.gen.fmt) e.code) c fun y => { y with flo := (takeFlo 1 (coreOf s c).flo).2, swrq := q } := by
  obtain ⟨htake, -⟩ := takeFlo_facts (coreOf s c).flo 1
  have hone : (takeFlo 1 (coreOf s c).flo).1 = [e] := by
    rw [htake, ← skid]
    cases hs : skid s c with
    | nil => simp [hs] at he
    | cons y l => simp [hs] at he; simp [he]
  refine ⟨if decide (x.next + 1 = genTotal x.gen) then r else { x with next := x.next + 1 } :: r, ?_⟩
  simp only [swrWritePerformed, hq, hd, Bool.false_eq_true, false_and, if_false, floCount_eq, hn, one_ne_zero, or_self, hone]
  rfl

theorem passThroughItemRead_of_due {x : GenOp} {r : List GenOp} (hq : (coreOf s c).passq = x :: r) (hf : fliEarly s c < 8) (hm : mayRun s c x.slot x.due = true)
    (ht : tileCan s c = false) (h0 : pathFree s c 0 = true) (h3 : pathFree s c 3 = true) : ∃ g : CoreSt → CoreSt, passThroughItemRead s c = modCore s c g ∧
      (g (coreOf s c)).fli = fliInsert ⟨x.slot, x.due + 3, 1, (List.range (min (perEntry x.gen.fmt) (genTotal x.gen - x.next))).map fun i =>
        ⟨x.gen.fmt, readElem s (storeBase c) (genPlace x.gen (x.next + i)).1 (genPlace x.gen (x.next + i)).2 (fmtWidth x.gen.fmt)⟩⟩ (coreOf s c).fli ∧
      (g (coreOf s c)).passq = (if x.next + min (perEntry x.gen.fmt) (genTotal x.gen - x.next) = genTotal x.gen then r
        else { x with next := x.next + min (perEntry x.gen.fmt) (genTotal x.gen - x.next), due := x.due + 1 } :: r) := by
  simp only [passThroughItemRead, hq, hf, hm, ht, h0, h3, and_self, if_true]
  exact ⟨_, rfl, rfl, rfl⟩

/-- Settles O23: a pass-through's item on FLI, the word that leaves the vector queue, and what SWR hands over or writes. -/
theorem flowlineItemsMove : Obligations.FlowlineItemsMove := by
  intro core s hrun
  refine ⟨fun x r n hq hn hf hm ht h0 h3 => ?_, fun e q hq hm hr hp hv => ?_, fun x r d hq hd => ⟨fun hdest hroom hh => ?_, fun n bs hn h0 hbs hdest hroom hh => ?_,
    fun hone hdest e a he ha => ?_⟩⟩
  · subst hn
    obtain ⟨g, heq, hfli, hpass⟩ := passThroughItemRead_of_due hq hf hm ht h0 h3
    refine ⟨_, congrArg Host.Outcome.next ((onCore_of_runs hrun _).trans heq), frame_modCore [] s core g, otherCores_modCore s core g, ?_, ?_⟩
    · rw [coreOf_modCore_same, hfli]
    · rw [coreOf_modCore_same, hpass]
  · have hl := LeavesQueue.vxeStart (modCore s core fun k => { k with vxq := q }) core.isLt e
    refine ⟨_, congrArg Host.Outcome.next ((onCore_of_runs hrun _).trans (vxeQueueStart_of_ready hq hm hr hp hv)), hl.mem, ?_⟩
    rw [hl.queue, coreOf_modCore_same]
  · subst hd
    obtain ⟨q, heq⟩ := swrWritePerformed_rest hq hdest hroom hh
    exact ⟨_, congrArg Host.Outcome.next ((onCore_of_runs hrun _).trans heq), frame_handed s core x _ _ q, otherCores_handed s core x _ _ q,
      skid_handed s core x _ _ q, descOf_handed s core x _ _ q⟩
  · subst hd hbs
    obtain ⟨q, heq⟩ := swrWritePerformed_hand hq hdest hroom hh hn h0
    exact ⟨_, congrArg Host.Outcome.next ((onCore_of_runs hrun _).trans heq), frame_handed s core x _ _ q, otherCores_handed s core x _ _ q,
      (skid_handed s core x _ _ q).trans (takeFlo_facts _ n).2, descOf_handed s core x _ _ q⟩
  · subst ha
    obtain ⟨q, heq⟩ := swrWritePerformed_store hq hdest hone he
    refine ⟨_, congrArg Host.Outcome.next ((onCore_of_runs hrun _).trans heq), fun _ _ => rfl, otherCores_modCore _ core _, ?_, ?_, fun b hb => ?_⟩
    · rw [skid, coreOf_modCore_same]
      exact (takeFlo_facts _ 1).2
    · exact readElem_writeElem s core _ _ _
    · exact rdByte_writeElem_other s core _ _ _ hb

end Sys2Proof.Safety
end

section
/-! PROOF. Stalls of floes (O24): elastic stalls (R76, R203), throttle holds (R323) and timeouts (R207). -/

namespace Sys2Proof.Safety

open Sys2Proof.Machine

variable {s s' t : State} {cl f : Nat}

-- the reason of a floe ----------------------------------------------------------------------------------------------------------------

/-- A floe's reason field takes the reason that is set (R206). -/
theorem getF_setFloeReason (s : State) (_hcl : cl < 32) (_hf : f < 32) {r : Nat} (hr : r < 16) : getF (setFloeReason s cl f r) (rFLOE_STAT cl f) 0 4 = r := by
  have hs (x : State) : getF (stallSince x cl f r) (rFLOE_STAT cl f) 0 4 = getF x (rFLOE_STAT cl f) 0 4 := by
    unfold stallSince
    dsimp only
    split <;> rfl
  have ht (x : State) (w2 w3 : Nat) : getF (traceOfFloe x cl f 2 w2 w3) (rFLOE_STAT cl f) 0 4 = getF x (rFLOE_STAT cl f) 0 4 := by
    unfold traceOfFloe traceRec
    split
    · split
      · split
        · rfl
        · exact getF_setF_otherReg x 16 16 _ 0 4 (by unfold rFLOE_STAT clusterBase rTRC_STAT svcBase; omega)
      · rfl
    · rfl
  unfold setFloeReason
  split
  next h => rw [hs, h]
  next => 
    rw [ht, hs, getF_setF_same _ _ 0 4 r (by decide)]
    exact Nat.mod_eq_of_lt hr

/-- What reasons that are set in a cluster's floes leave: their reason fields, the trace and the counts of stalls change, and no floe's elastic stall. -/
structure ReasonsSet (cl : Nat) (s s' : State) : Prop where
  same : ∃ r tr fl, s' = { s with regs := r, trace := tr, floes := fl }
  regs : ∀ off, (∀ f, f < 32 → off ≠ rFLOE_STAT cl f) → off ≠ rTRC_STAT (cl / 8) + 4 → getR s' off = getR s off
  held : ∀ g, (floeOf s' cl g).held = (floeOf s cl g).held

namespace ReasonsSet

theorem refl (cl : Nat) (s : State) : ReasonsSet cl s s := ⟨⟨_, _, _, rfl⟩, fun _ _ _ => rfl, fun _ => rfl⟩
theorem trans (h : ReasonsSet cl s s') (h' : ReasonsSet cl s' t) : ReasonsSet cl s t := by
  refine ⟨?_, fun off ho ht => (h'.regs off ho ht).trans (h.regs off ho ht), fun g => (h'.held g).trans (h.held g)⟩
  obtain ⟨r, tr, fl, rfl⟩ := h.same
  obtain ⟨r', tr', fl', rfl⟩ := h'.same
  exact ⟨r', tr', fl', rfl⟩
theorem foldl {α : Type*} {l : List α} {g : State → α → State} (hg : ∀ x, ∀ a ∈ l, ReasonsSet cl x (g x a)) (s : State) : ReasonsSet cl s (l.foldl g s) :=
  List.foldlRecOn (motive := ReasonsSet cl s) l _ (refl cl s) fun x h a ha => h.trans (hg x a ha)

theorem sameMem (h : ReasonsSet cl s s') : SameMem s s' := by obtain ⟨r, tr, fl, rfl⟩ := h.same; exact fun _ => rfl
theorem coreOf_eq (h : ReasonsSet cl s s') (c : Nat) : coreOf s' c = coreOf s c := by obtain ⟨r, tr, fl, rfl⟩ := h.same; rfl

end ReasonsSet

theorem floeOf_setFloe_same (s : State) (cl f : Nat) (x : FloeSt) : floeOf (setFloe s cl f x) cl f = x := mget_mset_same _ s.floes _ x
theorem floeOf_setFloe_other (s : State) (cl : Nat) {f g : Nat} (x : FloeSt) (h : g ≠ f) : floeOf (setFloe s cl f x) cl g = floeOf s cl g :=
  mget_mset_other _ s.floes x (by omega)

theorem reasonsSet_setFloe (s : State) (cl f : Nat) {x : FloeSt} (h : x.held = (floeOf s cl f).held) : ReasonsSet cl s (setFloe s cl f x) := by
  refine ⟨⟨s.regs, s.trace, _, rfl⟩, fun _ _ _ => rfl, fun g => ?_⟩
  by_cases hg : g = f
  · subst hg
    rw [floeOf_setFloe_same, h]
  · rw [floeOf_setFloe_other s cl x hg]

theorem reasonsSet_since (s : State) (cl f : Nat) (v : Option Nat) : ReasonsSet cl s (setFloe s cl f { floeOf s cl f with since := v }) :=
  reasonsSet_setFloe s cl f rfl

theorem reasonsSet_stallSince (s : State) (cl f r : Nat) : ReasonsSet cl s (stallSince s cl f r) := by
  unfold stallSince
  dsimp only
  split
  · exact ReasonsSet.refl cl s
  · exact reasonsSet_since s cl f _

theorem reasonsSet_setF (s : State) {off : Nat} (h : (∃ f, f < 32 ∧ off = rFLOE_STAT cl f) ∨ off = rTRC_STAT (cl / 8) + 4) (lo w v : Nat) :
    ReasonsSet cl s (setF s off lo w v) := by
  refine ⟨⟨_, s.trace, s.floes, rfl⟩, fun o ho ht => getR_setF_other s lo w v ?_, fun _ => rfl⟩
  rintro rfl
  rcases h with ⟨f, hf, e⟩ | e
  · exact ho f hf e
  · exact ht e

theorem reasonsSet_traceOfFloe (s : State) (cl f typ w2 w3 : Nat) : ReasonsSet cl s (traceOfFloe s cl f typ w2 w3) := by
  unfold traceOfFloe traceRec
  split
  · split
    · split
      · exact ⟨⟨s.regs, _, s.floes, rfl⟩, fun _ _ _ => rfl, fun _ => rfl⟩
      · exact reasonsSet_setF s (.inr rfl) _ _ _
    · exact ReasonsSet.refl cl s
  · exact ReasonsSet.refl cl s

theorem reasonsSet_setFloeReason (s : State) (cl : Nat) (hf : f < 32) (r : Nat) : ReasonsSet cl s (setFloeReason s cl f r) := by
  have hset : ReasonsSet cl s (setF s (rFLOE_STAT cl f) 0 4 r) := reasonsSet_setF s (.inl ⟨f, hf, rfl⟩) 0 4 r
  unfold setFloeReason
  split
  · exact reasonsSet_stallSince s cl f r
  · exact (hset.trans (reasonsSet_stallSince _ cl f r)).trans (reasonsSet_traceOfFloe _ cl f 2 r 0)

/-- The reason of one floe writes its FLOE_STAT and the count of lost records. -/
theorem frame_setFloeReason (s : State) (cl f r : Nat) : Frame [rFLOE_STAT cl f, rTRC_STAT (cl / 8) + 4] s (setFloeReason s cl f r) := by
  have hs (x : State) : Frame [rFLOE_STAT cl f, rTRC_STAT (cl / 8) + 4] x (stallSince x cl f r) := by
    unfold stallSince
    dsimp only
    split
    · exact Frame.refl _ x
    · exact ⟨fun _ => rfl, fun _ _ => rfl, rfl, rfl⟩
  have ht (x : State) : Frame [rFLOE_STAT cl f, rTRC_STAT (cl / 8) + 4] x (traceOfFloe x cl f 2 r 0) := by
    unfold traceOfFloe traceRec
    split
    · split
      · split
        · exact ⟨fun _ => rfl, fun _ _ => rfl, rfl, rfl⟩
        · exact frame_setF x (by simp) _ _ _
      · exact Frame.refl _ x
    · exact Frame.refl _ x
  unfold setFloeReason
  split
  · exact hs s
  · exact ((frame_setF s (by simp) 0 4 r).trans (hs _)).trans (ht _)

-- what a floe's reason does not reach -----------------------------------------------------------------------------------------------------

namespace ReasonsSet

/-- Registers below the clusters' and above them, but for the trace writers', and those of a cluster beside FLOE_STAT. -/
theorem getF_eq (h : ReasonsSet cl s s') {off : Nat} (ho : ∀ f, f < 32 → off ≠ rFLOE_STAT cl f) (ht : off ≠ rTRC_STAT (cl / 8) + 4) (lo w : Nat) :
    getF s' off lo w = getF s off lo w := by rw [getF, getF, h.regs off ho ht]

variable (hcl : cl < 32)
include hcl

theorem core_eq (h : ReasonsSet cl s s') (c o : Nat) (lo w : Nat) : getF s' (coreBase c + o) lo w = getF s (coreBase c + o) lo w :=
  h.getF_eq (fun f _ => by unfold coreBase rFLOE_STAT clusterBase; omega) (by unfold coreBase rTRC_STAT svcBase; omega) lo w

theorem slotState_eq (h : ReasonsSet cl s s') (c u : Nat) : slotState s' c u = slotState s c u := by
  have he : rTASK_STAT c u = coreBase c + (0x204 + 0x40 * u) := by unfold rTASK_STAT; omega
  rw [slotState, slotState, he, h.core_eq hcl]

omit hcl in
theorem floeDef_eq (h : ReasonsSet cl s s') (f lo w : Nat) : getF s' (rFLOE_DEF cl f) lo w = getF s (rFLOE_DEF cl f) lo w :=
  h.getF_eq (fun g _ => by unfold rFLOE_DEF rFLOE_STAT; omega) (by unfold rFLOE_DEF clusterBase rTRC_STAT svcBase; omega) lo w
omit hcl in
theorem floeCtl_eq (h : ReasonsSet cl s s') (f b : Nat) : getB s' (rFLOE_CTL cl f) b = getB s (rFLOE_CTL cl f) b := by
  rw [getB, getB, h.getF_eq (fun g _ => by unfold rFLOE_CTL rFLOE_STAT; omega) (by unfold rFLOE_CTL clusterBase rTRC_STAT svcBase; omega)]

omit hcl in
theorem floeMembers_eq (h : ReasonsSet cl s s') (f : Nat) : floeMembers s' cl f = floeMembers s cl f := by
  simp only [floeMembers, floeCores, floeSlot, getB, h.floeDef_eq]
theorem floeRuns_eq (h : ReasonsSet cl s s') (f : Nat) : floeRuns s' cl f = floeRuns s cl f := by
  simp only [floeRuns, h.floeMembers_eq, getB, h.floeDef_eq, h.slotState_eq hcl]

omit hcl in
theorem coreRuns_eq (_hcl : cl < 32) (h : ReasonsSet cl s s') {c : Nat} (hc : c / 8 = cl) : coreRuns s' c = coreRuns s c := by
  have hclk : getB s' (rCLK_STAT (c / 8)) 6 = getB s (rCLK_STAT (c / 8)) 6 := by
    rw [getB, getB, h.getF_eq (fun g _ => by unfold rCLK_STAT rFLOE_STAT clusterBase; omega) (by unfold rCLK_STAT rTRC_STAT svcBase; omega)]
  have hlog : getB s' (rMLOG_STAT (c / 64)) 7 = getB s (rMLOG_STAT (c / 64)) 7 := by
    rw [getB, getB, h.getF_eq (fun g _ => by unfold rMLOG_STAT mlogBase rFLOE_STAT clusterBase; omega)
      (by unfold rMLOG_STAT mlogBase rTRC_STAT svcBase; omega)]
  simp only [coreRuns, regionUp, hclk, hlog]
  obtain ⟨r, tr, fl, rfl⟩ := h.same
  rfl

theorem quiesces_eq (h : ReasonsSet cl s s') {c : Nat} (hc : c / 8 = cl) (u : Nat) : quiesces s' c u = quiesces s c u := by
  have hq : engineQuiet s' c u = engineQuiet s c u := by simp only [engineQuiet, pathFree, h.coreOf_eq]
  have hr : runningSlot s' c = runningSlot s c := by simp only [runningSlot, h.slotState_eq hcl]
  simp only [quiesces, h.coreOf_eq, h.coreRuns_eq hcl hc, hr, h.slotState_eq hcl, hq]

theorem floeQuiesces_eq (h : ReasonsSet cl s s') (f : Nat) : floeQuiesces s' cl f = floeQuiesces s cl f := by
  rw [floeQuiesces, floeQuiesces, h.floeMembers_eq, Bool.eq_iff_iff, List.any_eq_true, List.any_eq_true]
  have hm (m : Nat × Nat) (hm : m ∈ floeMembers s cl f) : quiesces s' m.1 m.2 = quiesces s m.1 m.2 := h.quiesces_eq hcl (mem_floeMembers hm).1 m.2
  exact exists_congr fun m => and_congr_right fun hmem => by rw [hm m hmem]

omit hcl in
theorem throttleHolds_eq (h : ReasonsSet cl s s') : throttleHolds s' cl = throttleHolds s cl := by
  obtain ⟨r, tr, fl, rfl⟩ := h.same
  rfl

end ReasonsSet

-- elastic stalls (R76, R203) -----------------------------------------------------------------------------------------------------------------

theorem floeOf_stall (s : State) (hf : f < 32) {x : FloeSt} (r : Nat) : (floeOf (setFloeReason (setFloe s cl f x) cl f r) cl f).held = x.held := by
  rw [(reasonsSet_setFloeReason _ cl hf r).held, floeOf_setFloe_same]

theorem frame_stall (s : State) (cl f : Nat) (x : FloeSt) (r : Nat) :
    Frame [rFLOE_STAT cl f, rTRC_STAT (cl / 8) + 4] s (setFloeReason (setFloe s cl f x) cl f r) :=
  (frame_setFloe _ s cl f x).trans (frame_setFloeReason _ cl f r)

theorem stallBegin_of_late {r : Nat} (hrun : floeRuns s cl f = true) (hq : floeQuiesces s cl f = false) (hh : (floeOf s cl f).held = 0) (hr : r ∈ floeLags s cl f) :
    stallBegin s cl f r = setFloeReason (setFloe s cl f { floeOf s cl f with held := r }) cl f r :=
  if_pos ⟨hh, by simp [stallMay, hq, hrun, hr]⟩

theorem stallEnd_of_caughtUp (hh : (floeOf s cl f).held ≠ 0) (hc : floeCaughtUp s cl f = true) :
    stallEnd s cl f = setFloeReason (setFloe s cl f { floeOf s cl f with held := 0 }) cl f 0 :=
  if_pos ⟨hh, by rw [hc, Bool.or_true]⟩

-- reasons in a held cycle (R206, R323) ---------------------------------------------------------------------------------------------------------

theorem le_min?_getD {l : List Nat} {n d : Nat} (h : ∀ x ∈ l, n ≤ x) (hd : n ≤ d) : n ≤ l.min?.getD d := by
  cases hm : l.min? with
  | none => exact hd
  | some x => exact h x (List.min?_eq_some_iff.1 hm).1

theorem two_le_feedReason (s : State) (c : Nat) (b : Bool) (n : Nat) : 2 ≤ feedReason s c b n := by
  refine le_min?_getD (fun x hx => ?_) (by decide)
  simp only [markReasons, List.mem_filter, List.mem_cons, List.not_mem_nil, or_false] at hx
  omega

theorem two_le_mxeWaits (s : State) (c u : Nat) : ∀ x ∈ mxeWaits s c u, 2 ≤ x := by
  intro x hx
  unfold mxeWaits at hx
  dsimp only at hx
  split at hx
  · simp at hx
  · split at hx
    · simp at hx
    · simp only [List.mem_append, List.mem_ite_nil_right, List.mem_ite_nil_left, List.mem_singleton] at hx
      rcases hx with ((⟨-, rfl⟩ | ⟨-, rfl⟩) | ⟨-, rfl⟩) | ⟨-, rfl⟩
      · exact two_le_feedReason s c _ _
      · exact two_le_feedReason s c _ _
      · decide
      · decide

theorem two_le_vxReason (s : State) (c u : Nat) : 2 ≤ vxReason s c u := by
  have h := le_min?_getD (two_le_mxeWaits s c u) (d := 7) (by decide)
  unfold vxReason
  split
  · repeat' split
    · decide
    · decide
    · exact h
    · decide
  · decide

/-- The stall reasons of a word lie behind HOLD (Table 08-4). -/
theorem wordWait_zero_or (s : State) (c u i w : Nat) : wordWait s c u i w = 0 ∨ 2 ≤ wordWait s c u i w := by
  have hv := two_le_vxReason s c u
  have hbase (b : Nat) (p : Bool) (hb : b = 0 ∨ 2 ≤ b) : (if b ≠ 0 then b else if p then 12 else 0) = 0 ∨ 2 ≤ (if b ≠ 0 then b else if p then 12 else 0) := by
    split
    · exact hb
    · split
      · exact .inr (by decide)
      · exact .inl rfl
  have hite (p : Prop) [Decidable p] (n : Nat) (hn : 2 ≤ n) : (if p then n else 0) = 0 ∨ 2 ≤ (if p then n else 0) := by
    split
    · exact .inr hn
    · exact .inl rfl
  refine hbase _ _ ?_
  split
  case h_2 =>
    split
    · exact hite _ 11 (by decide)
    · exact hite _ 11 (by decide)
  case h_11 =>
    split
    · split
      · exact .inr hv
      · exact hite _ 11 (by decide)
    · exact .inl rfl
  all_goals exact hite _ _ (by decide)

theorem two_le_groupCodes (s : State) (c u : Nat) : ∀ x ∈ groupCodes s c u, 2 ≤ x := by
  intro x hx
  unfold groupCodes at hx
  split at hx
  · simp at hx; omega
  · split at hx
    · simp at hx
    · simp only [List.mem_filter, List.mem_map, decide_eq_true_eq] at hx
      obtain ⟨⟨p, -, rfl⟩, h0⟩ := hx
      exact (wordWait_zero_or s c u p.1 p.2).resolve_left h0
  · simp at hx

theorem two_le_memberCodes (s : State) (cl f : Nat) (m : Nat × Nat) : ∀ x ∈ memberCodes s cl f m, 2 ≤ x := by
  have hg := two_le_groupCodes s m.1 m.2
  intro x hx
  unfold memberCodes at hx
  split at hx
  · simp at hx; omega
  · split at hx
    · simp at hx
    · split at hx
      · split at hx
        · exact hg x hx
        · simp at hx
      · split at hx
        · simp at hx; omega
        next hl =>
          split at hx
          · exact hg x hx
          · simp at hx

/-- In a held cycle of a floe that runs, and without an elastic stall, the lowest reason is HOLD, or else THROTTLE. -/
theorem heldReason (hth : throttleHolds s cl = true) (hrun : floeRuns s cl f = true) (hq : floeQuiesces s cl f = false) (hh : (floeOf s cl f).held = 0) :
    (floeCodes s cl f).min?.getD 2 = if getB s (rFLOE_CTL cl f) 2 then 1 else 2 := by
  have hsome : floeSome s cl f = true := by
    unfold floeRuns at hrun
    unfold floeSome
    rw [Bool.and_eq_true, List.any_eq_true] at hrun
    obtain ⟨-, m, hm, h2⟩ := hrun
    exact List.any_eq_true.2 ⟨m, hm, by rw [h2, Bool.true_or]⟩
  have hm : ∀ x ∈ (floeMembers s cl f).flatMap (memberCodes s cl f), 2 ≤ x := fun x hx => by
    obtain ⟨m, -, hm⟩ := List.mem_flatMap.1 hx
    exact two_le_memberCodes s cl f m x hm
  have hcodes : floeCodes s cl f = (if getB s (rFLOE_CTL cl f) 2 then [1] else []) ++ [2] ++ (floeMembers s cl f).flatMap (memberCodes s cl f) := by
    simp [floeCodes, hq, hsome, hth, hrun, hh]
  have hmin : (floeCodes s cl f).min? = some (if getB s (rFLOE_CTL cl f) 2 then 1 else 2) := by
    rw [hcodes, List.min?_eq_some_iff]
    split
    · exact ⟨by simp, fun x hx => by
        simp only [List.mem_append, List.mem_singleton] at hx
        rcases hx with (rfl | rfl) | hx
        · exact le_refl _
        · decide
        · exact le_trans (by decide) (hm x hx)⟩
    · exact ⟨by simp, fun x hx => by
        simp only [List.nil_append, List.mem_append, List.mem_singleton] at hx
        rcases hx with rfl | hx
        · exact le_refl _
        · exact hm x hx⟩
  rw [hmin, Option.getD_some]

/-- The reason of one floe in a held cycle. -/
def holdReason (cl : Nat) (s : State) (f : Nat) : State :=
  if floeRuns s cl f ∧ floeQuiesces s cl f = false then setFloeReason s cl f ((floeCodes s cl f).min?.getD 2) else s

theorem throttleRun_eq (hth : throttleHolds s cl = true) (hup : regionUp s cl = true) (hg : (clusterOf s cl).gated = false) :
    throttleRun s cl = (List.range 32).foldl (holdReason cl) s := by
  unfold throttleRun
  rw [if_neg (by simp [hth, hup, hg])]
  rfl

theorem reasonsSet_holdReason (s : State) (cl : Nat) (hf : f < 32) : ReasonsSet cl s (holdReason cl s f) := by
  unfold holdReason
  split
  · exact reasonsSet_setFloeReason s cl hf _
  · exact ReasonsSet.refl cl s

/-- A floe held in a throttle group. -/
structure HeldFloe (cl : Nat) (s : State) (f : Nat) : Prop where
  holds : throttleHolds s cl = true
  runs : floeRuns s cl f = true
  goes : floeQuiesces s cl f = false
  free : (floeOf s cl f).held = 0

theorem ReasonsSet.heldFloe_iff (hcl : cl < 32) (h : ReasonsSet cl s s') (f : Nat) : HeldFloe cl s' f ↔ HeldFloe cl s f :=
  ⟨fun ⟨a, b, c, d⟩ => ⟨h.throttleHolds_eq ▸ a, h.floeRuns_eq hcl f ▸ b, h.floeQuiesces_eq hcl f ▸ c, h.held f ▸ d⟩,
    fun ⟨a, b, c, d⟩ => ⟨h.throttleHolds_eq.trans a, (h.floeRuns_eq hcl f).trans b, (h.floeQuiesces_eq hcl f).trans c, (h.held f).trans d⟩⟩

theorem getF_holdReason_same (hcl : cl < 32) (hf : f < 32) (h : HeldFloe cl s f) :
    getF (holdReason cl s f) (rFLOE_STAT cl f) 0 4 = if getB s (rFLOE_CTL cl f) 2 then 1 else 2 := by
  rw [holdReason, if_pos ⟨h.runs, h.goes⟩, heldReason h.holds h.runs h.goes h.free]
  exact getF_setFloeReason s hcl hf (by split <;> decide)

theorem getF_holdReason_other (s : State) (_hcl : cl < 32) {f g : Nat} (_hf : f < 32) (_hg : g < 32) (h : g ≠ f) :
    getF (holdReason cl s f) (rFLOE_STAT cl g) 0 4 = getF s (rFLOE_STAT cl g) 0 4 := by
  unfold holdReason
  split
  · refine (frame_setFloeReason s cl f _).getF_eq ?_ 0 4
    simp only [List.mem_cons, List.not_mem_nil, or_false]
    unfold rFLOE_STAT rTRC_STAT clusterBase svcBase
    omega
  · rfl

/-- In a held cycle each floe that runs shows HOLD, or else THROTTLE. -/
theorem getF_holdReasons (hcl : cl < 32) : ∀ (l : List Nat) (s : State), (∀ g ∈ l, g < 32) → f < 32 → HeldFloe cl s f →
    (f ∈ l ∨ getF s (rFLOE_STAT cl f) 0 4 = if getB s (rFLOE_CTL cl f) 2 then 1 else 2) →
    getF (l.foldl (holdReason cl) s) (rFLOE_STAT cl f) 0 4 = if getB s (rFLOE_CTL cl f) 2 then 1 else 2 := by
  intro l
  induction l with
  | nil => exact fun s _ _ _ h => h.resolve_left List.not_mem_nil
  | cons g l ih =>
    intro s hl hf hheld h
    have hg := hl g List.mem_cons_self
    have hset := reasonsSet_holdReason s cl hg
    have hctl : getB (holdReason cl s g) (rFLOE_CTL cl f) 2 = getB s (rFLOE_CTL cl f) 2 := hset.floeCtl_eq f 2
    rw [List.foldl_cons, ← hctl]
    refine ih (holdReason cl s g) (fun x hx => hl x (List.mem_cons_of_mem _ hx)) hf ((hset.heldFloe_iff hcl f).2 hheld) ?_
    rw [hctl]
    by_cases hgf : f = g
    · subst hgf
      exact .inr (getF_holdReason_same hcl hf hheld)
    · rcases h with h | h
      · exact .inl ((List.mem_cons.1 h).resolve_left hgf)
      · exact .inr ((getF_holdReason_other s hcl hg hf hgf).trans h)

-- timeouts (R207) -----------------------------------------------------------------------------------------------------------------------------------

/-- The record of a floe's timeout. -/
def timeoutNoted (s : State) (cl f : Nat) : State := setF (setF s (rFLOE_STAT cl f) 5 1 1) (rFLOE_STAT cl f) 8 4 (getF s (rFLOE_STAT cl f) 0 4)

theorem timeoutRun_of_late {t0 : Nat} {m : Nat × Nat} (h0 : (floeOf s cl f).since = some t0) (hl : 0 < getF s (rSTALL_LIMIT cl) 0 20)
    (hlate : t0 + 1000 * getF s (rSTALL_LIMIT cl) 0 20 < tbNow s) (hdef : getB s (rFLOE_DEF cl f) 16 = true) (hm : floeMembers s cl f = [m])
    (hlive : slotLive s m.1 m.2 = true) (h5 : getB s (rFLOE_STAT cl f) 5 = false) :
    timeoutRun s cl f = abandonEngine (stopFloe (raiseCore (timeoutNoted s cl f) m.1 m.2 cTIMEOUT 2 2 0 (getF s (rFLOE_STAT cl f) 0 4) 0) cl f) m.1 m.2 := by
  have hbusy : floeBusy s cl f = true := by simp [floeBusy, hm, hlive]
  have hgo : ¬ (getF s (rSTALL_LIMIT cl) 0 20 = 0 ∨ tbNow s ≤ t0 + 1000 * getF s (rSTALL_LIMIT cl) 0 20 ∨ getB s (rFLOE_DEF cl f) 16 = false ∨ floeBusy s cl f = false) := by
    rw [hdef, hbusy]
    simp only [Bool.true_eq_false, or_false]
    omega
  simp only [timeoutRun, h0, if_neg hgo, h5, Bool.false_eq_true, if_false, hm, List.headD_cons, List.foldl_cons, List.foldl_nil]
  rfl

theorem timeoutNoted_stat (s : State) (cl f : Nat) : getF (timeoutNoted s cl f) (rFLOE_STAT cl f) 5 1 = 1 ∧
    getF (timeoutNoted s cl f) (rFLOE_STAT cl f) 8 4 = getF s (rFLOE_STAT cl f) 0 4 := by
  constructor
  · rw [timeoutNoted, getF_setF_otherField _ _ 8 4 _ 5 1 (by decide) (.inl (by decide)), getF_setF_same _ _ 5 1 1 (by decide)]
    rfl
  · rw [timeoutNoted, getF_setF_same _ _ 8 4 _ (by decide), Nat.mod_eq_of_lt]
    exact getF_lt s _ 0 4

theorem abandonEngine_regs (s : State) (c u : Nat) : (abandonEngine s c u).regs = s.regs := rfl
theorem abandonEngine_mem (s : State) (c u : Nat) : (abandonEngine s c u).mem = s.mem := rfl

/-- Settles O24: a late item's stall and its end, the reason of a held cycle, and a stall that lasts too long. -/
theorem floeStallsAndTimeouts : Obligations.FloeStallsAndTimeouts := by
  intro cluster floe s
  have hcl := cluster.isLt
  have hf := floe.isLt
  refine ⟨fun r hrun hq hh hr => ?_, fun hh _ hc => ?_, fun hth hup hg hrun hq hh => ?_, fun t0 m h0 hl hlate hdef hm hlive h5 => ?_⟩
  · exact ⟨_, congrArg Host.Outcome.next (stallBegin_of_late hrun hq hh hr), frame_stall s cluster floe _ _, floeOf_stall s hf _,
      getF_setFloeReason _ hcl hf r.isLt⟩
  · exact ⟨_, congrArg Host.Outcome.next (stallEnd_of_caughtUp hh hc), frame_stall s cluster floe _ 0, floeOf_stall s hf 0, getF_setFloeReason _ hcl hf (by decide)⟩
  · have hset : ReasonsSet cluster s ((List.range 32).foldl (holdReason cluster) s) :=
      ReasonsSet.foldl (fun x g hg => reasonsSet_holdReason x cluster (List.mem_range.1 hg)) s
    exact ⟨_, congrArg Host.Outcome.next (throttleRun_eq hth hup hg), hset.sameMem,
      getF_holdReasons hcl _ s (fun g hg => List.mem_range.1 hg) hf ⟨hth, hrun, hq, hh⟩ (.inl (List.mem_range.2 hf))⟩
  · obtain ⟨hmc, hmt⟩ := mem_floeMembers (m := m) (by rw [hm]; exact List.mem_singleton.2 rfl)
    have hm256 : m.1 < 256 := by omega
    obtain ⟨hst5, hst8⟩ := timeoutNoted_stat s cluster floe
    have hraise := contained_raiseCore (timeoutNoted s cluster floe) hm256 hmt (cls := cTIMEOUT) (home := 2) (by decide) (by decide) 2 0
      (getF s (rFLOE_STAT cluster floe) 0 4) 0
    have hall := hraise.trans (contained_stopFloe _ hcl hf)
    have hslot : slotLive (timeoutNoted s cluster floe) m.1 m.2 = true := by
      have hk : slotState (timeoutNoted s cluster floe) m.1 m.2 = slotState s m.1 m.2 :=
        (getF_setF_otherReg _ 8 4 _ 0 3 (by unfold rTASK_STAT coreBase rFLOE_STAT clusterBase; omega)).trans
          (getF_setF_otherReg s 5 1 1 0 3 (by unfold rTASK_STAT coreBase rFLOE_STAT clusterBase; omega))
      rw [slotLive, hk]
      exact hlive
    have h5' : slotState (raiseCore (timeoutNoted s cluster floe) m.1 m.2 cTIMEOUT 2 2 0 (getF s (rFLOE_STAT cluster floe) 0 4) 0) m.1 m.2 = 5 :=
      faulted_raiseEv (by omega) hm256 hmt rfl (show cTIMEOUT < 256 by decide) (show 2 ≤ 2 by decide) (show 2 < 4 by decide) hslot
    refine ⟨_, congrArg Host.Outcome.next (timeoutRun_of_late h0 hl hlate hdef hm hlive h5), fun a => ?_, ?_, ?_, ?_⟩
    · rw [rdByte_congr (abandonEngine_mem _ m.1 m.2)]
      exact hall.sameMem a
    · rw [getB, getF_congr (abandonEngine_regs _ m.1 m.2), hall.stat cluster floe 5 1 hcl hf (by decide), hst5]
      rfl
    · rw [getF_congr (abandonEngine_regs _ m.1 m.2), hall.stat cluster floe 8 4 hcl hf (by decide), hst8]
    · rw [slotState, getF_congr (abandonEngine_regs _ m.1 m.2)]
      exact (contained_stopFloe _ hcl hf).faulted hmt h5'

end Sys2Proof.Safety
end

section
/-! PROOF. Transfers (O28): the wait for a counter (R243), requests for source bytes (R244), and the end of a fence (R252). -/

namespace Sys2Proof.Safety

open Sys2Proof.Machine

variable {s s' t : State} {c d : Nat}

-- the active transfer ---------------------------------------------------------------------------------------------------------------------

theorem modXfer_of_active {x : Xfer} (h : (descOf s c d).active = some x) (f : Xfer → Xfer) :
    modXfer s c d x.id f = setDesc s c d { descOf s c d with active := some (f x) } := by
  rw [modXfer, h]
  exact if_pos rfl

theorem frame_modXfer (l : List Nat) (s : State) (c d id : Nat) (f : Xfer → Xfer) : Frame l s (modXfer s c d id f) := by
  unfold modXfer
  dsimp only
  split
  · split
    · exact frame_modCore l s c _
    · exact Frame.refl l s
  · exact Frame.refl l s

theorem otherCores_modXfer (s : State) (c d id : Nat) (f : Xfer → Xfer) : OtherCores c s (modXfer s c d id f) := by
  unfold modXfer
  dsimp only
  split
  · split
    · exact otherCores_modCore s c _
    · exact fun _ _ => rfl
  · exact fun _ _ => rfl

theorem active_modXfer {x : Xfer} (h : (descOf s c d).active = some x) (f : Xfer → Xfer) : (descOf (modXfer s c d x.id f) c d).active = some (f x) := by
  rw [modXfer_of_active h, descOf_setDesc_same]

theorem descOf_congr (h : s'.cores = s.cores) (c d : Nat) : descOf s' c d = descOf s c d := by rw [descOf, descOf, coreOf_congr h]

/-- A change of the active transfer writes its core's descriptors alone. -/
theorem modXfer_firnWait (s : State) (c d id : Nat) (f : Xfer → Xfer) : (modXfer s c d id f).firnWait = s.firnWait := by
  unfold modXfer
  dsimp only
  split
  · split <;> rfl
  · rfl
theorem modXfer_net (s : State) (c d id : Nat) (f : Xfer → Xfer) : (modXfer s c d id f).net = s.net := by
  unfold modXfer
  dsimp only
  split
  · split <;> rfl
  · rfl

-- waits and fences (R243, R252) ---------------------------------------------------------------------------------------------------------------

theorem descWait_of_count {x : Xfer} (hx : (descOf s c d).active = some x) (hph : x.phase = .waiting) (hw : waitcFirst s c (tWCTR x.words) = false)
    (he : ∀ e, e < d → waitsOn s c (tWCTR x.words) e = none) (hc : tWCOUNT x.words ≤ ctrAvail s c (tWCTR x.words)) :
    descWait s c d = modXfer (setF s (rCTR_VAL c (tWCTR x.words)) 0 16 (ctrValue s c (tWCTR x.words) - tWCOUNT x.words)) c d x.id fun y => { y with phase := .moving } := by
  unfold descWait
  rw [hx]
  dsimp only
  rw [if_neg (by simp [hph]), if_neg, if_pos hc]
  rintro (h | h)
  · simp [hw] at h
  · obtain ⟨e, hmem, hm⟩ := List.any_eq_true.1 h
    rw [he e (List.mem_range.1 hmem)] at hm
    exact Bool.noConfusion hm

theorem fenceRelease_of_ended {x : Xfer} (hx : (descOf s c d).active = some x) (hph : x.phase = .fenced) (ha : x.after = []) :
    fenceRelease s c d = modXfer s c d x.id fun y => { y with phase := enterPhase y } := by
  unfold fenceRelease
  rw [hx]
  exact if_pos ⟨hph, ha⟩

-- requests (R244) ---------------------------------------------------------------------------------------------------------------------------------

/-- The next piece of a transfer's source bytes. -/
def nextPiece (x : Xfer) : Nat := pieceLen x x.issued (xSrc x x.issued) 256 (xTotal x - x.issued)

/-- The firn request for that piece. -/
def pieceRequest (c d : Nat) (x : Xfer) : FirnReq :=
  { stack := xSrc x x.issued / 2 ^ 33, port := firnPortOf c (xSrc x x.issued / 2 ^ 33), off := xSrc x x.issued % 2 ^ 33, len := nextPiece x, wr := false,
    marks := if c / 8 = xSrc x x.issued / 2 ^ 33 then 0 else 64, data := [], core := c, desc := d, slot := x.slot, id := x.id, pos := x.issued }

/-- A transfer that asks for bytes: it moves, has some to ask for, and no feed holds it. -/
structure Asks (s : State) (c d : Nat) (x : Xfer) : Prop where
  active : (descOf s c d).active = some x
  phase : x.phase = .moving
  more : x.issued < xTotal x
  goes : x.stopAt = none
  feed : feedHolds s c d x = false
  elems : tDSTK x.words ≠ 4
  scales : tDSTK x.words ≠ 5

/-- Nothing holds its request, and all the bytes left of its extent may be asked for. -/
theorem Asks.goes_on {x : Xfer} (h : Asks s c d x) :
    ¬ (x.phase ≠ .moving ∨ xTotal x - x.issued = 0 ∨ x.stopAt.isSome = true ∨ feedHolds s c d x = true) ∧ ¬ xTotal x = 0 ∧
      min (xTotal x) (xTotal x - x.issued) = xTotal x - x.issued ∧ ¬ (tDSTK x.words = 4 ∨ tDSTK x.words = 5) := by
  have hmore := h.more
  refine ⟨?_, by omega, by omega, by simp [h.elems, h.scales]⟩
  simp [h.phase, h.goes, h.feed]
  omega

theorem descRequestIssue_firn {x : Xfer} (h : Asks s c d x) (hk : tSRCK x.words = 0) (hroom : firnRoom s c (xSrc x x.issued / 2 ^ 33) = true) :
    descRequestIssue s c d = modXfer (firnSend s c (pieceRequest c d x)) c d x.id fun y => { y with issued := y.issued + nextPiece x } := by
  obtain ⟨hgo, hroom0, hmin, hdst⟩ := h.goes_on
  unfold descRequestIssue
  simp only [h.active, if_neg hdst, hmin, if_neg hgo, if_neg hroom0, hk, hroom, if_true]
  rfl

theorem descRequestIssue_store {x : Xfer} (h : Asks s c d x) (hk : tSRCK x.words = 1) :
    descRequestIssue s c d = modXfer s c d x.id fun y =>
      { y with issued := y.issued + nextPiece x, arrived := y.arrived ++ rdBytes s (storeBase c + xSrc x x.issued) (nextPiece x) } := by
  obtain ⟨hgo, hroom0, hmin, hdst⟩ := h.goes_on
  unfold descRequestIssue
  simp only [h.active, if_neg hdst, hmin, if_neg hgo, if_neg hroom0, hk]
  rfl

theorem firnSend_near {r : FirnReq} (h : c / 8 = r.stack) (s : State) : firnSend s c r = { s with firnWait := s.firnWait ++ [r] } := if_pos h
theorem firnSend_far {r : FirnReq} (h : c / 8 ≠ r.stack) (s : State) : firnSend s c r = coreOut s c 0 (.firnReq r) := if_neg h

/-- Settles O28: a wait takes its count, a request leaves by its own stack or by the stream network, and a fence ends. -/
theorem transfersWaitAskAndLeaveFences : Obligations.TransfersWaitAskAndLeaveFences := by
  intro core desc s x hrun hx
  refine ⟨fun n hn hph hw he hc _ => ?wait, fun hph hmore hgo hfeed h4 h5 a n ha hn => ?asks, fun hph ha => ?fence⟩
  case wait =>
    subst hn
    have hx1 : (descOf (setF s (rCTR_VAL core (tWCTR x.words)) 0 16 (ctrValue s core (tWCTR x.words) - tWCOUNT x.words)) core desc).active = some x := hx
    refine ⟨_, congrArg Host.Outcome.next ((onCore_of_runs hrun _).trans (descWait_of_count hx hph hw he hc)),
      (frame_setF s (List.mem_singleton.2 rfl) 0 16 _).trans (frame_modXfer _ _ core desc _ _), otherCores_modXfer _ core desc _ _, ?_, active_modXfer hx1 _⟩
    have hlt : ctrValue s core (tWCTR x.words) < 2 ^ 16 := getF_lt s _ 0 16
    have hf := (frame_modXfer [] (setF s (rCTR_VAL core (tWCTR x.words)) 0 16 (ctrValue s core (tWCTR x.words) - tWCOUNT x.words)) core desc x.id
      fun y => { y with phase := .moving }).getF_eq (List.not_mem_nil (a := rCTR_VAL core (tWCTR x.words))) 0 16
    rw [ctrValue, hf, getF_setF_same _ _ 0 16 _ (by decide), Nat.mod_eq_of_lt (by omega)]
  case asks =>
    subst ha hn
    have hasks : Asks s core desc x := ⟨hx, hph, hmore, hgo, hfeed, h4, h5⟩
    refine ⟨fun hk hnear => ?near, fun hk hfar hroom => ?far, fun hk => ?store⟩
    case near =>
      have heq := (descRequestIssue_firn hasks hk (by simp [firnRoom, hnear])).trans (congrArg (modXfer · core desc x.id _) (firnSend_near hnear s))
      have hx1 : (descOf { s with firnWait := s.firnWait ++ [pieceRequest core desc x] } core desc).active = some x := hx
      have hframe : Frame [] s { s with firnWait := s.firnWait ++ [pieceRequest core desc x] } := ⟨fun _ => rfl, fun _ _ => rfl, rfl, rfl⟩
      exact ⟨_, congrArg Host.Outcome.next ((onCore_of_runs hrun _).trans heq), hframe.trans (frame_modXfer _ _ core desc _ _), otherCores_modXfer _ core desc _ _,
        active_modXfer hx1 _, pieceRequest core desc x, modXfer_firnWait _ core desc _ _, rfl, rfl, rfl, rfl, rfl, rfl⟩
    case far =>
      have heq := (descRequestIssue_firn hasks hk (by simp [firnRoom, hroom])).trans (congrArg (modXfer · core desc x.id _) (firnSend_far hfar s))
      have hx1 : (descOf (coreOut s core 0 (.firnReq (pieceRequest core desc x))) core desc).active = some x := hx
      exact ⟨_, congrArg Host.Outcome.next ((onCore_of_runs hrun _).trans heq), (frame_coreOut [] s core 0 _).trans (frame_modXfer _ _ core desc _ _),
        otherCores_modXfer _ core desc _ _, modXfer_firnWait _ core desc _ _, active_modXfer hx1 _, pieceRequest core desc x, modXfer_net _ core desc _ _, rfl, rfl, rfl,
        rfl, rfl, rfl⟩
    case store =>
      exact ⟨_, congrArg Host.Outcome.next ((onCore_of_runs hrun _).trans (descRequestIssue_store hasks hk)), frame_modXfer [] s core desc _ _,
        otherCores_modXfer s core desc _ _, active_modXfer hx _⟩
  case fence =>
    refine ⟨_, congrArg Host.Outcome.next ((onCore_of_runs hrun _).trans (fenceRelease_of_ended hx hph ha)), frame_modXfer [] s core desc _ _,
      otherCores_modXfer s core desc _ _, (active_modXfer hx _).trans ?_⟩
    simp [enterPhase, ha]

end Sys2Proof.Safety
end

section
/-! PROOF. The end of a transfer (O29): pieces written to the stationary store (R245), and completion (R242). -/

namespace Sys2Proof.Safety

open Sys2Proof.Machine

variable {s s' t : State} {c d : Nat}

-- pieces for the store (R245) -----------------------------------------------------------------------------------------------------------

/-- The next piece of what has arrived for the store. -/
def storePiece (x : Xfer) : Nat := pieceLen x x.sent (xDst x x.sent) 256 x.arrived.length

/-- The transfer after n bytes have reached their destination. -/
def landed (n : Nat) (y : Xfer) : Xfer :=
  { y with arrived := y.arrived.drop n, sent := y.sent + n, done := y.done + n, marks := if y.arrived.length ≤ n then 0 else y.marks }

theorem stopCheck_of_free {x : Xfer} (hx : (descOf s c d).active = some x) (h : x.stopAt = none) : stopCheck s c d = s := by
  simp only [stopCheck, hx, h]

theorem descDataWrite_store {x : Xfer} (hx : (descOf s c d).active = some x) (hph : x.phase = .moving) (hd : tDSTK x.words = 0) (ha : x.arrived ≠ [])
    (hs : x.stopAt = none) : descDataWrite s c d =
      modXfer (wrBytes s (storeBase c + xDst x x.sent % 2 ^ 21) (x.arrived.take (storePiece x))) c d x.id (landed (storePiece x)) := by
  have hsend : descSend s c d x = modXfer (wrBytes s (storeBase c + xDst x x.sent % 2 ^ 21) (x.arrived.take (storePiece x))) c d x.id (landed (storePiece x)) := by
    simp only [descSend, hd]
    rfl
  have hx1 : (descOf (wrBytes s (storeBase c + xDst x x.sent % 2 ^ 21) (x.arrived.take (storePiece x))) c d).active = some x := hx
  have hfeed : feedHolds s c d x = false := by simp [feedHolds, hd]
  unfold descDataWrite
  rw [hx]
  dsimp only
  rw [if_pos ⟨hph, ha, hfeed⟩, hsend]
  exact stopCheck_of_free (active_modXfer hx1 _) hs

theorem storePiece_le (x : Xfer) : storePiece x ≤ x.arrived.length := Nat.min_le_left _ _

-- completion (R242) -------------------------------------------------------------------------------------------------------------------------

/-- Only the unaddressed state of one core changed. -/
structure CoreWork (c : Nat) (s s' : State) : Prop where
  same : ∃ co, s' = { s with cores := co }
  others : OtherCores c s s'

namespace CoreWork

theorem refl (c : Nat) (s : State) : CoreWork c s s := ⟨⟨s.cores, rfl⟩, fun _ _ => rfl⟩
theorem trans (h : CoreWork c s s') (h' : CoreWork c s' t) : CoreWork c s t := by
  refine ⟨?_, h.others.trans h'.others⟩
  obtain ⟨co, rfl⟩ := h.same
  obtain ⟨co', rfl⟩ := h'.same
  exact ⟨co', rfl⟩
theorem modCore (s : State) (c : Nat) (g : CoreSt → CoreSt) : CoreWork c s (Machine.modCore s c g) := ⟨⟨_, rfl⟩, otherCores_modCore s c g⟩
theorem modSlot (s : State) (c t : Nat) (g : SlotSt → SlotSt) : CoreWork c s (Machine.modSlot s c t g) := by
  unfold Machine.modSlot setSlot
  exact modCore s c _
theorem setDesc (s : State) (c d : Nat) (x : DescSt) : CoreWork c s (Machine.setDesc s c d x) := modCore s c _
theorem foldl {α : Type*} {l : List α} {g : State → α → State} (hg : ∀ x, ∀ a ∈ l, CoreWork c x (g x a)) (s : State) : CoreWork c s (l.foldl g s) :=
  List.foldlRecOn (motive := CoreWork c s) l _ (refl c s) fun x h a ha => h.trans (hg x a ha)
theorem frame (h : CoreWork c s s') (l : List Nat) : Frame l s s' := by obtain ⟨co, rfl⟩ := h.same; exact ⟨fun _ => rfl, fun _ _ => rfl, rfl, rfl⟩

end CoreWork

theorem mget_map {α : Type} (dflt : Nat → α) (m : List (Nat × α)) (g : α → α) (x : Nat) (h : g (dflt x) = dflt x) :
    mget dflt (m.map fun p => (p.1, g p.2)) x = g (mget dflt m x) := by
  induction m with
  | nil => exact h.symm
  | cons p m ih =>
    simp only [List.map_cons, mget, ih]
    split <;> rfl

/-- What a transfer that has ended drops from the transfers that wait behind it (R252). -/
def dropAfter (id : Nat) (x : Xfer) : Xfer := { x with after := x.after.filter (· ≠ id) }
def dropAfterDesc (id : Nat) (x : DescSt) : DescSt := { x with active := x.active.map (dropAfter id), shadow := x.shadow.map (dropAfter id) }

theorem descOf_modSlot (s : State) (c t : Nat) (g : SlotSt → SlotSt) (e : Nat) : descOf (modSlot s c t g) c e = descOf s c e := by
  rw [descOf, descOf, modSlot, setSlot, coreOf_modCore_same]

theorem coreWork_fenceGone (s : State) (c id : Nat) : CoreWork c s (fenceGone s c id) :=
  (CoreWork.modCore s c _).trans (CoreWork.foldl (fun x t _ => CoreWork.modSlot x c t _) _)

theorem descOf_fenceGone (s : State) (c id e : Nat) : descOf (fenceGone s c id) c e = dropAfterDesc id (descOf s c e) := by
  have hslots (l : List Nat) (x : State) (g : SlotSt → SlotSt) : descOf (l.foldl (fun s t => modSlot s c t g) x) c e = descOf x c e := by
    induction l generalizing x with
    | nil => rfl
    | cons a l ih => rw [List.foldl_cons, ih, descOf_modSlot]
  unfold fenceGone
  dsimp only
  rw [hslots, descOf, coreOf_modCore_same]
  exact mget_map _ _ (dropAfterDesc id) e rfl

/-- The descriptor is IDLE and the fences behind the transfer are open. -/
def idled (s : State) (c d : Nat) (x : Xfer) : State := fenceGone (setDesc s c d { descOf s c d with active := none, shadow := none }) c x.id

theorem coreWork_idled (s : State) (c d : Nat) (x : Xfer) : CoreWork c s (idled s c d x) := (CoreWork.setDesc s c d _).trans (coreWork_fenceGone _ c x.id)
theorem descOf_idled (s : State) (c d : Nat) (x : Xfer) : (descOf (idled s c d x) c d).active = none ∧ (descOf (idled s c d x) c d).shadow = none := by
  rw [idled, descOf_fenceGone, descOf_setDesc_same]
  exact ⟨rfl, rfl⟩

/-- The trace record of the completion. -/
def traceEnd (s : State) (c d : Nat) (x : Xfer) : State :=
  match floeFor s c x.slot with
  | some f => traceOfFloe s (c / 8) f 4 (d + 2 ^ 32 * bits (getR64 s (rDESC_STAT c d)) 16 32) 0
  | none => s

/-- The end of a transfer, before its shadow takes the descriptor: the record, the token, and the signal. -/
def ended (s : State) (c d : Nat) (x : Xfer) : State := xSigSend (ledReturn1 (traceEnd (idled s c d x) c d x) qDESC) c x

/-- The transfer in the shadow becomes active. -/
def promoted (x y : Xfer) : Xfer := { dropAfter x.id y with phase := enterPhase (dropAfter x.id y) }

theorem descComplete_of_done {x : Xfer} (hx : (descOf s c d).active = some x) (hph : x.phase = .moving) (hd : xTotal x ≤ x.done) (hr : xSigRoom s c x = true) :
    descComplete s c d = match (descOf s c d).shadow with
      | none => ended s c d x
      | some y => setDesc (ended s c d x) c d { descOf (ended s c d x) c d with active := some (promoted x y) } := by
  have hgo : ¬ (x.phase ≠ .moving ∨ x.done < xTotal x ∨ xSigRoom s c x = false) := by
    rw [hph, hr]
    simp only [ne_eq, not_true, Bool.true_eq_false, false_or, or_false]
    omega
  unfold descComplete
  simp only [hx, if_neg hgo]
  rfl

/-- What the record and the token of a completion change: the trace, and registers below the cores' and clusters'. -/
structure EndNoted (s s' : State) : Prop where
  same : ∃ r tr, s' = { s with regs := r, trace := tr }
  pkg : ownPkg s' = ownPkg s

theorem endNoted_traceEnd (s : State) (c d : Nat) (x : Xfer) :
    EndNoted s (traceEnd s c d x) ∧ ∀ q, q < 16 → getR64 (traceEnd s c d x) (ledgerBase q + 8) = getR64 s (ledgerBase q + 8) ∧
      ledHeld (traceEnd s c d x) q = ledHeld s q := by
  have hrefl : EndNoted s s ∧ ∀ q, q < 16 → getR64 s (ledgerBase q + 8) = getR64 s (ledgerBase q + 8) ∧ ledHeld s q = ledHeld s q :=
    ⟨⟨⟨_, _, rfl⟩, rfl⟩, fun _ _ => ⟨rfl, rfl⟩⟩
  have hlost (off lo w v : Nat) (ho : 0x30_0000 ≤ off) : EndNoted s (setF s off lo w v) ∧
      ∀ q, q < 16 → getR64 (setF s off lo w v) (ledgerBase q + 8) = getR64 s (ledgerBase q + 8) ∧ ledHeld (setF s off lo w v) q = ledHeld s q := by
    have h64 (o : Nat) (h : o + 8 ≤ off) : getR64 (setF s off lo w v) o = getR64 s o := by
      rw [getR64, getR64, getR_setF_other s lo w v (by omega), getR_setF_other s lo w v (by omega)]
    refine ⟨⟨⟨_, s.trace, rfl⟩, getF_setF_otherReg s lo w v 0 16 (by unfold rPKG_ID; omega)⟩, fun q hq => ⟨h64 _ (by unfold ledgerBase; omega), ?_⟩⟩
    rw [ledHeld, ledHeld, h64 _ (by unfold ledgerBase; omega), h64 _ (by unfold ledgerBase; omega), h64 _ (by unfold ledgerBase; omega)]
  have hsvc (k : Nat) : 0x30_0000 ≤ rTRC_STAT k + 4 := by unfold rTRC_STAT svcBase; omega
  unfold traceEnd
  split
  · unfold traceOfFloe traceRec
    split
    · split
      · split
        · exact ⟨⟨⟨s.regs, _, rfl⟩, rfl⟩, fun _ _ => ⟨rfl, rfl⟩⟩
        · exact hlost _ 16 16 _ (hsvc _)
      · exact hrefl
    · exact hrefl
  · exact hrefl

/-- One token returns (R419). -/
theorem returned_ledReturn1 (s : State) {q : Nat} (h : 0 < ledHeld s q) : getR64 (ledReturn1 s q) (ledgerBase q + 8) = (getR64 s (ledgerBase q + 8) + 1) % 2 ^ 64 := by
  rw [ledReturn1, if_neg (Nat.pos_iff_ne_zero.1 h), add64, getR64_setR64, Nat.mod_mod]

theorem endNoted_ledReturn1 (s : State) (q : Nat) : EndNoted s (ledReturn1 s q) := by
  have h (off lo w v : Nat) (ho : 0x20_0000 ≤ off) : EndNoted s (setF s off lo w v) := ⟨⟨_, s.trace, rfl⟩, getF_setF_otherReg s lo w v 0 16 (by unfold rPKG_ID; omega)⟩
  have h64 (off v : Nat) (ho : 0x20_0000 ≤ off) : EndNoted s (setR64 s off v) :=
    ⟨⟨_, s.trace, rfl⟩, (frame_setR64 (l := [off, off + 4]) s (by simp) (by simp) v).getF_eq (by simp only [List.mem_cons, List.not_mem_nil, or_false]; unfold rPKG_ID; omega) 0 16⟩
  unfold ledReturn1
  split
  · exact h _ _ _ _ (by unfold ledgerBase; omega)
  · exact h64 _ _ (by unfold ledgerBase; omega)

theorem EndNoted.trans (h : EndNoted s s') (h' : EndNoted s' t) : EndNoted s t := by
  refine ⟨?_, h'.pkg.trans h.pkg⟩
  obtain ⟨r, tr, rfl⟩ := h.same
  obtain ⟨r', tr', rfl⟩ := h'.same
  exact ⟨r', tr', rfl⟩

-- the signal of a completion (R245) ---------------------------------------------------------------------------------------------------------------

/-- Where a completing transfer's last byte was written. -/
def endPlace (c : Nat) (x : Xfer) : Nat := if tDSTK x.words = 1 then xDst x (xTotal x - 1) / 2 ^ 33 else xEndCore c x / 8

theorem xSignal_core (s : State) (c : Nat) (x : Xfer) : (xSignal s c x).core = tSCORE x.words := by
  unfold xSignal
  dsimp only
  split <;> rfl

theorem xSignal_congr (h : ownPkg s' = ownPkg s) (c : Nat) (x : Xfer) : xSignal s' c x = xSignal s c x := by simp only [xSignal, h]

theorem net_outPush_congr (h : s'.net = s.net) (h' : s'.draws = s.draws) (cl l src marks : Nat) (load : NetLoad) :
    (outPush s' cl l src marks load).net = (outPush s cl l src marks load).net := by
  simp only [outPush, netItem, drawFree, setOut, outOf, h, h']

/-- A signal changes no core and no memory, and of the registers only its own ledger's. -/
structure SignalLeft (s s' : State) : Prop where
  frame : Frame [ledgerBase qCTR, ledgerBase qCTR + 4] s s'
  cores : s'.cores = s.cores

theorem signalLeft_xSigSend (s : State) (c : Nat) (x : Xfer) : SignalLeft s (xSigSend s c x) := by
  have hissue (y : State) (h : SignalLeft s y) : SignalLeft s (ledIssue y qCTR 1) := ⟨h.frame.trans (frame_ledIssue y (by simp) (by simp) 1), h.cores⟩
  unfold xSigSend
  dsimp only
  split
  · exact ⟨Frame.refl _ s, rfl⟩
  · split
    · split
      · exact hissue _ ⟨⟨fun _ => rfl, fun _ _ => rfl, rfl, rfl⟩, rfl⟩
      · exact hissue _ ⟨⟨fun _ => rfl, fun _ _ => rfl, rfl, rfl⟩, rfl⟩
    · exact ⟨frame_coreSend s _ _, cores_coreSend s _ _⟩

theorem xSigSend_none {x : Xfer} (h : tSIGEN x.words = false ∨ tDSTK x.words = 3) : xSigSend s c x = s := if_pos h

/-- A completion's signal to its own place is on its way at once. -/
theorem xSigSend_near {x : Xfer} (hs : tSIGEN x.words = true) (h3 : tDSTK x.words ≠ 3) (h : tSCORE x.words / 8 = endPlace c x) :
    (xSigSend s c x).signals = s.signals ++ [xSignal s c x] ∧ (xSigSend s c x).net = s.net := by
  unfold xSigSend
  dsimp only
  rw [if_neg (by simp [hs, h3])]
  unfold endPlace at h
  split
  next h1 =>
    rw [if_pos (by rw [xSignal_core, h, if_pos h1])]
    exact ⟨rfl, rfl⟩
  next h1 =>
    rw [coreSend, if_pos (by rw [xSignal_core, h, if_neg h1])]
    exact ⟨rfl, rfl⟩

/-- A completion's signal to another place leaves by the stream network. -/
theorem xSigSend_far {x : Xfer} (hs : tSIGEN x.words = true) (h3 : tDSTK x.words ≠ 3) (h : tSCORE x.words / 8 ≠ endPlace c x) :
    (xSigSend s c x).signals = s.signals ∧
      (xSigSend s c x).net = (if tDSTK x.words = 1 then stackOut s (endPlace c x) (tSCORE x.words) 0 (.sig (xSignal s c x))
        else coreOut s (xEndCore c x) 0 (.sig (xSignal s c x))).net := by
  unfold xSigSend
  dsimp only
  rw [if_neg (by simp [hs, h3])]
  unfold endPlace at h ⊢
  split
  next h1 =>
    rw [if_pos h1] at h
    rw [xSignal_core, if_neg (fun e => h e.symm)]
    exact ⟨rfl, rfl⟩
  next h1 =>
    rw [if_neg h1] at h
    rw [coreSend, if_neg (by rw [xSignal_core]; exact h)]
    exact ⟨rfl, rfl⟩

-- completion, together --------------------------------------------------------------------------------------------------------------------------------

/-- The state in which a completing transfer's signal leaves. -/
def tokenBack (s : State) (c d : Nat) (x : Xfer) : State := ledReturn1 (traceEnd (idled s c d x) c d x) qDESC

theorem ended_eq (s : State) (c d : Nat) (x : Xfer) : ended s c d x = xSigSend (tokenBack s c d x) c x := rfl

/-- The token returns, the descriptor is IDLE, and no memory, no other core and nothing of the network has changed. -/
structure TokenBack (s : State) (c d : Nat) (s' : State) : Prop where
  mem : SameMem s s'
  others : OtherCores c s s'
  token : 0 < ledHeld s qDESC → getR64 s' (ledgerBase qDESC + 8) = (getR64 s (ledgerBase qDESC + 8) + 1) % 2 ^ 64
  idle : (descOf s' c d).active = none ∧ (descOf s' c d).shadow = none
  signals : s'.signals = s.signals
  net : s'.net = s.net
  draws : s'.draws = s.draws
  pkg : ownPkg s' = ownPkg s

theorem tokenBack_facts (s : State) (c d : Nat) (x : Xfer) : TokenBack s c d (tokenBack s c d x) := by
  obtain ⟨⟨co, hco⟩, hother⟩ := coreWork_idled s c d x
  obtain ⟨hidle, hshadow⟩ := descOf_idled s c d x
  obtain ⟨htrace, hled⟩ := endNoted_traceEnd (idled s c d x) c d x
  have hnoted := htrace.trans (endNoted_ledReturn1 (traceEnd (idled s c d x) c d x) qDESC)
  obtain ⟨⟨r, tr, hsame⟩, hpkg⟩ := hnoted
  have hall : tokenBack s c d x = { idled s c d x with regs := r, trace := tr } := hsame
  have hidled : (idled s c d x).regs = s.regs := by rw [hco]
  have htoken (h : 0 < ledHeld s qDESC) : getR64 (tokenBack s c d x) (ledgerBase qDESC + 8) = (getR64 s (ledgerBase qDESC + 8) + 1) % 2 ^ 64 := by
    obtain ⟨h8, hheld⟩ := hled qDESC (by decide)
    have hh : ledHeld (idled s c d x) qDESC = ledHeld s qDESC := by simp only [ledHeld, getR64_congr hidled]
    rw [tokenBack, returned_ledReturn1 _ (by rw [hheld, hh]; exact h), h8, getR64_congr hidled]
  have hpkg' : ownPkg (tokenBack s c d x) = ownPkg s := hpkg.trans (getF_congr hidled _ 0 16)
  have hcores : (tokenBack s c d x).cores = (idled s c d x).cores := by rw [hall]
  exact
    { mem := fun a => by rw [rdByte_congr (s := s) (by rw [hall, hco])]
      others := fun k hk => (coreOf_congr hcores k).trans (hother k hk)
      token := htoken
      idle := by rw [descOf_congr hcores]; exact ⟨hidle, hshadow⟩
      signals := by rw [hall, hco]
      net := by rw [hall, hco]
      draws := by rw [hall, hco]
      pkg := hpkg' }

/-- What the end of a transfer leaves, its signal sent. -/
structure Ended (s : State) (c d : Nat) (x : Xfer) (s' : State) : Prop where
  mem : SameMem s s'
  others : OtherCores c s s'
  token : 0 < ledHeld s qDESC → getR64 s' (ledgerBase qDESC + 8) = (getR64 s (ledgerBase qDESC + 8) + 1) % 2 ^ 64
  signal : tSIGEN x.words = true → tDSTK x.words ≠ 3 →
    (tSCORE x.words / 8 = endPlace c x → s'.signals = s.signals ++ [xSignal s c x] ∧ s'.net = s.net) ∧
    (tSCORE x.words / 8 ≠ endPlace c x → s'.signals = s.signals ∧ s'.net = (if tDSTK x.words = 1 then stackOut s (endPlace c x) (tSCORE x.words) 0 (.sig (xSignal s c x))
      else coreOut s (xEndCore c x) 0 (.sig (xSignal s c x))).net)
  silent : tSIGEN x.words = false ∨ tDSTK x.words = 3 → s'.signals = s.signals ∧ s'.net = s.net

theorem ended_facts (s : State) (c d : Nat) (x : Xfer) :
    Ended s c d x (ended s c d x) ∧ (descOf (ended s c d x) c d).active = none ∧ (descOf (ended s c d x) c d).shadow = none := by
  have hb := tokenBack_facts s c d x
  have hl := signalLeft_xSigSend (tokenBack s c d x) c x
  have hsig := xSignal_congr (s := s) hb.pkg c x
  rw [ended_eq]
  refine ⟨⟨fun a => (hl.frame.1 a).trans (hb.mem a), fun k hk => (coreOf_congr hl.cores k).trans (hb.others k hk), fun h => ?_, fun hs h3 => ⟨fun h => ?_, fun h => ?_⟩,
    fun h => ?_⟩, ?_⟩
  · have hr := hb.token h
    rw [getR64, getR64] at hr ⊢
    rw [hl.frame.getR_eq (by decide), hl.frame.getR_eq (by decide)]
    exact hr
  · obtain ⟨h1, h2⟩ := xSigSend_near (s := tokenBack s c d x) hs h3 h
    exact ⟨by rw [h1, hb.signals, hsig], h2.trans hb.net⟩
  · obtain ⟨h1, h2⟩ := xSigSend_far (s := tokenBack s c d x) hs h3 h
    refine ⟨h1.trans hb.signals, h2.trans ?_⟩
    rw [hsig]
    split
    · exact net_outPush_congr hb.net hb.draws _ _ _ _ _
    · exact net_outPush_congr hb.net hb.draws _ _ _ _ _
  · rw [xSigSend_none h]
    exact ⟨hb.signals, hb.net⟩
  · rw [descOf_congr hl.cores]
    exact hb.idle

/-- A descriptor that is set changes nothing else. -/
theorem Ended.setDesc {x : Xfer} (h : Ended s c d x s') (y : DescSt) : Ended s c d x (Machine.setDesc s' c d y) :=
  ⟨h.mem, h.others.trans (CoreWork.setDesc s' c d y).others, h.token, h.signal, h.silent⟩

/-- Settles O29: bytes that have arrived for the store are written, and a whole transfer ends with its token, its signal and its shadow. -/
theorem transfersWriteAndComplete : Obligations.TransfersWriteAndComplete := by
  intro core desc s x hrun hx hph
  refine ⟨fun hd ha hs a n hae hn => ?_, fun hdone hheld hroom => ?_⟩
  · subst hae hn
    have hlen : (x.arrived.take (storePiece x)).length = storePiece x := by rw [List.length_take, Nat.min_eq_left (storePiece_le x)]
    have hx1 : (descOf (wrBytes s (storeBase core + xDst x x.sent % 2 ^ 21) (x.arrived.take (storePiece x))) core desc).active = some x := hx
    have hmem := (frame_modXfer [] (wrBytes s (storeBase core + xDst x x.sent % 2 ^ 21) (x.arrived.take (storePiece x))) core desc x.id (landed (storePiece x))).1
    refine ⟨_, congrArg Host.Outcome.next ((onCore_of_runs hrun _).trans (descDataWrite_store hx hph hd ha hs)), ?_, ?_, fun i hi => ?_, fun b hb => ?_, active_modXfer hx1 _⟩
    · exact (frame_modXfer [] (wrBytes s _ _) core desc _ _).2.1
    · exact otherCores_modXfer (wrBytes s _ _) core desc _ _
    · rw [hmem, rdByte_wrBytes, hlen, if_pos (by exact ⟨by omega, by exact Nat.add_lt_add_left hi _⟩), Nat.add_sub_cancel_left]
      have hi' : i < storePiece x := hi
      simp [List.getD_eq_getElem?_getD, hi']
    · rw [hmem, rdByte_wrBytes, hlen, if_neg]
      intro hc
      have : storePiece x = pieceLen x x.sent (xDst x x.sent) 256 x.arrived.length := rfl
      omega
  · obtain ⟨hend, hactive, hshadow⟩ := ended_facts s core desc x
    have hout (s' : State) (heq : descComplete s core desc = s') : exec (.descComplete core desc) s = .next s' :=
      congrArg Host.Outcome.next ((onCore_of_runs hrun _).trans heq)
    have hcomp := descComplete_of_done hx hph hdone hroom
    cases hsh : (descOf s core desc).shadow with
    | none =>
      rw [hsh] at hcomp
      refine ⟨_, hout _ hcomp, hend.mem, hend.others, hend.token hheld, fun _ => hactive, fun y hy => by simp at hy, fun hs h3 at_ hat => ?_, hend.silent⟩
      subst hat
      exact hend.signal hs h3
    | some y =>
      rw [hsh] at hcomp
      have hset := hend.setDesc { descOf (ended s core desc x) core desc with active := some (promoted x y) }
      refine ⟨_, hout _ hcomp, hset.mem, hset.others, hset.token hheld, fun h => by simp at h, fun z hz => ?_, fun hs h3 at_ hat => ?_, hset.silent⟩
      · obtain rfl : y = z := by simpa using hz
        rw [descOf_setDesc_same]
        exact ⟨hshadow, promoted x y, rfl, rfl, rfl, rfl⟩
      · subst hat
        exact hset.signal hs h3

end Sys2Proof.Safety
end

section
/-! PROOF. Near-bank commands (O30): the next output joins what has arrived (R186), and an index outside the table (R187). -/

namespace Sys2Proof.Safety

open Sys2Proof.Machine

variable {s s' t : State} {c d : Nat}

theorem active_modXfer_of {x : Xfer} {id : Nat} (h : (descOf s c d).active = some x) (hid : x.id = id) (f : Xfer → Xfer) :
    (descOf (modXfer s c d id f) c d).active = some (f x) := hid ▸ active_modXfer h f

/-- A piece that comes back in its place joins the bytes that have arrived. -/
theorem landBytes_next {y : Xfer} {bs : List Byte} {pos : Nat} (m : Nat) (he : y.early = []) (hs : y.stopAt = none) (hpos : pos = y.sent + y.arrived.length) (hb : bs ≠ []) :
    landBytes y pos m bs = { y with arrived := y.arrived ++ bs, marks := y.marks ||| m, early := [] } := by
  have hb' : bs.isEmpty = false := by simpa using hb
  simp [landBytes, hb', hs, he, takeEarly, hpos]

/-- A command's output in its own core's stack. -/
theorem nearDeliver_own {x y : Xfer} {s1 : State} {bs : List Byte} {pick : List Nat → Bool} (hx : (descOf s c d).active = some x) (hph : x.phase = .moving)
    (hk : tSRCK x.words = 3) (hpick : pick x.cmd = true) (hmore : x.issued < xTotal x) (hgo : x.stopAt = none) (hfeed : feedHolds s c d x = false)
    (hroom : tDSTK x.words = 4 → 128 ≤ feedRoom s c 4 - feedFlight s c 4) (hown : nbStack x.cmd = c / 8) (hopen : pieceOpen s (whoNear c x.slot) (nbSRC x.cmd) = true)
    (hn : nbNext s c x.slot x.cmd x.issued = (s1, bs, false)) (he : y.early = []) (hsy : y.stopAt = none)
    (hpos : y.sent + y.arrived.length = x.issued) (hb : bs ≠ []) :
    ∃ g : Xfer → Xfer, nearDeliver s c d pick = modXfer (modXfer s1 c d x.id fun y => { y with issued := y.issued + bs.length }) c d x.id g ∧
      g { y with issued := y.issued + bs.length } = { y with issued := y.issued + bs.length, arrived := y.arrived ++ bs } := by
  have hroom' : ¬ (if tDSTK x.words = 4 then feedRoom s c 4 - feedFlight s c 4 else 256) < 128 := by
    split
    next h => have := hroom h; omega
    next => decide
  have hgate : ¬ (x.phase ≠ .moving ∨ tSRCK x.words ≠ 3 ∨ pick x.cmd = false ∨ xTotal x ≤ x.issued ∨ x.stopAt.isSome = true ∨ feedHolds s c d x = true ∨
      (if tDSTK x.words = 4 then feedRoom s c 4 - feedFlight s c 4 else 256) < 128 ∨ pieceOpen s (whoNear c x.slot) (nbSRC x.cmd) = false ∨
      (nbStack x.cmd ≠ c / 8 ∧ stackRoom s (nbStack x.cmd) c = false)) := by
    simp only [hph, hk, hpick, hgo, hfeed, hopen, hown, hroom', ne_eq, not_true, Bool.true_eq_false, Option.isSome_none, Bool.false_eq_true, false_and, or_false, false_or]
    omega
  refine ⟨fun y => landBytes y x.issued 0 bs, ?_, ?_⟩
  · unfold nearDeliver
    simp only [hx, if_neg hgate, hn]
    simp only [hown, if_true, Bool.false_eq_true, if_false, readLands, Nat.or_self]
  · have hland := landBytes_next (y := { y with issued := y.issued + bs.length }) 0 he hsy hpos.symm hb
    simp only [hland, Nat.or_zero]
    rw [← he]

/-- The output of a GATHER row whose index lies outside the table is zeros, counted with the row's first byte (R187). -/
theorem nbNext_gather_outside {t' : Nat} {m : List Nat} {o : Nat} (hop : nbOP m = 1)
    (hi : listEntry s c (nbIDX m) (o / nbRBYTES m) < 0 ∨ (nbNROWS m : Int) ≤ listEntry s c (nbIDX m) (o / nbRBYTES m)) :
    nbNext s c t' m o = (if o % nbRBYTES m = 0 then nbOor s m else s, List.replicate (min 32 (nbRBYTES m - o % nbRBYTES m)) 0, false) := by
  have hrow : nbRowOut m = nbRBYTES m := by simp [nbRowOut, hop]
  have hpiece (b : Bool) : nbPiece s c t' m o b = (if o % nbRBYTES m = 0 then nbOor s m else s, List.replicate (min 32 (nbRBYTES m - o % nbRBYTES m)) 0, false) := by
    simp only [nbPiece, hop, hrow, nbRow, if_pos hi]
  simp [nbNext, hpiece]

/-- Settles O30: the six rows are one delivery, each for its own commands (`nearDeliver_own`); an index outside the table is `nbNext_gather_outside`. -/
theorem nearBankCommandsDeliver : Obligations.NearBankCommandsDeliver := by
  intro core desc s s1 x y bs hrun hx hph hk hmore hgo hfeed hroom hown hopen hn hy hid he hsy hpos hb
  have hrow (pick : List Nat → Bool) (hpick : pick x.cmd = true) : SameMem s1 (nearDeliver s core desc pick) ∧ SameRegsBut [] s1 (nearDeliver s core desc pick) ∧
      (descOf (nearDeliver s core desc pick) core desc).active = some { y with issued := y.issued + bs.length, arrived := y.arrived ++ bs } := by
    obtain ⟨g, heq, hg⟩ := nearDeliver_own hx hph hk hpick hmore hgo hfeed hroom hown hopen hn he hsy hpos hb
    have hframe := (frame_modXfer [] s1 core desc x.id fun y => { y with issued := y.issued + bs.length }).trans (frame_modXfer [] _ core desc x.id g)
    have h1 := active_modXfer_of hy hid fun y => { y with issued := y.issued + bs.length }
    have h2 := active_modXfer_of h1 hid g
    rw [heq]
    rw [hg] at h2
    exact ⟨hframe.1, hframe.2.1, h2⟩
  have hexec (i : Instr) (pick : List Nat → Bool) (hi : exec i s = .next (onCore s core (nearDeliver · core desc pick))) (hpick : pick x.cmd = true) :
      ∃ s', exec i s = .next s' ∧ SameMem s1 s' ∧ SameRegsBut [] s1 s' ∧
        (descOf s' core desc).active = some { y with issued := y.issued + bs.length, arrived := y.arrived ++ bs } :=
    ⟨_, hi.trans (congrArg Host.Outcome.next (onCore_of_runs hrun _)), hrow pick hpick⟩
  refine ⟨fun p hp hop hx4 => ?_, fun i at_ hop hi hat hout => ?_⟩
  · simp only [List.mem_cons, List.not_mem_nil, or_false] at hp
    rcases hp with rfl | rfl | rfl | rfl | rfl | rfl
    · exact hexec _ _ rfl (beq_iff_eq.2 hop)
    · exact hexec _ _ rfl (beq_iff_eq.2 hop)
    · exact hexec _ _ rfl (beq_iff_eq.2 hop)
    · exact hexec _ _ rfl (Bool.and_eq_true_iff.2 ⟨beq_iff_eq.2 hop, beq_iff_eq.2 (hx4 rfl)⟩)
    · exact hexec _ _ rfl (Bool.and_eq_true_iff.2 ⟨beq_iff_eq.2 hop, beq_iff_eq.2 (hx4 rfl)⟩)
    · exact hexec _ _ rfl (Bool.and_eq_true_iff.2 ⟨beq_iff_eq.2 hop, beq_iff_eq.2 (hx4 rfl)⟩)
  · subst hi hat
    rw [nbNext_gather_outside hop hout] at hn
    simp only [Prod.mk.injEq, and_true] at hn
    obtain ⟨hs1, hbs⟩ := hn
    refine ⟨hbs.symm, ?_⟩
    rw [← hs1]
    split
    · exact satF_field s _ 0 16 1 (by decide)
    · rfl

end Sys2Proof.Safety
end

section
/-! PROOF. Signals that are applied (O26): a counter takes its count, is past its range, or is of another generation (R214, R219, R220). -/

namespace Sys2Proof.Safety

open Sys2Proof.Machine

variable {s s' t : State} {c n : Nat}

/-- The next signal of a core is one of its own (R215). -/
theorem core_of_nextSig {l : List Sig} {g : Sig} (h : nextSig l c = some g) : g.core = c := by
  have key (l : List Sig) (o : Option Sig) (ho : ∀ b, o = some b → b.core = c) :
      ∀ g, l.foldl (fun o g => if g.core = c then (match o with | none => some g | some b => if sigBefore g b then some g else some b) else o) o = some g → g.core = c := by
    induction l generalizing o with
    | nil => exact ho
    | cons x l ih =>
      rw [List.foldl_cons]
      refine ih _ fun b hb => ?_
      split at hb
      next hx =>
        split at hb
        · cases hb; exact hx
        · split at hb
          · cases hb; exact hx
          · cases hb; exact ho _ rfl
      next => exact ho b hb
  exact key l none (fun _ h => by cases h) g h

/-- Memory, the signals on their way, and the counters of a core stand. -/
structure CountersKept (c : Nat) (s s' : State) : Prop where
  mem : SameMem s s'
  signals : s'.signals = s.signals
  regs : ∀ o, 0x400 ≤ o → o < 0xA00 → getR s' (coreBase c + o) = getR s (coreBase c + o)

namespace CountersKept

theorem refl (c : Nat) (s : State) : CountersKept c s s := ⟨fun _ => rfl, rfl, fun _ _ _ => rfl⟩
theorem trans (h : CountersKept c s s') (h' : CountersKept c s' t) : CountersKept c s t :=
  ⟨fun a => (h'.mem a).trans (h.mem a), h'.signals.trans h.signals, fun o ho ho' => (h'.regs o ho ho').trans (h.regs o ho ho')⟩
theorem foldl {α : Type*} {l : List α} {g : State → α → State} (hg : ∀ x, ∀ a ∈ l, CountersKept c x (g x a)) (s : State) : CountersKept c s (l.foldl g s) :=
  List.foldlRecOn (motive := CountersKept c s) l _ (refl c s) fun x h a ha => h.trans (hg x a ha)
theorem of_contained (h : Contained s s') : CountersKept c s s' :=
  ⟨h.sameMem, h.signals, fun o ho ho' => h.spared _ (spared_of_core (by unfold coreBase; omega) (.inr (.inl (by unfold coreBase; omega))))⟩

/-- A write of a register below the cores'. -/
theorem setR_below (s : State) (c : Nat) {off : Nat} (h : off < 0x200_0000) (v : BitVec 32) : CountersKept c s (setR s off v) :=
  ⟨fun _ => rfl, rfl, fun o _ _ => getR_setR_other s v (by unfold coreBase; omega)⟩

theorem sigReturn (s : State) (c : Nat) (g : Sig) : CountersKept c s (Machine.sigReturn s g) := by
  have h64 (off v : Nat) (ho : off + 4 < 0x200_0000) : CountersKept c s (setR64 s off v) := (setR_below s c (by omega) _).trans (setR_below _ c ho _)
  unfold Machine.sigReturn ledReturn1
  split
  · split
    · exact setR_below s c (by unfold ledgerBase qCTR; omega) _
    · exact h64 _ _ (by unfold ledgerBase qCTR; omega)
  · exact refl c s

theorem ovfWaiters (s : State) {c : Nat} (hc : c < 256) (n : Nat) : CountersKept c s (Machine.ovfWaiters s c n) := by
  refine foldl (fun x t ht => ?_) s
  have hraise (detail : Nat) : CountersKept c x (raiseCore x c t cOVERFLOW 2 2 0 detail 0) :=
    of_contained (contained_raiseCore x hc (List.mem_range.1 ht) (by decide) (by decide) _ _ _ _)
  split
  · split
    · exact hraise _
    · exact refl c x
  · exact refl c x

theorem getF_eq (h : CountersKept c s s') {o : Nat} (ho : 0x400 ≤ o) (ho' : o < 0xA00) (lo w : Nat) : getF s' (coreBase c + o) lo w = getF s (coreBase c + o) lo w := by
  rw [getF, getF, h.regs o ho ho']

variable (hn : n < 48)
include hn

theorem val (h : CountersKept c s s') (lo w : Nat) : getF s' (rCTR_VAL c n) lo w = getF s (rCTR_VAL c n) lo w := by
  have he : rCTR_VAL c n = coreBase c + (0x400 + 0x20 * n) := by unfold rCTR_VAL; omega
  rw [he, h.getF_eq (by omega) (by omega)]
theorem stat (h : CountersKept c s s') (lo w : Nat) : getF s' (rCTR_STAT c n) lo w = getF s (rCTR_STAT c n) lo w := by
  have he : rCTR_STAT c n = coreBase c + (0x408 + 0x20 * n) := by unfold rCTR_STAT; omega
  rw [he, h.getF_eq (by omega) (by omega)]
theorem lastSig (h : CountersKept c s s') : getR64 s' (rCTR_LASTSIG c n) = getR64 s (rCTR_LASTSIG c n) := by
  have he : rCTR_LASTSIG c n = coreBase c + (0x410 + 0x20 * n) := by unfold rCTR_LASTSIG; omega
  have he4 : coreBase c + (0x410 + 0x20 * n) + 4 = coreBase c + (0x414 + 0x20 * n) := by omega
  rw [he, getR64, getR64, he4, h.regs _ (by omega) (by omega), h.regs _ (by omega) (by omega)]

end CountersKept

-- the three outcomes ---------------------------------------------------------------------------------------------------------------------

/-- A signal of another generation counts as stale (R220). -/
theorem applySignal_stale {g : Sig} (hg : g.core = c) (hc : c < 256) (hn : g.ctr < 48) (h : g.gen ≠ ctrGen s c g.ctr) :
    CountersKept c (satF s (rCTR_STAT c g.ctr) 16 16 1) (applySignal s g) := by
  subst hg
  rw [applySignal, if_neg (by omega), if_pos h]
  exact (CountersKept.of_contained (noted_raiseEv_unowned _ (by omega) rfl (show cSTALE < 256 by decide) (show 0 < 4 by decide)).contained).trans
    (CountersKept.sigReturn _ _ g)

/-- A signal past the range sets OVF (R219). -/
theorem applySignal_overflow {g : Sig} (hg : g.core = c) (hc : c < 256) (hn : g.ctr < 48) (h : g.gen = ctrGen s c g.ctr) (ho : 65535 < ctrValue s c g.ctr + g.count) :
    CountersKept c (setF s (rCTR_STAT c g.ctr) 1 1 1) (applySignal s g) := by
  subst hg
  rw [applySignal, if_neg (by omega), if_neg (not_not.2 h), if_pos ho]
  refine CountersKept.trans (CountersKept.trans ?_ (CountersKept.ovfWaiters _ hc _)) (CountersKept.sigReturn _ _ g)
  split
  · exact CountersKept.of_contained (contained_raiseEv _ (by omega) hc (getF_lt s _ 1 2) rfl (show cOVERFLOW < 256 by decide) (show 2 < 4 by decide))
  · exact CountersKept.of_contained (noted_raiseEv_unowned _ (by omega) rfl (show cOVERFLOW < 256 by decide) (show 2 < 4 by decide)).contained

/-- A signal that its counter takes (R214, R223). -/
theorem applySignal_taken {g : Sig} (hg : g.core = c) (hn : g.ctr < 48) (h : g.gen = ctrGen s c g.ctr) (ho : ctrValue s c g.ctr + g.count ≤ 65535) :
    CountersKept c (setR64 (setF s (rCTR_VAL c g.ctr) 0 16 (ctrValue s c g.ctr + g.count)) (rCTR_LASTSIG c g.ctr) (sigRecord s g)) (applySignal s g) := by
  subst hg
  rw [applySignal, if_neg (by omega), if_neg (not_not.2 h), if_neg (by omega)]
  exact (CountersKept.sigReturn _ _ g).trans (CountersKept.of_contained (contained_grantAll _ _ _))

/-- What the counter of a signal reads when the signal has been applied (R214, R219, R220). -/
structure Counted (s s' : State) (c n : Nat) (g : Sig) : Prop where
  gen : ctrGen s' c n = ctrGen s c n
  taken : g.gen = ctrGen s c n → ctrValue s c n + g.count ≤ 65535 →
    ctrValue s' c n = ctrValue s c n + g.count ∧ getR64 s' (rCTR_LASTSIG c n) = sigRecord s g % 2 ^ 64
  stale : g.gen ≠ ctrGen s c n → ctrValue s' c n = ctrValue s c n ∧ getF s' (rCTR_STAT c n) 16 16 = min 65535 (getF s (rCTR_STAT c n) 16 16 + 1)
  overflow : g.gen = ctrGen s c n → 65535 < ctrValue s c n + g.count → ctrValue s' c n = ctrValue s c n ∧ getB s' (rCTR_STAT c n) 1 = true

theorem getF_setF_stat (s : State) (c n lo w v lo' w' : Nat) : getF (setF s (rCTR_STAT c n) lo w v) (rCTR_VAL c n) lo' w' = getF s (rCTR_VAL c n) lo' w' :=
  getF_setF_otherReg s lo w v lo' w' (by unfold rCTR_VAL rCTR_STAT; omega)

theorem getF_setR64_lastSig (s : State) (c n v lo w : Nat) : getF (setR64 s (rCTR_LASTSIG c n) v) (rCTR_VAL c n) lo w = getF s (rCTR_VAL c n) lo w :=
  (frame_setR64 (l := [rCTR_LASTSIG c n, rCTR_LASTSIG c n + 4]) s (by simp) (by simp) v).getF_eq
    (by simp only [List.mem_cons, List.not_mem_nil, or_false]; unfold rCTR_VAL rCTR_LASTSIG; omega) lo w

theorem counted_taken {g : Sig} (hn : n < 48) (hgen : g.gen = ctrGen s c n) (hsum : ctrValue s c n + g.count ≤ 65535)
    (hk : CountersKept c (setR64 (setF s (rCTR_VAL c n) 0 16 (ctrValue s c n + g.count)) (rCTR_LASTSIG c n) (sigRecord s g)) s') : Counted s s' c n g := by
  refine ⟨?_, fun _ _ => ⟨?_, ?_⟩, fun h => absurd hgen h, fun _ h => absurd hsum (by omega)⟩
  · rw [ctrGen, hk.val hn, getF_setR64_lastSig, getF_setF_otherField s _ 0 16 _ 16 4 (by decide) (.inr (by decide)), ← ctrGen]
  · rw [ctrValue, hk.val hn, getF_setR64_lastSig, getF_setF_same s _ 0 16 _ (by decide)]
    exact Nat.mod_eq_of_lt (by omega)
  · rw [hk.lastSig hn, getR64_setR64]

theorem counted_overflow {g : Sig} (hn : n < 48) (hgen : g.gen = ctrGen s c n) (hsum : ¬ ctrValue s c n + g.count ≤ 65535)
    (hk : CountersKept c (setF s (rCTR_STAT c n) 1 1 1) s') : Counted s s' c n g := by
  refine ⟨?_, fun _ h => absurd h hsum, fun h => absurd hgen h, fun _ _ => ⟨?_, ?_⟩⟩
  · rw [ctrGen, hk.val hn, getF_setF_stat, ← ctrGen]
  · rw [ctrValue, hk.val hn, getF_setF_stat, ← ctrValue]
  · rw [getB, hk.stat hn, getF_setF_same s _ 1 1 1 (by decide)]
    rfl

theorem counted_stale {g : Sig} (hn : n < 48) (hgen : g.gen ≠ ctrGen s c n) (hk : CountersKept c (satF s (rCTR_STAT c n) 16 16 1) s') : Counted s s' c n g := by
  refine ⟨?_, fun h => absurd h hgen, fun _ => ⟨?_, ?_⟩, fun h => absurd h hgen⟩
  · rw [ctrGen, hk.val hn, satF, getF_setF_stat, ← ctrGen]
  · rw [ctrValue, hk.val hn, satF, getF_setF_stat, ← ctrValue]
  · rw [hk.stat hn]
    exact satF_field s _ 16 16 1 (by decide)

/-- Writes of registers only: memory and the signals on their way stand. -/
structure SigMemKept (s s' : State) : Prop where
  mem : s'.mem = s.mem
  signals : s'.signals = s.signals

theorem SigMemKept.setF (s : State) (off lo w v : Nat) : SigMemKept s (setF s off lo w v) := ⟨setF_mem s off lo w v, setF_signals s off lo w v⟩
theorem SigMemKept.setR64 (s : State) (off v : Nat) : SigMemKept s (setR64 s off v) := ⟨setR64_mem s off v, setR64_signals s off v⟩
theorem SigMemKept.trans (h : SigMemKept s s') (h' : SigMemKept s' t) : SigMemKept s t := ⟨h'.mem.trans h.mem, h'.signals.trans h.signals⟩

theorem SigMemKept.then_kept (h : SigMemKept s s') (hk : CountersKept c s' t) : SameMem s t ∧ t.signals = s.signals :=
  ⟨fun a => (hk.mem a).trans (rdByte_congr h.mem a), hk.signals.trans h.signals⟩

/-- A signal of a core is applied: memory and the other signals stand. -/
theorem applySignal_facts {g : Sig} (hg : g.core = c) (hc : c < 256) (hn : g.ctr < 48) :
    (SameMem s (applySignal s g) ∧ (applySignal s g).signals = s.signals) ∧ Counted s (applySignal s g) c g.ctr g := by
  by_cases hgen : g.gen = ctrGen s c g.ctr
  · rcases Nat.lt_or_ge 65535 (ctrValue s c g.ctr + g.count) with hsum | hsum
    · have hk := applySignal_overflow hg hc hn hgen hsum
      exact ⟨(SigMemKept.setF s _ 1 1 1).then_kept hk, counted_overflow hn hgen (Nat.not_le.2 hsum) hk⟩
    · have hk := applySignal_taken hg hn hgen hsum
      exact ⟨((SigMemKept.setF s _ 0 16 _).trans (SigMemKept.setR64 _ _ _)).then_kept hk, counted_taken hn hgen hsum hk⟩
  · have hk := applySignal_stale hg hc hn hgen
    exact ⟨(SigMemKept.setF s _ 16 16 _).then_kept hk, counted_stale hn hgen hk⟩

/-- The signals on their way without one. -/
def withoutSignal (s : State) (g : Sig) : State := { s with signals := s.signals.erase g }

theorem signalApply_of_next {g : Sig} (hr : c ∉ s.resetting) (hg : nextSig s.signals c = some g) : signalApply s c = applySignal (withoutSignal s g) g := by
  simp only [signalApply, hr, if_false, hg]
  rfl

theorem getF_withoutSignal (s : State) (g : Sig) (off lo w : Nat) : getF (withoutSignal s g) off lo w = getF s off lo w := rfl
theorem sigRecord_withoutSignal (s : State) (g : Sig) : sigRecord (withoutSignal s g) g = sigRecord s g := by simp only [sigRecord, tbNow, withoutSignal]

theorem Counted.of_withoutSignal {g : Sig} (h : Counted (withoutSignal s g) s' c n g) : Counted s s' c n g := by
  obtain ⟨h1, h2, h3, h4⟩ := h
  simp only [ctrGen, ctrValue, getF_withoutSignal, sigRecord_withoutSignal] at h1 h2 h3 h4
  exact ⟨h1, h2, h3, h4⟩

/-- Settles O26: the next signal of a core is stale, past the range, or taken. -/
theorem signalsAddToTheirCounter : Obligations.SignalsAddToTheirCounter := by
  intro core s g hreach hr hg hn
  obtain ⟨⟨hmem, hsig⟩, hcount⟩ := applySignal_facts (s := withoutSignal s g) (core_of_nextSig hg) core.isLt hn
  obtain ⟨h1, h2, h3, h4⟩ := hcount.of_withoutSignal
  exact ⟨_, congrArg Host.Outcome.next ((if_pos hreach).trans (signalApply_of_next hr hg)), hmem, hsig, h1, h2, h3, h4⟩

end Sys2Proof.Safety
end

section
/-! SUPPORT. Beats without an error pattern (R163, R172): what `readKeys` and `writeKeys` do where no stored codeword is off. -/

namespace Sys2Proof.Safety

open Sys2Proof.Machine

variable {s s' t : State} {c d : Nat}

theorem rdBytes_length (s : State) (a n : Nat) : (rdBytes s a n).length = n := by simp [rdBytes]
theorem rdBytes_congr (h : s'.mem = s.mem) (a n : Nat) : rdBytes s' a n = rdBytes s a n := by
  unfold rdBytes
  exact List.map_congr_left fun i _ => rdByte_congr h _

/-- Consecutive runs of bytes join. -/
theorem rdBytes_add (s : State) (a m n : Nat) : rdBytes s a (m + n) = rdBytes s a m ++ rdBytes s (a + m) n := by
  unfold rdBytes
  rw [List.range_add, List.map_append, List.map_map]
  exact congrArg _ (List.map_congr_left fun i _ => congrArg (rdByte s) (Nat.add_assoc a m i).symm)

/-- A run of bytes inside a run of bytes. -/
theorem take_drop_rdBytes (s : State) {a i m n : Nat} (h : i + m ≤ n) : ((rdBytes s a n).drop i).take m = rdBytes s (a + i) m := by
  obtain ⟨k, rfl⟩ := Nat.exists_eq_add_of_le h
  rw [rdBytes_add, rdBytes_add, List.append_assoc, List.drop_left' (rdBytes_length s a i), List.take_left' (rdBytes_length s _ m)]

theorem errSym_zero (i : Nat) : errSym 0 i = 0 := by
  rw [errSym, show (0 : BitVec 288).toNat = 0 from BitVec.toNat_zero, bits, Nat.zero_shiftRight, Nat.zero_mod]

theorem readBeat_clean (h : s.beatErr = []) (key : Nat) (w : FirnWho) : readBeat s key w = (s, some (rdBytes s key 32)) := by
  have h0 : beatErrOf s key = 0 := by simp [beatErrOf, h]
  have hdec : eccDecode 0 = .clean := if_pos rfl
  have hsym (b : Byte) (i : Nat) : b ^^^ BitVec.ofNat 8 (errSym 0 i) = b := by rw [errSym_zero]; exact BitVec.xor_zero
  simp only [readBeat, h0, hdec, beatBytes, hsym, rdBytes]

/-- The piece of a beat is all that is left, or ends with the beat. -/
theorem beatPiece_cases (key n : Nat) : (beatPiece key n = n ∧ key % 32 + n ≤ 32) ∨ (key % 32 + beatPiece key n = 32 ∧ beatPiece key n < n) := by
  have hlt := Nat.mod_lt key (show 0 < 32 by decide)
  rcases Nat.le_total n (32 - key % 32) with h | h
  · have : beatPiece key n = n := Nat.min_eq_left h
    omega
  · have : beatPiece key n = 32 - key % 32 := Nat.min_eq_right h
    omega

/-- A read of beats that are not off is the bytes that stand there (R173). -/
theorem readKeys_clean (h : s.beatErr = []) (w : FirnWho) {fuel key n : Nat} (hfuel : n = 0 ∨ key % 32 + n ≤ 32 * fuel) : readKeys s w fuel key n = (s, rdBytes s key n, false) := by
  induction fuel generalizing key n with
  | zero =>
    obtain rfl : n = 0 := by omega
    rfl
  | succ fuel ih =>
    rw [readKeys]
    split
    next h0 => subst h0; rfl
    next h0 =>
      have hcases := beatPiece_cases key n
      have hmn : beatPiece key n ≤ n := by omega
      have hm32 : key % 32 + beatPiece key n ≤ 32 := by omega
      have hrest : n - beatPiece key n = 0 ∨ (key + beatPiece key n) % 32 + (n - beatPiece key n) ≤ 32 * fuel := by omega
      have hsplit : rdBytes s key (beatPiece key n) ++ rdBytes s (key + beatPiece key n) (n - beatPiece key n) = rdBytes s key n := by
        rw [← rdBytes_add, Nat.add_sub_cancel' hmn]
      simp only [readBeat_clean h, ih hrest, take_drop_rdBytes s hm32, Nat.div_add_mod' key 32, hsplit]

/-- Bytes are written at their places, and no error pattern comes to stand. -/
structure BytesPut (s : State) (key : Nat) (bs : List Byte) (s' : State) : Prop where
  put : ∀ b, rdByte s' b = if key ≤ b ∧ b < key + bs.length then bs.getD (b - key) 0 else rdByte s b
  clean : s'.beatErr = []
  firnEnt : s'.firnEnt = s.firnEnt
  regs : s'.regs = s.regs
  cores : s'.cores = s.cores
  rows : s'.firnStacks = s.firnStacks

/-- An error pattern of zero on a clean memory. -/
theorem setBeatErr_clean (h : s.beatErr = []) (key : Nat) : setBeatErr s key 0 = s := by
  have hset : mset (fun _ => (0 : BitVec 288)) [] (key / 32) 0 = [] := if_pos rfl
  rw [setBeatErr, h, hset, ← h]

theorem wrBytes_clean (h : s.beatErr = []) (a : Nat) (bs : List Byte) : (wrBytes s a bs).beatErr = [] := h

theorem BytesPut.of_wrBytes (h : s.beatErr = []) (key : Nat) (bs : List Byte) : BytesPut s key bs (wrBytes s key bs) :=
  ⟨fun b => rdByte_wrBytes s key b bs, h, rfl, rfl, rfl, rfl⟩

/-- A beat's old bytes around the new ones (R174). -/
theorem bytesPut_merge (h : s.beatErr = []) {key : Nat} {bs : List Byte} (hfit : key % 32 + bs.length ≤ 32) :
    BytesPut s key bs (wrBytes s (key / 32 * 32) ((rdBytes s (key / 32 * 32) 32).take (key % 32) ++ bs ++ (rdBytes s (key / 32 * 32) 32).drop (key % 32 + bs.length))) := by
  refine ⟨fun b => ?_, h, rfl, rfl, rfl, rfl⟩
  have hdiv := Nat.div_add_mod' key 32
  have hget (i : Nat) (hi : i < 32) : (rdBytes s (key / 32 * 32) 32)[i]? = some (rdByte s (key / 32 * 32 + i)) := by
    simp [rdBytes, hi]
  rw [rdByte_wrBytes]
  simp only [List.length_append, List.length_take, List.length_drop, rdBytes_length, List.getD_eq_getElem?_getD]
  split
  next hin =>
    have hi : b - key / 32 * 32 < 32 := by omega
    split
    next hb =>
      rw [List.getElem?_append_left (by simp [rdBytes_length]; omega), List.getElem?_append_right (by simp [rdBytes_length]; omega)]
      congr 2
      simp [rdBytes_length]
      omega
    next hb =>
      rcases Nat.lt_or_ge b key with hlow | hhigh
      · rw [List.getElem?_append_left (by simp [rdBytes_length]; omega), List.getElem?_append_left (by simp [rdBytes_length]; omega),
          List.getElem?_take_of_lt (by omega), hget _ hi]
        exact congrArg (rdByte s) (by omega)
      · rw [List.getElem?_append_right (by simp [rdBytes_length]; omega), List.getElem?_drop, hget _ (by simp [rdBytes_length]; omega)]
        exact congrArg (rdByte s) (by simp [rdBytes_length]; omega)
  next hin => rw [if_neg (by omega)]

theorem writeBeat_clean (h : s.beatErr = []) {key : Nat} {bs : List Byte} (hfit : key % 32 + bs.length ≤ 32) (w : FirnWho) :
    (writeBeat s key bs w).2 = false ∧ BytesPut s key bs (writeBeat s key bs w).1 := by
  unfold writeBeat
  split
  · refine ⟨rfl, ?_⟩
    dsimp only
    rw [setBeatErr_clean (wrBytes_clean h key bs)]
    exact BytesPut.of_wrBytes h key bs
  · simp only [readBeat_clean h]
    refine ⟨trivial, ?_⟩
    rw [setBeatErr_clean (wrBytes_clean h _ _)]
    exact bytesPut_merge h hfit

/-- Bytes written after bytes, each at their places. -/
theorem BytesPut.append {key : Nat} {bs cs : List Byte} (h : BytesPut s key bs s') (h' : BytesPut s' (key + bs.length) cs t) : BytesPut s key (bs ++ cs) t := by
  refine ⟨fun b => ?_, h'.clean, h'.firnEnt.trans h.firnEnt, h'.regs.trans h.regs, h'.cores.trans h.cores, h'.rows.trans h.rows⟩
  rw [h'.put b, h.put b, List.length_append, List.getD_eq_getElem?_getD, List.getD_eq_getElem?_getD, List.getD_eq_getElem?_getD]
  rcases Nat.lt_or_ge b (key + bs.length) with hlow | hhigh
  · rw [if_neg (by omega)]
    split
    next hb => rw [if_pos (by omega), List.getElem?_append_left (by omega)]
    next hb => rw [if_neg (by omega)]
  · split
    next hb => rw [if_pos (by omega), List.getElem?_append_right (by omega), Nat.sub_sub]
    next hb => rw [if_neg (by omega), if_neg (by omega)]

theorem BytesPut.nil (h : s.beatErr = []) (key : Nat) : BytesPut s key [] s :=
  ⟨fun b => (if_neg (by simp)).symm, h, rfl, rfl, rfl, rfl⟩

/-- A write of beats that are not off stores its bytes whole or merged (R163, R174). -/
theorem writeKeys_clean (h : s.beatErr = []) (w : FirnWho) {fuel key : Nat} {bs : List Byte} (hfuel : bs.length = 0 ∨ key % 32 + bs.length ≤ 32 * fuel) :
    (writeKeys s w fuel key bs).2 = false ∧ BytesPut s key bs (writeKeys s w fuel key bs).1 := by
  induction fuel generalizing s key bs with
  | zero =>
    obtain rfl : bs = [] := List.length_eq_zero_iff.1 (by omega)
    exact ⟨rfl, BytesPut.nil h key⟩
  | succ fuel ih =>
    rw [writeKeys]
    split
    next h0 =>
      obtain rfl := List.isEmpty_iff.1 h0
      exact ⟨rfl, BytesPut.nil h key⟩
    next h0 =>
      have hcases := beatPiece_cases key bs.length
      have hlen : (bs.take (beatPiece key bs.length)).length = beatPiece key bs.length := by rw [List.length_take]; omega
      obtain ⟨hb, hput⟩ := writeBeat_clean h (bs := bs.take (beatPiece key bs.length)) (key := key) (by rw [hlen]; omega) w
      obtain ⟨hb', hput'⟩ := ih hput.clean (key := key + beatPiece key bs.length) (bs := bs.drop (beatPiece key bs.length))
        (by rw [List.length_drop]; omega)
      refine ⟨?_, ?_⟩
      · simp only [hb, hb', Bool.or_self]
      · have happ := hput.append (by rw [hlen]; exact hput')
        rwa [List.take_append_drop] at happ

end Sys2Proof.Safety
end

section
/-! PROOF. Requests to firn (O31): an entry is taken (R160, R202), and one that is due is served (R162, R163, R167, R174). -/

namespace Sys2Proof.Safety

open Sys2Proof.Machine

variable {s s' t : State} {c d : Nat} {r : FirnReq}

-- an entry leaves ------------------------------------------------------------------------------------------------------------------------------

/-- The entry of a request is freed: its row is open, its token is back (R167). -/
def entryFreed (s : State) (r : FirnReq) : State := ledReturn1 (openRow { s with firnEnt := s.firnEnt.erase r } (entKey r)) qFIRNREQ

/-- The entry is gone and nothing else but its row and its token. -/
structure EntryGone (s : State) (r : FirnReq) (s' : State) : Prop where
  firnEnt : s'.firnEnt = s.firnEnt.erase r
  mem : s'.mem = s.mem
  beatErr : s'.beatErr = s.beatErr
  cores : s'.cores = s.cores
  net : s'.net = s.net
  draws : s'.draws = s.draws

theorem EntryGone.setR64 (h : EntryGone s r t) (off v : Nat) : EntryGone s r (Machine.setR64 t off v) := ⟨h.firnEnt, h.mem, h.beatErr, h.cores, h.net, h.draws⟩
theorem EntryGone.setF (h : EntryGone s r t) (off lo w v : Nat) : EntryGone s r (Machine.setF t off lo w v) := ⟨h.firnEnt, h.mem, h.beatErr, h.cores, h.net, h.draws⟩
theorem EntryGone.ledReturn1 (h : EntryGone s r t) (q : Nat) : EntryGone s r (Machine.ledReturn1 t q) := by
  unfold Machine.ledReturn1
  split
  · exact h.setF _ _ _ _
  · exact h.setR64 _ _
theorem EntryGone.openRow (h : EntryGone s r t) (key : Nat) : EntryGone s r (Machine.openRow t key) := ⟨h.firnEnt, h.mem, h.beatErr, h.cores, h.net, h.draws⟩
theorem entryGone_erase (s : State) (r : FirnReq) : EntryGone s r { s with firnEnt := s.firnEnt.erase r } := ⟨rfl, rfl, rfl, rfl, rfl, rfl⟩

theorem entryGone_entryFreed (s : State) (r : FirnReq) : EntryGone s r (entryFreed s r) := ((entryGone_erase s r).openRow _).ledReturn1 _

theorem outPush_mem (s : State) (cl l src marks : Nat) (load : NetLoad) : (outPush s cl l src marks load).mem = s.mem := rfl
theorem outPush_firnEnt (s : State) (cl l src marks : Nat) (load : NetLoad) : (outPush s cl l src marks load).firnEnt = s.firnEnt := rfl

theorem reqXfer_active {x : Xfer} (h : reqXfer s r = some x) : (descOf s r.core r.desc).active = some x ∧ x.id = r.id := by
  unfold reqXfer at h
  split at h
  next y hy =>
    split at h
    next hid => cases h; exact ⟨hy, hid⟩
    next => cases h
  next => cases h

/-- What a read entry leaves before its bytes go (R167, R173). -/
theorem serveRead_clean (hb : s.beatErr = []) (hfit : entKey r % 256 + r.len ≤ 256) :
    serveRead s r = if r.port < 8 then readLands (entryFreed s r) r 0 (rdBytes s (entKey r) r.len) false
      else stackOut (entryFreed s r) r.stack r.core 0 (.firnData r (rdBytes s (entKey r) r.len) false) := by
  have hgone := entryGone_entryFreed s r
  have hread (w : FirnWho) : readKeys (entryFreed s r) w 9 (entKey r) r.len = (entryFreed s r, rdBytes s (entKey r) r.len, false) := by
    rw [readKeys_clean (hgone.beatErr.trans hb) w (.inr (by omega)), rdBytes_congr hgone.mem]
  unfold serveRead
  rw [← entryFreed]
  simp only [hread]

theorem serveOldest_of {k ch port : Nat} {pick : FirnReq → Bool} (serve : State → FirnReq → State) (hopen : (stackOf s k).open_ = true)
    (hfind : s.firnEnt.find? (fun r => r.stack == k && entChan r == ch && r.port == port && pick r) = some r) (hready : entryReady s r = true)
    (hroom : r.wr = true ∨ r.port < 8 ∨ stackRoom s r.stack r.core = true) : serveOldest s k ch port pick serve = serve s r := by
  have hstack : r.stack = k := by
    have := List.find?_some hfind
    simp only [Bool.and_eq_true, beq_iff_eq] at this
    exact this.1.1.1
  have hroom' : (r.wr || decide (r.port < 8) || stackRoom s k r.core) = true := by
    simpa only [Bool.or_eq_true, decide_eq_true_eq, hstack, or_assoc] using hroom
  unfold serveOldest
  rw [hfind, if_neg (by rw [hopen]; decide)]
  exact if_pos (Bool.and_eq_true_iff.2 ⟨hready, hroom'⟩)

theorem firnEnt_modXfer (s : State) (c d id : Nat) (f : Xfer → Xfer) : (modXfer s c d id f).firnEnt = s.firnEnt := by
  unfold modXfer
  dsimp only
  split
  · split <;> rfl
  · rfl

/-- A read of the stack's own cores: its bytes join what has arrived. -/
theorem serveRead_own {x : Xfer} (hb : s.beatErr = []) (hx : reqXfer s r = some x) (hfit : entKey r % 256 + r.len ≤ 256) (hlen : 0 < r.len) (hport : r.port < 8)
    (he : x.early = []) (hs : x.stopAt = none) (hpos : x.sent + x.arrived.length = r.pos) :
    SameMem s (serveRead s r) ∧ (serveRead s r).firnEnt = s.firnEnt.erase r ∧
      (descOf (serveRead s r) r.core r.desc).active = some { x with arrived := x.arrived ++ rdBytes s (entKey r) r.len, marks := x.marks ||| r.marks } := by
  obtain ⟨hact, hid⟩ := reqXfer_active hx
  have hgone := entryGone_entryFreed s r
  have hact' : (descOf (entryFreed s r) r.core r.desc).active = some x := by rw [descOf_congr hgone.cores, hact]
  have hne : rdBytes s (entKey r) r.len ≠ [] := List.ne_nil_of_length_pos (by rw [rdBytes_length]; exact hlen)
  have hland := landBytes_next (y := x) (r.marks ||| 0) he hs hpos.symm hne
  rw [serveRead_clean hb hfit, if_pos hport, readLands]
  simp only [Bool.false_eq_true, if_false]
  refine ⟨fun a => ?_, ?_, ?_⟩
  · rw [(frame_modXfer [] _ r.core r.desc r.id _).1 a, rdByte_congr hgone.mem]
  · rw [firnEnt_modXfer, hgone.firnEnt]
  · rw [active_modXfer_of hact' hid, hland, Nat.or_zero, ← he]

/-- A read of another node's cores: its bytes go by the stream network (R15). -/
theorem serveRead_away (hb : s.beatErr = []) (hfit : entKey r % 256 + r.len ≤ 256) (hport : 8 ≤ r.port) :
    SameMem s (serveRead s r) ∧ (serveRead s r).firnEnt = s.firnEnt.erase r ∧
      (serveRead s r).net = (stackOut s r.stack r.core 0 (.firnData r (rdBytes s (entKey r) r.len) false)).net := by
  have hgone := entryGone_entryFreed s r
  rw [serveRead_clean hb hfit, if_neg (by omega)]
  exact ⟨fun a => rdByte_congr ((outPush_mem _ _ _ _ _ _).trans hgone.mem) a, (outPush_firnEnt _ _ _ _ _ _).trans hgone.firnEnt, net_outPush_congr hgone.net hgone.draws _ _ _ _ _⟩

/-- A write entry is served: its bytes stand at their places (R163, R174). -/
theorem serveWrite_clean (hb : s.beatErr = []) (hlen : r.data.length = r.len) (hfit : entKey r % 256 + r.len ≤ 256) :
    (serveWrite s r).firnEnt = s.firnEnt.erase r ∧ (∀ i, i < r.len → rdByte (serveWrite s r) (entKey r + i) = r.data.getD i 0) ∧
      ∀ b, (b < entKey r ∨ entKey r + r.len ≤ b) → rdByte (serveWrite s r) b = rdByte s b := by
  have hgone := entryGone_entryFreed s r
  obtain ⟨hbad, hput⟩ := writeKeys_clean (hgone.beatErr.trans hb) (whoDesc r.core r.slot) (fuel := 9) (key := entKey r) (bs := r.data) (.inr (by omega))
  have hserve : serveWrite s r = (writeKeys (entryFreed s r) (whoDesc r.core r.slot) 9 (entKey r) r.data).1 := by
    unfold serveWrite
    rw [← entryFreed]
    simp only [hbad, Bool.false_eq_true, if_false]
  rw [hserve]
  refine ⟨hput.firnEnt.trans hgone.firnEnt, fun i hi => ?_, fun b hb => ?_⟩
  · rw [hput.put, if_pos ⟨Nat.le_add_right _ _, by omega⟩, Nat.add_sub_cancel_left]
  · rw [hput.put, if_neg (by omega), rdByte_congr hgone.mem]

-- an entry is taken ----------------------------------------------------------------------------------------------------------------------------

theorem firnRequestEnter_read {k ch port : Nat} (hfind : s.firnWait.find? (fun r => r.stack == k && r.port == port && waitChan s r == ch) = some r)
    (hopen : (stackOf s k).open_ = true) (hwr : r.wr = false) (hfree : portUsedBy s k ch port < portEntries s k port) :
    firnRequestEnter s k ch port = ledIssue { { s with firnWait := s.firnWait.erase r } with
      firnEnt := s.firnEnt ++ [{ r with phys := firnPlace (mapMode s k) r.off, marks := if inWindow s k (firnPlace (mapMode s k) r.off) then r.marks ||| 8 else r.marks }] }
      qFIRNREQ 1 := by
  have hgo : ¬ ((stackOf s k).open_ = false ∨ portEntries s k port ≤ portUsedBy s k ch port) := by simp [hopen, hfree]
  unfold firnRequestEnter
  simp only [hfind, if_neg hgo, hwr, Bool.false_eq_true, false_and, if_false]
  rfl

/-- Settles O31: a read takes an entry; a served read delivers what stands there, a served write stores its bytes. -/
theorem firnRequestsEnterAndAreServed : Obligations.FirnRequestsEnterAndAreServed := by
  intro stack chan port s r hopen hb
  refine ⟨fun hfind hwr hfree => ?_, fun hfind hready x hx hfit hlen => ⟨fun hport he hs hpos => ?_, fun hport hroom => ?_⟩, fun p hp hfind hready hlen hfit _ _ => ?_⟩
  · exact ⟨_, congrArg Host.Outcome.next (firnRequestEnter_read hfind hopen hwr hfree), fun _ => rfl, rfl, fun ph hph => hph ▸ rfl, issued_ledIssue _ qFIRNREQ 1⟩
  · have hpick := List.find?_some hfind
    simp only [Bool.and_eq_true, beq_iff_eq] at hpick
    have hrp : r.port = port.val := hpick.1.2
    exact ⟨_, congrArg Host.Outcome.next (serveOldest_of serveRead hopen hfind hready (.inr (.inl (hrp ▸ hport)))), serveRead_own hb hx hfit hlen (hrp ▸ hport) he hs hpos⟩
  · have hpick := List.find?_some hfind
    simp only [Bool.and_eq_true, beq_iff_eq] at hpick
    have hrp : r.port = port.val := hpick.1.2
    exact ⟨_, congrArg Host.Outcome.next (serveOldest_of serveRead hopen hfind hready (.inr (.inr hroom))), serveRead_away hb hfit (hrp ▸ hport)⟩
  · have hwr : r.wr = true := by
      have hpick := List.find?_some hfind
      simp only [Bool.and_eq_true] at hpick
      exact hpick.2.1
    have hsame (pick : FirnReq → Bool) (hpick : ∀ e : FirnReq, (e.wr && needsMerge e.off e.len == p.2) = pick e) (i : Instr)
        (hi : exec i s = .next (serveOldest s stack chan port pick serveWrite)) :
        ∃ s', exec i s = .next s' ∧ s'.firnEnt = s.firnEnt.erase r ∧ (∀ i, i < r.len → rdByte s' (entKey r + i) = r.data.getD i 0) ∧
          (∀ b, (b < entKey r ∨ entKey r + r.len ≤ b) → rdByte s' b = rdByte s b) := by
      simp only [hpick] at hfind
      exact ⟨_, hi.trans (congrArg Host.Outcome.next (serveOldest_of serveWrite hopen hfind hready (.inl hwr))), serveWrite_clean hb hlen hfit⟩
    simp only [List.mem_cons, List.not_mem_nil, or_false] at hp
    rcases hp with rfl | rfl
    · exact hsame (fun e => e.wr && !needsMerge e.off e.len) (fun e => by rw [beq_false]) _ rfl
    · exact hsame (fun e => e.wr && needsMerge e.off e.len) (fun e => by rw [beq_true]) _ rfl

end Sys2Proof.Safety
end

section
/-! PROOF. Refresh and initialisation of the stacks (O32): a slot of the rotation (R168, R169, R202), the regime (R171), self-refresh (R178) and initialisation (R179). -/

namespace Sys2Proof.Safety

open Sys2Proof.Machine

variable {s s' t : State} {k : Nat}

-- a slot of the rotation -------------------------------------------------------------------------------------------------------------------------

theorem stackOf_congr (h : s'.firnStacks = s.firnStacks) (k : Nat) : stackOf s' k = stackOf s k := by simp only [stackOf, h]

/-- What a slot's precharge and scrub leave of a stack whose beats are not off. -/
structure Scrubbed (k : Nat) (s s' : State) : Prop where
  mem : s'.mem = s.mem
  beatErr : s'.beatErr = s.beatErr
  firnEnt : s'.firnEnt = s.firnEnt
  regs : ∀ off, off ≠ rFIRN_SCRUB k → getR s' off = getR s off
  slot : (stackOf s' k).slotIdx = (stackOf s k).slotIdx
  rows : (stackOf s' k).rows ⊆ (stackOf s k).rows

namespace Scrubbed

theorem refl (k : Nat) (s : State) : Scrubbed k s s := ⟨rfl, rfl, rfl, fun _ _ => rfl, rfl, fun _ h => h⟩
theorem trans (h : Scrubbed k s s') (h' : Scrubbed k s' t) : Scrubbed k s t :=
  ⟨h'.mem.trans h.mem, h'.beatErr.trans h.beatErr, h'.firnEnt.trans h.firnEnt, fun o ho => (h'.regs o ho).trans (h.regs o ho), h'.slot.trans h.slot,
    fun _ hp => h.rows (h'.rows hp)⟩
theorem setStack (s : State) (k : Nat) (x : StackSt) (hs : x.slotIdx = (stackOf s k).slotIdx) (hr : x.rows ⊆ (stackOf s k).rows) : Scrubbed k s (Machine.setStack s k x) :=
  ⟨rfl, rfl, rfl, fun _ _ => rfl, by rw [stackOf_setStack_same]; exact hs, by rw [stackOf_setStack_same]; exact hr⟩
theorem setR (s : State) {k off : Nat} (h : off = rFIRN_SCRUB k) (v : BitVec 32) : Scrubbed k s (Machine.setR s off v) := by
  subst h
  have hk : stackOf (Machine.setR s (rFIRN_SCRUB k) v) k = stackOf s k := stackOf_congr (setR_firnStacks s _ v) k
  exact ⟨setR_mem s _ v, setR_beatErr s _ v, setR_firnEnt s _ v, fun _ ho => getR_setR_other s v ho, congrArg StackSt.slotIdx hk, fun _ h => hk ▸ h⟩

end Scrubbed

theorem eccDecode_clean (h : s.beatErr = []) (key : Nat) : eccDecode (beatErrOf s key) = .clean := by
  have h0 : beatErrOf s key = 0 := by simp [beatErrOf, h]
  rw [h0]
  exact if_pos rfl

theorem writeBackBeat_clean (h : s.beatErr = []) (k place : Nat) : writeBackBeat s k place = s := by
  simp only [writeBackBeat, eccDecode_clean h, ite_self]

theorem scrubBeat_clean (h : s.beatErr = []) (k place : Nat) : scrubBeat s k place = (s, false) := by simp only [scrubBeat, eccDecode_clean h]

/-- A scrub access of beats that are not off moves the walk alone (R175). -/
theorem scrubbed_scrubChannel (h : s.beatErr = []) (k ch : Nat) : Scrubbed k s (scrubChannel s k ch) := by
  unfold scrubChannel
  split
  next place _ =>
    rw [foldl_eq_self fun i _ => writeBackBeat_clean h k _]
    exact Scrubbed.setStack s k _ rfl fun _ hp => hp
  next =>
    have hfold (place : Nat) : (List.range 8).foldl (fun (p : State × Bool) i => let q := scrubBeat p.1 k (place + 32 * i); (q.1, p.2 || q.2)) (s, false) = (s, false) :=
      foldl_eq_self fun i _ => by simp only [scrubBeat_clean h, Bool.or_self]
    simp only [hfold]
    split
    · refine Scrubbed.trans ?_ (Scrubbed.setR _ rfl _)
      exact Scrubbed.setStack s k _ rfl fun _ hp => hp
    · exact Scrubbed.setStack s k _ rfl fun _ hp => hp

/-- The bank that a slot closes in a channel has no open row (R169). -/
theorem scrubbed_closeBank (s : State) (k ch bank : Nat) :
    Scrubbed k s (closeBank s k ch bank) ∧ ∀ p ∈ (stackOf (closeBank s k ch bank) k).rows, p.1 ≠ 16 * ch + bank := by
  refine ⟨Scrubbed.setStack s k _ rfl fun _ hp => List.mem_of_mem_filter hp, fun p hp => ?_⟩
  rw [closeBank, stackOf_setStack_same] at hp
  exact of_decide_eq_true (List.mem_filter.1 hp).2

/-- A slot of the rotation, over its channels. -/
theorem scrubbed_slot (k n : Nat) (l : List Nat) (h : s.beatErr = []) :
    Scrubbed k s (l.foldl (fun s ch => scrubChannel (closeBank s k ch ((n + ch) % 16)) k ch) s) ∧
      ∀ ch ∈ l, ∀ p ∈ (stackOf (l.foldl (fun s ch => scrubChannel (closeBank s k ch ((n + ch) % 16)) k ch) s) k).rows, p.1 ≠ 16 * ch + (n + ch) % 16 := by
  induction l generalizing s with
  | nil => exact ⟨Scrubbed.refl k s, fun _ h => absurd h List.not_mem_nil⟩
  | cons ch l ih =>
    obtain ⟨hclose, hrows⟩ := scrubbed_closeBank s k ch ((n + ch) % 16)
    have hscrub := scrubbed_scrubChannel (hclose.beatErr.trans h) k ch
    obtain ⟨hrest, hclosed⟩ := ih ((hclose.trans hscrub).beatErr.trans h)
    refine ⟨(hclose.trans hscrub).trans hrest, fun c hc p hp => ?_⟩
    rcases List.mem_cons.1 hc with rfl | hc
    · exact hrows p (hscrub.rows (hrest.rows hp))
    · exact hclosed c hc p hp

/-- A regime that is set: memory and what waits stand, and of FIRN_STAT only its bit. -/
structure RegimeSet (k : Nat) (two : Bool) (s s' : State) : Prop where
  mem : s'.mem = s.mem
  beatErr : s'.beatErr = s.beatErr
  rotation : s'.firnStacks = s.firnStacks
  time : s'.time = s.time
  bit : getB s' (rFIRN_STAT k) 8 = two

theorem getB_setF_bit (s : State) (off b : Nat) (v : Bool) (h : b < 32) : getB (setF s off b 1 (if v then 1 else 0)) off b = v := by
  rw [getB, getF_setF_same s off b 1 _ (by omega)]
  cases v <;> rfl

theorem getB_setF_bits (s : State) (off : Nat) {lo w v b : Nat} (h : lo + w ≤ 32) (h' : b + 1 ≤ lo ∨ lo + w ≤ b) : getB (setF s off lo w v) off b = getB s off b :=
  congrArg (· == 1) (getF_setF_otherField s off lo w v b 1 h h')

theorem regimeSet_setF (s : State) (k : Nat) (two : Bool) : RegimeSet k two s (setF s (rFIRN_STAT k) 8 1 (if two then 1 else 0)) :=
  ⟨setF_mem s _ 8 1 _, setF_beatErr s _ 8 1 _, setF_firnStacks s _ 8 1 _, setF_time s _ 8 1 _, getB_setF_bit s _ 8 two (by decide)⟩

theorem not_logReg_firnStat (k : Nat) : ¬ LogReg (rFIRN_STAT k) := by unfold LogReg rFIRN_STAT clusterBase; omega

theorem RegimeSet.noted {two : Bool} (h : RegimeSet k two s s') (hn : Noted s' t) : RegimeSet k two s t := by
  have hbit : getB t (rFIRN_STAT k) 8 = getB s' (rFIRN_STAT k) 8 := by rw [getB, getB, hn.getF_eq (not_logReg_firnStat k)]
  obtain ⟨⟨r, tr, ho, pi, rfl⟩, -⟩ := hn
  exact ⟨h.mem, h.beatErr, h.rotation, h.time, hbit.trans h.bit⟩

theorem regimeSet_setRegime (s : State) {k : Nat} (hk : k < 32) (two : Bool) : RegimeSet k two s (setRegime s k two) := by
  unfold setRegime
  dsimp only
  split
  · exact (regimeSet_setF s k two).noted (noted_raiseEv_unowned _ (by omega) rfl (show cTHERMAL < 256 by decide) (show 0 < 4 by decide))
  · exact regimeSet_setF s k two

/-- A slot in which the regime may change (R171). -/
def slotRegime (s : State) (k : Nat) : State := if (stackOf s k).slotIdx ≤ tbNow s / 3904 * 3904 then setRegime s k (stackOf s k).want else s

/-- The state in which a slot's channels begin: the rotation is on it, and entries that are held carry REFRESH (R202). -/
def slotBegun (s : State) (k n : Nat) : State :=
  markWindow (setStack (slotRegime s k) k { stackOf s k with slotIdx := n * slotLen (slotRegime s k) k + 1 }) k

/-- What `slotBegun` leaves. -/
structure SlotBegun (k n : Nat) (s s' : State) : Prop where
  mem : s'.mem = s.mem
  beatErr : s'.beatErr = s.beatErr
  slot : (stackOf s' k).slotIdx = n * slotLen (slotRegime s k) k + 1
  regs : s'.regs = (slotRegime s k).regs
  marks : ∀ e ∈ s'.firnEnt, e.stack = k → bits e.marks 3 1 = 1

theorem slotRegime_kept (s : State) {k : Nat} (hk : k < 32) :
    (slotRegime s k).mem = s.mem ∧ (slotRegime s k).beatErr = s.beatErr ∧ tbNow (slotRegime s k) = tbNow s ∧
      ((stackOf s k).slotIdx ≤ tbNow s / 3904 * 3904 → getB (slotRegime s k) (rFIRN_STAT k) 8 = (stackOf s k).want) ∧
      ((stackOf s k).want = getB s (rFIRN_STAT k) 8 → slotLen (slotRegime s k) k = slotLen s k) := by
  unfold slotRegime
  split
  next h =>
    have hset := regimeSet_setRegime s hk (stackOf s k).want
    exact ⟨hset.mem, hset.beatErr, by rw [tbNow, tbNow, hset.time], fun _ => hset.bit, fun hw => by rw [slotLen, slotLen, hset.bit, hw]⟩
  next h => exact ⟨rfl, rfl, rfl, fun h' => absurd h' h, fun _ => rfl⟩

theorem bit_or_eight (m : Nat) : bits (m ||| 8) 3 1 = 1 := by
  have h : (m ||| 8).testBit 3 = true := by
    rw [Nat.testBit_or]
    exact Bool.or_eq_true_iff.2 (.inr (by decide))
  rw [bits_eq_div_mod]
  exact (Nat.testBit_eq_decide_div_mod_eq ▸ of_decide_eq_true) h

theorem slotBegun_begun (s : State) {k : Nat} (hk : k < 32) (n : Nat) : SlotBegun k n s (slotBegun s k n) := by
  obtain ⟨hm, hb, -⟩ := slotRegime_kept s hk
  refine ⟨hm, hb, ?_, rfl, fun e he hek => ?_⟩
  · exact congrArg StackSt.slotIdx (stackOf_setStack_same (slotRegime s k) k _)
  · obtain ⟨r, -, rfl⟩ := List.mem_map.1 he
    split
    · exact bit_or_eight r.marks
    next hr => exact absurd (by simpa only [if_neg hr] using hek) hr

theorem refreshRun_of (hopen : (stackOf s k).open_ = true) (hup : regionUp s (stackRegion s k) = true) (hn : (stackOf s k).slotIdx ≤ tbNow s / slotLen s k * slotLen s k)
    (_ht : tbNow (slotRegime s k) = tbNow s) :
    refreshRun s k = (List.range 64).foldl (fun x ch => scrubChannel (closeBank x k ch ((tbNow s / slotLen (slotRegime s k) k + ch) % 16)) k ch)
      (slotBegun s k (tbNow s / slotLen (slotRegime s k) k)) := by
  have hgo : ¬ ((stackOf s k).open_ = false ∨ regionUp s (stackRegion s k) = false ∨ tbNow s / slotLen s k * slotLen s k < (stackOf s k).slotIdx) := by
    simp [hopen, hup, hn]
  unfold refreshRun
  exact if_neg hgo

-- the regime, self-refresh and initialisation -------------------------------------------------------------------------------------------------------

theorem firnRefresh_ne_stat (k : Nat) : rFIRN_REFRESH k ≠ rFIRN_STAT k := by unfold rFIRN_STAT rFIRN_REFRESH; omega
theorem firnScrub_ne_stat (k : Nat) : rFIRN_STAT k ≠ rFIRN_SCRUB k := by unfold rFIRN_STAT rFIRN_SCRUB; omega

theorem getF_withTemps (s : State) (l : List (Nat × Nat)) (off lo w : Nat) : getF { s with temps := l } off lo w = getF s off lo w := rfl

/-- The measured temperature is set and the regime chosen (R171). -/
theorem regimeRun_of (hopen : (stackOf s k).open_ = true) (v : Nat) (hv : v < 256) :
    SameMem s (regimeRun s k v) ∧ getF (regimeRun s k v) (rFIRN_STAT k) 0 8 = v ∧ getB (regimeRun s k v) (rFIRN_STAT k) 8 = getB s (rFIRN_STAT k) 8 ∧
      (stackOf (regimeRun s k v) k).want = (decide (getF s (rFIRN_REFRESH k) 0 2 = 2) || (if (stackOf s k).want then decide (82 ≤ v) else decide (85 < v))) := by
  have hstack : stackOf (firnTemp s k v) k = stackOf s k := stackOf_congr (setF_firnStacks { s with temps := _ } (rFIRN_STAT k) 0 8 v) k
  have hrate : getF (firnTemp s k v) (rFIRN_REFRESH k) 0 2 = getF s (rFIRN_REFRESH k) 0 2 := by
    rw [firnTemp, getF_setF_otherReg _ 0 8 v 0 2 (firnRefresh_ne_stat k), getF_withTemps]
  have hrun : regimeRun s k v = wantRegime (firnTemp s k v) k
      (if getF s (rFIRN_REFRESH k) 0 2 = 2 then true else if (stackOf s k).want then decide (82 ≤ v) else decide (85 < v)) := by
    unfold regimeRun
    dsimp only
    rw [hstack, hrate, if_pos hopen]
  rw [hrun]
  refine ⟨fun a => rdByte_congr ((setStack_mem _ _ _).trans (setF_mem { s with temps := _ } (rFIRN_STAT k) 0 8 v)) a, ?_, ?_, ?_⟩
  · rw [wantRegime, getF_congr (setStack_regs _ _ _), firnTemp, getF_setF_same _ (rFIRN_STAT k) 0 8 v (by decide)]
    exact Nat.mod_eq_of_lt hv
  · rw [wantRegime, getB_congr (getR_congr (setStack_regs _ _ _) _), firnTemp, getB_setF_bits _ (rFIRN_STAT k) (by decide) (.inr (by decide))]
    exact congrArg (· == 1) (getF_withTemps s _ _ 8 1)
  · rw [wantRegime, stackOf_setStack_same]
    by_cases h2 : getF s (rFIRN_REFRESH k) 0 2 = 2
    · simp only [h2, if_true, decide_true, Bool.true_or]
    · simp only [h2, if_false, decide_false, Bool.false_or]

/-- The regime where the hysteresis starts changes a stack's choice alone. -/
theorem startRegime_facts (s : State) (k : Nat) :
    (startRegime s k).mem = s.mem ∧ (startRegime s k).regs = s.regs ∧ (stackOf (startRegime s k) k).open_ = (stackOf s k).open_ ∧
      (stackOf (startRegime s k) k).slotIdx = (stackOf s k).slotIdx := by
  unfold startRegime wantRegime
  generalize (if getF s (rFIRN_REFRESH k) 0 2 = 2 then true else decide (82 < getF s (rFIRN_STAT k) 0 8)) = two
  simp only [stackOf_setStack_same, setStack_mem, setStack_regs, and_self]

theorem rdByte_zeroStack (s : State) (k a : Nat) :
    rdByte (zeroStack s k) a = if a < firnBase k ∨ firnBase (k + 1) ≤ a then rdByte s a else 0 := by
  have h := mget_filter zeroByte s.mem (fun a => decide (a < firnBase k) || decide (firnBase (k + 1) ≤ a)) a
  simp only [Bool.or_eq_true, decide_eq_true_eq] at h
  exact h

/-- Self-refresh ends: the interface accepts requests again (R178). -/
theorem selfRefreshExit_of (h9 : getB s (rFIRN_STAT k) 9 = true) (h10 : getB s (rFIRN_STAT k) 10 = true) (hup : regionUp s (stackRegion s k) = true)
    (hlock : (regionOf s (stackRegion s k)).lockTick + 300 ≤ s.time.ticks) :
    SameMem s (selfRefreshExit s k) ∧ getB (selfRefreshExit s k) (rFIRN_STAT k) 9 = false ∧ (stackOf (selfRefreshExit s k) k).open_ = true ∧
      (stackOf (selfRefreshExit s k) k).slotIdx = tbNow s := by
  have h10' : getB (setF s (rFIRN_STAT k) 9 1 0) (rFIRN_STAT k) 10 = true := (getB_setF_bits s (rFIRN_STAT k) (by decide) (.inr (by decide))).trans h10
  have h9' : getB (setF s (rFIRN_STAT k) 9 1 0) (rFIRN_STAT k) 9 = false := getB_setF_bit s (rFIRN_STAT k) 9 false (by decide)
  unfold selfRefreshExit
  rw [if_pos ⟨h9, hup, hlock⟩]
  generalize hs1 : setF s (rFIRN_STAT k) 9 1 0 = s1 at h10' h9' ⊢
  have hmem : s1.mem = s.mem := by rw [← hs1, setF_mem]
  have htb : tbNow s1 = tbNow s := by rw [← hs1, tbNow, tbNow, setF_time]
  dsimp only
  obtain ⟨hm, hr, ho, hs⟩ := startRegime_facts (setStack s1 k { stackOf s1 k with open_ := getB s1 (rFIRN_STAT k) 10, slotIdx := tbNow s1 }) k
  rw [stackOf_setStack_same] at ho hs
  exact ⟨fun a => rdByte_congr ((hm.trans (setStack_mem _ _ _)).trans hmem) a, (getB_congr (getR_congr (hr.trans (setStack_regs _ _ _)) _) 9).trans h9', ho.trans h10', hs.trans htb⟩

/-- A stack is initialised: its bytes are zero, the others stand (R179). -/
theorem initDone_of (h10 : getB s (rFIRN_STAT k) 10 = false) (hup : regionUp s (stackRegion s k) = true) :
    getB (initDone s k) (rFIRN_STAT k) 10 = true ∧ (stackOf (initDone s k) k).open_ = true ∧
      (∀ a, firnBase k ≤ a → a < firnBase (k + 1) → rdByte (initDone s k) a = 0) ∧
      (∀ a, (a < firnBase k ∨ firnBase (k + 1) ≤ a) → rdByte (initDone s k) a = rdByte s a) := by
  have h10' : getB (setF (zeroStack s k) (rFIRN_STAT k) 10 1 1) (rFIRN_STAT k) 10 = true := getB_setF_bit _ (rFIRN_STAT k) 10 true (by decide)
  unfold initDone
  rw [if_pos ⟨h10, hup⟩]
  generalize hs1 : setF (zeroStack s k) (rFIRN_STAT k) 10 1 1 = s1 at h10' ⊢
  have hmem : s1.mem = (zeroStack s k).mem := by rw [← hs1, setF_mem]
  dsimp only
  generalize hs2 : setStack s1 k { stackOf s1 k with scrub := [], wback := [], open_ := true, slotIdx := tbNow s } = s2
  have hs2m : s2.mem = s1.mem := by rw [← hs2, setStack_mem]
  have hs2r : s2.regs = s1.regs := by rw [← hs2, setStack_regs]
  have hs2o : (stackOf s2 k).open_ = true := by rw [← hs2, stackOf_setStack_same]
  obtain ⟨hm, hr, ho, -⟩ := startRegime_facts (setR s2 (rFIRN_SCRUB k) 0) k
  rw [stackOf_congr (setR_firnStacks s2 (rFIRN_SCRUB k) 0)] at ho
  have hbyte (a : Nat) : rdByte (startRegime (setR s2 (rFIRN_SCRUB k) 0) k) a = if a < firnBase k ∨ firnBase (k + 1) ≤ a then rdByte s a else 0 :=
    (rdByte_congr (((hm.trans (setR_mem s2 _ 0)).trans hs2m).trans hmem) a).trans (rdByte_zeroStack s k a)
  refine ⟨?_, ho.trans hs2o, fun a hlo hhi => (hbyte a).trans (if_neg (by omega)), fun a ha => (hbyte a).trans (if_pos ha)⟩
  rw [getB_congr (getR_congr hr _), getB_congr (getR_setR_other s2 0 (firnScrub_ne_stat k)), getB_congr (getR_congr hs2r _)]
  exact h10'

/-- Settles O32: a slot over its channels (`scrubbed_slot`), the regime, the end of self-refresh and initialisation. -/
theorem stacksRefreshAndInitialise : Obligations.StacksRefreshAndInitialise := by
  intro stack s
  have hk : stack.val < 32 := stack.isLt
  refine ⟨fun n hn hopen hup hslot hb => ?_, fun v hopen => ?_, fun h9 h10 hup hlock => ?_, fun h10 hup => ?_⟩
  · subst hn
    obtain ⟨hm, hbe, htime, hbit, hlen⟩ := slotRegime_kept s hk
    have hbegun := slotBegun_begun s hk (tbNow s / slotLen (slotRegime s stack) stack)
    obtain ⟨hscr, hclosed⟩ := scrubbed_slot stack.val (tbNow s / slotLen (slotRegime s stack) stack) (List.range 64) (hbegun.beatErr.trans hb)
    refine ⟨_, congrArg Host.Outcome.next (refreshRun_of hopen hup hslot htime), fun a => rdByte_congr (hscr.mem.trans hbegun.mem) a, fun hw => ⟨?_, fun ch hch p hp => ?_⟩,
      fun h => ?_, fun e he => ?_⟩
    · rw [hscr.slot, hbegun.slot, hlen hw]
    · rw [← hlen hw]
      exact hclosed ch (List.mem_range.2 hch) p hp
    · rw [getB_congr (hscr.regs _ (firnScrub_ne_stat stack)), getB_congr (getR_congr hbegun.regs _), hbit h]
    · rw [hscr.firnEnt] at he
      exact hbegun.marks e he
  · exact ⟨_, rfl, regimeRun_of hopen v.toNat v.isLt⟩
  · exact ⟨_, rfl, selfRefreshExit_of h9 h10 hup hlock⟩
  · exact ⟨_, rfl, initDone_of h10 hup⟩

end Sys2Proof.Safety
end

section
/-! SUPPORT. What a plain write of a register leaves (Table 00-4), bit by bit, and where the register words of a core lie. -/

namespace Sys2Proof.Safety

open Sys2Proof.Machine

variable {s s' t : State}

/-- The bits that a write with the rights of `debug` replaces. -/
def writeMask (debug : Bool) (off : Nat) : BitVec 32 := if debug then (regSpec off).rw ||| (regSpec off).dbg else (regSpec off).rw

/-- A plain write replaces its RW bits, clears W1C bits that are written as 1, and leaves the others (Table 00-4). -/
theorem getLsbD_plainWrite (s : State) (debug : Bool) (off : Nat) (v : BitVec 32) (i : Nat) :
    (getR (plainWrite s debug off v) off).getLsbD i = if (writeMask debug off).getLsbD i then v.getLsbD i
      else ((getR s off).getLsbD i && !((regSpec off).w1c.getLsbD i && v.getLsbD i)) := by
  rw [plainWrite, getR_setR_same]
  change BitVec.getLsbD ((getR s off &&& ~~~writeMask debug off &&& ~~~((regSpec off).w1c &&& v)) ||| (v &&& writeMask debug off)) i = _
  rcases Nat.lt_or_ge i 32 with hi | hi
  · simp only [BitVec.getLsbD_or, BitVec.getLsbD_and, BitVec.getLsbD_not, hi, decide_true, Bool.true_and]
    cases (writeMask debug off).getLsbD i <;> simp
  · simp only [BitVec.getLsbD_of_ge _ _ hi, ite_self, Bool.false_and]

/-- A field whose bits are all replaced reads what is written. -/
theorem getF_plainWrite_rw (s : State) (debug : Bool) (off : Nat) (v : BitVec 32) {lo w : Nat} (h : ∀ i, lo ≤ i → i < lo + w → (writeMask debug off).getLsbD i = true) :
    getF (plainWrite s debug off v) off lo w = bits v.toNat lo w := by
  refine Nat.eq_of_testBit_eq fun i => ?_
  rw [getF, testBit_bits, testBit_bits]
  by_cases hi : i < w
  · have hb := getLsbD_plainWrite s debug off v (lo + i)
    rw [h _ (Nat.le_add_right _ _) (Nat.add_lt_add_left hi lo), if_pos rfl] at hb
    simp only [hi, decide_true, Bool.true_and]
    exact hb
  · simp only [hi, decide_false, Bool.false_and]

theorem regSpec_core {c o : Nat} (hc : c < 256) (ho : o < 0x1_0000) : regSpec (coreBase c + o) = coreRegSpec c o := by
  have hdiv : (coreBase c + o - 0x200_0000) / 0x1_0000 = c := by unfold coreBase; omega
  have hmod : (coreBase c + o) % 0x1_0000 = o := by unfold coreBase; omega
  have hlo : 0x200_0000 ≤ coreBase c + o := by unfold coreBase; omega
  have hhi : coreBase c + o < 0x300_0000 := by unfold coreBase; omega
  unfold regSpec
  rw [if_neg (by omega), if_neg (by omega), if_neg (by omega), if_neg (by omega), if_neg (by omega), if_neg (by omega), if_neg (by omega), if_neg (by omega),
    if_neg (by omega), if_neg (by omega), if_neg (by omega), if_neg (by omega), if_neg (by omega), if_neg (by omega), if_pos hhi, hdiv, hmod]

theorem regSpec_taskPc {c u : Nat} (hc : c < 256) (hu : u < 4) : regSpec (rTASK_PC c u) = regWord 0 0x1FFF 0 0 := by
  have he : rTASK_PC c u = coreBase c + (0x208 + 0x40 * u) := by unfold rTASK_PC; omega
  rw [he, regSpec_core hc (by omega)]
  obtain rfl | rfl | rfl | rfl : u = 0 ∨ u = 1 ∨ u = 2 ∨ u = 3 := by omega
  · rfl
  · rfl
  · rfl
  · rfl

-- link loss changes the host, the session and registers alone -----------------------------------------------------------------------------------

/-- Registers, the host's part and the session may differ. -/
def HostOnly (s s' : State) : Prop := ∃ r h se, s' = { s with regs := r, host := h, sess := se }

theorem HostOnly.trans (h : HostOnly s s') (h' : HostOnly s' t) : HostOnly s t := by
  obtain ⟨r, ho, se, rfl⟩ := h
  obtain ⟨r', ho', se', rfl⟩ := h'
  exact ⟨r', ho', se', rfl⟩
theorem RegsKeep.hostOnly {P : Nat → Prop} (h : RegsKeep P s s') : HostOnly s s' := by
  obtain ⟨⟨r, rfl⟩, -⟩ := h
  exact ⟨r, s.host, s.sess, rfl⟩
theorem HostOnly.refl (s : State) : HostOnly s s := ⟨s.regs, s.host, s.sess, rfl⟩
theorem HostOnly.setF (s : State) (off lo w v : Nat) : HostOnly s (Machine.setF s off lo w v) := ⟨_, s.host, s.sess, rfl⟩
theorem HostOnly.setR64 (s : State) (off v : Nat) : HostOnly s (Machine.setR64 s off v) := ⟨_, s.host, s.sess, rfl⟩
theorem HostOnly.hostIrq (s : State) (b : Nat) : HostOnly s (Machine.hostIrq s b) := by
  obtain ⟨o, p, he⟩ := sendsHost_of_hostIrq s b
  exact ⟨_, _, s.sess, he⟩

theorem hostOnly_abortAll (s : State) : HostOnly s (abortAll s) := by
  refine (regsKeep_moversEnded s).hostOnly.trans ?_
  rw [abortAll_eq]
  exact ⟨(moversEnded s).regs, _, (moversEnded s).sess, rfl⟩

theorem hostOnly_sessEnd (s : State) : HostOnly s (sessEnd s) := by
  unfold sessEnd
  split
  · have hd : HostOnly s (if sessDebug s then endDebug s else s) := by
      split
      · exact (regsKeep_endDebug s).hostOnly
      · exact HostOnly.refl s
    dsimp only
    generalize (if sessDebug s then endDebug s else s) = b at hd
    exact hd.trans (((HostOnly.setF b _ 0 2 0).trans (HostOnly.setF _ _ 8 1 0)).trans ⟨_, _, _, rfl⟩)
  · exact HostOnly.refl s

theorem hostOnly_sessLost (s : State) : HostOnly s (sessLost s) := by
  have h := ((hostOnly_sessEnd s).trans (HostOnly.setF (sessEnd s) rHRING_SIZE 8 1 0)).trans (hostOnly_abortAll _)
  unfold sessLost
  dsimp only
  split
  · exact h.trans (HostOnly.hostIrq _ 8)
  · exact h

theorem hostOnly_linkLoss (s : State) : HostOnly s (linkLoss s) := by
  have hdown : HostOnly s (linkDown s) := ⟨_, _, s.sess, rfl⟩
  rw [linkLoss_eq]
  split
  · exact (hdown.trans (HostOnly.setF _ rHRING_SIZE 8 1 0)).trans (hostOnly_abortAll _)
  · exact hdown.trans (hostOnly_sessLost _)

theorem HostOnly.tap (h : HostOnly s s') : s'.tap = s.tap := by
  obtain ⟨r, ho, se, rfl⟩ := h
  rfl

/-- The end of an open session: JTAG owns none, and the ring stands. -/
theorem sessEnd_open (h : sessOpen s = true) : (sessEnd s).sess.jtag = false ∧ getB (sessEnd s) rHRING_SIZE 8 = false := by
  unfold sessEnd
  rw [if_pos h]
  generalize (if sessDebug s then endDebug s else s) = b
  exact ⟨rfl, getB_setF_same (setF b rSESS_STATE 0 2 0) rHRING_SIZE (by decide) 0⟩

end Sys2Proof.Safety
end

section
/-! PROOF. The TAP and SMBus (O60). -/

namespace Sys2Proof.Safety

open Sys2Proof.Machine

variable {s s' : State}

theorem frame_withTap (l : List Nat) (s : State) (x : TapSt) : Frame l s { s with tap := x } := ⟨fun _ => rfl, fun _ _ => rfl, rfl, rfl⟩

/-- An EXTEST-class instruction that may act drops the host link (R436). -/
theorem extestRun_allowed (h : extestAllowed s = true) (code : BitVec 8) :
    SameMem s (extestRun s code) ∧ (extestRun s code).tap = { s.tap with ir := code } ∧ (extestRun s code).host.linkUp = false ∧ getB (extestRun s code) rHRING_SIZE 8 = false := by
  obtain ⟨hm, hup, -, hen, -⟩ := linkLoss_facts (tapIr s code)
  rw [extestRun, if_pos h]
  exact ⟨hm, (hostOnly_linkLoss (tapIr s code)).tap, hup, hen⟩

theorem extestRun_refused (h : extestAllowed s = false) (code : BitVec 8) : extestRun s code = tapIr s 0xFF := if_neg (by rw [h]; decide)

/-- Test-Logic-Reset ends the session that JTAG owns, and no other (R437). -/
theorem tapReset_facts (s : State) : SameMem s (tapReset s) ∧ (tapReset s).tap = {} ∧ (s.sess.jtag = false → Frame [] s (tapReset s)) ∧
    (s.sess.jtag = true → sessOpen s = true → sessOpen (tapReset s) = false ∧ (tapReset s).sess.jtag = false ∧ getB (tapReset s) rHRING_SIZE 8 = false) := by
  unfold tapReset
  split
  next h =>
    obtain ⟨hm, -, ho, -⟩ := sessEnd_facts s
    refine ⟨hm, rfl, fun h' => absurd (h.symm.trans h') (by decide), fun _ hopen => ?_⟩
    obtain ⟨hj, hen⟩ := sessEnd_open hopen
    exact ⟨ho, hj, hen⟩
  next h => exact ⟨fun _ => rfl, rfl, fun _ => frame_withTap [] s {}, fun h' => absurd h' h⟩

-- reads of DBG_REG -------------------------------------------------------------------------------------------------------------------------------

theorem readEffect_plain {off : Nat} (h : off ≠ rTB_VALUE) (h' : off ≠ rTB_VALUE + 4) (s : State) : readEffect s off = (s, readReg s off) := by
  rw [readEffect, if_neg h, if_neg fun h2 => h' h2.1]

/-- DBG_REG with its instruction in force. -/
def dbgTap (s : State) (x : TapSt) : State := { s with tap := x }

theorem absentDie_dbgTap (s : State) (x : TapSt) (off : Nat) : absentDie (dbgTap s x) off = absentDie s off := rfl
theorem stackRegion_dbgTap (s : State) (x : TapSt) (k : Nat) : stackRegion (dbgTap s x) k = stackRegion s k := rfl
theorem regRegion_dbgTap (s : State) (x : TapSt) (off : Nat) : regRegion (dbgTap s x) off = regRegion s off := by
  have h : stackRegion (dbgTap s x) = stackRegion s := funext (stackRegion_dbgTap s x)
  unfold regRegion
  rw [h]
theorem regionUp_dbgTap (s : State) (x : TapSt) (r : Nat) : regionUp (dbgTap s x) r = regionUp s r := rfl
theorem hostDead_dbgTap (s : State) (x : TapSt) : hostDead (dbgTap s x) = hostDead s := rfl
theorem tapWaits_dbgTap (s : State) (x : TapSt) (off : Nat) : tapWaits (dbgTap s x) off = tapWaits s off := by
  simp only [tapWaits, hostDead_dbgTap, absentDie_dbgTap, regRegion_dbgTap, regionUp_dbgTap]
theorem statusWord_dbgTap (s : State) (x : TapSt) (off : Nat) : statusWord (dbgTap s x) off = statusWord s off := rfl
theorem sessWord_dbgTap (s : State) (x : TapSt) (off : Nat) : sessWord (dbgTap s x) off = sessWord s off := rfl
theorem hostWord_dbgTap (s : State) (x : TapSt) (off : Nat) : hostWord (dbgTap s x) off = hostWord s off := rfl
theorem pwrWord_dbgTap (s : State) (x : TapSt) (off : Nat) : pwrWord (dbgTap s x) off = pwrWord s off := rfl
theorem midWord_dbgTap (s : State) (x : TapSt) (off : Nat) : midWord (dbgTap s x) off = midWord s off := rfl
theorem coreWord_dbgTap (s : State) (x : TapSt) (c off : Nat) : coreWord (dbgTap s x) c off = coreWord s c off := rfl
theorem getR_dbgTap (s : State) (x : TapSt) (off : Nat) : getR (dbgTap s x) off = getR s off := rfl
theorem devId_dbgTap (s : State) (x : TapSt) : devId (dbgTap s x) = devId s := rfl
theorem fuses_dbgTap (s : State) (x : TapSt) : (dbgTap s x).fuses = s.fuses := rfl
theorem readReg_dbgTap (s : State) (x : TapSt) (off : Nat) : readReg (dbgTap s x) off = readReg s off := by
  unfold readReg
  rw [absentDie_dbgTap, devId_dbgTap, fuses_dbgTap, getR_dbgTap, statusWord_dbgTap, sessWord_dbgTap, hostWord_dbgTap, pwrWord_dbgTap, midWord_dbgTap, coreWord_dbgTap]

theorem dbgRun_read {n off : Nat} (hoff : 4 * bits n 2 26 = off) (hlt : off < 2 ^ 26) (hal : off % (if bits n 1 1 == 1 then 8 else 4) = 0) (h0 : bits n 0 1 = 0) :
    dbgRun s n = tapFlush (dbgTap s { s.tap with ir := 0x10, status := 1, read := some (off, bits n 1 1 == 1) }) := by
  simp only [dbgRun, hoff, h0, hal, ne_eq, not_true, if_false, if_true, Nat.not_le.2 hlt]
  rfl

theorem tapFlush_waits {off : Nat} {wide : Bool} {x : TapSt} (hx : x.read = some (off, wide)) (h : tapWaits s off = true) : tapFlush (dbgTap s x) = dbgTap s x := by
  have hx' : (dbgTap s x).tap.read = some (off, wide) := hx
  simp only [tapFlush, hx', tapWaits_dbgTap, h, if_true]

theorem tapFlush_reads {off : Nat} {wide : Bool} {x : TapSt} (hx : x.read = some (off, wide)) (h : tapWaits s off = false) :
    tapFlush (dbgTap s x) = tapRead (dbgTap s { x with read := none }) off wide := by
  have hx' : (dbgTap s x).tap.read = some (off, wide) := hx
  simp only [tapFlush, hx', tapWaits_dbgTap, h, Bool.false_eq_true, if_false]
  rfl

theorem tapRead_narrow {off : Nat} (h : off ≠ rTB_VALUE) (h' : off ≠ rTB_VALUE + 4) (x : TapSt) :
    tapRead (dbgTap s x) off false = dbgTap s { x with data := (readReg s off).setWidth 64, status := 0 } := by
  have hdata : BitVec.ofNat 64 (readReg s off).toNat = (readReg s off).setWidth 64 := BitVec.eq_of_toNat_eq (by rw [BitVec.toNat_ofNat, BitVec.toNat_setWidth])
  simp only [tapRead, readEffect_plain h h', readReg_dbgTap, Bool.false_eq_true, if_false, hdata]
  rfl

theorem tapRead_wide {off : Nat} (h : off ≠ rTB_VALUE) (h' : off ≠ rTB_VALUE + 4) (h8 : off % 8 = 0) (x : TapSt) :
    tapRead (dbgTap s x) off true = dbgTap s { x with data := (readReg s (off + 4)) ++ (readReg s off), status := 0 } := by
  have htb : rTB_VALUE % 8 = 0 := by decide
  have hdata (lo hi : BitVec 32) : BitVec.ofNat 64 (lo.toNat + 2 ^ 32 * hi.toNat) = hi ++ lo := by
    apply BitVec.eq_of_toNat_eq
    rw [BitVec.toNat_append, BitVec.toNat_ofNat, Nat.shiftLeft_eq, ← Nat.shiftLeft_eq, ← Nat.shiftLeft_add_eq_or_of_lt lo.isLt, Nat.shiftLeft_eq]
    omega
  simp only [tapRead, readEffect_plain h h', readEffect_plain (show off + 4 ≠ rTB_VALUE by omega) (show off + 4 ≠ rTB_VALUE + 4 by omega), readReg_dbgTap, if_true, hdata]
  rfl

-- writes of DBG_REG ------------------------------------------------------------------------------------------------------------------------------

theorem awake_dbgTap (x : TapSt) : Awake (dbgTap s x) ↔ Awake s := Iff.rfl
theorem srcLive_dbgTap (s : State) (x : TapSt) (src : Src) : srcLive (dbgTap s x) src = srcLive s src := rfl
theorem mayWriteAt_dbgTap (s : State) (x : TapSt) (src : Src) (off : Nat) : mayWriteAt (dbgTap s x) src off = mayWriteAt s src off := rfl
theorem crossWaits_dbgTap (s : State) (x : TapSt) (r : Nat) : crossWaits (dbgTap s x) r = crossWaits s r := rfl
theorem gatedFor_dbgTap (s : State) (x : TapSt) (off : Nat) : gatedFor (dbgTap s x) off = gatedFor s off := rfl
theorem served_dbgTap {src : Src} {off : Nat} (h : Served s src off) (x : TapSt) : Served (dbgTap s x) src off := by
  simpa only [Served, awake_dbgTap, srcLive_dbgTap, mayWriteAt_dbgTap, absentDie_dbgTap, regRegion_dbgTap, regionUp_dbgTap, crossWaits_dbgTap, gatedFor_dbgTap] using h

theorem dbgRun_write {n off : Nat} (hoff : 4 * bits n 2 26 = off) (hlt : off < 2 ^ 26) (hdead : hostDead s = false) (h0 : bits n 0 1 = 1) (h1 : bits n 1 1 = 0) :
    dbgRun s n = tapWrite (dbgTap s { s.tap with ir := 0x10 }) off false (bits n 32 64) := by
  have hal : off % 4 = 0 := by omega
  have hdead' : hostDead (tapIr s 0x10) = false := hdead
  have h01 : ((0 : Nat) == 1) = false := rfl
  simp only [dbgRun, hoff, h0, h1, h01, hal, ne_eq, not_true, if_false, Nat.not_le.2 hlt, one_ne_zero, hdead', Bool.false_eq_true]
  rfl

/-- A write of TASK_PC by DBG_REG. -/
theorem tapWrite_taskPc {c u : Nat} (hc : c < 256) (hu : u < 4) (h : Served s .jtag (rTASK_PC c u)) (v : Nat) :
    tapWrite s (rTASK_PC c u) false v = tapStatus (plainWrite s (sessDebug s) (rTASK_PC c u) (BitVec.ofNat 32 v)) 0 := by
  have hmay : mayWriteAt s .jtag (rTASK_PC c u) = true := h.2.2.1
  have hnot : debugOnly (rTASK_PC c u) = false := by rw [debugOnly, regSpec_taskPc hc hu]; decide
  have he : rTASK_PC c u = coreBase c + (0x208 + 0x40 * u) := by unfold rTASK_PC; omega
  have htop : regTop s .jtag (rTASK_PC c u) false v = plainWrite s (sessDebug s) (rTASK_PC c u) (BitVec.ofNat 32 v) := by
    rw [regTop_of_served h (by rw [he]; unfold coreBase; omega) (by rw [he]; unfold coreBase; omega), he, writeWord_core s .jtag hc (by omega)]
    have hmod : (coreBase c + (0x208 + 0x40 * u)) % 0x1_0000 = 0x208 + 0x40 * u := by unfold coreBase; omega
    unfold coreWrite
    rw [hmod, if_neg (by omega), if_neg (by omega), if_neg (by omega), if_neg (by omega), if_neg (by omega), if_neg (by omega), if_neg (by omega),
      if_neg (by unfold rSCL_CTL; omega), if_neg (by unfold rMON_CTL; omega)]
    rfl
  have hheld : (if (plainWrite s (sessDebug s) (rTASK_PC c u) (BitVec.ofNat 32 v)).pwr.held.length ≤ s.pwr.held.length then 0 else 1) = 0 := if_pos (Nat.le_refl _)
  rw [tapWrite, if_neg (by rw [hmay, hnot]; simp), htop]
  dsimp only
  rw [hheld]

/-- A write that JTAG may not make changes nothing (R437). -/
theorem regTop_jtag_refused {off : Nat} (hlt : off < 2 ^ 26) (h4 : off % 4 = 0) (hne : off ≠ rPWR_REQ) (hmay : mayWriteAt s .jtag off = false) (h : Awake s) (v : Nat) :
    regTop s .jtag off false v = s := by
  obtain ⟨hvaux, hawake, hheld, -⟩ := h
  obtain ⟨⟨hstate, -⟩, hpower⟩ : (pwrState s ≤ 1 ∧ pwrBusy s = false) ∧ s.pwr.off = false := by
    simpa [Machine.awake, pwrState, pwrBusy] using hawake
  have hperf : regPerform s .jtag off false v = s := by
    simp only [regPerform, hmay, rightsWord, if_neg hne, noSession, Bool.false_eq_true, if_false]
    split <;> rfl
  rw [regTop, if_neg (by simp [srcLive]), if_pos (by simp [hheld, hawake])]
  unfold regWrite
  rw [if_neg (by simp; omega), if_neg (by rw [hvaux, hpower]; simp; omega)]
  split
  · exact hperf
  · split
    · exact hperf
    · rfl

-- SMBus ------------------------------------------------------------------------------------------------------------------------------------------

/-- The hottest of a run of sensors is one of them, and none is above it. -/
theorem hottest_facts (s : State) (base n : Nat) :
    (∀ i, i < n → tempOf s (base + i) ≤ (hottest s base n).1) ∧ ((hottest s base n).1 = 0 ∨ ∃ i, i < n ∧ (hottest s base n).1 = tempOf s (base + i)) := by
  have key (l : List Nat) (a : Nat × Nat) :
      let r := l.foldl (fun (a : Nat × Nat) i => if a.1 < tempOf s (base + i) then (tempOf s (base + i), i) else a) a
      a.1 ≤ r.1 ∧ (∀ i ∈ l, tempOf s (base + i) ≤ r.1) ∧ (r.1 = a.1 ∨ ∃ i ∈ l, r.1 = tempOf s (base + i)) := by
    induction l generalizing a with
    | nil => exact ⟨Nat.le_refl _, fun _ h => absurd h List.not_mem_nil, .inl rfl⟩
    | cons x l ih =>
      obtain ⟨h1, h2, h3⟩ := ih (if a.1 < tempOf s (base + x) then (tempOf s (base + x), x) else a)
      rw [List.foldl_cons]
      have hstep : a.1 ≤ (if a.1 < tempOf s (base + x) then (tempOf s (base + x), x) else a).1 ∧
          tempOf s (base + x) ≤ (if a.1 < tempOf s (base + x) then (tempOf s (base + x), x) else a).1 ∧
          ((if a.1 < tempOf s (base + x) then (tempOf s (base + x), x) else a).1 = a.1 ∨
            (if a.1 < tempOf s (base + x) then (tempOf s (base + x), x) else a).1 = tempOf s (base + x)) := by
        split
        · exact ⟨by omega, Nat.le_refl _, .inr rfl⟩
        · exact ⟨Nat.le_refl _, by omega, .inl rfl⟩
      obtain ⟨g1, g2, g3⟩ := hstep
      refine ⟨g1.trans h1, fun i hi => ?_, ?_⟩
      · rcases List.mem_cons.1 hi with rfl | hi
        · exact g2.trans h1
        · exact h2 i hi
      · rcases h3 with h3 | ⟨i, hi, h3⟩
        · rcases g3 with g3 | g3
          · exact .inl (h3.trans g3)
          · exact .inr ⟨x, List.mem_cons_self, h3.trans g3⟩
        · exact .inr ⟨i, List.mem_cons_of_mem _ hi, h3⟩
  obtain ⟨-, h2, h3⟩ := key (List.range n) (0, 0)
  exact ⟨fun i hi => h2 i (List.mem_range.2 hi), h3.imp id fun ⟨i, hi, h⟩ => ⟨i, List.mem_range.1 hi, h⟩⟩

theorem smbusRun_on (h : s.pwr.vaux = true) (q : SmbRequest) : smbusRun s q = { s with pins := { s.pins with smbOut := smbusValue s q } } := if_pos h
theorem arpRun_on (h : s.pwr.vaux = true) (a : BitVec 7) : arpRun s a = { s with pins := { s.pins with smbAddr := a } } := if_pos h
theorem frame_withPins (s : State) (x : PinSt) : Frame [] s { s with pins := x } := ⟨fun _ => rfl, fun _ _ => rfl, rfl, rfl⟩

/-- Settles O60: each instruction of the TAP, each kind of DBG_REG access, and each sensor of SMBus. -/
theorem tapAndSmbusAnswer : Obligations.TapAndSmbusAnswer := by
  intro s
  refine ⟨⟨_, rfl, frame_withTap [] s _, rfl⟩, ⟨_, rfl, frame_withTap [] s _, rfl⟩, fun pins => ⟨_, rfl, frame_withTap [] s _, rfl⟩, fun p hp => ?_, fun i hi => ?_,
    fun x off hoff => ⟨fun h1 h8 => ?_, fun hlt h0 hwait hne hne' => ⟨fun h1 => ?_, fun h1 h8 => ?_⟩, fun hlt h8 h0 hwait => ?_, fun c u hreg hserved hdead h0 h1 => ?_,
      fun hlt hne hmay hawake hdead h0 h1 => ?_⟩, fun hv => ⟨?_, ?_, ?_, ?_, fun a => ?_⟩, fun hv q a => ?_⟩
  · have hrow (i : Instr) (code : BitVec 8) (hi : exec i s = .next (extestRun s code)) :
        (extestAllowed s = true → ∃ s', exec i s = .next s' ∧ SameMem s s' ∧ s'.tap = { s.tap with ir := code } ∧ s'.host.linkUp = false ∧ getB s' rHRING_SIZE 8 = false) ∧
        (extestAllowed s = false → ∃ s', exec i s = .next s' ∧ Frame [] s s' ∧ s'.host = s.host ∧ s'.tap = { s.tap with ir := 0xFF }) :=
      ⟨fun h => ⟨_, hi, extestRun_allowed h code⟩, fun h => ⟨_, hi.trans (congrArg Host.Outcome.next (extestRun_refused h code)), frame_withTap [] s _, rfl, rfl⟩⟩
    simp only [List.mem_cons, List.not_mem_nil, or_false] at hp
    rcases hp with rfl | rfl | rfl | rfl | rfl
    · exact hrow _ _ rfl
    · exact hrow _ _ rfl
    · exact hrow _ _ rfl
    · exact hrow _ _ rfl
    · exact hrow _ _ rfl
  · simp only [List.mem_cons, List.not_mem_nil, or_false] at hi
    rcases hi with rfl | rfl
    · exact ⟨_, rfl, tapReset_facts s⟩
    · exact ⟨_, rfl, tapReset_facts s⟩
  · have hrun : dbgRun s x.toNat = dbgTap s { s.tap with ir := 0x10, status := 3 } := by
      simp only [dbgRun, ← hoff, h1, beq_self_eq_true, if_true, if_pos h8]
      rfl
    exact ⟨_, congrArg Host.Outcome.next hrun, frame_withTap [] s _, rfl⟩
  · have hal : off % (if bits x.toNat 1 1 == 1 then 8 else 4) = 0 := by
      rw [h1]
      simp only [Nat.reduceBEq, Bool.false_eq_true, if_false]
      omega
    have hrun := dbgRun_read (s := s) hoff.symm hlt hal h0
    rw [h1, tapFlush_reads rfl hwait] at hrun
    exact ⟨_, congrArg Host.Outcome.next (hrun.trans (tapRead_narrow hne hne' _)), frame_withTap [] s _, rfl⟩
  · have hal : off % (if bits x.toNat 1 1 == 1 then 8 else 4) = 0 := by
      rw [h1]
      exact h8
    have hrun := dbgRun_read (s := s) hoff.symm hlt hal h0
    rw [h1, tapFlush_reads rfl hwait] at hrun
    exact ⟨_, congrArg Host.Outcome.next (hrun.trans (tapRead_wide hne hne' h8 _)), frame_withTap [] s _, rfl⟩
  · have hal : off % (if bits x.toNat 1 1 == 1 then 8 else 4) = 0 := by split <;> omega
    exact ⟨_, congrArg Host.Outcome.next ((dbgRun_read (s := s) hoff.symm hlt hal h0).trans (tapFlush_waits rfl hwait)), frame_withTap [] s _, rfl⟩
  · have hlt : off < 2 ^ 26 := by rw [hreg]; unfold rTASK_PC coreBase; omega
    have hrun := dbgRun_write (s := s) hoff.symm hlt hdead h0 h1
    rw [hreg] at hserved
    have hw := tapWrite_taskPc c.isLt u.isLt (served_dbgTap hserved { s.tap with ir := 0x10 }) (bits x.toNat 32 64)
    rw [← hreg] at hw
    have hmask : ∀ i, 0 ≤ i → i < 0 + 13 → (writeMask (sessDebug (dbgTap s { s.tap with ir := 0x10 })) off).getLsbD i = true := by
      rw [hreg, writeMask, regSpec_taskPc c.isLt u.isLt]
      intro i _ hi
      split <;> interval_cases i <;> rfl
    have hval := getF_plainWrite_rw (dbgTap s { s.tap with ir := 0x10 }) (sessDebug (dbgTap s { s.tap with ir := 0x10 })) off (BitVec.ofNat 32 (bits x.toNat 32 64)) hmask
    rw [bits_toNat_ofNat _ (by decide)] at hval
    refine ⟨_, congrArg Host.Outcome.next (hrun.trans hw), ((frame_withTap [off] s { s.tap with ir := 0x10 }).trans (frame_plainWrite _ _ off _)).trans (frame_withTap [off] _ _), rfl, ?_⟩
    have hlow : bits (bits x.toNat 32 64) 0 13 = bits x.toNat 32 13 := by simp only [bits_eq_div_mod]; omega
    have hfield (n : Nat) : n % 8192 = bits n 0 13 := by simp [bits_eq_div_mod]
    rw [hlow] at hval
    exact (hfield _).trans hval
  · have hrun := dbgRun_write (s := s) hoff.symm hlt hdead h0 h1
    have hw := regTop_jtag_refused (s := dbgTap s { s.tap with ir := 0x10 }) hlt (by omega) hne hmay hawake (bits x.toNat 32 64)
    have hmay' : mayWriteAt (dbgTap s { s.tap with ir := 0x10 }) .jtag off = false := hmay
    rw [tapWrite, if_pos (.inl hmay'), hw] at hrun
    exact ⟨_, congrArg Host.Outcome.next hrun, frame_withTap [] s _, rfl⟩
  · obtain ⟨hall, hone⟩ := hottest_facts s 0 36
    simp only [Nat.zero_add] at hall hone
    exact ⟨_, congrArg Host.Outcome.next (smbusRun_on hv _), frame_withPins s _, hall, hone⟩
  · obtain ⟨hall, hone⟩ := hottest_facts s 64 32
    exact ⟨_, congrArg Host.Outcome.next (smbusRun_on hv _), frame_withPins s _, hall, hone⟩
  · exact ⟨_, congrArg Host.Outcome.next (smbusRun_on hv _), frame_withPins s _, rfl⟩
  · exact ⟨_, congrArg Host.Outcome.next (smbusRun_on hv _), frame_withPins s _, rfl⟩
  · exact ⟨_, congrArg Host.Outcome.next (arpRun_on hv a), frame_withPins s _, rfl⟩
  · exact ⟨congrArg Host.Outcome.next (if_neg (by rw [hv]; decide)), congrArg Host.Outcome.next (if_neg (by rw [hv]; decide))⟩

end Sys2Proof.Safety
end

section
/-! SUPPORT. A 64-bit write of a register as its two words (R458), and the registers of a debug session (R438). -/

namespace Sys2Proof.Safety

open Sys2Proof.Machine

variable {s s' t : State} {src : Src}

/-- A 64-bit write that is served at once. -/
theorem regTop_wide_performs {off : Nat} (h : Served s src off) (hlt : off < 2 ^ 26) (h8 : off % 8 = 0) (hg4 : gatedFor s (off + 4) = none) (v : Nat) :
    regTop s src off true v = regPerform s src off true v := by
  obtain ⟨⟨hvaux, hawake, hheld, hentry⟩, hlive, hmay, habsent, hregion, hgated⟩ := h
  obtain ⟨⟨hstate, -⟩, hpower⟩ : (pwrState s ≤ 1 ∧ pwrBusy s = false) ∧ s.pwr.off = false := by
    simpa [Machine.awake, pwrState, pwrBusy] using hawake
  have hplace : ¬ (2 ^ 26 ≤ off ∨ off % (if true = true then 8 else 4) ≠ 0) := by simp [h8]; omega
  have hpowered : ¬ (s.pwr.vaux = false ∨ s.pwr.off = true ∨ (pwrState s = 3 ∧ pwrBusy s = false)) := by simp [hvaux, hpower]; omega
  have hstart : startsWait s = false := by simp [startsWait, hentry]; omega
  rw [regTop, if_neg (by simp [hlive]), if_pos (by simp [hheld, hawake])]
  unfold regWrite
  rw [if_neg hplace, if_neg hpowered, if_neg (by simp [habsent])]
  cases hr : regRegion s off with
  | none => rfl
  | some r =>
    obtain ⟨hup, hcross⟩ : regionUp s r = true ∧ crossWaits s r = false := by simpa [hr] using hregion
    simp only [hmay, hcross, hup, hstart, hgated, hg4, Bool.true_eq_false, Bool.false_eq_true, if_false, if_true, Bool.false_and]

/-- A 64-bit write without a rule of its own is a write of its lower word and one of its upper word (R458). -/
theorem regTop_wide_words {off : Nat} (h : Served s src off) (hlt : off < 2 ^ 26) (h8 : off % 8 = 0) (hg4 : gatedFor s (off + 4) = none) {v : Nat}
    (hw : wideWrite s off v = none) (hmay4 : mayWriteAt (writeWord s src off (BitVec.ofNat 32 v)) src (off + 4) = true) :
    regTop s src off true v = writeWord (writeWord s src off (BitVec.ofNat 32 v)) src (off + 4) (BitVec.ofNat 32 (v / 2 ^ 32)) := by
  have habsent : absentDie s off = none := h.2.2.2.1
  have hmay : mayWriteAt s src off = true := h.2.2.1
  have hr1 : rightsWord s src off (BitVec.ofNat 32 v) = writeWord s src off (BitVec.ofNat 32 v) := if_pos hmay
  rw [regTop_wide_performs h hlt h8 hg4]
  unfold regPerform
  rw [habsent]
  simp only [hmay, hw, hr1, if_true, Bool.true_eq_false, false_and, if_false]
  exact if_pos hmay4

/-- No 64-bit register of the cores has a rule of its own. -/
theorem wideWrite_core (s : State) {off : Nat} (h : 0x200_0000 ≤ off) (v : Nat) : wideWrite s off v = none := by
  have hring : isRingReg off = false := by
    unfold isRingReg rHRING_BASE rCRING_BASE rCRING_HEADPTR
    simp only [Bool.or_eq_false_iff, beq_eq_false_iff_ne, ne_eq]
    omega
  unfold wideWrite
  rw [if_neg (by unfold rTB_VALUE; omega), if_neg (by unfold rDVFS_TARGET; omega), if_neg (by unfold rBOOT_PUSH_DATA; omega), if_neg (by rw [hring]; decide),
    if_neg (by omega), if_neg (by omega)]

/-- The rights over the cores' registers are the session's. -/
theorem mayWriteAt_core {off off' : Nat} (h : 0x4_0000 ≤ off) (h' : 0x4_0000 ≤ off') (hs : sessOpen s' = sessOpen s) : mayWriteAt s' src off' = mayWriteAt s src off := by
  have hb (o : Nat) (ho : 0x4_0000 ≤ o) : inSessBlock o = false := by simp [inSessBlock]; omega
  cases src <;> simp only [mayWriteAt, hb _ h, hb _ h', hs]

theorem sessOpen_congr (h : getR s' rSESS_STATE = getR s rSESS_STATE) : sessOpen s' = sessOpen s := by simp only [sessOpen, sessState, getF, h]
theorem mayDebug_congr (h : getR s' rSESS_STATE = getR s rSESS_STATE) (src : Src) : mayDebug s' src = mayDebug s src := by
  have hd : sessDebug s' = sessDebug s := by rw [sessDebug, sessDebug, sessOpen_congr h, getB_congr h]
  cases src <;> simp only [mayDebug, hd]

-- scalar, address and vector registers -----------------------------------------------------------------------------------------------------------

theorem areg_setSreg (s : State) (c u r : Nat) (v : BitVec 64) (q : Nat) : areg (setSreg s c u r v) c u q = areg s c u q := by
  rw [areg, setSreg, slotOf_modSlot_same, areg]
theorem areg_setAreg_same (s : State) (c u r : Nat) (v : BitVec 32) : areg (setAreg s c u r v) c u r = v := by
  rw [areg, setAreg, slotOf_modSlot_same]
  exact mget_mset_same _ _ _ _
theorem areg_setAreg_other (s : State) (c u : Nat) {r q : Nat} (v : BitVec 32) (h : q ≠ r) : areg (setAreg s c u r v) c u q = areg s c u q := by
  rw [areg, setAreg, slotOf_modSlot_same]
  exact mget_mset_other _ _ _ h
theorem sreg_setAreg (s : State) (c u r : Nat) (v : BitVec 32) (q : Nat) : sreg (setAreg s c u r v) c u q = sreg s c u q := by
  rw [sreg, setAreg, slotOf_modSlot_same, sreg]

theorem otherSlots_modSlot (s : State) (c u : Nat) (f : SlotSt → SlotSt) : OtherSlots c u s (modSlot s c u f) := fun _ hq => slotOf_setSlot_otherSlot s c _ hq
theorem OtherSlots.trans {c u : Nat} (h : OtherSlots c u s s') (h' : OtherSlots c u s' t) : OtherSlots c u s t := fun q hq => (h' q hq).trans (h q hq)

theorem vreg_parClear (s : State) (c arr i q : Nat) : vreg (parClear s c arr i) c q = vreg s c q := by
  unfold parClear
  split
  · rw [vreg, coreOf_modCore_same, vreg]
  · rfl
theorem vreg_setVreg_other (s : State) (c : Nat) {r q : Nat} (v : BitVec 8192) (h : q ≠ r) : vreg (setVreg s c r v) c q = vreg s c q := by
  rw [vreg, setVreg, coreOf_modCore_same]
  exact (mget_mset_other _ _ _ h).trans (vreg_parClear s c 3 r q)
theorem frame_setVreg (l : List Nat) (s : State) (c r : Nat) (v : BitVec 8192) : Frame l s (setVreg s c r v) := by
  have hpar : Frame l s (parClear s c 3 r) := by
    unfold parClear
    split
    · exact frame_modCore l s c _
    · exact Frame.refl l s
  exact hpar.trans (frame_modCore l _ c _)

/-- A write of DBG_S, DBG_A or DBG_V is the core's debug write (R438). -/
theorem coreWrite_debug {c o : Nat} (hc : c < 256) (ho : (0x2800 ≤ o ∧ o < 0x2C00) ∨ (0x3000 ≤ o ∧ o < 0x3800 ∧ o % 0x200 < 0x140)) (hd : mayDebug s src = true) (v : BitVec 32) :
    writeWord s src (coreBase c + o) v = debugWrite s c o v.toNat := by
  have hmod : (coreBase c + o) % 0x1_0000 = o := by unfold coreBase; omega
  rw [writeWord_core s src hc (by omega), coreWrite]
  simp only [hmod]
  rw [if_neg (by omega), if_neg (by omega), if_neg (by omega), if_neg (by omega), if_neg (by omega), if_pos ho, if_pos hd]

theorem debugTop_of {c o : Nat} (ho : (0x2800 ≤ o ∧ o < 0x2C00) ∨ (0x3000 ≤ o ∧ o < 0x3800 ∧ o % 0x200 < 0x140)) (wide : Bool) (v : Nat) :
    debugTop s src c o wide v = regTop s src (coreBase c + o) wide v := if_pos ho

/-- The half of a scalar register. -/
theorem debugWrite_sreg {c u r h : Nat} (hr : r < 32) (hh : h < 2) (hst : slotState s c u ≠ 2) (v : Nat) :
    debugWrite s c (0x3000 + 0x200 * u + 8 * r + 4 * h) v = setSreg s c u r (BitVec.ofNat 64 (setBits (sreg s c u r).toNat (32 * h) 32 v)) := by
  have hu : (0x3000 + 0x200 * u + 8 * r + 4 * h - 0x3000) / 0x200 = u := by omega
  have hk : (0x3000 + 0x200 * u + 8 * r + 4 * h) % 0x200 = 8 * r + 4 * h := by omega
  have hkr : (8 * r + 4 * h) / 8 = r := by omega
  have hkh : 8 * ((8 * r + 4 * h) % 8) = 32 * h := by omega
  unfold debugWrite
  rw [if_neg (by omega)]
  dsimp only
  rw [hu, hk, if_neg hst, if_pos (by omega), hkr, hkh]

theorem debugWrite_areg {c u r : Nat} (hr : r < 16) (hst : slotState s c u ≠ 2) (v : Nat) :
    debugWrite s c (0x3100 + 0x200 * u + 4 * r) v = setAreg s c u r (BitVec.ofNat 32 v) := by
  have hu : (0x3100 + 0x200 * u + 4 * r - 0x3000) / 0x200 = u := by omega
  have hk : (0x3100 + 0x200 * u + 4 * r) % 0x200 = 0x100 + 4 * r := by omega
  have hkr : (0x100 + 4 * r - 0x100) / 4 = r := by rw [Nat.add_sub_cancel_left, Nat.mul_div_cancel_left r (by decide)]
  unfold debugWrite
  rw [if_neg (by omega)]
  dsimp only
  rw [hu, hk, if_neg hst, if_neg (by omega), hkr]

theorem debugWrite_vreg {c i : Nat} (hi : i < 256) (v : Nat) :
    debugWrite s c (0x2800 + 4 * i) v = if (runningSlot s c).isSome then s
      else setVreg s c (getF s (rDBG_VSEL c) 0 5) (BitVec.ofNat 8192 (setBits (vreg s c (getF s (rDBG_VSEL c) 0 5)).toNat (32 * i) 32 v)) := by
  have hk : 8 * (0x2800 + 4 * i - 0x2800) = 32 * i := by rw [Nat.add_sub_cancel_left, ← Nat.mul_assoc]
  unfold debugWrite
  rw [if_pos (by omega), hk]

/-- Both halves of a scalar register, the lower first, make the value. -/
theorem halves_written (x v : BitVec 64) :
    BitVec.ofNat 64 (setBits (BitVec.ofNat 64 (setBits x.toNat 0 32 v.toNat)).toNat 32 32 (v.toNat / 2 ^ 32)) = v := by
  apply BitVec.eq_of_toNat_eq
  refine Nat.eq_of_testBit_eq fun i => ?_
  simp only [BitVec.toNat_ofNat, Nat.testBit_mod_two_pow, testBit_setBits, Nat.testBit_div_two_pow]
  rcases Nat.lt_or_ge i 64 with h | h
  · rcases Nat.lt_or_ge i 32 with h32 | h32
    · have h1 : ¬ (32 ≤ i ∧ i < 32 + 32) := by omega
      have h2 : 0 ≤ i ∧ i < 0 + 32 := by omega
      simp [h, h2]
    · have h1 : 32 ≤ i ∧ i < 32 + 32 := by omega
      have h3 : i - 32 + 32 = i := by omega
      simp [h, h1, h3]
  · have hv : v.toNat.testBit i = false := Nat.testBit_lt_two_pow (v.isLt.trans_le (Nat.pow_le_pow_right (by decide) h))
    simp [Nat.not_lt.2 h, hv]

end Sys2Proof.Safety
end

section
/-! PROOF. Registers take their writes (O58): the codes of Table 00-4, and the registers with a rule of their own. -/

namespace Sys2Proof.Safety

open Sys2Proof.Machine

variable {s s' t : State} {src : Src}

-- plain registers ----------------------------------------------------------------------------------------------------------------------------------

theorem regSpec_cluster {cl o : Nat} (hc : cl < 32) (ho : o < 0x1_0000) : regSpec (clusterBase cl + o) = clusterRegSpec o := by
  have hmod : (clusterBase cl + o) % 0x1_0000 = o := by unfold clusterBase; omega
  have hlo : 0x100_0000 ≤ clusterBase cl + o := by unfold clusterBase; omega
  have hhi : clusterBase cl + o < 0x120_0000 := by unfold clusterBase; omega
  unfold regSpec
  rw [if_neg (by omega), if_neg (by omega), if_neg (by omega), if_neg (by omega), if_neg (by omega), if_neg (by omega), if_neg (by omega), if_neg (by omega),
    if_neg (by omega), if_neg (by omega), if_neg (by omega), if_neg (by omega), if_pos hhi, hmod]

/-- A plain write without bits that only a debug session writes (Table 00-4). -/
theorem plainWrite_undebug {off : Nat} (h : (regSpec off).dbg = 0) (debug : Bool) (v : BitVec 32) :
    getR (plainWrite s debug off v) off = (getR s off &&& ~~~(regSpec off).rw &&& ~~~((regSpec off).w1c &&& v)) ||| (v &&& (regSpec off).rw) := by
  have hm : (if debug then (regSpec off).rw ||| (regSpec off).dbg else (regSpec off).rw) = (regSpec off).rw := by
    have hor (x : BitVec 32) : x ||| 0 = x := BitVec.or_zero
    rw [h, hor, ite_self]
  rw [plainWrite, getR_setR_same, hm]

/-- A register that a write of its word replaces by the codes of its bits. -/
structure PlainReg (src : Src) (s : State) (off : Nat) : Prop where
  write : ∀ v, ∃ debug, writeWord s src off v = plainWrite s debug off v
  spec : (regSpec off).dbg = 0
  lt : off < 2 ^ 26
  four : off % 4 = 0

theorem plainReg_taskPc {c u : Nat} (hc : c < 256) (hu : u < 4) {k : Nat} (hk : k = 0x208 ∨ k = 0x20C ∨ k = 0x210) : PlainReg src s (coreBase c + k + 0x40 * u) := by
  rw [Nat.add_assoc]
  have hmod : (coreBase c + (k + 0x40 * u)) % 0x1_0000 = k + 0x40 * u := by unfold coreBase; omega
  refine ⟨fun v => ⟨mayDebug s src, ?_⟩, ?_, by unfold coreBase; omega, by unfold coreBase; omega⟩
  · rw [writeWord_core s src hc (by omega), coreWrite]
    simp only [hmod]
    rw [if_neg (by omega), if_neg (by omega), if_neg (by omega), if_neg (by omega), if_neg (by omega), if_neg (by omega), if_neg (by omega),
      if_neg (by unfold rSCL_CTL; omega), if_neg (by unfold rMON_CTL; omega)]
  · rw [regSpec_core hc (by omega)]
    obtain rfl | rfl | rfl | rfl : u = 0 ∨ u = 1 ∨ u = 2 ∨ u = 3 := by omega
    all_goals rcases hk with rfl | rfl | rfl <;> rfl

theorem coreRegSpec_sclCfg {c n : Nat} (hn : n < 512) : (coreRegSpec c (0x8000 + 0x40 * n)).dbg = 0 := by
  unfold coreRegSpec
  rw [if_neg (by omega), if_neg (by omega), if_neg (by omega), if_neg (by omega), if_neg (by omega), if_neg (by omega), if_neg (by omega), if_neg (by omega),
    if_neg (by omega), if_neg (by omega), if_neg (by omega), if_neg (by omega), if_neg (by omega), if_neg (by omega), if_neg (by omega), if_neg (by omega),
    if_neg (by omega), if_neg (by omega), if_neg (by omega), if_neg (by omega), if_neg (by omega), if_neg (by omega), if_neg (by omega), if_neg (by omega),
    if_neg (by omega), if_neg (by omega), if_neg (by omega), if_pos (by omega)]
  dsimp only
  rw [if_pos (by omega)]
  rfl

theorem plainReg_sclCfg {c n : Nat} (hc : c < 256) (hn : n < 512) : PlainReg src s (rSCL_CFG c n) := by
  have he : rSCL_CFG c n = coreBase c + (0x8000 + 0x40 * n) := by unfold rSCL_CFG; omega
  have hmod : (coreBase c + (0x8000 + 0x40 * n)) % 0x1_0000 = 0x8000 + 0x40 * n := by unfold coreBase; omega
  rw [he]
  refine ⟨fun v => ⟨mayDebug s src, ?_⟩, ?_, by unfold coreBase; omega, by unfold coreBase; omega⟩
  · rw [writeWord_core s src hc (by omega), coreWrite]
    simp only [hmod]
    rw [if_neg (by omega), if_neg (by omega), if_neg (by omega), if_neg (by omega), if_neg (by omega), if_neg (by omega), if_neg (by omega),
      if_neg (by unfold rSCL_CTL; omega), if_neg (by unfold rMON_CTL; omega)]
  · rw [regSpec_core hc (by omega), coreRegSpec_sclCfg hn]

theorem plainReg_stack {k o : Nat} (hk : k < 32) (ho : o = 0x8000 ∨ o = 0x8010) : PlainReg src s (clusterBase k + o) := by
  have hmod : (clusterBase k + o) % 0x1_0000 = o := by unfold clusterBase; omega
  refine ⟨fun v => ⟨mayDebug s src, ?_⟩, ?_, by unfold clusterBase; omega, by unfold clusterBase; omega⟩
  · rw [writeWord_cluster s src hk (by omega), clusterWrite]
    simp only [hmod]
    rw [if_neg (by unfold rCLK_XCTL; omega), if_neg (by omega), if_neg (by omega), if_neg (by unfold rFIRN_REFRESH; omega)]
  · rw [regSpec_cluster hk (by omega)]
    rcases ho with rfl | rfl
    · rfl
    · rfl

theorem plainReg_of_mem {c u n k off : Nat} (hc : c < 256) (hu : u < 4) (hn : n < 512) (hk : k < 32)
    (h : off ∈ [rTASK_PC c u, rTASK_SPWIN c u, rTASK_VMASK c u, rSCL_CFG c n, rFIRN_ERR_STAT k]) : PlainReg src s off := by
  simp only [List.mem_cons, List.not_mem_nil, or_false] at h
  rcases h with rfl | rfl | rfl | rfl | rfl
  · exact plainReg_taskPc hc hu (.inl rfl)
  · exact plainReg_taskPc hc hu (.inr (.inl rfl))
  · exact plainReg_taskPc hc hu (.inr (.inr rfl))
  · exact plainReg_sclCfg hc hn
  · exact plainReg_stack hk (.inr rfl)

/-- A plain register takes its write (Table 00-4). -/
theorem regTop_plainReg {off : Nat} (h : Served s src off) (hp : PlainReg src s off) (v : Nat) :
    ∃ s', regTop s src off false v = s' ∧ Frame [off] s s' ∧
      getR s' off = (getR s off &&& ~~~(regSpec off).rw &&& ~~~((regSpec off).w1c &&& BitVec.ofNat 32 v)) ||| (BitVec.ofNat 32 v &&& (regSpec off).rw) := by
  obtain ⟨debug, hw⟩ := hp.write (BitVec.ofNat 32 v)
  exact ⟨_, (regTop_of_served h hp.lt hp.four v).trans hw, frame_plainWrite s debug off _, plainWrite_undebug hp.spec debug _⟩

-- the template words of a descriptor -----------------------------------------------------------------------------------------------------------------

/-- A word of a descriptor's template is written: LEN of its status shows 0 (R237). -/
def descWord (s : State) (debug : Bool) (c d off : Nat) (v : BitVec 32) : State :=
  setR64 (plainWrite s debug off v) (rDESC_STAT c d) (setBits (getR64 s (rDESC_STAT c d)) 16 32 0)

theorem regSpec_desc {c d j : Nat} (hc : c < 256) (hd : d < 64) (hj : j < 64) : regSpec (coreBase c + (0x4000 + 0x40 * d + j)) = regWord 0 ones32 0 0 := by
  rw [regSpec_core hc (by omega)]
  unfold coreRegSpec
  rw [if_neg (by omega), if_neg (by omega), if_neg (by omega), if_neg (by omega), if_neg (by omega), if_neg (by omega), if_neg (by omega), if_neg (by omega),
    if_neg (by omega), if_neg (by omega), if_neg (by omega), if_neg (by omega), if_neg (by omega), if_neg (by omega), if_neg (by omega), if_neg (by omega),
    if_neg (by omega), if_pos (by omega)]

theorem writeWord_desc {c d j : Nat} (hc : c < 256) (hd : d < 64) (hj : j < 64) (v : BitVec 32) :
    writeWord s src (coreBase c + (0x4000 + 0x40 * d + j)) v = descWord s (mayDebug s src) c d (coreBase c + (0x4000 + 0x40 * d + j)) v := by
  have hmod : (coreBase c + (0x4000 + 0x40 * d + j)) % 0x1_0000 = 0x4000 + 0x40 * d + j := by unfold coreBase; omega
  have hdiv : (0x4000 + 0x40 * d + j - 0x4000) / 0x40 = d := by omega
  rw [writeWord_core s src hc (by omega), coreWrite]
  simp only [hmod]
  rw [if_neg (by omega), if_neg (by omega), if_neg (by omega), if_neg (by omega), if_neg (by omega), if_neg (by omega), if_pos (by omega), hdiv]
  rfl

/-- What a template word's write leaves. -/
theorem descWord_facts {c d j : Nat} (hc : c < 256) (hd : d < 64) (hj : j < 64) (debug : Bool) (v : BitVec 32) :
    Frame [coreBase c + (0x4000 + 0x40 * d + j), rDESC_STAT c d, rDESC_STAT c d + 4] s (descWord s debug c d (coreBase c + (0x4000 + 0x40 * d + j)) v) ∧
      getR (descWord s debug c d (coreBase c + (0x4000 + 0x40 * d + j)) v) (coreBase c + (0x4000 + 0x40 * d + j)) = v ∧
      getR64 (descWord s debug c d (coreBase c + (0x4000 + 0x40 * d + j)) v) (rDESC_STAT c d) = setBits (getR64 s (rDESC_STAT c d)) 16 32 0 := by
  have hstat : rDESC_STAT c d = coreBase c + (0x5000 + 8 * d) := by unfold rDESC_STAT; omega
  have hword : getR (plainWrite s debug (coreBase c + (0x4000 + 0x40 * d + j)) v) (coreBase c + (0x4000 + 0x40 * d + j)) = v := by
    rw [plainWrite_undebug (by rw [regSpec_desc hc hd hj]; rfl), regSpec_desc hc hd hj]
    change (getR s _ &&& ~~~(BitVec.allOnes 32) &&& ~~~(0#32 &&& v)) ||| (v &&& BitVec.allOnes 32) = v
    simp only [BitVec.and_allOnes, BitVec.not_allOnes, BitVec.and_zero, BitVec.zero_and, BitVec.zero_or]
  refine ⟨((frame_plainWrite s debug _ v).mono (by simp)).trans (frame_setR64 _ (by simp) (by simp) _), ?_, ?_⟩
  · rw [descWord, (frame_setR64 (l := [rDESC_STAT c d, rDESC_STAT c d + 4]) _ (by simp) (by simp) _).getR_eq, hword]
    simp only [hstat, List.mem_cons, List.not_mem_nil, or_false]
    omega
  · rw [descWord, getR64_setR64]
    refine Nat.mod_eq_of_lt (setBits_lt _ _ _ _ _ (by decide) ?_)
    have h1 := (getR s (rDESC_STAT c d)).isLt
    have h2 := (getR s (rDESC_STAT c d + 4)).isLt
    rw [getR64]
    omega

/-- Settles part of O58: a template word as a whole. -/
theorem descTemplate_written {c d k : Nat} (hc : c < 256) (hd : d < 64) (hk : k < 8) (h : Served s src (rDESC c d + 8 * k)) (hg : gatedFor s (rDESC c d + 8 * k + 4) = none) (v : BitVec 64) :
    ∃ s', regTop s src (rDESC c d + 8 * k) true v.toNat = s' ∧
      Frame [rDESC c d + 8 * k, rDESC c d + 8 * k + 4, rDESC_STAT c d, rDESC_STAT c d + 4] s s' ∧ getR64 s' (rDESC c d + 8 * k) = v.toNat ∧
      bits (getR64 s' (rDESC_STAT c d)) 16 32 = 0 ∧ bits (getR64 s' (rDESC_STAT c d)) 0 16 = bits (getR64 s (rDESC_STAT c d)) 0 16 := by
  have he : rDESC c d + 8 * k = coreBase c + (0x4000 + 0x40 * d + 8 * k) := by unfold rDESC; omega
  have he4 : coreBase c + (0x4000 + 0x40 * d + 8 * k) + 4 = coreBase c + (0x4000 + 0x40 * d + (8 * k + 4)) := by omega
  have hstat : rDESC_STAT c d = coreBase c + (0x5000 + 8 * d) := by unfold rDESC_STAT; omega
  rw [he] at h hg ⊢
  generalize hv1 : BitVec.ofNat 32 v.toNat = lo
  generalize hv2 : BitVec.ofNat 32 (v.toNat / 2 ^ 32) = hi
  obtain ⟨hf1, hr1, hst1⟩ := descWord_facts (s := s) hc hd (show 8 * k < 64 by omega) (mayDebug s src) lo
  generalize hs1 : descWord s (mayDebug s src) c d (coreBase c + (0x4000 + 0x40 * d + 8 * k)) lo = s1 at hf1 hr1 hst1
  obtain ⟨hf2, hr2, hst2⟩ := descWord_facts (s := s1) hc hd (show 8 * k + 4 < 64 by omega) (mayDebug s1 src) hi
  have hsess : sessOpen s1 = sessOpen s := sessOpen_congr (hf1.getR_eq (by simp only [hstat, List.mem_cons, List.not_mem_nil, or_false]; unfold rSESS_STATE coreBase; omega))
  have hmay4 : mayWriteAt s1 src (coreBase c + (0x4000 + 0x40 * d + 8 * k) + 4) = true :=
    (mayWriteAt_core (off := coreBase c + (0x4000 + 0x40 * d + 8 * k)) (by unfold coreBase; omega) (by unfold coreBase; omega) hsess).trans h.2.2.1
  have hw1 : writeWord s src (coreBase c + (0x4000 + 0x40 * d + 8 * k)) (BitVec.ofNat 32 v.toNat) = s1 := by rw [hv1, writeWord_desc hc hd (by omega), hs1]
  have htop := regTop_wide_words h (by unfold coreBase; omega) (by unfold coreBase; omega) hg (wideWrite_core s (by unfold coreBase; omega) v.toNat) (by rw [hw1]; exact hmay4)
  rw [hw1, hv2, he4, writeWord_desc hc hd (by omega)] at htop
  generalize hs2 : descWord s1 (mayDebug s1 src) c d (coreBase c + (0x4000 + 0x40 * d + (8 * k + 4))) hi = s2 at hf2 hr2 hst2 htop
  refine ⟨s2, htop, (hf1.mono (by simp)).trans (hf2.mono (by simp [he4])), ?_, ?_, ?_⟩
  · rw [getR64, he4, hr2, hf2.getR_eq (by simp only [hstat, List.mem_cons, List.not_mem_nil, or_false]; omega), hr1, ← hv1, ← hv2, BitVec.toNat_ofNat, BitVec.toNat_ofNat]
    have := v.isLt
    omega
  · rw [hst2, bits_setBits_same, Nat.zero_mod]
  · rw [hst2, hst1, bits_setBits_other _ _ _ _ _ _ (.inl (by decide)), bits_setBits_other _ _ _ _ _ _ (.inl (by decide))]

-- FIRN_MAP and FIRN_REFRESH ------------------------------------------------------------------------------------------------------------------------

theorem firnMap_written {k : Nat} (hk : k < 32) (h : Served s src (rFIRN_MAP k)) (mode : Bool) :
    ∃ s', regTop s src (rFIRN_MAP k) false (if mode then 1 else 0) = s' ∧ SameRegsBut [rFIRN_MAP k] s s' ∧ s'.mem = s.mem ∧ getB s' (rFIRN_MAP k) 0 = mode := by
  have hp : PlainReg src s (rFIRN_MAP k) := plainReg_stack hk (.inl rfl)
  obtain ⟨debug, hw⟩ := hp.write (BitVec.ofNat 32 (if mode then 1 else 0))
  have hspec : (regSpec (rFIRN_MAP k)).rw = 1 := by
    rw [rFIRN_MAP, regSpec_cluster hk (by decide)]
    rfl
  have hmask : ∀ i, 0 ≤ i → i < 0 + 1 → (writeMask debug (rFIRN_MAP k)).getLsbD i = true := by
    intro i _ hi
    obtain rfl : i = 0 := by omega
    have hm : writeMask debug (rFIRN_MAP k) = 1 := by
      have hor : (1 : BitVec 32) ||| 0 = 1 := rfl
      rw [writeMask, hp.spec, hspec, hor, ite_self]
    rw [hm]
    rfl
  refine ⟨_, (regTop_of_served h hp.lt hp.four _).trans hw, (frame_plainWrite s debug _ _).2.1, setR_mem _ _ _, ?_⟩
  rw [getB, getF_plainWrite_rw s debug _ _ hmask]
  cases mode <;> rfl

/-- FIRN_REFRESH takes its rate, and a stack that is closed takes nothing else (R171). -/
theorem firnRefresh_written {k : Nat} (hk : k < 32) (h : Served s src (rFIRN_REFRESH k)) (rate : BitVec 2) :
    ∃ s', regTop s src (rFIRN_REFRESH k) false rate.toNat = s' ∧ SameMem s s' ∧ getF s' (rFIRN_REFRESH k) 0 2 = (if rate = 3 then 0 else rate.toNat) ∧
      ((stackOf s k).open_ = false → Frame [rFIRN_REFRESH k] s s') := by
  have hlt := rate.isLt
  have htop : regTop s src (rFIRN_REFRESH k) false rate.toNat = firnRefresh s k rate.toNat := by
    have hmod : (clusterBase k + 0x8004) % 0x1_0000 = 0x8004 := by unfold clusterBase; omega
    have hne : clusterBase k + 0x8004 ≠ rCLK_XCTL k := by unfold rCLK_XCTL; omega
    have hself : clusterBase k + 0x8004 = rFIRN_REFRESH k := rfl
    rw [regTop_of_served h (by unfold rFIRN_REFRESH clusterBase; omega) (by unfold rFIRN_REFRESH clusterBase; omega), rFIRN_REFRESH, writeWord_cluster s src hk (by decide), clusterWrite]
    simp only [hmod]
    rw [if_neg hne, if_neg (by decide), if_neg (by decide), if_pos hself, BitVec.toNat_ofNat, Nat.mod_eq_of_lt (by omega)]
  have hbits : bits rate.toNat 0 2 = rate.toNat := by rw [bits_eq_div_mod]; omega
  have hthree : (rate = 3) ↔ rate.toNat = 3 := ⟨fun e => by rw [e]; rfl, fun e => BitVec.eq_of_toNat_eq e⟩
  have hrate (x : State) : getF (setF x (rFIRN_REFRESH k) 0 2 (if rate.toNat = 3 then 0 else rate.toNat)) (rFIRN_REFRESH k) 0 2 = if rate = 3 then 0 else rate.toNat := by
    rw [getF_setF_same x _ 0 2 _ (by decide), if_congr hthree rfl rfl]
    split <;> omega
  have hframe : Frame [rFIRN_REFRESH k] s (setF s (rFIRN_REFRESH k) 0 2 (if rate.toNat = 3 then 0 else rate.toNat)) := frame_setF s (List.mem_singleton.2 rfl) 0 2 _
  have hopen : (stackOf (setF s (rFIRN_REFRESH k) 0 2 (if rate.toNat = 3 then 0 else rate.toNat)) k).open_ = (stackOf s k).open_ :=
    congrArg StackSt.open_ (stackOf_congr (setF_firnStacks s _ 0 2 _) k)
  refine ⟨_, htop, ?_⟩
  unfold firnRefresh
  dsimp only
  rw [hbits, hopen]
  split
  next ho =>
    obtain ⟨hm, hr, -, -⟩ := startRegime_facts (setF s (rFIRN_REFRESH k) 0 2 (if rate.toNat = 3 then 0 else rate.toNat)) k
    exact ⟨fun a => (rdByte_congr hm a).trans (hframe.1 a), (getF_congr hr _ _ _).trans (hrate s), fun h' => absurd (ho.symm.trans h') (by decide)⟩
  next ho => exact ⟨hframe.1, hrate s, fun _ => hframe⟩

-- the time base --------------------------------------------------------------------------------------------------------------------------------------

theorem tbValue_written (h : Served s src rTB_VALUE) (v : BitVec 64) : regTop s src rTB_VALUE true v.toNat = tbStep s ((v.toNat * 2 ^ 32 : Nat) : Int) := by
  have hperf := regTop_wide_below h (show rTB_VALUE < 0x10_0000 by decide) (by decide) v.toNat
  have habsent : absentDie s rTB_VALUE = none := h.2.2.2.1
  have hmay : mayWriteAt s src rTB_VALUE = true := h.2.2.1
  have hw : wideWrite s rTB_VALUE v.toNat = some (tbStep s ((v.toNat * 2 ^ 32 : Nat) : Int)) := if_pos rfl
  rw [hperf]
  unfold regPerform
  rw [habsent]
  simp only [hmay, if_true, hw]

theorem tbStep_value (v : BitVec 64) : (((v.toNat * 2 ^ 32 : Nat) : Int) % (2 ^ 96 : Int)).toNat = v.toNat * 2 ^ 32 := by
  have h := v.isLt
  omega

theorem frame_withTime (l : List Nat) (s : State) (x : TimeSt) : Frame l s { s with time := x } := ⟨fun _ => rfl, fun _ _ => rfl, rfl, rfl⟩

theorem tbStep_allowed (h : stepAllowed s = true) (v : BitVec 64) :
    Frame [] s (tbStep s ((v.toNat * 2 ^ 32 : Nat) : Int)) ∧ (tbStep s ((v.toNat * 2 ^ 32 : Nat) : Int)).time.tb = v.toNat * 2 ^ 32 := by
  rw [tbStep, if_pos h]
  exact ⟨frame_withTime [] s _, tbStep_value v⟩

/-- A step of the time base that is refused sets its error (R297). -/
theorem tbStep_refused (h : stepAllowed s = false) (v : Int) :
    Frame [rTB_CTL + 4] s (tbStep s v) ∧ (tbStep s v).time = s.time ∧ getB (tbStep s v) (rTB_CTL + 4) 4 = true := by
  rw [tbStep, if_neg (by rw [h]; decide)]
  generalize rTB_CTL + 4 = off
  exact ⟨frame_setF s (List.mem_singleton.2 rfl) 4 1 1, setF_time s off 4 1 1, getB_setF_bit s off 4 true (by decide)⟩

/-- A read of the low half of TB_VALUE latches the upper (R295). -/
theorem readTop_tbLow (h : Awake s) (hlive : srcLive s src = true) :
    readTop s src rTB_VALUE = { s with time := { s.time with latch := readReg s (rTB_VALUE + 4), latched := true } } := by
  obtain ⟨hvaux, hawake, -, -⟩ := h
  obtain ⟨⟨hstate, -⟩, hpower⟩ : (pwrState s ≤ 1 ∧ pwrBusy s = false) ∧ s.pwr.off = false := by
    simpa [Machine.awake, pwrState, pwrBusy] using hawake
  have hgo : ¬ (srcLive s src = false ∨ s.pwr.vaux = false ∨ s.pwr.off = true ∨ (pwrState s = 3 ∧ pwrBusy s = false)) := by
    simp [hlive, hvaux, hpower]
    omega
  rw [readTop, if_neg hgo]
  exact congrArg Prod.fst (if_pos rfl)

theorem readReg_tbHigh (s : State) : (readReg s (rTB_VALUE + 4)).toNat = tbNow s / 2 ^ 32 := by
  have habsent : absentDie s (rTB_VALUE + 4) = none := by
    unfold absentDie
    rw [if_neg (by decide), if_neg (by decide)]
  have hword : pwrWord s (rTB_VALUE + 4) = tbNow s / 2 ^ 32 := by
    unfold pwrWord
    dsimp only
    rw [if_neg (by decide), if_neg (by decide), if_neg (by decide), if_neg (by decide), if_pos rfl]
  have hlt : tbNow s < 2 ^ 64 := Nat.mod_lt _ (by decide)
  unfold readReg
  rw [habsent, if_neg (by decide), if_neg (by decide), if_neg (by decide), if_neg (by decide), if_neg (by decide), if_neg (by decide), if_neg (by decide), if_neg (by decide),
    if_pos (by decide), hword, BitVec.toNat_ofNat]
  omega

-- the package's ID -----------------------------------------------------------------------------------------------------------------------------------

theorem regTop_pkgId (h : Served s src rPKG_ID) (v : BitVec 32) : regTop s src rPKG_ID false v.toNat = pkgIdRun s v := by
  rw [regTop_of_served h (by decide) (by decide), BitVec.ofNat_toNat, BitVec.setWidth_eq]
  unfold writeWord
  exact if_pos rfl

/-- The package's ID stands while a port is not DOWN, and ERR is set (R435). -/
theorem pkgIdRun_up (v : BitVec 32) (h : ∃ p, p < 16 ∧ portState s p ≠ 0) :
    Frame [rPKG_ID] s (pkgIdRun s v) ∧ ownPkg (pkgIdRun s v) = ownPkg s ∧ getB (pkgIdRun s v) rPKG_ID 16 = true := by
  have hany : ((List.range 16).any fun p => portState s p != 0) = true := by
    obtain ⟨p, hp, hne⟩ := h
    exact List.any_eq_true.2 ⟨p, List.mem_range.2 hp, bne_iff_ne.2 hne⟩
  have hclear : Frame [rPKG_ID] s (if bits v.toNat 16 1 = 1 then setF s rPKG_ID 16 1 0 else s) ∧
      getF (if bits v.toNat 16 1 = 1 then setF s rPKG_ID 16 1 0 else s) rPKG_ID 0 16 = getF s rPKG_ID 0 16 := by
    split
    · exact ⟨frame_setF s (by simp) 16 1 0, getF_setF_otherField s rPKG_ID 16 1 0 0 16 (by decide) (.inl (by decide))⟩
    · exact ⟨Frame.refl _ s, rfl⟩
  obtain ⟨hf, hid⟩ := hclear
  unfold pkgIdRun
  dsimp only
  rw [if_pos hany]
  refine ⟨hf.trans (frame_setF _ (by simp) 16 1 1), ?_, getB_setF_bit _ rPKG_ID 16 true (by decide)⟩
  rw [ownPkg, getF_setF_otherField _ rPKG_ID 16 1 1 0 16 (by decide) (.inl (by decide)), hid, ownPkg]

/-- The package takes its ID while every port is DOWN (R435). -/
theorem pkgIdRun_down (v : BitVec 32) (h : ∀ p, p < 16 → portState s p = 0) :
    Frame [rPKG_ID, rFAB_ROUTE] s (pkgIdRun s v) ∧ ownPkg (pkgIdRun s v) = v.toNat % 65536 ∧ (fabBadCfg (pkgIdRun s v) = true → getB (pkgIdRun s v) rFAB_ROUTE 24 = true) := by
  have hany : ¬ ((List.range 16).any fun p => portState s p != 0) = true := by
    simp only [List.any_eq_true, List.mem_range, bne_iff_ne, ne_eq, not_exists, not_and, not_not]
    exact h
  have hclear : Frame [rPKG_ID, rFAB_ROUTE] s (if bits v.toNat 16 1 = 1 then setF s rPKG_ID 16 1 0 else s) := by
    split
    · exact frame_setF s (by simp) 16 1 0
    · exact Frame.refl _ s
  unfold pkgIdRun
  dsimp only
  rw [if_neg hany]
  generalize (if bits v.toNat 16 1 = 1 then setF s rPKG_ID 16 1 0 else s) = s1 at hclear
  have hid : getF (setF s1 rPKG_ID 0 16 (bits v.toNat 0 16)) rPKG_ID 0 16 = v.toNat % 65536 := by
    rw [getF_setF_same s1 rPKG_ID 0 16 _ (by decide), bits_eq_div_mod, Nat.pow_zero, Nat.div_one, Nat.mod_mod, show (2 : Nat) ^ 16 = 65536 by decide]
  have hf := hclear.trans (frame_setF (l := [rPKG_ID, rFAB_ROUTE]) (off := rPKG_ID) s1 (by simp) 0 16 (bits v.toNat 0 16))
  generalize setF s1 rPKG_ID 0 16 (bits v.toNat 0 16) = s2 at hid hf
  split
  next hbad =>
    refine ⟨hf.trans (frame_setF s2 (by simp) 24 1 1), ?_, fun _ => getB_setF_bit s2 rFAB_ROUTE 24 true (by decide)⟩
    rw [ownPkg, getF_setF_otherReg s2 24 1 1 0 16 (by decide), hid]
  next hbad => exact ⟨hf, hid, fun hb => absurd hb hbad⟩

end Sys2Proof.Safety
end

section
/-! PROOF. Registers take their writes (O58), continued: LEGACY (R290) and the registers of a debug session (R438). -/

namespace Sys2Proof.Safety

open Sys2Proof.Machine

variable {s s' t : State} {src : Src}

-- the sequences of the dies --------------------------------------------------------------------------------------------------------------------------

/-- What the sequences of R320 may change: DVFS_STATUS, the rails, the goals of the regions and the PMBus. -/
structure Sequenced (s s' : State) : Prop where
  frame : Frame [rDVFS_STATUS, rDVFS_STATUS + 4] s s'
  xlat : ∀ q, (regionOf s' q).xlat = (regionOf s q).xlat

namespace Sequenced

theorem refl (s : State) : Sequenced s s := ⟨Frame.refl _ s, fun _ => rfl⟩
theorem trans (h : Sequenced s s') (h' : Sequenced s' t) : Sequenced s t := ⟨h.frame.trans h'.frame, fun q => (h'.xlat q).trans (h.xlat q)⟩
theorem ite {p : Prop} [Decidable p] (h : Sequenced s s') (h' : Sequenced s t) : Sequenced s (if p then s' else t) := by
  split
  · exact h
  · exact h'
theorem foldl {α : Type*} {l : List α} {g : State → α → State} (hg : ∀ x a, Sequenced x (g x a)) (s : State) : Sequenced s (l.foldl g s) :=
  List.foldlRecOn (motive := Sequenced s) l _ (refl s) fun x h a _ => h.trans (hg x a)

theorem setRegion_goal (s : State) (r : Nat) (g : Option Nat) : Sequenced s (setRegion s r { regionOf s r with goal := g }) := by
  refine ⟨frame_setRegion _ s r _, fun q => ?_⟩
  by_cases h : q = r
  · subst h
    rw [regionOf_setRegion_same]
  · rw [regionOf_setRegion_other s _ h]

theorem setPhase (s : State) (d p : Nat) : Sequenced s (Machine.setPhase s d p) := ⟨frame_setR64 s (by simp) (by simp) _, fun _ => rfl⟩
theorem startN (s : State) (rs : List Nat) : Sequenced s (Machine.startN s rs) := foldl (fun x r => setRegion_goal x r _) s
theorem railTo (s : State) (d : Nat) (v : BitVec 10) : Sequenced s (Machine.railTo s d v) := by
  unfold Machine.railTo pmbSend
  split
  · exact ⟨frame_setRail _ s d _, fun _ => rfl⟩
  · exact ⟨(frame_setRail _ s d { railOf s d with goal := v, settled := false, since := s.time.ticks }).trans ⟨fun _ => rfl, fun _ _ => rfl, rfl, rfl⟩, fun _ => rfl⟩

theorem dieNext (s : State) (d : Nat) : Sequenced s (Machine.dieNext s d) := by
  unfold Machine.dieNext
  refine ite (refl s) (ite ((startN s _).trans (setPhase _ d 1)) (ite (setPhase s d 1) (ite ((railTo s d _).trans (setPhase _ d _)) (ite ?_ (setPhase s d _)))))
  exact (startN s _).trans (setPhase _ d 4)

theorem dvfsNext (s : State) : Sequenced s (Machine.dvfsNext s) := by
  have hdies : Sequenced s ((List.range 4).foldl Machine.dieNext s) := foldl dieNext s
  unfold Machine.dvfsNext
  generalize (List.range 4).foldl Machine.dieNext s = x at hdies
  unfold svcNext
  exact hdies.trans (ite (startN x _) (refl x))

end Sequenced

-- LEGACY (R290) ----------------------------------------------------------------------------------------------------------------------------------------

theorem regTop_xctl {cl : Nat} (hcl : cl < 32) (h : Served s src (rCLK_XCTL cl)) {v : Nat} (hv : v < 2 ^ 32) : regTop s src (rCLK_XCTL cl) false v = clkXctl s cl v := by
  have hself : clusterBase cl + 0x80 = rCLK_XCTL cl := rfl
  rw [regTop_of_served h (by unfold rCLK_XCTL clusterBase; omega) (by unfold rCLK_XCTL clusterBase; omega), rCLK_XCTL, writeWord_cluster s src hcl (by decide), clusterWrite, if_pos hself, BitVec.toNat_ofNat, Nat.mod_eq_of_lt hv]

/-- Registers that a change of LEGACY may write. -/
def legacyRegs (cl : Nat) : List Nat := [rCLK_XCTL cl, rCLK_STAT cl, rDVFS_STATUS, rDVFS_STATUS + 4] ++ (List.range 4).map fun d => rCLK_STAT (32 + d)

theorem xctl_not_status {cl : Nat} : rCLK_XCTL cl ∉ [rDVFS_STATUS, rDVFS_STATUS + 4] := by
  simp only [List.mem_cons, List.not_mem_nil, or_false]
  unfold rCLK_XCTL rDVFS_STATUS clusterBase
  omega

/-- A cluster's crossing waits for its alignment again: XLAT is 0 and its flag shows none. -/
theorem unalign_cluster {cl : Nat} (hcl : cl < 32) (s : State) : Frame (legacyRegs cl) s (unalign s cl) ∧ (regionOf (unalign s cl) cl).xlat = 0 ∧
    getB (unalign s cl) (rCLK_STAT cl) 7 = false ∧ getF (unalign s cl) (rCLK_XCTL cl) 0 1 = getF s (rCLK_XCTL cl) 0 1 := by
  have hreg : regionOf (setRegion s cl { regionOf s cl with xlat := 0 }) cl = { regionOf s cl with xlat := 0 } := regionOf_setRegion_same s cl _
  have hf0 : Frame (legacyRegs cl) s (setRegion s cl { regionOf s cl with xlat := 0 }) := frame_setRegion _ s cl _
  have hx0 : getF (setRegion s cl { regionOf s cl with xlat := 0 }) (rCLK_XCTL cl) 0 1 = getF s (rCLK_XCTL cl) 0 1 := rfl
  have hstat (x : State) (l : List Nat) (hl : ∀ d ∈ l, d < 4) :
      let g := fun (y : State) d => setF y (rCLK_STAT (32 + d)) 7 1 (if regionUp y (32 + d) && svcAligned y d then 1 else 0)
      Frame (legacyRegs cl) x (l.foldl g x) ∧ (l.foldl g x).regions = x.regions ∧ getR (l.foldl g x) (rCLK_STAT cl) = getR x (rCLK_STAT cl) ∧
        getR (l.foldl g x) (rCLK_XCTL cl) = getR x (rCLK_XCTL cl) := by
    induction l generalizing x with
    | nil => exact ⟨Frame.refl _ x, rfl, rfl, rfl⟩
    | cons d l ih =>
      have hd := hl d List.mem_cons_self
      obtain ⟨h1, h2, h3, h4⟩ := ih (setF x (rCLK_STAT (32 + d)) 7 1 (if regionUp x (32 + d) && svcAligned x d then 1 else 0)) fun e he => hl e (List.mem_cons_of_mem _ he)
      refine ⟨(frame_setF x ?_ 7 1 _).trans h1, h2.trans (setF_regions x _ 7 1 _), h3.trans (getR_setF_other x 7 1 _ ?_), h4.trans (getR_setF_other x 7 1 _ ?_)⟩
      · exact List.mem_append_right _ (List.mem_map_of_mem (List.mem_range.2 hd))
      · unfold rCLK_STAT
        omega
      · unfold rCLK_STAT rCLK_XCTL clusterBase
        omega
  unfold unalign
  rw [if_pos hcl, setXlat]
  generalize setRegion s cl { regionOf s cl with xlat := 0 } = x at hreg hf0 hx0
  unfold xalignSet
  dsimp only
  rw [if_pos hcl, hreg, if_pos rfl]
  obtain ⟨h1, h2, h3, h4⟩ := hstat (setF x (rCLK_STAT cl) 7 1 0) (List.range 4) fun d hd => List.mem_range.1 hd
  refine ⟨(hf0.trans (frame_setF x ?_ 7 1 0)).trans h1, ?_, ?_, ?_⟩
  · exact List.mem_append_left _ (by simp)
  · rw [regionOf, h2, setF_regions, ← regionOf, hreg]
  · exact (getB_congr h3 7).trans (getB_setF_bit x (rCLK_STAT cl) 7 false (by decide))
  · rw [getF, h4, getR_setF_other x 7 1 0 (by unfold rCLK_STAT rCLK_XCTL clusterBase; omega), ← getF, hx0]

/-- LEGACY is refused while a floe of the cluster has slots in use (R290). -/
theorem clkXctl_live {cl v : Nat} (hv : bits v 1 1 = 0) (h : clusterLive s cl = true) : clkXctl s cl v = setF s (rCLK_XCTL cl) 1 1 1 := by
  unfold clkXctl
  rw [if_neg (show ¬ bits v 1 1 = 1 by omega), if_pos h]

/-- LEGACY takes its value, and a change of it lets the crossing align again (R288, R290). -/
theorem clkXctl_idle {cl : Nat} (hcl : cl < 32) (on : Bool) (h : clusterLive s cl = false) {v : Nat} (hv : v = if on then 1 else 0) :
    Frame (legacyRegs cl) s (clkXctl s cl v) ∧ getB (clkXctl s cl v) (rCLK_XCTL cl) 0 = on ∧
      (getB s (rCLK_XCTL cl) 0 ≠ on → (regionOf (clkXctl s cl v) cl).xlat = 0 ∧ getB (clkXctl s cl v) (rCLK_STAT cl) 7 = false) := by
  have hb1 : ¬ bits v 1 1 = 1 := by rw [hv]; cases on <;> decide
  have hb0 : bits v 0 1 = if on then 1 else 0 := by rw [hv]; cases on <;> rfl
  have hlt := getF_lt s (rCLK_XCTL cl) 0 1
  unfold clkXctl
  rw [if_neg hb1, if_neg (by rw [h]; decide)]
  split
  next heq =>
    have hon : getB s (rCLK_XCTL cl) 0 = on := by
      rw [getB, ← heq, hb0]
      cases on <;> rfl
    exact ⟨Frame.refl _ s, hon, fun hne => absurd hon hne⟩
  next hne =>
    obtain ⟨hf, hx, ha, hl⟩ := unalign_cluster hcl (setF s (rCLK_XCTL cl) 0 1 (bits v 0 1))
    have hf1 : Frame (legacyRegs cl) s (setF s (rCLK_XCTL cl) 0 1 (bits v 0 1)) := frame_setF s (List.mem_append_left _ (by simp)) 0 1 _
    have hon : getB (unalign (setF s (rCLK_XCTL cl) 0 1 (bits v 0 1)) cl) (rCLK_XCTL cl) 0 = on := by
      rw [getB, hl, getF_setF_same s (rCLK_XCTL cl) 0 1 _ (by decide), hb0]
      cases on <;> rfl
    generalize unalign (setF s (rCLK_XCTL cl) 0 1 (bits v 0 1)) cl = s2 at hf hx ha hon
    have hseq : Sequenced s2 (if legacyOf s2 cl = true then (if regionUp s2 cl = true ∧ tgtN s2 cl ≠ regionN s2 cl then
        setRegion s2 cl { regionOf s2 cl with goal := some (tgtN s2 cl) } else s2) else if awake s2 = true then dvfsNext s2 else s2) :=
      Sequenced.ite (Sequenced.ite (Sequenced.setRegion_goal s2 cl _) (Sequenced.refl s2)) (Sequenced.ite (Sequenced.dvfsNext s2) (Sequenced.refl s2))
    refine ⟨(hf1.trans hf).trans (hseq.frame.mono ?_), ?_, fun _ => ⟨(hseq.xlat cl).trans hx, ?_⟩⟩
    · intro off ho
      refine List.mem_append_left _ ?_
      simp only [List.mem_cons, List.not_mem_nil, or_false] at ho ⊢
      rcases ho with rfl | rfl
      · exact .inr (.inr (.inl rfl))
      · exact .inr (.inr (.inr rfl))
    · exact (getB_congr (hseq.frame.getR_eq xctl_not_status) 0).trans hon
    · refine (getB_congr (hseq.frame.getR_eq ?_) 7).trans ha
      simp only [List.mem_cons, List.not_mem_nil, or_false]
      unfold rCLK_STAT rDVFS_STATUS
      omega

-- the registers of a debug session (R438) ------------------------------------------------------------------------------------------------------------------

theorem frame_setSreg (l : List Nat) (s : State) (c u r : Nat) (v : BitVec 64) : Frame l s (setSreg s c u r v) := frame_modCore l s c _
theorem frame_setAreg (l : List Nat) (s : State) (c u r : Nat) (v : BitVec 32) : Frame l s (setAreg s c u r v) := frame_modCore l s c _

/-- A scalar register takes the value of a 64-bit debug write. -/
theorem debugSreg_written {c u r : Nat} (hc : c < 256) (hu : u < 4) (hr : r < 32) (h : Served s src (coreBase c + (0x3000 + 0x200 * u + 8 * r)))
    (hd : mayDebug s src = true) (hst : slotState s c u ≠ 2) (hg : gatedFor s (coreBase c + (0x3000 + 0x200 * u + 8 * r) + 4) = none) (v : BitVec 64) :
    ∃ s', debugTop s src c (0x3000 + 0x200 * u + 8 * r) true v.toNat = s' ∧ Frame [] s s' ∧ OtherSlots c u s s' ∧ sreg s' c u r = v ∧
      (∀ q, q ≠ r → sreg s' c u q = sreg s c u q) ∧ ∀ q, areg s' c u q = areg s c u q := by
  have hin (k : Nat) (hk : k < 2) : (0x2800 ≤ 0x3000 + 0x200 * u + 8 * r + 4 * k ∧ 0x3000 + 0x200 * u + 8 * r + 4 * k < 0x2C00) ∨
      (0x3000 ≤ 0x3000 + 0x200 * u + 8 * r + 4 * k ∧ 0x3000 + 0x200 * u + 8 * r + 4 * k < 0x3800 ∧ (0x3000 + 0x200 * u + 8 * r + 4 * k) % 0x200 < 0x140) := by omega
  have he4 : coreBase c + (0x3000 + 0x200 * u + 8 * r) + 4 = coreBase c + (0x3000 + 0x200 * u + 8 * r + 4 * 1) := by omega
  have hw1 : writeWord s src (coreBase c + (0x3000 + 0x200 * u + 8 * r)) (BitVec.ofNat 32 v.toNat) =
      setSreg s c u r (BitVec.ofNat 64 (setBits (sreg s c u r).toNat 0 32 (BitVec.ofNat 32 v.toNat).toNat)) := by
    have hw := coreWrite_debug (s := s) hc (hin 0 (by decide)) hd (BitVec.ofNat 32 v.toNat)
    rw [Nat.mul_zero, Nat.add_zero] at hw
    exact hw.trans <| debugWrite_sreg (h := 0) hr (by decide) hst _
  generalize hx : BitVec.ofNat 64 (setBits (sreg s c u r).toNat 0 32 (BitVec.ofNat 32 v.toNat).toNat) = x at hw1
  have hregs (o : Nat) : getR (setSreg s c u r x) o = getR s o := (frame_setSreg [] s c u r x).getR_eq List.not_mem_nil
  have hs1 : slotState (setSreg s c u r x) c u ≠ 2 := by rwa [slotState, getF, hregs, ← getF, ← slotState]
  have hd1 : mayDebug (setSreg s c u r x) src = true := (mayDebug_congr (hregs _) src).trans hd
  have hmay4 : mayWriteAt (setSreg s c u r x) src (coreBase c + (0x3000 + 0x200 * u + 8 * r) + 4) = true :=
    (mayWriteAt_core (off := coreBase c + (0x3000 + 0x200 * u + 8 * r)) (by unfold coreBase; omega) (by unfold coreBase; omega) (sessOpen_congr (hregs _))).trans h.2.2.1
  have htop := regTop_wide_words h (by unfold coreBase; omega) (by unfold coreBase; omega) hg (wideWrite_core s (by unfold coreBase; omega) v.toNat) (by rw [hw1]; exact hmay4)
  rw [hw1, he4, coreWrite_debug hc (hin 1 (by decide)) hd1, debugWrite_sreg hr (by decide) hs1, sreg_setSreg_same] at htop
  have hval : BitVec.ofNat 64 (setBits x.toNat (32 * 1) 32 (BitVec.ofNat 32 (v.toNat / 2 ^ 32)).toNat) = v := by
    have hlow (y lo : Nat) (n : Nat) : setBits y lo 32 (BitVec.ofNat 32 n).toNat = setBits y lo 32 n := by
      refine Nat.eq_of_testBit_eq fun i => ?_
      simp only [testBit_setBits, BitVec.toNat_ofNat, Nat.testBit_mod_two_pow]
      split
      · rfl
      · split
        next h1 h2 => rw [decide_eq_true (by omega), Bool.true_and]
        · rfl
    rw [← hx, hlow, hlow]
    exact halves_written (sreg s c u r) v
  rw [hval] at htop
  refine ⟨_, (debugTop_of (hin 0 (by decide)) true _).trans htop, (frame_setSreg [] s c u r x).trans (frame_setSreg [] _ c u r v),
    (otherSlots_modSlot s c u _).trans (otherSlots_modSlot _ c u _), sreg_setSreg_same _ c u r v, fun q hq => ?_, fun q => ?_⟩
  · rw [sreg_setSreg_other _ c u v hq, sreg_setSreg_other _ c u x hq]
  · rw [areg_setSreg, areg_setSreg]

/-- An address register takes the value of a debug write. -/
theorem debugAreg_written {c u r : Nat} (hc : c < 256) (hu : u < 4) (hr : r < 16) (h : Served s src (coreBase c + (0x3100 + 0x200 * u + 4 * r)))
    (hd : mayDebug s src = true) (hst : slotState s c u ≠ 2) (v : BitVec 64) :
    ∃ s', debugTop s src c (0x3100 + 0x200 * u + 4 * r) false v.toNat = s' ∧ Frame [] s s' ∧ OtherSlots c u s s' ∧ areg s' c u r = v.setWidth 32 ∧
      (∀ q, q ≠ r → areg s' c u q = areg s c u q) ∧ ∀ q, sreg s' c u q = sreg s c u q := by
  have hin : (0x2800 ≤ 0x3100 + 0x200 * u + 4 * r ∧ 0x3100 + 0x200 * u + 4 * r < 0x2C00) ∨
      (0x3000 ≤ 0x3100 + 0x200 * u + 4 * r ∧ 0x3100 + 0x200 * u + 4 * r < 0x3800 ∧ (0x3100 + 0x200 * u + 4 * r) % 0x200 < 0x140) := by omega
  have hval : BitVec.ofNat 32 (BitVec.ofNat 32 v.toNat).toNat = v.setWidth 32 := by
    apply BitVec.eq_of_toNat_eq
    rw [BitVec.toNat_ofNat, BitVec.toNat_ofNat, BitVec.toNat_setWidth, Nat.mod_mod]
  have htop : debugTop s src c (0x3100 + 0x200 * u + 4 * r) false v.toNat = setAreg s c u r (v.setWidth 32) := by
    rw [debugTop_of hin, regTop_of_served h (by unfold coreBase; omega) (by unfold coreBase; omega), coreWrite_debug hc hin hd, debugWrite_areg hr hst, hval]
  exact ⟨_, htop, frame_setAreg [] s c u r _, otherSlots_modSlot s c u _, areg_setAreg_same s c u r _, fun q hq => areg_setAreg_other s c u _ hq,
    fun q => sreg_setAreg s c u r _ q⟩

/-- A word of the selected vector register takes its debug write while no slot runs. -/
theorem debugVreg_written {c i : Nat} (hc : c < 256) (hi : i < 256) (h : Served s src (coreBase c + (0x2800 + 4 * i))) (hd : mayDebug s src = true) (v : BitVec 64) :
    (runningSlot s c = none → ∃ s', debugTop s src c (0x2800 + 4 * i) false v.toNat = s' ∧ Frame [] s s' ∧ OtherVregs [getF s (rDBG_VSEL c) 0 5] c s s' ∧
      bits (vreg s' c (getF s (rDBG_VSEL c) 0 5)).toNat (32 * i) 32 = v.toNat % 2 ^ 32 ∧
      ∀ j, j < 256 → j ≠ i → bits (vreg s' c (getF s (rDBG_VSEL c) 0 5)).toNat (32 * j) 32 = bits (vreg s c (getF s (rDBG_VSEL c) 0 5)).toNat (32 * j) 32) ∧
    (runningSlot s c ≠ none → debugTop s src c (0x2800 + 4 * i) false v.toNat = s) := by
  have hin : (0x2800 ≤ 0x2800 + 4 * i ∧ 0x2800 + 4 * i < 0x2C00) ∨ (0x3000 ≤ 0x2800 + 4 * i ∧ 0x2800 + 4 * i < 0x3800 ∧ (0x2800 + 4 * i) % 0x200 < 0x140) :=
    .inl (by omega)
  have htop : debugTop s src c (0x2800 + 4 * i) false v.toNat = debugWrite s c (0x2800 + 4 * i) (v.toNat % 2 ^ 32) := by
    rw [debugTop_of hin, regTop_of_served h (by unfold coreBase; omega) (by unfold coreBase; omega), coreWrite_debug hc hin hd, BitVec.toNat_ofNat]
  rw [htop, debugWrite_vreg hi]
  generalize getF s (rDBG_VSEL c) 0 5 = r
  refine ⟨fun hrun => ?_, fun hrun => if_pos (Option.isSome_iff_ne_none.2 hrun)⟩
  rw [hrun, if_neg (by decide)]
  refine ⟨_, rfl, frame_setVreg [] s c r _, fun q hq => vreg_setVreg_other s c _ (by simpa using hq), ?_, fun j hj hji => ?_⟩
  · rw [vreg_setVreg_same, bits_toNat_ofNat _ (by omega), bits_setBits_same, Nat.mod_mod]
  · rw [vreg_setVreg_same, bits_toNat_ofNat _ (by omega), bits_setBits_other _ _ _ _ _ _ (by omega)]

/-- Settles O58: each register by the rule of its word. -/
theorem registersTakeTheirWrites : Obligations.RegistersTakeTheirWrites := by
  intro src s
  refine ⟨fun c u n k off v h hmem => ?_, fun c d k v h hg => ?_, fun k mode h => ?_, fun k rate h => ?_, fun v h => ⟨fun hok => ?_, fun hno => ?_⟩, fun h hlive => ?_,
    fun cl on h live hlive => ⟨fun hl => ?_, fun hl => ?_⟩, fun v h => ⟨fun hup => ?_, fun hdown => ?_⟩,
    fun c u off v h hd hst => ⟨fun r hr hoff hg => ?_, fun r hr hoff => ?_⟩, fun c i off v hi hoff h hd r hreg => ?_⟩
  · obtain ⟨s', htop, hf, hval⟩ := regTop_plainReg h (plainReg_of_mem c.isLt u.isLt n.isLt k.isLt hmem) v.toNat
    refine ⟨s', congrArg Host.Outcome.next htop, hf, fun p x hp hx => ?_⟩
    rw [hp, hx]
    exact hval
  · obtain ⟨s', htop, hrest⟩ := descTemplate_written c.isLt d.isLt k.isLt h hg v
    exact ⟨s', congrArg Host.Outcome.next htop, hrest⟩
  · obtain ⟨s', htop, hrest⟩ := firnMap_written k.isLt h mode
    exact ⟨s', congrArg Host.Outcome.next htop, hrest⟩
  · obtain ⟨s', htop, hrest⟩ := firnRefresh_written k.isLt h rate
    exact ⟨s', congrArg Host.Outcome.next htop, hrest⟩
  · exact ⟨_, congrArg Host.Outcome.next (tbValue_written h v), tbStep_allowed hok v⟩
  · exact ⟨_, congrArg Host.Outcome.next (tbValue_written h v), tbStep_refused hno _⟩
  · exact ⟨_, congrArg Host.Outcome.next (readTop_tbLow h hlive), frame_withTime [] s _, rfl, rfl, readReg_tbHigh s⟩
  · have hv : (if on then 1 else 0) < 2 ^ 32 := by cases on <;> decide
    exact ⟨_, congrArg Host.Outcome.next (regTop_xctl cl.isLt h hv), clkXctl_idle cl.isLt on (hlive.symm.trans hl) rfl⟩
  · have hv : (if on then 1 else 0) < 2 ^ 32 := by cases on <;> decide
    have hb : bits (if on then 1 else 0) 1 1 = 0 := by cases on <;> rfl
    refine ⟨_, congrArg Host.Outcome.next ((regTop_xctl cl.isLt h hv).trans (clkXctl_live hb (hlive.symm.trans hl))), frame_setF s (List.mem_singleton.2 rfl) 1 1 1,
      getB_setF_bits s (rCLK_XCTL cl) (by decide) (.inl (by decide)), getB_setF_bit s (rCLK_XCTL cl) 1 true (by decide)⟩
  · exact ⟨_, congrArg Host.Outcome.next (regTop_pkgId h v), pkgIdRun_up v hup⟩
  · exact ⟨_, congrArg Host.Outcome.next (regTop_pkgId h v), pkgIdRun_down v hdown⟩
  · rw [hoff] at h hg
    obtain ⟨s', htop, hrest⟩ := debugSreg_written c.isLt u.isLt hr h hd hst hg v
    rw [← hoff] at htop
    exact ⟨s', congrArg Host.Outcome.next htop, hrest⟩
  · rw [hoff] at h
    obtain ⟨s', htop, hrest⟩ := debugAreg_written c.isLt u.isLt hr h hd hst v
    rw [← hoff] at htop
    exact ⟨s', congrArg Host.Outcome.next htop, hrest⟩
  · rw [hoff] at h
    subst hreg
    obtain ⟨hidle, hbusy⟩ := debugVreg_written c.isLt hi h hd v
    rw [← hoff] at hidle hbusy
    refine ⟨fun hrun => ?_, fun hrun => congrArg Host.Outcome.next (hbusy hrun)⟩
    obtain ⟨s', htop, hrest⟩ := hidle hrun
    exact ⟨s', congrArg Host.Outcome.next htop, hrest⟩

end Sys2Proof.Safety
end

section
/-! PROOF. Packets of the stream network (O33): injection (R195, R196, R198), switch outputs and turn buffers (R197, R198), delivery (R287, R289). -/

namespace Sys2Proof.Safety

open Sys2Proof.Machine

variable {s s' t : State} {key : Nat}

/-- Only the stream network moves. -/
def NetOnly (s s' : State) : Prop := ∃ n, s' = { s with net := n }

theorem NetOnly.trans (h : NetOnly s s') (h' : NetOnly s' t) : NetOnly s t := by
  obtain ⟨n, rfl⟩ := h
  obtain ⟨n', rfl⟩ := h'
  exact ⟨n', rfl⟩
theorem NetOnly.refl (s : State) : NetOnly s s := ⟨s.net, rfl⟩
theorem NetOnly.frame (h : NetOnly s s') (l : List Nat) : Frame l s s' := by
  obtain ⟨n, rfl⟩ := h
  exact ⟨fun _ => rfl, fun _ _ => rfl, rfl, rfl⟩
theorem NetOnly.wheel (h : NetOnly s s') (d : Nat) : wheelOf s' d = wheelOf s d := by
  obtain ⟨n, rfl⟩ := h
  rfl

theorem netOnly_setOut (s : State) (k : Nat) (q : List NetItem) : NetOnly s (setOut s k q) := ⟨_, rfl⟩
theorem netOnly_setUsed (s : State) (k d : Nat) : NetOnly s (setUsed s k d) := ⟨_, rfl⟩
theorem netOnly_setFlying (s : State) (q : List NetPkt) : NetOnly s (setFlying s q) := ⟨_, rfl⟩
theorem netOnly_setLink (s : State) (k : Nat) (q : List NetPkt) : NetOnly s (setLink s k q) := ⟨_, rfl⟩
theorem netOnly_setTurn (s : State) (k : Nat) (q : List NetPkt) : NetOnly s (setTurn s k q) := ⟨_, rfl⟩
theorem netOnly_setTurnHeld (s : State) (k : Nat) (b : Bool) : NetOnly s (setTurnHeld s k b) := by
  unfold setTurnHeld
  split
  · exact NetOnly.refl s
  · exact ⟨_, rfl⟩

theorem setTurnHeld_kept (s : State) (k : Nat) (b : Bool) : (setTurnHeld s k b).net.turn = s.net.turn ∧ (setTurnHeld s k b).net.links = s.net.links := by
  unfold setTurnHeld
  split
  · exact ⟨rfl, rfl⟩
  · exact ⟨rfl, rfl⟩
theorem turnHeld_setTurnHeld (s : State) (k : Nat) (b : Bool) : turnHeld (setTurnHeld s k b) k = b := by
  unfold setTurnHeld
  split
  next h => exact beq_iff_eq.1 h
  next h =>
    rw [turnHeld]
    dsimp only
    rw [mget_mset_same]
    rfl

theorem outOf_setOut_same (s : State) (k : Nat) (q : List NetItem) : outOf (setOut s k q) k = q := mget_mset_same _ _ _ _
theorem linkOf_setLink_same (s : State) (k : Nat) (q : List NetPkt) : linkOf (setLink s k q) k = q := mget_mset_same _ _ _ _
theorem turnOf_setTurn_same (s : State) (k : Nat) (q : List NetPkt) : turnOf (setTurn s k q) k = q := mget_mset_same _ _ _ _
theorem inOf_setIn_same (s : State) (k : Nat) (q : List NetItem) : inOf (setIn s k q) k = q := mget_mset_same _ _ _ _
theorem linkUsed_setUsed (s : State) (k d : Nat) : linkUsed (setUsed s k d) k d = true :=
  beq_iff_eq.2 (mget_mset_same _ s.net.used k (wheelOf s d + 1))

-- injection ----------------------------------------------------------------------------------------------------------------------------------

/-- The packet that a source injects (R196). -/
def injected (s : State) (c l : Nat) (route : List SwOut) (i : NetItem) : NetPkt :=
  { input := 8 * c + l, due := wheelOf s (c / 8) + 4, route := route, marks := i.marks, load := i.load }

theorem netInject_of {c l src slot : Nat} {route : List SwOut} {o : SwOut} {i : NetItem} {q : List NetItem} (hq : outOf s (outKey c l src) = i :: q) (hsrc : src ≤ 8)
    (hrun : swRuns s (c / 8) = true) (hslot : slot = wheelOf s (c / 8) % 256) (hown : injOwner s c l slot = src) (hfree : linkUsed s (outLink c l) (c / 8) = false)
    (hready : crossReady s c 2 i = true) (hroute : routeOk (c / 8) route = true) (hlast : route.getLast? = some o) (hends : endsAt o i.load = true) :
    netInject s c l src slot route = if routeHeld s (c / 8) route = true then setOut s (outKey c l src) ({ i with marks := i.marks ||| 32 } :: q)
      else setFlying (setUsed (setOut s (outKey c l src) q) (outLink c l) (c / 8)) (s.net.flying ++ [injected s c l route i]) := by
  have hgo : ¬ (8 < src ∨ swRuns s (c / 8) = false ∨ slot ≠ wheelOf s (c / 8) % 256 ∨ injOwner s c l slot ≠ src ∨ linkUsed s (outLink c l) (c / 8) = true ∨
      crossReady s c 2 i = false ∨ routeOk (c / 8) route = false ∨ (route.getLast?.any fun o => endsAt o i.load) = false) := by
    rw [hlast]
    simp only [Option.any_some, hrun, hown, hfree, hready, hroute, hends, ← hslot, ne_eq, not_true, Bool.true_eq_false, Bool.false_eq_true, or_false]
    omega
  unfold netInject
  simp only [hq]
  rw [if_neg hgo]
  rfl

-- switch outputs -----------------------------------------------------------------------------------------------------------------------------

/-- The due packets of an output stand by the rank of their inputs. -/
theorem pairwise_rankInsert (p : NetPkt) {l : List NetPkt} (h : l.Pairwise fun a b => a.input ≤ b.input) :
    (rankInsert p l).Pairwise (fun a b => a.input ≤ b.input) ∧ ∀ x ∈ rankInsert p l, x = p ∨ x ∈ l := by
  induction l with
  | nil => exact ⟨List.pairwise_singleton _ _, fun x hx => .inl (List.mem_singleton.1 hx)⟩
  | cons q l ih =>
    obtain ⟨hq, hl⟩ := List.pairwise_cons.1 h
    obtain ⟨h1, h2⟩ := ih hl
    rw [rankInsert]
    split
    next hlt =>
      refine ⟨List.pairwise_cons.2 ⟨fun x hx => ?_, h⟩, fun x hx => List.mem_cons.1 hx⟩
      rcases List.mem_cons.1 hx with rfl | hx
      · exact hlt.le
      · exact hlt.le.trans (hq x hx)
    next hge =>
      refine ⟨List.pairwise_cons.2 ⟨fun x hx => ?_, h1⟩, fun x hx => ?_⟩
      · rcases h2 x hx with rfl | hx
        · exact not_lt.1 hge
        · exact hq x hx
      · rcases List.mem_cons.1 hx with rfl | hx
        · exact .inr List.mem_cons_self
        · exact (h2 x hx).imp id (List.mem_cons_of_mem _)

theorem pairwise_swDue (s : State) (key : Nat) : (swDue s key).1.Pairwise fun a b => a.input ≤ b.input := by
  have hfold (l m : List NetPkt) (h : m.Pairwise fun a b => a.input ≤ b.input) : (l.foldl (fun l p => rankInsert p l) m).Pairwise fun a b => a.input ≤ b.input := by
    induction l generalizing m with
    | nil => exact h
    | cons p l ih => exact ih _ (pairwise_rankInsert p h).1
  exact hfold _ [] List.Pairwise.nil

/-- The packets that are due leave what flies and what is received; links and turn buffers stand. -/
structure DueTaken (s s' : State) : Prop where
  net : NetOnly s s'
  turn : s'.net.turn = s.net.turn
  links : s'.net.links = s.net.links

theorem dueTaken_swDue (s : State) (key : Nat) : DueTaken s (swDue s key).2 := ⟨⟨_, rfl⟩, rfl, rfl⟩

theorem DueTaken.turnOf (h : DueTaken s s') (key : Nat) : Machine.turnOf s' key = Machine.turnOf s key := by rw [Machine.turnOf, h.turn, Machine.turnOf]
theorem DueTaken.linkOf (h : DueTaken s s') (key : Nat) : Machine.linkOf s' key = Machine.linkOf s key := by rw [Machine.linkOf, h.links, Machine.linkOf]
theorem DueTaken.dueAt (h : DueTaken s s') (key : Nat) : Machine.dueAt s' key = Machine.dueAt s key := by
  funext p
  rw [Machine.dueAt, Machine.dueAt, h.net.wheel]

theorem swMeet_of (hrun : swRuns s (keyDie key) = true) (hfree : linkUsed s key (keyDie key) = false) :
    swMeet s key = match (turnOf s key).find? (fun p => dueAt s key p) with
      | some h => (swDue s key).1.foldl (fun s p => turnCollide s key p) (swEnter (setTurn (swDue s key).2 key ((turnOf s key).erase h)) key h)
      | none => match (swDue s key).1 with
        | [] => s
        | p :: r => r.foldl (fun s q => turnCollide s key q) (swEnter (swDue s key).2 key p) := by
  have hgo : ¬ (swRuns s (keyDie key) = false ∨ linkUsed s key (keyDie key) = true) := by simp [hrun, hfree]
  have hd := dueTaken_swDue s key
  unfold swMeet
  dsimp only
  rw [if_neg hgo, hd.turnOf, hd.dueAt] <;> rfl

/-- A packet that enters an inbound link. -/
structure Entered (key : Nat) (s s' : State) (p : NetPkt) : Prop where
  net : NetOnly s s'
  turn : s'.net.turn = s.net.turn
  link : linkOf s' key = linkOf s key ++ [{ p with due := wheelOf s (keyDie key) + 4, route := [] }]

theorem entered_swEnter (hkey : key < 256) (s : State) (p : NetPkt) : Entered key s (swEnter s key p) p := by
  have heq : swEnter s key p = setLink (setUsed s key (keyDie key)) key (linkOf s key ++ [{ p with due := wheelOf s (keyDie key) + 4, route := [] }]) := if_pos hkey
  rw [heq]
  exact ⟨(netOnly_setUsed s key _).trans (netOnly_setLink _ key _), rfl, linkOf_setLink_same _ key _⟩

/-- A packet that waits a turn (R197, R198). -/
structure Waits (key : Nat) (s s' : State) (p : NetPkt) : Prop where
  turn : turnOf s' key = turnOf s key ++ [{ p with due := p.due + 256, marks := p.marks ||| 32 }]
  links : s'.net.links = s.net.links

theorem waits_turnPush (hroom : (turnOf s key).length < 16) (p : NetPkt) : Waits key s (turnPush s key p) p ∧ NetOnly s (turnPush s key p) := by
  have hset := turnOf_setTurn_same s key (turnOf s key ++ [{ p with due := p.due + 256, marks := p.marks ||| 32 }])
  have hnet := netOnly_setTurn s key (turnOf s key ++ [{ p with due := p.due + 256, marks := p.marks ||| 32 }])
  unfold turnPush
  dsimp only
  rw [if_neg (by omega)]
  have hlinks : (setTurn s key (turnOf s key ++ [{ p with due := p.due + 256, marks := p.marks ||| 32 }])).net.links = s.net.links := rfl
  generalize setTurn s key (turnOf s key ++ [{ p with due := p.due + 256, marks := p.marks ||| 32 }]) = s1 at hset hnet hlinks
  split
  · obtain ⟨ht, hl⟩ := setTurnHeld_kept s1 key true
    exact ⟨⟨by rw [turnOf, ht, ← turnOf, hset], hl.trans hlinks⟩, hnet.trans (netOnly_setTurnHeld _ key true)⟩
  · exact ⟨⟨hset, hlinks⟩, hnet⟩

theorem netCount_inbound (hkey : key < 256) : netCount key = some (rNET_CNT (key / 8)) := if_pos hkey

theorem Noted.net (h : Noted s s') : s'.net = s.net := by
  obtain ⟨⟨r, tr, ho, pi, rfl⟩, -⟩ := h
  rfl

/-- A collision: the packet waits a turn, and the node's count rises (R197). -/
theorem turnCollide_facts (hkey : key < 256) (hroom : (turnOf s key).length < 16) (p : NetPkt) :
    Waits key s (turnCollide s key p) p ∧ SameMem s (turnCollide s key p) ∧
      getF (turnCollide s key p) (rNET_CNT (key / 8)) 0 16 = min 65535 (getF s (rNET_CNT (key / 8)) 0 16 + 1) := by
  obtain ⟨hw, hn⟩ := waits_turnPush hroom p
  have hd : keyDie key < 4 := by unfold keyDie; rw [if_pos hkey]; omega
  unfold turnCollide
  simp only [netCount_inbound hkey]
  generalize turnPush s key p = s1 at hw hn
  have hev := noted_raiseEv_unowned (satF s1 (rNET_CNT (key / 8)) 0 16 1) hd (e := { cls := cCOLLISION, sev := 0, home := 0, ukind := 2, uindex := key, detail := p.due % 256 + 256 * keyLink key })
    rfl (show cCOLLISION < 256 by decide) (show 0 < 4 by decide)
  have hcnt : ¬ LogReg (rNET_CNT (key / 8)) := by unfold LogReg rNET_CNT clusterBase; omega
  have hnet : (satF s1 (rNET_CNT (key / 8)) 0 16 1).net = s1.net := setF_net s1 _ 0 16 _
  generalize raiseEv (satF s1 (rNET_CNT (key / 8)) 0 16 1) (keyDie key) _ = s2 at hev
  have hnet2 : s2.net = s1.net := hev.net.trans hnet
  refine ⟨⟨?_, ?_⟩, fun a => ?_, ?_⟩
  · rw [turnOf, hnet2, ← turnOf, hw.turn]
  · rw [hnet2, hw.links]
  · exact (hev.sameMem a).trans ((rdByte_congr (setF_mem s1 _ 0 16 _) a).trans ((hn.frame []).1 a))
  · rw [hev.getF_eq hcnt, satF_field s1 _ 0 16 1 (by decide), (hn.frame []).getF_eq List.not_mem_nil, show 2 ^ 16 - 1 = 65535 by decide]

-- delivery -----------------------------------------------------------------------------------------------------------------------------------

theorem netDeliver_of {c l : Nat} {p : NetPkt} {q : List NetPkt} (hq : linkOf s (8 * c + l) = p :: q) (hrun : swRuns s (c / 8) = true) (hdue : p.due ≤ wheelOf s (c / 8))
    (hroom : (inOf s (8 * c + l)).length < 8) :
    netDeliver s c l = setIn { setLink s (8 * c + l) q with draws := s.draws + 1 } (8 * c + l) (inOf s (8 * c + l) ++ [⟨0, 3 + (Config.freeValue s.draws).toNat % 3, p.marks, p.load⟩]) := by
  have hgo : ¬ (swRuns s (c / 8) = false ∨ wheelOf s (c / 8) < p.due ∨ 8 ≤ (inOf s (8 * c + l)).length) := by
    simp only [hrun, Bool.true_eq_false, false_or]
    omega
  unfold netDeliver
  simp only [hq, if_neg hgo]
  rfl

theorem swKey_inbound (cluster : ClusterId) (link : LinkId) : swKey (.inbound cluster link) = 8 * cluster.val + link.val := rfl

/-- Settles O33: a packet on its way from its source through an output to its cluster. -/
theorem networkPacketsMove : Obligations.NetworkPacketsMove := by
  intro cluster link s key die hkeyEq hdie hrun
  have hc := cluster.isLt
  have hl := link.isLt
  rw [swKey_inbound] at hkeyEq
  have hkey : key < 256 := by omega
  have hkd : keyDie key = die := by unfold keyDie; rw [if_pos hkey]; omega
  have hk8 : key / 8 = cluster.val := by omega
  have hrun' : swRuns s (keyDie key) = true := by rw [hkd]; exact hrun
  have hd := dueTaken_swDue s key
  have hent (x : State) (p : NetPkt) : Entered key x (swEnter x key p) p := entered_swEnter hkey x p
  refine ⟨fun source slot first rest route o i q hroute hsrc hslot hown hfree hq hready hok hlast hends => ?_, fun hfree => ?_, fun hheld hlen => ?_, fun p r hq hdue hroom => ?_⟩
  · subst hroute hdie
    have hinj := netInject_of hq hsrc hrun hslot hown hfree hready hok hlast hends
    refine ⟨_, congrArg Host.Outcome.next hinj, ?_⟩
    split
    next hh =>
      exact ⟨(netOnly_setOut s _ _).frame [], rfl, rfl, fun h => absurd (hh.symm.trans h) (by decide), fun _ => ⟨rfl, outOf_setOut_same s _ _⟩⟩
    next hh =>
      refine ⟨(((netOnly_setOut s _ q).trans (netOnly_setUsed _ _ _)).trans (netOnly_setFlying _ _)).frame [], rfl, rfl, fun _ => ⟨outOf_setOut_same s _ q, ?_, rfl⟩, fun h => absurd h hh⟩
      exact linkUsed_setUsed (setOut s (outKey cluster link source.toNat) q) (outLink cluster link) (cluster.val / 8)
  · have hmeet := swMeet_of hrun' (by rw [hkd]; exact hfree)
    have hexec : exec (.packetSwitchEnter (.inbound cluster link)) s = .next (swMeet s key) := congrArg Host.Outcome.next (congrArg (swMeet s) hkeyEq.symm)
    have hlink (x : State) (p : NetPkt) (hx : NetOnly s x) (hxl : linkOf x key = linkOf s key) :
        linkOf (swEnter x key p) key = linkOf s key ++ [{ p with due := wheelOf s die + 4, route := [] }] := by
      rw [(hent x p).link, hxl, hx.wheel, hkd]
    have hturns (x : State) (p : NetPkt) : turnOf (swEnter x key p) key = turnOf x key := by rw [turnOf, (hent x p).turn, ← turnOf]
    have hset (q : List NetPkt) : linkOf (setTurn (swDue s key).2 key q) key = linkOf s key := hd.linkOf key
    have hsetNet (q : List NetPkt) : NetOnly s (setTurn (swDue s key).2 key q) := hd.net.trans (netOnly_setTurn _ key q)
    have hwait (x : State) (p : NetPkt) (q : List NetPkt) (hx : NetOnly s x) (hq : turnOf x key = q) (hlen : q.length < 16) :
        SameMem s (turnCollide x key p) ∧ linkOf (turnCollide x key p) key = linkOf x key ∧
          turnOf (turnCollide x key p) key = q ++ [{ p with due := p.due + 256, marks := p.marks ||| 32 }] ∧
          getF (turnCollide x key p) (rNET_CNT cluster) 0 16 = min 65535 (getF s (rNET_CNT cluster) 0 16 + 1) := by
      obtain ⟨hw, hm, hcnt⟩ := turnCollide_facts (s := x) hkey (by rw [hq]; exact hlen) p
      rw [hk8, (hx.frame []).getF_eq List.not_mem_nil] at hcnt
      exact ⟨fun a => (hm a).trans ((hx.frame []).1 a), by rw [linkOf, hw.links, ← linkOf], by rw [hw.turn, hq], hcnt⟩
    refine ⟨fun p hdue hturn => ?_, fun p r hdue hturn hroom => ?_, fun p h hdue hturn hroom => ?_, fun h hturn hdue => ?_⟩
    · simp only [hturn, hdue, List.foldl_nil] at hmeet
      refine ⟨_, hexec.trans (congrArg _ hmeet), (hd.net.trans (hent _ p).net).frame [], ?_, hlink _ p hd.net (hd.linkOf key)⟩
      rw [hturns, hd.turnOf]
    · have hsorted := pairwise_swDue s key
      rw [hdue] at hsorted
      simp only [hturn, hdue, List.foldl_cons, List.foldl_nil] at hmeet
      obtain ⟨hm, hlk, htn, hcnt⟩ := hwait (swEnter (swDue s key).2 key p) r (turnOf s key) (hd.net.trans (hent _ p).net) (by rw [hturns, hd.turnOf]) hroom
      exact ⟨(List.pairwise_cons.1 hsorted).1 r (List.mem_singleton.2 rfl), _, hexec.trans (congrArg _ hmeet), hm, hlk.trans (hlink _ p hd.net (hd.linkOf key)), htn, hcnt⟩
    · have hmem := List.mem_of_find?_eq_some hturn
      have hlen := List.length_erase_of_mem hmem
      have hpos := List.length_pos_of_mem hmem
      simp only [hturn, hdue, List.foldl_cons, List.foldl_nil] at hmeet
      obtain ⟨hm, hlk, htn, -⟩ := hwait (swEnter (setTurn (swDue s key).2 key ((turnOf s key).erase h)) key h) p ((turnOf s key).erase h)
        ((hsetNet _).trans (hent _ h).net) (by rw [hturns, turnOf_setTurn_same]) (by omega)
      exact ⟨_, hexec.trans (congrArg _ hmeet), hm, hlk.trans (hlink _ h (hsetNet _) (hset _)), htn⟩
    · have hne : (turnOf s key).isEmpty = false := by
        rw [List.isEmpty_eq_false_iff]
        exact List.ne_nil_of_mem (List.mem_of_find?_eq_some hturn)
      simp only [hturn, hdue, List.foldl_nil] at hmeet
      have hrel : exec (.turnBufferRelease (.inbound cluster link)) s = .next (netRelease s key) := congrArg Host.Outcome.next (congrArg (netRelease s) hkeyEq.symm)
      have hrun : netRelease s key = swMeet s key := if_neg (by rw [hne]; decide)
      refine ⟨_, hrel.trans (congrArg _ (hrun.trans hmeet)), ((hsetNet _).trans (hent _ h).net).frame [], ?_, hlink _ h (hsetNet _) (hset _)⟩
      rw [hturns, turnOf_setTurn_same]
  · have hun : exec (.turnHoldRelease (.inbound cluster link)) s = .next (netUnhold s key) := congrArg Host.Outcome.next (congrArg (netUnhold s) hkeyEq.symm)
    have hrun : netUnhold s key = setTurnHeld s key false := if_pos hlen
    exact ⟨_, hun.trans (congrArg _ hrun), (netOnly_setTurnHeld s key false).frame [], turnHeld_setTurnHeld s key false, (setTurnHeld_kept s key false).1⟩
  · subst hkeyEq hdie
    have hdel := netDeliver_of hq hrun hdue hroom
    exact ⟨_, 3 + (Config.freeValue s.draws).toNat % 3, congrArg Host.Outcome.next hdel, ⟨fun _ => rfl, fun _ _ => rfl, rfl, rfl⟩, linkOf_setLink_same s _ r, by omega, by omega,
      inOf_setIn_same _ _ _⟩

end Sys2Proof.Safety
end

section
/-! SUPPORT. What events, the link layer, the mirror and the tracker leave alone: the clocks, the supplies, the session, the security store, the resets, and the registers
of the package below the moraines. It is stated as a view of the state that each of their operations keeps. -/

namespace Sys2Proof.Safety

open Sys2Proof.Machine

/-- A register at or above the moraines (Table 23-1). -/
def Beyond (off : Nat) : Prop := 0xC_0000 ≤ off

/-- What stands apart from events and links. `near` are the registers below the moraines but for HOST_IRQ_STAT. -/
structure Apart where
  sram : List (Nat × Byte)
  regions : List (Nat × RegionSt)
  clusters : List (Nat × ClusterSt)
  rails : List (Nat × RailSt)
  temps : List (Nat × Nat)
  fuses : Fuses
  ticks : Nat
  pwr : PowerSt
  sess : SessSt
  sec : SecSt
  tap : TapSt
  serve : ServeSt
  thermtripN : Bool
  resetting : List Nat
  rstJob : Option (Nat × Nat)
  pending : List Instr
  near : Nat → BitVec 32

/-- The part of a state that stands apart. -/
def apart (s : State) : Apart :=
  { sram := s.sram, regions := s.regions, clusters := s.clusters, rails := s.rails, temps := s.temps, fuses := s.fuses, ticks := s.time.ticks, pwr := s.pwr,
    sess := s.sess, sec := s.sec, tap := s.tap, serve := s.serve, thermtripN := s.pins.thermtripN, resetting := s.resetting, rstJob := s.rstJob, pending := s.pending,
    near := fun off => if 0xC_0000 ≤ off ∨ (0x4_0048 ≤ off ∧ off < 0x4_0050) then 0 else getR s off }

-- registers and fields -------------------------------------------------------------------------------------------------------------

variable {s : State}

theorem apart_setR_far {off : Nat} (h : 0xC_0000 ≤ off ∨ (0x4_0048 ≤ off ∧ off < 0x4_0050)) (v : BitVec 32) : apart (setR s off v) = apart s := by
  have hn : ∀ o, (if 0xC_0000 ≤ o ∨ (0x4_0048 ≤ o ∧ o < 0x4_0050) then 0 else getR (setR s off v) o) =
      (if 0xC_0000 ≤ o ∨ (0x4_0048 ≤ o ∧ o < 0x4_0050) then 0 else getR s o) := by
    intro o
    by_cases ho : o = off
    · rw [if_pos (ho ▸ h), if_pos (ho ▸ h)]
    · rw [getR_setR_other s v ho]
  simp only [apart, hn]
  rfl

@[simp] theorem apart_setR {off : Nat} (h : Beyond off) (v : BitVec 32) : apart (setR s off v) = apart s := apart_setR_far (.inl h) v
@[simp] theorem apart_setF {off : Nat} (h : Beyond off) (lo w v : Nat) : apart (setF s off lo w v) = apart s := apart_setR h _
@[simp] theorem apart_satF {off : Nat} (h : Beyond off) (lo w n : Nat) : apart (satF s off lo w n) = apart s := apart_setF h lo w _

@[simp] theorem beyond_add {off : Nat} (h : Beyond off) (n : Nat) : Beyond (off + n) := Nat.le_add_right_of_le h

@[simp] theorem apart_setR64 {off : Nat} (h : Beyond off) (v : Nat) : apart (setR64 s off v) = apart s :=
  (apart_setR (beyond_add h 4) _).trans (apart_setR h _)
@[simp] theorem apart_add64 {off : Nat} (h : Beyond off) (n : Nat) : apart (add64 s off n) = apart s := apart_setR64 h _

@[simp] theorem beyond_coreBase (c : Nat) : Beyond (coreBase c) := by unfold Beyond coreBase; omega
@[simp] theorem beyond_clusterBase (c : Nat) : Beyond (clusterBase c) := by unfold Beyond clusterBase; omega
@[simp] theorem beyond_mlogBase (d : Nat) : Beyond (mlogBase d) := by unfold Beyond mlogBase; omega
@[simp] theorem beyond_svcBase (d : Nat) : Beyond (svcBase d) := by unfold Beyond svcBase; omega
@[simp] theorem beyond_portBase (p : Nat) : Beyond (portBase p) := by unfold Beyond portBase; omega
@[simp] theorem beyond_ledgerBase (q : Nat) : Beyond (ledgerBase q) := by unfold Beyond ledgerBase; omega
@[simp] theorem beyond_rTASK_STAT (c t : Nat) : Beyond (rTASK_STAT c t) := by simp [rTASK_STAT]
@[simp] theorem beyond_rICH_REPLY (c e : Nat) : Beyond (rICH_REPLY c e) := by simp [rICH_REPLY]
@[simp] theorem beyond_rICH_CNT2 (c e : Nat) : Beyond (rICH_CNT2 c e) := by simp [rICH_CNT2]
@[simp] theorem beyond_rICH_CNT (c e : Nat) : Beyond (rICH_CNT c e) := by simp [rICH_CNT]
@[simp] theorem beyond_rICH_STAT (c e : Nat) : Beyond (rICH_STAT c e) := by simp [rICH_STAT]
@[simp] theorem beyond_rFLOE_STAT (c f : Nat) : Beyond (rFLOE_STAT c f) := by simp [rFLOE_STAT]
@[simp] theorem beyond_rTRC_STAT (d : Nat) : Beyond (rTRC_STAT d) := by simp [rTRC_STAT]
@[simp] theorem beyond_rMLOG_STAT (d : Nat) : Beyond (rMLOG_STAT d) := by simp [rMLOG_STAT]
@[simp] theorem beyond_rMLOG_FIRST (d : Nat) : Beyond (rMLOG_FIRST d) := by simp [rMLOG_FIRST]
@[simp] theorem beyond_rMLOG_STICKY (d : Nat) : Beyond (rMLOG_STICKY d) := by simp [rMLOG_STICKY]
@[simp] theorem beyond_rMLOG_COUNT (d : Nat) : Beyond (rMLOG_COUNT d) := by simp [rMLOG_COUNT]
@[simp] theorem beyond_rCC_IRQ_STAT (k : Nat) : Beyond (rCC_IRQ_STAT k) := by simp [rCC_IRQ_STAT, rCC_CTL]
@[simp] theorem beyond_rCC_RWIN (k : Nat) : Beyond (rCC_RWIN k) := by simp [rCC_RWIN, rCC_CTL]
@[simp] theorem beyond_rFAB_CNT (p : Nat) : Beyond (rFAB_CNT p) := by simp [rFAB_CNT]
@[simp] theorem beyond_rFAB_STAT (p : Nat) : Beyond (rFAB_STAT p) := by simp [rFAB_STAT]
@[simp] theorem beyond_rOCH_CRED (c o : Nat) : Beyond (rOCH_CRED c o) := by simp [rOCH_CRED]
@[simp] theorem beyond_rOCH_STAT (c o : Nat) : Beyond (rOCH_STAT c o) := by simp [rOCH_STAT]
@[simp] theorem beyond_rOCH_HELD (c o : Nat) : Beyond (rOCH_HELD c o) := by simp [rOCH_HELD]
@[simp] theorem beyond_rFIRN_ERR_STAT (k : Nat) : Beyond (rFIRN_ERR_STAT k) := by simp [rFIRN_ERR_STAT]
@[simp] theorem beyond_rFIRN_ERR_ADDR (k : Nat) : Beyond (rFIRN_ERR_ADDR k) := by simp [rFIRN_ERR_ADDR]
@[simp] theorem beyond_rFIRN_ERR_CNT (k : Nat) : Beyond (rFIRN_ERR_CNT k) := by simp [rFIRN_ERR_CNT]
@[simp] theorem beyond_rMIR_CTL : Beyond rMIR_CTL := by unfold Beyond; decide
@[simp] theorem beyond_rMIR_STAT : Beyond rMIR_STAT := by unfold Beyond; decide
@[simp] theorem beyond_rMIR_SEQ : Beyond rMIR_SEQ := by unfold Beyond; decide

-- The brackets around `rfl` keep `simp` from using these by unfolding, which would leave the kernel to compare whole states.

theorem apart_ite {p : Prop} [Decidable p] {x y : State} (hx : apart x = apart s) (hy : apart y = apart s) : apart (if p then x else y) = apart s := by
  split
  · exact hx
  · exact hy

@[simp] theorem apart_foldl {α : Type*} {f : State → α → State} (hf : ∀ s x, apart (f s x) = apart s) (l : List α) : apart (l.foldl f s) = apart s := by
  induction l generalizing s with
  | nil => rfl
  | cons x l ih => exact ih.trans (hf s x)

@[simp] theorem apart_setCore (c : Nat) (x : CoreSt) : apart (setCore s c x) = apart s := (rfl)
@[simp] theorem apart_modCore (c : Nat) (f : CoreSt → CoreSt) : apart (modCore s c f) = apart s := (rfl)
@[simp] theorem apart_setSlot (c t : Nat) (x : SlotSt) : apart (setSlot s c t x) = apart s := (rfl)
@[simp] theorem apart_modSlot (c t : Nat) (f : SlotSt → SlotSt) : apart (modSlot s c t f) = apart s := (rfl)
@[simp] theorem apart_setDesc (c d : Nat) (x : DescSt) : apart (setDesc s c d x) = apart s := (rfl)
@[simp] theorem apart_setRing (c e : Nat) (r : List RingMsg) : apart (setRing s c e r) = apart s := (rfl)
@[simp] theorem apart_oweReply (c pkg core ich : Nat) (ws : List (BitVec 64)) : apart (oweReply s c pkg core ich ws) = apart s := (rfl)
@[simp] theorem apart_setCredOut (c o n : Nat) : apart (setCredOut s c o n) = apart s := (rfl)
@[simp] theorem apart_setReclaim (c o n : Nat) : apart (setReclaim s c o n) = apart s := (rfl)
@[simp] theorem apart_setStrayed (c o n : Nat) : apart (setStrayed s c o n) = apart s := (rfl)
@[simp] theorem apart_setFloe (cl f : Nat) (x : FloeSt) : apart (setFloe s cl f x) = apart s := (rfl)
@[simp] theorem apart_setTrace (d : Nat) (r : List (List (BitVec 64))) : apart (setTrace s d r) = apart s := (rfl)
@[simp] theorem apart_setAlert : apart (setAlert s) = apart s := (rfl)
@[simp] theorem apart_setPort (p : Nat) (x : PortSt) : apart (setPort s p x) = apart s := (rfl)
@[simp] theorem apart_setTrk (t : Nat) (x : TrkEnt) : apart (setTrk s t x) = apart s := (rfl)
@[simp] theorem apart_wrBytes (a : Nat) (bs : List Byte) : apart (wrBytes s a bs) = apart s := (rfl)
@[simp] theorem apart_setStack (k : Nat) (x : StackSt) : apart (setStack s k x) = apart s := (rfl)
@[simp] theorem apart_setCc (k : Nat) (x : CcSt) : apart (setCc s k x) = apart s := (rfl)
@[simp] theorem apart_openRow (key : Nat) : apart (openRow s key) = apart s := (rfl)
@[simp] theorem apart_setBeatErr (key : Nat) (e : BitVec 288) : apart (setBeatErr s key e) = apart s := (rfl)
@[simp] theorem apart_setMirDeltas (r n : Nat) : apart (setMirDeltas s r n) = apart s := (rfl)
@[simp] theorem apart_netKeep (keep : NetLoad → Bool) : apart (netKeep s keep) = apart s := (rfl)
@[simp] theorem apart_setOut (k : Nat) (q : List NetItem) : apart (setOut s k q) = apart s := (rfl)
@[simp] theorem apart_dropWaiting (id pos : Nat) : apart (dropWaiting s id pos) = apart s := (rfl)
@[simp] theorem apart_liveDrop (c och tag : Nat) : apart (liveDrop s c och tag) = apart s := (rfl)
@[simp] theorem apart_ccWriteDone (k tag : Nat) : apart (ccWriteDone s k tag) = apart s := (rfl)
@[simp] theorem apart_ccLoadDone (k tag pos : Nat) (bs : List Byte) : apart (ccLoadDone s k tag pos bs) = apart s := (rfl)
@[simp] theorem apart_mirror (m : MirrorSt) : apart { s with mirror := m } = apart s := (rfl)
@[simp] theorem apart_firnEnt (l : List FirnReq) : apart { s with firnEnt := l } = apart s := (rfl)

-- tokens, slots and floes -------------------------------------------------------------------------------------------------------------

@[simp] theorem apart_ledIssue (q n : Nat) : apart (ledIssue s q n) = apart s := apart_add64 (by simp) n
@[simp] theorem apart_ledReturn1 (q : Nat) : apart (ledReturn1 s q) = apart s := by
  unfold ledReturn1
  split <;> simp
@[simp] theorem apart_ledReturn (q n : Nat) : apart (ledReturn s q n) = apart s := by
  induction n generalizing s with
  | zero => rfl
  | succ n ih => simp [ledReturn, ih]

@[simp] theorem apart_stopDesc (c d : Nat) : apart (stopDesc s c d) = apart s := by
  unfold stopDesc
  dsimp only
  split <;> simp
@[simp] theorem apart_haltDesc (c d : Nat) : apart (haltDesc s c d) = apart s := by
  unfold haltDesc
  split
  · rfl
  · exact apart_ite (by simp) (by simp)
@[simp] theorem apart_setSlotState (c t v : Nat) : apart (setSlotState s c t v) = apart s := apart_setF (by simp) _ _ _
@[simp] theorem apart_readyMates (c t : Nat) : apart (readyMates s c t) = apart s :=
  apart_foldl (fun s _ => apart_ite (by simp) rfl) _
@[simp] theorem apart_grantMsg (c e : Nat) : apart (grantMsg s c e) = apart s :=
  apart_foldl (fun s _ => apart_ite (by simp) (apart_ite (by simp) rfl)) _
@[simp] theorem apart_dropMres (c t : Nat) : apart (dropMres s c t) = apart s := by
  unfold dropMres
  split
  · exact apart_ite (by simp) (by simp)
  · rfl
@[simp] theorem apart_grantSlot (c n t : Nat) : apart (grantSlot s c n t) = apart s := by
  unfold grantSlot
  split
  · exact apart_ite (by simp) (apart_ite (by simp) rfl)
  · rfl
@[simp] theorem apart_grantAll (c n : Nat) : apart (grantAll s c n) = apart s := by simp [grantAll]
@[simp] theorem apart_dropResv (c t : Nat) : apart (dropResv s c t) = apart s := by
  unfold dropResv
  split <;> simp
@[simp] theorem apart_dropAllResv (c t : Nat) : apart (dropAllResv s c t) = apart s := by simp [dropAllResv]
@[simp] theorem apart_nullReply (c e : Nat) (count : Bool) : apart (nullReply s c e count) = apart s := by
  unfold nullReply
  exact apart_ite rfl (apart_ite (by simp) (by simp))
@[simp] theorem apart_nullRepliesOf (c t : Nat) : apart (nullRepliesOf s c t) = apart s :=
  apart_foldl (fun s _ => apart_ite (by simp) rfl) _
@[simp] theorem apart_faultSlot (c t : Nat) : apart (faultSlot s c t) = apart s := by
  unfold faultSlot
  exact apart_ite (by simp) rfl
@[simp] theorem apart_stallSince (cl f r : Nat) : apart (stallSince s cl f r) = apart s := by
  unfold stallSince
  exact apart_ite rfl (by simp)
@[simp] theorem apart_traceRec (d typ core slot floe fcyc w2 w3 : Nat) : apart (traceRec s d typ core slot floe fcyc w2 w3) = apart s := by
  unfold traceRec
  exact apart_ite (apart_ite (by simp) (by simp)) rfl
@[simp] theorem apart_traceOfFloe (cl f typ w2 w3 : Nat) : apart (traceOfFloe s cl f typ w2 w3) = apart s := by
  unfold traceOfFloe
  exact apart_ite (by simp) rfl
@[simp] theorem apart_setFloeReason (cl f r : Nat) : apart (setFloeReason s cl f r) = apart s := by
  unfold setFloeReason
  exact apart_ite (by simp) (by simp)
@[simp] theorem apart_stopFloe (cl f : Nat) : apart (stopFloe s cl f) = apart s := by simp [stopFloe]
@[simp] theorem apart_stopCore (c : Nat) : apart (stopCore s c) = apart s := by
  unfold stopCore
  exact (apart_foldl (fun s t => apart_faultSlot c t) _).trans (apart_foldl (fun s _ => apart_ite (by simp) rfl) _)
@[simp] theorem apart_stopCluster (cl : Nat) : apart (stopCluster s cl) = apart s := by simp [stopCluster]
@[simp] theorem apart_haltDie (d : Nat) : apart (haltDie s d) = apart s := by simp [haltDie]
@[simp] theorem apart_stopFloeOf (c t : Nat) : apart (stopFloeOf s c t) = apart s := by
  unfold stopFloeOf
  split
  · split <;> simp
  · rfl

-- events (R409 to R418) -----------------------------------------------------------------------------------------------------------------

@[simp] theorem apart_contain (d tier : Nat) (e : Ev) : apart (contain s d tier e) = apart s := by
  unfold contain
  split
  · simp
  · split
    · rfl
    · exact apart_ite rfl (apart_ite (by simp) (apart_ite (by simp) (apart_ite (by simp) rfl)))
@[simp] theorem apart_fillFirst (d tier : Nat) (e : Ev) : apart (fillFirst s d tier e) = apart s := by simp [fillFirst]
@[simp] theorem apart_logEvent (d tier : Nat) (e : Ev) : apart (logEvent s d tier e) = apart s := by
  have hcount : ∀ x : State, ∀ p : Prop, ∀ _ : Decidable p, ∀ v, apart (if p then setF x (rMLOG_STAT d) 4 1 1
      else setF x (rMLOG_COUNT d + 4 * (e.cls / 2)) (16 * (e.cls % 2)) 16 v) = apart x := fun x p _ v => apart_ite (by simp) (by simp)
  unfold logEvent
  exact apart_ite (by simp [hcount]) (by simp [hcount])
@[simp] theorem apart_msix (v : Nat) : apart (msix s v) = apart s := by
  unfold msix
  exact apart_ite rfl rfl
@[simp] theorem apart_hostIrq (b : Nat) : apart (hostIrq s b) = apart s := by
  have hset : apart (setR64 s rHOST_IRQ_STAT (setBits (getR64 s rHOST_IRQ_STAT) b 1 1)) = apart s :=
    (apart_setR_far (by decide) _).trans (apart_setR_far (by decide) _)
  unfold hostIrq
  exact apart_ite ((apart_msix b).trans hset) hset
@[simp] theorem apart_reportEvent (d : Nat) (e : Ev) : apart (reportEvent s d e) = apart s := by
  have h1 : apart (if getF s (rMLOG_SEV_CTL d) 2 2 ≤ e.sev then hostIrq s (2 + d) else s) = apart s := apart_ite (by simp) rfl
  unfold reportEvent
  exact (apart_setAlert).trans ((apart_ite (by simp) rfl).trans h1)
@[simp] theorem apart_raiseEv (d : Nat) (e : Ev) : apart (raiseEv s d e) = apart s := by
  rw [raiseEv_eq, apart_reportEvent, apart_contain, logged, apart_traceRec]
  exact (apart_ite (by simp) rfl).trans (apart_logEvent d _ e)
@[simp] theorem apart_raiseCore (c t cls sev home addr detail aux : Nat) : apart (raiseCore s c t cls sev home addr detail aux) = apart s := apart_raiseEv _ _

-- ports and packets -----------------------------------------------------------------------------------------------------------------------

@[simp] theorem apart_outPush (cl l src marks : Nat) (load : NetLoad) : apart (outPush s cl l src marks load) = apart s := (rfl)
@[simp] theorem apart_credBack (c o : Nat) : apart (credBack s c o).1 = apart s := by
  unfold credBack
  split_ifs <;> simp
@[simp] theorem apart_portDrop (p : Nat) : apart (portDrop s p) = apart s := apart_satF (by simp) _ _ _
@[simp] theorem apart_emitFlit (p : Nat) (f : FlitRec) : apart (emitFlit s p f) = apart s := (rfl)
@[simp] theorem apart_sendNumbered (p : Nat) (f : FlitRec) : apart (sendNumbered s p f) = apart s :=
  (apart_emitFlit p f).trans (apart_setPort p _)
@[simp] theorem apart_stamp (t : Option (Nat × Nat)) : apart { s with time := { s.time with t1 := t, t1Late := false } } = apart s := (rfl)
@[simp] theorem apart_drainOne (p k : Nat) : apart (drainOne s p k) = apart s := by
  unfold drainOne
  dsimp only
  split
  · rfl
  · simp only [apart_ledIssue, apart_sendNumbered]
    exact apart_ite rfl rfl
@[simp] theorem apart_portDrain (p n : Nat) : apart (portDrain s p n) = apart s := by
  induction n generalizing s with
  | zero => rfl
  | succ n ih =>
    unfold portDrain
    split <;> simp [ih]
@[simp] theorem apart_portIdle (p : Nat) : apart (portIdle s p) = apart s := by
  unfold portIdle
  exact apart_ite rfl (apart_ite (by simp) (apart_ite (by simp) rfl))
@[simp] theorem apart_portFlush (p : Nat) : apart (portFlush s p) = apart s := by simp [portFlush]
@[simp] theorem apart_txPush (p cls : Nat) (k : Packet) : apart (txPush s p cls k) = apart s := by simp [txPush]
@[simp] theorem apart_fabRespond (k : Packet) : apart (fabRespond s k) = apart s := by
  unfold fabRespond
  split <;> simp
@[simp] theorem apart_fabError (hdr : PktHdr) (status why : Nat) (payload : List Byte) : apart (fabError s hdr status why payload) = apart s := apart_fabRespond _
@[simp] theorem apart_setPortState (p st : Nat) : apart (setPortState s p st) = apart s := by simp [setPortState]
@[simp] theorem apart_orphan (p : Nat) (k : Packet) : apart (orphan s p k) = apart s := by
  unfold orphan
  exact apart_ite (apart_ite rfl (by simp)) (by simp)

-- messages ----------------------------------------------------------------------------------------------------------------------------------

@[simp] theorem apart_dropRsv (c e : Nat) : apart (dropRsv s c e) = apart s := by
  unfold dropRsv
  exact apart_ite (by simp) rfl
@[simp] theorem apart_holdMsg (c o : Nat) (ws : List (BitVec 64)) : apart (holdMsg s c o ws) = apart s := by
  unfold holdMsg
  split
  · simp
  · exact (apart_setF (by simp) _ _ _).trans (apart_foldl (fun s i => apart_setR64 (by simp) _) _)
@[simp] theorem apart_enterRing (c e : Nat) (m : RingMsg) : apart (enterRing s c e m) = apart s := by
  have h1 : ∀ p : Prop, ∀ _ : Decidable p, ∀ v, apart (if p then setF s (rICH_STAT c e) 8 6 v else ledIssue s qRING 1) = apart s :=
    fun p _ v => apart_ite (by simp) (by simp)
  have h3 : ∀ x : State, apart (if ichState x c e = 2 then satF x (rICH_CNT c e) 0 16 1 else x) = apart x := fun x => apart_ite (by simp) rfl
  unfold enterRing
  exact apart_ite (by simp only [apart_grantMsg, h3, apart_setRing, h1]) (by simp only [h3, apart_setRing, h1])
@[simp] theorem apart_msgReturned (c o t cls : Nat) (full rres : Bool) (ws : List (BitVec 64)) : apart (msgReturned s c o t cls full rres ws) = apart s := by
  have hcred := apart_credBack (s := s) c o
  have h2 : ∀ x : State, apart (if rres then dropRsv x c (hdrRply (ws.headD 0)) else x) = apart x := fun x => apart_ite (by simp) rfl
  have h3 : ∀ x : State, apart (setF (holdMsg x c o ws) (rOCH_STAT c o) 0 1 1) = apart x := fun x => by simp
  have h4 : ∀ x : State, apart (if full then setF x (rOCH_STAT c o) 2 1 1 else x) = apart x := fun x => apart_ite (by simp) rfl
  unfold msgReturned
  generalize credBack s c o = r at hcred ⊢
  exact apart_ite (by simp only [apart_raiseCore, h4, h3, h2, hcred]) (by simp only [h4, h3, h2, hcred])
@[simp] theorem apart_msgFailed (c o t st : Nat) (rres : Bool) (ws : List (BitVec 64)) : apart (msgFailed s c o t st rres ws) = apart s := by
  have hcred := apart_credBack (s := s) c o
  have h2 : ∀ x : State, apart (setF (holdMsg x c o ws) (rOCH_STAT c o) 0 1 1) = apart x := fun x => by simp
  have h3 : ∀ x : State, ∀ m, apart (if rres then enterRing x c (hdrRply (ws.headD 0)) m else x) = apart x := fun x m => apart_ite (by simp) rfl
  unfold msgFailed
  generalize credBack s c o = r at hcred ⊢
  exact apart_ite (by simp only [apart_stopFloeOf, apart_raiseCore, h3, h2, hcred]) (by simp only [h3, h2, hcred])
@[simp] theorem apart_replyFailed (c st : Nat) : apart (replyFailed s c st) = apart s := apart_raiseEv _ _

-- firn and device writes (R163, R167) ---------------------------------------------------------------------------------------------------------

@[simp] theorem apart_firnEvent (key sym : Nat) (ue : Bool) (w : FirnWho) : apart (firnEvent s key sym ue w) = apart s := by
  have h1 : ∀ k, ∀ p : Prop, ∀ _ : Decidable p, ∀ v a, apart (if p then setR64 (setR s (rFIRN_ERR_STAT k) v) (rFIRN_ERR_ADDR k) a else s) = apart s :=
    fun k p _ v a => apart_ite (by simp) rfl
  simp [firnEvent, h1]
@[simp] theorem apart_readBeat (key : Nat) (w : FirnWho) : apart (readBeat s key w).1 = apart s := by
  unfold readBeat
  split <;> simp
@[simp] theorem apart_readKeys (w : FirnWho) (fuel key n : Nat) : apart (readKeys s w fuel key n).1 = apart s := by
  induction fuel generalizing s key n with
  | zero => rfl
  | succ fuel ih =>
    unfold readKeys
    split
    · rfl
    · have h := apart_readBeat (s := s) (key / 32 * 32) w
      generalize readBeat s (key / 32 * 32) w = r at h
      obtain ⟨s1, _ | bs⟩ := r
      · exact h
      · exact (ih (s := s1) _ _).trans h
@[simp] theorem apart_writeBeat (key : Nat) (bs : List Byte) (w : FirnWho) : apart (writeBeat s key bs w).1 = apart s := by
  unfold writeBeat
  split
  · rfl
  · dsimp only
    have h := apart_readBeat (s := s) (key / 32 * 32) (asRmw w)
    generalize readBeat s (key / 32 * 32) (asRmw w) = r at h
    obtain ⟨s1, _ | old⟩ := r
    · exact h
    · exact h
@[simp] theorem apart_writeKeys (w : FirnWho) (fuel key : Nat) (bs : List Byte) : apart (writeKeys s w fuel key bs).1 = apart s := by
  induction fuel generalizing s key bs with
  | zero => rfl
  | succ fuel ih =>
    unfold writeKeys
    split
    · rfl
    · exact (ih _ _).trans (apart_writeBeat _ _ _)
@[simp] theorem apart_modXfer (c d id : Nat) (f : Xfer → Xfer) : apart (modXfer s c d id f) = apart s := by
  unfold modXfer
  dsimp only
  split
  · exact apart_ite (by simp) rfl
  · rfl
@[simp] theorem apart_fenceGone (c id : Nat) : apart (fenceGone s c id) = apart s :=
  (apart_foldl (fun _ t => apart_modSlot c t _) _).trans (apart_modCore c _)
@[simp] theorem apart_endXfer (c d : Nat) : apart (endXfer s c d) = apart s := by
  unfold endXfer
  split
  · dsimp only
    split <;> simp
  · rfl
@[simp] theorem apart_stopCheck (c d : Nat) : apart (stopCheck s c d) = apart s := by
  unfold stopCheck
  split
  · split
    · exact apart_ite (by simp) rfl
    · rfl
  · rfl
@[simp] theorem apart_stopXfer (c d id pos : Nat) : apart (stopXfer s c d id pos) = apart s := by
  unfold stopXfer
  dsimp only
  split
  · exact apart_ite (by simp) (by simp)
  · simp
@[simp] theorem apart_readLands (r : FirnReq) (marks : Nat) (bs : List Byte) (bad : Bool) : apart (readLands s r marks bs bad) = apart s := by
  unfold readLands
  exact apart_ite (by simp) (by simp)
@[simp] theorem apart_stackOut (k c marks : Nat) (load : NetLoad) : apart (stackOut s k c marks load) = apart s := (rfl)
@[simp] theorem apart_serveRead (r : FirnReq) : apart (serveRead s r) = apart s := by
  have hkeys : ∀ w n k m, apart (readKeys (ledReturn1 (openRow { s with firnEnt := s.firnEnt.erase r } (entKey r)) qFIRNREQ) w n k m).1 = apart s :=
    fun w n k m => by simp only [apart_readKeys, apart_ledReturn1, apart_openRow, apart_firnEnt]
  unfold serveRead
  exact apart_ite ((apart_readLands _ _ _ _).trans (hkeys _ _ _ _)) ((apart_stackOut _ _ _ _).trans (hkeys _ _ _ _))
@[simp] theorem apart_serveWrite (r : FirnReq) : apart (serveWrite s r) = apart s := by
  have hkeys : ∀ w n k bs, apart (writeKeys (ledReturn1 (openRow { s with firnEnt := s.firnEnt.erase r } (entKey r)) qFIRNREQ) w n k bs).1 = apart s :=
    fun w n k bs => by simp only [apart_writeKeys, apart_ledReturn1, apart_openRow, apart_firnEnt]
  have h := hkeys (whoDesc r.core r.slot) 9 (entKey r) r.data
  unfold serveWrite
  dsimp only
  generalize writeKeys _ _ _ _ _ = x at h ⊢
  refine apart_ite ?_ h
  split
  · simp only [apart_endXfer, apart_dropWaiting, h]
  · exact h
@[simp] theorem apart_settleChan (key n : Nat) : apart (settleChan s key n) = apart s := by
  induction n generalizing s with
  | zero => rfl
  | succ n ih =>
    unfold settleChan
    split
    · rfl
    · exact ih.trans (apart_ite (by simp) (by simp))
@[simp] theorem apart_mirSend (k : Packet) : apart (mirSend s k) = apart s := by simp [mirSend]
@[simp] theorem apart_devWrite (w : FirnWho) (fuel a : Nat) (bs : List Byte) : apart (devWrite s w fuel a bs).1 = apart s := by
  induction fuel generalizing s a bs with
  | zero => rfl
  | succ fuel ih =>
    unfold devWrite
    split
    · rfl
    · split
      · refine (ih _ _).trans ?_
        simp only [apart_writeKeys, apart_openRow]
        split <;> simp
      · exact apart_ite (by simp) rfl

-- the mirror (R349 to R355) ---------------------------------------------------------------------------------------------------------------------

@[simp] theorem apart_writeMasked (fuel a : Nat) (bs : List Byte) (ms : List Bool) : apart (writeMasked s fuel a bs ms) = apart s := by
  induction fuel generalizing s a bs ms with
  | zero => rfl
  | succ fuel ih =>
    unfold writeMasked
    split
    · rfl
    · simp [ih]
    · exact ih _ _ _
@[simp] theorem apart_applyDeltas (regions : Nat) (ds : List DeltaRec) : apart (applyDeltas s regions ds) = apart s := by
  refine apart_foldl (fun s d => apart_ite ?_ rfl) _
  split <;> simp
@[simp] theorem apart_applyOne (n rs upto : Nat) (rest : List (Nat × Nat × Nat)) : apart (applyOne s n rs upto rest) = apart s := by
  simp only [applyOne, apart_setR (beyond_add beyond_rMIR_SEQ 4), apart_mirror, apart_applyDeltas]
@[simp] theorem apart_applyAll (l : List (Nat × Nat × Nat)) : apart (applyAll l s) = apart s := by
  induction l generalizing s with
  | nil => rfl
  | cons x l ih => simp [applyAll, ih]
@[simp] theorem apart_mirUnpair : apart (mirUnpair s) = apart s := (apart_mirror _).trans (apart_setF (by simp) _ _ _)
@[simp] theorem apart_mirAgree : apart (mirAgree s) = apart s := by
  have h1 : ∀ p : Prop, ∀ _ : Decidable p, apart (if p then setF s rMIR_STAT 3 1 1 else s) = apart s := fun p _ => apart_ite (by simp) rfl
  unfold mirAgree
  dsimp only
  split
  · exact apart_ite (apart_ite rfl ((apart_mirror _).trans ((apart_setF (by simp) _ _ _).trans (h1 _ _)))) (by simp)
  · simp
@[simp] theorem apart_mirTell : apart (mirTell s) = apart s := by
  unfold mirTell
  exact apart_ite (by simp) rfl
@[simp] theorem apart_mirCheck : apart (mirCheck s) = apart s := by
  have h1 : ∀ p : Prop, ∀ _ : Decidable p, apart (if p then setF s rMIR_STAT 3 1 1 else s) = apart s := fun p _ => apart_ite (by simp) rfl
  simp [mirCheck, h1]
@[simp] theorem apart_mirCtl (v : Nat) : apart (mirCtl s v) = apart s := by
  unfold mirCtl
  refine apart_ite rfl ?_
  simp only [apart_mirCheck, apart_setR, beyond_rMIR_CTL]
  exact apart_ite rfl (by simp)
@[simp] theorem apart_applyEnd : apart (applyEnd s) = apart s := by
  have hset : apart (setF s rMIR_STAT 0 1 0) = apart s := apart_setF (by simp) _ _ _
  unfold applyEnd
  dsimp only
  split
  · simp only [apart_mirCtl, apart_mirror, hset]
  · exact hset
@[simp] theorem apart_partnerLost : apart (partnerLost s) = apart s := by
  unfold partnerLost
  exact apart_ite (apart_ite (by simp) (by simp)) (by simp)

-- the tracker and a lost link (R336, R348) --------------------------------------------------------------------------------------------------------

@[simp] theorem apart_ccError (k st : Nat) : apart (ccError s k st) = apart s := by simp [ccError]
@[simp] theorem apart_descFabError (c d id pos st : Nat) : apart (descFabError s c d id pos st) = apart s := by
  unfold descFabError
  split
  · exact apart_ite (by simp) rfl
  · rfl
@[simp] theorem apart_trkDone (t : Nat) : apart (trkDone s t) = apart s := by simp [trkDone]
@[simp] theorem apart_trkFail (t st why : Nat) : apart (trkFail s t st why) = apart s := by
  unfold trkFail
  split
  · rfl
  · rename_i who _ _ _
    cases who with
    | descRead c d id pos => simp
    | descWrite c d id len sig => cases sig <;> simp
    | message c och slot words rres => exact apart_ite (by simp) (by simp)
    | reply c => simp
    | ccWrite k => simp
    | ccRead k pos => simp
    | ccSignal k => simp
@[simp] theorem apart_portLost (p cause : Nat) : apart (portLost s p cause) = apart s := by
  unfold portLost
  exact apart_ite rfl (apart_ite (by simp) (by simp))
@[simp] theorem apart_portsLost : apart (portsLost s) = apart s := by simp [portsLost]

/-- A register that stands apart reads as before. -/
theorem getR_of_apart {t : State} (h : apart t = apart s) {off : Nat} (ho : off < 0x4_0048 ∨ (0x4_0050 ≤ off ∧ off < 0xC_0000)) : getR t off = getR s off := by
  have hn : ¬ (0xC_0000 ≤ off ∨ (0x4_0048 ≤ off ∧ off < 0x4_0050)) := by omega
  have hnear := congrFun (congrArg Apart.near h) off
  simpa only [apart, if_neg hn] using hnear

section
variable {t : State} (h : apart t = apart s)
include h
theorem pwr_of_apart : t.pwr = s.pwr := congrArg Apart.pwr h
theorem regions_of_apart : t.regions = s.regions := congrArg Apart.regions h
theorem rails_of_apart : t.rails = s.rails := congrArg Apart.rails h
theorem sec_of_apart : t.sec = s.sec := congrArg Apart.sec h
theorem sess_of_apart : t.sess = s.sess := congrArg Apart.sess h
theorem ticks_of_apart : t.time.ticks = s.time.ticks := congrArg Apart.ticks h
theorem thermtripN_of_apart : t.pins.thermtripN = s.pins.thermtripN := congrArg Apart.thermtripN h
end

end Sys2Proof.Safety
end

section
/-! PROOF. Supplies and targets (O41): the loss and return of supplies (R450, R451), DVFS_TARGET (R321) and PAD_RELEASE (R316). -/

namespace Sys2Proof.Safety

open Sys2Proof.Machine

variable {s s' t : State} {src : Src}

-- loss of the main supplies (R309, R424, R450) -----------------------------------------------------------------------------------------

theorem HostOnly.pwr (h : HostOnly s s') : s'.pwr = s.pwr := by
  obtain ⟨r, ho, se, rfl⟩ := h
  rfl

theorem HostOnly.withHost (h : HostOnly s s') (x : HostSt) : HostOnly s { s' with host := x } := by
  obtain ⟨r, ho, se, rfl⟩ := h
  exact ⟨r, x, se, rfl⟩

theorem pwr_portsLost (s : State) : (portsLost s).pwr = s.pwr := pwr_of_apart apart_portsLost

/-- The host link goes down: registers, the host's state and the session change. -/
theorem hostOnly_hostDown (s : State) : HostOnly s (hostDown s) := by
  have h := (HostOnly.setF s rHOST_STAT 0 9 0).trans (hostOnly_sessLost _)
  unfold hostDown
  exact h.withHost _

theorem supplies_pmbSend (s : State) (d : Nat) (f : Nat → PmbOp) : (pmbSend s d f).pwr.supplies = s.pwr.supplies := by
  unfold pmbSend
  split <;> rfl

theorem supplies_railOff (s : State) (d : Nat) : (railOff s d).pwr.supplies = s.pwr.supplies := by
  have h : (if (railOf s d).on then pmbSend s d (.operation · false) else s).pwr.supplies = s.pwr.supplies := by
    split
    · exact supplies_pmbSend s d _
    · rfl
  exact h

/-- A rail that goes off writes only its fields of DVFS_STATUS. -/
theorem getR_railOff (s : State) (d : Nat) {off : Nat} (ho : off ≠ rDVFS_STATUS) (ho' : off ≠ rDVFS_STATUS + 4) : getR (railOff s d) off = getR s off := by
  have h : getR (if (railOf s d).on then pmbSend s d (.operation · false) else s) off = getR s off := by
    split
    · unfold pmbSend
      split <;> rfl
    · rfl
  have hset (x : State) (v : Nat) : getR (setR64 x rDVFS_STATUS v) off = getR x off := by rw [setR64, getR_setR_other _ _ ho', getR_setR_other _ _ ho]
  exact (hset _ _).trans ((hset _ _).trans h)

theorem getR_railsOff (s : State) (l : List Nat) {off : Nat} (ho : off ≠ rDVFS_STATUS) (ho' : off ≠ rDVFS_STATUS + 4) : getR (l.foldl railOff s) off = getR s off :=
  List.foldlRecOn (motive := fun t => getR t off = getR s off) l _ rfl fun t h d _ => (getR_railOff t d ho ho').trans h

theorem supplies_railsOff (s : State) (l : List Nat) : (l.foldl railOff s).pwr.supplies = s.pwr.supplies :=
  List.foldlRecOn (motive := fun t => t.pwr.supplies = s.pwr.supplies) l _ rfl fun t h d _ => (supplies_railOff t d).trans h

/-- What a ledger's own counts show. -/
theorem ledHeld_congr {q : Nat} (h : ∀ off, ledgerBase q ≤ off → off < ledgerBase q + 24 → getR s' off = getR s off) : ledHeld s' q = ledHeld s q := by
  have h64 (off : Nat) (h1 : ledgerBase q ≤ off) (h2 : off + 4 < ledgerBase q + 24) : getR64 s' off = getR64 s off := by
    rw [getR64, getR64, h off h1 (by omega), h (off + 4) (by omega) h2]
  rw [ledHeld, ledHeld, h64 _ (by omega) (by omega), h64 _ (by omega) (by omega), h64 _ (by omega) (by omega)]

theorem ledHeld_ledWriteOff_same (s : State) (q : Nat) : ledHeld (ledWriteOff s q) q = 0 := by
  have hi : getR64 s (ledgerBase q) < 2 ^ 64 := getR64_lt s _
  have hr : getR64 s (ledgerBase q + 8) < 2 ^ 64 := getR64_lt s _
  have hl : getR64 s (ledgerBase q + 16) < 2 ^ 64 := getR64_lt s _
  have hh : ledHeld s q = (getR64 s (ledgerBase q) + 2 ^ 65 - getR64 s (ledgerBase q + 8) - getR64 s (ledgerBase q + 16)) % 2 ^ 64 := rfl
  rw [ledWriteOff, add64, ledHeld, getR64_setR64, getR64_setR64_other s _ (.inl (by omega)), getR64_setR64_other s _ (.inl (by omega)), hh]
  generalize getR64 s (ledgerBase q) = i at *
  generalize getR64 s (ledgerBase q + 8) = r at *
  generalize getR64 s (ledgerBase q + 16) = l at *
  omega

theorem ledHeld_ledWriteOff_other (s : State) {q p : Nat} (h : p ≠ q) : ledHeld (ledWriteOff s q) p = ledHeld s p := by
  refine ledHeld_congr fun off h1 h2 => ?_
  rw [ledWriteOff, add64, setR64, getR_setR_other, getR_setR_other] <;> (unfold ledgerBase at *; omega)

theorem ledHeld_writtenOff (s : State) : ∀ q ∈ List.range 9, ledHeld ((List.range 9).foldl ledWriteOff s) q = 0 :=
  foldl_reaches (Q := fun x q => ledHeld x q = 0) (fun x q _ => ledHeld_ledWriteOff_same x q) (fun x q _ p h => by
    by_cases e : p = q
    · subst e; exact ledHeld_ledWriteOff_same x p
    · rw [ledHeld_ledWriteOff_other x e, h]) s

/-- A package whose ports and host are down, whose tokens are written off and whose rails are off. -/
def darkened (s : State) : State := (List.range 4).foldl railOff ((List.range 9).foldl ledWriteOff (hostDown (portsLost s)))

/-- The session's fields as OFF leaves them: a lockout stays (R382). -/
def sessionOff (s : State) (locked : Bool) : State :=
  let s4 := setF (setF s rSESS_STATE 12 20 0) rSESS_STATE 2 2 0
  if locked then s4 else setF s4 rSESS_STATE 0 2 0

/-- OFF's state before its pads are latched, of a package that goes there for a cause. -/
def offBefore (s : State) (cause : Nat) : State :=
  setF (setPwrState (pwrTrans (sessionOff (darkened s) (sessState (darkened s) == 3)) false) 0) rPWR_STATE 12 2 cause

theorem offEnter_of_none (h : s.pwr.entry = none) (cause : Nat) : offEnter s cause = latchPads (offState (offBefore s cause)) := by
  unfold offEnter
  rw [h]
  rfl

theorem pwr_sessionOff (s : State) (locked : Bool) : (sessionOff s locked).pwr = s.pwr := by
  have h4 : (setF (setF s rSESS_STATE 12 20 0) rSESS_STATE 2 2 0).pwr = s.pwr := (setF_pwr _ _ _ _ _).trans (setF_pwr _ _ _ _ _)
  cases locked
  · exact (setF_pwr _ _ _ _ _).trans h4
  · exact h4

theorem getR_offState (s : State) {off : Nat} (h : alwaysOn off = true) : getR (offState s) off = getR s off := by
  rw [getR, getR, offState, mget_filter, if_pos h]

theorem supplies_darkened (s : State) : (darkened s).pwr.supplies = s.pwr.supplies := by
  have hled (x : State) (l : List Nat) : (l.foldl ledWriteOff x).pwr = x.pwr := pwr_foldl (fun y q _ => setR64_pwr y _ _) x
  rw [darkened, supplies_railsOff, hled, (hostOnly_hostDown _).pwr, pwr_portsLost]

theorem ledHeld_darkened (s : State) {q : Nat} (hq : q < 9) : ledHeld (darkened s) q = 0 := by
  rw [darkened, ledHeld_congr fun off h1 h2 => getR_railsOff _ _ ?_ ?_]
  · exact ledHeld_writtenOff _ q (List.mem_range.2 hq)
  all_goals unfold ledgerBase at h1; unfold rDVFS_STATUS; omega

theorem supplies_offBefore (s : State) (cause : Nat) : (offBefore s cause).pwr.supplies = s.pwr.supplies := by
  rw [offBefore, setF_pwr, setPwrState, setF_pwr, pwrTrans, setF_pwr, pwr_sessionOff, supplies_darkened]

theorem ledHeld_setF (s : State) {off q : Nat} (lo w v : Nat) (ho : off < 0x20_0000) : ledHeld (setF s off lo w v) q = ledHeld s q := by
  refine ledHeld_congr fun o h1 h2 => getR_setF_other s lo w v ?_
  unfold ledgerBase at h1
  omega

theorem ledHeld_sessionOff (s : State) (locked : Bool) (q : Nat) : ledHeld (sessionOff s locked) q = ledHeld s q := by
  have h4 : ledHeld (setF (setF s rSESS_STATE 12 20 0) rSESS_STATE 2 2 0) q = ledHeld s q := by
    rw [ledHeld_setF _ _ _ _ (by decide), ledHeld_setF _ _ _ _ (by decide)]
  cases locked
  · exact (ledHeld_setF _ _ _ _ (by decide)).trans h4
  · exact h4

theorem ledHeld_offBefore (s : State) (cause : Nat) {q : Nat} (hq : q < 9) : ledHeld (offBefore s cause) q = 0 := by
  rw [offBefore, ledHeld_setF _ _ _ _ (by decide), setPwrState, ledHeld_setF _ _ _ _ (by decide), pwrTrans, ledHeld_setF _ _ _ _ (by decide), ledHeld_sessionOff,
    ledHeld_darkened s hq]

/-- The state as its main supplies go. -/
def unsupplied (s : State) : State := { s with pwr := { s.pwr with supplies := false, entry := none } }

theorem powerLossRun_eq (h : s.pwr.off = false) : powerLossRun s = latchPads (offState (offBefore (unsupplied s) 2)) := by
  have hnone : (unsupplied s).pwr.entry = none := rfl
  rw [← offEnter_of_none hnone, powerLossRun, if_neg (by simp [h])]
  rfl

theorem pwr_latchPads (s : State) : (latchPads s).pwr = { s.pwr with padsLatched := some (padLevels s) } := setF_pwr _ _ _ _ _
theorem off_offState (s : State) : (offState s).pwr.off = true := rfl
theorem supplies_offState (s : State) : (offState s).pwr.supplies = s.pwr.supplies := rfl
theorem mem_offState (s : State) : (offState s).mem = [] := rfl
theorem mem_latchPads (s : State) : (latchPads s).mem = s.mem := setF_mem _ _ _ _ _
theorem getR_latchPads (s : State) {off : Nat} (h : off ≠ rPAD_RELEASE) : getR (latchPads s) off = getR s off := getR_setF_other _ _ _ _ h

/-- What OFF shows of the state before it. -/
theorem off_facts (x : State) : (latchPads (offState x)).pwr.off = true ∧ (latchPads (offState x)).pwr.supplies = x.pwr.supplies ∧
    getF (latchPads (offState x)) rPWR_STATE 12 2 = getF x rPWR_STATE 12 2 ∧ (∀ q, q < 9 → ledHeld (latchPads (offState x)) q = ledHeld x q) ∧
    ∀ a, rdByte (latchPads (offState x)) a = 0 := by
  refine ⟨?_, ?_, ?_, fun q hq => ledHeld_congr fun off h1 h2 => ?_, fun a => ?_⟩
  · rw [pwr_latchPads]
    exact off_offState x
  · rw [pwr_latchPads]
    exact supplies_offState x
  · rw [getF, getR_latchPads _ (by decide), getR_offState x (by decide), ← getF]
  · have hlow : 0x20_0000 ≤ off ∧ off < 0x20_1000 := by unfold ledgerBase at h1 h2; omega
    have hpad : off ≠ rPAD_RELEASE := by unfold rPAD_RELEASE; omega
    have hon : alwaysOn off = true := by
      have h' : (decide (0x20_0000 ≤ off) && decide (off < 0x40_0000)) = true := by simp; omega
      simp [alwaysOn, h']
    exact (getR_latchPads _ hpad).trans (getR_offState x hon)
  · rw [rdByte, mem_latchPads, mem_offState]
    rfl

/-- Loss of the main supplies: OFF, with every held token written off. -/
theorem powerLoss_facts (h : s.pwr.off = false) :
    (powerLossRun s).pwr.off = true ∧ (powerLossRun s).pwr.supplies = false ∧ getF (powerLossRun s) rPWR_STATE 12 2 = 2 ∧
      (∀ q, q < 9 → ledHeld (powerLossRun s) q = 0) ∧ ∀ a, rdByte (powerLossRun s) a = 0 := by
  obtain ⟨hoff, hsup, hcause, hled, hmem⟩ := off_facts (offBefore (unsupplied s) 2)
  rw [powerLossRun_eq h]
  exact ⟨hoff, hsup.trans (supplies_offBefore _ 2), hcause.trans (getF_setF_same _ _ _ _ _ (by decide)),
    fun q hq => (hled q hq).trans (ledHeld_offBefore _ 2 hq), hmem⟩

-- the main supplies come (R434, R450) -----------------------------------------------------------------------------------------------------

theorem rails_pmbSend (s : State) (d : Nat) (f : Nat → PmbOp) : (pmbSend s d f).rails = s.rails := by
  unfold pmbSend
  split <;> rfl

theorem railOf_congr (h : s'.rails = s.rails) (d : Nat) : railOf s' d = railOf s d := by rw [railOf, railOf, h]

theorem railOf_railTo_same (s : State) (d : Nat) (v : BitVec 10) : (railOf (railTo s d v) d).on = (railOf s d).on := by
  rw [railTo, railOf_congr (rails_pmbSend _ d _), railOf_setRail_same]

theorem railOf_railTo_other (s : State) {d q : Nat} (v : BitVec 10) (h : q ≠ d) : railOf (railTo s d v) q = railOf s q := by
  rw [railTo, railOf_congr (rails_pmbSend _ d _), railOf_setRail_other _ _ h]

theorem on_railUp (s : State) (d : Nat) : (railOf (railUp s d) d).on = true := by
  rw [railUp, railOf_congr (rails_pmbSend _ d _), railOf_railTo_same, railOf_setRail_same]

theorem on_railUp_keep (s : State) (d : Nat) {q : Nat} (h : (railOf s q).on = true) : (railOf (railUp s d) q).on = true := by
  by_cases e : q = d
  · subst e
    exact on_railUp s q
  · rw [railUp, railOf_congr (rails_pmbSend _ d _), railOf_railTo_other _ _ e, railOf_setRail_other _ _ e, h]

/-- Every rail is on once power-up has begun. -/
theorem on_railsUp (s : State) {d : Nat} (h : d < 4) : (railOf (railsUp s) d).on = true := by
  rw [railsUp_eq]
  exact foldl_reaches (Q := fun x q => (railOf x q).on = true) (fun x q _ => on_railUp x q) (fun x q _ _ hp => on_railUp_keep x q hp) _ d (List.mem_range.2 h)

theorem supplies_railUp (s : State) (d : Nat) : (railUp s d).pwr.supplies = s.pwr.supplies := by
  rw [railUp, supplies_pmbSend, railTo, supplies_pmbSend]
  rfl

theorem supplies_railsUp (s : State) : (railsUp s).pwr.supplies = s.pwr.supplies := by
  rw [railsUp_eq]
  exact List.foldlRecOn (motive := fun t : State => t.pwr.supplies = s.pwr.supplies) _ _ rfl fun t h d _ => (supplies_railUp t d).trans h

theorem startup_rails (hv : s.pwr.vaux = true) (hs : s.pwr.supplies = true) (ht : tripped s = false) (ho : s.pwr.off = false) :
    (startup s).rails = (railsUp s).rails ∧ (startup s).pwr.supplies = true := by
  have hsup : (comingUp s).pwr.supplies = true := (congrArg PowerSt.supplies (setF_pwr _ _ _ _ _)).trans ((supplies_railsUp s).trans hs)
  have hrails : (comingUp s).rails = (railsUp s).rails := setF_rails _ _ _ _ _
  rw [startup_eq, if_neg (by simp [hv, hs, ht, ho])]
  generalize comingUp s = x at hsup hrails
  exact ⟨hrails, hsup⟩

-- VAUX (R451, R317) -----------------------------------------------------------------------------------------------------------------------

theorem vauxLoss_facts (s : State) : (vauxLossRun s).pwr.vaux = false ∧ (∀ off, getR (vauxLossRun s) off = resetVal off) ∧ (∀ a, rdByte (vauxLossRun s) a = 0) ∧
    (vauxLossRun s).fuses = s.fuses ∧ (vauxLossRun s).sec.svn = s.sec.svn ∧ (vauxLossRun s).pending = s.pending :=
  ⟨rfl, fun _ => rfl, fun _ => rfl, rfl, rfl, rfl⟩

/-- The state as VAUX comes, before RAIL_MODE shows the strap. -/
def strapped (s : State) (railMode bootSrc : Bool) : State :=
  { bare s with pwr := { (bare s).pwr with railStrap := railMode, bootStrap := bootSrc }, sec := { (bare s).sec with bootCnt := (bare s).sec.bootCnt + 1 } }

theorem vauxUpRun_eq (h : s.pwr.vaux = false) (railMode bootSrc : Bool) : vauxUpRun s railMode bootSrc =
    setR (strapped s railMode bootSrc) rRAIL_MODE (BitVec.ofNat 32 ((resetVal rRAIL_MODE).toNat + (if railMode then 1 else 0))) := by
  rw [vauxUpRun, if_neg (by simp [h])]
  rfl

theorem strapped_facts (s : State) (railMode bootSrc : Bool) : (strapped s railMode bootSrc).pwr.vaux = true ∧ (strapped s railMode bootSrc).pwr.railStrap = railMode ∧
    (strapped s railMode bootSrc).pwr.bootStrap = bootSrc ∧ (∀ off, getR (strapped s railMode bootSrc) off = resetVal off) ∧
    (strapped s railMode bootSrc).pending = s.pending :=
  ⟨rfl, rfl, rfl, fun _ => rfl, rfl⟩

theorem railStrap_shows (railMode : Bool) : bits (BitVec.ofNat 32 ((resetVal rRAIL_MODE).toNat + (if railMode then 1 else 0))).toNat 0 1 = if railMode then 1 else 0 := by
  cases railMode <;> decide +kernel

theorem vauxUp_facts (h : s.pwr.vaux = false) (railMode bootSrc : Bool) :
    (vauxUpRun s railMode bootSrc).pwr.vaux = true ∧ (vauxUpRun s railMode bootSrc).pwr.railStrap = railMode ∧ (vauxUpRun s railMode bootSrc).pwr.bootStrap = bootSrc ∧
      (∀ off, off ≠ rRAIL_MODE → getR (vauxUpRun s railMode bootSrc) off = resetVal off) ∧ getB (vauxUpRun s railMode bootSrc) rRAIL_MODE 0 = railMode ∧
      (vauxUpRun s railMode bootSrc).pending = s.pending := by
  obtain ⟨hv, hr, hb, hreg, hp⟩ := strapped_facts s railMode bootSrc
  have hshow := railStrap_shows railMode
  rw [vauxUpRun_eq h]
  generalize BitVec.ofNat 32 ((resetVal rRAIL_MODE).toNat + (if railMode then 1 else 0)) = v at hshow
  generalize strapped s railMode bootSrc = x at hv hr hb hreg hp
  refine ⟨hv, hr, hb, fun off ho => (getR_setR_other x v ho).trans (hreg off), ?_, hp⟩
  rw [getB, getF, getR_setR_same, hshow]
  cases railMode <;> rfl

-- DVFS_TARGET (R320, R321) ------------------------------------------------------------------------------------------------------------------

theorem regTop_dvfsTarget (h : Served s src rDVFS_TARGET) (v : Nat) : regTop s src rDVFS_TARGET true v = dvfsWrite s v := by
  have hmay : mayWriteAt s src rDVFS_TARGET = true := h.2.2.1
  have habsent : absentDie s rDVFS_TARGET = none := h.2.2.2.1
  have hwide : wideWrite s rDVFS_TARGET v = some (dvfsWrite s v) := rfl
  rw [regTop_wide_below h (by decide) (by decide), regPerform]
  simp only [habsent, hmay, hwide, if_true]

/-- The multipliers that DVFS_TARGET names. -/
def targets (v : Nat) : List Nat := [bits v 0 6, bits v 8 6, bits v 16 6, bits v 24 6, bits v 32 6]

theorem dvfsWrite_refused {v : Nat} (h : ∃ n ∈ targets v, n < 20 ∨ 34 < n) :
    dvfsWrite s v = setR64 s rDVFS_STATUS (setBits (getR64 s rDVFS_STATUS) 52 1 1) := by
  have hany : ((List.range 4).map (fun d => bits v (8 * d) 6) ++ [bits v 32 6]).any (fun n => decide (n < 20) || decide (34 < n)) = true := by
    obtain ⟨n, hn, hr⟩ := h
    exact List.any_eq_true.2 ⟨n, hn, by simpa using hr⟩
  exact if_pos hany

/-- A field of DVFS_STATUS that is set. -/
theorem dvfsStatus_set (s : State) {b : Nat} (hb : b < 64) :
    bits (getR64 (setR64 s rDVFS_STATUS (setBits (getR64 s rDVFS_STATUS) b 1 1)) rDVFS_STATUS) b 1 = 1 := by
  rw [getR64_setR64, bits_mod_two_pow _ _ _ _ hb, bits_setBits_same]
  rfl

/-- No automatic step holds any more (R302). -/
def stepsOver (s : State) : State := (List.range 32).foldl (fun s r => setRegion s r { regionOf s r with stepped := none }) s

theorem pwr_stepsOver (s : State) : (stepsOver s).pwr = s.pwr := pwr_foldl (fun x r _ => setRegion_pwr x r _) s
theorem frame_stepsOver (l : List Nat) (s : State) : Frame l s (stepsOver s) := Frame.foldl (fun x r _ => frame_setRegion _ x r _) s

/-- The state as an accepted DVFS_TARGET stands in its register. -/
def targeted (s : State) (v : Nat) : State := stepsOver (setR64 s rDVFS_TARGET (v &&& 0x3F_3F3F_3F3F))

theorem dvfsWrite_accepted {v : Nat} (h : ∀ n ∈ targets v, 20 ≤ n ∧ n ≤ 34) :
    dvfsWrite s v = if awake (targeted s v) then dvfsApply (targeted s v) else targeted s v := by
  have hany : ¬ ((List.range 4).map (fun d => bits v (8 * d) 6) ++ [bits v 32 6]).any (fun n => decide (n < 20) || decide (34 < n)) = true := by
    intro hany
    obtain ⟨n, hn, hr⟩ := List.any_eq_true.1 hany
    have hin := h n hn
    simp only [Bool.or_eq_true, decide_eq_true_eq] at hr
    omega
  exact if_neg hany

theorem target_pmbSend (s : State) (d : Nat) (f : Nat → PmbOp) : (pmbSend s d f).pwr.target = s.pwr.target := by
  unfold pmbSend
  split <;> rfl

theorem target_railTo (s : State) (d : Nat) (v : BitVec 10) : (railTo s d v).pwr.target = s.pwr.target := (target_pmbSend _ d _).trans rfl
theorem target_setPhase (s : State) (d p : Nat) : (setPhase s d p).pwr.target = s.pwr.target := congrArg PowerSt.target (setR64_pwr _ _ _)
theorem target_startN (s : State) (rs : List Nat) : (startN s rs).pwr.target = s.pwr.target := congrArg PowerSt.target (pwr_foldl (fun x r _ => setRegion_pwr x r _) s)

/-- The sequences of the dies keep the target in force. -/
theorem target_dieNext (s : State) (d : Nat) : (dieNext s d).pwr.target = s.pwr.target := by
  unfold dieNext
  dsimp only
  split_ifs <;> simp only [target_setPhase, target_startN, target_railTo]

theorem target_dvfsNext (s : State) : (dvfsNext s).pwr.target = s.pwr.target := by
  have hdies : ((List.range 4).foldl dieNext s).pwr.target = s.pwr.target :=
    List.foldlRecOn (motive := fun t : State => t.pwr.target = s.pwr.target) _ _ rfl fun t h d _ => (target_dieNext t d).trans h
  unfold dvfsNext
  generalize (List.range 4).foldl dieNext s = x at hdies
  unfold svcNext
  dsimp only
  split_ifs
  · rw [target_startN, hdies]
  · exact hdies
  · rw [target_startN, hdies]
  · exact hdies

theorem frame_targeted (s : State) (v : Nat) : Frame [rDVFS_TARGET, rDVFS_TARGET + 4] s (targeted s v) :=
  (frame_setR64 s (by simp) (by simp) _).trans (frame_stepsOver _ _)

theorem pwr_targeted (s : State) (v : Nat) : (targeted s v).pwr = s.pwr := (pwr_stepsOver _).trans (setR64_pwr s _ _)

theorem awake_targeted (s : State) (v : Nat) : awake (targeted s v) = awake s := by
  have hf : Frame [rDVFS_TARGET, rDVFS_TARGET + 4] s (targeted s v) := frame_targeted s v
  simp only [awake, pwr_targeted, getB, hf.getF_eq (show rPWR_STATE ∉ [rDVFS_TARGET, rDVFS_TARGET + 4] by decide)]

theorem dvfsTarget_targeted (s : State) (v : Nat) : getR64 (targeted s v) rDVFS_TARGET = (v &&& 0x3F_3F3F_3F3F) % 2 ^ 64 := by
  have hf : Frame [] (setR64 s rDVFS_TARGET (v &&& 0x3F_3F3F_3F3F)) (targeted s v) := frame_stepsOver _ _
  rw [getR64, hf.getR_eq (by simp), hf.getR_eq (by simp), ← getR64, getR64_setR64]

/-- A field that a mask lets through. -/
theorem bits_and_of_ones (v m lo w : Nat) (h : bits m lo w = 2 ^ w - 1) : bits (v &&& m) lo w = bits v lo w := by
  rw [bits_eq_div_mod] at h
  rw [bits_eq_div_mod, bits_eq_div_mod, Nat.and_div_two_pow, Nat.and_mod_two_pow, h, Nat.and_two_pow_sub_one_eq_mod, Nat.mod_mod]

theorem frame_retargeted (l : List Nat) (s : State) : Frame l s (retargeted s) := ⟨fun _ => rfl, fun _ _ => rfl, rfl, rfl⟩

theorem dvfsApply_eq (s : State) : dvfsApply s = dvfsNext (retargeted s) := rfl

theorem frame_dvfsApply (s : State) : Frame [rDVFS_STATUS, rDVFS_STATUS + 4] s (dvfsApply s) := by
  rw [dvfsApply_eq]
  exact (frame_retargeted _ s).trans (Sequenced.dvfsNext _).frame

theorem target_dvfsApply (s : State) : (dvfsApply s).pwr.target = BitVec.ofNat 64 (getR64 s rDVFS_TARGET) := by
  rw [dvfsApply_eq, target_dvfsNext]
  rfl

/-- An accepted DVFS_TARGET comes into force, and no multiplier changes at once. -/
theorem frame_dvfsAccepted (s : State) (v : Nat) :
    Frame [rDVFS_TARGET, rDVFS_TARGET + 4, rDVFS_STATUS, rDVFS_STATUS + 4] s (dvfsApply (targeted s v)) :=
  ((frame_targeted s v).mono (by simp)).trans ((frame_dvfsApply _).mono (by simp))

theorem target_dvfsAccepted (s : State) (v : Nat) {lo w : Nat} (hw : lo + w ≤ 64) (hm : bits (0x3F_3F3F_3F3F) lo w = 2 ^ w - 1) :
    bits (dvfsApply (targeted s v)).pwr.target.toNat lo w = bits v lo w := by
  rw [target_dvfsApply, bits_toNat_ofNat _ hw, dvfsTarget_targeted, bits_mod_two_pow _ _ _ _ hw, bits_and_of_ones _ _ _ _ hm]

-- PAD_RELEASE (R316) --------------------------------------------------------------------------------------------------------------------------

/-- Pads that are released. -/
def padsFree (s : State) : State := { s with pwr := { s.pwr with padsLatched := none } }

theorem regTop_padRelease (h : Served s src rPAD_RELEASE) :
    regTop s src rPAD_RELEASE false 1 = setF (padsFree s) rPAD_RELEASE 1 1 0 := by
  rw [regTop_of_served h (by decide) (by decide)]
  rfl

/-- Settles O41, along the loss of a supply, its return, and the writes of DVFS_TARGET and PAD_RELEASE. -/
theorem suppliesAndTargets : Obligations.SuppliesAndTargets := by
  unfold Obligations.SuppliesAndTargets
  intro s
  refine ⟨fun h => ⟨_, rfl, powerLoss_facts h⟩, fun hs hv ht ho => ?_, ⟨_, rfl, vauxLoss_facts s⟩, fun railMode bootSrc h => ⟨_, rfl, vauxUp_facts h railMode bootSrc⟩,
    fun src v h hbad => ?_, fun src v h hgood => ?_, fun d hp hset hsince => ?_, fun src h _ => ?_⟩
  case refine_1 =>
    have hrun : suppliesRun s = startup { s with pwr := { s.pwr with supplies := true } } := if_neg (by simp [hs])
    have hbegin := startup_begins (s := { s with pwr := { s.pwr with supplies := true } }) hv rfl ht ho
    have hrails := startup_rails (s := { s with pwr := { s.pwr with supplies := true } }) hv rfl ht ho
    have hup := powersUp_startup { s with pwr := { s.pwr with supplies := true } }
    refine ⟨_, congrArg Host.Outcome.next hrun, fun a => hup.rdByte_eq a, hrails.2, hbegin.1, hbegin.2, fun d hd => ?_⟩
    rw [railOf_congr hrails.1]
    exact on_railsUp _ hd
  case refine_2 =>
    refine ⟨_, congrArg Host.Outcome.next ((regTop_dvfsTarget h _).trans (dvfsWrite_refused hbad)), frame_setR64 s (by simp) (by simp) _, dvfsStatus_set s (by decide)⟩
  case refine_3 =>
    have hawake : awake (targeted s v.toNat) = true := (awake_targeted s _).trans h.1.2.1
    have hf := frame_dvfsAccepted s v.toNat
    refine ⟨_, congrArg Host.Outcome.next ((regTop_dvfsTarget h _).trans ((dvfsWrite_accepted hgood).trans (if_pos hawake))), hf, fun d hd => ?_,
      target_dvfsAccepted s _ (by decide) (by decide), fun r => hf.getF_eq ?_ 0 6⟩
    · refine target_dvfsAccepted s _ (by omega) ?_
      interval_cases d <;> decide
    · simp only [List.mem_cons, List.not_mem_nil, or_false]
      unfold rCLK_STAT rDVFS_TARGET rDVFS_STATUS
      omega
  case refine_4 =>
    exact ⟨_, congrArg Host.Outcome.next (if_pos ⟨hp, hset, hsince⟩), frame_setR64 s (by simp) (by simp) _, dvfsStatus_set s (by decide)⟩
  case refine_5 =>
    refine ⟨_, congrArg Host.Outcome.next (regTop_padRelease h), ?_, congrArg PowerSt.padsLatched (setF_pwr (padsFree s) _ _ _ _), getB_setF_same _ _ (by decide) 0⟩
    exact Frame.trans ⟨fun _ => rfl, fun _ _ => rfl, rfl, rfl⟩ (frame_setF (padsFree s) (by simp) _ _ _)

end Sys2Proof.Safety
end

section
/-! PROOF. Limits act on samples (O40): the power limiter (R324), thermal levels and warnings (R454, Table 22-7) and THERMTRIP (R453). -/

namespace Sys2Proof.Safety

open Sys2Proof.Machine

variable {s s' t : State}

-- the power limiter ----------------------------------------------------------------------------------------------------------------------

theorem frame_withPwr (l : List Nat) (s : State) (p : PowerSt) : Frame l s { s with pwr := p } := ⟨fun _ => rfl, fun _ _ => rfl, rfl, rfl⟩

/-- The limiter's level after a sample of p W, of which `above` in a row have exceeded SUSTAIN. -/
def limiterLevel (s : State) (p above : Nat) : Nat :=
  let sustain := min (getF s rPWR_LIMIT 0 13) (getF s rPWR_LIMIT 16 13)
  if getF s rPWR_LIMIT 16 13 < p ∨ getF s (rPWR_LIMIT + 4) 0 10 ≤ above then min (s.pwr.lpwr + 1) 7
  else if 100 * p < 95 * sustain ∧ 9 ≤ s.pwr.sinceUs then s.pwr.lpwr - 1 else s.pwr.lpwr

theorem limiterRun_eq (s : State) (p : Nat) : ∃ x : PowerSt, limiterRun s p = { setF s rPWR_MEAS 0 13 p with pwr := x } ∧
    x.overUs = (if min (getF s rPWR_LIMIT 0 13) (getF s rPWR_LIMIT 16 13) < p then s.pwr.overUs + 1 else 0) ∧
    x.lpwr = limiterLevel s p (if min (getF s rPWR_LIMIT 0 13) (getF s rPWR_LIMIT 16 13) < p then s.pwr.overUs + 1 else 0) := by
  unfold limiterRun limiterLevel
  dsimp only
  generalize (if min (getF s rPWR_LIMIT 0 13) (getF s rPWR_LIMIT 16 13) < p then s.pwr.overUs + 1 else 0) = above
  by_cases hup : getF s rPWR_LIMIT 16 13 < p ∨ getF s (rPWR_LIMIT + 4) 0 10 ≤ above
  · rw [if_pos hup, if_pos hup]
    exact ⟨_, rfl, rfl, rfl⟩
  · rw [if_neg hup, if_neg hup]
    by_cases hdown : 100 * p < 95 * min (getF s rPWR_LIMIT 0 13) (getF s rPWR_LIMIT 16 13) ∧ 0 < s.pwr.lpwr ∧ 10 ≤ min 10 (s.pwr.sinceUs + 1)
    · rw [if_pos hdown, if_pos ⟨hdown.1, by omega⟩]
      exact ⟨_, rfl, rfl, rfl⟩
    · rw [if_neg hdown]
      refine ⟨_, rfl, rfl, ?_⟩
      split
      · show s.pwr.lpwr = s.pwr.lpwr - 1
        omega
      · rfl

-- thermal levels (R454) --------------------------------------------------------------------------------------------------------------------

/-- The state after the three readings of a thermal sample. -/
def sampled (s : State) (cl tj ts tf : Nat) : State := firnTemp (setTemp (setTemp s cl tj) (32 + cl / 8) ts) cl tf

/-- A cluster's thermal level after readings of its hottest junction and of its stack. -/
def thermalLevel (l tmax tf : Nat) : Nat :=
  if 105 < tmax ∨ 95 < tf then min (l + 1) 7 else if tmax ≤ 102 ∧ tf ≤ 92 then l - 1 else l

theorem sampled_facts (s : State) (cl tj ts tf : Nat) : SameMem s (sampled s cl tj ts tf) ∧ clusterOf (sampled s cl tj ts tf) cl = clusterOf s cl ∧
    getF (sampled s cl tj ts tf) (rFIRN_STAT cl) 0 8 = tf % 2 ^ 8 :=
  ⟨fun _ => rdByte_congr (setF_mem _ _ _ _ _) _, congrArg (fun m => mget (fun _ => ({} : ClusterSt)) m cl) (setF_clusters _ _ _ _ _),
    getF_setF_same _ _ _ _ _ (by decide)⟩

/-- A thermal sample's interrupt reaches neither the level nor the readings. -/
theorem thermalNoted_facts (s : State) (cl : Nat) (p : Prop) [Decidable p] :
    SameMem s (if p then hostIrq (setF s (rTHERM_STAT + 4) 0 1 1) 11 else s) ∧
      clusterOf (if p then hostIrq (setF s (rTHERM_STAT + 4) 0 1 1) 11 else s) cl = clusterOf s cl ∧
      getF (if p then hostIrq (setF s (rTHERM_STAT + 4) 0 1 1) 11 else s) (rFIRN_STAT cl) 0 8 = getF s (rFIRN_STAT cl) 0 8 := by
  split
  case isFalse => exact ⟨fun _ => rfl, rfl, rfl⟩
  case isTrue =>
    have hn := noted_hostIrq (setF s (rTHERM_STAT + 4) 0 1 1) 11
    have hcl : (hostIrq (setF s (rTHERM_STAT + 4) 0 1 1) 11).clusters = s.clusters := by
      obtain ⟨⟨r, tr, ho, pi, e⟩, -⟩ := hn
      rw [e]
      rfl
    have hlog : ¬ LogReg (rFIRN_STAT cl) := by unfold LogReg rFIRN_STAT clusterBase; omega
    have hne : rFIRN_STAT cl ≠ rTHERM_STAT + 4 := by unfold rFIRN_STAT clusterBase rTHERM_STAT; omega
    exact ⟨fun a => hn.sameMem a, by rw [clusterOf, hcl, clusterOf], (hn.getF_eq hlog 0 8).trans (getF_setF_otherReg s _ _ _ _ _ hne)⟩

/-- The level set, and the interrupt of a level that leaves 0. -/
def levelSet (s : State) (cl l : Nat) : State :=
  let x := setCluster s cl { clusterOf s cl with lth := l }
  if (clusterOf s cl).lth = 0 ∧ l ≠ 0 then hostIrq (setF x (rTHERM_STAT + 4) 0 1 1) 11 else x

theorem thermalLevel_eq (l tmax tf : Nat) :
    thermalLevel l tmax tf = if 105 < tmax ∨ 95 < tf then min (l + 1) 7 else if tmax ≤ 102 ∧ tf ≤ 92 ∧ 0 < l then l - 1 else l := by
  unfold thermalLevel
  split_ifs <;> omega

theorem thermalRun_eq {cl : Nat} (hp : clusterPresent s cl = true) (hu : regionUp s cl = true) (tj ts tf : Nat) :
    thermalRun s cl tj ts tf =
      levelSet (sampled s cl tj ts tf) cl (thermalLevel (clusterOf (sampled s cl tj ts tf) cl).lth (max tj ts) tf) := by
  rw [thermalLevel_eq, thermalRun, if_neg (by simp [hp, hu])]
  unfold sampled levelSet
  rfl

theorem thermalRun_facts {cl : Nat} (hp : clusterPresent s cl = true) (hu : regionUp s cl = true) (tj ts tf : Nat) :
    SameMem s (thermalRun s cl tj ts tf) ∧ getF (thermalRun s cl tj ts tf) (rFIRN_STAT cl) 0 8 = tf % 2 ^ 8 ∧
      (clusterOf (thermalRun s cl tj ts tf) cl).lth = thermalLevel (clusterOf s cl).lth (max tj ts) tf := by
  obtain ⟨hm, hc, hf⟩ := sampled_facts s cl tj ts tf
  rw [thermalRun_eq hp hu, hc]
  generalize sampled s cl tj ts tf = x at hm hc hf
  generalize thermalLevel (clusterOf s cl).lth (max tj ts) tf = l
  have hset : clusterOf (setCluster x cl { clusterOf x cl with lth := l }) cl = { clusterOf x cl with lth := l } := clusterOf_setCluster_same x cl _
  obtain ⟨hm', hc', hf'⟩ := thermalNoted_facts (setCluster x cl { clusterOf x cl with lth := l }) cl ((clusterOf x cl).lth = 0 ∧ l ≠ 0)
  exact ⟨fun a => (hm' a).trans (hm a), hf'.trans hf, congrArg ClusterSt.lth (hc'.trans hset)⟩

-- warnings (R453, Table 22-7) ------------------------------------------------------------------------------------------------------------------

theorem getR_hostIrq_below (s : State) (b : Nat) {off : Nat} (hi : off ∉ irqRegs) : getR (hostIrq s b) off = getR s off := (frame_hostIrq s b).getR_eq hi

theorem getR_traceRec_below (s : State) (d typ core slot floe fcyc w2 w3 : Nat) {off : Nat} (h : off < 0x40_0000) :
    getR (traceRec s d typ core slot floe fcyc w2 w3) off = getR s off := by
  unfold traceRec
  split
  · split
    · rfl
    · exact getR_setF_other _ _ _ _ (by unfold rTRC_STAT svcBase; omega)
  · rfl

theorem getR_setAlert (s : State) (off : Nat) : getR (setAlert s) off = getR s off := rfl

theorem getR_reportEvent_below (s : State) (d : Nat) (e : Ev) {off : Nat} (hi : off ∉ irqRegs) (h : off < 0x40_0000) : getR (reportEvent s d e) off = getR s off := by
  have h1 : getR (if getF s (rMLOG_SEV_CTL d) 2 2 ≤ e.sev then hostIrq s (2 + d) else s) off = getR s off := by
    split
    · exact getR_hostIrq_below s _ hi
    · rfl
  have h2 (x : State) : getR ((List.range 4).foldl (fun s k => setF s (rCC_IRQ_STAT (4 * d + k)) 0 1 1) x) off = getR x off :=
    List.foldlRecOn (motive := fun t => getR t off = getR x off) _ _ rfl fun t ht k _ => (getR_setF_other _ _ _ _ (by have := ccIrqStat_ge (4 * d + k); omega)).trans ht
  unfold reportEvent
  dsimp only
  generalize (if getF s (rMLOG_SEV_CTL d) 2 2 ≤ e.sev then hostIrq s (2 + d) else s) = x at h1
  rw [getR_setAlert]
  split
  · exact (h2 x).trans h1
  · exact h1

theorem getR_fillFirst_stat (s : State) (d tier : Nat) (e : Ev) : getR (fillFirst s d tier e) (rMLOG_STAT d) = getR s (rMLOG_STAT d) := by
  have hset (k : Nat) (hk : k ≤ 40) (x : State) (v : Nat) : getR (setR64 x (rMLOG_FIRST d + k) v) (rMLOG_STAT d) = getR x (rMLOG_STAT d) := by
    have h : rMLOG_STAT d = rMLOG_FIRST d + 64 := rfl
    rw [setR64, getR_setR_other _ _ (by omega), getR_setR_other _ _ (by omega)]
  unfold fillFirst
  dsimp only
  rw [hset 40 (by decide), hset 32 (by decide), hset 24 (by decide), hset 16 (by decide), hset 8 (by decide)]
  exact hset 0 (by decide) _ _

/-- An event of severity 0 sets its bit of MLOG_STAT. -/
theorem mlogStat_logEvent (s : State) (d tier : Nat) {e : Ev} (h : e.sev = 0) : getF (logEvent s d tier e) (rMLOG_STAT d) 0 1 = 1 := by
  have hset (x : State) : getF (setF x (rMLOG_STAT d) e.sev 1 1) (rMLOG_STAT d) 0 1 = 1 := by
    rw [h]
    exact getF_setF_same x _ 0 1 1 (by decide)
  have hfill (x : State) (h1 : getF x (rMLOG_STAT d) 0 1 = 1) : getF (fillFirst x d tier e) (rMLOG_STAT d) 0 1 = 1 := by
    rw [getF, getR_fillFirst_stat, ← getF, h1]
  have hboth (x : State) (p : Bool) (h1 : getF x (rMLOG_STAT d) 0 1 = 1) : getF (if p then x else fillFirst x d tier e) (rMLOG_STAT d) 0 1 = 1 := by
    cases p
    · exact hfill x h1
    · exact h1
  unfold logEvent
  exact hboth _ _ (hset _)

/-- What an event of severity 0 that its home handles leaves in the moraine (R410). -/
theorem mlogStat_raiseEv (s : State) {d : Nat} (hd : d < 4) {e : Ev} (h : e.sev = 0) (hh : e.home = 0) (ho : e.owner = none) :
    getF (raiseEv s d e) (rMLOG_STAT d) 0 1 = 1 := by
  have hlow : rMLOG_STAT d < 0x40_0000 := by unfold rMLOG_STAT mlogBase; omega
  have hirq : rMLOG_STAT d ∉ irqRegs := by
    simp only [irqRegs, List.mem_cons, List.not_mem_nil, or_false]
    unfold rMLOG_STAT mlogBase rHOST_IRQ_STAT
    omega
  have htier : evTier s d e = (0, false) := by simp [evTier, hh]
  rw [raiseEv_eq, getF, getR_reportEvent_below _ d e hirq hlow, contain_unowned _ d ho (by rw [htier]; decide), logged, getR_traceRec_below _ _ _ _ _ _ _ _ _ hlow, htier]
  exact mlogStat_logEvent s d 0 h

theorem temps_hostIrq (s : State) (b : Nat) : (hostIrq s b).temps = s.temps := by
  obtain ⟨h, e⟩ := hostIrq_eq s b
  rw [e]
  rfl

/-- The event of a junction that has reached its threshold. -/
def warnEvent (r t : Nat) : Ev := { cls := cTHERMAL, sev := 0, home := 0, ukind := 6, uindex := r, detail := t + 0 }

theorem warnRun_eq {r : RegionId} {t : Nat} (h : tempOf s r < getF s rTHERM_CFG 0 8) (ht : getF s rTHERM_CFG 0 8 ≤ t) :
    warnRun s (.junction r) t = hostIrq (raiseEv (setTemp s r t) (regionDie r) (warnEvent r t)) 11 := by
  unfold warnRun senseTemp
  dsimp only
  simp only [Bool.false_eq_true, if_false]
  rw [if_pos ⟨h, ht⟩]
  rfl

theorem warnRun_facts {r : RegionId} {t : Nat} (h : tempOf s r < getF s rTHERM_CFG 0 8) (ht : getF s rTHERM_CFG 0 8 ≤ t) :
    SameMem s (warnRun s (.junction r) t) ∧ tempOf (warnRun s (.junction r) t) r = t ∧ bits (getR64 (warnRun s (.junction r) t) rHOST_IRQ_STAT) 11 1 = 1 ∧
      getF (warnRun s (.junction r) t) (rMLOG_STAT (regionDie r)) 0 1 = 1 := by
  have hd : regionDie r < 4 := by unfold regionDie; split_ifs <;> omega
  have htemp : tempOf (setTemp s r t) r = t := mget_mset_same _ s.temps r t
  have hmem : SameMem s (setTemp s r t) := fun _ => rfl
  have hn := noted_raiseEv_unowned (setTemp s r t) (e := warnEvent r t) hd rfl (show cTHERMAL < 256 by decide) (show 0 < 4 by decide)
  have hstat := mlogStat_raiseEv (setTemp s r t) hd (e := warnEvent r t) rfl rfl rfl
  rw [warnRun_eq h ht]
  generalize setTemp s r t = x at htemp hmem hn hstat
  generalize raiseEv x (regionDie r) (warnEvent r t) = y at hn hstat
  have hty : y.temps = x.temps := by
    obtain ⟨⟨g, tr, ho, pi, rfl⟩, -⟩ := hn
    rfl
  have hirq : rMLOG_STAT (regionDie r) ∉ irqRegs := by
    simp only [irqRegs, List.mem_cons, List.not_mem_nil, or_false]
    unfold rMLOG_STAT mlogBase rHOST_IRQ_STAT
    omega
  refine ⟨fun a => ((frame_hostIrq y 11).1 a).trans ((hn.sameMem a).trans (hmem a)), ?_, ?_, ?_⟩
  · rw [tempOf, temps_hostIrq, hty, ← tempOf, htemp]
  · rw [getR64_hostIrq _ (by decide), bits_setBits_same]
    rfl
  · rw [(frame_hostIrq y 11).getF_eq hirq, hstat]

-- THERMTRIP (R453) -----------------------------------------------------------------------------------------------------------------------------------

/-- A register of the power block reads as before once the session is lost. -/
theorem getR_sessLost (s : State) {off : Nat} (hlo : 0x8_0000 ≤ off) (hhi : off < 0x20_0000) : getR (sessLost s) off = getR s off := by
  have hn : NotMover off := .inr ⟨hlo, hhi⟩
  obtain ⟨-, -, -, hr⟩ := sessEnd_facts s
  have h1 : getR (setF (sessEnd s) rHRING_SIZE 8 1 0) off = getR s off :=
    (getR_setF_other _ _ _ _ (by unfold rHRING_SIZE; omega)).trans (hr off hn (by unfold rSESS_STATE; omega) (by unfold rHRING_SIZE; omega))
  have h2 : getR (abortAll (setF (sessEnd s) rHRING_SIZE 8 1 0)) off = getR s off := by
    rw [abortAll_eq]
    exact ((regsKeep_moversEnded _).kept off hn).trans h1
  have hirq : off ∉ irqRegs := by
    simp only [irqRegs, List.mem_cons, List.not_mem_nil, or_false]
    unfold rHOST_IRQ_STAT
    omega
  unfold sessLost
  dsimp only
  split
  · rw [getR_hostIrq_below _ _ hirq, h2]
  · exact h2

theorem getR_hostDown (s : State) {off : Nat} (hlo : 0x8_0000 ≤ off) (hhi : off < 0x20_0000) : getR (hostDown s) off = getR s off := by
  have h := (getR_sessLost (setF s rHOST_STAT 0 9 0) hlo hhi).trans (getR_setF_other s _ _ _ (by unfold rHOST_STAT; omega))
  unfold hostDown
  exact h

theorem getR_linksDown (s : State) {off : Nat} (hlo : 0x8_0000 ≤ off) (hhi : off < 0xC_0000) : getR (hostDown (portsLost s)) off = getR s off :=
  (getR_hostDown _ hlo (by omega)).trans (getR_of_apart apart_portsLost (.inr ⟨by omega, hhi⟩))

/-- THERMTRIP_N is low and THERM_STAT shows it. -/
def Tripped (s : State) : Prop := s.pins.thermtripN = false ∧ getF s (rTHERM_STAT + 4) 1 1 = 1

/-- Pins and THERM_STAT stand. -/
structure TripKept (s s' : State) : Prop where
  pin : s'.pins.thermtripN = s.pins.thermtripN
  stat : getF s' (rTHERM_STAT + 4) 1 1 = getF s (rTHERM_STAT + 4) 1 1

theorem TripKept.refl (s : State) : TripKept s s := ⟨rfl, rfl⟩
theorem TripKept.trans (h : TripKept s s') (h' : TripKept s' t) : TripKept s t := ⟨h'.pin.trans h.pin, h'.stat.trans h.stat⟩
theorem TripKept.tripped (h : TripKept s s') (ht : Tripped s) : Tripped s' := ⟨h.pin.trans ht.1, h.stat.trans ht.2⟩
theorem TripKept.foldl {α : Type*} {g : State → α → State} (hg : ∀ x a, TripKept x (g x a)) (l : List α) (s : State) : TripKept s (l.foldl g s) :=
  List.foldlRecOn (motive := TripKept s) l _ (refl s) fun x h a _ => h.trans (hg x a)

theorem tripKept_linksDown (s : State) : TripKept s (hostDown (portsLost s)) := by
  have hpin : (hostDown (portsLost s)).pins = (portsLost s).pins := by
    obtain ⟨r, ho, se, e⟩ := hostOnly_hostDown (portsLost s)
    rw [e]
  refine ⟨?_, by rw [getF, getR_linksDown s (by decide) (by decide), ← getF]⟩
  rw [hpin]
  exact thermtripN_of_apart apart_portsLost

theorem tripKept_regionOff (s : State) (r : Nat) : TripKept s (regionOff s r) := by
  refine ⟨?_, getF_regionOff s r fun q => by unfold rTHERM_STAT rCLK_STAT; omega⟩
  obtain ⟨g, rg, n, e⟩ := (realigned_unalign (powerless s r) r).same
  have hp : (powerless s r).pins = s.pins := setF_pins _ _ _ _ _
  rw [regionOff_eq, e]
  exact congrArg PinSt.thermtripN hp

theorem ccCtl_ge (k : Nat) : 0x40_0000 ≤ rCC_CTL k := by unfold rCC_CTL svcBase; omega

theorem tripKept_setF (s : State) {off : Nat} (h : off ≠ rTHERM_STAT + 4) (lo w v : Nat) : TripKept s (setF s off lo w v) :=
  ⟨congrArg PinSt.thermtripN (setF_pins s off lo w v), getF_setF_otherReg s lo w v 1 1 h.symm⟩

theorem getR_ccHold (s : State) (k : Nat) {off : Nat} (h : off < 0x40_0000) : getR (ccHold s k) off = getR s off :=
  (getR_congr (setCc_regs _ k _) off).trans (getR_setF_other s 0 1 0 (by have := ccCtl_ge k; omega))

theorem tripKept_ccHold (s : State) (k : Nat) : TripKept s (ccHold s k) :=
  ⟨congrArg PinSt.thermtripN ((setCc_pins _ k _).trans (setF_pins s _ 0 1 0)), by rw [getF, getR_ccHold s k (by decide), ← getF]⟩

theorem pins_railOff (s : State) (d : Nat) : (railOff s d).pins = s.pins := by
  have h : (if (railOf s d).on then pmbSend s d (.operation · false) else s).pins = s.pins := by
    split
    · unfold pmbSend
      split <;> rfl
    · rfl
  exact h

theorem tripKept_railOff (s : State) (d : Nat) : TripKept s (railOff s d) :=
  ⟨congrArg PinSt.thermtripN (pins_railOff s d), by rw [getF, getR_railOff s d (by decide) (by decide), ← getF]⟩

/-- A rail's regulator told to go off (R318). -/
def railSent (s : State) (d : Nat) : State := if (railOf s d).on then pmbSend s d (.operation · false) else s

theorem railOff_eq (s : State) (d : Nat) :
    railOff s d = setVout (setPhase (setRail (railSent s d) d { ({} : RailSt) with brown := (railOf s d).brown }) d 0) d 0 := rfl

theorem railOf_railOff_same (s : State) (d : Nat) : (railOf (railOff s d) d).on = false := by
  rw [railOff_eq, setVout, railOf_congr (setR64_rails _ _ _), setPhase, railOf_congr (setR64_rails _ _ _), railOf_setRail_same]

theorem railOf_railOff_other (s : State) {d q : Nat} (h : q ≠ d) : railOf (railOff s d) q = railOf s q := by
  have hsent : (railSent s d).rails = s.rails := by
    unfold railSent
    split
    · exact rails_pmbSend s d _
    · rfl
  rw [railOff_eq, setVout, railOf_congr (setR64_rails _ _ _), setPhase, railOf_congr (setR64_rails _ _ _), railOf_setRail_other _ _ h, railOf_congr hsent]

theorem off_railsOff (s : State) : ∀ d ∈ List.range 4, (railOf ((List.range 4).foldl railOff s) d).on = false :=
  foldl_reaches (Q := fun x q => (railOf x q).on = false) (fun x q _ => railOf_railOff_same x q) (fun x q _ p h => by
    by_cases e : p = q
    · subst e; exact railOf_railOff_same x p
    · rw [railOf_railOff_other x e, h]) s

theorem dark_of_getR {r : Nat} (h : getR s' (rCLK_STAT r) = getR s (rCLK_STAT r)) (hd : Dark s r) : Dark s' r := by
  rw [Dark, getF, h, ← getF]
  exact hd

/-- The package once its trip point is passed: what is on is off. -/
def tripDown (s : State) : State :=
  (List.range 4).foldl railOff ((List.range 16).foldl ccHold ((List.range 36).foldl regionOff (hostDown (portsLost s))))

theorem tripKept_tripDown (s : State) : TripKept s (tripDown s) :=
  (((tripKept_linksDown s).trans (TripKept.foldl tripKept_regionOff _ _)).trans (TripKept.foldl tripKept_ccHold _ _)).trans (TripKept.foldl tripKept_railOff _ _)

theorem dark_tripDown (s : State) {r : Nat} (h : r < 36) : Dark (tripDown s) r := by
  have hregions : Dark ((List.range 36).foldl regionOff (hostDown (portsLost s))) r := dark_regionsOff _ r (List.mem_range.2 h)
  unfold tripDown
  generalize (List.range 36).foldl regionOff (hostDown (portsLost s)) = x at hregions
  have hcc : getR ((List.range 16).foldl ccHold x) (rCLK_STAT r) = getR x (rCLK_STAT r) :=
    List.foldlRecOn (motive := fun t : State => getR t (rCLK_STAT r) = getR x (rCLK_STAT r)) _ _ rfl fun t ht k _ =>
      (getR_ccHold t k (by unfold rCLK_STAT; omega)).trans ht
  refine dark_of_getR (getR_railsOff _ _ ?_ ?_) (dark_of_getR hcc hregions) <;> (unfold rCLK_STAT rDVFS_STATUS; omega)

/-- The pin low and THERM_STAT set. -/
def tripSet (s : State) : State := setF { s with pins := { s.pins with thermtripN := false } } (rTHERM_STAT + 4) 1 1 1

theorem tripped_tripSet (s : State) : Tripped (tripSet s) :=
  ⟨congrArg PinSt.thermtripN (setF_pins { s with pins := { s.pins with thermtripN := false } } _ _ _ _), getF_setF_same _ _ _ _ _ (by decide)⟩

/-- The package after the trip. -/
def tripEnd (s : State) : State := pwrTrans { s with pwr := { s.pwr with waking := false, entry := none, latched := none } } false

theorem tripEnd_facts (s : State) : TripKept s (tripEnd s) ∧ (∀ r, Dark s r → Dark (tripEnd s) r) ∧ (tripEnd s).rails = s.rails := by
  have hw : TripKept s { s with pwr := { s.pwr with waking := false, entry := none, latched := none } } := ⟨rfl, rfl⟩
  refine ⟨hw.trans (tripKept_setF _ (by decide) _ _ _), fun r hd => ?_, setF_rails _ _ _ _ _⟩
  exact (getF_setF_otherReg _ _ _ _ _ _ (by unfold rCLK_STAT rPWR_STATE; omega)).trans hd

/-- A reading at its trip point, of a package that has not tripped, takes it down. -/
theorem tripRun_eq (sensor : Sensor) (t : Nat) (hs : tripped s = false) (ht : (match sensor with | .junction _ => 115 | .firnCase _ => 105) ≤ t) :
    ∃ x : State, tripRun s sensor t = tripEnd (tripDown (tripSet x)) := by
  have hnot : ¬ tripped s = true := by simp [hs]
  cases sensor with
  | junction r =>
    have hgo : ¬ (t < 115 ∨ tripped s = true) := by
      rintro (h | h)
      · exact absurd h (Nat.not_lt.2 ht)
      · exact hnot h
    refine ⟨raiseEv (setTemp s r t) (regionDie r) { cls := cTRIP, sev := 3, home := 5, ukind := 6, uindex := r, detail := t + 0 }, ?_⟩
    unfold tripRun senseTemp
    simp only [Bool.false_eq_true, if_false]
    rw [if_neg hgo]
    unfold tripEnd tripDown tripSet
    with_reducible rfl
  | firnCase q =>
    have hgo : ¬ (t < 105 ∨ tripped s = true) := by
      rintro (h | h)
      · exact absurd h (Nat.not_lt.2 ht)
      · exact hnot h
    refine ⟨raiseEv (firnTemp s q t) (q.val / 8) { cls := cTRIP, sev := 3, home := 5, ukind := 1, uindex := q, detail := t + 256 }, ?_⟩
    unfold tripRun senseTemp
    simp only [if_true]
    rw [if_neg hgo]
    unfold tripEnd tripDown tripSet
    with_reducible rfl

/-- Settles O40, along the limiter's three cases, the thermal level, a warning and a trip. -/
theorem limitsActOnSamples : Obligations.LimitsActOnSamples := by
  unfold Obligations.LimitsActOnSamples
  intro s
  refine ⟨fun watts sus above hsus habove => ?_, fun cluster tj ts tf hp hu => ?_, fun region t h ht => ⟨_, rfl, warnRun_facts h ht⟩, fun sensor t hs ht => ?_⟩
  case refine_1 =>
    obtain ⟨x, e, hover, hlevel⟩ := limiterRun_eq s watts.toNat
    rw [← hsus, ← habove] at hover hlevel
    refine ⟨_, congrArg Host.Outcome.next e, (frame_setF s (by simp) _ _ _).trans (frame_withPwr _ _ x), ?_, hover, fun h => ?_, fun h1 h2 => ?_⟩
    · exact (getF_setF_same s rPWR_MEAS 0 13 watts.toNat (by decide)).trans (Nat.mod_eq_of_lt watts.isLt)
    · exact hlevel.trans (if_pos h)
    · refine (hlevel.trans (if_neg (by omega))).trans ?_
      rw [hsus]
  case refine_2 =>
    obtain ⟨hm, hf, hl⟩ := thermalRun_facts hp hu tj.toNat ts.toNat tf.toNat
    exact ⟨_, rfl, hm, hf.trans (Nat.mod_eq_of_lt tf.isLt), hl⟩
  case refine_3 =>
    obtain ⟨x, e⟩ := tripRun_eq sensor t.toNat hs ht
    obtain ⟨hkept, hdark, hrails⟩ := tripEnd_facts (tripDown (tripSet x))
    obtain ⟨hpin, hstat⟩ := hkept.tripped ((tripKept_tripDown _).tripped (tripped_tripSet x))
    refine ⟨_, congrArg Host.Outcome.next e, hpin, by rw [tripped, getB, hstat]; rfl, fun r hr => ?_, fun d hd => ?_⟩
    · exact regionUp_of_dark (hdark r (dark_tripDown _ hr)) (by omega)
    · rw [railOf_congr hrails]
      exact off_railsOff _ d (List.mem_range.2 hd)

end Sys2Proof.Safety
end

section
/-! SUPPORT. The start of a reset (Table 21-1, R430 to R432): which registers each part of it may write, and what it keeps. -/

namespace Sys2Proof.Safety

open Sys2Proof.Machine

variable {s s' t : State} {W W' : Nat → Prop} {c : Nat}

/-- A part of a reset: it keeps memory and the job, and writes registers of W alone. -/
structure Resets (W : Nat → Prop) (s s' : State) : Prop where
  mem : s'.mem = s.mem
  job : s'.rstJob = s.rstJob
  regs : ∀ off, ¬ W off → getR s' off = getR s off

namespace Resets

theorem refl (W : Nat → Prop) (s : State) : Resets W s s := ⟨rfl, rfl, fun _ _ => rfl⟩
theorem trans (h : Resets W s s') (h' : Resets W s' t) : Resets W s t :=
  ⟨h'.mem.trans h.mem, h'.job.trans h.job, fun off ho => (h'.regs off ho).trans (h.regs off ho)⟩
theorem mono (h : Resets W s s') (hw : ∀ off, W off → W' off) : Resets W' s s' := ⟨h.mem, h.job, fun off ho => h.regs off fun hx => ho (hw off hx)⟩
theorem ite {p : Prop} [Decidable p] (h : Resets W s s') (h' : Resets W s t) : Resets W s (if p then s' else t) := by
  split
  · exact h
  · exact h'
theorem foldl {α : Type*} {l : List α} {g : State → α → State} (hg : ∀ x, ∀ a ∈ l, Resets W x (g x a)) (s : State) : Resets W s (l.foldl g s) :=
  List.foldlRecOn (motive := Resets W s) l _ (refl W s) fun x h a ha => h.trans (hg x a ha)
theorem setR {off : Nat} (h : W off) (s : State) (v : BitVec 32) : Resets W s (Machine.setR s off v) :=
  ⟨setR_mem s off v, setR_rstJob s off v, fun _ ho => getR_setR_other s v fun e => ho (e ▸ h)⟩
theorem setF {off : Nat} (h : W off) (s : State) (lo w v : Nat) : Resets W s (Machine.setF s off lo w v) := setR h s _
theorem setR64 {off : Nat} (h : W off) (h' : W (off + 4)) (s : State) (v : Nat) : Resets W s (Machine.setR64 s off v) := (setR h s _).trans (setR h' _ _)
theorem sameMem (h : Resets W s s') : SameMem s s' := rdByte_congr h.mem
theorem getF_eq (h : Resets W s s') {off : Nat} (ho : ¬ W off) (lo w : Nat) : getF s' off lo w = getF s off lo w := by rw [getF, h.regs off ho, ← getF]

end Resets

/-- A part of a core reset that keeps the cores' vector registers and slots. -/
structure CoreHeld (W : Nat → Prop) (s s' : State) : Prop where
  resets : Resets W s s'
  held : s'.resetting = s.resetting
  vreg : ∀ k, (coreOf s' k).vreg = (coreOf s k).vreg
  slots : ∀ k, (coreOf s' k).slots = (coreOf s k).slots

namespace CoreHeld

theorem refl (W : Nat → Prop) (s : State) : CoreHeld W s s := ⟨Resets.refl W s, rfl, fun _ => rfl, fun _ => rfl⟩
theorem trans (h : CoreHeld W s s') (h' : CoreHeld W s' t) : CoreHeld W s t :=
  ⟨h.resets.trans h'.resets, h'.held.trans h.held, fun k => (h'.vreg k).trans (h.vreg k), fun k => (h'.slots k).trans (h.slots k)⟩
theorem ite {p : Prop} [Decidable p] (h : CoreHeld W s s') (h' : CoreHeld W s t) : CoreHeld W s (if p then s' else t) := by
  split
  · exact h
  · exact h'
theorem foldl {α : Type*} {l : List α} {g : State → α → State} (hg : ∀ x, ∀ a ∈ l, CoreHeld W x (g x a)) (s : State) : CoreHeld W s (l.foldl g s) :=
  List.foldlRecOn (motive := CoreHeld W s) l _ (refl W s) fun x h a ha => h.trans (hg x a ha)
theorem of_cores (h : Resets W s s') (hr : s'.resetting = s.resetting) (hc : s'.cores = s.cores) : CoreHeld W s s' :=
  ⟨h, hr, fun k => by rw [coreOf_congr hc], fun k => by rw [coreOf_congr hc]⟩
theorem setR {off : Nat} (h : W off) (s : State) (v : BitVec 32) : CoreHeld W s (Machine.setR s off v) :=
  of_cores (Resets.setR h s v) (setR_resetting s off v) (setR_cores s off v)
theorem setF {off : Nat} (h : W off) (s : State) (lo w v : Nat) : CoreHeld W s (Machine.setF s off lo w v) := setR h s _
theorem setR64 {off : Nat} (h : W off) (h' : W (off + 4)) (s : State) (v : Nat) : CoreHeld W s (Machine.setR64 s off v) := (setR h s _).trans (setR h' _ _)

/-- A change of one core that keeps its vector registers and slots. -/
theorem modCore (s : State) (c : Nat) {g : CoreSt → CoreSt} (hv : ∀ k, (g k).vreg = k.vreg) (hs : ∀ k, (g k).slots = k.slots) : CoreHeld W s (Machine.modCore s c g) := by
  have hcase (k : Nat) : coreOf (Machine.modCore s c g) k = coreOf s k ∨ coreOf (Machine.modCore s c g) k = g (coreOf s k) := by
    by_cases e : k = c
    · subst e
      exact .inr (coreOf_modCore_same s k g)
    · exact .inl (coreOf_modCore_other s g e)
  refine ⟨⟨modCore_mem s c g, modCore_rstJob s c g, fun off _ => getR_congr (modCore_regs s c g) off⟩, modCore_resetting s c g, fun k => ?_, fun k => ?_⟩
  · rcases hcase k with e | e <;> rw [e]
    exact hv _
  · rcases hcase k with e | e <;> rw [e]
    exact hs _

end CoreHeld

-- ends, channels and counters --------------------------------------------------------------------------------------------------------------

/-- Registers of a core's inbound ends, outbound channels and counters (Table 23-8). -/
def EndRegs (c off : Nat) : Prop := coreBase c + 0xA00 ≤ off ∧ off < coreBase c + 0xC00
def ChanRegs (c off : Nat) : Prop := coreBase c + 0xE00 ≤ off ∧ off < coreBase c + 0x1200
def CtrRegs (c off : Nat) : Prop := coreBase c + 0x400 ≤ off ∧ off < coreBase c + 0xA00

theorem coreHeld_nullReply (s : State) (c : Nat) {e : Nat} (_he : e < 16) : CoreHeld (EndRegs c) s (nullReply s c e false) := by
  have h1 : EndRegs c (rICH_REPLY c e) ∧ EndRegs c (rICH_REPLY c e + 4) := by unfold EndRegs rICH_REPLY; omega
  unfold nullReply
  simp only [Bool.false_eq_true, if_false]
  exact CoreHeld.ite (CoreHeld.refl _ s) ((CoreHeld.setR64 h1.1 h1.2 s 0).trans (CoreHeld.modCore _ c (fun _ => rfl) fun _ => rfl))

theorem endRegs_iff {c e o : Nat} (_he : e < 16) (_ho : o < 0x20) : EndRegs c (coreBase c + 0xA00 + o + 0x20 * e) := by unfold EndRegs; omega

theorem coreHeld_ichReset (s : State) (c : Nat) {e : Nat} (he : e < 16) : CoreHeld (EndRegs c) s (ichReset s c e) := by
  have h1 : EndRegs c (rICH_STAT c e) ∧ EndRegs c (rICH_CNT2 c e) := by unfold EndRegs rICH_STAT rICH_CNT2; omega
  exact ((coreHeld_nullReply s c he).trans (CoreHeld.setF h1.1 _ 0 2 2)).trans (CoreHeld.setF h1.2 _ 16 16 0)

/-- The end is in RESET_HOLD, and no other end's state changes. -/
theorem ichState_ichReset (s : State) (c e : Nat) :
    ichState (ichReset s c e) c e = 2 ∧ ∀ q, ichState s c q = 2 → ichState (ichReset s c e) c q = 2 := by
  have hsame : ichState (ichReset s c e) c e = 2 :=
    (getF_setF_otherReg _ 16 16 0 0 2 (show rICH_STAT c e ≠ rICH_CNT2 c e by unfold rICH_STAT rICH_CNT2; omega)).trans (getF_setF_same _ _ 0 2 2 (by decide))
  refine ⟨hsame, fun q hq => ?_⟩
  by_cases e' : q = e
  · rw [e']
    exact hsame
  · have hreply : getR (nullReply s c e false) (rICH_STAT c q) = getR s (rICH_STAT c q) := by
      have h64 : getR (setR64 s (rICH_REPLY c e) 0) (rICH_STAT c q) = getR s (rICH_STAT c q) := by
        rw [setR64, getR_setR_other _ _ (by unfold rICH_STAT rICH_REPLY; omega), getR_setR_other _ _ (by unfold rICH_STAT rICH_REPLY; omega)]
      unfold nullReply
      simp only [Bool.false_eq_true, if_false]
      split
      · rfl
      · exact (getR_congr (modCore_regs _ c _) _).trans h64
    have h : getF (nullReply s c e false) (rICH_STAT c q) 0 2 = 2 := by rw [getF, hreply, ← getF]; exact hq
    refine (getF_setF_otherReg _ 16 16 0 0 2 (show rICH_STAT c q ≠ rICH_CNT2 c e by unfold rICH_STAT rICH_CNT2; omega)).trans ?_
    exact (getF_setF_otherReg _ 0 2 2 0 2 (show rICH_STAT c q ≠ rICH_STAT c e by unfold rICH_STAT; omega)).trans h

theorem coreHeld_ochReset (s : State) (c : Nat) {o : Nat} (_ho : o < 64) : CoreHeld (ChanRegs c) s (ochReset s c o) := by
  have h1 : ChanRegs c (rOCH_CRED c o) := by unfold ChanRegs rOCH_CRED; omega
  have h2 := CoreHeld.setF h1 s 0 6 (getF s (rOCH_CRED c o) 8 6)
  have h3 (x : State) (n m : Nat) : CoreHeld (ChanRegs c) x (setReclaim (setCredOut x c o n) c o m) :=
    CoreHeld.trans (CoreHeld.modCore x c (g := fun k => { k with credOut := mset (fun _ => 0) k.credOut o n }) (fun _ => rfl) fun _ => rfl)
      (CoreHeld.modCore _ c (g := fun k => { k with reclaim := mset (fun _ => 0) k.reclaim o m }) (fun _ => rfl) fun _ => rfl)
  exact CoreHeld.ite h2 (h2.trans (h3 _ _ _))

theorem coreHeld_ctrReset (s : State) (c : Nat) {n : Nat} (_hn : n < 48) : CoreHeld (CtrRegs c) s (ctrReset s c n) := by
  have h : CtrRegs c (rCTR_VAL c n) ∧ CtrRegs c (rCTR_BASE c n) ∧ CtrRegs c (rCTR_STAT c n) ∧ CtrRegs c (rCTR_CFG c n) := by
    unfold CtrRegs rCTR_VAL rCTR_BASE rCTR_STAT rCTR_CFG
    omega
  obtain ⟨hval, hbase, hstat, hcfg⟩ := h
  exact ((((CoreHeld.setR hval s _).trans (CoreHeld.setF hbase _ 0 16 0)).trans (CoreHeld.setF hstat _ 1 1 0)).trans (CoreHeld.setR hcfg _ 0)).trans
    (CoreHeld.setR hstat _ 0)

/-- A counter's own VALUE and generation after its reset, and those of another. -/
theorem ctrReset_val (s : State) (c n q : Nat) : getR (ctrReset s c n) (rCTR_VAL c q) =
    if q = n then BitVec.ofNat 32 (65536 * ((ctrGen s c n + 1) % 16)) else getR s (rCTR_VAL c q) := by
  have hne : rCTR_VAL c q ≠ rCTR_BASE c n ∧ rCTR_VAL c q ≠ rCTR_STAT c n ∧ rCTR_VAL c q ≠ rCTR_CFG c n := by
    unfold rCTR_VAL rCTR_BASE rCTR_STAT rCTR_CFG
    omega
  have h4 : getR (ctrReset s c n) (rCTR_VAL c q) = getR (setR s (rCTR_VAL c n) (BitVec.ofNat 32 (65536 * ((ctrGen s c n + 1) % 16)))) (rCTR_VAL c q) :=
    (getR_setR_other _ _ hne.2.1).trans ((getR_setR_other _ _ hne.2.2).trans ((getR_setF_other _ _ _ _ hne.2.1).trans (getR_setF_other _ _ _ _ hne.1)))
  rw [h4]
  by_cases e : q = n
  · rw [if_pos e, e, getR_setR_same]
  · rw [if_neg e, getR_setR_other _ _ (by unfold rCTR_VAL; omega)]

/-- The counters below m reset. -/
def ctrsReset (s : State) (c m : Nat) : State := (List.range m).foldl (fun s n => ctrReset s c n) s

theorem ctrsReset_val (s : State) (c m q : Nat) : getR (ctrsReset s c m) (rCTR_VAL c q) =
    if q < m then BitVec.ofNat 32 (65536 * ((ctrGen s c q + 1) % 16)) else getR s (rCTR_VAL c q) := by
  induction m generalizing q with
  | zero => rfl
  | succ m ih =>
    have hstep : ctrsReset s c (m + 1) = ctrReset (ctrsReset s c m) c m := by rw [ctrsReset, List.range_succ, List.foldl_append]; rfl
    have hgen : ctrGen (ctrsReset s c m) c m = ctrGen s c m := by rw [ctrGen, getF, ih, if_neg (by omega), ← getF, ← ctrGen]
    rw [hstep, ctrReset_val, hgen]
    by_cases e : q = m
    · rw [if_pos e, if_pos (by omega), e]
    · rw [if_neg e, ih]
      by_cases hq : q < m
      · rw [if_pos hq, if_pos (by omega)]
      · rw [if_neg hq, if_neg (by omega)]

theorem ctr_of_val {q : Nat} (h : getR s' (rCTR_VAL c q) = BitVec.ofNat 32 (65536 * ((ctrGen s c q + 1) % 16))) :
    ctrValue s' c q = 0 ∧ ctrGen s' c q = (ctrGen s c q + 1) % 16 := by
  have hlt : 65536 * ((ctrGen s c q + 1) % 16) < 2 ^ 32 := by omega
  rw [ctrValue, ctrGen, getF, getF, h, BitVec.toNat_ofNat, Nat.mod_eq_of_lt hlt, bits_eq_div_mod, bits_eq_div_mod]
  omega

-- words that return to reset ----------------------------------------------------------------------------------------------------------------

theorem getR_dropRegs (s : State) (lo hi off : Nat) : getR (dropRegs s lo hi) off = if off < lo ∨ hi ≤ off then getR s off else resetVal off := by
  rw [getR, dropRegs, mget_filter resetVal s.regs (fun k => decide (k < lo) || decide (hi ≤ k)) off, getR]
  by_cases h : off < lo ∨ hi ≤ off
  · rw [if_pos h, if_pos (by simpa using h)]
  · rw [if_neg h, if_neg (by simpa using h)]

theorem coreHeld_dropRegs (s : State) {lo hi : Nat} (h : ∀ off, lo ≤ off → off < hi → W off) : CoreHeld W s (dropRegs s lo hi) := by
  refine CoreHeld.of_cores ⟨rfl, rfl, fun off ho => ?_⟩ rfl rfl
  rw [getR_dropRegs, if_pos]
  by_contra hn
  exact ho (h off (by omega) (by omega))

/-- The words of a core's block that a reset drops. -/
def CoreDropped (c off : Nat) : Prop :=
  (coreBase c + 0x80 ≤ off ∧ off < coreBase c + 0x300) ∨ (coreBase c + 0x5810 ≤ off ∧ off < coreBase c + 0x5824) ∨ (coreBase c + 0x6000 ≤ off ∧ off < coreBase c + 0x1_0000)

def coreDropped (s : State) (c : Nat) : State :=
  dropRegs (dropRegs (dropRegs (dropRegs s (coreBase c + 0x80) (coreBase c + 0x300)) (coreBase c + 0x5810) (coreBase c + 0x5824)) (coreBase c + 0x6000) (coreBase c + 0x8000))
    (coreBase c + 0x8000) (coreBase c + 0x1_0000)

theorem coreHeld_coreDropped (s : State) (c : Nat) : CoreHeld (CoreDropped c) s (coreDropped s c) := by
  refine (((coreHeld_dropRegs s ?_).trans (coreHeld_dropRegs _ ?_)).trans (coreHeld_dropRegs _ ?_)).trans (coreHeld_dropRegs _ ?_)
  all_goals
    intro off h1 h2
    unfold CoreDropped
    omega

theorem resetVal_taskStat {c u : Nat} (hc : c < 256) (hu : u < 4) : resetVal (rTASK_STAT c u) = 0 := by
  have he : rTASK_STAT c u = coreBase c + (0x204 + 0x40 * u) := by unfold rTASK_STAT; omega
  rw [resetVal, he, regSpec_core hc (by omega)]
  interval_cases u <;> rfl

theorem taskStat_coreDropped (s : State) {c u : Nat} (hc : c < 256) (hu : u < 4) : slotState (coreDropped s c) c u = 0 := by
  have h : getR (coreDropped s c) (rTASK_STAT c u) = resetVal (rTASK_STAT c u) := by
    rw [coreDropped, getR_dropRegs, getR_dropRegs, getR_dropRegs, getR_dropRegs, if_pos (by unfold rTASK_STAT; omega), if_pos (by unfold rTASK_STAT; omega),
      if_pos (by unfold rTASK_STAT; omega), if_neg (by unfold rTASK_STAT; omega)]
  rw [slotState, getF, h, resetVal_taskStat hc hu]
  rfl

-- the core's unaddressed state ---------------------------------------------------------------------------------------------------------------

theorem mget_foldl_mset {α : Type} [DecidableEq α] (d : Nat → α) (f : Nat → α) (l : List Nat) (m : List (Nat × α)) (u : Nat) :
    mget d (l.foldl (fun m a => mset d m a (f a)) m) u = if u ∈ l then f u else mget d m u := by
  induction l generalizing m with
  | nil => rfl
  | cons a l ih =>
    rw [List.foldl_cons, ih]
    by_cases hl : u ∈ l
    · rw [if_pos hl, if_pos (List.mem_cons_of_mem a hl)]
    · rw [if_neg hl]
      by_cases ha : u = a
      · subst ha
        rw [mget_mset_same, if_pos List.mem_cons_self]
      · rw [mget_mset_other d m _ ha, if_neg (by simp [ha, hl])]

theorem sreg_coreKeep (k : CoreSt) {u : Nat} (hu : u < 4) : (mget (fun _ => ({} : SlotSt)) (coreKeep k).slots u).sreg = (mget (fun _ => ({} : SlotSt)) k.slots u).sreg := by
  have h := mget_foldl_mset (fun _ => ({} : SlotSt)) (fun t => { sreg := (mget (fun _ => ({} : SlotSt)) k.slots t).sreg, areg := (mget (fun _ => ({} : SlotSt)) k.slots t).areg })
    (List.range 4) [] u
  rw [if_pos (List.mem_range.2 hu)] at h
  have hs : (coreKeep k).slots = (List.range 4).foldl (fun m t => mset (fun _ => ({} : SlotSt)) m t
      { sreg := (mget (fun _ => ({} : SlotSt)) k.slots t).sreg, areg := (mget (fun _ => ({} : SlotSt)) k.slots t).areg }) [] := rfl
  rw [hs, h]

/-- A core whose scalar and vector registers stand. -/
structure RegsHeld (s s' : State) (c : Nat) : Prop where
  vreg : ∀ r, vreg s' c r = vreg s c r
  sreg : ∀ u r, u < 4 → sreg s' c u r = sreg s c u r

theorem RegsHeld.trans (h : RegsHeld s s' c) (h' : RegsHeld s' t c) : RegsHeld s t c :=
  ⟨fun r => (h'.vreg r).trans (h.vreg r), fun u r hu => (h'.sreg u r hu).trans (h.sreg u r hu)⟩

theorem CoreHeld.regsHeld (h : CoreHeld W s s') (c : Nat) : RegsHeld s s' c :=
  ⟨fun r => by rw [Machine.vreg, h.vreg c, Machine.vreg], fun u r _ => by rw [Machine.sreg, slotOf, h.slots c, ← slotOf, Machine.sreg]⟩

theorem regsHeld_coreKeep (s : State) (c : Nat) : RegsHeld s (modCore s c coreKeep) c := by
  refine ⟨fun r => by rw [Machine.vreg, coreOf_modCore_same, Machine.vreg]; rfl, fun u r hu => ?_⟩
  rw [Machine.sreg, slotOf, coreOf_modCore_same, sreg_coreKeep _ hu, ← slotOf, ← Machine.sreg]

theorem resets_coreKeep (s : State) (c : Nat) : Resets W s (modCore s c coreKeep) :=
  ⟨modCore_mem s c _, modCore_rstJob s c _, fun off _ => getR_congr (modCore_regs s c _) off⟩

-- the floes of a core that resets ----------------------------------------------------------------------------------------------------------------

/-- Registers of the service complex and of the clusters. -/
def SharedRegs (off : Nat) : Prop := 0x40_0000 ≤ off ∧ off < 0x200_0000

theorem coreHeld_setFloe (s : State) (cl f : Nat) (x : FloeSt) : CoreHeld W s (setFloe s cl f x) := CoreHeld.of_cores ⟨rfl, rfl, fun _ _ => rfl⟩ rfl rfl

theorem coreHeld_stallSince (s : State) (cl f r : Nat) : CoreHeld W s (stallSince s cl f r) := by
  unfold stallSince
  exact CoreHeld.ite (CoreHeld.refl _ s) (coreHeld_setFloe s cl f _)

theorem coreHeld_traceRec (s : State) {d : Nat} (_hd : d < 4) (typ core slot floe fcyc w2 w3 : Nat) : CoreHeld SharedRegs s (traceRec s d typ core slot floe fcyc w2 w3) := by
  have h : SharedRegs (rTRC_STAT d + 4) := by unfold SharedRegs rTRC_STAT svcBase; omega
  unfold traceRec
  exact CoreHeld.ite (CoreHeld.ite (CoreHeld.of_cores ⟨rfl, rfl, fun _ _ => rfl⟩ rfl rfl) (CoreHeld.setF h s 16 16 _)) (CoreHeld.refl _ s)

theorem coreHeld_setFloeReason (s : State) {cl f : Nat} (hcl : cl < 32) (_hf : f < 32) (r : Nat) : CoreHeld SharedRegs s (setFloeReason s cl f r) := by
  have h : SharedRegs (rFLOE_STAT cl f) := by unfold SharedRegs rFLOE_STAT clusterBase; omega
  have htrace (x : State) : CoreHeld SharedRegs x (traceOfFloe x cl f 2 r 0) := by
    unfold traceOfFloe
    exact CoreHeld.ite (coreHeld_traceRec x (by omega) _ _ _ _ _ _ _) (CoreHeld.refl _ x)
  unfold setFloeReason
  exact CoreHeld.ite (coreHeld_stallSince s cl f r) (((CoreHeld.setF h s 0 4 r).trans (coreHeld_stallSince _ cl f r)).trans (htrace _))

/-- The floes that a core is a member of lose their state. -/
def floesCleared (s : State) (c : Nat) : State :=
  (List.range 32).foldl (fun s f =>
    if getB s (rFLOE_DEF (c / 8) f) 16 && getB s (rFLOE_DEF (c / 8) f) (c % 8) then setFloeReason (setFloe s (c / 8) f {}) (c / 8) f 0 else s) s

theorem coreHeld_floesCleared (s : State) {c : Nat} (hc : c < 256) : CoreHeld SharedRegs s (floesCleared s c) :=
  CoreHeld.foldl (fun x f hf => CoreHeld.ite ((coreHeld_setFloe x _ f {}).trans (coreHeld_setFloeReason _ (by omega) (List.mem_range.1 hf) 0)) (CoreHeld.refl _ x)) s

-- the whole of a core reset's start ----------------------------------------------------------------------------------------------------------------

/-- The core's ends and channels reset. -/
def endsReset (s : State) (c : Nat) : State := (List.range 64).foldl (fun s o => ochReset s c o) ((List.range 16).foldl (fun s e => ichReset s c e) s)

/-- The core is in reset. -/
def resetHeld (s : State) (c : Nat) : State := if s.resetting.contains c then s else { s with resetting := s.resetting ++ [c] }

theorem coreResetStart_eq (s : State) (c : Nat) :
    coreResetStart s c = resetHeld (floesCleared (modCore (coreDropped (ctrsReset (endsReset s c) c 48) c) c coreKeep) c) c := rfl

theorem resets_resetHeld (s : State) (c : Nat) : Resets W s (resetHeld s c) := Resets.ite (Resets.refl _ s) ⟨rfl, rfl, fun _ _ => rfl⟩

theorem coreHeld_ichsReset (s : State) (c : Nat) : CoreHeld (EndRegs c) s ((List.range 16).foldl (fun s e => ichReset s c e) s) :=
  CoreHeld.foldl (fun x _ he => coreHeld_ichReset x c (List.mem_range.1 he)) s
theorem coreHeld_ochsReset (s : State) (c : Nat) : CoreHeld (ChanRegs c) s ((List.range 64).foldl (fun s o => ochReset s c o) s) :=
  CoreHeld.foldl (fun x _ ho => coreHeld_ochReset x c (List.mem_range.1 ho)) s
theorem coreHeld_ctrsReset (s : State) (c : Nat) : CoreHeld (CtrRegs c) s (ctrsReset s c 48) :=
  CoreHeld.foldl (fun x _ hn => coreHeld_ctrReset x c (List.mem_range.1 hn)) s

/-- A core reset writes registers of its block, of its cluster and of the service complex. -/
theorem resets_coreResetStart (s : State) {c : Nat} (hc : c < 256) : Resets (fun off => 0x40_0000 ≤ off) s (coreResetStart s c) := by
  have hb : 0x200_0000 ≤ coreBase c := by unfold coreBase; omega
  rw [coreResetStart_eq]
  refine Resets.trans ?_ (resets_resetHeld _ c)
  refine Resets.trans ?_ ((coreHeld_floesCleared _ hc).resets.mono fun off h => h.1)
  refine Resets.trans ?_ (resets_coreKeep _ c)
  refine Resets.trans ?_ ((coreHeld_coreDropped _ c).resets.mono fun off h => ?_)
  · refine Resets.trans ?_ ((coreHeld_ctrsReset _ c).resets.mono fun off h => ?_)
    · refine Resets.trans ((coreHeld_ichsReset s c).resets.mono fun off h => ?_) ((coreHeld_ochsReset _ c).resets.mono fun off h => ?_)
      · have := h.1; omega
      · have := h.1; omega
    · have := h.1; omega
  · unfold CoreDropped at h
    omega

/-- What a core reset leaves of its core (Table 21-1). -/
theorem coreResetStart_facts (s : State) {c : Nat} (hc : c < 256) (hr : s.resetting = []) :
    (coreResetStart s c).resetting = [c] ∧ (∀ u, u < 4 → slotState (coreResetStart s c) c u = 0) ∧
      (∀ n, n < 48 → ctrValue (coreResetStart s c) c n = 0 ∧ ctrGen (coreResetStart s c) c n = (ctrGen s c n + 1) % 16) ∧
      (∀ e, e < 16 → ichState (coreResetStart s c) c e = 2) ∧ RegsHeld s (coreResetStart s c) c := by
  have h1 := coreHeld_ichsReset s c
  have hich : ∀ e ∈ List.range 16, ichState ((List.range 16).foldl (fun s e => ichReset s c e) s) c e = 2 :=
    foldl_reaches (Q := fun x e => ichState x c e = 2) (fun x e _ => (ichState_ichReset x c e).1) (fun x e _ q h => (ichState_ichReset x c e).2 q h) s
  rw [coreResetStart_eq, endsReset]
  generalize (List.range 16).foldl (fun s e => ichReset s c e) s = x1 at h1 hich
  have h2 := coreHeld_ochsReset x1 c
  generalize (List.range 64).foldl (fun s o => ochReset s c o) x1 = x2 at h2
  have h3 := coreHeld_ctrsReset x2 c
  have hctr := ctrsReset_val x2 c 48
  generalize ctrsReset x2 c 48 = x3 at h3 hctr
  have h4 := coreHeld_coreDropped x3 c
  have hslot := fun u (hu : u < 4) => taskStat_coreDropped x3 hc hu
  generalize coreDropped x3 c = x4 at h4 hslot
  have h5 : Resets (fun _ => False) x4 (modCore x4 c coreKeep) := resets_coreKeep x4 c
  have h5r : (modCore x4 c coreKeep).resetting = x4.resetting := modCore_resetting x4 c _
  have h5k := regsHeld_coreKeep x4 c
  generalize modCore x4 c coreKeep = x5 at h5 h5r h5k
  have h6 := coreHeld_floesCleared x5 hc
  generalize floesCleared x5 c = x6 at h6
  have hempty : x6.resetting = [] := by rw [h6.held, h5r, h4.held, h3.held, h2.held, h1.held, hr]
  have h7 : Resets (fun _ => False) x6 (resetHeld x6 c) := resets_resetHeld x6 c
  have hend : resetHeld x6 c = { x6 with resetting := [c] } := by rw [resetHeld, hempty]; rfl
  have hkeep {off : Nat} (h : 0x200_0000 ≤ off) : getR (resetHeld x6 c) off = getR x4 off := by
    rw [h7.regs off id, h6.resets.regs off fun hx => absurd hx.2 (by omega), h5.regs off id]
  have hb : 0x200_0000 ≤ coreBase c := by unfold coreBase; omega
  refine ⟨by rw [hend], fun u hu => ?_, fun n hn => ?_, fun e he => ?_, ?_⟩
  · rw [slotState, getF, hkeep (by unfold rTASK_STAT; omega), ← getF, ← slotState, hslot u hu]
  · refine ctr_of_val (s := s) ?_
    have hval : getR x2 (rCTR_VAL c n) = getR s (rCTR_VAL c n) := by
      rw [h2.resets.regs _ fun h => ?_, h1.resets.regs _ fun h => ?_] <;> (unfold EndRegs ChanRegs rCTR_VAL at *; omega)
    have hgen : ctrGen x2 c n = ctrGen s c n := by rw [ctrGen, getF, hval, ← getF, ← ctrGen]
    rw [hkeep (by unfold rCTR_VAL; omega), h4.resets.regs _ fun h => ?_, hctr, if_pos hn, hgen]
    unfold CoreDropped rCTR_VAL at h
    omega
  · have hstat : getR (resetHeld x6 c) (rICH_STAT c e) = getR x1 (rICH_STAT c e) := by
      rw [hkeep (by unfold rICH_STAT; omega), h4.resets.regs _ fun h => ?_, h3.resets.regs _ fun h => ?_, h2.resets.regs _ fun h => ?_]
      all_goals (unfold CoreDropped CtrRegs ChanRegs rICH_STAT at *; omega)
    rw [ichState, getF, hstat, ← getF, ← ichState, hich e (List.mem_range.2 he)]
  · have h7k : RegsHeld x6 (resetHeld x6 c) c := by rw [hend]; exact ⟨fun _ => rfl, fun _ _ _ => rfl⟩
    exact ((((((h1.regsHeld c).trans (h2.regsHeld c)).trans (h3.regsHeld c)).trans (h4.regsHeld c)).trans h5k).trans (h6.regsHeld c)).trans h7k

end Sys2Proof.Safety
end

section
/-! PROOF. O42: a write of RST_REQ (R432), and the package cold reset. -/

namespace Sys2Proof.Safety

open Sys2Proof.Machine

variable {s s' t : State} {src : Src}

/-- Any register but RST_STAT. -/
def OtherThanStat (off : Nat) : Prop := off ≠ rRST_STAT

/-- A part of a reset that leaves RST_STAT. -/
abbrev Holds (s s' : State) : Prop := Resets OtherThanStat s s'

theorem Holds.of_unchanged (hm : s'.mem = s.mem) (hj : s'.rstJob = s.rstJob) (hr : getR s' rRST_STAT = getR s rRST_STAT) : Holds s s' :=
  ⟨hm, hj, fun off ho => by rw [not_not.1 ho, hr]⟩

theorem HostOnly.rstJob (h : HostOnly s s') : s'.rstJob = s.rstJob := by
  obtain ⟨r, ho, se, rfl⟩ := h
  rfl
theorem HostOnly.mem (h : HostOnly s s') : s'.mem = s.mem := by
  obtain ⟨r, ho, se, rfl⟩ := h
  rfl
theorem Realigned.rstJob (h : Realigned s s') : s'.rstJob = s.rstJob := by
  obtain ⟨r, g, n, rfl⟩ := h.same
  rfl
theorem Realigned.mem (h : Realigned s s') : s'.mem = s.mem := by
  obtain ⟨r, g, n, rfl⟩ := h.same
  rfl

theorem holds_coreResetStart (s : State) {c : Nat} (hc : c < 256) : Holds s (coreResetStart s c) :=
  (resets_coreResetStart s hc).mono fun off h => by unfold OtherThanStat rRST_STAT; omega

theorem holds_dropRegs (s : State) {lo hi : Nat} (h : 0x40_0000 ≤ lo) : Holds s (dropRegs s lo hi) :=
  Holds.of_unchanged rfl rfl (by rw [getR_dropRegs, if_pos (.inl (by unfold rRST_STAT; omega))])

theorem holds_unalign (s : State) (r : Nat) : Holds s (unalign s r) :=
  have h := realigned_unalign s r
  Holds.of_unchanged h.mem h.rstJob (h.regs _ fun q _ => by unfold rRST_STAT rCLK_STAT; omega)

-- the frequency sequence --------------------------------------------------------------------------------------------------------------------

theorem holds_setRegion (s : State) (r : Nat) (x : RegionSt) : Holds s (setRegion s r x) := Holds.of_unchanged (setRegion_mem s r x) (setRegion_rstJob s r x) rfl

theorem holds_railTo (s : State) (d : Nat) (v : BitVec 10) : Holds s (railTo s d v) := by
  unfold railTo pmbSend
  split
  · exact Holds.of_unchanged rfl rfl rfl
  · exact Holds.of_unchanged rfl rfl rfl

theorem holds_setPhase (s : State) (d p : Nat) : Holds s (setPhase s d p) :=
  Resets.setR64 (by unfold OtherThanStat; decide) (by unfold OtherThanStat; decide) s _

theorem holds_startN (s : State) (rs : List Nat) : Holds s (startN s rs) := Resets.foldl (fun x r _ => holds_setRegion x r _) s

theorem holds_dieNext (s : State) (d : Nat) : Holds s (dieNext s d) := by
  unfold dieNext
  refine Resets.ite (Resets.refl _ s) (Resets.ite ((holds_startN s _).trans (holds_setPhase _ d 1)) (Resets.ite (holds_setPhase s d 1)
    (Resets.ite ((holds_railTo s d _).trans (holds_setPhase _ d _)) (Resets.ite ?_ (holds_setPhase s d _)))))
  exact (holds_startN s _).trans (holds_setPhase _ d 4)

theorem holds_dvfsNext (s : State) : Holds s (dvfsNext s) := by
  have hdies : Holds s ((List.range 4).foldl dieNext s) := Resets.foldl (fun x d _ => holds_dieNext x d) s
  unfold dvfsNext
  generalize (List.range 4).foldl dieNext s = x at hdies
  unfold svcNext
  exact hdies.trans (Resets.ite (holds_startN x _) (Resets.refl _ x))

-- clusters and dies ------------------------------------------------------------------------------------------------------------------------

/-- A cluster's floes lose their state. -/
def floesDropped (s : State) (cl : Nat) : State := { s with floes := s.floes.filter fun p => p.1 / 32 ≠ cl }

theorem holds_floesDropped (s : State) (cl : Nat) : Holds s (floesDropped s cl) := Holds.of_unchanged rfl rfl rfl

/-- The cores of a cluster in reset, its block at reset, its floes empty. -/
def clusterDropped (s : State) (cl : Nat) : State :=
  floesDropped (dropRegs ((List.range 8).foldl (fun s r => coreResetStart s (8 * cl + r)) s) (clusterBase cl) (clusterBase cl + 0x8000)) cl

theorem clusterResetStart_eq (s : State) (cl : Nat) : clusterResetStart s cl =
    if legacyOf s cl ∧ regionUp (clusterDropped s cl) cl then
      if awake (unalign (clusterDropped s cl) cl) then dvfsNext (unalign (clusterDropped s cl) cl) else unalign (clusterDropped s cl) cl
    else clusterDropped s cl := rfl

theorem holds_clusterDropped (s : State) {cl : Nat} (hcl : cl < 32) : Holds s (clusterDropped s cl) := by
  have hcores : Holds s ((List.range 8).foldl (fun s r => coreResetStart s (8 * cl + r)) s) :=
    Resets.foldl (fun x r hr => holds_coreResetStart x (by have := List.mem_range.1 hr; omega)) s
  rw [clusterDropped]
  generalize (List.range 8).foldl (fun s r => coreResetStart s (8 * cl + r)) s = x at hcores
  have hdrop : Holds x (dropRegs x (clusterBase cl) (clusterBase cl + 0x8000)) := holds_dropRegs x (by unfold clusterBase; omega)
  exact (hcores.trans hdrop).trans (holds_floesDropped _ cl)

theorem holds_clusterResetStart (s : State) {cl : Nat} (hcl : cl < 32) : Holds s (clusterResetStart s cl) := by
  have h := holds_clusterDropped s hcl
  rw [clusterResetStart_eq]
  generalize clusterDropped s cl = x at h
  have hu := holds_unalign x cl
  generalize unalign x cl = y at hu
  exact h.trans (Resets.ite (hu.trans (Resets.ite (holds_dvfsNext y) (Resets.refl _ y))) (Resets.refl _ x))

theorem holds_ccHold (s : State) (k : Nat) : Holds s (ccHold s k) :=
  Holds.of_unchanged ((setCc_mem _ k _).trans (setF_mem s _ _ _ _)) ((setCc_rstJob _ k _).trans (setF_rstJob s _ _ _ _)) (getR_ccHold s k (by decide))

theorem holds_setAlert (s : State) : Holds s (setAlert s) := Holds.of_unchanged rfl rfl rfl

theorem holds_netReset (s : State) (d : Nat) : Holds s (netReset s d) := Holds.of_unchanged rfl rfl rfl

theorem holds_setF {off : Nat} (h : off ≠ rRST_STAT) (s : State) (lo w v : Nat) : Holds s (setF s off lo w v) := Resets.setF (W := OtherThanStat) h s lo w v

theorem holds_sessLost (s : State) : Holds s (sessLost s) :=
  Holds.of_unchanged (hostOnly_sessLost s).mem (hostOnly_sessLost s).rstJob (getR_sessLost s (by decide) (by decide))

theorem holds_ccBoot (s : State) (b : Bool) : Holds s (ccBoot s b) := by
  have h0 : rCC_CTL 0 ≠ rRST_STAT := by decide
  have h1 := holds_setF h0 s 0 1 1
  have h2 : Holds (setF s (rCC_CTL 0) 0 1 1) (setCc (setF s (rCC_CTL 0) 0 1 1) 0 {}) := Holds.of_unchanged (setCc_mem _ 0 _) (setCc_rstJob _ 0 _) (getR_congr (setCc_regs _ 0 _) _)
  have h3 := holds_setF (show rBOOT_STAT ≠ rRST_STAT by decide) (setCc (setF s (rCC_CTL 0) 0 1 1) 0 {}) 0 2 0
  exact ((h1.trans h2).trans h3).trans (Holds.of_unchanged rfl rfl rfl)

/-- The part of a die reset that is alike on every die. -/
def dieHeld (s : State) (d : Nat) : State :=
  let s1 := (List.range 8).foldl (fun s k => if clusterPresent s (8 * d + k) then clusterResetStart s (8 * d + k) else s) s
  let s2 := (List.range 4).foldl (fun s k => ccHold s (4 * d + k)) s1
  setAlert (setF (netReset s2 d) (rMLOG_STAT d) 7 1 0)

theorem dieResetStart_eq (s : State) (d : Nat) : dieResetStart s d = if d = 0 then ccBoot (sessLost (dieHeld s d)) true else dieHeld s d := rfl

theorem holds_dieHeld (s : State) {d : Nat} (hd : d < 4) : Holds s (dieHeld s d) := by
  have h1 : Holds s ((List.range 8).foldl (fun s k => if clusterPresent s (8 * d + k) then clusterResetStart s (8 * d + k) else s) s) :=
    Resets.foldl (fun x k hk => Resets.ite (holds_clusterResetStart x (by have := List.mem_range.1 hk; omega)) (Resets.refl _ x)) s
  rw [dieHeld]
  generalize (List.range 8).foldl (fun s k => if clusterPresent s (8 * d + k) then clusterResetStart s (8 * d + k) else s) s = x at h1
  have h2 : Holds x ((List.range 4).foldl (fun s k => ccHold s (4 * d + k)) x) := Resets.foldl (fun y k _ => holds_ccHold y (4 * d + k)) x
  generalize (List.range 4).foldl (fun s k => ccHold s (4 * d + k)) x = y at h2
  have h3 := holds_setF (show rMLOG_STAT d ≠ rRST_STAT by unfold rMLOG_STAT mlogBase rRST_STAT; omega) (netReset y d) 7 1 0
  exact (((h1.trans h2).trans (holds_netReset y d)).trans h3).trans (holds_setAlert _)

theorem holds_dieResetStart (s : State) {d : Nat} (hd : d < 4) : Holds s (dieResetStart s d) := by
  have h := holds_dieHeld s hd
  rw [dieResetStart_eq]
  generalize dieHeld s d = x at h
  exact h.trans (Resets.ite ((holds_sessLost x).trans (holds_ccBoot _ true)) (Resets.refl _ x))

-- requests -----------------------------------------------------------------------------------------------------------------------------------

theorem regTop_rstReq (h : Served s src rRST_REQ) {kind index : Nat} (hk : kind ≤ 4) (hi : index < 1024) :
    regTop s src rRST_REQ false (8 + kind + 65536 * index) = rstReq s kind index := by
  have hlt : 8 + kind + 65536 * index < 2 ^ 32 := by omega
  have hgo : bits (8 + kind + 65536 * index) 3 1 = 1 := by rw [bits_eq_div_mod]; omega
  have hkind : bits (8 + kind + 65536 * index) 0 3 = kind := by rw [bits_eq_div_mod]; omega
  have hindex : bits (8 + kind + 65536 * index) 16 10 = index := by rw [bits_eq_div_mod]; omega
  have hwrite (v : BitVec 32) : writeWord s src rRST_REQ v = if bits v.toNat 3 1 = 1 then rstReq s (bits v.toNat 0 3) (bits v.toNat 16 10) else s := rfl
  rw [regTop_of_served h (by decide) (by decide), hwrite, BitVec.toNat_ofNat, Nat.mod_eq_of_lt hlt, hgo, hkind, hindex, if_pos rfl]

/-- A refusal answers and does nothing else. -/
theorem rstResult_facts (s : State) {r : Nat} (hr : r < 8) : Frame [rRST_STAT] s (rstResult s r) ∧ getF (rstResult s r) rRST_STAT 1 3 = r :=
  ⟨frame_setF s (by simp) _ _ _, (getF_setF_same s _ 1 3 r (by decide)).trans (Nat.mod_eq_of_lt hr)⟩

/-- The reset under way, BUSY. -/
def rstBusy (s : State) (kind index : Nat) : State := setF (rstResult { s with rstJob := some (kind, index) } 0) rRST_STAT 0 1 1

theorem rstBusy_facts (s : State) (kind index : Nat) : (rstBusy s kind index).mem = s.mem ∧ (rstBusy s kind index).rstJob = some (kind, index) ∧
    getF (rstBusy s kind index) rRST_STAT 1 3 = 0 ∧ getB (rstBusy s kind index) rRST_STAT 0 = true := by
  refine ⟨(setF_mem _ _ _ _ _).trans (setF_mem _ _ _ _ _), (setF_rstJob _ _ _ _ _).trans (setF_rstJob _ _ _ _ _), ?_, getB_setF_same _ _ (by decide) 1⟩
  rw [rstBusy, getF_setF_beside _ _ 0 1 1 _ 1 3 (by decide) (.inr (by decide))]
  exact getF_setF_same _ _ 1 3 0 (by decide)

/-- The accepted request's start. -/
def rstStart (s : State) (kind index : Nat) : State :=
  if kind = 1 then coreResetStart (rstBusy s kind index) index
  else if kind = 2 then clusterResetStart (rstBusy s kind index) index
  else if kind = 3 then dieResetStart (rstBusy s kind index) index
  else rstBusy s kind index

/-- The bound of each kind's index. -/
def rstBound (kind : Nat) : Nat := if kind = 0 then 1024 else if kind = 1 then 256 else if kind = 2 then 32 else 4

theorem rstReq_eq (s : State) (kind index : Nat) : rstReq s kind index =
    if 4 < kind ∨ (kind = 1 ∧ 256 ≤ index) ∨ (kind = 2 ∧ 32 ≤ index) ∨ (kind = 3 ∧ 4 ≤ index) then rstResult s 4
    else if kind = 4 then coldReset s
    else if s.rstJob.isSome ∨ s.resetting ≠ [] then rstResult s 1
    else if kind < 3 ∧ clusterPresent s (rstCluster kind index) = false then rstResult s 3
    else if regionUp s (if kind = 3 then 32 + index else rstCluster kind index) = false then rstResult s 5
    else if rstRefused s kind index then rstResult s 2
    else rstStart s kind index := rfl

theorem holds_rstStart (s : State) {kind index : Nat} (hk : kind < 4) (hi : index < rstBound kind) : Holds (rstBusy s kind index) (rstStart s kind index) := by
  rw [rstStart]
  generalize rstBusy s kind index = x
  unfold rstBound at hi
  by_cases h1 : kind = 1
  · subst h1
    rw [if_pos rfl]
    exact holds_coreResetStart x hi
  rw [if_neg h1]
  by_cases h2 : kind = 2
  · subst h2
    rw [if_pos rfl]
    exact holds_clusterResetStart x hi
  rw [if_neg h2]
  by_cases h3 : kind = 3
  · subst h3
    rw [if_pos rfl]
    exact holds_dieResetStart x hi
  rw [if_neg h3]
  exact Resets.refl _ x

theorem rstStart_facts (s : State) {kind index : Nat} (hk : kind < 4) (hi : index < rstBound kind) :
    SameMem s (rstStart s kind index) ∧ (rstStart s kind index).rstJob = some (kind, index) ∧
      getF (rstStart s kind index) rRST_STAT 1 3 = 0 ∧ getB (rstStart s kind index) rRST_STAT 0 = true := by
  obtain ⟨hmem, hjob, hresult, hbusy⟩ := rstBusy_facts s kind index
  have h := holds_rstStart s hk hi
  have hstat : ¬ OtherThanStat rRST_STAT := fun hn => hn rfl
  exact ⟨rdByte_congr (h.mem.trans hmem), h.job.trans hjob, (h.getF_eq hstat 1 3).trans hresult, by rw [getB, h.getF_eq hstat, ← getB, hbusy]⟩

/-- A core reset keeps the core's memories and scalar registers, and leaves the rest as Table 21-1 says. -/
theorem rstStart_core (s : State) {c : Nat} (hc : c < 256) (hr : s.resetting = []) :
    (rstStart s 1 c).resetting = [c] ∧ (∀ t, t < 4 → slotState (rstStart s 1 c) c t = 0) ∧
      (∀ n, n < 48 → ctrValue (rstStart s 1 c) c n = 0 ∧ ctrGen (rstStart s 1 c) c n = (ctrGen s c n + 1) % 16) ∧
      (∀ e, e < 16 → ichState (rstStart s 1 c) c e = 2) ∧ (∀ r, vreg (rstStart s 1 c) c r = vreg s c r) ∧
      (∀ t r, t < 4 → sreg (rstStart s 1 c) c t r = sreg s c t r) := by
  have hheld : (rstBusy s 1 c).resetting = [] := (setF_resetting _ _ _ _ _).trans ((setF_resetting _ _ _ _ _).trans hr)
  have hcores : (rstBusy s 1 c).cores = s.cores := (setF_cores _ _ _ _ _).trans (setF_cores _ _ _ _ _)
  have hgen (n : Nat) : ctrGen (rstBusy s 1 c) c n = ctrGen s c n := by
    have hne : rCTR_VAL c n ≠ rRST_STAT := by unfold rCTR_VAL coreBase rRST_STAT; omega
    exact (getF_setF_otherReg _ 0 1 1 _ _ hne).trans (getF_setF_otherReg _ 1 3 0 _ _ hne)
  have hfacts := coreResetStart_facts (rstBusy s 1 c) hc hheld
  rw [rstStart, if_pos rfl]
  have hvreg (r : Nat) : vreg (rstBusy s 1 c) c r = vreg s c r := by rw [vreg, coreOf_congr hcores, ← vreg]
  have hsreg (t r : Nat) : sreg (rstBusy s 1 c) c t r = sreg s c t r := by rw [sreg, slotOf_congr hcores, ← sreg]
  generalize rstBusy s 1 c = x at hfacts hgen hvreg hsreg
  generalize coreResetStart x c = y at hfacts
  obtain ⟨h1, h2, h3, h4, hv, hs⟩ := hfacts
  exact ⟨h1, h2, fun n hn => ⟨(h3 n hn).1, ((h3 n hn).2.trans (by rw [hgen]))⟩, h4, fun r => (hv r).trans (hvreg r), fun t r ht => (hs t r ht).trans (hsreg t r)⟩

/-- The answer of a refused request. -/
def Answers (i : Instr) (s : State) (r : Nat) : Prop := ∃ s', exec i s = .next s' ∧ Frame [rRST_STAT] s s' ∧ getF s' rRST_STAT 1 3 = r

theorem answers_of_rstResult {i : Instr} {r : Nat} (hr : r < 8) (he : exec i s = .next (rstResult s r)) : Answers i s r :=
  ⟨_, he, (rstResult_facts s hr).1, (rstResult_facts s hr).2⟩

/-- What an accepted request of a kind begins. -/
def Begins (i : Instr) (s : State) (kind index : Nat) : Prop :=
  ∃ s', exec i s = .next s' ∧ SameMem s s' ∧ s'.rstJob = some (kind, index) ∧ getF s' rRST_STAT 1 3 = 0 ∧ getB s' rRST_STAT 0 = true ∧
    (kind = 1 → s'.resetting = [index] ∧ (∀ t, t < 4 → slotState s' index t = 0) ∧
      (∀ n, n < 48 → ctrValue s' index n = 0 ∧ ctrGen s' index n = (ctrGen s index n + 1) % 16) ∧
      (∀ e, e < 16 → ichState s' index e = 2) ∧ (∀ r, vreg s' index r = vreg s index r) ∧ (∀ t r, t < 4 → sreg s' index t r = sreg s index t r))

theorem begins_of_rstStart {i : Instr} {kind index : Nat} (hk : kind < 4) (hi : index < rstBound kind) (hr : s.resetting = [])
    (he : exec i s = .next (rstStart s kind index)) : Begins i s kind index := by
  obtain ⟨hmem, hjob, hresult, hbusy⟩ := rstStart_facts s hk hi
  refine ⟨_, he, hmem, hjob, hresult, hbusy, fun h1 => ?_⟩
  subst h1
  exact rstStart_core s hi hr

/-- A request by its kind and index, along the order of R432's answers. -/
theorem rstReq_answers {i : Instr} {kind index bound : Nat} (hk : kind < 4) (hb : rstBound kind = bound) (he : exec i s = .next (rstReq s kind index)) (hmax : index < 1024) :
    (bound ≤ index → Answers i s 4) ∧
    (index < bound →
      ((s.rstJob ≠ none ∨ s.resetting ≠ []) → Answers i s 1) ∧
      (s.rstJob = none → s.resetting = [] →
        (kind < 3 → clusterPresent s (rstCluster kind index) = false → Answers i s 3) ∧
        ((kind < 3 → clusterPresent s (rstCluster kind index) = true) →
          (regionUp s (if kind = 3 then 32 + index else rstCluster kind index) = false → Answers i s 5) ∧
          (regionUp s (if kind = 3 then 32 + index else rstCluster kind index) = true →
            (rstRefused s kind index = true → Answers i s 2) ∧ (rstRefused s kind index = false → Begins i s kind index))))) := by
  have hrange : (4 < kind ∨ (kind = 1 ∧ 256 ≤ index) ∨ (kind = 2 ∧ 32 ≤ index) ∨ (kind = 3 ∧ 4 ≤ index)) ↔ bound ≤ index := by
    rw [← hb]
    unfold rstBound
    split
    · omega
    · split
      · omega
      · split <;> omega
  rw [rstReq_eq, if_neg (show ¬ kind = 4 by omega)] at he
  refine ⟨fun hout => ?_, fun hin => ?_⟩
  · rw [if_pos (hrange.2 hout)] at he
    exact answers_of_rstResult (by decide) he
  rw [if_neg fun h => absurd (hrange.1 h) (by omega)] at he
  have hbusy : (s.rstJob.isSome = true ∨ s.resetting ≠ []) ↔ (s.rstJob ≠ none ∨ s.resetting ≠ []) := by rw [Option.isSome_iff_ne_none]
  refine ⟨fun h => ?_, fun hjob hres => ?_⟩
  · rw [if_pos (hbusy.2 h)] at he
    exact answers_of_rstResult (by decide) he
  rw [if_neg (by simp [hjob, hres])] at he
  refine ⟨fun h3 hp => ?_, fun hp => ?_⟩
  · rw [if_pos ⟨h3, hp⟩] at he
    exact answers_of_rstResult (by decide) he
  rw [if_neg fun h => absurd (hp h.1) (by simp [h.2])] at he
  refine ⟨fun hup => ?_, fun hup => ?_⟩
  · rw [if_pos hup] at he
    exact answers_of_rstResult (by decide) he
  rw [if_neg (by simp [hup])] at he
  refine ⟨fun hr => ?_, fun hr => ?_⟩
  · rw [if_pos hr] at he
    exact answers_of_rstResult (by decide) he
  · rw [if_neg (by simp [hr])] at he
    exact begins_of_rstStart hk (hb ▸ hin) hres he

/-- A package cold reset (R430, R434). -/
theorem coldReset_facts (s : State) : (coldReset s).fuses = s.fuses ∧ (coldReset s).pending = s.pending ∧ (∀ a, rdByte (coldReset s) a = 0) ∧
    getR (coldReset s) rLEDGER_COLD = getR s rLEDGER_COLD + 1 ∧ (coldReset s).sec.lifeState = (if s.sec.lifeState = 2 then 1 else s.sec.lifeState) ∧
    (coldReset s).sec.svn = s.sec.svn ∧
    (∀ off, off ∉ [rPWR_STATE, rTHERM_STAT + 4, rBOOT_CTL, rSESS_STATE, rLEDGER_COLD, rTB_CTL + 4, rRAIL_MODE] → getR (coldReset s) off = resetVal off) := by
  have h := powersUp_startup (coldState s)
  have hlife : (coldState s).sec.lifeState ≠ 2 := by
    change (if s.sec.lifeState = 2 then 1 else s.sec.lifeState) ≠ 2
    split
    · decide
    · assumption
  have hzero := rdByte_coldReset s
  rw [coldReset_eq] at hzero ⊢
  generalize startup (coldState s) = x at h hzero
  have hf : x.fuses = s.fuses := h.fuses.trans (by rw [coldState])
  have hp : x.pending = s.pending := h.pending.trans (by rw [coldState])
  have hl : x.sec.lifeState = (if s.sec.lifeState = 2 then 1 else s.sec.lifeState) := h.lifeState hlife
  have hs : x.sec.svn = s.sec.svn := h.svn
  have hcold : getR x rLEDGER_COLD = getR s rLEDGER_COLD + 1 := by rw [h.regs _ (by decide), getR_coldState, cold_coldKept]
  have hr (off : Nat) (ho : off ∉ coldList) : getR x off = resetVal off := by
    have hpwr : off ≠ rPWR_STATE := fun e => ho (e ▸ List.mem_cons_self)
    rw [h.regs _ hpwr, getR_coldState, getR_coldKept_other s _ ho]
    rfl
  exact ⟨hf, hp, hzero, hcold, hl, hs, hr⟩

/-- Settles O42, along the order of R432's answers; a cold reset by what its bring-up may change. -/
theorem resetRequestsAct : Obligations.ResetRequestsAct := by
  unfold Obligations.ResetRequestsAct
  intro src index s h
  have hexec (kind : Nat) (hk : kind ≤ 4) : regTop s src rRST_REQ false (8 + kind + 65536 * index.toNat) = rstReq s kind index.toNat := regTop_rstReq h hk index.isLt
  refine ⟨?_, ?_⟩
  · have hfloe : exec (.rstFloe src index) s = .next (rstReq s 0 index.toNat) := congrArg Host.Outcome.next (hexec 0 (by decide))
    have hcore : exec (.rstCore src index) s = .next (rstReq s 1 index.toNat) := congrArg Host.Outcome.next (hexec 1 (by decide))
    have hcluster : exec (.rstCluster src index) s = .next (rstReq s 2 index.toNat) := congrArg Host.Outcome.next (hexec 2 (by decide))
    have hdie : exec (.rstDie src index) s = .next (rstReq s 3 index.toNat) := congrArg Host.Outcome.next (hexec 3 (by decide))
    rw [List.forall_mem_cons, List.forall_mem_cons, List.forall_mem_cons, List.forall_mem_cons]
    exact ⟨rstReq_answers (kind := 0) (bound := 1024) (by decide) rfl hfloe index.isLt, rstReq_answers (kind := 1) (bound := 256) (by decide) rfl hcore index.isLt, rstReq_answers (kind := 2) (bound := 32) (by decide) rfl hcluster index.isLt,
      rstReq_answers (kind := 3) (bound := 4) (by decide) rfl hdie index.isLt, by simp⟩
  · obtain ⟨hf, hp, hm, hl, hlife, hsvn, hr⟩ := coldReset_facts s
    refine ⟨coldReset s, congrArg Host.Outcome.next (hexec 4 (by decide)), hf, hp, hm, hl, hlife, hsvn, hr, fun hs ht => ?_⟩
    have hvaux : s.pwr.vaux = true := h.1.1
    have htrip : tripped (coldState s) = false := by
      have hc : tripped (coldState s) = tripped (coldKept s {}) := by rw [tripped, getB, getF_coldState, ← getB, ← tripped]
      rw [hc, tripped_coldKept, ht]
    rw [coldReset_eq]
    exact startup_begins hvaux hs htrip rfl

end Sys2Proof.Safety
end

section
/-! SUPPORT. Fabric ports (R326, R327, R347, R348): what their operations keep, and what a port sends in LP. -/

namespace Sys2Proof.Safety

open Sys2Proof.Machine

variable {s s' t : State} {p : Nat}

-- memory and the registers of the ports ----------------------------------------------------------------------------------------------------

/-- Memory and the registers of the fabric ports stand. -/
structure FabKept (s s' : State) : Prop where
  mem : s'.mem = s.mem
  regs : ∀ off, 0x10_0000 ≤ off → off < 0x18_0000 → getR s' off = getR s off

namespace FabKept

theorem refl (s : State) : FabKept s s := ⟨rfl, fun _ _ _ => rfl⟩
theorem trans (h : FabKept s s') (h' : FabKept s' t) : FabKept s t :=
  ⟨h'.mem.trans h.mem, fun off hlo hhi => (h'.regs off hlo hhi).trans (h.regs off hlo hhi)⟩
theorem ite {q : Prop} [Decidable q] (h : FabKept s s') (h' : FabKept s t) : FabKept s (if q then s' else t) := by
  split
  · exact h
  · exact h'
theorem setF (s : State) {off : Nat} (h : off < 0x10_0000 ∨ 0x18_0000 ≤ off) (lo w v : Nat) : FabKept s (Machine.setF s off lo w v) :=
  ⟨setF_mem s off lo w v, fun _ hlo hhi => getR_setF_other s lo w v (by omega)⟩
theorem satF (s : State) {off : Nat} (h : off < 0x10_0000 ∨ 0x18_0000 ≤ off) (lo w n : Nat) : FabKept s (Machine.satF s off lo w n) := setF s h lo w _
theorem sameMem (h : FabKept s s') : SameMem s s' := rdByte_congr h.mem
theorem getF_eq (h : FabKept s s') {off : Nat} (hlo : 0x10_0000 ≤ off) (hhi : off < 0x18_0000) (lo w : Nat) : getF s' off lo w = getF s off lo w := by
  rw [getF, h.regs off hlo hhi, ← getF]
theorem portState (h : FabKept s s') (hp : p < 16) : portState s' p = portState s p :=
  h.getF_eq (by unfold rFAB_STAT portBase; omega) (by unfold rFAB_STAT portBase; omega) 0 3

end FabKept

theorem Noted.mem (h : Noted s s') : s'.mem = s.mem := by obtain ⟨⟨r, tr, ho, pi, rfl⟩, -⟩ := h; rfl
theorem Noted.ports (h : Noted s s') : s'.ports = s.ports := by obtain ⟨⟨r, tr, ho, pi, rfl⟩, -⟩ := h; rfl
theorem Noted.mirror (h : Noted s s') : s'.mirror = s.mirror := by obtain ⟨⟨r, tr, ho, pi, rfl⟩, -⟩ := h; rfl
theorem Noted.fabKept (h : Noted s s') : FabKept s s' := ⟨h.mem, fun off hlo hhi => h.regs off (by unfold LogReg; omega)⟩

theorem Pushed.fabKept (h : Pushed s s') : FabKept s s' := by
  have hregs : ∀ off, 0x10_0000 ≤ off → off < 0x18_0000 → getR s' off = getR s off := fun off _ hhi =>
    h.getR_eq (by unfold ledgerBase; omega) (by unfold ledgerBase; omega)
  obtain ⟨-, r, po, ti, rfl⟩ := h
  exact ⟨rfl, hregs⟩

theorem RegsKeep.fabKept (h : RegsKeep NotMover s s') : FabKept s s' := by
  refine ⟨?_, fun off hlo hhi => h.kept off (.inr ⟨by omega, by omega⟩)⟩
  obtain ⟨⟨r, rfl⟩, -⟩ := h
  rfl

theorem RegsKeep.ports {P : Nat → Prop} (h : RegsKeep P s s') : s'.ports = s.ports := by obtain ⟨⟨r, rfl⟩, -⟩ := h; rfl
theorem RegsKeep.net {P : Nat → Prop} (h : RegsKeep P s s') : s'.net = s.net := by obtain ⟨⟨r, rfl⟩, -⟩ := h; rfl
theorem RegsKeep.mirror {P : Nat → Prop} (h : RegsKeep P s s') : s'.mirror = s.mirror := by obtain ⟨⟨r, rfl⟩, -⟩ := h; rfl

theorem fabKept_setPort (s : State) (p : Nat) (x : PortSt) : FabKept s (setPort s p x) := ⟨setPort_mem s p x, fun off _ _ => getR_congr (setPort_regs s p x) off⟩

theorem ports_satF (s : State) (off lo w n : Nat) : (satF s off lo w n).ports = s.ports := setF_ports s off lo w _
theorem mirror_satF (s : State) (off lo w n : Nat) : (satF s off lo w n).mirror = s.mirror := setF_mirror s off lo w _

theorem portOf_congr (h : s'.ports = s.ports) (p : Nat) : portOf s' p = portOf s p := by rw [portOf, portOf, h]

-- a port's state ------------------------------------------------------------------------------------------------------------------------------

/-- A port's state changes; the causes of the host and of the control cores follow. -/
theorem noted_setPortState (s : State) (p v : Nat) : Noted (setF s (rFAB_STAT p) 0 3 v) (setPortState s p v) := by
  refine (noted_hostIrq _ 9).trans (Noted.foldl (fun x k hk => noted_setF ?_ x 4 1 1) _)
  have := List.mem_range.1 hk
  unfold LogReg rCC_IRQ_STAT rCC_CTL svcBase
  omega

theorem portState_setPortState (s : State) (hp : p < 16) (v : Nat) : portState (setPortState s p v) p = v % 8 :=
  ((noted_setPortState s p v).fabKept.portState hp).trans (getF_setF_same s _ 0 3 v (by decide))

/-- Fields of the port registers beside the state. -/
theorem getF_setPortState (s : State) (p v : Nat) {off lo w : Nat} (hlo : 0x10_0000 ≤ off) (hhi : off < 0x18_0000) (h : off ≠ rFAB_STAT p ∨ 3 ≤ lo) :
    getF (setPortState s p v) off lo w = getF s off lo w := by
  rw [(noted_setPortState s p v).fabKept.getF_eq hlo hhi]
  rcases h with h | h
  · exact getF_setF_otherReg s 0 3 v lo w h
  · exact getF_setF_beside s _ 0 3 v off lo w (by decide) (.inr h)

theorem mem_setPortState (s : State) (p v : Nat) : (setPortState s p v).mem = s.mem := (noted_setPortState s p v).mem.trans (setF_mem s _ _ _ _)
theorem ports_setPortState (s : State) (p v : Nat) : (setPortState s p v).ports = s.ports := (noted_setPortState s p v).ports.trans (setF_ports s _ _ _ _)

-- a port that has nothing to send -----------------------------------------------------------------------------------------------------------

/-- Nothing waits to leave on a port, and its link owes nothing. -/
structure Silent (x : PortSt) : Prop where
  txq : x.txq = []
  ret : x.ret = []
  ack : x.ackDue = false
  nak : x.nakDue = false

theorem portFlush_silent (h : Silent (portOf s p)) : portFlush s p = s := by
  have hdrain : portDrain s p (txFlits (portOf s p)) = s := by rw [txFlits, h.txq]; rfl
  rw [portFlush, hdrain, portIdle, h.ret, h.ack, h.nak]
  simp

theorem portFlush_down (hup : portUp s p = false) : portFlush s p = s := by
  have hdrain (n : Nat) : portDrain s p n = s := by
    cases n with
    | zero => rfl
    | succ n =>
      have hkey : drainKey s p = none := by simp [drainKey, hup]
      rw [portDrain, hkey]
  rw [portFlush, hdrain, portIdle, if_pos hup]

/-- The port that enters UP or UP_HALF with nothing to send. -/
def entered (s : State) (p : Nat) (half : Bool) : PortSt :=
  { out := (portOf s p).out, rx := (portOf s p).rx.map (fun k => { k with flits := 0 }), landed := (portOf s p).landed, since := tbNow s,
    eth := getB s (rFAB_CTL p) 1, half := half }

theorem portEnter_idle (hq : (portOf s p).txq = []) (half : Bool) :
    portEnter s p half = setPortState (setPort (ledReturn s qLINKCRED (usedTotal (portOf s p))) p (entered s p half)) p (if half then 3 else 2) := by
  have h : portEnter s p half = portFlush (setPortState (setPort (ledReturn s qLINKCRED (usedTotal (portOf s p))) p (entered s p half)) p (if half then 3 else 2)) p := by
    unfold portEnter
    dsimp only
    rw [hq]
    rfl
  rw [h]
  refine portFlush_silent ?_
  rw [portOf_congr (ports_setPortState _ p _), portOf_setPort_same]
  exact ⟨rfl, rfl, rfl, rfl⟩

/-- What entry to UP or UP_HALF leaves. -/
theorem portEnter_facts (hp : p < 16) (hq : (portOf s p).txq = []) (half : Bool) :
    (portEnter s p half).mem = s.mem ∧ portState (portEnter s p half) p = (if half then 3 else 2) ∧ portOf (portEnter s p half) p = entered s p half ∧
      (∀ off lo w, 0x10_0000 ≤ off → off < 0x18_0000 → (off ≠ rFAB_STAT p ∨ 3 ≤ lo) → getF (portEnter s p half) off lo w = getF s off lo w) ∧
      getR (portEnter s p half) rMIR_CTL = getR s rMIR_CTL := by
  have hled : RegsKeep NotMover s (ledReturn s qLINKCRED (usedTotal (portOf s p))) := regsKeep_ledReturn s _ _
  rw [portEnter_idle hq]
  generalize ledReturn s qLINKCRED (usedTotal (portOf s p)) = x at hled
  have hk := hled.fabKept.trans (fabKept_setPort x p (entered s p half))
  have hstate : (if half then 3 else 2) % 8 = if half then 3 else 2 := by cases half <;> rfl
  have hmir : getR (setPortState (setPort x p (entered s p half)) p (if half then 3 else 2)) rMIR_CTL = getR s rMIR_CTL :=
    ((noted_setPortState _ p _).regs _ (by unfold LogReg rMIR_CTL; omega)).trans ((getR_setF_other _ _ _ _ (by unfold rMIR_CTL rFAB_STAT portBase; omega)).trans
      ((getR_congr (setPort_regs x p _) _).trans (hled.kept _ (.inr ⟨by decide, by decide⟩))))
  refine ⟨(mem_setPortState _ p _).trans hk.mem, (portState_setPortState _ hp _).trans hstate, ?_, fun off lo w hlo hhi h => ?_, hmir⟩
  · rw [portOf_congr (ports_setPortState _ p _), portOf_setPort_same]
  · rw [getF_setPortState _ p _ hlo hhi h, hk.getF_eq hlo hhi]

-- the loss of a link with nothing under way (R348) ------------------------------------------------------------------------------------------

/-- Nothing of a port is under way, and its loss applies no commit. -/
structure LinkIdle (s : State) (p : Nat) : Prop where
  txq : (portOf s p).txq = []
  tracker : s.tracker = []
  net : ((netLoads s).all fun m => (toPort p m.2).isNone) = true
  mirror : p ≠ 0 ∨ (s.mirror.commits = [] ∧ s.mirror.pendWr = none)

theorem fabKept_applyEnd (h : s.mirror.pendWr = none) : FabKept s (applyEnd s) ∧ (applyEnd s).ports = s.ports := by
  have he : applyEnd s = setF s rMIR_STAT 0 1 0 := by
    have hw : (setF s rMIR_STAT 0 1 0).mirror.pendWr = none := by rw [setF_mirror]; exact h
    rw [applyEnd]
    simp only [hw]
  rw [he]
  exact ⟨FabKept.setF s (by decide) _ _ _, setF_ports s _ _ _ _⟩

/-- The pair's mirror state changes. -/
def withMirror (s : State) (m : MirrorSt) : State := { s with mirror := m }

theorem fabKept_withMirror (s : State) (m : MirrorSt) : FabKept s (withMirror s m) ∧ (withMirror s m).ports = s.ports := ⟨⟨rfl, fun _ _ _ => rfl⟩, rfl⟩

theorem partnerLost_primary (h : mirMode s = 1) : partnerLost s =
    if mirActive s then hostIrq (setF (withMirror (ledReturn (setF s rMIR_CTL 2 1 0) qMIRSEQ s.mirror.unacked.length)
      { s.mirror with active := 0, layout := [], unacked := [], deltas := [], partner := none }) rMIR_STAT 1 1 1) 10
    else withMirror (ledReturn (setF s rMIR_CTL 2 1 0) qMIRSEQ s.mirror.unacked.length) { s.mirror with active := 0, layout := [], unacked := [], deltas := [], partner := none } := by
  unfold partnerLost
  dsimp only
  rw [if_pos h]
  rfl

theorem partnerLost_secondary (h : mirMode s ≠ 1) (hc : s.mirror.commits = []) : partnerLost s =
    applyEnd (withMirror (satF (setF s rMIR_CTL 2 1 0) rMIR_STAT 16 16 s.mirror.log.length)
      { (satF (setF s rMIR_CTL 2 1 0) rMIR_STAT 16 16 s.mirror.log.length).mirror with active := 0, layout := [], log := [], commits := [], partner := none }) := by
  unfold partnerLost
  dsimp only
  rw [if_neg h, hc]
  rfl

theorem fabKept_partnerLost_primary (h : mirMode s = 1) : FabKept s (partnerLost s) ∧ (partnerLost s).ports = s.ports := by
  have h1 : FabKept s (setF s rMIR_CTL 2 1 0) := FabKept.setF s (by decide) _ _ _
  have hp1 := setF_ports s rMIR_CTL 2 1 0
  rw [partnerLost_primary h]
  generalize setF s rMIR_CTL 2 1 0 = w at h1 hp1
  have h2 := regsKeep_ledReturn w qMIRSEQ s.mirror.unacked.length
  generalize ledReturn w qMIRSEQ s.mirror.unacked.length = x at h2
  obtain ⟨h3, hp3⟩ := fabKept_withMirror x { s.mirror with active := 0, layout := [], unacked := [], deltas := [], partner := none }
  generalize withMirror x { s.mirror with active := 0, layout := [], unacked := [], deltas := [], partner := none } = y at h3 hp3
  have hy := (h1.trans h2.fabKept).trans h3
  have hpy : y.ports = s.ports := hp3.trans (h2.ports.trans hp1)
  have hn := noted_hostIrq (setF y rMIR_STAT 1 1 1) 10
  split
  · exact ⟨hy.trans ((FabKept.setF y (by decide) 1 1 1).trans hn.fabKept), hn.ports.trans ((setF_ports y _ _ _ _).trans hpy)⟩
  · exact ⟨hy, hpy⟩

theorem fabKept_partnerLost_secondary (h : mirMode s ≠ 1) (hc : s.mirror.commits = []) (hw : s.mirror.pendWr = none) :
    FabKept s (partnerLost s) ∧ (partnerLost s).ports = s.ports := by
  have h1 : FabKept s (setF s rMIR_CTL 2 1 0) := FabKept.setF s (by decide) _ _ _
  have hp1 := setF_ports s rMIR_CTL 2 1 0
  have hm1 := setF_mirror s rMIR_CTL 2 1 0
  rw [partnerLost_secondary h hc]
  generalize setF s rMIR_CTL 2 1 0 = w at h1 hp1 hm1
  have h2 : FabKept w (satF w rMIR_STAT 16 16 s.mirror.log.length) := FabKept.satF w (by decide) _ _ _
  have hp2 := ports_satF w rMIR_STAT 16 16 s.mirror.log.length
  have hm2 := mirror_satF w rMIR_STAT 16 16 s.mirror.log.length
  generalize satF w rMIR_STAT 16 16 s.mirror.log.length = x at h2 hp2 hm2
  have hwx : x.mirror.pendWr = none := by rw [hm2, hm1, hw]
  obtain ⟨h3, hp3⟩ := fabKept_withMirror x { x.mirror with active := 0, layout := [], log := [], commits := [], partner := none }
  obtain ⟨h4, hp4⟩ := fabKept_applyEnd (s := withMirror x { x.mirror with active := 0, layout := [], log := [], commits := [], partner := none }) hwx
  exact ⟨((h1.trans h2).trans h3).trans h4, hp4.trans (hp3.trans (hp2.trans hp1))⟩

theorem fabKept_partnerLost (hc : s.mirror.commits = []) (hw : s.mirror.pendWr = none) : FabKept s (partnerLost s) ∧ (partnerLost s).ports = s.ports := by
  by_cases h : mirMode s = 1
  · exact fabKept_partnerLost_primary h
  · exact fabKept_partnerLost_secondary h hc hw

/-- The first steps of a loss: the port is DOWN and marked, the event is logged, and its link's state is gone. -/
def linkFallen (s : State) (p cause : Nat) : State :=
  ledReturn (setPort (raiseEv (setF (setPortState s p 0) (rFAB_STAT p) 5 1 1) (p / 4) { cls := cLINKDOWN, sev := 2, home := 1, ukind := 4, uindex := p, detail := cause }) p
    (portDead (portOf s p))) qLINKCRED (usedTotal (portOf s p))

theorem linkFallen_facts (s : State) (hp : p < 16) (cause : Nat) :
    (linkFallen s p cause).mem = s.mem ∧ portState (linkFallen s p cause) p = 0 ∧ getB (linkFallen s p cause) (rFAB_STAT p) 5 = true ∧
      portOf (linkFallen s p cause) p = portDead (portOf s p) ∧ (linkFallen s p cause).net = s.net ∧ (linkFallen s p cause).mirror = s.mirror ∧
      getR (linkFallen s p cause) (rFAB_CTL p) = getR s (rFAB_CTL p) := by
  have hn := noted_setPortState s p 0
  have hst := portState_setPortState s hp 0
  have hnet : (setPortState s p 0).net = s.net := hn.net.trans (setF_net s _ _ _ _)
  have hmir : (setPortState s p 0).mirror = s.mirror := hn.mirror.trans (setF_mirror s _ _ _ _)
  have hmem := mem_setPortState s p 0
  have hctl : getR (setPortState s p 0) (rFAB_CTL p) = getR s (rFAB_CTL p) :=
    (hn.fabKept.regs _ (by unfold rFAB_CTL portBase; omega) (by unfold rFAB_CTL portBase; omega)).trans (getR_setF_other s 0 3 0 (by unfold rFAB_CTL rFAB_STAT; omega))
  unfold linkFallen
  generalize setPortState s p 0 = x at hst hnet hmir hmem hctl
  have hflag : getB (setF x (rFAB_STAT p) 5 1 1) (rFAB_STAT p) 5 = true := getB_setF_same x _ (by decide) 1
  have hst' : portState (setF x (rFAB_STAT p) 5 1 1) p = 0 := (getF_setF_beside x _ 5 1 1 _ 0 3 (by decide) (.inl (by decide))).trans hst
  have hctl' : getR (setF x (rFAB_STAT p) 5 1 1) (rFAB_CTL p) = getR s (rFAB_CTL p) := (getR_setF_other x 5 1 1 (by unfold rFAB_CTL rFAB_STAT; omega)).trans hctl
  have he := noted_raiseEv_unowned (setF x (rFAB_STAT p) 5 1 1) (d := p / 4) (e := { cls := cLINKDOWN, sev := 2, home := 1, ukind := 4, uindex := p, detail := cause })
    (by omega) rfl (show cLINKDOWN < 256 by decide) (show 1 < 4 by decide)
  generalize raiseEv (setF x (rFAB_STAT p) 5 1 1) (p / 4) { cls := cLINKDOWN, sev := 2, home := 1, ukind := 4, uindex := p, detail := cause } = y at he
  have hl := regsKeep_ledReturn (setPort y p (portDead (portOf s p))) qLINKCRED (usedTotal (portOf s p))
  generalize ledReturn (setPort y p (portDead (portOf s p))) qLINKCRED (usedTotal (portOf s p)) = z at hl
  have hk : FabKept (setF x (rFAB_STAT p) 5 1 1) z := (he.fabKept.trans (fabKept_setPort y p _)).trans hl.fabKept
  have hlo : 0x10_0000 ≤ rFAB_STAT p ∧ rFAB_STAT p < 0x18_0000 := by unfold rFAB_STAT portBase; omega
  refine ⟨hk.mem.trans ((setF_mem x _ _ _ _).trans hmem), (hk.portState hp).trans hst', ?_, ?_, ?_, ?_, ?_⟩
  · rw [getB, hk.getF_eq hlo.1 hlo.2, ← getB, hflag]
  · rw [portOf_congr hl.ports, portOf_setPort_same]
  · exact hl.net.trans ((setPort_net y p _).trans (he.net.trans ((setF_net x _ _ _ _).trans hnet)))
  · exact hl.mirror.trans ((setPort_mirror y p _).trans (he.mirror.trans ((setF_mirror x _ _ _ _).trans hmir)))
  · exact (hk.regs _ (by unfold rFAB_CTL portBase; omega) (by unfold rFAB_CTL portBase; omega)).trans hctl'

theorem netLoads_congr (h : s'.net = s.net) : netLoads s' = netLoads s := by rw [netLoads, netLoads, h]

theorem portLost_idle (hst : portState s p ≠ 0) (h : LinkIdle s p) (hp : p < 16) (cause : Nat) :
    portLost s p cause = if p = 0 then partnerLost (netKeep (linkFallen s p cause) fun m => (toPort p m).isNone) else netKeep (linkFallen s p cause) fun m => (toPort p m).isNone := by
  have hway : (netLoads (linkFallen s p cause)).filterMap (fun m => toPort p m.2) = [] := by
    rw [netLoads_congr (linkFallen_facts s hp cause).2.2.2.2.1]
    exact List.filterMap_eq_nil_iff.2 fun m hm => by simpa using List.all_eq_true.1 h.net m hm
  have heq : portLost s p cause = (fun l : List Packet => if p = 0 then partnerLost (l.foldl (fun s k => orphan s p k) (netKeep (linkFallen s p cause) fun m => (toPort p m).isNone))
      else l.foldl (fun s k => orphan s p k) (netKeep (linkFallen s p cause) fun m => (toPort p m).isNone))
      ((portOf s p).txq.flatMap (fun q => q.2.map TxPkt.pkt) ++ (netLoads (linkFallen s p cause)).filterMap fun m => toPort p m.2) := by
    unfold portLost
    dsimp only
    rw [if_neg hst, h.tracker]
    rfl
  rw [heq, hway, h.txq]
  rfl

/-- What the loss of an idle link leaves. -/
theorem portLost_facts (hst : portState s p ≠ 0) (h : LinkIdle s p) (hp : p < 16) (cause : Nat) :
    SameMem s (portLost s p cause) ∧ portState (portLost s p cause) p = 0 ∧ getB (portLost s p cause) (rFAB_STAT p) 5 = true ∧
      portOf (portLost s p cause) p = portDead (portOf s p) ∧ getR (portLost s p cause) (rFAB_CTL p) = getR s (rFAB_CTL p) := by
  obtain ⟨hmem, hstate, hflag, hport, -, hmirror, hctl⟩ := linkFallen_facts s hp cause
  rw [portLost_idle hst h hp]
  generalize linkFallen s p cause = x at hmem hstate hflag hport hmirror hctl
  have hnk : FabKept x (netKeep x fun m => (toPort p m).isNone) ∧ (netKeep x fun m => (toPort p m).isNone).ports = x.ports ∧
      (netKeep x fun m => (toPort p m).isNone).mirror = x.mirror := ⟨⟨rfl, fun _ _ _ => rfl⟩, rfl, rfl⟩
  generalize netKeep x (fun m => (toPort p m).isNone) = y at hnk
  obtain ⟨hky, hpy, hmy⟩ := hnk
  have hend : FabKept x (if p = 0 then partnerLost y else y) ∧ (if p = 0 then partnerLost y else y).ports = x.ports := by
    split
    · rename_i h0
      obtain ⟨hc, hw⟩ := h.mirror.resolve_left fun hn => hn h0
      obtain ⟨hk, hps⟩ := fabKept_partnerLost (s := y) (by rw [hmy, hmirror, hc]) (by rw [hmy, hmirror, hw])
      exact ⟨hky.trans hk, hps.trans hpy⟩
    · exact ⟨hky, hpy⟩
  generalize (if p = 0 then partnerLost y else y) = z at hend
  obtain ⟨hk, hps⟩ := hend
  have hlo : 0x10_0000 ≤ rFAB_STAT p ∧ rFAB_STAT p < 0x18_0000 := by unfold rFAB_STAT portBase; omega
  refine ⟨rdByte_congr (hk.mem.trans hmem), (hk.portState hp).trans hstate, ?_, (portOf_congr hps p).trans hport, ?_⟩
  · rw [getB, hk.getF_eq hlo.1 hlo.2, ← getB, hflag]
  · exact (hk.regs _ (by unfold rFAB_CTL portBase; omega) (by unfold rFAB_CTL portBase; omega)).trans hctl

end Sys2Proof.Safety
end

section
/-! SUPPORT. What a port sends rests on few registers; a packet of one hop in one flit (R327, R334). -/

namespace Sys2Proof.Safety

open Sys2Proof.Machine

variable {s s' t : State} {p : Nat}

-- what transmission rests on, FAB_PORT_CTL apart ----------------------------------------------------------------------------------------------

/-- Two states look the same from a port in what it sends, whatever its FAB_PORT_CTL says. -/
structure LikeLink (p : Nat) (s t : State) : Prop where
  port : portOf t p = portOf s p
  now : tbNow t = tbNow s
  regs : ∀ off ∈ [rFAB_STAT p, rFAB_MAC p, rFAB_MAC p + 4, rFAB_ETH], getR t off = getR s off

namespace LikeLink

/-- Changes that keep those registers on both sides. -/
theorem of_regs {s1 t1 : State} (h : LikeLink p s t) (hp : portOf t1 p = portOf s1 p) (hn : tbNow t1 = tbNow s1)
    (hs : ∀ off ∈ [rFAB_STAT p, rFAB_MAC p, rFAB_MAC p + 4, rFAB_ETH], getR s1 off = getR s off)
    (ht : ∀ off ∈ [rFAB_STAT p, rFAB_MAC p, rFAB_MAC p + 4, rFAB_ETH], getR t1 off = getR t off) : LikeLink p s1 t1 :=
  ⟨hp, hn, fun off ho => (ht off ho).trans ((h.regs off ho).trans (hs off ho).symm)⟩

theorem setPort (h : LikeLink p s t) (x : PortSt) : LikeLink p (setPort s p x) (setPort t p x) :=
  ⟨by rw [portOf_setPort_same, portOf_setPort_same], h.now, h.regs⟩

theorem portUp_eq (h : LikeLink p s t) : portUp t p = portUp s p := by
  simp only [portUp, portState, getF, h.regs (rFAB_STAT p) (by simp)]

theorem emitFlit (h : LikeLink p s t) (f : FlitRec) : LikeLink p (emitFlit s p f) (emitFlit t p f) := by
  have hmac : getR64 t (rFAB_MAC p) = getR64 s (rFAB_MAC p) := by rw [getR64, h.regs _ (by simp), h.regs _ (by simp), ← getR64]
  have heth : getF t rFAB_ETH 0 16 = getF s rFAB_ETH 0 16 := by rw [getF, h.regs _ (by simp), ← getF]
  simp only [Machine.emitFlit, h.port, hmac, heth]
  exact h.setPort _

theorem sendNumbered (h : LikeLink p s t) (f : FlitRec) : LikeLink p (sendNumbered s p f) (sendNumbered t p f) := by
  simp only [Machine.sendNumbered, h.port, h.now]
  exact (h.setPort _).emitFlit f

theorem drainOne (hp : p < 16) (h : LikeLink p s t) (k : Nat) : LikeLink p (drainOne s p k) (drainOne t p k) := by
  cases hq : txOf (portOf s p) k with
  | nil =>
    rw [drainOne_nil hq, drainOne_nil (h.port ▸ hq)]
    exact h
  | cons x q =>
    have hflit : packetFlit t (portOf s p) k x = packetFlit s (portOf s p) k x := by simp only [packetFlit, stampTime, h.now]
    rw [drainOne_cons hq, drainOne_cons (h.port ▸ hq), h.port, hflit]
    have hnote : LikeLink p (noteTimeReq (Machine.setPort s p (portSent (portOf s p) k x q)) x.pkt.hdr.typ (portOf s p).nextSeq)
        (noteTimeReq (Machine.setPort t p (portSent (portOf s p) k x q)) x.pkt.hdr.typ (portOf s p).nextSeq) := by
      have hset := h.setPort (portSent (portOf s p) k x q)
      unfold noteTimeReq
      split
      · exact ⟨hset.port, hset.now, hset.regs⟩
      · exact hset
    have hsend := hnote.sendNumbered (packetFlit s (portOf s p) k x)
    have hled (u : State) : ∀ off ∈ [rFAB_STAT p, rFAB_MAC p, rFAB_MAC p + 4, rFAB_ETH], getR (Machine.ledIssue u qLINKCRED 1) off = getR u off := fun off ho => by
      refine (transmits_ledIssue u 1).frame.getR_eq ?_
      simp only [List.mem_cons, List.not_mem_nil, or_false] at ho
      simp only [linkRegs, List.mem_cons, List.not_mem_nil, or_false]
      unfold rFAB_STAT rFAB_MAC portBase rFAB_ETH at ho
      unfold ledgerBase
      omega
    exact hsend.of_regs hsend.port hsend.now (hled _) (hled _)

theorem portDrain (hp : p < 16) (h : LikeLink p s t) (n : Nat) : LikeLink p (portDrain s p n) (portDrain t p n) := by
  induction n generalizing s t with
  | zero => exact h
  | succ n ih =>
    have hkey : drainKey t p = drainKey s p := by simp only [drainKey, h.port, h.portUp_eq]
    rw [Machine.portDrain, Machine.portDrain, hkey]
    cases drainKey s p with
    | none => exact h
    | some k => exact ih (h.drainOne hp k)

theorem portIdle (h : LikeLink p s t) : LikeLink p (portIdle s p) (portIdle t p) := by
  simp only [Machine.portIdle, h.port, h.portUp_eq]
  split
  · exact h
  · split
    · exact h.sendNumbered _
    · split
      · exact (h.setPort _).emitFlit _
      · exact h

theorem txPush (hp : p < 16) (h : LikeLink p s t) (cls : Nat) (k : Packet) : LikeLink p (txPush s p cls k) (txPush t p cls k) := by
  simp only [Machine.txPush, Machine.portFlush, h.port, portOf_setPort_same]
  exact ((h.setPort _).portDrain hp _).portIdle

end LikeLink

-- a flit and what it says ------------------------------------------------------------------------------------------------------------------------

/-- The returned credits of a link header. -/
theorem creditField (f : FlitRec) : ∃ k, (List.range 8).foldl (fun a i => a + 2 ^ (32 + 4 * i) * (f.credits.getD i 0 % 16)) 0 = 2 ^ 32 * k := by
  refine ⟨f.credits.getD 0 0 % 16 + 2 ^ 4 * (f.credits.getD 1 0 % 16) + 2 ^ 8 * (f.credits.getD 2 0 % 16) + 2 ^ 12 * (f.credits.getD 3 0 % 16) +
    2 ^ 16 * (f.credits.getD 4 0 % 16) + 2 ^ 20 * (f.credits.getD 5 0 % 16) + 2 ^ 24 * (f.credits.getD 6 0 % 16) + 2 ^ 28 * (f.credits.getD 7 0 % 16), ?_⟩
  simp only [show List.range 8 = [0, 1, 2, 3, 4, 5, 6, 7] from rfl, List.foldl_cons, List.foldl_nil]
  omega

/-- A flag of a link header, as a bit. -/
theorem flag_eq (b : Bool) (n : Nat) : (if b then n else 0) = n * b.toNat := by cases b <;> simp

theorem flag_of_toNat (b : Bool) : (b.toNat == 1) = b := by cases b <;> rfl

/-- A flit that is whole is read as it was sent: its lane, its place in its packet and its content. -/
theorem flitOf_whole (f : FlitRec) (hlen : f.content.length = 240) :
    ∃ g, flitOf (flitBytes f) = some g ∧ g.vl = f.vl % 4 ∧ g.sop = f.sop ∧ g.eop = f.eop ∧ g.idle = f.idle ∧ g.content = f.content := by
  obtain ⟨k, hk⟩ := creditField f
  have hbytes : ∃ h, flitBytes f = (byteRun 8 h ++ f.content) ++ byteRun 8 (crc64 (byteRun 8 h ++ f.content)) ∧
      h = f.seq % 4096 + 2 ^ 12 * (f.vl % 4) + 2 ^ 14 * (f.cls % 2) + 2 ^ 15 * f.sop.toNat + 2 ^ 16 * f.eop.toNat + 2 ^ 17 * f.idle.toNat +
        2 ^ 18 * (f.ackSeq % 4096) + 2 ^ 30 * f.nak.toNat + 2 ^ 32 * k := by
    refine ⟨_, ?_, rfl⟩
    rw [← hk, ← flag_eq, ← flag_eq, ← flag_eq, ← flag_eq, flitBytes, hlen, Nat.sub_self, List.replicate_zero, List.append_nil]
  obtain ⟨h, hflit, hh⟩ := hbytes
  have hhead : (byteRun 8 h).length = 8 := Tests.byteRun_length 8 h
  have hwhole : (byteRun 8 h ++ f.content).length = 248 := by rw [List.length_append, hhead, hlen]
  have htake : (byteRun 8 h ++ f.content).take 8 = byteRun 8 h := by rw [← hhead]; exact List.take_left
  have hdrop : ((byteRun 8 h ++ f.content).drop 8).take 240 = f.content := by
    have hd : (byteRun 8 h ++ f.content).drop 8 = f.content := by rw [← hhead]; exact List.drop_left
    rw [hd, ← hlen, List.take_length]
  have hs := f.sop.toNat_lt
  have he := f.eop.toNat_lt
  have hi := f.idle.toNat_lt
  have hn := f.nak.toNat_lt
  refine ⟨Tests.headOf (byteRun 8 h ++ f.content), by rw [hflit, Tests.flitOf_append hwhole], ?_, ?_, ?_, ?_, hdrop⟩
  · change bits (runValue ((byteRun 8 h ++ f.content).take 8)) 12 2 = _
    rw [htake, Tests.runValue_eight, bits_eq_div_mod]
    omega
  · change (bits (runValue ((byteRun 8 h ++ f.content).take 8)) 15 1 == 1) = _
    have hb : h % 2 ^ 64 / 2 ^ 15 % 2 ^ 1 = f.sop.toNat := by omega
    rw [htake, Tests.runValue_eight, bits_eq_div_mod, hb, flag_of_toNat]
  · change (bits (runValue ((byteRun 8 h ++ f.content).take 8)) 16 1 == 1) = _
    have hb : h % 2 ^ 64 / 2 ^ 16 % 2 ^ 1 = f.eop.toNat := by omega
    rw [htake, Tests.runValue_eight, bits_eq_div_mod, hb, flag_of_toNat]
  · change (bits (runValue ((byteRun 8 h ++ f.content).take 8)) 17 1 == 1) = _
    have hb : h % 2 ^ 64 / 2 ^ 17 % 2 ^ 1 = f.idle.toNat := by omega
    rw [htake, Tests.runValue_eight, bits_eq_div_mod, hb, flag_of_toNat]

-- a packet of one hop ------------------------------------------------------------------------------------------------------------------------------

/-- A WAKE packet. -/
def wakePkt (dst src : Nat) : Packet := ⟨mkHdr 11 dst src 0 0 0 0, [], []⟩

/-- The content of its one flit. -/
def wakeContent (dst src : Nat) : List Byte := byteRun 8 (11 + 2 ^ 8 * (dst % 65536) + 2 ^ 24 * (src % 65536)) ++ List.replicate 232 0

theorem byteRun_zero (n : Nat) : byteRun n 0 = List.replicate n 0 := by
  induction n with
  | zero => rfl
  | succ n ih => rw [byteRun, Nat.zero_div, ih, List.replicate_succ]; rfl

theorem pktBytes_wakePkt (dst src : Nat) : pktBytes (wakePkt dst src) = byteRun 8 (11 + 2 ^ 8 * (dst % 65536) + 2 ^ 24 * (src % 65536)) ++ List.replicate 24 0 := by
  have hwords : hdrWords (mkHdr 11 dst src 0 0 0 0) = [11 + 2 ^ 8 * (dst % 65536) + 2 ^ 24 * (src % 65536), 0, 0, 0] := by simp [hdrWords, mkHdr]
  have h : pktBytes (wakePkt dst src) = (hdrWords (mkHdr 11 dst src 0 0 0 0)).flatMap (byteRun 8) ++ [] ++ maskBytes [] := by rw [pktBytes, wakePkt]
  have hmask : maskBytes [] = [] := by simp [maskBytes]
  rw [h, hmask, hwords, List.flatMap_cons, List.flatMap_cons, List.flatMap_cons, List.flatMap_cons, List.flatMap_nil, byteRun_zero]
  simp only [List.append_nil, List.replicate_append_replicate]

theorem pktFlits_wakePkt (dst src : Nat) : (pktFlits (wakePkt dst src)).headD [] = wakeContent dst src := by
  have hlen : (pktBytes (wakePkt dst src)).length = 32 := by rw [pktBytes_wakePkt, List.length_append, Tests.byteRun_length, List.length_replicate]
  have htake : (pktBytes (wakePkt dst src)).take 240 = pktBytes (wakePkt dst src) := List.take_of_length_le (by omega)
  have h : (pktFlits (wakePkt dst src)).headD [] = ((pktBytes (wakePkt dst src)).drop (240 * 0)).take 240 ++
      List.replicate (240 - (((pktBytes (wakePkt dst src)).drop (240 * 0)).take 240).length) 0 := by
    unfold pktFlits
    dsimp only
    rw [hlen]
    rfl
  rw [h, Nat.mul_zero, List.drop_zero, htake, hlen, pktBytes_wakePkt, List.append_assoc, List.replicate_append_replicate]
  rfl

theorem length_wakeContent (dst src : Nat) : (wakeContent dst src).length = 240 := by rw [wakeContent, List.length_append, Tests.byteRun_length, List.length_replicate]

/-- A packet with a given header, from its bytes. -/
def pktWith (h : PktHdr) (bs : List Byte) : Packet :=
  ⟨h, (bs.drop 32).take (if h.typ = 2 then 0 else h.len), if h.typ = 12 then maskOf h.len ((bs.drop 32).drop (if h.typ = 2 then 0 else h.len)) else []⟩

theorem pktOf_eq (bs : List Byte) : pktOf bs = pktWith (hdrOf (runValue ((bs.drop (8 * 0)).take 8)) (runValue ((bs.drop (8 * 1)).take 8))
    (runValue ((bs.drop (8 * 2)).take 8)) (runValue ((bs.drop (8 * 3)).take 8))) bs := rfl

/-- The content is read as the packet. -/
theorem pktOf_wakeContent {dst src : Nat} (hd : dst < 65536) (hs : src < 65536) : pktOf (wakeContent dst src) = wakePkt dst src := by
  have hw0 : runValue (((wakeContent dst src).drop (8 * 0)).take 8) = 11 + 2 ^ 8 * dst + 2 ^ 24 * src := by
    have ht : ((wakeContent dst src).drop (8 * 0)).take 8 = byteRun 8 (11 + 2 ^ 8 * (dst % 65536) + 2 ^ 24 * (src % 65536)) := rfl
    rw [ht, Tests.runValue_eight]
    omega
  have hw (i : Nat) (hi : i = 1 ∨ i = 2 ∨ i = 3) : runValue (((wakeContent dst src).drop (8 * i)).take 8) = 0 := by
    obtain rfl | rfl | rfl := hi
    · rfl
    · rfl
    · rfl
  have hh : hdrOf (11 + 2 ^ 8 * dst + 2 ^ 24 * src) 0 0 0 = mkHdr 11 dst src 0 0 0 0 := by
    have h1 : bits (11 + 2 ^ 8 * dst + 2 ^ 24 * src) 0 4 = 11 := by rw [bits_eq_div_mod]; omega
    have h2 : bits (11 + 2 ^ 8 * dst + 2 ^ 24 * src) 4 4 = 0 := by rw [bits_eq_div_mod]; omega
    have h3 : bits (11 + 2 ^ 8 * dst + 2 ^ 24 * src) 8 16 = dst := by rw [bits_eq_div_mod]; omega
    have h4 : bits (11 + 2 ^ 8 * dst + 2 ^ 24 * src) 24 16 = src := by rw [bits_eq_div_mod]; omega
    have h5 : bits (11 + 2 ^ 8 * dst + 2 ^ 24 * src) 40 16 = 0 := by rw [bits_eq_div_mod]; omega
    have h6 : bits (11 + 2 ^ 8 * dst + 2 ^ 24 * src) 56 4 = 0 := by rw [bits_eq_div_mod]; omega
    rw [hdrOf, h1, h2, h3, h4, h5, h6]
    rfl
  rw [pktOf_eq, hw0, hw 1 (by simp), hw 2 (by simp), hw 3 (by simp), hh]
  rfl

end Sys2Proof.Safety
end

section
/-! PROOF. O48: fabric ports train, fall and wake (R326, R327, R347, R348). -/

namespace Sys2Proof.Safety

open Sys2Proof.Machine

variable {s s' t : State} {src : Src} {p : Nat}

-- FAB_PORT_CTL -------------------------------------------------------------------------------------------------------------------------------

theorem regTop_fabCtl (hp : p < 16) (h : Served s src (rFAB_CTL p)) {v : Nat} (hv : v < 2 ^ 32) : regTop s src (rFAB_CTL p) false v = fabCtl s p v := by
  have hb : rFAB_CTL p = 0x10_0000 + p * 0x100 := rfl
  have hport : (rFAB_CTL p - 0x10_0000) / 0x100 = p := by rw [hb]; omega
  rw [regTop_of_served h (by unfold rFAB_CTL portBase; omega) (by unfold rFAB_CTL portBase; omega), writeWord, if_neg (by rw [hb, rPKG_ID]; omega),
    if_neg (by simp only [inSessBlock, hb, Bool.and_eq_true, decide_eq_true_eq]; omega), if_neg (by rw [hb]; omega), if_neg (by rw [hb]; omega), if_neg (by rw [hb]; omega),
    if_pos (by rw [hb]; omega), hport, BitVec.toNat_ofNat, Nat.mod_eq_of_lt hv]

/-- The register as a write leaves it. -/
def ctlSet (s : State) (p v : Nat) : State := setR s (rFAB_CTL p) (BitVec.ofNat 32 v &&& 0xFFF3)

/-- The port's state once PORT_EN has acted. -/
def ctlActed (s : State) (p v : Nat) : State :=
  if bits v 0 1 = 1 then (if portState (ctlSet s p v) p = 0 then setPortState (ctlSet s p v) p 1 else ctlSet s p v) else portLost (ctlSet s p v) p 0

theorem fabCtl_eq (s : State) (p v : Nat) : fabCtl s p v = if bits v 2 1 = 1 then wakeSend (ctlActed s p v) p else ctlActed s p v := rfl

theorem getB_ctlSet (s : State) (p : Nat) {v : Nat} (hv : v < 2 ^ 32) : getB (ctlSet s p v) (rFAB_CTL p) 0 = (bits v 0 1 == 1) := by
  rw [ctlSet, getB_eq_beq, getF, getR_setR_same, BitVec.toNat_and, BitVec.toNat_ofNat, Nat.mod_eq_of_lt hv, bits_and_of_ones _ _ _ _ (by decide)]

theorem getR_ctlSet (s : State) (p v : Nat) {off : Nat} (h : off ≠ rFAB_CTL p) : getR (ctlSet s p v) off = getR s off := getR_setR_other s _ h

theorem portState_ctlSet (s : State) (p v : Nat) : portState (ctlSet s p v) p = portState s p := by
  rw [portState, getF, getR_ctlSet s p v (by unfold rFAB_STAT rFAB_CTL; omega), ← getF, ← portState]

theorem mem_ctlSet (s : State) (p v : Nat) : (ctlSet s p v).mem = s.mem := setR_mem s _ _
theorem ports_ctlSet (s : State) (p v : Nat) : (ctlSet s p v).ports = s.ports := setR_ports s _ _

theorem ownPkg_ctlSet (s : State) (hp : p < 16) (v : Nat) : ownPkg (ctlSet s p v) = ownPkg s := by
  rw [ownPkg, getF, getR_ctlSet s p v (by unfold rPKG_ID rFAB_CTL portBase; omega), ← getF, ← ownPkg]

theorem peer_ctlSet (s : State) (p v : Nat) : getF (ctlSet s p v) (rFAB_STAT p) 16 16 = getF s (rFAB_STAT p) 16 16 := by
  rw [getF, getR_ctlSet s p v (by unfold rFAB_STAT rFAB_CTL; omega), ← getF]

/-- FAB_PORT_CTL as it is written back holds no PORT_EN, and its WAKE bit is the register's. -/
theorem fabCtlNow_facts (s : State) (p : Nat) : fabCtlNow s p < 2 ^ 16 ∧ fabCtlNow s p % 2 = 0 ∧ fabCtlNow s p / 4 % 2 = getF s (rFAB_CTL p) 2 1 := by
  have hlt : getF s (rFAB_CTL p) 1 15 < 2 ^ 15 := getF_lt s _ 1 15
  refine ⟨by unfold fabCtlNow; omega, by unfold fabCtlNow; omega, ?_⟩
  unfold fabCtlNow getF
  rw [bits_eq_div_mod, bits_eq_div_mod]
  omega

-- WAKE -----------------------------------------------------------------------------------------------------------------------------------------

theorem fabKept_wakeSend (s : State) (p : Nat) : FabKept s (wakeSend s p) :=
  FabKept.ite (FabKept.refl s) (FabKept.ite (pushed_emitFlit s p _).fabKept (pushed_txPush s p 0 _).fabKept)

theorem hopPacket_wake (s : State) (p : Nat) : hopPacket s p 11 0 = wakePkt (getF s (rFAB_STAT p) 16 16) (ownPkg s) := rfl

theorem wakeSend_up (h0 : portState s p ≠ 0) (h4 : portState s p ≠ 4) : wakeSend s p = txPush s p 0 (wakePkt (getF s (rFAB_STAT p) 16 16) (ownPkg s)) := by
  rw [← hopPacket_wake]
  unfold wakeSend
  rw [if_neg h0, if_neg h4]

/-- The flit that carries WAKE in LP. -/
def wakeFlit (s : State) (p : Nat) : FlitRec :=
  { nextFlit (portOf s p) with vl := 2, sop := true, eop := true, credits := List.replicate 8 0,
                               content := (pktFlits (wakePkt (getF s (rFAB_STAT p) 16 16) (ownPkg s))).headD [] }

theorem wakeSend_lp (h4 : portState s p = 4) : wakeSend s p = emitFlit s p (wakeFlit s p) := by
  unfold wakeSend
  rw [if_neg (by omega), if_pos h4]
  rfl

theorem out_emitFlit (he : (portOf s p).eth = false) (f : FlitRec) : (portOf (emitFlit s p f) p).out = (portOf s p).out ++ [flitBytes f] := by
  unfold emitFlit
  rw [portOf_setPort_same]
  dsimp only
  rw [he, if_neg Bool.false_ne_true]

theorem flitOf_wakeFlit (s : State) (p : Nat) : ∃ f, flitOf (flitBytes (wakeFlit s p)) = some f ∧ (f.vl, f.sop, f.eop, f.idle) = (2, true, true, false) ∧
    pktOf f.content = wakePkt (getF s (rFAB_STAT p) 16 16) (ownPkg s) := by
  have hcontent : (wakeFlit s p).content = wakeContent (getF s (rFAB_STAT p) 16 16) (ownPkg s) := pktFlits_wakePkt _ _
  obtain ⟨f, hf, hvl, hsop, heop, hidle, hc⟩ := flitOf_whole (wakeFlit s p) (by rw [hcontent, length_wakeContent])
  refine ⟨f, hf, ?_, ?_⟩
  · rw [hvl, hsop, heop, hidle]
    rfl
  · rw [hc, hcontent]
    exact pktOf_wakeContent (getF_lt s _ 16 16) (getF_lt s rPKG_ID 0 16)

-- the check of the mirror pair at training (R350) --------------------------------------------------------------------------------------------------

theorem mirUnpair_eq (s : State) : mirUnpair s = withMirror (setF s rMIR_CTL 2 1 0) { (setF s rMIR_CTL 2 1 0).mirror with active := 0, layout := [] } := rfl

theorem fabKept_mirUnpair (s : State) : FabKept s (mirUnpair s) ∧ (mirUnpair s).ports = s.ports := by
  have h := fabKept_withMirror (setF s rMIR_CTL 2 1 0) { (setF s rMIR_CTL 2 1 0).mirror with active := 0, layout := [] }
  rw [mirUnpair_eq]
  exact ⟨(FabKept.setF s (by decide) _ _ _).trans h.1, h.2.trans (setF_ports s _ _ _ _)⟩

theorem fabKept_mirTell (s : State) : FabKept s (mirTell s) ∧ (mirTell s).mirror = s.mirror ∧ (portOf (mirTell s) 0).rxSeq = (portOf s 0).rxSeq := by
  unfold mirTell
  split
  · have h := pushed_sendNumbered s 0 { nextFlit (portOf s 0) with vl := 3, idle := true, content := sayBytes (mirSay s) }
    refine ⟨h.fabKept, h.mirror, ?_⟩
    unfold sendNumbered emitFlit
    rw [portOf_setPort_same, portOf_setPort_same]
  · exact ⟨FabKept.refl s, rfl, rfl⟩

/-- With no statement from the partner the check leaves what port 0 expects. -/
theorem fabKept_mirCheck (h : s.mirror.partner = none) : FabKept s (mirCheck s) ∧ (portOf (mirCheck s) 0).rxSeq = (portOf s 0).rxSeq := by
  have hbad : FabKept s (if mirMode s ≠ 0 ∧ (mirEnabled s ≠ mirPassing s ∨ mirLogOk s = false) then setF s rMIR_STAT 3 1 1 else s) ∧
      (if mirMode s ≠ 0 ∧ (mirEnabled s ≠ mirPassing s ∨ mirLogOk s = false) then setF s rMIR_STAT 3 1 1 else s).ports = s.ports ∧
      (if mirMode s ≠ 0 ∧ (mirEnabled s ≠ mirPassing s ∨ mirLogOk s = false) then setF s rMIR_STAT 3 1 1 else s).mirror = s.mirror := by
    split
    · exact ⟨FabKept.setF s (by decide) _ _ _, setF_ports s _ _ _ _, setF_mirror s _ _ _ _⟩
    · exact ⟨FabKept.refl s, rfl, rfl⟩
  unfold mirCheck
  dsimp only
  generalize (if mirMode s ≠ 0 ∧ (mirEnabled s ≠ mirPassing s ∨ mirLogOk s = false) then setF s rMIR_STAT 3 1 1 else s) = x at hbad
  obtain ⟨hx, hpx, hmx⟩ := hbad
  obtain ⟨hy, hmy, hry⟩ := fabKept_mirTell x
  generalize mirTell x = y at hy hmy hry
  have hnone : y.mirror.partner = none := by rw [hmy, hmx, h]
  have hagree : mirAgree y = mirUnpair y := by
    unfold mirAgree
    simp only [hnone]
  obtain ⟨hz, hpz⟩ := fabKept_mirUnpair y
  rw [hagree]
  exact ⟨(hx.trans hy).trans hz, by rw [portOf_congr hpz, hry, portOf_congr hpx]⟩

/-- What training has found out. -/
def peerSeen (s : State) (p pkg port : Nat) : State := setF (setF (setF s (rFAB_STAT p) 16 16 pkg) (rFAB_STAT p + 4) 0 4 port) (rFAB_STAT p) 3 1 0

/-- The partner's statement is forgotten. -/
def partnerless (s : State) : State := withMirror s { s.mirror with partner := none }

theorem trainingDoneRun_eq {lo hi : Bool} (hst : portState s p = 1) (h : (lo || hi) = true) (pkg port : Nat) :
    trainingDoneRun s p lo hi pkg port = if p = 0 ∧ mirMode (portEnter (peerSeen s p pkg port) p (!(lo && hi))) ≠ 0
      then mirCheck (partnerless (portEnter (peerSeen s p pkg port) p (!(lo && hi)))) else portEnter (peerSeen s p pkg port) p (!(lo && hi)) := by
  have hno : ¬ (portState s p ≠ 1 ∨ (!lo && !hi) = true) := by
    rw [not_or]
    refine ⟨by simp [hst], ?_⟩
    cases lo <;> cases hi <;> simp_all
  unfold trainingDoneRun
  rw [if_neg hno]
  rfl

theorem trainingDone_facts {lo hi : Bool} (hp : p < 16) (hq : (portOf s p).txq = []) (hst : portState s p = 1) (h : (lo || hi) = true) {pkg port : Nat}
    (hpkg : pkg < 2 ^ 16) (hport : port < 2 ^ 4) :
    SameMem s (trainingDoneRun s p lo hi pkg port) ∧ portState (trainingDoneRun s p lo hi pkg port) p = (if lo && hi then 2 else 3) ∧
      getF (trainingDoneRun s p lo hi pkg port) (rFAB_STAT p) 16 16 = pkg ∧ getF (trainingDoneRun s p lo hi pkg port) (rFAB_STAT p + 4) 0 4 = port ∧
      (portOf (trainingDoneRun s p lo hi pkg port) p).rxSeq = 0 ∧
      (p ≠ 0 ∨ mirMode s = 0 → (portOf (trainingDoneRun s p lo hi pkg port) p).nextSeq = 0 ∧ (portOf (trainingDoneRun s p lo hi pkg port) p).replay = [] ∧
        (portOf (trainingDoneRun s p lo hi pkg port) p).used = []) := by
  rw [trainingDoneRun_eq hst h]
  have hstat : 0x10_0000 ≤ rFAB_STAT p ∧ rFAB_STAT p + 4 < 0x18_0000 := by unfold rFAB_STAT portBase; omega
  have hseen1 : getF (peerSeen s p pkg port) (rFAB_STAT p) 16 16 = pkg := by
    rw [peerSeen, getF_setF_beside _ _ 3 1 0 _ 16 16 (by decide) (.inr (by decide)), getF_setF_otherReg _ _ _ _ _ _ (show rFAB_STAT p ≠ rFAB_STAT p + 4 by omega),
      getF_setF_same _ _ _ _ _ (by decide), Nat.mod_eq_of_lt hpkg]
  have hseen2 : getF (peerSeen s p pkg port) (rFAB_STAT p + 4) 0 4 = port := by
    rw [peerSeen, getF_setF_otherReg _ _ _ _ _ _ (show rFAB_STAT p + 4 ≠ rFAB_STAT p by omega), getF_setF_same _ _ _ _ _ (by decide), Nat.mod_eq_of_lt hport]
  have hmem : (peerSeen s p pkg port).mem = s.mem := (setF_mem _ _ _ _ _).trans ((setF_mem _ _ _ _ _).trans (setF_mem _ _ _ _ _))
  have hports : (peerSeen s p pkg port).ports = s.ports := (setF_ports _ _ _ _ _).trans ((setF_ports _ _ _ _ _).trans (setF_ports _ _ _ _ _))
  have hmir : mirMode (peerSeen s p pkg port) = mirMode s := by
    have h1 : rMIR_CTL ≠ rFAB_STAT p ∧ rMIR_CTL ≠ rFAB_STAT p + 4 := by unfold rMIR_CTL; omega
    exact (getF_setF_otherReg _ _ _ _ _ _ h1.1).trans ((getF_setF_otherReg _ _ _ _ _ _ h1.2).trans (getF_setF_otherReg _ _ _ _ _ _ h1.1))
  generalize peerSeen s p pkg port = x at hseen1 hseen2 hmem hports hmir
  obtain ⟨hm, hstate, hport', hf, hctl⟩ := portEnter_facts hp (by rw [portOf_congr hports, hq]) (!(lo && hi)) (s := x)
  have hmir' : mirMode (portEnter x p (!(lo && hi))) = mirMode s := by rw [mirMode, getF, hctl, ← getF, ← mirMode, hmir]
  generalize portEnter x p (!(lo && hi)) = y at hm hstate hport' hf hmir'
  have hhalf : (if (!(lo && hi)) = true then 3 else 2) = if (lo && hi) = true then 2 else 3 := by cases lo && hi <;> rfl
  have hy1 : getF y (rFAB_STAT p) 16 16 = pkg := (hf _ 16 16 hstat.1 (by omega) (.inr (by decide))).trans hseen1
  have hy2 : getF y (rFAB_STAT p + 4) 0 4 = port := (hf _ 0 4 (by omega) hstat.2 (.inl (by omega))).trans hseen2
  by_cases hc : p = 0 ∧ mirMode y ≠ 0
  · rw [if_pos hc]
    obtain ⟨hk, hps⟩ := fabKept_withMirror y { y.mirror with partner := none }
    obtain ⟨hk', hrx⟩ := fabKept_mirCheck (s := partnerless y) rfl
    have hall : FabKept y (mirCheck (partnerless y)) := hk.trans hk'
    refine ⟨rdByte_congr (hall.mem.trans (hm.trans hmem)), (hall.portState hp).trans (hstate.trans hhalf), (hall.getF_eq hstat.1 (by omega) _ _).trans hy1,
      (hall.getF_eq (by omega) hstat.2 _ _).trans hy2, ?_, fun hn => absurd hn ?_⟩
    · have hport0 : portOf (partnerless y) 0 = portOf y p := (portOf_congr hps 0).trans (by rw [hc.1])
      rw [hc.1, hrx, hport0, hport']
      rfl
    · rw [← hmir']
      exact fun hn => hn.elim (fun h0 => h0 hc.1) fun h0 => hc.2 h0
  · rw [if_neg hc, hport']
    exact ⟨rdByte_congr (hm.trans hmem), hstate.trans hhalf, hy1, hy2, rfl, fun _ => ⟨rfl, rfl, rfl⟩⟩

-- WAKE that arrives in SLEEP (R313, R327) ------------------------------------------------------------------------------------------------------------

theorem waking_pmbSend (s : State) (d : Nat) (f : Nat → PmbOp) : (pmbSend s d f).pwr.waking = s.pwr.waking := by
  unfold pmbSend
  split
  · rfl
  · rfl

theorem waking_railUp (s : State) (d : Nat) : (railUp s d).pwr.waking = s.pwr.waking := by
  rw [railUp, waking_pmbSend, railTo, waking_pmbSend]
  rfl

theorem waking_railsUp (s : State) : (railsUp s).pwr.waking = s.pwr.waking := by
  rw [railsUp_eq]
  exact List.foldlRecOn (motive := fun t : State => t.pwr.waking = s.pwr.waking) _ _ rfl fun t h d _ => (waking_railUp t d).trans h

/-- A wake that has been noted. -/
def wakeNoted (s : State) (w : WakeSrc) : State :=
  let s1 := setF s rPWR_STATE 8 4 (wakeCode w)
  { s1 with pwr := { s1.pwr with waking := true, latched := none, wakeOut := s1.pwr.wakeOut || (w != .pcie && !s1.host.linkUp) } }

theorem wakeBegin_eq (s : State) (w : WakeSrc) : wakeBegin s w = if (wakeNoted s w).pwr.off then startup (wakeNoted s w) else pwrTrans (railsUp (wakeNoted s w)) true := rfl

theorem wakeNoted_facts (s : State) (w : WakeSrc) : (wakeNoted s w).mem = s.mem ∧ (wakeNoted s w).ports = s.ports ∧ (wakeNoted s w).pwr.waking = true ∧
    (wakeNoted s w).pwr.off = s.pwr.off ∧ getF (wakeNoted s w) rPWR_STATE 8 4 = wakeCode w % 16 :=
  ⟨setF_mem s rPWR_STATE 8 4 (wakeCode w), setF_ports s rPWR_STATE 8 4 (wakeCode w), rfl,
    show (setF s rPWR_STATE 8 4 (wakeCode w)).pwr.off = s.pwr.off from congrArg PowerSt.off (setF_pwr s rPWR_STATE 8 4 (wakeCode w)), getF_setF_same s _ 8 4 _ (by decide)⟩

/-- A wake from SLEEP or DEEP begins. -/
theorem wakeBegin_facts (h : s.pwr.off = false) (w : WakeSrc) :
    (wakeBegin s w).mem = s.mem ∧ (wakeBegin s w).ports = s.ports ∧ (wakeBegin s w).pwr.waking = true ∧ getF (wakeBegin s w) rPWR_STATE 8 4 = wakeCode w % 16 ∧
      pwrBusy (wakeBegin s w) = true := by
  obtain ⟨hm, hp, hw, ho, hf⟩ := wakeNoted_facts s w
  rw [wakeBegin_eq, if_neg (by rw [ho, h]; exact Bool.false_ne_true)]
  generalize wakeNoted s w = x at hm hp hw hf
  have hwx := waking_railsUp x
  have hrails := railsMove_railsUp x
  generalize railsUp x = y at hwx hrails
  have hy : y.mem = x.mem ∧ y.ports = x.ports ∧ y.regs = x.regs := by
    obtain ⟨rl, q, rfl⟩ := hrails
    exact ⟨rfl, rfl, rfl⟩
  refine ⟨(setF_mem y _ _ _ _).trans (hy.1.trans hm), (setF_ports y _ _ _ _).trans (hy.2.1.trans hp),
    (congrArg PowerSt.waking (setF_pwr y rPWR_STATE 3 1 1)).trans (hwx.trans hw), ?_, getB_setF_same y _ (by decide) 1⟩
  exact (getF_setF_beside y _ 3 1 1 _ 8 4 (by decide) (.inr (by decide))).trans ((getF_congr hy.2.2 _ 8 4).trans hf)

theorem flushHeld_of_busy (h : pwrBusy s = true) : flushHeld s = s := by
  have ha : awake s = false := by
    have hb : getB s rPWR_STATE 3 = true := h
    simp [awake, hb]
  exact if_pos (.inr ha)

/-- The WAKE packet leaves the receive buffer of a port in LP, and the wake begins. -/
theorem wakePacket_facts {k : RxPkt} (_hp : p < 16) (hrx : (portOf s p).rx = [k]) (htyp : k.pkt.hdr.typ = 11) (hst : portState s p = 4) (hpwr : pwrState s = 2)
    (hentry : s.pwr.entry = none) (hwaking : s.pwr.waking = false) (hoff : s.pwr.off = false) (hvaux : s.pwr.vaux = true) :
    ∃ s', flushHeld (wakePacketRun s p) = s' ∧ SameMem s s' ∧ s'.pwr.waking = true ∧ getF s' rPWR_STATE 8 4 = 6 ∧ (portOf s' p).rx = [] := by
  have hup : portUp s p = false := by simp [portUp, hst]
  have hfind : (portOf s p).rx.find? (fun k => k.pkt.hdr.typ == 11 && (fun _ => true) k) = some k := by rw [hrx, List.find?_cons_of_pos (by simp [htyp])]
  have htake : ∃ x, rxTake s p k = setPort s p x ∧ x.rx = [] := by
    refine ⟨_, portFlush_down hup, ?_⟩
    change (portOf s p).rx.erase k = []
    rw [hrx, List.erase_cons_head]
  obtain ⟨x, hx, hempty⟩ := htake
  have hrun : wakePacketRun s p = if portState (setPort s p x) p = 4 then wakeDetectRun (setPort s p x) .fabric else setPort s p x := by
    unfold wakePacketRun hopTake
    rw [hfind]
    simp only [hx]
  have hdetect : wakeDetectRun (setPort s p x) .fabric = wakeBegin (setPort s p x) .fabric := by
    have he : (setPort s p x).pwr.entry = none := hentry
    have hstate : (if (setPort s p x).pwr.off then 4 else pwrState (setPort s p x)) = 2 := by
      have ho : (setPort s p x).pwr.off = false := hoff
      rw [ho, if_neg Bool.false_ne_true]
      exact hpwr
    have hno : ¬ ((setPort s p x).pwr.vaux = false ∨ (setPort s p x).pwr.waking = true ∨ wakes (setPort s p x) 2 .fabric = false) := by
      rw [not_or, not_or]
      exact ⟨by rw [setPort_pwr, hvaux]; decide, by rw [setPort_pwr, hwaking]; decide, by simp [wakes]⟩
    unfold wakeDetectRun
    simp only [he]
    rw [hstate, if_neg hno, if_neg (by decide)]
  have hst' : portState (setPort s p x) p = 4 := hst
  rw [if_pos hst', hdetect] at hrun
  obtain ⟨hm, hports, hw, hf, hbusy⟩ := wakeBegin_facts (s := setPort s p x) hoff .fabric
  rw [hrun, flushHeld_of_busy hbusy]
  exact ⟨_, rfl, rdByte_congr hm, hw, hf, by rw [portOf_congr hports, portOf_setPort_same, hempty]⟩

-- the obligation ------------------------------------------------------------------------------------------------------------------------------------

/-- A port that is enabled trains. -/
theorem fabPortEnable_facts (hp : p < 16) (h : Served s src (rFAB_CTL p)) (hst : portState s p = 0) :
    ∃ s', regTop s src (rFAB_CTL p) false (fabCtlNow s p + 1) = s' ∧ SameMem s s' ∧ portState s' p = 1 ∧ getB s' (rFAB_CTL p) 0 = true := by
  obtain ⟨hlt, heven, -⟩ := fabCtlNow_facts s p
  have hon : bits (fabCtlNow s p + 1) 0 1 = 1 := by rw [bits_eq_div_mod]; omega
  have hacted : ctlActed s p (fabCtlNow s p + 1) = setPortState (ctlSet s p (fabCtlNow s p + 1)) p 1 := by
    rw [ctlActed, if_pos hon, if_pos ((portState_ctlSet s p _).trans hst)]
  have hctl : 0x10_0000 ≤ rFAB_CTL p ∧ rFAB_CTL p < 0x18_0000 ∧ rFAB_CTL p ≠ rFAB_STAT p := by unfold rFAB_CTL rFAB_STAT portBase; omega
  have hset : getB (ctlActed s p (fabCtlNow s p + 1)) (rFAB_CTL p) 0 = true := by
    rw [hacted, getB, getF_setPortState _ p 1 hctl.1 hctl.2.1 (.inl hctl.2.2), ← getB, getB_ctlSet s p (by omega), hon]
    rfl
  have hstate : portState (ctlActed s p (fabCtlNow s p + 1)) p = 1 := by rw [hacted, portState_setPortState _ hp]
  have hmem : (ctlActed s p (fabCtlNow s p + 1)).mem = s.mem := by rw [hacted, mem_setPortState, mem_ctlSet]
  rw [regTop_fabCtl hp h (by omega), fabCtl_eq]
  generalize ctlActed s p (fabCtlNow s p + 1) = x at hset hstate hmem
  have hk : FabKept x (if bits (fabCtlNow s p + 1) 2 1 = 1 then wakeSend x p else x) := FabKept.ite (fabKept_wakeSend x p) (FabKept.refl x)
  exact ⟨_, rfl, rdByte_congr (hk.mem.trans hmem), (hk.portState hp).trans hstate, by rw [getB, hk.getF_eq hctl.1 hctl.2.1, ← getB, hset]⟩

/-- A port that is disabled loses its link. -/
theorem fabPortDisable_facts (hp : p < 16) (h : Served s src (rFAB_CTL p)) (hst : portState s p ≠ 0) (hidle : LinkIdle s p) :
    ∃ s', regTop s src (rFAB_CTL p) false (fabCtlNow s p) = s' ∧ SameMem s s' ∧ portState s' p = 0 ∧ getB s' (rFAB_STAT p) 5 = true ∧
      portOf s' p = portDead (portOf s p) ∧ getB s' (rFAB_CTL p) 0 = false := by
  obtain ⟨hlt, heven, -⟩ := fabCtlNow_facts s p
  have hoff : bits (fabCtlNow s p) 0 1 = 0 := by rw [bits_eq_div_mod]; omega
  have hacted : ctlActed s p (fabCtlNow s p) = portLost (ctlSet s p (fabCtlNow s p)) p 0 := by rw [ctlActed, if_neg (by omega)]
  have hbit := getB_ctlSet s p (show fabCtlNow s p < 2 ^ 32 by omega)
  have hports := ports_ctlSet s p (fabCtlNow s p)
  have hmem := mem_ctlSet s p (fabCtlNow s p)
  have hstate := portState_ctlSet s p (fabCtlNow s p)
  have hidle' : LinkIdle (ctlSet s p (fabCtlNow s p)) p :=
    ⟨by rw [portOf_congr hports, hidle.txq], (setR_tracker s _ _).trans hidle.tracker, by rw [netLoads_congr (show (ctlSet s p (fabCtlNow s p)).net = s.net from setR_net s _ _)]; exact hidle.net,
      hidle.mirror.imp_right fun hm => ⟨(congrArg MirrorSt.commits (setR_mirror s _ _)).trans hm.1, (congrArg MirrorSt.pendWr (setR_mirror s _ _)).trans hm.2⟩⟩
  rw [regTop_fabCtl hp h (by omega), fabCtl_eq, hacted]
  generalize ctlSet s p (fabCtlNow s p) = x at hbit hports hmem hstate hidle'
  obtain ⟨hm, h0, hflag, hport, hctl⟩ := portLost_facts (by rw [hstate]; exact hst) hidle' hp 0
  have hsend : wakeSend (portLost x p 0) p = portLost x p 0 := if_pos h0
  rw [hsend, ite_self]
  refine ⟨_, rfl, fun a => (hm a).trans (rdByte_congr hmem a), h0, hflag, by rw [hport, portOf_congr hports], ?_⟩
  rw [getB, getF, hctl, ← getF, ← getB, hbit, hoff]
  rfl

/-- WAKE = 1 on a port that is enabled. -/
theorem fabWake_acts (hp : p < 16) (h : Served s src (rFAB_CTL p)) (hen : getB s (rFAB_CTL p) 0 = true) (hwake : getB s (rFAB_CTL p) 2 = false) (hst : portState s p ≠ 0) :
    ∃ v, regTop s src (rFAB_CTL p) false (fabCtlNow s p + getF s (rFAB_CTL p) 0 1 + 4) = wakeSend (ctlSet s p v) p := by
  obtain ⟨hlt, heven, hbit⟩ := fabCtlNow_facts s p
  have h0 : getF s (rFAB_CTL p) 0 1 = 1 := by rwa [getB_eq_beq, beq_iff_eq] at hen
  have h2 : getF s (rFAB_CTL p) 2 1 = 0 := by
    have hlt2 : getF s (rFAB_CTL p) 2 1 < 2 := getF_lt s _ 2 1
    rw [getB_eq_beq, beq_eq_false_iff_ne] at hwake
    omega
  have hon : bits (fabCtlNow s p + getF s (rFAB_CTL p) 0 1 + 4) 0 1 = 1 := by rw [h0, bits_eq_div_mod]; omega
  have hgo : bits (fabCtlNow s p + getF s (rFAB_CTL p) 0 1 + 4) 2 1 = 1 := by rw [h0, bits_eq_div_mod]; omega
  refine ⟨fabCtlNow s p + getF s (rFAB_CTL p) 0 1 + 4, ?_⟩
  rw [regTop_fabCtl hp h (by rw [h0]; omega), fabCtl_eq, if_pos hgo, ctlActed, if_pos hon, if_neg (by rw [portState_ctlSet]; exact hst)]

theorem likeLink_ctlSet (s : State) (_hp : p < 16) (v : Nat) : LikeLink p s (ctlSet s p v) := by
  refine ⟨portOf_congr (ports_ctlSet s p v) p, rfl, fun off ho => getR_ctlSet s p v ?_⟩
  simp only [List.mem_cons, List.not_mem_nil, or_false] at ho
  unfold rFAB_STAT rFAB_MAC rFAB_ETH portBase at ho
  unfold rFAB_CTL portBase
  omega

theorem flag_frame (s : State) (off lo w v : Nat) : Frame [off] s (setF s off lo w v) := frame_setF s (by simp) _ _ _

theorem frame_setF_getF (s : State) (off lo w : Nat) : Frame [] s (setF s off lo w (getF s off lo w)) :=
  ⟨rdByte_congr (setF_mem s _ _ _ _), fun off' _ => getR_setF_getF s off lo w off', setF_fuses s _ _ _ _, setF_pending s _ _ _ _⟩

/-- Settles O48, state by state of the port. -/
theorem portsTrainAndFall : Obligations.PortsTrainAndFall := by
  unfold Obligations.PortsTrainAndFall
  intro port src s hq
  have hp : port.val < 16 := port.isLt
  refine ⟨fun h hst => ?_, ?_, fun l0 l1 l2 l3 lo hi peer hlo hhi hst => ⟨fun h => ?_, fun h => ?_⟩, fun hst => ?_, fun hst ha => ?_,
    fun h hen hwake => ⟨fun hst => ?_, fun hst he => ?_⟩, fun k hrx htyp hst hpwr hentry hwaking hoff hvaux _ => ?_, fun lp hst => ?_⟩
  case refine_1 =>
    obtain ⟨s', he, hf⟩ := fabPortEnable_facts hp h hst
    exact ⟨s', congrArg Host.Outcome.next he, hf⟩
  case refine_2 =>
    have hlost (c : BitVec 3) (hst : portState s port ≠ 0) (hidle : LinkIdle s port) : ∃ s', exec (.linkDown port c) s = .next s' ∧ SameMem s s' ∧ portState s' port = 0 ∧
        getB s' (rFAB_STAT port) 5 = true ∧ portOf s' port = portDead (portOf s port) ∧ (false = true → getB s' (rFAB_CTL port) 0 = false) := by
      obtain ⟨hm, h0, hflag, hport, -⟩ := portLost_facts hst hidle hp c.toNat
      exact ⟨_, rfl, hm, h0, hflag, hport, fun hf => absurd hf Bool.false_ne_true⟩
    rw [List.forall_mem_cons, List.forall_mem_cons, List.forall_mem_cons]
    refine ⟨fun hs hst ht hn hm => ?_, fun _ hst ht hn hm => hlost 2 hst ⟨hq, ht, hn, hm⟩, fun _ hst ht hn hm => hlost 3 hst ⟨hq, ht, hn, hm⟩, by simp⟩
    obtain ⟨s', he, hmem, h0, hflag, hport, hctl⟩ := fabPortDisable_facts hp (hs rfl) hst ⟨hq, ht, hn, hm⟩
    exact ⟨s', congrArg Host.Outcome.next he, hmem, h0, hflag, hport, fun _ => hctl⟩
  case refine_3 =>
    have hno : (!(l0 && l1) && !(l2 && l3)) = true := by rw [← hlo, ← hhi, ← Bool.not_or, h]; rfl
    exact congrArg Host.Outcome.next (if_pos (.inr hno))
  case refine_4 =>
    subst hlo hhi
    exact ⟨_, rfl, trainingDone_facts hp hq hst h peer.pkg.isLt peer.port.isLt⟩
  case refine_5 =>
    have hrun : trainingTimeoutRun s port = setF s (rFAB_STAT port) 0 3 (getF s (rFAB_STAT port) 0 3) := by
      have hst' : getF s (rFAB_STAT port) 0 3 = 1 := hst
      rw [hst']
      exact if_pos hst
    refine ⟨_, congrArg Host.Outcome.next hrun, frame_setF_getF s _ 0 3, ?_⟩
    rw [portState, (frame_setF_getF s _ 0 3).getF_eq (by simp), ← portState, hst]
  case refine_6 =>
    obtain ⟨hm, hstate, hport, -⟩ := portEnter_facts hp hq (portOf s port).half
    exact ⟨_, congrArg Host.Outcome.next (if_pos ⟨hst, ha⟩), rdByte_congr hm, hstate, by rw [hport]; rfl⟩
  case refine_7 =>
    have hst0 : portState s port ≠ 0 ∧ portState s port ≠ 4 := by
      have hup : portState s port = 2 ∨ portState s port = 3 ∨ portState s port = 1 := by simpa [portUp, or_assoc] using hst
      omega
    obtain ⟨v, he⟩ := fabWake_acts hp h hen hwake hst0.1
    have hsend := wakeSend_up (s := ctlSet s port v) (p := port) (by rw [portState_ctlSet]; exact hst0.1) (by rw [portState_ctlSet]; exact hst0.2)
    rw [ownPkg_ctlSet s hp, peer_ctlSet] at hsend
    have hpush := (likeLink_ctlSet s hp v).txPush hp 0 (wakePkt (getF s (rFAB_STAT port) 16 16) (ownPkg s))
    refine ⟨_, congrArg Host.Outcome.next (he.trans hsend), ?_, hpush.port⟩
    exact rdByte_congr ((pushed_txPush _ _ 0 _).fabKept.mem.trans (mem_ctlSet s port v))
  case refine_8 =>
    obtain ⟨v, he'⟩ := fabWake_acts hp h hen hwake (by omega)
    have hports := portOf_congr (ports_ctlSet s port v) port
    have hsend := wakeSend_lp (s := ctlSet s port v) (p := port) (by rw [portState_ctlSet]; exact hst)
    obtain ⟨f, hf, hfields, hpkt⟩ := flitOf_wakeFlit (ctlSet s port v) port
    rw [ownPkg_ctlSet s hp, peer_ctlSet] at hpkt
    refine ⟨_, congrArg Host.Outcome.next (he'.trans hsend), ?_, _, f, ?_, hf, hfields, hpkt⟩
    · exact rdByte_congr ((pushed_emitFlit _ _ _).fabKept.mem.trans (mem_ctlSet s port v))
    · rw [out_emitFlit (by rw [hports]; exact he), hports]
  case refine_9 =>
    obtain ⟨s', he, hf⟩ := wakePacket_facts hp hrx htyp hst hpwr hentry hwaking hoff hvaux
    exact ⟨s', congrArg Host.Outcome.next he, hf⟩
  case refine_10 =>
    refine ⟨_, congrArg Host.Outcome.next (if_neg hst), flag_frame s _ _ _ _, ?_, getF_setF_beside s _ 3 1 _ _ 0 3 (by decide) (.inl (by decide))⟩
    rw [getB_setF_same s _ (by decide)]
    cases lp <;> rfl

end Sys2Proof.Safety
end

section
/-! SUPPORT. Answers on the fabric, and events of any control core (R335, R389): what each changes. -/

namespace Sys2Proof.Safety

open Sys2Proof.Machine

variable {s s' t : State} {p : Nat}

-- transmission on a port leaves the others ------------------------------------------------------------------------------------------------------

/-- No port but p changes. -/
def OtherPorts (p : Nat) (s t : State) : Prop := ∀ q, q ≠ p → portOf t q = portOf s q

namespace OtherPorts

theorem refl (p : Nat) (s : State) : OtherPorts p s s := fun _ _ => rfl
theorem trans {u : State} (h : OtherPorts p s t) (h' : OtherPorts p t u) : OtherPorts p s u := fun q hq => (h' q hq).trans (h q hq)
theorem setPort (s : State) (p : Nat) (x : PortSt) : OtherPorts p s (Machine.setPort s p x) := fun _ hq => portOf_setPort_other s x hq
theorem emitFlit (s : State) (p : Nat) (f : FlitRec) : OtherPorts p s (Machine.emitFlit s p f) := setPort s p _
theorem sendNumbered (s : State) (p : Nat) (f : FlitRec) : OtherPorts p s (Machine.sendNumbered s p f) := (setPort s p _).trans (emitFlit _ p f)
theorem noteTimeReq (s : State) (typ seq : Nat) : OtherPorts p s (noteTimeReq s typ seq) := by
  unfold Safety.noteTimeReq
  split
  · exact fun _ _ => rfl
  · exact refl p s

theorem drainOne (s : State) (p k : Nat) : OtherPorts p s (Machine.drainOne s p k) := by
  cases h : txOf (portOf s p) k with
  | nil =>
    rw [drainOne_nil h]
    exact refl p s
  | cons x q =>
    rw [drainOne_cons h]
    exact ((((setPort s p _).trans (noteTimeReq _ _ _)).trans (sendNumbered _ p _)).trans fun _ _ => rfl)

theorem portDrain (s : State) (p n : Nat) : OtherPorts p s (Machine.portDrain s p n) := by
  induction n generalizing s with
  | zero => exact refl p s
  | succ n ih =>
    unfold Machine.portDrain
    split
    · exact refl p s
    · exact (drainOne s p _).trans (ih _)

theorem portIdle (s : State) (p : Nat) : OtherPorts p s (Machine.portIdle s p) := by
  unfold Machine.portIdle
  dsimp only
  split
  · exact refl p s
  · split
    · exact sendNumbered s p _
    · split
      · exact (setPort s p _).trans (emitFlit _ p _)
      · exact refl p s

theorem txPush (s : State) (p cls : Nat) (k : Packet) : OtherPorts p s (Machine.txPush s p cls k) :=
  (setPort s p _).trans ((portDrain _ p _).trans (portIdle _ p))

end OtherPorts

-- answers ------------------------------------------------------------------------------------------------------------------------------------------

theorem portDrop_ports (s : State) (q : Nat) : (portDrop s q).ports = s.ports := ports_satF s _ _ _ _

/-- An answer is the same from two states that look the same from every port. -/
theorem responds_fabRespond (hports : ∀ q, portOf t q = portOf s q) (hnow : tbNow t = tbNow s) (hregs : SameFabric s t) (k : Packet) : Responds s (fabRespond t k) k := by
  intro q
  unfold fabRespond
  rw [hregs.route_eq]
  cases hr : route s k.hdr.dstPkg none 0 with
  | port p cls =>
    dsimp only
    by_cases e : q = p
    · subst e
      exact (SamePort.txPush (route_port_lt hr) ⟨hports q, hnow, hregs⟩ cls k).port
    · rw [OtherPorts.txPush t p cls k q e, OtherPorts.txPush s p cls k q e, hports]
  | status st p =>
    dsimp only
    rw [portOf_congr (portDrop_ports t p), portOf_congr (portDrop_ports s p), hports]

theorem Pushed.mem (h : Pushed s t) : t.mem = s.mem := by obtain ⟨-, r, po, ti, rfl⟩ := h; rfl
theorem Pushed.signals (h : Pushed s t) : t.signals = s.signals := by obtain ⟨-, r, po, ti, rfl⟩ := h; rfl

/-- An answer changes neither memory nor the signals on their way. -/
theorem fabRespond_kept (s : State) (k : Packet) : (fabRespond s k).mem = s.mem ∧ (fabRespond s k).signals = s.signals := by
  unfold fabRespond
  split
  · rename_i q cls _
    have h := pushed_txPush s q cls k
    exact ⟨h.mem, h.signals⟩
  · exact ⟨setF_mem s _ _ _ _, setF_signals s _ _ _ _⟩

-- events that no slot owns, on any die ------------------------------------------------------------------------------------------------------------------

/-- The registers of die d's moraine, its trace status and the host's causes. -/
def MoraineReg (d off : Nat) : Prop := (mlogBase d ≤ off ∧ off < mlogBase d + 0x1000) ∨ off = rHOST_IRQ_STAT ∨ off = rHOST_IRQ_STAT + 4 ∨ off = rTRC_STAT d + 4

/-- What the log of an event on die d may do: registers, the trace, the host's part and the pins; of a register outside the moraine bit 0 alone. -/
structure MoraineNoted (d : Nat) (s s' : State) : Prop where
  same : ∃ r tr ho pi, s' = { s with regs := r, trace := tr, host := ho, pins := pi }
  field : ∀ off lo w, ¬ MoraineReg d off → 1 ≤ lo → getF s' off lo w = getF s off lo w

namespace MoraineNoted

variable {d : Nat}

theorem refl (d : Nat) (s : State) : MoraineNoted d s s := ⟨⟨_, _, _, _, rfl⟩, fun _ _ _ _ _ => rfl⟩

theorem trans {u : State} (h : MoraineNoted d s s') (h' : MoraineNoted d s' u) : MoraineNoted d s u := by
  obtain ⟨⟨r, tr, ho, pi, rfl⟩, hr⟩ := h
  obtain ⟨⟨r', tr', ho', pi', rfl⟩, hr'⟩ := h'
  exact ⟨⟨r', tr', ho', pi', rfl⟩, fun off lo w h hl => (hr' off lo w h hl).trans (hr off lo w h hl)⟩

theorem ite {q : Prop} [Decidable q] {u : State} (h : MoraineNoted d s s') (h' : MoraineNoted d s u) : MoraineNoted d s (if q then s' else u) := by
  split
  · exact h
  · exact h'

theorem foldl {α : Type*} {l : List α} {g : State → α → State} (hg : ∀ x, ∀ a ∈ l, MoraineNoted d x (g x a)) (s : State) : MoraineNoted d s (l.foldl g s) :=
  List.foldlRecOn (motive := MoraineNoted d s) l _ (refl d s) fun x h a ha => h.trans (hg x a ha)

theorem setR {off : Nat} (h : MoraineReg d off) (s : State) (v : BitVec 32) : MoraineNoted d s (Machine.setR s off v) :=
  ⟨⟨_, _, _, _, rfl⟩, fun o lo w ho _ => by
    have hne : o ≠ off := fun e => ho (by rw [e]; exact h)
    rw [getF, getR_setR_other s v hne, ← getF]⟩

theorem setF {off : Nat} (h : MoraineReg d off) (s : State) (lo w v : Nat) : MoraineNoted d s (Machine.setF s off lo w v) := setR h s _

theorem setR64 {off : Nat} (h : MoraineReg d off) (h' : MoraineReg d (off + 4)) (s : State) (v : Nat) : MoraineNoted d s (Machine.setR64 s off v) :=
  (setR h s _).trans (setR h' _ _)

/-- Bit 0 of any register. -/
theorem setBit0 (s : State) (off v : Nat) : MoraineNoted d s (Machine.setF s off 0 1 v) :=
  ⟨⟨_, _, _, _, rfl⟩, fun o lo w _ hl => getF_setF_beside s off 0 1 v o lo w (by decide) (.inr hl)⟩

theorem of_same (h : ∃ tr ho pi, s' = { s with trace := tr, host := ho, pins := pi }) : MoraineNoted d s s' := by
  obtain ⟨tr, ho, pi, rfl⟩ := h
  exact ⟨⟨_, _, _, _, rfl⟩, fun _ _ _ _ _ => rfl⟩

theorem hostIrq (s : State) (b : Nat) : MoraineNoted d s (Machine.hostIrq s b) := by
  have h : MoraineNoted d s (Machine.setR64 s rHOST_IRQ_STAT (setBits (getR64 s rHOST_IRQ_STAT) b 1 1)) := setR64 (.inr (.inl rfl)) (.inr (.inr (.inl rfl))) s _
  have hm (x : State) : MoraineNoted d x (msix x b) := by
    unfold msix
    split <;> exact of_same ⟨_, _, _, rfl⟩
  exact ite (h.trans (hm _)) h

theorem traceRec (s : State) (d typ core slot floe fcyc w2 w3 : Nat) : MoraineNoted d s (Machine.traceRec s d typ core slot floe fcyc w2 w3) := by
  unfold Machine.traceRec
  split
  · split
    · exact of_same ⟨_, _, _, rfl⟩
    · exact setF (.inr (.inr (.inr rfl))) s 16 16 _
  · exact refl d s

theorem fillFirst (s : State) (d tier : Nat) (e : Ev) : MoraineNoted d s (Machine.fillFirst s d tier e) := by
  have h (k : Nat) (hk : k ≤ 44) : MoraineReg d (rMLOG_FIRST d + k) := by unfold MoraineReg rMLOG_FIRST; omega
  have hset (k : Nat) (hk : k ≤ 40) (x : State) (v : Nat) : MoraineNoted d x (Machine.setR64 x (rMLOG_FIRST d + k) v) := setR64 (h k (by omega)) (h (k + 4) (by omega)) x v
  exact (((((hset 0 (by decide) _ _).trans (hset 8 (by decide) _ _)).trans (hset 16 (by decide) _ _)).trans (hset 24 (by decide) _ _)).trans
    (hset 32 (by decide) _ _)).trans (hset 40 (by decide) _ _)

theorem logEvent (s : State) (d tier : Nat) {e : Ev} (_he : e.cls < 256) : MoraineNoted d s (Machine.logEvent s d tier e) := by
  have hst : MoraineReg d (rMLOG_STICKY d + 8 * (e.cls / 64)) ∧ MoraineReg d (rMLOG_STICKY d + 8 * (e.cls / 64) + 4) := by unfold MoraineReg rMLOG_STICKY; omega
  have hct : MoraineReg d (rMLOG_COUNT d + 4 * (e.cls / 2)) := by unfold MoraineReg rMLOG_COUNT; omega
  have hs : MoraineReg d (rMLOG_STAT d) := by unfold MoraineReg rMLOG_STAT; omega
  have hcount (x : State) : MoraineNoted d x (if getF x (rMLOG_COUNT d + 4 * (e.cls / 2)) (16 * (e.cls % 2)) 16 = 0xFFFF then Machine.setF x (rMLOG_STAT d) 4 1 1
      else Machine.setF x (rMLOG_COUNT d + 4 * (e.cls / 2)) (16 * (e.cls % 2)) 16 (getF x (rMLOG_COUNT d + 4 * (e.cls / 2)) (16 * (e.cls % 2)) 16 + 1)) :=
    ite (setF hs x 4 1 1) (setF hct x _ 16 _)
  have h3 := ((setR64 hst.1 hst.2 s (setBits (getR64 s (rMLOG_STICKY d + 8 * (e.cls / 64))) (e.cls % 64) 1 1)).trans (hcount _)).trans (setF hs _ e.sev 1 1)
  exact ite h3 (h3.trans (fillFirst _ d tier e))

theorem reportEvent (s : State) (d : Nat) (e : Ev) : MoraineNoted d s (Machine.reportEvent s d e) := by
  have h1 : MoraineNoted d s (if getF s (rMLOG_SEV_CTL d) 2 2 ≤ e.sev then Machine.hostIrq s (2 + d) else s) := ite (hostIrq s _) (refl d s)
  have h2 (x : State) : MoraineNoted d x ((List.range 4).foldl (fun s k => Machine.setF s (rCC_IRQ_STAT (4 * d + k)) 0 1 1) x) := foldl (fun y k _ => setBit0 y _ 1) x
  exact (h1.trans (ite (h2 _) (refl d _))).trans (of_same ⟨_, _, _, rfl⟩)

/-- An event that no slot owns. -/
theorem raiseEv (s : State) (d : Nat) {e : Ev} (ho : e.owner = none) (hcls : e.cls < 256) (hhome : e.home < 4) : MoraineNoted d s (Machine.raiseEv s d e) := by
  have hs : MoraineReg d (rMLOG_STAT d) := by unfold MoraineReg rMLOG_STAT; omega
  have hl := logEvent s d (evTier s d e).1 hcls
  have hlogged : MoraineNoted d s (logged s d e) := (ite ((hl.trans (setF hs _ 6 1 1)).trans (setF hs _ 16 16 _)) hl).trans (traceRec _ d _ _ _ _ _ _ _)
  rw [raiseEv_eq, contain_unowned _ _ ho (evTier_lt hhome)]
  exact hlogged.trans (reportEvent _ d _)

theorem mem (h : MoraineNoted d s s') : s'.mem = s.mem := by obtain ⟨⟨r, tr, ho, pi, rfl⟩, -⟩ := h; rfl
theorem tracker (h : MoraineNoted d s s') : s'.tracker = s.tracker := by obtain ⟨⟨r, tr, ho, pi, rfl⟩, -⟩ := h; rfl

end MoraineNoted

theorem statusClass_lt (st : Nat) : statusClass st < 256 := by
  unfold statusClass
  split
  · decide
  · split
    · decide
    · split
      · decide
      · split <;> decide

/-- A control core's registers as an error status leaves them. -/
def ccErrored (s : State) (k st : Nat) : State := setF (setF s (rCC_IRQ_STAT k) 3 1 1) (rCC_RWIN k) 8 4 st

/-- The event of an error status. -/
def ccErrorEv (k st : Nat) : Ev := { cls := statusClass st, sev := 2, home := 1, ukind := 5, uindex := k, detail := 16 * st }

theorem ccError_eq (s : State) (k st : Nat) : ccError s k st = raiseEv (ccErrored s k st) (k / 4) (ccErrorEv k st) := rfl

theorem ccErrored_facts (s : State) (k : Nat) {st : Nat} (hst : st < 16) : (ccErrored s k st).mem = s.mem ∧ (ccErrored s k st).tracker = s.tracker ∧
    getF (ccErrored s k st) (rCC_RWIN k) 8 4 = st ∧ getB (ccErrored s k st) (rCC_IRQ_STAT k) 3 = true := by
  refine ⟨(setF_mem _ _ _ _ _).trans (setF_mem _ _ _ _ _), (setF_tracker _ _ _ _ _).trans (setF_tracker _ _ _ _ _),
    (getF_setF_same _ _ 8 4 st (by decide)).trans (Nat.mod_eq_of_lt hst), ?_⟩
  rw [ccErrored, getB, getF_setF_otherReg _ _ _ _ _ _ (show rCC_IRQ_STAT k ≠ rCC_RWIN k by unfold rCC_IRQ_STAT rCC_RWIN; omega), ← getB]
  exact getB_setF_same s _ (by decide) 1

theorem moraineNoted_ccError (s : State) (k st : Nat) : MoraineNoted (k / 4) (ccErrored s k st) (ccError s k st) :=
  MoraineNoted.raiseEv (ccErrored s k st) (k / 4) (e := ccErrorEv k st) rfl (statusClass_lt st) (show 1 < 4 by decide)

/-- An error that a control core receives shows in its status and raises its cause (R389). -/
theorem ccError_facts (s : State) (k : Nat) {st : Nat} (hst : st < 16) :
    (ccError s k st).mem = s.mem ∧ (ccError s k st).tracker = s.tracker ∧ getF (ccError s k st) (rCC_RWIN k) 8 4 = st ∧ getB (ccError s k st) (rCC_IRQ_STAT k) 3 = true := by
  obtain ⟨hmem, htrk, hw, hi⟩ := ccErrored_facts s k hst
  have h := moraineNoted_ccError s k st
  generalize ccErrored s k st = x at hmem htrk hw hi h
  generalize ccError s k st = y at h
  have hout (o : Nat) (ho : o = 0x10 ∨ o = 0x18) : ¬ MoraineReg (k / 4) (rCC_CTL k + o) := by
    unfold MoraineReg rHOST_IRQ_STAT rTRC_STAT rCC_CTL mlogBase svcBase
    omega
  have hstat : ¬ MoraineReg (k / 4) (rCC_IRQ_STAT k) := hout 0x10 (.inl rfl)
  refine ⟨h.mem.trans hmem, h.tracker.trans htrk, (h.field _ 8 4 (hout 0x18 (.inr rfl)) (by decide)).trans hw, ?_⟩
  rw [getB, h.field _ 3 1 hstat (by decide), ← getB, hi]

end Sys2Proof.Safety
end

section
/-! PROOF. O50: packets act at their target (R25, R335 to R338). -/

namespace Sys2Proof.Safety

open Sys2Proof.Machine

variable {s s' t : State} {p : Nat} {k : RxPkt}

/-- The port with the packet taken. -/
def portTaken (s : State) (p : Nat) : State := setPort s p { portOf s p with landed := [] }

/-- The one packet that has landed, in turn and with nothing to wait for, is performed. -/
theorem landedRun_one (hl : (portOf s p).landed = [k]) (hturn : inTurn s p k = true) {typ : Nat} (htyp : k.pkt.hdr.typ = typ) {waits : State → Packet → Bool}
    (hw : waits s k.pkt = false) (f : State → RxPkt → State) : landedRun s p typ k.pkt waits f = f (portTaken s p) k := by
  have hfind : (portOf s p).landed.find? (fun q => q.pkt == k.pkt && q.pkt.hdr.typ == typ && inTurn s p q && !waits s q.pkt) = some k := by
    rw [hl]
    exact List.find?_cons_of_pos (by simp [htyp, hturn, hw])
  unfold landedRun
  rw [hfind]
  dsimp only
  rw [hl, List.erase_cons_head]
  rfl

/-- A packet that is not in turn waits. -/
theorem landedRun_waits (hl : (portOf s p).landed = [k]) (hturn : inTurn s p k = false) (typ : Nat) (waits : State → Packet → Bool) (f : State → RxPkt → State) :
    landedRun s p typ k.pkt waits f = s := by
  have hfind : (portOf s p).landed.find? (fun q => q.pkt == k.pkt && q.pkt.hdr.typ == typ && inTurn s p q && !waits s q.pkt) = none := by
    rw [hl]
    exact List.find?_eq_none.2 fun q hq => by rw [List.mem_singleton.1 hq, hturn]; simp
  unfold landedRun
  rw [hfind]

-- WRITE and READ of a store (R25, R335) -----------------------------------------------------------------------------------------------------------

theorem writeWaits_store {c : Nat} (hp : placeOf k.pkt.hdr.addr k.pkt.payload.length = .store c) (hw : storeWaits s c = false) : writeWaits s k.pkt = false := by
  unfold writeWaits
  dsimp only
  rw [hp]
  dsimp only
  rw [hw, Bool.and_false]
  split <;> rfl

theorem readWaits_store {c : Nat} (hp : placeOf k.pkt.hdr.addr k.pkt.hdr.len = .store c) (hw : storeWaits s c = false) : readWaits s k.pkt = false := by
  unfold readWaits
  rw [hp]
  dsimp only
  rw [hw, Bool.and_false]

theorem writeIn_store {c : Nat} (hp : placeOf k.pkt.hdr.addr k.pkt.payload.length = .store c) (hc : corePresent s c = true)
    (hs : ¬ (k.pkt.hdr.sig = true ∧ corePresent s k.pkt.hdr.score = false)) : writeIn s p k.pkt = writeDone (wrBytes s k.pkt.hdr.addr k.pkt.payload) p k.pkt.hdr := by
  unfold writeIn
  dsimp only
  rw [if_neg hs, hp]
  dsimp only
  rw [hc, if_neg (by decide)]

theorem readIn_store {c : Nat} (hp : placeOf k.pkt.hdr.addr k.pkt.hdr.len = .store c) (hc : corePresent s c = true) :
    readIn s p k.pkt = fabRespond s ⟨mkHdr 3 k.pkt.hdr.srcPkg (ownPkg s) k.pkt.hdr.tag k.pkt.hdr.tgen k.pkt.hdr.addr k.pkt.hdr.len,
      rdBytes s k.pkt.hdr.addr k.pkt.hdr.len, []⟩ := by
  unfold readIn
  dsimp only
  rw [hp]
  dsimp only
  rw [hc, if_neg (by decide), readReply, rdBytes_length]

/-- An acknowledgement. -/
def ackPkt (s : State) (h : PktHdr) : Packet := ⟨mkHdr 4 h.srcPkg (ownPkg s) h.tag h.tgen 0 0, [], []⟩

theorem fabAck_eq (s : State) (h : PktHdr) : fabAck s h = fabRespond s (ackPkt s h) := rfl

/-- The signal of a packet joins those on their way, and nothing else that an answer rests on changes. -/
theorem fabSignal_mem (s : State) (p kind : Nat) (h : PktHdr) : (fabSignal s p kind h).mem = s.mem := (rfl)
theorem fabSignal_ports (s : State) (p kind : Nat) (h : PktHdr) : (fabSignal s p kind h).ports = s.ports := (rfl)
theorem fabSignal_regs (s : State) (p kind : Nat) (h : PktHdr) : (fabSignal s p kind h).regs = s.regs := (rfl)
theorem fabSignal_time (s : State) (p kind : Nat) (h : PktHdr) : (fabSignal s p kind h).time = s.time := (rfl)
theorem fabSignal_signals (s : State) (p kind : Nat) (h : PktHdr) :
    ∃ g, (fabSignal s p kind h).signals = s.signals ++ [g] ∧ g.core = h.score ∧ g.ctr = h.sctr ∧ g.count = h.scount ∧ g.gen = h.sgen ∧ g.own = false :=
  ⟨_, rfl, rfl, rfl, rfl, rfl, rfl⟩

theorem ackPkt_congr (hr : s'.regs = s.regs) (h : PktHdr) : ackPkt s' h = ackPkt s h := by rw [ackPkt, ackPkt, ownPkg, getF_congr hr, ← ownPkg]
theorem tbNow_congr (ht : s'.time = s.time) : tbNow s' = tbNow s := by rw [tbNow, tbNow, ht]

/-- An answer is the same from two states that differ beside the ports, the registers and the time. -/
theorem responds_of_same (hp : s'.ports = s.ports) (hr : s'.regs = s.regs) (ht : s'.time = s.time) (k : Packet) : Responds s (fabRespond s' k) k :=
  responds_fabRespond (portOf_congr hp) (tbNow_congr ht) (fun off _ => getR_congr hr off) k

/-- An acknowledged signal of the fabric (R335). -/
theorem signalled_facts (s : State) (p kind : Nat) (h : PktHdr) : (fabAck (fabSignal s p kind h) h).mem = s.mem ∧ Responds s (fabAck (fabSignal s p kind h) h) (ackPkt s h) ∧
    ∃ g, (fabAck (fabSignal s p kind h) h).signals = s.signals ++ [g] ∧ g.core = h.score ∧ g.ctr = h.sctr ∧ g.count = h.scount ∧ g.gen = h.sgen ∧ g.own = false := by
  have hr := responds_of_same (fabSignal_ports s p kind h) (fabSignal_regs s p kind h) (fabSignal_time s p kind h) (ackPkt s h)
  have hm := fabSignal_mem s p kind h
  have hg := fabSignal_signals s p kind h
  rw [fabAck_eq, ackPkt_congr (fabSignal_regs s p kind h)]
  generalize fabSignal s p kind h = x at hr hm hg
  obtain ⟨hkm, hks⟩ := fabRespond_kept x (ackPkt s h)
  rw [hks]
  exact ⟨hkm.trans hm, hr, hg⟩

-- responses (R336) ----------------------------------------------------------------------------------------------------------------------------------

/-- A response that meets no entry of its generation only counts. -/
theorem trkRespond_late {h : PktHdr} (hn : (trkOf s h.tag).busy = none ∨ (trkOf s h.tag).gen ≠ h.tgen) (f : State → State) : trkRespond s h f = trkLate s := by
  refine if_neg fun hb => ?_
  rcases hn with hn | hn
  · rw [hn] at hb
    exact Bool.false_ne_true hb.1
  · exact hn hb.2

theorem trkRespond_busy {h : PktHdr} {b : TrkWho × Nat × Nat} (hb : (trkOf s h.tag).busy = some b) (hg : (trkOf s h.tag).gen = h.tgen) (f : State → State) : trkRespond s h f = f s :=
  if_pos ⟨by rw [hb]; rfl, hg⟩

theorem trkLate_facts (s : State) : Frame [rFAB_TRK + 4] s (trkLate s) ∧ getF (trkLate s) (rFAB_TRK + 4) 0 16 = min 65535 (getF s (rFAB_TRK + 4) 0 16 + 1) := by
  refine ⟨frame_setF s (by simp) _ _ _, (getF_setF_same s _ 0 16 _ (by decide)).trans (Nat.mod_eq_of_lt ?_)⟩
  unfold satAdd
  omega

theorem trackerFreed (s : State) (tag : Nat) : (trkDone s tag).mem = s.mem ∧ (trkDone s tag).cores = s.cores ∧ (trkDone s tag).ccs = s.ccs ∧ (trkOf (trkDone s tag) tag).busy = none := by
  have hr := regsKeep_ledReturn1 (setTrk s tag { gen := ((trkOf s tag).gen + 1) % 16, busy := none }) qFABTRK
  have ht : (trkOf (setTrk s tag { gen := ((trkOf s tag).gen + 1) % 16, busy := none }) tag).busy = none := by
    rw [trkOf, setTrk, mget_mset_same]
  unfold trkDone
  generalize ledReturn1 (setTrk s tag { gen := ((trkOf s tag).gen + 1) % 16, busy := none }) qFABTRK = y at hr
  obtain ⟨⟨r, rfl⟩, -⟩ := hr
  exact ⟨rfl, rfl, rfl, ht⟩

/-- A change of the active transfer of a descriptor. -/
theorem modXfer_facts {c d : Nat} {x : Xfer} (ha : (descOf s c d).active = some x) (f : Xfer → Xfer) :
    (modXfer s c d x.id f).mem = s.mem ∧ (modXfer s c d x.id f).tracker = s.tracker ∧ (descOf (modXfer s c d x.id f) c d).active = some (f x) := by
  have he : modXfer s c d x.id f = setDesc s c d { descOf s c d with active := some (f x) } := by
    unfold modXfer
    dsimp only
    rw [ha]
    exact if_pos rfl
  rw [he]
  exact ⟨setDesc_mem s c d _, setDesc_tracker s c d _, congrArg DescSt.active (descOf_setDesc_same s c d _)⟩

/-- A transfer that takes the bytes of a position: they join those that have arrived when they come next, else they wait. -/
theorem landBytes_facts {x : Xfer} (hstop : x.stopAt = none) (hearly : x.early = []) {bs : List Byte} (hbs : bs ≠ []) (pos m : Nat) :
    (pos = x.sent + x.arrived.length → (landBytes x pos m bs).arrived = x.arrived ++ bs ∧ (landBytes x pos m bs).early = []) ∧
      (pos ≠ x.sent + x.arrived.length → (landBytes x pos m bs).arrived = x.arrived ∧ (landBytes x pos m bs).early = [(pos, m, bs)]) := by
  have hne : bs.isEmpty = false := by cases bs with | nil => exact absurd rfl hbs | cons _ _ => rfl
  have hland : landBytes x pos m bs = takeEarly 1 { x with early := [(pos, m, bs)] } := by
    unfold landBytes
    rw [hne, hstop, hearly]
    rfl
  rw [hland]
  refine ⟨fun h => ?_, fun h => ?_⟩
  · have hfind : [(pos, m, bs)].find? (fun q => q.1 == x.sent + x.arrived.length) = some (pos, m, bs) := List.find?_cons_of_pos (by simp [h])
    unfold takeEarly
    dsimp only
    rw [hfind]
    simp [takeEarly]
  · have hfind : [(pos, m, bs)].find? (fun q => q.1 == x.sent + x.arrived.length) = none := List.find?_eq_none.2 fun q hq => by rw [List.mem_singleton.1 hq]; simp [h]
    unfold takeEarly
    dsimp only
    rw [hfind]
    exact ⟨rfl, rfl⟩

theorem trkOf_congr (h : s'.tracker = s.tracker) (tag : Nat) : trkOf s' tag = trkOf s tag := by rw [trkOf, trkOf, h]

/-- READ_DATA of a transfer's request. -/
theorem trkData_facts {tag c d pos q t0 : Nat} {x : Xfer} (hb : (trkOf s tag).busy = some (.descRead c d x.id pos, q, t0)) (ha : (descOf s c d).active = some x)
    (m : Nat) (bs : List Byte) :
    (trkData s tag m bs).mem = s.mem ∧ (descOf (trkData s tag m bs) c d).active = some (landBytes x pos (64 ||| m) bs) ∧ (trkOf (trkData s tag m bs) tag).busy = none := by
  have he : trkData s tag m bs = modXfer (trkDone s tag) c d x.id fun y => landBytes y pos (64 ||| m) bs := by
    unfold trkData
    simp only [hb]
  obtain ⟨hm, hc, -, hfree⟩ := trackerFreed s tag
  obtain ⟨hm', ht', ha'⟩ := modXfer_facts (s := trkDone s tag) (c := c) (d := d) (x := x) (by rw [descOf_congr hc, ha]) fun y => landBytes y pos (64 ||| m) bs
  rw [he]
  exact ⟨hm'.trans hm, ha', by rw [trkOf_congr ht', hfree]⟩

/-- ACK of a transfer's write. -/
theorem trkAck_facts {tag c d len q t0 : Nat} {x : Xfer} (hb : (trkOf s tag).busy = some (.descWrite c d x.id len false, q, t0)) (ha : (descOf s c d).active = some x) :
    (trkAck s tag).mem = s.mem ∧ (descOf (trkAck s tag) c d).active = some { x with done := x.done + len } ∧ (trkOf (trkAck s tag) tag).busy = none := by
  have he : trkAck s tag = modXfer (trkDone s tag) c d x.id fun y => { y with done := y.done + len } := by
    unfold trkAck
    simp only [hb, Bool.false_eq_true, if_false]
  obtain ⟨hm, hc, -, hfree⟩ := trackerFreed s tag
  obtain ⟨hm', ht', ha'⟩ := modXfer_facts (s := trkDone s tag) (c := c) (d := d) (x := x) (by rw [descOf_congr hc, ha]) fun y => { y with done := y.done + len }
  rw [he]
  exact ⟨hm'.trans hm, ha', by rw [trkOf_congr ht', hfree]⟩

theorem ccLoadDone_mem (s : State) (k tag pos : Nat) (bs : List Byte) : (ccLoadDone s k tag pos bs).mem = s.mem := setCc_mem s k _
theorem ccLoadDone_tracker (s : State) (k tag pos : Nat) (bs : List Byte) : (ccLoadDone s k tag pos bs).tracker = s.tracker := setCc_tracker s k _

/-- ERROR of a control core's load. -/
theorem trkFail_facts {tag c pos q t0 st why : Nat} (hb : (trkOf s tag).busy = some (.ccRead c pos, q, t0)) (hst : st < 16) :
    (trkFail s tag st why).mem = s.mem ∧ getF (trkFail s tag st why) (rCC_RWIN c) 8 4 = st ∧ getB (trkFail s tag st why) (rCC_IRQ_STAT c) 3 = true ∧
      (trkOf (trkFail s tag st why) tag).busy = none := by
  have he : trkFail s tag st why = ccError (ccLoadDone (trkDone s tag) c tag pos []) c st := by
    unfold trkFail
    simp only [hb]
  obtain ⟨hm, -, -, hfree⟩ := trackerFreed s tag
  have hlm := ccLoadDone_mem (trkDone s tag) c tag pos []
  have hlt := ccLoadDone_tracker (trkDone s tag) c tag pos []
  rw [he]
  generalize trkDone s tag = x at hm hfree hlm hlt
  generalize ccLoadDone x c tag pos [] = y at hlm hlt
  obtain ⟨hm', ht', hw, hi⟩ := ccError_facts y c hst
  exact ⟨hm'.trans (hlm.trans hm), hw, hi, by rw [trkOf_congr (ht'.trans hlt), hfree]⟩

-- CREDIT (R335) ----------------------------------------------------------------------------------------------------------------------------------------

theorem credBack_out {c o : Nat} (hs : strayedOf s c o = 0) (hr : reclaimOf s c o = 0) (hout : 0 < credOutOf s c o) :
    (credBack s c o).1 = ledReturn1 (setCredOut (setF s (rOCH_CRED c o) 0 6 (getF s (rOCH_CRED c o) 0 6 + 1)) c o (credOutOf s c o - 1)) qCHCRED := by
  unfold credBack
  rw [if_neg (by omega), if_neg (by omega), if_pos hout]

theorem credBack_facts {c o : Nat} (hs : strayedOf s c o = 0) (hr : reclaimOf s c o = 0) (hout : 0 < credOutOf s c o) (hlt : getF s (rOCH_CRED c o) 0 6 < 63) :
    (credBack s c o).1.mem = s.mem ∧ getF (credBack s c o).1 (rOCH_CRED c o) 0 6 = getF s (rOCH_CRED c o) 0 6 + 1 ∧ credOutOf (credBack s c o).1 c o = credOutOf s c o - 1 := by
  have hf : getF (setF s (rOCH_CRED c o) 0 6 (getF s (rOCH_CRED c o) 0 6 + 1)) (rOCH_CRED c o) 0 6 = getF s (rOCH_CRED c o) 0 6 + 1 :=
    (getF_setF_same s _ 0 6 _ (by decide)).trans (Nat.mod_eq_of_lt (by omega))
  have hm : (setF s (rOCH_CRED c o) 0 6 (getF s (rOCH_CRED c o) 0 6 + 1)).mem = s.mem := setF_mem s _ _ _ _
  rw [credBack_out hs hr hout]
  generalize setF s (rOCH_CRED c o) 0 6 (getF s (rOCH_CRED c o) 0 6 + 1) = x at hf hm
  have hc : credOutOf (setCredOut x c o (credOutOf s c o - 1)) c o = credOutOf s c o - 1 := by
    rw [credOutOf, setCredOut, coreOf_modCore_same, mget_mset_same]
  have hf' : getF (setCredOut x c o (credOutOf s c o - 1)) (rOCH_CRED c o) 0 6 = getF s (rOCH_CRED c o) 0 6 + 1 := hf
  have hm' : (setCredOut x c o (credOutOf s c o - 1)).mem = s.mem := hm
  generalize setCredOut x c o (credOutOf s c o - 1) = y at hc hf' hm'
  have hl : RegsKeep (fun off => 0x200_0000 ≤ off) y (ledReturn1 y qCHCRED) :=
    RegsKeep.ite (RegsKeep.satF (by decide) y 16 16 1) (RegsKeep.add64 (by decide) (by decide) y 1)
  refine ⟨?_, (hl.getF_eq (by unfold rOCH_CRED coreBase; omega) 0 6).trans hf', ?_⟩
  · obtain ⟨⟨r, e⟩, -⟩ := hl
    rw [e]
    exact hm'
  · obtain ⟨⟨r, e⟩, -⟩ := hl
    rw [e]
    exact hc

theorem creditIn_facts (hlive : (coreOf s k.pkt.hdr.score).live.contains (k.pkt.hdr.addr % 64, k.pkt.hdr.tag, k.pkt.hdr.tgen) = true)
    (hs : strayedOf s k.pkt.hdr.score (k.pkt.hdr.addr % 64) = 0) (hr : reclaimOf s k.pkt.hdr.score (k.pkt.hdr.addr % 64) = 0)
    (hout : 0 < credOutOf s k.pkt.hdr.score (k.pkt.hdr.addr % 64)) (hlt : getF s (rOCH_CRED k.pkt.hdr.score (k.pkt.hdr.addr % 64)) 0 6 < 63) :
    (creditIn s k.pkt).mem = s.mem ∧
      getF (creditIn s k.pkt) (rOCH_CRED k.pkt.hdr.score (k.pkt.hdr.addr % 64)) 0 6 = getF s (rOCH_CRED k.pkt.hdr.score (k.pkt.hdr.addr % 64)) 0 6 + 1 ∧
      credOutOf (creditIn s k.pkt) k.pkt.hdr.score (k.pkt.hdr.addr % 64) = credOutOf s k.pkt.hdr.score (k.pkt.hdr.addr % 64) - 1 := by
  have he : creditIn s k.pkt = (credBack (liveDrop s k.pkt.hdr.score (k.pkt.hdr.addr % 64) k.pkt.hdr.tag) k.pkt.hdr.score (k.pkt.hdr.addr % 64)).1 := if_pos hlive
  have h1 : strayedOf (liveDrop s k.pkt.hdr.score (k.pkt.hdr.addr % 64) k.pkt.hdr.tag) k.pkt.hdr.score (k.pkt.hdr.addr % 64) = strayedOf s k.pkt.hdr.score (k.pkt.hdr.addr % 64) := by
    rw [strayedOf, liveDrop, coreOf_modCore_same, ← strayedOf]
  have h2 : reclaimOf (liveDrop s k.pkt.hdr.score (k.pkt.hdr.addr % 64) k.pkt.hdr.tag) k.pkt.hdr.score (k.pkt.hdr.addr % 64) = reclaimOf s k.pkt.hdr.score (k.pkt.hdr.addr % 64) := by
    rw [reclaimOf, liveDrop, coreOf_modCore_same, ← reclaimOf]
  have h3 : credOutOf (liveDrop s k.pkt.hdr.score (k.pkt.hdr.addr % 64) k.pkt.hdr.tag) k.pkt.hdr.score (k.pkt.hdr.addr % 64) = credOutOf s k.pkt.hdr.score (k.pkt.hdr.addr % 64) := by
    rw [credOutOf, liveDrop, coreOf_modCore_same, ← credOutOf]
  obtain ⟨hm, hf, ho⟩ := credBack_facts (s := liveDrop s k.pkt.hdr.score (k.pkt.hdr.addr % 64) k.pkt.hdr.tag) (h1.trans hs) (h2.trans hr) (by rw [h3]; exact hout) hlt
  rw [he]
  exact ⟨hm, hf, ho.trans (by rw [h3])⟩

-- a WRITE with a signal behind an earlier one (R337) -----------------------------------------------------------------------------------------------------

theorem mem_of_mget_rx {q : RxPkt} (l : List (Nat × PortSt)) (h : q ∈ (mget (fun _ => {}) l p).rx) : ∃ y ∈ l, q ∈ y.2.rx := by
  induction l with
  | nil => exact absurd h List.not_mem_nil
  | cons y l ih =>
    obtain ⟨a, v⟩ := y
    change q ∈ (if p = a then v else mget (fun _ => {}) l p).rx at h
    split at h
    · exact ⟨(a, v), List.mem_cons_self, h⟩
    · obtain ⟨z, hz, hq⟩ := ih h
      exact ⟨z, List.mem_cons_of_mem _ hz, hq⟩

theorem mem_arrivedPkts {q : RxPkt} (h : q ∈ (portOf s p).rx) : q ∈ arrivedPkts s := by
  obtain ⟨y, hy, hq⟩ := mem_of_mget_rx s.ports h
  exact List.mem_append_left _ (List.mem_flatMap.2 ⟨y, hy, List.mem_append_left _ hq⟩)

theorem inTurn_of_earlier {q : RxPkt} (hq : q ∈ (portOf s p).rx) (htyp : k.pkt.hdr.typ = 1) (hsig : k.pkt.hdr.sig = true) (hqt : q.pkt.hdr.typ = 1)
    (hsrc : q.pkt.hdr.srcPkg = k.pkt.hdr.srcPkg) (hdst : q.pkt.hdr.dstPkg = ownPkg s) (hn : q.n < k.n) : inTurn s p k = false := by
  have hany : ((arrivedPkts s).any fun q => q.pkt.hdr.srcPkg == k.pkt.hdr.srcPkg && decide (q.n < k.n) && q.pkt.hdr.typ == 1 && q.pkt.hdr.dstPkg == ownPkg s) = true :=
    List.any_eq_true.2 ⟨q, mem_arrivedPkts hq, by simp [hsrc, hn, hqt, hdst]⟩
  unfold inTurn
  dsimp only
  rw [hany, hsig, htyp]
  simp

-- the obligation ----------------------------------------------------------------------------------------------------------------------------------------------

theorem portTaken_frame (s : State) (p : Nat) : Frame [] s (portTaken s p) := ⟨fun _ => rfl, fun _ _ => rfl, rfl, rfl⟩
theorem portTaken_mem (s : State) (p : Nat) : (portTaken s p).mem = s.mem := setPort_mem s p _
theorem portTaken_regs (s : State) (p : Nat) : (portTaken s p).regs = s.regs := setPort_regs s p _
theorem portTaken_signals (s : State) (p : Nat) : (portTaken s p).signals = s.signals := setPort_signals s p _

/-- A WRITE of a store without a signal. -/
theorem write_facts {c : Nat} (hplace : placeOf k.pkt.hdr.addr k.pkt.payload.length = .store c) (hc : corePresent s c = true) (hsig : k.pkt.hdr.sig = false) :
    (writeIn s p k.pkt).signals = s.signals ∧ (∀ i, i < k.pkt.payload.length → rdByte (writeIn s p k.pkt) (k.pkt.hdr.addr + i) = k.pkt.payload.getD i 0) ∧
      (∀ a, (a < k.pkt.hdr.addr ∨ k.pkt.hdr.addr + k.pkt.payload.length ≤ a) → rdByte (writeIn s p k.pkt) a = rdByte s a) ∧
      Responds s (writeIn s p k.pkt) (ackPkt s k.pkt.hdr) := by
  have he : writeIn s p k.pkt = fabRespond (wrBytes s k.pkt.hdr.addr k.pkt.payload) (ackPkt s k.pkt.hdr) := by
    rw [writeIn_store hplace hc (by rw [hsig]; exact fun h => Bool.false_ne_true h.1), writeDone, hsig, if_neg Bool.false_ne_true, fabAck_eq, ackPkt_congr (wrBytes_regs s _ _)]
  obtain ⟨hm, hg⟩ := fabRespond_kept (wrBytes s k.pkt.hdr.addr k.pkt.payload) (ackPkt s k.pkt.hdr)
  have hbyte (a : Nat) : rdByte (fabRespond (wrBytes s k.pkt.hdr.addr k.pkt.payload) (ackPkt s k.pkt.hdr)) a =
      if k.pkt.hdr.addr ≤ a ∧ a < k.pkt.hdr.addr + k.pkt.payload.length then k.pkt.payload.getD (a - k.pkt.hdr.addr) 0 else rdByte s a :=
    (rdByte_congr hm a).trans (rdByte_wrBytes s _ a _)
  have hr := responds_of_same (wrBytes_ports s k.pkt.hdr.addr k.pkt.payload) (wrBytes_regs s _ _) (wrBytes_time s _ _) (ackPkt s k.pkt.hdr)
  rw [he]
  refine ⟨hg.trans (wrBytes_signals s _ _), fun i hi => ?_, fun a ha => ?_, hr⟩
  · rw [hbyte, if_pos (by omega), Nat.add_sub_cancel_left]
  · rw [hbyte, if_neg (by omega)]

/-- A WRITE of a store with a signal. -/
theorem writeSignal_facts {c : Nat} (hplace : placeOf k.pkt.hdr.addr k.pkt.payload.length = .store c) (hc : corePresent s c = true) (hsig : k.pkt.hdr.sig = true)
    (hscore : corePresent s k.pkt.hdr.score = true) : ∃ g, (writeIn s p k.pkt).signals = s.signals ++ [g] ∧ g.core = k.pkt.hdr.score ∧ g.ctr = k.pkt.hdr.sctr ∧
      g.count = k.pkt.hdr.scount ∧ g.gen = k.pkt.hdr.sgen ∧ g.own = false := by
  have he : writeIn s p k.pkt = fabAck (fabSignal (wrBytes s k.pkt.hdr.addr k.pkt.payload) p 2 k.pkt.hdr) k.pkt.hdr := by
    rw [writeIn_store hplace hc (by rw [hscore]; exact fun h => Bool.false_ne_true h.2.symm), writeDone, hsig, if_pos rfl]
  have hsignals := wrBytes_signals s k.pkt.hdr.addr k.pkt.payload
  rw [he]
  generalize wrBytes s k.pkt.hdr.addr k.pkt.payload = x at hsignals
  obtain ⟨-, -, g, hg, hf⟩ := signalled_facts x p 2 k.pkt.hdr
  exact ⟨g, by rw [hg, hsignals], hf⟩

/-- Settles O50, by the type of the packet. -/
theorem packetsActAtTheirTarget : Obligations.PacketsActAtTheirTarget := by
  unfold Obligations.PacketsActAtTheirTarget
  intro port k h s s0 _ hl hh _ hs0
  subst hh
  have hs0' : s0 = portTaken s port := hs0
  subst hs0'
  have hown : ownPkg (portTaken s port) = ownPkg s := getF_congr (portTaken_regs s port) _ 0 16
  have hack : ackPkt (portTaken s port) k.pkt.hdr = ackPkt s k.pkt.hdr := ackPkt_congr (portTaken_regs s port) _
  have hmem := portTaken_mem s port
  have hsignals := portTaken_signals s port
  have hpresent (c : Nat) : corePresent (portTaken s port) c = corePresent s c := rfl
  refine ⟨fun hturn => ⟨fun c htyp hplace hc hwait => ⟨fun hsig => ?_, fun hsig hscore => ?_⟩, fun c htyp hplace hc hwait => ?_, fun hlate => ?_,
    fun w q t0 hbusy hgen => ⟨fun c d id pos x htyp hw hx hid hstop hearly hpay => ?_, fun c d id len x htyp hw hx hid => ?_, fun c pos htyp hw hst => ?_⟩,
    fun htyp hc hreq => ?_, fun o htyp ho hlive hstray hrec hout hlt => ?_, fun htyp hc => ?_⟩, fun q hq htyp hsig hqt hsrc hdst hn => ?_⟩
  case refine_1 =>
    have he := landedRun_one hl hturn htyp (writeWaits_store (s := s) hplace hwait) fun s k => writeIn s port k.pkt
    obtain ⟨hg, hin, hout, hr⟩ := write_facts (s := portTaken s port) (p := port) hplace hc hsig
    rw [hack] at hr
    exact ⟨_, congrArg Host.Outcome.next he, hg.trans hsignals, hin, fun a ha => (hout a ha).trans (rdByte_congr hmem a), hr⟩
  case refine_2 =>
    have he := landedRun_one hl hturn htyp (writeWaits_store (s := s) hplace hwait) fun s k => writeIn s port k.pkt
    obtain ⟨g, hg, hf⟩ := writeSignal_facts (s := portTaken s port) (p := port) hplace hc hsig hscore
    exact ⟨_, congrArg Host.Outcome.next he, g, by rw [hg, hsignals], hf⟩
  case refine_3 =>
    have he := landedRun_one hl hturn htyp (readWaits_store (s := s) hplace hwait) fun s k => readIn s port k.pkt
    have hbytes : rdBytes (portTaken s port) k.pkt.hdr.addr k.pkt.hdr.len = rdBytes s k.pkt.hdr.addr k.pkt.hdr.len :=
      List.map_congr_left fun i _ => rdByte_congr hmem _
    rw [readIn_store (s := portTaken s port) hplace hc, hbytes, hown] at he
    exact ⟨_, congrArg Host.Outcome.next he, rdByte_congr ((fabRespond_kept _ _).1.trans hmem), fun _ => rfl⟩
  case refine_4 =>
    obtain ⟨hf, hcount⟩ := trkLate_facts (portTaken s port)
    have hf' : Frame [rFAB_TRK + 4] s (trkLate (portTaken s port)) := Frame.trans ((portTaken_frame s port).mono fun _ hx => absurd hx List.not_mem_nil) hf
    have hcount' : getF (trkLate (portTaken s port)) (rFAB_TRK + 4) 0 16 = min 65535 (getF s (rFAB_TRK + 4) 0 16 + 1) := by
      rw [hcount, getF_congr (portTaken_regs s port)]
    have hlate' (f : State → State) : trkRespond (portTaken s port) k.pkt.hdr f = trkLate (portTaken s port) := trkRespond_late (s := portTaken s port) hlate f
    rw [List.forall_mem_cons, List.forall_mem_cons, List.forall_mem_cons]
    refine ⟨fun htyp => ⟨_, congrArg Host.Outcome.next ((landedRun_one hl hturn htyp (waits := noWait) rfl _).trans (hlate' _)), hf', hcount'⟩,
      fun htyp => ⟨_, congrArg Host.Outcome.next ((landedRun_one hl hturn htyp (waits := noWait) rfl _).trans (hlate' _)), hf', hcount'⟩,
      fun htyp => ⟨_, congrArg Host.Outcome.next ((landedRun_one hl hturn htyp (waits := noWait) rfl _).trans (hlate' _)), hf', hcount'⟩, by simp⟩
  case refine_5 =>
    subst hw hid
    obtain ⟨hm, ha, hfree⟩ := trkData_facts (s := portTaken s port) hbusy hx k.marks k.pkt.payload
    have he := (landedRun_one hl hturn htyp (waits := noWait) rfl fun s k => trkRespond s k.pkt.hdr (trkData · k.pkt.hdr.tag k.marks k.pkt.payload)).trans (trkRespond_busy (s := portTaken s port) hbusy hgen _)
    exact ⟨_, _, congrArg Host.Outcome.next he, rdByte_congr (hm.trans hmem), ha, hfree, landBytes_facts hstop hearly hpay pos _⟩
  case refine_6 =>
    subst hw hid
    obtain ⟨hm, ha, hfree⟩ := trkAck_facts (s := portTaken s port) hbusy hx
    have he := (landedRun_one hl hturn htyp (waits := noWait) rfl fun s k => trkRespond s k.pkt.hdr (trkAck · k.pkt.hdr.tag)).trans (trkRespond_busy (s := portTaken s port) hbusy hgen _)
    exact ⟨_, congrArg Host.Outcome.next he, rdByte_congr (hm.trans hmem), ha, hfree⟩
  case refine_7 =>
    subst hw
    obtain ⟨hm, hwin, hirq, hfree⟩ := trkFail_facts (s := portTaken s port) (why := k.pkt.hdr.addr) hbusy hst
    have he := (landedRun_one hl hturn htyp (waits := noWait) rfl fun s k => trkRespond s k.pkt.hdr (trkFail · k.pkt.hdr.tag k.pkt.hdr.status k.pkt.hdr.addr)).trans
      (trkRespond_busy (s := portTaken s port) hbusy hgen _)
    exact ⟨_, congrArg Host.Outcome.next he, rdByte_congr (hm.trans hmem), hwin, hirq, hfree⟩
  case refine_8 =>
    have hmsg : msgIn (portTaken s port) port k.pkt =
        { portTaken s port with flights := (portTaken s port).flights ++ [⟨k.pkt.hdr.score, k.pkt.hdr.addr % 16, k.pkt.hdr.srcPkg, wordsOf k.pkt.payload, 0, some (port.val, k.pkt.hdr), 0⟩] } := by
      unfold msgIn
      dsimp only
      rw [hpresent, hc, if_neg (by decide), if_pos hreq]
    have he := (landedRun_one hl hturn htyp (waits := noWait) rfl fun s k => msgIn s port k.pkt).trans hmsg
    exact ⟨_, congrArg Host.Outcome.next he, ⟨fun _ => rfl, fun _ _ => rfl, rfl, rfl⟩, rfl⟩
  case refine_9 =>
    subst ho
    obtain ⟨hm, hf, hcred⟩ := creditIn_facts (s := portTaken s port) hlive hstray hrec hout hlt
    have he := landedRun_one hl hturn htyp (waits := noWait) rfl fun s k => creditIn s k.pkt
    exact ⟨_, congrArg Host.Outcome.next he, rdByte_congr (hm.trans hmem), hf, hcred⟩
  case refine_10 =>
    have hsig : signalIn (portTaken s port) port k.pkt = fabAck (fabSignal (portTaken s port) port 5 k.pkt.hdr) k.pkt.hdr := if_pos hc
    obtain ⟨hm, hr, g, hg, hf⟩ := signalled_facts (portTaken s port) port 5 k.pkt.hdr
    rw [hack] at hr
    have he := (landedRun_one hl hturn htyp (waits := noWait) rfl fun s k => signalIn s port k.pkt).trans hsig
    exact ⟨_, congrArg Host.Outcome.next he, rdByte_congr (hm.trans hmem), hr, g, by rw [hg, hsignals], hf⟩
  case refine_11 =>
    exact congrArg Host.Outcome.next (landedRun_waits hl (inTurn_of_earlier hq htyp hsig hqt hsrc hdst hn) 1 _ _)

end Sys2Proof.Safety
end

section
/-! PROOF. O17: RECV takes the oldest message (R232, R92). -/

namespace Sys2Proof.Safety

open Sys2Proof.Machine

variable {s s' t : State} {c u : Nat}

-- what the scalar registers read with the queue's words ------------------------------------------------------------------------------------------

/-- What one waiting word makes of the value that register r reads (R92). -/
def queueStep (u r : Nat) (a : Option (Option (BitVec 64))) (e : VxEnt) : Option (Option (BitVec 64)) :=
  if e.slot ≠ u then a
  else
    match e.puts.reverse.find? fun p => p.1 == r with
    | some p => some (some p.2)
    | none => if scalarWrite e.word.toNat = some r then some none else a

theorem queuedWrite_eq (q : List VxEnt) (u r : Nat) : queuedWrite q u r = q.foldl (queueStep u r) none := rfl

/-- A waiting word with one more value for a register. -/
def withPut (e : VxEnt) (r : Nat) (v : BitVec 64) : VxEnt := { e with puts := e.puts ++ [(r, v)] }

theorem queueStep_withPut_same (r : Nat) (v : BitVec 64) (a : Option (Option (BitVec 64))) {e : VxEnt} (h : e.slot = u) : queueStep u r a (withPut e r v) = some (some v) := by
  have hfind : (withPut e r v).puts.reverse.find? (fun p => p.1 == r) = some (r, v) := by
    rw [withPut, List.reverse_append, List.reverse_singleton, List.singleton_append]
    exact List.find?_cons_of_pos (by simp)
  have hslot : (withPut e r v).slot = u := h
  unfold queueStep
  rw [if_neg (by simp [hslot]), hfind]

theorem queueStep_withPut_other {r q : Nat} (v : BitVec 64) (a : Option (Option (BitVec 64))) (e : VxEnt) (hq : q ≠ r) : queueStep u q a (withPut e r v) = queueStep u q a e := by
  have hfind : (withPut e r v).puts.reverse.find? (fun p => p.1 == q) = e.puts.reverse.find? fun p => p.1 == q := by
    rw [withPut, List.reverse_append, List.reverse_singleton, List.singleton_append]
    exact List.find?_cons_of_neg (by simpa using Ne.symm hq)
  unfold queueStep
  rw [hfind]
  rfl

theorem queuedWrite_concat (l : List VxEnt) (e : VxEnt) (r : Nat) : queuedWrite (l ++ [e]) u r = queueStep u r (queuedWrite l u r) e := by
  rw [queuedWrite_eq, queuedWrite_eq, List.foldl_append]
  rfl

theorem putSreg_nil (h : (coreOf s c).vxq = []) (r : Nat) (v : BitVec 64) : putSreg s c u r v = setSreg s c u r v := by
  unfold putSreg
  rw [h]
  rfl

theorem putSreg_concat {l : List VxEnt} {e : VxEnt} (h : (coreOf s c).vxq = l ++ [e]) (r : Nat) (v : BitVec 64) :
    putSreg s c u r v = modCore s c fun k => { k with vxq := l ++ [withPut e r v] } := by
  unfold putSreg
  rw [h, List.reverse_append, List.reverse_singleton, List.singleton_append]
  dsimp only
  rw [List.reverse_cons, List.reverse_reverse]
  rfl

/-- All the words that wait in a core's vector queue are of slot u. -/
def QueueOf (s : State) (c u : Nat) : Prop := ∀ e ∈ (coreOf s c).vxq, e.slot = u

/-- What a value put into a scalar register keeps. -/
structure PutKept (c u : Nat) (s s' : State) : Prop where
  mem : s'.mem = s.mem
  regs : s'.regs = s.regs
  cores : OtherCores c s s'
  slots : OtherSlots c u s s'
  rings : (coreOf s' c).rings = (coreOf s c).rings
  pc : (slotOf s' c u).pc = (slotOf s c u).pc
  queue : QueueOf s c u → QueueOf s' c u

namespace PutKept

theorem refl (c u : Nat) (s : State) : PutKept c u s s := ⟨rfl, rfl, fun _ _ => rfl, fun _ _ => rfl, rfl, rfl, id⟩
theorem trans (h : PutKept c u s s') (h' : PutKept c u s' t) : PutKept c u s t :=
  ⟨h'.mem.trans h.mem, h'.regs.trans h.regs, fun k hk => (h'.cores k hk).trans (h.cores k hk), fun x hx => (h'.slots x hx).trans (h.slots x hx),
    h'.rings.trans h.rings, h'.pc.trans h.pc, fun hq => h'.queue (h.queue hq)⟩

theorem modSlot (s : State) (c u : Nat) {g : SlotSt → SlotSt} (hg : ∀ x, (g x).pc = x.pc) : PutKept c u s (modSlot s c u g) := by
  obtain ⟨hs, hc, ⟨l, hl⟩, ho⟩ := slotStep_modSlot s c u g
  refine ⟨modSlot_mem s c u g, modSlot_regs s c u g, hc, ho, by rw [hl], by rw [slotOf_modSlot_same, hg], fun hq e he => hq e (by rw [hl] at he; exact he)⟩

theorem putSreg (s : State) (c u r : Nat) (v : BitVec 64) : PutKept c u s (putSreg s c u r v) := by
  rcases List.eq_nil_or_concat (coreOf s c).vxq with h | ⟨l, e, h⟩
  · rw [putSreg_nil h]
    exact modSlot s c u fun _ => rfl
  · rw [List.concat_eq_append] at h
    rw [putSreg_concat h]
    have hcore := coreOf_modCore_same s c fun k => { k with vxq := l ++ [withPut e r v] }
    refine ⟨modCore_mem s c _, modCore_regs s c _, fun k hk => coreOf_modCore_other s _ hk, fun x _ => by rw [slotOf, hcore, ← slotOf], by rw [hcore], by rw [slotOf, hcore, ← slotOf],
      fun hq x hx => ?_⟩
    rw [hcore] at hx
    rcases List.mem_append.1 hx with hx | hx
    · exact hq x (by rw [h]; exact List.mem_append_left _ hx)
    · rw [List.mem_singleton.1 hx]
      exact hq e (by rw [h]; exact List.mem_append_right _ (List.mem_singleton.2 rfl))

theorem foldl {α : Type*} {l : List α} {g : State → α → State} (hg : ∀ x a, PutKept c u x (g x a)) (s : State) : PutKept c u s (l.foldl g s) :=
  List.foldlRecOn (motive := PutKept c u s) l _ (refl c u s) fun x h a _ => h.trans (hg x a)

end PutKept

/-- A register reads the value put into it; the others read as before. -/
theorem sregNow_putSreg (hq : QueueOf s c u) (r : Nat) (v : BitVec 64) (q : Nat) : sregNow (putSreg s c u r v) c u q = if q = r then v else sregNow s c u q := by
  rcases List.eq_nil_or_concat (coreOf s c).vxq with h | ⟨l, e, h⟩
  · have hvxq : (coreOf (setSreg s c u r v) c).vxq = [] := by
      obtain ⟨k, hk⟩ := (slotStep_modSlot s c u fun x => { x with sreg := mset (fun _ => 0) x.sreg r v }).core
      rw [setSreg, hk]
      exact h
    have hnow : sregNow (setSreg s c u r v) c u q = sreg (setSreg s c u r v) c u q := by rw [sregNow, hvxq]; rfl
    have hold : sregNow s c u q = sreg s c u q := by rw [sregNow, h]; rfl
    rw [putSreg_nil h, hnow, hold, sreg, setSreg, slotOf_modSlot_same]
    by_cases e : q = r
    · rw [if_pos e, e]
      exact mget_mset_same _ _ r v
    · rw [if_neg e]
      exact mget_mset_other _ _ v e
  · rw [List.concat_eq_append] at h
    have hslot : e.slot = u := hq e (by rw [h]; exact List.mem_append_right _ (List.mem_singleton.2 rfl))
    have hcore := coreOf_modCore_same s c fun k => { k with vxq := l ++ [withPut e r v] }
    rw [putSreg_concat h, sregNow, hcore]
    dsimp only
    rw [queuedWrite_concat]
    by_cases hqr : q = r
    · rw [if_pos hqr, hqr, queueStep_withPut_same r v _ hslot]
    · rw [if_neg hqr, queueStep_withPut_other v _ e hqr, ← queuedWrite_concat, ← h, sregNow, sreg, sreg, slotOf, hcore, ← slotOf]

/-- The values f put into the n registers from base on. -/
def putsFrom (s : State) (c u base n : Nat) (f : Nat → BitVec 64) : State := (List.range n).foldl (fun s i => putSreg s c u (base + i) (f i)) s

theorem putKept_putsFrom (s : State) (c u base n : Nat) (f : Nat → BitVec 64) : PutKept c u s (putsFrom s c u base n f) := PutKept.foldl (fun x _ => PutKept.putSreg x c u _ _) s

theorem sregNow_putsFrom (hq : QueueOf s c u) (base n : Nat) (f : Nat → BitVec 64) (q : Nat) :
    sregNow (putsFrom s c u base n f) c u q = if base ≤ q ∧ q < base + n then f (q - base) else sregNow s c u q := by
  induction n with
  | zero => rw [if_neg (by omega)]; rfl
  | succ n ih =>
    have hstep : putsFrom s c u base (n + 1) f = putSreg (putsFrom s c u base n f) c u (base + n) (f n) := by rw [putsFrom, List.range_succ, List.foldl_append]; rfl
    rw [hstep, sregNow_putSreg ((putKept_putsFrom s c u base n f).queue hq), ih]
    by_cases h : q = base + n
    · rw [if_pos h, if_pos (by omega), h, Nat.add_sub_cancel_left]
    · rw [if_neg h]
      by_cases h' : base ≤ q ∧ q < base + n
      · rw [if_pos h', if_pos (by omega)]
      · rw [if_neg h', if_neg (by omega)]

-- the message taken ---------------------------------------------------------------------------------------------------------------------------------

/-- The state with the message taken from its ring, its slot of the ring returned. -/
def taken (s : State) (c e : Nat) (m : RingMsg) : State := popped (setRing s c e ((ringOf s c e).erase m)) m

/-- What RECV leaves, its handler aside (R232). -/
def received (s : State) (c u w : Nat) (m : RingMsg) : State :=
  modSlot (putsFrom (putSreg (taken s c (recvIch w) m) c u (recvSd w) (m.words.headD 0)) c u (recvSd w + 1) 7
    fun i => if i < hdrLen (m.words.headD 0) then m.words.getD (i + 1) 0 else 0) c u fun x => { x with mres := none, wait := none }

theorem recvRun_eq {w : Nat} {m : RingMsg} (hm : recvMsg s c u (recvIch w) = some m) (hres : hdrRres (m.words.headD 0) = false)
    (hen : bits (handlerOf s c u (m.words.headD 0)) 13 1 = 0) : recvRun s c u w = (received s c u w m, none) := by
  unfold recvRun
  dsimp only
  rw [hm]
  dsimp only
  rw [hres, Bool.and_false, if_neg Bool.false_ne_true, if_neg (by omega)]
  rfl

/-- Registers beside the ledgers. -/
def BesideLedger (off : Nat) : Prop := off < 0x20_0000 ∨ 0x100_0000 ≤ off

theorem regsKeep_ringReturned (s : State) : RegsKeep BesideLedger s (ledReturn1 s qRING) :=
  RegsKeep.ite (RegsKeep.satF (by unfold BesideLedger; decide) s 16 16 1) (RegsKeep.add64 (by unfold BesideLedger; decide) (by unfold BesideLedger; decide) s 1)

/-- The credit of a message of this package goes back. -/
def credited (s : State) (c o : Nat) : State := { s with credits := s.credits ++ [(c, o)] }

theorem credited_regs (s : State) (c o : Nat) : (credited s c o).regs = s.regs := (rfl)
theorem credited_mem (s : State) (c o : Nat) : (credited s c o).mem = s.mem := (rfl)
theorem credited_cores (s : State) (c o : Nat) : (credited s c o).cores = s.cores := (rfl)

theorem creditToSender_own {m : RingMsg} (h : hdrPkg (m.words.headD 0) = ownPkg s) :
    creditToSender s m = credited s (hdrCore (m.words.headD 0)) (hdrOch (m.words.headD 0)) := if_pos h

theorem ownPkg_ringReturned (s : State) : ownPkg (ledReturn1 s qRING) = ownPkg s := (regsKeep_ringReturned s).getF_eq (off := rPKG_ID) (.inl (by decide)) 0 16

theorem popped_eq (s : State) (m : RingMsg) : popped s m = if hdrReq (m.words.headD 0) then creditToSender (ledReturn1 s qRING) m else ledReturn1 s qRING := rfl

/-- A slot of a ring is returned, and a credit: no core, no byte and no register beside the ledgers changes. -/
theorem popped_facts {m : RingMsg} (hpkg : hdrReq (m.words.headD 0) = true → hdrPkg (m.words.headD 0) = ownPkg s) :
    (popped s m).mem = s.mem ∧ (popped s m).cores = s.cores ∧ ∀ off, 0x100_0000 ≤ off → getR (popped s m) off = getR s off := by
  have hr := regsKeep_ringReturned s
  have hown := ownPkg_ringReturned s
  rw [popped_eq]
  generalize ledReturn1 s qRING = y at hr hown
  have hregs : ∀ off, 0x100_0000 ≤ off → getR y off = getR s off := fun off ho => hr.kept off (.inr ho)
  obtain ⟨⟨r, hy⟩, -⟩ := hr
  have hm : y.mem = s.mem := by rw [hy]
  have hc : y.cores = s.cores := by rw [hy]
  split
  · rename_i hreq
    rw [creditToSender_own (by rw [hown]; exact hpkg hreq)]
    exact ⟨(credited_mem y _ _).trans hm, (credited_cores y _ _).trans hc, fun off ho => (getR_congr (credited_regs y _ _) off).trans (hregs off ho)⟩
  · exact ⟨hm, hc, hregs⟩

/-- The part of a RECV that takes the message: cores keep all but the ring. -/
theorem taken_facts (s : State) (c e : Nat) {m : RingMsg} (hpkg : hdrReq (m.words.headD 0) = true → hdrPkg (m.words.headD 0) = ownPkg s) :
    (taken s c e m).mem = s.mem ∧ (taken s c e m).cores = (setRing s c e ((ringOf s c e).erase m)).cores ∧
      ∀ off, 0x100_0000 ≤ off → getR (taken s c e m) off = getR s off := by
  have hm : (setRing s c e ((ringOf s c e).erase m)).mem = s.mem := modCore_mem s c _
  have hx : (setRing s c e ((ringOf s c e).erase m)).regs = s.regs := modCore_regs s c _
  unfold taken
  generalize setRing s c e ((ringOf s c e).erase m) = x at hm hx
  obtain ⟨hpm, hpc, hpr⟩ := popped_facts (s := x) (m := m) fun h => by rw [ownPkg, getF_congr hx, ← ownPkg]; exact hpkg h
  exact ⟨hpm.trans hm, hpc, fun off ho => (hpr off ho).trans (getR_congr hx off)⟩

/-- The cores as the message leaves them. -/
theorem ringTaken_facts (s : State) (c e : Nat) (l : List RingMsg) :
    OtherCores c s (setRing s c e l) ∧ (∀ u, slotOf (setRing s c e l) c u = slotOf s c u) ∧ ringOf (setRing s c e l) c e = l ∧ (coreOf (setRing s c e l) c).vxq = (coreOf s c).vxq := by
  have hcore := coreOf_modCore_same s c fun k => { k with rings := mset (fun _ => []) k.rings e l }
  refine ⟨fun k hk => coreOf_modCore_other s _ hk, fun u => ?_, ?_, ?_⟩
  · rw [slotOf, setRing, hcore, ← slotOf]
  · rw [ringOf, setRing, hcore]
    exact mget_mset_same _ _ e l
  · rw [setRing, hcore]

/-- What a RECV of a request without a reply reference leaves. -/
theorem received_facts {w : Nat} {m : RingMsg} (hq : QueueOf s c u) (hpkg : hdrReq (m.words.headD 0) = true → hdrPkg (m.words.headD 0) = ownPkg s) :
    SameMem s (received s c u w m) ∧ OtherCores c s (received s c u w m) ∧ OtherSlots c u s (received s c u w m) ∧
      ringOf (received s c u w m) c (recvIch w) = (ringOf s c (recvIch w)).erase m ∧ (slotOf (received s c u w m) c u).pc = (slotOf s c u).pc ∧
      (∀ off, 0x100_0000 ≤ off → getR (received s c u w m) off = getR s off) ∧
      sregNow (received s c u w m) c u (recvSd w) = m.words.headD 0 ∧
      (∀ i, i < 7 → sregNow (received s c u w m) c u (recvSd w + 1 + i) = if i < hdrLen (m.words.headD 0) then m.words.getD (i + 1) 0 else 0) ∧
      ∀ r, r < recvSd w ∨ recvSd w + 7 < r → sregNow (received s c u w m) c u r = sregNow s c u r := by
  obtain ⟨hm, hc, hr⟩ := taken_facts s c (recvIch w) hpkg
  obtain ⟨hoc, hos, hring, hvxq⟩ := ringTaken_facts s c (recvIch w) ((ringOf s c (recvIch w)).erase m)
  have hcore := coreOf_congr hc
  have hslot (k x : Nat) : slotOf (taken s c (recvIch w) m) k x = slotOf (setRing s c (recvIch w) ((ringOf s c (recvIch w)).erase m)) k x := by rw [slotOf, hcore, ← slotOf]
  have hring' : ringOf (taken s c (recvIch w) m) c (recvIch w) = (ringOf s c (recvIch w)).erase m := by rw [ringOf, hcore, ← ringOf, hring]
  have hnow (r : Nat) : sregNow (taken s c (recvIch w) m) c u r = sregNow s c u r := by
    rw [sregNow, hcore, hvxq, sreg, hslot, hos, ← sreg]
    rfl
  have hq' : QueueOf (taken s c (recvIch w) m) c u := by
    unfold QueueOf
    rw [hcore, hvxq]
    exact hq
  have hoc' : OtherCores c s (taken s c (recvIch w) m) := fun k hk => (hcore k).trans (hoc k hk)
  have hos' (x : Nat) : slotOf (taken s c (recvIch w) m) c x = slotOf s c x := (hslot c x).trans (hos x)
  unfold received
  generalize taken s c (recvIch w) m = x at hm hr hring' hnow hq' hoc' hos'
  have h1 := PutKept.putSreg x c u (recvSd w) (m.words.headD 0)
  have hn1 := sregNow_putSreg hq' (recvSd w) (m.words.headD 0)
  generalize putSreg x c u (recvSd w) (m.words.headD 0) = y at h1 hn1
  have h2 := putKept_putsFrom y c u (recvSd w + 1) 7 fun i => if i < hdrLen (m.words.headD 0) then m.words.getD (i + 1) 0 else 0
  have hn2 := sregNow_putsFrom (h1.queue hq') (recvSd w + 1) 7 fun i => if i < hdrLen (m.words.headD 0) then m.words.getD (i + 1) 0 else 0
  generalize putsFrom y c u (recvSd w + 1) 7 (fun i => if i < hdrLen (m.words.headD 0) then m.words.getD (i + 1) 0 else 0) = z at h2 hn2
  have h3 : PutKept c u z (modSlot z c u fun x => { x with mres := none, wait := none }) := PutKept.modSlot z c u fun _ => rfl
  have hn3 (r : Nat) : sregNow (modSlot z c u fun x => { x with mres := none, wait := none }) c u r = sregNow z c u r := by
    obtain ⟨l, hl⟩ := (slotStep_modSlot z c u fun x => { x with mres := none, wait := none }).core
    rw [sregNow, hl, sreg, slotOf_modSlot_same]
    rfl
  generalize modSlot z c u (fun x => { x with mres := none, wait := none }) = v at h3 hn3
  have h := (h1.trans h2).trans h3
  refine ⟨rdByte_congr (h.mem.trans hm), fun k hk => (h.cores k hk).trans (hoc' k hk), fun k hk => (h.slots k hk).trans (hos' k), ?_, h.pc.trans (by rw [hos']),
    fun off ho => (getR_congr h.regs off).trans (hr off ho), ?_, fun i hi => ?_, fun r hr' => ?_⟩
  · rw [ringOf, h.rings, ← ringOf, hring']
  · rw [hn3, hn2, if_neg (by omega), hn1, if_pos rfl]
  · rw [hn3, hn2, if_pos (by omega), Nat.add_sub_cancel_left]
  · rw [hn3, hn2, if_neg (by omega), hn1, if_neg (by omega), hnow]

/-- A RECV whose handler does not dispatch acts as its own effect and the step of its slot. -/
theorem actGroup_of_recv {w i : Nat} (hop : wOp w = .recv) {s1 : State} (hr : recvRun s c u w = (s1, none)) : actGroup s c u [(i, w)] = afterVector s s1 c u i w := by
  have hvec : isVec w = false := by
    have key : ∀ n, n < 256 → opOf n = .recv → ¬ (if n / 16 = 5 then 4 else n / 16) = 4 := by decide +kernel
    exact decide_eq_false (key (wOP w) (bits_lt w 48 8) hop)
  have hearly : actEarly s s c u (i, w) = s := by simp [actEarly, hop]
  have hmid : actMid s s c u (i, w) = s := by simp [actMid, hop]
  simp only [actGroup, List.foldl_cons, List.foldl_nil, hearly, hmid, actVec, hvec, Bool.false_eq_true, if_false, actRecv, List.find?_cons, hop, decide_true, hr,
    List.any_cons, List.any_nil, reduceCtorEq, decide_false, Bool.or_self, ite_self, List.headD_cons]
  rfl

/-- Settles O17: the message taken and its words put (`received_facts`), with the slot's step (`wordDone_afterVector`). -/
theorem recvTakesTheOldestMessage : Obligations.RecvTakesTheOldestMessage := by
  unfold Obligations.RecvTakesTheOldestMessage
  intro core s u f w m hi hop hm hq hres hen hpkg
  obtain ⟨hmem, hoc, hos, hring, hpc, hregs, hsd, hpay, hrest⟩ := received_facts (w := w) hq hpkg
  have hact := actGroup_of_recv (i := (slotOf s core u).pc) hop (recvRun_eq hm hres hen)
  have hseq := sequencer_of_issues hi (lead := (· = .recv)) (by simp [hop])
  have hfloe : floeFor (received s core u w m) core u = some f :=
    (floeFor_of_regRange (fun off ho _ => hregs off ho) core.isLt u).trans hi.2.2.2.1
  have hd := wordDone_afterVector (s := s) hfloe (slotOf s core u).pc w
  generalize received s core u w m = x at hmem hoc hos hring hpc hregs hsd hpay hrest hact hd
  obtain ⟨l, hl⟩ := hd.core
  have hslot := hd.slot (by rw [hop]; decide)
  have hnow (r : Nat) : sregNow (afterVector s x core u (slotOf s core u).pc w) core u r = sregNow x core u r := by
    rw [sregNow, hl, sreg, hslot]
    rfl
  refine ⟨_, congrArg Host.Outcome.next (hseq.trans hact), hd.sameMem hmem, hd.otherCores hoc, hd.otherSlots hos, ?_, (hnow _).trans hsd, fun i hi => (hnow _).trans (hpay i hi),
    fun r hr => (hnow r).trans (hrest r hr), ?_⟩
  · rw [ringOf, hl]
    exact hring
  · rw [hslot]
    rfl

end Sys2Proof.Safety
end

section
/-! PROOF. The alignment of a crossing performs the writes that waited for it (R288), which refutes O34. -/

namespace Sys2Proof.Safety

open Sys2Proof.Machine Sys2Proof.Tests

/-- Cluster 0's crossing waits for its alignment, and a control core's write of FIRN_MAP waits for the crossing. -/
def behindCrossing : State := regTop (setXlat base 0 0) (.cc 0) (rFIRN_MAP 0) false 0

theorem behindCrossing_waits : behindCrossing.pwr.held.length = 1 ∧ (regionOf behindCrossing 0).xlat = 0 ∧ regionUp behindCrossing 0 = true ∧
    regionUp behindCrossing (32 + 0 / 8) = true ∧ regionN behindCrossing 0 = regionN behindCrossing (32 + 0 / 8) := by decide +kernel

/-- The alignment lets the write through. -/
theorem align_performs_held : getR (flushHeld (align behindCrossing (.cluster 0) false)) (rFIRN_MAP 0) ≠ getR behindCrossing (rFIRN_MAP 0) := by decide +kernel

theorem crossingAlign_of_next {x : Crossing} {three : Bool} {s s' : State} (h : exec (.crossingAlign x three) s = .next s') : flushHeld (align s x three) = s' :=
  Host.Outcome.next.inj h

/-- Refutes O34: the alignment of a cluster's crossing performs the write of FIRN_MAP that waited for it, so registers besides CLK_STAT change. -/
theorem not_regionsStretchAlignAndTurn : ¬ Obligations.RegionsStretchAlignAndTurn := by
  intro h
  obtain ⟨-, hx, hup, hsvc, hN⟩ := behindCrossing_waits
  obtain ⟨-, -, halign, -⟩ := h 0 behindCrossing (by decide) hup
  obtain ⟨s', hexec, hframe, -⟩ := halign false 0 rfl hx hsvc hN
  obtain rfl := crossingAlign_of_next hexec
  exact align_performs_held (hframe.getR_eq (by decide))

end Sys2Proof.Safety
end

section
/-! SUPPORT. Images: their reads and writes, the status of the boot, the boot ROM and pushes (R400 to R404, R431). -/

namespace Sys2Proof.Safety

open Sys2Proof.Machine

variable {s s' t : State} {src : Src} {m p : List Byte} {e i : Nat}

-- what an image's reads and writes leave ----------------------------------------------------------------------------------------------------

theorem apart_devRead (s : State) (w : FirnWho) (fuel a n : Nat) : apart (devRead s w fuel a n).1 = apart s := by
  induction fuel generalizing s a n with
  | zero => rfl
  | succ fuel ih =>
    have hkeys : apart (readKeys (openRow (ledReturn1 (ledIssue (settleChan s (memKey s a) s.firnEnt.length) qFIRNREQ 1) qFIRNREQ) (memKey s a)) w 9 (memKey s a)
        (min n (256 - a % 256))).1 = apart s := by simp
    unfold devRead
    dsimp only
    split
    · rfl
    · split
      · generalize readKeys _ w 9 (memKey s a) _ = x at hkeys
        obtain ⟨s3, bs, bad⟩ := x
        cases bad with
        | true => exact hkeys
        | false => exact (ih s3 _ _).trans hkeys
      · rfl

theorem apart_imageRead (s : State) (off n : Nat) : apart (imageRead s off n).1 = apart s := apart_devRead s whoHost _ _ _

/-- The payload of the image copy, as its manifest gives its length. -/
def payRead (s : State) : State × List Byte × Bool := imageRead (imageRead s 0 0x2000).1 0x2000 (min (manPlen (imageRead s 0 0x2000).2.1) 0xF0_0000)

theorem imageCheck_eq (s : State) : imageCheck s = ((payRead s).1, (imageRead s 0 0x2000).2.1, (payRead s).2.1,
    if (imageRead s 0 0x2000).2.2 then 1
    else if (payRead s).2.2 ∧ verifyImage (payRead s).1.sec.svn (imageRead s 0 0x2000).2.1 (payRead s).2.1 = 0 then 6
    else verifyImage (payRead s).1.sec.svn (imageRead s 0 0x2000).2.1 (payRead s).2.1) := by
  delta imageCheck payRead
  with_reducible rfl

theorem apart_payRead (s : State) : apart (payRead s).1 = apart s := by
  delta payRead
  rw [apart_imageRead, apart_imageRead]

theorem fst_of_eq_mk {α β : Type*} {x : α × β} {a : α} {b : β} (h : x = (a, b)) : x.1 = a := by rw [h]

theorem apart_imageCheck (s : State) : apart (imageCheck s).1 = apart s := by
  rw [fst_of_eq_mk (imageCheck_eq s), apart_payRead]

theorem apart_imageWrite (s : State) (off : Nat) (bs : List Byte) : apart (imageWrite s off bs) = apart s := apart_devWrite whoHost _ _ bs

theorem verifyImage_le (svn : Nat) (m p : List Byte) : verifyImage svn m p ≤ 6 := by
  unfold verifyImage
  dsimp only
  repeat' split
  all_goals decide

theorem checkCode_lt (svn : Nat) (m p : List Byte) (a b : Bool) :
    (if a = true then 1 else if b = true ∧ verifyImage svn m p = 0 then 6 else verifyImage svn m p) < 16 := by
  have := verifyImage_le svn m p
  split
  · decide
  · split
    · decide
    · omega

theorem imageCheck_code_lt (s : State) : (imageCheck s).2.2.2 < 16 := by
  rw [imageCheck_eq]
  exact checkCode_lt _ _ _ _ _

-- the status of the boot -----------------------------------------------------------------------------------------------------------------------

/-- Fuses are blown: SVN does not fall, and of the registers BOOT_STAT alone changes, in SVNFAIL. -/
theorem blowFuses_facts : ∀ (n : Nat) (s : State), s.sec.svn ≤ (blowFuses s n).sec.svn ∧ (∀ off, off ≠ rBOOT_STAT → getR (blowFuses s n) off = getR s off) ∧
    ∀ lo w, lo + w ≤ 3 → getF (blowFuses s n) rBOOT_STAT lo w = getF s rBOOT_STAT lo w := by
  intro n
  induction n with
  | zero => exact fun s => ⟨Nat.le_refl _, fun _ _ => rfl, fun _ _ _ => rfl⟩
  | succ n ih =>
    intro s
    unfold blowFuses
    dsimp only
    split
    · obtain ⟨h1, h2, h3⟩ := ih { s with draws := s.draws + 1, sec := { s.sec with svn := s.sec.svn + 1 } }
      exact ⟨(Nat.le_succ _).trans h1, h2, h3⟩
    · obtain ⟨h1, h2, h3⟩ := ih (setF { s with draws := s.draws + 1 } rBOOT_STAT 3 1 1)
      refine ⟨h1, fun off ho => (h2 off ho).trans (getR_setF_other _ 3 1 1 ho), fun lo w h => (h3 lo w h).trans ?_⟩
      exact getF_setF_otherField { s with draws := s.draws + 1 } rBOOT_STAT 3 1 1 lo w (by decide) (.inl h)

/-- What an entry to an image leaves. -/
structure Entered0 (s : State) (m : List Byte) (s' : State) : Prop where
  boot : getF s' rBOOT_STAT 0 2 = 2
  push : getB s' rBOOT_STAT 2 = getB s rBOOT_STAT 2
  version : getR s' rFW_VERSION = BitVec.ofNat 32 (manField m 0x10 4)
  pc : (ccOf s' 0).pc = 0x0200_0000_0000
  bootWait : s'.sec.bootWait = false
  warm : s'.sec.warm = false
  svn : s.sec.svn ≤ s'.sec.svn

/-- The state of an entry before CC0 goes on. -/
def imagePlaced (s : State) (m p : List Byte) : State := sramWrite (blowFuses s (manSvn m - s.sec.svn)) 0 0 (p.take (manSlen m))

/-- The status of an entered image. -/
def statusEntered (s : State) (v : Nat) : State := setF (setR s rFW_VERSION (BitVec.ofNat 32 v)) rBOOT_STAT 0 2 2

theorem statusEntered_facts (s : State) (v : Nat) : getF (statusEntered s v) rBOOT_STAT 0 2 = 2 ∧ getB (statusEntered s v) rBOOT_STAT 2 = getB s rBOOT_STAT 2 ∧
    getR (statusEntered s v) rFW_VERSION = BitVec.ofNat 32 v := by
  refine ⟨getF_setF_same _ rBOOT_STAT 0 2 2 (by decide), ?_, ?_⟩
  · rw [statusEntered, getB_eq_beq, getF_setF_otherField _ rBOOT_STAT 0 2 2 2 1 (by decide) (.inr (by decide)), ← getB_eq_beq]
    exact getB_congr (getR_setR_other s _ (by decide)) 2
  · rw [statusEntered, getR_setF_other _ 0 2 2 (by decide), getR_setR_same]

/-- The security store once an image is entered. -/
def secEntered (x : SecSt) (m : List Byte) : SecSt :=
  { x with bootWait := false, warm := false, pushIdx := none, mhash := BitVec.ofNat 384 (beNat (sha384 (manBytes m 0 0x820))) }

/-- The state in which CC0 goes on. -/
def withSec (s : State) (m : List Byte) : State := { s with sec := secEntered s.sec m }

theorem bootEnter_eq (s : State) (m p : List Byte) : bootEnter s m p = setCc (withSec (statusEntered (imagePlaced s m p) (manField m 0x10 4)) m) 0
    { ccOf (statusEntered (imagePlaced s m p) (manField m 0x10 4)) 0 with pc := 0x0200_0000_0000 } := by
  unfold bootEnter withSec secEntered statusEntered imagePlaced
  with_reducible rfl

theorem entered_bootEnter (s : State) (m p : List Byte) : Entered0 s m (bootEnter s m p) := by
  obtain ⟨hle, -, hfld⟩ := blowFuses_facts (manSvn m - s.sec.svn) s
  obtain ⟨hboot, hpush, hver⟩ := statusEntered_facts (imagePlaced s m p) (manField m 0x10 4)
  have hsec : (statusEntered (imagePlaced s m p) (manField m 0x10 4)).sec = (blowFuses s (manSvn m - s.sec.svn)).sec := (rfl)
  have hpush' : getB (imagePlaced s m p) rBOOT_STAT 2 = getB s rBOOT_STAT 2 := by
    rw [getB_eq_beq, getB_eq_beq, ← hfld 2 1 (by decide)]
    rfl
  rw [bootEnter_eq]
  generalize statusEntered (imagePlaced s m p) (manField m 0x10 4) = z at hboot hpush hver hsec
  exact ⟨hboot, hpush.trans hpush', hver, by rw [ccOf_setCc_same], rfl, rfl, hle.trans (by rw [← hsec]; rfl)⟩

/-- What waiting for a push leaves. -/
theorem waitPush_facts (s : State) : Frame [rBOOT_STAT, rBOOT_CTL] s (waitPush s) ∧ getF (waitPush s) rBOOT_STAT 0 2 = 1 ∧ getF (waitPush s) rBOOT_STAT 4 4 = getF s rBOOT_STAT 4 4 ∧
    getB (waitPush s) rBOOT_CTL 0 = false ∧ (waitPush s).sec = { s.sec with bootWait := false, warm := false, pushIdx := none } := by
  have hreg : ∀ lo w, getF (waitPush s) rBOOT_STAT lo w = getF (setF s rBOOT_STAT 0 2 1) rBOOT_STAT lo w := fun lo w =>
    getF_setF_otherReg (setF s rBOOT_STAT 0 2 1) 0 1 0 lo w (by decide)
  have hf : Frame [rBOOT_STAT, rBOOT_CTL] s (setF (setF s rBOOT_STAT 0 2 1) rBOOT_CTL 0 1 0) := (frame_setF s (by simp) 0 2 1).trans (frame_setF _ (by simp) 0 1 0)
  refine ⟨⟨fun a => hf.1 a, fun off ho => hf.2.1 off ho, rfl, rfl⟩, ?_, ?_, ?_, rfl⟩
  · exact (hreg 0 2).trans (getF_setF_same s rBOOT_STAT 0 2 1 (by decide))
  · rw [hreg, getF_setF_otherField s rBOOT_STAT 0 2 1 4 4 (by decide) (.inr (by decide))]
  · exact getB_setF_same (setF s rBOOT_STAT 0 2 1) rBOOT_CTL (by decide) 0

/-- What a failure of verification leaves. -/
theorem bootFail_facts (s : State) (he : e < 16) : SameMem s (bootFail s e) ∧ (bootFail s e).sec = s.sec ∧ (bootFail s e).pwr = s.pwr ∧ getF (bootFail s e) rBOOT_STAT 4 4 = e ∧
    getF (bootFail s e) rBOOT_STAT 0 2 = getF s rBOOT_STAT 0 2 ∧ getB (bootFail s e) rBOOT_CTL 0 = getB s rBOOT_CTL 0 := by
  have hn := noted_raiseEv_unowned (setF s rBOOT_STAT 4 4 e) (d := 0) (e := { cls := cIMAGE, sev := 2, home := 1, ukind := 5, uindex := 0, detail := e }) (by decide) rfl
    (show cIMAGE < 256 by decide) (show (1 : Nat) < 4 by decide)
  have hstat : ¬ LogReg rBOOT_STAT := by unfold LogReg rBOOT_STAT; omega
  have hctl : ¬ LogReg rBOOT_CTL := by unfold LogReg rBOOT_CTL; omega
  have hsame : ∃ r tr ho pi, bootFail s e = { setF s rBOOT_STAT 4 4 e with regs := r, trace := tr, host := ho, pins := pi } := hn.same
  have hsec : (bootFail s e).sec = s.sec ∧ (bootFail s e).pwr = s.pwr := by
    obtain ⟨r, tr, ho, pi, h⟩ := hsame
    rw [h]
    exact ⟨rfl, rfl⟩
  refine ⟨hn.sameMem, hsec.1, hsec.2, ?_, ?_, ?_⟩
  · rw [bootFail, hn.getF_eq hstat, getF_setF_same s rBOOT_STAT 4 4 e (by decide)]
    exact Nat.mod_eq_of_lt he
  · rw [bootFail, hn.getF_eq hstat, getF_setF_otherField s rBOOT_STAT 4 4 e 0 2 (by decide) (.inl (by decide))]
  · exact (getB_congr (hn.regs _ hctl) 0).trans (getB_congr (getR_setF_other s 4 4 e (by decide)) 0)

-- the boot ROM (R401, R431) -------------------------------------------------------------------------------------------------------------------------

theorem bootCold_asked (h : getB s rBOOT_CTL 0 = true ∨ s.pwr.bootStrap = true) (image : ImageRead) : bootCold s image = waitPush s := by
  unfold bootCold
  rw [if_pos (by simpa using h)]

theorem bootCold_failed (h : getB s rBOOT_CTL 0 = false) (h' : s.pwr.bootStrap = false) : bootCold s .failed = waitPush (setF (padRun s 1) rBOOT_STAT 4 4 7) := by
  unfold bootCold
  rw [if_neg (by simp [h, h'])]

theorem bootCold_bytes (h : getB s rBOOT_CTL 0 = false) (h' : s.pwr.bootStrap = false) (hm : m.length = 0x2000) (hp : p.length = manPlen m) (hmax : p.length ≤ 0xF0_0000) :
    bootCold s (.bytes m p) = if verifyImage (imageWrite (padRun s 1) 0 (m ++ p)).sec.svn m p = 0 then
        bootEnter (setF (imageWrite (padRun s 1) 0 (m ++ p)) rBOOT_STAT 2 1 0) m p
      else waitPush (bootFail (imageWrite (padRun s 1) 0 (m ++ p)) (verifyImage (imageWrite (padRun s 1) 0 (m ++ p)).sec.svn m p)) := by
  have hman : (m ++ List.replicate (0x2000 - m.length) 0).take 0x2000 = m := by
    rw [List.take_append_of_le_length (by omega), List.take_of_length_le (by omega)]
  have hpay : p.take (min (manPlen m) 0xF0_0000) = p := List.take_of_length_le (by omega)
  unfold bootCold
  rw [if_neg (by simp [h, h'])]
  dsimp only
  rw [hman, hpay]

/-- What padRun leaves. -/
theorem padRun_facts (s : State) (v : Nat) : SameMem s (padRun s v) ∧ (padRun s v).sec = s.sec := by
  unfold padRun
  split
  · exact ⟨fun _ => rfl, rfl⟩
  · exact ⟨fun _ => rfl, rfl⟩

theorem bootRun_ready (hwait : s.sec.bootWait = true) (hrun : getB s (rCC_CTL 0) 0 = true) (hup : regionUp s 32 = true) (hready : stack0Ready s = true) (image : ImageRead) :
    bootRun s image = if s.sec.warm = true then
        (if (imageCheck s).2.2.2 = 0 then bootEnter (imageCheck s).1 (imageCheck s).2.1 (imageCheck s).2.2.1
          else bootCold (bootFail { (imageCheck s).1 with sec := { (imageCheck s).1.sec with warm := false } } (imageCheck s).2.2.2) image)
      else bootCold s image := by
  unfold bootRun
  rw [if_neg (by simp [hwait, hrun, hup]), if_neg (by simp [hready])]

theorem bootRun_uninitialised (hwait : s.sec.bootWait = true) (hrun : getB s (rCC_CTL 0) 0 = true) (hup : regionUp s 32 = true) (hready : stack0Ready s = false) (image : ImageRead) :
    bootRun s image = if image = .noFirn then waitPush (setF s rBOOT_STAT 4 4 8) else s := by
  unfold bootRun
  rw [if_neg (by simp [hwait, hrun, hup]), if_pos hready]

/-- A cold boot leaves no restart pending. -/
theorem warm_bootCold (hw : s.sec.warm = false) (image : ImageRead) : (bootCold s image).sec.warm = false := by
  have hwait (x : State) : (waitPush x).sec.warm = false := by rw [(waitPush_facts x).2.2.2.2]
  unfold bootCold
  split
  · exact hwait s
  · cases image with
    | noFirn => exact hw
    | failed => exact hwait _
    | bytes m p =>
      dsimp only
      split
      · exact (entered_bootEnter _ _ _).warm
      · exact hwait _

-- pushes (R402) ---------------------------------------------------------------------------------------------------------------------------------------

theorem regTop_pushCtl (h : Served s src rBOOT_PUSH_CTL) {v : Nat} (hv : v < 2 ^ 32) : regTop s src rBOOT_PUSH_CTL false v = pushCtl s v := by
  have hw (x : BitVec 32) : writeWord s src rBOOT_PUSH_CTL x = pushCtl s x.toNat := rfl
  rw [regTop_of_served h (by decide) (by decide), hw, BitVec.toNat_ofNat, Nat.mod_eq_of_lt hv]

theorem pushCtl_start (s : State) : pushCtl s 1 = pushStart s := by
  unfold pushCtl
  rw [if_pos (show bits 1 0 1 = 1 by decide), if_neg (show ¬ bits 1 1 1 = 1 by decide)]

theorem pushCtl_done (s : State) : pushCtl s 2 = pushDone s := by
  unfold pushCtl
  rw [if_neg (show ¬ bits 2 0 1 = 1 by decide), if_pos (show bits 2 1 1 = 1 by decide)]

theorem regTop_pushData (h : Served s src rBOOT_PUSH_CTL) (v : Nat) : regTop s src rBOOT_PUSH_DATA true v = pushData s v := by
  obtain ⟨hawake, hlive, hmay, -, -, -⟩ := h
  have hserved : Served s src rBOOT_PUSH_DATA := by
    refine ⟨hawake, hlive, ?_, rfl, rfl, rfl⟩
    cases src <;> exact hmay
  have hwide : wideWrite s rBOOT_PUSH_DATA v = some (pushData s v) := rfl
  have habsent : absentDie s rBOOT_PUSH_DATA = none := rfl
  rw [regTop_wide_below hserved (by decide) (by decide), regPerform]
  simp only [habsent, hserved.2.2.1, hwide, if_true]

theorem mirMode_counted (s : State) : mirMode (ledReturn1 (ledIssue s qFIRNREQ 1) qFIRNREQ) = mirMode s := by
  have hr := (regsKeep_ledReturn1 (ledIssue s qFIRNREQ 1) qFIRNREQ).kept rMIR_CTL (by unfold NotMover rMIR_CTL; omega)
  have hi : getR (ledIssue s qFIRNREQ 1) rMIR_CTL = getR s rMIR_CTL := getR_setR64_other s _ (by decide) (by decide)
  rw [mirMode, getF, hr, hi, ← getF, ← mirMode]

/-- A request that enters and leaves at once changes no byte. -/
theorem counted_facts (s : State) (key : Nat) : (openRow (ledReturn1 (ledIssue s qFIRNREQ 1) qFIRNREQ) key).mem = s.mem ∧
    (openRow (ledReturn1 (ledIssue s qFIRNREQ 1) qFIRNREQ) key).beatErr = s.beatErr := by
  have hadd (x : State) (off n : Nat) : (add64 x off n).mem = x.mem ∧ (add64 x off n).beatErr = x.beatErr := ⟨setR64_mem _ _ _, setR64_beatErr _ _ _⟩
  have hret (x : State) (q : Nat) : (ledReturn1 x q).mem = x.mem ∧ (ledReturn1 x q).beatErr = x.beatErr := by
    unfold ledReturn1
    split
    · exact ⟨setF_mem _ _ _ _ _, setF_beatErr _ _ _ _ _⟩
    · exact hadd x _ 1
  have hopen (x : State) : (openRow x key).mem = x.mem ∧ (openRow x key).beatErr = x.beatErr := ⟨rfl, rfl⟩
  have hissue := hadd s (ledgerBase qFIRNREQ) 1
  rw [← ledIssue] at hissue
  exact ⟨(hopen _).1.trans ((hret _ qFIRNREQ).1.trans hissue.1), (hopen _).2.trans ((hret _ qFIRNREQ).2.trans hissue.2)⟩

/-- A piece of firn within one block is written whole, at the place of its first byte. -/
theorem devWrite_piece (hent : s.firnEnt = []) (hbeat : s.beatErr = []) (hmir : mirMode s ≠ 1) (w : FirnWho) (fuel : Nat) {a : Nat} {bs : List Byte} (hf : isFirn a = true)
    (hne : bs.isEmpty = false) (hfit : a % 256 + bs.length ≤ 256) :
    ∃ t, t.mem = s.mem ∧ BytesPut t (memKey s a) bs (devWrite s w (fuel + 2) a bs).1 := by
  have hmin : min bs.length (256 - a % 256) = bs.length := by omega
  have hlen : s.firnEnt.length = 0 := by rw [hent]; rfl
  have hsettle : settleChan s (memKey s a) 0 = s := rfl
  have hdelta : mirDelta (ledReturn1 (ledIssue s qFIRNREQ 1) qFIRNREQ) a bs = none := if_neg (mirMode_counted s ▸ hmir)
  obtain ⟨hmem, hbe⟩ := counted_facts s (memKey s a)
  refine ⟨_, hmem, ?_⟩
  have hput := (writeKeys_clean (s := openRow (ledReturn1 (ledIssue s qFIRNREQ 1) qFIRNREQ) (memKey s a)) (hbe.trans hbeat) w (fuel := 9) (key := memKey s a) (bs := bs) ?_).2
  · unfold devWrite
    simp only [hne, hf, if_true, Bool.false_eq_true, if_false, hmin, hlen, hsettle, List.take_length, List.drop_length, hdelta]
    unfold devWrite
    simp only [List.isEmpty_nil, if_true]
    exact hput
  · exact .inr (by omega)

end Sys2Proof.Safety
end

section
/-! PROOF. O47: images boot only when verified (R400 to R404, R431). -/

namespace Sys2Proof.Safety

open Sys2Proof.Machine

variable {s s' t : State} {src : Src} {m p : List Byte} {e i : Nat}

/-- A cold boot of an image's bytes enters what verifies and waits for a push after what does not (R401, R403). -/
theorem bootCold_bytes_facts (h : getB s rBOOT_CTL 0 = false) (h' : s.pwr.bootStrap = false) (hm : m.length = 0x2000) (hp : p.length = manPlen m) (hmax : p.length ≤ 0xF0_0000) :
    (bootCold s (.bytes m p)).sec.bootWait = false ∧ s.sec.svn ≤ (bootCold s (.bytes m p)).sec.svn ∧
      (verifyImage s.sec.svn m p = 0 → getF (bootCold s (.bytes m p)) rBOOT_STAT 0 2 = 2 ∧
        getR (bootCold s (.bytes m p)) rFW_VERSION = BitVec.ofNat 32 (manField m 0x10 4) ∧ (ccOf (bootCold s (.bytes m p)) 0).pc = 0x0200_0000_0000) ∧
      (verifyImage s.sec.svn m p ≠ 0 → getF (bootCold s (.bytes m p)) rBOOT_STAT 0 2 = 1 ∧ getF (bootCold s (.bytes m p)) rBOOT_STAT 4 4 = verifyImage s.sec.svn m p ∧
        (bootCold s (.bytes m p)).sec.svn = s.sec.svn) := by
  have hsec : (imageWrite (padRun s 1) 0 (m ++ p)).sec = s.sec := (sec_of_apart (apart_imageWrite (padRun s 1) 0 (m ++ p))).trans (padRun_facts s 1).2
  have hle := verifyImage_le s.sec.svn m p
  rw [bootCold_bytes h h' hm hp hmax, hsec]
  generalize imageWrite (padRun s 1) 0 (m ++ p) = x at hsec
  split
  next hv =>
    obtain ⟨hboot, -, hver, hpc, hwait, -, hsvn⟩ := entered_bootEnter (setF x rBOOT_STAT 2 1 0) m p
    have hx : (setF x rBOOT_STAT 2 1 0).sec = s.sec := hsec
    rw [hx] at hsvn
    exact ⟨hwait, hsvn, fun _ => ⟨hboot, hver, hpc⟩, fun hn => absurd hv hn⟩
  next hv =>
    obtain ⟨-, hfs, -, herr, -, -⟩ := bootFail_facts x (e := verifyImage s.sec.svn m p) (by omega)
    obtain ⟨-, hboot, hkeep, -, hws⟩ := waitPush_facts (bootFail x (verifyImage s.sec.svn m p))
    rw [hfs, hsec] at hws
    exact ⟨by rw [hws], by rw [hws], fun hz => absurd hz hv, fun _ => ⟨hboot, hkeep.trans herr, by rw [hws]⟩⟩

/-- A restart enters the copy that it verifies; where it does not and a push is asked for, it waits with the code (R431). -/
theorem restart_facts (hwait : s.sec.bootWait = true) (hrun : getB s (rCC_CTL 0) 0 = true) (hup : regionUp s 32 = true) (hready : stack0Ready s = true) (hwarm : s.sec.warm = true)
    (image : ImageRead) {s1 : State} (hc : imageCheck s = (s1, m, p, e)) :
    (bootRun s image).sec.warm = false ∧
      (e = 0 → getF (bootRun s image) rBOOT_STAT 0 2 = 2 ∧ getR (bootRun s image) rFW_VERSION = BitVec.ofNat 32 (manField m 0x10 4) ∧
        (ccOf (bootRun s image) 0).pc = 0x0200_0000_0000 ∧ (bootRun s image).sec.bootWait = false) ∧
      (e ≠ 0 → (getB s1 rBOOT_CTL 0 = true ∨ s1.pwr.bootStrap = true) → getF (bootRun s image) rBOOT_STAT 0 2 = 1 ∧ getF (bootRun s image) rBOOT_STAT 4 4 = e ∧
        (bootRun s image).sec.bootWait = false) := by
  have he : e < 16 := by
    have := imageCheck_code_lt s
    rwa [hc] at this
  rw [bootRun_ready hwait hrun hup hready, if_pos hwarm, hc]
  dsimp only
  split
  next hz =>
    obtain ⟨hboot, -, hver, hpc, hw, hwm, -⟩ := entered_bootEnter s1 m p
    exact ⟨hwm, fun _ => ⟨hboot, hver, hpc, hw⟩, fun hn => absurd hz hn⟩
  next hn =>
    obtain ⟨-, hfs, hpwr, herr, -, hctl⟩ := bootFail_facts { s1 with sec := { s1.sec with warm := false } } he
    generalize bootFail { s1 with sec := { s1.sec with warm := false } } e = x at hfs hpwr herr hctl
    refine ⟨warm_bootCold (by rw [hfs]) image, fun hz => absurd hz hn, fun _ hask => ?_⟩
    have hask' : getB x rBOOT_CTL 0 = true ∨ x.pwr.bootStrap = true := by
      rw [hctl, hpwr]
      exact hask
    obtain ⟨-, hboot, hkeep, -, hws⟩ := waitPush_facts x
    rw [bootCold_asked hask']
    exact ⟨hboot, hkeep.trans herr, by rw [hws]⟩

theorem pushData_write (hidx : s.sec.pushIdx = some i) (hpush : getF s rBOOT_STAT 0 2 = 1) (hopen : (stackOf s 0).open_ = true) (hi : i < 2 ^ 24) (v : Nat) :
    pushData s v = { imageWrite s i (leBytes 8 v) with sec := { (imageWrite s i (leBytes 8 v)).sec with pushIdx := some (i + 8) } } := by
  unfold pushData
  rw [hidx]
  dsimp only
  rw [if_neg (by simp [pushing, hpush, hopen]), if_neg (by omega)]

theorem pushData_over (hidx : s.sec.pushIdx = some i) (hpush : getF s rBOOT_STAT 0 2 = 1) (hopen : (stackOf s 0).open_ = true) (hi : 2 ^ 24 ≤ i) (v : Nat) :
    pushData s v = setF s rBOOT_STAT 15 1 1 := by
  unfold pushData
  rw [hidx]
  dsimp only
  rw [if_neg (by simp [pushing, hpush, hopen]), if_pos hi]

/-- An 8-byte piece of the image copy is written in its place. -/
theorem imageWrite_piece (hent : s.firnEnt = []) (hbeat : s.beatErr = []) (hmir : mirMode s ≠ 1) (hi : i < 2 ^ 24) (h8 : i % 8 = 0) (v : Nat) :
    (imageWrite s i (leBytes 8 v)).sec = s.sec ∧ ∀ a, rdByte (imageWrite s i (leBytes 8 v)) a =
      if memKey s (imageBase + i) ≤ a ∧ a < memKey s (imageBase + i) + 8 then (leBytes 8 v).getD (a - memKey s (imageBase + i)) 0 else rdByte s a := by
  have hlen : (leBytes 8 v).length = 8 := length_leBytes 8 v
  have hne : (leBytes 8 v).isEmpty = false := by
    rw [List.isEmpty_eq_false_iff, ← List.length_pos_iff, hlen]
    decide
  have hfit : (imageBase + i) % 256 + (leBytes 8 v).length ≤ 256 := by
    rw [hlen, imageBase]
    omega
  have hf : isFirn (imageBase + i) = true := by
    rw [isFirn, decide_eq_true_eq, imageBase]
    omega
  obtain ⟨t, hmem, hput⟩ := devWrite_piece hent hbeat hmir whoHost ((leBytes 8 v).length / 256) hf hne hfit
  refine ⟨sec_of_apart (apart_imageWrite s i _), fun a => ?_⟩
  rw [imageWrite, hput.put, hlen, rdByte_congr hmem]

/-- The bytes that a write of a push leaves. -/
theorem rdBytes_imageWrite (hent : s.firnEnt = []) (hbeat : s.beatErr = []) (hmir : mirMode s ≠ 1) (hi : i < 2 ^ 24) (h8 : i % 8 = 0) (v : Nat) :
    rdBytes (imageWrite s i (leBytes 8 v)) (memKey s (imageBase + i)) 8 = leBytes 8 v := by
  obtain ⟨-, hput⟩ := imageWrite_piece hent hbeat hmir hi h8 v
  generalize imageWrite s i (leBytes 8 v) = x at hput
  have hlen : (leBytes 8 v).length = 8 := length_leBytes 8 v
  refine List.ext_getElem (by rw [hlen]; simp [rdBytes]) fun j h1 h2 => ?_
  rw [hlen] at h2
  simp only [rdBytes, List.getElem_map, List.getElem_range]
  rw [hput, if_pos ⟨Nat.le_add_right _ _, by omega⟩, Nat.add_sub_cancel_left, List.getD_eq_getElem _ _ (by omega)]

theorem pushDone_checked {s1 : State} (hidx : s.sec.pushIdx = some i) (hpush : getF s rBOOT_STAT 0 2 = 1) (hopen : (stackOf s 0).open_ = true) (hc : imageCheck s = (s1, m, p, e)) :
    pushDone s = if e = 0 then bootEnter (setF s1 rBOOT_STAT 2 1 1) m p else { bootFail s1 e with sec := { (bootFail s1 e).sec with pushIdx := none } } := by
  unfold pushDone
  rw [if_neg (by simp [pushing, hpush, hopen, hidx]), hc]

/-- A push that is done enters the image that verifies, and waits with the code after one that does not (R402). -/
theorem pushDone_facts {s1 : State} (hidx : s.sec.pushIdx = some i) (hpush : getF s rBOOT_STAT 0 2 = 1) (hopen : (stackOf s 0).open_ = true) (hc : imageCheck s = (s1, m, p, e)) :
    (e = 0 → getF (pushDone s) rBOOT_STAT 0 2 = 2 ∧ getB (pushDone s) rBOOT_STAT 2 = true ∧ getR (pushDone s) rFW_VERSION = BitVec.ofNat 32 (manField m 0x10 4)) ∧
      (e ≠ 0 → getF (pushDone s) rBOOT_STAT 0 2 = 1 ∧ getF (pushDone s) rBOOT_STAT 4 4 = e ∧ (pushDone s).sec.pushIdx = none) := by
  have he : e < 16 := by
    have := imageCheck_code_lt s
    rwa [hc] at this
  have hap : apart s1 = apart s := by
    have := apart_imageCheck s
    rwa [hc] at this
  have hpush1 : getF s1 rBOOT_STAT 0 2 = 1 := by rw [getF, getR_of_apart hap (by unfold rBOOT_STAT; omega), ← getF, hpush]
  rw [pushDone_checked hidx hpush hopen hc]
  split
  next hz =>
    obtain ⟨hboot, hp, hver, -⟩ := entered_bootEnter (setF s1 rBOOT_STAT 2 1 1) m p
    exact ⟨fun _ => ⟨hboot, hp.trans (getB_setF_same s1 rBOOT_STAT (by decide) 1), hver⟩, fun hn => absurd hz hn⟩
  next hn =>
    obtain ⟨-, -, -, herr, hb, -⟩ := bootFail_facts s1 he
    generalize bootFail s1 e = x at herr hb
    exact ⟨fun hz => absurd hz hn, fun _ => ⟨hb.trans hpush1, herr, rfl⟩⟩

/-- Settles O47. -/
theorem imagesBootOnlyWhenVerified : Obligations.ImagesBootOnlyWhenVerified := by
  unfold Obligations.ImagesBootOnlyWhenVerified
  intro s
  refine ⟨fun hwait hrun hup hready hwarm => ?_, fun hwait hrun hup hready => ?_, fun hwait hrun hup hready hwarm image s1 m p e hc => ?_, fun src hserved hpush => ?_⟩
  · have hcold (image : ImageRead) : exec (.bootRomRun image) s = .next (bootCold s image) :=
      congrArg Host.Outcome.next ((bootRun_ready hwait hrun hup hready image).trans (if_neg (by rw [hwarm]; decide)))
    refine ⟨fun image hask => ?_, fun hforce hstrap => ⟨?_, fun m p hm hp hmax => ⟨_, hcold _, bootCold_bytes_facts hforce hstrap hm hp hmax⟩⟩⟩
    · obtain ⟨hf, hboot, -, hctl, hsec⟩ := waitPush_facts s
      exact ⟨_, (hcold image).trans (congrArg _ (bootCold_asked hask image)), hf, hboot, hctl, by rw [hsec]⟩
    · obtain ⟨hf, hboot, herr, -, hsec⟩ := waitPush_facts (setF (padRun s 1) rBOOT_STAT 4 4 7)
      refine ⟨_, (hcold .failed).trans (congrArg _ (bootCold_failed hforce hstrap)), fun a => (hf.1 a).trans ((padRun_facts s 1).1 a), hboot, ?_, by rw [hsec]⟩
      exact herr.trans (getF_setF_same _ rBOOT_STAT 4 4 7 (by decide))
  · refine ⟨?_, fun image hne => congrArg Host.Outcome.next ((bootRun_uninitialised hwait hrun hup hready image).trans (if_neg hne))⟩
    obtain ⟨hf, hboot, herr, -, hsec⟩ := waitPush_facts (setF s rBOOT_STAT 4 4 8)
    refine ⟨_, congrArg Host.Outcome.next ((bootRun_uninitialised hwait hrun hup hready .noFirn).trans (if_pos rfl)), (frame_setF s (by simp) 4 4 8).trans hf, hboot, ?_, by rw [hsec]⟩
    exact herr.trans (getF_setF_same _ rBOOT_STAT 4 4 8 (by decide))
  · exact ⟨_, rfl, restart_facts hwait hrun hup hready hwarm image hc⟩
  · have hdata (v : W64) : exec (.bootPushData src v) s = .next (pushData s v.toNat) := congrArg Host.Outcome.next (regTop_pushData hserved v.toNat)
    refine ⟨?_, fun hopen => ⟨fun v i key hidx hi h8 hkey hent hbeat hmir => ?_, fun v i hidx hi => ?_, fun i s1 m p e hidx hc => ?_⟩⟩
    · have hstart : pushStart s = { s with sec := { s.sec with pushIdx := some 0 } } := if_pos (by simp [pushing, hpush])
      refine ⟨_, congrArg Host.Outcome.next (((regTop_pushCtl hserved (by decide)).trans (pushCtl_start s)).trans hstart), ⟨fun _ => rfl, fun _ _ => rfl, rfl, rfl⟩, rfl⟩
    · subst hkey
      have hb := rdBytes_imageWrite hent hbeat hmir hi h8 v.toNat
      obtain ⟨hsec, hput⟩ := imageWrite_piece hent hbeat hmir hi h8 v.toNat
      refine ⟨_, (hdata v).trans (congrArg _ (pushData_write hidx hpush hopen hi v.toNat)), ?_, hb, fun a ha => ?_⟩
      · rw [hsec]
      · exact (hput a).trans (if_neg (by omega))
    · exact ⟨_, (hdata v).trans (congrArg _ (pushData_over hidx hpush hopen hi v.toNat)), frame_setF s (by simp) 15 1 1, getB_setF_same s rBOOT_STAT (by decide) 1, rfl⟩
    · exact ⟨_, congrArg Host.Outcome.next ((regTop_pushCtl hserved (by decide)).trans (pushCtl_done s)), pushDone_facts hidx hpush hopen hc⟩

end Sys2Proof.Safety
end

section
/-! PROOF. The port that takes a COMMIT sends what it has to send, and counts the link credits of that (R330), which refutes O51. -/

namespace Sys2Proof.Safety

open Sys2Proof.Machine Sys2Proof.Tests

/-- A secondary at a COMMIT whose port 0 also has a packet to send, with credits free for it. -/
def commitWithPacket : State :=
  setPort (sMir [] [] [kCommit] 64) 0 { portOf (sMir [] [] [kCommit] 64) 0 with txq := [(0, [{ pkt := kAck.pkt, rest := pktFlits kAck.pkt }])] }

theorem commitWithPacket_arrived : portUp commitWithPacket 0 = true ∧ rxHead commitWithPacket 0 3 = some kCommit ∧ (portOf commitWithPacket 0).rx = [kCommit] ∧
    mirMode commitWithPacket = 2 ∧ mirActive commitWithPacket = true ∧ kCommit.pkt.hdr.typ = 13 := by decide +kernel

/-- The packet leaves with the COMMIT's credit, and its link credits are issued. -/
theorem commit_issues_credits : getR (commitRun commitWithPacket kCommit.pkt) (ledgerBase qLINKCRED) ≠ getR commitWithPacket (ledgerBase qLINKCRED) := by decide +kernel

theorem commit_of_next {k : Packet} {s s' : State} (h : exec (.commit k) s = .next s') : commitRun s k = s' := Host.Outcome.next.inj h

/-- Refutes O51: a COMMIT that arrives at a port with a packet to send changes the ledger of link credits besides MIR_STAT. -/
theorem not_mirrorCommitsApplyWhole : ¬ Obligations.MirrorCommitsApplyWhole := by
  intro h
  obtain ⟨hup, hhead, hrx, hmode, hactive, htyp⟩ := commitWithPacket_arrived
  obtain ⟨harrive, -⟩ := h commitWithPacket
  obtain ⟨-, hcommit⟩ := harrive kCommit hup hhead hrx hmode hactive
  obtain ⟨s', hexec, hframe, -⟩ := hcommit htyp
  obtain rfl := commit_of_next hexec
  exact commit_issues_credits (hframe.getR_eq (by decide))

end Sys2Proof.Safety
end

section
/-! SUPPORT. Completion records, the command ring, movers and loads (R364 to R374, R276). -/

namespace Sys2Proof.Safety

open Sys2Proof.Machine

variable {s s' t y : State} {c : HostCmd} {src : Src} {status info m n k : Nat}

-- completion records (R364, R371) -------------------------------------------------------------------------------------------------------------------

/-- Two states in which a record goes to the same place, and no record waits. -/
structure SameRing (s y : State) : Prop where
  tail : getR y rCTAIL = getR s rCTAIL
  base : getR64 y rCRING_BASE = getR64 s rCRING_BASE
  log : ringLog y = ringLog s
  now : tbNow y = tbNow s
  master : busMaster y = busMaster s
  recs : y.host.recs = s.host.recs

/-- Registers beyond the rings, and a host interface that keeps its link and its records. -/
theorem SameRing.of_regs (hr : ∀ off, off < 0x4_0100 → getR y off = getR s off) (ht : y.time = s.time) (hb : y.host.bme = s.host.bme) (hl : y.host.linkUp = s.host.linkUp)
    (hrec : y.host.recs = s.host.recs) : SameRing s y := by
  refine ⟨hr _ (by decide), ?_, ?_, ?_, ?_, hrec⟩
  · rw [getR64, getR64, hr _ (by decide), hr _ (by decide)]
  · rw [ringLog, ringLog, getF, getF, hr _ (by decide)]
  · rw [tbNow, tbNow, ht]
  · rw [busMaster, busMaster, hb, hl]

theorem SameRing.trans (h : SameRing s y) (h' : SameRing y t) : SameRing s t :=
  ⟨h'.tail.trans h.tail, h'.base.trans h.base, h'.log.trans h.log, h'.now.trans h.now, h'.master.trans h.master, h'.recs.trans h.recs⟩

/-- The record that a completion writes. -/
def recordOf (s : State) (c : HostCmd) (status info : Nat) : HostOut :=
  .record ((getR64 s rCRING_BASE + 32 * ((getR s rCTAIL).toNat % 2 ^ ringLog s)) % 2 ^ 64) (recWords s ⟨c, status, info, tbNow s⟩)

theorem SameRing.recordOf (h : SameRing s y) (c : HostCmd) (status info : Nat) : Safety.recordOf y c status info = Safety.recordOf s c status info := by
  simp only [Safety.recordOf, recWords, h.tail, h.base, h.log, h.now]

/-- A state with the records that wait. -/
def withRecs (s : State) (l : List HostRec) : State := { s with host := { s.host with recs := l } }

/-- A completion whose record leaves at once. -/
def completed (s : State) (c : HostCmd) (status info : Nat) : State := setR (hostOut (withRecs s []) (recordOf s c status info)) rCTAIL (getR s rCTAIL + 1)

theorem complete_flush (s : State) (c : HostCmd) (status info : Nat) : complete s c status info = recFlush (withRecs s (s.host.recs ++ [⟨c, status, info, tbNow s⟩])) := rfl

theorem recFlush_one {l : HostRec} (hm : busMaster y = true) (hrecs : y.host.recs = [l]) : recFlush y = recWrite (withRecs y []) l := by
  rw [recFlush, if_pos hm, hrecs]
  rfl

theorem recWrite_quiet (hirq : cmdF c 0 9 1 = 0) (y : State) (status info : Nat) : recWrite y ⟨c, status, info, tbNow y⟩ =
    setR (hostOut y (recordOf y c status info)) rCTAIL (getR y rCTAIL + 1) := by
  have hquiet : ¬ cmdF c 0 9 1 = 1 := by omega
  unfold recWrite recordOf
  exact if_neg hquiet

theorem sameRing_withRecs_nil (hrecs : s.host.recs = []) : SameRing s (withRecs s []) := SameRing.of_regs (fun _ _ => rfl) rfl rfl rfl hrecs.symm

theorem complete_eq (hm : busMaster s = true) (hrecs : s.host.recs = []) (hirq : cmdF c 0 9 1 = 0) (status info : Nat) : complete s c status info = completed s c status info := by
  have hone : (withRecs s (s.host.recs ++ [⟨c, status, info, tbNow s⟩])).host.recs = [⟨c, status, info, tbNow s⟩] := by rw [hrecs]; rfl
  have hmx : busMaster (withRecs s (s.host.recs ++ [⟨c, status, info, tbNow s⟩])) = true := hm
  have hback : withRecs (withRecs s (s.host.recs ++ [⟨c, status, info, tbNow s⟩])) [] = withRecs s [] := rfl
  rw [complete_flush]
  generalize withRecs s (s.host.recs ++ [⟨c, status, info, tbNow s⟩]) = x at hone hmx hback
  have hring := sameRing_withRecs_nil hrecs
  rw [recFlush_one hmx hone, hback, ← hring.now, recWrite_quiet hirq, hring.recordOf, hring.tail, completed]

theorem completed_facts (s : State) (c : HostCmd) (status info : Nat) : Frame [rCTAIL] s (completed s c status info) ∧ getR (completed s c status info) rCTAIL = getR s rCTAIL + 1 ∧
    (completed s c status info).host = { s.host with recs := [], out := s.host.out ++ [recordOf s c status info] } := by
  have hregs (off : Nat) : getR (hostOut (withRecs s []) (recordOf s c status info)) off = getR s off := rfl
  have hsame : (hostOut (withRecs s []) (recordOf s c status info)).host = { s.host with recs := [], out := s.host.out ++ [recordOf s c status info] } := rfl
  have hf : Frame [] s (hostOut (withRecs s []) (recordOf s c status info)) := ⟨fun _ => rfl, fun _ _ => rfl, rfl, rfl⟩
  unfold completed
  generalize hostOut (withRecs s []) (recordOf s c status info) = x at hregs hsame hf
  refine ⟨(hf.mono (List.nil_subset _)).trans ⟨fun _ => rfl, fun _ ho => getR_setR_other _ _ (fun e => ho (by rw [e]; simp)), rfl, rfl⟩, getR_setR_same _ _ _, hsame⟩

/-- A completion after what leaves the ring alone and sends first what it has to send. -/
theorem records_completed (h : SameRing s y) {out : List HostOut} (hout : y.host.out = s.host.out ++ out) (c : HostCmd) (status info : Nat) :
    Records s (completed y c status info) c status info := by
  obtain ⟨-, htail, hhost⟩ := completed_facts y c status info
  refine ⟨htail.trans (by rw [h.tail]), out, ?_⟩
  rw [hhost, h.recordOf, ← hout]
  rfl

-- the command ring (R365 to R369) -------------------------------------------------------------------------------------------------------------------

theorem regTop_ringSize (h : Served s src rHRING_SIZE) {v : Nat} (hv : v < 2 ^ 32) : regTop s src rHRING_SIZE false v = ringSize s v := by
  have hw (x : BitVec 32) : writeWord s src rHRING_SIZE x = ringSize s x.toNat := rfl
  rw [regTop_of_served h (by decide) (by decide), hw, BitVec.toNat_ofNat, Nat.mod_eq_of_lt hv]

/-- A ring that begins: its size stands, its indices are 0 and its phases 1. -/
def ringBegun (s : State) (n : Nat) : State := setR (setF (setF (setF s rHRING_SIZE 0 5 n) rHRING_SIZE 8 1 1) rHRING_STAT 0 17 0x1_0000) rCTAIL 0

theorem bits_of_size {n e : Nat} (hn : n < 32) (he : e < 2) : bits (256 * e + n) 0 5 = n ∧ bits (256 * e + n) 8 1 = e ∧ bits (256 * e + n) 9 1 = 0 := by
  simp only [bits_eq_div_mod]
  omega

theorem ringSize_enable (hoff : getB s rHRING_SIZE 8 = false) (hlo : 6 ≤ getF s rHRING_SIZE 0 5) (hhi : getF s rHRING_SIZE 0 5 ≤ 16) :
    ringSize s (256 + getF s rHRING_SIZE 0 5) = ringBegun s (getF s rHRING_SIZE 0 5) := by
  obtain ⟨h0, h8, h9⟩ := bits_of_size (n := getF s rHRING_SIZE 0 5) (e := 1) (by omega) (by decide)
  unfold ringSize
  rw [hoff, h0, h8, h9]
  simp only [Bool.false_eq_true, if_false, if_true, hlo, hhi, and_self, show ¬ (0 : Nat) = 1 by decide]
  rfl

theorem ringBegun_facts (s : State) (hn : n < 32) : Frame [rHRING_SIZE, rHRING_STAT, rCTAIL] s (ringBegun s n) ∧ getB (ringBegun s n) rHRING_SIZE 8 = true ∧
    getF (ringBegun s n) rHRING_SIZE 0 5 = n ∧ getF (ringBegun s n) rHRING_STAT 0 16 = 0 ∧ getB (ringBegun s n) rHRING_STAT 16 = true ∧ getR (ringBegun s n) rCTAIL = 0 := by
  have hf1 : Frame [rHRING_SIZE, rHRING_STAT, rCTAIL] s (setF (setF s rHRING_SIZE 0 5 n) rHRING_SIZE 8 1 1) :=
    (frame_setF s (by simp) 0 5 n).trans (frame_setF _ (by simp) 8 1 1)
  have hon : getB (setF (setF s rHRING_SIZE 0 5 n) rHRING_SIZE 8 1 1) rHRING_SIZE 8 = true := getB_setF_same _ _ (by decide) 1
  have hsz : getF (setF (setF s rHRING_SIZE 0 5 n) rHRING_SIZE 8 1 1) rHRING_SIZE 0 5 = n := by
    rw [getF_setF_otherField _ _ 8 1 1 0 5 (by decide) (.inl (by decide)), getF_setF_same _ _ 0 5 n (by decide), Nat.mod_eq_of_lt (by omega)]
  unfold ringBegun
  generalize setF (setF s rHRING_SIZE 0 5 n) rHRING_SIZE 8 1 1 = x at hf1 hon hsz
  have hsize : getR (setF x rHRING_STAT 0 17 0x1_0000) rHRING_SIZE = getR x rHRING_SIZE := getR_setF_other _ 0 17 _ (by decide)
  have hstat : getF (setF x rHRING_STAT 0 17 0x1_0000) rHRING_STAT 0 17 = 0x1_0000 % 2 ^ 17 := getF_setF_same x rHRING_STAT 0 17 0x1_0000 (by decide)
  have hf2 : Frame [rHRING_SIZE, rHRING_STAT, rCTAIL] x (setF x rHRING_STAT 0 17 0x1_0000) := frame_setF x (by simp) 0 17 _
  rw [getF, bits_eq_div_mod] at hstat
  generalize setF x rHRING_STAT 0 17 0x1_0000 = y at hsize hstat hf2
  have hne (off : Nat) (h : off ≠ rCTAIL) : getR (setR y rCTAIL 0) off = getR y off := getR_setR_other y 0 h
  refine ⟨(hf1.trans hf2).trans (frame_setR y (by simp) 0), ?_, ?_, ?_, ?_, getR_setR_same y rCTAIL 0⟩
  · rw [getB_congr ((hne _ (by decide)).trans hsize) 8, hon]
  · rw [getF, (hne _ (by decide)).trans hsize, ← getF, hsz]
  · rw [getF, hne _ (by decide), bits_eq_div_mod]
    omega
  · rw [getB, getF, hne _ (by decide), bits_eq_div_mod, decide_eq_true_eq]
    omega

theorem ringSize_disable (hon : getB s rHRING_SIZE 8 = true) : ringSize s (getF s rHRING_SIZE 0 5) = setF s rHRING_SIZE 8 1 0 := by
  have hlt := getF_lt s rHRING_SIZE 0 5
  obtain ⟨h0, h8, h9⟩ := bits_of_size (n := getF s rHRING_SIZE 0 5) (e := 0) (by omega) (by decide)
  simp only [Nat.mul_zero, Nat.zero_add] at h0 h8 h9
  unfold ringSize
  rw [hon, h0, h8, h9]
  simp only [if_true, show ¬ (0 : Nat) = 1 by decide, if_false]

/-- A poll that cannot read the head ends fetching (R368). -/
theorem pollFail_facts (s : State) : SameMem s (pollFail s false) ∧ getB (pollFail s false) rHRING_SIZE 8 = false ∧ getB (pollFail s false) rHRING_STAT 17 = true ∧
    bits (getR64 (pollFail s false) rHOST_IRQ_STAT) 1 1 = 1 ∧ (pollFail s false).host.accepted = s.host.accepted := by
  have heq : pollFail s false = hostIrq (setF (setF s rHRING_SIZE 8 1 0) rHRING_STAT 17 1 1) 1 := rfl
  rw [heq]
  have hsize : getB (setF (setF s rHRING_SIZE 8 1 0) rHRING_STAT 17 1 1) rHRING_SIZE 8 = false :=
    (getB_congr (getR_setF_other _ 17 1 1 (by decide)) 8).trans (getB_setF_same s _ (by decide) 0)
  have hstat : getB (setF (setF s rHRING_SIZE 8 1 0) rHRING_STAT 17 1 1) rHRING_STAT 17 = true := getB_setF_same _ _ (by decide) 1
  have hacc : (setF (setF s rHRING_SIZE 8 1 0) rHRING_STAT 17 1 1).host.accepted = s.host.accepted := rfl
  have hmem : SameMem s (setF (setF s rHRING_SIZE 8 1 0) rHRING_STAT 17 1 1) := fun _ => rfl
  generalize setF (setF s rHRING_SIZE 8 1 0) rHRING_STAT 17 1 1 = x at hsize hstat hacc hmem
  have hf := frame_hostIrq x 1
  obtain ⟨o, p, hh⟩ := host_hostIrq x 1
  refine ⟨fun a => (hf.1 a).trans (hmem a), (getB_congr (hf.getR_eq (by decide)) 8).trans hsize, (getB_congr (hf.getR_eq (by decide)) 17).trans hstat, ?_, ?_⟩
  · rw [getR64_hostIrq x (by decide)]
    exact bits_setBits_same _ 1 1 1
  · rw [hh, ← hacc]

/-- One valid entry is accepted at the fetch index, which advances (R369). -/
theorem acceptOne (s : State) (ws : List W64) (hroom : getF s rHRING_STAT 0 16 + 1 < 2 ^ ringLog s) :
    acceptEntries s [ws] = setF { s with host := { s.host with accepted := s.host.accepted ++ [⟨getF s rHRING_STAT 0 16, ws, s.host.barCnt⟩] } } rHRING_STAT 0 16
      (getF s rHRING_STAT 0 16 + 1) := by
  unfold acceptEntries
  dsimp only [List.length_singleton]
  rw [if_neg (by omega)]
  rfl

theorem poll_counts {size tail h fly f : Nat} (hs : size ≤ 2 ^ 16) (hfly : fly < size) (_ht : tail < 2 ^ 32) (hh : h = tail) (hf : f + 1 < size) :
    ¬ size < (tail + 2 ^ 32 - h) % 2 ^ 32 ∧ (tail + fly + 2 ^ 32 - h) % 2 ^ 32 = fly ∧ 1 ≤ min (min 32 ((size + 2 ^ 32 - fly) % 2 ^ 32)) (size - f) := by
  omega

theorem ringPoll_one {head : W32} {ws : List W64} (hmay : mayFetch s = true) (hlog : ringLog s ≤ 16) (hfly : inFlight s < 2 ^ ringLog s) (hhead : head.toNat = (getR s rCTAIL).toNat)
    (hroom : getF s rHRING_STAT 0 16 + 1 < 2 ^ ringLog s) (hphase : bits (ws.getD 0 0).toNat 8 1 = getF s rHRING_STAT 16 1) :
    ringPoll s (some head) (some [ws]) = acceptEntries s [ws] := by
  obtain ⟨hfit, hused, hn⟩ := poll_counts (Nat.pow_le_pow_right (by decide) hlog) hfly (getR s rCTAIL).isLt hhead hroom
  have hvalid : validEntries (getF s rHRING_STAT 16 1) [ws] = [ws] := by
    rw [validEntries, List.takeWhile_cons_of_pos (by rw [beq_iff_eq]; exact hphase), List.takeWhile_nil]
  unfold ringPoll
  rw [if_neg (by rw [hmay]; decide)]
  dsimp only
  rw [if_neg hfit, hused]
  generalize min (min 32 ((2 ^ ringLog s + 2 ^ 32 - inFlight s) % 2 ^ 32)) (2 ^ ringLog s - getF s rHRING_STAT 0 16) = n at hn
  rw [if_neg (by omega), List.take_of_length_le (by rw [List.length_singleton]; exact hn), hvalid]

-- movers (R373, R374) ---------------------------------------------------------------------------------------------------------------------------------

/-- A mover that has ended a MOVE without a signal, before its record. -/
def moverFreed (s : State) (m n : Nat) : State :=
  ledReturn1 (setMoved (setMoverQ (setR64 s (rHMV_CNT m) (setBits (getR64 s (rHMV_CNT m)) 0 48 ((bits (getR64 s (rHMV_CNT m)) 0 48 + n) % 2 ^ 48))) m ((moverQ s m).drop 1)) m 0) qHMV

theorem moveEnd_eq (hsig : mvSig c = false) (s : State) (m n : Nat) : moveEnd s m c 0 n = complete (moverFreed s m n) c 0 n := by
  unfold moveEnd moverFreed
  simp only [hsig, Bool.false_eq_true, and_false, if_false, if_true]

theorem moverFreed_facts (s : State) (m n : Nat) : (moverFreed s m n).mem = s.mem ∧ SameRing s (moverFreed s m n) ∧ (moverFreed s m n).host.out = s.host.out ∧
    moverQ (moverFreed s m n) m = (moverQ s m).drop 1 := by
  have hcnt (v : Nat) : ∀ off, off < 0x4_0100 → getR (setMoved (setMoverQ (setR64 s (rHMV_CNT m) v) m ((moverQ s m).drop 1)) m 0) off = getR s off := fun off ho =>
    getR_setR64_other s v (by unfold rHMV_CNT; omega) (by unfold rHMV_CNT; omega)
  have hhost (v : Nat) : (setMoved (setMoverQ (setR64 s (rHMV_CNT m) v) m ((moverQ s m).drop 1)) m 0).host =
      { s.host with movers := mset (fun _ => []) s.host.movers m ((moverQ s m).drop 1), moved := mset (fun _ => 0) s.host.moved m 0 } := rfl
  have hmem (v : Nat) : (setMoved (setMoverQ (setR64 s (rHMV_CNT m) v) m ((moverQ s m).drop 1)) m 0).mem = s.mem := rfl
  have htime (v : Nat) : (setMoved (setMoverQ (setR64 s (rHMV_CNT m) v) m ((moverQ s m).drop 1)) m 0).time = s.time := rfl
  unfold moverFreed
  generalize setBits (getR64 s (rHMV_CNT m)) 0 48 ((bits (getR64 s (rHMV_CNT m)) 0 48 + n) % 2 ^ 48) = v
  specialize hcnt v
  specialize hhost v
  specialize hmem v
  specialize htime v
  generalize setMoved (setMoverQ (setR64 s (rHMV_CNT m) v) m ((moverQ s m).drop 1)) m 0 = x at hcnt hhost hmem htime
  obtain ⟨⟨r, hr⟩, hkept⟩ := regsKeep_ledReturn1 x qHMV
  have hx : (ledReturn1 x qHMV).mem = x.mem ∧ (ledReturn1 x qHMV).host = x.host ∧ (ledReturn1 x qHMV).time = x.time := by
    rw [hr]
    exact ⟨rfl, rfl, rfl⟩
  obtain ⟨hxm, hxh, hxt⟩ := hx
  refine ⟨hxm.trans hmem, SameRing.of_regs (fun off ho => (hkept off (.inl ho)).trans (hcnt off ho)) (hxt.trans htime) ?_ ?_ ?_, ?_, ?_⟩
  · rw [hxh, hhost]
  · rw [hxh, hhost]
  · rw [hxh, hhost]
  · rw [hxh, hhost]
  · rw [moverQ, hxh, hhost]
    exact mget_mset_same _ _ _ _

/-- A MOVE without a signal ends with its record, in a state that has counted its bytes and has the next MOVE of the queue at the front. -/
theorem moveEnd_completed (hm : busMaster s = true) (hrecs : s.host.recs = []) (hirq : cmdF c 0 9 1 = 0) (hsig : mvSig c = false) (m n : Nat) :
    ∃ y, SameRing s y ∧ y.mem = s.mem ∧ y.host.out = s.host.out ∧ moverQ y m = (moverQ s m).drop 1 ∧ moveEnd s m c 0 n = completed y c 0 n := by
  obtain ⟨hmem, hring, hout, hq⟩ := moverFreed_facts s m n
  exact ⟨moverFreed s m n, hring, hmem, hout, hq, (moveEnd_eq hsig s m n).trans (complete_eq (hring.master.trans hm) (hring.recs.trans hrecs) hirq 0 n)⟩

theorem moveEnd_facts (hm : busMaster s = true) (hrecs : s.host.recs = []) (hirq : cmdF c 0 9 1 = 0) (hsig : mvSig c = false) (m n : Nat) :
    (∀ a, rdByte (moveEnd s m c 0 n) a = rdByte s a) ∧ moverQ (moveEnd s m c 0 n) m = (moverQ s m).drop 1 ∧ Records s (moveEnd s m c 0 n) c 0 n ∧
      ∃ r, (moveEnd s m c 0 n).host.out = s.host.out ++ [r] := by
  obtain ⟨y, hring, hmem, hout, hq, he⟩ := moveEnd_completed hm hrecs hirq hsig m n
  obtain ⟨hf, -, hhost⟩ := completed_facts y c 0 n
  rw [he]
  refine ⟨fun a => (hf.1 a).trans (rdByte_congr hmem a), ?_, records_completed hring (out := []) (by rw [hout, List.append_nil]) c 0 n, recordOf y c 0 n, ?_⟩
  · rw [moverQ, hhost]
    exact hq
  · rw [hhost, hout]

-- loads (R276) ------------------------------------------------------------------------------------------------------------------------------------------

/-- Registers below the clusters stand while a floe's one slot starts. -/
theorem startOne_facts {cl f : Nat} {x : Nat × Nat} (hdef : getB s (rFLOE_DEF cl f) 16 = true) (hms : floeMembers s cl f = [x]) (hidle : slotState s x.1 x.2 = 0) :
    SameMem s (floeStartRun s cl f) ∧ slotState (floeStartRun s cl f) x.1 x.2 = 1 ∧ (∀ off, off < 0x4_0100 → getR (floeStartRun s cl f) off = getR s off) ∧
      (floeStartRun s cl f).time = s.time ∧ (floeStartRun s cl f).host = s.host := by
  have hx2 : x.2 < 4 := (mem_floeMembers (s := s) (cl := cl) (f := f) (by rw [hms]; exact List.mem_singleton_self x)).2
  have hrun : floeStartRun s cl f = zeroCyc (slotStart s x.1 x.2) cl f := by
    rw [floeStartRun_of_idle hdef (by rw [hms]; simp) (by rw [hms]; simp) (by rw [hms]; simpa using .inl hidle), startMembers, hms]
    rfl
  have hstart := started_slotStart hx2 (.inl hidle)
  have hz := frame_zeroCyc (slotStart s x.1 x.2) cl f
  have hsame : (slotStart s x.1 x.2).time = s.time ∧ (slotStart s x.1 x.2).host = s.host := by
    rw [slotStart_of_idle (.inl hidle)]
    refine List.foldlRecOn (motive := fun z : State => z.time = s.time ∧ z.host = s.host) _ _ ⟨rfl, rfl⟩ fun z hz a _ => ⟨hz.1, hz.2⟩
  have hcyc {off : Nat} (ho : off % 32 ≠ 16 ∧ off % 32 ≠ 20) : off ∉ cycRegs cl f := by
    simp only [cycRegs, List.mem_cons, List.not_mem_nil, or_false, rFLOE_CYC, clusterBase]
    omega
  rw [hrun]
  refine ⟨fun a => (hz.1 a).trans (hstart.frame.1 a), ?_, fun off ho => ?_, hsame.1, hsame.2⟩
  · exact (hz.getF_eq (hcyc (by unfold rTASK_STAT coreBase; omega)) 0 3).trans hstart.state
  · rw [hz.getR_eq, hstart.frame.getR_eq]
    · rw [List.mem_cons, mem_baseRegs]
      rintro (e | ⟨n, -, e⟩)
      · unfold rTASK_STAT coreBase at e
        omega
      · unfold rCTR_BASE coreBase at e
        omega
    · simp only [cycRegs, List.mem_cons, List.not_mem_nil, or_false, rFLOE_CYC, clusterBase]
      omega

end Sys2Proof.Safety
end

section
/-! PROOF. O53: the ring, the movers, loads and the firn window (R361 to R374, R276, R277). -/

namespace Sys2Proof.Safety

open Sys2Proof.Machine

variable {s s' t y : State} {c : HostCmd} {src : Src} {m n k a : Nat} {data : List Byte}

-- the firn window (R361 to R363) ------------------------------------------------------------------------------------------------------------------------

theorem counted_host (s : State) (key : Nat) : (openRow (ledReturn1 (ledIssue s qFIRNREQ 1) qFIRNREQ) key).host = s.host := by
  obtain ⟨⟨r, hr⟩, -⟩ := regsKeep_ledReturn1 (ledIssue s qFIRNREQ 1) qFIRNREQ
  rw [hr]
  rfl

/-- A piece of firn within one block is read from the place of its first byte. -/
theorem devRead_piece (hent : s.firnEnt = []) (hbeat : s.beatErr = []) (w : FirnWho) (fuel : Nat) (hf : isFirn a = true) (hn : 0 < n) (hfit : a % 256 + n ≤ 256) :
    ∃ t, t.mem = s.mem ∧ t.host = s.host ∧ devRead s w (fuel + 2) a n = (t, rdBytes s (memKey s a) n, false) := by
  have hmin : min n (256 - a % 256) = n := by omega
  have hlen : s.firnEnt.length = 0 := by rw [hent]; rfl
  have hsettle : settleChan s (memKey s a) 0 = s := rfl
  obtain ⟨hmem, hbe⟩ := counted_facts s (memKey s a)
  have hread := readKeys_clean (hbe.trans hbeat) w (fuel := 9) (key := memKey s a) (n := n) (.inr (by omega))
  refine ⟨_, hmem, counted_host s (memKey s a), ?_⟩
  unfold devRead
  simp only [show ¬ n = 0 by omega, if_false, hf, if_true, hmin, hlen, hsettle, hread, Bool.false_eq_true, Nat.sub_self]
  unfold devRead
  simp only [if_true, List.append_nil, rdBytes_congr hmem]

theorem devRead_none (s : State) (w : FirnWho) (fuel a : Nat) : devRead s w (fuel + 1) a 0 = (s, [], false) := by
  unfold devRead
  exact if_pos rfl

theorem winLow_below (h : a + n ≤ 2 ^ 38) : winLow a n = n := by
  rw [winLow]
  omega

/-- The one access of the window that waits. -/
def barArrived (s : State) (x : BarAcc) : State := { s with host := { s.host with bar := [x], barCnt := s.host.barCnt + 1 } }

/-- The window's access leaves the queue. -/
def barTaken (s : State) : State := { s with host := { s.host with bar := [], barCnt := s.host.barCnt + 1 } }

theorem barWaits_of_open {x : BarAcc} (hst : pwrState y ≠ 2) (hopen : winOpen y x.addr x.len = true) (hmir : x.data = none ∨ mirMode y ≠ 1) : barWaits y x = false := by
  unfold barWaits
  rw [hopen, decide_eq_false hst]
  rcases hmir with h | h
  · rw [h]
    rfl
  · have hmw (a : Nat) (bs : List Byte) : mirWaits y a bs = false := by
      rw [mirWaits, mirDelta, if_neg h]
    cases x.data with
    | none => rfl
    | some bs => simp only [hmw, Bool.not_true, Bool.or_self]

theorem barPush_arrived (hbar : s.host.bar = []) (o n : Nat) (d : Option (List Byte)) : barPush s o n d =
    if pwrState (barArrived s ⟨winAddr s o, n, d⟩) = 2 then wakeDetectRun (barArrived s ⟨winAddr s o, n, d⟩) .pcie else barRun (barArrived s ⟨winAddr s o, n, d⟩) := by
  unfold barPush
  rw [hbar]
  rfl

theorem barRun_one {x : BarAcc} (hbar : y.host.bar = [x]) (hdead : hostDead y = false) (hwaits : barWaits y x = false) :
    barRun y = barDo { y with host := { y.host with bar := [] } } x := by
  have hgo : barGo y 1 = barGo (barDo { y with host := { y.host with bar := [] } } x) 0 := by
    unfold barGo
    simp only [hbar, hdead, hwaits, Bool.or_self, Bool.false_eq_true, if_false]
    rfl
  rw [barRun, hbar]
  exact hgo

/-- An access of the window that finds no other before it, and nothing to wait for, is performed. -/
theorem barPush_goes {o : Nat} {d : Option (List Byte)} (hdead : hostDead s = false) (hbar : s.host.bar = []) (hst : pwrState s ≠ 2) (hopen : winOpen s (winAddr s o) n = true)
    (hmir : d = none ∨ mirMode s ≠ 1) : barPush s o n d = barDo (barTaken s) ⟨winAddr s o, n, d⟩ := by
  have hwaits : barWaits (barArrived s ⟨winAddr s o, n, d⟩) ⟨winAddr s o, n, d⟩ = false := barWaits_of_open hst hopen hmir
  have hst' : ¬ pwrState (barArrived s ⟨winAddr s o, n, d⟩) = 2 := hst
  rw [barPush_arrived hbar, if_neg hst', barRun_one (y := barArrived s ⟨winAddr s o, n, d⟩) rfl hdead hwaits]
  rfl

/-- A read of the window answers with the bytes of firn (R362). -/
theorem barRead_facts {o : Nat} (hdead : hostDead s = false) (hsess : sessOpen s = true) (hbar : s.host.bar = []) (hst : pwrState s ≠ 2) (hn : 0 < n)
    (hopen : winOpen s (winAddr s o) n = true) (hfit : winAddr s o % 256 + n ≤ 256) (htop : winAddr s o + n ≤ 2 ^ 38) (hent : s.firnEnt = []) (hbeat : s.beatErr = []) :
    SameMem s (barRead s o n) ∧ (barRead s o n).host.out = s.host.out ++ [.readRsp (rdBytes s (memKey s (winAddr s o)) n)] := by
  have hrun : barRead s o n = barDo (barTaken s) ⟨winAddr s o, n, none⟩ := by
    unfold barRead
    rw [if_neg (by rw [hdead]; simp; omega), if_neg (by rw [hsess]; decide), barPush_goes hdead hbar hst hopen (.inl rfl)]
  have hf : isFirn (winAddr s o) = true := by
    rw [isFirn, decide_eq_true_eq]
    omega
  obtain ⟨t, hmem, hhost, hread⟩ := devRead_piece (s := barTaken s) (n := n) hent hbeat whoHost (n / 256) hf hn hfit
  have hkey : memKey (barTaken s) (winAddr s o) = memKey s (winAddr s o) := rfl
  have hbytes : rdBytes (barTaken s) (memKey s (winAddr s o)) n = rdBytes s (memKey s (winAddr s o)) n := rfl
  rw [hkey, hbytes] at hread
  have hdo : barDo (barTaken s) ⟨winAddr s o, n, none⟩ = hostOut t (.readRsp (rdBytes s (memKey s (winAddr s o)) n)) := by
    unfold barDo
    simp only [winLow_below htop, hread, Nat.sub_self, devRead_none, Bool.false_eq_true, if_false, List.append_nil]
  rw [hrun, hdo]
  refine ⟨fun a => rdByte_congr hmem a, ?_⟩
  rw [hostOut, hhost]
  rfl

/-- A write of the window stores its bytes in firn (R362). -/
theorem barWrite_facts {o : Nat} (hdead : hostDead s = false) (hsess : sessOpen s = true) (hbar : s.host.bar = []) (hst : pwrState s ≠ 2) (hn : 0 < n)
    (hopen : winOpen s (winAddr s o) n = true) (hfit : winAddr s o % 256 + n ≤ 256) (htop : winAddr s o + n ≤ 2 ^ 38) (hent : s.firnEnt = []) (hbeat : s.beatErr = [])
    (hlen : data.length = n) (hforeign : mirForeign s (winAddr s o) n = false) (hmir : mirMode s ≠ 1) :
    ∀ b, rdByte (barWrite s o data) b =
      if memKey s (winAddr s o) ≤ b ∧ b < memKey s (winAddr s o) + n then data.getD (b - memKey s (winAddr s o)) 0 else rdByte s b := by
  have hne : data ≠ [] := by
    rintro rfl
    rw [List.length_nil] at hlen
    omega
  have hrun : barWrite s o data = barDo (barTaken s) ⟨winAddr s o, n, some data⟩ := by
    unfold barWrite
    rw [if_neg (by simp [hdead, hne]), if_neg (by rw [hsess]; decide), hlen, barPush_goes hdead hbar hst hopen (.inr hmir)]
  have hf : isFirn (winAddr s o) = true := by
    rw [isFirn, decide_eq_true_eq]
    omega
  have hempty : data.isEmpty = false := List.isEmpty_eq_false_iff.2 hne
  obtain ⟨t, hmem, hput⟩ := devWrite_piece (s := barTaken s) (bs := data) hent hbeat hmir whoHost (data.length / 256) hf hempty (by rw [hlen]; exact hfit)
  have hforeign' : mirForeign (barTaken s) (winAddr s o) data.length = false := by
    rw [hlen]
    exact hforeign
  have hpart : barPart (barTaken s) (winAddr s o) data = (devWrite (barTaken s) whoHost (data.length / 256 + 2) (winAddr s o) data).1 := by
    unfold barPart
    rw [if_neg (by rw [hempty]; decide), if_neg (by rw [hforeign']; decide)]
  have hnil (x : State) : barPart x 0 [] = x := rfl
  have hdo : barDo (barTaken s) ⟨winAddr s o, n, some data⟩ = (devWrite (barTaken s) whoHost (data.length / 256 + 2) (winAddr s o) data).1 := by
    unfold barDo
    simp only [winLow_below htop]
    rw [← hlen, List.take_length, List.drop_length, hpart, hnil]
  intro b
  rw [hrun, hdo, hput.put, hlen, rdByte_congr hmem]
  rfl

theorem host_wakeBegin (h : s.pwr.off = false) (w : WakeSrc) : (wakeBegin s w).host = s.host := by
  obtain ⟨-, -, -, ho, -⟩ := wakeNoted_facts s w
  have hh : (wakeNoted s w).host = s.host := rfl
  rw [wakeBegin_eq, if_neg (by rw [ho, h]; exact Bool.false_ne_true)]
  generalize wakeNoted s w = x at hh
  obtain ⟨rl, p, hr⟩ := railsMove_railsUp x
  rw [hr, ← hh]
  rfl

/-- An access of the window in SLEEP begins a wake, and waits for its end (R313). -/
theorem barRead_asleep {o : Nat} (hdead : hostDead s = false) (hsess : sessOpen s = true) (hbar : s.host.bar = []) (hn : 0 < n) (hst : pwrState s = 2) (hentry : s.pwr.entry = none)
    (hwaking : s.pwr.waking = false) (hoff : s.pwr.off = false) (hvaux : s.pwr.vaux = true) :
    SameMem s (barRead s o n) ∧ (barRead s o n).pwr.waking = true ∧ (barRead s o n).host = (barArrived s ⟨winAddr s o, n, none⟩).host := by
  have hrun : barRead s o n = wakeBegin (barArrived s ⟨winAddr s o, n, none⟩) .pcie := by
    have hst' : pwrState (barArrived s ⟨winAddr s o, n, none⟩) = 2 := hst
    have hpwr : (barArrived s ⟨winAddr s o, n, none⟩).pwr = s.pwr := rfl
    unfold barRead
    rw [if_neg (by rw [hdead]; simp; omega), if_neg (by rw [hsess]; decide), barPush_arrived hbar, if_pos hst']
    unfold wakeDetectRun
    rw [hpwr, hentry]
    simp [hoff, hst', hvaux, hwaking, wakes]
  obtain ⟨hm, -, hw, -⟩ := wakeBegin_facts (s := barArrived s ⟨winAddr s o, n, none⟩) hoff .pcie
  rw [hrun]
  exact ⟨fun a => rdByte_congr hm a, hw, host_wakeBegin (s := barArrived s ⟨winAddr s o, n, none⟩) hoff .pcie⟩

theorem barRead_closed {o : Nat} (hdead : hostDead s = false) (hsess : sessOpen s = false) (hn : 0 < n) :
    barRead s o n = hostOut (satF s rHOST_STAT 16 16 1) (.readRsp (List.replicate n 0)) := by
  unfold barRead
  rw [if_neg (by rw [hdead]; simp; omega), if_pos hsess]

theorem frame_hostOut (s : State) (o : HostOut) (l : List Nat) : Frame l s (hostOut s o) := ⟨fun _ => rfl, fun _ _ => rfl, rfl, rfl⟩

theorem getF_hostOut (s : State) (o : HostOut) (off lo w : Nat) : getF (hostOut s o) off lo w = getF s off lo w := getF_congr (t := hostOut s o) (s := s) rfl _ lo w

theorem frame_satF (s : State) (off lo w n : Nat) : Frame [off] s (satF s off lo w n) := frame_setF s (by simp) lo w _

theorem getF_satF_counted (s : State) (off : Nat) : getF (satF s off 16 16 1) off 16 16 = min 65535 (getF s off 16 16 + 1) := by
  rw [satF, getF_setF_same s _ 16 16 _ (by decide)]
  generalize getF s off 16 16 = v
  unfold satAdd
  omega

theorem out_hostOut_satF (s : State) (off : Nat) (o : HostOut) : (hostOut (satF s off 16 16 1) o).host.out = s.host.out ++ [o] := by
  rw [hostOut, satF, setF_host]

theorem noSess_counted (s : State) (o : HostOut) : Frame [rHOST_STAT] s (hostOut (satF s rHOST_STAT 16 16 1) o) ∧ (hostOut (satF s rHOST_STAT 16 16 1) o).host.out = s.host.out ++ [o] ∧
    getF (hostOut (satF s rHOST_STAT 16 16 1) o) rHOST_STAT 16 16 = min 65535 (getF s rHOST_STAT 16 16 + 1) :=
  ⟨(frame_satF s rHOST_STAT 16 16 1).trans (frame_hostOut _ o _), out_hostOut_satF s rHOST_STAT o, (getF_hostOut _ o _ _ _).trans (getF_satF_counted s rHOST_STAT)⟩

-- movers and loads (R374, R276) -----------------------------------------------------------------------------------------------------------------------

theorem moverRun_front {q : List HostCmd} (hq : moverQ s m = c :: q) (hm : busMaster s = true) (hstart : startsWait s = false) (d : Option (List Byte)) :
    moverRun s m d = if mvToHost c then moveOut s m c else moveIn s m c (d.getD []) := by
  unfold moverRun
  rw [hq]
  dsimp only
  rw [if_neg (by simp [hm, hstart])]

theorem moveOut_store (hp : placeOf (mvAddr c) (mvLen c) = .store k) (hpres : corePresent s k = true) (hwait : storeWaits s k = false) (hlen : 0 < mvLen c) :
    moveOut s m c = moveEnd (hostOut s (.data (cmdWord c 1) (rdBytes s (mvAddr c) (mvLen c)))) m c 0 (mvLen c) := by
  have hne : (rdBytes s (mvAddr c) (mvLen c)).isEmpty = false := by
    rw [List.isEmpty_eq_false_iff, ← List.length_pos_iff, rdBytes_length]
    exact hlen
  unfold moveOut
  simp only [hp, hpres, hwait, hne, Bool.true_eq_false, Bool.false_eq_true, if_false]

theorem moveIn_store (hp : placeOf (mvAddr c) (mvLen c) = .store k) (hwait : storeWaits s k = false) (hlen : mvLen c ≤ data.length) :
    moveIn s m c data = moveEnd (wrBytes s (mvAddr c) (data.take (mvLen c))) m c 0 (mvLen c) := by
  have htake : (data.take (mvLen c)).length = mvLen c := by
    rw [List.length_take]
    omega
  unfold moveIn
  simp only [hp, hwait, htake, Bool.false_eq_true, if_false, lt_irrefl]

theorem loadDone_one {l : LoadSt} {cl f : Nat} (hl : s.host.loader = some l) (hfl : l.floes = [(cl, f)]) (hstart : startsWait s = false)
    (hwants : (l.wants.all fun w => overlaid s w.1 w.2.1 w.2.2) = true) (hg : (clusterOf s cl).gated = false) :
    loadDone s = complete (floeStartRun { s with host := { s.host with loader := none } } cl f) l.cmd
      (if l.status ≠ 0 then l.status else if l.code ≠ 0 then 7 else 0) l.code := by
  unfold loadDone
  simp only [hl, hstart, Bool.and_false, Bool.false_eq_true, if_false, hwants, Bool.not_true, hfl, List.any_cons, List.any_nil, hg, Bool.or_self, List.foldl_cons, List.foldl_nil]

/-- Settles O53. -/
theorem ringMoversAndWindow : Obligations.RingMoversAndWindow := by
  unfold Obligations.RingMoversAndWindow
  intro s
  refine ⟨fun src hserved hoff hlo hhi => ?_, fun src hserved hon => ?_, fun hmay => ⟨fun es => ?_, fun head ws hlog hfly hhead hroom hphase => ?_⟩,
    fun m c q k hq hbm hstart hrecs hirq hp hpres hwait hsig hlen => ⟨fun hto data => ?_, fun hto data hdata => ?_⟩,
    fun l cl f x hl hfl hstart hwants hg hbm hrecs hirq hdef hms hidle => ?_, fun l hl hwants => ?_, fun off n a ha hdead hbar hn => ?_⟩
  · have hlt := getF_lt s rHRING_SIZE 0 5
    have hexec : exec (.hringEnable src) s = .next (ringBegun s (getF s rHRING_SIZE 0 5)) :=
      congrArg Host.Outcome.next ((regTop_ringSize hserved (by omega)).trans (ringSize_enable hoff hlo hhi))
    exact ⟨_, hexec, ringBegun_facts s (by omega)⟩
  · have hlt := getF_lt s rHRING_SIZE 0 5
    have hexec : exec (.hringDisable src) s = .next (setF s rHRING_SIZE 8 1 0) := congrArg Host.Outcome.next ((regTop_ringSize hserved (by omega)).trans (ringSize_disable hon))
    exact ⟨_, hexec, frame_setF s (by simp) 8 1 0, getB_setF_same s _ (by decide) 0, getF_setF_otherField s _ 8 1 0 0 5 (by decide) (.inl (by decide))⟩
  · have hrun : ringPoll s none es = pollFail s false := by
      unfold ringPoll
      exact if_neg (by rw [hmay]; decide)
    exact ⟨_, congrArg Host.Outcome.next hrun, pollFail_facts s⟩
  · have hlt : 2 ^ ringLog s ≤ 2 ^ 16 := Nat.pow_le_pow_right (by decide) hlog
    have hexec : exec (.hringPoll (some head) (some [ws])) s = _ := congrArg Host.Outcome.next
      ((ringPoll_one hmay hlog hfly hhead hroom hphase).trans (acceptOne s ws hroom))
    refine ⟨_, hexec, ⟨fun _ => rfl, fun _ ho => getR_setF_other _ 0 16 _ fun e => ho (by rw [e]; simp), rfl, rfl⟩, rfl, ?_, ?_⟩
    · rw [getF_setF_same _ _ 0 16 _ (by decide), Nat.mod_eq_of_lt (by omega)]
    · exact getF_setF_otherField _ rHRING_STAT 0 16 _ 16 1 (by decide) (.inr (by decide))
  · obtain ⟨hmem, hmq, hrec, r, hout⟩ := moveEnd_facts (s := hostOut s (.data (cmdWord c 1) (rdBytes s (mvAddr c) (mvLen c)))) hbm hrecs hirq hsig m (mvLen c)
    have hrun : moverRun s m data = _ := (moverRun_front hq hbm hstart data).trans ((if_pos hto).trans (moveOut_store (m := m) hp hpres hwait hlen))
    obtain ⟨htail, out, hout'⟩ := hrec
    refine ⟨_, congrArg Host.Outcome.next hrun, hmem, ?_, ⟨htail, [.data (cmdWord c 1) (rdBytes s (mvAddr c) (mvLen c))] ++ out, ?_⟩, r, ?_⟩
    · rw [hmq]
      exact congrArg (List.drop 1) hq
    · rw [hout']
      simp only [hostOut, List.append_assoc]
      rfl
    · rw [hout]
      simp only [hostOut, List.append_assoc, List.cons_append, List.nil_append]
  · have htake : (data.take (mvLen c)).length = mvLen c := by
      rw [List.length_take]
      omega
    obtain ⟨hmem, hmq, hrec, -⟩ := moveEnd_facts (s := wrBytes s (mvAddr c) (data.take (mvLen c))) hbm hrecs hirq hsig m (mvLen c)
    have hrun : moverRun s m (some data) = moveEnd (wrBytes s (mvAddr c) (data.take (mvLen c))) m c 0 (mvLen c) :=
      (moverRun_front hq hbm hstart (some data)).trans ((if_neg (by rw [hto]; decide)).trans (moveIn_store (m := m) hp hwait hdata))
    refine ⟨_, congrArg Host.Outcome.next hrun, ?_, hrec, ?_, fun a ha => ?_⟩
    · rw [hmq]
      exact congrArg (List.drop 1) hq
    · have hsame := rdBytes_wrBytes_same s (mvAddr c) (data.take (mvLen c))
      rw [htake] at hsame
      refine Eq.trans ?_ hsame
      exact List.map_congr_left fun i _ => hmem _
    · rw [hmem, rdByte_wrBytes, if_neg (by omega)]
  · have hbase : SameRing s { s with host := { s.host with loader := none } } := SameRing.of_regs (fun _ _ => rfl) rfl rfl rfl rfl
    obtain ⟨hm, hst, hregs, htime, hhost⟩ := startOne_facts (s := { s with host := { s.host with loader := none } }) (x := x) hdef hms hidle
    have hrun := loadDone_one hl hfl hstart hwants hg
    generalize floeStartRun { s with host := { s.host with loader := none } } cl f = y at hm hst hregs htime hhost hrun
    have hring : SameRing s y := hbase.trans (SameRing.of_regs hregs htime (by rw [hhost]) (by rw [hhost]) (by rw [hhost]))
    have hout : y.host.out = s.host.out ++ [] := by rw [hhost, List.append_nil]
    have hcomp := complete_eq (hring.master.trans hbm) (hring.recs.trans hrecs) hirq (if l.status ≠ 0 then l.status else if l.code ≠ 0 then 7 else 0) l.code
    obtain ⟨hf, -, hch⟩ := completed_facts y l.cmd (if l.status ≠ 0 then l.status else if l.code ≠ 0 then 7 else 0) l.code
    refine ⟨_, congrArg Host.Outcome.next (hrun.trans hcomp), fun a => (hf.1 a).trans (hm a), ?_, ?_, records_completed hring hout l.cmd _ l.code⟩
    · rw [hch, hhost]
    · exact (hf.getF_eq (by rw [List.mem_singleton]; unfold rTASK_STAT coreBase rCTAIL; omega) 0 3).trans hst
  · have hrun : loadDone s = s := by
      unfold loadDone
      rw [hl]
      dsimp only
      rw [hwants]
      simp
    exact congrArg Host.Outcome.next hrun
  · subst ha
    refine ⟨fun hsess => ?_, fun hsess hst hopen hfit htop hent hbeat => ⟨?_, fun data hlen hforeign hmir => ?_⟩, fun hsess hst hentry hwaking hoff hvaux => ?_⟩
    · exact ⟨_, congrArg Host.Outcome.next (barRead_closed hdead hsess hn), noSess_counted s _⟩
    · exact ⟨_, rfl, barRead_facts hdead hsess hbar hst hn hopen hfit htop hent hbeat⟩
    · have hput := barWrite_facts hdead hsess hbar hst hn hopen hfit htop hent hbeat hlen hforeign hmir
      refine ⟨_, rfl, ?_, fun b hb => (hput b).trans (if_neg (by omega))⟩
      refine List.ext_getElem (by rw [rdBytes_length, hlen]) fun i h1 h2 => ?_
      simp only [rdBytes, List.getElem_map, List.getElem_range]
      rw [hput, if_pos ⟨Nat.le_add_right _ _, by omega⟩, Nat.add_sub_cancel_left, List.getD_eq_getElem _ _ h2]
    · obtain ⟨hm, hw, hh⟩ := barRead_asleep (o := off.toNat) hdead hsess hbar hn hst hentry hwaking hoff hvaux
      exact ⟨_, rfl, hm, hw, by rw [hh]; rfl, by rw [hh]; rfl⟩

end Sys2Proof.Safety
end

section
/-! SUPPORT. What one step of the tick leaves: the time base but for its own count, the records that wait for the host, what is served, and the host's interrupt bits, which
only rise. It is stated as a relation to an earlier state that each operation of the tick continues; its part about records alone is what a register write continues. -/

namespace Sys2Proof.Safety

open Sys2Proof.Machine

/-- What the time base shows: its count, the servo and the step of the tick. -/
def timeView (s : State) : Nat × Int × Int × Nat × Nat × Bool := (s.time.tb, s.time.rate, s.time.slew, s.time.ticks, s.time.sub, s.time.syncOut)

/-- A register that is neither the host's interrupt status nor, while serving is on, SRV_CTL or the count of tokens served. -/
def Aside (on : Prop) (off : Nat) : Prop := off ≠ 0x4_0048 ∧ off ≠ 0x4_004C ∧ (on → off ≠ 0x40_1000 ∧ off ≠ 0x40_1020)

/-- State s comes from state b by operations that leave no record waiting where none waited and, where `full` holds, leave the time base and what is served. -/
structure Calm (full : Prop) (b s : State) : Prop where
  recs : b.host.recs = [] → s.host.recs = []
  timing : full → timeView s = timeView b
  serve : full → s.serve = b.serve
  served : full → getB b rSRV_CTL 0 = true → getB s rSRV_CTL 0 = true ∧ getR s rSRV_STAT = getR b rSRV_STAT
  irq : full → ∀ n, bits (getR64 b rHOST_IRQ_STAT) n 1 = 1 → bits (getR64 s rHOST_IRQ_STAT) n 1 = 1

theorem Calm.refl (full : Prop) (s : State) : Calm full s s := ⟨id, fun _ => rfl, fun _ => rfl, fun _ h => ⟨h, rfl⟩, fun _ _ => id⟩

variable {full : Prop} {b s t x y : State} {α : Type}

theorem Calm.of_same (h : Calm full b s) (hr : t.regs = s.regs) (htm : timeView t = timeView s) (hrec : t.host.recs = s.host.recs) (hs : t.serve = s.serve) : Calm full b t :=
  ⟨fun e => hrec.trans (h.recs e), fun f => htm.trans (h.timing f), fun f => hs.trans (h.serve f),
    fun f e => by
      rw [getB, getF, getR_congr hr, getR_congr hr]
      exact h.served f e,
    fun f n e => by
      rw [getR64, getR_congr hr, getR_congr hr]
      exact h.irq f n e⟩

theorem calm_ite {p : Prop} [Decidable p] (hx : Calm full b x) (hy : Calm full b y) : Calm full b (if p then x else y) := by
  split
  · exact hx
  · exact hy
theorem calm_ite_fst {p : Prop} [Decidable p] {x y : State × α} (hx : Calm full b x.1) (hy : Calm full b y.1) : Calm full b (if p then x else y).1 := by
  split
  · exact hx
  · exact hy
theorem calm_foldl {f : State → α → State} {l : List α} (hf : ∀ s x, Calm full b s → Calm full b (f s x)) (h : Calm full b s) : Calm full b (l.foldl f s) := by
  induction l generalizing s with
  | nil => exact h
  | cons x l ih => exact ih (hf s x h)

theorem getR64_setR64_mod (s : State) (off v : Nat) : getR64 (setR64 s off v) off = v % 2 ^ 64 := by
  have h1 : getR (setR64 s off v) off = BitVec.ofNat 32 v := by
    rw [setR64, getR_setR_other _ _ (by omega), getR_setR_same]
  have h2 : getR (setR64 s off v) (off + 4) = BitVec.ofNat 32 (v / 2 ^ 32) := by rw [setR64, getR_setR_same]
  rw [getR64, h1, h2, BitVec.toNat_ofNat, BitVec.toNat_ofNat]
  omega

-- registers -----------------------------------------------------------------------------------------------------------------------

section
variable (h : Calm full b s) {off : Nat} (ho : full → Aside (getB b rSRV_CTL 0 = true) off) (ho4 : full → Aside (getB b rSRV_CTL 0 = true) (off + 4))
include h ho

theorem Calm.setR {v : BitVec 32} : Calm full b (setR s off v) := by
  refine ⟨h.recs, h.timing, h.serve, fun f e => ?_, fun f n e => ?_⟩
  · obtain ⟨-, -, hserve⟩ := ho f
    obtain ⟨hctl, hstat⟩ := hserve e
    have hget : getB (Machine.setR s off v) rSRV_CTL 0 = getB s rSRV_CTL 0 := by
      unfold getB getF
      rw [getR_setR_other s v (by exact hctl.symm)]
    rw [hget, getR_setR_other s v (by exact hstat.symm)]
    exact h.served f e
  · obtain ⟨hlow, hhigh, -⟩ := ho f
    rw [getR64, getR_setR_other s v (by exact hlow.symm), getR_setR_other s v (by exact hhigh.symm)]
    exact h.irq f n e
theorem Calm.setF {lo w v : Nat} : Calm full b (setF s off lo w v) := h.setR ho
theorem Calm.satF {lo w n : Nat} : Calm full b (satF s off lo w n) := h.setF ho
include ho4
theorem Calm.setR64 {v : Nat} : Calm full b (setR64 s off v) := (h.setR ho).setR ho4
theorem Calm.add64 {n : Nat} : Calm full b (add64 s off n) := h.setR64 ho ho4
end

variable {on : Prop}

theorem aside_high {off : Nat} (h : 0x100_0000 ≤ off) : Aside on off := by
  unfold Aside
  omega
theorem aside_core (c n : Nat) : Aside on (coreBase c + n) := aside_high (by unfold coreBase; omega)
theorem aside_core2 (c n m : Nat) : Aside on (coreBase c + n + m) := aside_high (by unfold coreBase; omega)
theorem aside_core3 (c n m k : Nat) : Aside on (coreBase c + n + m + k) := aside_high (by unfold coreBase; omega)
theorem aside_cluster (c n : Nat) : Aside on (clusterBase c + n) := aside_high (by unfold clusterBase; omega)
theorem aside_cluster2 (c n m : Nat) : Aside on (clusterBase c + n + m) := aside_high (by unfold clusterBase; omega)
theorem aside_cluster3 (c n m k : Nat) : Aside on (clusterBase c + n + m + k) := aside_high (by unfold clusterBase; omega)
theorem aside_ledger {q n : Nat} (hq : q < 16) (hn : n < 0x40) : Aside on (ledgerBase q + n) := by
  unfold Aside ledgerBase
  omega
theorem aside_port (p : Nat) {n : Nat} (h0 : n % 256 ≠ 0) (h20 : n % 256 ≠ 0x20) (h48 : n % 256 ≠ 0x48) (h4C : n % 256 ≠ 0x4C) : Aside on (portBase p + n) := by
  unfold Aside portBase
  omega
theorem aside_moraine (d : Nat) {n : Nat} (hn : n < 0x1000) (h0 : n ≠ 0) (h20 : n ≠ 0x20) : Aside on (mlogBase d + n) := by
  unfold Aside mlogBase
  omega
theorem aside_service (d : Nat) {n : Nat} (hn : n < 0x1000 ∨ 0x1028 ≤ n) (h : n < 0x4_0000) : Aside on (svcBase d + n) := by
  unfold Aside svcBase
  omega
theorem aside_rCC_CTL (k : Nat) {n : Nat} (hn : n < 0x40) : Aside on (rCC_CTL k + n) := by
  rw [rCC_CTL, Nat.add_assoc]
  exact aside_service _ (.inl (by omega)) (by omega)
theorem aside_rTRC_STAT_high (d : Nat) : Aside on (rTRC_STAT d + 4) := by
  rw [rTRC_STAT, Nat.add_assoc]
  exact aside_service d (by decide) (by decide)
theorem aside_rMLOG_STAT (d : Nat) : Aside on (rMLOG_STAT d) := aside_moraine d (by decide) (by decide) (by decide)
theorem aside_rFAB_CNT (p : Nat) : Aside on (rFAB_CNT p) := aside_port p (by decide) (by decide) (by decide) (by decide)
theorem aside_rFAB_ROUTE : Aside on rFAB_ROUTE := by
  unfold Aside rFAB_ROUTE
  omega
theorem aside_rMIR_STAT_high : Aside on (rMIR_STAT + 4) := by
  unfold Aside rMIR_STAT
  omega

-- primitive operations ---------------------------------------------------------------------------------------------------------------

section
variable (h : Calm full b s)
include h

theorem Calm.setCore {c : Nat} {k : CoreSt} : Calm full b (setCore s c k) := h.of_same rfl rfl rfl rfl
theorem Calm.modCore {c : Nat} {f : CoreSt → CoreSt} : Calm full b (modCore s c f) := h.of_same rfl rfl rfl rfl
theorem Calm.setDesc {c d : Nat} {z : DescSt} : Calm full b (setDesc s c d z) := h.of_same rfl rfl rfl rfl
theorem Calm.setSlot {c n : Nat} {z : SlotSt} : Calm full b (setSlot s c n z) := h.of_same rfl rfl rfl rfl
theorem Calm.modSlot {c n : Nat} {f : SlotSt → SlotSt} : Calm full b (modSlot s c n f) := h.of_same rfl rfl rfl rfl
theorem Calm.setRing {c e : Nat} {r : List RingMsg} : Calm full b (setRing s c e r) := h.of_same rfl rfl rfl rfl
theorem Calm.oweReply {c pkg core ich : Nat} {ws : List (BitVec 64)} : Calm full b (oweReply s c pkg core ich ws) := h.of_same rfl rfl rfl rfl
theorem Calm.setFloe {cl f : Nat} {z : FloeSt} : Calm full b (setFloe s cl f z) := h.of_same rfl rfl rfl rfl
theorem Calm.setTrace {d : Nat} {r : List (List (BitVec 64))} : Calm full b (setTrace s d r) := h.of_same rfl rfl rfl rfl
theorem Calm.setAlert : Calm full b (setAlert s) := h.of_same rfl rfl rfl rfl
theorem Calm.drawFree : Calm full b (drawFree s).2 := h.of_same rfl rfl rfl rfl
theorem Calm.openBytes {n : Nat} : Calm full b (openBytes s n).2 := h.of_same rfl rfl rfl rfl
theorem Calm.setOut {k : Nat} {q : List NetItem} : Calm full b (setOut s k q) := h.of_same rfl rfl rfl rfl
theorem Calm.outPush {cl l src marks : Nat} {load : NetLoad} : Calm full b (outPush s cl l src marks load) := h.of_same rfl rfl rfl rfl
theorem Calm.coreOut {c marks : Nat} {load : NetLoad} : Calm full b (coreOut s c marks load) := h.of_same rfl rfl rfl rfl
theorem Calm.setPort {p : Nat} {z : PortSt} : Calm full b (setPort s p z) := h.of_same rfl rfl rfl rfl
theorem Calm.emitFlit {p : Nat} {f : FlitRec} : Calm full b (emitFlit s p f) := h.of_same rfl rfl rfl rfl
theorem Calm.sendNumbered {p : Nat} {f : FlitRec} : Calm full b (sendNumbered s p f) := h.of_same rfl rfl rfl rfl
theorem Calm.setTrk {n : Nat} {z : TrkEnt} : Calm full b (setTrk s n z) := h.of_same rfl rfl rfl rfl
theorem Calm.wrBytes {a : Nat} {bs : List Byte} : Calm full b (wrBytes s a bs) := h.of_same rfl rfl rfl rfl
theorem Calm.setRegion {r : Nat} {z : RegionSt} : Calm full b (setRegion s r z) := h.of_same rfl rfl rfl rfl
theorem Calm.setStack {k : Nat} {z : StackSt} : Calm full b (setStack s k z) := h.of_same rfl rfl rfl rfl
theorem Calm.setCluster {cl : Nat} {z : ClusterSt} : Calm full b (setCluster s cl z) := h.of_same rfl rfl rfl rfl
theorem Calm.setCc {k : Nat} {z : CcSt} : Calm full b (setCc s k z) := h.of_same rfl rfl rfl rfl
theorem Calm.sramWrite {d off : Nat} {bs : List Byte} : Calm full b (sramWrite s d off bs) := h.of_same rfl rfl rfl rfl
theorem Calm.openRow {key : Nat} : Calm full b (openRow s key) := h.of_same rfl rfl rfl rfl
theorem Calm.dropWaiting {id pos : Nat} : Calm full b (dropWaiting s id pos) := h.of_same rfl rfl rfl rfl
theorem Calm.stackOut {k c marks : Nat} {load : NetLoad} : Calm full b (stackOut s k c marks load) := h.of_same rfl rfl rfl rfl
theorem Calm.setBeatErr {key : Nat} {e : BitVec 288} : Calm full b (setBeatErr s key e) := h.of_same rfl rfl rfl rfl
theorem Calm.ccData {k : Nat} {bs : List Byte} : Calm full b (ccData s k bs) := h.of_same rfl rfl rfl rfl
theorem Calm.setMirDeltas {r n : Nat} : Calm full b (setMirDeltas s r n) := h.of_same rfl rfl rfl rfl
theorem Calm.hostOut {o : HostOut} : Calm full b (hostOut s o) := h.of_same rfl rfl rfl rfl
theorem Calm.setIn {k : Nat} {q : List NetItem} : Calm full b (setIn s k q) := h.of_same rfl rfl rfl rfl
theorem Calm.setFlying {q : List NetPkt} : Calm full b (setFlying s q) := h.of_same rfl rfl rfl rfl
theorem Calm.setUsed {key d : Nat} : Calm full b (setUsed s key d) := h.of_same rfl rfl rfl rfl
theorem Calm.setRecv {e : Nat} {q : List NetPkt} : Calm full b (setRecv s e q) := h.of_same rfl rfl rfl rfl
theorem Calm.setTurn {key : Nat} {q : List NetPkt} : Calm full b (setTurn s key q) := h.of_same rfl rfl rfl rfl
theorem Calm.setTurnHeld {key : Nat} {up : Bool} : Calm full b (setTurnHeld s key up) := calm_ite h (h.of_same rfl rfl rfl rfl)
theorem Calm.tapStatus {k : Nat} : Calm full b (tapStatus s k) := h.of_same rfl rfl rfl rfl
theorem Calm.readEffect {off : Nat} : Calm full b (readEffect s off).1 := by
  unfold Machine.readEffect
  exact calm_ite_fst (h.of_same rfl rfl rfl rfl) (calm_ite_fst (h.of_same rfl rfl rfl rfl) h)

-- tokens, slots and floes ------------------------------------------------------------------------------------------------------------

theorem Calm.ledReturn1 {q : Nat} (hq : q < 16) : Calm full b (ledReturn1 s q) :=
  calm_ite (h.satF fun _ => aside_ledger hq (by decide)) (h.add64 (fun _ => aside_ledger hq (by decide)) fun _ => aside_ledger (n := 12) hq (by decide))
theorem Calm.ledIssue {q : Nat} (hq : q < 16) {n : Nat} : Calm full b (ledIssue s q n) :=
  h.add64 (fun _ => aside_ledger (n := 0) hq (by decide)) fun _ => aside_ledger hq (by decide)
theorem Calm.ledReturn {q : Nat} (hq : q < 16) {n : Nat} : Calm full b (ledReturn s q n) := by
  induction n generalizing s with
  | zero => exact h
  | succ n ih => exact ih (h.ledReturn1 hq)
theorem Calm.stopDesc {c d : Nat} : Calm full b (stopDesc s c d) := by
  unfold Machine.stopDesc
  dsimp only
  split
  · exact h.setDesc.ledReturn (by decide)
  · exact h
theorem Calm.haltDesc {c d : Nat} : Calm full b (haltDesc s c d) := by
  unfold Machine.haltDesc
  split
  · exact h
  · exact calm_ite h.stopDesc h.setDesc
theorem Calm.setSlotState {c n v : Nat} : Calm full b (setSlotState s c n v) := h.setF fun _ => aside_core2 _ _ _
theorem Calm.readyMates {c n : Nat} : Calm full b (readyMates s c n) := calm_foldl (fun _ _ h => calm_ite h.setSlotState h) h
theorem Calm.grantMsg {c e : Nat} : Calm full b (grantMsg s c e) :=
  calm_foldl (fun _ _ h => calm_ite h.setRing.setSlotState.modSlot.readyMates (calm_ite h.readyMates h)) h
theorem Calm.dropMres {c n : Nat} : Calm full b (dropMres s c n) := by
  unfold Machine.dropMres
  split
  · exact calm_ite h.setRing.modSlot.grantMsg h.setRing.modSlot
  · exact h
theorem Calm.grantSlot {c n m : Nat} : Calm full b (grantSlot s c n m) := by
  unfold Machine.grantSlot
  split
  · exact calm_ite h.setSlotState.modSlot.readyMates (calm_ite h.readyMates h)
  · exact h
theorem Calm.grantAll {c n : Nat} : Calm full b (grantAll s c n) := h.grantSlot.grantSlot.grantSlot.grantSlot
theorem Calm.dropResv {c n : Nat} : Calm full b (dropResv s c n) := by
  unfold Machine.dropResv
  split
  · exact h.modSlot.grantAll
  · exact h
theorem Calm.dropAllResv {c n : Nat} : Calm full b (dropAllResv s c n) := h.dropResv.dropMres
theorem Calm.nullReply {c e : Nat} {count : Bool} : Calm full b (nullReply s c e count) := by
  have hnull : Calm full b (Machine.setR64 s (rICH_REPLY c e) 0) := h.setR64 (fun _ => aside_core2 _ _ _) fun _ => aside_core3 _ _ _ _
  unfold Machine.nullReply
  refine calm_ite h ?_
  dsimp only
  exact calm_ite (hnull.oweReply.satF fun _ => aside_core2 _ _ _) hnull.oweReply
theorem Calm.nullRepliesOf {c n : Nat} : Calm full b (nullRepliesOf s c n) := calm_foldl (fun _ _ h => calm_ite h.nullReply h) h
theorem Calm.faultSlot {c n : Nat} : Calm full b (faultSlot s c n) := calm_ite h.setSlotState.modSlot.dropAllResv.nullRepliesOf h
theorem Calm.stallSince {cl f r : Nat} : Calm full b (stallSince s cl f r) := calm_ite h h.setFloe
theorem Calm.traceRec {d typ core slot floe fcyc w2 w3 : Nat} : Calm full b (traceRec s d typ core slot floe fcyc w2 w3) :=
  calm_ite (calm_ite h.setTrace (h.satF fun _ => aside_rTRC_STAT_high d)) h
theorem Calm.traceOfFloe {cl f typ w2 w3 : Nat} : Calm full b (traceOfFloe s cl f typ w2 w3) := calm_ite h.traceRec h
theorem Calm.setFloeReason {cl f r : Nat} : Calm full b (setFloeReason s cl f r) :=
  calm_ite h.stallSince (h.setF fun _ => aside_cluster2 _ _ _).stallSince.traceOfFloe
theorem Calm.stopFloe {cl f : Nat} : Calm full b (stopFloe s cl f) := calm_foldl (fun _ _ h => h.faultSlot) h.setFloeReason.setFloe
theorem Calm.stopCore {c : Nat} : Calm full b (stopCore s c) := calm_foldl (fun _ _ h => h.faultSlot) (calm_foldl (fun _ _ h => calm_ite h.stopFloe h) h)
theorem Calm.stopCluster {cl : Nat} : Calm full b (stopCluster s cl) := calm_foldl (fun _ _ h => h.stopCore) h
theorem Calm.haltDie {d : Nat} : Calm full b (haltDie s d) :=
  (calm_foldl (fun _ _ h => calm_foldl (fun _ _ h => h.haltDesc) h) (calm_foldl (fun _ _ h => h.stopCluster) h)).setF fun _ => aside_rMLOG_STAT d
theorem Calm.stopFloeOf {c n : Nat} : Calm full b (stopFloeOf s c n) := by
  unfold Machine.stopFloeOf
  refine calm_ite ?_ h
  split
  · exact h.stopFloe
  · exact h.faultSlot

-- events ---------------------------------------------------------------------------------------------------------------------------------

/-- The first record of a moraine, which nothing fills while its valid bit is set: a moraine that lay over SRV_CTL would not be free while serving is on. -/
theorem Calm.fillFirst {d tier : Nat} {e : Ev} (hfree : getB s (rMLOG_FIRST d) 0 = false) : Calm full b (fillFirst s d tier e) := by
  have haside {n : Nat} (hn : n < 0x1000) (f : full) : Aside (getB b rSRV_CTL 0 = true) (mlogBase d + n) := by
    refine ⟨by unfold mlogBase; omega, by unfold mlogBase; omega, fun hon => ?_⟩
    have hd : mlogBase d ≠ 0x40_1000 := by
      intro e
      rw [rMLOG_FIRST, e] at hfree
      exact Bool.false_ne_true (hfree.symm.trans (h.served f hon).1)
    unfold mlogBase at hd ⊢
    omega
  have hput {x : State} (hx : Calm full b x) (n v : Nat) (hn : n < 0x100) : Calm full b (Machine.setR64 x (rMLOG_FIRST d + n) v) :=
    hx.setR64 (haside (by omega)) (haside (n := n + 4) (by omega))
  unfold Machine.fillFirst
  exact hput (hput (hput (hput (hput (hput h 0 _ (by decide)) 8 _ (by decide)) 16 _ (by decide)) 24 _ (by decide)) 32 _ (by decide)) 40 _ (by decide)
theorem Calm.sticky {d cls v : Nat} (hcls : cls < 256) : Calm full b (Machine.setR64 s (rMLOG_STICKY d + 8 * (cls / 64)) v) := by
  refine h.setR64 (fun _ => ?_) fun _ => ?_ <;> rw [rMLOG_STICKY] <;> simp only [Nat.add_assoc] <;> exact aside_moraine d (by omega) (by omega) (by omega)
theorem Calm.eventCount {d cls lo w v : Nat} (hcls : cls < 256) : Calm full b (Machine.setF s (rMLOG_COUNT d + 4 * (cls / 2)) lo w v) := by
  refine h.setF fun _ => ?_
  rw [rMLOG_COUNT, Nat.add_assoc]
  exact aside_moraine d (by omega) (by omega) (by omega)
theorem Calm.logEvent {d tier : Nat} {e : Ev} (hcls : e.cls < 256) : Calm full b (logEvent s d tier e) := by
  unfold Machine.logEvent
  dsimp only
  have hsticky : Calm full b (Machine.setR64 s (rMLOG_STICKY d + 8 * (e.cls / 64)) (setBits (getR64 s (rMLOG_STICKY d + 8 * (e.cls / 64))) (e.cls % 64) 1 1)) := h.sticky hcls
  generalize Machine.setR64 s (rMLOG_STICKY d + 8 * (e.cls / 64)) _ = x at hsticky ⊢
  have hcount : Calm full b (if getF x (rMLOG_COUNT d + 4 * (e.cls / 2)) (16 * (e.cls % 2)) 16 = 65535 then Machine.setF x (rMLOG_STAT d) 4 1 1
      else Machine.setF x (rMLOG_COUNT d + 4 * (e.cls / 2)) (16 * (e.cls % 2)) 16 (getF x (rMLOG_COUNT d + 4 * (e.cls / 2)) (16 * (e.cls % 2)) 16 + 1)) :=
    calm_ite (hsticky.setF fun _ => aside_rMLOG_STAT d) (hsticky.eventCount hcls)
  generalize (if getF x (rMLOG_COUNT d + 4 * (e.cls / 2)) (16 * (e.cls % 2)) 16 = 65535 then _ else _) = y at hcount ⊢
  have hsev : Calm full b (Machine.setF y (rMLOG_STAT d) e.sev 1 1) := hcount.setF fun _ => aside_rMLOG_STAT d
  generalize Machine.setF y (rMLOG_STAT d) e.sev 1 1 = z at hsev ⊢
  split
  · exact hsev
  · rename_i hfree
    exact hsev.fillFirst (Bool.eq_false_iff.2 hfree)
theorem Calm.msix {v : Nat} : Calm full b (msix s v) := calm_ite (h.of_same rfl rfl rfl rfl) (h.of_same rfl rfl rfl rfl)
theorem Calm.irqRaised {n : Nat} : Calm full b (Machine.setR64 s rHOST_IRQ_STAT (setBits (getR64 s rHOST_IRQ_STAT) n 1 1)) := by
  refine ⟨h.recs, h.timing, h.serve, fun f e => ?_, fun f m e => ?_⟩
  · rw [getB, getF, getR_setR64_other _ _ (by decide) (by decide), getR_setR64_other _ _ (by decide) (by decide)]
    exact h.served f e
  · have hold := h.irq f m e
    rw [bits_one_iff] at hold ⊢
    rw [getR64_setR64_mod, Nat.testBit_mod_two_pow, testBit_setBits]
    have hm : m < 64 := Nat.lt_of_not_le fun hle => by
      rw [Nat.testBit_lt_two_pow ((getR64_lt s _).trans_le (Nat.pow_le_pow_right (by decide) hle))] at hold
      exact Bool.false_ne_true hold
    by_cases hmn : m = n
    · subst hmn
      simp [hm]
    · by_cases hlt : m < n
      · rw [if_pos hlt, hold, decide_eq_true hm]
        rfl
      · rw [if_neg hlt, if_neg (by omega), hold, decide_eq_true hm]
        rfl
theorem Calm.hostIrq {n : Nat} : Calm full b (hostIrq s n) := calm_ite h.irqRaised.msix h.irqRaised
theorem Calm.reportEvent {d : Nat} {e : Ev} : Calm full b (reportEvent s d e) := by
  have hirq : Calm full b (if getF s (rMLOG_SEV_CTL d) 2 2 ≤ e.sev then Machine.hostIrq s (2 + d) else s) := calm_ite h.hostIrq h
  exact (calm_ite (calm_foldl (fun _ _ h => h.setF fun _ => aside_rCC_CTL _ (by decide)) hirq) hirq).setAlert
theorem Calm.contain {d tier : Nat} {e : Ev} : Calm full b (contain s d tier e) := by
  unfold Machine.contain
  refine calm_ite h.haltDie.setAlert ?_
  split
  · exact h
  · exact calm_ite h (calm_ite h.stopFloeOf (calm_ite h.stopCore (calm_ite h.stopCluster h)))
theorem Calm.raiseEv {d : Nat} {e : Ev} (hcls : e.cls < 256) : Calm full b (raiseEv s d e) := by
  have hlog : Calm full b (Machine.logEvent s d (evTier s d e).1 e) := h.logEvent hcls
  rw [raiseEv_eq]
  exact (calm_ite ((hlog.setF fun _ => aside_rMLOG_STAT d).satF fun _ => aside_rMLOG_STAT d) hlog).traceRec.contain.reportEvent
theorem Calm.raiseCore {c n cls sev home addr detail aux : Nat} (hcls : cls < 256) : Calm full b (raiseCore s c n cls sev home addr detail aux) := h.raiseEv hcls
theorem Calm.absentNote {c ukind uindex addr : Nat} : Calm full b (absentNote s c ukind uindex addr) := h.raiseEv (show cABSENT < 256 by decide)
theorem Calm.replyFailed {c st : Nat} : Calm full b (replyFailed s c st) := h.raiseEv (statusClass_lt st)
theorem Calm.ccError {k st : Nat} : Calm full b (ccError s k st) :=
  ((h.setF fun _ => aside_rCC_CTL k (by decide)).setF fun _ => aside_rCC_CTL k (by decide)).raiseEv (statusClass_lt st)

-- ports, messages and requests to other packages ----------------------------------------------------------------------------------------------

theorem Calm.sendSignal {g : Sig} : Calm full b (sendSignal s g) := by
  have hsig : Calm full b { s with signals := s.signals ++ [g] } := h.of_same rfl rfl rfl rfl
  exact hsig.ledIssue (by decide)
theorem Calm.portDrop {p : Nat} : Calm full b (portDrop s p) := h.satF fun _ => aside_rFAB_CNT p
theorem Calm.drainOne {p k : Nat} : Calm full b (drainOne s p k) := by
  unfold Machine.drainOne
  dsimp only
  split
  · exact h
  · have hstamp {x : State} (hx : Calm full b x) (t1 : Option (Nat × Nat)) : Calm full b { x with time := { x.time with t1 := t1, t1Late := false } } := hx.of_same rfl rfl rfl rfl
    exact (calm_ite (hstamp h.setPort _) h.setPort).sendNumbered.ledIssue (by decide)
theorem Calm.portDrain {p n : Nat} : Calm full b (portDrain s p n) := by
  induction n generalizing s with
  | zero => exact h
  | succ n ih =>
    unfold Machine.portDrain
    split
    · exact h
    · exact ih h.drainOne
theorem Calm.portIdle {p : Nat} : Calm full b (portIdle s p) := calm_ite h (calm_ite h.sendNumbered (calm_ite h.setPort.emitFlit h))
theorem Calm.portFlush {p : Nat} : Calm full b (portFlush s p) := h.portDrain.portIdle
theorem Calm.txPush {p cls : Nat} {k : Packet} : Calm full b (txPush s p cls k) := h.setPort.portFlush
theorem Calm.rxTake {p : Nat} {k : RxPkt} : Calm full b (rxTake s p k) := h.setPort.portFlush
theorem Calm.fabRespond {k : Packet} : Calm full b (fabRespond s k) := by
  unfold Machine.fabRespond
  split
  · exact h.txPush
  · exact h.portDrop
theorem Calm.fabError {hdr : PktHdr} {status why : Nat} {payload : List Byte} : Calm full b (fabError s hdr status why payload) := h.fabRespond
theorem Calm.sendOut {src : Option Nat} {p cls : Nat} {k : Packet} : Calm full b (sendOut s src p cls k) := by
  cases src with
  | some c => exact h.coreOut
  | none => exact h.txPush
theorem Calm.trkTake {who : TrkWho} {port : Nat} : Calm full b (trkTake s who port).2 := h.setTrk.ledIssue (by decide)
theorem Calm.fabRequest {who : TrkWho} {k : Packet} : Calm full b (fabRequest s who k).1 := by
  unfold Machine.fabRequest
  dsimp only
  split
  · exact h.trkTake.sendOut
  · exact calm_ite (h.setF fun _ => aside_rFAB_ROUTE) h
theorem Calm.sendMessage {src pkg core ich slot : Nat} {who : TrkWho} {ws : List (BitVec 64)} : Calm full b (sendMessage s src pkg core ich slot who ws).1 := by
  have hno : Calm full b { s with sendNo := s.sendNo + 1 } := h.of_same rfl rfl rfl rfl
  exact calm_ite_fst (calm_ite (hno.of_same rfl rfl rfl rfl) hno.coreOut) h.fabRequest
theorem Calm.sendReply {c pkg core ich slot : Nat} {ws : List (BitVec 64)} : Calm full b (sendReply s c pkg core ich slot ws) := by
  have hsend : Calm full b (Machine.sendMessage s c pkg core ich slot (.reply c) ws).1 := h.sendMessage
  unfold Machine.sendReply
  generalize Machine.sendMessage s c pkg core ich slot (.reply c) ws = r at hsend
  obtain ⟨s1, _ | st⟩ := r
  · exact hsend
  · exact hsend.replyFailed
theorem Calm.owedRun {c : Nat} : Calm full b (owedRun s c) := by
  unfold Machine.owedRun
  split
  · exact calm_ite h.modCore.sendReply h
  · exact h

-- firn (R163, R167) -----------------------------------------------------------------------------------------------------------------------

omit h in
theorem firnClass_lt (ue : Bool) : (if ue then cFIRN_UE else cFIRN_CE) < 256 := by cases ue <;> decide
theorem Calm.firnEvent {key sym : Nat} {ue : Bool} {w : FirnWho} : Calm full b (firnEvent s key sym ue w) := by
  have hrec {k : Nat} {v : BitVec 32} {a : Nat} : Calm full b (Machine.setR64 (Machine.setR s (rFIRN_ERR_STAT k) v) (rFIRN_ERR_ADDR k) a) :=
    (h.setR fun _ => aside_cluster _ _).setR64 (fun _ => aside_cluster _ _) fun _ => aside_cluster2 _ _ _
  unfold Machine.firnEvent
  dsimp only
  exact ((calm_ite hrec h).satF fun _ => aside_cluster _ _).raiseEv (firnClass_lt ue)
theorem Calm.readBeat {key : Nat} {w : FirnWho} : Calm full b (readBeat s key w).1 := by
  have hev {sym : Nat} {ue : Bool} : Calm full b (Machine.firnEvent s key sym ue w) := h.firnEvent
  unfold Machine.readBeat
  split
  · exact h
  · dsimp only
    exact hev
  · dsimp only
    exact hev
theorem Calm.readKeys {w : FirnWho} {fuel key n : Nat} : Calm full b (readKeys s w fuel key n).1 := by
  induction fuel generalizing s key n with
  | zero => exact h
  | succ fuel ih =>
    unfold Machine.readKeys
    split
    · exact h
    · have hbeat : Calm full b (Machine.readBeat s (key / 32 * 32) w).1 := h.readBeat
      generalize Machine.readBeat s (key / 32 * 32) w = r at hbeat
      obtain ⟨s1, _ | bs⟩ := r
      · exact hbeat
      · exact ih hbeat
theorem Calm.writeBeat {key : Nat} {bs : List Byte} {w : FirnWho} : Calm full b (writeBeat s key bs w).1 := by
  unfold Machine.writeBeat
  refine calm_ite_fst h.wrBytes.setBeatErr ?_
  dsimp only
  have hbeat : Calm full b (Machine.readBeat s (key / 32 * 32) (asRmw w)).1 := h.readBeat
  generalize Machine.readBeat s (key / 32 * 32) (asRmw w) = r at hbeat
  obtain ⟨s1, _ | old⟩ := r
  · exact hbeat
  · exact hbeat.wrBytes.setBeatErr
theorem Calm.writeKeys {w : FirnWho} {fuel key : Nat} {bs : List Byte} : Calm full b (writeKeys s w fuel key bs).1 := by
  induction fuel generalizing s key bs with
  | zero => exact h
  | succ fuel ih =>
    unfold Machine.writeKeys
    split
    · exact h
    · exact ih h.writeBeat
theorem Calm.modXfer {c d id : Nat} {f : Xfer → Xfer} : Calm full b (modXfer s c d id f) := by
  unfold Machine.modXfer
  dsimp only
  split
  · exact calm_ite h.setDesc h
  · exact h
theorem Calm.fenceGone {c id : Nat} : Calm full b (fenceGone s c id) := calm_foldl (fun _ _ h => h.modSlot) h.modCore
theorem Calm.endXfer {c d : Nat} : Calm full b (endXfer s c d) := by
  unfold Machine.endXfer
  split
  · dsimp only
    split
    · exact h.stopDesc.fenceGone.fenceGone
    · exact h.stopDesc.fenceGone
  · exact h
theorem Calm.stopCheck {c d : Nat} : Calm full b (stopCheck s c d) := by
  unfold Machine.stopCheck
  split
  · split
    · exact calm_ite h.endXfer h
    · exact h
  · exact h
theorem Calm.stopXfer {c d id pos : Nat} : Calm full b (stopXfer s c d id pos) := by
  unfold Machine.stopXfer
  dsimp only
  split
  · exact calm_ite h.dropWaiting.modXfer.stopCheck h.dropWaiting.modXfer
  · exact h.dropWaiting.modXfer
theorem Calm.readLands {r : FirnReq} {marks : Nat} {bs : List Byte} {bad : Bool} : Calm full b (readLands s r marks bs bad) := calm_ite h.modXfer.stopXfer h.modXfer
theorem Calm.entered {r : FirnReq} : Calm full b (Machine.ledReturn1 (Machine.openRow { s with firnEnt := s.firnEnt.erase r } (entKey r)) qFIRNREQ) :=
  (h.of_same (t := { s with firnEnt := s.firnEnt.erase r }) rfl rfl rfl rfl).openRow.ledReturn1 (by decide)
theorem Calm.serveRead {r : FirnReq} : Calm full b (serveRead s r) := calm_ite h.entered.readKeys.readLands h.entered.readKeys.stackOut
theorem Calm.serveWrite {r : FirnReq} : Calm full b (serveWrite s r) := by
  have hkeys : Calm full b (Machine.writeKeys _ (whoDesc r.core r.slot) 9 (entKey r) r.data).1 := (h.entered (r := r)).writeKeys
  unfold Machine.serveWrite
  dsimp only
  generalize Machine.writeKeys _ _ _ _ _ = x at hkeys
  refine calm_ite ?_ hkeys
  split
  · exact hkeys.dropWaiting.endXfer
  · exact hkeys
theorem Calm.settleChan {key n : Nat} : Calm full b (settleChan s key n) := by
  induction n generalizing s with
  | zero => exact h
  | succ n ih =>
    unfold Machine.settleChan
    split
    · exact h
    · exact ih (calm_ite h.serveWrite h.serveRead)
theorem Calm.asked {key n : Nat} : Calm full b (Machine.ledReturn1 (Machine.ledIssue (Machine.settleChan s key n) qFIRNREQ 1) qFIRNREQ) :=
  (h.settleChan.ledIssue (by decide)).ledReturn1 (by decide)
theorem Calm.devRead {w : FirnWho} {fuel a n : Nat} : Calm full b (devRead s w fuel a n).1 := by
  induction fuel generalizing s a n with
  | zero => exact h
  | succ fuel ih =>
    have hkeys : Calm full b (Machine.readKeys _ w 9 (memKey s a) (min n (256 - a % 256))).1 := ((h.asked (key := memKey s a) (n := s.firnEnt.length)).openRow (key := memKey s a)).readKeys
    unfold Machine.devRead
    refine calm_ite_fst h (calm_ite_fst ?_ h)
    dsimp only
    generalize Machine.readKeys _ _ _ _ _ = r at hkeys
    obtain ⟨s1, bs, bad⟩ := r
    exact calm_ite_fst hkeys (ih hkeys)
theorem Calm.mirSend {k : Packet} : Calm full b (mirSend s k) := h.setMirDeltas.txPush
theorem Calm.devWrite {w : FirnWho} {fuel a : Nat} {bs : List Byte} : Calm full b (devWrite s w fuel a bs).1 := by
  induction fuel generalizing s a bs with
  | zero => exact h
  | succ fuel ih =>
    unfold Machine.devWrite
    refine calm_ite_fst h (calm_ite_fst (ih (Calm.writeKeys (Calm.openRow ?_))) (calm_ite h.wrBytes h))
    split
    · exact h.asked.mirSend
    · exact h.asked

-- control cores and the window --------------------------------------------------------------------------------------------------------------

theorem Calm.ccLocal {k a len : Nat} {data : Option (List Byte)} : Calm full b (ccLocal s k a len data) := by
  unfold Machine.ccLocal
  split
  · cases data with
    | some bs => exact h.sramWrite
    | none => exact h.ccData
  · split
    · exact h
    · cases data with
      | some bs => exact calm_ite h.absentNote h.wrBytes
      | none => exact calm_ite h.absentNote.ccData h.ccData
    · cases data with
      | some bs => exact calm_ite (h.setF fun _ => aside_rMIR_STAT_high) h.devWrite
      | none =>
        dsimp only
        exact calm_ite h.devRead h.devRead.ccData
theorem Calm.ccFetch {k pkg addr pos n : Nat} : Calm full b (ccFetch s k pkg addr pos n) := by
  unfold Machine.ccFetch
  have hreq {q : Packet} : Calm full b (Machine.fabRequest s (.ccRead k pos) q).1 := h.fabRequest
  have hq := hreq (q := ⟨mkHdr 2 pkg (ownPkg s) 0 0 addr n, [], []⟩)
  generalize Machine.fabRequest s _ _ = r at hq
  obtain ⟨s1, _ | st⟩ := r
  · exact hq.setCc
  · exact hq.ccError
theorem Calm.ccPost {k pkg addr : Nat} {bs : List Byte} : Calm full b (ccPost s k pkg addr bs) := by
  unfold Machine.ccPost
  have hq : Calm full b (Machine.fabRequest s (.ccWrite k) ⟨mkHdr 1 pkg (ownPkg s) 0 0 addr bs.length, bs, []⟩).1 := h.fabRequest
  generalize Machine.fabRequest s _ _ = r at hq
  obtain ⟨s1, _ | st⟩ := r
  · exact hq.setCc
  · exact hq.ccError
theorem Calm.ccRemote {k pkg addr n : Nat} {data : Option (List Byte)} : Calm full b (ccRemote s k pkg addr n data) := by
  cases data with
  | some bs => exact calm_foldl (fun _ _ h => h.ccPost) h
  | none =>
    unfold Machine.ccRemote
    dsimp only
    exact calm_foldl (fun _ _ h => h.ccFetch) (h.openBytes (n := n)).setCc
theorem Calm.ccRemoteSignal {k v : Nat} : Calm full b (ccRemoteSignal s k v) := by
  have hreq (q : Packet) : Calm full b (Machine.fabRequest (Machine.ledIssue s qCTR 1) (.ccSignal k) q).1 := (h.ledIssue (by decide)).fabRequest
  unfold Machine.ccRemoteSignal
  dsimp only
  generalize hr : Machine.fabRequest (Machine.ledIssue s qCTR 1) _ _ = r
  have hr1 : Calm full b r.1 := hr ▸ hreq _
  obtain ⟨s1, _ | st⟩ := r
  · exact hr1
  · exact (hr1.ledReturn1 (by decide)).ccError
theorem Calm.ccSignalGo {k v : Nat} : Calm full b (ccSignalGo s k v) := calm_ite h (calm_ite h.ccRemoteSignal (calm_ite h.absentNote h.sendSignal))
theorem Calm.clearBlocks {c : Nat} {z : Xfer} : Calm full b (clearBlocks s c z) := h.setR64 (fun _ => aside_core _ _) fun _ => aside_core2 _ _ _
theorem Calm.descCount {c d v : Nat} : Calm full b (Machine.setR64 s (rDESC_STAT c d) v) := h.setR64 (fun _ => aside_core2 _ _ _) fun _ => aside_core3 _ _ _ _
theorem Calm.armRun {c n w : Nat} : Calm full b (armRun s c n w) := by
  have hstat {v : Nat} : Calm full b (Machine.setR64 { s with xferId := s.xferId + 1 } (rDESC_STAT c (armDesc w)) v) :=
    (h.of_same (t := { s with xferId := s.xferId + 1 }) rfl rfl rfl rfl).descCount
  exact calm_ite ((calm_ite hstat.clearBlocks hstat).ledIssue (by decide)).setDesc ((calm_ite hstat.clearBlocks hstat).ledIssue (by decide)).setDesc
theorem Calm.putTemplate {c d : Nat} {ws : List (BitVec 64)} : Calm full b (putTemplate s c d ws) :=
  (calm_foldl (fun _ _ h => h.setR64 (fun _ => aside_core3 _ _ _ _) fun _ => aside_high (by unfold coreBase; omega)) h).descCount
theorem Calm.overlayArm {c n src dst len : Nat} : Calm full b (overlayArm s c n src dst len) := by
  unfold Machine.overlayArm
  split
  · exact h
  · exact h.putTemplate.armRun.putTemplate
theorem Calm.ccItemGo {k : Nat} {z : CcItem} : Calm full b (ccItemGo s k z) := by
  cases z with
  | access p a n data =>
    cases p with
    | none => exact h.ccLocal
    | some pkg => exact h.ccRemote
  | signal v => exact h.ccSignalGo
  | irq v => exact h.hostIrq
  | overlay c n src dst len => exact h.overlayArm
theorem Calm.ccGo {k n : Nat} : Calm full b (ccGo s k n) := by
  induction n generalizing s with
  | zero => exact h
  | succ n ih =>
    unfold Machine.ccGo
    split
    · exact h
    · exact calm_ite h (ih h.setCc.ccItemGo)
theorem Calm.ccTodo {k : Nat} : Calm full b (ccTodo s k) := calm_ite h.ccGo h
theorem Calm.ccPush {k : Nat} {z : CcItem} : Calm full b (ccPush s k z) := h.setCc.ccTodo
theorem Calm.ccSigRun {k v : Nat} : Calm full b (ccSigRun s k v) := calm_ite h.ccPush h.ccSignalGo
theorem Calm.barPart {a : Nat} {bs : List Byte} : Calm full b (barPart s a bs) := calm_ite h (calm_ite (h.setF fun _ => aside_rMIR_STAT_high) h.devWrite)
theorem Calm.barDo {z : BarAcc} : Calm full b (barDo s z) := by
  unfold Machine.barDo
  dsimp only
  split
  · exact h.barPart.barPart
  · exact calm_ite h.devRead.hostOut h.devRead.devRead.hostOut
theorem Calm.barGo {n : Nat} : Calm full b (barGo s n) := by
  induction n generalizing s with
  | zero => exact h
  | succ n ih =>
    unfold Machine.barGo
    split
    · exact h
    · rename_i x rest _
      have hrest : Calm full b { s with host := { s.host with bar := rest } } := h.of_same rfl rfl rfl rfl
      exact calm_ite h (ih hrest.barDo)
theorem Calm.barRun : Calm full b (barRun s) := h.barGo
theorem Calm.tapRead {off : Nat} {wide : Bool} : Calm full b (tapRead s off wide) := by
  have hdata {x : State} (hx : Calm full b x) (v : BitVec 64) : Calm full b { x with tap := { x.tap with data := v } } := hx.of_same rfl rfl rfl rfl
  unfold Machine.tapRead
  dsimp only
  exact calm_ite (hdata h.readEffect.readEffect _).tapStatus (hdata h.readEffect _).tapStatus
theorem Calm.tapFlush : Calm full b (tapFlush s) := by
  unfold Machine.tapFlush
  split
  · have hnone : Calm full b { s with tap := { s.tap with read := none } } := h.of_same rfl rfl rfl rfl
    exact calm_ite h hnone.tapRead
  · exact h

-- the tick (R284 to R294) ---------------------------------------------------------------------------------------------------------------------

theorem Calm.rootStep {r : Nat} : Calm full b (rootStep s r) := calm_ite h (calm_ite h.setRegion h.setRegion)
theorem Calm.floeCount {cl f r : Nat} : Calm full b (floeCount s cl f r) :=
  calm_ite (h.satF fun _ => aside_cluster3 _ _ _ _) (calm_ite (h.add64 (fun _ => aside_cluster2 _ _ _) fun _ => aside_cluster3 _ _ _ _).setFloe h)
theorem Calm.elastic {cl f : Nat} : Calm full b (Machine.elastic s cl f) := by
  unfold Machine.elastic
  refine calm_ite ?_ (calm_ite h.setFloe h)
  split
  · exact h.setFloe
  · exact h
theorem Calm.floeRests {cl f : Nat} : Calm full b (floeRests s cl f) := calm_ite (calm_ite h h.setFloeReason) (calm_ite h h.setFloeReason).setFloe
theorem Calm.floeCycle {cl f : Nat} : Calm full b (floeCycle s cl f) := by
  unfold Machine.floeCycle
  exact calm_ite h (calm_ite h.floeRests h.elastic.setFloeReason.floeCount)
theorem Calm.paceRun {c : Nat} : Calm full b (paceRun s c) := calm_ite h h.modCore
theorem Calm.clusterCycle {cl : Nat} : Calm full b (clusterCycle s cl) :=
  (calm_foldl (fun _ _ h => h.paceRun) (calm_foldl (fun _ _ h => h.floeCycle) (calm_foldl (fun _ _ h => h.owedRun) h))).setCluster.setRegion
theorem Calm.stallPause {cl : Nat} {off : Bool} : Calm full b (stallPause s cl off) := by
  refine calm_foldl (fun s f h => ?_) h
  dsimp only
  split
  · exact calm_ite h.setFloe h
  · exact h
theorem Calm.netTake {l : Nat} {i : NetItem} : Calm full b (netTake s l i) := by
  unfold Machine.netTake
  split
  · exact h.of_same rfl rfl rfl rfl
  · exact h.readLands
  · exact h.of_same rfl rfl rfl rfl
  · exact h.of_same rfl rfl rfl rfl
  · exact h.wrBytes.modXfer
  · exact h.setPort
  · exact h
theorem Calm.inStep {cl l : Nat} : Calm full b (inStep s cl l) := by
  unfold Machine.inStep
  dsimp only
  split
  · exact h
  · exact calm_ite h.setIn.netTake h.setIn
theorem Calm.crossStep {cl : Nat} : Calm full b (crossStep s cl) := calm_foldl (fun _ _ h => h.inStep) h
theorem Calm.clusterStep {cl : Nat} : Calm full b (clusterStep s cl) := by
  have hpause : Calm full b (if s.time.sub = 0 then Machine.stallPause s cl (decide (regionUp s cl = false ∨ (clusterOf s cl).gated)) else s) := calm_ite h.stallPause h
  exact calm_ite hpause (calm_ite hpause.rootStep (calm_ite hpause.rootStep.crossStep hpause.rootStep.crossStep.clusterCycle))
theorem Calm.nclkCycle {w0 : Nat → Nat} {d : Nat} : Calm full b (nclkCycle s w0 d) := calm_ite h.setRegion h
theorem Calm.nclkCycles {ds : List Nat} : Calm full b (nclkCycles s ds) := calm_foldl (fun _ _ h => h.nclkCycle) h
theorem Calm.fabInject {p : Nat} {k : RxPkt} {o : SwOut} {load : NetLoad} : Calm full b (fabInject s p k o load) := calm_ite h.setPort h.rxTake.setUsed.setFlying
theorem Calm.fabForward {p : Nat} {k : RxPkt} : Calm full b (fabForward s p k) := by
  unfold Machine.fabForward
  refine calm_ite ?_ ?_
  · split
    · exact h.fabInject
    · exact h.rxTake.setPort
  · split
    · exact h.fabInject
    · exact calm_ite h.rxTake.fabError h.rxTake.portDrop
theorem Calm.fabSlot {p : Nat} : Calm full b (fabSlot s p) := by
  unfold Machine.fabSlot
  refine calm_ite h ?_
  split
  · exact h.fabForward
  · exact h
theorem Calm.switchCycle {d : Nat} : Calm full b (switchCycle s d) := by
  have haged : Calm full b { s with net := { s.net with outq := s.net.outq.map fun q => if q.1 / 128 / 8 = d then (q.1, ageItems q.2) else q } } := h.of_same rfl rfl rfl rfl
  exact calm_ite (calm_foldl (fun _ _ h => h.fabSlot) haged) haged
theorem Calm.serviceStep : Calm full b (serviceStep s) := by
  have hroots : Calm full b ((List.range 4).foldl (fun s d => if regionUp s (32 + d) then Machine.rootStep s (32 + d) else s) s) := calm_foldl (fun _ _ h => calm_ite h.rootStep h) h
  have hcores := calm_foldl (l := (List.range 4).filter fun d => regionUp s (32 + d) && quarterBegins s (32 + d))
    (f := fun s d => (List.range 4).foldl (fun s i => Machine.ccTodo s (4 * d + i)) (Machine.switchCycle s d)) (fun _ _ h => calm_foldl (fun _ _ h => h.ccTodo) h.switchCycle)
    (hroots.nclkCycles (ds := (List.range 4).filter fun d => regionUp s (32 + d) && quarterBegins s (32 + d)))
  exact calm_foldl (fun _ _ h => calm_foldl (fun _ _ h => calm_ite h h.crossStep) h) (calm_ite hcores hcores.barRun)
omit h in
theorem aside_netCount {key off : Nat} (h : netCount key = some off) : Aside on off := by
  unfold netCount at h
  split_ifs at h
  · cases h
    exact aside_cluster _ _
  · cases h
    unfold Aside rEDGE_CNT svcBase
    omega
theorem Calm.turnPush {key : Nat} {p : NetPkt} : Calm full b (turnPush s key p) := calm_ite h.setFlying (calm_ite h.setTurn.setTurnHeld h.setTurn)
theorem Calm.turnLate {key : Nat} {p : NetPkt} : Calm full b (turnLate s key p) := by
  have hcount : Calm full b (match (cameBy p).bind netCount with | some off => Machine.satF (Machine.turnPush s key p) off 16 16 1 | none => Machine.turnPush s key p) := by
    cases hoff : (cameBy p).bind netCount with
    | none => exact h.turnPush
    | some off =>
      obtain ⟨n, -, hn⟩ := Option.bind_eq_some_iff.1 hoff
      exact h.turnPush.satF fun _ => aside_netCount hn
  exact calm_ite (hcount.satF fun _ => aside_cluster _ _) hcount
theorem Calm.edgeArrive {p : NetPkt} : Calm full b (edgeArrive s p) := by
  unfold Machine.edgeArrive
  split
  · exact h.setFlying
  · exact calm_ite h.setFlying (calm_ite h.turnLate h.setRecv)
theorem Calm.edgesRun : Calm full b (edgesRun s) := calm_ite (calm_foldl (fun _ _ h => h.edgeArrive) h.setFlying) h
end

end Sys2Proof.Safety
end

section
/-! PROOF. The time base (13_clocks_timebase.md, R294 to R304): the reference, the servo, the alarm and the tick. -/

namespace Sys2Proof.Safety

open Sys2Proof.Machine

variable {s : State}

-- loss and return of the reference (R303, R304) ---------------------------------------------------------------------------------------

/-- Both flags of a lost reference, with the event that reports it still to come. -/
def refFlags (s : State) : State :=
  { setF (setF s (rTB_CTL + 4) 0 1 1) (rTB_CTL + 4) 1 1 1 with pwr := { s.pwr with refLost := true } }

/-- The event of a lost reference. -/
def refLossEv : Ev := { cls := cREFLOSS, sev := 0, home := 0, ukind := 6, uindex := 36 }

theorem refLossRun_eq (hlost : s.pwr.refLost = false) (hoff : s.pwr.off = false) : refLossRun s = raiseEv (refFlags s) 0 refLossEv := by
  unfold refLossRun
  rw [if_neg (by rw [hlost, hoff]; decide)]
  rfl

theorem getF_refFlags (s : State) : getF (refFlags s) (rTB_CTL + 4) 0 1 = 1 ∧ getF (refFlags s) (rTB_CTL + 4) 1 1 = 1 := by
  have hregs (lo : Nat) : getF (refFlags s) (rTB_CTL + 4) lo 1 = getF (setF (setF s (rTB_CTL + 4) 0 1 1) (rTB_CTL + 4) 1 1 1) (rTB_CTL + 4) lo 1 := rfl
  rw [hregs, hregs, getF_setF_otherField _ _ 1 1 1 0 1 (by decide) (.inl (by decide)), getF_setF_same _ _ 0 1 1 (by decide), getF_setF_same _ _ 1 1 1 (by decide)]
  decide

theorem refLoss_facts (s : State) : SameMem s (raiseEv (refFlags s) 0 refLossEv) ∧ (raiseEv (refFlags s) 0 refLossEv).time = s.time ∧
    (raiseEv (refFlags s) 0 refLossEv).pwr.refLost = true ∧ getB (raiseEv (refFlags s) 0 refLossEv) (rTB_CTL + 4) 0 = true ∧
    getB (raiseEv (refFlags s) 0 refLossEv) (rTB_CTL + 4) 1 = true := by
  have hn := noted_raiseEv_unowned (refFlags s) (d := 0) (e := refLossEv) (by decide) rfl (by decide) (by decide)
  obtain ⟨h0, h1⟩ := getF_refFlags s
  have hreg : ¬ LogReg (rTB_CTL + 4) := by
    unfold LogReg
    decide
  have hm (a : Nat) : rdByte (refFlags s) a = rdByte s a := rfl
  have htime : (refFlags s).time = s.time := rfl
  have hlost : (refFlags s).pwr.refLost = true := rfl
  generalize refFlags s = x at hn h0 h1 hm htime hlost ⊢
  have hf (lo : Nat) : getF (raiseEv x 0 refLossEv) (rTB_CTL + 4) lo 1 = getF x (rTB_CTL + 4) lo 1 := hn.getF_eq hreg lo 1
  obtain ⟨⟨_, _, _, _, hsame⟩, -⟩ := hn
  rw [getB, getB, hf, hf, h0, h1, hsame]
  exact ⟨hm, htime, hlost, rfl, rfl⟩

theorem refBackRun_eq (hlost : s.pwr.refLost = true) : refBackRun s = setF { s with pwr := { s.pwr with refLost := false } } (rTB_CTL + 4) 1 1 0 := by
  unfold refBackRun
  rw [if_pos hlost]

-- an event on TB_SYNC_IN (R296 to R298) -------------------------------------------------------------------------------------------------

/-- The multiple of the interval to which a time is nearest. -/
theorem nearest_multiple {x e n i : Int} (hi : 0 < i) (he : e = x - n * (i * 2 ^ 32)) (hlo : -(i * 2 ^ 32) ≤ 2 * e) (hhi : 2 * e < i * 2 ^ 32) :
    (x + i * 4294967296 / 2) / (i * 4294967296) * (i * 4294967296) = n * (i * 2 ^ 32) := by
  have h32 : (2 : Int) ^ 32 = 4294967296 := by norm_num
  rw [h32] at he hlo hhi ⊢
  have hhalf : i * 4294967296 / 2 = i * 2147483648 := by omega
  have hx : x + i * 4294967296 / 2 = (e + i * 2147483648) + n * (i * 4294967296) := by
    rw [hhalf]
    linarith
  rw [hx, Int.add_mul_ediv_right _ _ (by omega), Int.ediv_eq_zero_of_lt (by omega) (by omega), Int.zero_add]

/-- The last errors of a follower, with that of the present event. -/
def errsNow (s : State) (e : Int) : List Int := (e :: s.time.errs).take 4

/-- Whether a follower's last errors show it locked (R298). -/
def lockedBy (errs : List Int) : Nat :=
  if errs.length == 4 && errs.all fun x => decide (-(20 * 4294967296) ≤ x) && decide (x ≤ 20 * 4294967296) then 1 else 0

/-- The servo's part of an event. -/
def servoSet (s : State) (rate slew : Int) : State := { s with time := { s.time with rate := rate, slew := slew } }

def errKept (s : State) (errs : List Int) : State := { s with time := { s.time with errs := errs, eventTick := s.time.ticks } }

/-- What an event whose error lies within half an interval does once its error is shown in the status register at an offset. -/
def servoTail (s : State) (off : Nat) (e i : Int) : State :=
  servoSet (setF (errKept s (errsNow s e)) off 2 1 (lockedBy (errsNow s e))) (clampServo (s.time.rate - 10 * e / (4 * i))) (-(10 * e / i))

/-- The state after an event whose error lies within half an interval. -/
def servoed (s : State) (off : Nat) (e i : Int) : State := servoTail (setF s off 16 16 (unsigned 16 (errNs e))) off e i

theorem syncEvent_near {e : Int} (hlo : -((tbInterval s : Int) * 4294967296) ≤ 2 * e) (hhi : 2 * e < (tbInterval s : Int) * 4294967296) :
    syncEvent s e = servoed s (rTB_CTL + 4) e (tbInterval s) := by
  have hnear : ¬ ((tbInterval s : Int) * 4294967296 < 2 * e ∨ 2 * e < -((tbInterval s : Int) * 4294967296)) := by omega
  have htime (t : State) (v : Nat) : (setF t (rTB_CTL + 4) 2 1 v).time = t.time := setF_time t _ 2 1 v
  unfold syncEvent servoed servoTail servoSet errKept errsNow lockedBy
  generalize setF s (rTB_CTL + 4) 16 16 (unsigned 16 (errNs e)) = x
  dsimp only
  rw [if_neg hnear]
  simp only [htime]

theorem unsigned_lt (w : Nat) (x : Int) : unsigned w x < 2 ^ w := by
  have hpos : (0 : Int) < ((2 ^ w : Nat) : Int) := by exact_mod_cast Nat.two_pow_pos w
  have h0 := Int.emod_nonneg x (ne_of_gt hpos)
  have h1 := Int.emod_lt_of_pos x hpos
  unfold unsigned
  omega

theorem getF_setF_half (s : State) (off : Nat) {v : Nat} (hv : v < 2 ^ 16) : getF (setF s off 16 16 v) off 16 16 = v := by
  rw [getF_setF_same _ _ 16 16 _ (by decide), Nat.mod_eq_of_lt hv]

/-- What the lock flag and the servo leave of the error shown. -/
theorem servoTail_facts (s : State) (off : Nat) (e i : Int) : Frame [off] s (servoTail s off e i) ∧ getF (servoTail s off e i) off 16 16 = getF s off 16 16 ∧
    (servoTail s off e i).time =
      { s.time with errs := errsNow s e, eventTick := s.time.ticks, rate := clampServo (s.time.rate - 10 * e / (4 * i)), slew := -(10 * e / i) } := by
  unfold servoTail
  generalize errsNow s e = errs
  generalize lockedBy errs = v
  generalize clampServo (s.time.rate - 10 * e / (4 * i)) = rate
  have h0 : Frame [off] s (errKept s errs) := ⟨fun _ => rfl, fun _ _ => rfl, rfl, rfl⟩
  refine ⟨(h0.trans (frame_setF _ (List.mem_singleton_self off) 2 1 v)).trans ⟨fun _ => rfl, fun _ _ => rfl, rfl, rfl⟩, ?_, rfl⟩
  exact getF_setF_otherField (errKept s errs) off 2 1 v 16 16 (by decide) (.inr (by decide))

theorem servoed_facts (s : State) (off : Nat) (e i : Int) : Frame [off] s (servoed s off e i) ∧ (servoed s off e i).time.tb = s.time.tb ∧
    getF (servoed s off e i) off 16 16 = unsigned 16 (errNs e) ∧ (servoed s off e i).time.rate = clampServo (s.time.rate - 10 * e / (4 * i)) ∧
    (servoed s off e i).time.slew = -(10 * e / i) ∧ (servoed s off e i).time.eventTick = s.time.ticks ∧ (servoed s off e i).time.syncOut = s.time.syncOut := by
  have herr := getF_setF_half s off (unsigned_lt 16 (errNs e))
  have hf : Frame [off] s (setF s off 16 16 (unsigned 16 (errNs e))) := frame_setF s (List.mem_singleton_self off) 16 16 _
  have htime : (setF s off 16 16 (unsigned 16 (errNs e))).time = s.time := setF_time s off 16 16 _
  unfold servoed
  generalize setF s off 16 16 (unsigned 16 (errNs e)) = x at hf herr htime ⊢
  obtain ⟨hf', herr', htime'⟩ := servoTail_facts x off e i
  rw [htime', htime]
  exact ⟨hf.trans hf', rfl, herr'.trans herr, rfl, rfl, rfl, rfl⟩

/-- The pulse that an edge forwards (R380). -/
def pulseOut (s : State) (on : Bool) : State := if on then { s with time := { s.time with syncOut := true } } else s

theorem syncInEdge_eq {e n : Int} (hsrc : tbSrc s = 1) (hvaux : s.pwr.vaux = true) (he : e = (s.time.tb : Int) - (tbDelay s : Int) * 2 ^ 32 - n * ((tbInterval s : Int) * 2 ^ 32))
    (hlo : -((tbInterval s : Int) * 2 ^ 32) ≤ 2 * e) (hhi : 2 * e < (tbInterval s : Int) * 2 ^ 32) : syncInEdge s = pulseOut (servoed s (rTB_CTL + 4) e (tbInterval s)) (tbOut s) := by
  have hi : (0 : Int) < tbInterval s := by
    have : 0 < tbInterval s := Nat.mul_pos (Nat.two_pow_pos _) (by decide)
    exact_mod_cast this
  have hnear := nearest_multiple hi he hlo hhi
  have h32 : (2 : Int) ^ 32 = 4294967296 := by norm_num
  rw [h32] at he hlo hhi hnear
  have herr : (s.time.tb : Int) - (tbDelay s : Int) * 4294967296 - ((s.time.tb : Int) - (tbDelay s : Int) * 4294967296 + (tbInterval s : Int) * 4294967296 / 2) /
      ((tbInterval s : Int) * 4294967296) * ((tbInterval s : Int) * 4294967296) = e := by
    rw [hnear]
    exact he.symm
  unfold syncInEdge
  rw [if_neg (by rw [hsrc, hvaux]; decide)]
  dsimp only
  have hsync : syncEvent s e = servoed s (rTB_CTL + 4) e (tbInterval s) := syncEvent_near hlo hhi
  rw [herr, hsync]
  rw [pulseOut]

theorem pulseOut_facts (s : State) (on : Bool) : Frame [] s (pulseOut s on) ∧ (pulseOut s on).time.tb = s.time.tb ∧ (pulseOut s on).time.rate = s.time.rate ∧
    (pulseOut s on).time.slew = s.time.slew ∧ (pulseOut s on).time.eventTick = s.time.eventTick ∧ (pulseOut s on).time.syncOut = (on || s.time.syncOut) := by
  cases on
  · exact ⟨Frame.refl [] s, rfl, rfl, rfl, rfl, rfl⟩
  · exact ⟨⟨fun _ => rfl, fun _ _ => rfl, rfl, rfl⟩, rfl, rfl, rfl, rfl, rfl⟩

-- the tick (R294, R298; entry 2) ----------------------------------------------------------------------------------------------------------

/-- The state in which the regions' cycles of a step begin. -/
def tickBegun (s : State) : State := if s.time.sub = 0 then timeTick s else s

/-- The regions' cycles of a step. -/
def tickRun (s : State) : State := tapFlush (edgesRun (serviceStep ((List.range 32).foldl clusterStep s)))

theorem calm_tickRun (s : State) : Calm True s (tickRun s) :=
  (calm_foldl (fun _ _ h => h.clusterStep) (Calm.refl True s)).serviceStep.edgesRun.tapFlush

theorem tick_eq (hvaux : s.pwr.vaux = true) :
    tick s = { tickRun (tickBegun s) with time := { (tickRun (tickBegun s)).time with sub := ((tickRun (tickBegun s)).time.sub + 1) % subSteps } } := by
  unfold tick tickRun tickBegun
  rw [if_neg (by rw [hvaux]; decide)]

theorem step_idle (h : s.pending = []) : step s = .next (tick s) := by
  unfold step
  rw [h]

/-- A step on an empty queue moves the time base as its first part does, and counts itself. -/
theorem tick_time (hvaux : s.pwr.vaux = true) : (tick s).time.tb = (tickBegun s).time.tb ∧ (tick s).time.rate = (tickBegun s).time.rate ∧ (tick s).time.slew = (tickBegun s).time.slew ∧
    (tick s).time.ticks = (tickBegun s).time.ticks ∧ (tick s).time.sub = ((tickBegun s).time.sub + 1) % 34 ∧ (tick s).time.syncOut = (tickBegun s).time.syncOut := by
  have hview := (calm_tickRun (tickBegun s)).timing trivial
  rw [tick_eq hvaux]
  generalize tickRun (tickBegun s) = x at hview
  simp only [timeView, Prod.mk.injEq] at hview
  obtain ⟨htb, hrate, hslew, hticks, hsub, hout⟩ := hview
  exact ⟨htb, hrate, hslew, hticks, by rw [← hsub, subSteps], hout⟩

/-- Settles O35. -/
theorem theTimeBaseFollows : Obligations.TheTimeBaseFollows := by
  unfold Obligations.TheTimeBaseFollows
  intro s
  refine ⟨fun hlost hoff => ⟨_, congrArg Host.Outcome.next (refLossRun_eq hlost hoff), refLoss_facts s⟩, fun hlost => ?_, fun e n i hi hsrc hvaux he hlo hhi => ?_, fun hsrc hlate => ?_,
    fun hen hdue => ?_, fun hsrc hout hnow => ?_, fun hpend hvaux => ?_, fun hpend hvaux => ?_⟩
  · refine ⟨_, congrArg Host.Outcome.next (refBackRun_eq hlost), Frame.trans (t := { s with pwr := { s.pwr with refLost := false } }) ⟨fun _ => rfl, fun _ _ => rfl, rfl, rfl⟩
      (frame_setF _ (by simp) 1 1 0), rfl, rfl, getB_setF_same _ _ (by decide) 0, ?_⟩
    unfold getB
    rw [getF_setF_otherField _ _ 1 1 0 0 1 (by decide) (.inl (by decide))]
    rfl
  · subst hi
    obtain ⟨hf, htb, herr, hrate, hslew, hevent, hsync⟩ := servoed_facts s (rTB_CTL + 4) e (tbInterval s)
    obtain ⟨hf', htb', hrate', hslew', hevent', hsync'⟩ := pulseOut_facts (servoed s (rTB_CTL + 4) e (tbInterval s)) (tbOut s)
    refine ⟨_, congrArg Host.Outcome.next (syncInEdge_eq hsrc hvaux he hlo hhi), hf.trans (hf'.mono (List.nil_subset _)), htb'.trans htb, (hf'.getF_eq (by simp) 16 16).trans herr,
      hrate'.trans hrate, hslew'.trans hslew, hevent'.trans hevent, hsync'.trans (by rw [hsync])⟩
  · have hrun : syncLostRun s = { setF s (rTB_CTL + 4) 3 1 1 with time := { s.time with slew := 0 } } := by
      unfold syncLostRun
      rw [if_pos ⟨hsrc, hlate⟩]
      rfl
    exact ⟨_, congrArg Host.Outcome.next hrun, (frame_setF s (by simp) 3 1 1).trans ⟨fun _ => rfl, fun _ _ => rfl, rfl, rfl⟩, getB_setF_same s _ (by decide) 1, rfl, rfl, rfl⟩
  · have hrun : alarmRun s = hostIrq (setF (setF s (rTB_CTL + 4) 5 1 1) rTB_CTL 7 1 0) 6 := by
      unfold alarmRun
      rw [if_pos ⟨hen, hdue⟩]
    have hf : Frame [rTB_CTL, rTB_CTL + 4] s (setF (setF s (rTB_CTL + 4) 5 1 1) rTB_CTL 7 1 0) := (frame_setF s (by simp) 5 1 1).trans (frame_setF _ (by simp) 7 1 0)
    have hflag : getB (setF (setF s (rTB_CTL + 4) 5 1 1) rTB_CTL 7 1 0) (rTB_CTL + 4) 5 = true := by
      unfold getB
      rw [getF_setF_otherReg _ 7 1 0 5 1 (by decide), getF_setF_same _ _ 5 1 1 (by decide)]
      rfl
    have hclear : getB (setF (setF s (rTB_CTL + 4) 5 1 1) rTB_CTL 7 1 0) rTB_CTL 7 = false := getB_setF_same _ _ (by decide) 0
    refine ⟨_, congrArg Host.Outcome.next hrun, ?_⟩
    generalize setF (setF s (rTB_CTL + 4) 5 1 1) rTB_CTL 7 1 0 = x at hf hflag hclear
    have hirq := frame_hostIrq x 6
    refine ⟨(hf.mono (by simp)).trans (hirq.mono (by simp [irqRegs])), ?_, ?_, ?_⟩
    · rw [getB, hirq.getF_eq (by decide)]
      exact hflag
    · rw [getB, hirq.getF_eq (by decide)]
      exact hclear
    · rw [getR64_hostIrq x (by decide), bits_setBits_same]
      rfl
  · have hrun : syncOutRun s = { s with time := { s.time with syncOut := true } } := by
      unfold syncOutRun
      rw [if_pos ⟨hsrc, hout, hnow⟩]
    exact ⟨_, congrArg Host.Outcome.next hrun, ⟨fun _ => rfl, fun _ _ => rfl, rfl, rfl⟩, rfl⟩
  · obtain ⟨htb, hrate, hslew, hticks, hsub, hout⟩ := tick_time hvaux
    refine ⟨_, step_idle hpend, ?_, ?_, ?_, fun h0 => ?_, fun h0 => ?_⟩
    · rw [hsub]
      unfold tickBegun
      split <;> rfl
    · rw [hrate]
      unfold tickBegun
      split <;> rfl
    · rw [hslew]
      unfold tickBegun
      split <;> rfl
    · rw [htb, hticks, hout, tickBegun, if_pos h0, Int.add_assoc]
      exact ⟨rfl, rfl, rfl⟩
    · rw [htb, hticks, hout, tickBegun, if_neg h0]
      exact ⟨rfl, rfl, rfl⟩
  · rw [step_idle hpend]
    unfold tick
    rw [if_pos hvaux]

end Sys2Proof.Safety
end

section
/-! SUPPORT. A register write leaves no record waiting for the host where none waited (R361, R371): only a completion adds one. -/

namespace Sys2Proof.Safety

open Sys2Proof.Machine

variable {b s t : State}

theorem calm_of_recs (h : t.host.recs = []) : Calm False b t := ⟨fun _ => h, False.elim, False.elim, False.elim, False.elim⟩

/-- A state with the same records. -/
theorem Calm.of_recs (h : Calm False b s) (hr : t.host.recs = s.host.recs) : Calm False b t := ⟨fun e => hr.trans (h.recs e), False.elim, False.elim, False.elim, False.elim⟩

section
variable (h : Calm False b s)
include h

theorem Calm.putR {off : Nat} {v : BitVec 32} : Calm False b (Machine.setR s off v) := h.setR False.elim
theorem Calm.putF {off lo w v : Nat} : Calm False b (Machine.setF s off lo w v) := h.setF False.elim
theorem Calm.putSat {off lo w v : Nat} : Calm False b (Machine.satF s off lo w v) := h.satF False.elim
theorem Calm.put64 {off v : Nat} : Calm False b (Machine.setR64 s off v) := h.setR64 False.elim False.elim
theorem Calm.plainWrite {debug : Bool} {off : Nat} {v : BitVec 32} : Calm False b (plainWrite s debug off v) := h.putR

-- counters, messages and task slots ------------------------------------------------------------------------------------------------------

theorem Calm.ctrAdvance {c n : Nat} : Calm False b (ctrAdvance s c n) := h.putR.putF.putF
theorem Calm.ctrStart {c n : Nat} : Calm False b (ctrStart s c n) := calm_foldl (fun _ _ h => h.putF) h
theorem Calm.setCredOut {c o n : Nat} : Calm False b (setCredOut s c o n) := h.modCore
theorem Calm.setReclaim {c o n : Nat} : Calm False b (setReclaim s c o n) := h.modCore
theorem Calm.setStrayed {c o n : Nat} : Calm False b (setStrayed s c o n) := h.modCore
theorem Calm.credBack {c o : Nat} : Calm False b (credBack s c o).1 := by
  unfold Machine.credBack
  exact calm_ite_fst h.setStrayed.putSat (calm_ite_fst (h.setReclaim.ledReturn1 (by decide)) (calm_ite_fst (h.putF.setCredOut.ledReturn1 (by decide)) h.putSat))
theorem Calm.creditToSender {m : RingMsg} : Calm False b (creditToSender s m) := calm_ite (h.of_recs rfl) h.fabRespond
theorem Calm.dropRsv {c e : Nat} : Calm False b (dropRsv s c e) := calm_ite (h.putF.ledReturn1 (by decide)) h
theorem Calm.holdMsg {c o : Nat} {ws : List (BitVec 64)} : Calm False b (holdMsg s c o ws) := calm_ite h.putSat (calm_foldl (fun _ _ h => h.put64) h).putF
theorem Calm.msgReturned {c o n cls : Nat} {isFull rres : Bool} {ws : List (BitVec 64)} (hcls : cls < 256) : Calm False b (msgReturned s c o n cls isFull rres ws) := by
  have hcred : Calm False b (Machine.credBack s c o).1 := h.credBack
  unfold Machine.msgReturned
  generalize Machine.credBack s c o = r at hcred ⊢
  obtain ⟨s1, mine⟩ := r
  dsimp only at hcred ⊢
  have hheld : Calm False b (Machine.setF (Machine.holdMsg (if rres then Machine.dropRsv s1 c (hdrRply (ws.headD 0)) else s1) c o ws) (rOCH_STAT c o) 0 1 1) :=
    (calm_ite hcred.dropRsv hcred).holdMsg.putF
  exact calm_ite ((calm_ite hheld.putF hheld).raiseCore hcls) (calm_ite hheld.putF hheld)
theorem Calm.enterRing {c e : Nat} {m : RingMsg} : Calm False b (enterRing s c e m) := by
  have hring {x : State} (hx : Calm False b x) : Calm False b (if ichState x c e = 2 then Machine.satF x (rICH_CNT c e) 0 16 1 else x) := calm_ite hx.putSat hx
  unfold Machine.enterRing
  dsimp only
  exact calm_ite (hring (calm_ite h.putF (h.ledIssue (by decide))).setRing).grantMsg (hring (calm_ite h.putF (h.ledIssue (by decide))).setRing)
theorem Calm.msgFailed {c o n st : Nat} {rres : Bool} {ws : List (BitVec 64)} : Calm False b (msgFailed s c o n st rres ws) := by
  have hcred : Calm False b (Machine.credBack s c o).1 := h.credBack
  unfold Machine.msgFailed
  generalize Machine.credBack s c o = r at hcred ⊢
  obtain ⟨s1, mine⟩ := r
  dsimp only at hcred ⊢
  have hring {m : RingMsg} : Calm False b (if rres then Machine.enterRing (Machine.setF (Machine.holdMsg s1 c o ws) (rOCH_STAT c o) 0 1 1) c (hdrRply (ws.headD 0)) m
      else Machine.setF (Machine.holdMsg s1 c o ws) (rOCH_STAT c o) 0 1 1) := calm_ite hcred.holdMsg.putF.enterRing hcred.holdMsg.putF
  exact calm_ite (hring.raiseCore (statusClass_lt st)).stopFloeOf hring
theorem Calm.parClear {c arr i : Nat} : Calm False b (parClear s c arr i) := calm_ite h.modCore h
theorem Calm.popped {m : RingMsg} : Calm False b (popped s m) := calm_ite (h.ledReturn1 (by decide)).creditToSender (h.ledReturn1 (by decide))
theorem Calm.setIchState {c e v : Nat} : Calm False b (setIchState s c e v) := h.putF
theorem Calm.closeEnd {c e : Nat} : Calm False b (closeEnd s c e) := calm_ite h.setIchState.nullReply h
theorem Calm.flushOne {c e : Nat} {m : RingMsg} : Calm False b (flushOne s c e m) := calm_ite h.popped.putSat.oweReply h.popped.putSat
theorem Calm.reopenEnd {c e : Nat} {flush : Bool} : Calm False b (reopenEnd s c e flush) := by
  have hflushed : Calm False b ((ringOf s c e).foldl (fun s m => Machine.flushOne s c e m) (Machine.setRing s c e [])) := calm_foldl (fun _ _ h => h.flushOne) h.setRing
  exact calm_ite h (calm_ite (calm_foldl (fun _ _ h => calm_ite h.modSlot h) hflushed).setIchState h.setIchState.grantMsg)
theorem Calm.ichCtl {c e v : Nat} : Calm False b (ichCtl s c e v) := calm_ite h (calm_ite h.closeEnd (calm_ite h.reopenEnd h))
theorem Calm.setVreg {c r : Nat} {v : BitVec 8192} : Calm False b (setVreg s c r v) := h.parClear.modCore
theorem Calm.debugWrite {c o v : Nat} : Calm False b (debugWrite s c o v) :=
  calm_ite (calm_ite h h.setVreg) (calm_ite h (calm_ite h.modSlot h.modSlot))
theorem Calm.rollSlot {c n : Nat} : Calm False b (rollSlot s c n) := (calm_foldl (fun _ _ h => h.putF) h).putF.putR
theorem Calm.rollAll {c : Nat} : Calm False b (rollAll s c) := calm_foldl (fun _ _ h => h.rollSlot) h
theorem Calm.sclCtl {c : Nat} {v : BitVec 32} : Calm False b (sclCtl s c v) := calm_ite h.plainWrite (calm_ite h.plainWrite.rollAll h.plainWrite.putF)
theorem Calm.monClose1 {c l : Nat} : Calm False b (monClose1 s c l) := by
  unfold Machine.monClose1
  dsimp only
  split
  · exact calm_ite (calm_ite h.putR.putF h.putR).putF (calm_ite h.putR.putF h.putR)
  · exact h.putR.putF
theorem Calm.monCloseAll {c : Nat} : Calm False b (monCloseAll s c) := calm_foldl (fun _ _ h => calm_ite h.monClose1.putF h) h
theorem Calm.monCtl {c : Nat} {v : BitVec 32} : Calm False b (monCtl s c v) := calm_ite h.plainWrite (calm_ite h.plainWrite.monCloseAll h.plainWrite.putF)
theorem Calm.ctrCfg {c n : Nat} {v : BitVec 32} : Calm False b (ctrCfg s c n v) := calm_ite h.plainWrite.ctrAdvance h.plainWrite
theorem Calm.coreCtl {c v : Nat} : Calm False b (coreCtl s c v) := calm_ite (calm_ite h.putF h) (calm_ite (calm_ite h.putF h).putF (calm_ite h.putF h).putF)
theorem Calm.clearStopped {c n : Nat} : Calm False b (clearStopped s c n) := calm_foldl (fun _ _ h => calm_ite h.setDesc h) h
theorem Calm.slotClear {c n : Nat} : Calm False b (slotClear s c n) :=
  calm_ite (calm_ite (calm_foldl (fun _ _ h => h.ctrAdvance) h).nullRepliesOf h).dropAllResv.clearStopped.modSlot.setSlotState h
theorem Calm.slotStart {c n : Nat} : Calm False b (slotStart s c n) := calm_ite h.setSlotState.putF.putF.modSlot.ctrStart h
theorem Calm.zeroCyc {cl f : Nat} : Calm False b (zeroCyc s cl f) := h.put64.setFloe
theorem Calm.taskCtl {c n v : Nat} : Calm False b (taskCtl s c n v) := by
  have hclear : Calm False b (if bits v 1 1 = 1 then Machine.slotClear s c n else s) := calm_ite h.slotClear h
  unfold Machine.taskCtl
  dsimp only
  refine calm_ite ?_ hclear
  split
  · exact calm_ite hclear.slotStart.zeroCyc hclear
  · exact hclear
theorem Calm.coreWrite {debug : Bool} {c off : Nat} {v : BitVec 32} : Calm False b (coreWrite s debug c off v) :=
  calm_ite h.coreCtl <| calm_ite h.taskCtl <| calm_ite h.plainWrite.grantAll <| calm_ite h.ctrCfg <| calm_ite h.ichCtl <| calm_ite (calm_ite h.debugWrite h) <|
    calm_ite h.plainWrite.put64 <| calm_ite h.sclCtl <| calm_ite h.monCtl h.plainWrite

-- rails, regions and clusters ----------------------------------------------------------------------------------------------------------------

theorem Calm.pmbSend {d : Nat} {f : Nat → PmbOp} : Calm False b (pmbSend s d f) := calm_ite h (h.of_recs rfl)
theorem Calm.setRail {d : Nat} {z : RailSt} : Calm False b (setRail s d z) := h.of_recs rfl
theorem Calm.railTo {d : Nat} {v : BitVec 10} : Calm False b (railTo s d v) := h.setRail.pmbSend
theorem Calm.setPhase {d p : Nat} : Calm False b (setPhase s d p) := h.put64
theorem Calm.startN {rs : List Nat} : Calm False b (startN s rs) := calm_foldl (fun _ _ h => h.setRegion) h
theorem Calm.dieNext {d : Nat} : Calm False b (dieNext s d) :=
  calm_ite h <| calm_ite h.startN.setPhase <| calm_ite h.setPhase <| calm_ite h.railTo.setPhase <| calm_ite h.startN.setPhase h.setPhase
theorem Calm.svcNext : Calm False b (svcNext s) := calm_ite h.startN h
theorem Calm.dvfsNext : Calm False b (dvfsNext s) := (calm_foldl (fun _ _ h => h.dieNext) h).svcNext
theorem Calm.setEdgeXlat {d n z : Nat} : Calm False b (setEdgeXlat s d n z) := h.of_recs rfl
theorem Calm.xalignSet {r : Nat} : Calm False b (xalignSet s r) := calm_foldl (fun _ _ h => h.putF) (calm_ite h.putF h)
theorem Calm.setXlat {r z : Nat} : Calm False b (setXlat s r z) := h.setRegion.xalignSet
theorem Calm.unalign {r : Nat} : Calm False b (unalign s r) := calm_ite h.setXlat (calm_foldl (fun _ _ h => h.setXlat) h).setEdgeXlat.setEdgeXlat.xalignSet
theorem Calm.clkXctl {cl v : Nat} : Calm False b (clkXctl s cl v) := by
  have herr : Calm False b (if bits v 1 1 = 1 then Machine.setF s (rCLK_XCTL cl) 1 1 0 else s) := calm_ite h.putF h
  exact calm_ite herr.putF (calm_ite herr (calm_ite (calm_ite herr.putF.unalign.setRegion herr.putF.unalign) (calm_ite herr.putF.unalign.dvfsNext herr.putF.unalign)))
theorem Calm.firnRefresh {k v : Nat} : Calm False b (firnRefresh s k v) := calm_ite h.putF.setStack h.putF
theorem Calm.floeClearRun {cl f : Nat} : Calm False b (floeClearRun s cl f) := calm_ite (calm_foldl (fun _ _ h => h.slotClear) h) h
theorem Calm.floeHoldRun {cl f : Nat} {up : Bool} : Calm False b (floeHoldRun s cl f up) := h.putF
theorem Calm.floeStartRun {cl f : Nat} : Calm False b (floeStartRun s cl f) :=
  calm_ite h <| calm_ite h.putF <| calm_ite h (calm_foldl (fun _ _ h => h.slotStart) h).zeroCyc
theorem Calm.floeCtl {cl f v : Nat} {debug : Bool} : Calm False b (floeCtl s cl f v debug) := by
  have hhold : Calm False b (if debug then Machine.floeHoldRun s cl f (bits v 2 1 == 1) else s) := calm_ite h.floeHoldRun h
  exact calm_ite (calm_ite hhold.floeClearRun hhold).floeStartRun (calm_ite hhold.floeClearRun hhold)
theorem Calm.floeDef {cl f v : Nat} : Calm False b (floeDef s cl f v) := calm_ite h.putF h.putR
theorem Calm.clusterWrite {debug : Bool} {c off : Nat} {v : BitVec 32} : Calm False b (clusterWrite s debug c off v) :=
  calm_ite h.clkXctl <| calm_ite h.floeDef <| calm_ite h.floeCtl <| calm_ite h.firnRefresh h.plainWrite

-- power ------------------------------------------------------------------------------------------------------------------------------------

theorem Calm.setPortState {p st : Nat} : Calm False b (setPortState s p st) := calm_foldl (fun _ _ h => h.putF) h.putF.hostIrq
theorem Calm.portSleep {p : Nat} : Calm False b (portSleep s p) := calm_ite (calm_ite (h.setPort.ledReturn (by decide)).setPortState h.setPortState) h
theorem Calm.pwrTrans {up : Bool} : Calm False b (pwrTrans s up) := h.putF
theorem Calm.withPwr {p : PowerSt} : Calm False b { s with pwr := p } := h.of_recs rfl
theorem Calm.withSec {z : SecSt} : Calm False b { s with sec := z } := h.of_recs rfl
theorem Calm.withSess {z : SessSt} : Calm False b { s with sess := z } := h.of_recs rfl
theorem Calm.withMirror {m : MirrorSt} : Calm False b { s with mirror := m } := h.of_recs rfl
theorem Calm.enterBegin {target : Nat} : Calm False b (enterBegin s target) := calm_foldl (fun _ _ h => h.portSleep) h.withPwr.pwrTrans
theorem Calm.powerDone : Calm False b (powerDone s) := calm_foldl (fun _ _ h => h.putF) h.hostIrq
theorem Calm.setPwrState {v : Nat} : Calm False b (setPwrState s v) := h.putF
theorem Calm.clockStarts {cl : Nat} : Calm False b (clockStarts s cl) := h.setCluster.setRegion
theorem Calm.ungate {cl : Nat} : Calm False b (ungate s cl) := calm_ite h.setCluster.clockStarts h
theorem Calm.idleWake {w : WakeSrc} : Calm False b (idleWake s w) := by
  have hidle : Calm False b (Machine.setPwrState (Machine.setF ((List.range 32).foldl (fun s cl => Machine.ungate s cl)
      ((List.range 4).foldl (fun s d => Machine.setRail s d { railOf s d with lowPow := false }) s)) rPWR_STATE 8 4 (wakeCode w)) 0) :=
    (calm_foldl (fun _ _ h => h.ungate) (calm_foldl (fun _ _ h => h.setRail) h)).putF.setPwrState
  exact (calm_ite hidle hidle.withPwr).powerDone
theorem Calm.pwrResult {r : Nat} : Calm False b (pwrResult s r) := h.putF
theorem Calm.railsUp : Calm False b (railsUp s) := calm_foldl (fun _ _ h => h.setRail.railTo.pmbSend) h.withPwr
theorem Calm.startup : Calm False b (startup s) := calm_ite h ((h.railsUp.pwrTrans (up := true)).of_recs rfl)
theorem Calm.wakeBegin {w : WakeSrc} : Calm False b (wakeBegin s w) := calm_ite h.putF.withPwr.startup h.putF.withPwr.railsUp.pwrTrans
theorem Calm.pwrRequest {src : Src} {target : Nat} : Calm False b (pwrRequest s src target) := by
  unfold Machine.pwrRequest
  refine calm_ite h.pwrResult <| calm_ite h.pwrResult <| calm_ite h.pwrResult <| calm_ite ?_ <| calm_ite h.pwrResult <| calm_ite h.pwrResult <| calm_ite h.pwrResult.withPwr.pwrTrans <|
    calm_ite h.pwrResult.enterBegin <| calm_ite h.pwrResult.withPwr.wakeBegin <| calm_ite h.pwrResult.setPwrState.powerDone h.pwrResult.idleWake
  split
  · exact h.pwrResult
  · exact calm_ite h.withPwr.pwrResult h.pwrResult
  · exact h.pwrResult
theorem Calm.pwrReqWrite {src : Src} {v : BitVec 32} : Calm False b (pwrReqWrite s src v) := by
  have hplain {p : Prop} [Decidable p] : Calm False b (if p then Machine.plainWrite s false rPWR_REQ v else s) := calm_ite h.plainWrite h
  exact calm_ite hplain.pwrRequest hplain
theorem Calm.dvfsApply : Calm False b (dvfsApply s) := h.withPwr.dvfsNext
theorem Calm.dvfsWrite {v : Nat} : Calm False b (dvfsWrite s v) := by
  have hset : Calm False b ((List.range 32).foldl (fun s r => Machine.setRegion s r { regionOf s r with stepped := none }) (Machine.setR64 s rDVFS_TARGET (v &&& 0x3F_3F3F_3F3F))) :=
    calm_foldl (fun _ _ h => h.setRegion) h.put64
  exact calm_ite h.put64 (calm_ite hset.dvfsApply hset)
theorem Calm.lpEval {d : Nat} : Calm False b (lpEval s d) := calm_ite h.setRail h
theorem Calm.padRun {v : Nat} : Calm False b (padRun s v) := calm_ite h.withPwr.putF h

-- resets -------------------------------------------------------------------------------------------------------------------------------------

theorem Calm.ctrReset {c n : Nat} : Calm False b (ctrReset s c n) := h.ctrAdvance.putR.putR
theorem Calm.dropRegs {lo hi : Nat} : Calm False b (dropRegs s lo hi) := h.of_recs rfl
theorem Calm.ichReset {c e : Nat} : Calm False b (ichReset s c e) := h.nullReply.setIchState.putF
theorem Calm.ochReset {c o : Nat} : Calm False b (ochReset s c o) := calm_ite h.putF h.putF.setCredOut.setReclaim
theorem Calm.coreResetStart {c : Nat} : Calm False b (coreResetStart s c) := by
  have hunits : Calm False b ((List.range 48).foldl (fun s n => Machine.ctrReset s c n) ((List.range 64).foldl (fun s o => Machine.ochReset s c o)
      ((List.range 16).foldl (fun s e => Machine.ichReset s c e) s))) :=
    calm_foldl (fun _ _ h => h.ctrReset) (calm_foldl (fun _ _ h => h.ochReset) (calm_foldl (fun _ _ h => h.ichReset) h))
  have hfloes {x : State} (hx : Calm False b x) : Calm False b ((List.range 32).foldl (fun s f =>
      if getB s (rFLOE_DEF (c / 8) f) 16 && getB s (rFLOE_DEF (c / 8) f) (c % 8) then Machine.setFloeReason (Machine.setFloe s (c / 8) f {}) (c / 8) f 0 else s) x) :=
    calm_foldl (fun _ _ h => calm_ite h.setFloe.setFloeReason h) hx
  have hall := hfloes (hunits.dropRegs (lo := coreBase c + 0x80) (hi := coreBase c + 0x300) |>.dropRegs (lo := coreBase c + 0x5810) (hi := coreBase c + 0x5824)
    |>.dropRegs (lo := coreBase c + 0x6000) (hi := coreBase c + 0x8000) |>.dropRegs (lo := coreBase c + 0x8000) (hi := coreBase c + 0x1_0000) |>.modCore (c := c) (f := coreKeep))
  unfold Machine.coreResetStart
  dsimp only
  generalize List.foldl _ _ (List.range 32) = y at hall ⊢
  exact calm_ite hall (hall.of_recs rfl)
theorem Calm.clusterResetStart {cl : Nat} : Calm False b (clusterResetStart s cl) := by
  have hcores : Calm False b (Machine.dropRegs ((List.range 8).foldl (fun s r => Machine.coreResetStart s (8 * cl + r)) s) (clusterBase cl) (clusterBase cl + 0x8000)) :=
    (calm_foldl (fun _ _ h => h.coreResetStart) h).dropRegs
  unfold Machine.clusterResetStart
  dsimp only
  generalize Machine.dropRegs _ _ _ = x at hcores ⊢
  have hfloes : Calm False b { x with floes := x.floes.filter fun p => p.1 / 32 ≠ cl } := hcores.of_recs rfl
  exact calm_ite (calm_ite hfloes.unalign.dvfsNext hfloes.unalign) hfloes
omit h in
theorem calm_coldReset : Calm False b (coldReset s) := (calm_of_recs rfl).startup
theorem Calm.ccBoot {warm : Bool} : Calm False b (ccBoot s warm) := h.putF.setCc.putF.withSec
theorem Calm.ccHold {k : Nat} : Calm False b (ccHold s k) := h.putF.setCc
theorem Calm.netReset {d : Nat} : Calm False b (netReset s d) := h.of_recs rfl
omit h in
theorem calm_abortAll : Calm False b (abortAll s) := calm_of_recs rfl
theorem Calm.endDebug : Calm False b (endDebug s) := calm_foldl (fun _ _ h => h.putF) (calm_foldl (fun _ _ h => calm_foldl (fun _ _ h => calm_ite h.floeHoldRun h) h) h)
theorem Calm.sessEnd : Calm False b (sessEnd s) := calm_ite (calm_ite h.endDebug h).putF.putF.withSess h
omit h in
theorem calm_sessLost : Calm False b (sessLost s) := calm_ite calm_abortAll.hostIrq calm_abortAll
theorem Calm.dieResetStart {d : Nat} : Calm False b (dieResetStart s d) := by
  have hcc : Calm False b ((List.range 4).foldl (fun s k => Machine.ccHold s (4 * d + k)) ((List.range 8).foldl (fun s k =>
      if clusterPresent s (8 * d + k) then Machine.clusterResetStart s (8 * d + k) else s) s)) :=
    calm_foldl (fun _ _ h => h.ccHold) (calm_foldl (fun _ _ h => calm_ite h.clusterResetStart h) h)
  exact calm_ite calm_sessLost.ccBoot hcc.netReset.putF.setAlert
theorem Calm.rstResult {r : Nat} : Calm False b (rstResult s r) := h.putF
theorem Calm.rstReq {kind index : Nat} : Calm False b (rstReq s kind index) := by
  have hjob : Calm False b { s with rstJob := some (kind, index) } := h.of_recs rfl
  exact calm_ite h.rstResult <| calm_ite calm_coldReset <| calm_ite h.rstResult <| calm_ite h.rstResult <| calm_ite h.rstResult <| calm_ite h.rstResult <|
    calm_ite hjob.rstResult.putF.coreResetStart <| calm_ite hjob.rstResult.putF.clusterResetStart <| calm_ite hjob.rstResult.putF.dieResetStart hjob.rstResult.putF

-- the time base, power registers and the host block ----------------------------------------------------------------------------------------------

theorem Calm.tbCtlLow {v : Nat} : Calm False b (tbCtlLow s v) := by
  have hput (w : BitVec 32) : Calm False b (Machine.setR s rTB_CTL w) := h.putR
  unfold Machine.tbCtlLow
  dsimp only
  generalize BitVec.ofNat 32 _ = w
  exact calm_ite ((hput w).of_recs rfl) (hput w)
theorem Calm.tbStep {v : Int} : Calm False b (tbStep s v) := calm_ite (h.of_recs rfl) h.putF
theorem Calm.pwrWrite {src : Src} {off : Nat} {v : BitVec 32} : Calm False b (pwrWrite s src off v) :=
  calm_ite h.pwrReqWrite <| calm_ite h.padRun <| calm_ite h.dvfsWrite <| calm_ite (calm_foldl (fun _ _ h => h.lpEval) h.plainWrite) <| calm_ite h.plainWrite <|
    calm_ite (calm_ite h.rstReq h) <| calm_ite h.plainWrite <| calm_ite h.tbCtlLow <| calm_ite h.tbStep h.plainWrite
theorem Calm.cfgErr : Calm False b (cfgErr s) := h.putF
theorem Calm.ringSize {n : Nat} : Calm False b (ringSize s n) := by
  have herr : Calm False b (if bits n 9 1 = 1 then Machine.setF s rHRING_SIZE 9 1 0 else s) := calm_ite h.putF h
  exact calm_ite (calm_ite herr herr.cfgErr).putF (calm_ite herr.putF.putF.putF.putR herr.putF.putF)
theorem Calm.irqEn {off : Nat} {v : BitVec 32} : Calm False b (irqEn s off v) := calm_foldl (fun _ _ h => calm_ite h.msix h) h.putR
theorem Calm.hostWrite {off : Nat} {v : BitVec 32} : Calm False b (hostWrite s off v) :=
  calm_ite (calm_ite h.cfgErr h.putR) <| calm_ite h.ringSize <| calm_ite h.putF <| calm_ite h.irqEn h.plainWrite

-- the session, the lifecycle and images ------------------------------------------------------------------------------------------------------------

theorem Calm.attestReq : Calm False b (attestReq s) := calm_ite h.putF h.withSec.putF
theorem Calm.lockRun : Calm False b (lockRun s) := calm_ite (calm_ite h.sessEnd h).withSec h
theorem Calm.provisionRun : Calm False b (provisionRun s) := calm_ite h.withSec h
theorem Calm.releaseRun : Calm False b (releaseRun s) := calm_ite calm_coldReset h
theorem Calm.unlockRun : Calm False b (unlockRun s) := calm_ite h.withSec h
theorem Calm.lifecycleCtl {v : Nat} : Calm False b (lifecycleCtl s v) := by
  have hprov : Calm False b (if bits v 8 1 = 1 then Machine.provisionRun s else s) := calm_ite h.provisionRun h
  exact calm_ite h.releaseRun (calm_ite hprov.lockRun (calm_ite hprov.unlockRun hprov))
theorem Calm.noSession {src : Src} : Calm False b (noSession s src) := by
  unfold Machine.noSession
  split
  · exact h.putSat
  · exact h.putSat
  · exact h
theorem Calm.blowFuses {n : Nat} : Calm False b (blowFuses s n) := by
  induction n generalizing s with
  | zero => exact h
  | succ n ih =>
    have hdraw : Calm False b { s with draws := s.draws + 1 } := h.of_recs rfl
    exact calm_ite (ih hdraw.withSec) (ih hdraw.putF)
theorem Calm.bootEnter {m p : List Byte} : Calm False b (bootEnter s m p) := h.blowFuses.sramWrite.putR.putF.withSec.setCc
theorem Calm.bootFail {err : Nat} : Calm False b (bootFail s err) := h.putF.raiseEv (show cIMAGE < 256 by decide)
theorem Calm.imageRead {off n : Nat} : Calm False b (imageRead s off n).1 := h.devRead
theorem Calm.payRead : Calm False b (payRead s).1 := (h.imageRead (off := 0) (n := 0x2000)).imageRead
theorem Calm.imageCheck : Calm False b (imageCheck s).1 := (congrArg (Calm False b) (fst_of_eq_mk (imageCheck_eq s))).mpr h.payRead
theorem Calm.pushDone : Calm False b (pushDone s) := calm_ite h (calm_ite h.imageCheck.putF.bootEnter h.imageCheck.bootFail.withSec)
theorem Calm.pushStart : Calm False b (pushStart s) := calm_ite h.withSec h
theorem Calm.pushCtl {v : Nat} : Calm False b (pushCtl s v) := calm_ite (calm_ite h.pushStart h).pushDone (calm_ite h.pushStart h)
theorem Calm.sessErr {e : Nat} : Calm False b (sessErr s e) := h.putF
theorem Calm.setRegBytes {off : Nat} {bs : List Byte} : Calm False b (setRegBytes s off bs) := calm_foldl (fun _ _ h => h.putR) h
theorem Calm.sessRequest {debug : Bool} : Calm False b (sessRequest s debug) := by
  unfold Machine.sessRequest
  refine calm_ite h.sessErr (calm_ite h.sessErr ?_)
  split
  · exact h.sessErr
  · have hchal : Calm False b { s with draws := s.draws + 1, sess := { s.sess with chalTick := s.time.ticks } } := h.of_recs rfl
    exact hchal.setRegBytes.putF.putF
theorem Calm.badMac : Calm False b (badMac s) := by
  have hev {f : Nat} {e : Ev} (hcls : e.cls < 256) : Calm False b (Machine.raiseEv (Machine.sessErr (Machine.setF (Machine.setF s rSESS_STATE 0 2 0) rSESS_STATE 4 4 f) 1) 0 e) :=
    h.putF.putF.sessErr.raiseEv hcls
  unfold Machine.badMac
  dsimp only
  exact calm_ite (hev (show cAUTH < 256 by decide)).withSess.putF.putF.putF.hostIrq (hev (show cAUTH < 256 by decide))
theorem Calm.sessSubmit {jtag : Bool} : Calm False b (sessSubmit s jtag) := by
  unfold Machine.sessSubmit
  refine calm_ite h.sessErr (calm_ite h.putF.sessErr ?_)
  split
  · exact h.badMac
  · exact calm_ite h.putF.putF.putF.withSess h.badMac
theorem Calm.sessCtl {jtag : Bool} {v : Nat} : Calm False b (sessCtl s jtag v) := calm_ite h.sessEnd <| calm_ite h.sessErr <| calm_ite h.sessRequest <| calm_ite h.sessSubmit h
theorem Calm.sessWrite {src : Src} {off : Nat} {v : BitVec 32} : Calm False b (sessWrite s src off v) :=
  calm_ite h.sessCtl <| calm_ite h.withSess <| calm_ite h.lifecycleCtl <| calm_ite (calm_ite h.plainWrite h.noSession) <| calm_ite h.pushCtl <|
    calm_ite (calm_ite h.plainWrite.attestReq h.plainWrite) <| calm_ite (calm_ite h h.plainWrite) <| calm_ite (calm_ite h h.withSec) h.plainWrite
theorem Calm.pkgIdRun {v : BitVec 32} : Calm False b (pkgIdRun s v) := by
  have herr : Calm False b (if bits v.toNat 16 1 = 1 then Machine.setF s rPKG_ID 16 1 0 else s) := calm_ite h.putF h
  exact calm_ite herr.putF (calm_ite herr.putF.putF herr.putF)

-- control cores and traces -----------------------------------------------------------------------------------------------------------------------------

theorem Calm.ccCtl {k v : Nat} : Calm False b (ccCtl s k v) := calm_ite h.ccHold h.putF
theorem Calm.ccHostirqRun {v : Nat} : Calm False b (ccHostirqRun s v) := calm_foldl (fun _ _ h => calm_ite h.hostIrq h) h
theorem Calm.trcBad {d : Nat} : Calm False b (trcBad s d) := h.putF
theorem Calm.trcBuf {d off : Nat} {v : BitVec 32} : Calm False b (trcBuf s d off v) := calm_ite h.trcBad h.putR
theorem Calm.trcCtl {d v : Nat} {debug : Bool} : Calm False b (trcCtl s d v debug) := calm_ite h.putR <| calm_ite h.putR.putF <| calm_ite h.putR.putF h.putR.trcBad
theorem Calm.svcWrite {debug : Bool} {d off : Nat} {v : BitVec 32} : Calm False b (svcWrite s debug d off v) :=
  calm_ite h.ccCtl <| calm_ite h.ccSigRun <| calm_ite h.ccHostirqRun <| calm_ite h.trcCtl <| calm_ite h.trcBuf <| calm_ite h.traceRec h.plainWrite

-- the mirror and a lost port (R348 to R355) -------------------------------------------------------------------------------------------------------------

theorem Calm.netKeep {keep : NetLoad → Bool} : Calm False b (netKeep s keep) := h.of_recs rfl
theorem Calm.orphan {p : Nat} {k : Packet} : Calm False b (orphan s p k) := calm_ite (calm_ite h h.fabError) h.portDrop
theorem Calm.writeMasked {fuel a : Nat} {bs : List Byte} {ms : List Bool} : Calm False b (writeMasked s fuel a bs ms) := by
  induction fuel generalizing s a bs ms with
  | zero => exact h
  | succ fuel ih =>
    unfold Machine.writeMasked
    split
    · exact h
    · exact ih h.devWrite
    · exact ih h
theorem Calm.applyDeltas {regions : Nat} {ds : List DeltaRec} : Calm False b (applyDeltas s regions ds) := by
  refine calm_foldl (fun s d h => calm_ite ?_ h) h
  split
  · exact h.writeMasked
  · exact h
theorem Calm.applyOne {n rs upto : Nat} {rest : List (Nat × Nat × Nat)} : Calm False b (applyOne s n rs upto rest) := h.applyDeltas.withMirror.putR
theorem Calm.applyAll {l : List (Nat × Nat × Nat)} : Calm False b (applyAll l s) := by
  induction l generalizing s with
  | nil => exact h
  | cons z l ih => exact ih h.applyOne
theorem Calm.mirUnpair : Calm False b (mirUnpair s) := h.putF.withMirror
theorem Calm.mirAgree : Calm False b (mirAgree s) := by
  unfold Machine.mirAgree
  dsimp only
  split
  · exact calm_ite (calm_ite h (calm_ite h.putF h).putF.withMirror) h.mirUnpair
  · exact h.mirUnpair
theorem Calm.mirTell : Calm False b (mirTell s) := calm_ite h.sendNumbered h
theorem Calm.mirCheck : Calm False b (mirCheck s) := (calm_ite h.putF h).mirTell.mirAgree
theorem Calm.mirCtl {v : Nat} : Calm False b (mirCtl s v) := calm_ite h.withMirror (calm_ite h h.mirUnpair).putR.mirCheck
theorem Calm.applyEnd : Calm False b (applyEnd s) := by
  unfold Machine.applyEnd
  dsimp only
  split
  · exact h.putF.withMirror.mirCtl
  · exact h.putF
theorem Calm.partnerLost : Calm False b (partnerLost s) := by
  have hgone {m : MirrorSt} {n : Nat} : Calm False b { Machine.ledReturn (Machine.setF s rMIR_CTL 2 1 0) qMIRSEQ n with mirror := m } := (h.putF.ledReturn (by decide)).withMirror
  exact calm_ite (calm_ite hgone.putF.hostIrq hgone) h.applyAll.putF.putSat.withMirror.applyEnd
theorem Calm.ccLoadDone {k tag pos : Nat} {bs : List Byte} : Calm False b (ccLoadDone s k tag pos bs) := h.setCc
theorem Calm.ccWriteDone {k tag : Nat} : Calm False b (ccWriteDone s k tag) := h.setCc
theorem Calm.descFabError {c d id pos st : Nat} : Calm False b (descFabError s c d id pos st) := by
  unfold Machine.descFabError
  split
  · exact calm_ite (h.stopXfer.raiseCore (statusClass_lt st)).stopFloeOf h
  · exact h
theorem Calm.liveDrop {c och tag : Nat} : Calm False b (liveDrop s c och tag) := h.modCore
theorem Calm.trkDone {n : Nat} : Calm False b (trkDone s n) := h.setTrk.ledReturn1 (by decide)
omit h in
theorem refusalClass_lt (why : Nat) : (if why = 1 then cRANK else cCLOSED) < 256 := by
  split <;> decide
theorem Calm.trkFail {n st why : Nat} : Calm False b (trkFail s n st why) := by
  unfold Machine.trkFail
  split
  · exact h
  · rename_i who _ _ _
    cases who with
    | descRead c d id pos => exact h.trkDone.descFabError
    | descWrite c d id len sig => exact (calm_ite (h.trkDone.ledReturn1 (by decide)) h.trkDone).descFabError
    | message c och slot words rres => exact calm_ite (h.trkDone.liveDrop.msgReturned (refusalClass_lt why)) h.trkDone.liveDrop.msgFailed
    | reply c => exact h.trkDone.replyFailed
    | ccWrite k => exact h.trkDone.ccError.ccWriteDone
    | ccRead k pos => exact h.trkDone.ccLoadDone.ccError
    | ccSignal k => exact (h.trkDone.ledReturn1 (by decide)).ccError
theorem Calm.portLost {p cause : Nat} : Calm False b (portLost s p cause) := by
  have hdead : Calm False b (Machine.ledReturn (Machine.setPort (Machine.raiseEv (Machine.setF (Machine.setPortState s p 0) (rFAB_STAT p) 5 1 1) (p / 4)
      { cls := cLINKDOWN, sev := 2, home := 1, ukind := 4, uindex := p, detail := cause }) p (portDead (portOf s p))) qLINKCRED (usedTotal (portOf s p))) :=
    (h.setPortState.putF.raiseEv (show cLINKDOWN < 256 by decide)).setPort.ledReturn (by decide)
  unfold Machine.portLost
  refine calm_ite h ?_
  dsimp only
  generalize Machine.ledReturn _ _ _ = x at hdead ⊢
  have hfails : Calm False b (List.foldl (fun s t => Machine.trkFail s t 6 0) x (s.tracker.filterMap fun e => match e.2.busy with | some (_, q, _) => if q = p then some e.1 else none | none => none)) :=
    calm_foldl (fun _ _ h => h.trkFail) hdead
  generalize List.foldl _ x _ = y at hfails ⊢
  have horphans {l : List Packet} : Calm False b (l.foldl (fun s k => Machine.orphan s p k) (Machine.netKeep y fun m => (toPort p m).isNone)) :=
    calm_foldl (fun _ _ h => h.orphan) hfails.netKeep
  exact calm_ite horphans.partnerLost horphans
theorem Calm.wakeSend {p : Nat} : Calm False b (wakeSend s p) := calm_ite h (calm_ite h.emitFlit h.txPush)
theorem Calm.fabCtl {p v : Nat} : Calm False b (fabCtl s p v) := by
  have hset : Calm False b (Machine.setR s (rFAB_CTL p) (BitVec.ofNat 32 v &&& 0xFFF3)) := h.putR
  unfold Machine.fabCtl
  generalize Machine.setR s (rFAB_CTL p) _ = x at hset ⊢
  have hlink : Calm False b (if bits v 0 1 = 1 then (if portState x p = 0 then Machine.setPortState x p 1 else x) else Machine.portLost x p 0) :=
    calm_ite (calm_ite hset.setPortState hset) hset.portLost
  exact calm_ite hlink.wakeSend hlink
theorem Calm.releaseDie {d : Nat} : Calm False b (releaseDie s d) := calm_foldl (fun _ _ h => calm_foldl (fun _ _ h => calm_ite h.modSlot h) h) h
theorem Calm.mlogCtl {d v : Nat} : Calm False b (mlogCtl s d v) := calm_ite h (calm_ite h.putF h.releaseDie)

-- register writes (R361, R457) -----------------------------------------------------------------------------------------------------------------------------

theorem Calm.writeWord {src : Src} {off : Nat} {v : BitVec 32} : Calm False b (writeWord s src off v) :=
  calm_ite h.pkgIdRun <| calm_ite h.sessWrite <| calm_ite h.hostWrite <| calm_ite h.pwrWrite <| calm_ite (calm_ite h.mlogCtl h.plainWrite.setAlert) <| calm_ite h.fabCtl <|
    calm_ite (calm_ite h.plainWrite.putF h.plainWrite) <| calm_ite h.mirCtl <| calm_ite h.svcWrite <| calm_ite h.clusterWrite <| calm_ite h.coreWrite h.plainWrite
theorem Calm.imageWrite {off : Nat} {bs : List Byte} : Calm False b (imageWrite s off bs) := h.devWrite
theorem Calm.pushData {v : Nat} : Calm False b (pushData s v) := by
  unfold Machine.pushData
  split
  · exact calm_ite h (calm_ite h.putF h.imageWrite.withSec)
  · exact h
theorem Calm.wideWrite {off v : Nat} (e : wideWrite s off v = some t) : Calm False b t := by
  unfold Machine.wideWrite at e
  split_ifs at e <;> cases e
  · exact h.tbStep
  · exact h.dvfsWrite
  · exact h.pushData
  · exact h.cfgErr
  · exact h.put64
  · exact h.ccSigRun
  · exact h.ccHostirqRun
theorem Calm.rightsWord {src : Src} {off : Nat} {v : BitVec 32} : Calm False b (rightsWord s src off v) :=
  calm_ite h.writeWord (calm_ite (calm_ite h.pwrResult h).noSession h.noSession)
theorem Calm.regPerform {src : Src} {off : Nat} {wide : Bool} {v : Nat} : Calm False b (regPerform s src off wide v) := by
  unfold Machine.regPerform
  split
  · exact calm_ite (h.raiseEv (show cABSENT < 256 by decide)) h.noSession
  · refine calm_ite ?_ h.rightsWord
    split
    · rename_i s1 hwide
      split at hwide
      · exact h.wideWrite hwide
      · cases hwide
    · exact calm_ite h.rightsWord h.rightsWord.rightsWord
theorem Calm.wakeDetectRun {w : WakeSrc} : Calm False b (wakeDetectRun s w) := by
  unfold Machine.wakeDetectRun
  split
  · exact calm_ite h.withPwr h
  · exact calm_ite h (calm_ite h.idleWake h.wakeBegin)
theorem Calm.hold {src : Src} {off : Nat} {wide : Bool} {v : Nat} : Calm False b (hold s src off wide v) := h.of_recs rfl
theorem Calm.regWrite {src : Src} {off : Nat} {wide : Bool} {v : Nat} : Calm False b (regWrite s src off wide v) := by
  unfold Machine.regWrite
  refine calm_ite (calm_ite h.putSat h) (calm_ite h (calm_ite h.regPerform ?_))
  split
  · exact h.regPerform
  · refine calm_ite h.noSession (calm_ite h.hold (calm_ite (calm_ite h.hold.wakeDetectRun h.hold) (calm_ite h.hold ?_)))
    split
    · exact h.idleWake.regPerform
    · exact h.regPerform
theorem Calm.heldWrite {z : Held} : Calm False b (heldWrite s z) := calm_ite (h.regWrite.of_recs rfl) h.regWrite
theorem Calm.flushHeld : Calm False b (flushHeld s) := calm_ite h (calm_foldl (fun _ _ h => h.heldWrite) h.withPwr)
theorem Calm.regTop {src : Src} {off : Nat} {wide : Bool} {v : Nat} : Calm False b (regTop s src off wide v) := calm_ite h (calm_ite h.regWrite h.regWrite.flushHeld)
end

end Sys2Proof.Safety
end

section
/-! PROOF. O52: host commands (R266, R276, R366 to R376). -/

namespace Sys2Proof.Safety

open Sys2Proof.Machine

variable {s y : State} {c : HostCmd} {k : Nat} {opc : Nat → Bool} {f : State → HostCmd → State} {out : List HostOut}

-- dispatch (R366, R367) ---------------------------------------------------------------------------------------------------------------------------------

/-- A command of the row that is allowed runs. -/
theorem dispatch_good (hn : NextCommand s c k) (ho : opc k = true) (hb : badCmd c = false) : dispatch s opc f = f s c := by
  obtain ⟨⟨r, ha⟩, hk, hfence, hdead, -⟩ := hn
  unfold dispatch
  rw [ha]
  simp [hk, ho, hfence, hdead, hb]

/-- A block that Table 16-4 does not allow only completes. -/
theorem dispatch_bad (hn : NextCommand s c k) (ho : opc k = true) (hb : badCmd c = true) : dispatch s opc f = complete (dropFirst s) c 1 0 := by
  obtain ⟨⟨r, ha⟩, hk, hfence, hdead, -⟩ := hn
  unfold dispatch dropFirst
  rw [ha]
  simp [hk, ho, hfence, hdead, hb]

-- completions (R364, R371) --------------------------------------------------------------------------------------------------------------------------------

theorem sameRing_dropFirst (s : State) : SameRing s (dropFirst s) := SameRing.of_regs (fun _ _ => rfl) rfl rfl rfl rfl

/-- A completion after what leaves the ring alone: its record leaves at once. -/
theorem complete_facts (hn : NextCommand s c k) (h : SameRing s y) (hout : y.host.out = s.host.out ++ out) (status info : Nat) :
    Frame [rCTAIL] y (complete y c status info) ∧ (complete y c status info).host.accepted = y.host.accepted ∧ (complete y c status info).signals = y.signals ∧
      Records s (complete y c status info) c status info := by
  obtain ⟨-, -, -, -, hbm, hrecs, hirq⟩ := hn
  obtain ⟨hf, -, hh⟩ := completed_facts y c status info
  rw [complete_eq (h.master.trans hbm) (h.recs.trans hrecs) hirq]
  exact ⟨hf, by rw [hh], rfl, records_completed h hout c status info⟩

/-- A command that only completes. -/
theorem complete_first (hn : NextCommand s c k) (status info : Nat) : Frame [rCTAIL] s (complete (dropFirst s) c status info) ∧
    (complete (dropFirst s) c status info).host.accepted = s.host.accepted.drop 1 ∧ Records s (complete (dropFirst s) c status info) c status info := by
  obtain ⟨hf, hacc, -, hrec⟩ := complete_facts hn (sameRing_dropFirst s) (out := []) (by rw [List.append_nil]; rfl) status info
  have hdrop : Frame [] s (dropFirst s) := ⟨fun _ => rfl, fun _ _ => rfl, rfl, rfl⟩
  exact ⟨(hdrop.mono (List.nil_subset _)).trans hf, hacc, hrec⟩

/-- A completion where no record waits changes no memory and of the registers at most the tail. -/
theorem frame_complete_only (hrecs : y.host.recs = []) (hirq : cmdF c 0 9 1 = 0) (status info : Nat) : Frame [rCTAIL] y (complete y c status info) := by
  by_cases hbm : busMaster y = true
  · rw [complete_eq hbm hrecs hirq]
    exact (completed_facts y c status info).1
  · have hwait : complete y c status info = withRecs y (y.host.recs ++ [⟨c, status, info, tbNow y⟩]) := if_neg hbm
    rw [hwait]
    exact ⟨fun _ => rfl, fun _ _ => rfl, rfl, rfl⟩

theorem bad_completes {run : State → State} (hrun : run s = dispatch s opc f) (hn : NextCommand s c k) (ho : opc k = true) (hb : badCmd c = true) :
    ∃ s', Host.Outcome.next (run s) = (.next s' : Host.Outcome State Fault Refusal) ∧ Frame [rCTAIL] s s' ∧ s'.host.accepted = s.host.accepted.drop 1 ∧ Records s s' c 1 0 :=
  ⟨_, congrArg Host.Outcome.next (hrun.trans (dispatch_bad hn ho hb)), complete_first hn 1 0⟩

-- REGW (R372) --------------------------------------------------------------------------------------------------------------------------------------------

/-- REGW completes in the state that a register write of the ring leaves. -/
theorem regwRun_eq (hn : NextCommand s c 3) (hb : badCmd c = false) (hsess : inSessBlock (cmdF c 1 0 26) = false)
    (hal : cmdF c 1 0 26 % (if cmdF c 1 32 1 == 1 then 8 else 4) = 0) :
    regwRun s = complete (regTop (dropFirst s) .ring (cmdF c 1 0 26) (cmdF c 1 32 1 == 1) (cmdWord c 2)) c 0 0 := by
  unfold regwRun
  rw [dispatch_good hn (by decide) hb]
  dsimp only
  rw [if_neg]
  rintro (h | h)
  · rw [hsess] at h
    exact Bool.false_ne_true h
  · exact h hal

-- SIGNAL (R375) ------------------------------------------------------------------------------------------------------------------------------------------

theorem signalRun_eq (hn : NextCommand s c 4) (hb : badCmd c = false) (hbars : barsDone s c = true) (hcore : corePresent s (cmdF c 4 8 8) = true) :
    signalRun s = complete (sendSignal (dropFirst s) (cmdSignal s c 2 1 16)) c 0 0 := by
  unfold signalRun
  rw [dispatch_good hn (by decide) hb]
  dsimp only
  rw [if_neg (by rw [hbars]; decide), if_neg (by rw [hcore]; decide)]

theorem sameRing_sendSignal (s : State) (g : Sig) : SameRing s (sendSignal s g) :=
  SameRing.of_regs (fun off ho => getR_setR64_other { s with signals := s.signals ++ [g] } _ (show off ≠ ledgerBase qCTR by unfold ledgerBase; omega)
    (show off ≠ ledgerBase qCTR + 4 by unfold ledgerBase; omega)) rfl rfl rfl rfl

-- POWER (R311, R372) ---------------------------------------------------------------------------------------------------------------------------------------

/-- A request for IDLE from RUN is answered at once. -/
def idleAnswered (s : State) : State := powerDone (setPwrState (pwrResult s 0) 1)

theorem pwrRequest_idle (hawake : awake s = true) (hsess : sessOpen s = true) (hst : pwrState s = 0) : pwrRequest s .ring 1 = idleAnswered s := by
  have hbusy : pwrBusy s = false := by
    rw [awake] at hawake
    simp only [Bool.and_eq_true, Bool.not_eq_true'] at hawake
    exact hawake.1.2
  have hmay : mayWrite s .ring = true := hsess
  have hallow : notAllowed s .ring 1 = false := rfl
  unfold pwrRequest idleAnswered
  simp [hbusy, hmay, hallow, hst]

/-- An interrupt sends at most messages of its own. -/
theorem hostIrq_sends (s : State) (b : Nat) : ∃ o p, (hostIrq s b).host = { s.host with out := s.host.out ++ o, pend := p } := by
  have hbase (v : Nat) : (setR64 s rHOST_IRQ_STAT v).host = s.host := rfl
  unfold hostIrq
  dsimp only
  generalize setBits (getR64 s rHOST_IRQ_STAT) b 1 1 = v
  specialize hbase v
  generalize setR64 s rHOST_IRQ_STAT v = x at hbase
  split
  · unfold msix
    split
    · exact ⟨_, _, by rw [← hbase]⟩
    · exact ⟨[], _, by rw [← hbase, List.append_nil]⟩
  · exact ⟨[], s.host.pend, by rw [hbase, List.append_nil]⟩

theorem host_powerDone (s : State) : (powerDone s).host = (hostIrq s 7).host := by
  unfold powerDone
  exact List.foldlRecOn (motive := fun z : State => z.host = (hostIrq s 7).host) _ _ rfl fun z hz a _ => hz

/-- The end of a power transition leaves the ring alone. -/
theorem sameRing_powerDone (s : State) : SameRing s (powerDone s) ∧ ∃ o p, (powerDone s).host = { s.host with out := s.host.out ++ o, pend := p } := by
  have hn := powerNoted_powerDone s
  obtain ⟨o, p, hh⟩ := hostIrq_sends s 7
  rw [← host_powerDone] at hh
  have htime : (powerDone s).time = s.time := by
    obtain ⟨⟨r, ho, e⟩, -⟩ := hn
    rw [e]
  refine ⟨⟨hn.regs _ (.inl (by decide)), ?_, hn.getF_eq (.inl (by decide)) 0 5, ?_, ?_, by rw [hh]⟩, o, p, hh⟩
  · rw [getR64, getR64, hn.regs _ (.inl (by decide)), hn.regs _ (.inl (by decide))]
  · rw [tbNow, tbNow, htime]
  · rw [busMaster, busMaster, hh]

/-- What the answer leaves: the state IDLE, RESULT 0, and the ring, the memory and the held writes as they were. -/
theorem idleAnswered_facts (s : State) : SameMem s (idleAnswered s) ∧ SameRing s (idleAnswered s) ∧ pwrState (idleAnswered s) = 1 ∧ getF (idleAnswered s) rPWR_STATE 4 3 = 0 ∧
    (idleAnswered s).pwr = s.pwr ∧ ∃ o p, (idleAnswered s).host = { s.host with out := s.host.out ++ o, pend := p } := by
  have hstate : getF (setPwrState (pwrResult s 0) 1) rPWR_STATE 0 3 = 1 := getF_setF_same _ _ 0 3 1 (by decide)
  have hresult : getF (setPwrState (pwrResult s 0) 1) rPWR_STATE 4 3 = 0 :=
    (getF_setF_otherField _ _ 0 3 1 4 3 (by decide) (.inr (by decide))).trans (getF_setF_same _ _ 4 3 0 (by decide))
  have hregs (off : Nat) (ho : off < 0x4_0100) : getR (setPwrState (pwrResult s 0) 1) off = getR s off := by
    have hne : off ≠ rPWR_STATE := fun e => absurd (e ▸ ho) (by decide)
    exact (getR_setF_other _ 0 3 1 hne).trans (getR_setF_other _ 4 3 0 hne)
  have hpart : (setPwrState (pwrResult s 0) 1).mem = s.mem ∧ (setPwrState (pwrResult s 0) 1).time = s.time ∧ (setPwrState (pwrResult s 0) 1).host = s.host ∧
      (setPwrState (pwrResult s 0) 1).pwr = s.pwr := ⟨rfl, rfl, rfl, rfl⟩
  unfold idleAnswered
  generalize setPwrState (pwrResult s 0) 1 = x at hstate hresult hregs hpart
  obtain ⟨hmem, htime, hhost, hpwr⟩ := hpart
  have hn := powerNoted_powerDone x
  obtain ⟨hring, o, p, hh⟩ := sameRing_powerDone x
  rw [hhost] at hh
  refine ⟨fun a => (hn.sameMem a).trans (rdByte_congr hmem a), (SameRing.of_regs hregs htime (by rw [hhost]) (by rw [hhost]) (by rw [hhost])).trans hring,
    (hn.getF_eq (.inr (by decide)) 0 3).trans hstate, (hn.getF_eq (.inr (by decide)) 4 3).trans hresult, ?_, o, p, hh⟩
  obtain ⟨⟨r, ho, e⟩, -⟩ := hn
  rw [e, hpwr]

theorem powerRun_eq (hn : NextCommand s c 5) (hb : badCmd c = false) (hawake : awake s = true) (hheld : s.pwr.held = []) (hsess : sessOpen s = true) (hst : pwrState s = 0)
    (ht : cmdF c 1 0 3 = 1) : powerRun s = complete (idleAnswered (dropFirst s)) c 0 0 := by
  have hreq : pwrRequest (dropFirst s) .ring 1 = idleAnswered (dropFirst s) := pwrRequest_idle hawake hsess hst
  have hflush : flushHeld (idleAnswered (dropFirst s)) = idleAnswered (dropFirst s) := by
    obtain ⟨-, -, -, -, hpwr, -⟩ := idleAnswered_facts (dropFirst s)
    have hnone : (idleAnswered (dropFirst s)).pwr.held.isEmpty = true := by
      rw [hpwr]
      exact List.isEmpty_iff.2 hheld
    exact if_pos (.inl hnone)
  obtain ⟨-, -, -, hresult, -⟩ := idleAnswered_facts (dropFirst s)
  unfold powerRun
  rw [dispatch_good hn (by decide) hb, ht, hreq, hflush]
  dsimp only
  rw [hresult, if_pos rfl]

-- CLOSE (R372, R383) -----------------------------------------------------------------------------------------------------------------------------------------

/-- The end of a session without debug rights. -/
theorem sessEnd_plain_facts (hsess : sessOpen s = true) (hd : sessDebug s = false) : Frame [rSESS_STATE, rHRING_SIZE] s (sessEnd s) ∧ SameRing s (sessEnd s) ∧
    sessState (sessEnd s) = 0 ∧ getB (sessEnd s) rHRING_SIZE 8 = false ∧ (sessEnd s).host = s.host := by
  have hf : Frame [rSESS_STATE, rHRING_SIZE] s (setF (setF s rSESS_STATE 0 2 0) rHRING_SIZE 8 1 0) := (frame_setF s (by simp) 0 2 0).trans (frame_setF _ (by simp) 8 1 0)
  have hstate : getF (setF (setF s rSESS_STATE 0 2 0) rHRING_SIZE 8 1 0) rSESS_STATE 0 2 = 0 :=
    (getF_setF_otherReg (setF s rSESS_STATE 0 2 0) 8 1 0 0 2 (by decide)).trans (getF_setF_same s _ 0 2 0 (by decide))
  have hsize : getB (setF (setF s rSESS_STATE 0 2 0) rHRING_SIZE 8 1 0) rHRING_SIZE 8 = false := getB_setF_same _ _ (by decide) 0
  have hlog : ringLog (setF (setF s rSESS_STATE 0 2 0) rHRING_SIZE 8 1 0) = ringLog s :=
    (getF_setF_otherField _ _ 8 1 0 0 5 (by decide) (.inl (by decide))).trans (getF_setF_otherReg s 0 2 0 0 5 (by decide))
  have hpart : (setF (setF s rSESS_STATE 0 2 0) rHRING_SIZE 8 1 0).time = s.time ∧ (setF (setF s rSESS_STATE 0 2 0) rHRING_SIZE 8 1 0).host = s.host := ⟨rfl, rfl⟩
  rw [sessEnd_of_plain hsess hd]
  generalize setF (setF s rSESS_STATE 0 2 0) rHRING_SIZE 8 1 0 = x at hf hstate hsize hlog hpart
  obtain ⟨htime, hhost⟩ := hpart
  have hbase : getR64 x rCRING_BASE = getR64 s rCRING_BASE := by rw [getR64, getR64, hf.getR_eq (by decide), hf.getR_eq (by decide)]
  have htail : getR x rCTAIL = getR s rCTAIL := hf.getR_eq (by decide)
  exact ⟨hf, ⟨htail, hbase, hlog, by rw [tbNow, tbNow, ← htime], by rw [busMaster, busMaster, ← hhost], by rw [← hhost]⟩, hstate, hsize, hhost⟩

-- MOVE (R370, R373) -------------------------------------------------------------------------------------------------------------------------------------------

/-- A MOVE joins its mover's queue. -/
def moveQueued (s : State) (c : HostCmd) : State := setMoverQ (dropFirst s) (cmdMv c) (moverQ s (cmdMv c) ++ [c])

theorem moveRun_eq (hn : NextCommand s c 1) (hb : badCmd c = false) (hroom : (moverQ s (cmdMv c)).length < 9) (hp : placeOf (mvAddr c) (mvLen c) = .store k)
    (hcore : corePresent s k = true) (hsig : mvSig c = false) : moveRun s = ledIssue (moveQueued s c) qHMV 1 := by
  unfold moveRun
  rw [dispatch_good hn (by decide) hb]
  dsimp only
  rw [if_neg (by omega), hp]
  dsimp only
  rw [if_neg (by rw [hcore]; decide), hsig]
  rfl

-- LOAD (R266, R276, R376) ----------------------------------------------------------------------------------------------------------------------------------------

theorem loadTake_facts (s : State) (c : HostCmd) (status code : Nat) (fs : List (Nat × Nat)) (ws : List (Nat × Nat × Nat)) :
    Frame [rCC_IRQ_STAT 0] s (loadTake s c status code fs ws) ∧ (loadTake s c status code fs ws).host.loader = some ⟨c, status, code, fs, ws⟩ :=
  ⟨⟨fun _ => rfl, fun _ ho => getR_setF_other (dropFirst s) 1 1 1 (fun e => ho (by rw [e]; exact List.mem_singleton_self _)), rfl, rfl⟩, rfl⟩

theorem error_bind {α β : Type} {e : Nat} {g : α → Except Nat β} : ((Except.error e : Except Nat α) >>= g) = .error e := rfl

/-- A module whose image is malformed ends with code 1 and nothing else (R266). -/
theorem loadModule_malformed {img : List Byte} {a : LoadArgs} {n : Nat} (hlen : a.len = n) (h : imageOk (img.take n) n = false) (s : State) (recs : TurmiRecs) (map : Option (List Nat)) :
    loadModule s img recs map a = (s, 1, [], []) := by
  subst hlen
  have hsteps : loadSteps s img recs map a = .error 1 := by
    have hreq : require (imageOk (img.take a.len) a.len) 1 = .error 1 := by rw [require, h, if_neg Bool.false_ne_true]
    delta loadSteps
    generalize require (imageOk (img.take a.len) a.len) 1 = x at hreq
    subst hreq
    exact error_bind
  unfold loadModule
  rw [hsteps]

theorem code_of_malformed {img : List Byte} {recs : TurmiRecs} {map : Option (List Nat)} {a : LoadArgs} {s1 : State} {code : Nat} {fs : List (Nat × Nat)}
    {ws : List (Nat × Nat × Nat)} (h : loadModule s img recs map a = (s1, code, fs, ws)) {n : Nat} (hlen : a.len = n) (himg : imageOk (img.take n) n = false) : code = 1 :=
  (congrArg (fun x => x.2.1) ((loadModule_malformed hlen himg s recs map).symm.trans h)).symm

/-- A load that ends with a code has changed nothing (R276). -/
theorem loadModule_code {img : List Byte} {recs : TurmiRecs} {map : Option (List Nat)} {a : LoadArgs} {s1 : State} {code : Nat} {fs : List (Nat × Nat)} {ws : List (Nat × Nat × Nat)}
    (h : loadModule s img recs map a = (s1, code, fs, ws)) (hc : code ≠ 0) : s1 = s := by
  unfold loadModule at h
  cases hsteps : loadSteps s img recs map a with
  | ok l =>
    rw [hsteps] at h
    cases h
    exact absurd rfl hc
  | error e =>
    rw [hsteps] at h
    cases h
    rfl

section
variable {img : List Byte} {recs : TurmiRecs} {map : Option (List Nat)}

/-- The loader, free and running, takes the module. -/
structure LoaderReady (s : State) (c : HostCmd) (map : Option (List Nat)) : Prop where
  next : NextCommand s c 2
  good : badCmd c = false
  free : s.host.loader = none
  bruta : bruta s = true
  runs : ccRuns s 0 = true
  todo : (ccOf s 0).todo = []
  starts : startsWait s = false
  mapped : (cmdWord c 5 == 0) = map.isNone

theorem LoaderReady.idle (h : LoaderReady s c map) :
    ¬ (s.host.loader.isSome ∨ Machine.bruta s = false ∨ ccRuns s 0 = false ∨ (ccOf s 0).todo ≠ [] ∨ startsWait s) := by
  simp [h.free, h.bruta, h.runs, h.todo, h.starts]

theorem LoaderReady.host (h : LoaderReady s c map) (hfirn : cmdF c 2 0 1 = 0) : loadRun s (.content img recs map) = loadModuleRun s c img recs map := by
  obtain ⟨-, -, -, -, hbm, -⟩ := h.next
  unfold loadRun
  rw [dispatch_good h.next (by decide) h.good]
  dsimp only
  rw [if_neg h.idle, hfirn, hbm, h.mapped]
  simp

theorem LoaderReady.beyond (h : LoaderReady s c map) (hfirn : cmdF c 2 0 1 = 1) (hbig : 2 ^ 38 < cmdWord c 1 + cmdF c 3 0 32) :
    loadRun s (.content img recs map) = loadTake s c 2 0 [] [] := by
  unfold loadRun
  rw [dispatch_good h.next (by decide) h.good]
  dsimp only
  rw [if_neg h.idle, hfirn, if_pos ⟨by decide, hbig⟩]

theorem LoaderReady.firn (h : LoaderReady s c map) (hfirn : cmdF c 2 0 1 = 1) (htop : cmdWord c 1 + cmdF c 3 0 32 ≤ 2 ^ 38) (hopen : firnOpen s (cmdWord c 1) (cmdF c 3 0 32) = true)
    {bs : List Byte} (hread : devRead s whoHost (cmdF c 3 0 32 / 256 + 2) (cmdWord c 1) (cmdF c 3 0 32) = (y, bs, false)) :
    loadRun s (.content img recs map) = loadModuleRun y c bs recs map := by
  obtain ⟨-, -, -, -, hbm, -⟩ := h.next
  unfold loadRun
  rw [dispatch_good h.next (by decide) h.good]
  dsimp only
  rw [if_neg h.idle, hfirn, if_neg (by omega), hbm, hopen, h.mapped, hread]
  simp

theorem loadModuleRun_of {a : LoadArgs} {s1 : State} {code : Nat} {fs : List (Nat × Nat)} {ws : List (Nat × Nat × Nat)} (ha : a = ⟨cmdF c 3 0 32, cmdF c 2 16 12, cmdF c 2 48 16⟩)
    (h : loadModule s img recs map a = (s1, code, fs, ws)) : loadModuleRun s c img recs map = loadTake s1 c 0 code fs ws := by
  unfold loadModuleRun
  rw [← ha, h]

end

/-- A LOAD that is allowed has a length (R366). -/
theorem load_length_pos (hk : cmdOpc c = 2) (hb : badCmd c = false) : 0 < cmdF c 3 0 32 := by
  refine Nat.pos_of_ne_zero fun h => ?_
  unfold badCmd at hb
  rw [hk, h] at hb
  simp at hb

/-- A malformed image in one block of firn ends with code 1. -/
theorem LoaderReady.malformed {map : Option (List Nat)} (h : LoaderReady s c map) (img : List Byte) (recs : TurmiRecs) (hfirn : cmdF c 2 0 1 = 1)
    (htop : cmdWord c 1 + cmdF c 3 0 32 ≤ 2 ^ 38) (hfit : cmdWord c 1 % 256 + cmdF c 3 0 32 ≤ 256) (hopen : firnOpen s (cmdWord c 1) (cmdF c 3 0 32) = true)
    (hent : s.firnEnt = []) (hbeat : s.beatErr = []) (himg : imageOk (rdBytes s (memKey s (cmdWord c 1)) (cmdF c 3 0 32)) (cmdF c 3 0 32) = false) :
    ∃ t, t.mem = s.mem ∧ loadRun s (.content img recs map) = loadTake t c 0 1 [] [] := by
  have hpos := load_length_pos h.next.2.1 h.good
  have hisFirn : isFirn (cmdWord c 1) = true := by
    rw [isFirn, decide_eq_true_eq]
    omega
  obtain ⟨t, hmem, -, hread⟩ := devRead_piece hent hbeat whoHost (cmdF c 3 0 32 / 256) hisFirn hpos hfit
  have hload : loadModule t (rdBytes s (memKey s (cmdWord c 1)) (cmdF c 3 0 32)) recs map ⟨cmdF c 3 0 32, cmdF c 2 16 12, cmdF c 2 48 16⟩ = (t, 1, [], []) := by
    refine loadModule_malformed rfl ?_ t recs map
    rw [List.take_of_length_le (by rw [rdBytes_length])]
    exact himg
  exact ⟨t, hmem, (h.firn hfirn htop hopen hread).trans (loadModuleRun_of rfl hload)⟩

/-- A LOAD of a module that the host holds. -/
theorem LoaderReady.host_facts {img : List Byte} {recs : TurmiRecs} {map : Option (List Nat)} {s1 : State} {code : Nat} {fs : List (Nat × Nat)} {ws : List (Nat × Nat × Nat)}
    (h : LoaderReady s c map) (hfirn : cmdF c 2 0 1 = 0) (hload : loadModule s img recs map ⟨cmdF c 3 0 32, cmdF c 2 16 12, cmdF c 2 48 16⟩ = (s1, code, fs, ws)) :
    ∃ s', loadRun s (.content img recs map) = s' ∧ SameMem s1 s' ∧ SameRegsBut [rCC_IRQ_STAT 0] s1 s' ∧ s'.host.loader = some ⟨c, 0, code, fs, ws⟩ ∧
      (code ≠ 0 → Frame [rCC_IRQ_STAT 0] s s') ∧ (imageOk (img.take (cmdF c 3 0 32)) (cmdF c 3 0 32) = false → code = 1) := by
  obtain ⟨hf, hl⟩ := loadTake_facts s1 c 0 code fs ws
  refine ⟨_, (h.host hfirn).trans (loadModuleRun_of rfl hload), hf.1, hf.2.1, hl, fun hc => ?_, code_of_malformed hload rfl⟩
  rw [loadModule_code hload hc] at hf ⊢
  exact hf

/-- The three LOADs of O52. -/
theorem LoaderReady.loads {img : List Byte} {recs : TurmiRecs} {map : Option (List Nat)} {s1 : State} {code : Nat} {fs : List (Nat × Nat)} {ws : List (Nat × Nat × Nat)}
    (h : LoaderReady s c map) :
    (cmdF c 2 0 1 = 0 → loadModule s img recs map ⟨cmdF c 3 0 32, cmdF c 2 16 12, cmdF c 2 48 16⟩ = (s1, code, fs, ws) →
      ∃ s', exec (.load (.content img recs map)) s = .next s' ∧ SameMem s1 s' ∧ SameRegsBut [rCC_IRQ_STAT 0] s1 s' ∧ s'.host.loader = some ⟨c, 0, code, fs, ws⟩ ∧
        (code ≠ 0 → Frame [rCC_IRQ_STAT 0] s s') ∧ (imageOk (img.take (cmdF c 3 0 32)) (cmdF c 3 0 32) = false → code = 1)) ∧
    (cmdF c 2 0 1 = 1 → cmdWord c 1 + cmdF c 3 0 32 ≤ 2 ^ 38 → cmdWord c 1 % 256 + cmdF c 3 0 32 ≤ 256 → firnOpen s (cmdWord c 1) (cmdF c 3 0 32) = true →
      s.firnEnt = [] → s.beatErr = [] → imageOk (rdBytes s (memKey s (cmdWord c 1)) (cmdF c 3 0 32)) (cmdF c 3 0 32) = false →
      ∃ s', exec (.load (.content img recs map)) s = .next s' ∧ SameMem s s' ∧ s'.host.loader = some ⟨c, 0, 1, [], []⟩) ∧
    (cmdF c 2 0 1 = 1 → 2 ^ 38 < cmdWord c 1 + cmdF c 3 0 32 →
      ∃ s', exec (.load (.content img recs map)) s = .next s' ∧ Frame [rCC_IRQ_STAT 0] s s' ∧ s'.host.loader = some ⟨c, 2, 0, [], []⟩) := by
  refine ⟨fun hfirn hload => ?_, fun hfirn htop hfit hopen hent hbeat himg => ?_, fun hfirn hbig => ?_⟩
  · obtain ⟨s', hrun, hfacts⟩ := h.host_facts hfirn hload
    exact ⟨s', congrArg Host.Outcome.next hrun, hfacts⟩
  · obtain ⟨t, hmem, hrun⟩ := h.malformed img recs hfirn htop hfit hopen hent hbeat himg
    obtain ⟨hf, hl⟩ := loadTake_facts t c 0 1 [] []
    exact ⟨_, congrArg Host.Outcome.next hrun, fun a => (hf.1 a).trans (rdByte_congr hmem a), hl⟩
  · obtain ⟨hf, hl⟩ := loadTake_facts s c 2 0 [] []
    exact ⟨_, congrArg Host.Outcome.next (h.beyond hfirn hbig), hf, hl⟩

/-- Settles O52: each row dispatches, acts as the lemma of its command says, and completes with the ring as it was. -/
theorem hostCommandsComplete : Obligations.HostCommandsComplete := by
  unfold Obligations.HostCommandsComplete
  intro c s
  refine ⟨?_, fun hb => ⟨fun hn => ?_, fun off wide hn hoff hwide hsess hal => ?_, fun hn hbars hcore => ?_, fun hn hawake hheld hsess hst ht => ?_, fun hn hsess hd => ?_,
    fun k hn hroom hp hcore hsig => ?_, fun img recs map s1 code fs ws hn hfree hbruta hruns htodo hstarts hmap => ?_⟩⟩
  · simp only [List.mem_cons, List.not_mem_nil, or_false]
    rintro p (rfl | rfl | rfl | rfl | rfl | rfl) hn hb
    · exact bad_completes (run := moveRun) rfl hn (by decide) hb
    · exact bad_completes (run := regwRun) rfl hn (by decide) hb
    · exact bad_completes (run := signalRun) rfl hn (by decide) hb
    · exact bad_completes (run := powerRun) rfl hn (by decide) hb
    · exact bad_completes (run := closeRun) rfl hn (by decide) hb
    · exact bad_completes (run := nopRun) rfl hn (by decide) hb
  · have hrun : nopRun s = complete (dropFirst s) c 0 0 := dispatch_good hn (by decide) hb
    exact ⟨_, congrArg Host.Outcome.next hrun, complete_first hn 0 0⟩
  · subst hoff hwide
    have hrun := regwRun_eq hn hb hsess hal
    obtain ⟨-, -, -, -, -, hrecs, hirq⟩ := hn
    have hcalm : Calm False (dropFirst s) (regTop (dropFirst s) .ring (cmdF c 1 0 26) (cmdF c 1 32 1 == 1) (cmdWord c 2)) := (Calm.refl False (dropFirst s)).regTop
    have hexec : exec (.registerWrite .ring (BitVec.ofNat 26 (cmdF c 1 0 26)) (cmdF c 1 32 1 == 1) (BitVec.ofNat 64 (cmdWord c 2))) (dropFirst s) =
        .next (regTop (dropFirst s) .ring (cmdF c 1 0 26) (cmdF c 1 32 1 == 1) (cmdWord c 2)) := by
      have hx (o : BitVec 26) (w : Bool) (v : W64) : exec (.registerWrite .ring o w v) (dropFirst s) = .next (regTop (dropFirst s) .ring o.toNat w v.toNat) := rfl
      rw [hx, BitVec.toNat_ofNat, Nat.mod_eq_of_lt (show cmdF c 1 0 26 < 2 ^ 26 from bits_lt _ _ _), BitVec.toNat_ofNat, Nat.mod_eq_of_lt (show cmdWord c 2 < 2 ^ 64 from BitVec.isLt _)]
    have hnone := hcalm.recs hrecs
    generalize regTop (dropFirst s) .ring (cmdF c 1 0 26) (cmdF c 1 32 1 == 1) (cmdWord c 2) = t at hrun hexec hnone
    have hf := frame_complete_only hnone hirq 0 0
    exact ⟨_, t, congrArg Host.Outcome.next hrun, hexec, hf.1, hf.2.1⟩
  · have hrun := signalRun_eq hn hb hbars hcore
    have hsig : Frame [ledgerBase qCTR, ledgerBase qCTR + 4] s (sendSignal (dropFirst s) (cmdSignal s c 2 1 16)) :=
      frame_ledIssue { dropFirst s with signals := s.signals ++ [cmdSignal s c 2 1 16] } (by simp) (by simp) 1
    have hring : SameRing s (sendSignal (dropFirst s) (cmdSignal s c 2 1 16)) :=
      (sameRing_dropFirst s).trans (sameRing_sendSignal _ _)
    have hpart : (sendSignal (dropFirst s) (cmdSignal s c 2 1 16)).host = (dropFirst s).host ∧
        (sendSignal (dropFirst s) (cmdSignal s c 2 1 16)).signals = s.signals ++ [cmdSignal s c 2 1 16] := ⟨rfl, rfl⟩
    generalize sendSignal (dropFirst s) (cmdSignal s c 2 1 16) = y at hrun hsig hring hpart
    obtain ⟨hhost, hsigs⟩ := hpart
    obtain ⟨hf, hacc, hsame, hrec⟩ := complete_facts hn hring (out := []) (by rw [hhost, List.append_nil]; rfl) 0 0
    exact ⟨_, congrArg Host.Outcome.next hrun, (hsig.mono (by simp)).trans (hf.mono (by simp)), by rw [hacc, hhost]; rfl, hrec, _, hsame.trans hsigs, rfl, rfl, rfl, rfl, rfl⟩
  · have hrun := powerRun_eq hn hb hawake hheld hsess hst ht
    obtain ⟨hmem, hring, hstate, -, -, o, p, hhost⟩ := idleAnswered_facts (dropFirst s)
    obtain ⟨hf, hacc, -, hrec⟩ := complete_facts hn ((sameRing_dropFirst s).trans hring) (out := o) (by rw [hhost]; rfl) 0 0
    refine ⟨_, congrArg Host.Outcome.next hrun, fun a => (hf.1 a).trans (hmem a), (hf.getF_eq (by decide) 0 3).trans hstate, ?_, hrec⟩
    rw [hacc, hhost]
    rfl
  · have hrun : closeRun s = complete (sessEnd (dropFirst s)) c 0 0 := dispatch_good hn (by decide) hb
    obtain ⟨hend, hring, hstate, hsize, hhost⟩ := sessEnd_plain_facts (s := dropFirst s) hsess hd
    have hdrop : Frame [] s (dropFirst s) := ⟨fun _ => rfl, fun _ _ => rfl, rfl, rfl⟩
    obtain ⟨hf, hacc, -, hrec⟩ := complete_facts hn ((sameRing_dropFirst s).trans hring) (out := []) (by rw [hhost, List.append_nil]; rfl) 0 0
    refine ⟨_, congrArg Host.Outcome.next hrun, ((hdrop.mono (List.nil_subset _)).trans (hend.mono (by simp))).trans (hf.mono (by simp)), (hf.getF_eq (by decide) 0 2).trans hstate,
      (getB_congr (hf.getR_eq (by decide)) 8).trans hsize, ?_, hrec⟩
    rw [hacc, hhost]
    rfl
  · have hq : moverQ (moveQueued s c) (cmdMv c) = moverQ s (cmdMv c) ++ [c] := mget_mset_same _ _ _ _
    have hissue := issued_ledIssue (moveQueued s c) qHMV 1
    have hled := frame_ledIssue (q := qHMV) (l := [ledgerBase qHMV, ledgerBase qHMV + 4]) (moveQueued s c) (by simp) (by simp) 1
    have hqueued : Frame [] s (moveQueued s c) := ⟨fun _ => rfl, fun _ _ => rfl, rfl, rfl⟩
    exact ⟨_, congrArg Host.Outcome.next (moveRun_eq hn hb hroom hp hcore hsig), (hqueued.mono (List.nil_subset _)).trans hled, rfl, hq, hissue⟩
  · exact LoaderReady.loads ⟨hn, hb, hfree, hbruta, hruns, htodo, hstarts, hmap⟩

end Sys2Proof.Safety
end

section
/-! SUPPORT. What Bruta leaves while it serves (R387, R388, R394 to R397): the registers and the stacks that its accesses rest on; its accesses to firn and to the stationary
stores; and what the rest of a step of serving keeps. -/

namespace Sys2Proof.Safety

open Sys2Proof.Machine

variable {s t u : State} {a a' n m k : Nat}

-- what serving leaves alone -----------------------------------------------------------------------------------------------------------------------------

/-- A register that no store, signal or event of a control core reaches: neither the log, a ledger, the host's interrupts nor SRV_STAT. -/
def NearReg (off : Nat) : Prop :=
  off < 0x4_0048 ∨ (0x4_0050 ≤ off ∧ off < 0xC_0000) ∨ (0x10_0000 ≤ off ∧ off < 0x20_0000) ∨ off = 0x40_0000 ∨ (0x40_1000 ≤ off ∧ off < 0x40_1020) ∨ 0x100_0000 ≤ off

/-- What the serving core's own work leaves: every register that is near, what is under way in firn and the network, the clocks, and which stacks are open. -/
structure Quiet (s t : State) : Prop where
  same : ∃ r m f c v n tr ho pi g, t = { s with regs := r, mem := m, firnStacks := f, ccs := c, serve := v, draws := n, trace := tr, host := ho, pins := pi, signals := g }
  regs : ∀ off, NearReg off → getR t off = getR s off
  opened : ∀ k, (stackOf t k).open_ = (stackOf s k).open_

namespace Quiet

theorem refl (s : State) : Quiet s s := ⟨⟨_, _, _, _, _, _, _, _, _, _, rfl⟩, fun _ _ => rfl, fun _ => rfl⟩

theorem trans (h : Quiet s t) (h' : Quiet t u) : Quiet s u := by
  obtain ⟨⟨r, m, f, c, v, n, tr, ho, pi, g, rfl⟩, hr, hs⟩ := h
  obtain ⟨⟨r', m', f', c', v', n', tr', ho', pi', g', rfl⟩, hr', hs'⟩ := h'
  exact ⟨⟨r', m', f', c', v', n', tr', ho', pi', g', rfl⟩, fun off h => (hr' off h).trans (hr off h), fun k => (hs' k).trans (hs k)⟩

theorem ite {p : Prop} [Decidable p] (h : Quiet s t) (h' : Quiet s u) : Quiet s (if p then t else u) := by
  split
  · exact h
  · exact h'

theorem foldl {α : Type*} {l : List α} {g : State → α → State} (hg : ∀ x, ∀ a ∈ l, Quiet x (g x a)) (s : State) : Quiet s (l.foldl g s) :=
  List.foldlRecOn (motive := Quiet s) l _ (refl s) fun x h a ha => h.trans (hg x a ha)

/-- The same registers and stacks. -/
theorem of_same (h : ∃ m c v n tr ho pi g, t = { s with mem := m, ccs := c, serve := v, draws := n, trace := tr, host := ho, pins := pi, signals := g }) : Quiet s t := by
  obtain ⟨m, c, v, n, tr, ho, pi, g, rfl⟩ := h
  exact ⟨⟨_, _, _, _, _, _, _, _, _, _, rfl⟩, fun _ _ => rfl, fun _ => rfl⟩

theorem getF_eq (h : Quiet s t) {off : Nat} (ho : NearReg off) (lo w : Nat) : getF t off lo w = getF s off lo w := by rw [getF, getF, h.regs off ho]
theorem getR64_eq (h : Quiet s t) {off : Nat} (ho : NearReg off) (ho' : NearReg (off + 4)) : getR64 t off = getR64 s off := by rw [getR64, getR64, h.regs off ho, h.regs _ ho']
theorem firnEnt (h : Quiet s t) : t.firnEnt = s.firnEnt := by obtain ⟨⟨r, m, f, c, v, n, tr, ho, pi, g, rfl⟩, -⟩ := h; rfl
theorem beatErr (h : Quiet s t) : t.beatErr = s.beatErr := by obtain ⟨⟨r, m, f, c, v, n, tr, ho, pi, g, rfl⟩, -⟩ := h; rfl
theorem fuses (h : Quiet s t) : t.fuses = s.fuses := by obtain ⟨⟨r, m, f, c, v, n, tr, ho, pi, g, rfl⟩, -⟩ := h; rfl
theorem net (h : Quiet s t) : t.net = s.net := by obtain ⟨⟨r, m, f, c, v, n, tr, ho, pi, g, rfl⟩, -⟩ := h; rfl
theorem regions (h : Quiet s t) : t.regions = s.regions := by obtain ⟨⟨r, m, f, c, v, n, tr, ho, pi, g, rfl⟩, -⟩ := h; rfl
theorem clusters (h : Quiet s t) : t.clusters = s.clusters := by obtain ⟨⟨r, m, f, c, v, n, tr, ho, pi, g, rfl⟩, -⟩ := h; rfl
theorem resetting (h : Quiet s t) : t.resetting = s.resetting := by obtain ⟨⟨r, m, f, c, v, n, tr, ho, pi, g, rfl⟩, -⟩ := h; rfl

theorem regionUp (h : Quiet s t) (hk : k ≤ 36) : Machine.regionUp t k = Machine.regionUp s k := by
  have hr : getB t (rCLK_STAT k) 6 = getB s (rCLK_STAT k) 6 := getB_congr (h.regs _ (by unfold NearReg rCLK_STAT; omega)) 6
  rw [Machine.regionUp, Machine.regionUp, hr, regionOf, regionOf, h.regions]

theorem ccRuns (h : Quiet s t) : Machine.ccRuns t 0 = Machine.ccRuns s 0 := by
  have hr : getB t (rCC_CTL 0) 0 = getB s (rCC_CTL 0) 0 := getB_congr (h.regs _ (by unfold NearReg; decide)) 0
  rw [Machine.ccRuns, Machine.ccRuns, hr, h.regionUp (by decide)]

theorem corePresent (h : Quiet s t) (c : Nat) : Machine.corePresent t c = Machine.corePresent s c := by
  rw [Machine.corePresent, Machine.corePresent, clusterPresent, clusterPresent, h.fuses]

theorem storeWaits (h : Quiet s t) (hk : k < 256) : Machine.storeWaits t k = Machine.storeWaits s k := by
  rw [Machine.storeWaits, Machine.storeWaits, clusterOf, clusterOf, h.clusters, h.regionUp (by omega), h.resetting]

theorem ownPkg (h : Quiet s t) : Machine.ownPkg t = Machine.ownPkg s := h.getF_eq (.inl (by decide)) 0 16
theorem mirMode (h : Quiet s t) : Machine.mirMode t = Machine.mirMode s := h.getF_eq (by unfold NearReg; decide) 0 2

theorem mapMode (h : Quiet s t) (k : Nat) : Machine.mapMode t k = Machine.mapMode s k :=
  getB_congr (h.regs _ (by unfold NearReg rFIRN_MAP clusterBase; omega)) 0

theorem memKey (h : Quiet s t) (a : Nat) : Machine.memKey t a = Machine.memKey s a := by rw [Machine.memKey, Machine.memKey, h.mapMode]

theorem firnOpen (h : Quiet s t) (a n : Nat) : Machine.firnOpen t a n = Machine.firnOpen s a n := by
  have hhold (key l d : Nat) : holdSeen t key l d = holdSeen s key l d := by
    unfold holdSeen wheelOf regionOf
    rw [h.net, h.regions]
  have hused (k ch port : Nat) : portUsedBy t k ch port = portUsedBy s k ch port := by rw [portUsedBy, portUsedBy, h.firnEnt]
  have hentries (k port : Nat) : portEntries t k port = portEntries s k port := by rw [portEntries, portEntries, clusterPresent, clusterPresent, h.fuses]
  have hpiece (b : Nat) : pieceOpen t whoHost b = pieceOpen s whoHost b := by
    simp only [pieceOpen, h.mapMode, h.opened, hused, hentries, h.firnEnt, hhold]
  simp only [Machine.firnOpen, firnOpenFor, hpiece]

end Quiet

theorem quiet_setR {off : Nat} (h : ¬ NearReg off) (s : State) (v : BitVec 32) : Quiet s (setR s off v) :=
  ⟨⟨_, _, _, _, _, _, _, _, _, _, rfl⟩, fun _ ho => getR_setR_other s v fun e => h (e ▸ ho), fun _ => rfl⟩
theorem quiet_setF {off : Nat} (h : ¬ NearReg off) (s : State) (lo w v : Nat) : Quiet s (setF s off lo w v) := quiet_setR h s _
theorem quiet_satF {off : Nat} (h : ¬ NearReg off) (s : State) (lo w n : Nat) : Quiet s (satF s off lo w n) := quiet_setF h s lo w _
theorem quiet_setR64 {off : Nat} (h : ¬ NearReg off) (h' : ¬ NearReg (off + 4)) (s : State) (v : Nat) : Quiet s (setR64 s off v) :=
  (quiet_setR h s _).trans (quiet_setR h' _ _)

theorem quiet_withMem (s : State) (m : List (Nat × Byte)) : Quiet s { s with mem := m } := Quiet.of_same ⟨m, s.ccs, s.serve, s.draws, s.trace, s.host, s.pins, s.signals, rfl⟩

theorem quiet_of_ccOnly (h : CcOnly s t) : Quiet s t := by
  obtain ⟨c, n, rfl⟩ := h
  exact Quiet.of_same ⟨_, _, _, _, _, _, _, _, rfl⟩

-- events and signals (R388, R408 to R413) -------------------------------------------------------------------------------------------------------------------

theorem quiet_hostIrq (s : State) (b : Nat) : Quiet s (hostIrq s b) := by
  have h : Quiet s (setR64 s rHOST_IRQ_STAT (setBits (getR64 s rHOST_IRQ_STAT) b 1 1)) := quiet_setR64 (by unfold NearReg; decide) (by unfold NearReg; decide) s _
  have hmsix (x : State) : Quiet x (msix x b) := by
    unfold msix
    split <;> exact Quiet.of_same ⟨_, _, _, _, _, _, _, _, rfl⟩
  exact Quiet.ite (h.trans (hmsix _)) h

theorem quiet_traceRec (s : State) {d : Nat} (hd : d < 4) (typ core slot floe fcyc w2 w3 : Nat) : Quiet s (traceRec s d typ core slot floe fcyc w2 w3) := by
  have hstat : ¬ NearReg (rTRC_STAT d + 4) := by unfold NearReg rTRC_STAT svcBase; omega
  exact Quiet.ite (Quiet.ite (Quiet.of_same ⟨_, _, _, _, _, _, _, _, rfl⟩) (quiet_satF hstat s 16 16 1)) (Quiet.refl s)

theorem not_near_moraine {d n : Nat} (hd : d < 4) (hn : n < 0x1000) : ¬ NearReg (mlogBase d + n) := by
  unfold NearReg mlogBase
  omega

theorem quiet_fillFirst (s : State) {d : Nat} (hd : d < 4) (tier : Nat) (e : Ev) : Quiet s (fillFirst s d tier e) := by
  have hset (k : Nat) (hk : k ≤ 40) (x : State) (v : Nat) : Quiet x (setR64 x (rMLOG_FIRST d + k) v) :=
    quiet_setR64 (not_near_moraine hd (by omega)) (not_near_moraine (n := k + 4) hd (by omega)) x v
  exact (((((hset 0 (by decide) _ _).trans (hset 8 (by decide) _ _)).trans (hset 16 (by decide) _ _)).trans (hset 24 (by decide) _ _)).trans
    (hset 32 (by decide) _ _)).trans (hset 40 (by decide) _ _)

theorem quiet_logEvent (s : State) {d : Nat} (hd : d < 4) (tier : Nat) {e : Ev} (he : e.cls < 256) : Quiet s (logEvent s d tier e) := by
  have hstat : ¬ NearReg (rMLOG_STAT d) := not_near_moraine hd (by decide)
  have hsticky : ¬ NearReg (rMLOG_STICKY d + 8 * (e.cls / 64)) ∧ ¬ NearReg (rMLOG_STICKY d + 8 * (e.cls / 64) + 4) := by
    unfold NearReg rMLOG_STICKY mlogBase
    omega
  have hcount : ¬ NearReg (rMLOG_COUNT d + 4 * (e.cls / 2)) := by
    unfold NearReg rMLOG_COUNT mlogBase
    omega
  have hadd (x : State) : Quiet x (if getF x (rMLOG_COUNT d + 4 * (e.cls / 2)) (16 * (e.cls % 2)) 16 = 0xFFFF then setF x (rMLOG_STAT d) 4 1 1
      else setF x (rMLOG_COUNT d + 4 * (e.cls / 2)) (16 * (e.cls % 2)) 16 (getF x (rMLOG_COUNT d + 4 * (e.cls / 2)) (16 * (e.cls % 2)) 16 + 1)) :=
    Quiet.ite (quiet_setF hstat x 4 1 1) (quiet_setF hcount x _ 16 _)
  have hlog := ((quiet_setR64 hsticky.1 hsticky.2 s (setBits (getR64 s (rMLOG_STICKY d + 8 * (e.cls / 64))) (e.cls % 64) 1 1)).trans
    (hadd _)).trans (quiet_setF hstat _ e.sev 1 1)
  exact Quiet.ite hlog (hlog.trans (quiet_fillFirst _ hd tier e))

/-- An event without an owner is logged and reported, and stops nothing, where its home tier is below 4. -/
theorem quiet_raiseEv_unowned (s : State) {d : Nat} {e : Ev} (hd : d < 4) (ho : e.owner = none) (hcls : e.cls < 256) (hhome : e.home < 4) : Quiet s (raiseEv s d e) := by
  have hstat : ¬ NearReg (rMLOG_STAT d) := not_near_moraine hd (by decide)
  have hlog := quiet_logEvent s hd (evTier s d e).1 hcls
  have hlogged : Quiet s (logged s d e) :=
    (Quiet.ite ((hlog.trans (quiet_setF hstat _ 6 1 1)).trans (quiet_satF hstat _ 16 16 1)) hlog).trans (quiet_traceRec _ hd _ _ _ _ _ _ _)
  have hirqs (x : State) : Quiet x ((List.range 4).foldl (fun s k => setF s (rCC_IRQ_STAT (4 * d + k)) 0 1 1) x) := by
    refine Quiet.foldl (fun y k hk => quiet_setF ?_ y 0 1 1) x
    have := List.mem_range.1 hk
    unfold NearReg rCC_IRQ_STAT rCC_CTL svcBase
    omega
  have hreport (x : State) : Quiet x (reportEvent x d e) :=
    ((Quiet.ite (quiet_hostIrq x _) (Quiet.refl x)).trans (Quiet.ite (hirqs _) (Quiet.refl _))).trans (Quiet.of_same ⟨_, _, _, _, _, _, _, _, rfl⟩)
  rw [raiseEv_eq, contain_unowned _ _ ho (evTier_lt hhome)]
  exact hlogged.trans (hreport _)

/-- What a signal or an event leaves of the memory, the control cores and what is served. -/
structure Still (s t : State) : Prop where
  mem : t.mem = s.mem
  ccs : t.ccs = s.ccs
  serve : t.serve = s.serve

theorem Still.refl (s : State) : Still s s := ⟨rfl, rfl, rfl⟩
theorem Still.trans (h : Still s t) (h' : Still t u) : Still s u := ⟨h'.mem.trans h.mem, h'.ccs.trans h.ccs, h'.serve.trans h.serve⟩
theorem Still.of_noted (h : Noted s t) : Still s t := by
  obtain ⟨⟨r, tr, ho, pi, rfl⟩, -⟩ := h
  exact ⟨rfl, rfl, rfl⟩

theorem ccSignalGo_local (s : State) {k v : Nat} (hv : bits v 52 1 = 0) :
    ccSignalGo s k v = if bits v 20 16 = 0 then s else if corePresent s (bits v 8 8) = false then absentNote s (bits v 8 8) 5 k (bits v 8 8)
      else sendSignal s ⟨bits v 8 8, bits v 0 6, bits v 20 16, bits v 16 4, 2, 1, ownPkg s, k, 5, true⟩ := by
  unfold ccSignalGo
  simp only [hv, Nat.zero_ne_one, if_false]

/-- A signal to a core of this package leaves, or is noted as one to an absent core (R388). -/
theorem signal_facts (s : State) {k v : Nat} (hv : bits v 52 1 = 0) : Quiet s (ccSignalGo s k v) ∧ Still s (ccSignalGo s k v) := by
  have hcore : bits v 8 8 / 64 < 4 := by
    have := bits_lt v 8 8
    omega
  have hsend (g : Sig) : Quiet s (sendSignal s g) :=
    (Quiet.of_same (t := { s with signals := s.signals ++ [g] }) ⟨_, _, _, _, _, _, _, _, rfl⟩).trans
      (quiet_setR64 (by unfold NearReg ledgerBase qCTR; decide) (by unfold NearReg ledgerBase qCTR; decide) _ _)
  have hcls : cABSENT < 256 := by decide
  rw [ccSignalGo_local s hv]
  split_ifs
  · exact ⟨Quiet.refl s, Still.refl s⟩
  · exact ⟨quiet_raiseEv_unowned s hcore rfl hcls (show 0 < 4 by decide), Still.of_noted (noted_raiseEv_unowned s hcore rfl hcls (show 0 < 4 by decide))⟩
  · exact ⟨hsend _, rfl, rfl, rfl⟩

-- stores to a stationary store (R387) -----------------------------------------------------------------------------------------------------------------------

/-- Where an access lies in a stationary store (Table 01-2). -/
theorem placeOf_store_iff {c : Nat} (hn : 0 < n) :
    placeOf a n = .store c ↔ 2 ^ 38 < a + n ∧ 0x10000 ≤ a / 2 ^ 24 ∧ a / 2 ^ 24 - 0x10000 = c ∧ c < 256 ∧ a + n ≤ storeBase c + 2 ^ 21 := by
  have hmax : max 1 n = n := by omega
  have hfirn (h : a + n ≤ 2 ^ 38) : placeOf a n = .firn := if_pos (by rw [hmax]; exact h)
  have hstore (h : ¬ a + n ≤ 2 ^ 38) : placeOf a n =
      if 0x10000 ≤ a / 2 ^ 24 ∧ a / 2 ^ 24 - 0x10000 < 256 ∧ a + n ≤ storeBase (a / 2 ^ 24 - 0x10000) + 2 ^ 21 then .store (a / 2 ^ 24 - 0x10000) else .unmapped := by
    unfold placeOf
    rw [hmax]
    exact if_neg h
  by_cases h : a + n ≤ 2 ^ 38
  · rw [hfirn h]
    exact ⟨fun e => Place.noConfusion e, fun e => absurd h (by omega)⟩
  · rw [hstore h]
    generalize a / 2 ^ 24 - 0x10000 = d
    refine ⟨fun e => ?_, fun e => ?_⟩
    · by_cases hin : 0x10000 ≤ a / 2 ^ 24 ∧ d < 256 ∧ a + n ≤ storeBase d + 2 ^ 21
      · rw [if_pos hin] at e
        obtain rfl : d = c := Place.store.inj e
        exact ⟨by omega, hin.1, rfl, hin.2⟩
      · rw [if_neg hin] at e
        exact Place.noConfusion e
    · obtain ⟨-, hlo, rfl, hhi⟩ := e
      rw [if_pos ⟨hlo, hhi⟩]

/-- The halves of a record lie in the store that holds it. -/
theorem placeOf_halves {c : Nat} (h : placeOf a 16 = .store c) : placeOf a 8 = .store c ∧ placeOf (a + 8) 8 = .store c ∧ c < 256 ∧ a + 16 ≤ 2 ^ 41 := by
  rw [placeOf_store_iff (by decide)] at h
  rw [placeOf_store_iff (by decide), placeOf_store_iff (by decide)]
  unfold storeBase at h ⊢
  omega

theorem sramPlace_below (h : a + n ≤ 2 ^ 41) (hn : 0 < n) (k : Nat) : sramPlace k a n = none := by
  unfold sramPlace
  dsimp only
  rw [if_neg (by omega), if_neg (by omega)]

/-- A store of CC0 that need not wait writes its bytes, and CC0 has nothing else to do (R387). -/
theorem push_store {c : Nat} {bs : List Byte} (hrun : ccRuns s 0 = true) (htodo : (ccOf s 0).todo = []) (hp : placeOf a n = .store c) (hlow : a + n ≤ 2 ^ 41) (hn : 0 < n)
    (hc : corePresent s c = true) (hw : storeWaits s c = false) :
    ∃ t, CcOnly s t ∧ ccOf t 0 = ccOf s 0 ∧ ccPush s 0 (.access none a n (some bs)) = wrBytes t a bs := by
  have hwait : ccItemWaits s 0 (.access none a n (some bs)) = false := by
    simp [ccItemWaits, ccLocalWaits, hp, hc, hw]
  obtain ⟨t, ht, hcc, hpush⟩ := ccPush_of_ready hrun htodo hwait
  have hpres : corePresent t c = true := ((quiet_of_ccOnly ht).corePresent c).trans hc
  refine ⟨t, ht, hcc, hpush.trans ?_⟩
  unfold ccItemGo ccLocal
  simp only [sramPlace_below hlow hn, hp, hpres, Bool.true_eq_false, if_false]

-- accesses to firn (R161, R387) --------------------------------------------------------------------------------------------------------------------------------

/-- CC0 has nothing to do, and clean firn with no request under way may be reached without a mirror. -/
structure Clear (s : State) : Prop where
  runs : ccRuns s 0 = true
  todo : (ccOf s 0).todo = []
  ent : s.firnEnt = []
  beat : s.beatErr = []
  mir : mirMode s = 0

theorem Clear.of_quiet (h : Clear s) (hq : Quiet s t) (htodo : (ccOf t 0).todo = []) : Clear t :=
  ⟨hq.ccRuns.trans h.runs, htodo, hq.firnEnt.trans h.ent, hq.beatErr.trans h.beat, hq.mirMode.trans h.mir⟩

/-- A request that enters and leaves at once, and the row it opens. -/
def counted (s : State) (key : Nat) : State := openRow (ledReturn1 (ledIssue s qFIRNREQ 1) qFIRNREQ) key

theorem counted_clear (s : State) (key : Nat) : Quiet s (counted s key) ∧ Still s (counted s key) := by
  have hled {d : Nat} (hd : d < 0x40) : ¬ NearReg (ledgerBase qFIRNREQ + d) := by
    unfold NearReg ledgerBase qFIRNREQ
    omega
  have hissue : Quiet s (ledIssue s qFIRNREQ 1) := quiet_setR64 (hled (d := 0) (by decide)) (hled (by decide)) s _
  have hret (x : State) : Quiet x (ledReturn1 x qFIRNREQ) := Quiet.ite (quiet_satF (hled (by decide)) x 16 16 1) (quiet_setR64 (hled (by decide)) (hled (d := 12) (by decide)) x _)
  have hopen (x : State) : Quiet x (openRow x key) := by
    refine ⟨⟨_, _, _, _, _, _, _, _, _, _, rfl⟩, fun _ _ => rfl, fun k => ?_⟩
    unfold openRow
    dsimp only
    by_cases hk : k = key / 2 ^ 33
    · rw [hk, stackOf_setStack_same]
    · exact congrArg StackSt.open_ (mget_mset_other _ _ _ hk)
  have hbase : Still s (ledIssue s qFIRNREQ 1) := ⟨rfl, rfl, rfl⟩
  have hstill : Still (ledIssue s qFIRNREQ 1) (counted s key) := by
    obtain ⟨⟨r, hr⟩, -⟩ := regsKeep_ledReturn1 (ledIssue s qFIRNREQ 1) qFIRNREQ
    unfold counted
    rw [hr]
    exact ⟨rfl, rfl, rfl⟩
  exact ⟨(hissue.trans (hret _)).trans (hopen _), hbase.trans hstill⟩

/-- A read within one block returns the bytes that stand there. -/
theorem Clear.read (h : Clear s) (fuel : Nat) (htop : a + n ≤ 2 ^ 38) (hn : 0 < n) (hfit : a % 256 + n ≤ 256) :
    ∃ t, devRead s whoHost (fuel + 2) a n = (t, rdBytes s (memKey s a) n, false) ∧ Quiet s t ∧ Still s t := by
  have hf : isFirn a = true := by
    rw [isFirn, decide_eq_true_eq]
    omega
  have hmin : min n (256 - a % 256) = n := by omega
  have hlen : s.firnEnt.length = 0 := by rw [h.ent]; rfl
  have hsettle : settleChan s (memKey s a) 0 = s := rfl
  obtain ⟨hq, hst⟩ := counted_clear s (memKey s a)
  have hread := readKeys_clean (hq.beatErr.trans h.beat) whoHost (fuel := 9) (key := memKey s a) (n := n) (.inr (by omega))
  have hdone (x : State) (b : Nat) : devRead x whoHost (fuel + 1) b 0 = (x, [], false) := devRead_none x whoHost fuel b
  refine ⟨counted s (memKey s a), ?_, hq, hst⟩
  rw [rdBytes_congr hst.mem] at hread
  unfold counted at hread ⊢
  unfold devRead
  simp only [show ¬ n = 0 by omega, if_false, hf, if_true, hmin, hlen, hsettle, hread, Bool.false_eq_true, Nat.sub_self, hdone, List.append_nil]

theorem writeBeat_same (h : s.beatErr = []) (key : Nat) (bs : List Byte) (w : FirnWho) : ∃ m, (writeBeat s key bs w).1 = { s with mem := m } := by
  unfold writeBeat
  split
  · exact ⟨_, setBeatErr_clean (wrBytes_clean h key bs) key⟩
  · simp only [readBeat_clean h]
    exact ⟨_, setBeatErr_clean (wrBytes_clean h _ _) _⟩

/-- A write of clean beats changes the memory alone. -/
theorem writeKeys_same (h : s.beatErr = []) (w : FirnWho) (fuel key : Nat) (bs : List Byte) : ∃ m, (writeKeys s w fuel key bs).1 = { s with mem := m } := by
  induction fuel generalizing s key bs with
  | zero => exact ⟨s.mem, rfl⟩
  | succ fuel ih =>
    rw [writeKeys]
    split
    · exact ⟨s.mem, rfl⟩
    · obtain ⟨m, hm⟩ := writeBeat_same h key (bs.take (beatPiece key bs.length)) w
      have hclean : (writeBeat s key (bs.take (beatPiece key bs.length)) w).1.beatErr = [] := by rw [hm]; exact h
      obtain ⟨m', hm'⟩ := ih hclean (key + beatPiece key bs.length) (bs.drop (beatPiece key bs.length))
      refine ⟨m', hm'.trans ?_⟩
      rw [hm]

theorem Clear.write_run (h : Clear s) (fuel : Nat) {bs : List Byte} (htop : a + bs.length ≤ 2 ^ 38) (hn : 0 < bs.length) (hfit : a % 256 + bs.length ≤ 256) :
    (devWrite s whoHost (fuel + 2) a bs).1 = (writeKeys (counted s (memKey s a)) whoHost 9 (memKey s a) bs).1 := by
  have hf : isFirn a = true := by
    rw [isFirn, decide_eq_true_eq]
    omega
  have hne : bs.isEmpty = false := List.isEmpty_eq_false_iff.2 (List.ne_nil_of_length_pos hn)
  have hmin : min bs.length (256 - a % 256) = bs.length := by omega
  have hlen : s.firnEnt.length = 0 := by rw [h.ent]; rfl
  have hsettle : settleChan s (memKey s a) 0 = s := rfl
  have hdelta : mirDelta (ledReturn1 (ledIssue s qFIRNREQ 1) qFIRNREQ) a bs = none := if_neg (by rw [mirMode_counted, h.mir]; decide)
  have hnil (x : State) (b : Nat) : devWrite x whoHost (fuel + 1) b [] = (x, false) := by
    unfold devWrite
    exact if_pos rfl
  unfold devWrite counted
  simp only [hne, hf, if_true, Bool.false_eq_true, if_false, hmin, hlen, hsettle, List.take_length, List.drop_length, hdelta, hnil]

theorem writeKeys_leaves (h : s.beatErr = []) (w : FirnWho) (fuel key : Nat) (bs : List Byte) :
    Quiet s (writeKeys s w fuel key bs).1 ∧ (writeKeys s w fuel key bs).1.ccs = s.ccs ∧ (writeKeys s w fuel key bs).1.serve = s.serve := by
  obtain ⟨m, hm⟩ := writeKeys_same h w fuel key bs
  rw [hm]
  exact ⟨quiet_withMem s m, rfl, rfl⟩

/-- A write within one block stores its bytes and changes no other. -/
theorem Clear.write (h : Clear s) (fuel : Nat) {bs : List Byte} (htop : a + bs.length ≤ 2 ^ 38) (hn : 0 < bs.length) (hfit : a % 256 + bs.length ≤ 256) :
    Quiet s (devWrite s whoHost (fuel + 2) a bs).1 ∧ (devWrite s whoHost (fuel + 2) a bs).1.ccs = s.ccs ∧ (devWrite s whoHost (fuel + 2) a bs).1.serve = s.serve ∧
      ∀ b, rdByte (devWrite s whoHost (fuel + 2) a bs).1 b = if memKey s a ≤ b ∧ b < memKey s a + bs.length then bs.getD (b - memKey s a) 0 else rdByte s b := by
  obtain ⟨hq, hst⟩ := counted_clear s (memKey s a)
  have hclean := hq.beatErr.trans h.beat
  obtain ⟨-, hput⟩ := writeKeys_clean hclean whoHost (fuel := 9) (key := memKey s a) (bs := bs) (.inr (by omega))
  obtain ⟨hqw, hccs, hserve⟩ := writeKeys_leaves hclean whoHost 9 (memKey s a) bs
  rw [h.write_run fuel htop hn hfit]
  refine ⟨hq.trans hqw, hccs.trans hst.ccs, hserve.trans hst.serve, fun b => (hput.put b).trans ?_⟩
  rw [rdByte_congr hst.mem]

/-- A store of CC0 to firn that is open (R387). -/
theorem Clear.push (h : Clear s) {bs : List Byte} (hlen : bs.length = 8) (hopen : firnOpen s a 8 = true) (htop : a + 8 ≤ 2 ^ 38) (hfit : a % 256 + 8 ≤ 256) :
    Quiet s (ccPush s 0 (.access none a 8 (some bs))) ∧ (ccOf (ccPush s 0 (.access none a 8 (some bs))) 0).todo = [] ∧
      (ccPush s 0 (.access none a 8 (some bs))).serve = s.serve ∧
      ∀ b, rdByte (ccPush s 0 (.access none a 8 (some bs))) b = if memKey s a ≤ b ∧ b < memKey s a + 8 then bs.getD (b - memKey s a) 0 else rdByte s b := by
  have hp : placeOf a 8 = .firn := by
    unfold placeOf
    exact if_pos htop
  have hmirWaits : mirWaits s a bs = false := by
    rw [mirWaits, mirDelta, if_neg (by rw [h.mir]; decide)]
  have hwait : ccItemWaits s 0 (.access none a 8 (some bs)) = false := by
    simp [ccItemWaits, ccLocalWaits, hp, hopen, hmirWaits]
  obtain ⟨t, ht, hcc, hpush⟩ := ccPush_of_ready h.runs h.todo hwait
  have hq := quiet_of_ccOnly ht
  have hclear : Clear t := h.of_quiet hq (by rw [hcc]; exact h.todo)
  have hforeign : mirForeign t a 8 = false := by
    rw [mirForeign, hclear.mir]
    rfl
  have hgo : ccItemGo t 0 (.access none a 8 (some bs)) = (devWrite t whoHost (0 + 2) a bs).1 := by
    unfold ccItemGo ccLocal
    simp only [sramPlace_below (show a + 8 ≤ 2 ^ 41 by omega) (by decide), hp, hforeign, Bool.false_eq_true, if_false]
  obtain ⟨hqw, hccs, hserve, hput⟩ := hclear.write (a := a) 0 (bs := bs) (by omega) (by omega) (by omega)
  rw [hpush, hgo]
  have hmem : t.mem = s.mem ∧ t.serve = s.serve := by
    obtain ⟨c, n, rfl⟩ := ht
    exact ⟨rfl, rfl⟩
  refine ⟨hq.trans hqw, ?_, hserve.trans hmem.2, fun b => ?_⟩
  · rw [ccOf, hccs, ← ccOf, hcc, h.todo]
  · rw [hput, hq.memKey, hlen, rdByte_congr hmem.1]

-- places in firn (R164) ----------------------------------------------------------------------------------------------------------------------------------------

/-- The digits of an offset in a stack: channel, bank, row, and the place in the row (R164). -/
structure Digits (x l b r h o : Nat) : Prop where
  eq : x = 2 ^ 27 * l + 2 ^ 23 * b + 2 ^ 11 * r + 2 ^ 8 * h + o
  l : l < 64
  b : b < 16
  r : r < 4096
  h : h < 8
  o : o < 256

theorem exists_digits {x : Nat} (hx : x < 2 ^ 33) : ∃ l b r h o, Digits x l b r h o := by
  refine ⟨x / 2 ^ 27, x / 2 ^ 23 % 16, x / 2 ^ 11 % 4096, x / 2 ^ 8 % 8, x % 256, ?_, ?_, ?_, ?_, ?_, ?_⟩ <;> omega

/-- The place of an offset orders its digits anew. -/
theorem Digits.place {x l b r h o : Nat} (d : Digits x l b r h o) : firnPlace false x = 2 ^ 21 * r + 2 ^ 17 * b + 2 ^ 14 * h + 2 ^ 8 * l + o := by
  obtain ⟨rfl, hl, hb, hr, hh, ho⟩ := d
  have h1 : (2 ^ 27 * l + 2 ^ 23 * b + 2 ^ 11 * r + 2 ^ 8 * h + o) / 2 ^ 27 % 2 ^ 6 = l := by omega
  have h2 : (2 ^ 27 * l + 2 ^ 23 * b + 2 ^ 11 * r + 2 ^ 8 * h + o) / 2 ^ 23 % 2 ^ 4 = b := by omega
  have h3 : (2 ^ 27 * l + 2 ^ 23 * b + 2 ^ 11 * r + 2 ^ 8 * h + o) / 2 ^ 11 % 2 ^ 12 = r := by omega
  have h4 : (2 ^ 27 * l + 2 ^ 23 * b + 2 ^ 11 * r + 2 ^ 8 * h + o) % 2 ^ 11 = 2 ^ 8 * h + o := by omega
  simp only [firnPlace, Bool.false_eq_true, if_false, bits_eq_div_mod, Nat.pow_zero, Nat.div_one, h1, h2, h3, h4]
  omega

/-- Places of one stack stay within it, at their offset of 64 bytes, and are those of one offset each. -/
theorem firnPlace_facts (inter : Bool) {x y : Nat} (hx : x < 2 ^ 33) (hy : y < 2 ^ 33) :
    firnPlace inter x < 2 ^ 33 ∧ firnPlace inter x % 64 = x % 64 ∧ (firnPlace inter x = firnPlace inter y → x = y) := by
  cases inter with
  | true => exact ⟨hx, rfl, id⟩
  | false =>
    obtain ⟨l, b, r, h, o, d⟩ := exists_digits hx
    obtain ⟨l', b', r', h', o', d'⟩ := exists_digits hy
    rw [d.place, d'.place]
    obtain ⟨rfl, hl, hb, hr, hh, ho⟩ := d
    obtain ⟨rfl, hl', hb', hr', hh', ho'⟩ := d'
    refine ⟨by omega, by omega, fun e => ?_⟩
    obtain rfl : o = o' := by omega
    obtain rfl : l = l' := by omega
    obtain rfl : h = h' := by omega
    obtain rfl : b = b' := by omega
    obtain rfl : r = r' := by omega
    rfl

/-- The channel of a place is that of its block of 256 bytes. -/
theorem placeChan_block (inter : Bool) {x y : Nat} (hx : x < 2 ^ 33) (hy : y < 2 ^ 33) (hxy : x / 256 = y / 256) :
    placeChan (firnPlace inter x) = placeChan (firnPlace inter y) := by
  cases inter with
  | true =>
    simp only [placeChan, firnPlace, if_true, bits_eq_div_mod]
    omega
  | false =>
    obtain ⟨l, b, r, h, o, d⟩ := exists_digits hx
    obtain ⟨l', b', r', h', o', d'⟩ := exists_digits hy
    rw [d.place, d'.place, placeChan, placeChan, bits_eq_div_mod, bits_eq_div_mod]
    obtain ⟨rfl, hl, hb, hr, hh, ho⟩ := d
    obtain ⟨rfl, hl', hb', hr', hh', ho'⟩ := d'
    obtain rfl : l = l' := by omega
    omega

theorem memKey_firn (s : State) (h : a < 2 ^ 38) : memKey s a = a / 2 ^ 33 * 2 ^ 33 + firnPlace (mapMode s (a / 2 ^ 33)) (a % 2 ^ 33) := by
  have hf : isFirn a = true := by
    rw [isFirn, decide_eq_true_eq]
    exact h
  rw [memKey, if_pos hf, firnBase]

/-- Entries of 64 bytes at different addresses lie apart. -/
theorem memKey_apart (s : State) (ha : a < 2 ^ 38) (ha' : a' < 2 ^ 38) (h64 : a % 64 = 0) (h64' : a' % 64 = 0) (hne : a ≠ a') :
    memKey s a + 64 ≤ memKey s a' ∨ memKey s a' + 64 ≤ memKey s a := by
  rw [memKey_firn s ha, memKey_firn s ha']
  obtain ⟨hlt, hmod, -⟩ := firnPlace_facts (mapMode s (a / 2 ^ 33)) (x := a % 2 ^ 33) (y := a % 2 ^ 33) (Nat.mod_lt _ (by decide)) (Nat.mod_lt _ (by decide))
  obtain ⟨hlt', hmod', hinj⟩ := firnPlace_facts (mapMode s (a' / 2 ^ 33)) (x := a' % 2 ^ 33) (y := a % 2 ^ 33) (Nat.mod_lt _ (by decide)) (Nat.mod_lt _ (by decide))
  by_cases hk : a / 2 ^ 33 = a' / 2 ^ 33
  · rw [hk] at hlt hmod ⊢
    have hoff : firnPlace (mapMode s (a' / 2 ^ 33)) (a' % 2 ^ 33) ≠ firnPlace (mapMode s (a' / 2 ^ 33)) (a % 2 ^ 33) := fun e => by
      have := hinj e
      omega
    generalize firnPlace (mapMode s (a' / 2 ^ 33)) (a' % 2 ^ 33) = p at *
    generalize firnPlace (mapMode s (a' / 2 ^ 33)) (a % 2 ^ 33) = q at *
    omega
  · generalize firnPlace (mapMode s (a' / 2 ^ 33)) (a' % 2 ^ 33) = p at *
    generalize firnPlace (mapMode s (a / 2 ^ 33)) (a % 2 ^ 33) = q at *
    omega

theorem pieceOpen_block (s : State) (w : FirnWho) (h : a / 256 = a' / 256) : pieceOpen s w a = pieceOpen s w a' := by
  have hk : a / 2 ^ 33 = a' / 2 ^ 33 := by omega
  have hch : placeChan (firnPlace (mapMode s (a' / 2 ^ 33)) (a % 2 ^ 33)) = placeChan (firnPlace (mapMode s (a' / 2 ^ 33)) (a' % 2 ^ 33)) := placeChan_block _ (Nat.mod_lt _ (by decide)) (Nat.mod_lt _ (by decide)) (by omega)
  simp only [pieceOpen, hk, hch]

/-- What is open as a whole is open for an access within one of its blocks. -/
theorem firnOpen_within (h : firnOpen s a n = true) (hn : 0 < n) (hlo : a ≤ a') (hhi : a' + m ≤ a + n) (hm : 0 < m) (hfit : a' % 256 + m ≤ 256) (htop : a' < 2 ^ 38) :
    firnOpen s a' m = true := by
  have hone : (a' % 256 + m + 255) / 256 = 1 := by omega
  rw [firnOpen, firnOpenFor, if_neg (by omega), List.all_eq_true] at h
  rw [firnOpen, firnOpenFor, if_neg (by omega), hone, List.all_eq_true]
  intro i hi
  obtain rfl : i = 0 := by
    have := List.mem_range.1 hi
    omega
  have hpiece := h (a' / 256 - a / 256) (List.mem_range.2 (by omega))
  rw [Bool.or_eq_true, decide_eq_true_eq] at hpiece ⊢
  rw [Nat.mul_zero, Nat.add_zero]
  rcases hpiece with hbig | hopen
  · exact absurd hbig (by omega)
  · exact .inr ((pieceOpen_block s whoHost (by omega)).trans hopen)

end Sys2Proof.Safety
end

section
/-! PROOF. O55: serving (R394 to R397). -/

namespace Sys2Proof.Safety

open Sys2Proof.Machine

variable {s t b : State} {a n i : Nat} {x y : Stream}

-- intake and rows (R394, R395) -----------------------------------------------------------------------------------------------------------------------

/-- A state in which other work is served. -/
def withServe (s : State) (v : ServeSt) : State := { s with serve := v }

theorem quiet_withServe (s : State) (v : ServeSt) : Quiet s (withServe s v) := Quiet.of_same ⟨_, _, _, _, _, _, _, _, rfl⟩

/-- Where the next entry of the request ring lies. -/
def entryAt (s : State) : Nat := bits (getR64 s rSRV_REQ) 0 48 + 64 * s.serve.idx

/-- The words of an entry. -/
def entryWords (s : State) (key : Nat) : List Nat := (wordsOf (rdBytes s key 64)).map fun w => w.toNat

/-- The phase that an entry shows. -/
def entryPhase (s : State) (key : Nat) : Bool := decide (bits (leNat (rdBytes s key 8)) 0 1 = 1)

theorem head_entryWords (s : State) (key : Nat) : (entryWords s key).getD 0 0 = leNat (rdBytes s key 8) := by
  have htake : (rdBytes s key 64).take 8 = rdBytes s key 8 := by
    rw [rdBytes, ← List.map_take, List.take_range]
    rfl
  have hlt := leNat_lt (rdBytes s key 8)
  rw [rdBytes_length] at hlt
  have hwords : wordsOf (rdBytes s key 64) = BitVec.ofNat 64 (leNat ((rdBytes s key 64).take 8)) :: (wordsOf (rdBytes s key 64)).drop 1 := by
    rw [wordsOf, rdBytes_length]
    rfl
  rw [entryWords, hwords, List.map_cons, List.getD_cons_zero, htake, BitVec.toNat_ofNat, show 2 ^ 64 = 256 ^ 8 by decide, Nat.mod_eq_of_lt hlt]

theorem entryPhase_eq (s : State) (key : Nat) : decide (bits ((entryWords s key).getD 0 0) 0 1 = 1) = entryPhase s key := by
  rw [head_entryWords, entryPhase]

/-- An entry that is not open ends the intake. -/
theorem intake_closed (h : firnOpen s (entryAt s) 64 = false) (n : Nat) : serveIntake s n = s := by
  cases n with
  | zero => rfl
  | succ n =>
    unfold serveIntake
    exact if_pos (.inl h)

theorem Clear.mirWaits (h : Clear s) (a : Nat) (bs : List Byte) : Machine.mirWaits s a bs = false := by
  rw [Machine.mirWaits, mirDelta, if_neg (by rw [h.mir]; decide)]

/-- The work once an entry of index i has been taken: the next index, and the phase, which turns as the ring ends. -/
def advancedServe (v : ServeSt) (i : Nat) : ServeSt := { v with idx := i, phase := if i = 0 then !v.phase else v.phase }

/-- An entry leaves the ring: its word 0 is cleared, and the index moves on. -/
def requestTaken (s : State) (a : Nat) : State :=
  withServe (ccPush s 0 (.access none a 8 (some (leBytes 8 0))))
    (advancedServe (ccPush s 0 (.access none a 8 (some (leBytes 8 0)))).serve ((s.serve.idx + 1) % 2 ^ getF s (rSRV_REQ + 4) 16 5))

theorem serveIntake_open (hopen : firnOpen s (entryAt s) 64 = true) (hmir : mirWaits s (entryAt s) (leBytes 8 0) = false) {bs : List Byte}
    (hread : devRead s whoHost 3 (entryAt s) 64 = (t, bs, false)) (n : Nat) :
    serveIntake s (n + 1) = if decide (bits (((wordsOf bs).map fun w => w.toNat).getD 0 0) 0 1 = 1) ≠ s.serve.phase then t
      else serveIntake (serveAccept (requestTaken t (entryAt s)) (serveEntry ((wordsOf bs).map fun w => w.toNat))) n := by
  have hgo : ¬ (firnOpen s (entryAt s) 64 = false ∨ mirWaits s (entryAt s) (leBytes 8 0) = true) := by
    rw [hopen, hmir]
    decide
  rw [serveIntake]
  dsimp only
  rw [← entryAt, if_neg hgo, hread]
  simp only [Bool.false_eq_true, false_or]
  rfl

/-- An entry of another phase ends the intake. -/
theorem intake_stop (h : Clear s) (hopen : firnOpen s (entryAt s) 64 = true) (h64 : entryAt s % 64 = 0) (htop : entryAt s + 64 ≤ 2 ^ 38)
    (hphase : entryPhase s (memKey s (entryAt s)) ≠ s.serve.phase) (n : Nat) : ∃ t, serveIntake s (n + 1) = t ∧ Quiet s t ∧ Still s t := by
  obtain ⟨t, hread, hq, hst⟩ := h.read (a := entryAt s) (n := 64) 1 htop (by decide) (by omega)
  rw [← entryPhase_eq] at hphase
  exact ⟨t, (serveIntake_open hopen (h.mirWaits _ _) hread n).trans (if_pos hphase), hq, hst⟩

/-- An entry of the expected phase is taken: its word 0 is 0, and the index has moved on within the ring (R394). -/
theorem intake_take (h : Clear s) (hopen : firnOpen s (entryAt s) 64 = true) (h64 : entryAt s % 64 = 0) (htop : entryAt s + 64 ≤ 2 ^ 38)
    (hphase : entryPhase s (memKey s (entryAt s)) = s.serve.phase) (hnext : s.serve.idx + 1 < 2 ^ getF s (rSRV_REQ + 4) 16 5) (n : Nat) :
    ∃ t, serveIntake s (n + 1) = serveIntake (serveAccept (withServe t { s.serve with idx := s.serve.idx + 1 }) (serveEntry (entryWords s (memKey s (entryAt s))))) n ∧
      Quiet s t ∧ (ccOf t 0).todo = [] ∧
      ∀ b, rdByte t b = if memKey s (entryAt s) ≤ b ∧ b < memKey s (entryAt s) + 8 then 0 else rdByte s b := by
  obtain ⟨t, hread, hq, hst⟩ := h.read (a := entryAt s) (n := 64) 1 htop (by decide) (by omega)
  have htodo : (ccOf t 0).todo = [] := by rw [ccOf, hst.ccs, ← ccOf, h.todo]
  have hopen8 : firnOpen t (entryAt s) 8 = true := (hq.firnOpen _ _).trans (firnOpen_within hopen (by decide) (Nat.le_refl _) (by omega) (by decide) (by omega) (by omega))
  obtain ⟨hqp, htodo', hserve, hput⟩ := (h.of_quiet hq htodo).push (a := entryAt s) (bs := leBytes 8 0) rfl hopen8 (by omega) (by omega)
  have hsize : getF t (rSRV_REQ + 4) 16 5 = getF s (rSRV_REQ + 4) 16 5 := hq.getF_eq (by unfold NearReg; decide) 16 5
  have htaken : requestTaken t (entryAt s) = withServe (ccPush t 0 (.access none (entryAt s) 8 (some (leBytes 8 0)))) { s.serve with idx := s.serve.idx + 1 } := by
    rw [requestTaken, hserve, hst.serve, hsize, Nat.mod_eq_of_lt hnext, advancedServe, if_neg (Nat.succ_ne_zero _)]
  rw [← entryPhase_eq] at hphase
  refine ⟨_, ((serveIntake_open hopen (h.mirWaits _ _) hread n).trans (if_neg (not_not.2 hphase))).trans ?_, hq.trans hqp, htodo', fun b => ?_⟩
  · rw [htaken, entryWords]
  · rw [hput, hq.memKey, rdByte_congr hst.mem]
    refine if_congr Iff.rfl ?_ rfl
    have hzero (i : Nat) : (leBytes 8 0).getD i 0 = 0 := by
      have hz : leBytes 8 0 = List.replicate 8 0 := by decide
      rw [hz, List.getD_eq_getElem?_getD, List.getElem?_replicate]
      split <;> rfl
    exact hzero _

theorem serveAccept_fits (hctx : x.plen + x.maxnew ≤ ctxMax s) (hkv : blocksFor (x.plen + x.maxnew) ≤ kvPool s) :
    serveAccept s x = withServe s { s.serve with queue := s.serve.queue ++ [x] } := by
  unfold serveAccept
  rw [if_neg (by omega)]
  rfl

/-- The head of the queue takes a row where a row and its blocks are free (R395). -/
theorem serveAdmit_one (hq : s.serve.queue = [x]) (hrow : s.serve.rows.length < getF s rSRV_CFG 16 7) (hkv : kvReserved s + blocksFor (x.plen + x.maxnew) ≤ kvPool s) :
    ∃ l, serveAdmit s 1 = withServe s { s.serve with queue := [], rows := s.serve.rows ++ [{ x with blocks := l }] } := by
  unfold serveAdmit
  rw [hq]
  simp only [hrow, hkv, and_self, if_true]
  exact ⟨_, rfl⟩

/-- The ring's entry at the index, of the expected phase and open as its ring is, and the row and blocks that its request needs. -/
structure Requested (s : State) (base : Nat) (x : Stream) : Prop where
  clear : Clear s
  based : base = bits (getR64 s rSRV_REQ) 0 48
  inRing : s.serve.idx + 1 < 2 ^ getF s (rSRV_REQ + 4) 16 5
  opened : firnOpen s base (64 * 2 ^ getF s (rSRV_REQ + 4) 16 5) = true
  aligned : base % 64 = 0
  top : base + 64 * 2 ^ getF s (rSRV_REQ + 4) 16 5 ≤ 2 ^ 38
  alone : s.serve.queue = []
  entry : x = serveEntry (entryWords s (memKey s (entryAt s)))
  phase : entryPhase s (memKey s (entryAt s)) = s.serve.phase
  last : entryPhase s (memKey s (base + 64 * (s.serve.idx + 1))) ≠ s.serve.phase
  fits : x.plen + x.maxnew ≤ ctxMax s
  blocks : kvReserved s + blocksFor (x.plen + x.maxnew) ≤ kvPool s

/-- The intake takes the one entry, and queues its request (R394). -/
theorem Requested.intake {base : Nat} (h : Requested s base x) : ∃ t, serveIntake s (2 ^ getF s (rSRV_REQ + 4) 16 5) = t ∧ Quiet s t ∧
    t.serve = { s.serve with idx := s.serve.idx + 1, queue := [x] } ∧ ∀ b, memKey s (entryAt s) ≤ b → b < memKey s (entryAt s) + 8 → rdByte t b = 0 := by
  obtain ⟨hclear, hbase, hring, hopened, haligned, htop, halone, hentry, hphase, hlast, hfits, hblocks⟩ := h
  have hat : entryAt s = base + 64 * s.serve.idx := by rw [entryAt, hbase]
  generalize hsize : 2 ^ getF s (rSRV_REQ + 4) 16 5 = size at *
  obtain ⟨m, rfl⟩ : ∃ m, size = m + 2 := ⟨size - 2, by omega⟩
  have hopen (j : Nat) (hj : j < m + 2) : firnOpen s (base + 64 * j) 64 = true :=
    firnOpen_within hopened (by omega) (by omega) (by omega) (by decide) (by omega) (by omega)
  obtain ⟨t1, hrun, hq, htodo, hput⟩ := intake_take hclear (hat ▸ hopen _ (by omega)) (by omega) (by omega) hphase (by rw [hsize]; exact hring) (m + 1)
  have hserved : ∀ v, Quiet s (withServe t1 v) := fun v => hq.trans (quiet_withServe t1 v)
  have hctx : ctxMax (withServe t1 { s.serve with idx := s.serve.idx + 1 }) = ctxMax s := (hserved _).getF_eq (by unfold NearReg; decide) 0 13
  have hpool : kvPool (withServe t1 { s.serve with idx := s.serve.idx + 1 }) = kvPool s := congrArg BitVec.toNat ((hserved _).regs _ (by unfold NearReg; decide))
  have hacc : serveAccept (withServe t1 { s.serve with idx := s.serve.idx + 1 }) x = withServe t1 { s.serve with idx := s.serve.idx + 1, queue := [x] } := by
    rw [serveAccept_fits (by rw [hctx]; exact hfits) (by rw [hpool]; omega)]
    simp only [withServe, halone, List.nil_append]
  rw [← hentry, hacc] at hrun
  have hq4 := hserved { s.serve with idx := s.serve.idx + 1, queue := [x] }
  have hclear4 : Clear (withServe t1 { s.serve with idx := s.serve.idx + 1, queue := [x] }) := hclear.of_quiet hq4 htodo
  have hat4 : entryAt (withServe t1 { s.serve with idx := s.serve.idx + 1, queue := [x] }) = base + 64 * (s.serve.idx + 1) := by
    have hreq := hq4.getR64_eq (off := rSRV_REQ) (by unfold NearReg; decide) (by unfold NearReg; decide)
    rw [entryAt, hreq, hbase]
    rfl
  have hphase4 : entryPhase (withServe t1 { s.serve with idx := s.serve.idx + 1, queue := [x] }) (memKey s (base + 64 * (s.serve.idx + 1))) ≠ s.serve.phase := by
    have hapart := memKey_apart s (a := base + 64 * s.serve.idx) (a' := base + 64 * (s.serve.idx + 1)) (by omega) (by omega) (by omega) (by omega) (by omega)
    have hbytes : rdBytes (withServe t1 { s.serve with idx := s.serve.idx + 1, queue := [x] }) (memKey s (base + 64 * (s.serve.idx + 1))) 8 =
        rdBytes s (memKey s (base + 64 * (s.serve.idx + 1))) 8 := by
      refine List.map_congr_left fun i hi => (hput _).trans (if_neg ?_)
      have := List.mem_range.1 hi
      rw [hat]
      omega
    rw [entryPhase, hbytes]
    exact hlast
  have hphase4' : (withServe t1 { s.serve with idx := s.serve.idx + 1, queue := [x] }).serve.phase = s.serve.phase := rfl
  have hmem4 (b : Nat) : rdByte (withServe t1 { s.serve with idx := s.serve.idx + 1, queue := [x] }) b = rdByte t1 b := rfl
  have hserve4 : (withServe t1 { s.serve with idx := s.serve.idx + 1, queue := [x] }).serve = { s.serve with idx := s.serve.idx + 1, queue := [x] } := rfl
  generalize withServe t1 { s.serve with idx := s.serve.idx + 1, queue := [x] } = s4 at *
  obtain ⟨t, hrun4, hq5, hst5⟩ := intake_stop hclear4 (by rw [hat4, hq4.firnOpen]; exact hopen _ hring) (by rw [hat4]; omega) (by rw [hat4]; omega)
    (by rw [hat4, hq4.memKey, hphase4']; exact hphase4) m
  refine ⟨t, hrun.trans hrun4, hq4.trans hq5, hst5.serve.trans hserve4, fun b hlo hhi => ?_⟩
  rw [rdByte_congr hst5.mem, hmem4, hput, if_pos ⟨hlo, hhi⟩]

/-- A poll takes in the one request (R395). -/
theorem Requested.poll {base : Nat} (h : Requested s base x) (hserving : serving s = true) (hrow : s.serve.rows.length < getF s rSRV_CFG 16 7) :
    ∃ s', servePoll s = s' ∧ s'.serve.idx = s.serve.idx + 1 ∧ s'.serve.queue = [] ∧ rdBytes s' (memKey s (entryAt s)) 8 = List.replicate 8 0 ∧
      getF s' (rSRV_STAT + 4) 0 16 = s.serve.rows.length + 1 ∧ ∃ l, s'.serve.rows = s.serve.rows ++ [{ x with blocks := l }] := by
  obtain ⟨t, hrun, hq, hserve, hzero⟩ := h.intake
  have hcfg : getF t rSRV_CFG 16 7 = getF s rSRV_CFG 16 7 := hq.getF_eq (by unfold NearReg; decide) 16 7
  have hpool : kvPool t = kvPool s := congrArg BitVec.toNat (hq.regs _ (by unfold NearReg; decide))
  have hres : kvReserved t = kvReserved s := by rw [kvReserved, kvReserved, hserve]
  obtain ⟨l, hrowIn⟩ := serveAdmit_one (s := t) (x := x) (by rw [hserve]) (by rw [hcfg, hserve]; exact hrow) (by rw [hpool, hres]; exact h.blocks)
  have hpoll : servePoll s = serveCount (withServe t { s.serve with idx := s.serve.idx + 1, queue := [], rows := s.serve.rows ++ [{ x with blocks := l }] }) := by
    unfold servePoll
    rw [if_pos ⟨hserving, h.clear.todo⟩, hrun]
    dsimp only
    rw [hserve]
    dsimp only [List.length_singleton]
    rw [hrowIn, hserve]
  have hlt := getF_lt s rSRV_CFG 16 7
  have hcount (u : State) : getF (serveCount u) (rSRV_STAT + 4) 0 16 = u.serve.rows.length % 2 ^ 16 := getF_setF_same u _ 0 16 _ (by decide)
  have hsame (u : State) : (serveCount u).mem = u.mem ∧ (serveCount u).serve = u.serve := ⟨rfl, rfl⟩
  have hstat := hcount (withServe t { s.serve with idx := s.serve.idx + 1, queue := [], rows := s.serve.rows ++ [{ x with blocks := l }] })
  obtain ⟨hm, hv⟩ := hsame (withServe t { s.serve with idx := s.serve.idx + 1, queue := [], rows := s.serve.rows ++ [{ x with blocks := l }] })
  have hm' : (withServe t { s.serve with idx := s.serve.idx + 1, queue := [], rows := s.serve.rows ++ [{ x with blocks := l }] }).mem = t.mem := rfl
  rw [hpoll]
  refine ⟨_, rfl, by rw [hv]; rfl, by rw [hv]; rfl, ?_, ?_, l, by rw [hv]; rfl⟩
  · refine List.ext_getElem (by rw [rdBytes_length, List.length_replicate]) fun i h1 h2 => ?_
    rw [List.length_replicate] at h2
    simp only [rdBytes, List.getElem_map, List.getElem_range, List.getElem_replicate]
    rw [rdByte_congr (hm.trans hm'), hzero _ (Nat.le_add_right _ _) (by omega)]
  · rw [hstat]
    simp only [withServe, List.length_append, List.length_singleton]
    omega

-- what the rest of a step keeps (R394 to R397) ----------------------------------------------------------------------------------------------------------------

/-- What serving keeps: the count of tokens, interrupts that stand, the steps made, and the rows that run, behind which more may begin. -/
structure Goes (b s : State) : Prop where
  served : getB b rSRV_CTL 0 = true → getB s rSRV_CTL 0 = true ∧ getR s rSRV_STAT = getR b rSRV_STAT
  irq : ∀ n, bits (getR64 b rHOST_IRQ_STAT) n 1 = 1 → bits (getR64 s rHOST_IRQ_STAT) n 1 = 1
  step : s.serve.step = b.serve.step
  rows : b.serve.rows <+: s.serve.rows

namespace Goes

theorem of_calm (h : Calm True b s) : Goes b s := ⟨h.served trivial, h.irq trivial, by rw [h.serve trivial], by rw [h.serve trivial]⟩

theorem refl (s : State) : Goes s s := of_calm (Calm.refl True s)

theorem trans (h : Goes b s) (h' : Goes s t) : Goes b t := by
  refine ⟨fun e => ?_, fun n e => h'.irq n (h.irq n e), h'.step.trans h.step, h.rows.trans h'.rows⟩
  obtain ⟨hctl, hstat⟩ := h.served e
  exact ⟨(h'.served hctl).1, (h'.served hctl).2.trans hstat⟩

theorem withServe (s : State) {v : ServeSt} (hstep : v.step = s.serve.step) (hrows : s.serve.rows <+: v.rows) : Goes s (withServe s v) :=
  ⟨fun e => ⟨e, rfl⟩, fun _ e => e, hstep, hrows⟩

end Goes

theorem goes_push (s : State) (z : CcItem) : Goes s (ccPush s 0 z) := Goes.of_calm (Calm.refl True s).ccPush

/-- The registers that count rows and rejected requests, beside the count of tokens. -/
theorem aside_srvStat_high {on : Prop} : Aside on (rSRV_STAT + 4) := by
  refine ⟨by decide, by decide, fun _ => ⟨by decide, by decide⟩⟩

theorem goes_serveCount (s : State) : Goes s (serveCount s) := Goes.of_calm ((Calm.refl True s).setF fun _ => aside_srvStat_high)

theorem goes_serveTell (s : State) (pkg : Nat) : Goes s (serveTell s pkg) := by
  unfold serveTell
  split
  · exact goes_push s _
  · exact Goes.of_calm (Calm.refl True s).drawFree.ccSigRun

/-- The count of records of a ring. -/
def recordedServe (v : ServeSt) (key n : Nat) : ServeSt := { v with wrote := mset (fun _ => 0) v.wrote key n }

/-- The words of a token record (Table 17-5). -/
def recordWord (s : State) (x : Stream) (last : Bool) (reason index : Nat) : Nat :=
  (if ringCount s x / 2 ^ x.tlog % 2 = 0 then 1 else 0) + (if last then 2 else 0) + 4 * reason + 2 ^ 16 * (index % 2 ^ 13) + 2 ^ 32 * x.reqid

/-- A record that is written, before the requester is told. -/
def recorded (s : State) (x : Stream) (last : Bool) (reason index token : Nat) : State :=
  withServe (tokenWrite s x.rpkg (x.taddr + 16 * (ringCount s x % 2 ^ x.tlog)) (recordWord s x last reason index) token)
    (recordedServe (tokenWrite s x.rpkg (x.taddr + 16 * (ringCount s x % 2 ^ x.tlog)) (recordWord s x last reason index) token).serve (x.rpkg * 2 ^ 48 + x.taddr) (ringCount s x + 1))

theorem serveRecord_eq (s : State) (x : Stream) (last : Bool) (reason index token : Nat) :
    serveRecord s x last reason index token = serveTell (recorded s x last reason index token) x.rpkg := rfl

theorem goes_tokenWrite (s : State) (pkg a w0 w1 : Nat) : Goes s (tokenWrite s pkg a w0 w1) := (goes_push s _).trans (goes_push _ _)

theorem goes_serveRecord (s : State) (x : Stream) (last : Bool) (reason index token : Nat) : Goes s (serveRecord s x last reason index token) := by
  rw [serveRecord_eq]
  refine Goes.trans ?_ (goes_serveTell _ _)
  unfold recorded
  exact (goes_tokenWrite s _ _ _ _).trans (Goes.withServe _ rfl (⟨[], List.append_nil _⟩))

theorem goes_serveAccept (s : State) (x : Stream) : Goes s (serveAccept s x) := by
  unfold serveAccept
  split
  · exact (Goes.of_calm ((Calm.refl True s).satF fun _ => aside_srvStat_high)).trans (goes_serveRecord _ x _ _ _ _)
  · exact Goes.withServe s rfl (⟨[], List.append_nil _⟩)

theorem goes_requestTaken (s : State) (a : Nat) : Goes s (requestTaken s a) := by
  unfold requestTaken
  exact (goes_push s _).trans (Goes.withServe _ rfl (⟨[], List.append_nil _⟩))

theorem goes_serveIntake (s : State) (n : Nat) : Goes s (serveIntake s n) := by
  induction n generalizing s with
  | zero => exact Goes.refl s
  | succ n ih =>
    have hread : Goes s (devRead s whoHost 3 (entryAt s) 64).1 := Goes.of_calm (Calm.refl True s).devRead
    unfold serveIntake
    rw [← entryAt]
    dsimp only
    generalize devRead s whoHost 3 (entryAt s) 64 = r at hread
    split
    · exact Goes.refl s
    · split
      · exact hread
      · exact (hread.trans (goes_requestTaken r.1 (entryAt s))).trans ((goes_serveAccept _ _).trans (ih _))

theorem goes_serveAdmit (s : State) (n : Nat) : Goes s (serveAdmit s n) ∧ (serveAdmit s n).mem = s.mem := by
  induction n generalizing s with
  | zero => exact ⟨Goes.refl s, rfl⟩
  | succ n ih =>
    unfold serveAdmit
    split
    · exact ⟨Goes.refl s, rfl⟩
    · rename_i x q _
      split
      · have hrow (l : List Nat) : Goes s (withServe s { s.serve with queue := q, rows := s.serve.rows ++ [{ x with blocks := l }] }) :=
          Goes.withServe s rfl (⟨_, rfl⟩)
        exact ⟨(hrow _).trans (ih _).1, (ih _).2⟩
      · exact ⟨Goes.refl s, rfl⟩

theorem goes_servePoll (s : State) : Goes s (servePoll s) := by
  unfold servePoll
  split
  · exact ((goes_serveIntake s _).trans (goes_serveAdmit _ _).1).trans (goes_serveCount _)
  · exact Goes.refl s

/-- A poll whose entry is not open changes no memory. -/
theorem servePoll_closed (h : firnOpen s (entryAt s) 64 = false) : (servePoll s).mem = s.mem := by
  have hcount (u : State) : (serveCount u).mem = u.mem := rfl
  unfold servePoll
  split
  · dsimp only
    rw [intake_closed h, hcount, (goes_serveAdmit s _).2]
  · rfl

-- a step (R396, R397) --------------------------------------------------------------------------------------------------------------------------------------------

/-- A signal that CC0 sends to a core of this package waits for nothing (R388). -/
theorem sigRun_facts (hrun : ccRuns s 0 = true) (htodo : (ccOf s 0).todo = []) {v : Nat} (hv : v < 2 ^ 52) : Quiet s (ccSigRun s 0 v) ∧ (ccOf (ccSigRun s 0 v) 0).todo = [] ∧
    (ccSigRun s 0 v).serve = s.serve := by
  have hval : (BitVec.ofNat 64 v).toNat = v := by
    rw [BitVec.toNat_ofNat]
    omega
  have hbit : bits v 52 1 = 0 := by
    rw [bits_eq_div_mod]
    omega
  have hwait : ccItemWaits s 0 (.signal (BitVec.ofNat 64 v)) = false := by
    unfold ccItemWaits
    simp only [hval, hbit]
    rfl
  obtain ⟨t, ht, hcc, hpush⟩ := ccPush_of_ready hrun htodo hwait
  have hgo (w : BitVec 64) : ccItemGo t 0 (.signal w) = ccSignalGo t 0 w.toNat := rfl
  obtain ⟨hq, hst⟩ := signal_facts t (k := 0) hbit
  have hserve : t.serve = s.serve := by
    obtain ⟨c, n, rfl⟩ := ht
    rfl
  rw [ccSigRun, if_pos hrun, hpush, hgo, hval]
  refine ⟨(quiet_of_ccOnly ht).trans hq, ?_, hst.serve.trans hserve⟩
  rw [ccOf, hst.ccs, ← ccOf, hcc, htodo]

/-- CC0 has nothing to do, and a ring slot of a stationary store is within its reach. -/
structure RingSlot (s : State) (a c : Nat) : Prop where
  runs : ccRuns s 0 = true
  todo : (ccOf s 0).todo = []
  place : placeOf a 16 = .store c
  present : corePresent s c = true
  ready : storeWaits s c = false

theorem RingSlot.of_quiet {c : Nat} (h : RingSlot s a c) (hq : Quiet s t) (htodo : (ccOf t 0).todo = []) : RingSlot t a c := by
  obtain ⟨-, -, hc, -⟩ := placeOf_halves h.place
  exact ⟨hq.ccRuns.trans h.runs, htodo, h.place, (hq.corePresent c).trans h.present, (hq.storeWaits hc).trans h.ready⟩

/-- A store of half a record. -/
theorem RingSlot.push {c : Nat} (h : RingSlot s a c) {o : Nat} (ho : o = a ∨ o = a + 8) (bs : List Byte) (hlen : bs.length = 8) :
    Quiet s (ccPush s 0 (.access none o 8 (some bs))) ∧ (ccOf (ccPush s 0 (.access none o 8 (some bs))) 0).todo = [] ∧
      (ccPush s 0 (.access none o 8 (some bs))).serve = s.serve ∧
      ∀ b, rdByte (ccPush s 0 (.access none o 8 (some bs))) b = if o ≤ b ∧ b < o + 8 then bs.getD (b - o) 0 else rdByte s b := by
  obtain ⟨hlow, hhigh, -, htop⟩ := placeOf_halves h.place
  have hplace : placeOf o 8 = .store c := by
    rcases ho with rfl | rfl
    · exact hlow
    · exact hhigh
  obtain ⟨t, ht, hcc, hpush⟩ := push_store (bs := bs) h.runs h.todo hplace (by omega) (by decide) h.present h.ready
  rw [hpush]
  have hsame : t.mem = s.mem ∧ t.serve = s.serve := by
    obtain ⟨k, n, rfl⟩ := ht
    exact ⟨rfl, rfl⟩
  have htodo : (ccOf (wrBytes t o bs) 0).todo = (ccOf t 0).todo := rfl
  refine ⟨(quiet_of_ccOnly ht).trans (quiet_withMem t _), htodo.trans (by rw [hcc, h.todo]), hsame.2, fun b => ?_⟩
  rw [rdByte_wrBytes, hlen, rdByte_congr hsame.1]

theorem rdBytes_eq_of (bs : List Byte) (h : ∀ i, i < bs.length → rdByte s (a + i) = bs.getD i 0) : rdBytes s a bs.length = bs := by
  refine List.ext_getElem (rdBytes_length s a _) fun i h1 h2 => ?_
  simp only [rdBytes, List.getElem_map, List.getElem_range]
  rw [h i h2, List.getD_eq_getElem?_getD, List.getElem?_eq_getElem h2, Option.getD_some]

/-- The record stands at its slot, word 1 at its second half (R397). -/
theorem RingSlot.token {c : Nat} (h : RingSlot s a c) (w0 w1 : Nat) : Quiet s (tokenWrite s (ownPkg s) a w0 w1) ∧ (ccOf (tokenWrite s (ownPkg s) a w0 w1) 0).todo = [] ∧
    (tokenWrite s (ownPkg s) a w0 w1).serve = s.serve ∧ rdBytes (tokenWrite s (ownPkg s) a w0 w1) (a + 8) 8 = leBytes 8 w1 ∧
    rdBytes (tokenWrite s (ownPkg s) a w0 w1) a 8 = leBytes 8 w0 := by
  have heq : tokenWrite s (ownPkg s) a w0 w1 = ccPush (ccPush s 0 (.access none (a + 8) 8 (some (leBytes 8 w1)))) 0 (.access none a 8 (some (leBytes 8 w0))) := by
    unfold tokenWrite
    rw [if_pos rfl]
  have hlen (w : Nat) : (leBytes 8 w).length = 8 := by rw [leBytes, List.length_map, List.length_range]
  obtain ⟨hq1, htodo1, hserve1, hput1⟩ := h.push (.inr rfl) (leBytes 8 w1) (hlen w1)
  rw [heq]
  generalize ccPush s 0 (.access none (a + 8) 8 (some (leBytes 8 w1))) = s1 at *
  obtain ⟨hq2, htodo2, hserve2, hput2⟩ := (h.of_quiet hq1 htodo1).push (.inl rfl) (leBytes 8 w0) (hlen w0)
  refine ⟨hq1.trans hq2, htodo2, hserve2.trans hserve1, ?_, ?_⟩
  · have hbytes := rdBytes_eq_of (s := ccPush s1 0 (.access none a 8 (some (leBytes 8 w0)))) (a := a + 8) (leBytes 8 w1) fun i hi => by
      rw [hlen] at hi
      rw [hput2, if_neg (by omega), hput1, if_pos (by omega), Nat.add_sub_cancel_left]
    rwa [hlen] at hbytes
  · have hbytes := rdBytes_eq_of (s := ccPush s1 0 (.access none a 8 (some (leBytes 8 w0)))) (a := a) (leBytes 8 w0) fun i hi => by
      rw [hlen] at hi
      rw [hput2, if_pos (by omega), Nat.add_sub_cancel_left]
    rwa [hlen] at hbytes

/-- The vector of the requester's own package is raised at once (R397). -/
theorem tell_facts (hrun : ccRuns s 0 = true) (htodo : (ccOf s 0).todo = []) : Quiet s (serveTell s (ownPkg s)) ∧ SameMem s (serveTell s (ownPkg s)) ∧
    (serveTell s (ownPkg s)).serve = s.serve ∧ bits (getR64 (serveTell s (ownPkg s)) rHOST_IRQ_STAT) 16 1 = 1 := by
  obtain ⟨t, ht, hcc, hpush⟩ := ccPush_of_ready (x := .irq 16) hrun htodo rfl
  have htell : serveTell s (ownPkg s) = hostIrq t 16 := by
    unfold serveTell
    rw [if_pos rfl, hpush]
    rfl
  have hsame : t.mem = s.mem ∧ t.serve = s.serve := by
    obtain ⟨k, n, rfl⟩ := ht
    exact ⟨rfl, rfl⟩
  have hst := Still.of_noted (noted_hostIrq t 16)
  rw [htell]
  refine ⟨(quiet_of_ccOnly ht).trans (quiet_hostIrq t 16), fun b => rdByte_congr (hst.mem.trans hsame.1) b, hst.serve.trans hsame.2, ?_⟩
  rw [getR64_hostIrq t (by decide)]
  exact bits_setBits_same _ 16 1 1

/-- A record for a requester of this package is appended, and its vector raised (R397). -/
theorem RingSlot.record {c : Nat} (h : RingSlot s a c) (hpkg : x.rpkg = ownPkg s) (hring : ringCount s x < 2 ^ x.tlog) (ha : a = x.taddr + 16 * ringCount s x) (last : Bool)
    (reason index token : Nat) : ∃ r, serveRecord s x last reason index token = r ∧ Quiet s r ∧
      r.serve = recordedServe s.serve (x.rpkg * 2 ^ 48 + x.taddr) (ringCount s x + 1) ∧ bits (getR64 r rHOST_IRQ_STAT) 16 1 = 1 ∧ rdBytes r (a + 8) 8 = leBytes 8 token ∧
      rdBytes r a 8 = leBytes 8 (recordWord s x last reason index) := by
  obtain ⟨hq, htodo, hserve, hhigh, hlow⟩ := h.token (recordWord s x last reason index) token
  have heq := serveRecord_eq s x last reason index token
  rw [recorded, Nat.mod_eq_of_lt hring, ← ha, hpkg] at heq
  rw [hpkg]
  generalize tokenWrite s (ownPkg s) a (recordWord s x last reason index) token = p at *
  rw [hserve] at heq
  have hq' := hq.trans (quiet_withServe p (recordedServe s.serve (ownPkg s * 2 ^ 48 + x.taddr) (ringCount s x + 1)))
  have hsame : (withServe p (recordedServe s.serve (ownPkg s * 2 ^ 48 + x.taddr) (ringCount s x + 1))).mem = p.mem ∧
      (withServe p (recordedServe s.serve (ownPkg s * 2 ^ 48 + x.taddr) (ringCount s x + 1))).serve = recordedServe s.serve (ownPkg s * 2 ^ 48 + x.taddr) (ringCount s x + 1) :=
    ⟨rfl, rfl⟩
  have htodo' : (ccOf (withServe p (recordedServe s.serve (ownPkg s * 2 ^ 48 + x.taddr) (ringCount s x + 1))) 0).todo = [] := htodo
  generalize withServe p (recordedServe s.serve (ownPkg s * 2 ^ 48 + x.taddr) (ringCount s x + 1)) = w at *
  obtain ⟨hqt, hmem, hservet, hirq⟩ := tell_facts (hq'.ccRuns.trans h.runs) htodo'
  rw [hq'.ownPkg] at hqt hmem hservet hirq
  have hread (o : Nat) : rdBytes (serveTell w (ownPkg s)) o 8 = rdBytes p o 8 := List.map_congr_left fun i _ => (hmem _).trans (rdByte_congr hsame.1 _)
  exact ⟨_, heq, hq'.trans hqt, hservet.trans hsame.2, hirq, (hread _).trans hhigh, (hread _).trans hlow⟩

/-- A row that takes its token and goes on (R396). -/
def rowOn (x : Stream) (v : Nat) (l : List Nat) : Stream := { x with made := x.made + 1, last := v, blocks := l, held := none }

/-- The count of tokens and the row, once a record is appended. -/
def tokenTaken (r : State) (y : Stream) : State := setRow (setR r rSRV_STAT (getR r rSRV_STAT + 1)) 0 y

theorem serveRow_go (hrow : s.serve.rows[0]? = some x) (hheld : x.held = none) (hring : ringCount s x < 2 ^ x.tlog) (hmore : x.made + 1 < x.maxnew) (v : Nat) :
    ∃ l, serveRow s 0 (some (v, false)) = tokenTaken (serveRecord s x false 0 (x.plen + x.made) v) (rowOn x v l) := by
  have hfull : ringFull s x = (false, s) := if_pos hring
  have hlast : decide (x.maxnew ≤ x.made + 1) = false := decide_eq_false (by omega)
  unfold serveRow
  rw [hrow]
  simp only [hheld, hfull, hlast, Bool.false_eq_true, if_false, Bool.or_self]
  exact ⟨_, rfl⟩

/-- The end of a step: rows that are done leave, and the step is counted. -/
def stepEnded (s : State) : State := serveCount (withServe s { s.serve with rows := s.serve.rows.filter fun x => decide (x.made < x.maxnew), step := s.serve.step + 1 })

/-- The signal that starts the module (R396). -/
def stepSignal (s : State) : Nat :=
  Config.serveCounter.toNat + 2 ^ 8 * Config.serveCore.toNat + 2 ^ 16 * ctrGen s Config.serveCore.toNat Config.serveCounter.toNat + 2 ^ 20

theorem stepSignal_lt (s : State) : stepSignal s < 2 ^ 52 := by
  have h1 := Config.serveCounter.isLt
  have h2 := Config.serveCore.isLt
  have h3 : ctrGen s Config.serveCore.toNat Config.serveCounter.toNat < 2 ^ 4 := getF_lt _ _ _ _
  unfold stepSignal
  omega

theorem serveStep_one (hserving : serving s = true) (htodo : (ccOf s 0).todo = []) (hrows : (ccSigRun s 0 (stepSignal s)).serve.rows = [x]) (v : Nat) (stop : Bool) :
    serveStep s [(v, stop)] = servePoll (stepEnded (serveRow (ccSigRun s 0 (stepSignal s)) 0 (some (v, stop)))) := by
  unfold serveStep
  rw [if_neg (by rw [hserving, htodo]; decide)]
  dsimp only
  rw [← stepSignal, hrows]
  rfl

theorem quiet_tokenTaken (r : State) (y : Stream) : Quiet r (tokenTaken r y) :=
  (quiet_setR (by unfold NearReg; decide) r _).trans (Quiet.of_same ⟨_, _, _, _, _, _, _, _, rfl⟩)

theorem quiet_stepEnded (s : State) : Quiet s (stepEnded s) := (quiet_withServe s _).trans (quiet_setF (by unfold NearReg; decide) _ 0 16 _)

/-- A row of this package takes its token, and goes on (R396, R397). -/
theorem RingSlot.step {c : Nat} (h : RingSlot s a c) (hserving : serving s = true) (hrows : s.serve.rows = [x]) (hheld : x.held = none) (hpkg : x.rpkg = ownPkg s)
    (hring : ringCount s x < 2 ^ x.tlog) (hmore : x.made + 1 < x.maxnew) (ha : a = x.taddr + 16 * ringCount s x) (v : Nat) :
    ∃ u l, serveStep s [(v, false)] = servePoll u ∧ Quiet s u ∧ getB u rSRV_CTL 0 = true ∧ u.serve.rows = [rowOn x v l] ∧ u.serve.step = s.serve.step + 1 ∧
      u.serve.idx = s.serve.idx ∧ getR u rSRV_STAT = getR s rSRV_STAT + 1 ∧ bits (getR64 u rHOST_IRQ_STAT) 16 1 = 1 ∧ rdBytes u (a + 8) 8 = leBytes 8 v ∧
      rdBytes u a 8 = leBytes 8 (recordWord s x false 0 (x.plen + x.made)) := by
  obtain ⟨hq1, htodo1, hserve1⟩ := sigRun_facts h.runs h.todo (stepSignal_lt s)
  have hgoes1 : Goes s (ccSigRun s 0 (stepSignal s)) := Goes.of_calm (Calm.refl True s).ccSigRun
  have hrun := serveStep_one (s := s) (x := x) hserving h.todo (by rw [hserve1, hrows]) v false
  have hctl : getB s rSRV_CTL 0 = true := by
    rw [serving, Bool.and_eq_true, Bool.and_eq_true] at hserving
    exact hserving.1.1
  generalize ccSigRun s 0 (stepSignal s) = s1 at *
  have hcount : ringCount s1 x = ringCount s x := by rw [ringCount, ringCount, hserve1]
  have hword : recordWord s1 x false 0 (x.plen + x.made) = recordWord s x false 0 (x.plen + x.made) := by rw [recordWord, recordWord, hcount]
  obtain ⟨l, hrow⟩ := serveRow_go (s := s1) (by rw [hserve1, hrows]; rfl) hheld (by rw [hcount]; exact hring) hmore v
  have hgoes2 := goes_serveRecord s1 x false 0 (x.plen + x.made) v
  obtain ⟨r, hrec, hq2, hserve2, hirq, hhigh, hlow⟩ := (h.of_quiet hq1 htodo1).record (x := x) (hpkg.trans hq1.ownPkg.symm) (by rw [hcount]; exact hring) (by rw [hcount]; exact ha)
    false 0 (x.plen + x.made) v
  rw [hrec] at hrow hgoes2
  rw [hrow] at hrun
  obtain ⟨hctl2, hstat2⟩ := (hgoes1.trans hgoes2).served hctl
  have hq := (hq1.trans hq2).trans ((quiet_tokenTaken r (rowOn x v l)).trans (quiet_stepEnded _))
  have hrows2 : r.serve.rows = [x] := by
    rw [hserve2, recordedServe, hserve1]
    exact hrows
  have hstep2 : r.serve.step = s.serve.step := by rw [hserve2, recordedServe, hserve1]
  have hidx2 : r.serve.idx = s.serve.idx := by rw [hserve2, recordedServe, hserve1]
  have hserve3 : (stepEnded (tokenTaken r (rowOn x v l))).serve =
      { r.serve with rows := (r.serve.rows.set 0 (rowOn x v l)).filter fun x => decide (x.made < x.maxnew), step := r.serve.step + 1 } := rfl
  have hmem3 : (stepEnded (tokenTaken r (rowOn x v l))).mem = r.mem := rfl
  have hkept : ([x].set 0 (rowOn x v l)).filter (fun x => decide (x.made < x.maxnew)) = [rowOn x v l] :=
    List.filter_eq_self.2 fun y hy => by
      obtain rfl := List.mem_singleton.1 hy
      exact decide_eq_true hmore
  have hreg3 (off : Nat) (ho : off ≠ rSRV_STAT) (ho' : off ≠ rSRV_STAT + 4) : getR (stepEnded (tokenTaken r (rowOn x v l))) off = getR r off :=
    (getR_setF_other _ 0 16 _ ho').trans (getR_setR_other r _ ho)
  have hstat3 : getR (stepEnded (tokenTaken r (rowOn x v l))) rSRV_STAT = getR r rSRV_STAT + 1 :=
    (getR_setF_other (withServe (tokenTaken r (rowOn x v l)) _) 0 16 _ (by decide)).trans (getR_setR_same r rSRV_STAT _)
  refine ⟨stepEnded (tokenTaken r (rowOn x v l)), l, hrun, hq, ?_, ?_, ?_, ?_, ?_, ?_, ?_, ?_⟩
  · rw [getB_congr (hreg3 _ (by decide) (by decide)) 0, hctl2]
  · rw [hserve3, hrows2]
    exact hkept
  · rw [hserve3, hstep2]
  · rw [hserve3, hidx2]
  · rw [hstat3, hstat2]
  · rw [getR64, hreg3 _ (by decide) (by decide), hreg3 _ (by decide) (by decide), ← getR64, hirq]
  · rw [rdBytes_congr hmem3, hhigh]
  · rw [rdBytes_congr hmem3, hlow, hword]

theorem recordWord_bits {s : State} {x : Stream} (hring : ringCount s x < 2 ^ x.tlog) (index : Nat) : bits (leNat (leBytes 8 (recordWord s x false 0 index))) 0 1 = 1 ∧
    bits (leNat (leBytes 8 (recordWord s x false 0 index))) 32 32 = x.reqid % 2 ^ 32 := by
  have hphase : ringCount s x / 2 ^ x.tlog % 2 = 0 := by rw [Nat.div_eq_of_lt hring]
  rw [leNat_leBytes, recordWord, if_pos hphase, if_neg Bool.false_ne_true, bits_eq_div_mod, bits_eq_div_mod]
  omega

/-- Settles O55: the intake takes the one entry of the expected phase and stops at the next; a step's records and signals leave what the rest of the step rests on. -/
theorem servingAdmitsAndAdvances : Obligations.ServingAdmitsAndAdvances := by
  unfold Obligations.ServingAdmitsAndAdvances
  intro s hserving htodo
  have hrun : ccRuns s 0 = true := by
    rw [serving, Bool.and_eq_true] at hserving
    exact hserving.2
  refine ⟨?_, fun x tok a c hrows hheld hpkg hring hmore ha hplace hpres hwait => ?_⟩
  · rintro base size i key x hbase rfl rfl hnext hopen hal htop hent hbeat hmir rfl hqueue hx hphase hlast hctx hkv hrow
    have hat : entryAt s = base + 64 * s.serve.idx := by rw [entryAt, hbase]
    have hreq : Requested s base x := ⟨⟨hrun, htodo, hent, hbeat, hmir⟩, hbase, hnext, hopen, hal, htop, hqueue, by rw [hat]; exact hx, by rw [hat]; exact hphase, hlast, hctx, hkv⟩
    obtain ⟨s', hpoll, hidx, hq, hzero, hcount, l, hrows⟩ := hreq.poll hserving hrow
    rw [hat] at hzero
    exact ⟨s', congrArg Host.Outcome.next hpoll, hidx, hq, hzero, hcount, _, hrows, rfl, rfl, rfl⟩
  · obtain ⟨u, l, hstep, hq, hctl, hrows', hsteps, hidx, hstat, hirq, hhigh, hlow⟩ :=
      RingSlot.step ⟨hrun, htodo, hplace, hpres, hwait⟩ hserving hrows hheld hpkg hring hmore ha tok.toNat
    have hgoes := goes_servePoll u
    obtain ⟨r, hbehind⟩ := hgoes.rows
    rw [hrows'] at hbehind
    refine ⟨_, congrArg Host.Outcome.next hstep, hgoes.step.trans hsteps, (hgoes.served hctl).2.trans hstat, hgoes.irq 16 hirq, ⟨_, r, hbehind.symm, rfl, rfl, rfl⟩, fun hclosed => ?_⟩
    have hat : entryAt u = bits (getR64 s rSRV_REQ) 0 48 + 64 * s.serve.idx := by
      rw [entryAt, hidx, hq.getR64_eq (off := rSRV_REQ) (by unfold NearReg; decide) (by unfold NearReg; decide)]
    have hmem := servePoll_closed (s := u) (by rw [hat, hq.firnOpen]; exact hclosed)
    rw [rdBytes_congr hmem, rdBytes_congr hmem, hhigh, hlow]
    exact ⟨rfl, recordWord_bits hring _⟩

end Sys2Proof.Safety
end
